-- ==== Sys2Proof/Word.lean ====
section
/-!
DEFINITION. Word types of the BM2 model: what the spec adds, shifts or masks is a bit vector; memory keys, counts and
indices are plain `Nat`. The small types that commands and state share: reset domains and access types of registers (R9,
R13), the masters of R39, the forms of operands.
-/
namespace Sys2Proof

/-- A byte of memory, of a link or of the flash (R5: multi-byte values are little-endian). -/
abbrev Byte := BitVec 8
/-- A 32-bit slot word, a 32-bit register, a program-store slot (R82). -/
abbrev W32 := BitVec 32
/-- A 64-bit register, a scalar register, one word of the protected memories. -/
abbrev W64 := BitVec 64
/-- A bundle: four slot words, S lowest (R82). -/
abbrev W128 := BitVec 128
/-- A vector or descriptor register (R98). -/
abbrev W512 := BitVec 512
/-- A cell word of the Loam (chapter 15). -/
abbrev W16 := BitVec 16

/-- A table with a value for every number: the listed pairs, keys strictly rising, and nothing listed that equals what an
unlisted number holds. The default is given where the table is read (`mget`). -/
abbrev NMap (α : Type) := List (Nat × α)

/-- The reset domains of R13. -/
inductive Domain where
  | cold | device | port | plot
  deriving DecidableEq, Repr

/-- The access types of R9. -/
inductive Acc where
  | rw | ro | wo | w1c | w1s | rc | rwl
  deriving DecidableEq, Repr

/-- The place of a register field: the 64-bit word of a register of several words, the lowest bit in it, the width. -/
structure Fld where
  word  : Nat
  lo    : Nat
  width : Nat
  deriving DecidableEq, Repr

/-- A field row of a register table: lowest bit in the whole register, width, access type (R9), reset value. -/
structure FldDef where
  lo    : Nat
  width : Nat
  acc   : Acc
  reset : Nat
  deriving DecidableEq, Repr

/-- A register table: CSR offset of the first copy, (stride, count) of each index of a repeated register, number of
64-bit words, width of a word, reset domain, fields. -/
structure RegDef where
  base   : Nat
  dims   : List (Nat × Nat)
  words  : Nat
  width  : Nat
  dom    : Domain
  fields : List FldDef
  deriving DecidableEq, Repr

/-- Who sends an access or a request: the sources of R39. `unit u c` is context `c` of unit `u`; units 0–25,599 are the
logical cores and 25,600 + k is control processor k. -/
inductive Master where
  /-- Host A (`p = 0`) or host B (`p = 1`), through its own port. -/
  | host (p : Nat)
  /-- The management controller. -/
  | mc
  /-- A side-band requester, through the MC. -/
  | sideBand
  /-- Context `c` of core or control processor `u`. -/
  | unit (u c : Nat)
  /-- The loader. -/
  | loader
  deriving DecidableEq, Repr

/-- The four slots of a bundle, in the order of R82. -/
inductive Slot where
  | S | V | M | X
  deriving DecidableEq, Repr

/-- The lane types of R132. -/
inductive VTy where
  | i32 | f32 | i16 | bf16 | cf32
  deriving DecidableEq, Repr

/-- The compare codes of R129. -/
inductive Cc where
  | eq | ne | lt | ge | ltu | geu
  deriving DecidableEq, Repr

end Sys2Proof
end

