-- ==== Sys2Proof/Syntax.lean ====
section
/-!
DEFINITION. The commands of the BM2, one constructor per row of spec/opcode_table.json, in the table's order. In a core row
`u` is the unit (logical core, or 25,600 + k for control processor k) and `p` the predicate that the slot names (R85); the
remaining operands are the fields of the instruction. In a device row the operands say what reaches the block: the master,
the unit it happens at, and what the world outside the model contributes (a pin, a measurement, an answer of a host).
-/
namespace Sys2Proof
open Sys2Proof

/-! ### Operand types of device commands -/

/-- Where an operation on a messaging block comes from: an access in flight, a write of host `p` to a BAR2 port (`good`: of
the size and alignment of R378), a request of another module (module × 8 + group, its tag) under R361. -/
inductive OpFrom where
  | req (tag : Nat)
  /-- A Memory Write of host `p` at a BAR2 offset (R378). -/
  | bar2 (p off : Nat) (data : List Byte)
  | remote (mod rtag i : Nat) (v : W64)
  deriving DecidableEq, Repr

/-- Where a submission to a queue comes from (R374). -/
inductive SubmitFrom where
  | req (tag : Nat)
  | bar2 (p off : Nat) (data : List Byte)
  deriving DecidableEq, Repr

/-- A read or write of a lock: by an instruction in flight, or by a master through CSR space. -/
inductive LockFrom where
  | req (tag : Nat)
  | csr (m : Master) (i : Nat)
  deriving DecidableEq, Repr

/-- Outcomes of a Page Request (R296). -/
inductive PageResp where
  | success | invalid | failure
  deriving DecidableEq, Repr

/-- How a burst is read (R386): at once; after 1 or 2 good retries; not at all, its check word inverted or its retries failed. -/
inductive Burst where
  | good
  | retried (n : Nat)
  | failed (inverted : Bool)
  deriving DecidableEq, Repr

/-- How the bursts of one stripe operation fare (R386), by channel 8i + l: reads, those not named being good, and the channels whose
package reports a write as received in error three times. -/
structure Bursts where
  reads : List (Nat × Burst)
  lost  : List Nat
  deriving DecidableEq, Repr

/-- A request at an LMC: part `part` of this module's request `tag`; request `rtag` of another module; the host read that has
waited longest but `i`. -/
inductive LmcReq where
  | own (tag part : Nat)
  | remote (mod rtag : Nat)
  | host (i : Nat)
  deriving DecidableEq, Repr

/-- What a host reads of its port's configuration space (R462, R463): identification, what a capability offers, what is set. -/
inductive CfgReg where
  | vendorId | deviceId | revisionId | classCode | subVendorId | subsystemId | serialNumber
  | payloadOffered | readSizeOffered | tagBits | nonPosted | aspmOffered | timeoutRanges | rrsVisible
  | powerStates | pme | msixVectors | headerLog | bar4Sizes | bar0Size | bar2Size
  | invalidateDepth | pageAligned | pageCapacity | pasid | doeMailboxes
  | payload | readSize | aspm | power | bme | msixEn | funcMask | ats | pri | pageAlloc | pageStopped | bar4
  | aer (uncorrectable : Bool)
  | aerMask (uncorrectable : Bool)
  deriving DecidableEq, Repr

/-- A host's accesses to its port's configuration space, and to BAR2 where no other command of the table carries them (R463–R465,
R474; log 109). -/
inductive HostCfg where
  | bme (on : Bool)
  | msixEn (on : Bool)
  | funcMask (on : Bool)
  | ats (on : Bool)
  | pri (on : Bool)
  /-- BAR4 resized to 2^`log` bytes. -/
  | bar4 (log : Nat)
  /-- An MSI-X table entry; masked when `mask`. -/
  | vector (vec addr data : Nat) (mask : Bool)
  /-- Power state D3hot, or D0. -/
  | power (d3hot : Bool)
  /-- ASPM L1 enabled. -/
  | aspm (on : Bool)
  /-- Max_Payload_Size and Max_Read_Request_Size in bytes. -/
  | payload (n : Nat)
  | readSize (n : Nat)
  /-- The allocation of outstanding Page Requests (R296). -/
  | pageAlloc (n : Nat)
  /-- An AER internal-error status bit is cleared, or its mask set. -/
  | aerClear (uncorrectable : Bool)
  | aerMask (uncorrectable on : Bool)
  /-- A configuration read. -/
  | read (r : CfgReg)
  /-- A Memory Read of `n` bytes at a BAR2 offset, `b`: how the LPDDR5X bursts of a load-window read fares. -/
  | bar2Read (off n : Nat) (b : Bursts)
  deriving DecidableEq, Repr

/-- The answer of another module to a request (R501): data with the offsets of its poisoned words, a status, a code with no
data. -/
inductive RemoteAns where
  | data (d : List Byte) (bad : List Nat)
  | status (v : Nat)
  | failed (code : Nat)
  /-- A WAIT found the waiter pool full (R359). -/
  | full
  deriving DecidableEq, Repr

/-- What PACKET_FORWARD moves: the next flit of the port's own traffic; or the header of a packet whose other hops no command lists,
which passes the port whole (log 111): a part of an access, the answer to it, the oldest trace record of a probe. -/
inductive Passing where
  | flit
  | req (tag part : Nat)
  | ans (tag part : Nat)
  | record (p : Nat)
  deriving DecidableEq, Repr

/-- A packet that comes in over Cyust: an answer to a request of this module; a read or write of local LPDDR5X by module
`mod` (group × 64 + module) with its tag; a packet for another module. -/
inductive PktIn where
  | answer (tag part : Nat) (a : RemoteAns)
  /-- A read or write of local LPDDR5X, with its stamp. -/
  | read (mod rtag off n stamp : Nat)
  | write (mod rtag off stamp : Nat) (d : List Byte) (bad : List Nat)
  /-- A packet for another module: its VC, stamp, DETOUR, flits. -/
  | transit (dst vc stamp : Nat) (detour : Bool) (flits : List (BitVec 256))
  /-- A waiter record of module `mod` (module × 8 + group) and its request is withdrawn (R360). -/
  | withdraw (mod rtag : Nat)
  deriving DecidableEq, Repr

/-- Blocks that a receiver sees, as 2-bit header and byte 0 of the payload (R485, R486); none: no signal. -/
abbrev Heads := Option (List (Nat × Nat))

/-- What a CREDIT block returns (R486): flits of a VC and dateline class, or bytes of a stream of module `mod`. -/
inductive CreditIn where
  | packet (vc cls n : Nat)
  | stream (mod rlink bytes : Nat)
  deriving DecidableEq, Repr

/-- What a port has measured since its last delay measurement (R484, R492, R494): lane, eye height and width, corrected
symbols or loopback differences. -/
structure LaneFig where
  lane   : Nat
  eyeH   : Nat
  eyeW   : Nat
  symErr : Nat
  deriving DecidableEq, Repr

/-- What a core test finds on a physical core (R559): step 1 failed, failed columns of E0 and E1 as masks, failed rows as
(Silt?, bank or die × 4 + sub-bank, row). -/
structure TestFind where
  core : Nat
  seq  : Bool
  e0   : Nat
  e1   : Nat
  rows : List (Bool × Nat × Nat)
  deriving DecidableEq, Repr

/-- The start-up findings of R567: core tests that found something, failed Hourglass and thermal sensors. -/
structure StartUp where
  tests : List TestFind
  hg    : List Nat
  th    : List Nat
  deriving DecidableEq, Repr

/-- A pace marker or keep-alive (R487): term, low 40 bits of the slot number, low 38 bits of the fire time, period, the
master's place. -/
structure Marker where
  term   : Nat
  slot   : Nat
  fire   : Nat
  period : Nat
  module : Nat
  group  : Nat
  deriving DecidableEq, Repr

/-! ### The commands -/

/-- The rows of the opcode table. -/
inductive Instr where
  /-- COLD_RESET (R13): Power-up or deassertion of PWR_GOOD resets everything except the identity array and the flash, including the MC and the always-on domain. -/
  | coldReset
  /-- PWR_GOOD_RISE (R581): PWR_GOOD rises, which ends cold reset and starts step 1 of the boot sequence. -/
  | pwrGoodRise
  /-- VIN_LOSS (R582): VIN stays below 38 V for more than 50 µs or falls below 30 V, so the module pulls PWR_GOOD low, enters cold reset and removes VCORE. -/
  | vinLoss (v us : Nat)
  /-- DEV_RESET_N_PULSE (R583): A DEV_RESET_N pulse of at least 1 µs starts a device reset that lasts while the pin is low. -/
  | devResetNPulse (ns : Nat)
  /-- DEVICE_RESET_RELEASE (R512): The compute side leaves device reset and runs boot steps 5 to 7, including memory clearing, Hourglass calibration and the control-cluster start. -/
  | deviceResetRelease (f : StartUp)
  /-- COMPUTE_UP (R512): GLB_STATUS.COMPUTE_UP sets at boot step 7, DEV_LIVE may rise and the load deadline starts. -/
  | computeUp
  /-- CYREF_MISSING (R585): The Cyust reference is absent at boot step 5 or fails while the compute side runs, so 0x0A0E is logged and compute is held in reset or taken down as device-fatal. -/
  | cyrefMissing
  /-- CYREF_APPEAR (R585): The missing Cyust reference appears, and the compute side is released 10 ms later. -/
  | cyrefAppear (f : StartUp)
  /-- VCCIO_APPLIED (R589): A bank's supply comes up, so the bank samples its straps, recalibrates its delay lines and resumes once CAL_DONE sets. -/
  | vccioApplied (r level strap : Nat)
  /-- BANK_SUPPLY_LOST (R589): The supply of a bank with released cells falls away, so 0x0717 is logged and the cells stop as for a lost clock. -/
  | bankSupplyLost (r : Nat)
  /-- CABLE_PRESENT_CHANGE (R580): CAB_PRSNT_N changes, so CAB_PWR is applied, or removed within 1 ms. -/
  | cablePresentChange (p : Nat) (on : Bool)
  /-- CSR_WRITE (R9): A write to a register field that has no row of its own acts by its access type (RW, W1C, W1S, RWL); writes to reserved offsets have no effect. -/
  | csrWrite (m : Master) (o n : Nat) (v : W64)
  /-- READ_CLEAR_COUNTER (R9): A read of an RC field returns its value and clears it when the read comes from a master that may write the block. -/
  | readClearCounter (m : Master) (o n : Nat)
  /-- HOURGLASS_UPDATE (R47): Every 1 µs each Hourglass sensor updates its reading, and PACE_HG_MIN follows the slowest reading. -/
  | hourglassUpdate (rs : List Nat)
  /-- HG_CAL_DONE (R49): Hourglass calibration completes, so HG_CAL and PACE_HG_MIN.VALID set and Glints may be issued. -/
  | hgCalDone
  /-- PACE_CFG_WRITE (R80): A write to PACE_CFG sets source, role, rank and enable, is checked under R80, and setting ENABLE starts the pace source afresh. -/
  | paceCfgWrite (m : Master) (v : Nat)
  /-- PACE_PERIOD_WRITE (R58): A write to PACE_PERIOD changes the internal period from the Glint already scheduled onward. -/
  | pacePeriodWrite (m : Master) (v : Nat)
  /-- PACE_FLOOR_TARGET_WRITE (R46): A write to PACE_FLOOR_TARGET is accepted when it is not below the committed build rate, and otherwise refused with 0x0D09. -/
  | paceFloorTargetWrite (m : Master) (v : Nat)
  /-- PACE_OVR_BASE_WRITE (R597): A write to PACE_OVR_BASE places the overrun ring and resets HEAD and TAIL, or is refused as a whole. -/
  | paceOvrBaseWrite (m : Master) (v : W64)
  /-- PACE_IN_EDGE (R59): A qualified edge on PACE_IN is timestamped and accepted, and the Glint is scheduled at the timestamp plus PACE_LATENCY. -/
  | paceInEdge (high : Bool) (ts hold : Nat)
  /-- PACE_SOURCE_LOST (R61): No edge is accepted within PACE_IN_TIMEOUT, so 0x0D02 is reported and the source holds or free-runs. -/
  | paceSourceLost
  /-- GLINT_FIRE (R50): Pace time reaches the scheduled fire time, so the Glint reaches every core and region, PACE_SLOT rises and PACE_OUT pulses. -/
  | glintFire
  /-- PACE_MARKER_RECEIVE (R63): A pace marker arrives; the first copy is forwarded and followed by term, and later copies are discarded. -/
  | paceMarkerReceive (p : Nat) (k : Marker)
  /-- KEEP_ALIVE_SEND (R70): Every 100 µs the master sends a keep-alive. -/
  | keepAliveSend
  /-- KEEP_ALIVE_RECEIVE (R70): A keep-alive from the master arrives and restarts a backup's loss timer without firing a Glint. -/
  | keepAliveReceive (p : Nat) (k : Marker)
  /-- PACE_MASTER_CHANGE (R71): A backup's loss timer expires, so it takes over as master with term plus 1 and reports 0x0D06. -/
  | paceMasterChange
  /-- PACE_STATE_REQUEST_RETRY (R66): A follower without SLOT_SYNC repeats its pace-state request every 100 µs until it is answered. -/
  | paceStateRequestRetry
  /-- PACE_STATE_REQUEST (R66): The master receives a pace-state request and answers with its PACE_SLOT and term. -/
  | paceStateRequest (src : Nat)
  /-- PACE_STATE_ANSWER (R66): A follower receives the pace-state answer and sets SLOT_SYNC. -/
  | paceStateAnswer (slot term : Nat)
  /-- EMPTY_BEAT (R97): The sequencer steps a beat in which no bundle issues, either because no context is READY or because the selected bundle faults at issue. -/
  | emptyBeat (u : Nat)
  /-- NOP (R123): A slot holding NOP does nothing. -/
  | nop (u p : Nat) (sl : Slot)
  /-- ADD (R128): Scalar add, rd := ra + rb. -/
  | add (u p rd ra rb : Nat)
  /-- SUB (R128): Scalar subtract. -/
  | sub (u p rd ra rb : Nat)
  /-- AND (R128): Scalar bitwise and. -/
  | and (u p rd ra rb : Nat)
  /-- OR (R128): Scalar bitwise or. -/
  | or (u p rd ra rb : Nat)
  /-- XOR (R128): Scalar bitwise xor. -/
  | xor (u p rd ra rb : Nat)
  /-- SLL (R128): Scalar left shift by rb[5:0]. -/
  | sll (u p rd ra rb : Nat)
  /-- SRL (R128): Scalar logical right shift. -/
  | srl (u p rd ra rb : Nat)
  /-- SRA (R128): Scalar arithmetic right shift. -/
  | sra (u p rd ra rb : Nat)
  /-- MUL (R128): Low 64 bits of the product. -/
  | mul (u p rd ra rb : Nat)
  /-- MULHU (R128): High 64 bits of the unsigned product. -/
  | mulhu (u p rd ra rb : Nat)
  /-- MIN (R128): Signed minimum. -/
  | min (u p rd ra rb : Nat)
  /-- MAX (R128): Signed maximum. -/
  | max (u p rd ra rb : Nat)
  /-- MINU (R128): Unsigned minimum. -/
  | minu (u p rd ra rb : Nat)
  /-- MAXU (R128): Unsigned maximum. -/
  | maxu (u p rd ra rb : Nat)
  /-- ADDI (R128): Add a sign-extended imm13. -/
  | addi (u p rd ra imm : Nat)
  /-- ANDI (R128): And with a zero-extended imm13. -/
  | andi (u p rd ra imm : Nat)
  /-- ORI (R128): Or with a zero-extended imm13. -/
  | ori (u p rd ra imm : Nat)
  /-- XORI (R128): Xor with a zero-extended imm13. -/
  | xori (u p rd ra imm : Nat)
  /-- SLLI (R128): Left shift by an immediate. -/
  | slli (u p rd ra sh : Nat)
  /-- SRLI (R128): Logical right shift by an immediate. -/
  | srli (u p rd ra sh : Nat)
  /-- SRAI (R128): Arithmetic right shift by an immediate. -/
  | srai (u p rd ra sh : Nat)
  /-- MOVI (R128): rd := sign-extended imm18. -/
  | movi (u p rd imm : Nat)
  /-- MOVK (R128): Insert imm16 into halfword hw of rd. -/
  | movk (u p rd hw imm : Nat)
  /-- CMP (R129): Compare two scalars and write a predicate. -/
  | cmp (u p pd : Nat) (cc : Cc) (ra rb : Nat)
  /-- PAND (R128): Predicate and. -/
  | pand (u p pd pa pb : Nat)
  /-- POR (R128): Predicate or. -/
  | por (u p pd pa pb : Nat)
  /-- PXOR (R128): Predicate xor. -/
  | pxor (u p pd pa pb : Nat)
  /-- PANDN (R128): Predicate and-not. -/
  | pandn (u p pd pa pb : Nat)
  /-- RDS (R130): Read the system value that sel selects. -/
  | rds (u p rd sel : Nat)
  /-- BR (R104): Branch to a target, ending the repeat levels it leaves. -/
  | br (u p target : Nat)
  /-- CALL (R105): Call a target and write the return index to s31. -/
  | call (u p target : Nat)
  /-- RET (R128): Return to the index held in s31. -/
  | ret (u p : Nat)
  /-- ERET (R114): Return from a trap to EPC and set EIE. -/
  | eret (u p : Nat)
  /-- LOOP (R103): Open a block repeat whose count comes from ra. -/
  | loop (u p ra stop : Nat)
  /-- LOOPI (R103): Open a block repeat with an immediate count. -/
  | loopi (u p count stop : Nat)
  /-- REPI (R106): Repeat the next bundle ra[15:0] times without interruption. -/
  | repi (u p ra : Nat)
  /-- REPII (R106): Repeat the next bundle n times without interruption. -/
  | repii (u p n : Nat)
  /-- REPI_STALL (R108): One REPI iteration waits on an operand for more than 1 ms, so the context faults with 0x0108. -/
  | repiStall (u : Nat)
  /-- VADD (R133): Vector add per enabled lane. -/
  | vadd (u p : Nat) (t : VTy) (vd va vb : Nat)
  /-- VSUB (R133): Vector subtract. -/
  | vsub (u p : Nat) (t : VTy) (vd va vb : Nat)
  /-- VMUL (R133): Vector multiply, with the complex product for CF32. -/
  | vmul (u p : Nat) (t : VTy) (vd va vb : Nat)
  /-- VFMA (R133): Vector fused multiply-add with one rounding. -/
  | vfma (u p : Nat) (t : VTy) (vd va vb : Nat)
  /-- VMIN (R229): Vector minimum under the NaN and signed-zero rules. -/
  | vmin (u p : Nat) (t : VTy) (vd va vb : Nat)
  /-- VMAX (R229): Vector maximum. -/
  | vmax (u p : Nat) (t : VTy) (vd va vb : Nat)
  /-- VAND (R133): Vector bitwise and. -/
  | vand (u p : Nat) (t : VTy) (vd va vb : Nat)
  /-- VOR (R133): Vector bitwise or. -/
  | vor (u p : Nat) (t : VTy) (vd va vb : Nat)
  /-- VXOR (R133): Vector bitwise xor. -/
  | vxor (u p : Nat) (t : VTy) (vd va vb : Nat)
  /-- VSHL (R133): Vector left shift. -/
  | vshl (u p : Nat) (t : VTy) (vd va vb : Nat)
  /-- VSHR (R133): Vector right shift, logical or arithmetic. -/
  | vshr (u p : Nat) (t : VTy) (vd va vb : Nat) (arith : Bool)
  /-- VCMP (R133): Vector compare into a predicate, quiet for every cc. -/
  | vcmp (u p : Nat) (t : VTy) (pd : Nat) (cc : Cc) (va vb : Nat)
  /-- VCMAC (R228): Complex multiply-accumulate in one beat. -/
  | vcmac (u p vd va vb : Nat)
  /-- VCONV (R232): Convert lanes between vector types. -/
  | vconv (u p : Nat) (t d : VTy) (vd va : Nat) (sat : Bool) (h : Nat)
  /-- VRED (R230): Reduce the enabled lanes in ascending order into lane 0, with a latency of 4 beats. -/
  | vred (u p : Nat) (t : VTy) (vd va op : Nat)
  /-- VPERM (R231): Permute lanes by an index vector. -/
  | vperm (u p : Nat) (t : VTy) (vd va vb : Nat)
  /-- VBCAST (R133): Broadcast a scalar to every lane. -/
  | vbcast (u p : Nat) (t : VTy) (vd ra : Nat)
  /-- VEXT (R133): Extract one lane to a scalar register. -/
  | vext (u p : Nat) (t : VTy) (rd va idx : Nat)
  /-- VMOV (R133): Vector move. -/
  | vmov (u p : Nat) (t : VTy) (vd va : Nat)
  /-- VSPEC_SEARCH (R135): VSPEC with SPECIAL = 0 searches for the minimum or maximum with its index, with a latency of 2 beats. -/
  | vspecSearch (u p : Nat) (t : VTy) (vd va vb : Nat) (least accum : Bool)
  /-- VSPEC_TAP (R136): VSPEC with SPECIAL = 1 performs one filter tap and shifts the delay line one lane. -/
  | vspecTap (u p : Nat) (t : VTy) (vd va vb k : Nat)
  /-- VEC_RESULT_WRITE (R226): A multi-beat vector result lands, clearing the destination mark and setting its flags, NUM event and VEC_FIRST record. -/
  | vecResultWrite (tag : Nat)
  /-- MM (R188): Check a matrix descriptor under R199 and copy it into an engine's command queue, waiting with ENGINE while the queue is full. -/
  | mm (u p e dd : Nat)
  /-- SM_OPEN (R280): Check a stream descriptor and start the channel. -/
  | smOpen (u p ch dd : Nat)
  /-- SM_CLOSE (R139): Close a channel, or move a write channel to CLOSING. -/
  | smClose (u p ch : Nat)
  /-- SM_RD (R138): Read the next 64 B of a read channel, waiting while it is empty. -/
  | smRd (u p pd vd ch : Nat)
  /-- SM_RDS (R138): Read the next 8 B of a read channel. -/
  | smRds (u p pd rd ch : Nat)
  /-- SM_WR (R139): Append 64 B to a write channel, waiting while it is full. -/
  | smWr (u p va ch : Nat)
  /-- SM_WRS (R139): Append 8 B to a write channel. -/
  | smWrs (u p ra ch : Nat)
  /-- SM_SAVE (R299): Copy the channel's live descriptor and state word to a descriptor register. -/
  | smSave (u p ch dd : Nat)
  /-- LD_B (R141): Load a zero-extended byte. -/
  | ldB (u p rd ra imm : Nat)
  /-- LD_H (R141): Load 2 bytes, zero-extended. -/
  | ldH (u p rd ra imm : Nat)
  /-- LD_W (R141): Load 4 bytes, zero-extended. -/
  | ldW (u p rd ra imm : Nat)
  /-- LD_D (R141): Load 8 bytes. -/
  | ldD (u p rd ra imm : Nat)
  /-- LD_BS (R141): Load a sign-extended byte. -/
  | ldBs (u p rd ra imm : Nat)
  /-- LD_HS (R141): Load 2 bytes, sign-extended. -/
  | ldHs (u p rd ra imm : Nat)
  /-- LD_WS (R141): Load 4 bytes, sign-extended. -/
  | ldWs (u p rd ra imm : Nat)
  /-- LD_V (R141): Load 64 bytes into a vector register. -/
  | ldV (u p vd ra imm : Nat)
  /-- LD_DSC (R141): Load a 64-byte descriptor. -/
  | ldDsc (u p dd ra imm : Nat)
  /-- ST_B (R141): Store a byte. -/
  | stB (u p rs ra imm : Nat)
  /-- ST_H (R141): Store 2 bytes. -/
  | stH (u p rs ra imm : Nat)
  /-- ST_W (R141): Store 4 bytes. -/
  | stW (u p rs ra imm : Nat)
  /-- ST_D (R141): Store 8 bytes. -/
  | stD (u p rs ra imm : Nat)
  /-- ST_V (R141): Store 64 bytes of a vector register. -/
  | stV (u p vs ra imm : Nat)
  /-- ST_DSC (R141): Store a 64-byte descriptor. -/
  | stDsc (u p ds ra imm : Nat)
  /-- SYNC_ADD (R140): Send an ADD to a synchronisation object after earlier stores are acknowledged. -/
  | syncAdd (u p rd ra rb : Nat)
  /-- SYNC_SET (R140): Send a SET to a synchronisation object. -/
  | syncSet (u p rd ra rb : Nat)
  /-- SYNC_WAIT (R358): Send a WAIT request and hold with reason SYNC. -/
  | syncWait (u p rd ra rb : Nat)
  /-- SYNC_TEST (R140): Test an object against a threshold into a predicate. -/
  | syncTest (u p pd ra rb : Nat)
  /-- LOCK_ACQ (R362): Read a lock register to acquire it, as a load-like instruction. -/
  | lockAcq (u p rd ra : Nat)
  /-- LOCK_REL (R365): Release a lock by a write with FORCE = 0. -/
  | lockRel (u p ra : Nat)
  /-- MBX_SEND (R368): Send a message body to a mailbox. -/
  | mbxSend (u p rd ra rb : Nat)
  /-- MBX_WDRAW (R368): Withdraw this core's unread message from a mailbox. -/
  | mbxWdraw (u p rd ra : Nat)
  /-- Q_SUBMIT (R374): Submit a 64-byte entry to a queue. -/
  | qSubmit (u p rd ra vb : Nat)
  /-- Q_TAKE (R375): Take the head entry of a queue. -/
  | qTake (u p pd vd ra : Nat)
  /-- EVT_WAIT (R115): Hold until an enabled event is pending. -/
  | evtWait (u p : Nat)
  /-- EVT_SEND (R140): Set the SOFT event of a context of the same core. -/
  | evtSend (u p ctx : Nat)
  /-- GLINT_WAIT_NEXT (R53): GLINT.WAIT in its NEXT form advances CTX_SLOT and waits for that Glint; on first use it makes the context paced. -/
  | glintWaitNext (u p : Nat)
  /-- GLINT_WAIT_ALIGN (R54): GLINT.WAIT in its ALIGN form skips to the next Glint and counts the slots it skips. -/
  | glintWaitAlign (u p : Nat)
  /-- BOUNDARY (R109): A program boundary with no other effect. -/
  | boundary (u p : Nat)
  /-- HALT (R140): The context halts with cause 1 after the other slots complete. -/
  | halt (u p : Nat)
  /-- FAULT (R140): The context faults with 0x010A and CTX_FAULT_INFO := imm16. -/
  | fault (u p imm : Nat)
  /-- FP_RD (R145): Read the next 64-bit word from the fabric port. -/
  | fpRd (u p rd port : Nat)
  /-- FP_WR (R415): Send a 64-bit word to the Loam on the fabric port. -/
  | fpWr (u p ra port : Nat)
  /-- FP_FLUSH (R416): Wait until the Loam has acknowledged every word sent. -/
  | fpFlush (u p port : Nat)
  /-- FP_MARK (R415): Send a marker word on the fabric port. -/
  | fpMark (u p port imm : Nat)
  /-- SV_PRST (R90): Supervisor plot reset, followed by a start when ra[6] = 1. -/
  | svPrst (u p ra : Nat)
  /-- SV_SRES (R291): Supervisor resume of a halted or page-waiting stream, with spill granted when rb[0] = 1. -/
  | svSres (u p ra rb : Nat)
  /-- SV_PSW (R140): Supervisor write of four bundles into a core's program store. -/
  | svPsw (u p ra vb : Nat)
  /-- LOAD_RETURN (R95): Data or status of a load-like access returns and writes its destination, ending LOAD waits; poisoned data raises a deferred fault. -/
  | loadReturn (tag : Nat)
  /-- STORE_ACK (R343): A WR_ACK returns, releasing later synchronisation atomics of the context. -/
  | storeAck (tag : Nat)
  /-- TRAP_TAKE (R114): At a bundle boundary, a READY context with an enabled pending event and EIE = 1 traps to VEC. -/
  | trapTake (u c : Nat)
  /-- HALT_REQ (R111): A CTX_CTRL.HALT_REQ write requests a debug halt of a context. -/
  | haltReq (m : Master) (u c : Nat)
  /-- RESUME (R111): A CTX_CTRL.RESUME write returns a context halted with cause 1 or 2 to READY. -/
  | resume (m : Master) (u c : Nat)
  /-- STEP (R111): A CTX_CTRL.STEP write issues one bundle and then halts the context with cause 2. -/
  | stepCtx (m : Master) (u c : Nat)
  /-- SET_SOFT (R113): A CTX_CTRL.SET_SOFT write sets the SOFT event of a context. -/
  | setSoft (m : Master) (u c : Nat)
  /-- PLOT_RESET (R90): A PLOT_CTRL.RESET write resets a plot's contexts, engines, channels and banks. -/
  | plotReset (m : Master) (p : Nat) (start : Bool)
  /-- PLOT_START (R91): A PLOT_CTRL.START write moves the contexts of a reset plot from cause 5 to READY. -/
  | plotStart (m : Master) (p : Nat)
  /-- PLOT_FAULT_SETTLE (R325): The plot's outstanding transactions complete, its objects become ABANDONED, an error-log entry is written and the plot is FAULTED. -/
  | plotFaultSettle (p : Nat)
  /-- EPOCH_START (R32): A START write to GLB_EPOCH_CTRL begins an epoch for the named plots, or is refused. -/
  | epochStart (m : Master)
  /-- EPOCH_END (R32): An END write to GLB_EPOCH_CTRL ends the epoch, acting according to the step in progress. -/
  | epochEnd (m : Master)
  /-- EPOCH_TIMEOUT (R31): A plot's contexts have not all halted within PATIENCE slots, so 0x0C03 is raised. -/
  | epochTimeout (p : Nat)
  /-- EPOCH_HALTED (R31): All contexts of the named plots have halted, and the drain of step 3 begins. -/
  | epochHalted
  /-- EPOCH_DRAINED (R194): Streams, engines and transactions of the named plots are drained, and step 4 moves the spares. -/
  | epochDrained
  /-- EPOCH_SPARES_MOVED (R563): Step 4 ends with the spares moved and the Shadow map and GLB_CORES updated. -/
  | epochSparesMoved
  /-- ENGINE_COMMAND_START (R189): An engine starts a queued command after the previous command's feed ends or the command completes. -/
  | engineCommandStart (u e : Nat)
  /-- ENGINE_COMMAND_COMPLETE (R191): A matrix command's outputs become visible, so ENG_DONE rises, the object add is made and flags and NUM events are set. -/
  | engineCommandComplete (u e active stalls early : Nat)
  /-- ENGINE_POISON (R195): An engine consumes a poisoned operand, so the command stops and its issuing context takes 0x0601. -/
  | enginePoison (u e : Nat)
  /-- BANK_OWNER_WRITE (R242): A write to BANK_OWNER requests a handover, or is refused with 0x0602. -/
  | bankOwnerWrite (m : Master) (u b code : Nat)
  /-- BANK_HANDOVER (R244): A pending bank handover takes effect once the old owner's accesses are done. -/
  | bankHandover (u b : Nat)
  /-- ECC_REWRITE (R254): The corrected word is rewritten in the bank's next idle beat. -/
  | eccRewrite (phys word : Nat)
  /-- SIEVE_DUE (R264): The Sieve interval expires and the next region becomes due. -/
  | sieveDue (phys : Nat)
  /-- SIEVE_REGION_START (R261): Sieve begins a due region in a beat with no other request and holds it. -/
  | sieveRegionStart (phys : Nat)
  /-- SIEVE_REGION_END (R260): Sieve restores the region after its march, and a mismatch logs 0x0605. -/
  | sieveRegionEnd (phys : Nat) (bad : Option (Nat × Nat))
  /-- SCRUB_DUE (R264): The scrub interval expires and the next row becomes due. -/
  | scrubDue (phys : Nat) (upsets : List (Nat × Bool))
  /-- SCRUB_ROW (R265): Scrub reads one row and rewrites its corrected words. -/
  | scrubRow (phys : Nat)
  /-- CHANNEL_REQUEST_ISSUE (R282): The stream engine issues a channel's next stamped request in a beat, within the channel limits. -/
  | channelRequestIssue (u ch : Nat)
  /-- STREAM_READ_RESPONSE (R275): Read data for a channel returns, and its bytes are accepted into the ring in stream order or the channel halts on an error code. -/
  | streamReadResponse (tag : Nat)
  /-- STREAM_WRITE_ACK (R279): A write that drains a ring becomes visible and frees ring room. -/
  | streamWriteAck (tag : Nat)
  /-- SEGMENT_PUBLISH (R276): A full segment of a RING destination is handed over and FILL_OBJ is incremented. -/
  | segmentPublish (u ch : Nat)
  /-- STREAM_COMPLETE (R279): A finite stream completes, so the channel enters DONE with its FILL_OBJ add. -/
  | streamComplete (u ch : Nat)
  /-- CHANNEL_CLOSE_DONE (R291): A CLOSING write channel delivers its last byte and closes. -/
  | channelCloseDone (u ch : Nat)
  /-- RATE_SAMPLE (R281): Every 1.024 µs each open channel's measured rate is updated. -/
  | rateSample
  /-- STREAM_STALL (R289): A channel's stall count reaches PATIENCE, so it sets STALLED, raises 0x0303 and fills PLOT_STALL. -/
  | streamStall (u ch : Nat)
  /-- SPILL_PAGE_TAKE (R317): A channel in spill mode takes a pool page while its ring and pages are full and the sender waits. -/
  | spillPageTake (u ch : Nat)
  /-- SPILL_PAGE_RETURN (R317): An emptied spill page returns to the pool, and the channel leaves spill mode when its last page empties. -/
  | spillPageReturn (u ch : Nat)
  /-- ATS_TRANSLATION_COMPLETION (R295): A Translation Completion returns; a missing translation puts the channel into PAGE_WAIT and sends a Page Request. -/
  | atsTranslationCompletion (p page : Nat) (write : Bool) (base pages : Nat) (rd wr : Bool)
  /-- PAGE_RESPONSE (R296): A Page Response arrives: Success resumes the access, Invalid Request or Failure halts with 0x0307. -/
  | pageResponse (p page : Nat) (resp : PageResp)
  /-- ATS_INVALIDATE (R472): An Invalidate Request arrives and is answered once reads and writes using the range are done. -/
  | atsInvalidate (p page pages : Nat)
  /-- HOST_MEMORY_READ (R470): A device read to host memory is sent, or refused as poisoned when the port is down. -/
  | hostMemoryRead (tag part : Nat)
  /-- HOST_MEMORY_WRITE (R470): A device write to host memory is sent, or discarded when the port is down. -/
  | hostMemoryWrite (tag part : Nat)
  /-- HOST_READ_COMPLETION (R471): A completion of a device read arrives; UR, CA or timeout answers as poisoned with 0x0804. -/
  | hostReadCompletion (tag part : Nat) (data : Option (List Byte))
  /-- STREAM_TOKEN_SEND (R310): A channel with a LINK destination sends a stamped token while it holds credit. -/
  | streamTokenSend (u ch : Nat)
  /-- STREAM_TOKEN_ARRIVE (R307): A token arrives at a stream switch and is copied to the ports of its route entry, or discarded. -/
  | streamTokenArrive (u port link : Nat)
  /-- CREDIT_RETURN (R312): Drained bytes return credit to the sender along the route. -/
  | streamCreditReturn (u ch : Nat)
  /-- FENCE_MARKER_RECEIVE (R326): A channel receives a fence marker or has its credit cut, and halts with 0x0402. -/
  | fenceMarkerReceive (u ch : Nat)
  /-- PACKET_FORWARD (R335): A packet header passes a router port toward its destination. -/
  | packetForward (h port : Nat) (out : Bool) (what : Passing)
  /-- PACKET_PORT_REQUEST (R344): A core's packet port serves a request to its scratch or Silt, or answers 0x0404 to a core of another plot. -/
  | packetPortRequest (tag part : Nat)
  /-- EVENT_PACKET (R337): An EVENT packet sets event bits at a context, control processor or the MC. -/
  | eventPacket
  /-- DOORBELL_PACKET (R337): A DOORBELL packet delivers a mailbox or queue doorbell. -/
  | doorbellPacket
  /-- BLOCK_WAKE_REQUEST (R345): A packet for a gated block is held in the wake buffer and the block's wake is requested. -/
  | blockWakeRequest (b vc : Nat) (req : Option (Nat × Nat))
  /-- BLOCK_WAKE_COMPLETE (R345): The gated block wakes and the held packet is delivered. -/
  | blockWakeComplete (b : Nat)
  /-- WAKE_TIMEOUT (R347): A block has not woken 50 µs after the request, so 0x0405 is logged and the held packet is answered or discarded. -/
  | wakeTimeout (b vc : Nat)
  /-- LTN_CFG_WRITE (R350): A write to LTN_CFG configures a probe; setting EN starts counting and tracing. -/
  | ltnCfgWrite (m : Master) (p : Nat) (v : W64)
  /-- LTN_RING_WRITE (R597): A write to LTN_RING places the trace ring and resets HEAD and TAIL, or is refused. -/
  | ltnRingWrite (m : Master) (p : Nat) (v : W64)
  /-- SYNC_OBJECT_ADD (R355): The SYNC block serves an ADD, checking permission and abandonment, saturating the value and waking waiters. -/
  | syncObjectAdd (src : OpFrom)
  /-- SYNC_OBJECT_SET (R355): The SYNC block serves a SET that raises the value, or returns SYNC_BELOW. -/
  | syncObjectSet (src : OpFrom)
  /-- SYNC_OBJECT_WAIT (R358): The SYNC block answers a WAIT at once or registers a waiter. -/
  | syncObjectWait (src : OpFrom)
  /-- SYNC_OBJECT_TEST (R355): The SYNC block answers a TEST. -/
  | syncObjectTest (src : OpFrom)
  /-- SYNC_WAKE (R358): A WAKE packet reaches a waiting context and ends its SYNC hold. -/
  | syncWake (tag : Nat)
  /-- SYNC_WAIT_RETRY (R359): With the waiter pool full, the core sends the WAIT again every 1 µs. -/
  | syncWaitRetry (tag : Nat)
  /-- SYNC_VALUE_WRITE (R355): A supervisor or MC write sets an object's value while it has no waiters. -/
  | syncValueWrite (m : Master) (i : Nat) (v : W64)
  /-- SYNC_CTRL_WRITE (R356): A write sets PLOT, OWNED and OPEN, and is ignored while there are waiters or the object is abandoned. -/
  | syncCtrlWrite (m : Master) (i plot : Nat) (owned open_ : Bool)
  /-- LOCK_READ (R362): A read of a lock register acquires a free lock or returns the holder. -/
  | lockRead (src : LockFrom)
  /-- LOCK_RELEASE_WRITE (R365): A write with FORCE = 0 releases the lock when the writer holds it, and otherwise logs 0x050B. -/
  | lockReleaseWrite (src : LockFrom)
  /-- LOCK_FORCE (R365): A write with FORCE = 1 from a permitted master releases the lock whoever holds it. -/
  | lockForce (m : Master) (i : Nat)
  /-- MBX_SEND_DELIVER (R368): The MBX block writes a sent body and enters PENDING, or returns MBX_FULL. -/
  | mbxSendDeliver (tag : Nat)
  /-- MBX_WITHDRAW (R368): The MBX block withdraws a PENDING message for its sender, or returns 0x0503. -/
  | mbxWithdraw (tag : Nat)
  /-- MBX_RESERVE (R369): A non-claim read of MBX_PORT reserves an EMPTY mailbox. -/
  | mbxReserve (m : Master) (j : Nat)
  /-- MBX_CLAIM (R370): A read of MBX_PORT by the receiver claims a PENDING message. -/
  | mbxClaim (m : Master) (j : Nat)
  /-- MBX_PORT_SEND (R367): A SEND write by the reserver moves the mailbox to PENDING. -/
  | mbxPortSend (m : Master) (j db len : Nat)
  /-- MBX_PORT_FREE (R367): A FREE write by the receiver empties a CLAIMED mailbox. -/
  | mbxPortFree (m : Master) (j : Nat)
  /-- MBX_PORT_WDRAW (R367): A WDRAW write by the sender withdraws a PENDING message. -/
  | mbxPortWdraw (m : Master) (j : Nat)
  /-- MBX_PORT_CANCEL (R367): A CANCEL write by the reserver empties a RESERVED mailbox. -/
  | mbxPortCancel (m : Master) (j : Nat)
  /-- MBX_RESERVE_LAPSE (R367): A reservation lapses after 1 ms of pace time and the mailbox becomes EMPTY. -/
  | mbxReserveLapse (j : Nat)
  /-- MBX_DB_WRITE (R372): A write to MBX_DB clears PEND bits or changes MASK, and clearing a mask bit with its PEND bit set sends a doorbell. -/
  | mbxDbWrite (m : Master) (j clear mask : Nat)
  /-- QUEUE_SUBMIT (R374): The QUEUE block checks a submission and writes the entry at TAIL. -/
  | queueSubmit (src : SubmitFrom)
  /-- QUEUE_ENTRY_VISIBLE (R374): A submitted entry becomes visible, so TAIL advances and the doorbell rings. -/
  | queueEntryVisible (q : Nat)
  /-- QUEUE_TAKE (R375): The QUEUE block returns the head entry and advances HEAD. -/
  | queueTake (tag : Nat) (host : W512)
  /-- Q_HEAD_WRITE (R375): The owning host or a supervisor writes HEAD within the span up to TAIL. -/
  | qHeadWrite (m : Master) (q head : Nat)
  /-- Q_CFG_WRITE (R377): A write to Q_CFG changes the queue's state and settings; leaving DISABLED resets the pointers. -/
  | qCfgWrite (m : Master) (q v : Nat)
  /-- LMC_READ (R386): An LMC reads a 64 B chunk and classifies the burst as good, retried or failed. -/
  | lmcRead (q : LmcReq) (b : Bursts)
  /-- LMC_WRITE (R384): An LMC writes a chunk with a read-modify-write of the parity, and sends WR_ACK. -/
  | lmcWrite (q : LmcReq) (b : Bursts)
  /-- STRIPE_WRITE (R384): A stripe whose 15 chunks wait in the write buffer is written with computed parity. -/
  | stripeWrite (stripe : Nat) (lost : List Nat)
  /-- REINSTATE (R391): An LMC_CH.REINSTATE write retrains a DEGRADED channel and starts its rebuild. -/
  | reinstate (m : Master) (x : Nat) (pass : Bool)
  /-- CHANNEL_REBUILD_STRIPE (R391): A REBUILDING channel rebuilds one more stripe and becomes ACTIVE after the last. -/
  | channelRebuildStripe (x : Nat) (b : Bursts)
  /-- LPDDR_TRAINING_DONE (R392): Channel training completes, so TRAINED and LPDDR_READY set; failed channels degrade with 0x060A. -/
  | lpddrTrainingDone (bad : List Nat)
  /-- LPDDR_INIT_DONE (R393): The zero fill of all stripes completes and INIT_DONE sets. -/
  | lpddrInitDone
  /-- RETRAIN_DUE (R394): The retrain interval expires and the LMC's next channel becomes due. -/
  | retrainDue (i : Nat)
  /-- RETRAIN_START (R394): A due channel pauses for retraining after the next Glint at a gap in urgent requests, or when DEFER expires. -/
  | retrainStart (i : Nat)
  /-- RETRAIN_END (R394): Retraining ends, held writes proceed, and the channel serves again. -/
  | retrainEnd (i : Nat) (ok : Bool)
  /-- PATROL_SCRUB_STRIPE (R395): A pair scrubs its next stripe, rebuilding failed chunks and fixing parity. -/
  | patrolScrubStripe (b : Bursts)
  /-- BAR4_READ (R396): A host read through BAR4 of the LPDDR5X window. -/
  | bar4Read (p x n : Nat) (b : Bursts)
  /-- BAR4_WRITE (R396): A host write through BAR4, subject to the staging lock and readiness. -/
  | bar4Write (p x : Nat) (data : List Byte) (b : Bursts)
  /-- LMC_WIN_WRITE (R396): A write of the BAR4 window base, ignored when misaligned to the BAR size. -/
  | lmcWinWrite (m : Master) (p base : Nat)
  /-- CELL_NOP (R402): A cell step with no operation; only NEXT acts. -/
  | cellNop (i : Nat)
  /-- CELL_ADD (R402): A cell add. -/
  | cellAdd (i : Nat)
  /-- CELL_SUB (R402): A cell subtract. -/
  | cellSub (i : Nat)
  /-- CELL_AND (R402): A cell bitwise and. -/
  | cellAnd (i : Nat)
  /-- CELL_OR (R402): A cell bitwise or. -/
  | cellOr (i : Nat)
  /-- CELL_XOR (R402): A cell bitwise xor. -/
  | cellXor (i : Nat)
  /-- CELL_SHL (R402): A cell left shift. -/
  | cellShl (i : Nat)
  /-- CELL_SHR (R402): A cell logical right shift. -/
  | cellShr (i : Nat)
  /-- CELL_SRA (R402): A cell arithmetic right shift. -/
  | cellSra (i : Nat)
  /-- CELL_CMPEQ (R402): A cell equality compare. -/
  | cellCmpeq (i : Nat)
  /-- CELL_CMPLT (R402): A cell signed less-than compare. -/
  | cellCmplt (i : Nat)
  /-- CELL_CMPLTU (R402): A cell unsigned less-than compare. -/
  | cellCmpltu (i : Nat)
  /-- CELL_SEL (R402): A cell select on the flag. -/
  | cellSel (i : Nat)
  /-- CELL_MULU (R402): A cell unsigned 8 × 8 multiply. -/
  | cellMulu (i : Nat)
  /-- CELL_MULS (R402): A cell signed 8 × 8 multiply. -/
  | cellMuls (i : Nat)
  /-- CELL_MOV (R402): A cell unary move. -/
  | cellMov (i : Nat)
  /-- MEMORY_BLOCK_ACCESS (R411): A memory-block port takes an ADDR token, and WDATA when needed, and reads, writes or swaps a word. -/
  | memoryBlockAccess (r b q ecc : Nat)
  /-- LOAM_WINDOW_ACCESS (R414): A window access reads or writes memory-block words, or is refused with 0x070C. -/
  | loamWindowAccess (tag part : Nat) (ecc : List Nat)
  /-- HOSTIF_LWIN_DATA_READ (R414): A read of HOSTIF_LWIN_DATA performs an 8 B window read at OFFSET. -/
  | hostifLwinDataRead (m : Master) (p : Nat) (ecc : List Nat)
  /-- HOSTIF_LWIN_DATA_WRITE (R414): A write of HOSTIF_LWIN_DATA from the owner performs an 8 B window write. -/
  | hostifLwinDataWrite (m : Master) (p : Nat) (v : W64)
  /-- FABRIC_RX_WORD (R415): An RX transfer with code 0x0000 delivers a word for FP.RD. -/
  | fabricRxWord (r p : Nat)
  /-- FABRIC_RX_SCRATCH_WRITE (R415): An RX transfer with code 0x0002 writes 8 B of scratch under owner code 9. -/
  | fabricRxScratchWrite (r p : Nat)
  /-- FABRIC_RX_SCRATCH_READ (R416): An RX transfer with code 0x0003 reads 8 B of scratch and answers on TX. -/
  | fabricRxScratchRead (r p : Nat)
  /-- FABRIC_PORT_CODE (R415): An RX.C token of unknown value is discarded and 0x070D is logged. -/
  | fabricPortCode (r p : Nat)
  /-- IO_INPUT_TOKEN (R421): An input cell completes a token into its FIFO, or discards it on overrun. -/
  | ioInputToken (r i v : Nat)
  /-- IO_OUTPUT_START (R422): An output FIFO reaches START + 1 tokens and sending begins at the next edge. -/
  | ioOutputStart (r i : Nat)
  /-- IO_OUTPUT_TOKEN_END (R422): An output token ends; the next is sent, or the cell underruns and returns to IDLE. -/
  | ioOutputTokenEnd (r i : Nat)
  /-- IO_DELAY_SWAP (R423): Every CAL_INTERVAL the calibrated delay line swaps in without losing a bit. -/
  | ioDelaySwap (r : Nat)
  /-- IO_CLOCK_LOST (R424): A used bank clock shows no edge for 1 µs, so its cells stop and 0x0709 is logged. -/
  | ioClockLost (r c : Nat)
  /-- IO_CLOCK_RETURN (R424): The bank clock returns and its cells resume at the first edge. -/
  | ioClockReturn (r c : Nat)
  /-- LANE_RX_TRANSFER (R427): A fabric lane receives a transfer into its FIFO, or discards it on overrun. -/
  | laneRxTransfer (l c : Nat) (d : W64)
  /-- LANE_TX_UNDERRUN (R427): The lane's transmit FIFO is empty at a transfer boundary, so FL_IDLE is sent. -/
  | laneTxUnderrun (l : Nat)
  /-- LANE_ADAPT_DONE (R428): Initial receive adaptation of a lane completes and ADAPT_DONE sets. -/
  | laneAdaptDone (l : Nat) (preset : W64)
  /-- LANE_LOCK_LOST (R428): A lane loses CDR or block lock, so LOCK_LOST sets and 0x070B is logged. -/
  | laneLockLost (l : Nat) (cdr : Bool)
  /-- PRBS_LOCK_CHANGE (R429): The PRBS checker locks after 64 correct bits or unlocks after 32 errors in 1,024 bits. -/
  | prbsLockChange (l : Nat) (lock : Bool) (errs : Nat)
  /-- INJECT (R430): A write of 1 to FL_PRBS.INJECT inverts the next transmitted bit. -/
  | inject (m : Master) (l : Nat)
  /-- PERIODIC_INJECTION (R430): Every INJ_PERIOD × 1,024 bits one line bit is inverted. -/
  | periodicInjection (l : Nat)
  /-- LOAD_VERIFY (R442): The VERIFY command starts verification of the staged image. -/
  | loadVerify (m : Master)
  /-- LOAD_COMMIT (R443): The COMMIT command commits a verified image at once or waits for LOAD_AT. -/
  | loadCommit (m : Master)
  /-- LOAD_START (R442): The START command verifies the image and then commits it. -/
  | loadStart (m : Master)
  /-- LOAD_ABORT (R443): The ABORT command returns the loader to IDLE and unlocks the staging area. -/
  | loadAbort (m : Master)
  /-- LOAD_UNLOAD (R448): The UNLOAD command resets and frees every plot, empties every region and deasserts CFG_DONE. -/
  | loadUnload (m : Master)
  /-- LOAD_FORWARD (R456): The FORWARD command copies the staged image to another module over Cyust. -/
  | loadForward (m : Master) (k : Nat)
  /-- VERIFY_COMPLETE (R445): Image checks finish; the loader passes to VERIFIED or COMMITTING, or fails with a code. -/
  | verifyComplete
  /-- LOAD_HOLD_EXPIRED (R442): A verified image waits beyond HOLD_S, so the loader fails with 0x0715. -/
  | loadHoldExpired
  /-- COMMIT_AT_SLOT (R442): The Glint of slot LOAD_AT moves the loader from WAIT_SLOT to COMMITTING. -/
  | commitAtSlot
  /-- COMMIT_POINT (R444): The loader enters COMMITTING, raises region fences and writes frames, settings and data. -/
  | commitPoint
  /-- RELEASE_START (R452): Commit writes are done and the named banks are calibrated, so the staged release begins at step 1. -/
  | releaseStart
  /-- RELEASE_STEP (R452): A release interval expires and the next release step takes effect. -/
  | releaseStep
  /-- LOAD_DEADLINE (R449): No FULL image is released by the deadline, so CFG_ERR_N asserts and 0x0703 is logged. -/
  | loadDeadline
  /-- LOAD_DEADLINE_WRITE (R450): A write to LOAD_DEADLINE.SECONDS sets, expires or removes the deadline. -/
  | loadDeadlineWrite (m : Master) (v : Nat)
  /-- FORWARD_RESULT (R456): The forward target reaches DONE or FAILED, and the local loader takes the same state. -/
  | forwardResult (st code : Nat)
  /-- LOAD_FORWARD_FAIL (R457): The forward target is unreachable, so the loader fails with 0x0712. -/
  | loadForwardFail
  /-- PERST_ASSERT (R468): PERST or a function-level reset resets a host port, with its effects on ownership and outstanding accesses. -/
  | perstAssert (p : Nat) (flr : Bool)
  /-- PORT_CFG_READY (R466): A port's configuration space becomes ready and CRS ends. -/
  | portCfgReady (p : Nat)
  /-- HOST_LINK_DOWN (R477): A host port's link goes down, and an owner or standby is lost. -/
  | hostLinkDown (p : Nat)
  /-- CLAIM (R476): A CLAIM ownership command. -/
  | claim (p : Nat)
  /-- STANDBY (R476): A STANDBY ownership command. -/
  | standby (p : Nat)
  /-- WITHDRAW (R476): A WITHDRAW ownership command. -/
  | withdraw (p : Nat)
  /-- RELEASE (R476): A RELEASE ownership command. -/
  | release (p : Nat)
  /-- HANDOVER (R476): A HANDOVER ownership command. -/
  | handOver (p : Nat)
  /-- BEAT (R477): The owner writes BEAT and the heartbeat timer restarts. -/
  | ownerBeat (p : Nat)
  /-- HEARTBEAT_LAPSE (R477): The owner has not written BEAT for TIMEOUT_MS, so ownership passes to the standby or to none. -/
  | heartbeatLapse
  /-- MSIX_UNMASK (R474): A vector or function mask clears, and a pending message is sent once. -/
  | msixUnmask (p : Nat) (vec : Option Nat)
  /-- CYUST_PORT_ENABLE (R490): Setting CYUST_PORT_CTRL.EN takes a port from DISABLED to DOWN. -/
  | cyustPortEnable (m : Master) (p : Nat) (on : Bool)
  /-- CYUST_TRAINING_ATTEMPT (R490): Every 10 ms, a DOWN port that detects a signal starts training. -/
  | cyustTrainingAttempt (p : Nat)
  /-- CYUST_TRAINING_DONE (R492): Training ends with block lock and a valid neighbour, or fails. -/
  | cyustTrainingDone (p delay : Nat) (ok : Bool) (bad : List Nat)
  /-- CYUST_ID_BLOCK (R496): An ID control block names the sender's module, group and port. -/
  | cyustIdBlock (p i far : Nat)
  /-- BLOCK_LOCK_ACQUIRED (R489): 64 consecutive valid headers at one offset give block lock. -/
  | blockLockAcquired (p : Nat) (heads marks : List (Nat × Nat))
  /-- BLOCK_LOCK_LOST (R491): 8 invalid headers in 128 blocks, or a loss of signal, start the DOWN_HOLD. -/
  | blockLockLost (p : Nat) (heads : Heads)
  /-- CYUST_PORT_DOWN (R491): The DOWN_HOLD expires without relock, so the port enters DOWN, discards its replay buffer and sends port-down notices. -/
  | cyustPortDown (p : Nat) (lost : List Nat)
  /-- PORT_DOWN_NOTICE (R501): A port-down notice arrives, and firmware marks a module ABSENT once all its links are reported down. -/
  | portDownNotice (i far : Nat)
  /-- REMOTE_TIMEOUT (R501): A remote request gets no response within REMOTE_TO and is answered under R37. -/
  | remoteTimeout (tag part : Nat)
  /-- CYUST_UNCORRECTABLE_CODEWORD (R493): A receiver finds an uncorrectable codeword, discards it with what follows, and sends REPLAY. -/
  | cyustUncorrectableCodeword (p cw : Nat) (errs : List Nat)
  /-- CYUST_REPLAY_REQUEST (R493): A REPLAY block arrives and the sender resends from the named codeword. -/
  | cyustReplayRequest (p cw : Nat)
  /-- CYUST_CREDIT_BLOCK (R498): A CREDIT block returns packet or stream credit. -/
  | cyustCreditBlock (p : Nat) (c : CreditIn)
  /-- CYUST_PKT_BLOCK (R498): A PKT sequence arrives and is forwarded by route or delivered. -/
  | cyustPktBlock (p cls : Nat) (k : PktIn)
  /-- CYUST_STRM_BLOCK (R503): A STRM burst arrives and is passed through the gateway, or discarded with 0x0403. -/
  | cyustStrmBlock (p src dst rlink stamp : Nat) (data : List Byte) (bad : List Nat) (last spill : Bool)
  /-- GATEWAY_TOKEN_OUT (R503): A column-127 E-link token matches an outbound gateway entry and is sent over Cyust. -/
  | gatewayTokenOut (row : Nat)
  /-- CYUST_DELAY_BLOCK (R492): A DELAY block exchange re-measures link delay every 1 ms for pace time. -/
  | cyustDelayBlock (p delay err corr : Nat) (off : Int) (figs : List LaneFig)
  /-- CYUST_LANE_SWAP (R494): A LANE block names a lane and codeword at which receivers switch to or from the spare lane. -/
  | cyustLaneSwap (p l : Nat) (on : Bool)
  /-- CYUST_CALIBRATION_ROTATION (R494): Every CAL_S seconds a port starts swapping its data lanes in turn onto the spare. -/
  | cyustCalibrationRotation (p : Nat)
  /-- CYUST_LANE_SPARED (R494): A lane fails its error or eye limits and moves permanently onto the spare with 0x0902. -/
  | cyustLaneSpared (p l : Nat)
  /-- CYUST_IDLE_ENTRY (R495): A port quiet for IDLE_US exchanges LANE blocks and enters IDLE. -/
  | cyustIdleEntry (p : Nat)
  /-- CYUST_IDLE_EXIT (R495): A training burst takes an IDLE port back to carrying blocks in under 100 ns. -/
  | cyustIdleExit (p : Nat)
  /-- CYUST_FAR_LOOPBACK_REQUEST (R495): A far-end loopback request arrives and the idle neighbour port echoes blocks. -/
  | cyustFarLoopbackRequest (p : Nat)
  /-- CYUST_LOOP_WRITE (R495): A write of CYUST_PORT_CTRL.LOOP starts a loopback, or with 0 returns the port to DOWN. -/
  | cyustLoopWrite (m : Master) (p v : Nat)
  /-- RETRAIN (R490): A write of CYUST_PORT_CTRL.RETRAIN takes the port to DOWN and trains again. -/
  | retrain (m : Master) (p : Nat)
  /-- CYUST_TOPO_WRITE (R497): A write to CYUST_TOPO loads default routes, or is ignored with 0x0909. -/
  | cyustTopoWrite (m : Master) (v : Nat)
  /-- CYUST_RT_WRITE (R500): A supervisor or MC write to a route entry clears USE_ALT and re-applies R499. -/
  | cyustRtWrite (m : Master) (i v : Nat)
  /-- MC_WATCHDOG (R510): The MC watchdog expires, so the MC is reset and reboots, and 0x0A04 is logged. -/
  | mcWatchdog
  /-- MC_HEARTBEAT (R511): The MC writes its heartbeat every 10 ms. -/
  | mcHeartbeat
  /-- DEV_LIVE_DROP (R511): HB has not changed for 500 ms, so DEV_LIVE falls. -/
  | devLiveDrop
  /-- GET_INFO (R524): Management command returning identity, firmware and security state. -/
  | getInfo (q tag : Nat) (body : List Byte)
  /-- GET_CERTS (R519): Management command returning part of the certificate chain. -/
  | getCerts (q tag : Nat) (body : List Byte)
  /-- GET_MEASUREMENTS (R527): Management command returning a signed snapshot of the selected measurements. -/
  | getMeasurements (q tag : Nat) (body : List Byte)
  /-- STAGE_WRITE (R524): Management command writing data into the staging area. -/
  | stageWrite (q tag : Nat) (body : List Byte)
  /-- LOAD_CMD (R524): Management command writing LOAD_CTRL and LOAD_AT. -/
  | loadCmd (q tag : Nat) (body : List Byte)
  /-- MBX_OP (R524): Management command performing a mailbox send, claim, free or withdraw. -/
  | mbxOp (q tag : Nat) (body : List Byte)
  /-- CSR_READ (R524): Management command reading 8 B of CSR space. -/
  | csrRead (q tag : Nat) (body : List Byte)
  /-- FW_UPDATE (R531): Management command writing and verifying the stale firmware copy from staging. -/
  | fwUpdate (q tag : Nat) (body : List Byte) (cut : Option Nat)
  /-- FW_COMMIT_SVN (R534): Management command raising the target's counter to the running SVN. -/
  | fwCommitSvn (q tag : Nat) (body : List Byte)
  /-- CC_SWITCH (R533): Management command switching the control processors to the chosen copy in turn. -/
  | ccSwitch (q tag : Nat) (body : List Byte)
  /-- RESET_COMPUTE (R524): Management command causing a device reset. -/
  | resetCompute (q tag : Nat) (body : List Byte)
  /-- MC_RESTART (R532): Management command restarting the MC. -/
  | mcRestart (q tag : Nat) (body : List Byte)
  /-- SET_OWNER (R529): Vendor-signed command registering an owner key and setting enforcement. -/
  | setOwner (q tag : Nat) (body : List Byte)
  /-- CLEAR_OWNER (R529): Vendor-signed command clearing the owner key. -/
  | clearOwner (q tag : Nat) (body : List Byte)
  /-- DEBUG_UNLOCK (R530): Vendor-signed command unlocking debug until cold reset. -/
  | debugUnlock (q tag : Nat) (body : List Byte)
  /-- SET_ENDPOINT_ID (R521): MCTP control command Set Endpoint ID. -/
  | setEndpointId (eid : Nat)
  /-- GET_ENDPOINT_ID (R521): MCTP control command Get Endpoint ID. -/
  | getEndpointId
  /-- GET_MCTP_VERSION_SUPPORT (R521): MCTP control command Get MCTP Version Support. -/
  | getMctpVersionSupport
  /-- GET_MESSAGE_TYPE_SUPPORT (R521): MCTP control command Get Message Type Support. -/
  | getMessageTypeSupport
  /-- GET_VENDOR_DEFINED_MESSAGE_SUPPORT (R521): MCTP control command Get Vendor Defined Message Support. -/
  | getVendorDefinedMessageSupport
  /-- GET_TID (R521): PLDM GetTID. -/
  | getTid
  /-- SET_TID (R521): PLDM SetTID. -/
  | setTid (tid : Nat)
  /-- GET_PLDM_VERSION (R521): PLDM GetPLDMVersion. -/
  | getPldmVersion
  /-- GET_PLDM_TYPES (R521): PLDM GetPLDMTypes. -/
  | getPldmTypes
  /-- GET_PLDM_COMMANDS (R521): PLDM GetPLDMCommands. -/
  | getPldmCommands
  /-- GET_PDR (R521): PLDM GetPDR. -/
  | getPdr (h : Nat)
  /-- GET_SENSOR_READING (R521): PLDM GetSensorReading from the latest telemetry sample. -/
  | getSensorReading (id : Nat)
  /-- GET_STATE_SENSOR_READINGS (R521): PLDM GetStateSensorReadings. -/
  | getStateSensorReadings (id : Nat)
  /-- GET_NUMERIC_EFFECTER_VALUE (R521): PLDM GetNumericEffecterValue. -/
  | getNumericEffecterValue
  /-- SET_NUMERIC_EFFECTER_VALUE (R538): PLDM SetNumericEffecterValue, which sets SB_LIMIT through effecter 1. -/
  | setNumericEffecterValue (v : Nat)
  /-- SET_STATE_EFFECTER_STATES (R521): PLDM SetStateEffecterStates, which can request a device reset through effecter 2. -/
  | setStateEffecterStates (st : Nat)
  /-- SET_EVENT_RECEIVER (R521): PLDM SetEventReceiver. -/
  | setEventReceiver (a : Nat)
  /-- STATE_SENSOR_EVENT (R521): A change of state sensor 6, 7 or 8 sends a PlatformEventMessage. -/
  | stateSensorEvent (id : Nat)
  /-- SIDEBAND_ERROR (R521): An SMBus packet with a wrong PEC is discarded and counted. -/
  | sidebandError
  /-- BYPASS (R521): JTAG instruction BYPASS. -/
  | bypass
  /-- SAMPLE_PRELOAD (R521): JTAG instruction SAMPLE/PRELOAD. -/
  | samplePreload (v : Nat)
  /-- EXTEST (R522): JTAG instruction EXTEST, effective only in device reset. -/
  | extest
  /-- CLAMP (R522): JTAG instruction CLAMP, effective only in device reset. -/
  | clamp
  /-- HIGHZ (R522): JTAG instruction HIGHZ, effective only in device reset. -/
  | highz
  /-- DOE_DISCOVERY (R463): A DOE Discovery request on a port's DOE mailbox. -/
  | doeDiscovery (p i : Nat)
  /-- GOVERNOR_STEP (R536): Every 10 µs the governor reads its inputs and moves VCORE by at most one 5 mV step by precedence. -/
  | governorStep (power vneed est : Nat) (avs : Bool)
  /-- AVS_RETRY (R537): Every 1 ms during an AVS fault the governor retries regulator control. -/
  | avsRetry (ok : Bool)
  /-- PWR_LIMIT_WRITE (R538): A write of LIMIT, SB_LIMIT or WINDOW, ignored with 0x0B07 when out of range. -/
  | pwrLimitWrite (m : Master) (v : W64)
  /-- BOOST_CREDIT_TICK (R544): Each second boost credit rises or falls, and reaching 0 during boost logs 0x0B04. -/
  | boostCreditTick
  /-- BOOST_SAVE (R545): Every 10 minutes the MC saves CREDIT and PWR_LIFE to flash. -/
  | boostSave
  /-- THERMAL_SAMPLE (R546): Every 10 µs each thermal sensor converts, and failed sensors are marked with 0x0B08. -/
  | thermalSample (ts : List Int)
  /-- THERMAL_TRIP (R548): A sensor reaches 115 °C, so VCORE is disabled, THERM_TRIP_N asserts and compute goes off. -/
  | thermalTrip (i : Nat)
  /-- PWR_SHADE_WRITE (R550): A write to PWR_SHADE requests shading of plots or wakes them. -/
  | pwrShadeWrite (m : Master) (v : W64)
  /-- PLOT_SHADED (R550): A plot with shading requested becomes quiet and its blocks gate. -/
  | plotShaded (p : Nat)
  /-- BLOCK_REGATE (R550): A block woken by a packet gates again after 100 µs without a packet. -/
  | blockRegate (b : Nat)
  /-- TELEMETRY_SAMPLE (R553): Every 1 ms a telemetry sample is taken and written to the ring when enabled. -/
  | telemetrySample (powerMs : Nat) (rails : List (Nat × Nat))
  /-- TELEM_RING_WRITE (R597): A write to TELEM_RING places the telemetry ring, or is refused with 0x0C0A. -/
  | telemRingWrite (m : Master) (v : W64)
  /-- HG_RECAL_DUE (R558): The next Hourglass sensor becomes due and is recalibrated, or marked failed. -/
  | hgRecalDue (ok : Bool)
  /-- CORE_TEST_DUE (R559): A scheduled core test becomes due on a shaded or unplotted core. -/
  | coreTestDue (ph : Nat)
  /-- CORE_TEST_STEP_DONE (R559): A core-test step ends; failures bypass a column, record a row or retire the core. -/
  | coreTestStepDone (f : TestFind)
  /-- CORE_TEST_STOP (R562): A core test stops within 64 beats on RESUME, STEP, commit, MM or a spare move. -/
  | coreTestStop (ph : Nat)
  /-- SPARE_ROTATION_DUE (R565): A group's spare has been in place ROTATE_H hours and becomes due to move. -/
  | spareRotationDue (g : Nat)
  /-- AVL_CORE_TEST (R570): A request to test a logical core, run at once or DEFERRED. -/
  | avlCoreTest (m : Master) (i n : Nat) (force : Bool)
  /-- AVL_PCORE_TEST (R570): A request to test a physical core. -/
  | avlPcoreTest (m : Master) (i ph : Nat) (force : Bool)
  /-- AVL_RETIRE (R570): A request to retire a physical core. -/
  | avlRetire (m : Master) (i ph : Nat)
  /-- AVL_HG_CAL (R570): A request to recalibrate an Hourglass sensor next. -/
  | avlHgCal (m : Master) (i h : Nat)
  /-- AVL_LPDDR_RETRAIN (R570): A request to make a channel due for retraining at once. -/
  | avlLpddrRetrain (m : Master) (i x : Nat)
  /-- AVL_LPDDR_TEST (R570): A request to test an LPDDR5X channel. -/
  | avlLpddrTest (m : Master) (i x : Nat) (force pass : Bool)
  /-- AVL_CYUST_LANE (R570): A request to test a Cyust lane. -/
  | avlCyustLane (m : Master) (i t : Nat) (force : Bool)
  /-- AVL_CYUST_LOOP (R570): A request to run a Cyust loopback. -/
  | avlCyustLoop (m : Master) (i t : Nat) (force : Bool)
  /-- AVL_CANCEL (R570): A CANCEL write returns a QUEUED or DEFERRED request to IDLE. -/
  | avlCancel (m : Master) (i : Nat)
  /-- DEFERRED_REQUEST_RUN (R572): A DEFERRED request runs after the epoch that frees its resource. -/
  | deferredRequestRun (i : Nat)
  /-- ERRLOG_ENTRY (R574): An error-log entry reaches the ERRLOG block and is written to the ring, held on die, or dropped. -/
  | errlogEntry
  /-- ERR_RING_WRITE (R597): A write to ERR_RING places the error ring and resets its pointers, and setting EN flushes held entries. -/
  | errRingWrite (m : Master) (v : W64)
  /-- PERST_DEASSERT (R584): PERST_A_N or PERST_B_N deasserts, so the port leaves reset and link training and the 100 ms readiness count begin. -/
  | perstDeassert (p : Nat)
  /-- HOST_LINK_UP (R471): A host port's PCIe link finishes training and comes up, so LINK_UP sets and device accesses to that host are sent again. -/
  | hostLinkUp (p speed width : Nat)
  /-- HOST_CONFIG_WRITE (R471): A host configuration write sets or clears Bus Master Enable, MSI-X enable, ATS or PRI enable, or resizes BAR4, with the effects of R291, R471 and R474. -/
  | hostConfigWrite (p : Nat) (w : HostCfg)
  /-- LOAD_WINDOW_WRITE (R434): A host write to the BAR2 load window is mapped through LOAD_WIN into the staging area, or discarded with 0x0713 beyond its size or while the stage is locked. -/
  | loadWindowWrite (p x : Nat) (data : List Byte)
  /-- LANE_BLOCK_LOCK_GAINED (R426): A fabric lane's receiver gains CDR lock and code-group or block alignment, so BLOCK_LOCK sets and RX tokens begin to flow. -/
  | laneBlockLockGained (l : Nat)
  /-- LANE_TX_TRANSFER (R427): At a transfer boundary with a non-empty transmit FIFO, the fabric lane sends the next transfer and frees FIFO room toward the Loam. -/
  | laneTxTransfer (l : Nat)
  deriving DecidableEq, Repr

end Sys2Proof
end

