-- ==== Sys2Proof/Decode.lean ====
section
/-!
DEFINITION. Commands as table words: no row of the opcode table gives bits. The bundles that cores fetch are decoded in
Machine/Slots.lean (R82, R122).
-/
namespace Sys2Proof

/-- The command that a word of `nbits` bits spells: none. -/
def decodeTableWord (_nbits _w : Nat) : Option Instr := none

end Sys2Proof
end

