-- ==== Sys2Proof/Config.lean ====
section
/-!
DEFINITION. What an implementation fixes and the values the spec leaves open: opaque constants without a body, so that no
proof can rest on a value of them. Each is named in a log entry.
-/
namespace Sys2Proof
open Sys2Proof

/-- A free value: applied to the number of free values drawn so far (`State.free`). -/
opaque Config.freeValue : Nat → W64

/-- The serial number in the identity array (R517), and whether the module is of the industrial grade (R2). -/
opaque Config.serial : W64
opaque Config.industrial : Bool
/-- A byte of the flash as the module ships, by flash offset (chapter 19): firmware, certificates, helper data. -/
opaque Config.flashInit : Nat → Byte
/-- The 4-bit code of SUBOP in a packet header by operation (R336), which the spec does not list: ADD, SET, WAIT, TEST, lock read,
lock release, mailbox send, withdrawal, submission, take. -/
opaque Config.subOp : Nat → BitVec 4
/-- SHA-384, and the verification and making of a signature (R440, R516, R527): standards of R4, not defined by the spec. A
signature is verified for a public key of 96 bytes and a digest; it is made with the identity key over a digest. -/
opaque Config.sha384 : List Byte → BitVec 384
opaque Config.verify : List Byte → BitVec 384 → List Byte → Bool
opaque Config.sign : BitVec 384 → List Byte
/-- The vendor root public-key hash in the mask ROM, and the vendor test key of KEY_ID 1 (R441, R516). -/
opaque Config.vendorHash : BitVec 384
opaque Config.testKey : List Byte
/-- The public half of the key that a copy of the helper data yields (R520). -/
opaque Config.pufPublic : List Byte → List Byte
/-- The neighbours of a thermal sensor (R547). -/
opaque Config.thermNeighbours : Nat → List Nat
/-- What an answer holds whose contents a standard of R4 gives and the spec does not: by command and number (R521). -/
opaque Config.standardAnswer : Nat → Nat → List Byte

end Sys2Proof
end

