-- ==== Sys2Proof/Machine/Bits.lean ====
section
/-!
DEFINITION. Bit fields, sign extension and byte order: how a field of a register is read and written, and how bytes make
words (R5: bit 0 is least significant, multi-byte values are little-endian).
-/
namespace Sys2Proof.Machine
open Sys2Proof

/-- Bits `[lo + w - 1 : lo]` of `v`, as a number. -/
def bitsOf {n : Nat} (v : BitVec n) (lo w : Nat) : Nat := (v.toNat >>> lo) % 2 ^ w

/-- One bit of `v`. -/
def bit1 {n : Nat} (v : BitVec n) (i : Nat) : Bool := v.getLsbD i

/-- `v` with bits `[lo + w - 1 : lo]` replaced by the low `w` bits of `x`. -/
def setBits {n : Nat} (v : BitVec n) (lo w x : Nat) : BitVec n :=
  BitVec.ofNat n (v.toNat % 2 ^ lo + (x % 2 ^ w) * 2 ^ lo + (v.toNat / 2 ^ (lo + w)) * 2 ^ (lo + w))

/-- The value of field `f` in register word `v`. -/
def fget (v : W64) (f : Fld) : Nat := bitsOf v f.lo f.width

/-- Register word `v` with field `f` set to `x`. -/
def fset (v : W64) (f : Fld) (x : Nat) : W64 := setBits v f.lo f.width x

/-- A word put together from (value, lowest bit) pairs. -/
def packW (l : List (Nat × Nat)) : W64 := BitVec.ofNat 64 ((l.map fun e => e.1 * 2 ^ e.2).foldl (· + ·) 0)

/-- A Bool as a field value. -/
def b2n (b : Bool) : Nat := if b then 1 else 0

/-- Saturating increment of a counter field of `w` bits by `n`. -/
def satAdd (w x n : Nat) : Nat := min (x + n) (2 ^ w - 1)

/-- The low `w` bits of `x` as a two's-complement integer. -/
def sgn (w x : Nat) : Int :=
  if x % 2 ^ w < 2 ^ (w - 1) then ((x % 2 ^ w : Nat) : Int) else ((x % 2 ^ w : Nat) : Int) - (2 ^ w : Nat)

/-- An integer narrowed to `w` bits, as a number (wraps). -/
def narrow (w : Nat) (x : Int) : Nat := (x % (2 ^ w : Nat)).toNat

/-- Sign extension of the low `w` bits of `x` to 64 bits (R127). -/
def sext64 (w x : Nat) : W64 := BitVec.ofInt 64 (sgn w x)

/-- The number that bytes spell, first byte least significant (R5). -/
def leNat : List Byte → Nat
  | [] => 0
  | b :: bs => b.toNat + 256 * leNat bs

/-- The low `n` bytes of `x`, least significant first (R5). -/
def leBytes : Nat → Nat → List Byte
  | 0, _ => []
  | n + 1, x => BitVec.ofNat 8 x :: leBytes n (x / 256)

/-- Lane `i` of width `w` of a vector register: bits `[w i + w - 1 : w i]` (R132). -/
def lane (w : Nat) (v : W512) (i : Nat) : Nat := bitsOf v (w * i) w

/-- All lanes of width `w` of a vector register, lane 0 first. -/
def lanesOf (w n : Nat) (v : W512) : List Nat := (List.range n).map (lane w v)

/-- The number whose digits of width `w` are the listed lanes, lane 0 least significant. -/
def packNat (w : Nat) : List Nat → Nat
  | [] => 0
  | x :: xs => x % 2 ^ w + 2 ^ w * packNat w xs

/-- A vector register from its lanes of width `w`. -/
def ofLanes (w : Nat) (xs : List Nat) : W512 := BitVec.ofNat 512 (packNat w xs)

/-- Replace element `i` of a list. -/
def setNth {α : Type} : List α → Nat → α → List α
  | [], _, _ => []
  | _ :: xs, 0, v => v :: xs
  | x :: xs, i + 1, v => x :: setNth xs i v

/-- Whether two byte ranges `[a, a + n)` and `[b, b + m)` meet. -/
def overlaps (a n b m : Nat) : Bool := decide (a < b + m) && decide (b < a + n)

end Sys2Proof.Machine
end

