-- ==== Sys2Proof/Machine/NMap.lean ====
section
/-!
DEFINITION. Tables keyed by numbers, in one canonical form: reading, writing, and keeping only some keys. Reading takes the
default; writing the default removes the entry, so equal tables are equal lists.
-/
namespace Sys2Proof.Machine
open Sys2Proof

/-- The value listed at `k`, or the default `d`. -/
def mget {α : Type} (d : α) : NMap α → Nat → α
  | [], _ => d
  | (k', v) :: m, k => if k' = k then v else mget d m k

/-- Put `(k, v)` in front of the first larger key. -/
def mput {α : Type} : NMap α → Nat → α → NMap α
  | [], k, v => [(k, v)]
  | (k', v') :: m, k, v => if k < k' then (k, v) :: (k', v') :: m else (k', v') :: mput m k v

/-- Drop every entry at `k`. -/
def mdel {α : Type} (m : NMap α) (k : Nat) : NMap α := m.filter fun e => e.1 ≠ k

/-- Write `v` at `k`; the default is not listed. -/
def mset {α : Type} [DecidableEq α] (d : α) (m : NMap α) (k : Nat) (v : α) : NMap α :=
  if v = d then mdel m k else mput (mdel m k) k v

/-- Keep the entries whose key satisfies `p`; every other key reads as the default afterwards. -/
def mkeep {α : Type} (p : Nat → Bool) (m : NMap α) : NMap α := m.filter fun e => p e.1

/-- Apply `f` to every listed value whose key satisfies `p`; a default that results is not listed. -/
def mmap {α : Type} [DecidableEq α] (d : α) (p : Nat → Bool) (f : α → α) : NMap α → NMap α
  | [] => []
  | (k, v) :: m =>
    let v' := if p k then f v else v
    if v' = d then mdel (mmap d p f m) k else (k, v') :: mmap d p f m

/-- The keys listed. -/
def mkeys {α : Type} (m : NMap α) : List Nat := m.map (·.1)

/-- The canonical form: keys strictly rising, no default listed. -/
def mwf {α : Type} [DecidableEq α] (d : α) : NMap α → Bool
  | [] => true
  | [(_, v)] => decide (v ≠ d)
  | (k, v) :: (k', v') :: m => decide (v ≠ d) && decide (k < k') && mwf d ((k', v') :: m)

end Sys2Proof.Machine
end

