-- ==== Sys2Proof/Machine/Regs.lean ====
section
/-!
DEFINITION. The CSR registers of the spec's register tables: for every register its CSR offset (as a function of the
indices of a repeated register), for every named field its place, and one table `regTable` with width, reset domain,
access type and reset value of every field, as the lines "NAME — offset ..." of the spec give them (R9, R13, R38).
A reset value the spec writes as a dash stands as 0 here (DESIGN CHOICE, log 3).
-/
namespace Sys2Proof.Machine


/-! ### Registers of spec/01_organisation.md -/

/-- GLB_EPOCH_PLOTS: 64 bits, device domain. -/
def GLB_EPOCH_PLOTS : Nat := 0x30
def GLB_EPOCH_PLOTS_PLOTS : Fld := ⟨0, 0, 64⟩
/-- GLB_EPOCH_CTRL: 32 bits, device domain. -/
def GLB_EPOCH_CTRL : Nat := 0x38
def GLB_EPOCH_CTRL_START : Fld := ⟨0, 0, 1⟩
def GLB_EPOCH_CTRL_END : Fld := ⟨0, 1, 1⟩
def GLB_EPOCH_CTRL_STEP : Fld := ⟨0, 2, 3⟩
def GLB_EPOCH_CTRL_TIMEOUT : Fld := ⟨0, 5, 1⟩
def GLB_EPOCH_CTRL_REFUSED : Fld := ⟨0, 6, 1⟩
/-- GLB_ID: 64 bits, cold domain. -/
def GLB_ID : Nat := 0x0
def GLB_ID_VENDOR : Fld := ⟨0, 0, 16⟩
def GLB_ID_DEVICE : Fld := ⟨0, 16, 16⟩
def GLB_ID_STEPPING : Fld := ⟨0, 32, 8⟩
def GLB_ID_GRADE : Fld := ⟨0, 40, 8⟩
/-- GLB_SERIAL: 64 bits, cold domain. -/
def GLB_SERIAL : Nat := 0x8
def GLB_SERIAL_SERIAL : Fld := ⟨0, 0, 64⟩
/-- GLB_RATES: 64 bits, cold domain. -/
def GLB_RATES : Nat := 0x10
def GLB_RATES_FLOOR : Fld := ⟨0, 0, 16⟩
def GLB_RATES_NOMINAL : Fld := ⟨0, 16, 16⟩
def GLB_RATES_BOOST : Fld := ⟨0, 32, 16⟩
/-- GLB_CORES: 64 bits, device domain. -/
def GLB_CORES : Nat := 0x18
def GLB_CORES_PRESENTED : Fld := ⟨0, 0, 16⟩
def GLB_CORES_ABSENT : Fld := ⟨0, 16, 16⟩
def GLB_CORES_NARROWED : Fld := ⟨0, 32, 16⟩
/-- GLB_STATUS: 32 bits, cold domain. -/
def GLB_STATUS : Nat := 0x20
def GLB_STATUS_ID_VALID : Fld := ⟨0, 0, 1⟩
def GLB_STATUS_COMPUTE_UP : Fld := ⟨0, 1, 1⟩
def GLB_STATUS_LPDDR_READY : Fld := ⟨0, 2, 1⟩
def GLB_STATUS_SHADOW_VALID : Fld := ⟨0, 3, 1⟩
def GLB_STATUS_HG_CAL : Fld := ⟨0, 4, 1⟩
def GLB_STATUS_CFG_DONE : Fld := ⟨0, 5, 1⟩
def GLB_STATUS_CFG_ERR : Fld := ⟨0, 6, 1⟩
def GLB_STATUS_DEV_LIVE : Fld := ⟨0, 7, 1⟩
def GLB_STATUS_EPOCH_ACTIVE : Fld := ⟨0, 8, 1⟩


/-! ### Registers of spec/02_pace.md -/

/-- PACE_CFG: 32 bits, device domain. -/
def PACE_CFG : Nat := 0x1000
def PACE_CFG_SOURCE : Fld := ⟨0, 0, 2⟩
def PACE_CFG_ROLE : Fld := ⟨0, 2, 2⟩
def PACE_CFG_RANK : Fld := ⟨0, 4, 2⟩
def PACE_CFG_FALLBACK : Fld := ⟨0, 6, 1⟩
def PACE_CFG_EDGE : Fld := ⟨0, 7, 1⟩
def PACE_CFG_ENABLE : Fld := ⟨0, 8, 1⟩
def PACE_CFG_OUT_EN : Fld := ⟨0, 9, 1⟩
def PACE_CFG_OUT_WIDTH : Fld := ⟨0, 10, 6⟩
/-- PACE_PERIOD: 32 bits, device domain. -/
def PACE_PERIOD : Nat := 0x1004
def PACE_PERIOD_PERIOD : Fld := ⟨0, 0, 17⟩
/-- PACE_IN_MIN: 32 bits, device domain. -/
def PACE_IN_MIN : Nat := 0x1008
def PACE_IN_MIN_MIN : Fld := ⟨0, 0, 17⟩
/-- PACE_IN_TIMEOUT: 32 bits, device domain. -/
def PACE_IN_TIMEOUT : Nat := 0x100C
def PACE_IN_TIMEOUT_TIMEOUT : Fld := ⟨0, 0, 18⟩
/-- PACE_LATENCY: 32 bits, device domain. -/
def PACE_LATENCY : Nat := 0x1010
def PACE_LATENCY_LATENCY : Fld := ⟨0, 0, 10⟩
/-- PACE_FLOOR_TARGET: 32 bits, device domain. -/
def PACE_FLOOR_TARGET : Nat := 0x1014
def PACE_FLOOR_TARGET_TARGET : Fld := ⟨0, 0, 16⟩
/-- PACE_STATUS: 32 bits, device domain. -/
def PACE_STATUS : Nat := 0x1018
def PACE_STATUS_ROLE_NOW : Fld := ⟨0, 0, 2⟩
def PACE_STATUS_RUNNING : Fld := ⟨0, 2, 1⟩
def PACE_STATUS_TIME_LOCKED : Fld := ⟨0, 3, 1⟩
def PACE_STATUS_SOURCE_LOST : Fld := ⟨0, 4, 1⟩
def PACE_STATUS_SLOT_SYNC : Fld := ⟨0, 5, 1⟩
def PACE_STATUS_TERM : Fld := ⟨0, 8, 8⟩
def PACE_STATUS_HOPS : Fld := ⟨0, 16, 4⟩
def PACE_STATUS_GLITCH : Fld := ⟨0, 20, 1⟩
def PACE_STATUS_SHORT : Fld := ⟨0, 21, 1⟩
def PACE_STATUS_LATE : Fld := ⟨0, 22, 1⟩
def PACE_STATUS_OVR : Fld := ⟨0, 23, 1⟩
def PACE_STATUS_MASTER_CHANGE : Fld := ⟨0, 24, 1⟩
def PACE_STATUS_UNLOCKED : Fld := ⟨0, 25, 1⟩
def PACE_STATUS_CFG_INVALID : Fld := ⟨0, 26, 1⟩
def PACE_STATUS_RING_FULL : Fld := ⟨0, 27, 1⟩
/-- PACE_MASTER: 32 bits, device domain. -/
def PACE_MASTER : Nat := 0x101C
def PACE_MASTER_MODULE : Fld := ⟨0, 0, 6⟩
def PACE_MASTER_GROUP : Fld := ⟨0, 6, 3⟩
def PACE_MASTER_VALID : Fld := ⟨0, 9, 1⟩
/-- PACE_SLOT: 64 bits, device domain. -/
def PACE_SLOT : Nat := 0x1020
def PACE_SLOT_SLOT : Fld := ⟨0, 0, 64⟩
/-- PACE_TIME: 64 bits, device domain. -/
def PACE_TIME : Nat := 0x1028
def PACE_TIME_TIME : Fld := ⟨0, 0, 64⟩
/-- PACE_NEXT: 64 bits, device domain. -/
def PACE_NEXT : Nat := 0x1030
def PACE_NEXT_FIRE : Fld := ⟨0, 0, 64⟩
/-- PACE_HG_MIN: 32 bits, device domain. -/
def PACE_HG_MIN : Nat := 0x1038
def PACE_HG_MIN_RATE : Fld := ⟨0, 0, 16⟩
def PACE_HG_MIN_SENSOR : Fld := ⟨0, 16, 11⟩
def PACE_HG_MIN_VALID : Fld := ⟨0, 27, 1⟩
/-- PACE_MARGIN: 32 bits, device domain. -/
def PACE_MARGIN : Nat := 0x103C
def PACE_MARGIN_MIN_MARGIN : Fld := ⟨0, 0, 16⟩
def PACE_MARGIN_LATE_MAX : Fld := ⟨0, 16, 16⟩
/-- PACE_IN_PERIOD: 32 bits, device domain. -/
def PACE_IN_PERIOD : Nat := 0x1040
def PACE_IN_PERIOD_PERIOD : Fld := ⟨0, 0, 32⟩
/-- PACE_OVR_BASE: 64 bits, device domain. -/
def PACE_OVR_BASE : Nat := 0x1048
def PACE_OVR_BASE_BASE : Fld := ⟨0, 12, 44⟩
def PACE_OVR_BASE_SIZE : Fld := ⟨0, 56, 4⟩
def PACE_OVR_BASE_EN : Fld := ⟨0, 63, 1⟩
/-- PACE_OVR_PTR: 64 bits, device domain. -/
def PACE_OVR_PTR : Nat := 0x1050
def PACE_OVR_PTR_HEAD : Fld := ⟨0, 0, 16⟩
def PACE_OVR_PTR_TAIL : Fld := ⟨0, 32, 16⟩
/-- PACE_OVR_COUNT: 64 bits, device domain. -/
def PACE_OVR_COUNT : Nat := 0x1058
def PACE_OVR_COUNT_RECORDS : Fld := ⟨0, 0, 32⟩
def PACE_OVR_COUNT_DROPPED : Fld := ⟨0, 32, 32⟩


/-! ### Registers of spec/03_core_model.md -/

/-- CORE_ID: 64 bits, device domain. -/
def CORE_ID (n : Nat) : Nat := 0x1000000 + n * 0x1000
def CORE_ID_LOGICAL : Fld := ⟨0, 0, 15⟩
def CORE_ID_PROW : Fld := ⟨0, 15, 8⟩
def CORE_ID_COLUMN : Fld := ⟨0, 23, 7⟩
def CORE_ID_GROUP : Fld := ⟨0, 30, 10⟩
def CORE_ID_PLOT : Fld := ⟨0, 40, 6⟩
def CORE_ID_IN_PLOT : Fld := ⟨0, 46, 1⟩
def CORE_ID_EDGES : Fld := ⟨0, 47, 4⟩
/-- CORE_CFG: 32 bits, device domain. -/
def CORE_CFG (n : Nat) : Nat := 0x1000008 + n * 0x1000
def CORE_CFG_CTX_EN : Fld := ⟨0, 0, 8⟩
def CORE_CFG_BPRIV : Fld := ⟨0, 8, 8⟩
def CORE_CFG_SPECIAL : Fld := ⟨0, 16, 1⟩
def CORE_CFG_E0_WIDTH : Fld := ⟨0, 20, 4⟩
def CORE_CFG_E1_WIDTH : Fld := ⟨0, 24, 4⟩
/-- CORE_STATUS: 32 bits, plot domain. -/
def CORE_STATUS (n : Nat) : Nat := 0x1000010 + n * 0x1000
def CORE_STATUS_CTX0 : Fld := ⟨0, 0, 4⟩
def CORE_STATUS_CTX1 : Fld := ⟨0, 4, 4⟩
def CORE_STATUS_CTX2 : Fld := ⟨0, 8, 4⟩
def CORE_STATUS_CTX3 : Fld := ⟨0, 12, 4⟩
def CORE_STATUS_CTX4 : Fld := ⟨0, 16, 4⟩
def CORE_STATUS_CTX5 : Fld := ⟨0, 20, 4⟩
def CORE_STATUS_CTX6 : Fld := ⟨0, 24, 4⟩
def CORE_STATUS_CTX7 : Fld := ⟨0, 28, 4⟩
/-- CORE_FAULT_SUM: 64 bits, plot domain. -/
def CORE_FAULT_SUM (n : Nat) : Nat := 0x1000018 + n * 0x1000
def CORE_FAULT_SUM_FIRST_CODE : Fld := ⟨0, 0, 16⟩
def CORE_FAULT_SUM_FIRST_CTX : Fld := ⟨0, 16, 3⟩
def CORE_FAULT_SUM_VALID : Fld := ⟨0, 19, 1⟩
def CORE_FAULT_SUM_COUNT : Fld := ⟨0, 20, 12⟩
def CORE_FAULT_SUM_NUM_FLAGS : Fld := ⟨0, 32, 5⟩
/-- CORE_BEATS: 64 bits, plot domain. -/
def CORE_BEATS (n : Nat) : Nat := 0x1000020 + n * 0x1000
def CORE_BEATS_BEATS : Fld := ⟨0, 0, 64⟩
/-- CORE_EMPTY: 64 bits, plot domain. -/
def CORE_EMPTY (n : Nat) : Nat := 0x1000028 + n * 0x1000
def CORE_EMPTY_EMPTY : Fld := ⟨0, 0, 64⟩
/-- CORE_SKIPPED: 64 bits, plot domain. -/
def CORE_SKIPPED (n : Nat) : Nat := 0x1000030 + n * 0x1000
def CORE_SKIPPED_SKIPPED : Fld := ⟨0, 0, 64⟩
/-- CTX_CTRL: 32 bits, plot domain. -/
def CTX_CTRL (n : Nat) (c : Nat) : Nat := 0x1000100 + n * 0x1000 + c * 0x80
def CTX_CTRL_HALT_REQ : Fld := ⟨0, 0, 1⟩
def CTX_CTRL_RESUME : Fld := ⟨0, 1, 1⟩
def CTX_CTRL_STEP : Fld := ⟨0, 2, 1⟩
def CTX_CTRL_EIE : Fld := ⟨0, 3, 1⟩
def CTX_CTRL_SET_SOFT : Fld := ⟨0, 4, 1⟩
def CTX_CTRL_PRIV : Fld := ⟨0, 5, 1⟩
/-- CTX_STATE: 32 bits, plot domain. -/
def CTX_STATE (n : Nat) (c : Nat) : Nat := 0x1000108 + n * 0x1000 + c * 0x80
def CTX_STATE_STATE : Fld := ⟨0, 0, 3⟩
def CTX_STATE_PACED : Fld := ⟨0, 3, 1⟩
def CTX_STATE_REASON : Fld := ⟨0, 4, 4⟩
def CTX_STATE_REPI : Fld := ⟨0, 8, 1⟩
def CTX_STATE_HALT_CAUSE : Fld := ⟨0, 9, 3⟩
def CTX_STATE_DEPTH : Fld := ⟨0, 12, 3⟩
def CTX_STATE_PC : Fld := ⟨0, 16, 11⟩
/-- CTX_SLOT: 64 bits, plot domain. -/
def CTX_SLOT (n : Nat) (c : Nat) : Nat := 0x1000110 + n * 0x1000 + c * 0x80
def CTX_SLOT_SLOT : Fld := ⟨0, 0, 64⟩
/-- CTX_EVT: 32 bits, plot domain. -/
def CTX_EVT (n : Nat) (c : Nat) : Nat := 0x1000118 + n * 0x1000 + c * 0x80
def CTX_EVT_PEND : Fld := ⟨0, 0, 4⟩
def CTX_EVT_EN : Fld := ⟨0, 8, 4⟩
/-- CTX_TRAP: 32 bits, plot domain. -/
def CTX_TRAP (n : Nat) (c : Nat) : Nat := 0x1000120 + n * 0x1000 + c * 0x80
def CTX_TRAP_VEC : Fld := ⟨0, 0, 11⟩
def CTX_TRAP_EPC : Fld := ⟨0, 16, 11⟩
/-- CTX_FAULT: 64 bits, plot domain. -/
def CTX_FAULT (n : Nat) (c : Nat) : Nat := 0x1000128 + n * 0x1000 + c * 0x80
def CTX_FAULT_CODE : Fld := ⟨0, 0, 16⟩
def CTX_FAULT_SLOT : Fld := ⟨0, 16, 2⟩
def CTX_FAULT_DEFERRED : Fld := ⟨0, 18, 1⟩
def CTX_FAULT_PC : Fld := ⟨0, 32, 11⟩
/-- CTX_FAULT_INFO: 64 bits, plot domain. -/
def CTX_FAULT_INFO (n : Nat) (c : Nat) : Nat := 0x1000130 + n * 0x1000 + c * 0x80
def CTX_FAULT_INFO_INFO : Fld := ⟨0, 0, 64⟩
/-- CTX_REPI: 32 bits, plot domain. -/
def CTX_REPI (n : Nat) (c : Nat) : Nat := 0x1000138 + n * 0x1000 + c * 0x80
def CTX_REPI_REMAIN : Fld := ⟨0, 0, 16⟩
def CTX_REPI_ACTIVE : Fld := ⟨0, 16, 1⟩
/-- CTX_ENTRY: 32 bits, device domain. -/
def CTX_ENTRY (n : Nat) (c : Nat) : Nat := 0x1000140 + n * 0x1000 + c * 0x80
def CTX_ENTRY_ENTRY : Fld := ⟨0, 0, 11⟩


/-! ### Registers of spec/06_matrix_engines.md -/

/-- ENG_STATUS: 32 bits, plot domain. -/
def ENG_STATUS (n : Nat) (e : Nat) : Nat := 0x1000600 + n * 0x1000 + e * 0x100
def ENG_STATUS_QUEUED : Fld := ⟨0, 0, 3⟩
def ENG_STATUS_BUSY : Fld := ⟨0, 3, 1⟩
def ENG_STATUS_LAST_SHAPE : Fld := ⟨0, 4, 3⟩
def ENG_STATUS_LAST_FLOW : Fld := ⟨0, 7, 1⟩
def ENG_STATUS_COLS_USED : Fld := ⟨0, 8, 4⟩
def ENG_STATUS_LAST_CTX : Fld := ⟨0, 16, 3⟩
/-- ENG_ISSUED: 64 bits, plot domain. -/
def ENG_ISSUED (n : Nat) (e : Nat) : Nat := 0x1000608 + n * 0x1000 + e * 0x100
def ENG_ISSUED_ISSUED : Fld := ⟨0, 0, 64⟩
/-- ENG_DONE: 64 bits, plot domain. -/
def ENG_DONE (n : Nat) (e : Nat) : Nat := 0x1000610 + n * 0x1000 + e * 0x100
def ENG_DONE_DONE : Fld := ⟨0, 0, 64⟩
/-- ENG_ACTIVE: 64 bits, plot domain. -/
def ENG_ACTIVE (n : Nat) (e : Nat) : Nat := 0x1000618 + n * 0x1000 + e * 0x100
def ENG_ACTIVE_ACTIVE : Fld := ⟨0, 0, 64⟩
/-- ENG_STALL: 64 bits, plot domain. -/
def ENG_STALL (n : Nat) (e : Nat) : Nat := 0x1000620 + n * 0x1000 + e * 0x100
def ENG_STALL_STALL : Fld := ⟨0, 0, 64⟩


/-! ### Registers of spec/07_matrix_numerics.md -/

/-- ENG_FLAGS: 32 bits, plot domain. -/
def ENG_FLAGS (n : Nat) (e : Nat) : Nat := 0x1000640 + n * 0x1000 + e * 0x100
def ENG_FLAGS_INV : Fld := ⟨0, 0, 1⟩
def ENG_FLAGS_OVF : Fld := ⟨0, 1, 1⟩
def ENG_FLAGS_UNF : Fld := ⟨0, 2, 1⟩
def ENG_FLAGS_SCL_NAN : Fld := ⟨0, 3, 1⟩
def ENG_FLAGS_INX : Fld := ⟨0, 4, 1⟩
/-- ENG_EVT_MASK: 32 bits, plot domain. -/
def ENG_EVT_MASK (n : Nat) (e : Nat) : Nat := 0x1000648 + n * 0x1000 + e * 0x100
def ENG_EVT_MASK_MASK : Fld := ⟨0, 0, 5⟩
/-- ENG_INV_POS: 128 bits, plot domain. -/
def ENG_INV_POS (n : Nat) (e : Nat) : Nat := 0x1000650 + n * 0x1000 + e * 0x100
def ENG_INV_POS_ROW : Fld := ⟨0, 0, 16⟩
def ENG_INV_POS_COL : Fld := ⟨0, 16, 16⟩
def ENG_INV_POS_KBLK : Fld := ⟨0, 32, 19⟩
def ENG_INV_POS_STAGE : Fld := ⟨0, 51, 1⟩
def ENG_INV_POS_VALID : Fld := ⟨0, 52, 1⟩
def ENG_INV_POS_CTX : Fld := ⟨0, 53, 3⟩
def ENG_INV_POS_BEAT : Fld := ⟨1, 0, 32⟩
def ENG_INV_POS_CMD : Fld := ⟨1, 32, 32⟩


/-! ### Registers of spec/08_vector_datapath.md -/

/-- VEC_FLAGS: 32 bits, plot domain. -/
def VEC_FLAGS (n : Nat) : Nat := 0x1000800 + n * 0x1000
def VEC_FLAGS_INV : Fld := ⟨0, 0, 1⟩
def VEC_FLAGS_OVF : Fld := ⟨0, 1, 1⟩
def VEC_FLAGS_UNF : Fld := ⟨0, 2, 1⟩
def VEC_FLAGS_NAN_ALL : Fld := ⟨0, 3, 1⟩
def VEC_FLAGS_INX : Fld := ⟨0, 4, 1⟩
/-- VEC_EVT_MASK: 32 bits, plot domain. -/
def VEC_EVT_MASK (n : Nat) : Nat := 0x1000808 + n * 0x1000
def VEC_EVT_MASK_MASK : Fld := ⟨0, 0, 5⟩
/-- VEC_FIRST: 64 bits, plot domain. -/
def VEC_FIRST (n : Nat) : Nat := 0x1000810 + n * 0x1000
def VEC_FIRST_PC : Fld := ⟨0, 0, 11⟩
def VEC_FIRST_CTX : Fld := ⟨0, 11, 3⟩
def VEC_FIRST_FLAGS : Fld := ⟨0, 14, 5⟩
def VEC_FIRST_LANE : Fld := ⟨0, 19, 5⟩
def VEC_FIRST_VALID : Fld := ⟨0, 24, 1⟩
/-- VEC_ISSUED: 64 bits, plot domain. -/
def VEC_ISSUED (n : Nat) : Nat := 0x1000818 + n * 0x1000
def VEC_ISSUED_ISSUED : Fld := ⟨0, 0, 64⟩


/-! ### Registers of spec/09_core_memory.md -/

/-- BANK_OWNER: 32 bits, plot domain. -/
def BANK_OWNER (n : Nat) (b : Nat) : Nat := 0x1000500 + n * 0x1000 + b * 0x8
def BANK_OWNER_OWNER : Fld := ⟨0, 0, 4⟩
def BANK_OWNER_TARGET : Fld := ⟨0, 4, 4⟩
def BANK_OWNER_PENDING : Fld := ⟨0, 8, 1⟩
/-- MEM_ECC: 64 bits, device domain. -/
def MEM_ECC (n : Nat) : Nat := 0x1000580 + n * 0x1000
def MEM_ECC_CORR : Fld := ⟨0, 0, 32⟩
def MEM_ECC_POISONED : Fld := ⟨0, 32, 16⟩
/-- MEM_ECC_LOC: 64 bits, device domain. -/
def MEM_ECC_LOC (n : Nat) : Nat := 0x1000588 + n * 0x1000
def MEM_ECC_LOC_LOCAL : Fld := ⟨0, 0, 20⟩
def MEM_ECC_LOC_VALID : Fld := ⟨0, 20, 1⟩
/-- SIEVE_CFG: 32 bits, device domain. -/
def SIEVE_CFG (n : Nat) : Nat := 0x1000590 + n * 0x1000
def SIEVE_CFG_EN : Fld := ⟨0, 0, 1⟩
def SIEVE_CFG_PASS_H : Fld := ⟨0, 8, 8⟩
/-- SIEVE_STATUS: 64 bits, device domain. -/
def SIEVE_STATUS (n : Nat) : Nat := 0x1000598 + n * 0x1000
def SIEVE_STATUS_NEXT : Fld := ⟨0, 0, 12⟩
def SIEVE_STATUS_HOLD : Fld := ⟨0, 12, 1⟩
def SIEVE_STATUS_PASSES : Fld := ⟨0, 16, 16⟩
def SIEVE_STATUS_FAILS : Fld := ⟨0, 32, 16⟩
/-- SCRUB_CFG: 32 bits, device domain. -/
def SCRUB_CFG (n : Nat) : Nat := 0x10005A0 + n * 0x1000
def SCRUB_CFG_EN : Fld := ⟨0, 0, 1⟩
def SCRUB_CFG_PASS_H : Fld := ⟨0, 8, 8⟩
/-- SCRUB_STATUS: 64 bits, device domain. -/
def SCRUB_STATUS (n : Nat) : Nat := 0x10005A8 + n * 0x1000
def SCRUB_STATUS_NEXT : Fld := ⟨0, 0, 14⟩
def SCRUB_STATUS_PASSES : Fld := ⟨0, 16, 16⟩
/-- MEM_STALL: 64 bits, plot domain. -/
def MEM_STALL (n : Nat) : Nat := 0x10005B0 + n * 0x1000
def MEM_STALL_BANK : Fld := ⟨0, 0, 32⟩
def MEM_STALL_BACKGROUND : Fld := ⟨0, 32, 32⟩


/-! ### Registers of spec/10_streams.md -/

/-- CH_STATUS: 64 bits, plot domain. -/
def CH_STATUS (n : Nat) (c : Nat) : Nat := 0x1000940 + n * 0x1000 + c * 0x80
def CH_STATUS_STATE : Fld := ⟨0, 0, 3⟩
def CH_STATUS_STALLED : Fld := ⟨0, 3, 1⟩
def CH_STATUS_MEASURED : Fld := ⟨0, 4, 1⟩
def CH_STATUS_POISONED : Fld := ⟨0, 5, 1⟩
def CH_STATUS_OWNER_CTX : Fld := ⟨0, 8, 3⟩
def CH_STATUS_CODE : Fld := ⟨0, 16, 16⟩
def CH_STATUS_OUTSTANDING : Fld := ⟨0, 32, 7⟩
/-- CH_RATE: 64 bits, plot domain. -/
def CH_RATE (n : Nat) (c : Nat) : Nat := 0x1000948 + n * 0x1000 + c * 0x80
def CH_RATE_RATE : Fld := ⟨0, 0, 32⟩
def CH_RATE_CONSUMED : Fld := ⟨0, 32, 17⟩
/-- CH_DRY: 64 bits, plot domain. -/
def CH_DRY (n : Nat) (c : Nat) : Nat := 0x1000950 + n * 0x1000 + c * 0x80
def CH_DRY_STAMP : Fld := ⟨0, 0, 32⟩
/-- CH_EVENTS: 64 bits, plot domain. -/
def CH_EVENTS (n : Nat) (c : Nat) : Nat := 0x1000958 + n * 0x1000 + c * 0x80
def CH_EVENTS_PAGE_WAITS : Fld := ⟨0, 0, 16⟩
def CH_EVENTS_STALLS : Fld := ⟨0, 16, 16⟩
/-- CH_DESC: 512 bits, plot domain. -/
def CH_DESC (n : Nat) (c : Nat) : Nat := 0x1000900 + n * 0x1000 + c * 0x80
def CH_DESC_DESC : Fld := ⟨0, 0, 64⟩


/-! ### Registers of spec/11_stream_network.md -/

/-- ROUTE_ENTRY: 64 bits, device domain. -/
def ROUTE_ENTRY (n : Nat) (i : Nat) : Nat := 0x1000B00 + n * 0x1000 + i * 0x8
def ROUTE_ENTRY_LINK_ID : Fld := ⟨0, 0, 12⟩
def ROUTE_ENTRY_VALID : Fld := ⟨0, 12, 1⟩
def ROUTE_ENTRY_IN : Fld := ⟨0, 13, 3⟩
def ROUTE_ENTRY_OUT : Fld := ⟨0, 16, 6⟩
def ROUTE_ENTRY_LAG : Fld := ⟨0, 24, 8⟩
/-- PLOT_CFG: 64 bits, device domain. -/
def PLOT_CFG (p : Nat) : Nat := 0x600000 + p * 0x400
def PLOT_CFG_ROW0 : Fld := ⟨0, 0, 8⟩
def PLOT_CFG_COL0 : Fld := ⟨0, 8, 7⟩
def PLOT_CFG_HEIGHT : Fld := ⟨0, 15, 8⟩
def PLOT_CFG_WIDTH : Fld := ⟨0, 23, 8⟩
def PLOT_CFG_VALID : Fld := ⟨0, 31, 1⟩
def PLOT_CFG_FAULT_MODE : Fld := ⟨0, 32, 1⟩
def PLOT_CFG_ENG_WIDTH : Fld := ⟨0, 33, 4⟩
def PLOT_CFG_TOLERANT : Fld := ⟨0, 37, 1⟩
def PLOT_CFG_PATIENCE : Fld := ⟨0, 38, 12⟩
/-- PLOT_STATUS: 64 bits, device domain. -/
def PLOT_STATUS (p : Nat) : Nat := 0x600008 + p * 0x400
def PLOT_STATUS_STATE : Fld := ⟨0, 0, 3⟩
def PLOT_STATUS_FENCED : Fld := ⟨0, 3, 1⟩
def PLOT_STATUS_FIRST_CODE : Fld := ⟨0, 16, 16⟩
def PLOT_STATUS_FIRST_CORE : Fld := ⟨0, 32, 15⟩
def PLOT_STATUS_FIRST_CTX : Fld := ⟨0, 47, 3⟩
/-- PLOT_CTRL: 32 bits, device domain. -/
def PLOT_CTRL (p : Nat) : Nat := 0x600010 + p * 0x400
def PLOT_CTRL_RESET : Fld := ⟨0, 0, 1⟩
def PLOT_CTRL_START : Fld := ⟨0, 1, 1⟩
/-- PLOT_SPILL_SIZE: 64 bits, device domain. -/
def PLOT_SPILL_SIZE (p : Nat) : Nat := 0x600018 + p * 0x400
def PLOT_SPILL_SIZE_PAGES : Fld := ⟨0, 0, 20⟩
def PLOT_SPILL_SIZE_CH_MAX : Fld := ⟨0, 20, 12⟩
def PLOT_SPILL_SIZE_USED : Fld := ⟨0, 32, 20⟩
def PLOT_SPILL_SIZE_SPILLS : Fld := ⟨0, 52, 12⟩
/-- PLOT_SPILL_BASE: 64 bits, device domain. -/
def PLOT_SPILL_BASE (p : Nat) : Nat := 0x600020 + p * 0x400
def PLOT_SPILL_BASE_BASE : Fld := ⟨0, 12, 44⟩
def PLOT_SPILL_BASE_EN : Fld := ⟨0, 63, 1⟩
/-- PLOT_STALL: 256 bits, plot domain. -/
def PLOT_STALL (p : Nat) : Nat := 0x600030 + p * 0x400
def PLOT_STALL_CORE : Fld := ⟨0, 0, 15⟩
def PLOT_STALL_CH : Fld := ⟨0, 15, 2⟩
def PLOT_STALL_LINK_ID : Fld := ⟨0, 17, 12⟩
def PLOT_STALL_EXHAUSTED : Fld := ⟨0, 29, 1⟩
def PLOT_STALL_VALID : Fld := ⟨0, 30, 1⟩
def PLOT_STALL_WCORE : Fld := ⟨1, 0, 15⟩
def PLOT_STALL_WCH : Fld := ⟨1, 15, 2⟩
def PLOT_STALL_BUF_ID : Fld := ⟨1, 17, 8⟩
def PLOT_STALL_OCORE : Fld := ⟨2, 0, 15⟩
def PLOT_STALL_OCH : Fld := ⟨2, 15, 2⟩
def PLOT_STALL_OLINK : Fld := ⟨2, 17, 12⟩
def PLOT_STALL_OVALID : Fld := ⟨2, 29, 1⟩
def PLOT_STALL_SLOT : Fld := ⟨3, 0, 48⟩
/-- PLOT_LAG: 128 bits, plot domain. -/
def PLOT_LAG (p : Nat) : Nat := 0x600050 + p * 0x400
def PLOT_LAG_CORE : Fld := ⟨0, 0, 15⟩
def PLOT_LAG_CH : Fld := ⟨0, 15, 2⟩
def PLOT_LAG_LINK_ID : Fld := ⟨0, 17, 12⟩
def PLOT_LAG_VALID : Fld := ⟨0, 29, 1⟩
def PLOT_LAG_LAG : Fld := ⟨1, 0, 32⟩


/-! ### Registers of spec/12_packet_network.md -/

/-- LTN_CFG: 64 bits, device domain. -/
def LTN_CFG (p : Nat) : Nat := 0x700000 + p * 0x100
def LTN_CFG_ROUTER : Fld := ⟨0, 0, 11⟩
def LTN_CFG_PORT : Fld := ⟨0, 11, 5⟩
def LTN_CFG_DIR : Fld := ⟨0, 16, 1⟩
def LTN_CFG_EN : Fld := ⟨0, 17, 1⟩
def LTN_CFG_TRACE : Fld := ⟨0, 18, 1⟩
def LTN_CFG_OP_MASK : Fld := ⟨0, 19, 16⟩
def LTN_CFG_VC_MASK : Fld := ⟨0, 35, 4⟩
def LTN_CFG_ARM : Fld := ⟨0, 39, 1⟩
def LTN_CFG_TRIG : Fld := ⟨0, 40, 16⟩
/-- LTN_NODE: 64 bits, device domain. -/
def LTN_NODE (p : Nat) : Nat := 0x700008 + p * 0x100
def LTN_NODE_SRC_VAL : Fld := ⟨0, 0, 16⟩
def LTN_NODE_SRC_MASK : Fld := ⟨0, 16, 16⟩
def LTN_NODE_DST_VAL : Fld := ⟨0, 32, 16⟩
def LTN_NODE_DST_MASK : Fld := ⟨0, 48, 16⟩
/-- LTN_ADDR_LO: 64 bits, device domain. -/
def LTN_ADDR_LO (p : Nat) : Nat := 0x700010 + p * 0x100
def LTN_ADDR_LO_LOW : Fld := ⟨0, 0, 56⟩
/-- LTN_ADDR_HI: 64 bits, device domain. -/
def LTN_ADDR_HI (p : Nat) : Nat := 0x700018 + p * 0x100
def LTN_ADDR_HI_HIGH : Fld := ⟨0, 0, 56⟩
/-- LTN_COUNT: 64 bits, device domain. -/
def LTN_COUNT (p : Nat) : Nat := 0x700020 + p * 0x100
def LTN_COUNT_PACKETS : Fld := ⟨0, 0, 32⟩
def LTN_COUNT_FLITS : Fld := ⟨0, 32, 32⟩
/-- LTN_RING: 64 bits, device domain. -/
def LTN_RING (p : Nat) : Nat := 0x700028 + p * 0x100
def LTN_RING_BASE : Fld := ⟨0, 12, 44⟩
def LTN_RING_SIZE : Fld := ⟨0, 56, 4⟩
def LTN_RING_EN : Fld := ⟨0, 63, 1⟩
/-- LTN_PTR: 64 bits, device domain. -/
def LTN_PTR (p : Nat) : Nat := 0x700030 + p * 0x100
def LTN_PTR_HEAD : Fld := ⟨0, 0, 16⟩
def LTN_PTR_TAIL : Fld := ⟨0, 32, 16⟩
/-- LTN_DROP: 64 bits, device domain. -/
def LTN_DROP (p : Nat) : Nat := 0x700038 + p * 0x100
def LTN_DROP_DROPPED : Fld := ⟨0, 0, 32⟩


/-! ### Registers of spec/13_sync_and_messaging.md -/

/-- SYNC_VALUE: 64 bits, device domain. -/
def SYNC_VALUE (i : Nat) : Nat := 0x100000 + i * 0x10
def SYNC_VALUE_VALUE : Fld := ⟨0, 0, 64⟩
/-- SYNC_CTRL: 64 bits, device domain. -/
def SYNC_CTRL (i : Nat) : Nat := 0x100008 + i * 0x10
def SYNC_CTRL_PLOT : Fld := ⟨0, 0, 6⟩
def SYNC_CTRL_OWNED : Fld := ⟨0, 6, 1⟩
def SYNC_CTRL_OPEN : Fld := ⟨0, 7, 1⟩
def SYNC_CTRL_ABANDONED : Fld := ⟨0, 8, 1⟩
def SYNC_CTRL_WAITERS : Fld := ⟨0, 16, 16⟩
/-- LOCK: 64 bits, device domain. -/
def LOCK (i : Nat) : Nat := 0xA000 + i * 0x8
def LOCK_HOLDER : Fld := ⟨0, 0, 16⟩
def LOCK_ABANDONED : Fld := ⟨0, 16, 1⟩
def LOCK_FORCE : Fld := ⟨0, 32, 1⟩
/-- MBX_HDR: 64 bits, device domain. -/
def MBX_HDR (j : Nat) : Nat := 0x10000 + j * 0x200
def MBX_HDR_STATE : Fld := ⟨0, 0, 3⟩
def MBX_HDR_DB : Fld := ⟨0, 3, 5⟩
def MBX_HDR_LEN : Fld := ⟨0, 8, 9⟩
def MBX_HDR_SRC : Fld := ⟨0, 32, 16⟩
def MBX_HDR_SEQ : Fld := ⟨0, 48, 16⟩
/-- MBX_PORT: 64 bits, device domain. -/
def MBX_PORT (j : Nat) : Nat := 0x10008 + j * 0x200
def MBX_PORT_STATUS : Fld := ⟨0, 0, 16⟩
def MBX_PORT_STATE : Fld := ⟨0, 16, 3⟩
def MBX_PORT_OP : Fld := ⟨0, 32, 3⟩
def MBX_PORT_DBW : Fld := ⟨0, 35, 5⟩
def MBX_PORT_LENW : Fld := ⟨0, 40, 9⟩
/-- MBX_DB: 64 bits, device domain. -/
def MBX_DB (j : Nat) : Nat := 0x10010 + j * 0x200
def MBX_DB_PEND : Fld := ⟨0, 0, 32⟩
def MBX_DB_MASK : Fld := ⟨0, 32, 32⟩
/-- MBX_CFG: 64 bits, device domain. -/
def MBX_CFG (j : Nat) : Nat := 0x10018 + j * 0x200
def MBX_CFG_RECEIVER : Fld := ⟨0, 0, 4⟩
def MBX_CFG_VECTOR : Fld := ⟨0, 4, 11⟩
def MBX_CFG_LAST : Fld := ⟨0, 48, 16⟩
/-- Q_BASE: 64 bits, device domain. -/
def Q_BASE (q : Nat) : Nat := 0x200000 + q * 0x40
def Q_BASE_BASE : Fld := ⟨0, 6, 50⟩
def Q_BASE_LOG_SIZE : Fld := ⟨0, 56, 5⟩
/-- Q_PTR: 64 bits, device domain. -/
def Q_PTR (q : Nat) : Nat := 0x200008 + q * 0x40
def Q_PTR_HEAD : Fld := ⟨0, 0, 16⟩
def Q_PTR_TAIL : Fld := ⟨0, 32, 16⟩
/-- Q_CFG: 64 bits, device domain. -/
def Q_CFG (q : Nat) : Nat := 0x200010 + q * 0x40
def Q_CFG_STATE : Fld := ⟨0, 0, 2⟩
def Q_CFG_OWNER : Fld := ⟨0, 2, 2⟩
def Q_CFG_PLOT : Fld := ⟨0, 4, 6⟩
def Q_CFG_CORE_SUBMIT : Fld := ⟨0, 10, 1⟩
def Q_CFG_CORE_TAKE : Fld := ⟨0, 11, 1⟩
def Q_CFG_DB_KIND : Fld := ⟨0, 12, 3⟩
def Q_CFG_DB_COALESCE : Fld := ⟨0, 15, 1⟩
def Q_CFG_DB_TARGET : Fld := ⟨0, 16, 16⟩
/-- Q_COUNT: 64 bits, device domain. -/
def Q_COUNT (q : Nat) : Nat := 0x200018 + q * 0x40
def Q_COUNT_SUBMITS : Fld := ⟨0, 0, 32⟩
def Q_COUNT_REJECTS : Fld := ⟨0, 32, 32⟩
/-- MBX_BODY: 3840 bits, device domain. -/
def MBX_BODY (j : Nat) : Nat := 0x10020 + j * 0x200
def MBX_BODY_DATA : Fld := ⟨0, 0, 64⟩


/-! ### Registers of spec/14_lpddr.md -/

/-- LMC_STATUS: 64 bits, device domain. -/
def LMC_STATUS : Nat := 0x80000
def LMC_STATUS_TRAINED : Fld := ⟨0, 0, 1⟩
def LMC_STATUS_INIT_DONE : Fld := ⟨0, 1, 1⟩
def LMC_STATUS_PAIR_DEGRADED : Fld := ⟨0, 2, 4⟩
def LMC_STATUS_PAIR_FAILED : Fld := ⟨0, 6, 4⟩
/-- LMC_SCRUB: 64 bits, device domain. -/
def LMC_SCRUB : Nat := 0x80018
def LMC_SCRUB_EN : Fld := ⟨0, 0, 1⟩
def LMC_SCRUB_PASS_H : Fld := ⟨0, 8, 8⟩
def LMC_SCRUB_POS : Fld := ⟨0, 16, 28⟩
def LMC_SCRUB_PASSES : Fld := ⟨0, 44, 16⟩
/-- LMC_RETRAIN: 64 bits, device domain. -/
def LMC_RETRAIN : Nat := 0x80020
def LMC_RETRAIN_INTERVAL : Fld := ⟨0, 0, 16⟩
def LMC_RETRAIN_DEFER : Fld := ⟨0, 16, 16⟩
def LMC_RETRAIN_RETIRE_LIMIT : Fld := ⟨0, 32, 8⟩
/-- LMC_ERR: 64 bits, device domain. -/
def LMC_ERR (i : Nat) : Nat := 0x81000 + i * 0x1000
def LMC_ERR_CORRECTED : Fld := ⟨0, 0, 16⟩
def LMC_ERR_REBUILT : Fld := ⟨0, 16, 16⟩
def LMC_ERR_UNRECOVERABLE : Fld := ⟨0, 32, 16⟩
def LMC_ERR_PARITY_FIXED : Fld := ⟨0, 48, 16⟩
/-- LMC_ERR_LOC: 64 bits, device domain. -/
def LMC_ERR_LOC (i : Nat) : Nat := 0x81008 + i * 0x1000
def LMC_ERR_LOC_OFFSET : Fld := ⟨0, 0, 40⟩
def LMC_ERR_LOC_CH : Fld := ⟨0, 40, 3⟩
def LMC_ERR_LOC_VALID : Fld := ⟨0, 43, 1⟩
/-- LMC_CH: 64 bits, device domain. -/
def LMC_CH (i : Nat) (l : Nat) : Nat := 0x81100 + i * 0x1000 + l * 0x8
def LMC_CH_STATE : Fld := ⟨0, 0, 2⟩
def LMC_CH_REINSTATE : Fld := ⟨0, 2, 1⟩
def LMC_CH_REBUILD_POS : Fld := ⟨0, 4, 28⟩
def LMC_CH_FAILS : Fld := ⟨0, 32, 16⟩
def LMC_CH_TRAININGS : Fld := ⟨0, 48, 16⟩
/-- LMC_WIN_A: 64 bits, port domain. -/
def LMC_WIN_A : Nat := 0x80008
def LMC_WIN_A_BASE : Fld := ⟨0, 30, 10⟩
/-- LMC_WIN_B: 64 bits, port domain. -/
def LMC_WIN_B : Nat := 0x80010
def LMC_WIN_B_BASE : Fld := ⟨0, 30, 10⟩


/-! ### Registers of spec/15_loam.md -/

/-- LOAM_RGN_STATUS: 64 bits, device domain. -/
def LOAM_RGN_STATUS (r : Nat) : Nat := 0x30000 + r * 0x400
def LOAM_RGN_STATUS_STATE : Fld := ⟨0, 0, 2⟩
def LOAM_RGN_STATUS_FENCED : Fld := ⟨0, 2, 1⟩
def LOAM_RGN_STATUS_HALT_CODE : Fld := ⟨0, 16, 16⟩
def LOAM_RGN_STATUS_HALT_WORD : Fld := ⟨0, 32, 17⟩
/-- LOAM_RGN_ERR: 64 bits, device domain. -/
def LOAM_RGN_ERR (r : Nat) : Nat := 0x30008 + r * 0x400
def LOAM_RGN_ERR_ECC_CORR : Fld := ⟨0, 0, 16⟩
def LOAM_RGN_ERR_WIN_DENIED : Fld := ⟨0, 16, 16⟩
def LOAM_RGN_ERR_GLINT_MISS : Fld := ⟨0, 32, 16⟩
/-- LOAM_BANK_STATUS: 64 bits, device domain. -/
def LOAM_BANK_STATUS (r : Nat) : Nat := 0x30010 + r * 0x400
def LOAM_BANK_STATUS_VCCIO : Fld := ⟨0, 0, 2⟩
def LOAM_BANK_STATUS_PULL : Fld := ⟨0, 2, 2⟩
def LOAM_BANK_STATUS_CLK0_PRESENT : Fld := ⟨0, 4, 1⟩
def LOAM_BANK_STATUS_CLK1_PRESENT : Fld := ⟨0, 5, 1⟩
def LOAM_BANK_STATUS_CAL_DONE : Fld := ⟨0, 6, 1⟩
def LOAM_BANK_STATUS_OVR_PIN : Fld := ⟨0, 16, 5⟩
def LOAM_BANK_STATUS_OVR_VALID : Fld := ⟨0, 21, 1⟩
def LOAM_BANK_STATUS_UDR_PIN : Fld := ⟨0, 24, 5⟩
def LOAM_BANK_STATUS_UDR_VALID : Fld := ⟨0, 29, 1⟩
/-- LOAM_BANK_CNT: 64 bits, device domain. -/
def LOAM_BANK_CNT (r : Nat) : Nat := 0x30018 + r * 0x400
def LOAM_BANK_CNT_OVERRUNS : Fld := ⟨0, 0, 32⟩
def LOAM_BANK_CNT_UNDERRUNS : Fld := ⟨0, 32, 32⟩
/-- LOAM_BANK_CTRL: 32 bits, device domain. -/
def LOAM_BANK_CTRL (r : Nat) : Nat := 0x30020 + r * 0x400
def LOAM_BANK_CTRL_CAL_INTERVAL : Fld := ⟨0, 0, 16⟩
def LOAM_BANK_CTRL_LOG_UNDERRUN : Fld := ⟨0, 16, 1⟩
/-- FL_CFG: 64 bits, device domain. -/
def FL_CFG (l : Nat) : Nat := 0x34000 + l * 0x100
def FL_CFG_EN : Fld := ⟨0, 0, 1⟩
def FL_CFG_REGION : Fld := ⟨0, 1, 4⟩
def FL_CFG_PORT : Fld := ⟨0, 5, 2⟩
def FL_CFG_PCS : Fld := ⟨0, 7, 2⟩
def FL_CFG_RATE_N : Fld := ⟨0, 9, 11⟩
def FL_CFG_RATE_D : Fld := ⟨0, 20, 2⟩
def FL_CFG_TX_POL : Fld := ⟨0, 22, 1⟩
def FL_CFG_RX_POL : Fld := ⟨0, 23, 1⟩
def FL_CFG_IDLE_K : Fld := ⟨0, 24, 4⟩
/-- FL_IDLE: 64 bits, device domain. -/
def FL_IDLE (l : Nat) : Nat := 0x34008 + l * 0x100
def FL_IDLE_IDLE : Fld := ⟨0, 0, 64⟩
/-- FL_PRBS: 64 bits, device domain. -/
def FL_PRBS (l : Nat) : Nat := 0x34010 + l * 0x100
def FL_PRBS_POLY : Fld := ⟨0, 0, 2⟩
def FL_PRBS_GEN_EN : Fld := ⟨0, 2, 1⟩
def FL_PRBS_CHK_EN : Fld := ⟨0, 3, 1⟩
def FL_PRBS_INVERT : Fld := ⟨0, 4, 1⟩
def FL_PRBS_INJECT : Fld := ⟨0, 5, 1⟩
def FL_PRBS_INJ_PERIOD : Fld := ⟨0, 8, 24⟩
/-- FL_STATUS: 64 bits, device domain. -/
def FL_STATUS (l : Nat) : Nat := 0x34018 + l * 0x100
def FL_STATUS_CDR_LOCK : Fld := ⟨0, 0, 1⟩
def FL_STATUS_BLOCK_LOCK : Fld := ⟨0, 1, 1⟩
def FL_STATUS_PRBS_LOCK : Fld := ⟨0, 2, 1⟩
def FL_STATUS_LOCK_LOST : Fld := ⟨0, 3, 1⟩
def FL_STATUS_OVERRUN : Fld := ⟨0, 4, 1⟩
def FL_STATUS_UNDERRUN : Fld := ⟨0, 5, 1⟩
def FL_STATUS_ADAPT_DONE : Fld := ⟨0, 6, 1⟩
/-- FL_ERRCNT: 64 bits, device domain. -/
def FL_ERRCNT (l : Nat) : Nat := 0x34020 + l * 0x100
def FL_ERRCNT_PRBS_ERRORS : Fld := ⟨0, 0, 32⟩
def FL_ERRCNT_CODE_ERRORS : Fld := ⟨0, 32, 32⟩


/-! ### Registers of spec/16_loading.md -/

/-- LOAD_CTRL: 32 bits, device domain. -/
def LOAD_CTRL : Nat := 0x20000
def LOAD_CTRL_CMD : Fld := ⟨0, 0, 3⟩
def LOAD_CTRL_FWD_MODULE : Fld := ⟨0, 3, 6⟩
/-- LOAD_STATUS: 64 bits, device domain. -/
def LOAD_STATUS : Nat := 0x20008
def LOAD_STATUS_STATE : Fld := ⟨0, 0, 4⟩
def LOAD_STATUS_KIND : Fld := ⟨0, 4, 2⟩
def LOAD_STATUS_REGION : Fld := ⟨0, 6, 4⟩
def LOAD_STATUS_CODE : Fld := ⟨0, 16, 16⟩
def LOAD_STATUS_REQUESTER : Fld := ⟨0, 32, 16⟩
/-- LOAD_FAIL: 64 bits, device domain. -/
def LOAD_FAIL : Nat := 0x20010
def LOAD_FAIL_OFFSET : Fld := ⟨0, 0, 32⟩
def LOAD_FAIL_FRAME : Fld := ⟨0, 32, 32⟩
/-- LOAD_DEADLINE: 32 bits, device domain. -/
def LOAD_DEADLINE : Nat := 0x20018
def LOAD_DEADLINE_SECONDS : Fld := ⟨0, 0, 12⟩
def LOAD_DEADLINE_EXPIRED : Fld := ⟨0, 12, 1⟩
def LOAD_DEADLINE_FULL_DONE : Fld := ⟨0, 13, 1⟩
/-- LOAD_STAGE: 64 bits, device domain. Its table gives the reset of BASE as the address, 944 GiB; the field holds bits 55:12 of it. -/
def LOAD_STAGE : Nat := 0x20020
def LOAD_STAGE_BASE : Fld := ⟨0, 12, 44⟩
def LOAD_STAGE_SIZE : Fld := ⟨0, 56, 8⟩
/-- LOAD_WIN: 32 bits, device domain. -/
def LOAD_WIN : Nat := 0x20028
def LOAD_WIN_OFFSET : Fld := ⟨0, 0, 13⟩
/-- LOAD_CFG: 32 bits, device domain. -/
def LOAD_CFG : Nat := 0x20030
def LOAD_CFG_REL_INTERVAL : Fld := ⟨0, 0, 16⟩
def LOAD_CFG_HOLD_S : Fld := ⟨0, 16, 8⟩
/-- LOAD_AT: 64 bits, device domain. -/
def LOAD_AT : Nat := 0x20038
def LOAD_AT_SLOT : Fld := ⟨0, 0, 64⟩
/-- LOAD_SEC: 32 bits, device domain. -/
def LOAD_SEC : Nat := 0x20040
def LOAD_SEC_ENFORCE : Fld := ⟨0, 0, 1⟩
def LOAD_SEC_OWNER_KEY : Fld := ⟨0, 1, 1⟩
/-- LOAD_LAST: 64 bits, device domain. -/
def LOAD_LAST : Nat := 0x20048
def LOAD_LAST_IMAGE_ID : Fld := ⟨0, 0, 64⟩
/-- LOAD_FWD: 64 bits, device domain. -/
def LOAD_FWD : Nat := 0x20050
def LOAD_FWD_STATE : Fld := ⟨0, 0, 4⟩
def LOAD_FWD_CODE : Fld := ⟨0, 16, 16⟩
def LOAD_FWD_MODULE : Fld := ⟨0, 32, 6⟩
def LOAD_FWD_VALID : Fld := ⟨0, 38, 1⟩
/-- LOAM_RGN_IMAGE: 64 bits, device domain. -/
def LOAM_RGN_IMAGE (r : Nat) : Nat := 0x30200 + r * 0x400
def LOAM_RGN_IMAGE_IMAGE_ID : Fld := ⟨0, 0, 64⟩
/-- LOAM_RGN_LOADS: 64 bits, device domain. -/
def LOAM_RGN_LOADS (r : Nat) : Nat := 0x30208 + r * 0x400
def LOAM_RGN_LOADS_COMMITS : Fld := ⟨0, 0, 16⟩
def LOAM_RGN_LOADS_REJECTS : Fld := ⟨0, 16, 16⟩
def LOAM_RGN_LOADS_LAST_CODE : Fld := ⟨0, 32, 16⟩


/-! ### Registers of spec/17_host_interface.md -/

/-- HOSTIF_OWNER: 64 bits, device domain. -/
def HOSTIF_OWNER : Nat := 0x8000
def HOSTIF_OWNER_OWNER : Fld := ⟨0, 0, 2⟩
def HOSTIF_OWNER_STANDBY : Fld := ⟨0, 2, 2⟩
def HOSTIF_OWNER_LAST_CAUSE : Fld := ⟨0, 4, 4⟩
def HOSTIF_OWNER_GEN : Fld := ⟨0, 16, 16⟩
def HOSTIF_OWNER_CMD : Fld := ⟨0, 32, 3⟩
/-- HOSTIF_HB: 32 bits, device domain. -/
def HOSTIF_HB : Nat := 0x8008
def HOSTIF_HB_TIMEOUT_MS : Fld := ⟨0, 0, 16⟩
def HOSTIF_HB_BEAT : Fld := ⟨0, 16, 1⟩
/-- HOSTIF_PORT_STATUS: 64 bits, port domain. -/
def HOSTIF_PORT_STATUS (p : Nat) : Nat := 0x8100 + p * 0x100
def HOSTIF_PORT_STATUS_LINK_UP : Fld := ⟨0, 0, 1⟩
def HOSTIF_PORT_STATUS_SPEED : Fld := ⟨0, 1, 3⟩
def HOSTIF_PORT_STATUS_WIDTH : Fld := ⟨0, 4, 5⟩
def HOSTIF_PORT_STATUS_CFG_READY : Fld := ⟨0, 9, 1⟩
def HOSTIF_PORT_STATUS_BME : Fld := ⟨0, 10, 1⟩
def HOSTIF_PORT_STATUS_MSIX_EN : Fld := ⟨0, 11, 1⟩
def HOSTIF_PORT_STATUS_ATS_EN : Fld := ⟨0, 12, 1⟩
def HOSTIF_PORT_STATUS_PRI_EN : Fld := ⟨0, 13, 1⟩
def HOSTIF_PORT_STATUS_LAST_STATUS : Fld := ⟨0, 16, 16⟩
def HOSTIF_PORT_STATUS_PRQ_OUT : Fld := ⟨0, 32, 10⟩
/-- HOSTIF_PORT_VEC: 32 bits, port domain. -/
def HOSTIF_PORT_VEC (p : Nat) : Nat := 0x8108 + p * 0x100
def HOSTIF_PORT_VEC_OWNER_VEC : Fld := ⟨0, 0, 11⟩
def HOSTIF_PORT_VEC_OWNER_EN : Fld := ⟨0, 11, 1⟩
def HOSTIF_PORT_VEC_ERR_VEC : Fld := ⟨0, 16, 11⟩
def HOSTIF_PORT_VEC_ERR_EN : Fld := ⟨0, 27, 1⟩
/-- HOSTIF_PORT_CNT: 64 bits, port domain. -/
def HOSTIF_PORT_CNT (p : Nat) : Nat := 0x8110 + p * 0x100
def HOSTIF_PORT_CNT_LINK_DOWNS : Fld := ⟨0, 0, 16⟩
def HOSTIF_PORT_CNT_TRANS_FAILS : Fld := ⟨0, 16, 16⟩
def HOSTIF_PORT_CNT_POISONED : Fld := ⟨0, 32, 16⟩
/-- HOSTIF_LWIN_ADDR: 64 bits, port domain. -/
def HOSTIF_LWIN_ADDR (p : Nat) : Nat := 0x8120 + p * 0x100
def HOSTIF_LWIN_ADDR_OFFSET : Fld := ⟨0, 3, 19⟩
def HOSTIF_LWIN_ADDR_INC : Fld := ⟨0, 22, 1⟩
/-- HOSTIF_LWIN_DATA: 64 bits, port domain. -/
def HOSTIF_LWIN_DATA (p : Nat) : Nat := 0x8128 + p * 0x100
def HOSTIF_LWIN_DATA_DATA : Fld := ⟨0, 0, 64⟩


/-! ### Registers of spec/18_cyust.md -/

/-- CYUST_TOPO: 64 bits, device domain. -/
def CYUST_TOPO : Nat := 0x40000
def CYUST_TOPO_MODULE : Fld := ⟨0, 0, 6⟩
def CYUST_TOPO_GROUP : Fld := ⟨0, 6, 3⟩
def CYUST_TOPO_ZDIM : Fld := ⟨0, 9, 2⟩
def CYUST_TOPO_GROUPS : Fld := ⟨0, 11, 3⟩
def CYUST_TOPO_AUX : Fld := ⟨0, 14, 2⟩
/-- CYUST_CFG: 64 bits, device domain. -/
def CYUST_CFG : Nat := 0x40008
def CYUST_CFG_REMOTE_TO : Fld := ⟨0, 0, 16⟩
def CYUST_CFG_DOWN_HOLD : Fld := ⟨0, 16, 8⟩
def CYUST_CFG_IDLE_EN : Fld := ⟨0, 24, 1⟩
def CYUST_CFG_IDLE_US : Fld := ⟨0, 32, 8⟩
def CYUST_CFG_CAL_S : Fld := ⟨0, 40, 8⟩
/-- CYUST_STATUS: 64 bits, device domain. -/
def CYUST_STATUS : Nat := 0x40010
def CYUST_STATUS_UP : Fld := ⟨0, 0, 8⟩
def CYUST_STATUS_SPARED : Fld := ⟨0, 8, 8⟩
def CYUST_STATUS_REACHABLE : Fld := ⟨0, 16, 10⟩
/-- CYUST_RT: 64 bits, device domain. -/
def CYUST_RT (i : Nat) : Nat := 0x41000 + i * 0x8
def CYUST_RT_PRIMARY : Fld := ⟨0, 0, 3⟩
def CYUST_RT_ALT : Fld := ⟨0, 4, 3⟩
def CYUST_RT_A_VALID : Fld := ⟨0, 7, 1⟩
def CYUST_RT_HOPS_P : Fld := ⟨0, 8, 4⟩
def CYUST_RT_HOPS_A : Fld := ⟨0, 12, 4⟩
def CYUST_RT_USE_ALT : Fld := ⟨0, 16, 1⟩
def CYUST_RT_ABSENT : Fld := ⟨0, 17, 1⟩
/-- CYUST_GW: 64 bits, device domain. -/
def CYUST_GW (i : Nat) : Nat := 0x44000 + i * 0x8
def CYUST_GW_LINK_ID : Fld := ⟨0, 0, 12⟩
def CYUST_GW_VALID : Fld := ⟨0, 12, 1⟩
def CYUST_GW_DIR : Fld := ⟨0, 13, 1⟩
def CYUST_GW_ROW : Fld := ⟨0, 14, 8⟩
def CYUST_GW_DMODULE : Fld := ⟨0, 22, 6⟩
def CYUST_GW_DGROUP : Fld := ⟨0, 28, 3⟩
def CYUST_GW_RLINK : Fld := ⟨0, 31, 12⟩
/-- CYUST_PORT_CTRL: 32 bits, device domain. -/
def CYUST_PORT_CTRL (p : Nat) : Nat := 0x42000 + p * 0x200
def CYUST_PORT_CTRL_EN : Fld := ⟨0, 0, 1⟩
def CYUST_PORT_CTRL_LOOP : Fld := ⟨0, 1, 2⟩
def CYUST_PORT_CTRL_PEER_MODULE : Fld := ⟨0, 3, 6⟩
def CYUST_PORT_CTRL_PEER_GROUP : Fld := ⟨0, 9, 3⟩
def CYUST_PORT_CTRL_RETRAIN : Fld := ⟨0, 12, 1⟩
def CYUST_PORT_CTRL_USE_DEFAULTS : Fld := ⟨0, 13, 1⟩
/-- CYUST_PORT_STATUS: 64 bits, device domain. -/
def CYUST_PORT_STATUS (p : Nat) : Nat := 0x42008 + p * 0x200
def CYUST_PORT_STATUS_STATE : Fld := ⟨0, 0, 3⟩
def CYUST_PORT_STATUS_MISWIRED : Fld := ⟨0, 3, 1⟩
def CYUST_PORT_STATUS_SPARE_USED : Fld := ⟨0, 4, 1⟩
def CYUST_PORT_STATUS_SPARE_FOR : Fld := ⟨0, 5, 4⟩
def CYUST_PORT_STATUS_PRESET_STORED : Fld := ⟨0, 9, 1⟩
def CYUST_PORT_STATUS_NBR_MODULE : Fld := ⟨0, 16, 6⟩
def CYUST_PORT_STATUS_NBR_GROUP : Fld := ⟨0, 22, 3⟩
def CYUST_PORT_STATUS_NBR_PORT : Fld := ⟨0, 25, 3⟩
def CYUST_PORT_STATUS_NBR_VALID : Fld := ⟨0, 28, 1⟩
/-- CYUST_PORT_DELAY: 32 bits, device domain. -/
def CYUST_PORT_DELAY (p : Nat) : Nat := 0x42010 + p * 0x200
def CYUST_PORT_DELAY_DELAY : Fld := ⟨0, 0, 16⟩
/-- CYUST_PORT_ERR: 64 bits, device domain. -/
def CYUST_PORT_ERR (p : Nat) : Nat := 0x42018 + p * 0x200
def CYUST_PORT_ERR_CORR_CW : Fld := ⟨0, 0, 16⟩
def CYUST_PORT_ERR_REPLAYS : Fld := ⟨0, 16, 16⟩
def CYUST_PORT_ERR_LOCK_LOSSES : Fld := ⟨0, 32, 16⟩
def CYUST_PORT_ERR_DOWNS : Fld := ⟨0, 48, 16⟩
/-- CYUST_LANE: 64 bits, device domain. -/
def CYUST_LANE (p : Nat) (l : Nat) : Nat := 0x42100 + p * 0x200 + l * 0x8
def CYUST_LANE_STATE : Fld := ⟨0, 0, 2⟩
def CYUST_LANE_EYE_H : Fld := ⟨0, 4, 8⟩
def CYUST_LANE_EYE_W : Fld := ⟨0, 12, 6⟩
def CYUST_LANE_SYM_ERR : Fld := ⟨0, 32, 32⟩


/-! ### Registers of spec/19_management_security.md -/

/-- MC_STATUS: 64 bits, cold domain. -/
def MC_STATUS : Nat := 0x100
def MC_STATUS_STATE : Fld := ⟨0, 0, 2⟩
def MC_STATUS_ID_KEY : Fld := ⟨0, 2, 1⟩
def MC_STATUS_CC_RUNNING : Fld := ⟨0, 3, 1⟩
def MC_STATUS_WD_RESETS : Fld := ⟨0, 16, 16⟩
def MC_STATUS_HB : Fld := ⟨0, 32, 32⟩
/-- MC_FW: 64 bits, cold domain. -/
def MC_FW : Nat := 0x108
def MC_FW_VERSION : Fld := ⟨0, 0, 32⟩
def MC_FW_SVN : Fld := ⟨0, 32, 8⟩
def MC_FW_FLOOR : Fld := ⟨0, 40, 8⟩
def MC_FW_COPY : Fld := ⟨0, 48, 1⟩
def MC_FW_OTHER_VALID : Fld := ⟨0, 49, 1⟩
/-- SEC_STATE: 32 bits, cold domain. -/
def SEC_STATE : Nat := 0x118
def SEC_STATE_ENFORCE : Fld := ⟨0, 0, 1⟩
def SEC_STATE_OWNER_KEY : Fld := ⟨0, 1, 1⟩
def SEC_STATE_DEBUG_UNLOCK : Fld := ⟨0, 2, 1⟩
def SEC_STATE_OWNER_CTR : Fld := ⟨0, 8, 6⟩
/-- MEAS_GEN: 64 bits, cold domain. -/
def MEAS_GEN : Nat := 0x120
def MEAS_GEN_GEN : Fld := ⟨0, 0, 64⟩
/-- CC_FW: 64 bits, cold domain. -/
def CC_FW : Nat := 0x110
def CC_FW_VERSION : Fld := ⟨0, 0, 32⟩
def CC_FW_SVN : Fld := ⟨0, 32, 8⟩
def CC_FW_FLOOR : Fld := ⟨0, 40, 8⟩
def CC_FW_COPY : Fld := ⟨0, 48, 1⟩
def CC_FW_OTHER_VALID : Fld := ⟨0, 49, 1⟩


/-! ### Registers of spec/20_power_thermal.md -/

/-- PWR_LIMIT: 64 bits, cold domain. -/
def PWR_LIMIT : Nat := 0x2000
def PWR_LIMIT_LIMIT : Fld := ⟨0, 0, 11⟩
def PWR_LIMIT_SB_LIMIT : Fld := ⟨0, 16, 11⟩
def PWR_LIMIT_WINDOW : Fld := ⟨0, 32, 7⟩
/-- PWR_CFG: 64 bits, cold domain. -/
def PWR_CFG : Nat := 0x2008
def PWR_CFG_VBASE : Fld := ⟨0, 0, 10⟩
def PWR_CFG_BOOST_EN : Fld := ⟨0, 10, 1⟩
def PWR_CFG_GATE_EN : Fld := ⟨0, 11, 1⟩
def PWR_CFG_TJ_LIMIT : Fld := ⟨0, 16, 7⟩
def PWR_CFG_MARGIN : Fld := ⟨0, 24, 8⟩
/-- PWR_STATUS: 64 bits, device domain. -/
def PWR_STATUS : Nat := 0x2010
def PWR_STATUS_VCORE : Fld := ⟨0, 0, 10⟩
def PWR_STATUS_LIMITER : Fld := ⟨0, 11, 3⟩
def PWR_STATUS_BOOST : Fld := ⟨0, 14, 1⟩
def PWR_STATUS_BREACH : Fld := ⟨0, 15, 1⟩
def PWR_STATUS_K : Fld := ⟨0, 16, 5⟩
def PWR_STATUS_POWER : Fld := ⟨0, 32, 11⟩
def PWR_STATUS_TJ_MAX : Fld := ⟨0, 44, 8⟩
def PWR_STATUS_TJ_SENSOR : Fld := ⟨0, 52, 8⟩
/-- PWR_EVENTS: 32 bits, device domain. -/
def PWR_EVENTS : Nat := 0x2018
def PWR_EVENTS_BREACH : Fld := ⟨0, 0, 1⟩
def PWR_EVENTS_POWER_HELD : Fld := ⟨0, 1, 1⟩
def PWR_EVENTS_THERM_HELD : Fld := ⟨0, 2, 1⟩
def PWR_EVENTS_GATED : Fld := ⟨0, 3, 1⟩
def PWR_EVENTS_BOOST_OUT : Fld := ⟨0, 4, 1⟩
def PWR_EVENTS_AVS_FAULT : Fld := ⟨0, 5, 1⟩
def PWR_EVENTS_CFG_INVALID : Fld := ⟨0, 6, 1⟩
def PWR_EVENTS_SENSOR_FAIL : Fld := ⟨0, 7, 1⟩
/-- PWR_BOOST: 64 bits, cold domain. -/
def PWR_BOOST : Nat := 0x2020
def PWR_BOOST_CREDIT : Fld := ⟨0, 0, 32⟩
def PWR_BOOST_CAP : Fld := ⟨0, 32, 16⟩
/-- PWR_LIFE: 64 bits, cold domain. -/
def PWR_LIFE : Nat := 0x2028
def PWR_LIFE_OPER_MIN : Fld := ⟨0, 0, 32⟩
def PWR_LIFE_BOOST_MIN : Fld := ⟨0, 32, 32⟩
/-- PWR_SHADE: 64 bits, device domain. -/
def PWR_SHADE : Nat := 0x2030
def PWR_SHADE_PLOT : Fld := ⟨0, 0, 64⟩
/-- TELEM_RING: 64 bits, device domain. -/
def TELEM_RING : Nat := 0x4000
def TELEM_RING_BASE : Fld := ⟨0, 12, 44⟩
def TELEM_RING_SIZE : Fld := ⟨0, 56, 4⟩
def TELEM_RING_EN : Fld := ⟨0, 63, 1⟩
/-- TELEM_SEQ: 64 bits, device domain. -/
def TELEM_SEQ : Nat := 0x4008
def TELEM_SEQ_SEQ : Fld := ⟨0, 0, 64⟩
/-- TELEM_CTR_IDX: 64 bits, device domain. -/
def TELEM_CTR_IDX : Nat := 0x4010
def TELEM_CTR_IDX_INDEX : Fld := ⟨0, 0, 12⟩
/-- PWR_SHADE_ST: 64 bits, device domain. -/
def PWR_SHADE_ST : Nat := 0x2038
def PWR_SHADE_ST_PLOT : Fld := ⟨0, 0, 64⟩
/-- TELEM_CTR_VAL: 64 bits, device domain. -/
def TELEM_CTR_VAL : Nat := 0x4018
def TELEM_CTR_VAL_VALUE : Fld := ⟨0, 0, 64⟩
/-- TELEM_LATEST: 34816 bits, device domain. -/
def TELEM_LATEST : Nat := 0x5000
def TELEM_LATEST_DATA : Fld := ⟨0, 0, 64⟩


/-! ### Registers of spec/21_availability.md -/

/-- SHADOW_GEN: 64 bits, device domain. -/
def SHADOW_GEN : Nat := 0x610000
def SHADOW_GEN_GEN : Fld := ⟨0, 0, 32⟩
def SHADOW_GEN_DIGEST_GEN : Fld := ⟨0, 32, 32⟩
/-- AVL_CFG: 64 bits, device domain. -/
def AVL_CFG : Nat := 0x630000
def AVL_CFG_CORE_H : Fld := ⟨0, 0, 16⟩
def AVL_CFG_HG_H : Fld := ⟨0, 16, 8⟩
def AVL_CFG_ROTATE_EN : Fld := ⟨0, 24, 1⟩
def AVL_CFG_ROTATE_H : Fld := ⟨0, 32, 16⟩
/-- AVL_REQ: 64 bits, device domain. -/
def AVL_REQ (i : Nat) : Nat := 0x630100 + i * 0x10
def AVL_REQ_KIND : Fld := ⟨0, 0, 4⟩
def AVL_REQ_FORCE : Fld := ⟨0, 4, 1⟩
def AVL_REQ_CANCEL : Fld := ⟨0, 5, 1⟩
def AVL_REQ_TARGET : Fld := ⟨0, 8, 24⟩
/-- AVL_RES: 64 bits, device domain. -/
def AVL_RES (i : Nat) : Nat := 0x630108 + i * 0x10
def AVL_RES_STATE : Fld := ⟨0, 0, 3⟩
def AVL_RES_FAULT : Fld := ⟨0, 3, 1⟩
def AVL_RES_CODE : Fld := ⟨0, 16, 16⟩
def AVL_RES_E0_FAIL : Fld := ⟨0, 32, 8⟩
def AVL_RES_E1_FAIL : Fld := ⟨0, 40, 8⟩
def AVL_RES_ROW_FAIL : Fld := ⟨0, 48, 1⟩
def AVL_RES_SEQ_FAIL : Fld := ⟨0, 49, 1⟩
/-- ERR_RING: 64 bits, device domain. -/
def ERR_RING : Nat := 0x640000
def ERR_RING_BASE : Fld := ⟨0, 12, 44⟩
def ERR_RING_SIZE : Fld := ⟨0, 56, 4⟩
def ERR_RING_EN : Fld := ⟨0, 63, 1⟩
/-- ERR_PTR: 64 bits, device domain. -/
def ERR_PTR : Nat := 0x640008
def ERR_PTR_HEAD : Fld := ⟨0, 0, 16⟩
def ERR_PTR_TAIL : Fld := ⟨0, 32, 16⟩
/-- ERR_DROP: 64 bits, device domain. -/
def ERR_DROP : Nat := 0x640010
def ERR_DROP_DROPPED : Fld := ⟨0, 0, 32⟩
/-- ERR_FATAL: 4096 bits, cold domain. -/
def ERR_FATAL : Nat := 0x641000
def ERR_FATAL_ENTRY : Fld := ⟨0, 0, 64⟩

/-- The registers of spec/01_organisation.md. -/
def regTable01 : List RegDef := [
  ⟨0x30, [], 1, 64, .device, [⟨0, 64, .rw, 0x0⟩]⟩,
  ⟨0x38, [], 1, 32, .device, [⟨0, 1, .wo, 0x0⟩, ⟨1, 1, .wo, 0x0⟩, ⟨2, 3, .ro, 0x0⟩, ⟨5, 1, .w1c, 0x0⟩, ⟨6, 1, .w1c, 0x0⟩]⟩,
  ⟨0x0, [], 1, 64, .cold, [⟨0, 16, .ro, 0x1FB3⟩, ⟨16, 16, .ro, 0xB200⟩, ⟨32, 8, .ro, 0xB0⟩, ⟨40, 8, .ro, 0x1⟩]⟩,
  ⟨0x8, [], 1, 64, .cold, [⟨0, 64, .ro, 0x0⟩]⟩,
  ⟨0x10, [], 1, 64, .cold, [⟨0, 16, .ro, 0x384⟩, ⟨16, 16, .ro, 0x3AC⟩, ⟨32, 16, .ro, 0x460⟩]⟩,
  ⟨0x18, [], 1, 64, .device, [⟨0, 16, .ro, 0x0⟩, ⟨16, 16, .ro, 0x0⟩, ⟨32, 16, .ro, 0x0⟩]⟩,
  ⟨0x20, [], 1, 32, .cold, [⟨0, 1, .ro, 0x0⟩, ⟨1, 1, .ro, 0x0⟩, ⟨2, 1, .ro, 0x0⟩, ⟨3, 1, .ro, 0x0⟩, ⟨4, 1, .ro, 0x0⟩, ⟨5, 1, .ro, 0x0⟩, ⟨6, 1, .ro, 0x0⟩, ⟨7, 1, .ro, 0x0⟩, ⟨8, 1, .ro, 0x0⟩]⟩]

/-- The registers of spec/02_pace.md. -/
def regTable02 : List RegDef := [
  ⟨0x1000, [], 1, 32, .device, [⟨0, 2, .rw, 0x0⟩, ⟨2, 2, .rw, 0x0⟩, ⟨4, 2, .rw, 0x0⟩, ⟨6, 1, .rw, 0x0⟩, ⟨7, 1, .rw, 0x0⟩, ⟨8, 1, .rw, 0x0⟩, ⟨9, 1, .rw, 0x0⟩, ⟨10, 6, .rw, 0xA⟩]⟩,
  ⟨0x1004, [], 1, 32, .device, [⟨0, 17, .rw, 0x3E8⟩]⟩,
  ⟨0x1008, [], 1, 32, .device, [⟨0, 17, .rw, 0x64⟩]⟩,
  ⟨0x100C, [], 1, 32, .device, [⟨0, 18, .rw, 0x30D40⟩]⟩,
  ⟨0x1010, [], 1, 32, .device, [⟨0, 10, .rw, 0x96⟩]⟩,
  ⟨0x1014, [], 1, 32, .device, [⟨0, 16, .rw, 0x0⟩]⟩,
  ⟨0x1018, [], 1, 32, .device, [⟨0, 2, .ro, 0x0⟩, ⟨2, 1, .ro, 0x0⟩, ⟨3, 1, .ro, 0x0⟩, ⟨4, 1, .ro, 0x0⟩, ⟨5, 1, .ro, 0x0⟩, ⟨8, 8, .ro, 0x0⟩, ⟨16, 4, .ro, 0xF⟩, ⟨20, 1, .w1c, 0x0⟩, ⟨21, 1, .w1c, 0x0⟩, ⟨22, 1, .w1c, 0x0⟩, ⟨23, 1, .w1c, 0x0⟩, ⟨24, 1, .w1c, 0x0⟩, ⟨25, 1, .w1c, 0x0⟩, ⟨26, 1, .w1c, 0x0⟩, ⟨27, 1, .w1c, 0x0⟩]⟩,
  ⟨0x101C, [], 1, 32, .device, [⟨0, 6, .ro, 0x0⟩, ⟨6, 3, .ro, 0x0⟩, ⟨9, 1, .ro, 0x0⟩]⟩,
  ⟨0x1020, [], 1, 64, .device, [⟨0, 64, .ro, 0x0⟩]⟩,
  ⟨0x1028, [], 1, 64, .device, [⟨0, 64, .ro, 0x0⟩]⟩,
  ⟨0x1030, [], 1, 64, .device, [⟨0, 64, .ro, 0x0⟩]⟩,
  ⟨0x1038, [], 1, 32, .device, [⟨0, 16, .ro, 0x0⟩, ⟨16, 11, .ro, 0x0⟩, ⟨27, 1, .ro, 0x0⟩]⟩,
  ⟨0x103C, [], 1, 32, .device, [⟨0, 16, .rc, 0x7FFF⟩, ⟨16, 16, .rc, 0x0⟩]⟩,
  ⟨0x1040, [], 1, 32, .device, [⟨0, 32, .ro, 0x0⟩]⟩,
  ⟨0x1048, [], 1, 64, .device, [⟨12, 44, .rw, 0x0⟩, ⟨56, 4, .rw, 0x0⟩, ⟨63, 1, .rw, 0x0⟩]⟩,
  ⟨0x1050, [], 1, 64, .device, [⟨0, 16, .ro, 0x0⟩, ⟨32, 16, .rw, 0x0⟩]⟩,
  ⟨0x1058, [], 1, 64, .device, [⟨0, 32, .rc, 0x0⟩, ⟨32, 32, .rc, 0x0⟩]⟩]

/-- The registers of spec/03_core_model.md. -/
def regTable03 : List RegDef := [
  ⟨0x1000000, [(0x1000, 25600)], 1, 64, .device, [⟨0, 15, .ro, 0x0⟩, ⟨15, 8, .ro, 0x0⟩, ⟨23, 7, .ro, 0x0⟩, ⟨30, 10, .ro, 0x0⟩, ⟨40, 6, .ro, 0x0⟩, ⟨46, 1, .ro, 0x0⟩, ⟨47, 4, .ro, 0x0⟩]⟩,
  ⟨0x1000008, [(0x1000, 25600)], 1, 32, .device, [⟨0, 8, .rwl, 0x0⟩, ⟨8, 8, .rwl, 0x0⟩, ⟨16, 1, .rwl, 0x0⟩, ⟨20, 4, .ro, 0x0⟩, ⟨24, 4, .ro, 0x0⟩]⟩,
  ⟨0x1000010, [(0x1000, 25600)], 1, 32, .plot, [⟨0, 4, .ro, 0x0⟩, ⟨4, 4, .ro, 0x0⟩, ⟨8, 4, .ro, 0x0⟩, ⟨12, 4, .ro, 0x0⟩, ⟨16, 4, .ro, 0x0⟩, ⟨20, 4, .ro, 0x0⟩, ⟨24, 4, .ro, 0x0⟩, ⟨28, 4, .ro, 0x0⟩]⟩,
  ⟨0x1000018, [(0x1000, 25600)], 1, 64, .plot, [⟨0, 16, .ro, 0x0⟩, ⟨16, 3, .ro, 0x0⟩, ⟨19, 1, .ro, 0x0⟩, ⟨20, 12, .ro, 0x0⟩, ⟨32, 5, .w1c, 0x0⟩]⟩,
  ⟨0x1000020, [(0x1000, 25600)], 1, 64, .plot, [⟨0, 64, .ro, 0x0⟩]⟩,
  ⟨0x1000028, [(0x1000, 25600)], 1, 64, .plot, [⟨0, 64, .ro, 0x0⟩]⟩,
  ⟨0x1000030, [(0x1000, 25600)], 1, 64, .plot, [⟨0, 64, .ro, 0x0⟩]⟩,
  ⟨0x1000100, [(0x1000, 25600), (0x80, 8)], 1, 32, .plot, [⟨0, 1, .w1s, 0x0⟩, ⟨1, 1, .wo, 0x0⟩, ⟨2, 1, .wo, 0x0⟩, ⟨3, 1, .rw, 0x0⟩, ⟨4, 1, .wo, 0x0⟩, ⟨5, 1, .ro, 0x0⟩]⟩,
  ⟨0x1000108, [(0x1000, 25600), (0x80, 8)], 1, 32, .plot, [⟨0, 3, .ro, 0x0⟩, ⟨3, 1, .ro, 0x0⟩, ⟨4, 4, .ro, 0x0⟩, ⟨8, 1, .ro, 0x0⟩, ⟨9, 3, .ro, 0x0⟩, ⟨12, 3, .ro, 0x0⟩, ⟨16, 11, .ro, 0x0⟩]⟩,
  ⟨0x1000110, [(0x1000, 25600), (0x80, 8)], 1, 64, .plot, [⟨0, 64, .ro, 0x0⟩]⟩,
  ⟨0x1000118, [(0x1000, 25600), (0x80, 8)], 1, 32, .plot, [⟨0, 4, .w1c, 0x0⟩, ⟨8, 4, .rw, 0x0⟩]⟩,
  ⟨0x1000120, [(0x1000, 25600), (0x80, 8)], 1, 32, .plot, [⟨0, 11, .rw, 0x0⟩, ⟨16, 11, .rw, 0x0⟩]⟩,
  ⟨0x1000128, [(0x1000, 25600), (0x80, 8)], 1, 64, .plot, [⟨0, 16, .ro, 0x0⟩, ⟨16, 2, .ro, 0x0⟩, ⟨18, 1, .ro, 0x0⟩, ⟨32, 11, .ro, 0x0⟩]⟩,
  ⟨0x1000130, [(0x1000, 25600), (0x80, 8)], 1, 64, .plot, [⟨0, 64, .ro, 0x0⟩]⟩,
  ⟨0x1000138, [(0x1000, 25600), (0x80, 8)], 1, 32, .plot, [⟨0, 16, .ro, 0x0⟩, ⟨16, 1, .ro, 0x0⟩]⟩,
  ⟨0x1000140, [(0x1000, 25600), (0x80, 8)], 1, 32, .device, [⟨0, 11, .rwl, 0x0⟩]⟩]

/-- The registers of spec/06_matrix_engines.md. -/
def regTable06 : List RegDef := [
  ⟨0x1000600, [(0x1000, 25600), (0x100, 2)], 1, 32, .plot, [⟨0, 3, .ro, 0x0⟩, ⟨3, 1, .ro, 0x0⟩, ⟨4, 3, .ro, 0x0⟩, ⟨7, 1, .ro, 0x0⟩, ⟨8, 4, .ro, 0x0⟩, ⟨16, 3, .ro, 0x0⟩]⟩,
  ⟨0x1000608, [(0x1000, 25600), (0x100, 2)], 1, 64, .plot, [⟨0, 64, .ro, 0x0⟩]⟩,
  ⟨0x1000610, [(0x1000, 25600), (0x100, 2)], 1, 64, .plot, [⟨0, 64, .ro, 0x0⟩]⟩,
  ⟨0x1000618, [(0x1000, 25600), (0x100, 2)], 1, 64, .plot, [⟨0, 64, .ro, 0x0⟩]⟩,
  ⟨0x1000620, [(0x1000, 25600), (0x100, 2)], 1, 64, .plot, [⟨0, 64, .ro, 0x0⟩]⟩]

/-- The registers of spec/07_matrix_numerics.md. -/
def regTable07 : List RegDef := [
  ⟨0x1000640, [(0x1000, 25600), (0x100, 2)], 1, 32, .plot, [⟨0, 1, .w1c, 0x0⟩, ⟨1, 1, .w1c, 0x0⟩, ⟨2, 1, .w1c, 0x0⟩, ⟨3, 1, .w1c, 0x0⟩, ⟨4, 1, .w1c, 0x0⟩]⟩,
  ⟨0x1000648, [(0x1000, 25600), (0x100, 2)], 1, 32, .plot, [⟨0, 5, .rw, 0x0⟩]⟩,
  ⟨0x1000650, [(0x1000, 25600), (0x100, 2)], 2, 64, .plot, [⟨0, 16, .ro, 0x0⟩, ⟨16, 16, .ro, 0x0⟩, ⟨32, 19, .ro, 0x0⟩, ⟨51, 1, .ro, 0x0⟩, ⟨52, 1, .w1c, 0x0⟩, ⟨53, 3, .ro, 0x0⟩, ⟨64, 32, .ro, 0x0⟩, ⟨96, 32, .ro, 0x0⟩]⟩]

/-- The registers of spec/08_vector_datapath.md. -/
def regTable08 : List RegDef := [
  ⟨0x1000800, [(0x1000, 25600)], 1, 32, .plot, [⟨0, 1, .w1c, 0x0⟩, ⟨1, 1, .w1c, 0x0⟩, ⟨2, 1, .w1c, 0x0⟩, ⟨3, 1, .w1c, 0x0⟩, ⟨4, 1, .w1c, 0x0⟩]⟩,
  ⟨0x1000808, [(0x1000, 25600)], 1, 32, .plot, [⟨0, 5, .rw, 0x0⟩]⟩,
  ⟨0x1000810, [(0x1000, 25600)], 1, 64, .plot, [⟨0, 11, .ro, 0x0⟩, ⟨11, 3, .ro, 0x0⟩, ⟨14, 5, .ro, 0x0⟩, ⟨19, 5, .ro, 0x0⟩, ⟨24, 1, .w1c, 0x0⟩]⟩,
  ⟨0x1000818, [(0x1000, 25600)], 1, 64, .plot, [⟨0, 64, .ro, 0x0⟩]⟩]

/-- The registers of spec/09_core_memory.md. -/
def regTable09 : List RegDef := [
  ⟨0x1000500, [(0x1000, 25600), (0x8, 16)], 1, 32, .plot, [⟨0, 4, .rw, 0x0⟩, ⟨4, 4, .ro, 0x0⟩, ⟨8, 1, .ro, 0x0⟩]⟩,
  ⟨0x1000580, [(0x1000, 25600)], 1, 64, .device, [⟨0, 32, .rc, 0x0⟩, ⟨32, 16, .rc, 0x0⟩]⟩,
  ⟨0x1000588, [(0x1000, 25600)], 1, 64, .device, [⟨0, 20, .ro, 0x0⟩, ⟨20, 1, .w1c, 0x0⟩]⟩,
  ⟨0x1000590, [(0x1000, 25600)], 1, 32, .device, [⟨0, 1, .rw, 0x1⟩, ⟨8, 8, .rw, 0x48⟩]⟩,
  ⟨0x1000598, [(0x1000, 25600)], 1, 64, .device, [⟨0, 12, .ro, 0x0⟩, ⟨12, 1, .ro, 0x0⟩, ⟨16, 16, .ro, 0x0⟩, ⟨32, 16, .ro, 0x0⟩]⟩,
  ⟨0x10005A0, [(0x1000, 25600)], 1, 32, .device, [⟨0, 1, .rw, 0x1⟩, ⟨8, 8, .rw, 0x18⟩]⟩,
  ⟨0x10005A8, [(0x1000, 25600)], 1, 64, .device, [⟨0, 14, .ro, 0x0⟩, ⟨16, 16, .ro, 0x0⟩]⟩,
  ⟨0x10005B0, [(0x1000, 25600)], 1, 64, .plot, [⟨0, 32, .rc, 0x0⟩, ⟨32, 32, .rc, 0x0⟩]⟩]

/-- The registers of spec/10_streams.md. -/
def regTable10 : List RegDef := [
  ⟨0x1000940, [(0x1000, 25600), (0x80, 4)], 1, 64, .plot, [⟨0, 3, .ro, 0x0⟩, ⟨3, 1, .w1c, 0x0⟩, ⟨4, 1, .ro, 0x0⟩, ⟨5, 1, .w1c, 0x0⟩, ⟨8, 3, .ro, 0x0⟩, ⟨16, 16, .ro, 0x0⟩, ⟨32, 7, .ro, 0x0⟩]⟩,
  ⟨0x1000948, [(0x1000, 25600), (0x80, 4)], 1, 64, .plot, [⟨0, 32, .ro, 0x0⟩, ⟨32, 17, .ro, 0x0⟩]⟩,
  ⟨0x1000950, [(0x1000, 25600), (0x80, 4)], 1, 64, .plot, [⟨0, 32, .ro, 0x0⟩]⟩,
  ⟨0x1000958, [(0x1000, 25600), (0x80, 4)], 1, 64, .plot, [⟨0, 16, .rc, 0x0⟩, ⟨16, 16, .rc, 0x0⟩]⟩,
  ⟨0x1000900, [(0x1000, 25600), (0x80, 4)], 8, 64, .plot, [⟨0, 64, .ro, 0x0⟩]⟩]

/-- The registers of spec/11_stream_network.md. -/
def regTable11 : List RegDef := [
  ⟨0x1000B00, [(0x1000, 25600), (0x8, 32)], 1, 64, .device, [⟨0, 12, .rwl, 0x0⟩, ⟨12, 1, .rwl, 0x0⟩, ⟨13, 3, .rwl, 0x0⟩, ⟨16, 6, .rwl, 0x0⟩, ⟨24, 8, .rwl, 0x0⟩]⟩,
  ⟨0x600000, [(0x400, 64)], 1, 64, .device, [⟨0, 8, .rwl, 0x0⟩, ⟨8, 7, .rwl, 0x0⟩, ⟨15, 8, .rwl, 0x0⟩, ⟨23, 8, .rwl, 0x0⟩, ⟨31, 1, .rwl, 0x0⟩, ⟨32, 1, .rwl, 0x0⟩, ⟨33, 4, .rwl, 0x0⟩, ⟨37, 1, .rwl, 0x0⟩, ⟨38, 12, .rwl, 0x0⟩]⟩,
  ⟨0x600008, [(0x400, 64)], 1, 64, .device, [⟨0, 3, .ro, 0x0⟩, ⟨3, 1, .ro, 0x0⟩, ⟨16, 16, .ro, 0x0⟩, ⟨32, 15, .ro, 0x0⟩, ⟨47, 3, .ro, 0x0⟩]⟩,
  ⟨0x600010, [(0x400, 64)], 1, 32, .device, [⟨0, 1, .wo, 0x0⟩, ⟨1, 1, .wo, 0x0⟩]⟩,
  ⟨0x600018, [(0x400, 64)], 1, 64, .device, [⟨0, 20, .rwl, 0x0⟩, ⟨20, 12, .rwl, 0x0⟩, ⟨32, 20, .ro, 0x0⟩, ⟨52, 12, .rc, 0x0⟩]⟩,
  ⟨0x600020, [(0x400, 64)], 1, 64, .device, [⟨12, 44, .rwl, 0x0⟩, ⟨63, 1, .rwl, 0x0⟩]⟩,
  ⟨0x600030, [(0x400, 64)], 4, 64, .plot, [⟨0, 15, .ro, 0x0⟩, ⟨15, 2, .ro, 0x0⟩, ⟨17, 12, .ro, 0x0⟩, ⟨29, 1, .ro, 0x0⟩, ⟨30, 1, .w1c, 0x0⟩, ⟨64, 15, .ro, 0x0⟩, ⟨79, 2, .ro, 0x0⟩, ⟨81, 8, .ro, 0x0⟩, ⟨128, 15, .ro, 0x0⟩, ⟨143, 2, .ro, 0x0⟩, ⟨145, 12, .ro, 0x0⟩, ⟨157, 1, .ro, 0x0⟩, ⟨192, 48, .ro, 0x0⟩]⟩,
  ⟨0x600050, [(0x400, 64)], 2, 64, .plot, [⟨0, 15, .ro, 0x0⟩, ⟨15, 2, .ro, 0x0⟩, ⟨17, 12, .ro, 0x0⟩, ⟨29, 1, .w1c, 0x0⟩, ⟨64, 32, .ro, 0x0⟩]⟩]

/-- The registers of spec/12_packet_network.md. -/
def regTable12 : List RegDef := [
  ⟨0x700000, [(0x100, 16)], 1, 64, .device, [⟨0, 11, .rw, 0x0⟩, ⟨11, 5, .rw, 0x0⟩, ⟨16, 1, .rw, 0x0⟩, ⟨17, 1, .rw, 0x0⟩, ⟨18, 1, .rw, 0x0⟩, ⟨19, 16, .rw, 0xFFFF⟩, ⟨35, 4, .rw, 0xF⟩, ⟨39, 1, .rw, 0x0⟩, ⟨40, 16, .rw, 0x0⟩]⟩,
  ⟨0x700008, [(0x100, 16)], 1, 64, .device, [⟨0, 16, .rw, 0x0⟩, ⟨16, 16, .rw, 0x0⟩, ⟨32, 16, .rw, 0x0⟩, ⟨48, 16, .rw, 0x0⟩]⟩,
  ⟨0x700010, [(0x100, 16)], 1, 64, .device, [⟨0, 56, .rw, 0x0⟩]⟩,
  ⟨0x700018, [(0x100, 16)], 1, 64, .device, [⟨0, 56, .rw, 0xFFFFFFFFFFFFFF⟩]⟩,
  ⟨0x700020, [(0x100, 16)], 1, 64, .device, [⟨0, 32, .rc, 0x0⟩, ⟨32, 32, .rc, 0x0⟩]⟩,
  ⟨0x700028, [(0x100, 16)], 1, 64, .device, [⟨12, 44, .rw, 0x0⟩, ⟨56, 4, .rw, 0x0⟩, ⟨63, 1, .rw, 0x0⟩]⟩,
  ⟨0x700030, [(0x100, 16)], 1, 64, .device, [⟨0, 16, .ro, 0x0⟩, ⟨32, 16, .rw, 0x0⟩]⟩,
  ⟨0x700038, [(0x100, 16)], 1, 64, .device, [⟨0, 32, .rc, 0x0⟩]⟩]

/-- The registers of spec/13_sync_and_messaging.md. -/
def regTable13 : List RegDef := [
  ⟨0x100000, [(0x10, 65536)], 1, 64, .device, [⟨0, 64, .rw, 0x0⟩]⟩,
  ⟨0x100008, [(0x10, 65536)], 1, 64, .device, [⟨0, 6, .rw, 0x0⟩, ⟨6, 1, .rw, 0x0⟩, ⟨7, 1, .rw, 0x0⟩, ⟨8, 1, .ro, 0x0⟩, ⟨16, 16, .ro, 0x0⟩]⟩,
  ⟨0xA000, [(0x8, 256)], 1, 64, .device, [⟨0, 16, .ro, 0x0⟩, ⟨16, 1, .ro, 0x0⟩, ⟨32, 1, .wo, 0x0⟩]⟩,
  ⟨0x10000, [(0x200, 64)], 1, 64, .device, [⟨0, 3, .ro, 0x0⟩, ⟨3, 5, .ro, 0x0⟩, ⟨8, 9, .ro, 0x0⟩, ⟨32, 16, .ro, 0x0⟩, ⟨48, 16, .ro, 0x0⟩]⟩,
  ⟨0x10008, [(0x200, 64)], 1, 64, .device, [⟨0, 16, .ro, 0x0⟩, ⟨16, 3, .ro, 0x0⟩, ⟨32, 3, .wo, 0x0⟩, ⟨35, 5, .wo, 0x0⟩, ⟨40, 9, .wo, 0x0⟩]⟩,
  ⟨0x10010, [(0x200, 64)], 1, 64, .device, [⟨0, 32, .w1c, 0x0⟩, ⟨32, 32, .rw, 0x0⟩]⟩,
  ⟨0x10018, [(0x200, 64)], 1, 64, .device, [⟨0, 4, .rw, 0x0⟩, ⟨4, 11, .rw, 0x0⟩, ⟨48, 16, .ro, 0x0⟩]⟩,
  ⟨0x200000, [(0x40, 65536)], 1, 64, .device, [⟨6, 50, .rw, 0x0⟩, ⟨56, 5, .rw, 0x0⟩]⟩,
  ⟨0x200008, [(0x40, 65536)], 1, 64, .device, [⟨0, 16, .rw, 0x0⟩, ⟨32, 16, .ro, 0x0⟩]⟩,
  ⟨0x200010, [(0x40, 65536)], 1, 64, .device, [⟨0, 2, .rw, 0x0⟩, ⟨2, 2, .rw, 0x0⟩, ⟨4, 6, .rw, 0x0⟩, ⟨10, 1, .rw, 0x0⟩, ⟨11, 1, .rw, 0x0⟩, ⟨12, 3, .rw, 0x0⟩, ⟨15, 1, .rw, 0x0⟩, ⟨16, 16, .rw, 0x0⟩]⟩,
  ⟨0x200018, [(0x40, 65536)], 1, 64, .device, [⟨0, 32, .rc, 0x0⟩, ⟨32, 32, .rc, 0x0⟩]⟩,
  ⟨0x10020, [(0x200, 64)], 60, 64, .device, [⟨0, 64, .ro, 0x0⟩]⟩]

/-- The registers of spec/14_lpddr.md. -/
def regTable14 : List RegDef := [
  ⟨0x80000, [], 1, 64, .device, [⟨0, 1, .ro, 0x0⟩, ⟨1, 1, .ro, 0x0⟩, ⟨2, 4, .ro, 0x0⟩, ⟨6, 4, .ro, 0x0⟩]⟩,
  ⟨0x80018, [], 1, 64, .device, [⟨0, 1, .rw, 0x1⟩, ⟨8, 8, .rw, 0x18⟩, ⟨16, 28, .ro, 0x0⟩, ⟨44, 16, .ro, 0x0⟩]⟩,
  ⟨0x80020, [], 1, 64, .device, [⟨0, 16, .rw, 0x3E8⟩, ⟨16, 16, .rw, 0x2710⟩, ⟨32, 8, .rw, 0x10⟩]⟩,
  ⟨0x81000, [(0x1000, 8)], 1, 64, .device, [⟨0, 16, .rc, 0x0⟩, ⟨16, 16, .rc, 0x0⟩, ⟨32, 16, .rc, 0x0⟩, ⟨48, 16, .rc, 0x0⟩]⟩,
  ⟨0x81008, [(0x1000, 8)], 1, 64, .device, [⟨0, 40, .ro, 0x0⟩, ⟨40, 3, .ro, 0x0⟩, ⟨43, 1, .w1c, 0x0⟩]⟩,
  ⟨0x81100, [(0x1000, 8), (0x8, 8)], 1, 64, .device, [⟨0, 2, .ro, 0x0⟩, ⟨2, 1, .wo, 0x0⟩, ⟨4, 28, .ro, 0x0⟩, ⟨32, 16, .rc, 0x0⟩, ⟨48, 16, .ro, 0x0⟩]⟩,
  ⟨0x80008, [], 1, 64, .port, [⟨30, 10, .rw, 0x0⟩]⟩,
  ⟨0x80010, [], 1, 64, .port, [⟨30, 10, .rw, 0x0⟩]⟩]

/-- The registers of spec/15_loam.md. -/
def regTable15 : List RegDef := [
  ⟨0x30000, [(0x400, 16)], 1, 64, .device, [⟨0, 2, .ro, 0x0⟩, ⟨2, 1, .ro, 0x0⟩, ⟨16, 16, .ro, 0x0⟩, ⟨32, 17, .ro, 0x0⟩]⟩,
  ⟨0x30008, [(0x400, 16)], 1, 64, .device, [⟨0, 16, .rc, 0x0⟩, ⟨16, 16, .rc, 0x0⟩, ⟨32, 16, .rc, 0x0⟩]⟩,
  ⟨0x30010, [(0x400, 16)], 1, 64, .device, [⟨0, 2, .ro, 0x0⟩, ⟨2, 2, .ro, 0x0⟩, ⟨4, 1, .ro, 0x0⟩, ⟨5, 1, .ro, 0x0⟩, ⟨6, 1, .ro, 0x0⟩, ⟨16, 5, .ro, 0x0⟩, ⟨21, 1, .w1c, 0x0⟩, ⟨24, 5, .ro, 0x0⟩, ⟨29, 1, .w1c, 0x0⟩]⟩,
  ⟨0x30018, [(0x400, 16)], 1, 64, .device, [⟨0, 32, .rc, 0x0⟩, ⟨32, 32, .rc, 0x0⟩]⟩,
  ⟨0x30020, [(0x400, 16)], 1, 32, .device, [⟨0, 16, .rw, 0x64⟩, ⟨16, 1, .rw, 0x1⟩]⟩,
  ⟨0x34000, [(0x100, 16)], 1, 64, .device, [⟨0, 1, .rwl, 0x0⟩, ⟨1, 4, .rwl, 0x0⟩, ⟨5, 2, .rwl, 0x0⟩, ⟨7, 2, .rwl, 0x0⟩, ⟨9, 11, .rwl, 0x140⟩, ⟨20, 2, .rwl, 0x0⟩, ⟨22, 1, .rwl, 0x0⟩, ⟨23, 1, .rwl, 0x0⟩, ⟨24, 4, .rwl, 0x0⟩]⟩,
  ⟨0x34008, [(0x100, 16)], 1, 64, .device, [⟨0, 64, .rwl, 0x0⟩]⟩,
  ⟨0x34010, [(0x100, 16)], 1, 64, .device, [⟨0, 2, .rw, 0x0⟩, ⟨2, 1, .rw, 0x0⟩, ⟨3, 1, .rw, 0x0⟩, ⟨4, 1, .rw, 0x0⟩, ⟨5, 1, .wo, 0x0⟩, ⟨8, 24, .rw, 0x0⟩]⟩,
  ⟨0x34018, [(0x100, 16)], 1, 64, .device, [⟨0, 1, .ro, 0x0⟩, ⟨1, 1, .ro, 0x0⟩, ⟨2, 1, .ro, 0x0⟩, ⟨3, 1, .w1c, 0x0⟩, ⟨4, 1, .w1c, 0x0⟩, ⟨5, 1, .w1c, 0x0⟩, ⟨6, 1, .ro, 0x0⟩]⟩,
  ⟨0x34020, [(0x100, 16)], 1, 64, .device, [⟨0, 32, .rc, 0x0⟩, ⟨32, 32, .rc, 0x0⟩]⟩]

/-- The registers of spec/16_loading.md. -/
def regTable16 : List RegDef := [
  ⟨0x20000, [], 1, 32, .device, [⟨0, 3, .wo, 0x0⟩, ⟨3, 6, .rw, 0x0⟩]⟩,
  ⟨0x20008, [], 1, 64, .device, [⟨0, 4, .ro, 0x0⟩, ⟨4, 2, .ro, 0x0⟩, ⟨6, 4, .ro, 0x0⟩, ⟨16, 16, .ro, 0x0⟩, ⟨32, 16, .ro, 0x0⟩]⟩,
  ⟨0x20010, [], 1, 64, .device, [⟨0, 32, .ro, 0x0⟩, ⟨32, 32, .ro, 0x0⟩]⟩,
  ⟨0x20018, [], 1, 32, .device, [⟨0, 12, .rw, 0xA⟩, ⟨12, 1, .ro, 0x0⟩, ⟨13, 1, .ro, 0x0⟩]⟩,
  ⟨0x20020, [], 1, 64, .device, [⟨12, 44, .rw, 0xEC00000⟩, ⟨56, 8, .rw, 0x10⟩]⟩,
  ⟨0x20028, [], 1, 32, .device, [⟨0, 13, .rw, 0x0⟩]⟩,
  ⟨0x20030, [], 1, 32, .device, [⟨0, 16, .rw, 0xA⟩, ⟨16, 8, .rw, 0x3C⟩]⟩,
  ⟨0x20038, [], 1, 64, .device, [⟨0, 64, .rw, 0x0⟩]⟩,
  ⟨0x20040, [], 1, 32, .device, [⟨0, 1, .ro, 0x0⟩, ⟨1, 1, .ro, 0x0⟩]⟩,
  ⟨0x20048, [], 1, 64, .device, [⟨0, 64, .ro, 0x0⟩]⟩,
  ⟨0x20050, [], 1, 64, .device, [⟨0, 4, .ro, 0x0⟩, ⟨16, 16, .ro, 0x0⟩, ⟨32, 6, .ro, 0x0⟩, ⟨38, 1, .ro, 0x0⟩]⟩,
  ⟨0x30200, [(0x400, 16)], 1, 64, .device, [⟨0, 64, .ro, 0x0⟩]⟩,
  ⟨0x30208, [(0x400, 16)], 1, 64, .device, [⟨0, 16, .ro, 0x0⟩, ⟨16, 16, .rc, 0x0⟩, ⟨32, 16, .ro, 0x0⟩]⟩]

/-- The registers of spec/17_host_interface.md. -/
def regTable17 : List RegDef := [
  ⟨0x8000, [], 1, 64, .device, [⟨0, 2, .ro, 0x0⟩, ⟨2, 2, .ro, 0x0⟩, ⟨4, 4, .ro, 0x0⟩, ⟨16, 16, .ro, 0x0⟩, ⟨32, 3, .wo, 0x0⟩]⟩,
  ⟨0x8008, [], 1, 32, .device, [⟨0, 16, .rw, 0x0⟩, ⟨16, 1, .wo, 0x0⟩]⟩,
  ⟨0x8100, [(0x100, 2)], 1, 64, .port, [⟨0, 1, .ro, 0x0⟩, ⟨1, 3, .ro, 0x0⟩, ⟨4, 5, .ro, 0x0⟩, ⟨9, 1, .ro, 0x0⟩, ⟨10, 1, .ro, 0x0⟩, ⟨11, 1, .ro, 0x0⟩, ⟨12, 1, .ro, 0x0⟩, ⟨13, 1, .ro, 0x0⟩, ⟨16, 16, .ro, 0x0⟩, ⟨32, 10, .ro, 0x0⟩]⟩,
  ⟨0x8108, [(0x100, 2)], 1, 32, .port, [⟨0, 11, .rw, 0x0⟩, ⟨11, 1, .rw, 0x0⟩, ⟨16, 11, .rw, 0x0⟩, ⟨27, 1, .rw, 0x0⟩]⟩,
  ⟨0x8110, [(0x100, 2)], 1, 64, .port, [⟨0, 16, .rc, 0x0⟩, ⟨16, 16, .rc, 0x0⟩, ⟨32, 16, .rc, 0x0⟩]⟩,
  ⟨0x8120, [(0x100, 2)], 1, 64, .port, [⟨3, 19, .rw, 0x0⟩, ⟨22, 1, .rw, 0x0⟩]⟩,
  ⟨0x8128, [(0x100, 2)], 1, 64, .port, [⟨0, 64, .rw, 0x0⟩]⟩]

/-- The registers of spec/18_cyust.md. -/
def regTable18 : List RegDef := [
  ⟨0x40000, [], 1, 64, .device, [⟨0, 6, .rw, 0x0⟩, ⟨6, 3, .rw, 0x0⟩, ⟨9, 2, .rw, 0x0⟩, ⟨11, 3, .rw, 0x0⟩, ⟨14, 2, .rw, 0x0⟩]⟩,
  ⟨0x40008, [], 1, 64, .device, [⟨0, 16, .rw, 0x3E8⟩, ⟨16, 8, .rw, 0x64⟩, ⟨24, 1, .rw, 0x0⟩, ⟨32, 8, .rw, 0xA⟩, ⟨40, 8, .rw, 0x3C⟩]⟩,
  ⟨0x40010, [], 1, 64, .device, [⟨0, 8, .ro, 0x0⟩, ⟨8, 8, .ro, 0x0⟩, ⟨16, 10, .ro, 0x0⟩]⟩,
  ⟨0x41000, [(0x8, 512)], 1, 64, .device, [⟨0, 3, .rw, 0x0⟩, ⟨4, 3, .rw, 0x0⟩, ⟨7, 1, .rw, 0x0⟩, ⟨8, 4, .rw, 0x0⟩, ⟨12, 4, .rw, 0x0⟩, ⟨16, 1, .ro, 0x0⟩, ⟨17, 1, .rw, 0x0⟩]⟩,
  ⟨0x44000, [(0x8, 1024)], 1, 64, .device, [⟨0, 12, .rwl, 0x0⟩, ⟨12, 1, .rwl, 0x0⟩, ⟨13, 1, .rwl, 0x0⟩, ⟨14, 8, .rwl, 0x0⟩, ⟨22, 6, .rwl, 0x0⟩, ⟨28, 3, .rwl, 0x0⟩, ⟨31, 12, .rwl, 0x0⟩]⟩,
  ⟨0x42000, [(0x200, 8)], 1, 32, .device, [⟨0, 1, .rw, 0x0⟩, ⟨1, 2, .rw, 0x0⟩, ⟨3, 6, .rw, 0x0⟩, ⟨9, 3, .rw, 0x0⟩, ⟨12, 1, .wo, 0x0⟩, ⟨13, 1, .rw, 0x0⟩]⟩,
  ⟨0x42008, [(0x200, 8)], 1, 64, .device, [⟨0, 3, .ro, 0x0⟩, ⟨3, 1, .ro, 0x0⟩, ⟨4, 1, .ro, 0x0⟩, ⟨5, 4, .ro, 0x0⟩, ⟨9, 1, .ro, 0x0⟩, ⟨16, 6, .ro, 0x0⟩, ⟨22, 3, .ro, 0x0⟩, ⟨25, 3, .ro, 0x0⟩, ⟨28, 1, .ro, 0x0⟩]⟩,
  ⟨0x42010, [(0x200, 8)], 1, 32, .device, [⟨0, 16, .ro, 0x0⟩]⟩,
  ⟨0x42018, [(0x200, 8)], 1, 64, .device, [⟨0, 16, .rc, 0x0⟩, ⟨16, 16, .rc, 0x0⟩, ⟨32, 16, .rc, 0x0⟩, ⟨48, 16, .rc, 0x0⟩]⟩,
  ⟨0x42100, [(0x200, 8), (0x8, 9)], 1, 64, .device, [⟨0, 2, .ro, 0x0⟩, ⟨4, 8, .ro, 0x0⟩, ⟨12, 6, .ro, 0x0⟩, ⟨32, 32, .rc, 0x0⟩]⟩]

/-- The registers of spec/19_management_security.md. -/
def regTable19 : List RegDef := [
  ⟨0x100, [], 1, 64, .cold, [⟨0, 2, .ro, 0x0⟩, ⟨2, 1, .ro, 0x0⟩, ⟨3, 1, .ro, 0x0⟩, ⟨16, 16, .ro, 0x0⟩, ⟨32, 32, .ro, 0x0⟩]⟩,
  ⟨0x108, [], 1, 64, .cold, [⟨0, 32, .ro, 0x0⟩, ⟨32, 8, .ro, 0x0⟩, ⟨40, 8, .ro, 0x0⟩, ⟨48, 1, .ro, 0x0⟩, ⟨49, 1, .ro, 0x0⟩]⟩,
  ⟨0x118, [], 1, 32, .cold, [⟨0, 1, .ro, 0x0⟩, ⟨1, 1, .ro, 0x0⟩, ⟨2, 1, .ro, 0x0⟩, ⟨8, 6, .ro, 0x0⟩]⟩,
  ⟨0x120, [], 1, 64, .cold, [⟨0, 64, .ro, 0x0⟩]⟩,
  ⟨0x110, [], 1, 64, .cold, [⟨0, 32, .ro, 0x0⟩, ⟨32, 8, .ro, 0x0⟩, ⟨40, 8, .ro, 0x0⟩, ⟨48, 1, .ro, 0x0⟩, ⟨49, 1, .ro, 0x0⟩]⟩]

/-- The registers of spec/20_power_thermal.md. -/
def regTable20 : List RegDef := [
  ⟨0x2000, [], 1, 64, .cold, [⟨0, 11, .rw, 0x640⟩, ⟨16, 11, .rw, 0x640⟩, ⟨32, 7, .rw, 0xA⟩]⟩,
  ⟨0x2008, [], 1, 64, .cold, [⟨0, 10, .rw, 0x2EE⟩, ⟨10, 1, .rw, 0x0⟩, ⟨11, 1, .rw, 0x1⟩, ⟨16, 7, .rw, 0x69⟩, ⟨24, 8, .rw, 0xA⟩]⟩,
  ⟨0x2010, [], 1, 64, .device, [⟨0, 10, .ro, 0x320⟩, ⟨11, 3, .ro, 0x0⟩, ⟨14, 1, .ro, 0x0⟩, ⟨15, 1, .ro, 0x0⟩, ⟨16, 5, .ro, 0x0⟩, ⟨32, 11, .ro, 0x0⟩, ⟨44, 8, .ro, 0x0⟩, ⟨52, 8, .ro, 0x0⟩]⟩,
  ⟨0x2018, [], 1, 32, .device, [⟨0, 1, .w1c, 0x0⟩, ⟨1, 1, .w1c, 0x0⟩, ⟨2, 1, .w1c, 0x0⟩, ⟨3, 1, .w1c, 0x0⟩, ⟨4, 1, .w1c, 0x0⟩, ⟨5, 1, .w1c, 0x0⟩, ⟨6, 1, .w1c, 0x0⟩, ⟨7, 1, .w1c, 0x0⟩]⟩,
  ⟨0x2020, [], 1, 64, .cold, [⟨0, 32, .ro, 0x0⟩, ⟨32, 16, .rw, 0xE10⟩]⟩,
  ⟨0x2028, [], 1, 64, .cold, [⟨0, 32, .ro, 0x0⟩, ⟨32, 32, .ro, 0x0⟩]⟩,
  ⟨0x2030, [], 1, 64, .device, [⟨0, 64, .rw, 0x0⟩]⟩,
  ⟨0x4000, [], 1, 64, .device, [⟨12, 44, .rw, 0x0⟩, ⟨56, 4, .rw, 0x0⟩, ⟨63, 1, .rw, 0x0⟩]⟩,
  ⟨0x4008, [], 1, 64, .device, [⟨0, 64, .ro, 0x0⟩]⟩,
  ⟨0x4010, [], 1, 64, .device, [⟨0, 12, .rw, 0x0⟩]⟩,
  ⟨0x2038, [], 1, 64, .device, [⟨0, 64, .ro, 0x0⟩]⟩,
  ⟨0x4018, [], 1, 64, .device, [⟨0, 64, .ro, 0x0⟩]⟩,
  ⟨0x5000, [], 544, 64, .device, [⟨0, 64, .ro, 0x0⟩]⟩]

/-- The registers of spec/21_availability.md. -/
def regTable21 : List RegDef := [
  ⟨0x610000, [], 1, 64, .device, [⟨0, 32, .ro, 0x0⟩, ⟨32, 32, .ro, 0x0⟩]⟩,
  ⟨0x630000, [], 1, 64, .device, [⟨0, 16, .rw, 0xA8⟩, ⟨16, 8, .rw, 0x18⟩, ⟨24, 1, .rw, 0x1⟩, ⟨32, 16, .rw, 0x2D0⟩]⟩,
  ⟨0x630100, [(0x10, 16)], 1, 64, .device, [⟨0, 4, .wo, 0x0⟩, ⟨4, 1, .wo, 0x0⟩, ⟨5, 1, .wo, 0x0⟩, ⟨8, 24, .wo, 0x0⟩]⟩,
  ⟨0x630108, [(0x10, 16)], 1, 64, .device, [⟨0, 3, .ro, 0x0⟩, ⟨3, 1, .ro, 0x0⟩, ⟨16, 16, .ro, 0x0⟩, ⟨32, 8, .ro, 0x0⟩, ⟨40, 8, .ro, 0x0⟩, ⟨48, 1, .ro, 0x0⟩, ⟨49, 1, .ro, 0x0⟩]⟩,
  ⟨0x640000, [], 1, 64, .device, [⟨12, 44, .rw, 0x0⟩, ⟨56, 4, .rw, 0x0⟩, ⟨63, 1, .rw, 0x0⟩]⟩,
  ⟨0x640008, [], 1, 64, .device, [⟨0, 16, .ro, 0x0⟩, ⟨32, 16, .rw, 0x0⟩]⟩,
  ⟨0x640010, [], 1, 64, .device, [⟨0, 32, .rc, 0x0⟩]⟩,
  ⟨0x641000, [], 64, 64, .cold, [⟨0, 64, .ro, 0x0⟩]⟩]

/-- Every CSR register with a field of its own. -/
def regTable : List RegDef :=
  regTable01 ++ regTable02 ++ regTable03 ++ regTable06 ++ regTable07 ++ regTable08 ++ regTable09 ++ regTable10 ++ regTable11 ++ regTable12 ++ regTable13 ++ regTable14 ++ regTable15 ++ regTable16 ++ regTable17 ++ regTable18 ++ regTable19 ++ regTable20 ++ regTable21

end Sys2Proof.Machine
end

