-- ==== Sys2Proof/Machine/PartsAvl.lean ====
section
/-!
DEFINITION. What the availability hardware knows of the physical cores (chapter 21): the tables of the Shadow map (R568)
and the background work in progress.
-/
namespace Sys2Proof.Machine
open Sys2Proof

/-- A physical core entry of the Shadow map: presented, shaded spare or retired. -/
inductive PCoreSt where
  | presented | shaded | retired
  deriving DecidableEq, Repr

/-- A repaired-row entry of the Shadow map. -/
structure RowRepair where
  core  : Nat
  silt  : Bool
  unit  : Nat
  row   : Nat
  spare : Nat
  deriving DecidableEq, Repr

/-- A core test in progress on a physical core (R559): the next step 1–3, the request slot that asked for it, the findings
of steps done. -/
structure CoreTest where
  core : Nat
  step : Nat
  req  : Option Nat
  deriving DecidableEq, Repr

structure AvlSt where
  /-- Group entries: designated shaded core (25 unless listed); the physical indices of retired cores that the spare cannot cover,
  oldest first, whose logical positions are absent (R24); spare moves. -/
  spare     : NMap Nat
  absent    : NMap (List Nat)
  moves     : NMap Nat
  /-- Physical cores that are retired, by prow × 128 + column. -/
  retired   : NMap Bool
  /-- Bypassed columns: physical core × 2 + engine ↦ 1 + the first failed column, + 16 once a second failed. -/
  bypass    : NMap Nat
  /-- Failing rows that wait for repair: (physical core, Silt?, unit, row), and the repairs made. -/
  rowsBad   : List (Nat × Bool × Nat × Nat)
  repairs   : List RowRepair
  /-- Failed Hourglass and thermal sensors, Hourglass sensor next due, and those asked for by HG_CAL. -/
  hgFailed  : NMap Bool
  thFailed  : NMap Bool
  hgNext    : Nat
  hgAsked   : List Nat
  /-- The sensor under recalibration and the time since power-up at which that ends (R48, R558). -/
  hgHold    : Option (Nat × Nat)
  /-- Pace time at which a recalibration last fell due, and a test of each core. -/
  hgAt      : Nat
  testAt    : NMap Nat
  /-- Core tests running. -/
  tests     : List CoreTest
  /-- Groups whose spare is due to rotate (R565), and the time at which each group's spare came into place. -/
  rotateDue : List Nat
  placedAt  : NMap Nat
  /-- Test requests: kind and target by slot. -/
  reqKind   : NMap Nat
  reqTarget : NMap Nat
  reqAt     : NMap Nat
  /-- Requests with FORCE whose epoch has not started (R570). -/
  reqForce  : NMap Bool
  /-- Cores whose Sieve or scrub turn is due, the region Sieve holds with its saved bytes. -/
  sieveDue  : NMap Bool
  scrubDue  : NMap Bool
  sieveHold : NMap Nat
  /-- Pace time at which each last fell due (R264). -/
  sieveAt   : NMap Nat
  scrubAt   : NMap Nat
  /-- Next Sieve region and next scrub row, by physical core. -/
  sieveNext : NMap Nat
  scrubNext : NMap Nat
  /-- The epoch (R31): plots that take part, Glints counted at START, plots that raised 0x0C03, plots whose epoch fence is up, an
  END that waits. -/
  epochIn    : List Nat
  epochFrom  : Nat
  epochLate  : List Nat
  epochFence : List Nat
  epochEnd   : Bool
  deriving DecidableEq, Repr

end Sys2Proof.Machine
end

