-- ==== Sys2Proof/Machine/PartsCore.lean ====
section
/-!
DEFINITION. The state of cores and control processors (chapters 2–4, 8): contexts, accesses in flight, vector results in
flight, and what the PACE block remembers.
-/
namespace Sys2Proof.Machine
open Sys2Proof

/-- The context states of R92. -/
inductive CtxSt where
  | unloaded | ready | waiting | halted | faulted
  deriving DecidableEq, Repr

/-- What a context holds for after a blocking instruction (R94): a Glint number (none: the next Glint, R52), the
answer of the SYNC.WAIT with this request tag, or an enabled event. -/
inductive Hold where
  | none
  | nextGlint
  | glint (slot : Nat)
  | sync (tag : Nat)
  | event
  deriving DecidableEq, Repr

/-- An active repeat level (R103): number 0–3, first and last bundle index of the body. -/
structure Lvl where
  num   : Nat
  start : Nat
  stop  : Nat
  deriving DecidableEq, Repr

/-- A context of a core or control processor: the register sets of R98 (a register not listed reads 0; s0 and p0 are hard
wired and never listed) and what its CSRs show. -/
structure Ctx where
  st       : CtxSt
  paced    : Bool
  /-- `CTX_STATE.REASON`: the wait reason of R94, 0 when not waiting. -/
  reason   : Nat
  /-- `CTX_STATE.HALT_CAUSE`. -/
  cause    : Nat
  pc       : Nat
  /-- Active repeat levels, innermost first. -/
  levels   : List Lvl
  /-- lc0–lc3 by level number. -/
  lc       : NMap Nat
  /-- A REPI is running, and the iterations not yet issued (`CTX_REPI`). -/
  repiOn   : Bool
  repiLeft : Nat
  sreg     : NMap W64
  preg     : NMap W64
  vreg     : NMap W512
  dreg     : NMap W512
  /-- `CTX_SLOT`. -/
  slot     : Nat
  /-- `CTX_EVT.PEND` and `.EN`. -/
  pend     : BitVec 4
  en       : BitVec 4
  /-- `CTX_TRAP.VEC` and `.EPC`. -/
  vec      : Nat
  epc      : Nat
  eie      : Bool
  haltReq  : Bool
  /-- `CTX_FAULT` and `CTX_FAULT_INFO`. -/
  fCode    : Nat
  fSlot    : Nat
  fDef     : Bool
  fPc      : Nat
  fInfo    : W64
  hold     : Hold
  /-- A STEP is to issue one bundle (R111). -/
  stepping : Bool
  /-- The device time at which the present operand wait began (R108). -/
  waitFrom : Nat
  deriving DecidableEq, Repr

/-- A context of which nothing has been loaded: UNLOADED, every register and field at the reset value of its table. -/
def Ctx.unloaded : Ctx :=
  { st := .unloaded, paced := false, reason := 0, cause := 0, pc := 0, levels := [], lc := [], repiOn := false,
    repiLeft := 0, sreg := [], preg := [], vreg := [], dreg := [], slot := 0, pend := 0, en := 0, vec := 0, epc := 0,
    eie := false, haltReq := false, fCode := 0, fSlot := 0, fDef := false, fPc := 0, fInfo := 0, hold := .none,
    stepping := false, waitFrom := 0 }

/-- An architectural register of a context, as source or destination (R84, R94). -/
inductive Reg where
  | s (n : Nat)
  | p (n : Nat)
  | v (n : Nat)
  | d (n : Nat)
  deriving DecidableEq, Repr

/-- The kinds of access a context sends (R140): a load with its width and sign extension, a store with its
bytes and the offsets of those that carry a poison mark, and
the load-like operations on synchronisation objects, locks, mailboxes and queues. -/
inductive ReqOp where
  | load (addr n : Nat) (signed : Bool)
  | store (addr : Nat) (data : List Byte) (bad : List Nat)
  | syncAdd (ref : Nat) (v : W64)
  | syncSet (ref : Nat) (v : W64)
  | syncWait (ref : Nat) (v : W64)
  | syncTest (ref : Nat) (v : W64)
  | lockAcq (i : Nat)
  | lockRel (i : Nat)
  | mbxSend (j bit len : Nat)
  | mbxWdraw (j : Nat)
  | qSubmit (q : Nat) (entry : W512)
  | qTake (q : Nat)
  deriving DecidableEq, Repr

/-- The answer that has come back for an access, or for a 64 B part of it: data bytes with the device addresses of the
poisoned words among them, a status word, or an error code with no data; `got` and `t` are the predicates that Q.TAKE and
SYNC.TEST write. -/
inductive Answer where
  | bytes (data : List Byte) (bad : List Nat)
  | status (v : W64)
  | failed (code : Nat)
  | taken (got : Bool) (entry : W512)
  | test (t : Bool)
  deriving DecidableEq, Repr

/-- A part of an access that one server answers: LPDDR5X accesses split at 64 B chunk boundaries (R382). -/
structure Part where
  addr : Nat
  n    : Nat
  ans  : Option Answer
  deriving DecidableEq, Repr

/-- An access in flight: its number (rising in issue order), the context and bundle index that sent it, the slot it stood
in, its operation, the register it writes, its parts. `tracked`: it takes a tracking entry of R95. With `chan`, the sender is
stream channel `c` of the unit, and `pos` and `stamp` are the stream position and deadline stamp of R282. An `orphan` still completes, but its answer is discarded (R291, R325). -/
structure Req where
  tag     : Nat
  u       : Nat
  c       : Nat
  pc      : Nat
  op      : ReqOp
  dst     : Option Reg
  pdst    : Nat
  tracked : Bool
  parts   : List Part
  chan    : Bool
  pos     : Nat
  /-- Stream bytes that the access carries (R287). -/
  cnt     : Nat
  stamp   : Nat
  orphan  : Bool
  deriving DecidableEq, Repr

/-- A register result that has not been written yet (R226): a vector result of more than one beat, or (`soon`) a result that only
waits for older ones of its register. It writes the bits of `mask`; the flags stand in `VEC_FLAGS` order, and `lane` is the lowest
lane that set one. -/
structure VecPend where
  tag   : Nat
  u     : Nat
  c     : Nat
  pc    : Nat
  /-- Its number in the unit's issue order of V-slot instructions (`VEC_ISSUED` when it issued). -/
  num   : Nat
  dst   : Reg
  val   : W512
  mask  : W512
  flags : Nat
  lane  : Nat
  soon  : Bool
  deriving DecidableEq, Repr

/-- A matrix command in an engine's queue (R188): its descriptor, issuing context, bundle index, number in the engine's
order (`ENG_ISSUED` after acceptance); once its feed has started: the shape, dataflow and columns in use, and whether its F
term is hidden (R189). -/
structure ECmd where
  desc    : W512
  c       : Nat
  pc      : Nat
  num     : Nat
  started : Bool
  shape   : Nat
  flow    : Nat
  cols    : Nat
  hidF    : Bool
  deriving DecidableEq, Repr

/-- The cores and control processors. -/
structure CoreSt where
  /-- Contexts by unit × 8 + context. -/
  ctxs     : NMap Ctx
  /-- The context that issued most recently, by unit (R96; 7 after a plot reset). -/
  last     : NMap Nat
  /-- Program stores by unit × 2,048 + bundle index. -/
  pstore   : NMap W128
  /-- Bundles whose stored word holds an uncorrectable error (R88), by the same key. -/
  pstoreBad : NMap Bool
  /-- Accesses in flight, oldest first, and the number of the next. -/
  reqs     : List Req
  nextTag  : Nat
  /-- Command queues of the engines by unit × 2 + e, oldest first, running commands included. -/
  engines  : NMap (List ECmd)
  /-- Vector results in flight. -/
  vecs     : List VecPend
  /-- By unit: the issue number of the instruction recorded in `VEC_FIRST`. -/
  vecFirst : NMap Nat
  /-- Glints that reached units with a context behind: (unit, slot number, `CORE_BEATS` at its arrival) (R75). -/
  glints   : List (Nat × Nat × Nat)
  /-- `CORE_BEATS` plus 1 of each core with contexts when the last Glint reached it (R55). -/
  reached  : NMap Nat
  deriving DecidableEq, Repr

/-- Where a scheduled Glint comes from: the internal period, a PACE_IN edge, free-run, a marker. -/
inductive GlintKind where
  | internal | edge | freeRun | marker
  deriving DecidableEq, Repr

/-- A scheduled Glint: fire time in pace time, slot number, source. -/
structure Sched where
  fire : Nat
  num  : Nat
  kind : GlintKind
  deriving DecidableEq, Repr

/-- What the PACE block holds beside its registers (chapter 2). -/
structure PaceSt where
  /-- Scheduled Glints, earliest first; `PACE_NEXT` shows the first. -/
  sched      : List Sched
  /-- Pace time less time since power-up, in 100 ps (R64). -/
  timeOff    : Int
  lastFire   : Option Nat
  /-- The PACE_IN pin: its level and the pace time of its last change (R59); the last accepted edge; glitches counted. -/
  inHigh     : Bool
  inChange   : Nat
  lastEdge   : Option Nat
  glitches   : Nat
  /-- Pace time of the write that set ENABLE (R61). -/
  enabledAt  : Nat
  /-- Hourglass readings by sensor (R47, R48). -/
  hg         : NMap Nat
  /-- Time since power-up at which the last Glint reached the cores (R55). -/
  reachAt    : Option Nat
  /-- A Glint has been issued since the device reset (R51), and the pace time has locked once (R65). -/
  issued     : Bool
  everLocked : Bool
  /-- Overruns already written to the ring (core, slot) and to the error log (slot) (R76, R78). -/
  ovrRing    : List (Nat × Nat)
  ovrLogged  : List Nat
  /-- A full ring has been reported and TAIL not advanced since (R77). -/
  ringFull   : Bool
  /-- Markers seen, as (term, SLOT field), and the highest term among them (R63, R72). -/
  markers    : List (Nat × Nat)
  termSeen   : Nat
  /-- Number and period of the last marker followed (R71); the period a takeover continues at, in 10 ns (0: none). -/
  lastSlot   : Nat
  lastPeriod : Nat
  takePeriod : Nat
  /-- A backup: when the master was last heard, and since when every path to it is down (R70). -/
  heardAt    : Nat
  pathsDown  : Option Nat
  /-- When the outstanding pace-state request was last sent, and the answered slot number (R66). -/
  asked      : Option Nat
  answered   : Option Nat
  /-- PACE_OUT: pace time at which the present pulse ends (R62). -/
  outUntil   : Nat
  /-- Highest build rate that the committed plots declare (R46). -/
  buildRate  : Nat
  deriving DecidableEq, Repr

end Sys2Proof.Machine
end

