-- ==== Sys2Proof/Machine/PartsHost.lean ====
section
/-!
DEFINITION. What the host ports hold beside their registers (chapter 17).
-/
namespace Sys2Proof.Machine
open Sys2Proof

/-- A translation in a port's address-translation cache (R472): port, first 4 KiB page, pages, permissions. -/
structure Xlat where
  port  : Nat
  page  : Nat
  pages : Nat
  rd    : Bool
  wr    : Bool
  deriving DecidableEq, Repr

/-- A translation or page that has been asked for (R295, R473): port, page, whether for a write, the page request sent. -/
structure XlatReq where
  port   : Nat
  page   : Nat
  write  : Bool
  /-- A Page Request Message has been sent for it (R295). -/
  asked  : Bool
  /-- A Page Request for it waits until the host's allocation has room (R296). -/
  want   : Bool
  /-- Failures of this page in a row (R296). -/
  fails  : Nat
  deriving DecidableEq, Repr

structure HostSt where
  /-- MSI-X table by port × 2,048 + vector: address, data, vectors not masked; function masks by port; the PBA. -/
  msixAddr : NMap Nat
  msixData : NMap Nat
  unmasked : NMap Bool
  funcMask : NMap Bool
  pba      : NMap Bool
  /-- Doorbells for the owning host that wait for an owner, by vector (R474). -/
  ownerPend : NMap Bool
  /-- Ports held in reset (R468), by port. -/
  inReset  : NMap Bool
  atc      : List Xlat
  xreqs    : List XlatReq
  /-- The port has stopped sending Page Requests (R296). -/
  prqStop  : NMap Bool
  /-- Requests already sent to a host and not answered: (tag, part) (R471). -/
  sent     : List (Nat × Nat)
  /-- Invalidate Requests not answered yet: port, first page, pages (R472). -/
  invals   : List (Nat × Nat × Nat)
  /-- Pace time of the owner's last BEAT (R477). -/
  beatAt   : Nat
  /-- BAR4 sizes by port, as log2 of bytes (30 after a port reset, R464). -/
  bar4     : NMap Nat
  /-- Configuration space by port (R463): in D3hot; ASPM L1 enabled; Max_Payload_Size and Max_Read_Request_Size in bytes; the
  allocation of Page Requests. By 2 × port, and 2 × port + 1 for the uncorrectable one: AER internal-error status and mask. -/
  d3       : NMap Bool
  aspm     : NMap Bool
  payload  : NMap Nat
  readSize : NMap Nat
  prqAlloc : NMap Nat
  aerSet   : NMap Bool
  aerMask  : NMap Bool
  deriving DecidableEq, Repr

end Sys2Proof.Machine
end

