-- ==== Sys2Proof/Machine/PartsLink.lean ====
section
/-!
DEFINITION. What the Cyust ports hold beside their registers (chapter 18), and the blocks they exchange.
-/
namespace Sys2Proof.Machine
open Sys2Proof

/-- What a packet that a port sends carries: part `part` of this module's request `tag`; an answer to another module's request; the
flits of a packet of another module; the VC3 packets of R66, from and to the master; that of R491: the port that went down, its
neighbour. -/
inductive PktOut where
  | request (tag part : Nat)
  | answer (tag : Nat) (data : List Byte) (bad : List Nat) (status : Nat)
  | transit (flits : List (BitVec 256))
  | paceRequest
  | paceAnswer (slot term : Nat)
  | downNotice (port nbrModule nbrGroup nbrPort : Nat)
  deriving DecidableEq, Repr

/-- What a port sends (R486). -/
inductive LinkBlock where
  | marker (m : Marker)
  | keepAlive (m : Marker)
  /-- A packet: destination as group × 64 + module, VC, dateline class, flits, DETOUR. -/
  | pkt (dst vc cls n : Nat) (detour : Bool) (c : PktOut)
  /-- Packet credit: VC, dateline class, flits. -/
  | pktCredit (vc cls n : Nat)
  /-- A stream token to module × 8 + group under an identity there, with the offsets of poisoned bytes; `spill` is the SPILL bit of
  its sender (R316, R503). -/
  | token (dst rlink stamp : Nat) (data : List Byte) (bad : List Nat) (last spill : Bool)
  /-- Stream credit for an identity of module × 8 + group. -/
  | credit (dst rlink bytes : Nat)
  | replay (codeword : Nat)
  /-- Lane `l` moves to lane 8 or back at a codeword (R494). -/
  | lane (l : Nat) (toSpare : Bool) (codeword : Nat)
  | idleEntry
  | farLoop
  /-- The counting test blocks of a loopback begin (R495). -/
  | test
  deriving DecidableEq, Repr

/-- A block that a port has sent, with the number of the codeword in which it began (R493). -/
structure SentBlock where
  port  : Nat
  cw    : Nat
  block : LinkBlock
  deriving DecidableEq, Repr

/-- A packet that waits for its Cyust port: the port whose buffer it holds (8: this module's own), destination, VC, the dateline class
in which it came, flits, stamp, DETOUR, what it carries (R498, R504). -/
structure OutPkt where
  from_  : Nat
  dst    : Nat
  vc     : Nat
  cls    : Nat
  n      : Nat
  stamp  : Nat
  detour : Bool
  c      : PktOut
  deriving DecidableEq, Repr

/-- A stream token in a port's replay buffer: port, gateway row and identity here, bytes, when it was sent (R493, R505). -/
structure Replay where
  port    : Nat
  row     : Nat
  link    : Nat
  bytes   : Nat
  time    : Nat
  deriving DecidableEq, Repr

/-- A request sent to another module and not answered (R501). -/
structure RemoteOut where
  tag  : Nat
  part : Nat
  port : Nat
  time : Nat
  deriving DecidableEq, Repr

/-- A request of another module for local LPDDR5X: module × 8 + group, its tag, offset, bytes, stamp, and for a write its data with
the offsets of poisoned bytes. -/
structure RemoteIn where
  mod   : Nat
  rtag  : Nat
  off   : Nat
  n     : Nat
  stamp : Nat
  write : Option (List Byte × List Nat)
  deriving DecidableEq, Repr

structure LinkSt where
  /-- Block lock, by port, and the pace time (plus 1) at which a port lost it (R491). -/
  lock     : NMap Bool
  lostAt   : NMap Nat
  /-- Failed trainings in a row; ports trained since the device reset (R492). -/
  fails    : NMap Nat
  trained  : NMap Bool
  /-- Presets in flash: the time (plus 1) at which they were written (R492). -/
  presets  : NMap Nat
  /-- A port that echoes its neighbour's test blocks (R495). -/
  echo     : NMap Bool
  /-- Pace time of a port's last packet or stream block (R495). -/
  quietAt  : NMap Nat
  /-- The lane (plus 1) that a calibration has swapped onto lane 8 (R494). -/
  swap     : NMap Nat
  /-- Port-down notices received: (group × 64 + module) × 8 + port of the lost end (R501). -/
  notices  : NMap Bool
  sent     : List RemoteOut
  replay   : List Replay
  /-- Flits that the neighbour holds buffer for and has not credited, by port × 8 + VC × 2 + dateline class (R498). -/
  flits    : NMap Nat
  /-- Stream credit that has been sent to the module of an inbound stream, by row × 4,096 + LINK_ID (R504, R312). -/
  gwTold   : NMap Nat
  /-- An ID block has come in the present training; lanes failed since the device reset (R494, R496). -/
  idSeen   : NMap Bool
  failed   : NMap Nat
  /-- The lane (plus 1) that a rotation takes next (R494). -/
  rotate   : NMap Nat
  /-- Requests of other modules that have come and are not served, oldest first (R498). -/
  inbox    : List RemoteIn
  /-- Time at which a port came up: codewords are numbered from there; blocks in the replay buffers, oldest first (R493). -/
  upAt     : NMap Nat
  buffer   : List SentBlock
  /-- Blocks that wait while their port wakes from electrical idle (R346, R495). -/
  idleQ    : List (Nat × LinkBlock)
  /-- Packets that wait for credit or for a port (R498). -/
  outq     : List OutPkt
  /-- Pace times from which a port may try training again, and at which its last rotation began (R490, R494). -/
  tryAt    : NMap Nat
  calAt    : NMap Nat
  deriving DecidableEq, Repr

end Sys2Proof.Machine
end

