-- ==== Sys2Proof/Machine/PartsLoad.lean ====
section
/-!
DEFINITION. What the loader holds beside its registers (chapter 16).
-/
namespace Sys2Proof.Machine
open Sys2Proof

structure LoadSt where
  /-- 0x0713 has been logged for this load (R435). -/
  stageLogged : Bool
  /-- Pace time at which the image passed its checks (R442). -/
  heldFrom    : Nat
  /-- Start of the load deadline (R449); none while it does not run. -/
  deadline    : Option Nat
  /-- Release: the next step (1–4; 0 none), the pace time it is due, the interval in µs (R452). -/
  relStep     : Nat
  relAt       : Nat
  relGap      : Nat
  /-- The image under commit and release: identity, regions, plots. -/
  imageId     : W64
  regions     : Nat
  plots       : Nat
  /-- The commit's writes are done; the load goes on to its commit by itself (START); build rates by plot (R46). -/
  written     : Bool
  started     : Bool
  rates       : NMap Nat
  /-- Registers whose RWL fields a commit has locked (R9): 0 for all of them, a plot's or a lane's block by its CSR offset;
  and the core pages of the rectangles (row, column, height, width) that commits filled. -/
  rwl         : NMap Bool
  rwlCores    : List (Nat × Nat × Nat × Nat)
  /-- Bytes that loads gave the local memories, each plus 1, by logical core × 2^20 + local address (R29). -/
  init        : NMap Nat
  deriving DecidableEq, Repr

end Sys2Proof.Machine
end

