-- ==== Sys2Proof/Machine/PartsLoam.lean ====
section
/-!
DEFINITION. What the Loam, its fabric ports, its pins and its lanes hold (chapters 15 and 16). A site is numbered
region × 6,144 + y × 96 + x; a token or value that may be absent stands as one more than it, 0 for none.
-/
namespace Sys2Proof.Machine
open Sys2Proof

/-- A transfer from a core to the Loam (R415): a word of FP.WR, a marker, the answer to a scratch read, a poisoned one. -/
inductive FabTx where
  | word (v : W64)
  | mark (v : Nat)
  | answer (v : W64)
  | badAnswer
  deriving DecidableEq, Repr

/-- A fabric port: transfers towards the Loam, each with the tokens the Loam has not acknowledged yet, as (channel, value)
with channel 0 TX.C and 1–4 TX.D0–TX.D3; words that wait for FP.RD, oldest first. -/
structure FabPort where
  tx : List (FabTx × List (Nat × Nat))
  rx : List W64
  deriving DecidableEq, Repr

def FabPort.empty : FabPort := { tx := [], rx := [] }

/-- A running word cell (R400): entry pointer, flag, q0–q3, output register. -/
structure CellRun where
  pc   : Nat
  flag : Bool
  q    : BitVec 64
  out  : Nat
  deriving DecidableEq, Repr

/-- The frame of a word cell that no frame covers (R439): LEN 1, one NOP with NEXT hold. -/
def idleCell : BitVec 768 := BitVec.ofNat 768 (0x10000 + 1 * 2 ^ 384)

structure LoamSt where
  /-- Fabric ports by core × 4 + edge. -/
  fab      : NMap FabPort
  /-- Frames in force by site (R438), and the running cells. -/
  cells    : NMap (BitVec 768)
  run      : NMap CellRun
  /-- Tokens in cell inputs by site × 4 + input, in segments by site × 32 + select code at their end, waiting at feature sinks
  by site × 8 + sink. -/
  inp      : NMap Nat
  seg      : NMap Nat
  sink     : NMap Nat
  /-- The selects that have acknowledged the present token of a source, as a bit mask, by site × 32 + select code (R405). -/
  done     : NMap Nat
  /-- Tokens offered: by boundary channels' BIN and by LEVEL channels, by region × 64 + channel (0–31 toward r − 1); by GLINT, by
  region; by RDATA, by (region × 64 + block) × 2 + port. -/
  bin      : NMap Nat
  level    : NMap Nat
  glint    : NMap Nat
  rdata    : NMap Nat
  /-- Boundary outputs: MODE in bit 0, FENCE above (R438), by region × 64 + channel. -/
  bcfg     : NMap Nat
  /-- Memory-block words by (region × 64 + block) × 2,048 + word, those that are uncorrectable, port modes by block. -/
  words    : NMap Nat
  badWords : NMap Bool
  ports    : NMap Nat
  /-- By region × 24 + pin: setting words and SAFE in force, those committed and not released, FIFOs, the last OE token's bit,
  whether a burst is being sent, the last token sent, the last sample of a level input. -/
  io       : NMap Nat
  safe     : NMap Nat
  ioNext   : NMap Nat
  safeNext : NMap Nat
  inFifo   : NMap (List Nat)
  outFifo  : NMap (List Nat)
  oe       : NMap Bool
  sending  : NMap Bool
  lastTok  : NMap Nat
  sample   : NMap Bool
  /-- By bank: the delay line in use and when it was swapped in (R423); supply and straps at the pins (R586, R587); drivers and
  pins released (R452). -/
  line     : NMap Bool
  swapAt   : NMap Nat
  vccio    : NMap Nat
  straps   : NMap Nat
  driven   : NMap Bool
  /-- By lane: received transfers with the tokens not taken yet, transfers to send as (C, D0–D3), a bit to invert, the preset
  in flash (R428), the preset that the image gave. -/
  laneRx   : NMap (List (List (Nat × Nat)))
  laneTx   : NMap (List (Nat × W64))
  inject   : NMap Bool
  presets  : NMap W64
  given    : NMap W64
  /-- The last 31 bits of a lane's PRBS generator, bit 0 the latest (R429). -/
  lfsr     : NMap Nat
  deriving DecidableEq, Repr

end Sys2Proof.Machine
end

