-- ==== Sys2Proof/Machine/PartsMc.lean ====
section
/-!
DEFINITION. The always-on domain beside its registers (chapters 19 and 22): reset pins, identity array, flash, firmware copies,
measurements, side-band port.
-/
namespace Sys2Proof.Machine
open Sys2Proof

/-- A status output of connector J6, and its level; an open-drain output that does not pull low is released (R590). -/
inductive StatusPin where
  | pwrGood | devLive | cfgDone | cfgErrN | thermTripN
  deriving DecidableEq, Repr
inductive PinLevel where
  | low | high | released
  deriving DecidableEq, Repr

structure McSt where
  /-- PWR_GOOD is high; the compute side is held in device reset; it is in the power state compute off (R549). -/
  pwrGood  : Bool
  held     : Bool
  compOff  : Bool
  /-- The Cyust reference is missing (R585). -/
  refLost  : Bool
  /-- CAB_PRSNT_N is low, by port (R580). -/
  cables   : NMap Bool
  /-- The counters of the identity array (R517). -/
  mcCtr    : Nat
  ccCtr    : Nat
  ownerCtr : Nat
  /-- Flash bytes written since manufacture; another byte reads as `Config.flashInit` gives. -/
  flash    : NMap Byte
  /-- The copies taken at the last boot, 0 A or 1 B (R459), and their VERSION. -/
  mcCopy   : Nat
  ccCopy   : Nat
  /-- Measurements: INFO field and digest, by index (R526). -/
  meas     : NMap (W64 × BitVec 384)
  /-- Time of the last heartbeat (R511). -/
  hbAt     : Option Nat
  /-- The MC restarts after a watchdog expiry, which it logs when it runs again (R510). -/
  expired  : Bool
  /-- A command of codes 0x20–0x40 has not ended (R525). -/
  busy     : Bool
  /-- A CC_SWITCH waits for an epoch (R533). -/
  ccSwitch : Bool
  /-- MCTP endpoint ID and PLDM TID (0: null); the event receiver, if one is set (R521). -/
  eid      : Nat
  tid      : Nat
  eventRx  : Option Nat
  /-- A device-fatal entry was written since sensor 8 was last read; the states of sensors 6–8 last reported. -/
  fatalNew : Bool
  shown    : NMap Nat
  /-- SMBus packets discarded, and when 0x0A0B was last logged (R521). -/
  pecErrs  : Nat
  pecLogAt : Option Nat
  /-- The JTAG instruction last taken (0 BYPASS, 1 SAMPLE/PRELOAD, 2 EXTEST, 3 CLAMP, 4 HIGHZ) and the boundary register. -/
  jtag     : Nat
  boundary : Nat
  deriving DecidableEq, Repr

end Sys2Proof.Machine
end

