-- ==== Sys2Proof/Machine/PartsMem.lean ====
section
/-!
DEFINITION. The memories of the device and the error log on its way (chapters 9, 14, 21): bytes in canonical form
(`Host.Cell`, addresses strictly rising, no entry equal to what an unlisted address reads as), poison marks, log entries.
-/
namespace Sys2Proof.Machine
open Sys2Proof

/-- Memory contents in canonical form. -/
abbrev Mem := List Host.Cell

/-- The classes of R573. -/
inductive ErrClass where
  | notice | corrected | deferred | contained | fatal
  deriving DecidableEq, Repr

/-- An error-log entry (R574). -/
structure LogEntry where
  time : Nat
  code : Nat
  src  : Nat
  cls  : ErrClass
  plot : Option Nat
  info : W64
  slot : Nat
  deriving DecidableEq, Repr

/-- A window of R596: code and scope, the Glints that have reached the block when it opened, the pace time then. -/
structure LogWindow where
  code   : Nat
  scope  : Nat
  glints : Nat
  time   : Nat
  deriving DecidableEq, Repr

/-- The error log beside its registers: entries on their way to the ERRLOG block, entries held on die (oldest first),
open windows, whether a 0x0C09 is owed (R574), and the next place in `ERR_FATAL` (R575). -/
structure LogSt where
  inFlight : List LogEntry
  held     : List LogEntry
  windows  : List LogWindow
  dropOwed : Bool
  fatalIdx : Nat
  /-- Glints that have reached the blocks since the device reset (R596). -/
  glints   : Nat
  deriving DecidableEq, Repr

/-- The memories. -/
structure MemSt where
  /-- Scratch and Silt of the physical cores: physical core × 2^20 + the local address of R197. -/
  loc       : Mem
  /-- Poisoned 8-byte words of those memories, by key div 8 (R255). -/
  locPoison : NMap Bool
  /-- Words of scratch and Silt whose check bits disagree with their data, by key div 8: 1 a single-bit error, 2 an
  uncorrectable one. No command brings such an error about; a read finds it (R253–R255). -/
  latent    : NMap Nat
  /-- LPDDR5X data by usable offset, and the parity chunks by stripe × 64 + byte (R381, R383). -/
  dram      : Mem
  parity    : Mem
  /-- Poisoned LPDDR5X chunks, by offset div 64 (the poison list of R388). -/
  dramPoison : NMap Bool
  /-- LPDDR5X words whose last writer marked them poisoned, by offset div 8: the marks of R256 and R320 travel with a write
  (DESIGN CHOICE, log 12). -/
  dramBad  : NMap Bool
  /-- Words found correctable that wait for an idle beat to be rewritten, by key div 8 (R254). -/
  rewrites  : NMap Bool
  /-- Failed chunks as (channel 8i + l, pace time), and failed link checks in a row by channel (R389). -/
  chFails   : List (Nat × Nat)
  linkRow   : NMap Nat
  /-- Channels whose training failed (the Shadow map's bit 2), by 8i + l. -/
  trainBad  : NMap Bool
  /-- Channels due for retraining, as (8i + l, Glints then, pace time then); the next channel by LMC (R394). -/
  retrDue   : List (Nat × Nat × Nat)
  retrNext  : NMap Nat
  /-- Writes held while a channel of theirs retrains: the chunk (offset div 64), whom to answer (R394). -/
  heldWr    : List (Nat × Option LmcReq)
  /-- Host reads that wait, oldest first: port, offset, bytes, stamp (R394). -/
  hostReads : List (Nat × Nat × Nat × Nat)
  /-- Pace time at which a channel of an LMC last fell due for retraining (R394); 2^28 times the pace time at which a stripe last fell
  due for scrub (R395). -/
  retrAt    : NMap Nat
  lpScrubAt : Nat
  deriving DecidableEq, Repr

end Sys2Proof.Machine
end

