-- ==== Sys2Proof/Machine/PartsStrm.lean ====
section
/-!
DEFINITION. What streams hold: channels with their rings, tokens in the stream network, spill pages (chapters 10, 11), and
what the SYNC and QUEUE blocks hold beside their registers (chapter 13).
-/
namespace Sys2Proof.Machine
open Sys2Proof

/-- A stream channel (R267–R301). Positions count bytes from the start of the stream, without wrapping. -/
structure Chan where
  /-- State code of R290. -/
  st       : Nat
  /-- Owning context and the bundle index of its SM.OPEN (R270, R298). -/
  owner    : Nat
  openPc   : Nat
  /-- The descriptor as opened; the state word is not kept here. -/
  desc     : W512
  /-- Position at which this opening began (POS − FILL at SM.OPEN, R299). -/
  base     : Nat
  /-- Bytes accepted into the ring, and the next byte to drain. -/
  acc      : Nat
  drained  : Nat
  /-- Next position to ask memory for, or to write to memory. -/
  issued   : Nat
  /-- A halt: position of the first failing byte (R292). -/
  haltAt   : Option Nat
  /-- RING destinations: FREE_OBJ at SM.OPEN, segments published. -/
  r0       : Nat
  pubs     : Nat
  /-- R281: ema, consumed, window_bytes; R282: the last stamp. -/
  ema      : Nat
  consumed : Nat
  window   : Nat
  stamp    : Nat
  /-- RING destinations: returned bytes that `consumed` has counted; whether the stream has completed (R279). -/
  counted  : Nat
  ended    : Bool
  /-- Stall count, and whether 0x0303 has been raised for this stall (R289). -/
  stall    : Nat
  raised   : Bool
  /-- `CH_STATUS.STALLED`, `.POISONED`, `.CODE`; `CH_EVENTS`. -/
  stalled  : Bool
  poisoned : Bool
  code     : Nat
  pageWaits : Nat
  stalls   : Nat
  /-- LINK source: credit granted since the sender's start, and drained bytes whose credit is still to travel (R312). -/
  grants   : Nat
  owed     : Nat
  /-- LINK destination: bytes sent. LINK source: bytes that have arrived; with a RING destination `sent` is the returned bytes
  whose credit has travelled. -/
  sent     : Nat
  arrived  : Nat
  lastDrain : Nat
  /-- Spill permission known at this channel, spill mode, pages held (pool page numbers, oldest first), bytes put into and
  taken out of the pages since spill mode began (R316–R318). -/
  spillOk  : Bool
  spill    : Bool
  pages    : List Nat
  spIn     : Nat
  spOut    : Nat
  exhausted : Bool
  /-- PAGE_WAIT: host port and page awaited, failures of that page in a row (R295, R296). -/
  page     : Option (Nat × Nat)
  fails    : Nat
  /-- Tokens of the stream were lost with a Cyust port: SV.SRES leaves the channel HALTED (R505). -/
  lost     : Bool
  deriving DecidableEq, Repr

/-- A closed channel of which nothing is recorded. -/
def Chan.closed : Chan :=
  { st := 0, owner := 0, openPc := 0, desc := 0, base := 0, acc := 0, drained := 0, issued := 0, haltAt := none, r0 := 0,
    pubs := 0, ema := 0, consumed := 0, window := 0, stamp := 0, counted := 0, ended := false, stall := 0, raised := false, stalled := false,
    poisoned := false, code := 0, pageWaits := 0, stalls := 0, grants := 0, owed := 0, sent := 0, arrived := 0,
    lastDrain := 0, spillOk := false, spill := false, pages := [], spIn := 0, spOut := 0,
    exhausted := false, page := none, fails := 0, lost := false }

/-- A byte with its poison mark. -/
abbrev PByte := Byte × Bool

/-- A stream token (R303): identity, up to 32 bytes, stamp; `last`: it ends a finite stream; the sender's SPILL and
DECOUPLED bits travel with the stream (R313, R316). -/
structure Token where
  link  : Nat
  data  : List PByte
  stamp : Nat
  last  : Bool
  spill : Bool
  dec   : Bool
  deriving DecidableEq, Repr

/-- A token that waits in the input buffer of a route entry: at core `u`, come in by `port` (0 N, 1 E, 2 S, 3 W, 4 local
channel, 5 fabric port). -/
structure Queued where
  u    : Nat
  port : Nat
  tok  : Token
  deriving DecidableEq, Repr

/-- A token that waits at branch `out` of a decoupled branch point of core `u`: its bytes lie in the branch's spill (R314). -/
structure Lagged where
  u     : Nat
  out   : Nat
  link  : Nat
  n     : Nat
  stamp : Nat
  last  : Bool
  spill : Bool
  dec   : Bool
  deriving DecidableEq, Repr

/-- Pages of a plot's pool, oldest first, with the bytes put into and taken out of them since the first was taken. -/
structure Pages where
  list : List Nat
  inn  : Nat
  out  : Nat
  deriving DecidableEq, Repr
def Pages.none : Pages := ⟨[], 0, 0⟩

structure StrmSt where
  /-- Channels by core × 4 + channel. -/
  chans    : NMap Chan
  /-- Tokens in entry buffers, oldest first (R309). -/
  tokens   : List Queued
  /-- Tokens that wait at branches of decoupled branch points, oldest first, and the branches' spill, by
  (core × 8 + output) × 4,096 + LINK_ID (R314). -/
  branch   : List Lagged
  brPages  : NMap Pages
  /-- Bytes forwarded, by (core × 8 + output) × 4,096 + LINK_ID. -/
  fwd      : NMap Nat
  /-- Branch points whose lag episode is open (R315): core × 4,096 + LINK_ID. -/
  lagging  : NMap Bool
  /-- Credit that the gateways have passed on for streams leaving by column 127, by row × 4,096 + LINK_ID (R503). -/
  gwCredit : NMap Nat
  /-- The first credit of each of those, which is the size of the far ring (R310, R312). -/
  gwRing   : NMap Nat
  /-- Bytes that a fabric port has brought in for a stream, not yet a token, by core. -/
  fabIn    : NMap (List Byte)
  /-- Tokens handed to a gateway row and not yet sent over Cyust, oldest first: (row, token). -/
  gwOut    : List (Nat × Token)
  /-- Fence markers on their way: (core, channel) that will meet one (R326). -/
  markers  : List (Nat × Nat)
  /-- Pages of each plot's pool in use, by plot × 2^20 + page (R317). -/
  poolUsed : NMap Bool
  deriving DecidableEq, Repr

/-- Who waits at a synchronisation object (R358): a request of this module, or a request of another module. -/
structure Waiter where
  obj    : Nat
  thr    : W64
  /-- The waiting request's number on this module; none for a remote waiter. -/
  tag    : Option Nat
  /-- Module × 8 + group of a remote waiter, with its transaction tag. -/
  remote : Nat
  rtag   : Nat
  deriving DecidableEq, Repr

/-- An entry accepted by a queue and not yet visible (R374): queue, entry number, submitter's status still to be returned. -/
structure QPend where
  q    : Nat
  data : W512
  /-- The submitting request, or none for the BAR2 port. -/
  tag  : Option Nat
  deriving DecidableEq, Repr

/-- A doorbell or event packet on its way on VC2 (R337, R372, R376): an MSI-X trigger for a port or for the owning host's port;
event bits of a context; mailbox `j` bit `db`, or queue `q`, at a control processor; mailbox `j` bit `db` at the MC. -/
inductive Signal where
  | msix (p vec : Nat)
  | ownerMsix (vec : Nat)
  | ctxEvent (u c bits : Nat)
  | cpMbx (k j db : Nat)
  | cpQueue (k q : Nat)
  | mcMbx (j db : Nat)
  deriving DecidableEq, Repr

structure SyncSt where
  waiters : List Waiter
  /-- WAKE packets on their way: request number and status. -/
  wakes   : List (Nat × W64)
  /-- Requests that found the waiter pool full and ask again (R359): (tag, time of the last attempt). -/
  retry   : List (Nat × Nat)
  /-- Entries accepted and not yet visible, oldest first. -/
  qpend   : List QPend
  /-- The pace time at which each mailbox was reserved (R367), by mailbox. -/
  reservedAt : NMap Nat
  /-- Sources whose reservation of a mailbox has lapsed and that have not reserved it again (R367): mailbox, source ID. -/
  lapsed     : List (Nat × Nat)
  /-- Doorbells and event packets on their way, oldest first, and the event bits that CPs and the MC have received:
  receiver (0–3 CP, 4 MC) × 2^22 + 2^21 × (queue?) + number. -/
  signals : List Signal
  evBits  : NMap Bool
  deriving DecidableEq, Repr

end Sys2Proof.Machine
end

