-- ==== Sys2Proof/Machine/PartsNet.lean ====
section
/-!
DEFINITION. What the packet network holds (chapter 12): flits in the buffers of the routers, packets on their way, the buffers of the
Lantern probes.
-/
namespace Sys2Proof.Machine
open Sys2Proof

/-- A flit (R336): the sideband (bit 0 HEAD, bit 1 TAIL, bits 3:2 the VC, bits 7:4 POISON), 256 data bits, and the number of the
packet that it belongs to. -/
structure Flit where
  side : BitVec 8
  data : BitVec 256
  pkt  : Nat
  deriving DecidableEq, Repr

/-- What a packet carries: a part of an access or the answer to it (request number, part), an event or doorbell, a wake (request
number, status), the oldest trace record of probe `p` to LPDDR5X offset `off`. -/
inductive Carry where
  | req (tag part : Nat)
  | ans (tag part : Nat)
  | signal (g : Signal)
  | wake (tag : Nat) (st : W64)
  | record (p off : Nat)
  deriving DecidableEq, Repr

/-- A packet that has begun to enter the network at a router port (24 × router + port): its number, what it carries, its flits still
to enter. -/
structure Pkt where
  id    : Nat
  src   : Nat
  carry : Carry
  rest  : List Flit
  deriving DecidableEq, Repr

structure NetSt where
  pkts    : List Pkt
  nextPkt : Nat
  /-- Flits in the buffers of the input ports, oldest first, at most 8, by (24 × router + port) × 4 + VC (R339). -/
  bufs    : NMap (List Flit)
  /-- Packets, as number + 1, that hold an output VC, and how many beats in a row a ready VC has been refused, by the same key of the
  output port (R339, R340). -/
  owner   : NMap Nat
  refused : NMap Nat
  /-- What has reached its destination's port and has not been taken there. -/
  arrived : List Carry
  /-- Trace records that wait in a probe's buffer, oldest first (R351). -/
  trace   : NMap (List (List Byte))
  deriving DecidableEq, Repr

end Sys2Proof.Machine
end

