-- ==== Sys2Proof/Machine/PartsPwr.lean ====
section
/-!
DEFINITION. Power, temperature, telemetry and the Lantern probes beside their registers (chapters 12 and 20).
-/
namespace Sys2Proof.Machine
open Sys2Proof

/-- A management access on its way to a core's page: the master, CSR offset, bytes, the value written, or none for a read; with no
bytes, it writes the bits that are set in its value. -/
structure Mgmt where
  m : Master
  o : Nat
  n : Nat
  v : Option W64
  deriving DecidableEq, Repr

/-- A packet held for a sleeping block (R345): block, VC, the request that it belongs to (tag, part), when it asked; or a management
access. While `queued`, it waits upstream of the one that the wake buffer holds. -/
structure HeldPkt where
  block  : Nat
  vc     : Nat
  req    : Option (Nat × Nat)
  time   : Nat
  mgmt   : Option Mgmt
  queued : Bool
  deriving DecidableEq, Repr

structure PwrSt where
  /-- Telemetry counters (R554), and their values at the latest sample; the non-zero words of that sample (R555). -/
  ctr       : NMap Nat
  ctrSample : NMap Nat
  sample    : NMap W64
  /-- Thermal readings in 1/16 °C by sensor (R546). -/
  therm     : NMap Int
  /-- A thermal-held episode is open (R548); since when a breach has been over (R542). -/
  heldEp    : Bool
  okSince   : Option Nat
  /-- AVSBus fault (R537). -/
  avsFault  : Bool
  /-- Boost credit in tenths of a second (R544), minutes in parts: seconds with compute up and of boost not yet a minute. -/
  credit    : Nat
  upSecs    : Nat
  boostSecs : Nat
  /-- Saved in flash (R545): credit in seconds, operating and boost minutes; none: no record. -/
  saved     : Option (Nat × Nat × Nat)
  /-- THERM_TRIP_N is asserted (R548). -/
  tripped   : Bool
  /-- Gated 4 × 4 blocks, packets held for them, and when each was last given a packet (R345, R550). -/
  gated     : NMap Bool
  heldPkts  : List HeldPkt
  pktAt     : NMap Nat
  /-- Accesses whose response a sleeping block's router has discarded: they are never delivered (R347). -/
  lost      : List Nat
  /-- Probes that are tracing, and those whose full ring has been reported (R350, R351). -/
  tracing   : NMap Bool
  ltnFull   : NMap Bool
  deriving DecidableEq, Repr

end Sys2Proof.Machine
end

