-- ==== Sys2Proof/Machine/State.lean ====
section
/-!
DEFINITION. The whole state of the device, as plain data, with `State.reset`, and the reasons a step can stop.
-/
namespace Sys2Proof.Machine
open Sys2Proof

/-- Why a step stops with a fault. -/
inductive Fault where
  /-- Raised by every meaning for a command that is not well formed (`Instr.wf`): it names a core, port, plot, register or
  field value that the device does not have (R33, R38). Safe: the spec has no such command. -/
  | noSuchUnit
  deriving DecidableEq, Repr

/-- Why a step refuses a command. -/
inductive Refusal where
  /-- Raised only by the arm of a command that has no meaning yet. Safe. -/
  | notModelled (mnemonic : String)
  deriving DecidableEq, Repr

/-- A message that leaves the device, or the answer a command gives (newest first in `State.out`). -/
inductive Output where
  /-- An MSI-X message on host port `p`: vector, address, data (R474). -/
  | msix (p vector addr data : Nat)
  /-- A device write to the memory of host `p` (R470). -/
  | hostWrite (p addr : Nat) (data : List Byte)
  /-- A pulse of PACE_OUT: fire time and length in 10 ns (R62). -/
  | paceOut (time width : Nat)
  /-- A wake or answer to a requester of another module: module × 8 + group, its tag, status (R358, R361). -/
  | remoteAnswer (mod tag : Nat) (status : W64)
  /-- A WAIT of another module's requester finds the waiter pool full and is to be sent again (R359); a waiter record in another module's
  pool is withdrawn (R360). -/
  | remoteFull (mod tag : Nat)
  | remoteWithdraw (mod tag : Nat)
  /-- A request for another module sets out over Cyust: module × 8 + group, request number and part (R361, R501). -/
  | remoteRequest (mod tag part : Nat)
  /-- A read of CSR space that is answered as poisoned, with a status (R347). -/
  | csrPoisoned (m : Master) (status : Nat)
  /-- The data that a read of CSR space or a host port answers to a master (R9, R362, R369). -/
  | csrData (m : Master) (v : W64)
  /-- A read of the memory of host `p` (R470), and a Translation Request for a 4 KiB page of it (R295). -/
  | hostRead (p addr n : Nat)
  | translationRequest (p page : Nat) (write : Bool)
  /-- A Page Request Message of port `p` without a PASID: the page, Read or Write, the Last bit (R295). -/
  | pageRequest (p page : Nat) (write last : Bool)
  /-- The answer to a configuration read on port `p`; none: Configuration Request Retry Status (R466). -/
  | cfgData (p : Nat) (value : Option Nat)
  /-- The answer to an Invalidate Request of port `p` (R472). -/
  | invalidated (p page pages : Nat)
  /-- A block that Cyust port `p` sends. -/
  | link (p : Nat) (b : LinkBlock)
  /-- A token that begins on pin `i` of bank `r`, and whether the cell drives the pin (R420, R422); the pin returns to its idle level:
  0 low, 1 high, 2 the last bit held. -/
  | pin (r i tok : Nat) (drive : Bool)
  | pinIdle (r i idle : Nat) (drive : Bool)
  /-- A transfer on fabric lane `l`: C token, 64 bits; `flip`: its first bit is inverted; `pol`: the line is (R427, R430, FL_CFG). The
  next 64 line bits of the PRBS generator (R429). -/
  | lane (l c : Nat) (d : W64) (flip pol : Bool)
  | prbs (l : Nat) (bits : W64) (flip pol : Bool)
  /-- A management answer to a requester (source ID of R39, or 0x0004 for the side-band): CODE, TAG, STATUS, body (R523). -/
  | mgmt (dst code tag status : Nat) (body : List Byte)
  /-- An answer or event on the side-band: 0 MCTP control, 1 PLDM, 2 PLDM event; the command, its data (R521). -/
  | sideBand (kind cmd : Nat) (body : List Byte)
  /-- An image sent to the loader of module `m` of this group, with START (R456). -/
  | forward (m : Nat) (image : List Byte)
  /-- The loader gives the program of plot `p` the logical cores that it finds absent (R27; DESIGN CHOICE, log 82). -/
  | absentList (p : Nat) (cores : List Nat)
  /-- A DOE Discovery answer on port `p`: vendor, object type, next index (R463). -/
  | doe (p vendor kind next : Nat)
  /-- An internal error in AER of port `p` (R576). -/
  | aer (p : Nat) (uncorrectable : Bool)
  /-- Completion of a host read on port `p`: the bytes and whether they are poisoned, or Unsupported Request. -/
  | hostData (p : Nat) (data : Option (List Byte)) (bad : Bool)
  deriving DecidableEq, Repr

structure State where
  /-- Commands that wait, first in first out. -/
  pending : List Instr
  /-- Time since power-up in units of 100 ps (model). -/
  now     : Nat
  /-- Number of free values drawn so far (model). -/
  free    : Nat
  /-- The CSR file: registers that differ from their reset value, by CSR offset of each 64-bit word (R38). -/
  csr     : NMap W64
  out     : List Output
  log     : LogSt
  core    : CoreSt
  pace    : PaceSt
  mem     : MemSt
  avl     : AvlSt
  strm    : StrmSt
  sync    : SyncSt
  host    : HostSt
  loam    : LoamSt
  link    : LinkSt
  pwr     : PwrSt
  load    : LoadSt
  mc      : McSt
  net     : NetSt
  deriving DecidableEq, Repr

def NetSt.reset : NetSt :=
  { pkts := [], nextPkt := 0, bufs := [], owner := [], refused := [], arrived := [], trace := [] }

def LogSt.reset : LogSt :=
  { inFlight := [], held := [], windows := [], dropOwed := false, fatalIdx := 0, glints := 0 }

def CoreSt.reset : CoreSt :=
  { ctxs := [], last := [], pstore := [], pstoreBad := [], reqs := [], nextTag := 1, engines := [], vecs := [], vecFirst := [],
    glints := [], reached := [] }

def PaceSt.reset : PaceSt :=
  { sched := [], timeOff := 0, lastFire := none, inHigh := false, inChange := 0, lastEdge := none, glitches := 0,
    enabledAt := 0, hg := [], reachAt := none, issued := false, everLocked := false, ovrRing := [], ovrLogged := [],
    ringFull := false, markers := [], termSeen := 0, lastSlot := 0, lastPeriod := 0, takePeriod := 0, heardAt := 0,
    pathsDown := none, asked := none, answered := none, outUntil := 0, buildRate := 0 }

def MemSt.reset : MemSt :=
  { loc := [], locPoison := [], latent := [], dram := [], parity := [], dramPoison := [], dramBad := [],
    rewrites := [], chFails := [], linkRow := [], trainBad := [], retrDue := [], retrNext := [], heldWr := [],
    hostReads := [], retrAt := [], lpScrubAt := 0 }

def AvlSt.reset : AvlSt :=
  { spare := [], absent := [], moves := [], retired := [], bypass := [], rowsBad := [], repairs := [], hgFailed := [],
    thFailed := [], hgNext := 0, hgAsked := [], hgHold := none, hgAt := 0, testAt := [], tests := [], rotateDue := [], placedAt := [],
    reqKind := [], reqTarget := [], reqAt := [], reqForce := [], sieveDue := [], scrubDue := [], sieveHold := [], sieveAt := [], scrubAt := [],
    sieveNext := [], scrubNext := [],
    epochIn := [], epochFrom := 0, epochLate := [], epochFence := [], epochEnd := false }

def StrmSt.reset : StrmSt :=
  { chans := [], tokens := [], branch := [], brPages := [], fwd := [], lagging := [], gwCredit := [], gwRing := [], fabIn := [], gwOut := [], markers := [],
    poolUsed := [] }

def SyncSt.reset : SyncSt :=
  { waiters := [], wakes := [], retry := [], qpend := [], reservedAt := [], lapsed := [], signals := [], evBits := [] }

def HostSt.reset : HostSt :=
  { msixAddr := [], msixData := [], unmasked := [], funcMask := [], pba := [], ownerPend := [], inReset := [(0, true), (1, true)], atc := [],
    xreqs := [], prqStop := [], sent := [], invals := [], beatAt := 0, bar4 := [],
    d3 := [], aspm := [], payload := [], readSize := [], prqAlloc := [], aerSet := [], aerMask := [] }

def LoamSt.reset : LoamSt :=
  { fab := [], cells := [], run := [], inp := [], seg := [], sink := [], done := [], bin := [], level := [], glint := [],
    rdata := [], bcfg := [], words := [], badWords := [], ports := [], io := [], safe := [], ioNext := [], safeNext := [],
    inFifo := [], outFifo := [], oe := [], sending := [], lastTok := [], sample := [], line := [], swapAt := [], vccio := [],
    straps := [], driven := [], laneRx := [], laneTx := [], inject := [], presets := [], given := [], lfsr := [] }

def LinkSt.reset : LinkSt :=
  { lock := [], lostAt := [], fails := [], trained := [], presets := [], echo := [], quietAt := [], swap := [],
    notices := [], sent := [], replay := [], flits := [], gwTold := [], idSeen := [], failed := [], rotate := [], inbox := [], upAt := [], buffer := [],
    idleQ := [], outq := [], tryAt := [], calAt := [] }

def PwrSt.reset : PwrSt :=
  { ctr := [], ctrSample := [], sample := [], therm := [], heldEp := false, okSince := none, avsFault := false, credit := 0, upSecs := 0, boostSecs := 0, saved := none,
    tripped := false, gated := [], heldPkts := [], pktAt := [], lost := [], tracing := [], ltnFull := [] }

def McSt.reset : McSt :=
  { pwrGood := false, held := true, compOff := false, refLost := false, cables := [], mcCtr := 0, ccCtr := 0, ownerCtr := 0,
    flash := [], mcCopy := 0, ccCopy := 0, meas := [], hbAt := none, expired := false, busy := false, ccSwitch := false, eid := 0, tid := 0, eventRx := none,
    fatalNew := false, shown := [], pecErrs := 0, pecLogAt := none, jtag := 0, boundary := 0 }

def LoadSt.reset : LoadSt :=
  { stageLogged := false, heldFrom := 0, deadline := none, relStep := 0, relAt := 0, relGap := 0, imageId := 0, regions := 0,
    plots := 0, written := false, started := false, rates := [], rwl := [], rwlCores := [], init := [] }

/-- The device right after reset. -/
def State.reset : State :=
  { pending := [], now := 0, free := 0, csr := [], out := [], log := .reset, core := .reset, pace := .reset,
    mem := .reset, avl := .reset, strm := .reset, sync := .reset, host := .reset, loam := .reset, link := .reset
    pwr := .reset, load := .reset, mc := .reset, net := .reset }

end Sys2Proof.Machine
end

