-- ==== Sys2Proof/WellFormed.lean ====
section
/-!
DEFINITION. Which commands are well formed: every number names a unit, register, port or field value that exists. The
meaning of an ill-formed command is the fault `noSuchUnit`; the spec has no such command. Each row's condition is a
definition over its operands, which its meaning asks.
-/
namespace Sys2Proof
open Sys2Proof

/-! ### The numbers that exist (R19, R26, R98, R132) -/

/-- Logical cores (R19). -/
def nCores : Nat := 25600
/-- Physical cores, numbered prow × 128 + column (R20). -/
def nPhys : Nat := 26624
/-- Units that run bundles: the logical cores and the four control processors (R16). -/
def unitOk (u : Nat) : Bool := decide (u < 25604)
/-- Scalar register numbers. -/
def regsOk (l : List Nat) : Bool := l.all fun r => decide (r < 32)
/-- Vector and descriptor register numbers. -/
def vregsOk (l : List Nat) : Bool := l.all fun r => decide (r < 16)
/-- The types that R133 calls real. -/
def realTy : VTy → Bool
  | .cf32 => false
  | _ => true
/-- The integer types. -/
def intTy : VTy → Bool
  | .i32 => true
  | .i16 => true
  | _ => false
/-- Lane width (R132). -/
def laneBits : VTy → Nat
  | .i32 => 32
  | .f32 => 32
  | .i16 => 16
  | .bf16 => 16
  | .cf32 => 64
/-- Lane count (R132). -/
def laneCount (t : VTy) : Nat := 512 / laneBits t
/-- The unsigned compare codes. -/
def unsignedCc : Cc → Bool
  | .ltu => true
  | .geu => true
  | _ => false
/-- A host or MC or any other master exists; a unit master names a unit and a context. -/
def masterOk : Master → Bool
  | .host p => decide (p < 2)
  | .unit u c => unitOk u && decide (c < 8)
  | _ => true
/-- A burst is retried once or twice. -/
def burstOk : Burst → Bool
  | .good => true
  | .retried n => decide (n = 1) || decide (n = 2)
  | .failed _ => true
/-- Bursts of the 64 channels. -/
def burstsOk (b : Bursts) : Bool := (b.reads.all fun e => decide (e.1 < 64) && burstOk e.2) && b.lost.all (· < 64)

def pktInOk : PktIn → Bool
  | .read m _ o n st => decide (m < 512) && decide (st < 2 ^ 32) && decide (0 < n) && decide (o % 64 + n ≤ 64) && decide (o + n ≤ 960 * 2 ^ 30)
  | .write m _ o st d _ => decide (m < 512) && decide (st < 2 ^ 32) && decide (0 < d.length) && decide (o % 64 + d.length ≤ 64) &&
      decide (o + d.length ≤ 960 * 2 ^ 30)
  | .transit d v st _ fl => decide (d < 512) && decide (v < 4) && decide (st < 2 ^ 32) && decide (0 < fl.length) && decide (fl.length ≤ 17)
  | .withdraw m _ => decide (m < 512)
  | .answer _ _ _ => true
/-- Blocks as a receiver sees them (R485, R486): 2-bit header, byte 0 of the payload. -/
def headsOk (hs : List (Nat × Nat)) : Bool := hs.all fun h => decide (h.1 < 4) && decide (h.2 < 256)
def creditInOk : CreditIn → Bool
  | .packet v c _ => decide (v < 4) && decide (c < 2)
  | .stream m r _ => decide (m < 512) && decide (r < 4096)
/-- Host configuration writes that the port has (R463, R464). -/
def hostCfgOk : HostCfg → Bool
  | .bar4 k => decide (30 ≤ k) && decide (k ≤ 40)
  | .vector v _ _ _ => decide (v < 2048)
  | .payload n => [128, 256, 512].contains n
  | .readSize n => [128, 256, 512, 1024, 2048, 4096].contains n
  | .pageAlloc n => decide (n < 2 ^ 32)
  | .bar2Read off n b => decide (0 < n) && decide (off % 64 + n ≤ 64) && decide (off + n ≤ 2 ^ 26) && burstsOk b
  | _ => true
/-- Sources of operations name objects, ports and locks that exist. -/
def opFromOk : OpFrom → Bool
  | .bar2 p off d => decide (p < 2) && decide (off < 0x100000) && decide (0 < d.length) && decide (d.length ≤ 512)
  | .remote m _ i _ => decide (m < 512) && decide (i < 65536)
  | _ => true
def submitFromOk : SubmitFrom → Bool
  | .bar2 p off d => decide (p < 2) && decide (0x100000 ≤ off) && decide (off < 0x500000) && decide (0 < d.length) && decide (d.length ≤ 512)
  | _ => true
def lockFromOk : LockFrom → Bool
  | .csr m i => masterOk m && decide (i < 256)
  | _ => true

/-- A management request (R523): requester 0 the side-band, 1 host A, 2 host B; its TAG; a body as long as LENGTH can say. -/
def mgmtOk (q tag : Nat) (body : List Byte) : Bool := decide (q < 3) && decide (tag < 65536) && decide (body.length < 65536)

/-- Rows of scratch banks and Silt sub-banks (R238). -/
def rowOk (r : Bool × Nat × Nat) : Bool := decide (r.2.1 < 16) && decide (r.2.2 < if r.1 then 512 else 64)
def testFindOk (t : TestFind) : Bool := decide (t.core < nPhys) && decide (t.e0 < 256) && decide (t.e1 < 256) && t.rows.all rowOk
def startUpOk (f : StartUp) : Bool := f.tests.all testFindOk && f.hg.all (· < 1664) && f.th.all (· < 208)

/-- The virtual channel of an operation (R337). -/
def vcOfOp : Nat → Option Nat
  | 1 => some 0
  | 2 => some 0
  | 3 => some 0
  | 4 => some 1
  | 5 => some 1
  | 6 => some 1
  | 8 => some 2
  | 9 => some 2
  | 10 => some 2
  | 12 => some 3
  | 13 => some 3
  | 14 => some 3
  | _ => none
def passingOk : Passing → Bool
  | .record p => decide (p < 16)
  | _ => true

/-- A PACE block's fields (R487). -/
def markerOk (m : Marker) : Bool :=
  decide (m.term < 256) && decide (m.slot < 2 ^ 40) && decide (m.fire < 2 ^ 38) && decide (m.period < 2 ^ 17) &&
  decide (m.module < 64) && decide (m.group < 8)

/-! ### The commands -/

def wfColdReset : Bool := true
def wfPwrGoodRise : Bool := true
def wfVinLoss (_v _us : Nat) : Bool := true
def wfDevResetNPulse (_ns : Nat) : Bool := true
def wfDeviceResetRelease (f : StartUp) : Bool := startUpOk f
def wfComputeUp : Bool := true
def wfCyrefMissing : Bool := true
def wfCyrefAppear (f : StartUp) : Bool := startUpOk f
def wfVccioApplied (r level strap : Nat) : Bool := decide (r < 16) && decide (level < 3) && decide (strap < 4)
def wfBankSupplyLost (r : Nat) : Bool := decide (r < 16)
def wfCablePresentChange (p : Nat) (_on : Bool) : Bool := decide (p < 8)
def wfCsrWrite (m : Master) (o n : Nat) (v : W64) : Bool := masterOk m && decide (o < 2 ^ 28) && (decide (n = 4) || decide (n = 8)) && decide (o % n = 0) && (decide (n = 8) || decide (v.toNat < 2 ^ 32))
def wfReadClearCounter (m : Master) (o n : Nat) : Bool := masterOk m && decide (o < 2 ^ 28) && (decide (n = 4) || decide (n = 8)) && decide (o % n = 0)
def wfHourglassUpdate (rs : List Nat) : Bool := decide (rs.length = 1664) && rs.all (· < 65536)
def wfHgCalDone : Bool := true
def wfPaceCfgWrite (m : Master) (v : Nat) : Bool := masterOk m && decide (v < 2 ^ 32)
def wfPacePeriodWrite (m : Master) (v : Nat) : Bool := masterOk m && decide (v < 2 ^ 32)
def wfPaceFloorTargetWrite (m : Master) (v : Nat) : Bool := masterOk m && decide (v < 2 ^ 32)
def wfPaceOvrBaseWrite (m : Master) (_v : W64) : Bool := masterOk m
def wfPaceInEdge (_high : Bool) (_ts _hold : Nat) : Bool := true
def wfPaceSourceLost : Bool := true
def wfGlintFire : Bool := true
def wfPaceMarkerReceive (p : Nat) (k : Marker) : Bool := decide (p < 8) && markerOk k
def wfKeepAliveSend : Bool := true
def wfKeepAliveReceive (p : Nat) (k : Marker) : Bool := decide (p < 8) && markerOk k
def wfPaceMasterChange : Bool := true
def wfPaceStateRequestRetry : Bool := true
def wfPaceStateRequest (src : Nat) : Bool := decide (src < 512)
def wfPaceStateAnswer (slot term : Nat) : Bool := decide (slot < 2 ^ 64) && decide (term < 256)
def wfEmptyBeat (u : Nat) : Bool := unitOk u
def wfNop (u p : Nat) (_sl : Slot) : Bool := unitOk u && decide (p < 8)
def wfAdd (u p rd ra rb : Nat) : Bool := unitOk u && decide (p < 8) && regsOk [rd, ra, rb]
def wfSub (u p rd ra rb : Nat) : Bool := unitOk u && decide (p < 8) && regsOk [rd, ra, rb]
def wfAnd (u p rd ra rb : Nat) : Bool := unitOk u && decide (p < 8) && regsOk [rd, ra, rb]
def wfOr (u p rd ra rb : Nat) : Bool := unitOk u && decide (p < 8) && regsOk [rd, ra, rb]
def wfXor (u p rd ra rb : Nat) : Bool := unitOk u && decide (p < 8) && regsOk [rd, ra, rb]
def wfSll (u p rd ra rb : Nat) : Bool := unitOk u && decide (p < 8) && regsOk [rd, ra, rb]
def wfSrl (u p rd ra rb : Nat) : Bool := unitOk u && decide (p < 8) && regsOk [rd, ra, rb]
def wfSra (u p rd ra rb : Nat) : Bool := unitOk u && decide (p < 8) && regsOk [rd, ra, rb]
def wfMul (u p rd ra rb : Nat) : Bool := unitOk u && decide (p < 8) && regsOk [rd, ra, rb]
def wfMulhu (u p rd ra rb : Nat) : Bool := unitOk u && decide (p < 8) && regsOk [rd, ra, rb]
def wfMin (u p rd ra rb : Nat) : Bool := unitOk u && decide (p < 8) && regsOk [rd, ra, rb]
def wfMax (u p rd ra rb : Nat) : Bool := unitOk u && decide (p < 8) && regsOk [rd, ra, rb]
def wfMinu (u p rd ra rb : Nat) : Bool := unitOk u && decide (p < 8) && regsOk [rd, ra, rb]
def wfMaxu (u p rd ra rb : Nat) : Bool := unitOk u && decide (p < 8) && regsOk [rd, ra, rb]
def wfAddi (u p rd ra imm : Nat) : Bool := unitOk u && decide (p < 8) && regsOk [rd, ra] && decide (imm < 8192)
def wfAndi (u p rd ra imm : Nat) : Bool := unitOk u && decide (p < 8) && regsOk [rd, ra] && decide (imm < 8192)
def wfOri (u p rd ra imm : Nat) : Bool := unitOk u && decide (p < 8) && regsOk [rd, ra] && decide (imm < 8192)
def wfXori (u p rd ra imm : Nat) : Bool := unitOk u && decide (p < 8) && regsOk [rd, ra] && decide (imm < 8192)
def wfSlli (u p rd ra sh : Nat) : Bool := unitOk u && decide (p < 8) && regsOk [rd, ra] && decide (sh < 64)
def wfSrli (u p rd ra sh : Nat) : Bool := unitOk u && decide (p < 8) && regsOk [rd, ra] && decide (sh < 64)
def wfSrai (u p rd ra sh : Nat) : Bool := unitOk u && decide (p < 8) && regsOk [rd, ra] && decide (sh < 64)
def wfMovi (u p rd imm : Nat) : Bool := unitOk u && decide (p < 8) && regsOk [rd] && decide (imm < 262144)
def wfMovk (u p rd hw imm : Nat) : Bool := unitOk u && decide (p < 8) && regsOk [rd] && decide (hw < 4) && decide (imm < 65536)
def wfCmp (u p pd : Nat) (_cc : Cc) (ra rb : Nat) : Bool := unitOk u && decide (p < 8) && decide (pd < 8) && regsOk [ra, rb]
def wfPand (u p pd pa pb : Nat) : Bool := unitOk u && decide (p < 8) && decide (pd < 8) && decide (pa < 8) && decide (pb < 8)
def wfPor (u p pd pa pb : Nat) : Bool := unitOk u && decide (p < 8) && decide (pd < 8) && decide (pa < 8) && decide (pb < 8)
def wfPxor (u p pd pa pb : Nat) : Bool := unitOk u && decide (p < 8) && decide (pd < 8) && decide (pa < 8) && decide (pb < 8)
def wfPandn (u p pd pa pb : Nat) : Bool := unitOk u && decide (p < 8) && decide (pd < 8) && decide (pa < 8) && decide (pb < 8)
def wfRds (u p rd sel : Nat) : Bool := unitOk u && decide (p < 8) && regsOk [rd] && decide (sel < 16)
def wfBr (u p target : Nat) : Bool := unitOk u && decide (p < 8) && decide (target < 2048)
def wfCall (u p target : Nat) : Bool := unitOk u && decide (p < 8) && decide (target < 2048)
def wfRet (u p : Nat) : Bool := unitOk u && decide (p < 8)
def wfEret (u p : Nat) : Bool := unitOk u && decide (p < 8)
def wfLoop (u p ra stop : Nat) : Bool := unitOk u && decide (p < 8) && regsOk [ra] && decide (stop < 2048)
def wfLoopi (u p count stop : Nat) : Bool := unitOk u && decide (p < 8) && decide (count < 4096) && decide (stop < 2048)
def wfRepi (u p ra : Nat) : Bool := unitOk u && decide (p < 8) && regsOk [ra]
def wfRepii (u p n : Nat) : Bool := unitOk u && decide (p < 8) && decide (n < 65536)
def wfRepiStall (u : Nat) : Bool := unitOk u
def wfVadd (u p : Nat) (_t : VTy) (vd va vb : Nat) : Bool := unitOk u && decide (p < 8) && vregsOk [vd, va, vb]
def wfVsub (u p : Nat) (_t : VTy) (vd va vb : Nat) : Bool := unitOk u && decide (p < 8) && vregsOk [vd, va, vb]
def wfVmul (u p : Nat) (_t : VTy) (vd va vb : Nat) : Bool := unitOk u && decide (p < 8) && vregsOk [vd, va, vb]
def wfVfma (u p : Nat) (t : VTy) (vd va vb : Nat) : Bool := unitOk u && decide (p < 8) && vregsOk [vd, va, vb] && realTy t
def wfVmin (u p : Nat) (t : VTy) (vd va vb : Nat) : Bool := unitOk u && decide (p < 8) && vregsOk [vd, va, vb] && realTy t
def wfVmax (u p : Nat) (t : VTy) (vd va vb : Nat) : Bool := unitOk u && decide (p < 8) && vregsOk [vd, va, vb] && realTy t
def wfVand (u p : Nat) (_t : VTy) (vd va vb : Nat) : Bool := unitOk u && decide (p < 8) && vregsOk [vd, va, vb]
def wfVor (u p : Nat) (_t : VTy) (vd va vb : Nat) : Bool := unitOk u && decide (p < 8) && vregsOk [vd, va, vb]
def wfVxor (u p : Nat) (_t : VTy) (vd va vb : Nat) : Bool := unitOk u && decide (p < 8) && vregsOk [vd, va, vb]
def wfVshl (u p : Nat) (t : VTy) (vd va vb : Nat) : Bool := unitOk u && decide (p < 8) && vregsOk [vd, va, vb] && intTy t
def wfVshr (u p : Nat) (t : VTy) (vd va vb : Nat) (_arith : Bool) : Bool := unitOk u && decide (p < 8) && vregsOk [vd, va, vb] && intTy t
def wfVcmp (u p : Nat) (t : VTy) (pd : Nat) (cc : Cc) (va vb : Nat) : Bool := unitOk u && decide (p < 8) && decide (pd < 8) && vregsOk [va, vb] && realTy t && (intTy t || !unsignedCc cc)
def wfVcmac (u p vd va vb : Nat) : Bool := unitOk u && decide (p < 8) && vregsOk [vd, va, vb]
def wfVconv (u p : Nat) (t d : VTy) (vd va : Nat) (_sat : Bool) (h : Nat) : Bool := unitOk u && decide (p < 8) && vregsOk [vd, va] && realTy t && realTy d && decide (t ≠ d) && decide (h < 2) && (decide (h = 0) || decide (laneBits t ≠ laneBits d))
def wfVred (u p : Nat) (t : VTy) (vd va op : Nat) : Bool := unitOk u && decide (p < 8) && vregsOk [vd, va] && realTy t && decide (op < 3)
def wfVperm (u p : Nat) (_t : VTy) (vd va vb : Nat) : Bool := unitOk u && decide (p < 8) && vregsOk [vd, va, vb]
def wfVbcast (u p : Nat) (_t : VTy) (vd ra : Nat) : Bool := unitOk u && decide (p < 8) && vregsOk [vd] && regsOk [ra]
def wfVext (u p : Nat) (t : VTy) (rd va idx : Nat) : Bool := unitOk u && decide (p < 8) && regsOk [rd] && vregsOk [va] && decide (idx < laneCount t)
def wfVmov (u p : Nat) (_t : VTy) (vd va : Nat) : Bool := unitOk u && decide (p < 8) && vregsOk [vd, va]
def wfVspecSearch (u p : Nat) (t : VTy) (vd va vb : Nat) (_least _accum : Bool) : Bool := unitOk u && decide (p < 8) && vregsOk [vd, va, vb] && realTy t
def wfVspecTap (u p : Nat) (t : VTy) (vd va vb k : Nat) : Bool := unitOk u && decide (p < 8) && vregsOk [vd, va, vb] && decide (k < laneCount t) && decide (vd ≠ va)
def wfVecResultWrite (_tag : Nat) : Bool := true
def wfMm (u p e dd : Nat) : Bool := unitOk u && decide (p < 8) && decide (e < 2) && vregsOk [dd]
def wfSmOpen (u p ch dd : Nat) : Bool := unitOk u && decide (p < 8) && decide (ch < 4) && vregsOk [dd]
def wfSmClose (u p ch : Nat) : Bool := unitOk u && decide (p < 8) && decide (ch < 4)
def wfSmRd (u p pd vd ch : Nat) : Bool := unitOk u && decide (p < 8) && decide (ch < 4) && decide (pd < 8) && vregsOk [vd]
def wfSmRds (u p pd rd ch : Nat) : Bool := unitOk u && decide (p < 8) && decide (ch < 4) && decide (pd < 8) && regsOk [rd]
def wfSmWr (u p va ch : Nat) : Bool := unitOk u && decide (p < 8) && decide (ch < 4) && vregsOk [va]
def wfSmWrs (u p ra ch : Nat) : Bool := unitOk u && decide (p < 8) && decide (ch < 4) && regsOk [ra]
def wfSmSave (u p ch dd : Nat) : Bool := unitOk u && decide (p < 8) && decide (ch < 4) && vregsOk [dd]
def wfLdB (u p rd ra imm : Nat) : Bool := unitOk u && decide (p < 8) && regsOk [rd, ra] && decide (imm < 8192)
def wfLdH (u p rd ra imm : Nat) : Bool := unitOk u && decide (p < 8) && regsOk [rd, ra] && decide (imm < 8192)
def wfLdW (u p rd ra imm : Nat) : Bool := unitOk u && decide (p < 8) && regsOk [rd, ra] && decide (imm < 8192)
def wfLdD (u p rd ra imm : Nat) : Bool := unitOk u && decide (p < 8) && regsOk [rd, ra] && decide (imm < 8192)
def wfLdBs (u p rd ra imm : Nat) : Bool := unitOk u && decide (p < 8) && regsOk [rd, ra] && decide (imm < 8192)
def wfLdHs (u p rd ra imm : Nat) : Bool := unitOk u && decide (p < 8) && regsOk [rd, ra] && decide (imm < 8192)
def wfLdWs (u p rd ra imm : Nat) : Bool := unitOk u && decide (p < 8) && regsOk [rd, ra] && decide (imm < 8192)
def wfLdV (u p vd ra imm : Nat) : Bool := unitOk u && decide (p < 8) && vregsOk [vd] && regsOk [ra] && decide (imm < 8192)
def wfLdDsc (u p dd ra imm : Nat) : Bool := unitOk u && decide (p < 8) && vregsOk [dd] && regsOk [ra] && decide (imm < 8192)
def wfStB (u p rs ra imm : Nat) : Bool := unitOk u && decide (p < 8) && regsOk [rs, ra] && decide (imm < 8192)
def wfStH (u p rs ra imm : Nat) : Bool := unitOk u && decide (p < 8) && regsOk [rs, ra] && decide (imm < 8192)
def wfStW (u p rs ra imm : Nat) : Bool := unitOk u && decide (p < 8) && regsOk [rs, ra] && decide (imm < 8192)
def wfStD (u p rs ra imm : Nat) : Bool := unitOk u && decide (p < 8) && regsOk [rs, ra] && decide (imm < 8192)
def wfStV (u p vs ra imm : Nat) : Bool := unitOk u && decide (p < 8) && vregsOk [vs] && regsOk [ra] && decide (imm < 8192)
def wfStDsc (u p ds ra imm : Nat) : Bool := unitOk u && decide (p < 8) && vregsOk [ds] && regsOk [ra] && decide (imm < 8192)
def wfSyncAdd (u p rd ra rb : Nat) : Bool := unitOk u && decide (p < 8) && regsOk [rd, ra, rb]
def wfSyncSet (u p rd ra rb : Nat) : Bool := unitOk u && decide (p < 8) && regsOk [rd, ra, rb]
def wfSyncWait (u p rd ra rb : Nat) : Bool := unitOk u && decide (p < 8) && regsOk [rd, ra, rb]
def wfSyncTest (u p pd ra rb : Nat) : Bool := unitOk u && decide (p < 8) && decide (pd < 8) && regsOk [ra, rb]
def wfLockAcq (u p rd ra : Nat) : Bool := unitOk u && decide (p < 8) && regsOk [rd, ra]
def wfLockRel (u p ra : Nat) : Bool := unitOk u && decide (p < 8) && regsOk [ra]
def wfMbxSend (u p rd ra rb : Nat) : Bool := unitOk u && decide (p < 8) && regsOk [rd, ra, rb]
def wfMbxWdraw (u p rd ra : Nat) : Bool := unitOk u && decide (p < 8) && regsOk [rd, ra]
def wfQSubmit (u p rd ra vb : Nat) : Bool := unitOk u && decide (p < 8) && regsOk [rd, ra] && vregsOk [vb]
def wfQTake (u p pd vd ra : Nat) : Bool := unitOk u && decide (p < 8) && decide (pd < 8) && vregsOk [vd] && regsOk [ra]
def wfEvtWait (u p : Nat) : Bool := unitOk u && decide (p < 8)
def wfEvtSend (u p ctx : Nat) : Bool := unitOk u && decide (p < 8) && decide (ctx < 8)
def wfGlintWaitNext (u p : Nat) : Bool := unitOk u && decide (p < 8)
def wfGlintWaitAlign (u p : Nat) : Bool := unitOk u && decide (p < 8)
def wfBoundary (u p : Nat) : Bool := unitOk u && decide (p < 8)
def wfHalt (u p : Nat) : Bool := unitOk u && decide (p < 8)
def wfFault (u p imm : Nat) : Bool := unitOk u && decide (p < 8) && decide (imm < 65536)
def wfFpRd (u p rd port : Nat) : Bool := unitOk u && decide (p < 8) && regsOk [rd] && decide (port < 4)
def wfFpWr (u p ra port : Nat) : Bool := unitOk u && decide (p < 8) && regsOk [ra] && decide (port < 4)
def wfFpFlush (u p port : Nat) : Bool := unitOk u && decide (p < 8) && decide (port < 4)
def wfFpMark (u p port imm : Nat) : Bool := unitOk u && decide (p < 8) && decide (port < 4) && decide (imm < 65536)
def wfSvPrst (u p ra : Nat) : Bool := unitOk u && decide (p < 8) && regsOk [ra]
def wfSvSres (u p ra rb : Nat) : Bool := unitOk u && decide (p < 8) && regsOk [ra, rb]
def wfSvPsw (u p ra vb : Nat) : Bool := unitOk u && decide (p < 8) && regsOk [ra] && vregsOk [vb]
def wfLoadReturn (_tag : Nat) : Bool := true
def wfStoreAck (_tag : Nat) : Bool := true
def wfTrapTake (u c : Nat) : Bool := unitOk u && decide (c < 8)
def wfHaltReq (m : Master) (u c : Nat) : Bool := masterOk m && unitOk u && decide (c < 8)
def wfResume (m : Master) (u c : Nat) : Bool := masterOk m && unitOk u && decide (c < 8)
def wfStepCtx (m : Master) (u c : Nat) : Bool := masterOk m && unitOk u && decide (c < 8)
def wfSetSoft (m : Master) (u c : Nat) : Bool := masterOk m && unitOk u && decide (c < 8)
def wfPlotReset (m : Master) (p : Nat) (_start : Bool) : Bool := masterOk m && decide (p < 64)
def wfPlotStart (m : Master) (p : Nat) : Bool := masterOk m && decide (p < 64)
def wfPlotFaultSettle (p : Nat) : Bool := decide (p < 64)
def wfEpochStart (m : Master) : Bool := masterOk m
def wfEpochEnd (m : Master) : Bool := masterOk m
def wfEpochTimeout (p : Nat) : Bool := decide (p < 64)
def wfEpochHalted : Bool := true
def wfEpochDrained : Bool := true
def wfEpochSparesMoved : Bool := true
def wfEngineCommandStart (u e : Nat) : Bool := decide (u < nCores) && decide (e < 2)
def wfEngineCommandComplete (u e _active stalls early : Nat) : Bool := decide (u < nCores) && decide (e < 2) && decide (early ≤ stalls)
def wfEnginePoison (u e : Nat) : Bool := decide (u < nCores) && decide (e < 2)
def wfBankOwnerWrite (m : Master) (u b code : Nat) : Bool := masterOk m && decide (u < nCores) && decide (b < 16) && decide (code < 16)
def wfBankHandover (u b : Nat) : Bool := decide (u < nCores) && decide (b < 16)
def wfEccRewrite (phys word : Nat) : Bool := decide (phys < nPhys) && decide (word < 131072)
def wfSieveDue (phys : Nat) : Bool := decide (phys < nPhys)
def wfSieveRegionStart (phys : Nat) : Bool := decide (phys < nPhys)
def wfSieveRegionEnd (phys : Nat) (bad : Option (Nat × Nat)) : Bool := decide (phys < nPhys) && bad.all fun x => decide (x.1 < 256) && decide (x.2 < 72)
def wfScrubDue (phys : Nat) (upsets : List (Nat × Bool)) : Bool := decide (phys < nPhys) && upsets.all fun x => decide (x.1 ≤ 135168)
def wfScrubRow (phys : Nat) : Bool := decide (phys < nPhys)
def wfChannelRequestIssue (u ch : Nat) : Bool := decide (u < nCores) && decide (ch < 4)
def wfStreamReadResponse (_tag : Nat) : Bool := true
def wfStreamWriteAck (_tag : Nat) : Bool := true
def wfSegmentPublish (u ch : Nat) : Bool := decide (u < nCores) && decide (ch < 4)
def wfStreamComplete (u ch : Nat) : Bool := decide (u < nCores) && decide (ch < 4)
def wfChannelCloseDone (u ch : Nat) : Bool := decide (u < nCores) && decide (ch < 4)
def wfRateSample : Bool := true
def wfStreamStall (u ch : Nat) : Bool := decide (u < nCores) && decide (ch < 4)
def wfSpillPageTake (u ch : Nat) : Bool := decide (u < nCores) && decide (ch < 4)
def wfSpillPageReturn (u ch : Nat) : Bool := decide (u < nCores) && decide (ch < 4)
def wfAtsTranslationCompletion (p page : Nat) (_write : Bool) (_base _pages : Nat) (_rd _wr : Bool) : Bool := decide (p < 2) && decide (page < 2 ^ 36)
def wfPageResponse (p page : Nat) (_resp : PageResp) : Bool := decide (p < 2) && decide (page < 2 ^ 36)
def wfAtsInvalidate (p _page _pages : Nat) : Bool := decide (p < 2)
def wfHostMemoryRead (_tag _part : Nat) : Bool := true
def wfHostMemoryWrite (_tag _part : Nat) : Bool := true
def wfHostReadCompletion (_tag _part : Nat) (_data : Option (List Byte)) : Bool := true
def wfStreamTokenSend (u ch : Nat) : Bool := decide (u < nCores) && decide (ch < 4)
def wfStreamTokenArrive (u port link : Nat) : Bool := decide (u < nCores) && decide (port < 6) && decide (link < 4096)
def wfStreamCreditReturn (u ch : Nat) : Bool := decide (u < nCores) && decide (ch < 4)
def wfFenceMarkerReceive (u ch : Nat) : Bool := decide (u < nCores) && decide (ch < 4)
def wfPacketForward (h port : Nat) (_out : Bool) (what : Passing) : Bool := decide (h < 1664) && decide (port < 24) && passingOk what
def wfPacketPortRequest (_tag _part : Nat) : Bool := true
def wfEventPacket : Bool := true
def wfDoorbellPacket : Bool := true
def wfBlockWakeRequest (b vc : Nat) (_req : Option (Nat × Nat)) : Bool := decide (b < 1664) && decide (vc < 4)
def wfBlockWakeComplete (b : Nat) : Bool := decide (b < 1664)
def wfWakeTimeout (b vc : Nat) : Bool := decide (b < 1664) && decide (vc < 4)
def wfLtnCfgWrite (m : Master) (p : Nat) (_v : W64) : Bool := masterOk m && decide (p < 16)
def wfLtnRingWrite (m : Master) (p : Nat) (_v : W64) : Bool := masterOk m && decide (p < 16)
def wfSyncObjectAdd (src : OpFrom) : Bool := opFromOk src
def wfSyncObjectSet (src : OpFrom) : Bool := opFromOk src
def wfSyncObjectWait (src : OpFrom) : Bool := opFromOk src
def wfSyncObjectTest (src : OpFrom) : Bool := opFromOk src
def wfSyncWake (_tag : Nat) : Bool := true
def wfSyncWaitRetry (_tag : Nat) : Bool := true
def wfSyncValueWrite (m : Master) (i : Nat) (_v : W64) : Bool := masterOk m && decide (i < 65536)
def wfSyncCtrlWrite (m : Master) (i plot : Nat) (_owned _open_ : Bool) : Bool := masterOk m && decide (i < 65536) && decide (plot < 64)
def wfLockRead (src : LockFrom) : Bool := lockFromOk src
def wfLockReleaseWrite (src : LockFrom) : Bool := lockFromOk src
def wfLockForce (m : Master) (i : Nat) : Bool := masterOk m && decide (i < 256)
def wfMbxSendDeliver (_tag : Nat) : Bool := true
def wfMbxWithdraw (_tag : Nat) : Bool := true
def wfMbxReserve (m : Master) (j : Nat) : Bool := masterOk m && decide (j < 64)
def wfMbxClaim (m : Master) (j : Nat) : Bool := masterOk m && decide (j < 64)
def wfMbxPortSend (m : Master) (j db len : Nat) : Bool := masterOk m && decide (j < 64) && decide (db < 32) && decide (len < 512)
def wfMbxPortFree (m : Master) (j : Nat) : Bool := masterOk m && decide (j < 64)
def wfMbxPortWdraw (m : Master) (j : Nat) : Bool := masterOk m && decide (j < 64)
def wfMbxPortCancel (m : Master) (j : Nat) : Bool := masterOk m && decide (j < 64)
def wfMbxReserveLapse (j : Nat) : Bool := decide (j < 64)
def wfMbxDbWrite (m : Master) (j clear mask : Nat) : Bool := masterOk m && decide (j < 64) && decide (clear < 2 ^ 32) && decide (mask < 2 ^ 32)
def wfQueueSubmit (src : SubmitFrom) : Bool := submitFromOk src
def wfQueueEntryVisible (q : Nat) : Bool := decide (q < 65536)
def wfQueueTake (_tag : Nat) (_host : W512) : Bool := true
def wfQHeadWrite (m : Master) (q head : Nat) : Bool := masterOk m && decide (q < 65536) && decide (head < 65536)
def wfQCfgWrite (m : Master) (q v : Nat) : Bool := masterOk m && decide (q < 65536) && decide (v < 2 ^ 32)
def wfLmcRead (_q : LmcReq) (b : Bursts) : Bool := burstsOk b
def wfLmcWrite (_q : LmcReq) (b : Bursts) : Bool := burstsOk b
def wfStripeWrite (stripe : Nat) (lost : List Nat) : Bool := decide (stripe < 2 ^ 30) && lost.all (· < 64)
def wfReinstate (m : Master) (x : Nat) (_pass : Bool) : Bool := masterOk m && decide (x < 64)
def wfChannelRebuildStripe (x : Nat) (b : Bursts) : Bool := decide (x < 64) && burstsOk b
def wfLpddrTrainingDone (bad : List Nat) : Bool := bad.all (· < 64)
def wfLpddrInitDone : Bool := true
def wfRetrainDue (i : Nat) : Bool := decide (i < 8)
def wfRetrainStart (i : Nat) : Bool := decide (i < 8)
def wfRetrainEnd (i : Nat) (_ok : Bool) : Bool := decide (i < 8)
def wfPatrolScrubStripe (b : Bursts) : Bool := burstsOk b
def wfBar4Read (p x n : Nat) (b : Bursts) : Bool := decide (p < 2) && decide (0 < n) && decide (x % 64 + n ≤ 64) && burstsOk b
def wfBar4Write (p x : Nat) (data : List Byte) (b : Bursts) : Bool := decide (p < 2) && decide (0 < data.length) && decide (x % 64 + data.length ≤ 64) && burstsOk b
def wfLmcWinWrite (m : Master) (p base : Nat) : Bool := masterOk m && decide (p < 2) && decide (base < 1024)
def wfCellNop (i : Nat) : Bool := decide (i < 98304)
def wfCellAdd (i : Nat) : Bool := decide (i < 98304)
def wfCellSub (i : Nat) : Bool := decide (i < 98304)
def wfCellAnd (i : Nat) : Bool := decide (i < 98304)
def wfCellOr (i : Nat) : Bool := decide (i < 98304)
def wfCellXor (i : Nat) : Bool := decide (i < 98304)
def wfCellShl (i : Nat) : Bool := decide (i < 98304)
def wfCellShr (i : Nat) : Bool := decide (i < 98304)
def wfCellSra (i : Nat) : Bool := decide (i < 98304)
def wfCellCmpeq (i : Nat) : Bool := decide (i < 98304)
def wfCellCmplt (i : Nat) : Bool := decide (i < 98304)
def wfCellCmpltu (i : Nat) : Bool := decide (i < 98304)
def wfCellSel (i : Nat) : Bool := decide (i < 98304)
def wfCellMulu (i : Nat) : Bool := decide (i < 98304)
def wfCellMuls (i : Nat) : Bool := decide (i < 98304)
def wfCellMov (i : Nat) : Bool := decide (i < 98304)
def wfMemoryBlockAccess (r b q ecc : Nat) : Bool := decide (r < 16) && decide (b < 64) && decide (q < 2) && decide (ecc < 3)
def wfLoamWindowAccess (_tag _part : Nat) (ecc : List Nat) : Bool := ecc.all (· < 3)
def wfHostifLwinDataRead (m : Master) (p : Nat) (ecc : List Nat) : Bool := masterOk m && decide (p < 2) && ecc.all (· < 3)
def wfHostifLwinDataWrite (m : Master) (p : Nat) (_v : W64) : Bool := masterOk m && decide (p < 2)
def wfFabricRxWord (r p : Nat) : Bool := decide (r < 16) && decide (p < (if r / 4 % 2 = 0 then 32 else 50))
def wfFabricRxScratchWrite (r p : Nat) : Bool := decide (r < 16) && decide (p < (if r / 4 % 2 = 0 then 32 else 50))
def wfFabricRxScratchRead (r p : Nat) : Bool := decide (r < 16) && decide (p < (if r / 4 % 2 = 0 then 32 else 50))
def wfFabricPortCode (r p : Nat) : Bool := decide (r < 16) && decide (p < (if r / 4 % 2 = 0 then 32 else 50))
def wfIoInputToken (r i v : Nat) : Bool := decide (r < 16) && decide (i < 24) && decide (v < 65536)
def wfIoOutputStart (r i : Nat) : Bool := decide (r < 16) && decide (i < 24)
def wfIoOutputTokenEnd (r i : Nat) : Bool := decide (r < 16) && decide (i < 24)
def wfIoDelaySwap (r : Nat) : Bool := decide (r < 16)
def wfIoClockLost (r c : Nat) : Bool := decide (r < 16) && decide (c < 2)
def wfIoClockReturn (r c : Nat) : Bool := decide (r < 16) && decide (c < 2)
def wfLaneRxTransfer (l c : Nat) (_d : W64) : Bool := decide (l < 16) && decide (c < 65536)
def wfLaneTxUnderrun (l : Nat) : Bool := decide (l < 16)
def wfLaneAdaptDone (l : Nat) (_preset : W64) : Bool := decide (l < 16)
def wfLaneLockLost (l : Nat) (_cdr : Bool) : Bool := decide (l < 16)
def wfPrbsLockChange (l : Nat) (_lock : Bool) (_errs : Nat) : Bool := decide (l < 16)
def wfInject (m : Master) (l : Nat) : Bool := masterOk m && decide (l < 16)
def wfPeriodicInjection (l : Nat) : Bool := decide (l < 16)
def wfLoadVerify (m : Master) : Bool := masterOk m
def wfLoadCommit (m : Master) : Bool := masterOk m
def wfLoadStart (m : Master) : Bool := masterOk m
def wfLoadAbort (m : Master) : Bool := masterOk m
def wfLoadUnload (m : Master) : Bool := masterOk m
def wfLoadForward (m : Master) (k : Nat) : Bool := masterOk m && decide (k < 64)
def wfVerifyComplete : Bool := true
def wfLoadHoldExpired : Bool := true
def wfCommitAtSlot : Bool := true
def wfCommitPoint : Bool := true
def wfReleaseStart : Bool := true
def wfReleaseStep : Bool := true
def wfLoadDeadline : Bool := true
def wfLoadDeadlineWrite (m : Master) (v : Nat) : Bool := masterOk m && decide (v < 4096)
def wfForwardResult (st code : Nat) : Bool := decide (st < 9) && decide (code < 65536)
def wfLoadForwardFail : Bool := true
def wfPerstAssert (p : Nat) (_flr : Bool) : Bool := decide (p < 2)
def wfPortCfgReady (p : Nat) : Bool := decide (p < 2)
def wfHostLinkDown (p : Nat) : Bool := decide (p < 2)
def wfClaim (p : Nat) : Bool := decide (p < 2)
def wfStandby (p : Nat) : Bool := decide (p < 2)
def wfWithdraw (p : Nat) : Bool := decide (p < 2)
def wfRelease (p : Nat) : Bool := decide (p < 2)
def wfHandOver (p : Nat) : Bool := decide (p < 2)
def wfOwnerBeat (p : Nat) : Bool := decide (p < 2)
def wfHeartbeatLapse : Bool := true
def wfMsixUnmask (p : Nat) (vec : Option Nat) : Bool := decide (p < 2) && vec.all fun v => decide (v < 2048)
def wfCyustPortEnable (m : Master) (p : Nat) (_on : Bool) : Bool := masterOk m && decide (p < 8)
def wfCyustTrainingAttempt (p : Nat) : Bool := decide (p < 8)
def wfCyustTrainingDone (p delay : Nat) (_ok : Bool) (bad : List Nat) : Bool := decide (p < 8) && decide (delay < 65536) && bad.all (· < 9)
def wfCyustIdBlock (p i far : Nat) : Bool := decide (p < 8) && decide (i < 512) && decide (far < 8)
def wfBlockLockAcquired (p : Nat) (heads _marks : List (Nat × Nat)) : Bool := decide (p < 8) && headsOk heads
def wfBlockLockLost (p : Nat) (heads : Heads) : Bool := decide (p < 8) && heads.all headsOk
def wfCyustPortDown (p : Nat) (_lost : List Nat) : Bool := decide (p < 8)
def wfPortDownNotice (i far : Nat) : Bool := decide (i < 512) && decide (far < 8)
def wfRemoteTimeout (_tag _part : Nat) : Bool := true
def wfCyustUncorrectableCodeword (p _cw : Nat) (errs : List Nat) : Bool := decide (p < 8) && decide errs.Nodup && errs.all (· < 544)
def wfCyustReplayRequest (p _cw : Nat) : Bool := decide (p < 8)
def wfCyustCreditBlock (p : Nat) (c : CreditIn) : Bool := decide (p < 8) && creditInOk c
def wfCyustPktBlock (p cls : Nat) (k : PktIn) : Bool := decide (p < 8) && decide (cls < 2) && pktInOk k
def wfCyustStrmBlock (p src dst rlink _stamp : Nat) (data : List Byte) (_bad : List Nat) (_last _spill : Bool) : Bool := decide (p < 8) && decide (src < 512) && decide (dst < 512) && decide (rlink < 4096) && decide (0 < data.length) && decide (data.length ≤ 512)
def wfGatewayTokenOut (row : Nat) : Bool := decide (row < 200)
def wfCyustDelayBlock (p delay _err _corr : Nat) (_off : Int) (figs : List LaneFig) : Bool := decide (p < 8) && decide (delay < 65536) && figs.all (·.lane < 9)
def wfCyustLaneSwap (p l : Nat) (_on : Bool) : Bool := decide (p < 8) && decide (l < 8)
def wfCyustCalibrationRotation (p : Nat) : Bool := decide (p < 8)
def wfCyustLaneSpared (p l : Nat) : Bool := decide (p < 8) && decide (l < 9)
def wfCyustIdleEntry (p : Nat) : Bool := decide (p < 8)
def wfCyustIdleExit (p : Nat) : Bool := decide (p < 8)
def wfCyustFarLoopbackRequest (p : Nat) : Bool := decide (p < 8)
def wfCyustLoopWrite (m : Master) (p v : Nat) : Bool := masterOk m && decide (p < 8) && decide (v < 4)
def wfRetrain (m : Master) (p : Nat) : Bool := masterOk m && decide (p < 8)
def wfCyustTopoWrite (m : Master) (v : Nat) : Bool := masterOk m && decide (v < 2 ^ 64)
def wfCyustRtWrite (m : Master) (i v : Nat) : Bool := masterOk m && decide (i < 512) && decide (v < 2 ^ 64)
def wfMcWatchdog : Bool := true
def wfMcHeartbeat : Bool := true
def wfDevLiveDrop : Bool := true
def wfGetInfo (q tag : Nat) (body : List Byte) : Bool := mgmtOk q tag body
def wfGetCerts (q tag : Nat) (body : List Byte) : Bool := mgmtOk q tag body
def wfGetMeasurements (q tag : Nat) (body : List Byte) : Bool := mgmtOk q tag body
def wfStageWrite (q tag : Nat) (body : List Byte) : Bool := mgmtOk q tag body
def wfLoadCmd (q tag : Nat) (body : List Byte) : Bool := mgmtOk q tag body
def wfMbxOp (q tag : Nat) (body : List Byte) : Bool := mgmtOk q tag body
def wfCsrRead (q tag : Nat) (body : List Byte) : Bool := mgmtOk q tag body
def wfFwUpdate (q tag : Nat) (body : List Byte) (_cut : Option Nat) : Bool := mgmtOk q tag body
def wfFwCommitSvn (q tag : Nat) (body : List Byte) : Bool := mgmtOk q tag body
def wfCcSwitch (q tag : Nat) (body : List Byte) : Bool := mgmtOk q tag body
def wfResetCompute (q tag : Nat) (body : List Byte) : Bool := mgmtOk q tag body
def wfMcRestart (q tag : Nat) (body : List Byte) : Bool := mgmtOk q tag body
def wfSetOwner (q tag : Nat) (body : List Byte) : Bool := mgmtOk q tag body
def wfClearOwner (q tag : Nat) (body : List Byte) : Bool := mgmtOk q tag body
def wfDebugUnlock (q tag : Nat) (body : List Byte) : Bool := mgmtOk q tag body
def wfSetEndpointId (eid : Nat) : Bool := decide (eid < 256)
def wfGetEndpointId : Bool := true
def wfGetMctpVersionSupport : Bool := true
def wfGetMessageTypeSupport : Bool := true
def wfGetVendorDefinedMessageSupport : Bool := true
def wfGetTid : Bool := true
def wfSetTid (tid : Nat) : Bool := decide (tid < 256)
def wfGetPldmVersion : Bool := true
def wfGetPldmTypes : Bool := true
def wfGetPldmCommands : Bool := true
def wfGetPdr (h : Nat) : Bool := decide (h < 2 ^ 32)
def wfGetSensorReading (id : Nat) : Bool := decide (1 ≤ id ∧ id ≤ 5)
def wfGetStateSensorReadings (id : Nat) : Bool := decide (6 ≤ id ∧ id ≤ 8)
def wfGetNumericEffecterValue : Bool := true
def wfSetNumericEffecterValue (v : Nat) : Bool := decide (v < 2 ^ 32)
def wfSetStateEffecterStates (st : Nat) : Bool := decide (1 ≤ st ∧ st ≤ 2)
def wfSetEventReceiver (a : Nat) : Bool := decide (a < 256)
def wfStateSensorEvent (id : Nat) : Bool := decide (6 ≤ id ∧ id ≤ 8)
def wfSidebandError : Bool := true
def wfBypass : Bool := true
def wfSamplePreload (_v : Nat) : Bool := true
def wfExtest : Bool := true
def wfClamp : Bool := true
def wfHighz : Bool := true
def wfDoeDiscovery (p i : Nat) : Bool := decide (p < 2) && decide (i < 256)
def wfGovernorStep (power vneed _est : Nat) (_avs : Bool) : Bool := decide (power < 2048) && decide (600 ≤ vneed)
def wfAvsRetry (_ok : Bool) : Bool := true
def wfPwrLimitWrite (m : Master) (_v : W64) : Bool := masterOk m
def wfBoostCreditTick : Bool := true
def wfBoostSave : Bool := true
def wfThermalSample (ts : List Int) : Bool := decide (ts.length = 208)
def wfThermalTrip (i : Nat) : Bool := decide (i < 208)
def wfPwrShadeWrite (m : Master) (_v : W64) : Bool := masterOk m
def wfPlotShaded (p : Nat) : Bool := decide (p < 64)
def wfBlockRegate (b : Nat) : Bool := decide (b < 1664)
def wfTelemetrySample (powerMs : Nat) (rails : List (Nat × Nat)) : Bool := decide (powerMs < 65536) && decide (rails.length = 7) && rails.all (fun r => decide (r.1 < 65536) && decide (r.2 < 65536))
def wfTelemRingWrite (m : Master) (_v : W64) : Bool := masterOk m
def wfHgRecalDue (_ok : Bool) : Bool := true
def wfCoreTestDue (ph : Nat) : Bool := decide (ph < nPhys)
def wfCoreTestStepDone (f : TestFind) : Bool := testFindOk f
def wfCoreTestStop (ph : Nat) : Bool := decide (ph < nPhys)
def wfSpareRotationDue (g : Nat) : Bool := decide (g < 1024)
def wfAvlCoreTest (m : Master) (i n : Nat) (_force : Bool) : Bool := masterOk m && decide (i < 16) && decide (n < 2 ^ 24)
def wfAvlPcoreTest (m : Master) (i ph : Nat) (_force : Bool) : Bool := masterOk m && decide (i < 16) && decide (ph < 2 ^ 24)
def wfAvlRetire (m : Master) (i ph : Nat) : Bool := masterOk m && decide (i < 16) && decide (ph < 2 ^ 24)
def wfAvlHgCal (m : Master) (i h : Nat) : Bool := masterOk m && decide (i < 16) && decide (h < 2 ^ 24)
def wfAvlLpddrRetrain (m : Master) (i x : Nat) : Bool := masterOk m && decide (i < 16) && decide (x < 2 ^ 24)
def wfAvlLpddrTest (m : Master) (i x : Nat) (_force _pass : Bool) : Bool := masterOk m && decide (i < 16) && decide (x < 2 ^ 24)
def wfAvlCyustLane (m : Master) (i t : Nat) (_force : Bool) : Bool := masterOk m && decide (i < 16) && decide (t < 2 ^ 24)
def wfAvlCyustLoop (m : Master) (i t : Nat) (_force : Bool) : Bool := masterOk m && decide (i < 16) && decide (t < 2 ^ 24)
def wfAvlCancel (m : Master) (i : Nat) : Bool := masterOk m && decide (i < 16)
def wfDeferredRequestRun (i : Nat) : Bool := decide (i < 16)
def wfErrlogEntry : Bool := true
def wfErrRingWrite (m : Master) (_v : W64) : Bool := masterOk m
def wfPerstDeassert (p : Nat) : Bool := decide (p < 2)
def wfHostLinkUp (p speed width : Nat) : Bool := decide (p < 2) && decide (1 ≤ speed) && decide (speed ≤ 5) && [1, 2, 4, 8, 16].contains width
def wfHostConfigWrite (p : Nat) (w : HostCfg) : Bool := decide (p < 2) && hostCfgOk w
def wfLoadWindowWrite (p x : Nat) (data : List Byte) : Bool := decide (p < 2) && decide (0 < data.length) && decide (x + data.length ≤ 2 ^ 25)
def wfLaneBlockLockGained (l : Nat) : Bool := decide (l < 16)
def wfLaneTxTransfer (l : Nat) : Bool := decide (l < 16)

/-- Well-formedness of a command. -/
def Instr.wf : Instr → Bool
  | .coldReset => wfColdReset
  | .pwrGoodRise => wfPwrGoodRise
  | .vinLoss v us => wfVinLoss v us
  | .devResetNPulse ns => wfDevResetNPulse ns
  | .deviceResetRelease f => wfDeviceResetRelease f
  | .computeUp => wfComputeUp
  | .cyrefMissing => wfCyrefMissing
  | .cyrefAppear f => wfCyrefAppear f
  | .vccioApplied r level strap => wfVccioApplied r level strap
  | .bankSupplyLost r => wfBankSupplyLost r
  | .cablePresentChange p on => wfCablePresentChange p on
  | .csrWrite m o n v => wfCsrWrite m o n v
  | .readClearCounter m o n => wfReadClearCounter m o n
  | .hourglassUpdate rs => wfHourglassUpdate rs
  | .hgCalDone => wfHgCalDone
  | .paceCfgWrite m v => wfPaceCfgWrite m v
  | .pacePeriodWrite m v => wfPacePeriodWrite m v
  | .paceFloorTargetWrite m v => wfPaceFloorTargetWrite m v
  | .paceOvrBaseWrite m v => wfPaceOvrBaseWrite m v
  | .paceInEdge high ts hold => wfPaceInEdge high ts hold
  | .paceSourceLost => wfPaceSourceLost
  | .glintFire => wfGlintFire
  | .paceMarkerReceive p k => wfPaceMarkerReceive p k
  | .keepAliveSend => wfKeepAliveSend
  | .keepAliveReceive p k => wfKeepAliveReceive p k
  | .paceMasterChange => wfPaceMasterChange
  | .paceStateRequestRetry => wfPaceStateRequestRetry
  | .paceStateRequest src => wfPaceStateRequest src
  | .paceStateAnswer slot term => wfPaceStateAnswer slot term
  | .emptyBeat u => wfEmptyBeat u
  | .nop u p sl => wfNop u p sl
  | .add u p rd ra rb => wfAdd u p rd ra rb
  | .sub u p rd ra rb => wfSub u p rd ra rb
  | .and u p rd ra rb => wfAnd u p rd ra rb
  | .or u p rd ra rb => wfOr u p rd ra rb
  | .xor u p rd ra rb => wfXor u p rd ra rb
  | .sll u p rd ra rb => wfSll u p rd ra rb
  | .srl u p rd ra rb => wfSrl u p rd ra rb
  | .sra u p rd ra rb => wfSra u p rd ra rb
  | .mul u p rd ra rb => wfMul u p rd ra rb
  | .mulhu u p rd ra rb => wfMulhu u p rd ra rb
  | .min u p rd ra rb => wfMin u p rd ra rb
  | .max u p rd ra rb => wfMax u p rd ra rb
  | .minu u p rd ra rb => wfMinu u p rd ra rb
  | .maxu u p rd ra rb => wfMaxu u p rd ra rb
  | .addi u p rd ra imm => wfAddi u p rd ra imm
  | .andi u p rd ra imm => wfAndi u p rd ra imm
  | .ori u p rd ra imm => wfOri u p rd ra imm
  | .xori u p rd ra imm => wfXori u p rd ra imm
  | .slli u p rd ra sh => wfSlli u p rd ra sh
  | .srli u p rd ra sh => wfSrli u p rd ra sh
  | .srai u p rd ra sh => wfSrai u p rd ra sh
  | .movi u p rd imm => wfMovi u p rd imm
  | .movk u p rd hw imm => wfMovk u p rd hw imm
  | .cmp u p pd cc ra rb => wfCmp u p pd cc ra rb
  | .pand u p pd pa pb => wfPand u p pd pa pb
  | .por u p pd pa pb => wfPor u p pd pa pb
  | .pxor u p pd pa pb => wfPxor u p pd pa pb
  | .pandn u p pd pa pb => wfPandn u p pd pa pb
  | .rds u p rd sel => wfRds u p rd sel
  | .br u p target => wfBr u p target
  | .call u p target => wfCall u p target
  | .ret u p => wfRet u p
  | .eret u p => wfEret u p
  | .loop u p ra stop => wfLoop u p ra stop
  | .loopi u p count stop => wfLoopi u p count stop
  | .repi u p ra => wfRepi u p ra
  | .repii u p n => wfRepii u p n
  | .repiStall u => wfRepiStall u
  | .vadd u p t vd va vb => wfVadd u p t vd va vb
  | .vsub u p t vd va vb => wfVsub u p t vd va vb
  | .vmul u p t vd va vb => wfVmul u p t vd va vb
  | .vfma u p t vd va vb => wfVfma u p t vd va vb
  | .vmin u p t vd va vb => wfVmin u p t vd va vb
  | .vmax u p t vd va vb => wfVmax u p t vd va vb
  | .vand u p t vd va vb => wfVand u p t vd va vb
  | .vor u p t vd va vb => wfVor u p t vd va vb
  | .vxor u p t vd va vb => wfVxor u p t vd va vb
  | .vshl u p t vd va vb => wfVshl u p t vd va vb
  | .vshr u p t vd va vb arith => wfVshr u p t vd va vb arith
  | .vcmp u p t pd cc va vb => wfVcmp u p t pd cc va vb
  | .vcmac u p vd va vb => wfVcmac u p vd va vb
  | .vconv u p t d vd va sat h => wfVconv u p t d vd va sat h
  | .vred u p t vd va op => wfVred u p t vd va op
  | .vperm u p t vd va vb => wfVperm u p t vd va vb
  | .vbcast u p t vd ra => wfVbcast u p t vd ra
  | .vext u p t rd va idx => wfVext u p t rd va idx
  | .vmov u p t vd va => wfVmov u p t vd va
  | .vspecSearch u p t vd va vb least accum => wfVspecSearch u p t vd va vb least accum
  | .vspecTap u p t vd va vb k => wfVspecTap u p t vd va vb k
  | .vecResultWrite tag => wfVecResultWrite tag
  | .mm u p e dd => wfMm u p e dd
  | .smOpen u p ch dd => wfSmOpen u p ch dd
  | .smClose u p ch => wfSmClose u p ch
  | .smRd u p pd vd ch => wfSmRd u p pd vd ch
  | .smRds u p pd rd ch => wfSmRds u p pd rd ch
  | .smWr u p va ch => wfSmWr u p va ch
  | .smWrs u p ra ch => wfSmWrs u p ra ch
  | .smSave u p ch dd => wfSmSave u p ch dd
  | .ldB u p rd ra imm => wfLdB u p rd ra imm
  | .ldH u p rd ra imm => wfLdH u p rd ra imm
  | .ldW u p rd ra imm => wfLdW u p rd ra imm
  | .ldD u p rd ra imm => wfLdD u p rd ra imm
  | .ldBs u p rd ra imm => wfLdBs u p rd ra imm
  | .ldHs u p rd ra imm => wfLdHs u p rd ra imm
  | .ldWs u p rd ra imm => wfLdWs u p rd ra imm
  | .ldV u p vd ra imm => wfLdV u p vd ra imm
  | .ldDsc u p dd ra imm => wfLdDsc u p dd ra imm
  | .stB u p rs ra imm => wfStB u p rs ra imm
  | .stH u p rs ra imm => wfStH u p rs ra imm
  | .stW u p rs ra imm => wfStW u p rs ra imm
  | .stD u p rs ra imm => wfStD u p rs ra imm
  | .stV u p vs ra imm => wfStV u p vs ra imm
  | .stDsc u p ds ra imm => wfStDsc u p ds ra imm
  | .syncAdd u p rd ra rb => wfSyncAdd u p rd ra rb
  | .syncSet u p rd ra rb => wfSyncSet u p rd ra rb
  | .syncWait u p rd ra rb => wfSyncWait u p rd ra rb
  | .syncTest u p pd ra rb => wfSyncTest u p pd ra rb
  | .lockAcq u p rd ra => wfLockAcq u p rd ra
  | .lockRel u p ra => wfLockRel u p ra
  | .mbxSend u p rd ra rb => wfMbxSend u p rd ra rb
  | .mbxWdraw u p rd ra => wfMbxWdraw u p rd ra
  | .qSubmit u p rd ra vb => wfQSubmit u p rd ra vb
  | .qTake u p pd vd ra => wfQTake u p pd vd ra
  | .evtWait u p => wfEvtWait u p
  | .evtSend u p ctx => wfEvtSend u p ctx
  | .glintWaitNext u p => wfGlintWaitNext u p
  | .glintWaitAlign u p => wfGlintWaitAlign u p
  | .boundary u p => wfBoundary u p
  | .halt u p => wfHalt u p
  | .fault u p imm => wfFault u p imm
  | .fpRd u p rd port => wfFpRd u p rd port
  | .fpWr u p ra port => wfFpWr u p ra port
  | .fpFlush u p port => wfFpFlush u p port
  | .fpMark u p port imm => wfFpMark u p port imm
  | .svPrst u p ra => wfSvPrst u p ra
  | .svSres u p ra rb => wfSvSres u p ra rb
  | .svPsw u p ra vb => wfSvPsw u p ra vb
  | .loadReturn tag => wfLoadReturn tag
  | .storeAck tag => wfStoreAck tag
  | .trapTake u c => wfTrapTake u c
  | .haltReq m u c => wfHaltReq m u c
  | .resume m u c => wfResume m u c
  | .stepCtx m u c => wfStepCtx m u c
  | .setSoft m u c => wfSetSoft m u c
  | .plotReset m p start => wfPlotReset m p start
  | .plotStart m p => wfPlotStart m p
  | .plotFaultSettle p => wfPlotFaultSettle p
  | .epochStart m => wfEpochStart m
  | .epochEnd m => wfEpochEnd m
  | .epochTimeout p => wfEpochTimeout p
  | .epochHalted => wfEpochHalted
  | .epochDrained => wfEpochDrained
  | .epochSparesMoved => wfEpochSparesMoved
  | .engineCommandStart u e => wfEngineCommandStart u e
  | .engineCommandComplete u e active stalls early => wfEngineCommandComplete u e active stalls early
  | .enginePoison u e => wfEnginePoison u e
  | .bankOwnerWrite m u b code => wfBankOwnerWrite m u b code
  | .bankHandover u b => wfBankHandover u b
  | .eccRewrite phys word => wfEccRewrite phys word
  | .sieveDue phys => wfSieveDue phys
  | .sieveRegionStart phys => wfSieveRegionStart phys
  | .sieveRegionEnd phys bad => wfSieveRegionEnd phys bad
  | .scrubDue phys upsets => wfScrubDue phys upsets
  | .scrubRow phys => wfScrubRow phys
  | .channelRequestIssue u ch => wfChannelRequestIssue u ch
  | .streamReadResponse tag => wfStreamReadResponse tag
  | .streamWriteAck tag => wfStreamWriteAck tag
  | .segmentPublish u ch => wfSegmentPublish u ch
  | .streamComplete u ch => wfStreamComplete u ch
  | .channelCloseDone u ch => wfChannelCloseDone u ch
  | .rateSample => wfRateSample
  | .streamStall u ch => wfStreamStall u ch
  | .spillPageTake u ch => wfSpillPageTake u ch
  | .spillPageReturn u ch => wfSpillPageReturn u ch
  | .atsTranslationCompletion p page write base pages rd wr => wfAtsTranslationCompletion p page write base pages rd wr
  | .pageResponse p page resp => wfPageResponse p page resp
  | .atsInvalidate p page pages => wfAtsInvalidate p page pages
  | .hostMemoryRead tag part => wfHostMemoryRead tag part
  | .hostMemoryWrite tag part => wfHostMemoryWrite tag part
  | .hostReadCompletion tag part data => wfHostReadCompletion tag part data
  | .streamTokenSend u ch => wfStreamTokenSend u ch
  | .streamTokenArrive u port link => wfStreamTokenArrive u port link
  | .streamCreditReturn u ch => wfStreamCreditReturn u ch
  | .fenceMarkerReceive u ch => wfFenceMarkerReceive u ch
  | .packetForward h port out what => wfPacketForward h port out what
  | .packetPortRequest tag part => wfPacketPortRequest tag part
  | .eventPacket => wfEventPacket
  | .doorbellPacket => wfDoorbellPacket
  | .blockWakeRequest b vc req => wfBlockWakeRequest b vc req
  | .blockWakeComplete b => wfBlockWakeComplete b
  | .wakeTimeout b vc => wfWakeTimeout b vc
  | .ltnCfgWrite m p v => wfLtnCfgWrite m p v
  | .ltnRingWrite m p v => wfLtnRingWrite m p v
  | .syncObjectAdd src => wfSyncObjectAdd src
  | .syncObjectSet src => wfSyncObjectSet src
  | .syncObjectWait src => wfSyncObjectWait src
  | .syncObjectTest src => wfSyncObjectTest src
  | .syncWake tag => wfSyncWake tag
  | .syncWaitRetry tag => wfSyncWaitRetry tag
  | .syncValueWrite m i v => wfSyncValueWrite m i v
  | .syncCtrlWrite m i plot owned open_ => wfSyncCtrlWrite m i plot owned open_
  | .lockRead src => wfLockRead src
  | .lockReleaseWrite src => wfLockReleaseWrite src
  | .lockForce m i => wfLockForce m i
  | .mbxSendDeliver tag => wfMbxSendDeliver tag
  | .mbxWithdraw tag => wfMbxWithdraw tag
  | .mbxReserve m j => wfMbxReserve m j
  | .mbxClaim m j => wfMbxClaim m j
  | .mbxPortSend m j db len => wfMbxPortSend m j db len
  | .mbxPortFree m j => wfMbxPortFree m j
  | .mbxPortWdraw m j => wfMbxPortWdraw m j
  | .mbxPortCancel m j => wfMbxPortCancel m j
  | .mbxReserveLapse j => wfMbxReserveLapse j
  | .mbxDbWrite m j clear mask => wfMbxDbWrite m j clear mask
  | .queueSubmit src => wfQueueSubmit src
  | .queueEntryVisible q => wfQueueEntryVisible q
  | .queueTake tag host => wfQueueTake tag host
  | .qHeadWrite m q head => wfQHeadWrite m q head
  | .qCfgWrite m q v => wfQCfgWrite m q v
  | .lmcRead q b => wfLmcRead q b
  | .lmcWrite q b => wfLmcWrite q b
  | .stripeWrite stripe lost => wfStripeWrite stripe lost
  | .reinstate m x pass => wfReinstate m x pass
  | .channelRebuildStripe x b => wfChannelRebuildStripe x b
  | .lpddrTrainingDone bad => wfLpddrTrainingDone bad
  | .lpddrInitDone => wfLpddrInitDone
  | .retrainDue i => wfRetrainDue i
  | .retrainStart i => wfRetrainStart i
  | .retrainEnd i ok => wfRetrainEnd i ok
  | .patrolScrubStripe b => wfPatrolScrubStripe b
  | .bar4Read p x n b => wfBar4Read p x n b
  | .bar4Write p x data b => wfBar4Write p x data b
  | .lmcWinWrite m p base => wfLmcWinWrite m p base
  | .cellNop i => wfCellNop i
  | .cellAdd i => wfCellAdd i
  | .cellSub i => wfCellSub i
  | .cellAnd i => wfCellAnd i
  | .cellOr i => wfCellOr i
  | .cellXor i => wfCellXor i
  | .cellShl i => wfCellShl i
  | .cellShr i => wfCellShr i
  | .cellSra i => wfCellSra i
  | .cellCmpeq i => wfCellCmpeq i
  | .cellCmplt i => wfCellCmplt i
  | .cellCmpltu i => wfCellCmpltu i
  | .cellSel i => wfCellSel i
  | .cellMulu i => wfCellMulu i
  | .cellMuls i => wfCellMuls i
  | .cellMov i => wfCellMov i
  | .memoryBlockAccess r b q ecc => wfMemoryBlockAccess r b q ecc
  | .loamWindowAccess tag part ecc => wfLoamWindowAccess tag part ecc
  | .hostifLwinDataRead m p ecc => wfHostifLwinDataRead m p ecc
  | .hostifLwinDataWrite m p v => wfHostifLwinDataWrite m p v
  | .fabricRxWord r p => wfFabricRxWord r p
  | .fabricRxScratchWrite r p => wfFabricRxScratchWrite r p
  | .fabricRxScratchRead r p => wfFabricRxScratchRead r p
  | .fabricPortCode r p => wfFabricPortCode r p
  | .ioInputToken r i v => wfIoInputToken r i v
  | .ioOutputStart r i => wfIoOutputStart r i
  | .ioOutputTokenEnd r i => wfIoOutputTokenEnd r i
  | .ioDelaySwap r => wfIoDelaySwap r
  | .ioClockLost r c => wfIoClockLost r c
  | .ioClockReturn r c => wfIoClockReturn r c
  | .laneRxTransfer l c d => wfLaneRxTransfer l c d
  | .laneTxUnderrun l => wfLaneTxUnderrun l
  | .laneAdaptDone l preset => wfLaneAdaptDone l preset
  | .laneLockLost l cdr => wfLaneLockLost l cdr
  | .prbsLockChange l lock errs => wfPrbsLockChange l lock errs
  | .inject m l => wfInject m l
  | .periodicInjection l => wfPeriodicInjection l
  | .loadVerify m => wfLoadVerify m
  | .loadCommit m => wfLoadCommit m
  | .loadStart m => wfLoadStart m
  | .loadAbort m => wfLoadAbort m
  | .loadUnload m => wfLoadUnload m
  | .loadForward m k => wfLoadForward m k
  | .verifyComplete => wfVerifyComplete
  | .loadHoldExpired => wfLoadHoldExpired
  | .commitAtSlot => wfCommitAtSlot
  | .commitPoint => wfCommitPoint
  | .releaseStart => wfReleaseStart
  | .releaseStep => wfReleaseStep
  | .loadDeadline => wfLoadDeadline
  | .loadDeadlineWrite m v => wfLoadDeadlineWrite m v
  | .forwardResult st code => wfForwardResult st code
  | .loadForwardFail => wfLoadForwardFail
  | .perstAssert p flr => wfPerstAssert p flr
  | .portCfgReady p => wfPortCfgReady p
  | .hostLinkDown p => wfHostLinkDown p
  | .claim p => wfClaim p
  | .standby p => wfStandby p
  | .withdraw p => wfWithdraw p
  | .release p => wfRelease p
  | .handOver p => wfHandOver p
  | .ownerBeat p => wfOwnerBeat p
  | .heartbeatLapse => wfHeartbeatLapse
  | .msixUnmask p vec => wfMsixUnmask p vec
  | .cyustPortEnable m p on => wfCyustPortEnable m p on
  | .cyustTrainingAttempt p => wfCyustTrainingAttempt p
  | .cyustTrainingDone p delay ok bad => wfCyustTrainingDone p delay ok bad
  | .cyustIdBlock p i far => wfCyustIdBlock p i far
  | .blockLockAcquired p heads marks => wfBlockLockAcquired p heads marks
  | .blockLockLost p heads => wfBlockLockLost p heads
  | .cyustPortDown p lost => wfCyustPortDown p lost
  | .portDownNotice i far => wfPortDownNotice i far
  | .remoteTimeout tag part => wfRemoteTimeout tag part
  | .cyustUncorrectableCodeword p cw errs => wfCyustUncorrectableCodeword p cw errs
  | .cyustReplayRequest p cw => wfCyustReplayRequest p cw
  | .cyustCreditBlock p c => wfCyustCreditBlock p c
  | .cyustPktBlock p cls k => wfCyustPktBlock p cls k
  | .cyustStrmBlock p src dst rlink stamp data bad last spill => wfCyustStrmBlock p src dst rlink stamp data bad last spill
  | .gatewayTokenOut row => wfGatewayTokenOut row
  | .cyustDelayBlock p delay err corr off figs => wfCyustDelayBlock p delay err corr off figs
  | .cyustLaneSwap p l on => wfCyustLaneSwap p l on
  | .cyustCalibrationRotation p => wfCyustCalibrationRotation p
  | .cyustLaneSpared p l => wfCyustLaneSpared p l
  | .cyustIdleEntry p => wfCyustIdleEntry p
  | .cyustIdleExit p => wfCyustIdleExit p
  | .cyustFarLoopbackRequest p => wfCyustFarLoopbackRequest p
  | .cyustLoopWrite m p v => wfCyustLoopWrite m p v
  | .retrain m p => wfRetrain m p
  | .cyustTopoWrite m v => wfCyustTopoWrite m v
  | .cyustRtWrite m i v => wfCyustRtWrite m i v
  | .mcWatchdog => wfMcWatchdog
  | .mcHeartbeat => wfMcHeartbeat
  | .devLiveDrop => wfDevLiveDrop
  | .getInfo q tag body => wfGetInfo q tag body
  | .getCerts q tag body => wfGetCerts q tag body
  | .getMeasurements q tag body => wfGetMeasurements q tag body
  | .stageWrite q tag body => wfStageWrite q tag body
  | .loadCmd q tag body => wfLoadCmd q tag body
  | .mbxOp q tag body => wfMbxOp q tag body
  | .csrRead q tag body => wfCsrRead q tag body
  | .fwUpdate q tag body cut => wfFwUpdate q tag body cut
  | .fwCommitSvn q tag body => wfFwCommitSvn q tag body
  | .ccSwitch q tag body => wfCcSwitch q tag body
  | .resetCompute q tag body => wfResetCompute q tag body
  | .mcRestart q tag body => wfMcRestart q tag body
  | .setOwner q tag body => wfSetOwner q tag body
  | .clearOwner q tag body => wfClearOwner q tag body
  | .debugUnlock q tag body => wfDebugUnlock q tag body
  | .setEndpointId eid => wfSetEndpointId eid
  | .getEndpointId => wfGetEndpointId
  | .getMctpVersionSupport => wfGetMctpVersionSupport
  | .getMessageTypeSupport => wfGetMessageTypeSupport
  | .getVendorDefinedMessageSupport => wfGetVendorDefinedMessageSupport
  | .getTid => wfGetTid
  | .setTid tid => wfSetTid tid
  | .getPldmVersion => wfGetPldmVersion
  | .getPldmTypes => wfGetPldmTypes
  | .getPldmCommands => wfGetPldmCommands
  | .getPdr h => wfGetPdr h
  | .getSensorReading id => wfGetSensorReading id
  | .getStateSensorReadings id => wfGetStateSensorReadings id
  | .getNumericEffecterValue => wfGetNumericEffecterValue
  | .setNumericEffecterValue v => wfSetNumericEffecterValue v
  | .setStateEffecterStates st => wfSetStateEffecterStates st
  | .setEventReceiver a => wfSetEventReceiver a
  | .stateSensorEvent id => wfStateSensorEvent id
  | .sidebandError => wfSidebandError
  | .bypass => wfBypass
  | .samplePreload v => wfSamplePreload v
  | .extest => wfExtest
  | .clamp => wfClamp
  | .highz => wfHighz
  | .doeDiscovery p i => wfDoeDiscovery p i
  | .governorStep power vneed est avs => wfGovernorStep power vneed est avs
  | .avsRetry ok => wfAvsRetry ok
  | .pwrLimitWrite m v => wfPwrLimitWrite m v
  | .boostCreditTick => wfBoostCreditTick
  | .boostSave => wfBoostSave
  | .thermalSample ts => wfThermalSample ts
  | .thermalTrip i => wfThermalTrip i
  | .pwrShadeWrite m v => wfPwrShadeWrite m v
  | .plotShaded p => wfPlotShaded p
  | .blockRegate b => wfBlockRegate b
  | .telemetrySample powerMs rails => wfTelemetrySample powerMs rails
  | .telemRingWrite m v => wfTelemRingWrite m v
  | .hgRecalDue ok => wfHgRecalDue ok
  | .coreTestDue ph => wfCoreTestDue ph
  | .coreTestStepDone f => wfCoreTestStepDone f
  | .coreTestStop ph => wfCoreTestStop ph
  | .spareRotationDue g => wfSpareRotationDue g
  | .avlCoreTest m i n force => wfAvlCoreTest m i n force
  | .avlPcoreTest m i ph force => wfAvlPcoreTest m i ph force
  | .avlRetire m i ph => wfAvlRetire m i ph
  | .avlHgCal m i h => wfAvlHgCal m i h
  | .avlLpddrRetrain m i x => wfAvlLpddrRetrain m i x
  | .avlLpddrTest m i x force pass => wfAvlLpddrTest m i x force pass
  | .avlCyustLane m i t force => wfAvlCyustLane m i t force
  | .avlCyustLoop m i t force => wfAvlCyustLoop m i t force
  | .avlCancel m i => wfAvlCancel m i
  | .deferredRequestRun i => wfDeferredRequestRun i
  | .errlogEntry => wfErrlogEntry
  | .errRingWrite m v => wfErrRingWrite m v
  | .perstDeassert p => wfPerstDeassert p
  | .hostLinkUp p speed width => wfHostLinkUp p speed width
  | .hostConfigWrite p w => wfHostConfigWrite p w
  | .loadWindowWrite p x data => wfLoadWindowWrite p x data
  | .laneBlockLockGained l => wfLaneBlockLockGained l
  | .laneTxTransfer l => wfLaneTxTransfer l

end Sys2Proof
end

