-- ==== Sys2Proof/Machine/Ops.lean ====
section
/-!
DEFINITION. The named operations on the state that every family uses: registers of the CSR file, local memory and LPDDR5X
contents, contexts and their registers, plots and the placement of logical cores, the error log on its way, free values.
-/
namespace Sys2Proof.Machine
open Sys2Proof

/-- What a meaning answers. -/
abbrev Res := Host.Outcome State Fault Refusal

/-- A meaning: a well-formed command has its effect, another stops with `noSuchUnit`. -/
def runIf (wf : Bool) (s : State) : Res := if wf then .next s else .fault .noSuchUnit

/-! ### The CSR file (R9, R13, R38) -/

/-- What is left of an offset after the indices of a repeated register are taken out of it. -/
def matchDims : Nat → List (Nat × Nat) → Option Nat
  | d, [] => some d
  | d, (st, n) :: r => if d / st < n then matchDims (d % st) r else none

/-- The 64-bit word of register `r` at CSR offset `off`. -/
def regWord (off : Nat) (r : RegDef) : Option Nat :=
  if r.base ≤ off then
    match matchDims (off - r.base) r.dims with
    | some rem => if rem < 8 * r.words && rem % 8 = 0 then some (rem / 8) else none
    | none => none
  else none

/-- The register at a CSR offset, with the word of it. -/
def regAt (off : Nat) : Option (RegDef × Nat) :=
  regTable.findSome? fun r => (regWord off r).map fun w => (r, w)

/-- Reset value of word `w` of a register. -/
def resetOfWord (fs : List FldDef) (w : Nat) : Nat :=
  fs.foldr (fun f acc => if f.lo / 64 = w then acc + f.reset * 2 ^ (f.lo % 64) else acc) 0

/-- The reset value of the register word at a CSR offset (0 where there is no register, R11). -/
def resetWord (off : Nat) : W64 :=
  match regAt off with
  | some (r, w) => BitVec.ofNat 64 (resetOfWord r.fields w)
  | none => 0

/-- The reset domain of the register at an offset. -/
def domainAt (off : Nat) : Option Domain := (regAt off).map (·.1.dom)

/-- The register word stored at `off`. -/
def rget (s : State) (off : Nat) : W64 := mget (resetWord off) s.csr off

/-- Store a register word. -/
def rset (s : State) (off : Nat) (v : W64) : State := { s with csr := mset (resetWord off) s.csr off v }

/-- A field of the register at `reg`. -/
def fld (s : State) (reg : Nat) (f : Fld) : Nat := fget (rget s (reg + 8 * f.word)) f

/-- A one-bit field as a Bool. -/
def flag (s : State) (reg : Nat) (f : Fld) : Bool := decide (fld s reg f = 1)

/-- Set a field of the register at `reg`. -/
def setFld (s : State) (reg : Nat) (f : Fld) (x : Nat) : State :=
  rset s (reg + 8 * f.word) (fset (rget s (reg + 8 * f.word)) f x)

/-- Raise a field by `n`, wrapping. -/
def bumpFld (s : State) (reg : Nat) (f : Fld) (n : Nat) : State := setFld s reg f (fld s reg f + n)

/-- Raise a field by `n`, saturating. -/
def satFld (s : State) (reg : Nat) (f : Fld) (n : Nat) : State := setFld s reg f (satAdd f.width (fld s reg f) n)

/-- Or `x` into a field. -/
def orFld (s : State) (reg : Nat) (f : Fld) (x : Nat) : State := setFld s reg f (fld s reg f ||| x)

/-- Every register of the domains in `ds` takes its reset value, where `p` holds of its offset. -/
def resetRegs (ds : List Domain) (p : Nat → Bool) (s : State) : State :=
  { s with csr := mkeep (fun off => !(p off && ((domainAt off).any fun d => ds.contains d))) s.csr }

/-- A table of the Shadow map has changed (R568). -/
def shadowGen (s : State) : State := bumpFld s SHADOW_GEN SHADOW_GEN_GEN 1

/-! ### Time and free values -/

/-- `PACE_TIME`: pace time in units of 100 ps (R64). -/
def paceTime (s : State) : Nat := ((s.now : Int) + s.pace.timeOff).toNat

/-- Draw a free value: nothing is known of it. -/
def freshValue (s : State) : W64 × State := (Config.freeValue s.free, { s with free := s.free + 1 })
/-- `n` free bytes. -/
def freshBytes (n : Nat) (s : State) : List Byte × State :=
  ((List.range n).map fun i => BitVec.ofNat 8 ((Config.freeValue (s.free + i / 8)).toNat / 256 ^ (i % 8)), { s with free := s.free + (n + 7) / 8 })

/-- Time passes until pace time is at least `t`: a command of a time-driven row stands for the instant its rule names. -/
def advanceTo (t : Nat) (s : State) : State :=
  if paceTime s < t then { s with now := ((t : Int) - s.pace.timeOff).toNat } else s

/-- Pace time at which work last due at `last` is due again; work that was off meanwhile is due now (R264). -/
def nextDue (s : State) (last step : Nat) : Nat := if paceTime s < last + 2 * step then last + step else paceTime s

/-- Telemetry counter `i` rises by `n`; counters are 64 bits and wrap (R554). -/
def bumpCtr (i n : Nat) (s : State) : State :=
  { s with pwr := { s.pwr with ctr := mset 0 s.pwr.ctr i ((mget 0 s.pwr.ctr i + n) % 2 ^ 64) } }

/-- Send a message out of the device. -/
def emit (o : Output) (s : State) : State := { s with out := o :: s.out }

/-! ### Placement (R19–R25) -/

def rowOf (n : Nat) : Nat := n / 128
def colOf (n : Nat) : Nat := n % 128
/-- The group that serves logical core `n` (R21). -/
def groupOf (n : Nat) : Nat := colOf n * 8 + rowOf n / 25
/-- The designated shaded core of a group, by physical index (R563: 25 after reset). -/
def spareOf (s : State) (g : Nat) : Nat := mget 25 s.avl.spare g
/-- The physical index that serves logical index `i` when `sp` is shaded (R21). -/
def physIndex (sp i : Nat) : Nat := if i < sp then i else i + 1
/-- The physical row of index `i` of group `g` (R20). -/
def prowOf (g i : Nat) : Nat := 26 * (g % 8) + i
/-- The physical core, prow × 128 + column, that serves logical core `n` (R21, R22). -/
def physOf (s : State) (n : Nat) : Nat :=
  prowOf (groupOf n) (physIndex (spareOf s (groupOf n)) (rowOf n % 25)) * 128 + colOf n
/-- Whether the position of logical core `n` is absent: a retired core that the spare does not cover serves it (R24). -/
def absentCore (s : State) (n : Nat) : Bool :=
  (mget [] s.avl.absent (groupOf n)).contains (physIndex (spareOf s (groupOf n)) (rowOf n % 25))
/-- Presented columns of an engine of a physical core: 8, 7 or 0 (R560). -/
def engineWidth (s : State) (phys e : Nat) : Nat :=
  let b := mget 0 s.avl.bypass (phys * 2 + e)
  if b = 0 then 8 else if b < 16 then 7 else 0
/-- The core lies on the array's border (R17). -/
def borderCore (n : Nat) : Bool :=
  decide (rowOf n = 0) || decide (rowOf n = 199) || decide (colOf n = 0) || decide (colOf n = 127)
/-- The core has a fabric port on edge 0 north, 1 east, 2 south, 3 west. -/
def hasEdge (n port : Nat) : Bool :=
  match port with
  | 0 => decide (rowOf n = 0)
  | 1 => decide (colOf n = 127)
  | 2 => decide (rowOf n = 199)
  | 3 => decide (colOf n = 0)
  | _ => false
/-- A unit is a control processor. -/
def isCp (u : Nat) : Bool := decide (nCores ≤ u)

/-! ### Plots (R26) -/

def plotValid (s : State) (p : Nat) : Bool := flag s (PLOT_CFG p) PLOT_CFG_VALID
/-- Logical core `n` lies in the rectangle of plot `p`. -/
def inRect (s : State) (p n : Nat) : Bool :=
  let r := PLOT_CFG p
  decide (fld s r PLOT_CFG_ROW0 ≤ rowOf n) && decide (rowOf n < fld s r PLOT_CFG_ROW0 + fld s r PLOT_CFG_HEIGHT) &&
  decide (fld s r PLOT_CFG_COL0 ≤ colOf n) && decide (colOf n < fld s r PLOT_CFG_COL0 + fld s r PLOT_CFG_WIDTH)
/-- Logical core `n` belongs to committed plot `p`. -/
def inPlot (s : State) (p n : Nat) : Bool := plotValid s p && inRect s p n
/-- The committed plot of a logical core. -/
def plotOf (s : State) (n : Nat) : Option Nat :=
  if nCores ≤ n then none else (List.range 64).find? fun p => inPlot s p n
/-- Count `n` under counter `i` of a unit's plot (R554). -/
def plotCtr (u i n : Nat) (s : State) : State :=
  match plotOf s u with
  | some p => bumpCtr (3584 + 8 * p + i) n s
  | none => s
/-- Bump counters `base + f` for the flags `f` set in `flags`. -/
def flagCtrs (base flags : Nat) (s : State) : State :=
  (List.range 5).foldl (fun s f => if Nat.testBit flags f then bumpCtr (base + f) 1 s else s) s
/-- The class of a core in the vector counters (R554). -/
def vecClass (s : State) (u : Nat) : Nat :=
  (if borderCore u then 2 else 0) + fld s (CORE_CFG u) CORE_CFG_SPECIAL % 2
/-- The 4 × 4 block of a physical core (R47). -/
def blockOf (phys : Nat) : Nat := phys / 128 / 4 * 32 + phys % 128 / 4
/-- Bytes counted in KiB by telemetry counter `i`: parts of a KiB are kept under `4096 + i`. -/
def bumpKib (i n : Nat) (s : State) : State :=
  let t := mget 0 s.pwr.ctr (4096 + i) + n
  bumpCtr i (t / 1024) { s with pwr := { s.pwr with ctr := mset 0 s.pwr.ctr (4096 + i) (t % 1024) } }
/-- The source ID of a unit (R39). -/
def srcOf (u : Nat) : Nat := if isCp u then 0x10 + (u - nCores) else 0x8000 + u
/-- The source ID of a master (R39). -/
def srcOfMaster : Master → Nat
  | .host p => 1 + p
  | .mc => 3
  | .sideBand => 4
  | .unit u _ => srcOf u
  | .loader => 0x21
/-- The owning host, if any (R475). -/
def ownerHost (s : State) : Option Nat :=
  match fld s HOSTIF_OWNER HOSTIF_OWNER_OWNER with
  | 1 => some 0
  | 2 => some 1
  | _ => none
/-- The standby host, if any. -/
def standbyHost (s : State) : Option Nat :=
  match fld s HOSTIF_OWNER HOSTIF_OWNER_STANDBY with
  | 1 => some 0
  | 2 => some 1
  | _ => none
/-- The master is a supervisor: a control processor (R100). -/
def isSupervisor : Master → Bool
  | .unit u _ => isCp u
  | _ => false
/-- The master is the owning host. -/
def isOwner (s : State) : Master → Bool
  | .host p => decide (ownerHost s = some p)
  | _ => false
/-- A supervisor, the MC or the owning host: the masters that most blocks let write (R81, R329 and others). -/
def mayAdmin (s : State) (m : Master) : Bool := isSupervisor m || decide (m = .mc) || isOwner s m

/-! ### The error log on its way (R14, R39, R573, R596) -/

/-- The class of a code where its rule states none (R573), and the classes stated in earlier chapters. -/
def classOf (code : Nat) : ErrClass :=
  if [0x0605, 0x0606, 0x0608, 0x060A, 0x060B, 0x0901, 0x0902, 0x0905, 0x0906, 0x0907, 0x0908, 0x0A04, 0x0B01, 0x0B02, 0x0B04,
      0x0B05, 0x0B06, 0x0B08, 0x0C05, 0x0C06, 0x0C07].contains code then .corrected
  else if code = 0x0604 ∨ code = 0x0607 ∨ code = 0x0609 then .deferred
  else if [0x0C08, 0x0A0E, 0x0B03].contains code then .fatal
  else .notice

/-- An error-log entry of unit `src` sets out for the ERRLOG block. -/
def logAs (cls : ErrClass) (code src : Nat) (plot : Option Nat) (info : Nat) (s : State) : State :=
  { s with log := { s.log with inFlight := s.log.inFlight ++
      [{ time := paceTime s, code := code, src := src, cls := cls, plot := plot, info := BitVec.ofNat 64 info,
         slot := fld s PACE_SLOT PACE_SLOT_SLOT }] } }

/-- An error-log entry in the class of its code. -/
def logErr (code src : Nat) (plot : Option Nat) (info : Nat) (s : State) : State :=
  logAs (classOf code) code src plot info s

/-- The window of R596 for a code and scope is open: fewer than 1,000 Glints and less than 10 ms since the logged entry. -/
def windowOpen (s : State) (code scope : Nat) : Bool :=
  s.log.windows.any fun w => decide (w.code = code) && decide (w.scope = scope) &&
    decide (s.log.glints < w.glints + 1000) && decide (paceTime s < w.time + 100000000)

/-- Log at most once per 1,000 slots within a scope (R596). -/
def logLimited (code scope src : Nat) (plot : Option Nat) (info : Nat) (s : State) : State :=
  if windowOpen s code scope then s
  else
    let s := logErr code src plot info s
    { s with log := { s.log with windows :=
        ⟨code, scope, s.log.glints, paceTime s⟩ ::
          (s.log.windows.filter (fun w => !(decide (w.code = code) && decide (w.scope = scope)))) } }

/-! ### Contexts and their registers (R98, R124) -/

def ctxKey (u c : Nat) : Nat := u * 8 + c
def ctx (s : State) (u c : Nat) : Ctx := mget Ctx.unloaded s.core.ctxs (ctxKey u c)
def setCtx (s : State) (u c : Nat) (x : Ctx) : State :=
  { s with core := { s.core with ctxs := mset Ctx.unloaded s.core.ctxs (ctxKey u c) x } }
/-- Change a context. -/
def updCtx (s : State) (u c : Nat) (f : Ctx → Ctx) : State := setCtx s u c (f (ctx s u c))

/-- s0 reads 0 (R98). -/
def sr (x : Ctx) (r : Nat) : W64 := if r = 0 then 0 else mget 0 x.sreg r
/-- p0 reads all ones (R98). -/
def pr (x : Ctx) (r : Nat) : W64 := if r = 0 then BitVec.allOnes 64 else mget 0 x.preg r
def vr (x : Ctx) (r : Nat) : W512 := mget 0 x.vreg r
def dr (x : Ctx) (r : Nat) : W512 := mget 0 x.dreg r
/-- A write to s0 is discarded (R98, R124). -/
def setS (x : Ctx) (r : Nat) (v : W64) : Ctx := if r = 0 then x else { x with sreg := mset 0 x.sreg r v }
def setP (x : Ctx) (r : Nat) (v : W64) : Ctx := if r = 0 then x else { x with preg := mset 0 x.preg r v }
def setV (x : Ctx) (r : Nat) (v : W512) : Ctx := { x with vreg := mset 0 x.vreg r v }
def setD (x : Ctx) (r : Nat) (v : W512) : Ctx := { x with dreg := mset 0 x.dreg r v }
/-- A predicate as a scalar condition: bit 0 (R98). -/
def predTrue (x : Ctx) (p : Nat) : Bool := bit1 (pr x p) 0
/-- All ones or zero (R125). -/
def boolWord (b : Bool) : W64 := if b then BitVec.allOnes 64 else 0

/-- The privilege states of R100. -/
inductive Priv where
  | user | border | supervisor
  deriving DecidableEq, Repr

/-- The privilege of a context (R100, R101). -/
def privOf (s : State) (u c : Nat) : Priv :=
  if isCp u then .supervisor
  else if borderCore u && Nat.testBit (fld s (CORE_CFG u) CORE_CFG_BPRIV) c then .border
  else .user

/-- A hold with reason EVENT ends when an enabled event is pending (R115). -/
def eventWake (x : Ctx) : Ctx :=
  if x.hold = .event ∧ (x.pend &&& x.en) ≠ 0 then
    { x with hold := .none, st := if x.st = .waiting then .ready else x.st, reason := if x.st = .waiting then 0 else x.reason }
  else x
/-- Set event bits of a context (R113): bit 0 OVR, 1 NUM, 2 STREAM, 3 SOFT. -/
def setPend (s : State) (u c bit : Nat) : State :=
  updCtx s u c fun x => eventWake { x with pend := x.pend ||| (1#4 <<< bit) }

/-! ### Memory contents -/

/-- The byte at a key; an unlisted byte reads 0 (R258 clears scratch and Silt; LPDDR5X is zero-filled, R393). -/
def memByte (m : Mem) (a : Nat) : Byte := mget 0 m a
def memBytes (m : Mem) (a : Nat) : Nat → List Byte
  | 0 => []
  | n + 1 => memByte m a :: memBytes m (a + 1) n
def memStore (m : Mem) (a : Nat) : List Byte → Mem
  | [] => m
  | b :: bs => memStore (mset 0 m a b) (a + 1) bs
/-- The canonical form of a memory. -/
def memWf (m : Mem) : Bool := mwf (0 : Byte) m

end Sys2Proof.Machine
end

