-- ==== Sys2Proof/Machine/LocalMem.lean ====
section
/-!
DEFINITION. Scratch and Silt (chapter 9): keys of local memory, reads that find single-bit and uncorrectable errors
(R253–R256), stores with the poison rules (R257), bank ownership (R240, R241).
-/
namespace Sys2Proof.Machine
open Sys2Proof

/-- The key of local address `a` (R197) of a physical core; control processors have numbers past the physical cores. -/
def locKey (phys a : Nat) : Nat := phys * 2 ^ 20 + a
/-- The physical core behind a unit. -/
def physUnit (s : State) (u : Nat) : Nat := if isCp u then 26624 + (u - nCores) else physOf s u
/-- The device address of local address `a` of logical core `n` (R33). -/
def devOfLocal (n a : Nat) : Nat :=
  if a < 0x80000 then 2 * 2 ^ 48 + n * 0x10000 + a else 2 ^ 48 + n * 0x80000 + (a - 0x80000)

/-- The words (keys div 8) that bytes `[k, k + n)` lie in. -/
def wordsOf (k n : Nat) : List Nat :=
  if n = 0 then [] else (List.range ((k + n - 1) / 8 + 1 - k / 8)).map (k / 8 + ·)

def locPoisoned (s : State) (w : Nat) : Bool := mget false s.mem.locPoison w
def latentAt (s : State) (w : Nat) : Nat := mget 0 s.mem.latent w

/-- Mark a word poisoned, or not. -/
def setLocPoison (s : State) (w : Nat) (b : Bool) : State :=
  { s with mem := { s.mem with locPoison := mset false s.mem.locPoison w b } }
def setLatent (s : State) (w n : Nat) : State := { s with mem := { s.mem with latent := mset 0 s.mem.latent w n } }

/-- What Sieve occupies on a physical core while it holds a region: the bank, or the four sub-banks of the die, as local address
and length (R250, R259). -/
def sieveZone (s : State) (phys : Nat) : Option (Nat × Nat) :=
  match mget 0 s.avl.sieveHold phys with
  | 0 => none
  | r + 1 => some (if r < 256 then (r / 16 * 0x1000, 0x1000) else (0x80000 + (r - 256) / 512 * 0x20000, 0x20000))
/-- An access to the `n` bytes from key `k` must wait until Sieve lets go of their bank (R250). -/
def sieveHolds (s : State) (k n : Nat) : Bool :=
  decide (0 < n) && (sieveZone s (k / 2 ^ 20)).any fun z => overlaps (k % 2 ^ 20) n z.1 z.2

/-- The logical core a physical core's memory counters are kept under: the one it serves; none for a shaded core. -/
def logicalOf (s : State) (phys : Nat) : Option Nat :=
  let prow := phys / 128
  let g := (phys % 128) * 8 + prow / 26
  let i := prow % 26
  let sp := spareOf s g
  if i = sp then none
  else some (((prow / 26) * 25 + (if i < sp then i else i - 1)) * 128 + phys % 128)

/-- What a read does to one word it touches: a single-bit error is corrected, counted and queued for rewriting (R254); an
uncorrectable one is poisoned, counted, recorded and logged with 0x0604 (R255). -/
def touchWord (n : Nat) (s : State) (w : Nat) : State :=
  let a := 8 * w % 2 ^ 20
  match latentAt s w with
  | 0 => s
  | 1 =>
    let s := satFld s (MEM_ECC n) MEM_ECC_CORR 1
    { s with mem := { s.mem with rewrites := mset false s.mem.rewrites w true } }
  | _ =>
    if locPoisoned s w then s
    else
      let s := setLocPoison s w true
      let s := satFld s (MEM_ECC n) MEM_ECC_POISONED 1
      let s := if flag s (MEM_ECC_LOC n) MEM_ECC_LOC_VALID then s
        else setFld (setFld s (MEM_ECC_LOC n) MEM_ECC_LOC_LOCAL a) (MEM_ECC_LOC n) MEM_ECC_LOC_VALID 1
      logErr 0x0604 (srcOf n) (plotOf s n) (devOfLocal n a) s

/-- Read effects over a byte range. -/
def touchRange (n k len : Nat) (s : State) : State := (wordsOf k len).foldl (touchWord n) s

/-- The first poisoned word of a byte range. -/
def firstPoison (s : State) (k len : Nat) : Option Nat := (wordsOf k len).find? fun w => locPoisoned s w

/-- The words that a store of bytes `[k, k + n)` covers whole. -/
def coversWord (k n w : Nat) : Bool := decide (k ≤ 8 * w) && decide (8 * w + 8 ≤ k + n)

/-- Store bytes: a poisoned word not covered whole keeps its bytes, one covered whole is cleared (R257); fresh check bits. -/
def storeRaw : Mem → NMap Bool → Nat → Nat → Nat → List Byte → Mem
  | m, _, _, _, _, [] => m
  | m, pz, k0, n, k, b :: bs =>
    storeRaw (if mget false pz (k / 8) && !coversWord k0 n (k / 8) then m else mset 0 m k b) pz k0 n (k + 1) bs

/-- A store to local memory of logical core `n` (keys start at `k`); partial words merge, and the merge reads the word
(R253). -/
def locStore (n k : Nat) (data : List Byte) (s : State) : State :=
  let len := data.length
  let partWords := (wordsOf k len).filter fun w => !coversWord k len w
  let s := partWords.foldl (touchWord n) s
  let s := { s with mem := { s.mem with loc := storeRaw s.mem.loc s.mem.locPoison k len k data } }
  (wordsOf k len).foldl (fun s w =>
    if coversWord k len w then
      let s := setLatent (setLocPoison s w false) w 0
      { s with mem := { s.mem with rewrites := mset false s.mem.rewrites w false } }
    else if locPoisoned s w then s
    else { (setLatent s w 0) with mem := { (setLatent s w 0).mem with rewrites := mset false s.mem.rewrites w false } }) s

/-- Bytes of local memory. -/
def locBytes (s : State) (k n : Nat) : List Byte := memBytes s.mem.loc k n

/-- Owner codes of the scratch banks: 0 context group, 1–4 feeders, 5–8 channels, 9 fabric port, 10 packet port. -/
def bankOwner (s : State) (n b : Nat) : Nat := fld s (BANK_OWNER n b) BANK_OWNER_OWNER

/-- The lowest scratch offset in `[a, a + n)` (local addresses) that lies in a bank whose owner is not `who`. -/
def bankDenied (s : State) (core who a n : Nat) : Option Nat :=
  if 0x80000 ≤ a || n = 0 then none
  else
    ((List.range 16).filter fun b =>
        overlaps a n (b * 0x1000) 0x1000 && !decide (bankOwner s core b = who)).head?.map fun b => max a (b * 0x1000)

end Sys2Proof.Machine
end

