-- ==== Sys2Proof/Machine/DevMem.lean ====
section
/-!
DEFINITION. Memory by device address (R33–R36): which addresses exist, which block serves them, and reads and writes of
LPDDR5X and of the scratch and Silt of logical cores. Other spaces are reached through their own blocks.
-/
namespace Sys2Proof.Machine
open Sys2Proof

def selOf (a : Nat) : Nat := a / 2 ^ 48
def offOf (a : Nat) : Nat := a % 2 ^ 48
def lpddrSize : Nat := 960 * 2 ^ 30

/-- Selector of local LPDDR5X: 0x00, or 0x40 plus this module's own index (R36). -/
def isLocalDram (s : State) (sel : Nat) : Bool :=
  decide (sel = 0) || decide (sel = 0x40 + fld s CYUST_TOPO CYUST_TOPO_MODULE)

/-- The size of a space, `none` for an unlisted selector (R33). -/
def spaceSize (sel : Nat) : Option Nat :=
  if sel = 0 then some lpddrSize
  else if sel = 1 then some (nCores * 2 ^ 19)
  else if sel = 2 then some (nCores * 2 ^ 16)
  else if sel = 3 then some 0x7400000
  else if sel = 4 then some (4 * 2 ^ 20)
  else if sel = 8 || sel = 9 then some (2 ^ 48)
  else if 0x40 ≤ sel && sel ≤ 0x7F then some lpddrSize
  else none

/-- The logical core that holds a Silt, scratch or core-page offset, if the space is one of those. -/
def homeCore (a : Nat) : Option Nat :=
  match selOf a with
  | 1 => some (offOf a / 2 ^ 19)
  | 2 => some (offOf a / 2 ^ 16)
  | 3 => if 0x1000000 ≤ offOf a then some ((offOf a - 0x1000000) / 0x1000) else none
  | _ => none

/-- R35: every byte of `[a, a + n)` is mapped: a listed selector, within its space, not of an absent core. -/
def mapped (s : State) (a n : Nat) : Bool :=
  decide (a < 2 ^ 56) &&
  (match spaceSize (selOf a) with
   | none => false
   | some z => decide (offOf a + n ≤ z)) &&
  (match homeCore a, homeCore (a + (n - 1)) with
   | some x, some y => !absentCore s x && !absentCore s y
   | _, _ => true)

/-- Local address (R197) of a Silt or scratch device address. -/
def localOf (a : Nat) : Nat := if selOf a = 1 then 0x80000 + offOf a % 2 ^ 19 else offOf a % 2 ^ 16

/-- The parts of `[a, a + n)` that stay within one unit of `g` bytes (R382 for 64; 2^16 or 2^19 for a core's memory). -/
def splitAt : Nat → Nat → Nat → Nat → List (Nat × Nat)
  | 0, _, _, _ => []
  | fuel + 1, g, a, n =>
    if n = 0 then []
    else
      let k := min n (g - a % g)
      (a, k) :: splitAt fuel g (a + k) (n - k)

/-- Split an access as its space does. -/
def partsOf (s : State) (a n : Nat) : List (Nat × Nat) :=
  if isLocalDram s (selOf a) || decide (0x40 ≤ selOf a) then splitAt 10 64 a n
  else if selOf a = 1 then splitAt 3 (2 ^ 19) a n
  else if selOf a = 2 then splitAt 3 (2 ^ 16) a n
  else [(a, n)]

/-! ### LPDDR5X contents (R381, R384, R387–R391) -/

/-- The map of R381, of a usable offset: stripe, data chunk, pair, stripe within the pair. -/
def lpStripe (o : Nat) : Nat := o / 960
def lpChunk (o : Nat) : Nat := o % 960 / 64
def lpPair (o : Nat) : Nat := lpStripe o % 4
def lpT (o : Nat) : Nat := lpStripe o / 4
/-- Channel of a pair that holds data chunk `c` of stripe `t`; its parity channel is `t mod 16`. -/
def lpCh (t c : Nat) : Nat := (t % 16 + 1 + c) % 16
/-- Channel 8i + l of the device that is channel `ch` of pair `k`. -/
def devCh (k ch : Nat) : Nat := 16 * k + ch
/-- Channel 8i + l that holds offset `o`. -/
def lpDevCh (o : Nat) : Nat := devCh (lpPair o) (lpCh (lpT o) (lpChunk o))
def chReg (x : Nat) : Nat := LMC_CH (x / 8) (x % 8)
/-- `LMC_CH.STATE` of channel 8i + l. -/
def chState (s : State) (x : Nat) : Nat := fld s (chReg x) LMC_CH_STATE
/-- Chunks of the channel at stripe `t` of its pair are not read from it (R389, R391). -/
def chStale (s : State) (x t : Nat) : Bool :=
  decide (chState s x = 2) || (decide (chState s x = 3) && decide (fld s (chReg x) LMC_CH_REBUILD_POS ≤ t))
def pairFailed (s : State) (k : Nat) : Bool := Nat.testBit (fld s LMC_STATUS LMC_STATUS_PAIR_FAILED) k

/-- Key of the parity byte that covers offset `o`: stripe × 64 + byte of the burst. -/
def parityKey (o : Nat) : Nat := o / 960 * 64 + o % 64
/-- The XOR of the other data bytes under the same parity byte, and that byte (R387). -/
def rebuilt (m : MemSt) (o : Nat) : Byte :=
  (List.range 15).foldl (fun (x : Byte) c =>
    if c = lpChunk o then x else x ^^^ memByte m.dram (lpStripe o * 960 + c * 64 + o % 64)) (memByte m.parity (parityKey o))
/-- Data at offsets `[o, o + n)` of one chunk. -/
def chunkData (s : State) (o n : Nat) : List Byte :=
  if chStale s (lpDevCh o) (lpT o) && !pairFailed s (lpPair o) then (List.range n).map fun i => rebuilt s.mem (o + i)
  else memBytes s.mem.dram o n
/-- Data at any offsets. -/
def dramRead (s : State) (o n : Nat) : List Byte :=
  (splitAt (n / 64 + 2) 64 o n).flatMap fun p => chunkData s p.1 p.2

def dramListed (s : State) (o : Nat) : Bool := mget false s.mem.dramPoison (o / 64)
/-- A chunk that reads as poisoned: listed (R388), or on a degraded channel of a failed pair (R390). -/
def dramPoisoned (s : State) (o : Nat) : Bool :=
  dramListed s o || (pairFailed s (lpPair o) && chStale s (lpDevCh o) (lpT o))

/-- Words of `[o, o + n)` that answer as poisoned: those of a poisoned chunk, and those marked by their writer. -/
def dramBadWords (s : State) (o n : Nat) : List Nat :=
  (wordsOf o n).filter fun w => dramPoisoned s (8 * w) || mget false s.mem.dramBad w

/-- Set or clear the marks of the words that a write covers; a write of part of a marked word leaves the mark. -/
def markDram (o n : Nat) (bad : List Nat) (s : State) : State :=
  (wordsOf o n).foldl (fun s w =>
    if bad.any (fun i => decide ((o + i) / 8 = w)) then
      { s with mem := { s.mem with dramBad := mset false s.mem.dramBad w true } }
    else if coversWord o n w then
      { s with mem := { s.mem with dramBad := mset false s.mem.dramBad w false } }
    else s) s

/-- Store bytes of one chunk: `stale` chunks change by their parity alone unless `cell`; `par`: parity is kept (R384, R389–R391). -/
def storeChunk (stale cell par : Bool) (m : MemSt) : Nat → List Byte → MemSt
  | _, [] => m
  | o, b :: bs =>
    let old := if stale then rebuilt m o else memByte m.dram o
    storeChunk stale cell par { m with
      parity := if par then mset 0 m.parity (parityKey o) (memByte m.parity (parityKey o) ^^^ old ^^^ b) else m.parity
      dram := if cell then mset 0 m.dram o b else m.dram } (o + 1) bs
/-- Parity of the stripe of `o`, as its 15 data chunks stand in their channels (R384, R388). -/
def stripeParity (m : MemSt) (o : Nat) : MemSt :=
  let base := lpStripe o * 960
  { m with parity := (List.range 64).foldl (fun p i =>
      mset 0 p (lpStripe o * 64 + i)
        ((List.range 15).foldl (fun (x : Byte) c => x ^^^ memByte m.dram (base + c * 64 + i)) 0)) m.parity }
/-- Parity of the stripe of `o` from the new bytes `d` of its chunk and the other 14 chunks as stored: the chunk may stand on a channel
that is not written (R388, R389). -/
def chunkParity (m : MemSt) (o : Nat) (d : List Byte) : MemSt :=
  { m with parity := stripeParity { m with dram := memStore m.dram (o / 64 * 64) d } o |>.parity }

/-- The loader holds the staging area (R435), and `o` lies in it (R434). -/
def stageLocked (s : State) (o : Nat) : Bool :=
  let st := fld s LOAD_STATUS LOAD_STATUS_STATE
  let base := fld s LOAD_STAGE LOAD_STAGE_BASE * 4096
  (decide (1 ≤ st ∧ st ≤ 5) || decide (st = 8)) && decide (base ≤ o) &&
    decide (o < base + max 1 (fld s LOAD_STAGE LOAD_STAGE_SIZE) * 2 ^ 30)
/-- A write to the locked staging area is discarded; the first of a load is logged (R435). -/
def stageRefuse (s : State) : State :=
  if s.load.stageLogged then s else logErr 0x0713 0x21 none 0 { s with load := { s.load with stageLogged := true } }

/-- A write within one 64 B chunk: one of a whole chunk clears a poison-list entry and has the parity recomputed, a shorter
one into a listed chunk is discarded (R388); on a degraded channel the parity alone changes, and nothing in a failed pair
(R389, R390). -/
def dramWrite (o : Nat) (data : List Byte) (bad : List Nat) (s : State) : State :=
  let whole := decide (o % 64 = 0) && decide (data.length = 64)
  let x := lpDevCh o
  let stale := chStale s x (lpT o)
  let failed := pairFailed s (lpPair o)
  let par := !failed && decide (chState s (devCh (lpPair o) (lpT o % 16)) ≠ 2)
  if stageLocked s o then stageRefuse s
  else if dramListed s o && !whole || stale && failed then s
  else
    let m := storeChunk stale (decide (chState s x ≠ 2)) par s.mem o data
    let m := if dramListed s o && par then chunkParity m o data else m
    markDram o data.length bad { s with mem := { m with dramPoison := mset false m.dramPoison (o / 64) false } }

/-- A write of any length, part by part. -/
def dramWriteAll (o : Nat) (data : List Byte) (s : State) : State :=
  (splitAt (data.length / 64 + 2) 64 o data.length).foldl
    (fun s p => dramWrite p.1 ((data.drop (p.1 - o)).take p.2) [] s) s

/-! ### The scratch and Silt behind a device address -/

/-- Key of local memory of a Silt or scratch device address. -/
def homeKey (s : State) (a : Nat) : Nat := locKey (physUnit s ((homeCore a).getD 0)) (localOf a)

/-- Device addresses of the poisoned words among local bytes `[k, k + n)` whose first byte has device address `a`. -/
def badOf (s : State) (a k n : Nat) : List Nat :=
  ((wordsOf k n).filter fun w => locPoisoned s w).map fun w => a / 8 * 8 + 8 * (w - k / 8)

/-- Read local memory of core `n` by key, with the effects of its check bits: the answer, and the state after. -/
def locRead (n a k len : Nat) (s : State) : Answer × State :=
  let s := touchRange n k len s
  (.bytes (locBytes s k len) (badOf s a k len), s)

/-- Mark the words of a local store that carry poison (offsets into the data). -/
def markLoc (k : Nat) (bad : List Nat) (s : State) : State :=
  bad.foldl (fun s i => setLocPoison s ((k + i) / 8) true) s

end Sys2Proof.Machine
end

