-- ==== Sys2Proof/Machine/Float.lean ====
section
/-!
DEFINITION. Number formats (chapter 5): what an encoding of an element, scale, BF16 or FP32 stands for, exact arithmetic on
those values, and the one rounding of R166–R168. A value is kept exactly, as sign × m × 2^e, until it is rounded once.
-/
namespace Sys2Proof.Machine
open Sys2Proof

/-- A number of the device: NaN, an infinity, or (−1)^neg × m × 2^e (m = 0 is a zero that keeps its sign, R151). -/
inductive FVal where
  | nan
  | inf (neg : Bool)
  | fin (neg : Bool) (m : Nat) (e : Int)
  deriving DecidableEq, Repr

/-- The exception flags that an operation raises: INV, OVF, UNF, INX (R134, R217). -/
structure FFlags where
  inv : Bool
  ovf : Bool
  unf : Bool
  inx : Bool
  deriving DecidableEq, Repr

/-- No flag. -/
def noFlags : FFlags := ⟨false, false, false, false⟩

/-- Both operations' flags. -/
def orFlags (a b : FFlags) : FFlags := ⟨a.inv || b.inv, a.ovf || b.ovf, a.unf || b.unf, a.inx || b.inx⟩

/-- All the flags of a list of operations. -/
def orAll : List FFlags → FFlags
  | [] => noFlags
  | f :: fs => orFlags f (orAll fs)

/-- A floating-point layout of R149: exponent bits, mantissa bits, bias, and what the all-ones exponent means:
infinities and NaN (`hasInf`), one NaN per sign at M all ones (`e4m3`), or neither. -/
structure Fmt where
  ebits  : Nat
  mbits  : Nat
  bias   : Nat
  hasInf : Bool
  e4m3   : Bool
  deriving DecidableEq, Repr

def fmtE2M1 : Fmt := ⟨2, 1, 1, false, false⟩
def fmtE2M3 : Fmt := ⟨2, 3, 1, false, false⟩
def fmtE3M2 : Fmt := ⟨3, 2, 3, false, false⟩
def fmtE4M3 : Fmt := ⟨4, 3, 7, false, true⟩
def fmtE5M2 : Fmt := ⟨5, 2, 15, true, false⟩
def fmtBF16 : Fmt := ⟨8, 7, 127, true, false⟩
def fmtFP32 : Fmt := ⟨8, 23, 127, true, false⟩

/-- Whether the format has a NaN element (R149). -/
def Fmt.hasNaN (f : Fmt) : Bool := f.hasInf || f.e4m3
/-- Bits of an element. -/
def Fmt.width (f : Fmt) : Nat := 1 + f.ebits + f.mbits
/-- Exponent of the smallest normal value. -/
def Fmt.emin (f : Fmt) : Int := 1 - (f.bias : Int)
/-- Exponent of the largest binade (after R150). -/
def Fmt.emax (f : Fmt) : Int :=
  (2 ^ f.ebits - 1 : Int) - (if f.hasInf then 1 else 0) - (f.bias : Int)
/-- The largest finite mantissa with its hidden bit: all ones, or one less for E4M3 (448). -/
def Fmt.maxMant (f : Fmt) : Nat := 2 ^ (f.mbits + 1) - 1 - (if f.e4m3 then 1 else 0)
/-- The largest finite value. -/
def Fmt.maxVal (f : Fmt) (neg : Bool) : FVal := .fin neg f.maxMant (f.emax - (f.mbits : Int))

/-- The value of an encoding (R150, with the NaN and infinity encodings of R149). -/
def decodeF (f : Fmt) (x : Nat) : FVal :=
  let m := x % 2 ^ f.mbits
  let e := (x / 2 ^ f.mbits) % 2 ^ f.ebits
  let neg := decide ((x / 2 ^ (f.mbits + f.ebits)) % 2 = 1)
  if f.hasInf && decide (e = 2 ^ f.ebits - 1) then (if m = 0 then .inf neg else .nan)
  else if f.e4m3 && decide (e = 2 ^ f.ebits - 1) && decide (m = 2 ^ f.mbits - 1) then .nan
  else if e = 0 then .fin neg m (f.emin - (f.mbits : Int))
  else .fin neg (2 ^ f.mbits + m) ((e : Int) - (f.bias : Int) - (f.mbits : Int))

/-- The canonical NaN of R152: exponent all ones, top mantissa bit (all mantissa bits for E4M3), sign clear. -/
def canonNaN (f : Fmt) : Nat :=
  (2 ^ f.ebits - 1) * 2 ^ f.mbits + (if f.e4m3 then 2 ^ f.mbits - 1 else 2 ^ (f.mbits - 1))

/-- `⌊log2 (n / d)⌋` of a positive fraction. -/
def floorLog2 (n d : Nat) : Int :=
  let k : Int := (Nat.log2 n : Int) - (Nat.log2 d : Int)
  if (if 0 ≤ k then d * 2 ^ k.toNat ≤ n else d ≤ n * 2 ^ (-k).toNat) then k else k - 1

/-- A dyadic magnitude m × 2^e as a fraction. -/
def dyNum (m : Nat) (e : Int) : Nat := m * 2 ^ e.toNat
def dyDen (e : Int) : Nat := 2 ^ (-e).toNat

/-- `n / d` rounded to the nearest integer, ties to even (R166), and whether it was inexact. -/
def rne (n d : Nat) : Nat × Bool :=
  let r := n / d
  let t := n % d
  let up := decide (d < 2 * t) || (decide (2 * t = d) && decide (r % 2 = 1))
  (if up then r + 1 else r, decide (t ≠ 0))

/-- R168 `round_fmt`: the magnitude n / d in units of 2^(e − mbits), e the larger of its binade and `emin`;
answers the rounded mantissa, the exponent of its unit and whether it is inexact. -/
def roundMag (mbits : Nat) (emin : Int) (n d : Nat) : Nat × Int × Bool :=
  if n = 0 then (0, emin - (mbits : Int), false)
  else
    let e := max (floorLog2 n d) emin
    let u := e - (mbits : Int)
    let (r, inx) := rne (n * 2 ^ (-u).toNat) (d * 2 ^ u.toNat)
    (r, u, inx)

/-- Whether m × 2^e exceeds m' × 2^e' (both magnitudes). -/
def dyLt (m' : Nat) (e' : Int) (m : Nat) (e : Int) : Bool :=
  let k := min e e'
  decide (m' * 2 ^ (e' - k).toNat < m * 2 ^ (e - k).toNat)

/-- R168 `convert` for a floating format: the magnitude n / d with sign `neg`. -/
def convertMag (f : Fmt) (sat ftz neg : Bool) (n d : Nat) : FVal × FFlags :=
  let (r, u, inx) := roundMag f.mbits f.emin n d
  if dyLt f.maxMant (f.emax - (f.mbits : Int)) r u then
    (if f.hasInf && !sat then .inf neg else f.maxVal neg, ⟨false, true, false, true⟩)
  else
    let tiny := decide (n ≠ 0) &&
      (if 0 ≤ f.emin then decide (n < d * 2 ^ f.emin.toNat) else decide (n * 2 ^ (-f.emin).toNat < d))
    if tiny && ftz then (.fin neg 0 f.emin, ⟨false, false, true, true⟩)
    else (.fin neg r u, ⟨false, false, tiny && inx, inx⟩)

/-- R168 `convert` of an exact value to floating format `f`. -/
def convertF (f : Fmt) (sat ftz : Bool) : FVal → FVal × FFlags
  | .nan => (.nan, noFlags)
  | .inf neg =>
    if f.hasInf && !sat then (.inf neg, noFlags) else (f.maxVal neg, ⟨false, true, false, false⟩)
  | .fin neg m e => convertMag f sat ftz neg (dyNum m e) (dyDen e)

/-- The encoding of a value that `f` can hold; a NaN is written canonical (R152). -/
def encodeF (f : Fmt) : FVal → Nat
  | .nan => canonNaN f
  | .inf neg => b2n neg * 2 ^ (f.ebits + f.mbits) + (2 ^ f.ebits - 1) * 2 ^ f.mbits
  | .fin neg m e =>
    let s := b2n neg * 2 ^ (f.ebits + f.mbits)
    if m = 0 then s
    else
      let (r, u, _) := roundMag f.mbits f.emin (dyNum m e) (dyDen e)
      if r < 2 ^ f.mbits then s + r
      else if r = 2 ^ (f.mbits + 1) then s + (u + 1 + (f.mbits : Int) + (f.bias : Int)).toNat * 2 ^ f.mbits
      else s + (u + (f.mbits : Int) + (f.bias : Int)).toNat * 2 ^ f.mbits + (r - 2 ^ f.mbits)

/-- Negation (exact, keeps NaN). -/
def negF : FVal → FVal
  | .nan => .nan
  | .inf n => .inf (!n)
  | .fin n m e => .fin (!n) m e

/-- The exact product; 0 × ∞ is invalid (R227). -/
def mulF : FVal → FVal → FVal × Bool
  | .nan, _ => (.nan, false)
  | _, .nan => (.nan, false)
  | .inf a, .inf b => (.inf (xor a b), false)
  | .inf a, .fin b m _ => if m = 0 then (.nan, true) else (.inf (xor a b), false)
  | .fin a m _, .inf b => if m = 0 then (.nan, true) else (.inf (xor a b), false)
  | .fin a m e, .fin b m' e' => (.fin (xor a b) (m * m') (e + e'), false)

/-- The exact sum; ∞ − ∞ is invalid, an exact zero of unlike terms is +0 (R227). -/
def addF : FVal → FVal → FVal × Bool
  | .nan, _ => (.nan, false)
  | _, .nan => (.nan, false)
  | .inf a, .inf b => if a = b then (.inf a, false) else (.nan, true)
  | .inf a, .fin _ _ _ => (.inf a, false)
  | .fin _ _ _, .inf b => (.inf b, false)
  | .fin a m e, .fin b m' e' =>
    let k := min e e'
    let x : Int := (if a then -1 else 1) * (m * 2 ^ (e - k).toNat : Nat)
    let y : Int := (if b then -1 else 1) * (m' * 2 ^ (e' - k).toNat : Nat)
    let z := x + y
    if z = 0 then (.fin (a && b) 0 k, false) else (.fin (decide (z < 0)) z.natAbs k, false)

/-- The value as a signed integer count of 2^k, for comparing two finite values. -/
def scaled (k : Int) (neg : Bool) (m : Nat) (e : Int) : Int :=
  (if neg then -1 else 1) * (m * 2 ^ (e - k).toNat : Nat)

/-- `a < b` as numbers; false with a NaN (+0 and −0 compare equal, R151). -/
def ltF : FVal → FVal → Bool
  | .nan, _ => false
  | _, .nan => false
  | .inf a, .inf b => a && !b
  | .inf a, .fin _ _ _ => a
  | .fin _ _ _, .inf b => !b
  | .fin a m e, .fin b m' e' => decide (scaled (min e e') a m e < scaled (min e e') b m' e')

/-- `a = b` as numbers; false with a NaN. -/
def eqF : FVal → FVal → Bool
  | .nan, _ => false
  | _, .nan => false
  | a, b => !ltF a b && !ltF b a

/-- Whether a value is NaN. -/
def isNaN : FVal → Bool
  | .nan => true
  | _ => false

/-- The sign of a value (NaN: clear). -/
def signF : FVal → Bool
  | .nan => false
  | .inf n => n
  | .fin n _ _ => n

/-- Round an exact result once to `f`, infinities on overflow (R166, R227): encoding and flags. -/
def roundEnc (f : Fmt) (v : FVal) (inv : Bool) : Nat × FFlags :=
  let (w, fl) := convertF f false false v
  (encodeF f w, { fl with inv := inv })

/-- Floating add, subtract, multiply, fused multiply-add of encodings in format `f`, each rounded once (R227). -/
def faddE (f : Fmt) (a b : Nat) : Nat × FFlags :=
  let r := addF (decodeF f a) (decodeF f b)
  roundEnc f r.1 r.2
def fsubE (f : Fmt) (a b : Nat) : Nat × FFlags :=
  let r := addF (decodeF f a) (negF (decodeF f b))
  roundEnc f r.1 r.2
def fmulE (f : Fmt) (a b : Nat) : Nat × FFlags :=
  let r := mulF (decodeF f a) (decodeF f b)
  roundEnc f r.1 r.2
def ffmaE (f : Fmt) (a b c : Nat) : Nat × FFlags :=
  let p := mulF (decodeF f a) (decodeF f b)
  let r := addF p.1 (decodeF f c)
  roundEnc f r.1 (p.2 || r.2)

/-- The exact value of an integer. -/
def ofIntF (x : Int) : FVal := .fin (decide (x < 0)) x.natAbs 0

/-- A value rounded to the nearest integer, ties to even, narrowed to a signed `w`-bit integer with saturation; INV for a
NaN (which gives 0) or a rounded value out of range, otherwise INX when inexact (R232). -/
def toIntSat (w : Nat) : FVal → Int × FFlags
  | .nan => (0, ⟨true, false, false, false⟩)
  | .inf neg => (if neg then -(2 ^ (w - 1) : Int) else 2 ^ (w - 1) - 1, ⟨true, false, false, false⟩)
  | .fin neg m e =>
    let (r, inx) := rne (dyNum m e) (dyDen e)
    let x : Int := if neg then -(r : Int) else (r : Int)
    if x < -(2 ^ (w - 1) : Int) then (-(2 ^ (w - 1) : Int), ⟨true, false, false, false⟩)
    else if (2 ^ (w - 1) : Int) ≤ x then (2 ^ (w - 1) - 1, ⟨true, false, false, false⟩)
    else (x, ⟨false, false, false, inx⟩)

end Sys2Proof.Machine
end

