-- ==== Sys2Proof/Machine/Matrix.lean ====
section
/-!
DEFINITION. Matrix commands (chapters 5–7): the descriptor and its checks, shapes, the exact block sums and the wide
accumulator, drain stages, output conversion and quantiser, and what one command writes, raises and captures.
-/
namespace Sys2Proof.Machine
open Sys2Proof

/-! ### The descriptor (R196, R197) -/

/-- Field `[lo + w - 1 : lo]` of 64-bit word `i` of a descriptor. -/
def dw (d : W512) (i lo w : Nat) : Nat := bitsOf d (64 * i + lo) w

def dFmtA (d : W512) : Nat := dw d 0 0 4
def dFmtB (d : W512) : Nat := dw d 0 4 4
def dFmtC (d : W512) : Nat := dw d 0 8 4
def dDsm (d : W512) : Nat := dw d 0 12 2
def dSat (d : W512) : Bool := decide (dw d 0 14 1 = 1)
def dFtz (d : W512) : Bool := decide (dw d 0 15 1 = 1)
def dFlow (d : W512) : Nat := dw d 0 16 1
def dShape (d : W512) : Nat := dw d 0 17 3
def dAuto (d : W512) : Bool := decide (dw d 0 20 1 = 1)
def dCinit (d : W512) : Bool := decide (dw d 0 21 1 = 1)
def dSyncEn (d : W512) : Bool := decide (dw d 0 22 1 = 1)
def dCols (d : W512) : Nat := dw d 0 24 4
def dSyncObj (d : W512) : Nat := dw d 0 32 16
def dM (d : W512) : Nat := dw d 1 0 16
def dN (d : W512) : Nat := dw d 1 16 16
def dK (d : W512) : Nat := dw d 1 32 25
def dCoarse (d : W512) : Nat := dw d 7 0 32

/-- Codes 0x0–0x5 are the MX formats (R148). -/
def isMx (f : Nat) : Bool := decide (f ≤ 5)
/-- Element width in bits (R148). -/
def elemBits (f : Nat) : Nat :=
  match f with
  | 0 => 4
  | 1 => 6
  | 2 => 6
  | 6 => 16
  | 7 => 32
  | _ => 8
/-- Lanes of a cell per beat (R176). -/
def lanesL (f : Nat) : Nat :=
  match f with
  | 0 => 4
  | 6 => 1
  | _ => 2
/-- The floating format of an element code; MXINT8 (0x5) is handled apart. -/
def elemFmt (f : Nat) : Fmt :=
  match f with
  | 0 => fmtE2M1
  | 1 => fmtE2M3
  | 2 => fmtE3M2
  | 3 => fmtE4M3
  | 4 => fmtE5M2
  | 6 => fmtBF16
  | _ => fmtFP32
/-- The value of an element (R150, R153). -/
def elemVal (f x : Nat) : FVal :=
  if f = 5 then .fin (decide (sgn 8 x < 0)) (sgn 8 x).natAbs (-6) else decodeF (elemFmt f) x

/-- Blocks of 32 (R157, R198). -/
def blocks (k : Nat) : Nat := (k + 31) / 32
/-- Bytes of a row of `k` elements: block fields for MX formats, elements otherwise (R157, R159). -/
def rowBytes (f k : Nat) : Nat := if isMx f then blocks k * (4 * elemBits f) else k * (elemBits f / 8)

/-- A span of local addresses that a command reads or writes, and the owner code it needs in scratch (R185). -/
structure Span where
  base : Nat
  len  : Nat
  who  : Nat
  deriving DecidableEq, Repr

/-- `n` items of `len` bytes from `base` at `stride`; empty when there are none. -/
def spanOf (base stride n len who : Nat) : List Span :=
  if n = 0 || len = 0 then [] else [⟨base, (n - 1) * stride + len, who⟩]

/-- The ranges a command reads: A, its scales, B, its scales, C_init, drain scales (R198); nothing with M or N 0 (R204), no
operand with K 0. -/
def readSpans (d : W512) (e : Nat) : List Span :=
  let m := dM d
  let n := dN d
  let k := dK d
  if m = 0 || n = 0 then [] else
  let a := 1 + 2 * e
  let b := 2 + 2 * e
  spanOf (dw d 2 0 20) (dw d 2 20 20) m (rowBytes (dFmtA d) k) a ++
  (if isMx (dFmtA d) then spanOf (dw d 2 40 20) (dw d 5 0 20) m (blocks k) a else []) ++
  spanOf (dw d 3 0 20) (dw d 3 20 20) n (rowBytes (dFmtB d) k) b ++
  (if isMx (dFmtB d) then spanOf (dw d 3 40 20) (dw d 5 20 20) n (blocks k) b else []) ++
  (if dCinit d then spanOf (dw d 6 0 20) (dw d 6 20 20) m (4 * n) b else []) ++
  (match dDsm d with
   | 1 => spanOf (dw d 6 40 20) 4 m 4 b
   | 2 => spanOf (dw d 6 40 20) 4 n 4 b
   | _ => [])

/-- The ranges a command writes: output elements and output scales. -/
def writeSpans (d : W512) (e : Nat) : List Span :=
  let m := dM d
  let n := dN d
  if m = 0 || n = 0 then [] else
  spanOf (dw d 4 0 20) (dw d 4 20 20) m (rowBytes (dFmtC d) n) (2 + 2 * e) ++
  (if isMx (dFmtC d) then spanOf (dw d 4 40 20) (dw d 5 40 20) m (blocks n) (2 + 2 * e) else [])

def spansMeet (x y : Span) : Bool := overlaps x.base x.len y.base y.len

/-- A span that leaves its space: scratch ends at 0x1_0000, Silt at 0x10_0000 (R197). -/
def spanBeyond (x : Span) : Bool :=
  if x.base < 0x80000 then decide (0x10000 < x.base + x.len) else decide (0x100000 < x.base + x.len)

/-- Check 2 of R199: reserved fields and values, fields that must be 0 for being unread, alignment. -/
def descInvalid (d : W512) : Bool :=
  let reserved := [dw d 0 23 1, dw d 0 28 4, dw d 0 48 16, dw d 1 57 7, dw d 2 60 4, dw d 3 60 4, dw d 4 60 4,
    dw d 5 60 4, dw d 6 60 4, dw d 7 32 32]
  let mustZero :=
    (if dFmtA d = 6 then [dw d 2 40 20, dw d 5 0 20] else []) ++
    (if dFmtB d = 6 then [dw d 3 40 20, dw d 5 20 20] else []) ++
    (if dFmtC d = 6 || dFmtC d = 7 then [dw d 4 40 20, dw d 5 40 20] else []) ++
    (if dCinit d then [] else [dw d 6 0 20, dw d 6 20 20]) ++
    (if dDsm d = 0 then [dw d 6 40 20] else [])
  let by8 := [dw d 2 0 20, dw d 2 20 20, dw d 3 0 20, dw d 3 20 20, dw d 4 0 20, dw d 4 20 20]
  let by4 := [dw d 6 0 20, dw d 6 20 20, dw d 6 40 20]
  (reserved ++ mustZero).any (fun x => decide (x ≠ 0)) ||
  decide (dDsm d = 3) || decide (dShape d = 7) || !(decide (dCols d = 0) || decide (dCols d = 7)) ||
  (!dAuto d && decide (dFlow d = 1) && decide (dShape d ≠ 0)) ||
  by8.any (fun x => decide (x % 8 ≠ 0)) || by4.any (fun x => decide (x % 4 ≠ 0))

/-- C of an MX output: positive, finite, normal FP32 (R162). -/
def coarseOk (x : Nat) : Bool := decide (x < 2 ^ 31) && decide (1 ≤ x / 2 ^ 23) && decide (x / 2 ^ 23 < 255)

/-- Check 6 of R199. -/
def descRange (d : W512) (e : Nat) : Bool :=
  let rd := readSpans d e
  let wr := writeSpans d e
  decide (2 ^ 24 < dK d) || (rd ++ wr).any spanBeyond ||
  (decide (1 < dM d) && decide (dw d 4 20 20 < rowBytes (dFmtC d) (dN d))) ||
  (decide (1 < dM d) && isMx (dFmtC d) && decide (dw d 5 40 20 < blocks (dN d))) ||
  wr.any (fun x => rd.any (spansMeet x)) ||
  (match wr with
   | x :: y :: _ => spansMeet x y
   | _ => false)

/-- A bank that identity `who` may use: it owns it and no handover away is pending (R240, R245). -/
def feederOwns (s : State) (n b who : Nat) : Bool :=
  decide (bankOwner s n b = who) &&
    !(flag s (BANK_OWNER n b) BANK_OWNER_PENDING && decide (fld s (BANK_OWNER n b) BANK_OWNER_TARGET ≠ who))

/-- The lowest scratch offset of a span in a bank that its identity may not use. -/
def spanDenied (s : State) (n : Nat) (x : Span) : Option Nat :=
  if 0x80000 ≤ x.base then none
  else ((List.range 16).filter fun b =>
      overlaps x.base x.len (b * 0x1000) 0x1000 && !feederOwns s n b x.who).head?.map fun b => max x.base (b * 0x1000)

/-- The least of the listed numbers. -/
def least : List Nat → Option Nat
  | [] => none
  | x :: xs => match least xs with
    | none => some x
    | some y => some (min x y)

/-- The presented width of engine `e` of a unit (R182); a control processor presents none. -/
def unitWidth (s : State) (u e : Nat) : Nat := if isCp u then 0 else engineWidth s (physOf s u) e

/-- The checks of R199 in order: code and `CTX_FAULT_INFO`. -/
def mmFault (s : State) (u e : Nat) (d : W512) : Option (Nat × Nat) :=
  if unitWidth s u e = 0 then some (0x0206, 0)
  else if descInvalid d then some (0x0204, 0)
  else if 6 < dFmtA d || 6 < dFmtB d || 7 < dFmtC d then some (0x0202, 0)
  else if dFmtA d ≠ dFmtB d then some (0x0201, 0)
  else if isMx (dFmtC d) && !coarseOk (dCoarse d) then some (0x0203, 0)
  else if descRange d e then some (0x0205, 0)
  else (least ((readSpans d e ++ writeSpans d e).filterMap (spanDenied s u))).map fun a => (0x0602, devOfLocal u a)

/-! ### Shapes (R181–R183) -/

def shapeDims (code cols : Nat) : Nat × Nat :=
  if cols = 7 then
    match code with
    | 1 => (4, 14)
    | 2 => (2, 28)
    | 3 => (1, 56)
    | 4 => (14, 4)
    | 5 => (28, 2)
    | 6 => (56, 1)
    | _ => (8, 7)
  else
    match code with
    | 1 => (4, 16)
    | 2 => (2, 32)
    | 3 => (1, 64)
    | 4 => (16, 4)
    | 5 => (32, 2)
    | 6 => (64, 1)
    | _ => (8, 8)

def ceilDiv (a b : Nat) : Nat := (a + b - 1) / b

/-- R183: the first shape with the fewest tiles. -/
def autoShape (m n cols : Nat) : Nat :=
  ((List.range 7).foldl (fun (best : Nat × Nat) code =>
    let t := ceilDiv m (shapeDims code cols).1 * ceilDiv n (shapeDims code cols).2
    if t < best.2 then (code, t) else best)
    (0, ceilDiv m (shapeDims 0 cols).1 * ceilDiv n (shapeDims 0 cols).2)).1

/-- Columns a command uses (R182). -/
def colsUsed (s : State) (u e : Nat) (d : W512) : Nat := if dCols d = 7 then 7 else unitWidth s u e
/-- Shape and flow in use (R183). -/
def shapeUsed (d : W512) (cols : Nat) : Nat := if dAuto d then autoShape (dM d) (dN d) cols else dShape d
def flowUsed (d : W512) : Nat := if dAuto d then 0 else dFlow d

/-! ### Reduction (R208–R214) -/

/-- Element `j` of a row of local memory: `fld` is the key of the row's first byte (R157, R159). -/
def elemAt (m : Mem) (f key j : Nat) : Nat :=
  let w := elemBits f
  if isMx f then
    let bitpos := w * (j % 32)
    let a := key + (j / 32) * (4 * w) + bitpos / 8
    (leNat (memBytes m a 2) / 2 ^ (bitpos % 8)) % 2 ^ w
  else leNat (memBytes m (key + j * (w / 8)) (w / 8)) % 2 ^ w

/-- An invalid operation: K-block, stage, and the K index that gives its beat (R219, R598). -/
structure InvOp where
  kblk  : Nat
  stage : Nat
  kIdx  : Nat
  /-- Formed by a pair of elements (0 × ∞), rather than by a block's sum. -/
  pair  : Bool
  deriving DecidableEq, Repr

/-- round40 of R210: 40-bit significand, no subnormals, one rounding; and whether it was inexact. -/
def round40 : FVal → FVal × Bool
  | .nan => (.nan, false)
  | .inf n => (.inf n, false)
  | .fin neg m e =>
    let r := roundMag 39 (-4000) (dyNum m e) (dyDen e)
    (.fin neg r.1 r.2.1, r.2.2)

/-- The running state of a block sum (R208 `block_sum`). -/
structure BAcc where
  nan  : Bool
  pinf : Bool
  ninf : Bool
  sum  : Option FVal
  inv  : Option InvOp
  deriving DecidableEq, Repr

/-- One pair of elements of a block. -/
def blockStep (b : Nat) (a : BAcc) (j : Nat) (x y : FVal) : BAcc :=
  match x, y with
  | .nan, _ => { a with nan := true }
  | _, .nan => { a with nan := true }
  | .fin p m e, .fin q m' e' =>
    let prod := FVal.fin (xor p q) (m * m') (e + e')
    { a with sum := some (match a.sum with
        | none => prod
        | some t => (addF t prod).1) }
  | _, _ =>
    let prod := mulF x y
    if prod.2 then { a with nan := true, inv := if a.nan || a.inv.isSome then a.inv else some ⟨b, 0, 32 * b + j, true⟩ }
    else if signF prod.1 then { a with ninf := true } else { a with pinf := true }

/-- 2^k × v, exact. -/
def scaleF (k : Int) : FVal → FVal
  | .fin n m e => .fin n m (e + k)
  | v => v

/-- The operand values of one block of an output: pairs, zero beyond K (R203), with the scale codes for MX formats. -/
structure Block where
  pairs : List (FVal × FVal)
  sa    : Nat
  sb    : Nat
  deriving DecidableEq, Repr

def blockFold (b : Nat) : BAcc → Nat → List (FVal × FVal) → BAcc
  | a, _, [] => a
  | a, j, (x, y) :: r => blockFold b (blockStep b a j x y) (j + 1) r

/-- R208 `block_sum`: the sum, whether a scale of 0xFF was read, the invalid operation it forms. -/
def blockSum (mx : Bool) (b kb : Nat) (blk : Block) (quiet : Bool) : FVal × Bool × Option InvOp :=
  if mx && (decide (blk.sa = 0xFF) || decide (blk.sb = 0xFF)) then (.nan, true, none)
  else
    let a := blockFold b ⟨quiet, false, false, none, none⟩ 0 blk.pairs
    if a.nan then (.nan, false, a.inv)
    else if a.pinf && a.ninf then (.nan, false, some ⟨b, 0, kb, false⟩)
    else if a.pinf then (.inf false, false, none)
    else if a.ninf then (.inf true, false, none)
    else
      let v := a.sum.getD (.fin false 0 0)
      (if mx then scaleF ((blk.sa : Int) - 127 + ((blk.sb : Int) - 127)) v else v, false, none)

/-- What forming one output has raised: INV, SCL_NAN, INX and its first invalid operation (R214, R217). -/
structure OutSt where
  acc  : FVal
  scl  : Bool
  inx  : Bool
  inv  : Option InvOp
  deriving DecidableEq, Repr

/-- R208 `add_wide`. -/
def addWide (o : OutSt) (b kb : Nat) (bs : FVal) : OutSt :=
  match addF o.acc bs with
  | (_, true) => { o with acc := .nan, inv := if o.inv.isSome then o.inv else some ⟨b, 0, kb, false⟩ }
  | (v, false) =>
    let r := round40 v
    { o with acc := r.1, inx := o.inx || r.2 }

/-- The blocks of an output in ascending K. -/
def reduceBlocks (mx : Bool) (kp : Nat) : OutSt → Nat → List Block → OutSt
  | o, _, [] => o
  | o, b, blk :: r =>
    let kb := min (32 * b + 31) (kp - 1)
    let bs := blockSum mx b kb blk (isNaN o.acc)
    let o := { o with scl := o.scl || bs.2.1, inv := if o.inv.isSome then o.inv else bs.2.2 }
    let o := addWide o b kb bs.1
    reduceBlocks mx kp o (b + 1) r

/-- Stage 2 (R161, R215). -/
def drainScale (o : OutSt) (ds : Option FVal) : OutSt :=
  match ds with
  | none => o
  | some v =>
    match mulF o.acc v with
    | (_, true) => { o with acc := .nan, inv := if o.inv.isSome then o.inv else some ⟨0, 1, 0, false⟩ }
    | (p, false) =>
      let r := round40 p
      { o with acc := r.1, inx := o.inx || r.2 }

/-- Division by a positive finite value, rounded once to the wide format (R162). -/
def divF (v c : FVal) : FVal × Bool :=
  match v, c with
  | .fin neg m e, .fin _ m' e' =>
    let k := e - e'
    let r := roundMag 39 (-4000) (m * 2 ^ k.toNat) (m' * 2 ^ (-k).toNat)
    (.fin neg r.1 r.2.1, r.2.2)
  | v, _ => (v, false)

/-- Stage 3, MX outputs only. -/
def coarseStage (o : OutSt) (c : Option FVal) : OutSt :=
  match c with
  | none => o
  | some v =>
    let r := divF o.acc v
    { o with acc := r.1, inx := o.inx || r.2 }

/-! ### Operands of a command -/

/-- The operand blocks of output (m, n): keys are relative to `k0`, the key of local address 0 of the core. -/
def operandBlock (mem : Mem) (k0 : Nat) (d : W512) (m n b : Nat) : Block :=
  let f := dFmtA d
  let k := dK d
  let ra := k0 + dw d 2 0 20 + m * dw d 2 20 20
  let rb := k0 + dw d 3 0 20 + n * dw d 3 20 20
  { pairs := (List.range 32).map fun j =>
      if 32 * b + j < k then (elemVal f (elemAt mem f ra (32 * b + j)), elemVal f (elemAt mem f rb (32 * b + j)))
      else (.fin false 0 0, .fin false 0 0)
    sa := if isMx f then (memByte mem (k0 + dw d 2 40 20 + m * dw d 5 0 20 + b)).toNat else 127
    sb := if isMx f then (memByte mem (k0 + dw d 3 40 20 + n * dw d 5 20 20 + b)).toNat else 127 }

def fp32At (mem : Mem) (k : Nat) : FVal := decodeF fmtFP32 (leNat (memBytes mem k 4))

/-- K as fed (R205). -/
def kFed (d : W512) : Nat := if isMx (dFmtA d) then 32 * blocks (dK d) else dK d

/-- One output up to the conversion (R208). -/
def outputOf (mem : Mem) (k0 : Nat) (d : W512) (m n : Nat) : OutSt :=
  let c0 := if dCinit d then fp32At mem (k0 + dw d 6 0 20 + m * dw d 6 20 20 + 4 * n) else .fin false 0 0
  let o := reduceBlocks (isMx (dFmtA d)) (kFed d) ⟨c0, false, false, none⟩ 0
    ((List.range (blocks (dK d))).map fun b => operandBlock mem k0 d m n b)
  let ds := match dDsm d with
    | 1 => some (fp32At mem (k0 + dw d 6 40 20 + 4 * m))
    | 2 => some (fp32At mem (k0 + dw d 6 40 20 + 4 * n))
    | _ => none
  let o := drainScale o ds
  coarseStage o (if isMx (dFmtC d) then some (decodeF fmtFP32 (dCoarse d)) else none)

/-! ### Output conversion (R168, R170–R173, R216) -/

/-- Largest magnitude of a listed value, as a dyadic; none when every value is zero, infinite or NaN. -/
def maxMag : List FVal → Option (Nat × Int)
  | [] => none
  | .fin _ m e :: r =>
    if m = 0 then maxMag r
    else match maxMag r with
      | none => some (m, e)
      | some (m', e') => if dyLt m' e' m e then some (m, e) else some (m', e')
  | _ :: r => maxMag r

/-- R168 for MXINT8: units of 2^−6, saturating at 127. -/
def convertI8 : FVal → Nat × FFlags
  | .nan => (0, noFlags)
  | .inf neg => (narrow 8 (if neg then -127 else 127), ⟨false, true, false, false⟩)
  | .fin neg m e =>
    let r := rne (dyNum m (e + 6)) (dyDen (e + 6))
    if 127 < r.1 then (narrow 8 (if neg then -127 else 127), ⟨false, true, false, true⟩)
    else (narrow 8 (if neg then -(r.1 : Int) else r.1), ⟨false, false, false, r.2⟩)

/-- Conversion of one value to an MX element. -/
def convertElem (f : Nat) (sat ftz : Bool) (v : FVal) : Nat × FFlags :=
  if f = 5 then convertI8 v
  else
    let r := convertF (elemFmt f) sat ftz v
    (encodeF (elemFmt f) r.1, r.2)

/-- Whether m × 2^e, rounded to format `f`, exceeds its largest value. -/
def exceedsMax (f m : Nat) (e : Int) : Bool :=
  if f = 5 then decide (127 < (rne (dyNum m (e + 6)) (dyDen (e + 6))).1)
  else
    let g := elemFmt f
    let r := roundMag g.mbits g.emin (dyNum m e) (dyDen e)
    dyLt g.maxMant (g.emax - (g.mbits : Int)) r.1 r.2.1

/-- R170: scale code, element codes, flags of one block. -/
def quantise (f : Nat) (sat ftz : Bool) (ws : List FVal) : Nat × List Nat × FFlags :=
  if !(f != 5 && (elemFmt f).hasNaN) && ws.any isNaN then (0xFF, ws.map (fun _ => 0), noFlags)
  else
    let emax : Int := if f = 5 then 0 else (elemFmt f).emax
    let x : Int := match maxMag ws with
      | none => 0
      | some (m, e) =>
        let x0 := floorLog2 (dyNum m e) (dyDen e) - emax
        if exceedsMax f m (e - x0) then x0 + 1 else x0
    let lo := decide (x < -127)
    let x := if x < -127 then -127 else if 127 < x then 127 else x
    let rs := ws.map fun w => convertElem f sat ftz (scaleF (-x) w)
    ((x + 127).toNat, rs.map (·.1), orAll (rs.map fun r => if lo then r.2 else { r.2 with unf := false }))

/-- Blocks of 32 of a row. -/
def chunks32 {α : Type} : Nat → List α → List (List α)
  | 0, _ => []
  | n + 1, xs => if xs.isEmpty then [] else xs.take 32 :: chunks32 n (xs.drop 32)

/-- The element field of one block: codes of `w` bits, missing columns 0, padded to the field size (R157, R173). -/
def blockField (w : Nat) (codes : List Nat) : List Byte := leBytes (4 * w) (packNat w codes)

/-- One output row as stored: element bytes, scale bytes, flags of the conversions. -/
def convertRow (d : W512) (vs : List FVal) : List Byte × List Byte × FFlags :=
  let f := dFmtC d
  if isMx f then
    let bs := (chunks32 (vs.length + 1) vs).map fun b => quantise f (dSat d) (dFtz d) b
    (bs.flatMap fun b => blockField (elemBits f) b.2.1, bs.map fun b => BitVec.ofNat 8 b.1, orAll (bs.map (·.2.2)))
  else
    let rs := vs.map fun v =>
      let r := convertF (elemFmt f) (dSat d) (dFtz d) v
      (encodeF (elemFmt f) r.1, r.2)
    (rs.flatMap fun r => leBytes (elemBits f / 8) r.1, [], orAll (rs.map (·.2)))

/-! ### One command -/

/-- `ENG_FLAGS` as a number: bit 0 INV, 1 OVF, 2 UNF, 3 SCL_NAN, 4 INX. -/
def engFlagBits (f : FFlags) (scl : Bool) : Nat :=
  b2n f.inv + 2 * b2n f.ovf + 4 * b2n f.unf + 8 * b2n scl + 16 * b2n f.inx

/-- What row `m` of a command gives: bytes, scale bytes, flags, its first invalid operation with the column. -/
def rowResult (mem : Mem) (k0 : Nat) (d : W512) (m : Nat) : List Byte × List Byte × Nat × Option (Nat × InvOp) :=
  let os := (List.range (dN d)).map fun n => (n, outputOf mem k0 d m n)
  let cv := convertRow d (os.map (·.2.acc))
  let inv := os.findSome? fun p => p.2.inv.map fun i => (p.1, i)
  let fl := engFlagBits { cv.2.2 with inv := inv.isSome, inx := cv.2.2.inx || os.any (·.2.inx) } (os.any (·.2.scl))
  -- R222: a command with K = 0 sets no flag and records nothing
  if dK d = 0 then (cv.1, cv.2.1, 0, none) else (cv.1, cv.2.1, fl, inv)

/-- P of a tile under R205. -/
def tileBeats (d : W512) (flow mt : Nat) : Nat :=
  if flow = 0 then max (ceilDiv (kFed d) (lanesL (dFmtA d))) 8
  else max (ceilDiv (kFed d) (8 * lanesL (dFmtA d))) 1 * max mt 8

/-- T plus the last terms of R598: the beat, less F and W0, in which the cell of output (m, n) meets K index `k`, as a pair of
elements or at the end of a block. -/
def cellBeat (d : W512) (cmd : ECmd) (m n k : Nat) (pair : Bool) : Nat :=
  let l := lanesL (dFmtA d)
  let (r0, w0) := if cmd.flow = 0 then shapeDims cmd.shape cmd.cols else (64, cmd.cols)
  let nt := ceilDiv (dN d) w0
  let mt (t : Nat) : Nat := min r0 (dM d - (t / nt) * r0)
  let t0 := (m / r0) * nt + n / w0
  let before := ((List.range t0).map fun t => tileBeats d cmd.flow (mt t)).foldl (· + ·) 0
  before + (if cmd.flow = 0 then k / l + m % r0 + n % w0
    else (k / (8 * l)) * max (mt t0) 8 + m % 64 + (if pair then k % (8 * l) / l else 7) + n % w0)
/-- The last K index of block `b` that the engine feeds (R598). -/
def blockEnd (d : W512) (b : Nat) : Nat := min (32 * b + 31) (kFed d - 1)
/-- The beat of a recorded invalid operation (R598); `early` is the number of beats the engine stalled before it. -/
def invBeat (d : W512) (cmd : ECmd) (m n : Nat) (i : InvOp) (early : Nat) : Nat :=
  (if cmd.hidF then 0 else 4) + (if cmd.flow = 1 && decide (0 < dK d) then 8 else 0) +
    (if i.stage = 1 then cellBeat d cmd m n (blockEnd d (blocks (dK d) - 1)) false + 1 else cellBeat d cmd m n i.kIdx i.pair) +
    early

/-- The command's flags are raised: sticky, in the core's roll-up, NUM event under the mask (R217, R218). -/
def raiseEng (u e c flags : Nat) (s : State) : State :=
  if flags = 0 then s
  else
    let s := flagCtrs 0 flags (orFld s (ENG_FLAGS u e) ⟨0, 0, 5⟩ flags)
    let s := orFld s (CORE_FAULT_SUM u) CORE_FAULT_SUM_NUM_FLAGS flags
    if flags &&& fld s (ENG_EVT_MASK u e) ENG_EVT_MASK_MASK ≠ 0 then setPend s u c 1 else s

/-- `ENG_INV_POS` takes the command's first invalid operation while VALID = 0 (R219). -/
def captureInv (u e : Nat) (cmd : ECmd) (m n beat : Nat) (i : InvOp) (s : State) : State :=
  let r := ENG_INV_POS u e
  if flag s r ENG_INV_POS_VALID then s
  else
    rset (rset s r (BitVec.ofNat 64 (m + n * 2 ^ 16 + (if i.stage = 1 then 0 else i.kblk) * 2 ^ 32 + i.stage * 2 ^ 51 +
        2 ^ 52 + cmd.c * 2 ^ 53)))
      (r + 8) (BitVec.ofNat 64 (min beat 0xFFFFFFFF + (cmd.num % 2 ^ 32) * 2 ^ 32))

/-- Output row `m` is written and becomes visible. -/
def writeRow (u : Nat) (k0 : Nat) (d : W512) (m : Nat) (r : List Byte × List Byte) (s : State) : State :=
  let s := locStore u (k0 + dw d 4 0 20 + m * dw d 4 20 20) r.1 s
  if r.2.isEmpty then s else locStore u (k0 + dw d 4 40 20 + m * dw d 5 40 20) r.2 s

/-- Every output of a command, its flags and its capture; operands are read from the state before (R192). -/
def runCommand (u e : Nat) (cmd : ECmd) (early : Nat) (s : State) : State :=
  let d := cmd.desc
  let k0 := locKey (physUnit s u) 0
  let rows := (List.range (if dN d = 0 then 0 else dM d)).map fun m => (m, rowResult s.mem.loc k0 d m)
  let s1 := rows.foldl (fun t r => writeRow u k0 d r.1 (r.2.1, r.2.2.1) t) s
  let s2 := raiseEng u e cmd.c ((rows.map fun r => r.2.2.2.1).foldl (· ||| ·) 0) s1
  match rows.findSome? fun r => r.2.2.2.2.map fun p => (r.1, p.1, p.2) with
  | none => s2
  | some (m, n, i) => captureInv u e cmd m n (invBeat d cmd m n i early) i s2

/-! ### The words that feeders and drain read (R184, R195, R254, R255) -/

/-- What an item of a command holds. -/
inductive ItemKind where
  | aElem | bElem | aScale | bScale | cInit | drain
  deriving DecidableEq, Repr

/-- A row, column or vector element that a command reads: its local address, its bytes that are used, its number. -/
structure Item where
  base : Nat
  len  : Nat
  kind : ItemKind
  idx  : Nat
  deriving DecidableEq, Repr

def itemsOf (base stride cnt len : Nat) (kind : ItemKind) : List Item :=
  if len = 0 then [] else (List.range cnt).map fun i => ⟨base + i * stride, len, kind, i⟩
/-- Bytes of a row that hold an element below K: what lies above reads as zero (R203). -/
def usedBytes (f k : Nat) : Nat := if isMx f then (k / 32) * (4 * elemBits f) + ceilDiv ((k % 32) * elemBits f) 8 else rowBytes f k
/-- Everything a command reads (R184, R198): nothing with M or N 0, no operand with K 0 (R204). -/
def readItems (d : W512) : List Item :=
  let m := dM d
  let n := dN d
  let k := dK d
  if m = 0 || n = 0 then [] else
  itemsOf (dw d 2 0 20) (dw d 2 20 20) m (usedBytes (dFmtA d) k) .aElem ++
  itemsOf (dw d 3 0 20) (dw d 3 20 20) n (usedBytes (dFmtB d) k) .bElem ++
  (if isMx (dFmtA d) then itemsOf (dw d 2 40 20) (dw d 5 0 20) m (blocks k) .aScale else []) ++
  (if isMx (dFmtB d) then itemsOf (dw d 3 40 20) (dw d 5 20 20) n (blocks k) .bScale else []) ++
  (if dCinit d then itemsOf (dw d 6 0 20) (dw d 6 20 20) m (4 * n) .cInit else []) ++
  (match dDsm d with
   | 1 => itemsOf (dw d 6 40 20) 4 m 4 .drain
   | 2 => itemsOf (dw d 6 40 20) 4 n 4 .drain
   | _ => [])
/-- The item has bytes in word `w`, where local address 0 of the core has key `k0`. -/
def inItem (k0 w : Nat) (x : Item) : Bool := overlaps (8 * w) 8 (k0 + x.base) x.len
/-- The K index of the element that byte `o` of a row lies in. -/
def kAtByte (f o : Nat) : Nat :=
  if isMx f then 32 * (o / (4 * elemBits f)) + o % (4 * elemBits f) * 8 / elemBits f else o / (elemBits f / 8)
/-- The beat, less F and W0, in which byte `o` of an item is first consumed: the beats of R598 (DESIGN CHOICE, log 101). -/
def useBeat (d : W512) (cmd : ECmd) (x : Item) (o : Nat) : Nat :=
  let last := blockEnd d (blocks (dK d) - 1)
  match x.kind with
  | .aElem => cellBeat d cmd x.idx 0 (kAtByte (dFmtA d) o) true
  | .bElem => cellBeat d cmd 0 x.idx (kAtByte (dFmtB d) o) true
  | .aScale => cellBeat d cmd x.idx 0 (blockEnd d o) false
  | .bScale => cellBeat d cmd 0 x.idx (blockEnd d o) false
  | .cInit => cellBeat d cmd x.idx (o / 4) 0 true
  | .drain => (if dDsm d = 1 then cellBeat d cmd x.idx 0 last false else cellBeat d cmd 0 x.idx last false) + 1
/-- The beat in which a command first consumes a byte of word `w`, none where it reads none. -/
def wordBeat (k0 : Nat) (cmd : ECmd) (w : Nat) : Option Nat :=
  least (((readItems cmd.desc).filter (inItem k0 w)).map fun x => useBeat cmd.desc cmd x (8 * w - (k0 + x.base)))
/-- The poisoned word that a command consumes first (R195), the lowest of those of one beat. -/
def operandPoison (s : State) (u : Nat) (cmd : ECmd) : Option Nat :=
  let k0 := locKey (physUnit s u) 0
  (((mkeys s.mem.locPoison).filterMap fun w => (wordBeat k0 cmd w).map fun b => (b, w)).foldl
    (fun (best : Option (Nat × Nat)) e => match best with
      | none => some e
      | some g => if e.1 < g.1 then some e else some g) none).map (·.2)
/-- The reads of a command find errors in the words they touch, each once (R254, R255). -/
def touchOperands (u : Nat) (d : W512) (s : State) : State :=
  let k0 := locKey (physUnit s u) 0
  ((mkeys s.mem.latent).filter fun w => (readItems d).any (inItem k0 w)).foldl (touchWord u) s

end Sys2Proof.Machine
end

