-- ==== Sys2Proof/Machine/SyncOps.lean ====
section
/-!
DEFINITION. Shared operations of the messaging blocks (chapters 13, 17): MSI-X, signals, and ADD and SET on synchronisation
objects with their permission, abandonment and wakes.
-/
namespace Sys2Proof.Machine
open Sys2Proof

/-! ### Host ports and MSI-X (R471, R474) -/

/-- Accesses to the host behind port `p` are sent: link up, out of reset, Bus Master Enable set (R471), and not in D3hot, where a
port answers configuration requests only (R463; log 108). -/
def hostReach (s : State) (p : Nat) : Bool :=
  flag s (HOSTIF_PORT_STATUS p) HOSTIF_PORT_STATUS_LINK_UP && flag s (HOSTIF_PORT_STATUS p) HOSTIF_PORT_STATUS_BME &&
    !mget false s.host.inReset p && !mget false s.host.d3 p

/-- The entry 0x0802 of a port whose host cannot be reached, at most once per 1,000 slots (R471). -/
def logPortDown (p : Nat) (s : State) : State := logLimited 0x0802 p 0x23 none p s

/-- Send the message of a vector whose masks are clear. -/
def msixOut (p vec : Nat) (s : State) : State :=
  if hostReach s p then
    emit (.msix p vec (mget 0 s.host.msixAddr (p * 2048 + vec)) (mget 0 s.host.msixData (p * 2048 + vec))) (bumpCtr (148 + 8 * p) 1 s)
  else logPortDown p s

/-- Trigger a vector of a port (R474). -/
def msixTrigger (p vec : Nat) (s : State) : State :=
  if !flag s (HOSTIF_PORT_STATUS p) HOSTIF_PORT_STATUS_MSIX_EN then s
  else if mget false s.host.funcMask p || !mget false s.host.unmasked (p * 2048 + vec) then
    { s with host := { s.host with pba := mset false s.host.pba (p * 2048 + vec) true } }
  else msixOut p vec s

/-- Trigger a vector of the port that holds ownership; with no owner the trigger waits in a pending bit (R474). -/
def ownerTrigger (vec : Nat) (s : State) : State :=
  match ownerHost s with
  | some p => msixTrigger p vec s
  | none => { s with host := { s.host with ownerPend := mset false s.host.ownerPend vec true } }

/-- A signal sets out (R337). -/
def sendSignal (g : Signal) (s : State) : State := { s with sync := { s.sync with signals := s.sync.signals ++ [g] } }

/-! ### Synchronisation objects (R355–R359) -/

def refObj (v : Nat) : Nat := v % 2 ^ 16
/-- Module × 8 + group that a reference names (R143). -/
def refModule (v : Nat) : Nat := v / 2 ^ 16 % 64 * 8 + v / 2 ^ 22 % 8
/-- The synchronisation reference of a request. -/
def syncRef : ReqOp → Option Nat
  | .syncAdd r _ => some r
  | .syncSet r _ => some r
  | .syncWait r _ => some r
  | .syncTest r _ => some r
  | _ => none

def syncVal (s : State) (i : Nat) : Nat := (rget s (SYNC_VALUE i)).toNat
def syncCtl (s : State) (i : Nat) (f : Fld) : Nat := fld s (SYNC_CTRL i) f
def syncAbandoned (s : State) (i : Nat) : Bool := decide (syncCtl s i SYNC_CTRL_ABANDONED = 1)

/-- Who asks for an operation on an object, as R356 distinguishes them. -/
inductive Asker where
  /-- A context, engine or channel of a core, with the core's plot. -/
  | core (plot : Option Nat)
  | cp
  | owner
  | remote
  deriving DecidableEq, Repr

/-- The asker that a unit of this module is. -/
def askerOf (s : State) (u : Nat) : Asker := if isCp u then .cp else .core (plotOf s u)

/-- R356: ADD and SET are permitted. -/
def syncMay (s : State) (i : Nat) (a : Asker) : Bool :=
  decide (syncCtl s i SYNC_CTRL_OWNED = 0) || decide (syncCtl s i SYNC_CTRL_OPEN = 1) ||
    (match a with
     | .core p => decide (p = some (syncCtl s i SYNC_CTRL_PLOT))
     | .cp => true
     | .owner => true
     | .remote => false)

/-- Set an object's waiter count to the number of records held (R358). -/
def syncCount (i : Nat) (s : State) : State :=
  setFld s (SYNC_CTRL i) SYNC_CTRL_WAITERS (s.sync.waiters.filter fun w => decide (w.obj = i)).length

/-- A WAKE packet sets out to a waiter, with a status (R358). -/
def wakeOne (st : W64) (s : State) (w : Waiter) : State :=
  match w.tag with
  | some t => { s with sync := { s.sync with wakes := s.sync.wakes ++ [(t, st)] } }
  | none => emit (.remoteAnswer w.remote w.rtag st) s

/-- Remove the waiters of object `i` that satisfy `p` and wake each with `st`. -/
def wakeWhere (i : Nat) (p : Waiter → Bool) (st : W64) (s : State) : State :=
  let go := s.sync.waiters.filter fun w => decide (w.obj = i) && p w
  let s := { s with sync := { s.sync with waiters := s.sync.waiters.filter fun w => !(decide (w.obj = i) && p w) } }
  syncCount i (go.foldl (wakeOne st) s)

/-- Wake the waiters whose threshold the value has reached. -/
def wakeMet (i : Nat) (s : State) : State := wakeWhere i (fun w => decide (w.thr.toNat ≤ syncVal s i)) 0 s

/-- ADD (R355–R357): the status and the state after it. -/
def syncAdd (i v : Nat) (a : Asker) (s : State) : Nat × State :=
  if !syncMay s i a then (0x0506, s)
  else if syncAbandoned s i then (0x0501, s)
  else
    let sum := syncVal s i + v
    if sum < 2 ^ 64 then (0, wakeMet i (rset s (SYNC_VALUE i) (BitVec.ofNat 64 sum)))
    else (0x0507, wakeMet i (rset s (SYNC_VALUE i) (BitVec.ofNat 64 (2 ^ 64 - 1))))

/-- SET (R355–R357). -/
def syncSet (i v : Nat) (a : Asker) (s : State) : Nat × State :=
  if !syncMay s i a then (0x0506, s)
  else if syncAbandoned s i then (0x0501, s)
  else if v < syncVal s i then (0x0505, s)
  else (0, wakeMet i (rset s (SYNC_VALUE i) (BitVec.ofNat 64 v)))

/-- TEST (R355, R357). -/
def syncTest (i v : Nat) (s : State) : Bool := !syncAbandoned s i && decide (v ≤ syncVal s i)

/-- An engine's or channel's add of 1 (R191, R279): a refused one has no effect and is logged (R356). -/
def unitAdd (u i : Nat) (s : State) : State :=
  match syncAdd i 1 (askerOf s u) s with
  | (0x0506, t) => logErr 0x0506 0x24 (plotOf s u) i t
  | (_, t) => t

end Sys2Proof.Machine
end

