-- ==== Sys2Proof/Machine/Channels.lean ====
section
/-!
DEFINITION. Stream channels (chapter 10): the descriptor and its checks, the address pattern, rates and stamps, rings,
routes of the stream network, closing.
-/
namespace Sys2Proof.Machine
open Sys2Proof

/-! ### The descriptor (R271) -/

def sSrc (d : W512) : Nat := dw d 0 0 2
def sDst (d : W512) : Nat := dw d 0 2 2
def sFmt (d : W512) : Nat := dw d 0 4 4
def sMode (d : W512) : Nat := dw d 0 8 2
def sSpill (d : W512) : Bool := decide (dw d 0 10 1 = 1)
def sDec (d : W512) : Bool := decide (dw d 0 11 1 = 1)
def sClass (d : W512) : Nat := dw d 0 12 2
def sRate (d : W512) : Nat := dw d 0 14 12
def sPatience (d : W512) : Nat := dw d 0 26 12
def sSegLog (d : W512) : Nat := dw d 0 38 3
def sSegs (d : W512) : Nat := dw d 0 41 4
def sHandoff (d : W512) : Nat := dw d 0 45 4
def sBuf (d : W512) : Nat := dw d 0 49 8
def sSyncEn (d : W512) : Bool := decide (dw d 0 57 1 = 1)
def sAddr (d : W512) : Nat := dw d 1 0 56
def sRing (d : W512) : Nat := dw d 2 0 20
def sFillObj (d : W512) : Nat := dw d 2 20 16
def sFreeObj (d : W512) : Nat := dw d 2 36 16
def sLength (d : W512) : Nat := dw d 3 0 40
def sLink (d : W512) : Nat := dw d 3 40 12
def sPos (d : W512) : Nat := dw d 7 0 40
def sFill (d : W512) : Nat := dw d 7 40 20

/-- Kinds: 0 MEM, 1 REG, 2 LINK, 3 RING. -/
def fromMem (d : W512) : Bool := decide (sSrc d = 0)
def toMem (d : W512) : Bool := decide (sDst d = 0)
def usesMem (d : W512) : Bool := fromMem d || toMem d
def fromLink (d : W512) : Bool := decide (sSrc d = 2)
def toLink (d : W512) : Bool := decide (sDst d = 2)
def usesLink (d : W512) : Bool := fromLink d || toLink d
def toRing (d : W512) : Bool := decide (sDst d = 3)
/-- R139, R267: read and write channels. -/
def readChan (d : W512) : Bool := decide (sDst d = 1)
def writeChan (d : W512) : Bool := decide (sSrc d = 1)

def segSize (d : W512) : Nat := 256 * 2 ^ sSegLog d
/-- R274. -/
def ringSize (d : W512) : Nat := (sSegs d + 1) * segSize d
def ringInScratch (d : W512) : Bool := decide (sRing d < 0x80000)

/-- R272: bytes of a unit. -/
def sUnit (d : W512) : Nat :=
  match sFmt d with
  | 0 => 16
  | 1 => 24
  | 2 => 24
  | 3 => 32
  | 4 => 32
  | 5 => 32
  | 6 => 2
  | 7 => 4
  | 8 => 1
  | 9 => 2
  | _ => 4

def sCount (d : W512) (i : Nat) : Nat :=
  match i with
  | 0 => dw d 4 0 16 + 1
  | 1 => dw d 4 16 12 + 1
  | 2 => dw d 4 28 12 + 1
  | 3 => dw d 4 40 12 + 1
  | _ => dw d 4 52 12 + 1
def sStride (d : W512) (i : Nat) : Int :=
  match i with
  | 1 => sgn 32 (dw d 5 0 32)
  | 2 => sgn 32 (dw d 5 32 32)
  | 3 => sgn 32 (dw d 6 0 32)
  | _ => sgn 32 (dw d 6 32 32)

def patternBytes (d : W512) : Nat := sCount d 0 * sUnit d * sCount d 1 * sCount d 2 * sCount d 3 * sCount d 4

/-- R273: the address of stream byte `p`. -/
def memAddr (d : W512) (p : Nat) : Nat :=
  let run := sCount d 0 * sUnit d
  let q := p % patternBytes d
  let r1 := q / run
  let r2 := r1 / sCount d 1
  let r3 := r2 / sCount d 2
  let r4 := r3 / sCount d 3
  narrow 56 ((sAddr d + q % run : Nat) + ((r1 % sCount d 1 : Nat) : Int) * sStride d 1 +
    ((r2 % sCount d 2 : Nat) : Int) * sStride d 2 + ((r3 % sCount d 3 : Nat) : Int) * sStride d 3 +
    ((r4 % sCount d 4 : Nat) : Int) * sStride d 4)

/-! ### Checks at SM.OPEN (R280) -/

def kindsOk (d : W512) : Bool :=
  match sSrc d, sDst d with
  | 0, 1 => true
  | 0, 2 => true
  | 0, 3 => true
  | 1, 0 => true
  | 1, 2 => true
  | 2, 0 => true
  | 2, 1 => true
  | 2, 3 => true
  | _, _ => false

/-- R269: selectors of a MEM endpoint. -/
def memSelOk (sel : Nat) : Bool :=
  [0, 1, 2, 4, 8, 9].contains sel || (decide (0x40 ≤ sel) && decide (sel ≤ 0x7F))

/-- Check 2. -/
def streamInvalid (d : W512) : Bool :=
  let zero := [dw d 0 58 6, dw d 1 56 8, dw d 2 52 12, dw d 3 52 12, dw d 7 63 1] ++
    (if usesMem d then [] else [sAddr d, dw d 4 0 64, dw d 5 0 64, dw d 6 0 64]) ++
    (if usesLink d then [] else [sLink d, dw d 0 11 1]) ++
    (if toRing d && !ringInScratch d then [] else [sFreeObj d]) ++
    (if toRing d && ringInScratch d then [] else [sHandoff d])
  zero.any (fun x => decide (x ≠ 0)) || decide (sSrc d = 3) || !kindsOk d || decide (0xA < sFmt d) ||
  decide (sMode d = 3) || decide (sSegs d = 0) || decide (sRing d % segSize d ≠ 0) ||
  (toRing d && !sSyncEn d) || (toRing d && ringInScratch d && (decide (sSegLog d ≠ 4) || decide (4 < sHandoff d))) ||
  (usesMem d && !memSelOk (selOf (sAddr d)))

/-- The route entries of a core (R306). -/
def routeOk (s : State) (u i link : Nat) : Bool :=
  flag s (ROUTE_ENTRY u i) ROUTE_ENTRY_VALID && decide (fld s (ROUTE_ENTRY u i) ROUTE_ENTRY_LINK_ID = link)
/-- The valid entry of core `u` for a stream. -/
def routeOf (s : State) (u link : Nat) : Option Nat :=
  if isCp u then none else (List.range 32).find? fun i => routeOk s u i link

/-- Check 3. -/
def streamRange (s : State) (u : Nat) (d : W512) : Bool :=
  (if ringInScratch d then decide (0x10000 < sRing d + ringSize d) else decide (0x100000 < sRing d + ringSize d)) ||
  decide (sLength d % sUnit d ≠ 0) || (decide (sLength d ≠ 0) && decide (sPos d - sFill d > sLength d)) ||
  decide (sPos d < sFill d) || (usesLink d && (routeOf s u (sLink d)).isNone)

/-- The checks of R280 in order: code and `CTX_FAULT_INFO`. -/
def openFault (s : State) (u ch : Nat) (open_ : Bool) (d : W512) : Option (Nat × Nat) :=
  if open_ then some (0x010C, 0)
  else if streamInvalid d then some (0x0305, 0)
  else if streamRange s u d then some (0x0306, 0)
  else (bankDenied s u (5 + ch) (sRing d) (ringSize d)).map fun a => (0x0602, devOfLocal u a)

/-! ### The channel of a core -/

def chanKey (u ch : Nat) : Nat := u * 4 + ch
def chan (s : State) (u ch : Nat) : Chan := mget Chan.closed s.strm.chans (chanKey u ch)
def setChan (s : State) (u ch : Nat) (x : Chan) : State :=
  { s with strm := { s.strm with chans := mset Chan.closed s.strm.chans (chanKey u ch) x } }
def updChan (s : State) (u ch : Nat) (f : Chan → Chan) : State := setChan s u ch (f (chan s u ch))
def chanOpen (x : Chan) : Bool := decide (x.st ≠ 0)

/-- Accesses of a channel that have been sent and not answered to it yet (R282 `requested`, `CH_STATUS.OUTSTANDING`). -/
def chanReqs (s : State) (u ch : Nat) : List Req :=
  s.core.reqs.filter fun r => r.chan && decide (r.u = u) && decide (r.c = ch) && !r.orphan
def isLoad (r : Req) : Bool :=
  match r.op with
  | .load _ _ _ => true
  | _ => false
/-- Reads outstanding (R287): also those whose answer the channel will discard. -/
def outstanding (s : State) (u ch : Nat) : Nat :=
  (s.core.reqs.filter fun r => r.chan && decide (r.u = u) && decide (r.c = ch) && isLoad r && r.tracked).length

/-! ### RING destinations (R276, R277) -/

/-- Segment number of the opening's first byte; later segments are counted from it (DEDUCED, log 14). -/
def seg0 (x : Chan) : Nat := x.base / segSize x.desc
/-- The bank behind ring segment `j` of a scratch ring. -/
def segBank (d : W512) (j : Nat) : Nat := sRing d / 0x1000 + j % (sSegs d + 1)
def segMine (s : State) (u ch : Nat) (d : W512) (j : Nat) : Bool :=
  decide (bankOwner s u (segBank d j) = 5 + ch) && !flag s (BANK_OWNER u (segBank d j)) BANK_OWNER_PENDING
/-- Segments returned since SM.OPEN, for a Silt ring. -/
def freed (s : State) (x : Chan) : Nat := min x.pubs (syncVal s (sFreeObj x.desc) - x.r0)
/-- R277: the channel may fill segment `j` of a RING ring. -/
def segFree (s : State) (u ch : Nat) (x : Chan) (j : Nat) : Bool :=
  if ringInScratch x.desc then segMine s u ch x.desc j && decide (j < seg0 x + x.pubs + sSegs x.desc + 1)
  else decide (j < seg0 x + freed s x + sSegs x.desc + 1)

/-- Bytes held in the ring: accepted and not drained, or not returned (FILL, R271). -/
def chanFill (s : State) (u ch : Nat) (x : Chan) : Nat :=
  if toRing x.desc then
    let z := segSize x.desc
    let done := min x.acc ((seg0 x + x.pubs) * z)
    if ringInScratch x.desc then
      let heldSegs := (List.range (min x.pubs (sSegs x.desc + 1))).map fun i => seg0 x + x.pubs - 1 - i
      ((heldSegs.filter fun j => !segMine s u ch x.desc j).map fun j => min x.acc ((j + 1) * z) - max x.base (j * z)).foldl
        (· + ·) 0 + (x.acc - max x.base done)
    else x.acc - max x.base (min x.acc ((seg0 x + freed s x) * z))
  else x.acc - x.drained

/-- The ring has room for stream byte `p`. -/
def ringRoom (s : State) (u ch : Nat) (x : Chan) (p : Nat) : Bool :=
  if toRing x.desc then segFree s u ch x (p / segSize x.desc) else decide (p < x.drained + ringSize x.desc)

/-! ### Rates and stamps (R281, R282) -/

def classRate : Nat → Nat
  | 0 => 128
  | 1 => 1024
  | 2 => 2048
  | _ => 8
def firstRate (s : State) (d : W512) : Nat :=
  let r16 := if sRate d = 0 then classRate (sClass d) else sRate d
  let fl := max (fld s GLB_RATES GLB_RATES_FLOOR) (fld s PACE_FLOOR_TARGET PACE_FLOOR_TARGET_TARGET)
  r16 * fl * 4096 / 1000
/-- Count drained bytes, or bytes produced for a channel that drains to MEM (R281). -/
def countBytes (n : Nat) (x : Chan) : Chan :=
  { x with consumed := min 65536 (x.consumed + n), window := x.window + n, stall := 0, raised := false, exhausted := false }
/-- Bytes of a RING destination that the consumer has returned. -/
def returned (s : State) (u ch : Nat) (x : Chan) : Nat := if toRing x.desc then x.acc - x.base - chanFill s u ch x else 0
/-- The channel with the bytes counted that its consumer has returned since (R281). -/
def counting (s : State) (u ch : Nat) (x : Chan) : Chan :=
  let n := returned s u ch x - x.counted
  if n = 0 then x else { countBytes n x with counted := x.counted + n }
def rateNow (s : State) (x : Chan) : Nat := if x.consumed < 65536 then firstRate s x.desc else x.ema
/-- `rate(ch)` of R281. -/
def rateOf (s : State) (u ch : Nat) (x : Chan) : Nat := rateNow s (counting s u ch x)
/-- Pace time in 10 ns, modulo 2^32 (R282). -/
def now10 (s : State) : Nat := paceTime s / 100 % 2 ^ 32
/-- The stamp for level `lvl` at rate `r`. -/
def stampAt (now lvl r : Nat) : Nat :=
  if lvl = 0 then now
  else if r = 0 then (now + 100000000) % 2 ^ 32
  else (now + min (lvl * 65536 / (r * 10)) 100000000) % 2 ^ 32
/-- `requested` of R282: bytes of reads not answered, of writes not visible. -/
def requested (s : State) (u ch : Nat) : Nat :=
  (((chanReqs s u ch).filter fun r => if isLoad r then r.tracked else r.parts.any (·.ans.isNone)).map (·.cnt)).foldl (· + ·) 0
def chanStamp (s : State) (u ch : Nat) (x : Chan) : Nat :=
  let asked := requested s u ch
  let fill := chanFill s u ch x
  stampAt (now10 s) (if fromMem x.desc then fill + asked else ringSize x.desc - fill - asked) (rateOf s u ch x)
/-- Stamp `a` precedes stamp `b` (R283). -/
def precedes (a b : Nat) : Bool :=
  let d := (b + 2 ^ 32 - a % 2 ^ 32) % 2 ^ 32
  decide (1 ≤ d) && decide (d < 2 ^ 31)

/-! ### Ring contents -/

def ringKey (s : State) (u : Nat) (d : W512) (p : Nat) : Nat :=
  locKey (physUnit s u) (sRing d + p % ringSize d)
/-- The first bank access of ring bytes `[p, p + n)` that the channel does not own (R240). -/
def ringDenied (s : State) (u ch : Nat) (d : W512) (p n : Nat) : Option Nat :=
  let o := p % ringSize d
  let k := min n (ringSize d - o)
  match bankDenied s u (5 + ch) (sRing d + o) k with
  | some a => some a
  | none => bankDenied s u (5 + ch) (sRing d) (n - k)

/-- Sieve keeps ring bytes `[p, p + n)` from being reached (R250). -/
def ringHeld (s : State) (u : Nat) (d : W512) (p n : Nat) : Bool :=
  let k := min n (ringSize d - p % ringSize d)
  sieveHolds s (ringKey s u d p) k || sieveHolds s (ringKey s u d (p + k)) (n - k)

/-- Write one run of bytes that does not wrap. -/
def ringRun (u : Nat) (d : W512) (p : Nat) (bs : List PByte) (s : State) : State :=
  if bs = [] then s
  else
    let k := ringKey s u d p
    let s := locStore u k (bs.map (·.1)) s
    markLoc k (((List.range bs.length).zip bs).filterMap fun e => if e.2.2 then some e.1 else none) s
/-- Bytes enter the ring at stream position `p`. -/
def ringPut (u : Nat) (d : W512) (p : Nat) (bs : List PByte) (s : State) : State :=
  let k := ringSize d - p % ringSize d
  ringRun u d (p + k) (bs.drop k) (ringRun u d p (bs.take k) s)
/-- Bytes `[p, p + n)` of the ring with their poison marks. -/
def ringGet (s : State) (u : Nat) (d : W512) (p n : Nat) : List PByte :=
  (List.range n).map fun i =>
    let k := ringKey s u d (p + i)
    (memByte s.mem.loc k, locPoisoned s (k / 8))
/-- Reading ring bytes finds errors in their words (R254, R255). -/
def ringTouch (u : Nat) (d : W512) (p n : Nat) (s : State) : State :=
  let k := min n (ringSize d - p % ringSize d)
  touchRange u (ringKey s u d (p + k)) (n - k) (touchRange u (ringKey s u d p) k s)

/-! ### Routes (R303–R309) -/

/-- The neighbour of core `u` through output 0 N, 1 E, 2 S, 3 W, if the link exists (R305). -/
def neighbour (s : State) (u out : Nat) : Option Nat :=
  let v := match out with
    | 0 => if rowOf u = 0 then none else some (u - 128)
    | 1 => if colOf u = 127 then none else some (u + 1)
    | 2 => if rowOf u = 199 then none else some (u + 128)
    | 3 => if colOf u = 0 then none else some (u - 1)
    | _ => none
  v.bind fun w => if absentCore s w || absentCore s u then none else some w
/-- The port by which a token sent through `out` comes in. -/
def facing (out : Nat) : Nat := (out + 2) % 4
def fenced (s : State) (u : Nat) : Bool :=
  match plotOf s u with
  | some p => flag s (PLOT_STATUS p) PLOT_STATUS_FENCED
  | none => false
def routeOuts (s : State) (u i : Nat) : List Nat :=
  (List.range 6).filter fun b => Nat.testBit (fld s (ROUTE_ENTRY u i) ROUTE_ENTRY_OUT) b
def routeIn (s : State) (u i : Nat) : Nat := fld s (ROUTE_ENTRY u i) ROUTE_ENTRY_IN
/-- The entry of core `u` for stream `link` takes tokens from `port`. -/
def entryFrom (s : State) (u link port : Nat) : Bool := (routeOf s u link).any fun i => decide (routeIn s u i = port)
/-- R322, R325: the link from `u` by output `b` to `v` carries a token of stream `link`: within one plot always; between two
committed plots where both entries name the link, with no fence between them. -/
def linkOpen (s : State) (u b v link : Nat) : Bool :=
  match plotOf s u, plotOf s v with
  | some p, some q =>
    decide (p = q) || ((routeOf s u link).any (fun i => (routeOuts s u i).contains b) && entryFrom s v link (facing b) &&
      !flag s (PLOT_STATUS p) PLOT_STATUS_FENCED && !flag s (PLOT_STATUS q) PLOT_STATUS_FENCED)
  | _, _ => false

/-- The open channel of a core with a LINK source and this identity. -/
def receiverAt (s : State) (u link : Nat) : Option Nat :=
  (List.range 4).find? fun ch =>
    let x := chan s u ch
    chanOpen x && fromLink x.desc && decide (sLink x.desc = link)
/-- The open channel of a core with a LINK destination and this identity. -/
def senderAt (s : State) (u link : Nat) : Option Nat :=
  (List.range 4).find? fun ch =>
    let x := chan s u ch
    chanOpen x && toLink x.desc && decide (sLink x.desc = link)

/-- The cores a route reaches from core `u`, entered by `port`, this core included. -/
def routeDown (s : State) (link : Nat) : Nat → Nat → Nat → List Nat
  | 0, _, _ => []
  | fuel + 1, u, port =>
    match routeOf s u link with
    | none => []
    | some i =>
      if routeIn s u i = port then
        u :: ((routeOuts s u i).filterMap fun b => (neighbour s u b).map fun v => (v, facing b)).flatMap fun e =>
          routeDown s link fuel e.1 e.2
      else []
/-- The core where the route through core `u` begins: the one whose entry takes the local channel or the fabric port. -/
def routeRoot (s : State) (link : Nat) : Nat → Nat → Nat
  | 0, u => u
  | fuel + 1, u =>
    match routeOf s u link with
    | none => u
    | some i => if routeIn s u i < 4 then
        (match neighbour s u (routeIn s u i) with
         | some v => routeRoot s link fuel v
         | none => u)
      else u
/-- The cores from `u` back to the one where the route through it begins. -/
def routePath (s : State) (link : Nat) : Nat → Nat → List Nat
  | 0, _ => []
  | fuel + 1, u =>
    u :: (match routeOf s u link with
      | none => []
      | some i => if routeIn s u i < 4 then
          (match neighbour s u (routeIn s u i) with
           | some v => routePath s link fuel v
           | none => [])
        else [])
/-- A route passes through a core at most once (R306). -/
def routeFuel : Nat := nCores
/-- All the cores of the route that passes through core `u`. -/
def routeCores (s : State) (u link : Nat) : List Nat :=
  let r := routeRoot s link routeFuel u
  match routeOf s r link with
  | some i => routeDown s link routeFuel r (routeIn s r i)
  | none => []
/-- The sending channel of the route through core `u`. -/
def routeSender (s : State) (u link : Nat) : Option (Nat × Nat) :=
  let r := routeRoot s link routeFuel u
  (senderAt s r link).map fun ch => (r, ch)
/-- The receiving channels of the route through core `u`. -/
def routeReceivers (s : State) (u link : Nat) : List (Nat × Nat) :=
  (routeCores s u link).filterMap fun v => (receiverAt s v link).map fun ch => (v, ch)

def fwdKey (u out link : Nat) : Nat := (u * 8 + out) * 4096 + link
def fwdOf (s : State) (u out link : Nat) : Nat := mget 0 s.strm.fwd (fwdKey u out link)

/-- R313, R314: how credit of several branches appears upstream. `cs` are their credits, `fs` the bytes forwarded on them: in
decoupled mode no branch may come to lag by more than the limit. -/
def joinCredit (dec : Bool) (lag : Nat) (cs fs : List Nat) : Nat :=
  match least cs, least fs with
  | some lo, some f => if dec ∧ lag ≠ 0 ∧ 1 < cs.length then min (cs.foldl max 0) (f + lag * 4096) else lo
  | _, _ => 0

/-- Bytes that the route below core `u` (entered by `port`) has granted since the sender's start. -/
def creditBelow (s : State) (dec : Bool) (link : Nat) : Nat → Nat → Nat → Nat
  | 0, _, _ => 0
  | fuel + 1, u, port =>
    match routeOf s u link with
    | none => 0
    | some i =>
      if routeIn s u i = port then
        joinCredit dec (fld s (ROUTE_ENTRY u i) ROUTE_ENTRY_LAG) ((routeOuts s u i).map fun b =>
          if b = 4 then (match receiverAt s u link with
            | some ch => (chan s u ch).grants
            | none => 0)
          else if b = 5 then 2 ^ 64
          else if b = 1 && decide (colOf u = 127) then mget 0 s.strm.gwCredit (rowOf u * 4096 + link)
          else match neighbour s u b with
            | some v => creditBelow s dec link fuel v (facing b)
            | none => 0) ((routeOuts s u i).map fun b => fwdOf s u b link)
      else 0
/-- Bytes that the output `b` of core `u` may have forwarded. -/
def branchCredit (s : State) (dec : Bool) (link u b : Nat) : Nat :=
  if b = 4 then (match receiverAt s u link with
    | some ch => (chan s u ch).grants
    | none => 0)
  else if b = 5 then 2 ^ 64
  else if b = 1 && decide (colOf u = 127) then mget 0 s.strm.gwCredit (rowOf u * 4096 + link)
  else match neighbour s u b with
    | some v => creditBelow s dec link routeFuel v (facing b)
    | none => 0

/-! ### Closing (R247, R291) -/

/-- Every bank of a core that code `who` owns goes to owner 0. -/
def banksBack (u who : Nat) (s : State) : State :=
  (List.range 16).foldl (fun s b =>
    if bankOwner s u b = who then rset s (BANK_OWNER u b) 0 else s) s

/-- Pages of a channel return to its plot's pool (R317). -/
def poolReturn (p : Nat) (pages : List Nat) (s : State) : State :=
  { s with strm := { s.strm with
    poolUsed := pages.foldl (fun m k => mset false m (p * 2 ^ 20 + k) false) s.strm.poolUsed } }

/-- `PLOT_SPILL_SIZE.USED`: pages that channels and lagging branches hold (R314, R317). -/
def poolInUse (s : State) (p : Nat) : Nat := (s.strm.poolUsed.filter fun e => decide (e.1 / 2 ^ 20 = p)).length
/-- The lagging branches of the cores that satisfy `f` lose what waits there, and their pages return to the pools. -/
def dropBranches (f : Nat → Nat → Bool) (s : State) : State :=
  let s := { s with strm := { s.strm with branch := s.strm.branch.filter fun q => !f q.u q.link } }
  ((mkeys s.strm.brPages).filter fun k => f (k / 4096 / 8) (k % 4096)).foldl (fun s k =>
    let s := poolReturn ((plotOf s (k / 4096 / 8)).getD 0) (mget Pages.none s.strm.brPages k).list s
    { s with strm := { s.strm with brPages := mset Pages.none s.strm.brPages k Pages.none } }) s

/-- The core page offset of a CSR offset on the page of unit `u`. -/
def ownPage (u o : Nat) : Option Nat :=
  if !isCp u && decide (0x1000000 + u * 0x1000 ≤ o) && decide (o < 0x1000000 + u * 0x1000 + 0x1000) then
    some (o - (0x1000000 + u * 0x1000))
  else none
/-- The core page that a CSR offset lies in, with the page offset. -/
def pageAt (k : Nat) : Option (Nat × Nat) :=
  if 0x1000000 ≤ k ∧ k < 0x7400000 then some ((k - 0x1000000) / 0x1000, k % 0x1000) else none
/-- The device address lies on the own page of unit `u`. -/
def ownPageAt (u a : Nat) : Bool := decide (selOf a = 3) && (ownPage u (offOf a)).isSome
/-- A part of a context's access to its own page that has not taken place (R95). -/
def ownPart (r : Req) (p : Part) : Bool := !r.chan && p.ans.isNone && ownPageAt r.u p.addr
/-- An access of unit `u` to its own page that takes place in the beat after its issue (R95). -/
def ownWaits (u : Nat) (r : Req) : Bool := decide (r.u = u) && r.parts.any (ownPart r)
/-- Own-page accesses of these units that have not taken place are gone. -/
def dropOwn (p : Nat → Bool) (s : State) : State :=
  { s with core := { s.core with reqs := s.core.reqs.filter fun r => !(p r.u && ownWaits r.u r) } }
/-- The core that holds a Silt or scratch address is this one: a context or channel reaches it itself. -/
def ownMem (u a : Nat) : Bool := (selOf a = 1 || selOf a = 2) && decide (homeCore a = some u)
/-- Sieve keeps an access to the core's own memory waiting (R250). -/
def ownHeld (s : State) (u a n : Nat) : Bool := ownMem u a && sieveHolds s (homeKey s a) n
/-- A part of a context's access to its core's own memory that has not taken place (R250). -/
def heldPart (r : Req) (p : Part) : Bool := !r.chan && p.ans.isNone && decide (0 < p.n) && ownMem r.u p.addr
/-- Accesses of these units to their own memories that have not taken place are gone. -/
def dropHeld (p : Nat → Bool) (s : State) : State :=
  { s with core := { s.core with reqs := s.core.reqs.filter fun r => !(p r.u && r.parts.any (heldPart r)) } }

/-- The answers to a sender's outstanding accesses will be discarded. -/
def orphanWhere (p : Req → Bool) (s : State) : State :=
  { s with core := { s.core with reqs := s.core.reqs.map fun r => if p r then { r with orphan := true } else r } }

/-- A channel closes at once: its ring bytes are discarded, its banks go to owner 0, its outstanding accesses complete and
are discarded, its spill pages return. `CODE`, `STALLED`, `POISONED` and the event counts stay readable. -/
def closeChan (u ch : Nat) (s : State) : State :=
  let x := chan s u ch
  if !chanOpen x then s
  else
    let s := orphanWhere (fun r => r.chan && decide (r.u = u) && decide (r.c = ch)) s
    let s := banksBack u (5 + ch) s
    let s := if x.pages = [] then s else poolReturn ((plotOf s u).getD 0) x.pages s
    setChan s u ch { Chan.closed with
      owner := x.owner, code := x.code, stalled := x.stalled, poisoned := x.poisoned, pageWaits := x.pageWaits,
      stalls := x.stalls, stamp := x.stamp }

end Sys2Proof.Machine
end

