-- ==== Sys2Proof/Machine/LoamOps.lean ====
section
/-!
DEFINITION. The fabric of the Loam (chapter 15): sites and their features, selects, tokens and how they move (R405–R409), the
step of a word cell (R401, R402), regions and their fences.
-/
namespace Sys2Proof.Machine
open Sys2Proof

def setLoam (f : LoamSt → LoamSt) (s : State) : State := { s with loam := f s.loam }
/-- A token slot: none, or a value. -/
def slotOf (m : NMap Nat) (k : Nat) : Option Nat := match mget 0 m k with
  | 0 => none
  | v + 1 => some v
def fillSlot (m : NMap Nat) (k v : Nat) : NMap Nat := mset 0 m k (v % 65536 + 1)
def emptySlot (m : NMap Nat) (k : Nat) : NMap Nat := mset 0 m k 0

/-! ### Fabric ports (R415, R417) -/

/-- The region and the position of a border core's port (R17). -/
def regionOf (u edge : Nat) : Nat :=
  match edge with
  | 0 => colOf u / 32
  | 1 => 4 + rowOf u / 50
  | 2 => 8 + (127 - colOf u) / 32
  | _ => 12 + (199 - rowOf u) / 50
def regionRunning (s : State) (r : Nat) : Bool := decide (fld s (LOAM_RGN_STATUS r) LOAM_RGN_STATUS_STATE = 2)
/-- R417. -/
def fabReady (s : State) (u e : Nat) : Bool := regionRunning s (regionOf u e) && !fenced s u && !absentCore s u
def fabOf (s : State) (u e : Nat) : FabPort := mget FabPort.empty s.loam.fab (u * 4 + e)
def setFab (u e : Nat) (p : FabPort) (s : State) : State :=
  { s with loam := { s.loam with fab := mset FabPort.empty s.loam.fab (u * 4 + e) p } }
/-- The tokens of a TX transfer (R415): the code on TX.C, then TX.D0–TX.D3. -/
def txTokens (x : FabTx) : List (Nat × Nat) :=
  let words (v : W64) : List (Nat × Nat) := (List.range 4).map fun i => (i + 1, bitsOf v (16 * i) 16)
  match x with
  | .word v => (0, 0) :: words v
  | .mark v => [(0, 1), (1, v % 2 ^ 16)]
  | .answer v => (0, 3) :: words v
  | .badAnswer => (0, 4) :: words 0
/-! ### Sites and features (R398, R399) -/

def siteX (i : Nat) : Nat := i % 6144 % 96
def siteY (i : Nat) : Nat := i % 6144 / 96
def siteR (i : Nat) : Nat := i / 6144
def siteAt (r x y : Nat) : Nat := r * 6144 + y * 96 + x
/-- The border core and edge of fabric port `p` of a region (R17). -/
def portCore (r p : Nat) : Nat × Nat :=
  match r / 4 with
  | 0 => (r % 4 * 32 + p, 0)
  | 1 => ((r % 4 * 50 + p) * 128 + 127, 1)
  | 2 => (199 * 128 + (127 - (r % 4 * 32 + p)), 2)
  | _ => ((199 - (r % 4 * 50 + p)) * 128, 3)
def portCount (r : Nat) : Nat := if r / 4 % 2 = 0 then 32 else 50
/-- The port's place within its region. -/
def portOf (u edge : Nat) : Nat :=
  match edge with
  | 0 => colOf u % 32
  | 1 => rowOf u % 50
  | 2 => (127 - colOf u) % 32
  | _ => (199 - rowOf u) % 50

/-- A site source (R399). -/
inductive Source where
  | tx (p c : Nat)
  | glint
  | rdata (b q : Nat)
  | bin (c : Nat)
  | lane (j c : Nat)
  | pin (i : Nat)
  deriving DecidableEq, Repr
/-- A sink of a feature: RX.C, RX.A, RX.D0–RX.D3; ADDR or WDATA of a port; BOUT; TX.C, TX.D0–TX.D3; OUT; OE. -/
inductive Sink where
  | rx (p c : Nat)
  | mem (b q : Nat) (data : Bool)
  | bout (c : Nat)
  | lane (j c : Nat)
  | out (i : Nat)
  | oe (i : Nat)
  deriving DecidableEq, Repr

/-- The memory block at a place. -/
def blockSite (x y : Nat) : Option Nat :=
  if 6 ≤ x ∧ (x - 6) % 12 = 0 ∧ (x - 6) / 12 < 8 ∧ 4 ≤ y ∧ (y - 4) % 8 = 0 ∧ (y - 4) / 8 < 8 then
    some ((y - 4) / 8 * 8 + (x - 6) / 12) else none
/-- The boundary channel at a place: 0–31 toward r − 1, 32–63 toward r + 1. -/
def boundSite (x y : Nat) : Option Nat :=
  if y % 2 = 0 then (if x = 0 then some (y / 2) else if x = 95 then some (32 + y / 2) else none) else none
def laneSite (x y : Nat) : Option Nat := if y = 62 ∧ 12 ≤ x ∧ (x - 12) % 24 = 0 then some ((x - 12) / 24) else none
def pinSite (x y : Nat) : Option Nat := if y = 63 ∧ 2 ≤ x ∧ (x - 2) % 4 = 0 then some ((x - 2) / 4) else none

/-- The site sources of a site, in order. -/
def sourcesAt (i : Nat) : List Source :=
  let (x, y) := (siteX i, siteY i)
  (if y = 0 ∧ x < portCount (siteR i) then (List.range 5).map (.tx x) else []) ++
  (if y = 0 ∧ x = 60 then [.glint] else []) ++
  (match blockSite x y with | some b => [.rdata b 0, .rdata b 1] | none => []) ++
  (match boundSite x y with | some c => [.bin c] | none => []) ++
  (match laneSite x y with | some j => (List.range 5).map (.lane j) | none => []) ++
  (match pinSite x y with | some p => [.pin p] | none => [])
/-- The sinks of a site, in order. -/
def sinksAt (i : Nat) : List Sink :=
  let (x, y) := (siteX i, siteY i)
  (if y = 0 ∧ x < portCount (siteR i) then (List.range 6).map (.rx x) else []) ++
  (match blockSite x y with
   | some b => [.mem b 0 false, .mem b 0 true, .mem b 1 false, .mem b 1 true] | none => []) ++
  (match boundSite x y with | some c => [.bout c] | none => []) ++
  (match laneSite x y with | some j => (List.range 5).map (.lane j) | none => []) ++
  (match pinSite x y with | some p => [.out p, .oe p] | none => [])

/-! ### Selects and segments (R406, R407) -/

def cellFrame (s : State) (i : Nat) : BitVec 768 := mget idleCell s.loam.cells i
/-- Select `j` of a site. -/
def selAt (s : State) (i j : Nat) : Nat := if j < 32 then bitsOf (cellFrame s i) (512 + 5 * j) 5 else 0
/-- Where segment `j` (3–14) that leaves a site ends, with the select code there. -/
def segEnd (i j : Nat) : Option (Nat × Nat) :=
  let len := [1, 4, 16].getD ((j - 3) % 3) 1
  let (x, y, r, k) := (siteX i, siteY i, siteR i, (j - 3) % 3)
  if j < 3 then none
  else match (j - 3) / 3 with
    | 0 => if x + len < 96 then some (siteAt r (x + len) y, 2 + k) else none
    | 1 => if len ≤ x then some (siteAt r (x - len) y, 5 + k) else none
    | 2 => if y + len < 64 then some (siteAt r x (y + len), 8 + k) else none
    | 3 => if len ≤ y then some (siteAt r x (y - len), 11 + k) else none
    | _ => none
/-- Where the segment that arrives at a site under a code started, and its select there. -/
def segStart (i code : Nat) : Option (Nat × Nat) :=
  let len := [1, 4, 16].getD ((code - 2) % 3) 1
  let (x, y, r, k) := (siteX i, siteY i, siteR i, (code - 2) % 3)
  if code < 2 then none
  else match (code - 2) / 3 with
    | 0 => if len ≤ x then some (siteAt r (x - len) y, 3 + k) else none
    | 1 => if x + len < 96 then some (siteAt r (x + len) y, 6 + k) else none
    | 2 => if len ≤ y then some (siteAt r x (y - len), 9 + k) else none
    | 3 => if y + len < 64 then some (siteAt r x (y + len), 12 + k) else none
    | _ => none
def siteSource (i code : Nat) : Option Source := if 14 ≤ code then (sourcesAt i)[code - 14]? else none
/-- The selects of a site that name a code. -/
def namers (s : State) (i code : Nat) : List Nat := (List.range 22).filter fun j => decide (selAt s i j = code)

/-! ### Regions -/

def pinKey (r i : Nat) : Nat := r * 24 + i
def pinMode (s : State) (r i : Nat) : Nat := mget 0 s.loam.io (pinKey r i) % 8
/-- The lane on a lane port, enabled at a rate within range (R425). -/
def laneRateOk (s : State) (l : Nat) : Bool :=
  let n := fld s (FL_CFG l) FL_CFG_RATE_N
  let d := 2 ^ fld s (FL_CFG l) FL_CFG_RATE_D
  decide (320 ≤ n) && decide (n ≤ 1024) && decide (40 * d ≤ n)
def laneRegion (s : State) (l : Nat) : Nat := fld s (FL_CFG l) FL_CFG_REGION
def laneEn (s : State) (l : Nat) : Bool := flag s (FL_CFG l) FL_CFG_EN && laneRateOk s l
/-- The lane joins its lane port: its region runs (R452, R453). -/
def laneOn (s : State) (l : Nat) : Bool := laneEn s l && regionRunning s (laneRegion s l)
/-- The lane is enabled and its region's fence is up (R453). -/
def laneFenced (s : State) (l : Nat) : Bool :=
  laneEn s l && flag s (LOAM_RGN_STATUS (laneRegion s l)) LOAM_RGN_STATUS_FENCED
def laneAt (s : State) (r j : Nat) : Option Nat :=
  (List.range 16).find? fun l => laneOn s l && decide (laneRegion s l = r) && decide (fld s (FL_CFG l) FL_CFG_PORT = j)
/-- The region that a boundary channel joins to, and the channel there (R409). -/
def facingOf (r c : Nat) : Nat × Nat := if c < 32 then ((r + 15) % 16, 32 + c) else ((r + 1) % 16, c - 32)
/-- The channel that a region sends on is a LEVEL channel. -/
def boutLevel (s : State) (r c : Nat) : Bool := decide (mget 0 s.loam.bcfg (r * 64 + c) % 2 = 1)

/-! ### Level sources (R409, R420) -/

/-- The value of a level source: a LEVEL boundary channel or a level input pin. -/
def levelSource (s : State) (i : Nat) (x : Source) : Option Nat :=
  match x with
  | .bin c =>
    let (r, k) := facingOf (siteR i) c
    if boutLevel s r k then some (mget 0 s.loam.level (r * 64 + k)) else none
  | .pin p => if pinMode s (siteR i) p = 5 then some (b2n (mget false s.loam.sample (pinKey (siteR i) p))) else none
  | _ => none
/-- The level value that a code at a site carries, through any segments; none where it carries tokens. -/
def levelAt (s : State) : Nat → Nat → Nat → Option Nat
  | 0, _, _ => none
  | n + 1, i, code =>
    match segStart i code with
    | some (j, sel) => if code < 14 then levelAt s n j (selAt s j sel) else none
    | none => (siteSource i code).bind (levelSource s i)
/-- The level value of cell input `k`, if it is a level input. -/
def levelInput (s : State) (i k : Nat) : Option Nat := levelAt s 73728 i (selAt s i k)

/-! ### Tokens (R405) -/

def cellRun (s : State) (i : Nat) : CellRun := mget ⟨0, false, bitsW (cellFrame s i), 0⟩ s.loam.run i
where
  /-- Initial q0–q3 of a frame. -/
  bitsW (f : BitVec 768) : BitVec 64 := f.extractLsb' 400 64
def setRun (i : Nat) (x : CellRun) (s : State) : State :=
  setLoam (fun l => { l with run := mset ⟨0, false, cellRun.bitsW (cellFrame s i), 0⟩ l.run i x }) s

/-- The first token of a channel in a list of transfers. -/
def headOf (c : Nat) (l : List (List (Nat × Nat))) : Option Nat :=
  (l.findSome? fun t => t.find? fun e => decide (e.1 = c)).map (·.2)
/-- That token is taken. -/
def takeHead (c : Nat) : List (List (Nat × Nat)) → List (List (Nat × Nat))
  | [] => []
  | t :: ts => if t.any (fun e => decide (e.1 = c)) then t.filter (fun e => decide (e.1 ≠ c)) :: ts else t :: takeHead c ts

/-- The token that a source offers. -/
def tokenAt (s : State) (i code : Nat) : Option Nat :=
  let r := siteR i
  if !regionRunning s r then none
  else if code = 1 then (match (cellRun s i).out with
    | 0 => none
    | v + 1 => some v)
  else if code < 14 then slotOf s.loam.seg (i * 32 + code)
  else match siteSource i code with
    | none => none
    | some x => match x with
      | .tx p c =>
        let (u, e) := portCore r p
        if fabReady s u e then headOf c ((fabOf s u e).tx.map (·.2)) else none
      | .glint => slotOf s.loam.glint r
      | .rdata b q => slotOf s.loam.rdata ((r * 64 + b) * 2 + q)
      | .bin c => if (levelSource s i x).isSome then none else slotOf s.loam.bin (r * 64 + c)
      | .lane j c => (laneAt s r j).bind fun l => headOf c (mget [] s.loam.laneRx l)
      | .pin p => if pinMode s r p = 5 then none else (mget [] s.loam.inFifo (pinKey r p)).head?
/-- The token of a source leaves it. -/
def popToken (i code : Nat) (s : State) : State :=
  let r := siteR i
  let s := setLoam (fun l => { l with done := mset 0 l.done (i * 32 + code) 0 }) s
  if code = 1 then setRun i { cellRun s i with out := 0 } s
  else if code < 14 then setLoam (fun l => { l with seg := emptySlot l.seg (i * 32 + code) }) s
  else match siteSource i code with
    | none => s
    | some x => match x with
      | .tx p c =>
        let (u, e) := portCore r p
        let f := fabOf s u e
        let ts := takeHead c (f.tx.map (·.2))
        let tx := (List.zipWith (fun a b => (a.1, b)) f.tx ts).filter fun t => !t.2.isEmpty
        bumpCtr (160 + r) 1 (setFab u e { f with tx := tx } s)
      | .glint => setLoam (fun l => { l with glint := emptySlot l.glint r }) s
      | .rdata b q => setLoam (fun l => { l with rdata := emptySlot l.rdata ((r * 64 + b) * 2 + q) }) s
      | .bin c => setLoam (fun l => { l with bin := emptySlot l.bin (r * 64 + c) }) s
      | .lane j c =>
        match laneAt s r j with
        | some n => setLoam (fun l => { l with
            laneRx := mset [] l.laneRx n ((takeHead c (mget [] l.laneRx n)).filter fun t => !t.isEmpty) }) s
        | none => s
      | .pin p => setLoam (fun l => { l with inFifo := mset [] l.inFifo (pinKey r p) (mget [] l.inFifo (pinKey r p)).tail }) s

/-- Five tokens of a lane's TX make a transfer once all are there and the FIFO has room (R426, R427). -/
def laneGather (r j : Nat) (s : State) : State :=
  let i := siteAt r (12 + 24 * j) 62
  match laneAt s r j with
  | none => s
  | some l =>
    let q := mget [] s.loam.laneTx l
    match (List.range 5).mapM fun c => slotOf s.loam.sink (i * 8 + c) with
    | some (c :: ds) =>
      if 8 ≤ q.length then s
      else setLoam (fun m => { m with
        laneTx := mset [] m.laneTx l (q ++ [(c, packW (ds.zipIdx.map fun d => (d.1, 16 * d.2)))])
        sink := (List.range 5).foldl (fun z c => emptySlot z (i * 8 + c)) m.sink }) s
    | _ => s
/-- The clock of a pin is present. -/
def pinWord (s : State) (r i : Nat) : Nat := mget 0 s.loam.io (pinKey r i)
def pinClock (s : State) (r i : Nat) : Bool :=
  if pinWord s r i / 16 % 2 = 0 then flag s (LOAM_BANK_STATUS r) LOAM_BANK_STATUS_CLK0_PRESENT
  else flag s (LOAM_BANK_STATUS r) LOAM_BANK_STATUS_CLK1_PRESENT
/-- The bank has its supply, its delay lines are calibrated, its region runs: its released cells sample and send. -/
def bankLive (s : State) (r : Nat) : Bool :=
  regionRunning s r && decide (mget 3 s.loam.vccio r ≠ 3) && flag s (LOAM_BANK_STATUS r) LOAM_BANK_STATUS_CAL_DONE
/-- An output cell drives its pin: from release, or as bit 0 of the last OE token says (R420). -/
def pinDrives (s : State) (r i : Nat) : Bool :=
  mget false s.loam.driven r && (decide (pinWord s r i / 2 ^ 18 % 2 = 0) || mget false s.loam.oe (pinKey r i))
/-- The tokens of a LVL_OUT cell drive its pin from the next edges (R420); without its clock they wait (R424). -/
def pinLevels (r i : Nat) (s : State) : State :=
  if pinMode s r i = 6 ∧ bankLive s r = true ∧ pinClock s r i = true then
    let k := pinKey r i
    (mget [] s.loam.outFifo k).foldl (fun s v => emit (.pin r i (v % 2) (pinDrives s r i))
        (setLoam (fun l => { l with lastTok := mset 0 l.lastTok k (v + 1) }) s))
      (setLoam (fun l => { l with outFifo := mset [] l.outFifo k [] }) s)
  else s

/-- A feature sink takes a token, if it can. -/
def sinkTakes (i k v : Nat) (x : Sink) (s : State) : Option State :=
  let r := siteR i
  let latch (s : State) : Option State :=
    if (slotOf s.loam.sink (i * 8 + k)).isSome then none
    else some (setLoam (fun l => { l with sink := fillSlot l.sink (i * 8 + k) v }) s)
  match x with
  | .rx p _ =>
    let (u, e) := portCore r p
    if fabReady s u e then (latch s).map (bumpCtr (160 + r) 1) else none
  | .mem _ _ _ => latch s
  | .bout c =>
    let (r', c') := facingOf r c
    if boutLevel s r c then some (setLoam (fun l => { l with level := mset 0 l.level (r * 64 + c) (v % 65536) }) s)
    else if !regionRunning s r' || (slotOf s.loam.bin (r' * 64 + c')).isSome then none
    else some (setLoam (fun l => { l with bin := fillSlot l.bin (r' * 64 + c') v }) s)
  | .lane j _ =>
    match laneAt s r j with
    | some l => if flag s (FL_PRBS l) FL_PRBS_GEN_EN then none else (latch s).map (laneGather r j)
    | none => none
  | .out p =>
    let q := mget [] s.loam.outFifo (pinKey r p)
    if 8 ≤ q.length then none
    else some (pinLevels r p (setLoam (fun l => { l with outFifo := mset [] l.outFifo (pinKey r p) (q ++ [v % 65536]) }) s))
  | .oe p => some (setLoam (fun l => { l with oe := mset false l.oe (pinKey r p) (decide (v % 2 = 1)) }) s)
/-- Select `j` of a site takes a token of its source, if it can; with the keys of the sources this may move. -/
def selTakes (i j v : Nat) (s : State) : Option (State × List Nat) :=
  if j < 3 then
    if (slotOf s.loam.inp (i * 4 + j)).isSome then none
    else some (setLoam (fun l => { l with inp := fillSlot l.inp (i * 4 + j) v }) s, [])
  else if j < 15 then
    match segEnd i j with
    | none => none
    | some (e, code) =>
      if (slotOf s.loam.seg (e * 32 + code)).isSome then none
      else some (setLoam (fun l => { l with seg := fillSlot l.seg (e * 32 + code) v }) s, [e * 32 + code])
  else match (sinksAt i)[j - 15]? with
    | none => none
    | some x => (sinkTakes i (j - 15) v x s).map fun t =>
      (t, match x with
        | .bout c =>
          let (r', c') := facingOf (siteR i) c
          let e := siteAt r' (if c' < 32 then 0 else 95) (c' % 32 * 2)
          ((sourcesAt e).zipIdx.filter fun q => decide (q.1 = .bin c')).map fun q => e * 32 + 14 + q.2
        | .lane _ _ => (List.range 5).map fun c => i * 32 + selAt s i (15 + c)
        | _ => [])

/-- The source of key `k` offers its token to the selects that name it; with the keys this may move. -/
def offer (k : Nat) (s : State) : State × List Nat :=
  let i := k / 32
  let code := k % 32
  match tokenAt s i code with
  | none => (s, [])
  | some v =>
    let js := namers s i code
    let (s, work) := js.foldl (fun (a : State × List Nat) j =>
      if Nat.testBit (mget 0 a.1.loam.done k) j then a
      else match selTakes i j v a.1 with
        | none => a
        | some (t, w) => (setLoam (fun l => { l with done := mset 0 l.done k (mget 0 l.done k ||| 2 ^ j) }) t, a.2 ++ w)) (s, [])
    if js.all fun j => Nat.testBit (mget 0 s.loam.done k) j then
      let up := match segStart i code with
        | some (e, j) => if code < 14 then [e * 32 + selAt s e j] else []
        | none => []
      (popToken i code s, work ++ up ++ (if 14 ≤ code then [k] else []))
    else (s, work)
/-- Tokens move until none can: `n` bounds the work. -/
def settle : Nat → List Nat → State → State
  | 0, _, s => s
  | _ + 1, [], s => s
  | n + 1, k :: ks, s =>
    let (t, w) := offer k s
    settle n (ks ++ w) t
/-- Tokens move from the sources of these keys on. -/
def move (ks : List Nat) (s : State) : State := settle (2 ^ 24) ks s
/-- The sources that a site's selects `js` name may move again. -/
def feeders (s : State) (i : Nat) (js : List Nat) : List Nat := js.map fun j => i * 32 + selAt s i j
/-- The keys of a site's own sources. -/
def siteKeys (i : Nat) : List Nat := (List.range (sourcesAt i).length).map fun n => i * 32 + 14 + n
/-- The site of a fabric port, lane port and pin. -/
def pinSiteOf (r p : Nat) : Nat := siteAt r (4 * p + 2) 63
def laneSiteOf (r j : Nat) : Nat := siteAt r (12 + 24 * j) 62
def blockSiteOf (r b : Nat) : Nat := siteAt r (6 + 12 * (b % 8)) (4 + 8 * (b / 8))

/-- Tokens at the fabric ports of cores `mine` move once what held them ends (R417). -/
def wakePorts (mine : Nat → Bool) (s : State) : State :=
  move ((List.range 16).flatMap fun r => (List.range (portCount r)).flatMap fun p =>
    if mine (portCore r p).1 then siteKeys (siteAt r p 0) ++ feeders s (siteAt r p 0) [15, 16, 17, 18, 19, 20] else []) s
/-- Tokens that wait for a lane's TX, or for output pins of a bank, move once they can (R424, R429). -/
def wakeLane (l : Nat) (s : State) : State :=
  move (feeders s (laneSiteOf (laneRegion s l) (fld s (FL_CFG l) FL_CFG_PORT)) [15, 16, 17, 18, 19]) s
def wakePins (r : Nat) (s : State) : State :=
  (List.range 24).foldl (fun s i =>
    if pinMode s r i = 6 then move (feeders (pinLevels r i s) (pinSiteOf r i) [15]) (pinLevels r i s) else s) s

/-- The Glint reaches every region: GLINT offers its slot number, in place of one that has not been taken (R418). -/
def glintLoam (slot : Nat) (s : State) : State :=
  (List.range 16).foldl (fun s r =>
    if !regionRunning s r then s
    else
      let k := siteAt r 60 0 * 32 + 14
      let s := if (slotOf s.loam.glint r).isSome then satFld s (LOAM_RGN_ERR r) LOAM_RGN_ERR_GLINT_MISS 1 else s
      move [k] (setLoam (fun l => { l with glint := fillSlot l.glint r slot, done := mset 0 l.done k 0 }) s)) s

/-! ### The step of a cell (R401, R402) -/

/-- Result and flag of an operation. -/
def cellAlu (op : Nat) (a b : BitVec 16) (fl : Bool) : BitVec 16 × Bool :=
  let nz (x : BitVec 16) : BitVec 16 × Bool := (x, decide (x ≠ 0))
  let tf (x : Bool) : BitVec 16 × Bool := (if x then 1 else 0, x)
  let n := b.toNat % 16
  match op with
  | 1 => (a + b, decide (65536 ≤ a.toNat + b.toNat))
  | 2 => (a - b, decide (a.toNat < b.toNat))
  | 3 => nz (a &&& b)
  | 4 => nz (a ||| b)
  | 5 => nz (a ^^^ b)
  | 6 => nz (a <<< n)
  | 7 => nz (a >>> n)
  | 8 => nz (a.sshiftRight n)
  | 9 => tf (decide (a = b))
  | 10 => tf (decide (a.toInt < b.toInt))
  | 11 => tf (decide (a.toNat < b.toNat))
  | 12 => (if fl then a else b, fl)
  | 13 => nz (BitVec.ofNat 16 (a.toNat % 256 * (b.toNat % 256)))
  | 14 => nz (BitVec.ofInt 16 (sgn 8 a.toNat * sgn 8 b.toNat))
  | _ => nz a
/-- An operand: its value where it is there to be read. -/
def cellOperand (s : State) (i : Nat) (x : CellRun) (imm code : Nat) : Option Nat :=
  if code < 4 then some (bitsOf x.q (16 * code) 16)
  else if code = 7 then some imm
  else match levelInput s i (code - 4) with
    | some v => some v
    | none => slotOf s.loam.inp (i * 4 + (code - 4))
/-- The handshake input that an operand code names. -/
def cellInput (s : State) (i code : Nat) : List Nat :=
  if 4 ≤ code ∧ code < 7 ∧ (levelInput s i (code - 4)).isNone then [code - 4] else []

/-- The entry that a cell stands at. -/
def cellEntry (s : State) (i : Nat) : BitVec 48 := (cellFrame s i).extractLsb' (48 * (cellRun s i).pc) 48
def cellLen (s : State) (i : Nat) : Nat := bitsOf (cellFrame s i) 384 4
/-- One step of cell `i` whose entry has operation `op`; nothing where it waits or its region does not run. -/
def cellStep (op i : Nat) (s : State) : State :=
  let e := cellEntry s i
  let x := cellRun s i
  let f (lo n : Nat) : Nat := bitsOf e lo n
  if !regionRunning s (siteR i) || decide (f 0 6 ≠ op) then s
  else
    let next (fl : Bool) : Nat :=
      let on := (x.pc + 1) % cellLen s i
      match f 16 3 with
      | 0 => on
      | 1 => x.pc
      | 2 => if fl then f 19 3 else on
      | 3 => if fl then on else f 19 3
      | _ => f 19 3
    if op = 0 then setRun i { x with pc := next x.flag } s
    else
      let b := if op = 15 then some 0 else cellOperand s i x (f 32 16) (f 9 3)
      match cellOperand s i x (f 32 16) (f 6 3), b with
      | some a, some b =>
        if f 15 1 = 1 ∧ x.out ≠ 0 then s
        else
          let ins := (cellInput s i (f 6 3) ++ (if op = 15 then [] else cellInput s i (f 9 3))).eraseDups
          let (res, fo) := cellAlu op (BitVec.ofNat 16 a) (BitVec.ofNat 16 b) x.flag
          let fl := if f 22 1 = 1 then fo else x.flag
          let y : CellRun := {
            pc := next fl, flag := fl
            q := if f 14 1 = 1 then setBits x.q (16 * f 12 2) 16 res.toNat else x.q
            out := if f 15 1 = 1 then res.toNat + 1 else x.out }
          let s := setLoam (fun l => { l with inp := ins.foldl (fun z k => emptySlot z (i * 4 + k)) l.inp }) (setRun i y s)
          move ((if f 15 1 = 1 then [i * 32 + 1] else []) ++ feeders s i ins) s
      | _, _ => s

/-! ### Fences (R413, R453) -/

def rgnSrc (r : Nat) : Nat := 0x100 + r
/-- Tokens inside a region are discarded; fabric-port buffers and tokens that a neighbour has taken are kept (R453). -/
def dropRegion (r : Nat) (s : State) : State :=
  let site (n k : Nat) : Bool := decide (k / n / 6144 ≠ r)
  setLoam (fun l => { l with
    run := mkeep (site 1) l.run, inp := mkeep (site 4) l.inp, seg := mkeep (site 32) l.seg, sink := mkeep (site 8) l.sink
    done := mkeep (site 32) l.done, bin := mkeep (fun k => decide (k / 64 ≠ r)) l.bin, glint := mset 0 l.glint r 0
    rdata := mkeep (fun k => decide (k / 128 ≠ r)) l.rdata
    inFifo := mkeep (fun k => decide (k / 24 ≠ r)) l.inFifo, outFifo := mkeep (fun k => decide (k / 24 ≠ r)) l.outFifo
    sending := mkeep (fun k => decide (k / 24 ≠ r)) l.sending }) s
/-- The fence of a region rises: LEVEL outputs take their fence values, its pins their safe state (R453). -/
def fenceRegion (r : Nat) (s : State) : State :=
  let lv := (List.range 64).foldl (fun m c =>
    match mget 0 s.loam.bcfg (r * 64 + c) with
    | v => if v % 2 = 0 then m
      else match v / 2 % 4 with
        | 1 => mset 0 m (r * 64 + c) 0
        | 2 => mset 0 m (r * 64 + c) 65535
        | _ => m) s.loam.level
  setFld (setLoam (fun l => { l with level := lv, driven := mset false l.driven r false }) s) (LOAM_RGN_STATUS r) LOAM_RGN_STATUS_FENCED 1
/-- A region halts with a code (R413, R447). -/
def haltRegion (r code : Nat) (s : State) : State :=
  let q := LOAM_RGN_STATUS r
  fenceRegion r (setFld (setFld s q LOAM_RGN_STATUS_STATE 3) q LOAM_RGN_STATUS_HALT_CODE code)

/-! ### Memory blocks (R411–R414) -/

def wordKeyL (r b w : Nat) : Nat := (r * 64 + b) * 2048 + w
def loamWord (s : State) (k : Nat) : Nat := mget 0 s.loam.words k
def setLoamWord (k v : Nat) (s : State) : State :=
  setLoam (fun l => { l with words := mset 0 l.words k (v % 65536), badWords := mset false l.badWords k false }) s
/-- What a read finds in a word's check bits: `ecc` 1 a single-bit error, corrected and counted; 2 an uncorrectable one. -/
def readCheck (k ecc : Nat) (s : State) : State :=
  let r := k / 131072
  match ecc with
  | 0 => s
  | 1 => if mget false s.loam.badWords k then s else satFld s (LOAM_RGN_ERR r) LOAM_RGN_ERR_ECC_CORR 1
  | _ => setLoam (fun l => { l with badWords := mset false l.badWords k true }) s

/-! ### Fabric ports (R415–R417) -/

/-- A TX transfer enters the port's buffer, and its tokens move on (R415). -/
def fabSend (u e : Nat) (x : FabTx) (s : State) : State :=
  let p := fabOf s u e
  move ((List.range 5).map fun c => siteAt (regionOf u e) (portOf u e) 0 * 32 + 14 + c)
    (setFab u e { p with tx := p.tx ++ [(x, txTokens x)] } s)

end Sys2Proof.Machine
end

