-- ==== Sys2Proof/Machine/PlotOps.lean ====
section
/-!
DEFINITION. Faults and plots (chapters 3, 11): a context fault, the plot fault sequence up to the fence (R325 steps 1–3), its
settling (steps 4–6), plot reset and start (R90, R91), and the halt of a channel (R291, R292, R298).
-/
namespace Sys2Proof.Machine
open Sys2Proof

/-- A unit lies in plot `p`. -/
def unitIn (s : State) (p u : Nat) : Bool := decide (u < nCores) && inPlot s p u

/-- Units of a plot with a loaded program: their `CORE_CFG` differs from its reset value. -/
def loadedUnits (s : State) (p : Nat) : List Nat :=
  (mkeys s.csr).filterMap fun o =>
    if 0x1000000 ≤ o && decide ((o - 0x1000000) % 0x1000 = 8) && unitIn s p ((o - 0x1000000) / 0x1000) then
      some ((o - 0x1000000) / 0x1000)
    else none

/-- The numbers `i` below `n` whose register at `base + i × step + k` is listed in the CSR file. -/
def listedRegs (s : State) (base step n k : Nat) : List Nat :=
  (mkeys s.csr).filterMap fun o =>
    if base ≤ o && decide ((o - base) % step = k) && decide ((o - base) / step < n) then some ((o - base) / step) else none

/-- Synchronisation objects owned by plot `p` (R356). -/
def objectsOf (s : State) (p : Nat) : List Nat :=
  (listedRegs s 0x100000 0x10 65536 8).filter fun i =>
    decide (syncCtl s i SYNC_CTRL_OWNED = 1) && decide (syncCtl s i SYNC_CTRL_PLOT = p)
/-- Queues whose OWNER is plot `p` (R377). -/
def queuesOf (s : State) (p : Nat) : List Nat :=
  (listedRegs s 0x200000 0x40 65536 0x10).filter fun q =>
    decide (fld s (Q_CFG q) Q_CFG_OWNER = 3) && decide (fld s (Q_CFG q) Q_CFG_PLOT = p)
/-- Lock registers held by a source that satisfies `f`. -/
def locksOf (s : State) (f : Nat → Bool) : List Nat :=
  (listedRegs s 0xA000 8 256 0).filter fun i =>
    decide (fld s (LOCK i) LOCK_HOLDER ≠ 0) && f (fld s (LOCK i) LOCK_HOLDER)
/-- A source ID is that of a logical core of plot `p`. -/
def srcInPlot (s : State) (p src : Nat) : Bool := decide (0x8000 ≤ src) && unitIn s p (src - 0x8000)

/-- Locks of lost holders stay held, marked ABANDONED (R366). -/
def abandonLocks (f : Nat → Bool) (s : State) : State :=
  (locksOf s f).foldl (fun s i => setFld s (LOCK i) LOCK_ABANDONED 1) s
/-- WAITs of another module's objects, among requests out on Cyust that satisfy `f`: module × 8 + group, request number. -/
def waitsAway (f : Req → Bool) (s : State) : List (Nat × Nat) :=
  s.link.sent.filterMap fun e => ((s.core.reqs.find? fun r => decide (r.tag = e.tag) && f r).bind fun r =>
    match r.op with
    | .syncWait v _ => some (refModule v, e.tag)
    | _ => none)
/-- Remove the waiter records of requests that satisfy `f`; one in another module's pool is withdrawn there (R360). -/
def dropWaiters (f : Req → Bool) (s : State) : State :=
  let away := waitsAway f s
  let s := away.foldl (fun s e => emit (.remoteWithdraw e.1 e.2) s)
    { s with link := { s.link with sent := s.link.sent.filter fun x => !(away.any fun e => decide (e.2 = x.tag)) } }
  let gone := (s.core.reqs.filter f).map (·.tag)
  let objs := (s.sync.waiters.filter fun w => (w.tag.any fun t => gone.contains t)).map (·.obj)
  let s := { s with sync := { s.sync with waiters := s.sync.waiters.filter fun w => !(w.tag.any fun t => gone.contains t) } }
  objs.foldl (fun s i => syncCount i s) s

/-- Channels of the units that satisfy `f` close. -/
def closeChans (f : Nat → Bool) (s : State) : State :=
  ((mkeys s.strm.chans).filter fun k => f (k / 4)).foldl (fun s k => closeChan (k / 4) (k % 4) s) s

/-- Tokens that wait at units that satisfy `f` are discarded: also those on the way to a fabric port or from their rows to the
gateway (R325). -/
def dropTokens (f : Nat → Bool) (s : State) : State :=
  dropBranches (fun u _ => f u) { s with strm := { s.strm with
      tokens := s.strm.tokens.filter (fun q => !f q.u)
      gwOut := s.strm.gwOut.filter (fun e => !f (e.1 * 128 + 127))
      fabIn := mkeep (fun k => !f k) s.strm.fabIn } }

/-- Channels of other plots that the fence of plot `p` reaches (R326): receivers behind it, which a marker meets, and senders
whose route leads into it, which lose credit. -/
def fenceMeets (s : State) (p : Nat) : List (Nat × Nat) :=
  ((mkeys s.strm.chans).map fun k => (k / 4, k % 4)).filter fun e =>
    let x := chan s e.1 e.2
    let link := sLink x.desc
    chanOpen x && !unitIn s p e.1 &&
      ((fromLink x.desc && (routePath s link routeFuel e.1).any (unitIn s p)) ||
       (toLink x.desc && (routeCores s e.1 link).any (unitIn s p)))

/-- A fence stands that a fault raised, not an epoch (R31). -/
def faultFence (s : State) (p : Nat) : Bool := flag s (PLOT_STATUS p) PLOT_STATUS_FENCED && !s.avl.epochFence.contains p
/-- R325 steps 1–3 for plot `p`, first faulted by context `c` of core `u` with `code`; a fenced plot has taken them. The fault
ends its part in an epoch (R328). -/
def plotFault (p code u c : Nat) (s : State) : State :=
  let r := PLOT_STATUS p
  if faultFence s p then s
  else
    let s := { s with avl := { s.avl with
      epochIn := s.avl.epochIn.filter (· ≠ p), epochFence := s.avl.epochFence.filter (· ≠ p) } }
    let mine := fun v => unitIn s p v
    let markers := fenceMeets s p
    let s := dropWaiters (fun q => !q.chan && mine q.u) s
    let s := { s with core := { s.core with
        ctxs := mmap Ctx.unloaded (fun k => mine (k / 8)) (fun x =>
          match x.st with
          | .unloaded => x
          | .faulted => x
          | _ => { x with st := .halted, reason := 0, cause := 4, haltReq := false }) s.core.ctxs
        engines := mkeep (fun k => !mine (k / 2)) s.core.engines } }
    let s := setFld (setFld (setFld s r PLOT_STATUS_FIRST_CODE code) r PLOT_STATUS_FIRST_CORE u) r PLOT_STATUS_FIRST_CTX c
    let s := orphanWhere (fun q => mine q.u) (closeChans mine s)
    let s := setFld s r PLOT_STATUS_FENCED 1
    let s := dropTokens mine s
    let s := { s with strm := { s.strm with markers := s.strm.markers ++ markers } }
    abandonLocks (srcInPlot s p) s

/-- A context takes a fault (R117–R119): it enters FAULTED with its record, the core's summary counts it, and its plot
faults (R112). A context that runs or waits takes one, and a deferred fault finds a halted context too, while its plot has not
faulted (DEDUCED, log 99). -/
def faultCtx (u c code slot : Nat) (deferred : Bool) (pc info : Nat) (s : State) : State :=
  let x := ctx s u c
  if x.st ≠ .ready ∧ x.st ≠ .waiting ∧ ¬ (deferred ∧ x.st = .halted ∧ x.cause ≤ 3) then s
  else
    let s := setCtx s u c { x with
      st := .faulted, reason := 0, cause := 0, hold := .none, haltReq := false, repiOn := false, stepping := false
      fCode := code, fSlot := slot, fDef := deferred, fPc := pc, fInfo := BitVec.ofNat 64 info }
    let r := CORE_FAULT_SUM u
    let s :=
      if flag s r CORE_FAULT_SUM_VALID then satFld s r CORE_FAULT_SUM_COUNT 1
      else setFld (setFld (setFld s r CORE_FAULT_SUM_FIRST_CODE code) r CORE_FAULT_SUM_FIRST_CTX c) r CORE_FAULT_SUM_VALID 1
    match plotOf s u with
    | some p => plotFault p code u c s
    | none => s

/-- An access of context `c` of core `u` to the register at CSR offset `o`, which the privilege table does not permit (R102). -/
def csrDenied (u c o : Nat) (s : State) : State := faultCtx u c 0x0102 3 false (ctx s u c).pc (3 * 2 ^ 48 + o) s
/-! ### Gated blocks (R345, R550) -/

/-- The physical cores of a 4 × 4 block (R47). -/
def blockCores (b : Nat) : List Nat := (List.range 16).map fun k => (b / 32 * 4 + k / 4) * 128 + b % 32 * 4 + k % 4
/-- Background work is due on a core (R550, chapter 21). -/
def workDue (s : State) (ph : Nat) : Bool :=
  (s.avl.tests.any fun t => decide (t.core = ph)) || mget false s.avl.sieveDue ph ||
    mget false s.avl.scrubDue ph
/-- The block may be gated: every presented core lies in a shaded plot or in no plot, no background work is due (R550). -/
def mayGate (s : State) (b : Nat) : Bool :=
  (blockCores b).all fun ph => !workDue s ph && (match (logicalOf s ph).bind (plotOf s) with
    | some p => bit1 (rget s PWR_SHADE_ST) p
    | none => true)
def blockGated (s : State) (b : Nat) : Bool := mget false s.pwr.gated b && mayGate s b
/-- The blocks that hold a core of a committed plot. -/
def plotBlocks (s : State) (p : Nat) : List Nat :=
  (((List.range nCores).filter (inPlot s p)).map fun n => blockOf (physOf s n)).eraseDups
/-- Plots of `ps` leave shading: their blocks wake. -/
def unshade (ps : List Nat) (s : State) : State :=
  let bs := ((ps.flatMap (plotBlocks s)).eraseDups).filter (blockGated s)
  let s := ps.foldl (fun s p => rset s PWR_SHADE_ST (setBits (rget s PWR_SHADE_ST) p 1 0)) s
  let s := bs.foldl (fun s b => { s with pwr := { s.pwr with gated := mset false s.pwr.gated b false } }) s
  bumpCtr 38 bs.length s
/-- The unit is a core in a gated block (R345). -/
def unitGated (s : State) (u : Nat) : Bool := !isCp u && blockGated s (blockOf (physOf s u))
/-- A core page whose core sleeps (R334, R345): its block. -/
def sleepingPage (s : State) (o : Nat) : Option Nat :=
  (pageAt o).bind fun e => if e.1 < nCores && unitGated s e.1 then some (blockOf (physOf s e.1)) else none
/-- A management access to the page of a sleeping core is held in the wake buffer of its router, or waits upstream (R345); else `f`. -/
def unlessAsleep (m : Master) (o n : Nat) (v : Option W64) (f : State → State) (s : State) : State :=
  match sleepingPage s o with
  | some b =>
    { s with pwr := { s.pwr with heldPkts := s.pwr.heldPkts ++
      [⟨b, 3, none, paceTime s, some ⟨m, o, n, v⟩, s.pwr.heldPkts.any fun h => decide (h.block = b) && decide (h.vc = 3)⟩] } }
  | none => f s

/-- Before compute-up, BAR0 serves GLB and HOSTIF only (R467). -/
def hostBlocked (s : State) (m : Master) (k : Nat) : Bool :=
  match m with
  | .host _ => !flag s GLB_STATUS GLB_STATUS_COMPUTE_UP && !(decide (k < 0x1000) || (decide (0x8000 ≤ k) && decide (k < 0xA000)))
  | _ => false
/-- A port in D3hot answers configuration requests only (R463). -/
def portAsleep (s : State) (m : Master) : Bool :=
  match m with
  | .host p => mget false s.host.d3 p
  | _ => false
/-- A memory request that a port in D3hot does not serve: a read completes with Unsupported Request, a write is discarded. -/
def refuseHost (p : Nat) (isRead : Bool) (s : State) : State := if isRead then emit (.hostData p none false) s else s
/-- A memory request of the host of port `p`, by a row that names the port. -/
def byPort (p : Nat) (f : State → State) (s : State) (isRead : Bool := false) : State :=
  if mget false s.host.d3 p then refuseHost p isRead s else f s
/-- What master `m` asks of the register at CSR offset `o`: `f`, but that a core context faults (R32, R81, R102, R354), a port in
D3hot serves none, and before compute-up a host's read of most blocks returns 0 and its write is discarded (R463, R467). -/
def byMaster (m : Master) (o : Nat) (f : State → State) (s : State) (isRead : Bool := false) : State :=
  match m with
  | .unit u c => if isCp u then f s else csrDenied u c o s
  | .host p =>
    if portAsleep s m then refuseHost p isRead s
    else if hostBlocked s m o then (if isRead then emit (.csrData m 0) s else s)
    else f s
  | _ => f s

/-- R325 steps 4–6, once no access of the plot is outstanding: objects ABANDONED and their waiters woken, queues suspended
(R357, R377), one error-log entry, STATE = FAULTED. -/
def settlePlot (p : Nat) (s : State) : State :=
  let r := PLOT_STATUS p
  let objs := objectsOf s p
  let s := objs.foldl (fun s i => wakeWhere i (fun _ => true) 0x0501 (setFld s (SYNC_CTRL i) SYNC_CTRL_ABANDONED 1)) s
  let s := (queuesOf s p).foldl (fun s q =>
    if fld s (Q_CFG q) Q_CFG_STATE = 1 then setFld s (Q_CFG q) Q_CFG_STATE 2 else s) s
  let core := fld s r PLOT_STATUS_FIRST_CORE
  let s := logAs .contained (fld s r PLOT_STATUS_FIRST_CODE) (srcOf core) (some p) (fld s r PLOT_STATUS_FIRST_CTX) s
  setFld s r PLOT_STATUS_STATE 4

/-- The bundle index in `CTX_ENTRY`. -/
def entryOf (s : State) (u c : Nat) : Nat := fld s (CTX_ENTRY u c) CTX_ENTRY_ENTRY
/-- The register state of R93 at the entry point, in state `st` with halt cause `cause`. -/
def freshCtx (s : State) (u c : Nat) (st : CtxSt) (cause : Nat) : Ctx :=
  { Ctx.unloaded with st := st, cause := cause, pc := entryOf s u c }
def ctxEnabled (s : State) (u c : Nat) : Bool := Nat.testBit (fld s (CORE_CFG u) CORE_CFG_CTX_EN) c
/-- Every context of the plot's cores is set: enabled ones afresh, the others UNLOADED; an absent position has none (R24). -/
def freshCtxs (p : Nat) (st : CtxSt) (cause : Nat) (s : State) : State :=
  let us := (loadedUnits s p).filter fun u => !absentCore s u
  let s0 := { s with core := { s.core with
      ctxs := mkeep (fun k => !unitIn s p (k / 8)) s.core.ctxs
      last := mkeep (fun k => !unitIn s p k) s.core.last } }
  us.foldl (fun t u => (List.range 8).foldl (fun t c =>
    if ctxEnabled s u c then setCtx t u c (freshCtx s u c st cause) else t) t) s0

/-- The streams that pass between a plot's rows and the gateway start afresh: credit that their far senders hold and have not used
counts for their next receivers, and so does what the plot's own senders hold (R312; DESIGN CHOICE, log 105). -/
def gwAfresh (mine : Nat → Bool) (s : State) : State :=
  let here (k : Nat) : Bool := mine (k / 4096 * 128 + 127)
  let given (k : Nat) : Nat := ((List.range 6).map fun b => fwdOf s (k / 4096 * 128 + 127) b (k % 4096)).foldl max 0
  { s with
    strm := { s.strm with gwCredit := ((mkeys s.strm.gwCredit).filter here).foldl (fun m k =>
      mset 0 m k (mget 0 m k - fwdOf s (k / 4096 * 128 + 127) 1 (k % 4096))) s.strm.gwCredit }
    link := { s.link with gwTold := ((mkeys s.link.gwTold).filter here).foldl (fun m k =>
      mset 0 m k (mget 0 m k - given k)) s.link.gwTold } }
/-- Reset of all that R90 names on a plot's cores, but for the contexts and `PLOT_STATUS`. -/
def clearPlot (p : Nat) (s : State) : State :=
  let mine := fun v => unitIn s p v
  let s := dropWaiters (fun q => !q.chan && mine q.u) s
  let s := dropOwn mine (orphanWhere (fun q => mine q.u) (closeChans mine s))
  let s := gwAfresh mine (dropTokens mine s)
  let s := { s with
    core := { s.core with
      engines := mkeep (fun k => !mine (k / 2)) s.core.engines
      vecs := s.core.vecs.filter (fun v => !mine v.u)
      vecFirst := mkeep (fun k => !mine k) s.core.vecFirst
      glints := s.core.glints.filter (fun g => !mine g.1) }
    strm := { s.strm with
      chans := mkeep (fun k => !mine (k / 4)) s.strm.chans
      fwd := mkeep (fun k => !mine (k / 4096 / 8)) s.strm.fwd
      lagging := mkeep (fun k => !mine (k / 4096)) s.strm.lagging } }
  let s := resetRegs [.plot] (fun o =>
    (decide (0x1000000 ≤ o) && mine ((o - 0x1000000) / 0x1000)) || decide (PLOT_CFG p ≤ o ∧ o < PLOT_CFG p + 0x400)) s
  let s := (objectsOf s p).foldl (fun s i => setFld s (SYNC_CTRL i) SYNC_CTRL_ABANDONED 0) s
  let s := (queuesOf s p).foldl (fun s q =>
    if fld s (Q_CFG q) Q_CFG_STATE = 2 then setFld s (Q_CFG q) Q_CFG_STATE 1 else s) s
  let s := (locksOf s (srcInPlot s p)).foldl (fun s i => rset s (LOCK i) 0) s
  setFld s (PLOT_STATUS p) PLOT_STATUS_FENCED 0

/-- Plot reset (R90); a plot that is not committed has no cores to reset. -/
def plotReset (p : Nat) (s : State) : State :=
  if !plotValid s p then s
  else wakePorts (unitIn s p) (setFld (freshCtxs p .halted 5 (clearPlot p s)) (PLOT_STATUS p) PLOT_STATUS_STATE 5)

/-- Plot start (R91). -/
def plotStart (p : Nat) (s : State) : State :=
  if fld s (PLOT_STATUS p) PLOT_STATUS_STATE ≠ 5 then s
  else
    let s := { s with core := { s.core with
        ctxs := mmap Ctx.unloaded (fun k => unitIn s p (k / 8)) (fun x =>
          if x.st = .halted ∧ x.cause = 5 then { x with st := .ready, cause := 0 } else x) s.core.ctxs } }
    setFld s (PLOT_STATUS p) PLOT_STATUS_STATE 2

/-! ### The halt of a channel (R291, R292, R298) -/

/-- The channel runs in abort mode (R298). -/
def abortMode (s : State) (u : Nat) (d : W512) : Bool :=
  match sMode d with
  | 2 => true
  | 0 => (plotOf s u).any fun p => flag s (PLOT_CFG p) PLOT_CFG_FAULT_MODE
  | _ => false

/-- `CH_STATUS.CODE` takes a code. -/
def chanCode (u ch code : Nat) (s : State) : State := updChan s u ch fun x => { x with code := code }

/-- Abort mode: the channel closes, its owner faults with 0x0302 and the plot with it; the cause is recorded and logged. -/
def chanAbort (u ch code addr : Nat) (s : State) : State :=
  let x := chan s u ch
  let s := logErr code (srcOf u) (plotOf s u) addr s
  let s := closeChan u ch (chanCode u ch code s)
  faultCtx u x.owner 0x0302 2 true x.openPc addr s

/-- A halt condition with `code` at stream position `pos`, device address `addr` (R291, R292). A write channel's halt
position is the place it drains from (DEDUCED, log 13). -/
def chanHalt (u ch code pos addr : Nat) (s : State) : State :=
  let x := chan s u ch
  if !chanOpen x || decide (x.st = 4) then s
  else if abortMode s u x.desc then chanAbort u ch code addr s
  else
    let s := logErr code (srcOf u) (plotOf s u) addr s
    if x.st = 5 then closeChan u ch (chanCode u ch code s)
    else updChan s u ch fun x => { x with
      st := 3, code := code, page := none
      haltAt := some (match x.haltAt with
        | some q => min q pos
        | none => pos) }

end Sys2Proof.Machine
end

