-- ==== Sys2Proof/Machine/Scalar.lean ====
section
/-!
DEFINITION. The S-slot operations on registers (R125, R127–R130). Every operand is read from `pre`, the state before the
bundle (R83); the result is written onto `s`. Control flow of the S slot is in Sequencer.lean.
-/
namespace Sys2Proof.Machine
open Sys2Proof

/-! ### Results of a register land in issue order (R94, R95, R226) -/

/-- Registers that an access is still to write; an answer for s0 is never waited for (R144). -/
def reqRegs (r : Req) : List Reg :=
  r.dst.toList.filter (· ≠ .s 0) ++ (if r.pdst = 0 then [] else [.p r.pdst])
/-- Registers of a context that a load-like access or a result in flight is still to write. -/
def outstandingRegs (s : State) (u c : Nat) : List Reg :=
  ((s.core.reqs.filter fun r => !r.chan && !r.orphan && decide (r.u = u) && decide (r.c = c)).flatMap reqRegs) ++
  ((s.core.vecs.filter fun v => decide (v.u = u) && decide (v.c = c)).map (·.dst))
/-- A write of the context to register `d` that issued before number `tag` has not landed. -/
def olderWrite (s : State) (u c : Nat) (d : Reg) (tag : Nat) : Bool :=
  (s.core.reqs.any fun r => decide (r.tag < tag) && !r.chan && !r.orphan && decide (r.u = u) && decide (r.c = c) &&
      (reqRegs r).contains d) ||
    s.core.vecs.any fun v => decide (v.tag < tag) && decide (v.u = u) && decide (v.c = c) && decide (v.dst = d)
/-- A result joins those in flight. -/
def sendPend (v : VecPend) (s : State) : State :=
  { s with core := { s.core with vecs := s.core.vecs ++ [v], nextTag := max s.core.nextTag (v.tag + 1) } }
/-- A result of register `d` that waits for older ones of it. -/
def sendLate (u c : Nat) (d : Reg) (tag : Nat) (val mask : W512) (s : State) : State :=
  sendPend ⟨tag, u, c, 0, 0, d, val, mask, 0, 0, true⟩ s
/-- All 512 bits, and the low 64. -/
def allBits : W512 := BitVec.allOnes 512
def lowBits : W512 := BitVec.ofNat 512 (2 ^ 64 - 1)
/-- A result of the instruction that issues now: written at once, or behind the older ones of its register. -/
def writeNow (u c : Nat) (d : Reg) (val mask : W512) (f : Ctx → Ctx) (s : State) : State :=
  if (outstandingRegs s u c).contains d then sendLate u c d s.core.nextTag val mask s else updCtx s u c f
/-- Write scalar register `r` of a context. -/
def writeS (u c r : Nat) (v : W64) (s : State) : State := writeNow u c (.s r) (v.setWidth 512) lowBits (fun x => setS x r v) s
/-- Write predicate `r` of a context. -/
def writeP (u c r : Nat) (v : W64) (s : State) : State := writeNow u c (.p r) (v.setWidth 512) lowBits (fun x => setP x r v) s
/-- Write vector register `r` of a context. -/
def writeV (u c r : Nat) (v : W512) (s : State) : State := writeNow u c (.v r) v allBits (fun x => setV x r v) s
/-- Write descriptor register `r` of a context. -/
def writeD (u c r : Nat) (v : W512) (s : State) : State := writeNow u c (.d r) v allBits (fun x => setD x r v) s
/-- The bits of `mask` of a register take those of `val`. -/
def setReg (x : Ctx) (d : Reg) (val mask : W512) : Ctx :=
  let merge (old : W512) : W512 := (old &&& ~~~mask) ||| (val &&& mask)
  match d with
  | .s r => setS x r ((merge ((sr x r).setWidth 512)).setWidth 64)
  | .p r => setP x r ((merge ((pr x r).setWidth 512)).setWidth 64)
  | .v r => setV x r (merge (vr x r))
  | .d r => setD x r (merge (dr x r))
/-- A whole register takes the result of an access whose turn it is. -/
def putReg (u c : Nat) (d : Reg) (val : W512) (s : State) : State := updCtx s u c fun x => setReg x d val allBits

/-- Operand registers as they stood before the bundle. -/
def rdS (pre : State) (u c r : Nat) : W64 := sr (ctx pre u c) r
def rdP (pre : State) (u c r : Nat) : W64 := pr (ctx pre u c) r

/-- An imm13 sign-extended (ADDI, addresses) and zero-extended (ANDI, ORI, XORI) (R127). -/
def simm13 (imm : Nat) : W64 := sext64 13 imm
def zimm13 (imm : Nat) : W64 := BitVec.ofNat 64 imm

def effAdd (pre : State) (u c rd ra rb : Nat) (s : State) : State :=
  writeS u c rd (rdS pre u c ra + rdS pre u c rb) s
def effSub (pre : State) (u c rd ra rb : Nat) (s : State) : State :=
  writeS u c rd (rdS pre u c ra - rdS pre u c rb) s
def effAnd (pre : State) (u c rd ra rb : Nat) (s : State) : State :=
  writeS u c rd (rdS pre u c ra &&& rdS pre u c rb) s
def effOr (pre : State) (u c rd ra rb : Nat) (s : State) : State :=
  writeS u c rd (rdS pre u c ra ||| rdS pre u c rb) s
def effXor (pre : State) (u c rd ra rb : Nat) (s : State) : State :=
  writeS u c rd (rdS pre u c ra ^^^ rdS pre u c rb) s
/-- The shift amount rb[5:0]. -/
def shamt (v : W64) : Nat := bitsOf v 0 6
def effSll (pre : State) (u c rd ra rb : Nat) (s : State) : State :=
  writeS u c rd (rdS pre u c ra <<< shamt (rdS pre u c rb)) s
def effSrl (pre : State) (u c rd ra rb : Nat) (s : State) : State :=
  writeS u c rd (rdS pre u c ra >>> shamt (rdS pre u c rb)) s
def effSra (pre : State) (u c rd ra rb : Nat) (s : State) : State :=
  writeS u c rd ((rdS pre u c ra).sshiftRight (shamt (rdS pre u c rb))) s
def effMul (pre : State) (u c rd ra rb : Nat) (s : State) : State :=
  writeS u c rd (rdS pre u c ra * rdS pre u c rb) s
/-- High 64 bits of the unsigned 128-bit product. -/
def effMulhu (pre : State) (u c rd ra rb : Nat) (s : State) : State :=
  writeS u c rd (BitVec.ofNat 64 ((rdS pre u c ra).toNat * (rdS pre u c rb).toNat / 2 ^ 64)) s
def effMin (pre : State) (u c rd ra rb : Nat) (s : State) : State :=
  let a := rdS pre u c ra; let b := rdS pre u c rb
  writeS u c rd (if b.slt a then b else a) s
def effMax (pre : State) (u c rd ra rb : Nat) (s : State) : State :=
  let a := rdS pre u c ra; let b := rdS pre u c rb
  writeS u c rd (if a.slt b then b else a) s
def effMinu (pre : State) (u c rd ra rb : Nat) (s : State) : State :=
  let a := rdS pre u c ra; let b := rdS pre u c rb
  writeS u c rd (if b.ult a then b else a) s
def effMaxu (pre : State) (u c rd ra rb : Nat) (s : State) : State :=
  let a := rdS pre u c ra; let b := rdS pre u c rb
  writeS u c rd (if a.ult b then b else a) s
def effAddi (pre : State) (u c rd ra imm : Nat) (s : State) : State :=
  writeS u c rd (rdS pre u c ra + simm13 imm) s
def effAndi (pre : State) (u c rd ra imm : Nat) (s : State) : State :=
  writeS u c rd (rdS pre u c ra &&& zimm13 imm) s
def effOri (pre : State) (u c rd ra imm : Nat) (s : State) : State :=
  writeS u c rd (rdS pre u c ra ||| zimm13 imm) s
def effXori (pre : State) (u c rd ra imm : Nat) (s : State) : State :=
  writeS u c rd (rdS pre u c ra ^^^ zimm13 imm) s
def effSlli (pre : State) (u c rd ra sh : Nat) (s : State) : State := writeS u c rd (rdS pre u c ra <<< sh) s
def effSrli (pre : State) (u c rd ra sh : Nat) (s : State) : State := writeS u c rd (rdS pre u c ra >>> sh) s
def effSrai (pre : State) (u c rd ra sh : Nat) (s : State) : State :=
  writeS u c rd ((rdS pre u c ra).sshiftRight sh) s
/-- rd := imm18, sign-extended (R127, R128). -/
def effMovi (u c rd imm : Nat) (s : State) : State := writeS u c rd (sext64 18 imm) s
/-- rd[16 hw + 15 : 16 hw] := imm16; other bits kept. -/
def effMovk (pre : State) (u c rd hw imm : Nat) (s : State) : State :=
  writeS u c rd (setBits (rdS pre u c rd) (16 * hw) 16 imm) s

/-- The compare of R129 on 64-bit words. -/
def cmpWord (cc : Cc) (a b : W64) : Bool :=
  match cc with
  | .eq => decide (a = b)
  | .ne => decide (a ≠ b)
  | .lt => a.slt b
  | .ge => !a.slt b
  | .ltu => a.ult b
  | .geu => !a.ult b

def effCmp (pre : State) (u c pd : Nat) (cc : Cc) (ra rb : Nat) (s : State) : State :=
  writeP u c pd (boolWord (cmpWord cc (rdS pre u c ra) (rdS pre u c rb))) s
def effPand (pre : State) (u c pd pa pb : Nat) (s : State) : State :=
  writeP u c pd (rdP pre u c pa &&& rdP pre u c pb) s
def effPor (pre : State) (u c pd pa pb : Nat) (s : State) : State :=
  writeP u c pd (rdP pre u c pa ||| rdP pre u c pb) s
def effPxor (pre : State) (u c pd pa pb : Nat) (s : State) : State :=
  writeP u c pd (rdP pre u c pa ^^^ rdP pre u c pb) s
def effPandn (pre : State) (u c pd pa pb : Nat) (s : State) : State :=
  writeP u c pd (rdP pre u c pa &&& ~~~ (rdP pre u c pb)) s

/-- This module's index in its group and its group's index, from `CYUST_TOPO` (R130). -/
def moduleIdx (s : State) : Nat := fld s CYUST_TOPO CYUST_TOPO_MODULE
def groupIdx (s : State) : Nat := fld s CYUST_TOPO CYUST_TOPO_GROUP

/-- The system value that RDS selects (R130); on a control processor selections 0–4 and 10–15 read 0. -/
def sysValue (s : State) (u c sel : Nat) : Nat :=
  let x := ctx s u c
  let p := (plotOf s u).getD 0
  let cfg := PLOT_CFG p
  match sel with
  | 5 => mget 0 x.lc 0
  | 6 => mget 0 x.lc 1
  | 7 => mget 0 x.lc 2
  | 8 => mget 0 x.lc 3
  | 9 => x.slot
  | _ =>
    if isCp u then 0
    else
      match sel with
      | 0 => u
      | 1 => c
      | 2 => p
      | 3 => rowOf u
      | 4 => colOf u
      | 10 => fld s cfg PLOT_CFG_ROW0
      | 11 => fld s cfg PLOT_CFG_COL0
      | 12 => fld s cfg PLOT_CFG_HEIGHT
      | 13 => fld s cfg PLOT_CFG_WIDTH
      | 14 => moduleIdx s
      | 15 => groupIdx s
      | _ => 0

def effRds (pre : State) (u c rd sel : Nat) (s : State) : State :=
  writeS u c rd (BitVec.ofNat 64 (sysValue pre u c sel)) s

end Sys2Proof.Machine
end

