-- ==== Sys2Proof/Machine/Slots.lean ====
section
/-!
DEFINITION. Slot words (R121–R124): reading the instruction in each slot of a bundle. `none` is an unassigned encoding, a
reserved operand value or a 1 in a bit marked 0 (R122).
-/
namespace Sys2Proof.Machine
open Sys2Proof

def fPred (w : W32) : Nat := bitsOf w 29 3
def fOp (w : W32) : Nat := bitsOf w 23 6
/-- The operand bits [22:0]. -/
def fArg (w : W32) (lo n : Nat) : Nat := bitsOf w lo n

def ccOf : Nat → Option Cc
  | 0 => some .eq
  | 1 => some .ne
  | 2 => some .lt
  | 3 => some .ge
  | 4 => some .ltu
  | 5 => some .geu
  | _ => none

def vtyOf : Nat → Option VTy
  | 0 => some .i32
  | 1 => some .f32
  | 2 => some .i16
  | 3 => some .bf16
  | 4 => some .cf32
  | _ => none

/-- A word of OP 0 with no operand bit set is NOP, whatever its predicate (R123). -/
def isNopWord (w : W32) : Bool := decide (fOp w = 0) && decide (fArg w 0 23 = 0)

/-- The instruction of an S slot (R128). -/
def decodeS (u : Nat) (w : W32) : Option Instr :=
  let p := fPred w
  let rd := fArg w 18 5
  let ra := fArg w 13 5
  let rb := fArg w 8 5
  let imm := fArg w 0 13
  let rrr (i : Instr) : Option Instr := if fArg w 0 8 = 0 then some i else none
  let sh (i : Instr) : Option Instr := if fArg w 6 7 = 0 then some i else none
  let pp (i : Instr) : Option Instr := if fArg w 0 14 = 0 then some i else none
  let pd := fArg w 20 3
  match fOp w with
  | 0x00 => if isNopWord w then some (.nop u p .S) else none
  | 0x01 => rrr (.add u p rd ra rb)
  | 0x02 => rrr (.sub u p rd ra rb)
  | 0x03 => rrr (.and u p rd ra rb)
  | 0x04 => rrr (.or u p rd ra rb)
  | 0x05 => rrr (.xor u p rd ra rb)
  | 0x06 => rrr (.sll u p rd ra rb)
  | 0x07 => rrr (.srl u p rd ra rb)
  | 0x08 => rrr (.sra u p rd ra rb)
  | 0x09 => rrr (.mul u p rd ra rb)
  | 0x0A => rrr (.mulhu u p rd ra rb)
  | 0x0B => rrr (.min u p rd ra rb)
  | 0x0C => rrr (.max u p rd ra rb)
  | 0x0D => rrr (.minu u p rd ra rb)
  | 0x0E => rrr (.maxu u p rd ra rb)
  | 0x10 => some (.addi u p rd ra imm)
  | 0x11 => some (.andi u p rd ra imm)
  | 0x12 => some (.ori u p rd ra imm)
  | 0x13 => some (.xori u p rd ra imm)
  | 0x14 => sh (.slli u p rd ra (fArg w 0 6))
  | 0x15 => sh (.srli u p rd ra (fArg w 0 6))
  | 0x16 => sh (.srai u p rd ra (fArg w 0 6))
  | 0x17 => some (.movi u p rd (fArg w 0 18))
  | 0x18 => some (.movk u p rd (fArg w 16 2) (fArg w 0 16))
  | 0x19 => if fArg w 0 7 = 0 then (ccOf (fArg w 17 3)).map fun cc => .cmp u p pd cc (fArg w 12 5) (fArg w 7 5) else none
  | 0x1A => pp (.pand u p pd (fArg w 17 3) (fArg w 14 3))
  | 0x1B => pp (.por u p pd (fArg w 17 3) (fArg w 14 3))
  | 0x1C => pp (.pxor u p pd (fArg w 17 3) (fArg w 14 3))
  | 0x1D => pp (.pandn u p pd (fArg w 17 3) (fArg w 14 3))
  | 0x1E => if fArg w 5 13 = 0 && fArg w 0 5 < 16 then some (.rds u p rd (fArg w 0 5)) else none
  | 0x20 => if fArg w 11 12 = 0 then some (.br u p (fArg w 0 11)) else none
  | 0x21 => if fArg w 11 12 = 0 then some (.call u p (fArg w 0 11)) else none
  | 0x22 => if fArg w 0 23 = 0 then some (.ret u p) else none
  | 0x23 => if fArg w 0 23 = 0 then some (.eret u p) else none
  | 0x24 => if fArg w 11 7 = 0 then some (.loop u p rd (fArg w 0 11)) else none
  | 0x25 => some (.loopi u p (fArg w 11 12) (fArg w 0 11))
  | 0x26 => if fArg w 21 2 = 0 && fArg w 0 16 = 0 then some (.repi u p (fArg w 16 5)) else none
  | 0x27 => if fArg w 16 7 = 0 then some (.repii u p (fArg w 0 16)) else none
  | _ => none

/-- The instruction of a V slot (R133); `special` is `CORE_CFG.SPECIAL`, which chooses the form of VSPEC. -/
def decodeV (u : Nat) (special : Bool) (w : W32) : Option Instr :=
  let p := fPred w
  let vd := fArg w 19 4
  let va := fArg w 15 4
  let vb := fArg w 11 4
  let fn := fArg w 0 8
  match fOp w with
  | 0x00 => if isNopWord w then some (.nop u p .V) else none
  | op =>
    match vtyOf (fArg w 8 3) with
    | none => none
    | some t =>
      let vv (ok : Bool) (i : Instr) : Option Instr := if ok && decide (fn = 0) then some i else none
      match op with
      | 0x01 => vv true (.vadd u p t vd va vb)
      | 0x02 => vv true (.vsub u p t vd va vb)
      | 0x03 => vv true (.vmul u p t vd va vb)
      | 0x04 => vv (realTy t) (.vfma u p t vd va vb)
      | 0x05 => vv (realTy t) (.vmin u p t vd va vb)
      | 0x06 => vv (realTy t) (.vmax u p t vd va vb)
      | 0x07 => vv true (.vand u p t vd va vb)
      | 0x08 => vv true (.vor u p t vd va vb)
      | 0x09 => vv true (.vxor u p t vd va vb)
      | 0x0A => vv (intTy t) (.vshl u p t vd va vb)
      | 0x0B => if intTy t && decide (fn < 2) then some (.vshr u p t vd va vb (decide (fn = 1))) else none
      | 0x0C =>
        if fArg w 19 1 = 0 && fArg w 3 5 = 0 && realTy t then
          match ccOf (fArg w 0 3) with
          | some cc => if intTy t || !unsignedCc cc then some (.vcmp u p t (fArg w 20 3) cc va vb) else none
          | none => none
        else none
      | 0x0D => vv (decide (t = .cf32)) (.vcmac u p vd va vb)
      | 0x0E =>
        if vb = 0 && fn < 32 && realTy t then
          match vtyOf (fn % 8) with
          | some d =>
            let h := fn / 16
            if realTy d && decide (t ≠ d) && (decide (h = 0) || decide (laneBits t ≠ laneBits d)) then
              some (.vconv u p t d vd va (decide (fn / 8 % 2 = 1)) h)
            else none
          | none => none
        else none
      | 0x0F => if vb = 0 && fn < 3 && realTy t then some (.vred u p t vd va fn) else none
      | 0x10 => vv true (.vperm u p t vd va vb)
      | 0x11 => if fArg w 11 3 = 0 && fn = 0 then some (.vbcast u p t vd (fArg w 14 5)) else none
      | 0x12 =>
        if fArg w 11 3 = 0 && fArg w 0 3 = 0 && decide (fArg w 3 5 < laneCount t) then
          some (.vext u p t (fArg w 18 5) (fArg w 14 4) (fArg w 3 5))
        else none
      | 0x13 => vv (decide (vb = 0)) (.vmov u p t vd va)
      | 0x14 =>
        if special then
          if fn < 32 && decide (fn < laneCount t) && decide (vd ≠ va) then some (.vspecTap u p t vd va vb fn) else none
        else if fn < 4 && realTy t then
          some (.vspecSearch u p t vd va vb (decide (fn % 2 = 1)) (decide (fn / 2 = 1)))
        else none
      | _ => none

/-- The instruction of an M slot (R137). -/
def decodeM (u : Nat) (w : W32) : Option Instr :=
  let p := fPred w
  match fOp w with
  | 0x00 => if isNopWord w then some (.nop u p .M) else none
  | 0x01 => if fArg w 0 18 = 0 then some (.mm u p (fArg w 22 1) (fArg w 18 4)) else none
  | 0x08 => if fArg w 0 17 = 0 then some (.smOpen u p (fArg w 21 2) (fArg w 17 4)) else none
  | 0x09 => if fArg w 0 21 = 0 then some (.smClose u p (fArg w 21 2)) else none
  | 0x0A => if fArg w 0 14 = 0 then some (.smRd u p (fArg w 20 3) (fArg w 16 4) (fArg w 14 2)) else none
  | 0x0B => if fArg w 0 13 = 0 then some (.smRds u p (fArg w 20 3) (fArg w 15 5) (fArg w 13 2)) else none
  | 0x0C => if fArg w 0 16 = 0 && fArg w 22 1 = 0 then some (.smWr u p (fArg w 18 4) (fArg w 16 2)) else none
  | 0x0D => if fArg w 0 16 = 0 then some (.smWrs u p (fArg w 18 5) (fArg w 16 2)) else none
  | 0x0E => if fArg w 0 17 = 0 then some (.smSave u p (fArg w 21 2) (fArg w 17 4)) else none
  | _ => none

/-- The instruction of an X slot (R140). -/
def decodeX (u : Nat) (w : W32) : Option Instr :=
  let p := fPred w
  let rd := fArg w 18 5
  let ra := fArg w 13 5
  let rb := fArg w 8 5
  let imm := fArg w 0 13
  let v16 (i : Instr) : Option Instr := if rd < 16 then some i else none
  let rrr (i : Instr) : Option Instr := if fArg w 0 8 = 0 then some i else none
  let bare (i : Instr) : Option Instr := if fArg w 0 23 = 0 then some i else none
  let imm16 := fArg w 0 16
  let port := fArg w 16 2
  match fOp w with
  | 0x00 => if isNopWord w then some (.nop u p .X) else none
  | 0x01 => some (.ldB u p rd ra imm)
  | 0x02 => some (.ldH u p rd ra imm)
  | 0x03 => some (.ldW u p rd ra imm)
  | 0x04 => some (.ldD u p rd ra imm)
  | 0x05 => some (.ldBs u p rd ra imm)
  | 0x06 => some (.ldHs u p rd ra imm)
  | 0x07 => some (.ldWs u p rd ra imm)
  | 0x08 => v16 (.ldV u p rd ra imm)
  | 0x09 => v16 (.ldDsc u p rd ra imm)
  | 0x0A => some (.stB u p rd ra imm)
  | 0x0B => some (.stH u p rd ra imm)
  | 0x0C => some (.stW u p rd ra imm)
  | 0x0D => some (.stD u p rd ra imm)
  | 0x0E => v16 (.stV u p rd ra imm)
  | 0x0F => v16 (.stDsc u p rd ra imm)
  | 0x10 => rrr (.syncAdd u p rd ra rb)
  | 0x11 => rrr (.syncSet u p rd ra rb)
  | 0x12 => rrr (.syncWait u p rd ra rb)
  | 0x13 => if fArg w 0 7 = 0 && fArg w 17 3 = 0 then some (.syncTest u p (fArg w 20 3) (fArg w 12 5) (fArg w 7 5)) else none
  | 0x14 => if rb = 0 then rrr (.lockAcq u p rd ra) else none
  | 0x15 => if rb = 0 && rd = 0 then rrr (.lockRel u p ra) else none
  | 0x16 => rrr (.mbxSend u p rd ra rb)
  | 0x17 => if rb = 0 then rrr (.mbxWdraw u p rd ra) else none
  | 0x18 => if fArg w 0 9 = 0 then some (.qSubmit u p rd ra (fArg w 9 4)) else none
  | 0x19 => if fArg w 0 11 = 0 then some (.qTake u p (fArg w 20 3) (fArg w 16 4) (fArg w 11 5)) else none
  | 0x1A => bare (.evtWait u p)
  | 0x1B => if fArg w 3 20 = 0 then some (.evtSend u p (fArg w 0 3)) else none
  | 0x1C => if fArg w 1 22 = 0 then (if fArg w 0 1 = 0 then some (.glintWaitNext u p) else some (.glintWaitAlign u p)) else none
  | 0x1D => bare (.boundary u p)
  | 0x1E => bare (.halt u p)
  | 0x1F => if fArg w 16 7 = 0 then some (.fault u p imm16) else none
  | 0x20 => if imm16 = 0 then some (.fpRd u p rd port) else none
  | 0x21 => if imm16 = 0 then some (.fpWr u p rd port) else none
  | 0x22 => if imm16 = 0 && rd = 0 then some (.fpFlush u p port) else none
  | 0x23 => if rd = 0 then some (.fpMark u p port imm16) else none
  | 0x30 => if rd = 0 && rb = 0 then rrr (.svPrst u p ra) else none
  | 0x31 => if rd = 0 then rrr (.svSres u p ra rb) else none
  | 0x32 => if rd = 0 && fArg w 0 9 = 0 then some (.svPsw u p ra (fArg w 9 4)) else none
  | _ => none

/-- The slot words of a bundle (R82). -/
def slotWord (b : W128) : Slot → W32
  | .S => b.extractLsb' 0 32
  | .V => b.extractLsb' 32 32
  | .M => b.extractLsb' 64 32
  | .X => b.extractLsb' 96 32

/-- The instruction in a slot of a bundle of unit `u`. -/
def decodeSlot (u : Nat) (special : Bool) (b : W128) : Slot → Option Instr
  | .S => decodeS u (slotWord b .S)
  | .V => decodeV u special (slotWord b .V)
  | .M => decodeM u (slotWord b .M)
  | .X => decodeX u (slotWord b .X)

end Sys2Proof.Machine
end

