-- ==== Sys2Proof/Machine/Streams.lean ====
section
/-!
DEFINITION. What moves bytes of a stream (chapters 10, 11): opening, reading, writing, saving and closing a channel; requests
and their answers; segments; spill; tokens, credit and fence markers.
-/
namespace Sys2Proof.Machine
open Sys2Proof

/-- Bytes left before the stream's length from position `p`; `n` of them at most. -/
def upTo (d : W512) (p n : Nat) : Nat := if sLength d = 0 then n else min n (sLength d - p)
/-- The stream has a length and position `p` has reached it. -/
def atEnd (d : W512) (p : Nat) : Bool := decide (sLength d ≠ 0) && decide (sLength d ≤ p)

/-- The position that POS shows: a halted channel that writes, or that drains what a context wrote, shows the first failing byte
(R292); bytes accepted otherwise (R271). -/
def posAt (x : Chan) : Nat :=
  match x.haltAt with
  | some h => if toMem x.desc || writeChan x.desc then h else x.acc
  | none => x.acc
/-- POS as the state word shows it (R300). -/
def posShown (x : Chan) : Nat :=
  if sLength x.desc = 0 then (if usesMem x.desc then posAt x % patternBytes x.desc else posAt x % 2 ^ 40) else posAt x
/-- The live descriptor (R271). -/
def liveDesc (s : State) (u ch : Nat) : W512 :=
  let x := chan s u ch
  setBits x.desc 448 64 (posShown x % 2 ^ 40 + chanFill s u ch x % 2 ^ 20 * 2 ^ 40 + x.st * 2 ^ 60)

/-! ### The spill pool (R316–R320) -/

def poolOn (s : State) (p : Nat) : Bool := flag s (PLOT_SPILL_BASE p) PLOT_SPILL_BASE_EN
/-- A page of the pool that is free. -/
def poolFree (s : State) (p : Nat) : Option Nat :=
  if poolOn s p && decide (poolInUse s p < fld s (PLOT_SPILL_SIZE p) PLOT_SPILL_SIZE_PAGES) then
    (List.range (poolInUse s p + 1)).find? fun k => !mget false s.strm.poolUsed (p * 2 ^ 20 + k)
  else none
/-- A page of the pool is taken. -/
def poolTake (p k : Nat) (s : State) : State :=
  { s with strm := { s.strm with poolUsed := mset false s.strm.poolUsed (p * 2 ^ 20 + k) true } }
/-- Device address of byte `o` of pages `ps`. -/
def pageAddr (s : State) (p : Nat) (ps : List Nat) (o : Nat) : Nat :=
  fld s (PLOT_SPILL_BASE p) PLOT_SPILL_BASE_BASE * 4096 + ps.getD (o / 4096) 0 * 4096 + o % 4096
/-- Bytes `[o, o + n)` of pages `ps` in pieces within 64 B: device address, place among the `n`, length. -/
def pagePieces (s : State) (p : Nat) (ps : List Nat) (o n : Nat) : List (Nat × Nat × Nat) :=
  (splitAt (n / 64 + 2) 64 o n).map fun e => (pageAddr s p ps e.1, e.1 - o, e.2)
/-- The first piece that the map does not hold (R35, R320); a pool with a selector that `PLOT_SPILL_BASE` does not allow has none that
it holds (DESIGN CHOICE, log 105). -/
def pageUnmapped (s : State) (ps : List (Nat × Nat × Nat)) : Option Nat :=
  (ps.find? fun e => decide (1 < selOf e.1) || !mapped s e.1 e.2.2).map (·.1)
/-- Sieve keeps a piece in Silt from being reached (R250). -/
def pagesHeld (s : State) (ps : List (Nat × Nat × Nat)) : Bool :=
  ps.any fun e => !isLocalDram s (selOf e.1) && sieveHolds s (homeKey s e.1) e.2.2
/-- One piece is written. Pool pages lie in LPDDR5X or in Silt; the marks of poisoned bytes go with them (R320). -/
def piecePut (bs : List PByte) (s : State) (e : Nat × Nat × Nat) : State :=
  let bs := (bs.drop e.2.1).take e.2.2
  let bad := (List.range bs.length).filter fun i => (bs.getD i (0, false)).2
  if isLocalDram s (selOf e.1) then dramWrite (offOf e.1) (bs.map (·.1)) bad s
  else markLoc (homeKey s e.1) bad (locStore ((homeCore e.1).getD 0) (homeKey s e.1) (bs.map (·.1)) s)
/-- One piece is read, with what reading does to its words (R254, R255). -/
def pieceGet (a : List PByte × State) (e : Nat × Nat × Nat) : List PByte × State :=
  let s := a.2
  if isLocalDram s (selOf e.1) then
    let bad := dramBadWords s (offOf e.1) e.2.2
    (a.1 ++ ((chunkData s (offOf e.1) e.2.2).zipIdx.map fun b => (b.1, bad.contains ((offOf e.1 + b.2) / 8))), s)
  else
    let k := homeKey s e.1
    let s := touchRange ((homeCore e.1).getD 0) k e.2.2 s
    (a.1 ++ ((locBytes s k e.2.2).zipIdx.map fun b => (b.1, locPoisoned s ((k + b.2) / 8))), s)

/-- Take one page, if the pool and CH_MAX allow; its 4,096 bytes of credit go to the sender. -/
def takePage (u ch : Nat) (s : State) : State :=
  let x := chan s u ch
  let p := (plotOf s u).getD 0
  let cap := fld s (PLOT_SPILL_SIZE p) PLOT_SPILL_SIZE_CH_MAX
  match (if cap = 0 || decide (x.pages.length < cap) then poolFree s p else none) with
  | none => updChan s u ch fun x => { x with exhausted := true }
  | some k => updChan (poolTake p k s) u ch fun x => { x with pages := x.pages ++ [k], grants := x.grants + 4096, exhausted := false }

/-- The bytes of the next token of a sender, and whether it is one: 32, fewer at the stream's end or while it closes. -/
def nextToken (x : Chan) : Nat × Bool :=
  let n := min 32 (x.acc - x.drained)
  (n, decide (0 < n) && (decide (n = 32) || atEnd x.desc (x.drained + n) || decide (x.st = 5)))
/-- A sender holds the bytes of a token and not the credit for it (R312). -/
def creditWaits (s : State) (u ch : Nat) : Bool :=
  let x := chan s u ch
  (nextToken x).2 && decide (creditBelow s (sDec x.desc) (sLink x.desc) routeFuel u 4 < x.sent + (nextToken x).1)
/-- The sender of the stream that channel `ch` receives waits on credit: one on another module counts as waiting once it has used
all that it was granted (DESIGN CHOICE, log 105). -/
def senderWaits (s : State) (u ch : Nat) : Bool :=
  let x := chan s u ch
  match routeSender s u (sLink x.desc) with
  | some (v, k) => creditWaits s v k
  | none => decide (x.grants < x.arrived + 32)

/-- Enter spill mode (R317): one page, and the entry is counted. -/
def enterSpill (u ch : Nat) (s : State) : State :=
  let x := chan s u ch
  let p := (plotOf s u).getD 0
  if x.spill || !fromLink x.desc then s
  else if (poolFree s p).isNone then updChan s u ch fun x => { x with exhausted := true }
  else
    let s := updChan s u ch fun x => { x with spill := true, spIn := 0, spOut := 0, stall := 0, raised := false }
    takePage u ch (plotCtr u 4 1 (satFld s (PLOT_SPILL_SIZE p) PLOT_SPILL_SIZE_SPILLS 1))

/-- Bytes in a channel's pages. -/
def spilled (x : Chan) : Nat := x.spIn - x.spOut
/-- Where the next `n` bytes of a channel's pages go. -/
def putPieces (s : State) (u : Nat) (x : Chan) (n : Nat) : List (Nat × Nat × Nat) :=
  pagePieces s ((plotOf s u).getD 0) x.pages x.spIn n
/-- Bytes go to the pages in stream order; an address that does not exist halts the channel (R320). -/
def spillPut (u ch : Nat) (bs : List PByte) (s : State) : State :=
  let x := chan s u ch
  let ps := putPieces s u x bs.length
  match pageUnmapped s ps with
  | some a => chanHalt u ch 0x0603 (x.acc + spilled x) a s
  | none => updChan (ps.foldl (piecePut bs) s) u ch fun x => { x with
      spIn := x.spIn + bs.length, stall := 0, raised := false, exhausted := false }

/-- Free bytes of the ring at its filling end. -/
def ringFree (s : State) (u ch : Nat) (x : Chan) : Nat :=
  ((List.range (ringSize x.desc)).takeWhile fun i => ringRoom s u ch x (x.acc + i)).length
def pagesFree (x : Chan) : Nat := x.pages.length * 4096 - x.spIn

/-- The ring is refilled from the pages in stream order as far as it has room (R317), before the halt position of a halted
channel (R292). -/
def refill (u ch : Nat) (s : State) : State :=
  let x := chan s u ch
  let n := min (spilled x) (ringFree s u ch x)
  let n := (x.haltAt.map fun h => min n (h - x.acc)).getD n
  let ps := pagePieces s ((plotOf s u).getD 0) x.pages x.spOut n
  if n = 0 || pagesHeld s ps || ringHeld s u x.desc x.acc n then s
  else match pageUnmapped s ps, ringDenied s u ch x.desc x.acc n with
    | some a, _ => chanHalt u ch 0x0603 x.acc a s
    | none, some b => chanHalt u ch 0x0602 x.acc (devOfLocal u b) s
    | none, none =>
      let r := ps.foldl pieceGet ([], s)
      updChan (ringPut u x.desc x.acc r.1 r.2) u ch fun x =>
        let x := { x with acc := x.acc + n, spOut := x.spOut + n, stall := 0, raised := false, poisoned := x.poisoned || r.1.any (·.2) }
        if toMem x.desc then countBytes n x else x

/-- `n` bytes have left the ring. -/
def drainBytes (u ch n : Nat) (s : State) : State :=
  refill u ch (updChan s u ch fun x =>
    let x := { x with drained := x.drained + n, lastDrain := paceTime s, stall := 0, raised := false, exhausted := false
                      owed := if fromLink x.desc then x.owed + n else x.owed }
    if toMem x.desc then x else countBytes n x) |> plotCtr u 7 n

/-- Bytes enter the ring, which has room for them. -/
def fillBytes (u ch : Nat) (bs : List PByte) (s : State) : State :=
  let x := chan s u ch
  let s := ringPut u x.desc x.acc bs s
  updChan s u ch fun x =>
    let x := { x with acc := x.acc + bs.length, stall := 0, raised := false, exhausted := false, poisoned := x.poisoned || bs.any (·.2) }
    if toMem x.desc then countBytes bs.length x else x

/-! ### The stream instructions (R137–R139, R299) -/

/-- Credit of a gateway row that a stream's earlier sender has not used goes to the next one (R312). -/
def gwLeft (s : State) (link : Nat) (m : NMap Nat) (v : Nat) : NMap Nat :=
  if colOf v = 127 then mset 0 m (rowOf v * 4096 + link) (mget 0 m (rowOf v * 4096 + link) - fwdOf s v 1 link) else m
/-- A new sender: what its route carried before no longer counts, and its receivers' credit is the room they have. -/
def newSender (u link : Nat) (s : State) : State :=
  let cores := routeCores s u link
  let gw := cores.foldl (gwLeft s link) s.strm.gwCredit
  let s := dropBranches (fun v l => decide (l = link) && cores.contains v) s
  let s := { s with strm := { s.strm with
      tokens := s.strm.tokens.filter (fun q => !(decide (q.tok.link = link) && cores.contains q.u))
      fwd := mkeep (fun k => !(decide (k % 4096 = link) && cores.contains (k / 4096 / 8))) s.strm.fwd
      gwCredit := gw } }
  (routeReceivers s u link).foldl (fun s e => updChan s e.1 e.2 fun y =>
    { y with grants := ringSize y.desc - chanFill s e.1 e.2 y + pagesFree y, arrived := 0, owed := 0
             sent := if toRing y.desc then returned s e.1 e.2 y else y.sent }) s
/-- SM.OPEN of a descriptor that passes R280. A receiver's credit counts from the bytes that its core has been given. -/
def openChan (u c ch pc : Nat) (d : W512) (s : State) : State :=
  let old := chan s u ch
  let begun := fwdOf s u 4 (sLink d)
  let p0 := sPos d - sFill d
  let x : Chan := { Chan.closed with
    st := 1, owner := c, openPc := pc, desc := setBits d 448 64 0, base := p0, acc := p0, drained := p0, issued := p0
    r0 := syncVal s (sFreeObj d), ema := firstRate s d, stamp := old.stamp, stalled := old.stalled
    poisoned := old.poisoned, code := old.code, pageWaits := old.pageWaits, stalls := old.stalls
    grants := if fromLink d then begun + ringSize d else 0, arrived := if fromLink d then begun else 0
    lastDrain := paceTime s, spillOk := sSpill d }
  let s := setChan s u ch x
  if toLink d then newSender u (sLink d) s else s

/-- SM.RD and SM.RDS: `n` bytes at most are delivered; poisoned ones raise the deferred fault of R256. -/
def readChanBytes (s : State) (u ch n : Nat) : List PByte :=
  let x := chan s u ch
  ringGet s u x.desc x.drained (upTo x.desc x.drained n)
/-- Enough bytes for a read of `n` are in the ring, in banks that the channel owns and that Sieve leaves alone, or the stream is at
its end. -/
def readReady (s : State) (u ch n : Nat) : Bool :=
  let x := chan s u ch
  let k := upTo x.desc x.drained n
  decide (x.drained + k ≤ x.acc) && (ringDenied s u ch x.desc x.drained k).isNone && !ringHeld s u x.desc x.drained k
/-- Room for a write of `n` bytes, as far as the stream's length lets it take them. -/
def writeRoom (s : State) (u ch n : Nat) : Bool :=
  let x := chan s u ch
  (List.range (upTo x.desc x.acc n)).all (fun i => ringRoom s u ch x (x.acc + i))
def writeReady (s : State) (u ch n : Nat) : Bool :=
  let x := chan s u ch
  let k := upTo x.desc x.acc n
  writeRoom s u ch n && (ringDenied s u ch x.desc x.acc k).isNone && !ringHeld s u x.desc x.acc k

/-- A stream read of `n` bytes: `put` writes the destination with the bytes, zero-filled; `pd` is written (R138). -/
def effRead (u c pd ch n : Nat) (put : Nat → State → State) (s : State) : State :=
  let x := chan s u ch
  if atEnd x.desc x.drained then writeP u c pd 0 s
  else
    let k := upTo x.desc x.drained n
    let s := ringTouch u x.desc x.drained k s
    let bs := ringGet s u x.desc x.drained k
    let pc := (ctx s u c).pc
    match (List.range k).find? fun i => (bs.getD i (0, false)).2 with
    | some i =>
      let a := devOfLocal u (sRing x.desc + (x.drained + i) % ringSize x.desc)
      faultCtx u c 0x0601 2 true pc (a / 8 * 8) (drainBytes u ch k s)
    | none =>
      let s := drainBytes u ch k s
      writeP u c pd (BitVec.allOnes 64) (put (leNat (bs.map (·.1))) s)

/-- A stream write of the low `n` bytes of `v`. -/
def effWrite (u ch n v : Nat) (s : State) : State :=
  let x := chan s u ch
  fillBytes u ch (((leBytes n v).take (upTo x.desc x.acc n)).map fun b => (b, false)) s

/-- SM.CLOSE (R139, R291). -/
def effClose (u ch : Nat) (s : State) : State :=
  let x := chan s u ch
  if writeChan x.desc && (decide (x.st = 1) || decide (x.st = 2) || decide (x.st = 4)) then
    updChan s u ch fun x => { x with st := 5 }
  else if x.st = 5 then s
  else closeChan u ch s

/-! ### Requests to memory (R275, R282, R284, R286, R287) -/

/-- The tracking partition of a read of `a` (R286). -/
def partition (s : State) (a : Nat) : Option Nat :=
  if isLocalDram s (selOf a) then
    let o := offOf a
    let st := o / 960
    let chn := ((st / 4) % 16 + 1 + (o % 960) / 64) % 16
    some (2 * (st % 4) + chn / 8)
  else if selOf a = 8 || selOf a = 9 || decide (0x40 ≤ selOf a) then some (a / 1024 % 8)
  else none
/-- The access reads memory. -/
def readsMem (r : Req) : Bool :=
  match r.op with
  | .store _ _ _ => false
  | _ => true
/-- Tracking entries in use in partition `k`. -/
def tracked (s : State) (k : Nat) (ofChans : Bool) : Nat :=
  (s.core.reqs.map fun r =>
    if r.tracked && readsMem r && (r.chan || !ofChans) then
      (r.parts.filter fun q => decide (0 < q.n) && q.ans.isNone && partition s q.addr == some k).length else 0).foldl (· + ·) 0
/-- Entries of partition `k` that channels (`ofChan`) or contexts may still take. -/
def trackFree (s : State) (k : Nat) (ofChan : Bool) : Nat :=
  min (4096 - tracked s k false) (if ofChan then 3584 - tracked s k true else 4096)
/-- The partitions have entries for reads at these addresses, all of them. -/
def trackRoom (s : State) (as : List Nat) (ofChan : Bool) : Bool :=
  (List.range 8).all fun k => decide ((as.filter fun a => partition s a == some k).length ≤ trackFree s k ofChan)

def coreReads (s : State) (u : Nat) : Nat :=
  ((List.range 4).map fun ch => outstanding s u ch).foldl (· + ·) 0

/-- Stream bytes from `p` on, 64 at most, that lie in one aligned 64 B of memory and satisfy `ok` (R287; DESIGN CHOICE, log 104). -/
def memRun (d : W512) (p : Nat) (ok : Nat → Bool) : Nat :=
  let a := memAddr d p
  ((List.range 64).takeWhile fun i => decide (memAddr d (p + i) / 64 = a / 64) && !atEnd d (p + i) && ok (p + i)).length
/-- Those of them whose addresses follow one another: what one write takes. -/
def memSpan (d : W512) (p : Nat) (ok : Nat → Bool) : Nat :=
  let a := memAddr d p
  ((List.range (64 - a % 64)).takeWhile fun i => decide (memAddr d (p + i) = a + i) && !atEnd d (p + i) && ok (p + i)).length
/-- The address of a stream byte lies in the space of its endpoint, in the map (R35, R273). -/
def inSpace (s : State) (d : W512) (p : Nat) : Bool :=
  decide (selOf (memAddr d p) = selOf (sAddr d)) && mapped s (memAddr d p) 1

/-- The translation that an access to host memory needs is held (R295). -/
def translated (s : State) (a : Nat) (write : Bool) : Bool :=
  s.host.atc.any fun t => decide (t.port = selOf a - 8) && decide (t.page ≤ offOf a / 4096) &&
    decide (offOf a / 4096 < t.page + t.pages) && (if write then t.wr else t.rd)
/-- Whether an access must wait for a translation (R295, R297). -/
def needsXlat (s : State) (a : Nat) (write : Bool) : Bool :=
  (selOf a = 8 || selOf a = 9) && flag s (HOSTIF_PORT_STATUS (selOf a - 8)) HOSTIF_PORT_STATUS_ATS_EN && !translated s a write
/-- The translation for the page of `a` has been asked for. -/
def xlatAsked (s : State) (a : Nat) (write : Bool) : Bool :=
  s.host.xreqs.any fun r => decide (r.port = selOf a - 8) && decide (r.page = offOf a / 4096) && decide (r.write = write)
/-- Ask for a translation, once. -/
def askXlat (a : Nat) (write : Bool) (s : State) : State :=
  if xlatAsked s a write then s
  else emit (.translationRequest (selOf a - 8) (offOf a / 4096) write)
    (bumpCtr (150 + 8 * (selOf a - 8)) 1 { s with host := { s.host with
      xreqs := s.host.xreqs ++ [⟨selOf a - 8, offOf a / 4096, write, false, false, 0⟩] } })

/-- A new access of a channel, of `cnt` stream bytes from `pos`. -/
def addChanReq (u ch : Nat) (op : ReqOp) (a n pos cnt stamp : Nat) (ans : Option Answer) (s : State) : State :=
  let r : Req := { tag := s.core.nextTag, u := u, c := ch, pc := 0, op := op, dst := none, pdst := 0, tracked := true
                   parts := [⟨a, n, ans⟩], chan := true, pos := pos, cnt := cnt, stamp := stamp, orphan := false }
  let s := { s with core := { s.core with reqs := s.core.reqs ++ [r], nextTag := s.core.nextTag + 1 } }
  updChan s u ch fun x => { x with issued := pos + cnt, stamp := stamp }

/-- Position `p` comes before the place at which a halted channel stopped (R292). -/
def beforeHalt (x : Chan) (p : Nat) : Bool :=
  match x.haltAt with
  | none => true
  | some h => decide (p < h)
/-- The channel has a read to send, but for a place among the tracking entries. -/
def wantsRead (s : State) (u ch : Nat) : Bool :=
  let x := chan s u ch
  let a := memAddr x.desc x.issued
  fromMem x.desc && decide (x.st = 1) && !atEnd x.desc x.issued && ringRoom s u ch x x.issued && decide (outstanding s u ch < 64) &&
    decide (coreReads s u < 128) && !(needsXlat s a false && xlatAsked s a false) && !ownHeld s u (a / 64 * 64) 64
/-- A free tracking entry is this channel's: fewer channels that wait for one of the partition come before it than entries are
free (R284, R286). -/
def trackTurn (s : State) (u ch : Nat) : Bool :=
  let a := memAddr (chan s u ch).desc (chan s u ch).issued
  match partition s a with
  | none => true
  | some k =>
    let free := trackFree s k true
    let st := chanStamp s u ch (chan s u ch)
    decide ((mkeys s.strm.chans).length ≤ free) ||
      decide (((mkeys s.strm.chans).filter fun e =>
        let y := chan s (e / 4) (e % 4)
        decide (e ≠ chanKey u ch) && wantsRead s (e / 4) (e % 4) && partition s (memAddr y.desc y.issued) == some k &&
          (precedes (chanStamp s (e / 4) (e % 4) y) st || (decide (chanStamp s (e / 4) (e % 4) y = st) && decide (e < chanKey u ch)))).length < free)
/-- The channel's next read can be sent. -/
def canRead (s : State) (u ch : Nat) : Bool := wantsRead s u ch && trackTurn s u ch
/-- The channel's next write can be sent; a halted channel goes on up to its halt position. -/
def canWrite (s : State) (u ch : Nat) : Bool :=
  let x := chan s u ch
  let a := memAddr x.desc x.issued
  let n := memSpan x.desc x.issued (fun q => decide (q < x.acc))
  toMem x.desc && (decide (x.st = 1) || decide (x.st = 5) || ((decide (x.st = 2) || decide (x.st = 3)) && beforeHalt x x.issued)) &&
    decide (x.issued < x.acc) && !(needsXlat s a true && xlatAsked s a true) && !ringHeld s u x.desc x.issued n && !ownHeld s u a n
def canIssue (s : State) (u ch : Nat) : Bool := canRead s u ch || canWrite s u ch
/-- The core's stream engine serves the earliest stamp among the requests it can send, the lower channel on a tie (R284). -/
def picked (s : State) (u ch : Nat) : Bool :=
  let st (k : Nat) : Nat := chanStamp s u k (chan s u k)
  canIssue s u ch && (List.range 4).all fun k => decide (k = ch) || !canIssue s u k ||
    !(precedes (st k) (st ch) || (decide (st k = st ch) && decide (k < ch)))

/-- The next read of a channel that fills from memory: the aligned 64 B that hold the next stream byte (R287). -/
def issueRead (u ch : Nat) (s : State) : State :=
  let x := chan s u ch
  let p := x.issued
  let a := memAddr x.desc p
  if !inSpace s x.desc p then chanHalt u ch 0x0603 p a s
  else if needsXlat s a false then askXlat a false s
  else
    let l := a / 64 * 64
    let n := memRun x.desc p (ringRoom s u ch x)
    let st := chanStamp s u ch x
    if ownMem u a then
      match bankDenied s u (5 + ch) (localOf l) 64 with
      | some b => chanHalt u ch 0x0602 p (devOfLocal u b) s
      | none =>
        let r := locRead u l (homeKey s l) 64 s
        addChanReq u ch (.load l 64 false) l 64 p n st (some r.1) r.2
    else addChanReq u ch (.load l 64 false) l 64 p n st none s

/-- The next write of a channel that drains to memory. -/
def issueWrite (u ch : Nat) (s : State) : State :=
  let x := chan s u ch
  let p := x.issued
  let a := memAddr x.desc p
  if !inSpace s x.desc p then chanHalt u ch 0x0603 p a s
  else if needsXlat s a true then askXlat a true s
  else
    let n := memSpan x.desc p (fun q => decide (q < x.acc))
    let st := chanStamp s u ch x
    match ringDenied s u ch x.desc p n with
    | some b => chanHalt u ch 0x0602 p (devOfLocal u b) s
    | none =>
      let s := ringTouch u x.desc p n s
      let bs := ringGet s u x.desc p n
      let bad := (List.range n).filter fun i => (bs.getD i (0, false)).2
      let data := bs.map (·.1)
      if ownMem u a then
        match bankDenied s u (5 + ch) (localOf a) n with
        | some b => chanHalt u ch 0x0602 p (devOfLocal u b) s
        | none =>
          let k := homeKey s a
          addChanReq u ch (.store a data bad) a n p n st (some (.status 0)) (markLoc k bad (locStore u k data s))
      else addChanReq u ch (.store a data bad) a n p n st none s

/-- CHANNEL_REQUEST_ISSUE. -/
def issueNext (u ch : Nat) (s : State) : State :=
  if !picked s u ch then s
  else if canRead s u ch then issueRead u ch s
  else issueWrite u ch s

def dropReq (tag : Nat) (s : State) : State :=
  { s with core := { s.core with reqs := s.core.reqs.filter fun r => decide (r.tag ≠ tag) } }

/-- The stream bytes of an answer for the 64 B at `l`, with their poison marks: a word is bad when its device address is
listed. -/
def lineBytes (d : W512) (p n l : Nat) (data : List Byte) (bad : List Nat) : List PByte :=
  (List.range n).map fun i =>
    let o := memAddr d (p + i) - l
    (data.getD o 0, bad.contains ((l + o) / 8 * 8))

/-- Bytes of answered reads enter the ring in stream order (R275), up to a halt position (R292). -/
def acceptAll : Nat → Nat → Nat → State → State
  | 0, _, _, s => s
  | fuel + 1, u, ch, s =>
    let x := chan s u ch
    match (chanReqs s u ch).find? fun r => isLoad r && !r.tracked && decide (r.pos = x.acc) with
    | none => s
    | some r =>
      match r.parts with
      | [⟨l, _, some (.bytes data bad)⟩] =>
        match ringDenied s u ch x.desc x.acc r.cnt with
        | some b => dropReq r.tag (chanHalt u ch 0x0602 x.acc (devOfLocal u b) s)
        | none =>
          if ringHeld s u x.desc x.acc r.cnt then s
          else acceptAll fuel u ch (dropReq r.tag (fillBytes u ch (lineBytes x.desc r.pos r.cnt l data bad) s))
      | _ => s

/-- The code with which a channel halts for a refused access (R291, R297). -/
def haltCode (c : Nat) : Nat := if c = 0x0804 then 0x0307 else c

/-- STREAM_READ_RESPONSE: the answer of read `tag` reaches its channel. -/
def readResponse (tag : Nat) (s : State) : State :=
  match s.core.reqs.find? fun r => decide (r.tag = tag) && r.chan && isLoad r with
  | none => s
  | some r =>
    match r.parts with
    | [⟨_, _, some (.failed c)⟩] =>
      let s := dropReq tag s
      if r.orphan then s
      else
        let s := if c = 0x0401 then updChan s r.u r.c fun x => { x with poisoned := true } else s
        chanHalt r.u r.c (haltCode c) r.pos (memAddr (chan s r.u r.c).desc r.pos) s
    | [⟨_, _, some (.bytes _ _)⟩] =>
      let x := chan s r.u r.c
      if r.orphan || (x.haltAt.any fun h => decide (h ≤ r.pos)) then dropReq tag s
      else
        let s := { s with core := { s.core with
            reqs := s.core.reqs.map fun q => if q.tag = tag then { q with tracked := false } else q } }
        acceptAll (s.core.reqs.length + 1) r.u r.c s
    | _ => s

/-- Acknowledged writes free ring room in stream order. -/
def retireAll : Nat → Nat → Nat → State → State
  | 0, _, _, s => s
  | fuel + 1, u, ch, s =>
    let x := chan s u ch
    match (chanReqs s u ch).find? fun r => !isLoad r && !r.tracked && decide (r.pos = x.drained) with
    | none => s
    | some r => retireAll fuel u ch (dropReq r.tag (drainBytes u ch r.cnt s))

/-- STREAM_WRITE_ACK: the acknowledgement of write `tag` reaches its channel. -/
def writeAck (tag : Nat) (s : State) : State :=
  match s.core.reqs.find? fun r => decide (r.tag = tag) && r.chan && !isLoad r && r.tracked with
  | none => s
  | some r =>
    match r.parts with
    | [⟨a, _, some (.failed c)⟩] =>
      let s := dropReq tag s
      if r.orphan then s else chanHalt r.u r.c (haltCode c) r.pos a s
    | [⟨_, _, some _⟩] =>
      if r.orphan then dropReq tag s
      else
        let s := { s with core := { s.core with
            reqs := s.core.reqs.map fun q => if q.tag = tag then { q with tracked := false } else q } }
        retireAll (s.core.reqs.length + 1) r.u r.c s
    | _ => s

/-- Resume at POS (R291, R293): what was asked for from the halt position on is asked for again. -/
def resumeChan (u ch : Nat) (s : State) : State :=
  let x := chan s u ch
  let at_ := match x.haltAt with
    | some h => if fromMem x.desc then max x.acc h else min x.issued h
    | none => x.issued
  let s := orphanWhere (fun r => r.chan && decide (r.u = u) && decide (r.c = ch) && decide (at_ ≤ r.pos)) s
  updChan s u ch fun x => { x with st := if x.st = 5 then 5 else 1, haltAt := none, page := none, fails := 0, issued := at_ }

/-- A fence still stands on the channel's route (R326). -/
def routeFenced (s : State) (u : Nat) (d : W512) : Bool :=
  usesLink d && ((routeCores s u (sLink d)).any (fun v => fenced s v) || (routePath s (sLink d) routeFuel u).any fun v => fenced s v)

/-- SV.SRES (R291, R319, R326). -/
def resumeBy (u ch : Nat) (grant : Bool) (s : State) : State :=
  let s := if grant && chanOpen (chan s u ch) then
      enterSpill u ch (updChan s u ch fun x => { x with spillOk := true }) else s
  let x := chan s u ch
  if (decide (x.st = 2) || decide (x.st = 3)) && !(decide (x.code = 0x0402) && routeFenced s u x.desc) && !x.lost then
    resumeChan u ch s
  else s

/-! ### Segments, completion, rates (R276, R279, R281) -/

/-- Segment `j` of a RING destination is complete in the ring. -/
def segFull (x : Chan) (j : Nat) : Bool :=
  decide ((j + 1) * segSize x.desc ≤ x.acc) || (atEnd x.desc x.acc && decide (j * segSize x.desc < x.acc))

/-- SEGMENT_PUBLISH: the oldest full segment is handed over, FILL_OBJ rises, the last one of a finite stream ends it. A halted
channel publishes what it has accepted, and keeps its state (R291, R292). -/
def publish (u ch : Nat) (s : State) : State :=
  let s := refill u ch s
  let x := chan s u ch
  let j := seg0 x + x.pubs
  if !(decide (1 ≤ x.st ∧ x.st ≤ 3)) || !toRing x.desc || !segFull x j then s
  else if ringInScratch x.desc && !segMine s u ch x.desc j then s
  else
    let s := if ringInScratch x.desc then
        rset s (BANK_OWNER u (segBank x.desc j)) (BitVec.ofNat 64 (sHandoff x.desc)) else s
    let last := atEnd x.desc x.acc && decide (x.acc ≤ (j + 1) * segSize x.desc)
    let s := updChan s u ch fun x => { x with
      pubs := x.pubs + 1, stall := 0, raised := false, ended := x.ended || last, st := if last ∧ x.st = 1 then 4 else x.st }
    unitAdd u (sFillObj x.desc) s

/-- The stream has completed (R279): every byte is drained; a RING destination has published its last segment. -/
def finished (x : Chan) : Bool := if toRing x.desc then x.ended else atEnd x.desc x.drained
/-- The one add of a stream that completes (R279). -/
def endAdd (u ch : Nat) (s : State) : State :=
  let x := chan s u ch
  if x.ended || toRing x.desc then s
  else
    let s := updChan s u ch fun x => { x with ended := true }
    if sSyncEn x.desc then unitAdd u (sFillObj x.desc) s else s
/-- STREAM_COMPLETE (R279). -/
def complete (u ch : Nat) (s : State) : State :=
  let x := chan s u ch
  if x.st ≠ 1 || !finished x then s
  else endAdd u ch (updChan s u ch fun x => { x with st := 4 })

/-- CHANNEL_CLOSE_DONE: the last byte is delivered; where it was the stream's last, the stream completes (R279). -/
def closeDone (u ch : Nat) (s : State) : State :=
  let x := chan s u ch
  if x.st = 5 ∧ x.drained = x.acc then closeChan u ch (if atEnd x.desc x.drained then endAdd u ch s else s) else s

/-- One sample of R281. -/
def sampleRate (x : Chan) : Chan :=
  if x.st = 0 then x
  else { x with ema := ((x.ema : Int) + ((x.window * 64 : Nat) - (x.ema : Int)) / 8).toNat, window := 0 }
/-- RATE_SAMPLE: every open channel. -/
def sampleRates (s : State) : State :=
  (mkeys s.strm.chans).foldl (fun s k => updChan s (k / 4) (k % 4) fun x => sampleRate (counting s (k / 4) (k % 4) x)) s

/-! ### Stalls (R289, R317, R318, R321) -/

/-- The M-slot word of a context's next bundle names channel `ch` in a read or a write. -/
def waitsOn (s : State) (u c ch : Nat) : Bool :=
  let x := ctx s u c
  decide (x.st = .waiting) && (decide (x.reason = 1) || decide (x.reason = 2)) &&
    (match decodeM u (slotWord (mget 0 s.core.pstore (u * 2048 + x.pc)) .M) with
     | some (.smRd _ _ _ _ k) => decide (k = ch)
     | some (.smRds _ _ _ _ k) => decide (k = ch)
     | some (.smWr _ _ _ k) => decide (k = ch)
     | some (.smWrs _ _ _ k) => decide (k = ch)
     | _ => false)
def ctxWaits (s : State) (u ch : Nat) : Bool := (List.range 8).any fun c => waitsOn s u c ch
/-- The channels at the far ends of a channel's route. -/
def farEnds (s : State) (u ch : Nat) : List (Nat × Nat) :=
  let d := (chan s u ch).desc
  if fromLink d then (routeSender s u (sLink d)).toList
  else if toLink d then routeReceivers s u (sLink d)
  else []
/-- Every segment of a RING ring is published and none has been returned. -/
def ringOut (s : State) (u ch : Nat) (x : Chan) : Bool :=
  toRing x.desc && decide (sSegs x.desc + 1 ≤ x.pubs) &&
    (if ringInScratch x.desc then (List.range (sSegs x.desc + 1)).all fun j => !segMine s u ch x.desc j
     else decide (x.pubs - freed s x = sSegs x.desc + 1))
/-- What an end of a LINK reports as waiting (R289; DEDUCED, log 105): a context waits there, a sender lacks credit for the bytes it
holds, every segment of a RING ring is out, or a ring that drains to memory is full. -/
def endWaits (s : State) (u ch : Nat) : Bool :=
  let x := chan s u ch
  ctxWaits s u ch || (toLink x.desc && creditWaits s u ch) || ringOut s u ch x ||
    (fromLink x.desc && toMem x.desc && decide (ringFree s u ch x = 0))
/-- R289, but for bytes moving, which reset the count. -/
def chanStalled (s : State) (u ch : Nat) : Bool :=
  let x := chan s u ch
  decide (x.st = 1) && (ctxWaits s u ch || ((farEnds s u ch).any fun e => endWaits s e.1 e.2) || ringOut s u ch x)

/-- What a Glint does to one channel: the count of R289, or spill mode instead (R317); a pool without a page is noted (R318). -/
def glintChan (s : State) (k : Nat) : State :=
  let u := k / 4
  let ch := k % 4
  let s := updChan s u ch (counting s u ch)
  if !chanStalled s u ch then s
  else
    let x := chan s u ch
    let wants := fromLink x.desc && x.spillOk && !x.spill && senderWaits s u ch
    if wants && (poolFree s ((plotOf s u).getD 0)).isSome then enterSpill u ch s
    else updChan s u ch fun x => { x with stall := x.stall + 1, exhausted := x.exhausted || wants }

/-- The receiving channel that bounds a sender's credit: the one whose grants are the credit it sees, else the one granted
least (R310, R321). -/
def boundBy (s : State) (u ch : Nat) : Option (Nat × Nat) :=
  let x := chan s u ch
  let rs := routeReceivers s u (sLink x.desc)
  let credit := creditBelow s (sDec x.desc) (sLink x.desc) routeFuel u 4
  match rs.find? fun e => decide ((chan s e.1 e.2).grants = credit) with
  | some e => some e
  | none => rs.foldl (fun (best : Option (Nat × Nat)) e =>
    match best with
    | none => some e
    | some b => if (chan s e.1 e.2).grants < (chan s b.1 b.2).grants then some e else best) none

/-- The record of a stall (R321). -/
def stallRecord (u ch : Nat) (s : State) : State :=
  let p := (plotOf s u).getD 0
  let r := PLOT_STALL p
  let x := chan s u ch
  if flag s r PLOT_STALL_VALID then s
  else
    let far := if toLink x.desc then boundBy s u ch else (farEnds s u ch).head?
    let ring := if toLink x.desc then far.getD (u, ch) else (u, ch)
    -- a stream on which the far end's owning context waits
    let other := far.bind fun f => ((List.range 4).find? fun k => waitsOn s f.1 (chan s f.1 f.2).owner k).map fun k => (f.1, k)
    let ex := x.exhausted || (chan s ring.1 ring.2).exhausted
    let s := rset s r (BitVec.ofNat 64 (u + ch * 2 ^ 15 + sLink x.desc * 2 ^ 17 + b2n ex * 2 ^ 29 + 2 ^ 30))
    let s := rset s (r + 8) (BitVec.ofNat 64 (ring.1 + ring.2 * 2 ^ 15 + sBuf (chan s ring.1 ring.2).desc * 2 ^ 17))
    let s := rset s (r + 16) (match other with
      | some o => BitVec.ofNat 64 (o.1 + o.2 * 2 ^ 15 + sLink (chan s o.1 o.2).desc * 2 ^ 17 + 2 ^ 29)
      | none => 0)
    rset s (r + 24) (BitVec.ofNat 64 (fld s PACE_SLOT PACE_SLOT_SLOT % 2 ^ 48))

/-- STREAM_STALL: a stall count has reached PATIENCE (R289). -/
def stallOut (u ch : Nat) (s : State) : State :=
  let x := chan s u ch
  if x.raised || decide (sPatience x.desc = 0) || decide (x.stall < sPatience x.desc) || decide (x.st ≠ 1) then s
  else
    let s := updChan s u ch fun x => { x with stalled := true, raised := true, stalls := satAdd 16 x.stalls 1 }
    let s := stallRecord u ch (setPend s u x.owner 2)
    logErr 0x0303 (srcOf u) (plotOf s u) 0 (plotCtr u 3 1 s)

/-- SPILL_PAGE_TAKE (R317, R318). -/
def spillTake (u ch : Nat) (s : State) : State :=
  let x := chan s u ch
  if x.spill && decide (ringFree s u ch x = 0) && decide (pagesFree x = 0) && senderWaits s u ch then takePage u ch s else s

/-- SPILL_PAGE_RETURN: the ring takes what it has room for, an emptied page goes back; with the last one the channel leaves spill
mode. -/
def spillReturn (u ch : Nat) (s : State) : State :=
  let s := refill u ch s
  let x := chan s u ch
  match x.pages with
  | [] => s
  | k :: r =>
    if x.spill && (decide (4096 ≤ x.spOut) || decide (x.spIn = x.spOut)) then
      let s := poolReturn ((plotOf s u).getD 0) [k] s
      updChan s u ch fun x => { x with
        pages := r, spIn := x.spIn - 4096, spOut := x.spOut - 4096, spill := !r.isEmpty, exhausted := x.exhausted && !r.isEmpty }
    else s

/-! ### Tokens (R303–R315) -/

def tokensAt (s : State) (u port link : Nat) : Nat :=
  (s.strm.tokens.filter fun q => decide (q.u = u) && decide (q.port = port) && decide (q.tok.link = link)).length

/-- A token goes into the input buffer of an entry. -/
def queueTok (u port : Nat) (t : Token) (s : State) : State :=
  { s with strm := { s.strm with tokens := s.strm.tokens ++ [⟨u, port, t⟩] } }

/-- `lvl` of a token's stamp: bytes sent and not yet drained at the receiving end that bounds the credit; on another module that is
what the far ring has not given back (R310; DESIGN CHOICE, log 105). -/
def sentLevel (s : State) (u ch : Nat) : Nat :=
  let x := chan s u ch
  match boundBy s u ch with
  | some e =>
    let y := chan s e.1 e.2
    x.sent - (y.arrived - chanFill s e.1 e.2 y - spilled y)
  | none =>
    match (routeCores s u (sLink x.desc)).find? fun v => decide (colOf v = 127) with
    | some v =>
      let k := rowOf v * 4096 + sLink x.desc
      x.sent - (mget 0 s.strm.gwCredit k - mget 0 s.strm.gwRing k)
    | none => 0
/-- STREAM_TOKEN_SEND (R303, R309, R310, R312); a halted channel sends up to its halt position (R292). -/
def sendToken (u ch : Nat) (s : State) : State :=
  let x := chan s u ch
  let link := sLink x.desc
  let (n, whole) := nextToken x
  let may := decide (x.st = 1) || decide (x.st = 5) ||
    ((decide (x.st = 2) || decide (x.st = 3)) && beforeHalt x (x.drained + n - 1))
  if !toLink x.desc || !may || !whole || creditWaits s u ch || decide (2 ≤ tokensAt s u 4 link) || ringHeld s u x.desc x.drained n then s
  else match ringDenied s u ch x.desc x.drained n with
    | some b => chanHalt u ch 0x0602 x.drained (devOfLocal u b) s
    | none =>
      let s := ringTouch u x.desc x.drained n s
      let bs := ringGet s u x.desc x.drained n
      let st := stampAt (now10 s) (sentLevel s u ch) (rateOf s u ch x)
      let s := queueTok u 4 ⟨link, bs, st, atEnd x.desc (x.drained + n), sSpill x.desc, sDec x.desc⟩ s
      let s := drainBytes u ch n s
      updChan s u ch fun x => { x with sent := x.sent + n, stamp := st }

/-- A token reaches a receiving channel: into the ring, or into the pages behind bytes already there (R317). A finite stream takes
nothing past its length (R300; what comes after is discarded, DESIGN CHOICE, log 105). -/
def recvToken (u ch : Nat) (t : Token) (s : State) : State :=
  let s := updChan s u ch fun x => { x with arrived := x.arrived + t.data.length, spillOk := x.spillOk || t.spill }
  let x := chan s u ch
  let data := t.data.take (upTo x.desc (x.acc + spilled x) t.data.length)
  let k := if x.spOut < x.spIn then 0 else min data.length (ringFree s u ch x)
  match ringDenied s u ch x.desc x.acc k with
  | some b => chanHalt u ch 0x0602 x.acc (devOfLocal u b) s
  | none =>
    let s := if k = 0 then s else fillBytes u ch (data.take k) s
    if data.length ≤ k then s else spillPut u ch (data.drop k) s
/-- A receiving channel can take `n` more bytes; a halted one takes none, but where it is its memory side that has halted. -/
def recvRoom (s : State) (u ch n : Nat) : Bool :=
  let x := chan s u ch
  let n := upTo x.desc (x.acc + spilled x) n
  let k := if x.spOut < x.spIn then 0 else min n (ringFree s u ch x)
  decide (n - k ≤ pagesFree x) && !ringHeld s u x.desc x.acc k && !pagesHeld s (putPieces s u x (n - k)) &&
    (decide (x.st ≠ 3) || toMem x.desc)

/-- The edge of the fabric port that output 5 and input 5 of a border core name: its first (DESIGN CHOICE, log 106). -/
def fabEdge (u : Nat) : Nat := ((List.range 4).find? (hasEdge u)).getD 0
/-- A stream's bytes leave by a fabric port as words, eight bytes each, the last filled up with zeros (DESIGN CHOICE, log 106). -/
def fabOut (u : Nat) (bs : List PByte) (s : State) : State :=
  (List.range ((bs.length + 7) / 8)).foldl (fun s i =>
    fabSend u (fabEdge u) (.word (BitVec.ofNat 64 (leNat (((bs.drop (8 * i)).take 8).map (·.1))))) s) s
/-- A word comes in by the fabric port for the stream that an entry takes from there: 32 bytes make a token (log 106). -/
def fabIn (u link : Nat) (v : W64) (s : State) : State :=
  let bs := mget [] s.strm.fabIn u ++ leBytes 8 v.toNat
  if bs.length < 32 then { s with strm := { s.strm with fabIn := mset [] s.strm.fabIn u bs } }
  else
    queueTok u 5 ⟨link, bs.map fun b => (b, false), now10 s, false, false, false⟩
      { s with strm := { s.strm with fabIn := mset [] s.strm.fabIn u [] } }
/-- The stream that a core's fabric port brings in: that of its first valid entry with IN = 5. -/
def fabStream (s : State) (u : Nat) : Option Nat :=
  ((List.range 32).find? fun i => flag s (ROUTE_ENTRY u i) ROUTE_ENTRY_VALID && decide (routeIn s u i = 5)).map fun i =>
    fld s (ROUTE_ENTRY u i) ROUTE_ENTRY_LINK_ID

/-- Output `b` of core `u` can take a token of `n` bytes of stream `link`. -/
def outReady (s : State) (u b link n : Nat) : Bool :=
  if b = 4 then (match receiverAt s u link with
    | some ch => recvRoom s u ch n
    | none => true)
  else if b = 5 then fabReady s u (fabEdge u) && decide ((fabOf s u (fabEdge u)).tx.length + (n + 7) / 8 ≤ 4)
  else if b = 1 && decide (colOf u = 127) then
    !fenced s u && decide ((s.strm.gwOut.filter fun e => decide (e.1 = rowOf u) && decide (e.2.link = link)).length < 2)
  else match neighbour s u b with
    | none => false
    | some v => fenced s v || (linkOpen s u b v link && decide (tokensAt s v (facing b) link < 2))

/-- A token leaves by output `b`. Into a fenced plot it is discarded (R325). -/
def forward (u b : Nat) (t : Token) (s : State) : State :=
  let n := t.data.length
  let s := { s with strm := { s.strm with
      fwd := mset 0 s.strm.fwd (fwdKey u b t.link) (fwdOf s u b t.link + n) } }
  if b = 4 then (match receiverAt s u t.link with
    | some ch => recvToken u ch t s
    | none => s)
  else if b = 5 then fabOut u t.data s
  else if b = 1 && decide (colOf u = 127) then { s with strm := { s.strm with gwOut := s.strm.gwOut ++ [(rowOf u, t)] } }
  else match neighbour s u b with
    | none => s
    | some v => if fenced s v then s else queueTok v (facing b) t s

def branchQueued (s : State) (u b link : Nat) : Bool :=
  s.strm.branch.any fun q => decide (q.u = u) && decide (q.out = b) && decide (q.link = link)
/-- A branch of a decoupled branch point can take a token now. -/
def branchReady (s : State) (u b : Nat) (t : Token) : Bool :=
  !branchQueued s u b t.link && outReady s u b t.link t.data.length &&
    decide (fwdOf s u b t.link + t.data.length ≤ branchCredit s t.dec t.link u b)

/-! ### Lagging branches (R314, R315) -/

def brPages (s : State) (u b link : Nat) : Pages := mget Pages.none s.strm.brPages (fwdKey u b link)
def setBrPages (u b link : Nat) (p : Pages) (s : State) : State :=
  { s with strm := { s.strm with brPages := mset Pages.none s.strm.brPages (fwdKey u b link) p } }
/-- A branch's spill has room for `n` bytes, with the state after any page it takes. -/
def brRoom (u b link n : Nat) (s : State) : Option State :=
  let g := brPages s u b link
  let p := (plotOf s u).getD 0
  if g.inn + n ≤ g.list.length * 4096 then some s
  else (poolFree s p).map fun k => setBrPages u b link { g with list := g.list ++ [k] } (poolTake p k s)
/-- A token that a lagging branch cannot take is written to the branch's spill (R314); nothing where that has no room, or where
the pool's address does not exist. -/
def brPut (u b : Nat) (t : Token) (s : State) : Option State :=
  (brRoom u b t.link t.data.length s).bind fun s =>
    let g := brPages s u b t.link
    let ps := pagePieces s ((plotOf s u).getD 0) g.list g.inn t.data.length
    if (pageUnmapped s ps).isSome || pagesHeld s ps then none
    else
      let s := setBrPages u b t.link { g with inn := g.inn + t.data.length } (ps.foldl (piecePut t.data) s)
      some { s with strm := { s.strm with
        branch := s.strm.branch ++ [⟨u, b, t.link, t.data.length, t.stamp, t.last, t.spill, t.dec⟩] } }
/-- The oldest token of a branch comes back from its spill; a page that it empties returns to the pool. -/
def brGet (q : Lagged) (s : State) : Token × State :=
  let g := brPages s q.u q.out q.link
  let p := (plotOf s q.u).getD 0
  let r := (pagePieces s p g.list g.out q.n).foldl pieceGet ([], s)
  let g := { g with out := g.out + q.n }
  let k := if g.out = g.inn then g.list.length else g.out / 4096
  let s := setBrPages q.u q.out q.link (if g.out = g.inn then Pages.none else ⟨g.list.drop k, g.inn - 4096 * k, g.out - 4096 * k⟩)
    (poolReturn p (g.list.take k) r.2)
  (⟨q.link, r.1, q.stamp, q.last, q.spill, q.dec⟩, s)

/-- The receiving channels behind output `b` of core `u`. -/
def behind (s : State) (u b link : Nat) : List (Nat × Nat) :=
  if b = 4 then ((receiverAt s u link).map fun ch => (u, ch)).toList
  else match neighbour s u b with
    | some v => (routeDown s link routeFuel v (facing b)).filterMap fun w => (receiverAt s w link).map fun ch => (w, ch)
    | none => []

/-- R315 at one branch point: an episode opens at the limit and closes at half of it. -/
def lagCheck (link : Nat) (s : State) (u : Nat) : State :=
  match routeOf s u link with
  | none => s
  | some i =>
    let lim := fld s (ROUTE_ENTRY u i) ROUTE_ENTRY_LAG * 4096
    let outs := routeOuts s u i
    let top := (outs.map fun b => fwdOf s u b link).foldl max 0
    let lag (b : Nat) : Nat := top - fwdOf s u b link
    let worst := (outs.map lag).foldl max 0
    let open_ := mget false s.strm.lagging (u * 4096 + link)
    let setOpen (v : Bool) (s : State) : State :=
      { s with strm := { s.strm with lagging := mset false s.strm.lagging (u * 4096 + link) v } }
    if lim = 0 || outs.length < 2 then s
    else if open_ then (if worst ≤ lim / 2 then setOpen false s else s)
    else if worst < lim then s
    else
      let s := setOpen true s
      let s := match routeSender s u link with
        | some (v, k) => setPend s v (chan s v k).owner 2
        | none => s
      let r := PLOT_LAG ((plotOf s u).getD 0)
      if flag s r PLOT_LAG_VALID then s
      else
        let cand := (outs.filter fun b => decide (0 < lag b)).flatMap fun b => (behind s u b link).map fun e => (e, lag b)
        match cand.foldl (fun (best : Option ((Nat × Nat) × Nat)) e => match best with
          | none => some e
          | some b => if (chan s e.1.1 e.1.2).lastDrain < (chan s b.1.1 b.1.2).lastDrain then some e else best) none with
        | none => s
        | some (e, l) =>
          rset (rset s r (BitVec.ofNat 64 (e.1 + e.2 * 2 ^ 15 + link * 2 ^ 17 + 2 ^ 29))) (r + 8) (BitVec.ofNat 64 l)

/-- Remove the first queued token that satisfies `f`. -/
def dropFirst {α : Type} (f : α → Bool) : List α → List α
  | [] => []
  | q :: qs => if f q then qs else q :: dropFirst f qs

/-- The branch point of an entry is decoupled for this token: several outputs, DECOUPLED, LAG other than 0. -/
def decoupled (s : State) (u i : Nat) (t : Token) : Bool :=
  t.dec && decide (1 < (routeOuts s u i).length) && decide (0 < fld s (ROUTE_ENTRY u i) ROUTE_ENTRY_LAG)
/-- The entry's outputs can take the token: all of them, or one of a decoupled branch point. -/
def canGo (s : State) (u i : Nat) (t : Token) : Bool :=
  if decoupled s u i t then (routeOuts s u i).any fun b => branchReady s u b t
  else (routeOuts s u i).all fun b => outReady s u b t.link t.data.length
/-- Another entry of the core has a token ready for one of the outputs `outs`, and goes first: the earlier stamp, the lower LINK_ID
on a tie (R309). -/
def givesWay (s : State) (u : Nat) (outs : List Nat) (t : Token) : Bool :=
  s.strm.tokens.any fun q => decide (q.u = u) && decide (q.tok.link ≠ t.link) &&
    (precedes q.tok.stamp t.stamp || (decide (q.tok.stamp = t.stamp) && decide (q.tok.link < t.link))) &&
    decide ((s.strm.tokens.find? fun e => decide (e.u = u) && decide (e.port = q.port) && decide (e.tok.link = q.tok.link)) = some q) &&
    (match routeOf s u q.tok.link with
     | some k => decide (routeIn s u k = q.port) && (routeOuts s u k).any outs.contains && canGo s u k q.tok
     | none => false)
/-- The token is copied to the outputs of a decoupled branch point: at once, or into the branch's spill; nothing where a branch
has neither. -/
def goDecoupled (u : Nat) (t : Token) (outs : List Nat) (s : State) : Option State :=
  outs.foldl (fun (a : Option State) b => a.bind fun s => if branchReady s u b t then some (forward u b t s) else brPut u b t s) (some s)

/-- STREAM_TOKEN_ARRIVE at core `u`, port `port`, of stream `link` (R307, R309, R313, R314). -/
def arrive (u port link : Nat) (s : State) : State :=
  let is (q : Queued) : Bool := decide (q.u = u) && decide (q.port = port) && decide (q.tok.link = link)
  match s.strm.tokens.find? is with
  | none => s
  | some q =>
    let t := q.tok
    let s0 := { s with strm := { s.strm with tokens := dropFirst is s.strm.tokens } }
    if fenced s u then s0
    else match (routeOf s u link).filter fun i => decide (routeIn s u i = port) with
      | none => logErr 0x0403 (srcOf u) (plotOf s u) link s0
      | some i =>
        let outs := routeOuts s u i
        if !canGo s u i t || givesWay s u outs t then s
        else if decoupled s u i t then ((goDecoupled u t outs s0).map fun s => lagCheck link s u).getD s
        else outs.foldl (fun s b => forward u b t s) s0

/-- Tokens that wait at branches go on in order as credit returns (R314). -/
def feedBranches (link : Nat) : Nat → State → State
  | 0, s => s
  | fuel + 1, s =>
    match s.strm.branch.find? fun q => decide (q.link = link) &&
        decide ((s.strm.branch.find? fun e => decide (e.u = q.u) && decide (e.out = q.out) && decide (e.link = link)) = some q) &&
        outReady s q.u q.out link q.n && decide (fwdOf s q.u q.out link + q.n ≤ branchCredit s q.dec link q.u q.out) with
    | none => s
    | some q =>
      let r := brGet q { s with strm := { s.strm with branch := dropFirst (fun e => decide (e = q)) s.strm.branch } }
      feedBranches link fuel (forward q.u q.out r.1 r.2)

/-- Drained or returned bytes whose credit has not travelled yet (R312). -/
def owedOf (s : State) (u ch : Nat) (x : Chan) : Nat :=
  if toRing x.desc then returned s u ch x - x.sent else x.owed

/-- CREDIT_RETURN from the receiving channel `ch` of core `u` (R312–R315). -/
def creditReturn (u ch : Nat) (s : State) : State :=
  let x := chan s u ch
  if !chanOpen x || !fromLink x.desc then s
  else
    let n := owedOf s u ch x
    let s := updChan s u ch fun x => { x with grants := x.grants + n, owed := 0, sent := if toRing x.desc then x.sent + n else 0 }
    let link := sLink x.desc
    let s := feedBranches link (s.strm.branch.length + 1) s
    (routeCores s u link).foldl (lagCheck link) s

/-- FENCE_MARKER_RECEIVE (R326): a receiver has the bytes that came before the marker, a sender those that it has sent. -/
def fenceMarker (u ch : Nat) (s : State) : State :=
  if !s.strm.markers.contains (u, ch) then s
  else
    let s := { s with strm := { s.strm with markers := s.strm.markers.filter fun e => decide (e ≠ (u, ch)) } }
    let x := chan s u ch
    chanHalt u ch 0x0402 (if toLink x.desc then x.drained else x.acc + spilled x) 0 s

end Sys2Proof.Machine
end

