-- ==== Sys2Proof/Machine/CorePage.lean ====
section
/-!
DEFINITION. The core CSR page (R120, R301): what each 64-bit word of it reads as, and writes to it by field access type
(R9–R11), with the fields that act when written (R111, R113, R242).
-/
namespace Sys2Proof.Machine
open Sys2Proof

def ctxCode : CtxSt → Nat
  | .unloaded => 0
  | .ready => 1
  | .waiting => 2
  | .halted => 3
  | .faulted => 4

/-- `CORE_ID` (R19–R22, R26). -/
def coreIdWord (s : State) (n : Nat) : W64 :=
  let ph := physOf s n
  let edge (e : Nat) : Nat := b2n (hasEdge n e)
  packW [(n, 0), (ph / 128, 15), (ph % 128, 23), (groupOf n, 30), ((plotOf s n).getD 0, 40), (b2n (plotOf s n).isSome, 46),
    (edge 0, 47), (edge 1, 48), (edge 2, 49), (edge 3, 50)]
/-- `CORE_CFG`: BPRIV reads 0 off the border (R101), the engine widths are what the core presents. -/
def coreCfgWord (s : State) (n : Nat) : W64 :=
  let v := rget s (CORE_CFG n)
  let v := if borderCore n then v else setBits v 8 8 0
  setBits (setBits v 20 4 (unitWidth s n 0)) 24 4 (unitWidth s n 1)
def coreStatusWord (s : State) (n : Nat) : W64 :=
  packW ((List.range 8).map fun c => (ctxCode (ctx s n c).st, 4 * c))

/-- The context words at 0x100 + c × 0x80 (R120). -/
def ctxWord (s : State) (n c o : Nat) : W64 :=
  let x := ctx s n c
  if o = 0x00 then packW [(b2n x.haltReq, 0), (b2n x.eie, 3), (b2n (decide (privOf s n c = .border)), 5)]
  else if o = 0x08 then
    packW [(ctxCode x.st, 0), (b2n x.paced, 3), (x.reason, 4), (b2n x.repiOn, 8), (x.cause, 9), (x.levels.length, 12), (x.pc, 16)]
  else if o = 0x10 then BitVec.ofNat 64 x.slot
  else if o = 0x18 then packW [(x.pend.toNat, 0), (x.en.toNat, 8)]
  else if o = 0x20 then packW [(x.vec, 0), (x.epc, 16)]
  else if o = 0x28 then packW [(x.fCode, 0), (x.fSlot, 16), (b2n x.fDef, 18), (x.fPc, 32)]
  else if o = 0x30 then x.fInfo
  else if o = 0x38 then packW [(x.repiLeft, 0), (b2n x.repiOn, 16)]
  else rget s (CTX_CTRL n c + o)

/-- The channel words at 0x900 + c × 0x80 (R301). -/
def chanWord (s : State) (n ch o : Nat) : W64 :=
  let x := chan s n ch
  if o < 0x40 then (liveDesc s n ch).extractLsb' (8 * o) 64
  else if o = 0x40 then
    packW [(x.st, 0), (b2n x.stalled, 3), (b2n (decide (x.st ≠ 0) && decide (65536 ≤ (counting s n ch x).consumed)), 4), (b2n x.poisoned, 5),
      (x.owner, 8), (x.code, 16), (outstanding s n ch, 32)]
  else if o = 0x48 then packW [(if x.st = 0 then 0 else rateOf s n ch x % 2 ^ 32, 0), ((counting s n ch x).consumed, 32)]
  else if o = 0x50 then packW [(x.stamp, 0)]
  else if o = 0x58 then packW [(x.pageWaits, 0), (x.stalls, 16)]
  else 0

/-- `ENG_STATUS`: the queue as it stands, and what the last command started used. -/
def engStatusWord (s : State) (n e : Nat) : W64 :=
  let q := mget [] s.core.engines (n * 2 + e)
  setBits (setBits (rget s (ENG_STATUS n e)) 0 3 q.length) 3 1 (b2n (q.any (·.started)))

/-- `SIEVE_STATUS` and `SCRUB_STATUS`: the position is the serving physical core's. -/
def sieveWord (s : State) (n : Nat) : W64 :=
  let ph := physOf s n
  setBits (setBits (rget s (SIEVE_STATUS n)) 0 12 (mget 0 s.avl.sieveNext ph)) 12 1 (b2n (decide (mget 0 s.avl.sieveHold ph ≠ 0)))
def scrubWord (s : State) (n : Nat) : W64 := setBits (rget s (SCRUB_STATUS n)) 0 14 (mget 0 s.avl.scrubNext (physOf s n))

/-- The 64-bit word at page offset `o` (a multiple of 8) of logical core `n`. -/
def pageWord (s : State) (n o : Nat) : W64 :=
  if o = 0 then coreIdWord s n
  else if o = 8 then coreCfgWord s n
  else if o = 0x10 then coreStatusWord s n
  else if 0x100 ≤ o && decide (o < 0x500) then ctxWord s n ((o - 0x100) / 0x80) ((o - 0x100) % 0x80)
  else if 0x900 ≤ o && decide (o < 0xB00) then chanWord s n ((o - 0x900) / 0x80) ((o - 0x900) % 0x80)
  else if o = 0x598 then sieveWord s n
  else if o = 0x5A8 then scrubWord s n
  else if o = 0x600 then engStatusWord s n 0
  else if o = 0x700 then engStatusWord s n 1
  else rget s (0x1000000 + n * 0x1000 + o)

/-! ### Writes by access type (R9) -/

/-- The value a register word takes: `mask` marks the bits that the access touches, `locked` fields of type RWL keep
theirs. -/
def accWord (fs : List FldDef) (w : Nat) (locked : Bool) (old new mask : W64) : W64 :=
  fs.foldl (fun (v : W64) f =>
    if f.lo / 64 = w then
      let m : W64 := (BitVec.ofNat 64 ((2 ^ f.width - 1) * 2 ^ (f.lo % 64))) &&& mask
      match f.acc with
      | .rw => (v &&& ~~~m) ||| (new &&& m)
      | .rwl => if locked then v else (v &&& ~~~m) ||| (new &&& m)
      | .w1c => v &&& ~~~(new &&& m)
      | .w1s => v ||| (new &&& m)
      | _ => v
    else v) old

/-- The block under which a commit locks the RWL fields of a register outside the core pages: a plot's, a lane's. -/
def rwlKey (off : Nat) : Nat :=
  if 0x600000 ≤ off && decide (off < 0x610000) then off / 0x400 * 0x400
  else if 0x34000 ≤ off && decide (off < 0x35000) then off / 0x100 * 0x100
  else 0
/-- The commit that locks RWL fields has happened since the last device reset (R9): a FULL image locks them all, another image
those of the plots, the plots' cores and the lanes that it supplies (DEDUCED, log 79). -/
def rwlLocked (s : State) (off : Nat) : Bool :=
  mget false s.load.rwl 0 ||
  (if 0x1000000 ≤ off then
    let n := (off - 0x1000000) / 0x1000
    s.load.rwlCores.any fun (r, c, h, w) =>
      decide (r ≤ rowOf n) && decide (rowOf n < r + h) && decide (c ≤ colOf n) && decide (colOf n < c + w)
   else mget false s.load.rwl (rwlKey off))

/-- A plain write to the register word at `off`, whose fields act only by their access types. -/
def plainWrite (off : Nat) (free : Bool) (new mask : W64) (s : State) : State :=
  match regAt off with
  | none => s
  | some (r, w) => rset s off (accWord r.fields w (!free && rwlLocked s off) (rget s off) new mask)

/-- A bit is written as 1. -/
def wrote1 (new mask : W64) (i : Nat) : Bool := bit1 (new &&& mask) i

/-! ### Context control (R111, R113) -/

/-- A debug halt takes a context that runs or waits, but waits while a REPI runs (R106, R111). -/
def debugHalt (x : Ctx) : Ctx :=
  if x.st ≠ .ready ∧ x.st ≠ .waiting then x
  else if x.repiOn then { x with haltReq := true }
  else { x with st := .halted, cause := 2, reason := 0, haltReq := false }

/-- The wait reason of a hold (R94). -/
def holdReason : Hold → Nat
  | .none => 0
  | .nextGlint => 8
  | .glint _ => 8
  | .sync _ => 9
  | .event => 10

/-- A context halted with cause 1 or 2 goes on, or resumes its hold (R111). -/
def resumeCtx (step : Bool) (x : Ctx) : Ctx :=
  if x.st = .halted ∧ (x.cause = 1 ∨ x.cause = 2) then
    { x with st := if x.hold = .none then .ready else .waiting, reason := holdReason x.hold, cause := 0, stepping := step }
  else x

/-- Events of a context become pending. -/
def raiseEvents (u c : Nat) (bits : BitVec 4) (s : State) : State :=
  updCtx s u c fun x => eventWake { x with pend := x.pend ||| bits }

/-- SOFT event of a loaded context (R113, R140). -/
def raiseSoft (u c : Nat) (s : State) : State :=
  if (ctx s u c).st = .unloaded then s else raiseEvents u c 8 s

/-- A write to `CTX_CTRL`: `full` for masters that may write every field, otherwise EIE and SET_SOFT only (R102). -/
def writeCtxCtrl (n c : Nat) (full : Bool) (new mask : W64) (s : State) : State :=
  let s := if bit1 mask 3 then updCtx s n c fun x => { x with eie := bit1 new 3 } else s
  let s := if wrote1 new mask 4 then raiseSoft n c s else s
  if !full then s
  else
    let s := if wrote1 new mask 2 then updCtx s n c (resumeCtx true)
      else if wrote1 new mask 1 then updCtx s n c (resumeCtx false) else s
    if wrote1 new mask 0 then updCtx s n c debugHalt else s

/-- A write to a context register of the page. -/
def writeCtxWord (n c o : Nat) (full : Bool) (new mask : W64) (s : State) : State :=
  if o = 0x00 then writeCtxCtrl n c full new mask s
  else if o = 0x18 then
    updCtx s n c fun x => eventWake { x with
      pend := x.pend &&& ~~~((new &&& mask).extractLsb' 0 4)
      en := (x.en &&& ~~~(mask.extractLsb' 8 4)) ||| ((new &&& mask).extractLsb' 8 4) }
  else if o = 0x20 then
    updCtx s n c fun x =>
      let v := (packW [(x.vec, 0), (x.epc, 16)] &&& ~~~mask) ||| (new &&& mask)
      { x with vec := bitsOf v 0 11, epc := bitsOf v 16 11 }
  else if o = 0x40 then plainWrite (CTX_ENTRY n c) false new mask s
  else s

/-! ### Bank ownership (R242–R246) -/

/-- Who writes `BANK_OWNER`. -/
inductive BankWriter where
  | admin
  | user
  | border
  deriving DecidableEq, Repr

/-- R242: the write from `w` is permitted for current owner `o` and new owner `t`. -/
def handoverOk (n : Nat) (w : BankWriter) (o t : Nat) : Bool :=
  match w with
  | .admin => decide (t ≤ 10) && (decide (t ≠ 9) || borderCore n)
  | .user => (decide (o ≤ 4) || decide (o = 10)) && (decide (t ≤ 8) || decide (t = 10))
  | .border => (decide (o ≤ 4) || decide (o = 9) || decide (o = 10)) && decide (t ≤ 10)

/-- A queued or running command of feeder identity `who` reads or writes bank `b` (R193). -/
def feederUses (s : State) (n b who : Nat) : Bool :=
  let e := (who - 1) / 2
  (mget [] s.core.engines (n * 2 + e)).any fun cmd =>
    (readSpans cmd.desc e ++ writeSpans cmd.desc e).any fun x =>
      decide (x.who = who) && decide (x.base < 0x80000) && overlaps x.base x.len (b * 0x1000) 0x1000
/-- An access of channel `ch` of this core that reads or writes bank `b` as a MEM endpoint waits or is granted (R244). -/
def chanUses (s : State) (n ch b : Nat) : Bool :=
  (chanReqs s n ch).any fun r => r.tracked && r.parts.any fun p =>
    ownMem n p.addr && decide (selOf p.addr = 2) && overlaps (localOf p.addr) p.n (b * 0x1000) 0x1000
/-- The old owner still uses the bank (R244). -/
def ownerBusy (s : State) (n b : Nat) : Bool :=
  let o := bankOwner s n b
  if 1 ≤ o && decide (o ≤ 4) then feederUses s n b o
  else if 5 ≤ o && decide (o ≤ 8) then chanUses s n (o - 5) b
  else false

/-- A permitted handover write: it takes effect at once where nothing holds it up, otherwise it waits (R244, R245). -/
def handover (n b t : Nat) (s : State) : State :=
  if ownerBusy s n b then
    rset s (BANK_OWNER n b) (packW [(bankOwner s n b, 0), (t, 4), (1, 8)])
  else rset s (BANK_OWNER n b) (packW [(t, 0)])

/-- A write to `BANK_OWNER` that names code `t`; one not permitted is not carried out. -/
def bankWrite (n b : Nat) (w : BankWriter) (t : Nat) (s : State) : State :=
  if handoverOk n w (bankOwner s n b) t then handover n b t s else s

/-- A pending handover takes effect (R244). -/
def bankSettle (n b : Nat) (s : State) : State :=
  if flag s (BANK_OWNER n b) BANK_OWNER_PENDING && !ownerBusy s n b then
    rset s (BANK_OWNER n b) (packW [(fld s (BANK_OWNER n b) BANK_OWNER_TARGET, 0)])
  else s

/-! ### Writes to the page -/

/-- A write by `m`, which may write the page, to page offset `o` (a multiple of 8) of core `n`. A host does not write route
entries, and the commit lock does not bind a supervisor's write of them (R306). -/
def pageWrite (n o : Nat) (m : Master) (new mask : W64) (s : State) : State :=
  if 0x100 ≤ o && decide (o < 0x500) then writeCtxWord n ((o - 0x100) / 0x80) ((o - 0x100) % 0x80) true new mask s
  else if 0x500 ≤ o && decide (o < 0x580) then
    if bit1 mask 0 then bankWrite n ((o - 0x500) / 8) .admin (bitsOf new 0 4) s else s
  else if 0x900 ≤ o && decide (o < 0xB00) then
    if (o - 0x900) % 0x80 = 0x40 then
      updChan s n ((o - 0x900) / 0x80) fun x => { x with
        stalled := x.stalled && !wrote1 new mask 3, poisoned := x.poisoned && !wrote1 new mask 5 }
    else s
  else if 0xB00 ≤ o && decide (o < 0xC00) then
    match m with
    | .host _ => s
    | _ => plainWrite (0x1000000 + n * 0x1000 + o) (isSupervisor m) new mask s
  else plainWrite (0x1000000 + n * 0x1000 + o) false new mask s

/-- Bits of a word of its own page that a context may write (R101, R102, R243): EIE and SET_SOFT of its own `CTX_CTRL`, its
own `CTX_EVT` and `CTX_TRAP`; the owners of banks; sticky flags, VALID of the records and event masks of the engines. -/
def ownMask (u c o : Nat) : W64 :=
  let at_ := 0x1000000 + u * 0x1000 + o
  if o = 0x100 + c * 0x80 then 0x18
  else if o = 0x118 + c * 0x80 then 0xF0F
  else if o = 0x120 + c * 0x80 then 0x07FF07FF
  else if 0x500 ≤ o && decide (o < 0x580) then 0xF
  else if at_ = ENG_FLAGS u 0 ∨ at_ = ENG_FLAGS u 1 ∨ at_ = VEC_FLAGS u then 0x1F
  else if at_ = ENG_EVT_MASK u 0 ∨ at_ = ENG_EVT_MASK u 1 ∨ at_ = VEC_EVT_MASK u then 0x1F
  else if at_ = ENG_INV_POS u 0 ∨ at_ = ENG_INV_POS u 1 then 0x10000000000000
  else if at_ = VEC_FIRST u then 0x1000000
  else if at_ = CORE_FAULT_SUM u then 0x1F00000000
  else 0

/-- A context's permitted store to its own page takes effect, in the bits that it may write (R95, R102). -/
def ownWrite (u c o : Nat) (new touches : W64) (s : State) : State :=
  let mask := touches &&& ownMask u c o
  if 0x100 ≤ o && decide (o < 0x500) then writeCtxWord u c ((o - 0x100) % 0x80) false new mask s
  else if 0x500 ≤ o && decide (o < 0x580) then
    if bit1 mask 0 then
      bankWrite u ((o - 0x500) / 8) (if privOf s u c = .border then .border else .user) (bitsOf new 0 4) s
    else s
  else plainWrite (0x1000000 + u * 0x1000 + o) false new mask s

end Sys2Proof.Machine
end

