-- ==== Sys2Proof/Machine/Mesh.lean ====
section
/-!
DEFINITION. The packet network (chapter 12): nodes and edge stops, the port table of the routers, the path of a packet, the node that
serves an address.
-/
namespace Sys2Proof.Machine
open Sys2Proof

/-! ### References to synchronisation objects, routes to other modules (R143, R334) -/

def ownModule (s : State) : Nat := moduleIdx s * 8 + groupIdx s
/-- The object is this module's (R143). -/
def refLocal (s : State) (v : Nat) : Bool := decide (v / 2 ^ 25 % 2 = 0) || decide (refModule v = ownModule s)
/-- Module × 8 + group, as synchronisation references have it, to group × 64 + module. -/
def idxOfRef (v : Nat) : Nat := v % 8 * 64 + v / 8
/-- The port that packets for module `i` take; none where it is ABSENT (R497, R499, R501). -/
def routePort (s : State) (i : Nat) : Option Nat :=
  if flag s (CYUST_RT i) CYUST_RT_ABSENT then none
  else some (fld s (CYUST_RT i) (if flag s (CYUST_RT i) CYUST_RT_USE_ALT then CYUST_RT_ALT else CYUST_RT_PRIMARY))


/-! ### Routers, nodes and stops (R331–R333) -/

/-- The edge stops in the order of R333's table: node ID and router. -/
def edgeStops : List (Nat × Nat) :=
  [(0x1, 640), (0x2, 992), (0x3, 800), (0x10, 736), (0x11, 768), (0x12, 864), (0x13, 896)] ++
    (List.range 4).map (fun i => (0x100 + i, 8 * i + 3)) ++
    (List.range 4).map (fun i => (0x104 + i, (13 * i + 6) * 32 + 31)) ++
    (List.range 4).map (fun i => (0x108 + i, 51 * 32 + (28 - 8 * i))) ++
    (List.range 4).map (fun i => (0x10C + i, (45 - 13 * i) * 32)) ++
    (List.range 4).map (fun i => (0x200 + i, 8 * i + 5)) ++
    (List.range 4).map (fun i => (0x204 + i, 51 * 32 + (8 * i + 5))) ++
    (List.range 8).map (fun i => (0x300 + i, (6 * i + 5) * 32 + 31))
/-- The edge stops of router `h`, at ports 20 on. -/
def stopsAt (h : Nat) : List Nat := (edgeStops.filter fun e => decide (e.2 = h)).map (·.1)
/-- The router and port of a node (R331, R333); the side-band shares the MC's stop. -/
def placeOf (s : State) (node : Nat) : Option (Nat × Nat) :=
  if 0x8000 ≤ node then
    if node < 0x8000 + nCores ∧ !absentCore s (node - 0x8000) then
      let ph := physOf s (node - 0x8000)
      some (blockOf ph, 4 + ph / 128 % 4 * 4 + ph % 4)
    else none
  else
    let node := if node = 4 then 3 else node
    (edgeStops.find? fun e => decide (e.1 = node)).map fun e => (e.2, 20 + (stopsAt e.2).idxOf node)
/-- The node at a port: the core that a physical core serves, where its packet port is connected (R332), or an edge stop. -/
def nodeAt (s : State) (h port : Nat) : Option Nat :=
  if port < 4 then none
  else if port < 20 then
    (logicalOf s ((h / 32 * 4 + (port - 4) / 4) * 128 + h % 32 * 4 + (port - 4) % 4)).bind fun n =>
      if absentCore s n then none else some (0x8000 + n)
  else (stopsAt h)[port - 20]?
/-- The port by which a packet for `node` leaves router `h`: along x, then along y, then to the node (R335). -/
def routeOut (s : State) (h node : Nat) : Option Nat :=
  (placeOf s node).map fun d =>
    if h % 32 < d.1 % 32 then 1 else if d.1 % 32 < h % 32 then 3
    else if h / 32 < d.1 / 32 then 2 else if d.1 / 32 < h / 32 then 0
    else d.2
/-- The router and input port that an output port 0–3 leads to (R331). -/
def linkTo (h port : Nat) : Nat × Nat :=
  match port with
  | 0 => (h - 32, 2)
  | 1 => (h + 1, 3)
  | 2 => (h + 32, 0)
  | _ => (h - 1, 1)
/-- Links on the longest path, and one. -/
def pathFuel : Nat := 83
/-- The ports that a header passes from input port `port` of router `h` on, each with its direction: true is out (R335). -/
def passes (s : State) (node : Nat) : Nat → Nat → Nat → List (Nat × Nat × Bool)
  | 0, _, _ => []
  | fuel + 1, h, port =>
    match routeOut s h node with
    | none => []
    | some q => (h, port, false) :: (h, q, true) :: (if q < 4 then passes s node fuel (linkTo h q).1 (linkTo h q).2 else [])
/-- Every port that a packet from one node to another passes. -/
def pathOf (s : State) (src dst : Nat) : List (Nat × Nat × Bool) :=
  match placeOf s src with
  | some p => passes s dst pathFuel p.1 p.2
  | none => []

/-! ### The node that serves an address (R334) -/

/-- Within CSR space: a core page its core, the LMC and CYUST blocks their LMC or port (the registers of a whole block LMC0 and port
0; DESIGN CHOICE, log 111), LOAM region 0, HOSTIF port A, every other block CP0. -/
def csrNode (o : Nat) : Nat :=
  if 0x1000000 ≤ o then 0x8000 + (o - 0x1000000) / 0x1000
  else if 0x81000 ≤ o ∧ o < 0x89000 then 0x200 + (o - 0x81000) / 0x1000
  else if 0x80000 ≤ o ∧ o < 0x100000 then 0x200
  else if 0x42000 ≤ o ∧ o < 0x43000 then 0x300 + (o - 0x42000) / 0x200
  else if 0x40000 ≤ o ∧ o < 0x80000 then 0x300
  else if 0x30000 ≤ o ∧ o < 0x40000 then 0x100
  else if 0x8000 ≤ o ∧ o < 0xA000 then 0x1
  else 0x10
/-- The node that serves a device address; none: the route to its module is ABSENT. -/
def nodeOf (s : State) (a : Nat) : Option Nat :=
  let sel := selOf a
  if isLocalDram s sel then some (0x200 + lpDevCh (offOf a) / 8)
  else if sel = 1 ∨ sel = 2 then some (0x8000 + (homeCore a).getD 0)
  else if sel = 3 then some (csrNode (offOf a))
  else if sel = 4 then some (0x100 + offOf a / 0x40000)
  else if sel = 8 ∨ sel = 9 then some (sel - 7)
  else (routePort s (groupIdx s * 64 + (sel - 0x40))).map (0x300 + ·)

/-! ### Packets on their way -/

def setNet (f : NetSt → NetSt) (s : State) : State := { s with net := f s.net }
/-- The packet has entered the network and not left it. -/
def inMesh (s : State) (c : Carry) : Bool := s.net.pkts.any fun k => decide (k.carry = c)
def hasArrived (s : State) (c : Carry) : Bool := s.net.arrived.contains c

end Sys2Proof.Machine
end

