-- ==== Sys2Proof/Machine/Vector.lean ====
section
/-!
DEFINITION. The vector engine (chapter 8, R126, R132–R136): lane arithmetic, the sticky flags of `VEC_FLAGS` with the NUM
event and the record `VEC_FIRST`, results written at once and results in flight.
-/
namespace Sys2Proof.Machine
open Sys2Proof

/-- `VEC_FLAGS` as a number: bit 0 INV, 1 OVF, 2 UNF, 3 NAN_ALL, 4 INX. -/
def vecFlagBits (f : FFlags) : Nat := b2n f.inv + 2 * b2n f.ovf + 4 * b2n f.unf + 16 * b2n f.inx

/-- A vector result: the new register, the bits of it that the enabled lanes write, the flags set, the lowest lane that set
one. -/
structure VRes where
  val   : W512
  mask  : W512
  flags : Nat
  lane  : Nat
  deriving DecidableEq, Repr

/-- The floating format of a lane type. -/
def fmtOf : VTy → Fmt
  | .bf16 => fmtBF16
  | .i16 => fmtBF16
  | .i32 => fmtFP32
  | .f32 => fmtFP32
  | .cf32 => fmtFP32

/-- Lanes of a register under type `t`. -/
def lanes (t : VTy) (v : W512) : List Nat := lanesOf (laneBits t) (laneCount t) v

/-- The predicate bit of lane `i` (R126). -/
def lanePred (m : W64) (i : Nat) : Bool := bit1 m i

/-- Apply a lane function under the predicate: lanes not enabled keep the destination and set no flag (R126, R234). -/
def mapLanes (t : VTy) (m : W64) (old : W512) (f : Nat → Nat × FFlags) : VRes :=
  let rs := (List.range (laneCount t)).map fun i =>
    if lanePred m i then f i else (lane (laneBits t) old i, noFlags)
  let fl := rs.map fun r => vecFlagBits r.2
  { val := ofLanes (laneBits t) (rs.map (·.1))
    mask := ofLanes (laneBits t) ((List.range (laneCount t)).map fun i => if lanePred m i then 2 ^ laneBits t - 1 else 0)
    flags := fl.foldl (· ||| ·) 0
    lane := (fl.findIdx fun x => decide (x ≠ 0)) % laneCount t }

/-- A lane function that sets no flag. -/
def pureLane (x : Nat) : Nat × FFlags := (x, noFlags)

/-- Two parts of a CF32 lane. -/
def cRe (x : Nat) : Nat := x % 2 ^ 32
def cIm (x : Nat) : Nat := x / 2 ^ 32 % 2 ^ 32
def cPack (re im : Nat × FFlags) : Nat × FFlags := (re.1 + im.1 * 2 ^ 32, orFlags re.2 im.2)

/-- x y + z w + a exactly, rounded once (R228); `sub` subtracts the second product. -/
def sumProd (sub : Bool) (x y z w a : Nat) : Nat × FFlags :=
  let p := mulF (decodeF fmtFP32 x) (decodeF fmtFP32 y)
  let q := mulF (decodeF fmtFP32 z) (decodeF fmtFP32 w)
  let r := addF p.1 (if sub then negF q.1 else q.1)
  let t := addF r.1 (decodeF fmtFP32 a)
  roundEnc fmtFP32 t.1 (p.2 || q.2 || r.2 || t.2)
/-- The same without an addend. -/
def sumProd0 (sub : Bool) (x y z w : Nat) : Nat × FFlags :=
  let p := mulF (decodeF fmtFP32 x) (decodeF fmtFP32 y)
  let q := mulF (decodeF fmtFP32 z) (decodeF fmtFP32 w)
  let r := addF p.1 (if sub then negF q.1 else q.1)
  roundEnc fmtFP32 r.1 (p.2 || q.2 || r.2)

/-- Complex product, and product added to `d` (R228). -/
def cMul (a b : Nat) : Nat × FFlags :=
  cPack (sumProd0 true (cRe a) (cRe b) (cIm a) (cIm b)) (sumProd0 false (cRe a) (cIm b) (cIm a) (cRe b))
def cMac (d a b : Nat) : Nat × FFlags :=
  cPack (sumProd true (cRe a) (cRe b) (cIm a) (cIm b) (cRe d)) (sumProd false (cRe a) (cIm b) (cIm a) (cRe b) (cIm d))

/-- Lane add, subtract, multiply, fused multiply-add (R133, R227, R228). -/
def laneAdd (t : VTy) (a b : Nat) : Nat × FFlags :=
  match t with
  | .i32 => pureLane ((a + b) % 2 ^ 32)
  | .i16 => pureLane ((a + b) % 2 ^ 16)
  | .f32 => faddE fmtFP32 a b
  | .bf16 => faddE fmtBF16 a b
  | .cf32 => cPack (faddE fmtFP32 (cRe a) (cRe b)) (faddE fmtFP32 (cIm a) (cIm b))
def laneSub (t : VTy) (a b : Nat) : Nat × FFlags :=
  match t with
  | .i32 => pureLane ((a + (2 ^ 32 - b)) % 2 ^ 32)
  | .i16 => pureLane ((a + (2 ^ 16 - b)) % 2 ^ 16)
  | .f32 => fsubE fmtFP32 a b
  | .bf16 => fsubE fmtBF16 a b
  | .cf32 => cPack (fsubE fmtFP32 (cRe a) (cRe b)) (fsubE fmtFP32 (cIm a) (cIm b))
def laneMul (t : VTy) (a b : Nat) : Nat × FFlags :=
  match t with
  | .i32 => pureLane (a * b % 2 ^ 32)
  | .i16 => pureLane (a * b % 2 ^ 16)
  | .f32 => fmulE fmtFP32 a b
  | .bf16 => fmulE fmtBF16 a b
  | .cf32 => cMul a b
def laneFma (t : VTy) (d a b : Nat) : Nat × FFlags :=
  match t with
  | .i32 => pureLane ((d + a * b) % 2 ^ 32)
  | .i16 => pureLane ((d + a * b) % 2 ^ 16)
  | .f32 => ffmaE fmtFP32 a b d
  | .bf16 => ffmaE fmtBF16 a b d
  | .cf32 => cMac d a b

/-- Minimum (or maximum) of two lanes: signed for integers; the other operand for one NaN, −0 below +0 (R229). -/
def laneMinMax (t : VTy) (max : Bool) (a b : Nat) : Nat :=
  if intTy t then
    let x := sgn (laneBits t) a
    let y := sgn (laneBits t) b
    if decide (x < y) = max then b else a
  else
    let x := decodeF (fmtOf t) a
    let y := decodeF (fmtOf t) b
    match isNaN x, isNaN y with
    | true, true => canonNaN (fmtOf t)
    | true, false => b
    | false, true => a
    | false, false =>
      if ltF x y then (if max then b else a)
      else if ltF y x then (if max then a else b)
      else if signF x = max then b else a

/-- A lane compare (R129, R133): any compare with a NaN is false, except NE. -/
def laneCmp (t : VTy) (cc : Cc) (a b : Nat) : Bool :=
  if intTy t then
    let x := sgn (laneBits t) a
    let y := sgn (laneBits t) b
    match cc with
    | .eq => decide (a = b)
    | .ne => decide (a ≠ b)
    | .lt => decide (x < y)
    | .ge => decide (y ≤ x)
    | .ltu => decide (a < b)
    | .geu => decide (b ≤ a)
  else
    let x := decodeF (fmtOf t) a
    let y := decodeF (fmtOf t) b
    match cc with
    | .eq => eqF x y
    | .ne => !eqF x y
    | .lt => ltF x y
    | .ge => !isNaN x && !isNaN y && !ltF x y
    | _ => false

/-- Conversion of one lane (R232). -/
def laneConv (t d : VTy) (sat : Bool) (a : Nat) : Nat × FFlags :=
  match t, d with
  | .i32, .f32 => roundEnc fmtFP32 (ofIntF (sgn 32 a)) false
  | .i32, .bf16 => roundEnc fmtBF16 (ofIntF (sgn 32 a)) false
  | .i32, .i16 =>
    let x := sgn 32 a
    pureLane (narrow 16 (if x < -32768 then -32768 else if 32767 < x then 32767 else x))
  | .i16, .i32 => pureLane (narrow 32 (sgn 16 a))
  | .i16, .f32 => roundEnc fmtFP32 (ofIntF (sgn 16 a)) false
  | .i16, .bf16 => roundEnc fmtBF16 (ofIntF (sgn 16 a)) false
  | .f32, .bf16 =>
    let r := convertF fmtBF16 sat false (decodeF fmtFP32 a)
    (encodeF fmtBF16 r.1, r.2)
  | .bf16, .f32 => pureLane (encodeF fmtFP32 (decodeF fmtBF16 a))
  | .f32, .i32 => let r := toIntSat 32 (decodeF fmtFP32 a); (narrow 32 r.1, r.2)
  | .f32, .i16 => let r := toIntSat 16 (decodeF fmtFP32 a); (narrow 16 r.1, r.2)
  | .bf16, .i32 => let r := toIntSat 32 (decodeF fmtBF16 a); (narrow 32 r.1, r.2)
  | .bf16, .i16 => let r := toIntSat 16 (decodeF fmtBF16 a); (narrow 16 r.1, r.2)
  | _, _ => pureLane a

/-- VCONV with its lane movement (R133): which source lane feeds destination lane `j`, none where `j` keeps its value. -/
def convSrc (t d : VTy) (h j : Nat) : Option Nat :=
  if laneBits t = laneBits d then some j
  else if laneBits d < laneBits t then (if 16 * h ≤ j ∧ j < 16 * h + 16 then some (j - 16 * h) else none)
  else some (16 * h + j)

/-- Raise vector flags: sticky bits, NUM event under the mask (R235), the record of the first (R236). `num` is the issue
number of the instruction. -/
def raiseVec (u c pc num flags ln : Nat) (s : State) : State :=
  if flags = 0 then s
  else
    let s := orFld s (VEC_FLAGS u) ⟨0, 0, 5⟩ flags
    let s := if isCp u then s else flagCtrs (8 + 5 * vecClass s u) flags s
    let s := if flags &&& fld s (VEC_EVT_MASK u) VEC_EVT_MASK_MASK ≠ 0 then setPend s u c 1 else s
    if flag s (VEC_FIRST u) VEC_FIRST_VALID && decide (mget 0 s.core.vecFirst u ≤ num) then s
    else
      let s := rset s (VEC_FIRST u) (BitVec.ofNat 64 (pc + c * 2 ^ 11 + flags * 2 ^ 14 + ln * 2 ^ 19 + 2 ^ 24))
      { s with core := { s.core with vecFirst := mset 0 s.core.vecFirst u num } }

/-- The issue number of the V-slot instruction that issues now (R236). -/
def vecNum (pre : State) (u : Nat) : Nat := fld pre (VEC_ISSUED u) VEC_ISSUED_ISSUED

/-- A one-beat vector result: the register, then the flags; behind older results of the register it waits for them (R226). -/
def landVec (pre : State) (u c vd : Nat) (r : VRes) (s : State) : State :=
  if (outstandingRegs s u c).contains (.v vd) then
    sendPend ⟨s.core.nextTag, u, c, (ctx pre u c).pc, vecNum pre u, .v vd, r.val, r.mask, r.flags, r.lane, true⟩ s
  else raiseVec u c (ctx pre u c).pc (vecNum pre u) r.flags r.lane (updCtx s u c fun x => setV x vd r.val)

def rdV (pre : State) (u c r : Nat) : W512 := vr (ctx pre u c) r

/-- A two-operand lane operation that also reads the destination. -/
def effLanes (pre : State) (u c p : Nat) (t : VTy) (vd va vb : Nat) (f : Nat → Nat → Nat → Nat × FFlags) (s : State) :
    State :=
  let w := laneBits t
  landVec pre u c vd (mapLanes t (rdP pre u c p) (rdV pre u c vd) fun i =>
    f (lane w (rdV pre u c vd) i) (lane w (rdV pre u c va) i) (lane w (rdV pre u c vb) i)) s

def effVadd (pre : State) (u c p : Nat) (t : VTy) (vd va vb : Nat) (s : State) : State :=
  effLanes pre u c p t vd va vb (fun _ a b => laneAdd t a b) s
def effVsub (pre : State) (u c p : Nat) (t : VTy) (vd va vb : Nat) (s : State) : State :=
  effLanes pre u c p t vd va vb (fun _ a b => laneSub t a b) s
def effVmul (pre : State) (u c p : Nat) (t : VTy) (vd va vb : Nat) (s : State) : State :=
  effLanes pre u c p t vd va vb (fun _ a b => laneMul t a b) s
def effVfma (pre : State) (u c p : Nat) (t : VTy) (vd va vb : Nat) (s : State) : State :=
  effLanes pre u c p t vd va vb (fun d a b => laneFma t d a b) s
def effVmin (pre : State) (u c p : Nat) (t : VTy) (vd va vb : Nat) (s : State) : State :=
  effLanes pre u c p t vd va vb (fun _ a b => pureLane (laneMinMax t false a b)) s
def effVmax (pre : State) (u c p : Nat) (t : VTy) (vd va vb : Nat) (s : State) : State :=
  effLanes pre u c p t vd va vb (fun _ a b => pureLane (laneMinMax t true a b)) s
def effVand (pre : State) (u c p : Nat) (t : VTy) (vd va vb : Nat) (s : State) : State :=
  effLanes pre u c p t vd va vb (fun _ a b => pureLane (a &&& b)) s
def effVor (pre : State) (u c p : Nat) (t : VTy) (vd va vb : Nat) (s : State) : State :=
  effLanes pre u c p t vd va vb (fun _ a b => pureLane (a ||| b)) s
def effVxor (pre : State) (u c p : Nat) (t : VTy) (vd va vb : Nat) (s : State) : State :=
  effLanes pre u c p t vd va vb (fun _ a b => pureLane (a ^^^ b)) s
def effVshl (pre : State) (u c p : Nat) (t : VTy) (vd va vb : Nat) (s : State) : State :=
  effLanes pre u c p t vd va vb (fun _ a b => pureLane (a * 2 ^ (b % laneBits t) % 2 ^ laneBits t)) s
def effVshr (pre : State) (u c p : Nat) (t : VTy) (vd va vb : Nat) (arith : Bool) (s : State) : State :=
  effLanes pre u c p t vd va vb (fun _ a b =>
    let k := b % laneBits t
    pureLane (if arith then narrow (laneBits t) (sgn (laneBits t) a / (2 ^ k : Nat)) else a / 2 ^ k)) s
/-- pd bit i := compare; lanes not enabled keep their predicate bit, bits above the last lane become 0 (R125, R126). -/
def effVcmp (pre : State) (u c p : Nat) (t : VTy) (pd : Nat) (cc : Cc) (va vb : Nat) (s : State) : State :=
  let w := laneBits t
  let m := rdP pre u c p
  let bits := (List.range (laneCount t)).map fun i =>
    b2n (if lanePred m i then laneCmp t cc (lane w (rdV pre u c va) i) (lane w (rdV pre u c vb) i)
         else bit1 (rdP pre u c pd) i)
  let val := BitVec.ofNat 64 (packNat 1 bits)
  let kept := BitVec.ofNat 64 (packNat 1 ((List.range (laneCount t)).map fun i => b2n !(lanePred m i)))
  writeNow u c (.p pd) (val.setWidth 512) ((~~~kept).setWidth 512) (fun x => setP x pd val) s
def effVcmac (pre : State) (u c p vd va vb : Nat) (s : State) : State :=
  effLanes pre u c p .cf32 vd va vb (fun d a b => cMac d a b) s
def effVconv (pre : State) (u c p : Nat) (t d : VTy) (vd va : Nat) (sat : Bool) (h : Nat) (s : State) : State :=
  let on := BitVec.ofNat 64 (packNat 1 ((List.range (laneCount d)).map fun j =>
    b2n (lanePred (rdP pre u c p) j && (convSrc t d h j).isSome)))
  landVec pre u c vd (mapLanes d on (rdV pre u c vd) fun j =>
    laneConv t d sat (lane (laneBits t) (rdV pre u c va) ((convSrc t d h j).getD 0))) s
/-- VPERM: lane vb[i] mod lanes of va, as it stood before the bundle (R231). -/
def effVperm (pre : State) (u c p : Nat) (t : VTy) (vd va vb : Nat) (s : State) : State :=
  let w := laneBits t
  landVec pre u c vd (mapLanes t (rdP pre u c p) (rdV pre u c vd) fun i =>
    pureLane (lane w (rdV pre u c va) (lane w (rdV pre u c vb) i % laneCount t))) s
def effVbcast (pre : State) (u c p : Nat) (t : VTy) (vd ra : Nat) (s : State) : State :=
  landVec pre u c vd (mapLanes t (rdP pre u c p) (rdV pre u c vd) fun _ =>
    pureLane ((rdS pre u c ra).toNat % 2 ^ laneBits t)) s
/-- VEXT reads predicate bit 0 only (R126). -/
def effVext (pre : State) (u c p : Nat) (t : VTy) (rd va idx : Nat) (s : State) : State :=
  if predTrue (ctx pre u c) p then
    writeS u c rd (BitVec.ofNat 64 (lane (laneBits t) (rdV pre u c va) idx)) s
  else s
def effVmov (pre : State) (u c p : Nat) (t : VTy) (vd va : Nat) (s : State) : State :=
  effLanes pre u c p t vd va va (fun _ a _ => pureLane a) s

/-- A result of more than one beat sets out (R226): its destination is marked until VEC_RESULT_WRITE. -/
def sendVec (pre : State) (u c vd : Nat) (val : W512) (flags : Nat) (s : State) : State :=
  sendPend ⟨s.core.nextTag, u, c, (ctx pre u c).pc, vecNum pre u, .v vd, val, allBits, flags, 0, false⟩ s

/-- One step of a reduction (R230). -/
def redStep (t : VTy) (op a b : Nat) : Nat × FFlags :=
  match op with
  | 0 => laneAdd t a b
  | 1 => pureLane (laneMinMax t false a b)
  | _ => pureLane (laneMinMax t true a b)

/-- The reduction of R230 over the enabled lanes in ascending order, with the flags of its steps. -/
def vredAcc (t : VTy) (op : Nat) : List Nat → Option (Nat × Nat) → Option (Nat × Nat)
  | [], acc => acc
  | a :: as, none => vredAcc t op as (some (a, 0))
  | a :: as, some (x, fl) =>
    let r := redStep t op x a
    vredAcc t op as (some (r.1, fl ||| vecFlagBits r.2))

/-- The enabled lanes of a register, ascending. -/
def enabledLanes (t : VTy) (m : W64) (v : W512) : List Nat :=
  ((List.range (laneCount t)).filter fun i => lanePred m i).map fun i => lane (laneBits t) v i

def effVred (pre : State) (u c p : Nat) (t : VTy) (vd va op : Nat) (s : State) : State :=
  match vredAcc t op (enabledLanes t (rdP pre u c p) (rdV pre u c va)) none with
  | none => s
  | some (x, fl) => sendVec pre u c vd (BitVec.ofNat 512 x) fl s

/-- Whether a lane holds NaN, and strict order of lanes, for the search of R135. -/
def laneNaN (t : VTy) (a : Nat) : Bool := !intTy t && isNaN (decodeF (fmtOf t) a)
def laneLt (t : VTy) (a b : Nat) : Bool :=
  if intTy t then decide (sgn (laneBits t) a < sgn (laneBits t) b) else ltF (decodeF (fmtOf t) a) (decodeF (fmtOf t) b)

/-- The loop of R135: the best value so far with its index. -/
def searchLoop (t : VTy) (least : Bool) (m : W64) (v : W512) (base : Nat) : List Nat → Option (Nat × Nat) → Option (Nat × Nat)
  | [], best => best
  | i :: is, best =>
    let a := lane (laneBits t) v i
    if !lanePred m i || laneNaN t a then searchLoop t least m v base is best
    else
      let better := match best with
        | none => true
        | some (b, _) => if least then laneLt t a b else laneLt t b a
      searchLoop t least m v base is (if better then some (a, (base + i) % 2 ^ 32) else best)

/-- A canonical NaN of the lane type (the smallest pattern of an integer type never arises: its lanes are never NaN). -/
def laneCanonNaN (t : VTy) : Nat := canonNaN (fmtOf t)

/-- VSPEC search (R135). The accumulated value is lane 0 of vd, 32 bits wide with a 16-bit value in its low half. -/
def effVspecSearch (pre : State) (u c p : Nat) (t : VTy) (vd va vb : Nat) (least accum : Bool) (s : State) : State :=
  let m := rdP pre u c p
  let idxs := List.range (laneCount t)
  if !(idxs.any fun i => lanePred m i) then s
  else
    let d := rdV pre u c vd
    let acc := bitsOf d 0 32 % 2 ^ laneBits t
    let start := if accum && !laneNaN t acc then some (acc, bitsOf d 32 32) else none
    let base := bitsOf (rdV pre u c vb) 0 32
    match searchLoop t least m (rdV pre u c va) base idxs start with
    | some (v, ix) => sendVec pre u c vd (BitVec.ofNat 512 (v + ix * 2 ^ 32)) 0 s
    | none => sendVec pre u c vd (BitVec.ofNat 512 (laneCanonNaN t + base * 2 ^ 32)) 8 s

/-- VSPEC filter tap (R136): one multiply-add per enabled lane; va moves down one lane, whatever the predicate. -/
def effVspecTap (pre : State) (u c p : Nat) (t : VTy) (vd va vb k : Nat) (s : State) : State :=
  let w := laneBits t
  let a := rdV pre u c va
  let coef := lane w (rdV pre u c vb) k
  let nxt := lane w (rdV pre u c ((va + 1) % 16)) 0
  let moved := (List.range (laneCount t)).map fun i => if i + 1 < laneCount t then lane w a (i + 1) else nxt
  let s := writeV u c va (ofLanes w moved) s
  landVec pre u c vd (mapLanes t (rdP pre u c p) (rdV pre u c vd) fun i =>
    laneFma t (lane w (rdV pre u c vd) i) (lane w a i) coef) s

/-! ### Results in flight land (R226) -/

/-- A result in flight lands: the register, then the flags. -/
def landPending (v : VecPend) (s : State) : State :=
  let s := { s with core := { s.core with vecs := s.core.vecs.filter fun w => decide (w.tag ≠ v.tag) } }
  raiseVec v.u v.c v.pc v.num v.flags v.lane (updCtx s v.u v.c fun x => setReg x v.dst v.val v.mask)
/-- Results that waited for older ones of their registers land, where none is left. -/
def landSoon (s : State) : State :=
  (s.core.vecs.filter (·.soon)).foldl (fun s v => if olderWrite s v.u v.c v.dst v.tag then s else landPending v s) s
/-- A result in flight is due: it lands, or waits for the older ones of its register. -/
def pendDue (v : VecPend) (s : State) : State :=
  if olderWrite s v.u v.c v.dst v.tag then
    { s with core := { s.core with vecs := s.core.vecs.map fun w => if w.tag = v.tag then { w with soon := true } else w } }
  else landSoon (landPending v s)

end Sys2Proof.Machine
end

