-- ==== Sys2Proof/Machine/Requests.lean ====
section
/-!
DEFINITION. Accesses in flight and the blocks that answer them: finding a request, its place in the order of R142 and
R343, answering one part of it, delivering the whole.
-/
namespace Sys2Proof.Machine
open Sys2Proof

def findReq (s : State) (tag : Nat) : Option Req := s.core.reqs.find? fun r => decide (r.tag = tag)
/-- A part of a request that has no answer yet. -/
def openPart (r : Req) (i : Nat) : Option Part := (r.parts[i]?).bind fun p => if p.ans.isNone then some p else none
def isMsg : ReqOp → Bool
  | .load _ _ _ => false
  | .store _ _ _ => false
  | _ => true
/-- The node to which part `i` of an access goes over the packet network; none: it does not leave its unit, or its module is ABSENT
(R334). The last part of a messaging operation goes to CP0's stop, or to the Cyust port of the object's module. -/
def endpoint (s : State) (r : Req) (i : Nat) : Option Nat :=
  let node :=
    if isMsg r.op && decide (i + 1 = r.parts.length) then
      match syncRef r.op with
      | some v => if refLocal s v then some 0x10 else (routePort s (idxOfRef (refModule v))).map (0x300 + ·)
      | none => some 0x10
    else (r.parts[i]?).bind fun p => if p.n = 0 then none else nodeOf s p.addr
  node.bind fun d => if d = srcOf r.u then none else some d
/-- A packet of this access's sender to the same node is on its way: a later one has not arrived (R341). -/
def followsPkt (s : State) (r : Req) (i : Nat) : Bool :=
  s.net.pkts.any fun k => match k.carry with
    | .req t j => (findReq s t).any fun q => decide (q.u = r.u) && decide (endpoint s q j = endpoint s r i)
    | _ => false
/-- A part can be served at its node: its packet has arrived, or no packet that it follows is on its way, and its own journey is not
listed command by command (DESIGN CHOICE, log 111). -/
def arrivable (s : State) (r : Req) (i : Nat) : Bool :=
  s.net.pkts.isEmpty || hasArrived s (.req r.tag i) || !followsPkt s r i
/-- A part of a request that has no answer yet and can be served. -/
def openAt (s : State) (r : Req) (i : Nat) : Option Part := if arrivable s r i then openPart r i else none
/-- No answer to a part of the access is still in the network. -/
def answersHere (s : State) (r : Req) : Bool :=
  s.net.pkts.isEmpty || (List.range r.parts.length).all fun i => !inMesh s (.ans r.tag i)
def setReq (tag : Nat) (f : Req → Req) (s : State) : State :=
  { s with core := { s.core with reqs := s.core.reqs.map fun r => if r.tag = tag then f r else r } }
/-- Part `i` of request `tag` is answered. -/
def answerPart (tag i : Nat) (a : Answer) (s : State) : State :=
  setReq tag (fun r => { r with parts := match r.parts[i]? with
    | some p => setNth r.parts i { p with ans := some a }
    | none => r.parts }) s
/-- The part that a messaging block answers: the last. -/
def answerOp (tag : Nat) (a : Answer) (s : State) : State :=
  match findReq s tag with
  | some r => answerPart tag (r.parts.length - 1) a s
  | none => s
def answered (r : Req) : Bool := r.parts.all fun p => p.ans.isSome
/-- Every part but the last has its answer (the body of a message). -/
def bodyHere (r : Req) : Bool := (r.parts.dropLast).all fun p => p.ans.isSome

/-- Two requests have one sender. -/
def sameSender (a b : Req) : Bool := decide (a.u = b.u) && decide (a.c = b.c) && decide (a.chan = b.chan)
/-- LPDDR5X of this module under either selector is one place (R36). -/
def normAddr (s : State) (a : Nat) : Nat := if isLocalDram s (selOf a) then offOf a else a
/-- Accesses of one context to one address take effect in issue order (R142): none issued earlier by this sender to these
bytes, of which one is a store, still waits. -/
def inOrder (s : State) (r : Req) (p : Part) : Bool :=
  !s.core.reqs.any fun q => decide (q.tag < r.tag) && sameSender q r && !(isLoad q && isLoad r) &&
    q.parts.any fun x => x.ans.isNone && decide (0 < x.n) && overlaps (normAddr s x.addr) x.n (normAddr s p.addr) p.n
/-- R343: every earlier store of the issuing context has been acknowledged. -/
def storesDone (s : State) (r : Req) : Bool :=
  !s.core.reqs.any fun q => decide (q.tag < r.tag) && sameSender q r && (match q.op with
    | .store _ _ _ => true
    | _ => false)
/-- A context's operations on the messaging blocks are served in issue order (R341, R353). -/
def msgInOrder (s : State) (r : Req) : Bool :=
  !s.core.reqs.any fun q => decide (q.tag < r.tag) && sameSender q r && isMsg q.op && !answered q && !q.orphan
/-- A messaging operation of this tag that the block may serve now. -/
def msgReq (s : State) (tag : Nat) : Option Req :=
  match findReq s tag with
  | some r => if isMsg r.op && bodyHere r && !answered r && msgInOrder s r && arrivable s r (r.parts.length - 1) then some r else none
  | none => none

/-- The bytes of an answered load or body, in address order, with the device addresses of poisoned words; the first code of
a part that failed, with its address. -/
def gather : List Part → List Byte × List Nat × Option (Nat × Nat)
  | [] => ([], [], none)
  | p :: ps =>
    let r := gather ps
    match p.ans with
    | some (.bytes d b) => (d ++ r.1, b ++ r.2.1, r.2.2)
    | some (.failed c) => (r.1, r.2.1, some (c, p.addr))
    | _ => r

/-- Poisoned words among the bytes `[a, a + n)`. -/
def poisonIn (a n : Nat) (bad : List Nat) : Option Nat := bad.find? fun w => overlaps w 8 a n

/-- The word a load writes to a scalar register (R140). -/
def loadWord (signed : Bool) (n : Nat) (d : List Byte) : W64 :=
  if signed then sext64 (8 * n) (leNat d) else BitVec.ofNat 64 (leNat d)
/-- Write the destination of a load. -/
def writeDst (u c : Nat) (dst : Option Reg) (signed : Bool) (n : Nat) (d : List Byte) (s : State) : State :=
  match dst with
  | some (.s r) => putReg u c (.s r) ((loadWord signed n d).setWidth 512) s
  | some r => putReg u c r (BitVec.ofNat 512 (leNat d)) s
  | none => s
/-- The destination is none, or s0 (R118, R144). -/
def noDst (r : Req) : Bool :=
  decide (r.pdst = 0) && (match r.dst with
    | none => true
    | some (.s 0) => true
    | _ => false)
/-- The deferred fault of poisoned data (R118). -/
def poisonFault (r : Req) (a : Nat) (s : State) : State := faultCtx r.u r.c 0x0601 3 true r.pc a s

/-- A load's data returns (R95, R118). -/
def deliverLoad (r : Req) (a n : Nat) (signed : Bool) (s : State) : State :=
  if noDst r then s
  else
    let g := gather r.parts
    match g.2.2 with
    | some (_, b) => poisonFault r b s
    | none => match poisonIn a n g.2.1 with
      | some w => poisonFault r w s
      | none => writeDst r.u r.c r.dst signed n g.1 s
/-- The answer of a messaging block returns (R140). -/
def deliverOp (r : Req) (s : State) : State :=
  match (r.parts.getLast?).bind (·.ans) with
  | some (.status v) => (match r.dst with
    | some d => putReg r.u r.c d (v.setWidth 512) s
    | none => s)
  | some (.taken got e) =>
    if got then putReg r.u r.c (.p r.pdst) lowBits (match r.dst with
      | some d => putReg r.u r.c d e s
      | none => s)
    else putReg r.u r.c (.p r.pdst) 0 s
  | some (.test t) => putReg r.u r.c (.p r.pdst) ((boolWord t).setWidth 512) s
  | some (.bytes _ (w :: _)) => if noDst r then s else poisonFault r w s
  | some (.failed _) => if noDst r then s else poisonFault r 0 s
  | _ => s
/-- The answer of a whole access reaches its context; an orphan's is discarded (R325). -/
def deliver (r : Req) (s : State) : State :=
  let s := dropReq r.tag s
  landSoon (if r.orphan then s
  else match r.op with
    | .load a n signed => deliverLoad r a n signed s
    | .store _ _ _ => s
    | _ => deliverOp r s)
/-- No earlier access or result of the context is still to write a register of this one's (R226; DEDUCED, log 20). -/
def dstFree (s : State) (r : Req) : Bool := !(reqRegs r).any fun d => olderWrite s r.u r.c d r.tag

end Sys2Proof.Machine
end

