-- ==== Sys2Proof/Machine/Access.lean ====
section
/-!
DEFINITION. Loads, stores and the load-like X-slot operations (R140–R145): address formation and checks, CSR permission
(R102, R354), the request that sets out, and fabric ports.
-/
namespace Sys2Proof.Machine
open Sys2Proof

/-! ### Addresses (R141) -/

def effAddr (pre : State) (u c ra imm : Nat) : Nat := (rdS pre u c ra + simm13 imm).toNat

/-- Registers that every context may read outside its own page, by whole register bytes (R101, R354). -/
def sharedReadable (off : Nat) : Bool :=
  [PACE_STATUS, PACE_SLOT, PACE_TIME, PACE_NEXT, PACE_HG_MIN, GLB_RATES, GLB_STATUS].contains off ||
  (decide (0x100000 ≤ off) && decide (off < 0x200000)) ||
  (decide (0x200000 ≤ off) && decide (off < 0x600000) && decide (off % 0x40 < 0x20)) ||
  (decide (0x10000 ≤ off) && decide (off < 0x18000) && decide (off % 0x200 = 0))

/-- Bytes `[o, o + n)` lie in the register word at `o / 8 × 8`, below its width. -/
def inRegister (o n : Nat) : Bool :=
  match regAt (o / 8 * 8) with
  | some (r, _) => decide (o % 8 + n ≤ r.width / 8)
  | none => false

/-- Bytes `[o % 8, o % 8 + n)` of a 64-bit word. -/
def wordPart (w : W64) (o n : Nat) : List Byte := ((leBytes 8 w.toNat).drop (o % 8)).take n
/-- The bits of a 64-bit word that `n` bytes at offset `o` touch. -/
def touched (o n : Nat) : W64 := BitVec.ofNat 64 ((2 ^ (8 * n) - 1) * 2 ^ (8 * (o % 8)))
/-- A value of some bytes in its place in a 64-bit word, with the mask of the bits it touches. -/
def placed (o : Nat) (data : List Byte) : W64 × W64 :=
  (BitVec.ofNat 64 (leNat data * 2 ^ (8 * (o % 8))), touched o data.length)

/-- R102: the access is permitted to context `c` of unit `u`; a write to the own page touches a field that the context may
write. -/
def csrPermitted (s : State) (u c o n : Nat) (write : Bool) : Bool :=
  match privOf s u c with
  | .supervisor => true
  | _ =>
    match ownPage u o with
    | some po => if write then decide ((touched po n &&& ownMask u c (po / 8 * 8)) ≠ 0) && inRegister o n else true
    | none => !write && sharedReadable (o / 8 * 8) && inRegister o n

/-- A context as a writer of `BANK_OWNER` (R242). -/
def writerOf (s : State) (u c : Nat) : BankWriter :=
  match privOf s u c with
  | .supervisor => .admin
  | .border => .border
  | .user => .user
/-- Fault of an access at `ea` of `n` bytes, with `CTX_FAULT_INFO`: the checks of R141 in order, then bank ownership
(R241), and R242 for a write to `BANK_OWNER` of value `v`. -/
def accessFault (s : State) (u c ea n : Nat) (write : Bool) (v : Nat) : Option (Nat × Nat) :=
  if 2 ^ 56 ≤ ea then some (0x0603, ea)
  else if selOf ea = 3 then
    let o := offOf ea
    if !(decide (n = 4) || decide (n = 8)) || decide (ea % n ≠ 0) || !mapped s ea n then some (0x0603, ea)
    else if !csrPermitted s u c o n write then some (0x0102, ea)
    else
      match pageAt o with
      | some (k, po) =>
        if write && decide (0x500 ≤ po) && decide (po < 0x580) && decide (po % 8 = 0) &&
            !handoverOk k (writerOf s u c) (bankOwner s k ((po - 0x500) / 8)) (v % 16)
        then some (0x0602, ea)
        else none
      | none => none
  else if !mapped s ea n then some (0x0603, ea)
  else if selOf ea = 2 then
    ((partsOf s ea n).findSome? fun p =>
      if ownMem u p.1 then (bankDenied s u 0 (localOf p.1) p.2).map fun a => devOfLocal u a else none).map fun a => (0x0602, a)
  else none

/-! ### Requests -/

/-- Accesses of a context that count against the limits of R95. -/
def ctxLoads (s : State) (u c : Nat) : Nat :=
  (s.core.reqs.filter fun r => !r.chan && r.tracked && decide (r.u = u) && decide (r.c = c)).length
def coreLoads (s : State) (u : Nat) : Nat :=
  (s.core.reqs.filter fun r => !r.chan && r.tracked && decide (r.u = u)).length
/-- Tracking has free entries for one more load-like access that reads at addresses `as` (R95, R286). -/
def slotFree (s : State) (u c : Nat) (as : List Nat) : Bool :=
  decide (ctxLoads s u c < 16) && decide (coreLoads s u < 64) && trackRoom s as false
/-- The parts of a read that leave the core, by address (R382). -/
def readAddrs (s : State) (u ea n : Nat) : List Nat :=
  ((partsOf s ea n).filter fun p => !ownMem u p.1).map (·.1)

/-- A context sends an access. -/
def sendReq (u c pc : Nat) (op : ReqOp) (dst : Option Reg) (pdst : Nat) (tr : Bool) (parts : List Part) (s : State) :
    State :=
  let r : Req := { tag := s.core.nextTag, u := u, c := c, pc := pc, op := op, dst := dst, pdst := pdst, tracked := tr
                   parts := parts, chan := false, pos := 0, cnt := 0, stamp := now10 s, orphan := false }
  { s with core := { s.core with reqs := s.core.reqs ++ [r], nextTag := s.core.nextTag + 1 } }

/-- Every byte of the access lies in the core's own scratch, or every one in its own Silt. -/
def ownAll (u ea n : Nat) : Bool := ownMem u ea && ownMem u (ea + (n - 1))
/-- The access stays in the core: its own scratch, its own Silt, its own page. -/
def isOwn (u ea n : Nat) : Bool := ownAll u ea n || ownPageAt u ea
/-- A load to this address takes a tracking entry when its destination is not s0 (R95, R144). -/
def takesEntry (u ea n : Nat) (dst : Option Reg) : Bool :=
  !isOwn u ea n && (match dst with
    | none => false
    | some (.s 0) => false
    | _ => true)
/-- An access to the core's own memory must wait: Sieve holds its bank, or an earlier access of the context to the same bytes
waits (R142, R250). -/
def mustWait (s : State) (u c a n : Nat) : Bool :=
  ownHeld s u a n || s.core.reqs.any fun q => decide (q.u = u) && decide (q.c = c) &&
    q.parts.any fun x => heldPart q x && overlaps x.addr x.n a n
/-- The parts of an access, those in the core's own scratch bank by bank: the lower bank is served first (R252). -/
def bankParts (s : State) (u ea n : Nat) : List (Nat × Nat) :=
  (partsOf s ea n).flatMap fun p => if ownMem u p.1 && decide (selOf p.1 = 2) then splitAt 3 0x1000 p.1 p.2 else [p]
/-- The parts of a read: those in the core's own memories are read at issue, in order and up to one that must wait; the others are
asked for (R250, R382). -/
def readParts (u c : Nat) : Bool → List (Nat × Nat) → State → List Part × State
  | _, [], s => ([], s)
  | w, p :: ps, s =>
    let own := ownMem u p.1
    let w := w || (own && mustWait s u c p.1 p.2)
    if own && !w then
      let x := locRead u p.1 (homeKey s p.1) p.2 s
      let r := readParts u c w ps x.2
      (⟨p.1, p.2, some x.1⟩ :: r.1, r.2)
    else
      let r := readParts u c w ps s
      (⟨p.1, p.2, none⟩ :: r.1, r.2)
/-- The parts of a store of `data` at `ea`, alike. -/
def storeParts (u c ea : Nat) (data : List Byte) : Bool → List (Nat × Nat) → State → List Part × State
  | _, [], s => ([], s)
  | w, p :: ps, s =>
    let own := ownMem u p.1
    let w := w || (own && mustWait s u c p.1 p.2)
    if own && !w then
      let r := storeParts u c ea data w ps (locStore u (homeKey s p.1) ((data.drop (p.1 - ea)).take p.2) s)
      (⟨p.1, p.2, some (.status 0)⟩ :: r.1, r.2)
    else
      let r := storeParts u c ea data w ps s
      (⟨p.1, p.2, none⟩ :: r.1, r.2)

/-- A load issues. Loads of the core's own memories are read at issue where nothing keeps them waiting, one of its page in the beat
after (`settleOwn`); others set out (R95, R382). An access may begin in one core's memory and end in its neighbour's (R141: any
alignment is legal). -/
def sendLoad (u c pc ea n : Nat) (signed : Bool) (dst : Option Reg) (s : State) : State :=
  let op : ReqOp := .load ea n signed
  if ownPageAt u ea then sendReq u c pc op dst 0 false [⟨ea, n, none⟩] s
  else
    if ownAll u ea n && !mustWait s u c ea n then
      let r := locRead u ea (homeKey s ea) n s
      sendReq u c pc op dst 0 false [⟨ea, n, some r.1⟩] r.2
    else
      let r := readParts u c false (bankParts s u ea n) s
      sendReq u c pc op dst 0 (takesEntry u ea n dst) r.1 r.2

/-- A store issues. To the core's own memories it takes effect at once where nothing keeps it waiting, to its page in the beat after
(`settleOwn`); others set out. -/
def sendStore (u c pc ea : Nat) (data : List Byte) (s : State) : State :=
  if ownPageAt u ea then sendReq u c pc (.store ea data []) none 0 false [⟨ea, data.length, none⟩] s
  else
    if ownAll u ea data.length && !mustWait s u c ea data.length then locStore u (homeKey s ea) data s
    else
      let r := storeParts u c ea data false (bankParts s u ea data.length) s
      sendReq u c pc (.store ea data []) none 0 false r.1 r.2

/-- A waiting part of an access takes place in the core's own memory. -/
def servePart (r : Req) (s : State) (e : Part × Nat) : State :=
  let (p, i) := e
  if !heldPart r p || ownHeld s r.u p.addr p.n then s
  else match r.op with
    | .store ea data _ => answerPart r.tag i (.status 0) (locStore r.u (homeKey s p.addr) ((data.drop (p.addr - ea)).take p.n) s)
    | _ =>
      let x := locRead r.u p.addr (homeKey s p.addr) p.n s
      answerPart r.tag i x.1 x.2
/-- A store that has taken place whole in the core's own memory has nothing left to wait for. -/
def dropServed (s : State) (r : Req) : State :=
  match r.op with
  | .store _ _ _ =>
    if r.parts.all (fun p => ownMem r.u p.addr) && ((findReq s r.tag).any fun q => answered q) then dropReq r.tag s else s
  | _ => s
/-- Sieve has let go: the accesses it kept waiting take place, of the lower context first, each context's in issue order (R249,
R250). -/
def serveHeld (s : State) : State :=
  let rs := (List.range 8).flatMap fun c => s.core.reqs.filter fun r => decide (r.c = c) && r.parts.any (heldPart r)
  rs.foldl (fun s r => dropServed (r.parts.zipIdx.foldl (servePart r) s) r) s

/-- An own-page access takes place (R95): a load samples the register, a store takes effect. -/
def settleReq (s : State) (r : Req) : State :=
  match r.op with
  | .store ea data _ =>
    let v := placed ea data
    ownWrite r.u r.c (offOf ea % 0x1000 / 8 * 8) v.1 v.2 (dropReq r.tag s)
  | _ =>
    let sample (p : Part) : Part :=
      if !ownPart r p then p
      else { p with ans := some (.bytes (wordPart (pageWord s r.u (offOf p.addr % 0x1000 / 8 * 8)) p.addr p.n) []) }
    setReq r.tag (fun q => { q with parts := q.parts.map sample }) s
/-- The beat after their issue: the unit's own-page accesses take place, in issue order (R95). -/
def settleOwn (u : Nat) (s : State) : State := (s.core.reqs.filter (ownWaits u)).foldl settleReq s

/-- A load-like operation on the messaging blocks sets out (R140, R144). -/
def sendOp (u c pc : Nat) (op : ReqOp) (dst : Option Reg) (pdst : Nat) (s : State) : State :=
  let tr := match op with
    | .syncWait _ _ => false
    | .lockRel _ => false
    | _ => decide (dst ≠ some (.s 0)) || decide (pdst ≠ 0)
  sendReq u c pc op dst pdst tr [⟨0, 0, none⟩] s

/-! ### Operand checks of the X slot -/

/-- R143. -/
def syncRefFault (v : Nat) : Option (Nat × Nat) :=
  if 2 ^ 26 ≤ v || (decide (v / 2 ^ 25 % 2 = 0) && decide (v / 2 ^ 16 ≠ 0)) then some (0x0603, 0) else none
/-- The body of MBX.SEND: length, address (R140, R141). -/
def mbxFault (s : State) (u c a b : Nat) : Option (Nat × Nat) :=
  let n := a / 2 ^ 11 % 512
  if 2 ^ 20 ≤ a || decide (480 < n) then some (0x0603, 0)
  else if n = 0 then none
  else accessFault s u c b n false 0

end Sys2Proof.Machine
end

