-- ==== Sys2Proof/Machine/AvlReq.lean ====
section
/-!
DEFINITION. The test requests of R570 as their slots hold them: their states, the results of R570's register table, and how work
elsewhere begins and ends a request for a resource.
-/
namespace Sys2Proof.Machine
open Sys2Proof

def setAvl (f : AvlSt → AvlSt) (s : State) : State := { s with avl := f s.avl }
def slotState (s : State) (i : Nat) : Nat := fld s (AVL_RES i) AVL_RES_STATE
/-- QUEUED, RUNNING or DEFERRED. -/
def slotBusy (s : State) (i : Nat) : Bool := decide (1 ≤ slotState s i ∧ slotState s i ≤ 3)
def slotTo (i st code : Nat) (s : State) : State := setFld (setFld s (AVL_RES i) AVL_RES_STATE st) (AVL_RES i) AVL_RES_CODE code
/-- Slots whose request, QUEUED or RUNNING, is of a kind and for a target that satisfy `f`. -/
def slotsOf (s : State) (f : Nat → Nat → Bool) : List Nat := (List.range 16).filter fun i =>
  (decide (slotState s i = 1) || decide (slotState s i = 2)) && f (mget 0 s.avl.reqKind i) (mget 0 s.avl.reqTarget i)
/-- Their work begins. -/
def beginSlots (f : Nat → Nat → Bool) (s : State) : State := (slotsOf s f).foldl (fun s i => slotTo i 2 0 s) s
/-- Their work is done: whether it found a fault, and the failed lanes or columns. -/
def endSlots (f : Nat → Nat → Bool) (fault : Bool) (e0 e1 : Nat) (s : State) : State :=
  (slotsOf s f).foldl (fun s i =>
    let r := AVL_RES i
    setFld (setFld (setFld (slotTo i 4 0 s) r AVL_RES_FAULT (b2n fault)) r AVL_RES_E0_FAIL e0) r AVL_RES_E1_FAIL e1) s
def isLaneReq (p l k t : Nat) : Bool := decide (k = 7) && decide (t = p * 16 + l)

end Sys2Proof.Machine
end

