-- ==== Sys2Proof/Machine/MemRows.lean ====
section
/-!
DEFINITION. Plot reset, start and settling (R90, R91, R325), the engines' own progress (R189–R195, R204), bank handover
(R242–R245), and ECC rewriting, Sieve and scrub (R254, R259–R265).
-/
namespace Sys2Proof.Machine
open Sys2Proof

/-! ### Plots -/

/-- Who may write `PLOT_CTRL` (R324). -/
def mayPlot (s : State) (m : Master) : Bool := isSupervisor m || isOwner s m
/-- PLOT_RESET (R90, R91): RESET written as 1, START with it where `start`. -/
def execPlotReset (m : Master) (p : Nat) (start : Bool) (s : State) : Res :=
  runIf (wfPlotReset m p start)
    (byMaster m (PLOT_CTRL p) (fun s => if mayPlot s m then (if start then plotStart p (plotReset p s) else plotReset p s) else s) s)
/-- PLOT_START (R91). -/
def execPlotStart (m : Master) (p : Nat) (s : State) : Res :=
  runIf (wfPlotStart m p) (byMaster m (PLOT_CTRL p) (fun s => if mayPlot s m then plotStart p s else s) s)
/-- Every access of the plot's cores has completed (R325 step 4). -/
def plotQuiet (s : State) (p : Nat) : Bool := !s.core.reqs.any fun r => unitIn s p r.u
/-- PLOT_FAULT_SETTLE (R325). -/
def execPlotFaultSettle (p : Nat) (s : State) : Res :=
  runIf (wfPlotFaultSettle p)
    (if faultFence s p && decide (fld s (PLOT_STATUS p) PLOT_STATUS_STATE ≠ 4) && plotQuiet s p then
      settlePlot p s else s)

/-! ### Engines -/

def engQueue (s : State) (u e : Nat) : List ECmd := mget [] s.core.engines (u * 2 + e)
def setQueue (u e : Nat) (q : List ECmd) (s : State) : State :=
  { s with core := { s.core with engines := mset [] s.core.engines (u * 2 + e) q } }
/-- A command that has its shape, dataflow and columns settled (R182, R183). -/
def settled (s : State) (u e : Nat) (c : ECmd) : ECmd :=
  let k := colsUsed s u e c.desc
  { c with started := true, cols := k, shape := shapeUsed c.desc k, flow := flowUsed c.desc }
/-- A tile is run (R204). -/
def hasTiles (d : W512) : Bool := decide (dM d ≠ 0) && decide (dN d ≠ 0)
/-- The next command may start behind the running ones (R189, R190). -/
def mayStart (e : Nat) (running : List ECmd) (c : ECmd) : Bool :=
  match running.getLast? with
  | none => true
  | some r =>
    decide (r.shape = c.shape) && decide (r.flow = c.flow) && decide (r.cols = c.cols) &&
      running.all fun x => !(readSpans c.desc e).any fun a => (writeSpans x.desc e).any fun b => spansMeet a b
/-- The command starts: it is the one that `ENG_STATUS` describes, where it has a tile. -/
def startCmd (u e : Nat) (run : List ECmd) (c : ECmd) (rest : List ECmd) (s : State) : State :=
  let c := settled s u e c
  if mayStart e run c then
    let s := setQueue u e (run ++ { c with hidF := !run.isEmpty } :: rest) s
    if hasTiles c.desc then
      let r := ENG_STATUS u e
      setFld (setFld (setFld (setFld s r ENG_STATUS_LAST_SHAPE c.shape) r ENG_STATUS_LAST_FLOW c.flow)
        r ENG_STATUS_COLS_USED c.cols) r ENG_STATUS_LAST_CTX c.c
    else s
  else s
/-- ENGINE_COMMAND_START (R189). -/
def execEngineCommandStart (u e : Nat) (s : State) : Res :=
  runIf (wfEngineCommandStart u e)
    (let q := engQueue s u e
     let run := q.takeWhile (·.started)
     match q.dropWhile (·.started) with
     | c :: rest => startCmd u e run c rest s
     | [] => s)
/-- A running command completes: its reads, outputs and flags, the counts, the object add (R191). The beats it was active
and stalled come with the command, `early` of the latter before the recorded invalid operation formed (DESIGN CHOICE, log 22). -/
def completeCmd (u e active stalls early : Nat) (c : ECmd) (rest : List ECmd) (s : State) : State :=
  let s := runCommand u e c early (touchOperands u c.desc s)
  let s := setQueue u e rest s
  let s := bumpFld (bumpFld (bumpFld s (ENG_DONE u e) ENG_DONE_DONE 1) (ENG_ACTIVE u e) ENG_ACTIVE_ACTIVE active)
    (ENG_STALL u e) ENG_STALL_STALL stalls
  let s := bumpCtr (256 + blockOf (physOf s u)) active (plotCtr u 6 1 s)
  if dSyncEn c.desc then unitAdd u (dSyncObj c.desc) s else s
/-- Sieve keeps a feeder or the drain of a command from its operands (R250). -/
def engineHeld (s : State) (u e : Nat) (c : ECmd) : Bool :=
  (readSpans c.desc e ++ writeSpans c.desc e).any fun x => sieveHolds s (locKey (physUnit s u) x.base) x.len
/-- ENGINE_COMMAND_COMPLETE (R191): the oldest command, when it runs, nothing keeps it waiting and no operand of it is poisoned. -/
def execEngineCommandComplete (u e active stalls early : Nat) (s : State) : Res :=
  runIf (wfEngineCommandComplete u e active stalls early)
    (match engQueue s u e with
     | c :: rest =>
       if c.started && !engineHeld s u e c && (operandPoison (touchOperands u c.desc s) u c).isNone then completeCmd u e active stalls early c rest s
       else s
     | [] => s)
/-- ENGINE_POISON (R195): the command stops and its context takes the deferred fault. -/
def execEnginePoison (u e : Nat) (s : State) : Res :=
  runIf (wfEnginePoison u e)
    (match engQueue s u e with
     | c :: rest =>
       let t := touchOperands u c.desc s
       match (if c.started && !engineHeld s u e c then operandPoison t u c else none) with
       | some w => faultCtx u c.c 0x0601 2 true c.pc (devOfLocal u (8 * w % 2 ^ 20)) (setQueue u e rest t)
       | none => s
     | [] => s)

/-! ### Bank ownership -/

/-- BANK_OWNER_WRITE (R242): from the standby host or the MC it is not carried out; a context's own refused write faults it, and
so does one of a core's context to another core (R102). -/
def execBankOwnerWrite (m : Master) (u b code : Nat) (s : State) : Res :=
  runIf (wfBankOwnerWrite m u b code)
    (match m with
     | .unit v c =>
       if !isCp v && decide (v ≠ u) then csrDenied v c (BANK_OWNER u b) s
       else if handoverOk u (writerOf s v c) (bankOwner s u b) code then
         if isCp v then unlessAsleep m (BANK_OWNER u b) 4 (some (BitVec.ofNat 64 code)) (bankWrite u b .admin code) s
         else handover u b code s
       else faultCtx v c 0x0602 3 false (ctx s v c).pc (3 * 2 ^ 48 + BANK_OWNER u b) s
     | m => byMaster m (BANK_OWNER u b) (unlessAsleep m (BANK_OWNER u b) 4 (some (BitVec.ofNat 64 code)) fun s =>
         if isOwner s m then bankWrite u b .admin code s else s) s)
/-- BANK_HANDOVER (R244). -/
def execBankHandover (u b : Nat) (s : State) : Res := runIf (wfBankHandover u b) (bankSettle u b s)

/-! ### ECC, Sieve and scrub -/

def wordKey (phys w : Nat) : Nat := locKey phys 0 / 8 + w
/-- The corrected word is written back with fresh check bits; a write that came first has dropped it (R254). -/
def rewriteWord (w : Nat) (s : State) : State :=
  let s := { s with mem := { s.mem with rewrites := mset false s.mem.rewrites w false } }
  if latentAt s w = 1 then setLatent s w 0 else s
/-- ECC_REWRITE (R254). -/
def execEccRewrite (phys word : Nat) (s : State) : Res :=
  runIf (wfEccRewrite phys word)
    (if mget false s.mem.rewrites (wordKey phys word) && !sieveHolds s (locKey phys (8 * word)) 8 then
      rewriteWord (wordKey phys word) s else s)

/-- A background read of one word: counted in the page of the core that the physical core serves; a shaded core has no
page, and SHADOW logs its poison (DESIGN CHOICE, log 23). -/
def touchBack (phys : Nat) (s : State) (w : Nat) : State :=
  match logicalOf s phys with
  | some n => touchWord n s w
  | none =>
    match latentAt s w with
    | 0 => s
    | 1 => { s with mem := { s.mem with rewrites := mset false s.mem.rewrites w true } }
    | _ => if locPoisoned s w then s else logErr 0x0604 0x26 none 0 (setLocPoison s w true)
/-- Words from local address `a`, `n` bytes. -/
def backWords (phys a n : Nat) : List Nat := wordsOf (locKey phys a) n
/-- Fresh check bits for words that are not poisoned. -/
def freshBits (ws : List Nat) (s : State) : State :=
  ws.foldl (fun s w => if locPoisoned s w then s else rewriteWord w s) s

/-- Sieve's interval on a core is on: its page's EN (a shaded core has no page and is covered, R264). -/
def sieveOn (s : State) (phys : Nat) : Bool :=
  match logicalOf s phys with
  | some n => flag s (SIEVE_CFG n) SIEVE_CFG_EN
  | none => true
def scrubOn (s : State) (phys : Nat) : Bool :=
  match logicalOf s phys with
  | some n => flag s (SCRUB_CFG n) SCRUB_CFG_EN
  | none => true
/-- The local address and length of Sieve region `r` (R259). -/
def regionAddr (r : Nat) : Nat := if r < 256 then r * 0x100 else 0x80000 + (r - 256) * 0x100
/-- The compute side has power and runs: then Sieve and scrub cover every physical core (R264). -/
def computePowered (s : State) : Bool := !s.mc.held && !s.mc.compOff
/-- Interval between the regions of a pass, or the rows, of a core: `PASS_H` of its page, or `reset` where it has none (a shaded core;
DESIGN CHOICE, log 103), times `unit` (R264). -/
def passStep (s : State) (phys reset unit : Nat) (cfg : Nat → Nat) : Nat :=
  (match logicalOf s phys with
   | some n => max 1 (bitsOf (rget s (cfg n)) 8 8)
   | none => reset) * unit
/-- SIEVE_DUE (R264): the time is the next at which Sieve falls due. -/
def execSieveDue (phys : Nat) (s : State) : Res :=
  runIf (wfSieveDue phys)
    (if computePowered s && sieveOn s phys then
      let t := nextDue s (mget 0 s.avl.sieveAt phys) (passStep s phys 72 15625000000 SIEVE_CFG)
      setAvl (fun a => { a with sieveDue := mset false a.sieveDue phys true, sieveAt := mset 0 a.sieveAt phys t }) (advanceTo t s)
     else s)
/-- The row of a local address: Silt?, bank or die × 4 + sub-bank, row (R238, R568). -/
def rowAt (a : Nat) : Bool × Nat × Nat :=
  if a < 0x80000 then (false, a / 4096, a / 64 % 64)
  else
    let o := a - 0x80000
    (true, o / 0x20000 * 4 + o / 64 % 4, o % 0x20000 / 256)
/-- The row becomes one that waits for repair (R263, R559). -/
def rowFails (phys : Nat) (r : Bool × Nat × Nat) (s : State) : State :=
  if s.avl.rowsBad.contains (phys, r.1, r.2.1, r.2.2) then s
  else shadowGen (setAvl (fun v => { v with rowsBad := v.rowsBad ++ [(phys, r.1, r.2.1, r.2.2)] }) s)
/-- Bookkeeping of a region that fails its march at byte `b` of the region, bit `bit` (R263; the bit stands in INFO [63:56],
DESIGN CHOICE, log 21). -/
def sieveFail (phys r b bit : Nat) (s : State) : State :=
  let a := regionAddr r + b / 8 * 8
  let s := rowFails phys (rowAt a) s
  match logicalOf s phys with
  | some n => logErr 0x0605 (srcOf n) (plotOf s n) (devOfLocal n a + bit * 2 ^ 56) (satFld s (SIEVE_STATUS n) SIEVE_STATUS_FAILS 1)
  | none => logErr 0x0605 0x26 none (bit * 2 ^ 56) s
/-- SIEVE_REGION_END (R250, R260, R262, R263): `bad` is the first byte of the region and the bit at which the march differed; then
the accesses that waited take place. -/
def execSieveRegionEnd (phys : Nat) (bad : Option (Nat × Nat)) (s : State) : Res :=
  runIf (wfSieveRegionEnd phys bad)
    (match mget 0 s.avl.sieveHold phys with
     | 0 => s
     | r + 1 =>
       let s := freshBits (backWords phys (regionAddr r) 256) s
       let s := setAvl (fun a => { a with
         sieveHold := mset 0 a.sieveHold phys 0, sieveNext := mset 0 a.sieveNext phys ((r + 1) % 2304) }) s
       let s := match logicalOf s phys with
         | some n => if r + 1 = 2304 then bumpFld s (SIEVE_STATUS n) SIEVE_STATUS_PASSES 1 else s
         | none => s
       serveHeld (match bad with
         | some (b, bit) => sieveFail phys r b bit s
         | none => s))
/-- An upset of a core: of word `x.1` of its scratch and Silt, or, from 131,072 on, of a 64-bit word of its program store, where
an uncorrectable one spoils the bundle and a single-bit one shows nowhere (R88; DESIGN CHOICE, log 95), or, numbered 135,168, in
state that no plot owns, where an uncorrectable one is device-fatal (R575). -/
def upset (phys : Nat) (s : State) (x : Nat × Bool) : State :=
  if x.1 < 131072 then
    setLatent s (wordKey phys x.1) (if x.2 then 2 else max 1 (latentAt s (wordKey phys x.1)))
  else if 135168 ≤ x.1 then (if x.2 then logErr 0x0C08 0x10 none 0 s else s)
  else match logicalOf s phys with
  | some n => if x.2 then
      { s with core := { s.core with pstoreBad := mset false s.core.pstoreBad (n * 2048 + (x.1 - 131072) / 2) true } } else s
  | none => s
/-- SCRUB_DUE (R264). The cell upsets that the world has brought about since come with the command: word and whether it is
uncorrectable (DESIGN CHOICE, log 24). -/
def execScrubDue (phys : Nat) (upsets : List (Nat × Bool)) (s : State) : Res :=
  runIf (wfScrubDue phys upsets)
    (if !computePowered s then s
     else
       let s := upsets.foldl (upset phys) s
       let t := nextDue s (mget 0 s.avl.scrubAt phys) (passStep s phys 24 3906250000 SCRUB_CFG)
       if scrubOn s phys then
         setAvl (fun a => { a with scrubDue := mset false a.scrubDue phys true, scrubAt := mset 0 a.scrubAt phys t }) (advanceTo t s)
       else s)
/-- Local address of scrub row `r` (R265). -/
def scrubAddr (r : Nat) : Nat := if r < 1024 then r * 64 else 0x80000 + (r - 1024) * 64
/-- SCRUB_ROW (R265); a row that Sieve holds waits (R250). -/
def execScrubRow (phys : Nat) (s : State) : Res :=
  runIf (wfScrubRow phys)
    (let r := mget 0 s.avl.scrubNext phys
     if computePowered s && mget false s.avl.scrubDue phys && !sieveHolds s (locKey phys (scrubAddr r)) 64 then
      let ws := backWords phys (scrubAddr r) 64
      let s := freshBits ws (ws.foldl (touchBack phys) s)
      let s := setAvl (fun a => { a with
        scrubDue := mset false a.scrubDue phys false, scrubNext := mset 0 a.scrubNext phys ((r + 1) % 9216) }) s
      match logicalOf s phys with
      | some n => if r + 1 = 9216 then bumpFld s (SCRUB_STATUS n) SCRUB_STATUS_PASSES 1 else s
      | none => s
     else s)

end Sys2Proof.Machine
end

