-- ==== Sys2Proof/Machine/Secure.lean ====
section
/-!
DEFINITION. Flash, firmware copies, the owner record and the measurements (chapters 16 and 19).
-/
namespace Sys2Proof.Machine
open Sys2Proof

def setMc (f : McSt → McSt) (s : State) : State := { s with mc := f s.mc }

/-! ### Flash (chapter 19) -/

def flashByte (s : State) (a : Nat) : Byte := mget (Config.flashInit a) s.mc.flash a
def flashRun (s : State) (a n : Nat) : List Byte := (List.range n).map fun i => flashByte s (a + i)
def flashPut (a : Nat) (b : Byte) (s : State) : State :=
  setMc (fun m => { m with flash := mset (Config.flashInit a) m.flash a b }) s
def flashStore (a : Nat) (bs : List Byte) (s : State) : State := bs.zipIdx.foldl (fun s e => flashPut (a + e.2) e.1 s) s
/-- Erased flash reads as all ones (R458). -/
def flashErase (a n : Nat) (s : State) : State := (List.range n).foldl (fun s i => flashPut (a + i) 0xFF s) s

/-- Little-endian field of `n` bytes at `o` (R5). -/
def fieldAt (bs : List Byte) (o n : Nat) : Nat := leNat ((bs.drop o).take n)
def bytesAt (bs : List Byte) (o n : Nat) : List Byte := (bs.drop o).take n
/-- Bytes `o` to `o + n - 1` are 0. -/
def zeroAt (bs : List Byte) (o n : Nat) : Bool := (bytesAt bs o n).all fun b => decide (b = 0)

/-- Place and size of copy `c` of target `t`: 0 the MC, 1 the control cluster. -/
def copyBase (t c : Nat) : Nat := if t = 0 then c * 0x200000 else 0x400000 + c * 0xC00000
def copySize (t : Nat) : Nat := if t = 0 then 0x200000 else 0xC00000
/-- The counter of a target in the identity array. -/
def svnFloor (s : State) (t : Nat) : Nat := if t = 0 then s.mc.mcCtr else s.mc.ccCtr
def runningCopy (s : State) (t : Nat) : Nat := if t = 0 then s.mc.mcCopy else s.mc.ccCopy

/-! ### Firmware images (R515, R516) -/

/-- The header of the image of R515 is well formed for a target. -/
def fwHeaderOk (t : Nat) (h : List Byte) : Bool :=
  decide (fieldAt h 0 4 = 0x57464D42) && decide (fieldAt h 4 2 = 1) && decide (fieldAt h 6 1 = t) && zeroAt h 7 1 &&
  decide (fieldAt h 8 4 % 8 = 0) && decide (384 ≤ fieldAt h 8 4) && decide (fieldAt h 8 4 ≤ copySize t - 4096) &&
  decide (fieldAt h 16 1 ≤ 63) && zeroAt h 17 7 && zeroAt h 120 136
/-- The signature of a trailer that ends `img` (R440): over all bytes before it, with key `key`. -/
def trailerOk (key img : List Byte) : Bool :=
  let n := img.length - 128
  zeroAt img (n + 96) 32 && Config.verify key (Config.sha384 (img.take n)) (bytesAt img n 96)
/-- An image passes the check of R516. -/
def fwOk (s : State) (t : Nat) (img : List Byte) : Bool :=
  let key := bytesAt img 24 96
  fwHeaderOk t img && decide (Config.sha384 key = Config.vendorHash) && trailerOk key img &&
  decide (svnFloor s t ≤ fieldAt img 16 1)
/-- The image in copy `c`. -/
def copyImage (s : State) (t c : Nat) : List Byte :=
  let a := copyBase t c + 4096
  flashRun s a (fieldAt (flashRun s a 256) 8 4 % copySize t)
def copySeq (s : State) (t c : Nat) : Nat := leNat (flashRun s (copyBase t c) 8)
/-- A copy is valid (R458). -/
def copyOk (s : State) (t c : Nat) : Bool := decide (copySeq s t c ≠ 2 ^ 64 - 1) && fwOk s t (copyImage s t c)
/-- The copy taken at boot (R459). -/
def chooseCopy (s : State) (t : Nat) : Option Nat :=
  match copyOk s t 0, copyOk s t 1 with
  | true, true => some (if copySeq s t 0 < copySeq s t 1 then 1 else 0)
  | true, false => some 0
  | false, true => some 1
  | false, false => none

/-! ### Measurements (R526) -/

/-- A measurement takes a value; a change counts in `MEAS_GEN`. -/
def measure (i : Nat) (info : W64) (dg : BitVec 384) (s : State) : State :=
  if mget (0, 0) s.mc.meas i = (info, dg) then s
  else bumpFld (setMc (fun m => { m with meas := mset (0, 0) m.meas i (info, dg) }) s) MEAS_GEN MEAS_GEN_GEN 1

/-- Measurements 0 and 1: the running copy of a target. -/
def measureFw (t c : Nat) (s : State) : State :=
  let img := copyImage s t c
  measure t (packW [(fieldAt img 12 4, 0), (fieldAt img 16 1, 32)]) (Config.sha384 (img.take (img.length - 128))) s

/-! ### Owner record (R528, R529) -/

/-- The copies of the owner record in flash. -/
def recordAt (s : State) (c : Nat) : List Byte := flashRun s (0x1C20000 + c * 0x8000) 384
/-- A vendor-signed command (R528) but for its OWNER_CNT. -/
def signedOk (cmd : List Byte) : Bool :=
  decide (cmd.length = 384) && decide (fieldAt cmd 0 4 = 0x43534D42) && zeroAt cmd 6 2 && zeroAt cmd 20 4 && zeroAt cmd 216 40 &&
  decide (Config.sha384 (bytesAt cmd 24 96) = Config.vendorHash) && trailerOk (bytesAt cmd 24 96) cmd &&
  decide (fieldAt cmd 8 8 = Config.serial.toNat) && decide (fieldAt cmd 8 8 ≠ 0) &&
  (match fieldAt cmd 4 1 with
   | 1 => decide (fieldAt cmd 5 1 ≤ 1)
   | 2 => zeroAt cmd 5 1 && zeroAt cmd 120 96
   | 3 => zeroAt cmd 5 1 && zeroAt cmd 120 96
   | _ => false)
/-- The copy that holds the record in force. -/
def recordCopy (s : State) : Option Nat := [0, 1].find? fun c => decide (fieldAt (recordAt s c) 16 4 = s.mc.ownerCtr)
/-- The registered owner key with ENFORCE, if any. -/
def ownerKey (s : State) : Option (List Byte × Nat) :=
  match recordCopy s with
  | some c => if fieldAt (recordAt s c) 4 1 = 1 then some (bytesAt (recordAt s c) 120 96, fieldAt (recordAt s c) 5 1) else none
  | none => none
/-- `LOAD_SEC` and `SEC_STATE` follow the record in force, and measurement 2 the security record. -/
def securityState (s : State) : State :=
  let (has, enf) := match ownerKey s with
    | some (_, e) => (1, e)
    | none => (0, 0)
  let s := setFld (setFld s LOAD_SEC LOAD_SEC_ENFORCE enf) LOAD_SEC LOAD_SEC_OWNER_KEY has
  let s := setFld (setFld (setFld s SEC_STATE SEC_STATE_ENFORCE enf) SEC_STATE SEC_STATE_OWNER_KEY has)
    SEC_STATE SEC_STATE_OWNER_CTR s.mc.ownerCtr
  let dg := match ownerKey s with
    | some (k, _) => leBytes 48 (Config.sha384 k).toNat
    | none => leBytes 48 0
  let rec_ := [enf, has, fld s SEC_STATE SEC_STATE_DEBUG_UNLOCK, 0].map (BitVec.ofNat 8) ++ leBytes 4 s.mc.ownerCtr ++
    [s.mc.mcCtr, s.mc.ccCtr, 0, 0, 0, 0, 0, 0].map (BitVec.ofNat 8) ++ dg
  measure 2 0 (Config.sha384 rec_) s

/-- `MC_FW` or `CC_FW`: what runs, the counter, whether the other copy is valid. -/
def showFw (t : Nat) (s : State) : State :=
  let c := runningCopy s t
  let img := copyImage s t c
  rset s (if t = 0 then MC_FW else CC_FW) (packW [(fieldAt img 12 4, 0), (fieldAt img 16 1, 32), (svnFloor s t, 40), (c, 48),
    (b2n (copyOk s t (1 - c)), 49)])

end Sys2Proof.Machine
end

