-- ==== Sys2Proof/Machine/AvlOps.lean ====
section
/-!
DEFINITION. The Shadow map and what changes it (chapter 21): failed columns and rows, retirement, the designation and moves of
spares, and the words that the SHADOW block shows (R568).
-/
namespace Sys2Proof.Machine
open Sys2Proof

/-! ### Groups (R20, R21, R563) -/

/-- Group and physical index of a physical core. -/
def groupAt (ph : Nat) : Nat := ph % 128 * 8 + ph / 128 / 26
def indexAt (ph : Nat) : Nat := ph / 128 % 26
/-- The physical core at index `i` of group `g`. -/
def physAt (g i : Nat) : Nat := prowOf g i * 128 + g / 8
/-- The logical core at logical index `i` of group `g`. -/
def logicalAt (g i : Nat) : Nat := (g % 8 * 25 + i) * 128 + g / 8
def coreRetired (s : State) (ph : Nat) : Bool := mget false s.avl.retired ph
def isShaded (s : State) (ph : Nat) : Bool := decide (indexAt ph = spareOf s (groupAt ph))
/-- Committed plots that hold a core of the group. -/
def groupPlots (s : State) (g : Nat) : List Nat := ((List.range 25).filterMap fun i => plotOf s (logicalAt g i)).eraseDups
/-- The committed plot of the core that a physical core serves. -/
def plotAt (s : State) (ph : Nat) : Option Nat := (logicalOf s ph).bind (plotOf s)

/-- The physical core of the oldest DEFERRED core test in a group, the lower slot first in a tie (R563). -/
def deferredIn (s : State) (g : Nat) : Option Nat :=
  ((List.range 16).filter fun i =>
    decide (fld s (AVL_RES i) AVL_RES_STATE = 3) && decide (mget 0 s.avl.reqKind i ≤ 2) && decide (mget 0 s.avl.reqKind i ≠ 0) &&
    decide (groupAt (mget 0 s.avl.reqTarget i) = g)).foldl
    (fun (best : Option Nat) i => match best with
      | none => some i
      | some j => if mget 0 s.avl.reqAt i < mget 0 s.avl.reqAt j then some i else some j) none |>.map fun i => mget 0 s.avl.reqTarget i
/-- The next index above the present one that is neither retired nor narrowed (R565). -/
def rotateTo (s : State) (g : Nat) : Nat :=
  (((List.range 25).map fun k => (spareOf s g + 1 + k) % 26).find? fun i =>
    !coreRetired s (physAt g i) && decide (engineWidth s (physAt g i) 0 = 8) && decide (engineWidth s (physAt g i) 1 = 8)).getD (spareOf s g)
/-- The physical indices of a group's retired cores that the spare does not cover (R24). -/
def goneIn (s : State) (g : Nat) : List Nat := mget [] s.avl.absent g
/-- The first rule of R563 that applies, among the cores of the group that `may` admits. -/
def designateAmong (may : Nat → Bool) (s : State) (g : Nat) : Nat :=
  let top (f : Nat → Bool) : Option Nat := (List.range 26).reverse.find? fun i => may i && f (physAt g i)
  let width (w ph : Nat) : Bool := decide (engineWidth s ph 0 = w) || decide (engineWidth s ph 1 = w)
  match top (coreRetired s), top (width 0), top (width 7), deferredIn s g with
  | some i, _, _, _ => i
  | none, some i, _, _ => i
  | none, none, some i, _ => i
  | none, none, none, some ph => indexAt ph
  | none, none, none, none => if s.avl.rotateDue.contains g then rotateTo s g else spareOf s g
/-- The designated shaded core in service. R24 stands over rule 1 of R563: a retired spare stays where it is, and a core whose
position is absent does not take it (DEDUCED, log 80). -/
def designate (s : State) (g : Nat) : Nat :=
  if coreRetired s (physAt g (spareOf s g)) then spareOf s g
  else designateAmong (fun i => !(goneIn s g).contains i) s g

/-- A retired core loses its position; a first retired core that still waits for the spare keeps it until then. -/
def setAbsent (g : Nat) (l : List Nat) (s : State) : State := setAvl (fun a => { a with absent := mset [] a.absent g l }) s

/-- The runs of bytes, with their local addresses, in a list of bytes by rising address. -/
def runsOf : List (Nat × Nat) → List (Nat × List Byte)
  | [] => []
  | (a, b) :: l =>
    match runsOf l with
    | (a', bs) :: rs => if a' = a + 1 then (a, BitVec.ofNat 8 b :: bs) :: rs else (a, [BitVec.ofNat 8 b]) :: (a', bs) :: rs
    | [] => [(a, [BitVec.ofNat 8 b])]
/-- What the loads gave the local memories of logical core `n` (R29). -/
def loadedRuns (s : State) (n : Nat) : List (Nat × List Byte) :=
  runsOf ((s.load.init.filter fun e => decide (e.1 / 2 ^ 20 = n)).map fun e => (e.1 % 2 ^ 20, e.2 - 1))
/-- Logical core `n`, which another physical core serves from now on, starts from the state that its plot's load gives it: its
program, routes and configuration stay, the load's DATA are written to the memories of the core that serves it (R258), all else
stands at its reset values and its contexts are as at a release, halted until the epoch ends (R29, R93; DESIGN CHOICE, log 34). -/
def reseat (s : State) (n : Nat) : State :=
  let mine (u : Nat) : Bool := decide (u = n)
  let s := dropHeld mine (dropOwn mine (orphanWhere (fun q => mine q.u) (closeChans mine s)))
  let page := 0x1000000 + n * 0x1000
  let given (o : Nat) : Bool := decide (o % 0x1000 = 8) || decide (0xB00 ≤ o % 0x1000) ||
    (decide (0x100 ≤ o % 0x1000) && decide (o % 0x1000 < 0x500) && decide (o % 0x80 = 0x40))
  let s := resetRegs [.device, .plot] (fun o => decide (page ≤ o) && decide (o < page + 0x1000) && !given o) s
  let s := { s with core := { s.core with
      ctxs := mkeep (fun k => !mine (k / 8)) s.core.ctxs
      last := mkeep (fun k => !mine k) s.core.last
      engines := mkeep (fun k => !mine (k / 2)) s.core.engines
      vecs := s.core.vecs.filter (fun v => !mine v.u)
      vecFirst := mkeep (fun k => !mine k) s.core.vecFirst } }
  let s := (loadedRuns s n).foldl (fun s r => locStore n (locKey (physOf s n) r.1) r.2 s) s
  let start (cause : Nat) (s : State) : State := if absentCore s n then s else
    (List.range 8).foldl (fun t c => if ctxEnabled s n c then setCtx t n c (freshCtx s n c .halted cause) else t) s
  match (plotOf s n).map fun p => fld s (PLOT_STATUS p) PLOT_STATUS_STATE with
  | some 3 => start 3 s
  | some 5 => start 5 s
  | _ => s
/-- The spare of a group moves to index `i` (R29, R566). -/
def moveSpare (g i : Nat) (s : State) : State :=
  let old := spareOf s g
  if i = old then s
  else
    let s := shadowGen (setAvl (fun a => { a with
      spare := mset 25 a.spare g i, moves := mset 0 a.moves g ((mget 0 a.moves g + 1) % 65536)
      placedAt := mset 0 a.placedAt g (paceTime s), rotateDue := a.rotateDue.filter fun h => decide (h ≠ g) }) s)
    (((List.range 25).filter fun k => decide (physIndex old k ≠ physIndex i k)).map (logicalAt g)).foldl reseat s
      |> wakePorts fun u => decide (groupOf u = g)
/-- Groups that R563 may give another spare: with a finding, a DEFERRED test or a rotation due. -/
def unsettled (s : State) : List Nat :=
  ((mkeys s.avl.retired).map groupAt ++ (mkeys s.avl.bypass).map (fun k => groupAt (k / 2)) ++ s.avl.rotateDue ++
    (List.range 16).map fun i => groupAt (mget 0 s.avl.reqTarget i)).eraseDups.filter fun g => decide (g < 1024)
/-- No committed plot holds a core of the group: its spare moves at once (R29, R563). -/
def spareAtOnce (g : Nat) (s : State) : State := if (groupPlots s g).isEmpty then moveSpare g (designate s g) s else s
/-- Plots have been freed: spares that waited for it move. -/
def sparesFreed (s : State) : State := (unsettled s).foldl (fun s g => spareAtOnce g s) s
/-- The start-up findings are in: a group's spare and absent positions by R563 and R24. -/
def placeGroup (g : Nat) (s : State) : State :=
  let i := designateAmong (fun _ => true) s g
  let s := moveSpare g i (setAbsent g [] s)
  setAbsent g ((List.range 26).filter fun k => decide (k ≠ i) && coreRetired s (physAt g k)) s

/-- `GLB_CORES` follows the findings (R569). -/
def glbCores (s : State) : State :=
  let gone := (s.avl.absent.map fun e => e.2.length).foldl (· + ·) 0
  let narrow := ((mkeys s.avl.bypass).filter fun k => !isShaded s (k / 2)).length
  setFld (setFld (setFld s GLB_CORES GLB_CORES_PRESENTED (nCores - gone)) GLB_CORES GLB_CORES_ABSENT gone) GLB_CORES GLB_CORES_NARROWED narrow

/-! ### Findings (R560, R561, R564) -/

/-- Column `c` of engine `e` fails: bypassed, or the second one (R560). -/
def columnFails (ph e c : Nat) (s : State) : State :=
  let b := mget 0 s.avl.bypass (ph * 2 + e)
  if 16 ≤ b ∨ b = c + 1 then s
  else
    let v := if b = 0 then c + 1 else b + 16
    logErr 0x0C06 0x26 none 0 (shadowGen (setAvl (fun a => { a with bypass := mset 0 a.bypass (ph * 2 + e) v }) s))
/-- The plot of a presented core faults because the core is retired (R561). -/
def faultRetired (ph : Nat) (s : State) : State :=
  match logicalOf s ph with
  | some n =>
    match plotOf s n with
    | some p => plotFault p 0x0C05 n 0 s
    | none => s
  | none => s
/-- A core is retired (R24, R561). The group's spare can cover one retired core: the first, unless the spare itself is retired.
The positions of the others are absent; `SHADOW_GRP` has room for one, and shows the oldest (DESIGN CHOICE, log 81). -/
def retire (ph : Nat) (s : State) : State :=
  if coreRetired s ph then s
  else
    let (g, i) := (groupAt ph, indexAt ph)
    let others := (List.range 26).filter fun k => coreRetired s (physAt g k)
    let s := logErr 0x0C05 0x26 (plotAt s ph) 0 (shadowGen (setAvl (fun a => { a with retired := mset false a.retired ph true }) s))
    if isShaded s ph then setAbsent g ((others.filter fun k => !(goneIn s g).contains k) ++ goneIn s g) s
    else if !others.isEmpty then faultRetired ph (setAbsent g (goneIn s g ++ [i]) s)
    else if (groupPlots s g).isEmpty then moveSpare g i s
    else faultRetired ph s

/-- The local address of row `r` of a unit: the inverse of `rowAt`. -/
def addrOfRow (silt : Bool) (unit row : Nat) : Nat :=
  if silt then 0x80000 + unit / 4 * 0x20000 + row * 256 + unit % 4 * 64 else unit * 4096 + row * 64
/-- A failing row is repaired, or its core retired (R564). -/
def repairRow (r : Nat × Bool × Nat × Nat) (s : State) : State :=
  let (ph, silt, unit, row) := r
  let s := setAvl (fun a => { a with rowsBad := a.rowsBad.filter fun x => decide (x ≠ r) }) s
  let used := (s.avl.repairs.filter fun x => decide (x.core = ph) && decide (x.silt = silt) && decide (x.unit = unit)).length
  if (if silt then 4 else 2) ≤ used ∨ 1024 ≤ s.avl.repairs.length then retire ph s
  else
    let s := freshBits (backWords ph (addrOfRow silt unit row) 64) s
    logErr 0x0C07 0x26 none 0 (shadowGen (setAvl (fun a => { a with repairs := a.repairs ++ [⟨ph, silt, unit, row, used⟩] }) s))
/-- Rows that wait on the physical cores that satisfy `f` are repaired. -/
def repairRows (f : Nat → Bool) (s : State) : State := (s.avl.rowsBad.filter fun r => f r.1).foldl (fun s r => repairRow r s) s

/-! ### What the SHADOW block shows (R568) -/

def groupEntry (s : State) (g : Nat) : W64 :=
  let sp := spareOf s g
  let (i, j) := match goneIn s g with
    | i :: _ => (i, if i < sp then i else i - 1)
    | [] => (31, 31)
  packW [(sp, 0), (b2n (coreRetired s (physAt g sp)), 5), (i, 6), (j, 11), (mget 0 s.avl.moves g, 16)]
def coreEntry (s : State) (ph : Nat) : Nat :=
  let st := if coreRetired s ph then 2 else if isShaded s ph then 1 else 0
  let col (e : Nat) : Nat := mget 0 s.avl.bypass (ph * 2 + e)
  let byp (e : Nat) : Nat := if col e = 0 then 0 else (col e - 1) % 16
  st + engineWidth s ph 0 * 2 ^ 2 + engineWidth s ph 1 * 2 ^ 6 + byp 0 * 2 ^ 10 + b2n (decide (col 0 ≠ 0)) * 2 ^ 13 +
    byp 1 * 2 ^ 14 + b2n (decide (col 1 ≠ 0)) * 2 ^ 17 + b2n (s.avl.repairs.any fun r => decide (r.core = ph)) * 2 ^ 18 +
    b2n (s.avl.rowsBad.any fun r => decide (r.1 = ph)) * 2 ^ 19
def repairEntry (r : RowRepair) : W64 :=
  packW [(r.core, 0), (b2n r.silt, 15), (r.unit, 16), (r.row, 20), (r.spare, 29), (1, 31)]
/-- Sixty-four flags from number `i` on. -/
def flagWord (m : NMap Bool) (i : Nat) : W64 := packW ((List.range 64).map fun k => (b2n (mget false m (i + k)), k))
/-- The word of the Shadow map at a CSR offset, a multiple of 8 in 0x61_1000–0x62_FFFF. -/
def shadowWord (s : State) (o : Nat) : W64 :=
  if o < 0x613000 then groupEntry s ((o - 0x611000) / 8)
  else if o < 0x62D000 then
    let ph := (o - 0x613000) / 4
    packW [(coreEntry s ph, 0), (coreEntry s (ph + 1), 32)]
  else if o < 0x62D200 then
    let x := (o - 0x62D000) / 8
    packW [(fld s (LMC_CH (x / 8) (x % 8)) LMC_CH_STATE, 0), (b2n (mget false s.mem.trainBad x), 2)]
  else if o < 0x62D240 then
    let p := (o - 0x62D200) / 8
    packW ((List.range 9).map (fun l => (b2n (decide (fld s (CYUST_LANE p l) CYUST_LANE_STATE = 3)), l)) ++
      [(fld s (CYUST_PORT_STATUS p) CYUST_PORT_STATUS_MISWIRED, 9),
       (b2n (decide (fld s (CYUST_PORT_STATUS p) CYUST_PORT_STATUS_STATE = 1)), 10)])
  else if o < 0x62D260 then flagWord s.avl.thFailed ((o - 0x62D240) * 8)
  else if o < 0x62D330 then flagWord s.avl.hgFailed ((o - 0x62D260) * 8)
  else if 0x62E000 ≤ o then
    match s.avl.repairs[(o - 0x62E000) / 8]? with
    | some r => repairEntry r
    | none => 0
  else 0
/-- SHADOW_DIGEST is taken afresh: measurement 3 (R568). -/
def shadowDigest (s : State) : State :=
  let bytes := (List.range 0x3E00).flatMap fun i => leBytes 8 (shadowWord s (0x611000 + 8 * i)).toNat
  bumpFld (measure 3 0 (Config.sha384 bytes) s) SHADOW_GEN SHADOW_GEN_DIGEST_GEN 1

/-! ### The start of an epoch (R31, R570) -/

def epochOn (s : State) : Bool := flag s GLB_STATUS GLB_STATUS_EPOCH_ACTIVE
def epochStep (s : State) : Nat := fld s GLB_EPOCH_CTRL GLB_EPOCH_CTRL_STEP
def toStep (n : Nat) (s : State) : State := setFld s GLB_EPOCH_CTRL GLB_EPOCH_CTRL_STEP n
/-- An epoch of the plots `ps` starts: their contexts halt at program boundaries (R31 step 1). -/
def startEpoch (ps : List Nat) (s : State) : State :=
  let s := setAvl (fun a => { a with epochIn := ps, epochFrom := s.log.glints, epochLate := [], epochFence := [], epochEnd := false }) s
  let s := ps.foldl (fun s p => if fld s (PLOT_STATUS p) PLOT_STATUS_STATE = 2 then
    setFld s (PLOT_STATUS p) PLOT_STATUS_STATE 3 else s) s
  toStep 2 (setFld s GLB_STATUS GLB_STATUS_EPOCH_ACTIVE 1)
/-- Plots that hold a core of the groups for which a DEFERRED request with FORCE waits. -/
def forcedPlots (s : State) : List Nat :=
  (((List.range 16).filter fun i => decide (slotState s i = 3) && mget false s.avl.reqForce i).flatMap fun i =>
    groupPlots s (groupAt (mget 0 s.avl.reqTarget i))).eraseDups
/-- At a Glint, the runtime starts the epoch that requests with FORCE ask for (R570; log 64). -/
def forcedEpoch (s : State) : State :=
  let ps := forcedPlots s
  if epochOn s || ps.isEmpty || !flag s MC_STATUS MC_STATUS_CC_RUNNING then s
  else startEpoch ps (rset (setAvl (fun a => { a with reqForce := [] }) s) GLB_EPOCH_PLOTS (packW (ps.map fun p => (1, p))))

/-! ### A switch of the control cluster -/

/-- Every control processor starts the chosen copy; locks that they held are abandoned (R366, R533). -/
def ccSwitchNow (s : State) : State :=
  let s := setMc (fun m => { m with ccSwitch := false }) s
  match chooseCopy s 1 with
  | none => s
  | some c =>
    let s := abandonLocks (fun src => decide (0x10 ≤ src ∧ src ≤ 0x13)) s
    let s := setMc (fun m => { m with ccCopy := c }) (setFld s MC_STATUS MC_STATUS_CC_RUNNING 1)
    measureFw 1 c (showFw 1 s)

end Sys2Proof.Machine
end

