-- ==== Sys2Proof/Machine/Messaging.lean ====
section
/-!
DEFINITION. What the SYNC, LOCK, MBX and QUEUE blocks do (chapter 13).
-/
namespace Sys2Proof.Machine
open Sys2Proof

/-! ### Who asks (R354) -/

/-- Masters with a supervisor's rights to the messaging registers (R354). -/
def mayMsg (s : State) (m : Master) : Bool := mayAdmin s m || decide (m = .sideBand)
/-- Masters that read with side effects (R354): not a host that does not own the device. -/
def sideReads (s : State) (m : Master) : Bool := mayMsg s m

/-! ### Synchronisation objects (R355–R361) -/

/-- The status of an ADD or SET goes back to a BAR2 port as a log entry (R378), to another module as an answer. -/
def barStatus (i : Nat) (r : Nat × State) : State := if r.1 = 0 then r.2 else logErr r.1 0x24 none i r.2
def remoteStatus (mod rtag : Nat) (r : Nat × State) : State := emit (.remoteAnswer mod rtag (BitVec.ofNat 64 r.1)) r.2

/-- A write of `data` at BAR2 offset `off` of the object ports: the row's operation on object `off / 16`, where the owning host
writes 8 bytes at its port's offset `at16` within the 16; any other is discarded and logged (R378). -/
def barWrite (p off at16 : Nat) (data : List Byte) (op : Nat → Nat → State → Nat × State) (s : State) : State :=
  byPort p (fun s =>
    if ownerHost s = some p ∧ off % 16 = at16 ∧ data.length = 8 then barStatus (off / 16) (op (off / 16) (leNat data) s)
    else logErr 0x0506 0x24 none (off / 16) s) s

/-- WAIT on object `i` to value `t` (R357–R359): the state, answered by a wake, with a record, or to be asked again. -/
def waitOn (w : Waiter) (s : State) : Bool × State :=
  if syncAbandoned s w.obj then (true, wakeOne 0x0501 s w)
  else if w.thr.toNat ≤ syncVal s w.obj then (true, wakeOne 0 s w)
  else if s.sync.waiters.length < 16384 then
    (true, syncCount w.obj { s with sync := { s.sync with waiters := s.sync.waiters ++ [w] } })
  else (false, s)
/-- A waiting request asks again in 1 µs (R359). -/
def retryLater (tag : Nat) (s : State) : State :=
  { s with sync := { s.sync with retry := (s.sync.retry.filter fun e => decide (e.1 ≠ tag)) ++ [(tag, paceTime s)] } }
def noRetry (tag : Nat) (s : State) : State :=
  { s with sync := { s.sync with retry := s.sync.retry.filter fun e => decide (e.1 ≠ tag) } }
/-- A context's WAIT reaches the SYNC block. -/
def serveWait (tag ref : Nat) (t : W64) (s : State) : State :=
  let r := waitOn { obj := refObj ref, thr := t, tag := some tag, remote := 0, rtag := 0 } s
  if r.1 then noRetry tag r.2 else retryLater tag r.2
/-- The request has reached the block: it waits for its wake, or its wake is on the way. -/
def waitServed (s : State) (tag : Nat) : Bool :=
  s.sync.waiters.any (fun w => decide (w.tag = some tag)) || s.sync.wakes.any (fun e => decide (e.1 = tag))

/-- A WAKE reaches the context (R358, R360): its destination is written and its hold ends. -/
def wakeCtx (r : Req) (st : W64) (s : State) : State :=
  let s := dropReq r.tag s
  if r.orphan then s
  else
    let s := match r.dst with
      | some d =>
        if olderWrite s r.u r.c d r.tag then sendLate r.u r.c d r.tag (st.setWidth 512) lowBits s
        else putReg r.u r.c d (st.setWidth 512) s
      | none => s
    updCtx (landSoon s) r.u r.c fun x =>
      if x.hold = .sync r.tag then
        { x with hold := .none, st := if x.st = .waiting then .ready else x.st, reason := if x.st = .waiting then 0 else x.reason }
      else x

/-! ### Locks (R362–R366) -/

/-- A read of lock `i` by source `src` (R362, R364): the value read. -/
def lockRead (i src : Nat) (s : State) : W64 × State :=
  if fld s (LOCK i) LOCK_HOLDER = 0 then (0, rset s (LOCK i) (BitVec.ofNat 64 src))
  else (rget s (LOCK i), s)
/-- A write with FORCE = 0 by source `src` (R365); an abandoned lock is not released by it (R366). -/
def lockRelease (i src : Nat) (s : State) : State :=
  if fld s (LOCK i) LOCK_HOLDER = src ∧ src ≠ 0 ∧ !flag s (LOCK i) LOCK_ABANDONED then rset s (LOCK i) 0 else logErr 0x050B 0x24 none i s

/-! ### Mailboxes (R367–R372) -/

def mbxState (s : State) (j : Nat) : Nat := fld s (MBX_HDR j) MBX_HDR_STATE
def mbxSrc (s : State) (j : Nat) : Nat := fld s (MBX_HDR j) MBX_HDR_SRC
def mbxRecv (s : State) (j : Nat) : Nat := fld s (MBX_CFG j) MBX_CFG_RECEIVER
def setMbx (j st : Nat) (s : State) : State := setFld s (MBX_HDR j) MBX_HDR_STATE st
def mbxLast (j code : Nat) (s : State) : State := setFld s (MBX_CFG j) MBX_CFG_LAST code
/-- The master is the receiver of mailbox `j` (R370); a host that does not own the device only reads (R354). -/
def isReceiver (s : State) (j : Nat) (m : Master) : Bool :=
  match mbxRecv s j, m with
  | 1, .host p => decide (p = 0) && decide (ownerHost s = some p)
  | 2, .host p => decide (p = 1) && decide (ownerHost s = some p)
  | 3, .host p => decide (ownerHost s = some p)
  | 8, .mc => true
  | 8, .sideBand => true
  | r, .unit u _ => decide (4 ≤ r) && decide (r ≤ 7) && decide (u = nCores + (r - 4))
  | _, _ => false
/-- The doorbell of mailbox `j`, bit `db`, to its receiver (R372). -/
def mbxDoorbell (j db : Nat) (s : State) : State :=
  let vec := fld s (MBX_CFG j) MBX_CFG_VECTOR
  match mbxRecv s j with
  | 1 => sendSignal (.msix 0 vec) s
  | 2 => sendSignal (.msix 1 vec) s
  | 3 => sendSignal (.ownerMsix vec) s
  | 4 => sendSignal (.cpMbx 0 j db) s
  | 5 => sendSignal (.cpMbx 1 j db) s
  | 6 => sendSignal (.cpMbx 2 j db) s
  | 7 => sendSignal (.cpMbx 3 j db) s
  | 8 => sendSignal (.mcMbx j db) s
  | _ => s
/-- Doorbell bit `db` sets, and rings where it was clear and not masked (R372). -/
def mbxRing (j db : Nat) (s : State) : State :=
  let pend := fld s (MBX_DB j) MBX_DB_PEND
  let fresh := !Nat.testBit pend db && !Nat.testBit (fld s (MBX_DB j) MBX_DB_MASK) db
  let s := setFld s (MBX_DB j) MBX_DB_PEND (pend ||| 2 ^ db)
  if fresh then mbxDoorbell j db s else s
/-- Words 0–59 of a mailbox's body. -/
def mbxBodyWord (j i : Nat) : Nat := MBX_BODY j + 8 * i
def mbxClear (j : Nat) (s : State) : State := (List.range 60).foldl (fun s i => rset s (mbxBodyWord j i) 0) s
/-- The body takes bytes from its start; the rest is zero (R368). -/
def mbxFill (j : Nat) (data : List Byte) (s : State) : State :=
  (List.range 60).foldl (fun s i => rset s (mbxBodyWord j i) (BitVec.ofNat 64 (leNat ((data.drop (8 * i)).take 8)))) s
/-- A message enters PENDING: header, SEQ, doorbell (R368, R372). -/
def mbxPending (j src len db : Nat) (s : State) : State :=
  let r := MBX_HDR j
  let s := setFld (setFld (setFld (setFld s r MBX_HDR_STATE 2) r MBX_HDR_DB db) r MBX_HDR_LEN len) r MBX_HDR_SRC src
  mbxRing j db (bumpFld s r MBX_HDR_SEQ 1)
/-- MBX.SEND of `data` by source `src` (R367, R368). -/
def mbxSend (j src db : Nat) (data : List Byte) (s : State) : Nat × State :=
  if mbxState s j = 0 then (0, mbxPending j src data.length db (mbxFill j data s)) else (0x0502, s)
/-- A withdrawal by source `src` (R367, R368). -/
def mbxWdraw (j src : Nat) (s : State) : Nat × State :=
  if mbxState s j = 2 ∧ mbxSrc s j = src then (0, setMbx j 0 s) else (0x0503, s)
/-- A reserve read (R369): its STATUS. -/
def mbxReserve (m : Master) (j : Nat) (s : State) : Nat × State :=
  if sideReads s m && decide (mbxState s j = 0) then
    let s := setFld (setMbx j 1 s) (MBX_HDR j) MBX_HDR_SRC (srcOfMaster m)
    let s := { s with sync := { s.sync with
      reservedAt := mset 0 s.sync.reservedAt j (paceTime s)
      lapsed := s.sync.lapsed.filter fun e => decide (e ≠ (j, srcOfMaster m)) } }
    (0, mbxClear j s)
  else (0x0502, s)
/-- A claim read (R370): its STATUS. -/
def mbxClaim (j : Nat) (s : State) : Nat × State :=
  if mbxState s j = 2 then (0, setMbx j 3 s) else (0x0503, s)
/-- What a read of `MBX_PORT` returns: STATUS, and STATE after it. -/
def mbxPortWord (j : Nat) (r : Nat × State) : W64 := BitVec.ofNat 64 (r.1 + mbxState r.2 j * 2 ^ 16)
/-- A read of `MBX_PORT` answers master `m`. -/
def mbxAnswer (m : Master) (j : Nat) (r : Nat × State) : State := emit (.csrData m (mbxPortWord j r)) r.2

/-- Mailboxes in state `st` that satisfy `f`. -/
def mbxWhere (s : State) (st : Nat) (f : Nat → Bool) : List Nat :=
  (List.range 64).filter fun j => decide (mbxState s j = st) && f j
/-- R367: mailboxes reserved by a host whose port is reset. -/
def mbxUnreserve (p : Nat) (s : State) : State :=
  (mbxWhere s 1 fun j => decide (mbxSrc s j = 1 + p)).foldl (fun s j => setMbx j 0 s) s
/-- R367: mailboxes that a lost receiving host had claimed return to PENDING, and their doorbell bit sets again. -/
def mbxUnclaim (f : Nat → Bool) (s : State) : State :=
  (mbxWhere s 3 f).foldl (fun s j => mbxRing j (fld s (MBX_HDR j) MBX_HDR_DB) (setMbx j 2 s)) s

/-! ### Queues (R373–R377) -/

def qLog (s : State) (q : Nat) : Nat := fld s (Q_BASE q) Q_BASE_LOG_SIZE
def qLen (s : State) (q : Nat) : Nat := 2 ^ qLog s q
def qBase (s : State) (q : Nat) : Nat := fld s (Q_BASE q) Q_BASE_BASE * 64
def qHead (s : State) (q : Nat) : Nat := fld s (Q_PTR q) Q_PTR_HEAD
def qTail (s : State) (q : Nat) : Nat := fld s (Q_PTR q) Q_PTR_TAIL
def qState (s : State) (q : Nat) : Nat := fld s (Q_CFG q) Q_CFG_STATE
/-- R373. -/
def qGood (s : State) (q : Nat) : Bool :=
  let b := qBase s q
  let sel := selOf b
  decide (1 ≤ qLog s q) && decide (qLog s q ≤ 16) && (decide (sel = 0) || decide (sel = 8) || decide (sel = 9)) &&
    (match spaceSize sel with
     | some n => decide (offOf b + qLen s q * 64 ≤ n)
     | none => false)
/-- The device address of entry number `k`. -/
def qEntry (s : State) (q k : Nat) : Nat := qBase s q + k % qLen s q * 64
/-- The host that holds the ring cannot be reached (R374 order 5). -/
def qDown (s : State) (q : Nat) : Bool :=
  let sel := selOf (qBase s q)
  (decide (sel = 8) || decide (sel = 9)) && !hostReach s (sel - 8)
/-- Entries accepted and not visible yet. -/
def qWaiting (s : State) (q : Nat) : Nat := (s.sync.qpend.filter fun e => decide (e.q = q)).length
/-- A unit may submit, or take (R374). -/
def unitMay (s : State) (q u : Nat) (f : Fld) : Bool :=
  isCp u || (flag s (Q_CFG q) f && (plotOf s u == some (fld s (Q_CFG q) Q_CFG_PLOT)))
/-- The checks of a submission in order (R374): 0 where all pass. -/
def submitCheck (s : State) (q : Nat) (may : Bool) : Nat :=
  if qState s q = 0 then 0x0508
  else if !may then 0x0508
  else if qState s q = 2 then 0x0509
  else if (qTail s q + qWaiting s q + 1) % qLen s q = qHead s q then 0x0504
  else if qDown s q then 0x0802
  else 0
/-- The status of a submission that is refused: to its request, or counted and logged for a BAR2 port (R378). -/
def submitRefused (q code : Nat) (tag : Option Nat) (s : State) : State :=
  let s := satFld s (Q_COUNT q) Q_COUNT_REJECTS 1
  match tag with
  | some t => answerOp t (.status (BitVec.ofNat 64 code)) s
  | none => logErr code 0x24 none q s
/-- A submission reaches the QUEUE block. -/
def submit (q : Nat) (may : Bool) (data : W512) (tag : Option Nat) (s : State) : State :=
  match submitCheck s q may with
  | 0 => { s with sync := { s.sync with qpend := s.sync.qpend ++ [⟨q, data, tag⟩] } }
  | code => submitRefused q code tag s
/-- The doorbell of a queue (R376). -/
def qDoorbell (q : Nat) (s : State) : State :=
  let t := fld s (Q_CFG q) Q_CFG_DB_TARGET
  match fld s (Q_CFG q) Q_CFG_DB_KIND with
  | 1 => sendSignal (.msix 0 (t % 2048)) s
  | 2 => sendSignal (.msix 1 (t % 2048)) s
  | 3 => sendSignal (.ownerMsix (t % 2048)) s
  | 4 => sendSignal (.cpQueue (t % 4) q) s
  | 5 => (syncAdd t 1 .cp s).2
  | _ => s
/-- Drop the oldest accepted entry of queue `q`. -/
def qpendDrop (q : Nat) : List QPend → List QPend
  | [] => []
  | e :: es => if e.q = q then es else e :: qpendDrop q es
/-- The oldest accepted entry becomes visible: it stands in the ring, TAIL advances, the doorbell rings (R374, R376). -/
def entryVisible (e : QPend) (s : State) : State :=
  let q := e.q
  let s := { s with sync := { s.sync with qpend := qpendDrop q s.sync.qpend } }
  if qDown s q then submitRefused q 0x0802 e.tag s
  else
    let a := qEntry s q (qTail s q)
    let data := leBytes 64 e.data.toNat
    let s := if selOf a = 0 then dramWriteAll (offOf a) data s else emit (.hostWrite (selOf a - 8) (offOf a) data) s
    let empty := decide (qHead s q = qTail s q)
    let s := setFld s (Q_PTR q) Q_PTR_TAIL ((qTail s q + 1) % qLen s q)
    let s := satFld s (Q_COUNT q) Q_COUNT_SUBMITS 1
    let s := match e.tag with
      | some t => answerOp t (.status 0) s
      | none => s
    if flag s (Q_CFG q) Q_CFG_DB_COALESCE && !empty then s else qDoorbell q s
/-- Q.TAKE of request `tag` (R374, R375); `host` is the entry where the ring lies in host memory. -/
def take (tag q u : Nat) (host : W512) (s : State) : State :=
  let no (s : State) : State := answerOp tag (.taken false 0) s
  if qState s q = 0 || !unitMay s q u Q_CFG_CORE_TAKE then no (logErr 0x0508 0x24 (plotOf s u) q s)
  else if qState s q = 2 || decide (qHead s q = qTail s q) then no s
  else if qDown s q then no (logErr 0x0802 0x24 (plotOf s u) q s)
  else
    let a := qEntry s q (qHead s q)
    let bad := if selOf a = 0 then dramBadWords s (offOf a) 64 else []
    let e := if selOf a = 0 then BitVec.ofNat 512 (leNat (dramRead s (offOf a) 64)) else host
    let s := setFld s (Q_PTR q) Q_PTR_HEAD ((qHead s q + 1) % qLen s q)
    match bad with
    | [] => answerOp tag (.taken true e) s
    | w :: _ => answerOp tag (.bytes [] [8 * w]) s
/-- R378: the queues of a host that loses ownership are suspended. -/
def suspendQueues (p : Nat) (s : State) : State :=
  ((listedRegs s 0x200000 0x40 65536 0x10).filter fun q =>
      decide (fld s (Q_CFG q) Q_CFG_OWNER = 1 + p) && decide (qState s q = 1)).foldl
    (fun s q => setFld s (Q_CFG q) Q_CFG_STATE 2) s
/-- A write of `v` to the low word of `Q_CFG` (R373, R377). -/
def qCfgWrite (q v : Nat) (s : State) : State :=
  let new := BitVec.ofNat 64 v
  let st := v % 4
  let old := qState s q
  if st = 3 then logErr 0x0508 0x24 none q s
  else
    -- OWNER and PLOT [9:2] move only in a DISABLED queue
    let w := if old = 0 then new else setBits new 2 8 (bitsOf (rget s (Q_CFG q)) 2 8)
    if old = 0 ∧ st ≠ 0 ∧ !qGood s q then
      let s := rset s (Q_CFG q) (setBits w 0 2 0)
      if st = 1 then logErr 0x0508 0x24 none q s else s
    else
      let s := rset s (Q_CFG q) w
      if old = 0 ∧ st = 1 then rset s (Q_PTR q) 0 else s
/-- A HEAD write (R375). -/
def qHeadWrite (q h : Nat) (s : State) : State :=
  let n := qLen s q
  if h < n ∧ (h + n - qHead s q) % n ≤ (qTail s q + n - qHead s q) % n then setFld s (Q_PTR q) Q_PTR_HEAD h
  else logErr 0x0508 0x24 none q s

end Sys2Proof.Machine
end

