-- ==== Sys2Proof/Machine/HostOps.lean ====
section
/-!
DEFINITION. Host ports (chapter 17): ownership, port resets and links, MSI-X, translations and page requests, accesses to
host memory.
-/
namespace Sys2Proof.Machine
open Sys2Proof

/-! ### Ownership (R475–R480) -/

def ownerCode (s : State) : Nat := fld s HOSTIF_OWNER HOSTIF_OWNER_OWNER
def standbyCode (s : State) : Nat := fld s HOSTIF_OWNER HOSTIF_OWNER_STANDBY
/-- The ownership event of port `p` (R474). -/
def ownerEvent (s : State) (p : Nat) : State :=
  if flag s (HOSTIF_PORT_VEC p) HOSTIF_PORT_VEC_OWNER_EN then msixTrigger p (fld s (HOSTIF_PORT_VEC p) HOSTIF_PORT_VEC_OWNER_VEC) s
  else s
/-- Doorbells that waited for an owner go to port `p`, each once (R474). -/
def ownerDoorbells (p : Nat) (s : State) : State :=
  let vs := mkeys s.host.ownerPend
  let s := { s with host := { s.host with ownerPend := [] } }
  vs.foldl (fun s v => msixTrigger p v s) s
/-- OWNER and STANDBY take new values with a cause: the steps of R478, where OWNER changes. -/
def setOwner (owner standby cause : Nat) (s : State) : State :=
  let old := ownerCode s
  let s := setFld (setFld s HOSTIF_OWNER HOSTIF_OWNER_OWNER owner) HOSTIF_OWNER HOSTIF_OWNER_STANDBY standby
  if owner = old then s
  else
    let s := setFld (bumpFld s HOSTIF_OWNER HOSTIF_OWNER_GEN 1) HOSTIF_OWNER HOSTIF_OWNER_LAST_CAUSE cause
    let s := { s with host := { s.host with beatAt := paceTime s } }
    let s := if old = 0 then s
      else
        let s := abandonLocks (fun src => decide (src = old)) (suspendQueues (old - 1) s)
        mbxUnclaim (fun j => decide (mbxRecv s j = old) || decide (mbxRecv s j = 3)) s
    let s := logErr 0x0801 0x23 none cause s
    let s := [0, 1].foldl ownerEvent s
    if owner = 0 then s else ownerDoorbells (owner - 1) s
/-- The owner is lost (R477). -/
def ownerLost (cause : Nat) (s : State) : State := setOwner (standbyCode s) 0 cause s
/-- The host of port `p` is lost as owner or as standby. -/
def hostLost (p cause : Nat) (s : State) : State :=
  if ownerCode s = 1 + p then ownerLost cause s
  else if standbyCode s = 1 + p then setFld s HOSTIF_OWNER HOSTIF_OWNER_STANDBY 0
  else s
/-- The outcome of an ownership command (R476). -/
def ownerStatus (p code : Nat) (s : State) : State :=
  setFld s (HOSTIF_PORT_STATUS p) HOSTIF_PORT_STATUS_LAST_STATUS code

/-! ### MSI-X (R474) -/

/-- A pending vector whose masks are clear is sent, once. -/
def msixPending (p vec : Nat) (s : State) : State :=
  if mget false s.host.pba (p * 2048 + vec) && mget false s.host.unmasked (p * 2048 + vec) && !mget false s.host.funcMask p &&
      flag s (HOSTIF_PORT_STATUS p) HOSTIF_PORT_STATUS_MSIX_EN then
    msixOut p vec { s with host := { s.host with pba := mset false s.host.pba (p * 2048 + vec) false } }
  else s
/-- Every pending vector of a port. -/
def msixFlush (p : Nat) (s : State) : State :=
  (mkeys s.host.pba).foldl (fun s k => if k / 2048 = p then msixPending p (k % 2048) s else s) s

/-! ### Failed host accesses (R471, R473, R297) -/

/-- A part of an access to host `p` is answered with a code: a read as poisoned, counted; a write as discarded. -/
def failHost (p tag i code : Nat) (s : State) : State :=
  let s := match findReq s tag with
    | some r => if isLoad r then satFld s (HOSTIF_PORT_CNT p) HOSTIF_PORT_CNT_POISONED 1 else s
    | none => s
  let s := { s with host := { s.host with sent := s.host.sent.filter fun e => decide (e ≠ (tag, i)) } }
  answerPart tag i (.failed code) s
/-- Parts of accesses in flight to host `p`, not answered, that satisfy `f`. -/
def hostParts (s : State) (p : Nat) (f : Req → Part → Nat → Bool) : List (Nat × Nat) :=
  s.core.reqs.flatMap fun r => (r.parts.zipIdx.filter fun e =>
    e.1.ans.isNone && decide (0 < e.1.n) && decide (selOf e.1.addr = 8 + p) && f r e.1 e.2).map fun e => (r.tag, e.2)

/-- Channels that wait for a page of host `p`. -/
def pageWaiters (s : State) (f : Nat → Nat → Bool) : List (Nat × Nat) :=
  (mkeys s.strm.chans).filterMap fun k =>
    match (chan s (k / 4) (k % 4)).page with
    | some (p, g) => if f p g then some (k / 4, k % 4) else none
    | none => none
/-- A waiting channel can go no further (R291): HALTED with a code, or closed where it was CLOSING. -/
def pageFail (code : Nat) (s : State) (e : Nat × Nat) : State :=
  let x := chan s e.1 e.2
  let pos := x.haltAt.getD x.issued
  chanHalt e.1 e.2 code pos (memAddr x.desc pos) s

/-- The link to a host goes away, or its port is reset, or Bus Master Enable clears (R291, R468, R471): waiting channels halt. -/
def pagesLost (p : Nat) (s : State) : State :=
  (pageWaiters s fun q _ => decide (q = p)).foldl (pageFail 0x0802) s

/-! ### Translations (R295–R297, R472, R473) -/

/-- The translation has been asked for and not answered. -/
def xlatOut (r : XlatReq) : Bool := !r.asked && !r.want
/-- Non-posted requests of a port that are outstanding: reads and Translation Requests (R463). -/
def nonPosted (s : State) (p : Nat) : Nat :=
  (s.host.sent.filter fun e => (findReq s e.1).any fun r => (r.parts[e.2]?).any fun x => decide (selOf x.addr = 8 + p)).length +
    (s.host.xreqs.filter fun r => decide (r.port = p) && xlatOut r).length

def priOn (s : State) (p : Nat) : Bool :=
  flag s (HOSTIF_PORT_STATUS p) HOSTIF_PORT_STATUS_PRI_EN && !mget false s.host.prqStop p
/-- The next access of a channel is to this page, in this direction. -/
def chanAtPage (s : State) (p page : Nat) (write : Bool) (k : Nat) : Bool :=
  let x := chan s (k / 4) (k % 4)
  let a := memAddr x.desc x.issued
  (decide (x.st = 1) || decide (x.st = 5)) && x.page.isNone && decide (selOf a = 8 + p) && decide (offOf a / 4096 = page) &&
    (if write then toMem x.desc && decide (x.issued < x.acc) else fromMem x.desc)
/-- A channel enters PAGE_WAIT (R291, R295); one that is CLOSING keeps its state; in abort mode it aborts (R298). -/
def enterPageWait (p page : Nat) (s : State) (k : Nat) : State :=
  let u := k / 4
  let ch := k % 4
  let x := chan s u ch
  let a := memAddr x.desc x.issued
  if abortMode s u x.desc then chanAbort u ch 0x0301 a s
  else
    let s := updChan s u ch fun x => { x with
      st := if x.st = 5 then 5 else 2, code := 0x0301, pageWaits := satAdd 16 x.pageWaits 1, page := some (p, page)
      haltAt := some x.issued }
    logLimited 0x0301 p 0x23 none a (plotCtr u 5 1 s)
/-- Parts of context accesses that wait for this translation. -/
def ctxAtPage (s : State) (p page : Nat) (write : Bool) : List (Nat × Nat) :=
  hostParts s p fun r x i => !r.chan && decide (isLoad r = !write) && decide (offOf x.addr / 4096 = page) &&
    !s.host.sent.contains (r.tag, i)
/-- A context's accesses to a page that cannot be made present fail, with 0x0803 (R473). -/
def failCtxPage (p page : Nat) (write : Bool) (s : State) : State :=
  (ctxAtPage s p page write).foldl (fun s e =>
    logErr 0x0803 0x23 none 0 (satFld (failHost p e.1 e.2 0x0803 s) (HOSTIF_PORT_CNT p) HOSTIF_PORT_CNT_TRANS_FAILS 1)) s
/-- The page cannot be made present: nothing waits for it any more (R296, R473). -/
def pageGone (p page : Nat) (write : Bool) (s : State) : State :=
  let s := { s with host := { s.host with xreqs := s.host.xreqs.filter fun r =>
      !(decide (r.port = p) && decide (r.page = page) && decide (r.write = write)) } }
  let s := (pageWaiters s fun q g => decide (q = p) && decide (g = page)).foldl (pageFail 0x0307) s
  failCtxPage p page write s
/-- A page request changes its record. -/
def updXlat (r new : XlatReq) (s : State) : State :=
  { s with host := { s.host with xreqs := s.host.xreqs.map fun q => if q = r then new else q } }
/-- The record of a page that nothing waits for goes. -/
def dropXlat (r : XlatReq) (s : State) : State :=
  { s with host := { s.host with xreqs := s.host.xreqs.filter fun q => decide (q ≠ r) } }
/-- Stamps of the channels and accesses that wait for a page (R284, R296). -/
def pageStamps (s : State) (r : XlatReq) : List Nat :=
  (pageWaiters s fun q g => decide (q = r.port) && decide (g = r.page)).map (fun e => chanStamp s e.1 e.2 (chan s e.1 e.2)) ++
    (ctxAtPage s r.port r.page r.write).filterMap fun e => (findReq s e.1).map (·.stamp)
/-- The earliest of some stamps. -/
def earliest : List Nat → Option Nat
  | [] => none
  | a :: l => match earliest l with
    | none => some a
    | some b => some (if precedes b a then b else a)
/-- The waiting page request of port `p` with the earliest stamp; the older one on a tie (R284, R296). -/
def nextPage (s : State) (p : Nat) : Option XlatReq :=
  (s.host.xreqs.filter fun r => decide (r.port = p) && r.want).foldl (fun best r =>
    match best with
    | none => some r
    | some b => match earliest (pageStamps s r), earliest (pageStamps s b) with
      | some x, some y => if precedes x y then some r else best
      | _, _ => best) none
/-- One waiting page request sets out, where the host's allocation and the port's capacity of 512 have room (R296). -/
def sendPage (p : Nat) (s : State) : State :=
  if min 512 (mget 0 s.host.prqAlloc p) ≤ fld s (HOSTIF_PORT_STATUS p) HOSTIF_PORT_STATUS_PRQ_OUT || !priOn s p then s
  else match nextPage s p with
    | none => s
    | some r =>
      emit (.pageRequest p r.page r.write true) (updXlat r { r with asked := true, want := false }
        (bumpCtr (149 + 8 * p) 1 (bumpFld s (HOSTIF_PORT_STATUS p) HOSTIF_PORT_STATUS_PRQ_OUT 1)))
/-- Waiting page requests of a port set out while there is room, in stamp order (R296). -/
def sendPages (p : Nat) (s : State) : State :=
  (List.range (s.host.xreqs.filter fun r => decide (r.port = p) && r.want).length).foldl (fun s _ => sendPage p s) s
/-- Something waits for a page whose translation failed: a channel in PAGE_WAIT or an access of a context. -/
def pageWanted (s : State) (r : XlatReq) : Bool :=
  (pageWaiters s fun q g => decide (q = r.port) && decide (g = r.page)).any (fun _ => true) ||
    (ctxAtPage s r.port r.page r.write).any fun _ => true
/-- A translation has failed: the channels that need it wait, or abort in abort mode; the page is asked for where something waits
for it, or given up with the fifth failure or without PRI (R295, R296, R298, R473). -/
def xlatFailed (r : XlatReq) (s : State) : State :=
  let s := ((mkeys s.strm.chans).filter (chanAtPage s r.port r.page r.write)).foldl (enterPageWait r.port r.page) s
  if !pageWanted s r then dropXlat r s
  else if 4 ≤ r.fails || !priOn s r.port then pageGone r.port r.page r.write s
  else sendPages r.port (updXlat r { r with want := true, fails := r.fails + 1 } s)
/-- A translation arrives: the cache keeps the newest 8,192 (R472). -/
def xlatArrived (r : XlatReq) (base pages : Nat) (rd wr : Bool) (s : State) : State :=
  { s with host := { s.host with
      atc := (⟨r.port, base, pages, rd, wr⟩ :: s.host.atc).take 8192
      xreqs := s.host.xreqs.filter fun q => decide (q ≠ r) } }

/-- A range is still in use by reads that were sent (R472). -/
def rangeUsed (s : State) (p page pages : Nat) : Bool :=
  s.host.sent.any fun e => (findReq s e.1).any fun r => (r.parts[e.2]?).any fun x =>
    decide (selOf x.addr = 8 + p) && decide (page ≤ offOf x.addr / 4096) && decide (offOf x.addr / 4096 < page + pages)
/-- Invalidate Requests whose range is free are answered. -/
def answerInvals (s : State) : State :=
  let ready := s.host.invals.filter fun i => !rangeUsed s i.1 i.2.1 i.2.2
  let s := { s with host := { s.host with invals := s.host.invals.filter fun i => rangeUsed s i.1 i.2.1 i.2.2 } }
  ready.foldl (fun s i => emit (.invalidated i.1 i.2.1 i.2.2) s) s

/-! ### Port resets (R13, R468) -/

/-- Registers of the port domain of port `p`. -/
def portReg (p off : Nat) : Bool :=
  (decide (0x8100 + p * 0x100 ≤ off) && decide (off < 0x8200 + p * 0x100)) || decide (off = (if p = 0 then LMC_WIN_A else LMC_WIN_B))
/-- The PCIe logic, configuration space and MSI-X table of a port take their reset state. -/
def clearPort (p : Nat) (s : State) : State :=
  let s := resetRegs [.port] (portReg p) s
  { s with host := { s.host with
      msixAddr := mkeep (fun k => decide (k / 2048 ≠ p)) s.host.msixAddr
      msixData := mkeep (fun k => decide (k / 2048 ≠ p)) s.host.msixData
      unmasked := mkeep (fun k => decide (k / 2048 ≠ p)) s.host.unmasked
      pba := mkeep (fun k => decide (k / 2048 ≠ p)) s.host.pba
      funcMask := mset false s.host.funcMask p false
      atc := s.host.atc.filter (fun t => decide (t.port ≠ p))
      xreqs := s.host.xreqs.filter (fun t => decide (t.port ≠ p))
      invals := s.host.invals.filter (fun t => decide (t.1 ≠ p))
      prqStop := mset false s.host.prqStop p false
      bar4 := mset 30 s.host.bar4 p 30
      d3 := mset false s.host.d3 p false
      aspm := mset false s.host.aspm p false
      payload := mset 128 s.host.payload p 128
      readSize := mset 512 s.host.readSize p 512
      prqAlloc := mset 0 s.host.prqAlloc p 0
      aerSet := mkeep (fun k => decide (k / 2 ≠ p)) s.host.aerSet
      aerMask := mkeep (fun k => decide (k / 2 ≠ p)) s.host.aerMask } }
/-- A port reset (R468); `flr`: a function-level reset keeps the link up. -/
def portReset (p : Nat) (flr : Bool) (s : State) : State :=
  let link := bitsOf (rget s (HOSTIF_PORT_STATUS p)) 0 9
  let s := pagesLost p s
  let s := (hostParts s p fun _ _ _ => true).foldl (fun s e => failHost p e.1 e.2 0x0802 s) s
  let s := mbxUnreserve p s
  let s := abandonLocks (fun src => decide (src = 1 + p)) s
  let s := mbxUnclaim (fun j => decide (mbxRecv s j = 1 + p) || (decide (mbxRecv s j = 3) && decide (ownerCode s = 1 + p))) s
  let s := hostLost p 5 s
  let s := clearPort p s
  if flr then rset s (HOSTIF_PORT_STATUS p) (setBits (rget s (HOSTIF_PORT_STATUS p)) 0 9 link)
  else { s with host := { s.host with inReset := mset false s.host.inReset p true } }

end Sys2Proof.Machine
end

