-- ==== Sys2Proof/Machine/LpddrOps.lean ====
section
/-!
DEFINITION. The LPDDR5X controllers (chapter 14): failed chunks, rebuilds and poison, degraded channels, the answer to a
read, retraining. Channel 8i + l of LMC i is channel (8i + l) mod 16 of pair (8i + l) div 16 (R380).
-/
namespace Sys2Proof.Machine
open Sys2Proof

/-- `a` precedes `b` as stamps (R283). -/
def stampBefore (a b : Nat) : Bool :=
  let d := (b + 2 ^ 32 - a % 2 ^ 32) % 2 ^ 32
  decide (1 ≤ d) && decide (d < 2 ^ 31)
/-- Source ID of the LMC of a channel (R39). -/
def lmcSrc (x : Nat) : Nat := 0x200 + x / 8
/-- Another channel of the pair is DEGRADED or REBUILDING. -/
def mateDown (s : State) (x : Nat) : Bool :=
  (List.range 16).any fun c => let y := devCh (x / 16) c; decide (y ≠ x) && decide (2 ≤ chState s y)

/-- A channel takes a state (R389); the Shadow map shows it (R568). -/
def setCh (x st : Nat) (s : State) : State := shadowGen (setFld s (chReg x) LMC_CH_STATE st)
/-- A channel becomes DEGRADED (R389); the second of a pair fails the pair (R390). -/
def degrade (x : Nat) (s : State) : State :=
  if chState s x = 2 then s
  else
    let second := mateDown s x
    let k := x / 16
    let s := logErr 0x0608 (lmcSrc x) none 0 (setCh x 2 s)
    let s := orFld s LMC_STATUS LMC_STATUS_PAIR_DEGRADED (2 ^ k)
    if second && !pairFailed s k then
      logErr 0x0609 (lmcSrc x) none 0 (orFld s LMC_STATUS LMC_STATUS_PAIR_FAILED (2 ^ k))
    else s
/-- A training or retraining of a channel fails (R389, R392). -/
def trainFail (x : Nat) (s : State) : State :=
  degrade x (logErr 0x060A (lmcSrc x) none 0 { s with mem := { s.mem with trainBad := mset false s.mem.trainBad x true } })

/-- Offset by which a chunk of channel `x` at stripe `t` of its pair is known; a parity chunk, which has none, by that of its stripe
(DESIGN CHOICE, log 114). -/
def chunkAt (x t : Nat) : Nat :=
  (4 * t + x / 16) * 960 + (if x % 16 = t % 16 then 0 else (x % 16 + 15 - t % 16) % 16 * 64)
/-- Channel of the parity of stripe `t` of the pair of channel `x`. -/
def parOf (x t : Nat) : Nat := devCh (x / 16) (t % 16)
/-- The channels of a pair but `x`. -/
def mates (x : Nat) : List Nat := ((List.range 16).map (devCh (x / 16))).filter (· ≠ x)

/-- A failed chunk on channel `x` at stripe `t` (R386): counted, located, and enough of them degrade the channel (R389). A burst with
an inverted check word is no failure of the link check. -/
def failChunk (x t : Nat) (inverted : Bool) (s : State) : State :=
  let s := satFld s (chReg x) LMC_CH_FAILS 1
  let r := LMC_ERR_LOC (x / 8)
  let s := if flag s r LMC_ERR_LOC_VALID then s
    else setFld (setFld (setFld s r LMC_ERR_LOC_OFFSET (chunkAt x t)) r LMC_ERR_LOC_CH (x % 8)) r LMC_ERR_LOC_VALID 1
  let now := paceTime s
  let row := if inverted then 0 else mget 0 s.mem.linkRow x + 1
  let s := { s with mem := { s.mem with
    chFails := (x, now) :: s.mem.chFails.filter (fun e => decide (now < e.2 + 10 ^ 10))
    linkRow := mset 0 s.mem.linkRow x row } }
  let n := (s.mem.chFails.filter fun e => decide (e.1 = x)).length
  if fld s LMC_RETRAIN LMC_RETRAIN_RETIRE_LIMIT < n ∨ 3 ≤ row then degrade x s else s
def burstOf (b : Bursts) (x : Nat) : Burst := match b.reads.find? fun e => decide (e.1 = x) with
  | some e => e.2
  | none => .good
def burstFails (b : Bursts) (x : Nat) : Bool := match burstOf b x with
  | .failed _ => true
  | _ => false
/-- Channel `x` is read at stripe `t` (R386): failed ones are in `burstFails`. -/
def classBurst (b : Bursts) (t : Nat) (s : State) (x : Nat) : State :=
  match burstOf b x with
  | .failed inv => failChunk x t inv s
  | .retried _ =>
    let s := satFld s (LMC_ERR (x / 8)) LMC_ERR_CORRECTED 1
    { s with mem := { s.mem with linkRow := mset 0 s.mem.linkRow x 0 } }
  | .good => { s with mem := { s.mem with linkRow := mset 0 s.mem.linkRow x 0 } }
/-- The channels of `xs` that can be read at stripe `t` are read: those that fail, and the state after. -/
def readChans (b : Bursts) (t : Nat) (xs : List Nat) (s : State) : List Nat × State :=
  let ys := xs.filter fun x => !chStale s x t
  (ys.filter (burstFails b), ys.foldl (classBurst b t) s)
/-- A rebuild of channel `x` at stripe `t` reads the 15 others (R387): the second failed chunks that it meets (R388), read or on a
channel that is not. -/
def readMates (b : Bursts) (x t : Nat) (s : State) : List Nat × State :=
  let r := readChans b t (mates x) s
  (((mates x).filter fun y => chStale s y t) ++ r.1, r.2)

/-- A chunk is rebuilt (R387). -/
def countRebuild (x : Nat) (s : State) : State :=
  logErr 0x0606 (lmcSrc x) none 0 (bumpCtr (50 + 4 * (x / 8)) 1 (satFld s (LMC_ERR (x / 8)) LMC_ERR_REBUILT 1))
/-- The rebuilt bytes of channel `x` at stripe `t` go back to it, unless it is DEGRADED: data from the stripe, or the parity. -/
def writeBack (x t : Nat) (s : State) : State :=
  if chState s x = 2 then s
  else if x % 16 = t % 16 then { s with mem := stripeParity s.mem (chunkAt x t) }
  else
    let o := chunkAt x t
    { s with mem := { s.mem with dram := memStore s.mem.dram o ((List.range 64).map fun i => rebuilt s.mem (o + i)) } }
/-- A read answered as poisoned (R388, R390): counted, and logged where the poison is found. -/
def poisonRead (x : Nat) (found : Bool) (s : State) : State :=
  let s := satFld s (LMC_ERR (x / 8)) LMC_ERR_UNRECOVERABLE 1
  if found then logErr 0x0607 (lmcSrc x) none 0 s else s
/-- A chunk that cannot be rebuilt: it enters its pair's list of 1,024, if that has room (R388). -/
def unrecoverable (x o : Nat) (s : State) : State :=
  let s := poisonRead x true s
  if ((mkeys s.mem.dramPoison).filter fun c => decide (lpPair (64 * c) = x / 16)).length < 1024 then
    { s with mem := { s.mem with dramPoison := mset false s.mem.dramPoison (o / 64) true } }
  else s
/-- The data chunks of channels `xs` at stripe `t` cannot be rebuilt (R388); a parity chunk has no place on the list. -/
def loseChunks (t : Nat) (xs : List Nat) (s : State) : State :=
  (xs.filter fun x => decide (x % 16 ≠ t % 16)).foldl (fun s x => unrecoverable x (chunkAt x t) s) s

/-- Every word of `[o, o + n)`. -/
def allBad (o n : Nat) : List Nat := wordsOf o n
/-- The bytes of a chunk, with the offsets (div 8) of its poisoned words, after the failed chunk of channel `x` at `o` was found
or its channel left unread: rebuilt where the stripe allows. `own`: the chunk's channel was read. -/
def rebuildRead (x o n : Nat) (own : Bool) (b : Bursts) (s : State) : List Byte × List Nat × State :=
  let r := readMates b x (lpT o) s
  let s := r.2
  if !r.1.isEmpty then (chunkData s o n, allBad o n, unrecoverable x o s)
  else
    let d := (List.range n).map fun i => rebuilt s.mem (o + i)
    let s := countRebuild x s
    (d, dramBadWords s o n, if own then writeBack x (lpT o) s else s)

/-- Another channel of the pair is paused (R394): what would read it waits. -/
def matePaused (s : State) (x : Nat) : Bool := (mates x).any fun y => decide (chState s y = 1)
/-- A retraining channel's chunk is read (R394): from a held write; or from parity where the pair has it and the stamp presses, unless a
burst of the others fails, whose chunk cannot be rebuilt before the pause ends (DESIGN CHOICE, log 114). -/
def pausedRead (s : State) (x o n stamp : Nat) (b : Bursts) : Option (List Byte × List Nat) × State :=
  if s.mem.heldWr.any fun e => decide (e.1 = o / 64) then (some (dramRead s o n, dramBadWords s o n), s)
  else if !mateDown s x && !matePaused s x && stampBefore stamp ((now10 s + 200) % 2 ^ 32) then
    let r := readMates b x (lpT o) s
    (if r.1.isEmpty then some ((List.range n).map fun i => rebuilt r.2.mem (o + i), dramBadWords r.2 o n) else none, r.2)
  else (none, s)

/-- The LMC reads `n` bytes at offset `o` within a chunk (R386–R391, R394); no answer: the read waits. -/
def lmcRead (o n stamp : Nat) (b : Bursts) (s : State) : Option (List Byte × List Nat) × State :=
  let x := lpDevCh o
  let t := lpT o
  let u := bumpCtr (48 + 4 * (x / 8)) 1 s
  let whole (r : List Byte × List Nat × State) : Option (List Byte × List Nat) × State := (some (r.1, r.2.1), r.2.2)
  if !flag s LMC_STATUS LMC_STATUS_INIT_DONE then (none, s)
  else if dramListed s o then (some (dramRead s o n, allBad o n), poisonRead x false u)
  else if chState s x = 1 then
    let r := pausedRead s x o n stamp b
    (r.1, if r.1.isSome then bumpCtr (48 + 4 * (x / 8)) 1 r.2 else r.2)
  else if chStale s x t && pairFailed s (x / 16) then (some (dramRead s o n, allBad o n), poisonRead x true u)
  else if (chStale s x t || burstFails b x) && matePaused s x then (none, s)
  else if chStale s x t then whole (rebuildRead x o n false b u)
  else
    let u := classBurst b t u x
    if burstFails b x then whole (rebuildRead x o n true b u) else (some (dramRead u o n, dramBadWords u o n), u)

/-- A host read of LPDDR5X is answered. -/
def hostAnswer (p : Nat) (d : List Byte × List Nat) (s : State) : State := emit (.hostData p (some d.1) (!d.2.isEmpty)) s
/-- A host reads LPDDR5X within a chunk, with the stamp now (R396); a read that must wait is kept (R394). -/
def hostRead (p o n : Nat) (b : Bursts) (s : State) : State :=
  let e := lmcRead o n (now10 s) b s
  match e.1 with
  | some d => hostAnswer p d e.2
  | none => { e.2 with mem := { e.2.mem with hostReads := e.2.mem.hostReads ++ [(p, o, n, now10 s)] } }

/-- A write of channel `z` at stripe `t` fails three times: a failed chunk (R386), rebuilt (R387) where the stripe allows. -/
def failedWrite (t : Nat) (s : State) (z : Nat) : State :=
  let down := (mates z).filter fun y => chStale s y t
  let s := failChunk z t false s
  if down.isEmpty then countRebuild z s else loseChunks t (z :: down) s
/-- The channels that a write of the chunk of channel `x` at stripe `t` writes: its own and the parity's, unless DEGRADED or without
parity (R384, R389, R390). -/
def writtenChans (s : State) (x t : Nat) : List Nat :=
  (x :: (if pairFailed s (x / 16) then [] else [parOf x t])).filter fun y => decide (chState s y ≠ 2)
/-- Old chunk and old parity are read for a write of part or all of the chunk of `o` (R384); one that fails is rebuilt, or lost with
a second one (R386–R388): the chunk itself is lost, and the state after. -/
def readOld (o : Nat) (whole : Bool) (b : Bursts) (s : State) : Bool × State :=
  let x := lpDevCh o
  let t := lpT o
  let par := parOf x t
  let kept := !pairFailed s (x / 16)
  let r := readChans b t ((if whole && !kept then [] else [x]) ++ (if kept then [par] else [])) s
  match r.1 with
  | [] => (false, r.2)
  | z :: zs =>
    let rest := readChans b t ((mates z).filter fun y => decide (y ≠ x) && decide (y ≠ par || !kept)) r.2
    let down := (mates z).filter fun y => chStale s y t
    let lost := z :: (zs ++ rest.1 ++ down)
    if lost.length = 1 then (false, writeBack z t (countRebuild z rest.2))
    else if lost.contains x then (true, loseChunks t [x] rest.2)
    else (false, loseChunks t lost rest.2)
/-- A write reaches the LMC (R384, R386): a write of part of a chunk that cannot be read is discarded, as one to a listed chunk is. -/
def lmcWrite (o : Nat) (b : Bursts) (data : List Byte) (bad : List Nat) (s : State) : State :=
  let x := lpDevCh o
  let t := lpT o
  let whole := decide (o % 64 = 0) && decide (data.length = 64)
  let s := bumpCtr (49 + 4 * (x / 8)) 1 s
  if stageLocked s o || dramListed s o && !whole || chStale s x t && pairFailed s (x / 16) then dramWrite o data bad s
  else
    let r := if dramListed s o then (false, s) else readOld o whole b s
    if r.1 && !whole then r.2
    else
      let ws := (writtenChans r.2 x t).filter b.lost.contains
      ws.foldl (failedWrite t) (dramWrite o data bad r.2)

/-- The bytes that a store part writes, with the offsets of its poisoned ones. -/
def partData (a : Nat) (data : List Byte) (bad : List Nat) (p : Part) : List Byte × List Nat :=
  ((data.drop (p.addr - a)).take p.n,
   bad.filterMap fun i => if p.addr - a ≤ i ∧ i < p.addr - a + p.n then some (i - (p.addr - a)) else none)
/-- An open part for local LPDDR5X whose turn has come (R142, R383). -/
def dramPart (s : State) (tag i : Nat) : Option (Req × Part) :=
  match findReq s tag with
  | none => none
  | some r => match openAt s r i with
    | some p =>
      if isLocalDram s (selOf p.addr) && decide (0 < p.n) && inOrder s r p && !(s.mem.heldWr.any fun e => decide (e.2 = some (.own tag i))) then some (r, p)
      else none
    | none => none
/-- Poisoned words of local LPDDR5X as device addresses in the space of `a`. -/
def badAddrs (a : Nat) (ws : List Nat) : List Nat := ws.map fun w => selOf a * 2 ^ 48 + 8 * w

end Sys2Proof.Machine
end

