-- ==== Sys2Proof/Machine/LoamRows.lean ====
section
/-!
DEFINITION. The rows of the Loam, its pins and its lanes (chapter 15). What a read finds in check bits (`ecc`: 0 good, 1 corrected,
2 uncorrectable), what a pin or a lane receives, and what a checker counts come with the commands.
-/
namespace Sys2Proof.Machine
open Sys2Proof

/-! ### Word cells (R401, R402) -/

def execCellNop (i : Nat) (s : State) : Res := runIf (wfCellNop i) (cellStep 0 i s)
def execCellAdd (i : Nat) (s : State) : Res := runIf (wfCellAdd i) (cellStep 1 i s)
def execCellSub (i : Nat) (s : State) : Res := runIf (wfCellSub i) (cellStep 2 i s)
def execCellAnd (i : Nat) (s : State) : Res := runIf (wfCellAnd i) (cellStep 3 i s)
def execCellOr (i : Nat) (s : State) : Res := runIf (wfCellOr i) (cellStep 4 i s)
def execCellXor (i : Nat) (s : State) : Res := runIf (wfCellXor i) (cellStep 5 i s)
def execCellShl (i : Nat) (s : State) : Res := runIf (wfCellShl i) (cellStep 6 i s)
def execCellShr (i : Nat) (s : State) : Res := runIf (wfCellShr i) (cellStep 7 i s)
def execCellSra (i : Nat) (s : State) : Res := runIf (wfCellSra i) (cellStep 8 i s)
def execCellCmpeq (i : Nat) (s : State) : Res := runIf (wfCellCmpeq i) (cellStep 9 i s)
def execCellCmplt (i : Nat) (s : State) : Res := runIf (wfCellCmplt i) (cellStep 10 i s)
def execCellCmpltu (i : Nat) (s : State) : Res := runIf (wfCellCmpltu i) (cellStep 11 i s)
def execCellSel (i : Nat) (s : State) : Res := runIf (wfCellSel i) (cellStep 12 i s)
def execCellMulu (i : Nat) (s : State) : Res := runIf (wfCellMulu i) (cellStep 13 i s)
def execCellMuls (i : Nat) (s : State) : Res := runIf (wfCellMuls i) (cellStep 14 i s)
def execCellMov (i : Nat) (s : State) : Res := runIf (wfCellMov i) (cellStep 15 i s)

/-! ### Memory blocks (R411–R414) -/

def portMode (s : State) (r b q : Nat) : Nat := mget 0 s.loam.ports (r * 64 + b) / 4 ^ q % 4
/-- A cell port reads an uncorrectable word: the region halts (R413). -/
def regionPoison (r word : Nat) (s : State) : State :=
  let s := setFld (haltRegion r 0x070A s) (LOAM_RGN_STATUS r) LOAM_RGN_STATUS_HALT_WORD word
  logErr 0x070A (rgnSrc r) none 0 s
/-- MEMORY_BLOCK_ACCESS (R411–R413): the next access of port `q` of block `b`. -/
def execMemoryBlockAccess (r b q ecc : Nat) (s : State) : Res :=
  runIf (wfMemoryBlockAccess r b q ecc)
    (let i := blockSiteOf r b
     let mode := portMode s r b q
     let ka := i * 8 + 2 * q
     if !regionRunning s r then s
     else match slotOf s.loam.sink ka, slotOf s.loam.sink (ka + 1) with
       | some a, d =>
         let k := wordKeyL r b (a % 2048)
         let out := (r * 64 + b) * 2 + q
         let takeA := setLoam fun l => { l with sink := emptySlot l.sink ka }
         let takeD := setLoam fun l => { l with sink := emptySlot l.sink (ka + 1) }
         let answer (s : State) : State := setLoam (fun l => { l with rdata := fillSlot l.rdata out (loamWord s k) }) s
         let fed := feeders s i [15 + 2 * q, 16 + 2 * q] ++ siteKeys i
         let full := (slotOf s.loam.rdata out).isSome
         let t := readCheck k ecc s
         match mode, d with
         | 1, _ => if full then s else if mget false t.loam.badWords k then regionPoison r (b * 2048 + a % 2048) t
           else move fed (takeA (answer t))
         | 2, some v => move fed (takeA (takeD (setLoamWord k v s)))
         | 3, some v => if full then s else if mget false t.loam.badWords k then regionPoison r (b * 2048 + a % 2048) t
           else move fed (takeA (takeD (setLoamWord k v (answer t))))
         | _, _ => s
       | none, _ => s)

/-- The words that `n` bytes from window offset `o` touch, by key. -/
def windowWords (o n : Nat) : List Nat := (List.range ((o + n - 1) / 2 + 1 - o / 2)).map (· + o / 2)
/-- A refused window access (R414). -/
def windowDenied (r : Nat) (s : State) : State :=
  logErr 0x070C (rgnSrc r) none 0 (satFld s (LOAM_RGN_ERR r) LOAM_RGN_ERR_WIN_DENIED 1)
/-- Bytes whose values nothing says: those of a poisoned answer without data. -/
def openBytes : Nat → State → List Byte × State
  | 0, s => ([], s)
  | n + 1, s =>
    let (v, s) := freshValue s
    let (l, s) := openBytes n s
    (v.setWidth 8 :: l, s)
/-- What an access finds in the check bits of the words `ks`; a word without an entry is good. -/
def readChecks (ks ecc : List Nat) (s : State) : State := (ks.zip ecc).foldl (fun s e => readCheck e.1 e.2 s) s
/-- A window read: bytes, and whether it is answered as poisoned; `ecc` is what the words' check bits show (R413, R414). -/
def windowRead (o n : Nat) (ecc : List Nat) (s : State) : List Byte × Bool × State :=
  let r := o / 0x40000
  if !regionRunning s r then
    let (d, s) := openBytes n (windowDenied r s)
    (d, true, s)
  else
    let s := readChecks (windowWords o n) ecc s
    let d := (List.range n).map fun i => BitVec.ofNat 8 (loamWord s ((o + i) / 2) / 256 ^ ((o + i) % 2))
    (d, (windowWords o n).any fun k => mget false s.loam.badWords k, s)
/-- One word of a window write: a part of it merges with the stored word, and leaves an uncorrectable word as it is; a poisoned
one leaves the word uncorrectable (DESIGN CHOICE, log 37). -/
def windowPut (o : Nat) (data : List Byte) (bad : Bool) (s : State) (k : Nat) : State :=
  let byte (a : Nat) : Option Nat := if a < o then none else (data[a - o]?).map (·.toNat)
  let old := loamWord s k
  let v := (byte (2 * k)).getD (old % 256) + 256 * (byte (2 * k + 1)).getD (old / 256)
  if (byte (2 * k)).isSome && (byte (2 * k + 1)).isSome then
    let s := setLoamWord k v s
    if bad then setLoam (fun l => { l with badWords := mset false l.badWords k true }) s else s
  else if mget false s.loam.badWords k then s
  else setLoamWord k v s
/-- A window write reads the words that it covers in part, to merge (R414). -/
def windowWrite (o : Nat) (data : List Byte) (ecc : List Nat) (bad : Nat → Bool) (s : State) : State :=
  let r := o / 0x40000
  let ks := windowWords o data.length
  if !regionRunning s r then windowDenied r s
  else
    let part := (ks.zip ecc).filter fun e => decide (2 * e.1 < o) || decide (o + data.length < 2 * e.1 + 2)
    ks.foldl (fun s k => windowPut o data (bad k) s k) (part.foldl (fun s e => readCheck e.1 e.2 s) s)
/-- LOAM_WINDOW_ACCESS (R414): a part of an access in flight. -/
def execLoamWindowAccess (tag part : Nat) (ecc : List Nat) (s : State) : Res :=
  runIf (wfLoamWindowAccess tag part ecc)
    (match findReq s tag with
     | some r => (match openAt s r part with
       | some p =>
         if selOf p.addr ≠ 4 ∨ p.n = 0 ∨ !inOrder s r p then s
         else
           let o := offOf p.addr
           match r.op with
           | .store a data bad =>
             let d := partData a data bad p
             answerPart tag part (.status 0) (windowWrite o d.1 ecc (fun k => d.2.any fun w => decide (w / 8 = k / 4)) s)
           | _ =>
             let (d, pois, s) := windowRead o p.n ecc s
             answerPart tag part (.bytes d (if pois then badAddrs p.addr (wordsOf o p.n) else [])) s
       | none => s)
     | none => s)

def lwinOffset (s : State) (p : Nat) : Nat := fld s (HOSTIF_LWIN_ADDR p) HOSTIF_LWIN_ADDR_OFFSET * 8
/-- After each access OFFSET may rise by 1. -/
def lwinNext (p : Nat) (s : State) : State :=
  if flag s (HOSTIF_LWIN_ADDR p) HOSTIF_LWIN_ADDR_INC then bumpFld s (HOSTIF_LWIN_ADDR p) HOSTIF_LWIN_ADDR_OFFSET 1 else s
/-- HOSTIF_LWIN_DATA_READ (R414): by host `q` or another master. -/
def execHostifLwinDataRead (m : Master) (p : Nat) (ecc : List Nat) (s : State) : Res :=
  runIf (wfHostifLwinDataRead m p ecc)
    (byMaster m (HOSTIF_LWIN_DATA p) (fun s => 
     let (d, pois, s) := windowRead (lwinOffset s p) 8 ecc s
     let s := lwinNext p s
     match m with
     | .host q => emit (.hostData q (some d) pois) s
     | _ => emit (if pois then .csrPoisoned m 0 else .csrData m (BitVec.ofNat 64 (leNat d))) s) s true)
/-- HOSTIF_LWIN_DATA_WRITE (R414): from the owner only. -/
def execHostifLwinDataWrite (m : Master) (p : Nat) (v : W64) (s : State) : Res :=
  runIf (wfHostifLwinDataWrite m p v)
    (byMaster m (HOSTIF_LWIN_DATA p) (fun s => if isOwner s m then lwinNext p (windowWrite (lwinOffset s p) (leBytes 8 v.toNat) [] (fun _ => false) s) else s) s)

/-! ### Fabric ports (R415–R417) -/

/-- The tokens of an RX transfer that wait at port `p` of region `r`: code, address, data. -/
def rxSlot (s : State) (r p k : Nat) : Option Nat := slotOf s.loam.sink (siteAt r p 0 * 8 + k)
def rxData (s : State) (r p : Nat) : Option W64 :=
  ((List.range 4).mapM fun c => rxSlot s r p (2 + c)).map fun l => packW (l.zipIdx.map fun d => (d.1, 16 * d.2))
/-- RX sinks `ks` of a port are taken, and their sources may move on. -/
def rxTake (r p : Nat) (ks : List Nat) (s : State) : State :=
  let i := siteAt r p 0
  move (feeders s i (ks.map (15 + ·))) (setLoam (fun l => { l with sink := ks.foldl (fun z k => emptySlot z (i * 8 + k)) l.sink }) s)
def rxReady (s : State) (r p : Nat) : Bool := fabReady s (portCore r p).1 (portCore r p).2
/-- FABRIC_RX_WORD (R415): for FP.RD, or for the stream that the core's route takes from its fabric port (log 106). -/
def execFabricRxWord (r p : Nat) (s : State) : Res :=
  runIf (wfFabricRxWord r p)
    (let (u, e) := portCore r p
     match rxSlot s r p 0, rxData s r p with
     | some 0, some v =>
       if !rxReady s r p then s
       else match (if e = fabEdge u then fabStream s u else none) with
         | some link => if 2 ≤ tokensAt s u 5 link then s else rxTake r p [0, 2, 3, 4, 5] (fabIn u link v s)
         | none =>
           if 4 ≤ (fabOf s u e).rx.length then s
           else rxTake r p [0, 2, 3, 4, 5] (setFab u e { fabOf s u e with rx := (fabOf s u e).rx ++ [v] } s)
     | _, _ => s)
/-- FABRIC_RX_SCRATCH_WRITE (R415, R416): refused by bank ownership, it is discarded and logged (R241). -/
def execFabricRxScratchWrite (r p : Nat) (s : State) : Res :=
  runIf (wfFabricRxScratchWrite r p)
    (let (u, _) := portCore r p
     match rxSlot s r p 0, rxSlot s r p 1, rxData s r p with
     | some 2, some a, some v =>
       if !rxReady s r p then s
       else
         let o := a % 2 ^ 13 * 8
         if sieveHolds s (locKey (physUnit s u) o) 8 then s
         else
         let s := rxTake r p [0, 1, 2, 3, 4, 5] s
         match bankDenied s u 9 o 8 with
         | some x => logErr 0x0602 (srcOf u) (plotOf s u) (devOfLocal u x) s
         | none => locStore u (locKey (physUnit s u) o) (leBytes 8 v.toNat) s
     | _, _, _ => s)
/-- FABRIC_RX_SCRATCH_READ (R416): answered on TX. -/
def execFabricRxScratchRead (r p : Nat) (s : State) : Res :=
  runIf (wfFabricRxScratchRead r p)
    (let (u, e) := portCore r p
     match rxSlot s r p 0, rxSlot s r p 1 with
     | some 3, some a =>
       if !rxReady s r p || decide (4 ≤ (fabOf s u e).tx.length) then s
       else
         let o := a % 2 ^ 13 * 8
         if sieveHolds s (locKey (physUnit s u) o) 8 then s
         else
         let s := rxTake r p [0, 1] s
         match bankDenied s u 9 o 8 with
         | some x => fabSend u e .badAnswer (logErr 0x0602 (srcOf u) (plotOf s u) (devOfLocal u x) s)
         | none =>
           let k := locKey (physUnit s u) o
           let s := touchRange u k 8 s
           if (firstPoison s k 8).isSome then fabSend u e .badAnswer s
           else fabSend u e (.answer (BitVec.ofNat 64 (leNat (locBytes s k 8)))) s
     | _, _ => s)
/-- FABRIC_PORT_CODE (R415): the region and port stand in INFO (log 38). -/
def execFabricPortCode (r p : Nat) (s : State) : Res :=
  runIf (wfFabricPortCode r p)
    (match rxSlot s r p 0 with
     | some c =>
       if c = 0 ∨ c = 2 ∨ c = 3 ∨ !rxReady s r p then s
       else logErr 0x070D (rgnSrc r) none (r * 64 + p) (rxTake r p [0] s)
     | none => s)

/-! ### Pins (R419–R424) -/

/-- Banks are scopes of R596 apart from ports. -/
def bankScope (r : Nat) : Nat := 0x100 + r
/-- IO_INPUT_TOKEN (R421): a token completes at an input cell; a level input's sample (R420). -/
def execIoInputToken (r i v : Nat) (s : State) : Res :=
  runIf (wfIoInputToken r i v)
    (if !bankLive s r then s
     else
       let k := pinKey r i
       let q := mget [] s.loam.inFifo k
       match pinMode s r i with
       | 5 => setLoam (fun l => { l with sample := mset false l.sample k (decide (v % 2 = 1)) }) s
       | 1 | 3 =>
         if !pinClock s r i then s
         else if 8 ≤ q.length then
           let b := LOAM_BANK_STATUS r
           let s := satFld s (LOAM_BANK_CNT r) LOAM_BANK_CNT_OVERRUNS 1
           let s := if flag s b LOAM_BANK_STATUS_OVR_VALID then s
             else setFld (setFld s b LOAM_BANK_STATUS_OVR_PIN i) b LOAM_BANK_STATUS_OVR_VALID 1
           logLimited 0x0707 (bankScope r) (rgnSrc r) none i s
         else move (siteKeys (pinSiteOf r i)) (setLoam (fun l => { l with inFifo := mset [] l.inFifo k (q ++ [v]) }) s)
       | _ => s)
/-- The next token of an output pin goes out, and its FIFO has room. -/
def pinSend (r i : Nat) (s : State) : State :=
  let k := pinKey r i
  match mget [] s.loam.outFifo k with
  | [] => s
  | v :: q =>
    let s := setLoam (fun l => { l with
      outFifo := mset [] l.outFifo k q, lastTok := mset 0 l.lastTok k (v + 1), sending := mset false l.sending k true }) s
    move (feeders s (pinSiteOf r i) [15]) (emit (.pin r i v (pinDrives s r i)) s)
/-- An output mode with a FIFO that drains at the clock. -/
def pinOutputs (s : State) (r i : Nat) : Bool :=
  bankLive s r && pinClock s r i && (decide (pinMode s r i = 2) || decide (pinMode s r i = 4))
/-- IO_OUTPUT_START (R422). -/
def execIoOutputStart (r i : Nat) (s : State) : Res :=
  runIf (wfIoOutputStart r i)
    (let k := pinKey r i
     if pinOutputs s r i && !mget false s.loam.sending k &&
        decide (pinWord s r i / 8192 % 8 + 1 ≤ (mget [] s.loam.outFifo k).length) then pinSend r i s
     else s)
/-- IO_OUTPUT_TOKEN_END (R422): the next token, or an underrun. -/
def execIoOutputTokenEnd (r i : Nat) (s : State) : Res :=
  runIf (wfIoOutputTokenEnd r i)
    (let k := pinKey r i
     if !pinOutputs s r i || !mget false s.loam.sending k then s
     else if !(mget [] s.loam.outFifo k).isEmpty then pinSend r i s
     else
       let b := LOAM_BANK_STATUS r
       let s := emit (.pinIdle r i (pinWord s r i / 2 ^ 16 % 4) (pinDrives s r i))
         (setLoam (fun l => { l with sending := mset false l.sending k false }) s)
       let s := satFld s (LOAM_BANK_CNT r) LOAM_BANK_CNT_UNDERRUNS 1
       let s := if flag s b LOAM_BANK_STATUS_UDR_VALID then s
         else setFld (setFld s b LOAM_BANK_STATUS_UDR_PIN i) b LOAM_BANK_STATUS_UDR_VALID 1
       if flag s (LOAM_BANK_CTRL r) LOAM_BANK_CTRL_LOG_UNDERRUN then logLimited 0x0708 (bankScope r) (rgnSrc r) none i s else s)
/-- IO_DELAY_SWAP (R423): the other delay line comes into use. -/
def execIoDelaySwap (r : Nat) (s : State) : Res :=
  runIf (wfIoDelaySwap r)
    (if flag s (LOAM_BANK_STATUS r) LOAM_BANK_STATUS_CAL_DONE then
      let n := fld s (LOAM_BANK_CTRL r) LOAM_BANK_CTRL_CAL_INTERVAL
      let s := advanceTo (mget 0 s.loam.swapAt r + (if n = 0 then 1 else n) * 10000000) s
      setLoam (fun l => { l with line := mset false l.line r (!mget false l.line r), swapAt := mset 0 l.swapAt r (paceTime s) }) s
     else s)
def clkField (c : Nat) : Fld := if c = 0 then LOAM_BANK_STATUS_CLK0_PRESENT else LOAM_BANK_STATUS_CLK1_PRESENT
/-- A released cell of the bank uses clock `c` (R424): OFF and LVL_IN cells do not. -/
def clockUsed (s : State) (r c : Nat) : Bool :=
  (List.range 24).any fun i => decide (pinMode s r i ≠ 0) && decide (pinMode s r i ≠ 5) && decide (pinWord s r i / 16 % 2 = c)
/-- IO_CLOCK_LOST (R424): for a clock that no released cell uses there is nothing to report, and presence clears. -/
def execIoClockLost (r c : Nat) (s : State) : Res :=
  runIf (wfIoClockLost r c)
    (if flag s (LOAM_BANK_STATUS r) (clkField c) then
      let s := setFld s (LOAM_BANK_STATUS r) (clkField c) 0
      if clockUsed s r c && mget false s.loam.driven r then logErr 0x0709 (rgnSrc r) none 0 s else s
     else s)
/-- IO_CLOCK_RETURN (R424). -/
def execIoClockReturn (r c : Nat) (s : State) : Res :=
  runIf (wfIoClockReturn r c) (wakePins r (setFld s (LOAM_BANK_STATUS r) (clkField c) 1))

/-! ### Lanes (R425–R430) -/

/-- Code errors in a received transfer (R426): 8B10B groups with bit 9 set, or an invalid 64B66B header. -/
def codeErrors (pcs c : Nat) (d : W64) : Nat :=
  match pcs with
  | 1 => ((List.range 4).filter fun i => bit1 d (16 * i + 9)).length
  | 2 => if c % 4 = 1 ∨ c % 4 = 2 then 0 else 1
  | _ => 0
/-- The scope of a lane in R596. -/
def laneScope (l : Nat) : Nat := 0x200 + l
/-- LANE_RX_TRANSFER (R426, R427): in RAW64 `d` are line bits, which RX_POL inverts; else what the line decodes to. -/
def execLaneRxTransfer (l c : Nat) (d : W64) (s : State) : Res :=
  runIf (wfLaneRxTransfer l c d)
    (let pcs := fld s (FL_CFG l) FL_CFG_PCS
     let held := flag s (FL_STATUS l) (if pcs = 0 then FL_STATUS_CDR_LOCK else FL_STATUS_BLOCK_LOCK)
     if !laneOn s l || !held then s
     else
       let d := if pcs ≠ 1 ∧ pcs ≠ 2 ∧ flag s (FL_CFG l) FL_CFG_RX_POL = true then ~~~d else d
       let s := satFld s (FL_ERRCNT l) FL_ERRCNT_CODE_ERRORS (codeErrors pcs c d)
       let q := mget [] s.loam.laneRx l
       if 8 ≤ q.length then
         logLimited 0x0707 (laneScope l) (rgnSrc (laneRegion s l)) none l (setFld s (FL_STATUS l) FL_STATUS_OVERRUN 1)
       else
         let t := (0, if pcs = 2 then c % 4 else 0) :: (List.range 4).map fun i => (i + 1, bitsOf d (16 * i) 16)
         move (siteKeys (laneSiteOf (laneRegion s l) (fld s (FL_CFG l) FL_CFG_PORT)))
           (setLoam (fun m => { m with laneRx := mset [] m.laneRx l (q ++ [t]) }) s))
/-- A transfer goes out on the line, with a pending injection (R430). -/
def laneSend (l c : Nat) (d : W64) (s : State) : State :=
  emit (.lane l c d (mget false s.loam.inject l) (flag s (FL_CFG l) FL_CFG_TX_POL))
    (setLoam (fun m => { m with inject := mset false m.inject l false }) s)
/-- The lane's line carries FL_IDLE (R427). -/
def laneIdle (l : Nat) (s : State) : State :=
  let w := rget s (FL_IDLE l)
  match fld s (FL_CFG l) FL_CFG_PCS with
  | 1 => laneSend l 0 (packW ((List.range 4).flatMap fun i =>
      [(bitsOf w (8 * i) 8, 16 * i), (fld s (FL_CFG l) FL_CFG_IDLE_K / 2 ^ i % 2, 16 * i + 8)])) s
  | 2 => laneSend l 2 w s
  | _ => laneSend l 0 w s
/-- LANE_TX_UNDERRUN (R427): the transmit FIFO is empty at a transfer boundary; or the region's fence is up, which is no underrun
(R453). -/
def execLaneTxUnderrun (l : Nat) (s : State) : Res :=
  runIf (wfLaneTxUnderrun l)
    (if flag s (FL_PRBS l) FL_PRBS_GEN_EN then s
     else if laneOn s l && (mget [] s.loam.laneTx l).isEmpty then laneIdle l (setFld s (FL_STATUS l) FL_STATUS_UNDERRUN 1)
     else if laneFenced s l then laneIdle l s
     else s)
/-- Exponents of the polynomial that POLY selects (R429). -/
def prbsTaps (poly : Nat) : Nat × Nat := match poly with
  | 0 => (7, 6)
  | 1 => (15, 14)
  | 2 => (23, 18)
  | _ => (31, 28)
/-- `n` more bits of the sequence after the bits `h`, the latest in bit 0. -/
def prbsBits (a b : Nat) : Nat → Nat → List Nat
  | 0, _ => []
  | n + 1, h =>
    let x := (h / 2 ^ (a - 1) + h / 2 ^ (b - 1)) % 2
    x :: prbsBits a b n (h * 2 % 2 ^ 31 + x)
/-- The generator sends its next 64 bits (R429); the bits that it starts from are free, but not all 0. -/
def prbsSend (l : Nat) (s : State) : State :=
  let (a, b) := prbsTaps (fld s (FL_PRBS l) FL_PRBS_POLY)
  let (h, s) := match mget 0 s.loam.lfsr l with
    | 0 => let f := freshValue s
      (f.1.toNat % 2 ^ 31, f.2)
    | h => (h, s)
  let h := if h % 2 ^ a = 0 then 1 else h
  let xs := prbsBits a b 64 h
  let w : W64 := packW (xs.zipIdx.map fun e => (e.1, e.2))
  let s := setLoam (fun m => { m with lfsr := mset 0 m.lfsr l (xs.foldl (fun h x => h * 2 % 2 ^ 31 + x) h) }) s
  emit (.prbs l (if flag s (FL_PRBS l) FL_PRBS_INVERT then ~~~w else w) (mget false s.loam.inject l) (flag s (FL_CFG l) FL_CFG_TX_POL))
    (setLoam (fun m => { m with inject := mset false m.inject l false }) s)
/-- LANE_TX_TRANSFER (R427, R429): the next transfer, or the next bits of the PRBS generator in its place. -/
def execLaneTxTransfer (l : Nat) (s : State) : Res :=
  runIf (wfLaneTxTransfer l)
    (if flag s (FL_PRBS l) FL_PRBS_GEN_EN then (if laneEn s l then prbsSend l s else s)
     else if laneFenced s l then laneIdle l s
     else if !laneOn s l then s
     else match mget [] s.loam.laneTx l with
       | (c, d) :: q =>
         let (r, j) := (laneRegion s l, fld s (FL_CFG l) FL_CFG_PORT)
         let s := laneSend l c d (setLoam (fun m => { m with laneTx := mset [] m.laneTx l q }) s)
         let s := laneGather r j s
         move (feeders s (laneSiteOf r j) [15, 16, 17, 18, 19]) s
       | [] => s)
/-- LANE_ADAPT_DONE (R428): the preset found goes to flash. -/
def execLaneAdaptDone (l : Nat) (preset : W64) (s : State) : Res :=
  runIf (wfLaneAdaptDone l preset)
    (if laneEn s l then
      setFld (setLoam (fun m => { m with presets := mset 0 m.presets l preset }) s) (FL_STATUS l) FL_STATUS_ADAPT_DONE 1
     else s)
/-- LANE_BLOCK_LOCK_GAINED (R426): RAW64 has no alignment, so CDR lock alone. -/
def execLaneBlockLockGained (l : Nat) (s : State) : Res :=
  runIf (wfLaneBlockLockGained l)
    (if laneEn s l then
      let pcs := fld s (FL_CFG l) FL_CFG_PCS
      setFld (setFld s (FL_STATUS l) FL_STATUS_CDR_LOCK 1) (FL_STATUS l) FL_STATUS_BLOCK_LOCK (if pcs = 1 ∨ pcs = 2 then 1 else 0)
     else s)
/-- LANE_LOCK_LOST (R428): of CDR or of block lock. -/
def execLaneLockLost (l : Nat) (cdr : Bool) (s : State) : Res :=
  runIf (wfLaneLockLost l cdr)
    (let q := FL_STATUS l
     if flag s q (if cdr then FL_STATUS_CDR_LOCK else FL_STATUS_BLOCK_LOCK) then
       let s := setFld (if cdr then setFld s q FL_STATUS_CDR_LOCK 0 else s) q FL_STATUS_BLOCK_LOCK 0
       logErr 0x070B (rgnSrc (laneRegion s l)) none 0 (setFld s q FL_STATUS_LOCK_LOST 1)
     else s)
/-- PRBS_LOCK_CHANGE (R429): `errs` are the wrong bits since the last change, counted while locked; 32 of them unlock. -/
def execPrbsLockChange (l : Nat) (lock : Bool) (errs : Nat) (s : State) : Res :=
  runIf (wfPrbsLockChange l lock errs)
    (if flag s (FL_PRBS l) FL_PRBS_CHK_EN then
      let held := flag s (FL_STATUS l) FL_STATUS_PRBS_LOCK
      let s := if held then satFld s (FL_ERRCNT l) FL_ERRCNT_PRBS_ERRORS errs else s
      if held && !lock && decide (errs < 32) then s else setFld s (FL_STATUS l) FL_STATUS_PRBS_LOCK (b2n lock)
     else s)
/-- INJECT (R430). -/
def execInject (m : Master) (l : Nat) (s : State) : Res :=
  runIf (wfInject m l)
    (byMaster m (FL_PRBS l) (fun s => if mayAdmin s m then setLoam (fun x => { x with inject := mset false x.inject l true }) s else s) s)
/-- PERIODIC_INJECTION (R430): one in the same instant as a written one inverts one bit. -/
def execPeriodicInjection (l : Nat) (s : State) : Res :=
  runIf (wfPeriodicInjection l)
    (if laneEn s l && decide (fld s (FL_PRBS l) FL_PRBS_INJ_PERIOD ≠ 0) then
      setLoam (fun x => { x with inject := mset false x.inject l true }) s
     else s)

end Sys2Proof.Machine
end

