-- ==== Sys2Proof/Machine/Resets.lean ====
section
/-!
DEFINITION. Resets and the boot (R13, R512–R514, R567, R583): what the always-on domain keeps, the power state compute off, the
steps of the boot, DEV_LIVE.
-/
namespace Sys2Proof.Machine
open Sys2Proof

/-! ### Reset domains (R13) -/

/-- The fields of `GLB_STATUS` that a device reset clears. -/
def clearStatus (s : State) : State :=
  [GLB_STATUS_COMPUTE_UP, GLB_STATUS_LPDDR_READY, GLB_STATUS_SHADOW_VALID, GLB_STATUS_HG_CAL, GLB_STATUS_CFG_DONE, GLB_STATUS_CFG_ERR,
    GLB_STATUS_DEV_LIVE, GLB_STATUS_EPOCH_ACTIVE].foldl (fun s f => setFld s GLB_STATUS f 0) s
/-- Pins and flash: what no reset touches. -/
def keepPins (s t : State) : State :=
  { t with
    pending := s.pending, free := s.free, out := s.out
    pace := { t.pace with inHigh := s.pace.inHigh }
    link := { t.link with presets := s.link.presets }
    host := { t.host with inReset := s.host.inReset }
    loam := { t.loam with vccio := s.loam.vccio, straps := s.loam.straps, presets := s.loam.presets }
    pwr := { t.pwr with saved := s.pwr.saved }
    mc := { t.mc with
      refLost := s.mc.refLost, cables := s.mc.cables, mcCtr := s.mc.mcCtr, ccCtr := s.mc.ccCtr, ownerCtr := s.mc.ownerCtr
      flash := s.mc.flash } }
/-- The compute side enters device reset (R13, R448): everything outside the always-on domain takes its reset state, pace time
starts at 0 again, links go down, ownership becomes none (R469). -/
def deviceReset (s : State) : State :=
  let t := keepPins s State.reset
  let t := { t with
    now := s.now
    csr := mkeep (fun o => decide (domainAt o = some .cold)) s.csr
    log := { t.log with fatalIdx := s.log.fatalIdx }
    pace := { t.pace with timeOff := -(s.now : Int) }
    pwr := { t.pwr with credit := s.pwr.credit, upSecs := s.pwr.upSecs, boostSecs := s.pwr.boostSecs, tripped := s.pwr.tripped }
    mc := { s.mc with held := true, ccSwitch := false } }
  securityState (setFld (clearStatus t) MC_STATUS MC_STATUS_CC_RUNNING 0)
/-- Cold reset (R13): everything but identity array, flash and pins. -/
def coldReset (s : State) : State := keepPins s State.reset
/-- The power state compute off (R549): the compute side keeps nothing; only a device reset leaves it (DESIGN CHOICE, log 40). -/
def computeOff (s : State) : State := setMc (fun m => { m with compOff := true }) (deviceReset s)

/-! ### DEV_LIVE (R511) -/

def devLive (s : State) : Bool :=
  flag s GLB_STATUS GLB_STATUS_COMPUTE_UP && flag s MC_STATUS MC_STATUS_CC_RUNNING && s.mc.hbAt.any fun t => decide (s.now < t + 5000000000)
/-- The pin and `GLB_STATUS.DEV_LIVE` follow. -/
def showLive (s : State) : State := setFld s GLB_STATUS GLB_STATUS_DEV_LIVE (b2n (devLive s))

/-! ### Boot (R512) -/

/-- The identity key is derived from the first helper copy that yields the device certificate's key (R520). -/
def deriveKey (s : State) : State :=
  let pub := flashRun s (0x1C00000 + 2 * 288 + 64) 96
  if [0, 1].any fun c => decide (Config.pufPublic (flashRun s (0x1C10000 + c * 0x8000) 0x8000) = pub) then
    setFld s MC_STATUS MC_STATUS_ID_KEY 1
  else logErr 0x0A05 0x03 none 0 (setFld s MC_STATUS MC_STATUS_ID_KEY 0)
/-- Copies that fail their check at a boot are logged (R514). -/
def logBadCopies (t : Nat) (s : State) : State :=
  [0, 1].foldl (fun s c => if copyOk s t c then s else logErr 0x0A01 0x03 none (t * 2 + c) s) s
/-- The MC firmware starts (R512 step 4): identity key, `MC_FW`, measurement 0, the owner record in force. -/
def runMc (s : State) : State :=
  let s := setFld s MC_STATUS MC_STATUS_STATE 1
  showLive (securityState (deriveKey (measureFw 0 s.mc.mcCopy (showFw 0 s))))
/-- The mask ROM chooses an MC copy, which runs when it has restarted, or enters recovery (R512 steps 2 and 3, R513). -/
def romMc (s : State) : State :=
  let s := setFld s GLB_STATUS GLB_STATUS_ID_VALID 1
  let s := rset s GLB_SERIAL Config.serial
  let s := setFld s GLB_ID GLB_ID_GRADE (if Config.industrial then 2 else 1)
  let s := setFld s GLB_RATES GLB_RATES_FLOOR (if Config.industrial then 880 else 900)
  let s := setMc (fun m => { m with eid := 0, tid := 0, eventRx := none, ccSwitch := false, busy := false }) s
  let s := logBadCopies 0 s
  match chooseCopy s 0 with
  | some c => setMc (fun m => { m with mcCopy := c }) (setFld s MC_STATUS MC_STATUS_STATE 3)
  | none =>
    let s := logErr 0x0A02 0x03 none 0 (setMc (fun m => { m with expired := false }) (setFld s MC_STATUS MC_STATUS_STATE 2))
    if s.mc.held then s else deviceReset s
/-- Mask ROM and MC firmware in one (R512 steps 2–4). -/
def bootMc (s : State) : State :=
  let t := romMc s
  if fld t MC_STATUS MC_STATUS_STATE = 3 then runMc t else t
/-- The MC starts the control cluster, or leaves it halted (R512 step 6, R514). -/
def bootCc (s : State) : State :=
  let s := logBadCopies 1 s
  match chooseCopy s 1 with
  | some c =>
    let s := setMc (fun m => { m with ccCopy := c }) (setFld s MC_STATUS MC_STATUS_CC_RUNNING 1)
    measureFw 1 c (showFw 1 s)
  | none => logErr 0x0A03 0x03 none 0 (setFld s MC_STATUS MC_STATUS_CC_RUNNING 0)

/-- What a core test found (R559, R560, R564); `now` in the test's order. -/
def applyFind (t : TestFind) (s : State) : State :=
  let cols (e m : Nat) (s : State) : State :=
    (List.range 8).foldl (fun s c => if Nat.testBit m c then columnFails t.core e c s else s) s
  let s := cols 1 t.e1 (cols 0 t.e0 s)
  let s := t.rows.foldl (fun s r => rowFails t.core r s) s
  if t.seq then retire t.core s else s
/-- The Shadow map is rebuilt from the start-up findings (R563, R567). -/
def startUp (f : StartUp) (s : State) : State :=
  let s := f.tests.foldl (fun s t => applyFind t s) s
  let s := setAvl (fun a => { a with
    hgFailed := f.hg.foldl (fun m h => mset false m h true) a.hgFailed
    thFailed := f.th.foldl (fun m h => mset false m h true) a.thFailed }) s
  let s := f.th.foldl (fun s _ => logErr 0x0B08 0x25 none 0 (setFld s PWR_EVENTS PWR_EVENTS_SENSOR_FAIL 1)) s
  let s := ((f.tests.map fun t => groupAt t.core).eraseDups).foldl (fun s g => placeGroup g s) s
  let s := setAvl (fun a => { a with moves := [] }) s
  setFld (shadowDigest (glbCores s)) GLB_STATUS GLB_STATUS_SHADOW_VALID 1
/-- Steps 5 and 6 of the boot: the compute side leaves device reset (R512). -/
def release (f : StartUp) (s : State) : State :=
  if !s.mc.pwrGood || !s.mc.held || s.mc.compOff || s.mc.refLost || decide (fld s MC_STATUS MC_STATUS_STATE ≠ 1) then s
  else
    let s := setMc (fun m => { m with held := false }) { s with pwr := { s.pwr with tripped := false } }
    bootCc (startUp f s)

end Sys2Proof.Machine
end

