-- ==== Sys2Proof/Machine/EpochRows.lean ====
section
/-!
DEFINITION. The rows of an epoch (R29–R32, R109, R110, R194).
-/
namespace Sys2Proof.Machine
open Sys2Proof

def epochRefused (s : State) : State := setFld s GLB_EPOCH_CTRL GLB_EPOCH_CTRL_REFUSED 1
/-- The control processors and the owning host write the epoch registers (R32). -/
def mayEpoch (s : State) (m : Master) : Bool := isSupervisor m || isOwner s m
/-- Committed plots that the register names. -/
def namedPlots (s : State) : List Nat := (List.range 64).filter fun p => bit1 (rget s GLB_EPOCH_PLOTS) p && plotValid s p
/-- A core of a plot that takes part. -/
def inEpoch (s : State) (u : Nat) : Bool := (plotOf s u).any s.avl.epochIn.contains
/-- Every context of the plot's cores is HALTED, FAULTED or UNLOADED. -/
def plotHalted (s : State) (p : Nat) : Bool := s.core.ctxs.all fun e =>
  !(unitIn s p (e.1 / 8) && (decide (e.2.st = .ready) || decide (e.2.st = .waiting)))

/-- EPOCH_START (R31 step 1, R32). -/
def execEpochStart (m : Master) (s : State) : Res :=
  runIf (wfEpochStart m)
    (byMaster m GLB_EPOCH_CTRL (fun s => 
     if !mayEpoch s m then s
     else if epochOn s || (namedPlots s).isEmpty then epochRefused s
     else
       startEpoch (namedPlots s) s) s)
/-- A context halted at a program boundary goes on there (R110). -/
def endHalt (x : Ctx) : Ctx := if x.st = .halted ∧ x.cause = 3 then { x with st := .ready, cause := 0, reason := 0 } else x
/-- The epoch ends: halts are cancelled and contexts resume, its fences fall (R31, R32, R110). -/
def epochFinish (s : State) : State :=
  let s := { s with core := { s.core with ctxs := mmap Ctx.unloaded (fun k => inEpoch s (k / 8)) endHalt s.core.ctxs } }
  let s := s.avl.epochFence.foldl (fun s p => setFld s (PLOT_STATUS p) PLOT_STATUS_FENCED 0) s
  let s := s.avl.epochIn.foldl (fun s p => if fld s (PLOT_STATUS p) PLOT_STATUS_STATE = 3 then
    setFld s (PLOT_STATUS p) PLOT_STATUS_STATE 2 else s) s
  let s := { s with avl := { s.avl with epochIn := [], epochLate := [], epochFence := [], epochEnd := false } }
  toStep 0 (setFld s GLB_STATUS GLB_STATUS_EPOCH_ACTIVE 0)
/-- The loader is committing or releasing an image for a plot of the epoch: an END waits (R32). -/
def loadBusy (s : State) : Bool :=
  let st := fld s LOAD_STATUS LOAD_STATUS_STATE
  (decide (st = 4) || decide (st = 5)) && (List.range 64).any fun p => Nat.testBit s.load.plots p && bit1 (rget s GLB_EPOCH_PLOTS) p
/-- An END takes effect once nothing holds it; step 6 begins with it once step 5 has been reached (R31, R32). -/
def epochSettle (s : State) : State :=
  if !s.avl.epochEnd || !epochOn s || decide (epochStep s = 4) then s
  else if loadBusy s then (if epochStep s = 5 then toStep 6 s else s)
  else epochFinish s
/-- EPOCH_END (R32). -/
def execEpochEnd (m : Master) (s : State) : Res :=
  runIf (wfEpochEnd m)
    (byMaster m GLB_EPOCH_CTRL (fun s => 
     if !mayEpoch s m then s
     else if !epochOn s then epochRefused s
     else epochSettle { s with avl := { s.avl with epochEnd := true } }) s)
/-- EPOCH_TIMEOUT (R31): the control cluster reports it. -/
def execEpochTimeout (p : Nat) (s : State) : Res :=
  runIf (wfEpochTimeout p)
    (let n := fld s (PLOT_CFG p) PLOT_CFG_PATIENCE
     if epochOn s && decide (epochStep s = 2) && s.avl.epochIn.contains p && !s.avl.epochLate.contains p && decide (n ≠ 0) &&
         decide (s.avl.epochFrom + n ≤ s.log.glints) && !plotHalted s p then
       logErr 0x0C03 0x10 (some p) 0 (setFld { s with avl := { s.avl with epochLate := p :: s.avl.epochLate } }
         GLB_EPOCH_CTRL GLB_EPOCH_CTRL_TIMEOUT 1)
     else s)
/-- EPOCH_HALTED (R31 step 2). -/
def execEpochHalted (s : State) : Res :=
  runIf wfEpochHalted
    (if epochOn s && decide (epochStep s = 2) && s.avl.epochIn.all (plotHalted s) then toStep 3 s else s)
/-- Engines hold no command, no access is outstanding and no token waits on the plots that take part (R31 step 3, R194). -/
def epochDry (s : State) : Bool :=
  (s.core.engines.all fun e => !inEpoch s (e.1 / 2) || e.2.isEmpty) && (s.core.reqs.all fun r => !inEpoch s r.u) &&
    (s.strm.tokens.all fun q => !inEpoch s q.u) && (s.strm.branch.all fun q => !inEpoch s q.u)
/-- The fence rises around the plots of the epoch, and meets the streams of plots outside it (R31, R326; DEDUCED, log 49). -/
def epochFences (s : State) : State :=
  let ps := s.avl.epochIn
  let marks := ((ps.flatMap (fenceMeets s)).filter fun e => !inEpoch s e.1).eraseDups
  let s := ps.foldl (fun s p => setFld s (PLOT_STATUS p) PLOT_STATUS_FENCED 1)
    { s with avl := { s.avl with epochFence := ps.filter fun p => !flag s (PLOT_STATUS p) PLOT_STATUS_FENCED } }
  { s with strm := { s.strm with markers := s.strm.markers ++ marks } }
/-- EPOCH_DRAINED (R31 step 3). -/
def execEpochDrained (s : State) : Res :=
  runIf wfEpochDrained
    (if epochOn s && decide (epochStep s = 3) && epochDry s then toStep 4 (epochFences s) else s)
/-- Groups with committed plots, all of which take part (R29, R31). -/
def epochGroups (s : State) : List Nat := (List.range 1024).filter fun g =>
  let ps := groupPlots s g
  !ps.isEmpty && ps.all s.avl.epochIn.contains
/-- EPOCH_SPARES_MOVED (R31 step 4, R563, R564, R568). -/
def execEpochSparesMoved (s : State) : Res :=
  runIf wfEpochSparesMoved
    (if epochOn s && decide (epochStep s = 4) then
      let s := repairRows (fun ph => (plotAt s ph).any s.avl.epochIn.contains) s
      let s := (epochGroups s).foldl (fun s g => moveSpare g (designate s g) s) s
      let s := if s.mc.ccSwitch then ccSwitchNow s else s
      epochSettle (toStep 5 (shadowDigest (glbCores s)))
    else s)

end Sys2Proof.Machine
end

