-- ==== Sys2Proof/Machine/CyustOps.lean ====
section
/-!
DEFINITION. Cyust (chapter 18): the topology and default routes, ports going up and down, route switches, requests for other
modules, the stream gateway.
-/
namespace Sys2Proof.Machine
open Sys2Proof

/-! ### Topology (R496, R497); modules are numbered group × 64 + module -/

def planes (s : State) : Nat := 2 ^ fld s CYUST_TOPO CYUST_TOPO_ZDIM
/-- Groups of the group ring; 1 where there is none. -/
def ringGroups (s : State) : Nat := if fld s CYUST_TOPO CYUST_TOPO_AUX = 1 then fld s CYUST_TOPO CYUST_TOPO_GROUPS + 1 else 1
def selfIdx (s : State) : Nat := groupIdx s * 64 + moduleIdx s
/-- Rings of the torus: the port toward larger coordinates, the length, the place of a module. -/
def rings (s : State) (i : Nat) : List (Nat × Nat × Nat) :=
  [(0, 4, i % 4), (2, 4, i / 4 % 4), (4, planes s, i % 64 / 16), (6, ringGroups s, i / 64)]
/-- Steps from `a` to `b` upward in a ring of `n`. -/
def upward (n a b : Nat) : Nat := (b + n - a) % n
/-- Dimensions in which two modules differ: upward port, upward and downward steps. -/
def differ (s : State) (i j : Nat) : List (Nat × Nat × Nat) :=
  ((rings s i).zip (rings s j)).filterMap fun e =>
    if e.1.2.2 = e.2.2.2 then none
    else some (e.1.1, upward e.1.2.1 e.1.2.2 e.2.2.2, upward e.1.2.1 e.2.2.2 e.1.2.2)
/-- The torus holds the module. -/
def inDomain (s : State) (i : Nat) : Bool := decide (i % 64 / 16 < planes s) && decide (i / 64 < ringGroups s)
/-- Hops between two modules. -/
def hopsBetween (s : State) (i j : Nat) : Nat := ((differ s i j).map fun d => min d.2.1 d.2.2).foldl (· + ·) 0
/-- The module reached from `i` by torus port `p`, and its port (R496). -/
def peerOf (s : State) (i p : Nat) : Option (Nat × Nat) :=
  let dim := p / 2
  match (rings s i)[dim]? with
  | none => none
  | some (_, n, a) =>
    if n < 2 then none
    else
      let b := if p % 2 = 0 then (a + 1) % n else (a + n - 1) % n
      let step := [1, 4, 16, 64].getD dim 0
      some (i + b * step - a * step, if p % 2 = 0 then p + 1 else p - 1)
/-- The neighbour that a port of this module must have: its number, its port where one is required; none: no link. -/
def expected (s : State) (p : Nat) : Option (Nat × Option Nat) :=
  if 6 ≤ p ∧ fld s CYUST_TOPO CYUST_TOPO_AUX = 2 then
    some (fld s (CYUST_PORT_CTRL p) CYUST_PORT_CTRL_PEER_GROUP * 64 + fld s (CYUST_PORT_CTRL p) CYUST_PORT_CTRL_PEER_MODULE, none)
  else (peerOf s (selfIdx s) p).map fun e => (e.1, some e.2)

/-- The default route towards module `j` (R497). -/
def defaultRoute (s : State) (j : Nat) : W64 :=
  let i := selfIdx s
  let port (d : Nat × Nat × Nat) : Nat := if d.2.1 ≤ d.2.2 then d.1 else d.1 + 1
  let h := hopsBetween s i j
  if !inDomain s j then 0
  else match differ s i j with
    | [] => 0
    | [d] =>
      packW [(port d, 0), (if d.2.1 ≤ d.2.2 then d.1 + 1 else d.1, 4), (1, 7), (h, 8), (h - min d.2.1 d.2.2 + max d.2.1 d.2.2, 12)]
    | d :: e :: _ => packW [(port d, 0), (port e, 4), (1, 7), (h, 8), (h, 12)]

/-- `CYUST_STATUS.REACHABLE` follows the ABSENT bits (R501). -/
def countReachable (s : State) : State :=
  let n := 16 * planes s * (fld s CYUST_TOPO CYUST_TOPO_GROUPS + 1)
  let gone := (listedRegs s 0x41000 8 512 0).filter fun i => flag s (CYUST_RT i) CYUST_RT_ABSENT
  setFld s CYUST_STATUS CYUST_STATUS_REACHABLE (n - gone.length)

/-! ### Ports (R490–R500) -/

def portSrc (p : Nat) : Nat := 0x300 + p
def portState (s : State) (p : Nat) : Nat := fld s (CYUST_PORT_STATUS p) CYUST_PORT_STATUS_STATE
/-- A port takes a state; the Shadow map shows whether it is DOWN (R568). -/
def setPortState (p st : Nat) (s : State) : State :=
  let t := setFld s (CYUST_PORT_STATUS p) CYUST_PORT_STATUS_STATE st
  if decide (portState s p = 1) = decide (st = 1) then t else shadowGen t
/-- UP or IDLE: up for routing (R495). -/
def portUp (s : State) (p : Nat) : Bool := decide (portState s p = 3) || decide (portState s p = 4)
def upPorts (s : State) : List Nat := (List.range 8).filter (portUp s)
def setLink (f : LinkSt → LinkSt) (s : State) : State := { s with link := f s.link }

/-! ### Blocks and codewords (R484–R486, R493)

A codeword of 544 symbols takes 6.4 ns on the line, 64 units of time. -/

/-- TYPE of the control block that a message is or begins with (R486). -/
def blockType (b : LinkBlock) : Nat :=
  match b with
  | .marker _ => 0x4B
  | .keepAlive _ => 0x4B
  | .pkt _ _ _ _ _ _ => 0x33
  | .pktCredit _ _ _ => 0x2D
  | .token _ _ _ _ _ _ _ => 0x36
  | .credit _ _ _ => 0x2D
  | .replay _ => 0x66
  | .lane _ _ _ => 0x55
  | .idleEntry => 0x55
  | .farLoop => 0x55
  | .test => 0x1E
/-- The TYPEs that there are. -/
def knownTypes : List Nat := [0x1E, 0x2D, 0x33, 0x36, 0x4B, 0x55, 0x66, 0x69, 0x78]
/-- A received block has a valid header (R485): data, or control of a known TYPE (R486). -/
def headValid (h : Nat × Nat) : Bool := decide (h.1 = 1) || decide (h.1 = 2) && knownTypes.contains h.2
/-- The codeword that the port sends now. -/
def cwNow (s : State) (p : Nat) : Nat := (s.now - mget 0 s.link.upAt p) / 64
/-- The lane that carries symbol `i` of a codeword (R484): lanes 0–7 in turn, or the spare in the place of one (R494). -/
def symbolLane (s : State) (p i : Nat) : Nat :=
  let l := i % 8
  let r := CYUST_PORT_STATUS p
  if mget 0 s.link.swap p = l + 1 ∨ (flag s r CYUST_PORT_STATUS_SPARE_USED = true ∧ fld s r CYUST_PORT_STATUS_SPARE_FOR = l) then 8 else l
/-- A packet or stream block passes a port. -/
def portUsed (p : Nat) (s : State) : State := setLink (fun l => { l with quietAt := mset 0 l.quietAt p (paceTime s) }) s
/-- The 130-bit blocks that a message takes: data blocks follow PKT and STRM, two for each flit or token (R486). -/
def blockCount (b : LinkBlock) : Nat :=
  match b with
  | .pkt _ _ _ n _ _ => 1 + 2 * n
  | .token _ _ _ data _ _ _ => 1 + 2 * ((data.length + 31) / 32)
  | _ => 1
/-- Blocks leave the port. -/
def emitBlock (p : Nat) (b : LinkBlock) (s : State) : State := emit (.link p b) (bumpCtr (80 + 8 * p) (blockCount b) s)
/-- Blocks come in. -/
def gotBlocks (p n : Nat) (s : State) : State := bumpCtr (81 + 8 * p) n s
/-- A block goes out, and stays in the replay buffer for 256 codewords (R493). -/
def putBlock (p : Nat) (b : LinkBlock) (s : State) : State :=
  let s := if blockType b = 0x33 ∨ blockType b = 0x36 then portUsed p s else s
  let keep (e : SentBlock) : Bool := decide (e.port ≠ p) || decide (cwNow s p < e.cw + 256)
  emitBlock p b (setLink (fun l => { l with buffer := l.buffer.filter keep ++ [⟨p, cwNow s p, b⟩] }) s)
/-- A block for a port; one for a port in electrical idle waits while it wakes (R346, R495). -/
def sendBlock (p : Nat) (b : LinkBlock) (s : State) : State :=
  if portState s p = 4 then setLink (fun l => { l with idleQ := l.idleQ ++ [(p, b)] }) s else putBlock p b s

/-- Entries whose PRIMARY is port `p`. -/
def routesBy (s : State) (p : Nat) : List Nat :=
  (listedRegs s 0x41000 8 512 0).filter fun i => decide (fld s (CYUST_RT i) CYUST_RT_PRIMARY = p)
/-- PRIMARY `p` has gone down: entries that have an alternate switch, logged once (R499). -/
def reroute (p : Nat) (s : State) : State :=
  let es := (routesBy s p).filter fun i => flag s (CYUST_RT i) CYUST_RT_A_VALID && !flag s (CYUST_RT i) CYUST_RT_USE_ALT
  let s := es.foldl (fun s i => setFld s (CYUST_RT i) CYUST_RT_USE_ALT 1) s
  if es.isEmpty then s else logErr 0x0906 (portSrc p) none 0 s
/-- PRIMARY `p` is up again (R499). -/
def routeBack (p : Nat) (s : State) : State :=
  (routesBy s p).foldl (fun s i => setFld s (CYUST_RT i) CYUST_RT_USE_ALT 0) s

/-- The neighbour's buffer has room for `n` more flits of VC `vc` (R498). -/
def flitKey (p vc cls : Nat) : Nat := p * 8 + vc * 2 + cls
def flitRoom (s : State) (p vc cls n : Nat) : Bool := decide (mget 0 s.link.flits (flitKey p vc cls) + n ≤ 32)
def takeFlits (p vc cls n : Nat) (s : State) : State :=
  bumpCtr (85 + 8 * p) n (setLink (fun l => { l with flits := mset 0 l.flits (flitKey p vc cls) (mget 0 l.flits (flitKey p vc cls) + n) }) s)
/-- Dateline class of the hop from this module by torus port `p` (R498). -/
def hopClass (s : State) (p : Nat) : Nat :=
  match (rings s (selfIdx s))[p / 2]? with
  | some (_, n, a) => if n = 4 ∧ ((p % 2 = 0 ∧ a = 3) ∨ (p % 2 = 1 ∧ a = 0)) then 1 else 0
  | none => 0

/-! ### Packets for other modules (R498, R499, R504) -/

/-- The port by which a packet leaves; none: it is discarded (R499). -/
def outPort (s : State) (e : OutPkt) : Option Nat :=
  match (if e.detour then some (fld s (CYUST_RT e.dst) CYUST_RT_PRIMARY) else routePort s e.dst) with
  | some q => if portUp s q then some q else none
  | none => none
/-- The dateline class in which it leaves: it goes on in its class within a ring, and starts in 0 in another (R498). -/
def outClass (s : State) (e : OutPkt) (q : Nat) : Nat := if e.from_ < 8 ∧ e.from_ / 2 = q / 2 ∧ e.cls = 1 then 1 else hopClass s q
/-- The packet can leave now, or is discarded. -/
def canLeave (s : State) (e : OutPkt) : Bool :=
  match outPort s e with
  | some q => decide (portState s q = 3) && flitRoom s q e.vc (outClass s e q) e.n
  | none => true
/-- VC3, VC1 and VC2 go before VC0 (R504). -/
def vcRank (v : Nat) : Nat := [3, 1, 2, 0].getD v 3
/-- The packet that goes next: the first of its port, VC and class that can leave, of the first VC, with the earliest stamp. -/
def nextOut (s : State) : Option OutPkt :=
  let heads := s.link.outq.zipIdx.filter fun e => !(s.link.outq.take e.2).any fun f =>
    decide (f.from_ = e.1.from_) && decide (f.vc = e.1.vc) && decide (f.cls = e.1.cls)
  ((heads.map (·.1)).filter (canLeave s)).foldl (fun b e => match b with
    | none => some e
    | some f => if vcRank e.vc < vcRank f.vc ∨ (vcRank e.vc = vcRank f.vc ∧ stampBefore e.stamp f.stamp = true) then some e else some f) none
/-- A packet leaves the buffer that it held; its credit goes back (R498). -/
def passOut (e : OutPkt) (s : State) : State :=
  let s := setLink (fun l => { l with outq := l.outq.erase e }) s
  let s := match outPort s e with
    | some q =>
      let c := outClass s e q
      sendBlock q (.pkt e.dst e.vc c e.n (e.detour || flag s (CYUST_RT e.dst) CYUST_RT_USE_ALT) e.c) (takeFlits q e.vc c e.n s)
    | none => s
  if e.from_ < 8 ∧ portUp s e.from_ = true then sendBlock e.from_ (.pktCredit e.vc e.cls e.n) s else s
/-- Packets leave while one can. -/
def drainOut : Nat → State → State
  | 0, s => s
  | n + 1, s => match nextOut s with
    | some e => drainOut n (passOut e s)
    | none => s
def movePkts (s : State) : State := drainOut s.link.outq.length s
def sendPacket (e : OutPkt) (s : State) : State := movePkts (setLink (fun l => { l with outq := l.outq ++ [e] }) s)
/-- A packet of this module. -/
def ownPkt (s : State) (dst vc n : Nat) (c : PktOut) : OutPkt := ⟨8, dst, vc, 0, n, now10 s, false, c⟩

/-- Tokens still in a port's replay buffer: those of the last 256 codewords of 6.4 ns (R493; DEDUCED, log 29). -/
def inReplay (s : State) : List Replay := s.link.replay.filter fun r => decide (paceTime s < r.time + 16384)
/-- A channel halts for good: tokens of its stream are lost (R505). -/
def haltLost (u ch pos : Nat) (s : State) : State := updChan (chanHalt u ch 0x0401 pos 0 s) u ch fun x => { x with lost := decide (x.st = 3) }
/-- The channels of a stream whose tokens a down port held halt with 0x0401, and the credit that they had is void (R505). -/
def replayLost (p : Nat) (s : State) : State :=
  let mine := (inReplay s).filter fun r => decide (r.port = p)
  let keys := (mine.map fun r => (r.row, r.link)).eraseDups
  let s1 := setLink (fun l => { l with replay := (inReplay s).filter fun r => decide (r.port ≠ p) }) s
  keys.foldl (fun s k =>
    match routeSender s (k.1 * 128 + 127) k.2 with
    | some (u, ch) =>
      let lost := ((mine.filter fun r => decide ((r.row, r.link) = k)).map (·.bytes)).foldl (· + ·) 0
      let v := k.1 * 128 + 127
      haltLost u ch ((chan s u ch).drained - lost) { s with strm := { s.strm with
        gwCredit := mset 0 s.strm.gwCredit (k.1 * 4096 + k.2) (fwdOf s v 1 k.2) } }
    | none => s) s1
/-- Bytes that an inbound stream has brought as far as the column-127 core of its row. -/
def gwGiven (s : State) (row link : Nat) : Nat :=
  ((List.range 6).map fun b => fwdOf s (row * 128 + 127) b link).foldl max 0
/-- Receivers of inbound streams whose tokens were lost with the port (R505). -/
def inboundLost (links : List Nat) (s : State) : State :=
  (listedRegs s 0x44000 8 1024 0).foldl (fun s i =>
    let r := CYUST_GW i
    if flag s r CYUST_GW_VALID && flag s r CYUST_GW_DIR && links.contains (fld s r CYUST_GW_LINK_ID) then
      let row := fld s r CYUST_GW_ROW
      let link := fld s r CYUST_GW_LINK_ID
      let s := setLink (fun l => { l with gwTold := mset 0 l.gwTold (row * 4096 + link) (gwGiven s row link) }) s
      (routeReceivers s (row * 128 + 127) link).foldl (fun s e =>
        haltLost e.1 e.2 ((chan s e.1 e.2).acc + spilled (chan s e.1 e.2)) s) s
    else s) s

/-- A module notes since when every path to its master has been down; a path that is up again ends that (R70). -/
def pacePaths (s : State) : State :=
  let i := fld s PACE_MASTER PACE_MASTER_GROUP * 64 + fld s PACE_MASTER PACE_MASTER_MODULE
  let r := CYUST_RT i
  let down := flag s r CYUST_RT_ABSENT ||
    (!portUp s (fld s r CYUST_RT_PRIMARY) && !(flag s r CYUST_RT_A_VALID && portUp s (fld s r CYUST_RT_ALT)))
  let since := if down && flag s PACE_MASTER PACE_MASTER_VALID then some (s.pace.pathsDown.getD (paceTime s)) else none
  { s with pace := { s.pace with pathsDown := since } }
/-! ### Requests for other modules (R36, R37, R361, R501) -/

/-- The other module that a part of a request goes to. -/
def remoteDest (s : State) (r : Req) (p : Part) : Option Nat :=
  match syncRef r.op with
  | some v => if refLocal s v then none else some (idxOfRef (refModule v))
  | none =>
    if 0 < p.n ∧ 0x40 ≤ selOf p.addr ∧ selOf p.addr ≤ 0x7F ∧ !isLocalDram s (selOf p.addr) then
      some (groupIdx s * 64 + (selOf p.addr - 0x40))
    else none
/-- A request part is out on Cyust. -/
def isSent (s : State) (tag i : Nat) : Bool := s.link.sent.any fun e => decide (e.tag = tag) && decide (e.part = i)
/-- An open part for another module whose turn has come. -/
def remotePart (s : State) (tag i : Nat) : Option (Req × Part × Nat) :=
  match findReq s tag with
  | none => none
  | some r => match openAt s r i with
    | none => none
    | some p => match remoteDest s r p with
      | none => none
      | some d =>
        if isSent s tag i || waitServed s tag || s.sync.retry.any (fun e => decide (e.1 = tag)) then none
        else if (syncRef r.op).isSome then
          (if (msgReq s tag).isSome && (storesDone s r || !(match r.op with
              | .syncAdd _ _ => true
              | .syncSet _ _ => true
              | _ => false)) then some (r, p, d) else none)
        else if inOrder s r p then some (r, p, d) else none
def unsent (tag i : Nat) (s : State) : State :=
  setLink (fun l => { l with sent := l.sent.filter fun e => !(decide (e.tag = tag) && decide (e.part = i)) }) s
/-- An answer of another module reaches a part of a request (R361, R501). -/
def remoteAnswer (tag i : Nat) (a : RemoteAns) (s : State) : State :=
  match findReq s tag with
  | none => unsent tag i s
  | some r =>
    let s := unsent tag i s
    let code := match a with
      | .status v => v
      | .failed c => c
      | _ => 0
    match r.op with
    | .syncWait _ _ => if a = .full then
        retryLater tag (setNet (fun w => { w with arrived := w.arrived.filter fun c => decide (c ≠ .req tag i) }) s)
      else { s with sync := { s.sync with wakes := s.sync.wakes ++ [(tag, BitVec.ofNat 64 code)] } }
    | .syncTest _ _ => answerOp tag (.test (match a with
      | .status v => decide (v ≠ 0)
      | _ => false)) s
    | .syncAdd _ _ => answerOp tag (.status (BitVec.ofNat 64 code)) s
    | .syncSet _ _ => answerOp tag (.status (BitVec.ofNat 64 code)) s
    | _ => match a with
      | .data d bad => (match (r.parts[i]?).map (·.addr) with
        | some x => answerPart tag i (.bytes d (badAddrs x bad)) s
        | none => s)
      | .status _ => answerPart tag i (.status 0) s
      | .failed c => answerPart tag i (.failed c) s
      | .full => s
/-- The part cannot reach its module (R37, R361). -/
def unreachable (tag i : Nat) (s : State) : State := remoteAnswer tag i (.failed 0x0401) s
/-- Payload flits of a request part (R336). -/
def partFlits (r : Req) (p : Part) : Nat :=
  match r.op with
  | .store _ _ _ => (p.n + 31) / 32
  | _ => 0
/-- The request reaches the Cyust port of its route: answered at once where the module is ABSENT, or, for a synchronisation operation,
the port is down (R37, R361); another is lost where the port is down (R499, R501); else sent with credit (R498). -/
def sendRemote (r : Req) (p : Part) (i d : Nat) (s : State) : State :=
  match routePort s d with
  | none => unreachable r.tag i s
  | some q =>
    let out (s : State) : State := setLink (fun l => { l with sent := l.sent ++ [⟨r.tag, i, q, paceTime s⟩] }) s
    if !portUp s q then (if (syncRef r.op).isSome then unreachable r.tag i s else out s)
    else
      let n := 1 + partFlits r p
      let cls := hopClass s q
      if portState s q ≠ 3 ∨ !flitRoom s q 0 cls n then s
      else sendBlock q (.pkt d 0 cls n (flag s (CYUST_RT d) CYUST_RT_USE_ALT) (.request r.tag i)) (takeFlits q 0 cls n (out s))

/-- A module has become ABSENT (R501): what waits for it is answered, its waiters here go (R361). -/
def absentGone (i : Nat) (s : State) : State :=
  let mine := s.sync.waiters.filter fun w => w.tag.isNone && decide (idxOfRef w.remote = i)
  let s := { s with sync := { s.sync with waiters := s.sync.waiters.filter fun w => !mine.contains w } }
  let s := mine.foldl (fun s w => syncCount w.obj s) s
  let waits := s.link.sent.filter fun e => (findReq s e.tag).any fun r => (match r.op with
    | .syncWait v _ => decide (idxOfRef (refModule v) = i)
    | _ => false)
  waits.foldl (fun s e => unreachable e.tag e.part s) s
/-- Module `i` is marked ABSENT (R501). -/
def markAbsent (i : Nat) (s : State) : State :=
  if flag s (CYUST_RT i) CYUST_RT_ABSENT then s
  else absentGone i (logErr 0x0907 0x10 none 0 (countReachable (setFld s (CYUST_RT i) CYUST_RT_ABSENT 1)))

/-- The module that a synchronisation operation out on Cyust went to. -/
def sentTo (s : State) (tag : Nat) : Option Nat := ((findReq s tag).bind fun r => syncRef r.op).map fun v => idxOfRef (refModule v)
/-- The path to module `i` has failed: ABSENT, or no port of its route is up (R361). -/
def pathDown (s : State) (i : Nat) : Bool :=
  match routePort s i with
  | some q => !portUp s q
  | none => true
/-- Synchronisation operations whose path has failed are answered with 0x0401, registered waiters woken with it (R361). -/
def pathsFailed (s : State) : State :=
  (s.link.sent.filter fun e => (sentTo s e.tag).any (pathDown s)).foldl (fun s e => unreachable e.tag e.part s) s
/-! ### Ports that leave -/

/-- A port that was UP or IDLE stops carrying traffic: state `st`, its neighbour no longer valid, routes switched. -/
def portLeaves (p st : Nat) (s : State) : State :=
  let was := portUp s p
  let r := CYUST_PORT_STATUS p
  let s := setFld (setFld (setFld (setFld (setPortState p st s) r CYUST_PORT_STATUS_NBR_MODULE 0) r CYUST_PORT_STATUS_NBR_GROUP 0)
    r CYUST_PORT_STATUS_NBR_PORT 0) r CYUST_PORT_STATUS_NBR_VALID 0
  let s := setFld s CYUST_STATUS ⟨0, p, 1⟩ 0
  let s := setLink (fun l => { l with
    lostAt := mset 0 l.lostAt p 0, swap := mset 0 l.swap p 0, rotate := mset 0 l.rotate p 0
    flits := mkeep (fun k => decide (k / 8 ≠ p)) l.flits
    buffer := l.buffer.filter fun e => decide (e.port ≠ p), idleQ := l.idleQ.filter fun e => decide (e.1 ≠ p) }) s
  if was then movePkts <| pathsFailed (pacePaths (reroute p (replayLost p s))) else s
/-- The link of module `i` at its port `far` is known to be down: once all of its links are, firmware marks it ABSENT (R501). -/
def noticed (i far : Nat) (s : State) : State :=
  let s := setLink (fun l => { l with notices := mset false l.notices (i * 8 + far) true }) s
  let links := (List.range 8).filter fun q => (peerOf s i q).isSome
  if i ≠ selfIdx s ∧ inDomain s i ∧ links.all fun q => mget false s.link.notices (i * 8 + q) then pacePaths (markAbsent i s)
  else s
/-- The port goes DOWN (R491); its own notice counts as well. -/
def portDown (p : Nat) (lost : List Nat) (s : State) : State :=
  let r := CYUST_PORT_STATUS p
  let valid := flag s r CYUST_PORT_STATUS_NBR_VALID
  let (m, g, q) := (fld s r CYUST_PORT_STATUS_NBR_MODULE, fld s r CYUST_PORT_STATUS_NBR_GROUP, fld s r CYUST_PORT_STATUS_NBR_PORT)
  let s := inboundLost lost (portLeaves p 1 s)
  let s := logErr 0x0901 (portSrc p) none 0 (satFld s (CYUST_PORT_ERR p) CYUST_PORT_ERR_DOWNS 1)
  let all := (List.range 512).filter fun i => decide (i ≠ selfIdx s) && inDomain s i
  let s := movePkts (setLink (fun l => { l with outq := l.outq ++ all.map fun i => ownPkt s i 3 1 (.downNotice p m g q) }) s)
  if valid then noticed (g * 64 + m) q s else s

/-! ### The stream gateway (R503, R504) -/

def gwFind (s : State) (f : Nat → Bool) : Option Nat :=
  (listedRegs s 0x44000 8 1024 0).find? fun i => flag s (CYUST_GW i) CYUST_GW_VALID && f (CYUST_GW i)
def gwPeer (s : State) (r : Nat) : Nat := fld s r CYUST_GW_DGROUP * 64 + fld s r CYUST_GW_DMODULE
/-- The outbound entry of a row and identity. -/
def gwOutEntry (s : State) (row link : Nat) : Option Nat :=
  gwFind s fun r => !flag s r CYUST_GW_DIR && decide (fld s r CYUST_GW_ROW = row) && decide (fld s r CYUST_GW_LINK_ID = link)
/-- The inbound entry of an identity and source module. -/
def gwInEntry (s : State) (src link : Nat) : Option Nat :=
  gwFind s fun r => flag s r CYUST_GW_DIR && decide (fld s r CYUST_GW_LINK_ID = link) && decide (gwPeer s r = src)

/-- CREDIT_RETURN, with the credit that an inbound stream owes its module (R312, R504). -/
def creditOut (u ch : Nat) (s : State) : State :=
  let s := creditReturn u ch s
  let link := sLink (chan s u ch).desc
  let root := routeRoot s link routeFuel u
  match (if colOf root = 127 then gwFind s fun r => flag s r CYUST_GW_DIR && decide (fld s r CYUST_GW_LINK_ID = link) &&
      decide (fld s r CYUST_GW_ROW = rowOf root) else none) with
  | none => s
  | some i =>
    let k := rowOf root * 4096 + link
    let total := creditBelow s false link routeFuel root 1
    let told := mget 0 s.link.gwTold k
    let peer := gwPeer s (CYUST_GW i)
    match routePort s peer with
    | some q =>
      if portUp s q && decide (told < total) then
        sendBlock q (.credit peer link (total - told)) (setLink (fun l => { l with gwTold := mset 0 l.gwTold k total }) s)
      else s
    | none => s

/-- An answer goes back to module `mod` (R337: VC1). -/
def replyRemote (mod rtag : Nat) (d : List Byte) (bad : List Nat) (st : Nat) (s : State) : State :=
  sendPacket (ownPkt s mod 1 (1 + (d.length + 31) / 32) (.answer rtag d bad st)) s

end Sys2Proof.Machine
end

