-- ==== Sys2Proof/Machine/LpddrRows.lean ====
section
/-!
DEFINITION. The rows of the LPDDR5X controllers and the BAR4 window (chapter 14). How bursts fare, which trainings fail and
which chunks a scrub finds failed come with the commands.
-/
namespace Sys2Proof.Machine
open Sys2Proof

/-! ### Requests at the LMCs

A request is of this module, of another module, or a host's; a command serves the one that it names. -/

/-- A request of another module, once none of that module for the same chunk stands before it (R341). -/
def remoteIn (s : State) (mod rtag : Nat) : Option RemoteIn :=
  match s.link.inbox.find? fun e => decide (e.mod = mod) && decide (e.rtag = rtag) with
  | none => none
  | some e =>
    let first := s.link.inbox.find? fun f => decide (f.mod = mod) && decide (f.off / 64 = e.off / 64)
    if first = some e && !s.mem.heldWr.any fun h => decide (h.2 = some (.remote mod rtag)) then some e else none
/-- A request of another module is answered. -/
def answerRemote (mod rtag : Nat) (d : List Byte) (bad : List Nat) (s : State) : State :=
  replyRemote mod rtag d bad 0
    (setLink (fun l => { l with inbox := l.inbox.filter fun e => !(decide (e.mod = mod) && decide (e.rtag = rtag)) }) s)
/-- LMC_READ (R386–R388, R394): a part of a load or of a message body, a read of another module, a host read that waited. -/
def execLmcRead (q : LmcReq) (b : Bursts) (s : State) : Res :=
  runIf (wfLmcRead q b) (match q with
    | .own tag part => (match dramPart s tag part with
      | some (r, p) =>
        if isLoad r || isMsg r.op then
          let e := lmcRead (offOf p.addr) p.n r.stamp b s
          match e.1 with
          | some d => answerPart tag part (.bytes d.1 (badAddrs p.addr d.2)) e.2
          | none => e.2
        else s
      | none => s)
    | .remote mod rtag => (match remoteIn s mod rtag with
      | some r =>
        if r.write.isNone then
          let e := lmcRead r.off r.n r.stamp b s
          match e.1 with
          | some d => answerRemote mod rtag d.1 d.2 e.2
          | none => e.2
        else s
      | none => s)
    | .host i => (match s.mem.hostReads[i]? with
      | some (p, o, n, stamp) =>
        let e := lmcRead o n stamp b s
        (match e.1 with
         | some d => hostAnswer p d { e.2 with mem := { e.2.mem with hostReads := e.2.mem.hostReads.eraseIdx i } }
         | none => e.2)
      | none => s))
/-- A write is acknowledged; one of a host is not. -/
def ackWrite (q : Option LmcReq) (s : State) : State :=
  match q with
  | some (.own tag part) => answerPart tag part (.status 0) s
  | some (.remote mod rtag) => answerRemote mod rtag [] [] s
  | _ => s
/-- The channels that a write at offset `o` needs. -/
def pausedWrite (s : State) (o : Nat) : Bool :=
  [lpDevCh o, parOf (lpDevCh o) (lpT o)].any fun x => decide (chState s x = 1)
/-- A write that has reached the LMC is acknowledged, or held until the pause of its channel or of its parity's ends (R384, R394). -/
def endWrite (q : Option LmcReq) (o : Nat) (s : State) : State :=
  if pausedWrite s o then { s with mem := { s.mem with heldWr := s.mem.heldWr ++ [(o / 64, q)] } } else ackWrite q s
/-- LMC_WRITE (R384, R386, R394). -/
def execLmcWrite (q : LmcReq) (b : Bursts) (s : State) : Res :=
  runIf (wfLmcWrite q b)
    (if !flag s LMC_STATUS LMC_STATUS_INIT_DONE then s
     else match q with
     | .own tag part => (match dramPart s tag part with
       | some (r, p) => (match r.op with
         | .store a data bad =>
           let d := partData a data bad p
           endWrite (some q) (offOf p.addr) (lmcWrite (offOf p.addr) b d.1 d.2 s)
         | _ => s)
       | none => s)
     | .remote mod rtag => (match remoteIn s mod rtag with
       | some r => (match r.write with
         | some (d, bad) => endWrite (some q) r.off (lmcWrite r.off b d bad s)
         | none => s)
       | none => s)
     | .host _ => s)

/-- A waiting store that covers chunk `c` of a stripe whole: whose, its data, the offsets of poisoned bytes. -/
def stripePart (s : State) (stripe c : Nat) : Option (LmcReq × List Byte × List Nat) :=
  let o := stripe * 960 + c * 64
  let own := s.core.reqs.findSome? fun r => match r.op with
    | .store a data bad => (List.range r.parts.length).findSome? fun i => match dramPart s r.tag i with
      | some (_, p) => if offOf p.addr = o ∧ p.n = 64 then some (.own r.tag i, partData a data bad p) else none
      | none => none
    | _ => none
  match own with
  | some e => some e
  | none => s.link.inbox.findSome? fun e => match e.write with
    | some d => if e.off = o ∧ e.n = 64 ∧ (remoteIn s e.mod e.rtag).isSome then some (.remote e.mod e.rtag, d) else none
    | none => none
/-- STRIPE_WRITE (R384): all 15 chunks wait; they are written with the parity computed from them, and nothing is read. A stripe that
reaches into a locked staging area, or lies in a failed pair, has none. -/
def execStripeWrite (stripe : Nat) (lost : List Nat) (s : State) : Res :=
  runIf (wfStripeWrite stripe lost)
    (let ps := (List.range 15).filterMap fun c => (stripePart s stripe c).map fun e => (stripe * 960 + c * 64, e)
     let t := stripe / 4
     let par := devCh (stripe % 4) (t % 16)
     if ps.length < 15 || !flag s LMC_STATUS LMC_STATUS_INIT_DONE then s
     else
       let locked := ps.any fun e => stageLocked s e.1
       let u := ps.foldl (fun s e => dramWrite e.1 e.2.2.1 e.2.2.2 (bumpCtr (49 + 4 * (lpDevCh e.1 / 8)) 1 s)) s
       let u := if locked || pairFailed u (stripe % 4) || decide (chState u par = 2) then u
         else
           let all := ps.flatMap fun e => e.2.2.1
           { u with mem := { u.mem with parity := (stripeParity { u.mem with dram := memStore u.mem.dram (stripe * 960) all } (stripe * 960)).parity } }
       let ws := (((List.range 16).map (devCh (stripe % 4))).filter fun x => decide (chState u x ≠ 2)).filter lost.contains
       let u := if locked then u else ws.foldl (failedWrite t) u
       ps.foldl (fun s e => endWrite (some e.2.1) e.1 s) u)

/-- A DEGRADED channel is retrained, and rebuilt when that passes (R391). -/
def reinstate (x : Nat) (pass : Bool) (s : State) : State :=
  if pass then
    let s := bumpFld (setFld (setCh x 3 s) (chReg x) LMC_CH_REBUILD_POS 0) (chReg x) LMC_CH_TRAININGS 1
    { s with mem := { s.mem with trainBad := mset false s.mem.trainBad x false } }
  else trainFail x s
/-- REINSTATE (R391), from a supervisor or the owning host. -/
def execReinstate (m : Master) (x : Nat) (pass : Bool) (s : State) : Res :=
  runIf (wfReinstate m x pass)
    (byMaster m (chReg x) (fun s => 
     if !(isSupervisor m || isOwner s m) then s
     else if mateDown s x then logErr 0x0609 (lmcSrc x) none 0 s
     else if chState s x ≠ 2 then s
     else reinstate x pass s) s)
/-- One stripe of a channel's chunks is rebuilt into it from the 15 others (R391); one that meets a failed chunk is lost (R388). -/
def rebuildStripe (x t : Nat) (b : Bursts) (s : State) : State :=
  let r := readMates b x t s
  if r.1.isEmpty then writeBack x t r.2
  else loseChunks t (if x % 16 = t % 16 then r.1 else [x]) r.2
/-- The last stripe of a channel is rebuilt: it is ACTIVE (R391). -/
def endRebuild (x : Nat) (s : State) : State := setFld (setCh x 0 s) LMC_STATUS ⟨0, 2 + x / 16, 1⟩ 0
/-- CHANNEL_REBUILD_STRIPE (R391); it waits while a channel of the pair is paused (R394). -/
def execChannelRebuildStripe (x : Nat) (b : Bursts) (s : State) : Res :=
  runIf (wfChannelRebuildStripe x b)
    (if chState s x ≠ 3 ∨ pairFailed s (x / 16) ∨ matePaused s x then s
     else
       let t := fld s (chReg x) LMC_CH_REBUILD_POS
       let s := setFld (rebuildStripe x t b s) (chReg x) LMC_CH_REBUILD_POS (t + 1)
       if t + 1 < 2 ^ 28 ∨ chState s x ≠ 3 then s else endRebuild x s)

/-- LPDDR_TRAINING_DONE (R392): `bad` are the channels whose training fails. -/
def execLpddrTrainingDone (bad : List Nat) (s : State) : Res :=
  runIf (wfLpddrTrainingDone bad)
    (if flag s LMC_STATUS LMC_STATUS_TRAINED || !s.mc.pwrGood || s.mc.compOff then s
     else
       let s := setFld (setFld s LMC_STATUS LMC_STATUS_TRAINED 1) GLB_STATUS GLB_STATUS_LPDDR_READY 1
       bad.foldl (fun s x => trainFail x s) s)
/-- LPDDR_INIT_DONE (R393): all stripes and parity are zero. -/
def execLpddrInitDone (s : State) : Res :=
  runIf wfLpddrInitDone
    (if !flag s LMC_STATUS LMC_STATUS_TRAINED || flag s LMC_STATUS LMC_STATUS_INIT_DONE then s
     else setFld { s with mem := { s.mem with dram := [], parity := [], dramPoison := [], dramBad := [] } }
       LMC_STATUS LMC_STATUS_INIT_DONE 1)

/-- The next ACTIVE channel of LMC `i` from `l` on. -/
def nextActive (s : State) (i l : Nat) : Option Nat :=
  ((List.range 8).map fun d => (l + d) % 8).find? fun l => decide (chState s (8 * i + l) = 0)
/-- Channel `x` becomes due for retraining (R394, R570). -/
def makeDue (x : Nat) (s : State) : State :=
  if s.mem.retrDue.any (fun e => decide (e.1 = x)) then s
  else { s with mem := { s.mem with retrDue := s.mem.retrDue ++ [(x, s.log.glints, paceTime s)] } }
/-- RETRAIN_DUE (R394): the time is the next at which a channel of the LMC falls due. -/
def execRetrainDue (i : Nat) (s : State) : Res :=
  runIf (wfRetrainDue i)
    (if !flag s LMC_STATUS LMC_STATUS_TRAINED then s
     else
       let at' := nextDue s (mget 0 s.mem.retrAt i) (fld s LMC_RETRAIN LMC_RETRAIN_INTERVAL * 10000)
       let s := advanceTo at' { s with mem := { s.mem with retrAt := mset 0 s.mem.retrAt i at' } }
       match nextActive s i (mget 0 s.mem.retrNext i) with
       | some l => makeDue (8 * i + l) { s with mem := { s.mem with retrNext := mset 0 s.mem.retrNext i ((l + 1) % 8) } }
       | none => s)
/-- The queue of channel `x` holds a request whose stamp precedes now + 400 (R394): a read of its chunks, or a write of its chunks or of
its parity. -/
def urgent (s : State) (x : Nat) : Bool :=
  let soon (stamp : Nat) : Bool := stampBefore stamp ((now10 s + 400) % 2 ^ 32)
  let here (o : Nat) (write : Bool) : Bool := decide (lpDevCh o = x) || write && decide (parOf (lpDevCh o) (lpT o) = x)
  (s.core.reqs.any fun r => soon r.stamp && r.parts.any fun p =>
    p.ans.isNone && decide (0 < p.n) && isLocalDram s (selOf p.addr) && here (offOf p.addr) (!isLoad r)) ||
  (s.link.inbox.any fun e => soon e.stamp && here e.off e.write.isSome) ||
  s.mem.hostReads.any fun e => soon e.2.2.2 && here e.2.1 false
/-- RETRAIN_START (R394): after the next Glint in a gap, or when DEFER has passed. -/
def execRetrainStart (i : Nat) (s : State) : Res :=
  runIf (wfRetrainStart i) (match s.mem.retrDue.find? fun e => decide (e.1 / 8 = i) with
    | none => s
    | some e =>
      let now := (decide (e.2.1 < s.log.glints) && !urgent s e.1) ||
        decide (e.2.2 + fld s LMC_RETRAIN LMC_RETRAIN_DEFER * 10000 ≤ paceTime s)
      let busy := (List.range 8).any fun l => decide (chState s (8 * i + l) = 1)
      if !now || busy then s
      else
        let s := { s with mem := { s.mem with retrDue := s.mem.retrDue.filter fun d => decide (d.1 ≠ e.1) } }
        if chState s e.1 = 0 then beginSlots (fun k t => decide (k = 5) && decide (t = e.1)) (setCh e.1 1 s) else s)
/-- The pause of a channel has ended: writes held for it, and for no other that is paused, are acknowledged. -/
def freeHeld (s : State) : State :=
  let mine := s.mem.heldWr.filter fun e => !pausedWrite s (e.1 * 64)
  let s := { s with mem := { s.mem with heldWr := s.mem.heldWr.filter fun e => pausedWrite s (e.1 * 64) } }
  mine.foldl (fun s e => ackWrite e.2 s) s
/-- RETRAIN_END (R394; R389 where it fails). -/
def execRetrainEnd (i : Nat) (ok : Bool) (s : State) : Res :=
  runIf (wfRetrainEnd i ok) (match (List.range 8).find? fun l => decide (chState s (8 * i + l) = 1) with
    | none => s
    | some l =>
      let x := 8 * i + l
      let s := endSlots (fun k t => decide (k = 5) && decide (t = x)) (!ok) 0 0 (setCh x 0 s)
      freeHeld (if ok then bumpFld s (chReg x) LMC_CH_TRAININGS 1 else trainFail x s))

/-- One pair scrubs stripe `t` (R395): all bursts are read, a failed chunk is rebuilt or, with a second one, lost; parity is checked in
a pair without a degraded channel. -/
def scrubPair (t : Nat) (b : Bursts) (s : State) (k : Nat) : State :=
  let all := (List.range 16).map (devCh k)
  let par := devCh k (t % 16)
  let down := all.filter fun x => decide (2 ≤ chState s x)
  let s := [2 * k, 2 * k + 1].foldl (fun s i => bumpCtr (51 + 4 * i) 1 s) s
  let r := readChans b t all s
  let s := r.2
  match r.1 with
  | [] =>
    if down.isEmpty && decide ((stripeParity s.mem (chunkAt par t)).parity ≠ s.mem.parity) then
      let s := { s with mem := stripeParity s.mem (chunkAt par t) }
      logErr 0x060B (lmcSrc par) none 0 (satFld s (LMC_ERR (par / 8)) LMC_ERR_PARITY_FIXED 1)
    else s
  | x :: xs =>
    if xs.isEmpty && !((mates x).any fun y => chStale s y t) then writeBack x t (countRebuild x s) else loseChunks t (x :: xs) s
/-- PATROL_SCRUB_STRIPE (R395): the stripe at `LMC_SCRUB.POS` of every pair, at the next time at which one falls due: a pass of 2^28
takes PASS_H hours. It waits while a channel is paused (R394). -/
def execPatrolScrubStripe (b : Bursts) (s : State) : Res :=
  runIf (wfPatrolScrubStripe b)
    (if !flag s LMC_SCRUB LMC_SCRUB_EN || !flag s LMC_STATUS LMC_STATUS_INIT_DONE ||
        (List.range 64).any fun x => decide (chState s x = 1) then s
     else
       let step := max 1 (fld s LMC_SCRUB LMC_SCRUB_PASS_H) * 36 * 10 ^ 12
       let now := paceTime s * 2 ^ 28
       let due := if now < s.mem.lpScrubAt + 2 * step then s.mem.lpScrubAt + step else now
       let s := advanceTo ((due + 2 ^ 28 - 1) / 2 ^ 28) { s with mem := { s.mem with lpScrubAt := due } }
       let t := fld s LMC_SCRUB LMC_SCRUB_POS
       let s := (List.range 4).foldl (scrubPair t b) s
       let s := setFld s LMC_SCRUB LMC_SCRUB_POS (t + 1)
       if t + 1 = 2 ^ 28 then bumpFld s LMC_SCRUB LMC_SCRUB_PASSES 1 else s)

/-! ### The BAR4 window (R393, R396) -/

def winBase (s : State) (p : Nat) : Nat := fld s (if p = 0 then LMC_WIN_A else LMC_WIN_B) LMC_WIN_A_BASE * 2 ^ 30
/-- `[x, x + n)` lies in BAR4 of port `p`. -/
def inBar4 (s : State) (p x n : Nat) : Bool := decide (x + n ≤ 2 ^ mget 30 s.host.bar4 p)
/-- BAR4_READ (R35, R393, R396): one part within a chunk. -/
def execBar4Read (p x n : Nat) (b : Bursts) (s : State) : Res :=
  runIf (wfBar4Read p x n b)
    (byPort p (fun s =>
     let o := winBase s p + x
     if !inBar4 s p x n then s
     else if !flag s LMC_STATUS LMC_STATUS_INIT_DONE then emit (.hostData p none false) (logErr 0x060C (lmcSrc (lpDevCh o)) none 0 s)
     else if lpddrSize < o + n then emit (.hostData p none false) s
     else hostRead p o n b s) s true)
/-- BAR4_WRITE (R35, R393, R396). -/
def execBar4Write (p x : Nat) (data : List Byte) (b : Bursts) (s : State) : Res :=
  runIf (wfBar4Write p x data b)
    (byPort p (fun s =>
     let o := winBase s p + x
     if !inBar4 s p x data.length then s
     else if !flag s LMC_STATUS LMC_STATUS_INIT_DONE then logErr 0x060C (lmcSrc (lpDevCh o)) none 0 s
     else if lpddrSize < o + data.length then logErr 0x0603 0x23 none 0 s
     else endWrite none o (lmcWrite o b data [] s)) s)
/-- LMC_WIN_WRITE (R396): a base that is no multiple of the BAR's size is ignored. -/
def execLmcWinWrite (m : Master) (p base : Nat) (s : State) : Res :=
  runIf (wfLmcWinWrite m p base)
    (byMaster m (if p = 0 then LMC_WIN_A else LMC_WIN_B) (fun s => 
     if mayAdmin s m && decide (base * 2 ^ 30 % 2 ^ (mget 30 s.host.bar4 p) = 0) then
      setFld s (if p = 0 then LMC_WIN_A else LMC_WIN_B) LMC_WIN_A_BASE base
    else s) s)

end Sys2Proof.Machine
end

