-- ==== Sys2Proof/Machine/PaceOps.lean ====
section
/-!
DEFINITION. What the PACE block does for cores and for its own rows: reporting a code (R79), recording an overrun
(R76–R78).
-/
namespace Sys2Proof.Machine
open Sys2Proof

/-- The PACE block reports a code (R79): the error log, and the status bit where one is named. 0x0D03–0x0D05 are logged
under R596. -/
def paceReport (code : Nat) (bit : Option Fld) (s : State) : State :=
  let s := match bit with
    | some f => setFld s PACE_STATUS f 1
    | none => s
  if code = 0x0D03 ∨ code = 0x0D04 ∨ code = 0x0D05 then logLimited code 0 0x20 none 0 s else logErr code 0x20 none 0 s

/-- A write under R80 is ignored. -/
def paceInvalid (s : State) : State := paceReport 0x0D09 (some PACE_STATUS_CFG_INVALID) s

/-- Entries of a ring whose SIZE field reads `k` (values above 8 act as 8). -/
def ovrEntries (s : State) : Nat := 2 ^ (min (fld s PACE_OVR_BASE PACE_OVR_BASE_SIZE) 8 + 8)

/-- The 16 bytes of an overrun ring entry. -/
def ovrEntry (s : State) (u c k beats : Nat) : List Byte :=
  leBytes 8 (k % 2 ^ 48 + u % 2 ^ 15 * 2 ^ 48) ++
  leBytes 8 (min beats 0xFFFFFFFF + c * 2 ^ 32 + (plotOf s u).getD 0 * 2 ^ 35 + 0x0D01 * 2 ^ 48)

/-- R77: an entry goes to the ring, or is dropped. -/
def ovrRingPut (u c k beats : Nat) (s : State) : State :=
  let n := ovrEntries s
  let head := fld s PACE_OVR_PTR PACE_OVR_PTR_HEAD
  let full := decide ((head + 1) % n = fld s PACE_OVR_PTR PACE_OVR_PTR_TAIL % n)
  if !flag s PACE_OVR_BASE PACE_OVR_BASE_EN then satFld s PACE_OVR_COUNT PACE_OVR_COUNT_DROPPED 1
  else if full then
    let s := satFld s PACE_OVR_COUNT PACE_OVR_COUNT_DROPPED 1
    if s.pace.ringFull then s
    else paceReport 0x0D08 (some PACE_STATUS_RING_FULL) { s with pace := { s.pace with ringFull := true } }
  else
    let s := dramWriteAll (fld s PACE_OVR_BASE PACE_OVR_BASE_BASE * 4096 + 16 * head) (ovrEntry s u c k beats) s
    setFld s PACE_OVR_PTR PACE_OVR_PTR_HEAD ((head + 1) % n)

/-- R76, R78: context `c` of core `u` overran slot `k` by `beats`. The context's event rises where its CTX_EVT.EN enables OVR
(DEDUCED, log 18); the log entry carries the slot number (DEDUCED, log 19). -/
def overrun (u c k beats : Nat) (s : State) : State :=
  if beats = 0 then s
  else
    let s := plotCtr u 2 1 (bumpCtr 37 1 s)
    let s := setFld (satFld s PACE_OVR_COUNT PACE_OVR_COUNT_RECORDS 1) PACE_STATUS PACE_STATUS_OVR 1
    let s :=
      if s.pace.ovrLogged.contains k then s
      else logErr 0x0D01 (srcOf u) (plotOf s u) k { s with pace := { s.pace with ovrLogged := k :: s.pace.ovrLogged } }
    let s :=
      if s.pace.ovrRing.contains (u, k) then s
      else ovrRingPut u c k beats { s with pace := { s.pace with ovrRing := (u, k) :: s.pace.ovrRing } }
    if bit1 (ctx s u c).en 0 then setPend s u c 0 else s

end Sys2Proof.Machine
end

