-- ==== Sys2Proof/Machine/CyustRows.lean ====
section
/-!
DEFINITION. The rows of Cyust (chapter 18). What a port receives, what it measures and how trainings fare come with the
commands.
-/
namespace Sys2Proof.Machine
open Sys2Proof

/-- CREDIT_RETURN (R312, R504). -/
def execStreamCreditReturn (u ch : Nat) (s : State) : Res := runIf (wfStreamCreditReturn u ch) (creditOut u ch s)

/-! ### States and training -/

/-- CYUST_PORT_ENABLE (R490): a write of `CYUST_PORT_CTRL.EN`. -/
def execCyustPortEnable (m : Master) (p : Nat) (on : Bool) (s : State) : Res :=
  runIf (wfCyustPortEnable m p on)
    (byMaster m (CYUST_PORT_CTRL p) (fun s => 
     if !mayAdmin s m || decide (flag s (CYUST_PORT_CTRL p) CYUST_PORT_CTRL_EN = on) then s
     else
       let s := setFld s (CYUST_PORT_CTRL p) CYUST_PORT_CTRL_EN (b2n on)
       if on then setPortState p 1 s else portLeaves p 0 s) s)
/-- CYUST_TRAINING_ATTEMPT (R490, R492): every 10 ms. -/
def execCyustTrainingAttempt (p : Nat) (s : State) : Res :=
  runIf (wfCyustTrainingAttempt p)
    (if portState s p ≠ 1 ∨ !flag s (CYUST_PORT_CTRL p) CYUST_PORT_CTRL_EN then s
     else
       let at' := max (paceTime s) (mget 0 s.link.tryAt p)
       let s := advanceTo at' (setLink (fun l => { l with tryAt := mset 0 l.tryAt p (at' + 100000000) }) s)
       let stored := decide (mget 0 s.link.presets p ≠ 0) && !flag s (CYUST_PORT_CTRL p) CYUST_PORT_CTRL_USE_DEFAULTS
       let s := setFld (setPortState p 2 s) (CYUST_PORT_STATUS p) CYUST_PORT_STATUS_PRESET_STORED (b2n stored)
       setLink (fun l => { l with idSeen := mset false l.idSeen p false }) s)
/-- The neighbour that the last ID block named is the one the topology gives (R496). -/
def nbrValid (s : State) (p i far : Nat) : Bool :=
  match expected s p with
  | some (n, some f) => decide (i = n) && decide (far = f)
  | some (n, none) => decide (i = n)
  | none => false
/-- CYUST_ID_BLOCK (R496): from port `far` of module `i`. -/
def execCyustIdBlock (p i far : Nat) (s : State) : Res :=
  runIf (wfCyustIdBlock p i far)
    (if portState s p ≠ 2 ∧ !portUp s p then s
     else
       let s := gotBlocks p 1 s
       let r := CYUST_PORT_STATUS p
       let ok := nbrValid s p i far
       let s := if flag s r CYUST_PORT_STATUS_MISWIRED = !ok then s else shadowGen s
       let s := setFld (setFld (setFld (setFld s r CYUST_PORT_STATUS_NBR_MODULE (i % 64)) r CYUST_PORT_STATUS_NBR_GROUP (i / 64))
         r CYUST_PORT_STATUS_NBR_PORT far) r CYUST_PORT_STATUS_MISWIRED (b2n !ok)
       let s := setLink (fun l => { l with idSeen := mset false l.idSeen p true }) s
       if ok then s
       else
         let s := logErr 0x0904 (portSrc p) none 0 s
         if portUp s p then portLeaves p 1 s else s)
/-- The lanes of a port after training: `bad` is the lane that failed, if one did. -/
def lanesTrained (p : Nat) (bad : Option Nat) (s : State) : State :=
  let s := (List.range 9).foldl (fun s l =>
    let st := if bad = some l then 3 else if l = 8 ∧ bad = none then 1 else 0
    setFld s (CYUST_LANE p l) CYUST_LANE_STATE st) s
  let r := CYUST_PORT_STATUS p
  let used := bad.any fun l => decide (l < 8)
  let s := setFld (setFld s r CYUST_PORT_STATUS_SPARE_USED (b2n used)) r CYUST_PORT_STATUS_SPARE_FOR (if used then bad.getD 0 else 0)
  setFld s CYUST_STATUS ⟨0, 8 + p, 1⟩ (b2n used)
/-- Presets go to flash after the first training since the device reset, at most once in 24 h (R492). -/
def storePresets (p : Nat) (s : State) : State :=
  if mget false s.link.trained p then s
  else
    let t := mget 0 s.link.presets p
    let due := decide (t = 0) || decide (t - 1 + 864000000000000 ≤ s.now)
    setLink (fun l => { l with
      trained := mset false l.trained p true, presets := if due then mset 0 l.presets p (s.now + 1) else l.presets }) s
/-- CYUST_TRAINING_DONE (R490, R492): `bad` are the lanes that did not train; eight of the nine must. -/
def execCyustTrainingDone (p delay : Nat) (ok : Bool) (bad : List Nat) (s : State) : Res :=
  runIf (wfCyustTrainingDone p delay ok bad)
    (if portState s p ≠ 2 then s
     else
       let r := CYUST_PORT_STATUS p
       let s := endSlots (fun k t => decide (k = 7) && decide (t / 16 = p)) (!bad.isEmpty)
         ((bad.filter (· < 8)).foldl (fun m l => m ||| 2 ^ l) 0) (if bad.contains 8 then 1 else 0) s
       let i := fld s r CYUST_PORT_STATUS_NBR_GROUP * 64 + fld s r CYUST_PORT_STATUS_NBR_MODULE
       let good := ok && mget false s.link.lock p && mget false s.link.idSeen p &&
         nbrValid s p i (fld s r CYUST_PORT_STATUS_NBR_PORT) && decide (bad.length ≤ 1)
       if good then
         let s := setFld (setPortState p 3 s) r CYUST_PORT_STATUS_NBR_VALID 1
         let s := setFld (setFld s CYUST_STATUS ⟨0, p, 1⟩ 1) (CYUST_PORT_DELAY p) CYUST_PORT_DELAY_DELAY delay
         let s := setLink (fun l => { l with
           upAt := mset 0 l.upAt p s.now, calAt := mset 0 l.calAt p (paceTime s), fails := mset 0 l.fails p 0, lostAt := mset 0 l.lostAt p 0, quietAt := mset 0 l.quietAt p (paceTime s) }) s
         movePkts (pacePaths (routeBack p (storePresets p (lanesTrained p bad.head? s))))
       else
         let n := mget 0 s.link.fails p + 1
         let s := setLink (fun l => { l with fails := mset 0 l.fails p (if n = 3 then 0 else n) }) (setPortState p 1 s)
         if n = 3 then logErr 0x0905 (portSrc p) none 0 s else s)

def lastOf (n : Nat) (hs : List (Nat × Nat)) : List (Nat × Nat) := hs.drop (hs.length - n)
/-- The alignment markers of the eight data lanes, as (lane number, codeword count), name one codeword: the lanes are deskewed (R484). -/
def deskewed (marks : List (Nat × Nat)) : Bool :=
  decide (marks.length = 8) && (List.range 8).all (fun l => marks.any fun m => decide (m.1 = l)) &&
    marks.all fun m => decide (some m.2 = (marks.head?).map (·.2))
/-- BLOCK_LOCK_ACQUIRED (R484, R489, R491): `heads` are the blocks seen at one bit offset; the last 64 in a row have valid headers. -/
def execBlockLockAcquired (p : Nat) (heads marks : List (Nat × Nat)) (s : State) : Res :=
  runIf (wfBlockLockAcquired p heads marks)
    (if 64 ≤ heads.length ∧ (lastOf 64 heads).all headValid = true ∧ deskewed marks = true then
      setLink (fun l => { l with lock := mset false l.lock p true, lostAt := mset 0 l.lostAt p 0 }) s
     else s)
/-- BLOCK_LOCK_LOST (R489, R491): the signal is gone, or 8 headers of the last 128 blocks are invalid. -/
def execBlockLockLost (p : Nat) (heads : Heads) (s : State) : Res :=
  runIf (wfBlockLockLost p heads)
    (let bad := heads.all fun hs => decide (8 ≤ ((lastOf 128 hs).filter fun h => !headValid h).length)
     if !mget false s.link.lock p || !bad then s
     else
       let s := satFld s (CYUST_PORT_ERR p) CYUST_PORT_ERR_LOCK_LOSSES 1
       setLink (fun l => { l with
         lock := mset false l.lock p false
         lostAt := if portState s p = 3 then mset 0 l.lostAt p (paceTime s + 1) else l.lostAt }) s)
/-- CYUST_PORT_DOWN (R491, R499, R505): DOWN_HOLD has passed without lock; `lost` are inbound streams whose tokens stood in the
neighbour's replay buffer. -/
def execCyustPortDown (p : Nat) (lost : List Nat) (s : State) : Res :=
  runIf (wfCyustPortDown p lost)
    (let t := mget 0 s.link.lostAt p
     if portState s p ≠ 3 ∨ t = 0 then s
     else portDown p lost (advanceTo (t - 1 + fld s CYUST_CFG CYUST_CFG_DOWN_HOLD * 100) s))
/-- PORT_DOWN_NOTICE (R501): the link of module `i` at its port `far` is reported down. -/
def execPortDownNotice (i far : Nat) (s : State) : Res := runIf (wfPortDownNotice i far) (noticed i far s)
/-- REMOTE_TIMEOUT (R501). A registered SYNC.WAIT waits on (R361). -/
def execRemoteTimeout (tag part : Nat) (s : State) : Res :=
  runIf (wfRemoteTimeout tag part)
    (match s.link.sent.find? fun e => decide (e.tag = tag) && decide (e.part = part) with
     | none => s
     | some e =>
       let waits := (findReq s tag).any fun r => (match r.op with
         | .syncWait _ _ => true
         | _ => false)
       if waits then s else unreachable tag part (advanceTo (e.time + fld s CYUST_CFG CYUST_CFG_REMOTE_TO * 10000) s))

/-! ### Blocks -/

/-- CYUST_UNCORRECTABLE_CODEWORD (R484, R493): `errs` are the symbols in error; up to 15 are corrected and counted, more are asked for
again. -/
def execCyustUncorrectableCodeword (p cw : Nat) (errs : List Nat) (s : State) : Res :=
  runIf (wfCyustUncorrectableCodeword p cw errs)
    (if portState s p ≠ 3 ∨ errs = [] then s
     else if errs.length ≤ 15 then
       errs.foldl (fun s i => satFld s (CYUST_LANE p (symbolLane s p i)) CYUST_LANE_SYM_ERR 1)
         (bumpCtr (82 + 8 * p) 1 (satFld s (CYUST_PORT_ERR p) CYUST_PORT_ERR_CORR_CW 1))
     else sendBlock p (.replay cw) s)
/-- CYUST_REPLAY_REQUEST (R493): the sender sends again from the first block that began in the codeword; counted and logged here
(DEDUCED, log 30). -/
def execCyustReplayRequest (p cw : Nat) (s : State) : Res :=
  runIf (wfCyustReplayRequest p cw)
    (if portState s p = 3 then
      let s := gotBlocks p 1 s
      let s := logLimited 0x0908 p (portSrc p) none 0 (bumpCtr (83 + 8 * p) 1 (satFld s (CYUST_PORT_ERR p) CYUST_PORT_ERR_REPLAYS 1))
      let again := s.link.buffer.filter fun e => decide (e.port = p) && decide (cw ≤ e.cw) && decide (cwNow s p < e.cw + 256)
      again.foldl (fun s e => emitBlock p e.block s) s
     else s)
/-- CYUST_CREDIT_BLOCK (R498, R504). -/
def execCyustCreditBlock (p : Nat) (c : CreditIn) (s : State) : Res :=
  runIf (wfCyustCreditBlock p c) (if portState s p ≠ 3 then s else let s := gotBlocks p 1 s; match c with
    | .packet vc cls n =>
      movePkts <| setLink (fun l => { l with flits := mset 0 l.flits (flitKey p vc cls) (mget 0 l.flits (flitKey p vc cls) - n) }) s
    | .stream mod rlink bytes =>
      match gwFind s fun r => !flag s r CYUST_GW_DIR && decide (fld s r CYUST_GW_RLINK = rlink) && decide (gwPeer s r = mod) with
      | none => s
      | some i =>
        let link := fld s (CYUST_GW i) CYUST_GW_LINK_ID
        let k := fld s (CYUST_GW i) CYUST_GW_ROW * 4096 + link
        let s := { s with strm := { s.strm with
          gwCredit := mset 0 s.strm.gwCredit k (mget 0 s.strm.gwCredit k + bytes)
          gwRing := if mget 0 s.strm.gwRing k = 0 then mset 0 s.strm.gwRing k bytes else s.strm.gwRing } }
        feedBranches link (s.strm.branch.length + 1) s)
/-- VC and flits of a packet (R336, R337). -/
def pktSize (k : PktIn) : Nat × Nat :=
  match k with
  | .answer _ _ (.data d _) => (1, 1 + (d.length + 31) / 32)
  | .answer _ _ _ => (1, 1)
  | .read _ _ _ _ _ => (0, 1)
  | .write _ _ _ _ d _ => (0, 1 + (d.length + 31) / 32)
  | .transit _ v _ _ fl => (v, fl.length)
  | .withdraw _ _ => (0, 1)
/-- CYUST_PKT_BLOCK (R498, R499, R501): a packet for this module leaves the port's buffer, and its credit returns; one for another module
stays there until it can go on. A late answer is discarded. -/
def execCyustPktBlock (p cls : Nat) (k : PktIn) (s : State) : Res :=
  runIf (wfCyustPktBlock p cls k)
    (if portState s p ≠ 3 then s
     else
       let z := pktSize k
       let s := bumpCtr (85 + 8 * p) z.2 (gotBlocks p (1 + 2 * z.2) (portUsed p s))
       let taken (s : State) : State := sendBlock p (.pktCredit z.1 cls z.2) s
       match k with
       | .answer tag part a => taken (if isSent s tag part then remoteAnswer tag part a s else s)
       | .read mod rtag off n stamp => taken (setLink (fun l => { l with inbox := l.inbox ++ [⟨mod, rtag, off, n, stamp, none⟩] }) s)
       | .write mod rtag off stamp d bad =>
         taken (setLink (fun l => { l with inbox := l.inbox ++ [⟨mod, rtag, off, d.length, stamp, some (d, bad)⟩] }) s)
       | .withdraw mod rtag =>
         let mine := s.sync.waiters.filter fun w => w.tag.isNone && decide (w.remote = mod) && decide (w.rtag = rtag)
         let s := { s with sync := { s.sync with waiters := s.sync.waiters.filter fun w => !mine.contains w } }
         taken (mine.foldl (fun s w => syncCount w.obj s) s)
       | .transit dst vc stamp detour fl => sendPacket ⟨p, dst, vc, cls, z.2, stamp, detour, .transit fl⟩ s)
/-- The tokens of a burst: 32 bytes each, the last shorter where it ends the burst. -/
def burstTokens (link stamp : Nat) (last spill : Bool) : Nat → List PByte → List Token
  | 0, _ => []
  | fuel + 1, bs =>
    match bs with
    | [] => []
    | _ =>
      let rest := bs.drop 32
      ⟨link, bs.take 32, stamp, last && rest.isEmpty, spill, false⟩ :: burstTokens link stamp last spill fuel rest
/-- CYUST_STRM_BLOCK (R503, R504): a burst for this module enters the column-127 core of its row from the east, one for
another module goes on. -/
def execCyustStrmBlock (p src dst rlink stamp : Nat) (data : List Byte) (bad : List Nat) (last spill : Bool) (s : State) : Res :=
  runIf (wfCyustStrmBlock p src dst rlink stamp data bad last spill)
    (if portState s p ≠ 3 then s
     else
       let n := (data.length + 31) / 32
       let s := bumpCtr (86 + 8 * p) n (gotBlocks p (1 + 2 * n) (portUsed p s))
       if dst ≠ selfIdx s then
         (match routePort s dst with
          | some q => if portUp s q then sendBlock q (.token dst rlink stamp data bad last spill) (bumpCtr (86 + 8 * q) n s) else s
          | none => s)
       else match gwInEntry s src rlink with
         | none => logErr 0x0403 (portSrc p) none 0 s
         | some i =>
           let row := fld s (CYUST_GW i) CYUST_GW_ROW
           let ts := burstTokens rlink stamp last spill 17 (data.zipIdx.map fun e => (e.1, bad.contains e.2))
           ts.foldl (fun s t => queueTok (row * 128 + 127) 1 t s) s)
/-- GATEWAY_TOKEN_OUT (R503, R505): the oldest token of a row; a stream whose port has changed waits for the old one. -/
def execGatewayTokenOut (row : Nat) (s : State) : Res :=
  runIf (wfGatewayTokenOut row) (match s.strm.gwOut.find? fun e => decide (e.1 = row) with
    | none => s
    | some e =>
      let t := e.2
      let rest := { s with strm := { s.strm with gwOut := s.strm.gwOut.erase e } }
      match gwOutEntry s row t.link with
      | none => logErr 0x0403 (srcOf (row * 128 + 127)) none 0 rest
      | some i =>
        let peer := gwPeer s (CYUST_GW i)
        match routePort s peer with
        | none => s
        | some q =>
          let old := (inReplay s).any fun r => decide (r.row = row) && decide (r.link = t.link) && decide (r.port ≠ q)
          if portState s q ≠ 3 || old then s
          else
            let s := setLink (fun l => { l with
              replay := (inReplay s) ++ [⟨q, row, t.link, t.data.length, paceTime s⟩] }) rest
            let bad := (t.data.zipIdx.filter fun e => e.1.2).map (·.2)
            sendBlock q (.token peer (fld s (CYUST_GW i) CYUST_GW_RLINK) t.stamp (t.data.map (·.1)) bad t.last t.spill)
              (bumpCtr (86 + 8 * q) 1 s))

/-- The up port with the fewest hops to the master, the lowest on a tie, and those hops (R64). -/
def masterPort (s : State) : Option (Nat × Nat) :=
  let m := fld s PACE_MASTER PACE_MASTER_GROUP * 64 + fld s PACE_MASTER PACE_MASTER_MODULE
  ((upPorts s).filterMap fun p => (expected s p).map fun e => (p, 1 + hopsBetween s e.1 m)).foldl
    (fun (best : Option (Nat × Nat)) e => match best with
      | some b => if e.2 < b.2 then some e else best
      | none => some e) none
/-- A follower disciplines its pace time: `off` is the correction, `err` the estimated error that is left, in 100 ps (R64, R65). -/
def discipline (off : Int) (err hops : Nat) (s : State) : State :=
  let was := flag s PACE_STATUS PACE_STATUS_TIME_LOCKED
  let lock := decide (err ≤ 50)
  let s := { s with pace := { s.pace with timeOff := s.pace.timeOff + off, everLocked := s.pace.everLocked || lock } }
  let s := setFld (setFld s PACE_STATUS PACE_STATUS_TIME_LOCKED (b2n lock)) PACE_STATUS PACE_STATUS_HOPS (min hops 15)
  if was && !lock then paceReport 0x0D0A (some PACE_STATUS_UNLOCKED) s else s
/-! ### Lanes, idle, loopback -/

/-- A lane takes a state; the Shadow map shows whether it has failed (R568). -/
def setLane (p l st : Nat) (s : State) : State :=
  let t := setFld s (CYUST_LANE p l) CYUST_LANE_STATE st
  if decide (fld s (CYUST_LANE p l) CYUST_LANE_STATE = 3) = decide (st = 3) then t else shadowGen t
def spareUsed (s : State) (p : Nat) : Bool := flag s (CYUST_PORT_STATUS p) CYUST_PORT_STATUS_SPARE_USED
/-- A calibration swap of lane `l` onto lane 8, and back (R494). -/
def swapOn (p l : Nat) (s : State) : State :=
  sendBlock p (.lane l true (cwNow s p + 1)) (setLane p 8 0 (setLane p l 2 (setLink (fun k => { k with swap := mset 0 k.swap p (l + 1) }) s)))
def swapOff (p l : Nat) (s : State) : State :=
  sendBlock p (.lane l false (cwNow s p + 1)) (setLane p 8 1 (setLane p l 0 (setLink (fun k => { k with swap := mset 0 k.swap p 0 }) s)))
/-- The spare may take a lane for calibration. -/
def spareFree (s : State) (p : Nat) : Bool :=
  decide (portState s p = 3) && !spareUsed s p && decide (mget 0 s.link.swap p = 0) && decide (fld s (CYUST_LANE p 8) CYUST_LANE_STATE ≠ 3)
/-- CYUST_LANE_SWAP (R494): the receivers take lane `l` from lane 8, or from itself again; a rotation goes on to the next lane. -/
def execCyustLaneSwap (p l : Nat) (on : Bool) (s : State) : Res :=
  runIf (wfCyustLaneSwap p l on)
    (if on then (if spareFree s p then swapOn p l s else s)
     else if mget 0 s.link.swap p ≠ l + 1 then s
     else
       let s := endSlots (isLaneReq p l) false 0 0 (swapOff p l s)
       if mget 0 s.link.rotate p ≠ l + 1 then s
       else if l < 7 then swapOn p (l + 1) (setLink (fun k => { k with rotate := mset 0 k.rotate p (l + 2) }) s)
       else setLink (fun k => { k with rotate := mset 0 k.rotate p 0 }) s)
/-- CYUST_CALIBRATION_ROTATION (R494): every CAL_S seconds. -/
def execCyustCalibrationRotation (p : Nat) (s : State) : Res :=
  runIf (wfCyustCalibrationRotation p)
    (if spareFree s p && decide (mget 0 s.link.rotate p = 0) && decide (fld s CYUST_CFG CYUST_CFG_CAL_S ≠ 0) then
      let t := nextDue s (mget 0 s.link.calAt p) (fld s CYUST_CFG CYUST_CFG_CAL_S * 10 ^ 10)
      let s := advanceTo t (setLink (fun k => { k with rotate := mset 0 k.rotate p 1, calAt := mset 0 k.calAt p t }) s)
      swapOn p 0 s
     else s)
/-- A lane fails (R494): a second one, or one with no spare, takes the port down. -/
def laneFails (p l : Nat) (s : State) : State :=
  if !portUp s p || decide (fld s (CYUST_LANE p l) CYUST_LANE_STATE = 3) then s
  else
    let s := endSlots (isLaneReq p l) true (2 ^ l % 256) (l / 8) s
    let s := match mget 0 s.link.swap p with
      | 0 => s
      | k + 1 => swapOff p k s
    let s := setLink (fun k => { k with rotate := mset 0 k.rotate p 0 }) s
    let noSpare := spareUsed s p || decide (fld s (CYUST_LANE p 8) CYUST_LANE_STATE = 3)
    if l = 8 then (if spareUsed s p then portDown p [] (setLane p 8 3 s) else setLane p 8 3 s)
    else if noSpare then portDown p [] (setLane p l 3 s)
    else
      let r := CYUST_PORT_STATUS p
      let s := setLane p 8 0 (setLane p l 3 s)
      let s := setFld (setFld s r CYUST_PORT_STATUS_SPARE_USED 1) r CYUST_PORT_STATUS_SPARE_FOR l
      let s := setFld s CYUST_STATUS ⟨0, 8 + p, 1⟩ 1
      let s := setLink (fun k => { k with failed := mset 0 k.failed p (mget 0 k.failed p + 1) }) s
      logErr 0x0902 (portSrc p) none 0 (sendBlock p (.lane l true (cwNow s p + 1)) s)
/-- CYUST_LANE_SPARED (R494). -/
def execCyustLaneSpared (p l : Nat) (s : State) : Res := runIf (wfCyustLaneSpared p l) (laneFails p l s)
/-- What a port has measured since its last delay measurement, 1 ms ago (DESIGN CHOICE, log 31): corrected codewords and, by lane, the
eye and the corrected symbols, or in loopback the differences. More than 10^4 symbols, or an eye below 15 mV, fail the lane (R494). -/
def measured (p corr : Nat) (figs : List LaneFig) (s : State) : State :=
  let s := bumpCtr (82 + 8 * p) corr (satFld s (CYUST_PORT_ERR p) CYUST_PORT_ERR_CORR_CW corr)
  let s := figs.foldl (fun s f =>
    let r := CYUST_LANE p f.lane
    satFld (setFld (setFld s r CYUST_LANE_EYE_H f.eyeH) r CYUST_LANE_EYE_W f.eyeW) r CYUST_LANE_SYM_ERR f.symErr) s
  if portState s p = 3 then
    (figs.filter fun f => decide (10000 < f.symErr) || decide (f.eyeH < 15)).foldl (fun s f => laneFails p f.lane s) s
  else s
/-- CYUST_DELAY_BLOCK (R64, R65, R492, R495): the delay of a port that is UP, and what it measured; in loopback only that. -/
def execCyustDelayBlock (p delay err corr : Nat) (off : Int) (figs : List LaneFig) (s : State) : Res :=
  runIf (wfCyustDelayBlock p delay err corr off figs)
    (if portState s p = 5 then measured p corr figs s
     else if portState s p ≠ 3 then s
     else
       let s := gotBlocks p 1 s
       let s := setFld s (CYUST_PORT_DELAY p) CYUST_PORT_DELAY_DELAY delay
       let s := if flag s PACE_CFG PACE_CFG_ENABLE && decide (fld s PACE_STATUS PACE_STATUS_ROLE_NOW ≠ 0) && flag s PACE_MASTER PACE_MASTER_VALID then
           match masterPort s with
           | some (q, h) => if q = p then discipline off err h s else s
           | none => s
         else s
       measured p corr figs s)
/-- CYUST_IDLE_ENTRY (R495). -/
def execCyustIdleEntry (p : Nat) (s : State) : Res :=
  runIf (wfCyustIdleEntry p)
    (if portState s p = 3 ∧ flag s CYUST_CFG CYUST_CFG_IDLE_EN then
      let t := mget 0 s.link.quietAt p + fld s CYUST_CFG CYUST_CFG_IDLE_US * 10000
      setPortState p 4 (sendBlock p .idleEntry (advanceTo t s))
     else s)
/-- CYUST_IDLE_EXIT (R346, R495): what waited goes out. -/
def execCyustIdleExit (p : Nat) (s : State) : Res :=
  runIf (wfCyustIdleExit p)
    (if portState s p = 4 then
      let mine := s.link.idleQ.filter fun e => decide (e.1 = p)
      let s := portUsed p (setPortState p 3 (setLink (fun l => { l with idleQ := l.idleQ.filter fun e => decide (e.1 ≠ p) }) s))
      movePkts (mine.foldl (fun s e => putBlock p e.2 s) s)
     else s)
/-- CYUST_FAR_LOOPBACK_REQUEST (R495): honoured while EN = 1 and the port carries no traffic. -/
def execCyustFarLoopbackRequest (p : Nat) (s : State) : Res :=
  runIf (wfCyustFarLoopbackRequest p)
    (if flag s (CYUST_PORT_CTRL p) CYUST_PORT_CTRL_EN && !portUp s p then
      setLink (fun l => { l with echo := mset false l.echo p true }) (setPortState p 5 (gotBlocks p 1 s))
     else s)
/-- A loopback runs on a port that is out of service (R495). -/
def startLoop (p v : Nat) (s : State) : State :=
  let s := setFld s (CYUST_PORT_CTRL p) CYUST_PORT_CTRL_LOOP v
  sendBlock p .test (setPortState p 5 (if v = 3 then sendBlock p .farLoop s else s))
/-- CYUST_LOOP_WRITE (R490, R495). -/
def execCyustLoopWrite (m : Master) (p v : Nat) (s : State) : Res :=
  runIf (wfCyustLoopWrite m p v)
    (byMaster m (CYUST_PORT_CTRL p) (fun s => 
     if !mayAdmin s m then s
     else
       if v = 0 then
         let s := setFld s (CYUST_PORT_CTRL p) CYUST_PORT_CTRL_LOOP 0
         (if portState s p = 5 then setLink (fun l => { l with echo := mset false l.echo p false }) (setPortState p 1 s) else s)
       else if portState s p = 1 then startLoop p v s
       else setFld s (CYUST_PORT_CTRL p) CYUST_PORT_CTRL_LOOP v) s)
/-- RETRAIN (R490). -/
def execRetrain (m : Master) (p : Nat) (s : State) : Res :=
  runIf (wfRetrain m p)
    (byMaster m (CYUST_PORT_CTRL p) (fun s => if mayAdmin s m && flag s (CYUST_PORT_CTRL p) CYUST_PORT_CTRL_EN then portLeaves p 1 s else s) s)

/-! ### Topology and routes -/

/-- CYUST_TOPO_WRITE (R497, R506). The source ID of its 0x0909 entry is that of port 0, since R39 gives the block none (DESIGN CHOICE, log
94). -/
def execCyustTopoWrite (m : Master) (v : Nat) (s : State) : Res :=
  runIf (wfCyustTopoWrite m v)
    (byMaster m CYUST_TOPO (fun s => 
     let w : W64 := BitVec.ofNat 64 (v % 2 ^ 16)
     let anyEn := (List.range 8).any fun p => flag s (CYUST_PORT_CTRL p) CYUST_PORT_CTRL_EN
     if !mayAdmin s m then s
     else if anyEn || decide (fget w CYUST_TOPO_ZDIM = 3) || decide (fget w CYUST_TOPO_AUX = 3) then logErr 0x0909 0x300 none 0 s
     else
       let s := rset s CYUST_TOPO w
       countReachable ((List.range 512).foldl (fun s j => rset s (CYUST_RT j) (defaultRoute s j)) s)) s)
/-- CYUST_RT_WRITE (R497, R499–R501), from a supervisor or the MC. -/
def execCyustRtWrite (m : Master) (i v : Nat) (s : State) : Res :=
  runIf (wfCyustRtWrite m i v)
    (byMaster m (CYUST_RT i) (fun s => 
     if !(isSupervisor m || decide (m = .mc)) then s
     else
       let r := CYUST_RT i
       let old := flag s r CYUST_RT_ABSENT
       let w : W64 := BitVec.ofNat 64 v
       let s := rset s r (packW [(bitsOf w 0 3, 0), (bitsOf w 4 12, 4), (bitsOf w 17 1, 17)])
       let s := if old && !flag s r CYUST_RT_ABSENT then
           setLink (fun l => { l with notices := mkeep (fun k => decide (k / 8 ≠ i)) l.notices }) s
         else s
       let s := countReachable s
       let s := if !old && flag s r CYUST_RT_ABSENT then absentGone i s else s
       let s := if flag s r CYUST_RT_A_VALID && !portUp s (fld s r CYUST_RT_PRIMARY) then
           logErr 0x0906 (portSrc (fld s r CYUST_RT_PRIMARY)) none 0 (setFld s r CYUST_RT_USE_ALT 1)
         else s
       movePkts (pathsFailed (pacePaths s))) s)

end Sys2Proof.Machine
end

