-- ==== Sys2Proof/Machine/Rings.lean ====
section
/-!
DEFINITION. The rings that the device writes to LPDDR5X (R597): when a placement is accepted, and one entry written.
-/
namespace Sys2Proof.Machine
open Sys2Proof

/-- BASE, SIZE and EN of a ring register word; the rest is reserved. -/
def ringWord (v : W64) : W64 := packW [(bitsOf v 12 44, 12), (bitsOf v 56 4, 56), (bitsOf v 63 1, 63)]
/-- The whole ring of `n` bytes lies in LPDDR5X (R597). -/
def ringFits (v : W64) (n : Nat) : Bool :=
  decide (bitsOf v 48 8 = 0) && decide (bitsOf v 12 36 * 4096 + n ≤ lpddrSize)
/-- Entries of a ring whose SIZE field reads `k`, of which 9–15 act as 8. -/
def ringLen (k : Nat) : Nat := 2 ^ (min k 8 + 8)

end Sys2Proof.Machine
end

