-- ==== Sys2Proof/Machine/PaceRows.lean ====
section
/-!
DEFINITION. The rows of the PACE block (chapter 2). Times are pace times in units of 100 ps; 10 ns fields count 100 of them. A
change of PACE_IN comes with its time and for how long the new level then lasts.
-/
namespace Sys2Proof.Machine
open Sys2Proof

def setPace (f : PaceSt → PaceSt) (s : State) : State := { s with pace := f s.pace }
def paceOn (s : State) : Bool := flag s PACE_CFG PACE_CFG_ENABLE
def roleNow (s : State) : Nat := fld s PACE_STATUS PACE_STATUS_ROLE_NOW
def setPaceBit (f : Fld) (x : Nat) (s : State) : State := setFld s PACE_STATUS f x
def hgCal (s : State) : Bool := flag s GLB_STATUS GLB_STATUS_HG_CAL
/-- The module is enabled and its role in effect is master. -/
def isMaster (s : State) : Bool := paceOn s && decide (roleNow s = 0)
def paceSource (s : State) : Nat := fld s PACE_CFG PACE_CFG_SOURCE
def paceTerm (s : State) : Nat := fld s PACE_STATUS PACE_STATUS_TERM

/-! ### Hourglass sensors (R46–R49) -/

/-- The slowest reading of the sensors that have not failed, the lowest index on a tie (R48): a stand-in adds no reading of its
own. -/
def slowest (s : State) : Option (Nat × Nat) :=
  ((List.range 1664).filter fun h => !mget false s.avl.hgFailed h).foldl (fun (b : Option (Nat × Nat)) h => match b with
    | none => some (mget 0 s.pace.hg h, h)
    | some (r, i) => if mget 0 s.pace.hg h < r then some (mget 0 s.pace.hg h, h) else some (r, i)) none
def showSlowest (s : State) : State :=
  match slowest s with
  | some (r, h) => setFld (setFld s PACE_HG_MIN PACE_HG_MIN_RATE r) PACE_HG_MIN PACE_HG_MIN_SENSOR h
  | none => s
/-- The sensor is under recalibration: its reading holds (R48). -/
def hgHeld (s : State) (h : Nat) : Bool := s.avl.hgHold.any fun e => decide (e.1 = h) && decide (s.now < e.2)
/-- HOURGLASS_UPDATE (R47, R48): the readings of all sensors; one under recalibration holds its last. -/
def execHourglassUpdate (rs : List Nat) (s : State) : Res :=
  runIf (wfHourglassUpdate rs)
    (if s.mc.held || s.mc.compOff then s
     else showSlowest (setPace (fun p => { p with
       hg := (rs.zipIdx.filter fun e => !hgHeld s e.2).foldl (fun m e => mset 0 m e.2 e.1) p.hg }) s))

/-! ### Scheduling (R50, R51, R57, R63) -/

/-- The latest Glint scheduled or fired. -/
def lastDue (s : State) : Option Nat :=
  match s.pace.sched.getLast? with
  | some x => some x.fire
  | none => s.pace.lastFire
/-- The number of the next Glint to be scheduled (R51, R71). -/
def nextNum (s : State) : Nat :=
  match s.pace.sched.getLast? with
  | some x => x.num + 1
  | none => max (fld s PACE_SLOT PACE_SLOT_SLOT) s.pace.lastSlot + 1
/-- The period in effect in 10 ns; 0 where there is none (R487). -/
def paceInEffect (s : State) : Nat :=
  if paceSource s = 1 then fld s PACE_IN_PERIOD PACE_IN_PERIOD_PERIOD / 100
  else if s.pace.takePeriod ≠ 0 then s.pace.takePeriod else fld s PACE_PERIOD PACE_PERIOD_PERIOD
/-- A marker of this module as master; a fresh master holds term 1 from its first Glint (R66). -/
def markerOf (s : State) (num fire : Nat) : Marker :=
  { term := max 1 (paceTerm s), slot := num % 2 ^ 40, fire := fire % 2 ^ 38, period := paceInEffect s, module := moduleIdx s
    group := groupIdx s }
def sendAll (b : LinkBlock) (s : State) : State := (upPorts s).foldl (fun s p => sendBlock p b s) s
/-- A Glint is scheduled, at least 1 µs after the one before (R50), and not before calibration (R49). -/
def scheduleAt (want num : Nat) (kind : GlintKind) (s : State) : State :=
  if !hgCal s then s
  else
    let fire := match lastDue s with
      | some t => max want (t + 10000)
      | none => want
    setPace (fun p => { p with sched := p.sched ++ [⟨fire, num, kind⟩] }) s
/-- The master schedules its next Glint and sends its marker on every up port (R63). -/
def schedule (want : Nat) (kind : GlintKind) (s : State) : State :=
  let num := nextNum s
  let t := scheduleAt want num kind s
  match t.pace.sched.getLast? with
  | some x => if hgCal s then sendAll (.marker (markerOf t num x.fire)) t else t
  | none => t
/-- A master with the internal source starts (R57). -/
def startInternal (s : State) : State :=
  if isMaster s && decide (paceSource s = 0) then
    schedule (paceTime s + 100 * paceInEffect s) .internal s
  else s
/-- HG_CAL_DONE (R49): at least 50 ms after the device reset. -/
def execHgCalDone (s : State) : Res :=
  runIf wfHgCalDone
    (if s.mc.held || s.mc.compOff || hgCal s then s
     else
       let s := advanceTo 500000000 s
       startInternal (setFld (setFld s GLB_STATUS GLB_STATUS_HG_CAL 1) PACE_HG_MIN PACE_HG_MIN_VALID 1))

/-! ### Register writes (R46, R58, R61, R80, R81, R597) -/

/-- Setting ENABLE starts the source afresh (R57, R61). -/
def paceEnable (s : State) : State :=
  let s := setFld s PACE_IN_PERIOD PACE_IN_PERIOD_PERIOD 0
  startInternal (setPace (fun p => { p with
    lastEdge := none, enabledAt := paceTime s, heardAt := paceTime s, pathsDown := none, takePeriod := 0 }) s)
/-- No Glints are issued any more: what a master shows of itself as running ends (R65; DEDUCED, log 51). -/
def paceStops (s : State) : State :=
  let s := if roleNow s = 0 then setPaceBit PACE_STATUS_TIME_LOCKED 0 s else s
  setPaceBit PACE_STATUS_RUNNING 0 s
/-- Clearing ENABLE (R61). A Glint that a master has announced by its marker still fires, the last one; what a follower has
scheduled does not (R51, R63; DEDUCED, log 87). -/
def paceDisable (s : State) : State :=
  let s := setPace (fun p => { p with
    sched := if roleNow s = 0 then p.sched.map fun x => { x with kind := .edge } else [], takePeriod := 0 }) s
  let s := setPaceBit PACE_STATUS_SOURCE_LOST 0 s
  if s.pace.sched.isEmpty then paceStops s else s
/-- PACE_CFG_WRITE (R80). -/
def execPaceCfgWrite (m : Master) (v : Nat) (s : State) : Res :=
  runIf (wfPaceCfgWrite m v)
    (byMaster m PACE_CFG (fun s => 
     if !mayAdmin s m then s
     else
       let w : W64 := BitVec.ofNat 64 (v % 65536)
       let was := paceOn s
       let role := fget w PACE_CFG_ROLE
       if 1 < fget w PACE_CFG_SOURCE ∨ role = 3 ∨ (role = 2 ∧ fget w PACE_CFG_RANK = 0) ∨
           (was ∧ bitsOf w 0 6 ≠ bitsOf (rget s PACE_CFG) 0 6) then paceInvalid s
       else
         let s := rset s PACE_CFG w
         let s := if was then s else setPaceBit PACE_STATUS_ROLE_NOW role s
         if bit1 w 8 && !was then paceEnable s else if was && !bit1 w 8 then paceDisable s else s) s)
/-- PACE_PERIOD_WRITE (R58, R80). -/
def execPacePeriodWrite (m : Master) (v : Nat) (s : State) : Res :=
  runIf (wfPacePeriodWrite m v)
    (byMaster m PACE_PERIOD (fun s => 
     if !mayAdmin s m then s
     else
       let x := v % 2 ^ 17
       if x < 100 ∨ 100000 < x then paceInvalid s
       else setFld (setPace (fun p => { p with takePeriod := 0 }) s) PACE_PERIOD PACE_PERIOD_PERIOD x) s)
/-- PACE_FLOOR_TARGET_WRITE (R46, R80). -/
def execPaceFloorTargetWrite (m : Master) (v : Nat) (s : State) : Res :=
  runIf (wfPaceFloorTargetWrite m v)
    (byMaster m PACE_FLOOR_TARGET (fun s => 
     if !mayAdmin s m then s
     else if v % 65536 < s.pace.buildRate then paceInvalid s
     else setFld s PACE_FLOOR_TARGET PACE_FLOOR_TARGET_TARGET v) s)
/-- PACE_OVR_BASE_WRITE (R77, R597). -/
def execPaceOvrBaseWrite (m : Master) (v : W64) (s : State) : Res :=
  runIf (wfPaceOvrBaseWrite m v)
    (byMaster m PACE_OVR_BASE (fun s => 
     if !mayAdmin s m then s
     else if ringFits v (16 * ringLen (bitsOf v 56 4)) then
       setPace (fun p => { p with ringFull := false })
         (setFld (setFld (rset s PACE_OVR_BASE (ringWord v)) PACE_OVR_PTR PACE_OVR_PTR_HEAD 0) PACE_OVR_PTR PACE_OVR_PTR_TAIL 0)
     else paceInvalid s) s)

/-! ### PACE_IN (R59–R61) -/

/-- The interval that `PACE_IN_PERIOD` holds; the spec states none for an interval that does not fit its 32 bits: a free value
(DESIGN CHOICE, log 88). -/
def inPeriod (d : Nat) (s : State) : State :=
  if d < 2 ^ 32 then setFld s PACE_IN_PERIOD PACE_IN_PERIOD_PERIOD d
  else
    let f := freshValue s
    setFld f.2 PACE_IN_PERIOD PACE_IN_PERIOD_PERIOD (bitsOf f.1 0 32)
/-- An edge at `ts` is accepted. A free-run Glint that its marker has announced stands, and the edge's Glint follows it under R50
(R51, R61, R63; DESIGN CHOICE, log 89). -/
def acceptEdge (ts : Nat) (s : State) : State :=
  let s := match s.pace.lastEdge with
    | some e =>
      let s := inPeriod (ts - e) s
      if ts - e < 100 * fld s PACE_IN_MIN PACE_IN_MIN_MIN then paceReport 0x0D04 (some PACE_STATUS_SHORT) s else s
    | none => s
  let s := setPaceBit PACE_STATUS_SOURCE_LOST 0 (setPace (fun p => { p with lastEdge := some ts }) s)
  if roleNow s = 0 then schedule (ts + 100 * fld s PACE_LATENCY PACE_LATENCY_LATENCY) .edge s else s
/-- The PACE block takes edges of PACE_IN: enabled, that source, and no follower (R57; DEDUCED, log 56). -/
def takesEdges (s : State) : Bool := paceOn s && decide (paceSource s = 1) && decide (roleNow s ≠ 1)
/-- A qualified edge: ignored and counted within 1 µs of the last accepted one (R59). -/
def edgeAt (ts : Nat) (s : State) : State :=
  if !takesEdges s then s
  else match s.pace.lastEdge with
    | some e => if ts < e + 10000 then
        paceReport 0x0D03 (some PACE_STATUS_GLITCH) (setPace (fun p => { p with glitches := p.glitches + 1 }) s)
      else acceptEdge ts s
    | none => acceptEdge ts s
/-- PACE_IN_EDGE (R59): the pin changes at `ts` to `high` and holds that level for `hold`. -/
def execPaceInEdge (high : Bool) (ts hold : Nat) (s : State) : Res :=
  runIf (wfPaceInEdge high ts hold)
    (if high = s.pace.inHigh ∨ ts < s.pace.inChange then s
     else if hold < 200 then advanceTo (ts + hold) (setPace (fun p => { p with inChange := ts + hold }) s)
     else
       let held := decide (s.pace.inChange + 200 ≤ ts)
       let s := advanceTo (ts + 200) (setPace (fun p => { p with inHigh := high, inChange := ts }) s)
       if held && decide (high = !flag s PACE_CFG PACE_CFG_EDGE) then edgeAt ts s else s)
/-- The first multiple of `per` after `last` that lies at `least` or later. -/
def nextMultiple (last per least : Nat) : Nat :=
  if per = 0 then least else last + per * max 1 ((least - last + per - 1) / per)
/-- Free-run, where the last interval is known (R61); otherwise hold. -/
def freeRun (lost : Nat) (s : State) : State :=
  let per := fld s PACE_IN_PERIOD PACE_IN_PERIOD_PERIOD
  match lastDue s with
  | some l => if flag s PACE_CFG PACE_CFG_FALLBACK && decide (per ≠ 0) then
      schedule (nextMultiple l per (lost + 10000)) .freeRun s else s
  | none => s
/-- PACE_SOURCE_LOST (R61), of a master or a backup; a master in hold issues no Glints once the scheduled ones are out (DEDUCED,
log 51). -/
def execPaceSourceLost (s : State) : Res :=
  runIf wfPaceSourceLost
    (if !takesEdges s || flag s PACE_STATUS PACE_STATUS_SOURCE_LOST then s
     else
       let from_ := s.pace.lastEdge.getD s.pace.enabledAt
       let lost := from_ + 100 * fld s PACE_IN_TIMEOUT PACE_IN_TIMEOUT_TIMEOUT
       let s := paceReport 0x0D02 (some PACE_STATUS_SOURCE_LOST) (advanceTo lost s)
       if roleNow s ≠ 0 then s
       else
         let s := freeRun lost s
         if s.pace.sched.isEmpty then setPaceBit PACE_STATUS_RUNNING 0 s else s)

/-! ### The Glint (R50–R56, R62, R75) -/

/-- A Glint ends the waits for it (R52, R53). A context that is halted in its first GLINT.WAIT waits for a later Glint when it goes
on (DESIGN CHOICE, log 90). -/
def glintCtx (num : Nat) (x : Ctx) : Ctx :=
  match x.hold with
  | .nextGlint => if x.st = .waiting then { x with hold := .none, st := .ready, reason := 0, paced := true, slot := num } else x
  | .glint k =>
    if num < k then x
    else if x.st = .waiting then { x with hold := .none, st := .ready, reason := 0 } else { x with hold := .none }
  | _ => x
/-- The context has not ended the slot before `num` (R75). -/
def behindCtx (num : Nat) (x : Ctx) : Bool := x.paced && decide (x.slot < num) && decide (x.st ≠ .unloaded)
/-- The Glint that opens slot `num` reaches cores, channels and regions. -/
def glintReach (num : Nat) (s : State) : State :=
  let late := ((s.core.ctxs.filter fun e => behindCtx num e.2).map fun e => e.1 / 8).eraseDups
  let keep := s.core.glints.filter fun g => (List.range 8).any fun c => behindCtx g.2.1 (ctx s g.1 c)
  let new := late.map fun u => (u, num, fld s (CORE_BEATS u) CORE_BEATS_BEATS)
  let s := { s with core := { s.core with
      ctxs := mmap Ctx.unloaded (fun _ => true) (glintCtx num) s.core.ctxs
      glints := keep ++ new
      reached := ((s.core.ctxs.map fun e => e.1 / 8).eraseDups).foldl (fun m u =>
        mset 0 m u (fld s (CORE_BEATS u) CORE_BEATS_BEATS + 1)) [] }
                    pace := { s.pace with reachAt := some s.now }
                    log := { s.log with glints := s.log.glints + 1 } }
  let s := (mkeys s.strm.chans).foldl glintChan s
  forcedEpoch (glintLoam num (bumpCtr 36 1 s))
/-- What a master shows once it issues Glints (R65, R66). -/
def masterRuns (s : State) : State :=
  if roleNow s ≠ 0 then s
  else
    let s := setPace (fun p => { p with everLocked := true }) s
    let s := setPaceBit PACE_STATUS_TERM (max 1 (paceTerm s)) s
    let s := setPaceBit PACE_STATUS_SLOT_SYNC 1 (setPaceBit PACE_STATUS_TIME_LOCKED 1 (setPaceBit PACE_STATUS_HOPS 0 s))
    setFld (setFld (setFld s PACE_MASTER PACE_MASTER_MODULE (moduleIdx s)) PACE_MASTER PACE_MASTER_GROUP (groupIdx s))
      PACE_MASTER PACE_MASTER_VALID 1
/-- The pulse of PACE_OUT (R62). -/
def paceOut (fire : Nat) (s : State) : State :=
  if flag s PACE_CFG PACE_CFG_OUT_EN then
    let w := max 1 (fld s PACE_CFG PACE_CFG_OUT_WIDTH)
    emit (.paceOut fire w) (setPace (fun p => { p with outUntil := fire + 100 * w }) s)
  else s
/-- The master's next Glint follows one that has fired (R57, R58, R61). -/
def chainGlint (x : Sched) (s : State) : State :=
  match x.kind with
  | .internal => if isMaster s && decide (paceSource s = 0) then schedule (x.fire + 100 * paceInEffect s) .internal s else s
  | .freeRun => if flag s PACE_STATUS PACE_STATUS_SOURCE_LOST then
      schedule (x.fire + fld s PACE_IN_PERIOD PACE_IN_PERIOD_PERIOD) .freeRun s else s
  | _ => s
/-- The earliest scheduled Glint fires. -/
def fireNext (s : State) : State :=
  match s.pace.sched with
  | [] => s
  | x :: rest =>
    if !hgCal s then s
    else
      let s := advanceTo x.fire (setPace (fun p => { p with sched := rest, lastFire := some x.fire, issued := true }) s)
      let s := masterRuns (setPaceBit PACE_STATUS_RUNNING 1 (rset s PACE_SLOT (BitVec.ofNat 64 x.num)))
      let s := paceOut x.fire (chainGlint x s)
      let s := if isMaster s && flag s PACE_STATUS PACE_STATUS_SOURCE_LOST && s.pace.sched.isEmpty then
        setPaceBit PACE_STATUS_RUNNING 0 s else s
      let s := if !paceOn s && s.pace.sched.isEmpty then paceStops s else s
      glintReach x.num s
/-- GLINT_FIRE (R50). -/
def execGlintFire (s : State) : Res := runIf wfGlintFire (fireNext s)

/-! ### Markers (R63–R67, R72, R487) -/

/-- The number congruent to `low` modulo `m` that lies nearest to `near`. -/
def nearest (low m near : Nat) : Nat :=
  let c := near - near % m + low % m
  if near + m / 2 < c ∧ m ≤ c then c - m else if c + m / 2 < near then c + m else c
/-- The forwarding of a PACE block whose first copy this is (R63). -/
def forwardPace (key : Nat × Nat) (b : LinkBlock) (s : State) : State :=
  let s := setPace (fun p => { p with markers := key :: p.markers }) s
  (upPorts s).foldl (fun s q => bumpCtr (84 + 8 * q) 1 (sendBlock q b s)) s
/-- A request for the pace state goes to the master (R66). -/
def askState (s : State) : State :=
  let ref := fld s PACE_MASTER PACE_MASTER_MODULE * 8 + fld s PACE_MASTER PACE_MASTER_GROUP
  let s := setPace (fun p => { p with asked := some (paceTime s) }) s
  sendPacket (ownPkt s (idxOfRef ref) 3 1 .paceRequest) s
/-- Margins and lateness of a marker (R67, R81): `fire` less arrival. In units of 10 ns the margin is rounded down and the lateness
up, and each stops at the end of its field (DESIGN CHOICE, log 91). -/
def noteMargin (fire : Nat) (s : State) : State :=
  let d : Int := ((fire : Int) - (paceTime s : Int)).fdiv 100
  let was := sgn 16 (fld s PACE_MARGIN PACE_MARGIN_MIN_MARGIN)
  let s := if d < was then setFld s PACE_MARGIN PACE_MARGIN_MIN_MARGIN (narrow 16 (max d (-32768))) else s
  if paceTime s ≤ fire then s
  else
    let l := (paceTime s - fire + 99) / 100
    let s := setFld s PACE_MARGIN PACE_MARGIN_LATE_MAX (max (fld s PACE_MARGIN PACE_MARGIN_LATE_MAX) (min l 65535))
    paceReport 0x0D05 (some PACE_STATUS_LATE) s
/-- A follower or backup follows a marker of the highest term (R65–R67, R72). It takes the term with the first Glint that it
follows (R66), and keeps the number of every marker it sees (R71). -/
def followMarker (k : Marker) (s : State) : State :=
  let s := setFld (setFld (setFld s PACE_MASTER PACE_MASTER_MODULE k.module) PACE_MASTER PACE_MASTER_GROUP k.group)
    PACE_MASTER PACE_MASTER_VALID 1
  let synced := flag s PACE_STATUS PACE_STATUS_SLOT_SYNC
  let near := if s.pace.issued || !s.pace.sched.isEmpty then nextNum s else s.pace.answered.getD (nextNum s - 1) + 1
  let num := nearest k.slot (2 ^ 40) near
  let s := setPace (fun p => { p with
    termSeen := k.term, heardAt := paceTime s, pathsDown := none, lastPeriod := k.period
    lastSlot := num }) s
  if !synced then (if s.pace.asked.isNone then askState s else s)
  else if !s.pace.everLocked || !hgCal s then s
  else
    let s := setPaceBit PACE_STATUS_TERM k.term s
    let fire := nearest k.fire (2 ^ 38) (paceTime s)
    let now := paceTime s
    let s := scheduleAt (max fire now) num .marker (noteMargin fire s)
    if (s.pace.sched.head?).any fun x => decide (x.fire ≤ now) then fireNext s else s
/-- PACE_MARKER_RECEIVE (R63, R72). A master that becomes a follower has no estimate of its time error yet (R65; DEDUCED, log 92). -/
def execPaceMarkerReceive (p : Nat) (k : Marker) (s : State) : Res :=
  runIf (wfPaceMarkerReceive p k)
    (if !portUp s p then s
     else
       let s := gotBlocks p 1 s
       if s.pace.markers.contains (k.term, k.slot) then s
       else
       let s := forwardPace (k.term, k.slot) (.marker k) s
       if !paceOn s then s
       else if roleNow s = 0 then
         if paceTerm s < k.term then
           let s := paceReport 0x0D07 (some PACE_STATUS_MASTER_CHANGE) (setPace (fun q => { q with sched := [] }) s)
           followMarker k (setPaceBit PACE_STATUS_TIME_LOCKED 0 (setPaceBit PACE_STATUS_ROLE_NOW 1 s))
         else s
       else if k.term < s.pace.termSeen then s else followMarker k s)

/-! ### Keep-alive and takeover (R70, R71) -/

/-- KEEP_ALIVE_SEND (R70). -/
def execKeepAliveSend (s : State) : Res :=
  runIf wfKeepAliveSend
    (if isMaster s then sendAll (.keepAlive (markerOf s (fld s PACE_SLOT PACE_SLOT_SLOT) (paceTime s))) s else s)
/-- KEEP_ALIVE_RECEIVE (R70): forwarded as markers are, its FIRE field telling copies apart (DESIGN CHOICE, log 52). -/
def execKeepAliveReceive (p : Nat) (k : Marker) (s : State) : Res :=
  runIf (wfKeepAliveReceive p k)
    (let key := (k.term, 2 ^ 40 + k.fire)
     if !portUp s p then s
     else
       let s := gotBlocks p 1 s
       if s.pace.markers.contains key then s
       else
       let s := forwardPace key (.keepAlive k) s
       if paceOn s && decide (roleNow s ≠ 0) && decide (s.pace.termSeen ≤ k.term) then
         setPace (fun q => { q with heardAt := paceTime s, pathsDown := none }) s
       else s)
/-- When a backup of this rank takes over (R70). -/
def takeoverAt (s : State) : Nat :=
  let quiet := s.pace.heardAt + 2500000
  let lost := match s.pace.pathsDown with
    | some t => min t quiet
    | none => quiet
  lost + (fld s PACE_CFG PACE_CFG_RANK - 1) * 2500000
/-- PACE_MASTER_CHANGE (R70, R71). -/
def execPaceMasterChange (s : State) : Res :=
  runIf wfPaceMasterChange
    (if !paceOn s || decide (roleNow s ≠ 2) then s
     else
       let s := advanceTo (takeoverAt s) s
       let term := (max (paceTerm s) s.pace.termSeen + 1) % 256
       let s := setPaceBit PACE_STATUS_ROLE_NOW 0 (setPaceBit PACE_STATUS_TERM term s)
       let s := setPace (fun p => { p with termSeen := term, takePeriod := p.lastPeriod }) s
       let s := paceReport 0x0D06 (some PACE_STATUS_MASTER_CHANGE) s
       if paceSource s = 0 then
         schedule (nextMultiple ((lastDue s).getD (paceTime s)) (100 * paceInEffect s) (paceTime s + 10000)) .internal s
       else if flag s PACE_STATUS PACE_STATUS_SOURCE_LOST then freeRun (paceTime s) s
       else s)

/-! ### Slot numbers (R66) -/

def needsSync (s : State) : Bool := paceOn s && decide (roleNow s ≠ 0) && !flag s PACE_STATUS PACE_STATUS_SLOT_SYNC
/-- PACE_STATE_REQUEST_RETRY (R66). -/
def execPaceStateRequestRetry (s : State) : Res :=
  runIf wfPaceStateRequestRetry
    (match s.pace.asked with
     | some t => if needsSync s then askState (advanceTo (t + 1000000) s) else s
     | none => s)
/-- PACE_STATE_REQUEST (R66): from module × 8 + group. -/
def execPaceStateRequest (src : Nat) (s : State) : Res :=
  runIf (wfPaceStateRequest src)
    (if !isMaster s then s
     else sendPacket (ownPkt s (idxOfRef src) 3 1 (.paceAnswer (fld s PACE_SLOT PACE_SLOT_SLOT) (paceTerm s))) s)
/-- PACE_STATE_ANSWER (R66). -/
def execPaceStateAnswer (slot term : Nat) (s : State) : Res :=
  runIf (wfPaceStateAnswer slot term)
    (if needsSync s && s.pace.asked.isSome then
      setPaceBit PACE_STATUS_SLOT_SYNC 1 (setPace (fun p => { p with
        asked := none, answered := some slot, lastSlot := max p.lastSlot slot }) s)
     else s)

end Sys2Proof.Machine
end

