-- ==== Sys2Proof/Machine/PacketRows.lean ====
section
/-!
DEFINITION. The rows of the packet network and the Lantern probes (chapter 12): packets as flits in the buffers of the routers, their
arbitration, packet ports, events and doorbells, the wake of sleeping blocks.
-/
namespace Sys2Proof.Machine
open Sys2Proof

/-! ### Lantern probes (R348–R351) -/

def ltnBit (s : State) (p : Nat) (f : Fld) (i : Nat) : Bool := Nat.testBit (fld s (LTN_CFG p) f) i
/-- The probe watches this port in this direction and its tests hold (R348). -/
def ltnMatch (s : State) (p h port : Nat) (out : Bool) (hdr : BitVec 256) : Bool :=
  let r := LTN_CFG p
  let masked (x v m : Nat) : Bool := decide (x &&& m = v &&& m)
  let addr := bitsOf hdr 64 56
  flag s r LTN_CFG_EN && decide (fld s r LTN_CFG_ROUTER = h) && decide (fld s r LTN_CFG_PORT = port) &&
  decide (flag s r LTN_CFG_DIR = out) && ltnBit s p LTN_CFG_OP_MASK (bitsOf hdr 0 4) &&
  (vcOfOp (bitsOf hdr 0 4)).any (ltnBit s p LTN_CFG_VC_MASK) &&
  masked (bitsOf hdr 32 16) (fld s (LTN_NODE p) LTN_NODE_SRC_VAL) (fld s (LTN_NODE p) LTN_NODE_SRC_MASK) &&
  masked (bitsOf hdr 48 16) (fld s (LTN_NODE p) LTN_NODE_DST_VAL) (fld s (LTN_NODE p) LTN_NODE_DST_MASK) &&
  decide (fld s (LTN_ADDR_LO p) LTN_ADDR_LO_LOW ≤ addr) && decide (addr ≤ fld s (LTN_ADDR_HI p) LTN_ADDR_HI_HIGH)
/-- The 32 bytes of a trace record. -/
def traceRecord (s : State) (p h port : Nat) (out : Bool) (hdr : BitVec 256) : List Byte :=
  leBytes 8 (paceTime s % 2 ^ 48 + h * 2 ^ 48 + port * 2 ^ 59) ++ leBytes 8 (bitsOf hdr 0 64) ++ leBytes 8 (bitsOf hdr 64 64) ++
    leBytes 8 (bitsOf hdr 128 32 + bitsOf hdr 160 16 * 2 ^ 32 + p * 2 ^ 48 + b2n out * 2 ^ 52)
/-- A record is lost; a full ring is reported once (R351). -/
def traceDrop (full : Bool) (p : Nat) (s : State) : State :=
  let s := satFld s (LTN_DROP p) LTN_DROP_DROPPED 1
  if !full || mget false s.pwr.ltnFull p then s
  else logErr 0x0406 0x27 none 0 { s with pwr := { s.pwr with ltnFull := mset false s.pwr.ltnFull p true } }
def ltnLen (s : State) (p : Nat) : Nat := ringLen (fld s (LTN_RING p) LTN_RING_SIZE)
/-- The ring of probe `p` is full: HEAD + 1 equals TAIL modulo its size. -/
def ltnRingFull (s : State) (p : Nat) : Bool :=
  decide ((fld s (LTN_PTR p) LTN_PTR_HEAD + 1) % ltnLen s p = fld s (LTN_PTR p) LTN_PTR_TAIL % ltnLen s p)
def traceOf (s : State) (p : Nat) : List (List Byte) := mget [] s.net.trace p
/-- A record takes its place in the probe's buffer of 16, or is dropped with that or the ring full; without a ring none is made (R351;
DEDUCED, log 41). -/
def tracePut (p : Nat) (rec : List Byte) (s : State) : State :=
  if !flag s (LTN_RING p) LTN_RING_EN then s
  else if ltnRingFull s p then traceDrop true p s
  else if 16 ≤ (traceOf s p).length then traceDrop false p s
  else setNet (fun w => { w with trace := mset [] w.trace p (mget [] w.trace p ++ [rec]) }) s
/-- LPDDR5X offset of the next record of a ring. -/
def traceOff (s : State) (p : Nat) : Nat := fld s (LTN_RING p) LTN_RING_BASE * 4096 + 32 * fld s (LTN_PTR p) LTN_PTR_HEAD
/-- The oldest record of a probe leaves its buffer: into the ring at offset `off`, or nowhere where the ring has gone or filled up. -/
def traceWrite (p off : Nat) (s : State) : State :=
  match traceOf s p with
  | [] => s
  | rec :: rest =>
    let s := setNet (fun w => { w with trace := mset [] w.trace p rest }) s
    if !flag s (LTN_RING p) LTN_RING_EN then s
    else if ltnRingFull s p then traceDrop true p s
    else setFld (dramWriteAll off rec s) (LTN_PTR p) LTN_PTR_HEAD ((fld s (LTN_PTR p) LTN_PTR_HEAD + 1) % ltnLen s p)
/-- A header matches probe `p` (R349). -/
def ltnHit (pre : State) (h port : Nat) (out : Bool) (hdr : BitVec 256) (s : State) (p : Nat) : State :=
  if !ltnMatch pre p h port out hdr then s
  else
    let s := satFld (satFld s (LTN_COUNT p) LTN_COUNT_PACKETS 1) (LTN_COUNT p) LTN_COUNT_FLITS (bitsOf hdr 4 5 + 1)
    let s := if flag pre (LTN_CFG p) LTN_CFG_TRACE && mget false pre.pwr.tracing p then
        tracePut p (traceRecord pre p h port out hdr) s else s
    (List.range 16).foldl (fun s q =>
      if ltnBit pre p LTN_CFG_TRIG q && flag pre (LTN_CFG q) LTN_CFG_EN && flag pre (LTN_CFG q) LTN_CFG_ARM then
        { s with pwr := { s.pwr with tracing := mset false s.pwr.tracing q true } } else s) s
/-- The probes see a header; each judges by the tracing that stood before it (DEDUCED, log 42). -/
def ltnSee (h port : Nat) (out : Bool) (hdr : BitVec 256) (s : State) : State :=
  (List.range 16).foldl (ltnHit s h port out hdr) s

/-! ### Routers and packet ports -/

/-! ### Packets (R336, R337) -/

/-- The operation code of a request packet (R337); MBX.SEND is a write that carries the body (R368). -/
def opOf (r : Req) (i : Nat) : Nat :=
  if isMsg r.op && decide (i + 1 = r.parts.length) then
    (match r.op with
     | .mbxSend _ _ _ => 2
     | _ => 3)
  else match r.op with
    | .store _ _ _ => 2
    | _ => 1
/-- The operation code of the answer. -/
def opOfAnswer (r : Req) (i : Nat) : Nat := opOf r i + 3
/-- SUBOP of a messaging operation; its codes are free values. -/
def subOpOf : ReqOp → Nat
  | .syncAdd _ _ => (Config.subOp 0).toNat
  | .syncSet _ _ => (Config.subOp 1).toNat
  | .syncWait _ _ => (Config.subOp 2).toNat
  | .syncTest _ _ => (Config.subOp 3).toNat
  | .lockAcq _ => (Config.subOp 4).toNat
  | .lockRel _ => (Config.subOp 5).toNat
  | .mbxSend _ _ _ => (Config.subOp 6).toNat
  | .mbxWdraw _ => (Config.subOp 7).toNat
  | .qSubmit _ _ => (Config.subOp 8).toNat
  | .qTake _ => (Config.subOp 9).toNat
  | _ => 0
/-- The operand of an atomic request. -/
def immOf : ReqOp → Nat
  | .syncAdd _ v => v.toNat
  | .syncSet _ v => v.toNat
  | .syncWait _ v => v.toNat
  | .syncTest _ v => v.toNat
  | _ => 0
/-- A header flit's data (R336), with no sender on another module. -/
def headerOf (op len src dst addr stamp tag size sub imm : Nat) : BitVec 256 :=
  BitVec.ofNat 256 (op + len * 2 ^ 4 + src * 2 ^ 32 + dst * 2 ^ 48 + addr % 2 ^ 56 * 2 ^ 64 + stamp % 2 ^ 32 * 2 ^ 128 +
    tag % 2 ^ 16 * 2 ^ 160 + (size - 1) % 512 * 2 ^ 176 + sub * 2 ^ 185 + imm % 2 ^ 64 * 2 ^ 192)
/-- The payload of a request: stored bytes, a mailbox body, a queue entry; with the offsets of poisoned words. -/
def reqPayload (r : Req) (i : Nat) : List Byte × List Nat :=
  match r.op with
  | .store a data bad => (match r.parts[i]? with
    | some p => partData a data bad p
    | none => ([], []))
  | .mbxSend _ _ _ => if i + 1 = r.parts.length then ((gather r.parts.dropLast).1, []) else ([], [])
  | .qSubmit _ e => (leBytes 64 e.toNat, [])
  | _ => ([], [])
/-- The payload of an answer and its status. -/
def ansPayload (p : Part) : List Byte × List Nat × Nat :=
  match p.ans with
  | some (.bytes d bad) => (d, bad.map (· - p.addr), 0)
  | some (.status v) => ([], [], v.toNat % 2 ^ 16)
  | some (.failed c) => ([], [], c)
  | some (.taken true e) => (leBytes 64 e.toNat, [], 0)
  | some (.test t) => ([], [], b2n t)
  | _ => ([], [], 0)
/-- A flit's sideband. -/
def sideOf (head tail : Bool) (vc poison : Nat) : BitVec 8 := BitVec.ofNat 8 (b2n head + b2n tail * 2 + vc * 4 + poison * 16)
/-- The flits of a packet: the header, then the payload 32 bytes to a flit (R336). -/
def flitsOf (pkt vc : Nat) (hdr : BitVec 256) (d : List Byte) (bad : List Nat) : List Flit :=
  let n := (d.length + 31) / 32
  ⟨sideOf true (decide (n = 0)) vc 0, hdr, pkt⟩ :: (List.range n).map fun k =>
    ⟨sideOf false (decide (k + 1 = n)) vc
      (((List.range 4).map fun w => b2n (bad.any fun o => decide (o / 8 = 4 * k + w)) * 2 ^ w).foldl (· + ·) 0),
     BitVec.ofNat 256 (leNat ((d.drop (32 * k)).take 32)), pkt⟩
/-- The node that an event or doorbell goes to; a doorbell for the owning host while there is none to port A's. -/
def signalNode (s : State) : Signal → Nat
  | .ctxEvent u _ _ => srcOf u
  | .cpMbx k _ _ => 0x10 + k
  | .cpQueue k _ => 0x10 + k
  | .mcMbx _ _ => 3
  | .msix p _ => 1 + p
  | .ownerMsix _ => 1 + (ownerHost s).getD 0
def isDoorbell : Signal → Bool
  | .msix _ _ => true
  | .ownerMsix _ => true
  | _ => false
/-- Header, payload and poisoned offsets of a packet, where what it carries still stands. -/
def packetOf (s : State) (c : Carry) : Option (BitVec 256 × List Byte × List Nat) :=
  let len (d : List Byte) : Nat := (d.length + 31) / 32
  match c with
  | .req tag i => (findReq s tag).bind fun r => (endpoint s r i).map fun d =>
    let p := r.parts.getD i ⟨0, 0, none⟩
    let b := reqPayload r i
    (headerOf (opOf r i) (len b.1) (srcOf r.u) d p.addr r.stamp tag p.n (subOpOf r.op) (immOf r.op), b.1, b.2)
  | .ans tag i => (findReq s tag).bind fun r => (endpoint s r i).map fun d =>
    let p := r.parts.getD i ⟨0, 0, none⟩
    let b := ansPayload p
    (headerOf (opOfAnswer r i) (len b.1) d (srcOf r.u) p.addr r.stamp tag p.n (subOpOf r.op) b.2.2, b.1, b.2.1)
  | .signal g => some (headerOf (if isDoorbell g then 9 else 8) 0 0x24 (signalNode s g) 0 (now10 s) 0 1 0 0, [], [])
  | .wake tag st => (findReq s tag).map fun r => (headerOf 10 0 0x24 (srcOf r.u) 0 (now10 s) tag 1 0 st.toNat, [], [])
  | .record p off => ((traceOf s p).head?).map fun rec =>
    (headerOf 13 1 0x27 (0x200 + lpDevCh off / 8) off (now10 s + 100000000) p 32 0 0, rec, [])
/-- Fields of a header. -/
def hdrVc (h : BitVec 256) : Nat := (vcOfOp (bitsOf h 0 4)).getD 0
def hdrLen (h : BitVec 256) : Nat := bitsOf h 4 5
def hdrDst (h : BitVec 256) : Nat := bitsOf h 48 16
def hdrStamp (h : BitVec 256) : Nat := bitsOf h 128 32

/-! ### Entering the network (R338, R341, R343) -/

/-- A part that its unit may send: a messaging operation with its body, once the earlier ones and, where R343 asks it, the earlier
writes are acknowledged. -/
def sendable (s : State) (r : Req) (i : Nat) : Bool :=
  if isMsg r.op && decide (i + 1 = r.parts.length) then
    (msgReq s r.tag).isSome && !isSent s r.tag i && !waitServed s r.tag && (storesDone s r || (match r.op with
      | .syncWait _ _ => true
      | .syncTest _ _ => true
      | .lockAcq _ => true
      | .mbxWdraw _ => true
      | .qTake _ => true
      | _ => false))
  else !isSent s r.tag i
/-- What a node has to send, with the VC: requests of its unit, answers that it owes; CP0's stop, for the blocks behind it, events,
doorbells, wakes and the records of the probes. -/
def toSend (s : State) (node : Nat) : List (Nat × Carry) :=
  let fresh (c : Carry) : Bool := !inMesh s c && !hasArrived s c
  let accs := s.core.reqs.flatMap fun r => (r.parts.zipIdx).filterMap fun e =>
    match endpoint s r e.2 with
    | none => none
    | some d =>
      if e.1.ans.isNone then
        (if srcOf r.u = node ∧ sendable s r e.2 ∧ fresh (.req r.tag e.2) then some (0, Carry.req r.tag e.2) else none)
      else if d = node ∧ fresh (.ans r.tag e.2) then some (1, Carry.ans r.tag e.2) else none
  if node ≠ 0x10 then accs
  else
    accs ++ ((s.sync.signals.map Carry.signal).filter fresh).map (fun c => (2, c)) ++
      ((s.sync.wakes.map fun w => Carry.wake w.1 w.2).filter fresh).map (fun c => (2, c)) ++
      ((List.range 16).filter fun p => !(traceOf s p).isEmpty && !(s.net.pkts.any fun k => match k.carry with
        | .record q _ => decide (q = p)
        | _ => false)).map fun p => (3, Carry.record p (traceOff s p))
/-- The earliest stamp among what a node may send on a VC; the first on a tie. -/
def nextToSend (s : State) (node vc : Nat) : Option (Carry × BitVec 256 × List Byte × List Nat) :=
  (((toSend s node).filter fun e => decide (e.1 = vc)).filterMap fun e => (packetOf s e.2).map fun b => (e.2, b)).foldl
    (fun best e => match best with
      | none => some e
      | some b => if precedes (hdrStamp e.2.1) (hdrStamp b.2.1) then some e else best) none
def portKey (h port vc : Nat) : Nat := (h * 24 + port) * 4 + vc
/-- The buffer of an input port for a VC (R339). -/
def flitBuf (s : State) (h port vc : Nat) : List Flit := mget [] s.net.bufs (portKey h port vc)
def bufRoom (s : State) (h port vc : Nat) : Bool := decide ((flitBuf s h port vc).length < 8)
def pushFlit (h port vc : Nat) (f : Flit) (s : State) : State :=
  setNet (fun w => { w with bufs := mset [] w.bufs (portKey h port vc) (mget [] w.bufs (portKey h port vc) ++ [f]) }) s
/-- The probes see the flit that passes a port, where it is a header. -/
def seeFlit (h port : Nat) (out : Bool) (f : Flit) (s : State) : State := if f.side.getLsbD 0 then ltnSee h port out f.data s else s
def sideVc (f : Flit) : Nat := bitsOf f.side 2 2
/-- The next flit that the node at a port sends on a VC, with the state in which it stands at the front of its packet. -/
def nextFlit (s : State) (h port vc node : Nat) : Option (Flit × State) :=
  match s.net.pkts.find? fun k => decide (k.src = h * 24 + port) && (match k.rest with
      | f :: _ => decide (sideVc f = vc)
      | [] => false) with
  | some k => (k.rest.head?).map fun f =>
    (f, setNet (fun w => { w with pkts := w.pkts.map fun x => if x.id = k.id then { x with rest := x.rest.tail } else x }) s)
  | none => (nextToSend s node vc).map fun e =>
    let fs := flitsOf s.net.nextPkt vc e.2.1 e.2.2.1 e.2.2.2
    (fs.headD ⟨0, 0, 0⟩,
      setNet (fun w => { w with pkts := w.pkts ++ [⟨w.nextPkt, h * 24 + port, e.1, fs.tail⟩], nextPkt := w.nextPkt + 1 }) s)
/-- The VCs in the order of R340. -/
def vcOrder : List Nat := [3, 1, 2, 0]
/-- An access for a module that is ABSENT is answered where it would be sent (R37, R361). -/
def answerAbsent (node : Nat) (s : State) : State :=
  match s.core.reqs.findSome? fun r => if srcOf r.u = node then (List.range r.parts.length).findSome? fun i =>
      (remotePart s r.tag i).bind fun e => if (routePort s e.2.2).isNone then some (r.tag, i) else none else none with
  | some e => unreachable e.1 e.2 s
  | none => s
/-- One beat in which the node at a port sends a flit into its router: VCs in the order of R340 (DESIGN CHOICE, log 111). -/
def flitIn (h port : Nat) (s : State) : State :=
  match nodeAt s h port with
  | none => s
  | some node =>
    let s := answerAbsent node s
    match vcOrder.findSome? fun v => if bufRoom s h port v then (nextFlit s h port v node).map fun e => (v, e.1, e.2) else none with
    | none => s
    | some (v, f, t) => seeFlit h port false f (pushFlit h port v f t)

/-! ### Routers (R335, R339, R340) -/

/-- An output VC of router `h` has the next buffer's room; a packet port or stop takes every flit (R338), but for a sleeping block's
core port and a Cyust port in electrical idle (R345, R346). -/
def outRoom (s : State) (h port vc : Nat) : Bool :=
  if port < 4 then bufRoom s (linkTo h port).1 (linkTo h port).2 vc
  else if port < 20 then !blockGated s h
  else match nodeAt s h port with
    | some node => !(decide (0x300 ≤ node) && decide (node < 0x308) && decide (portState s (node - 0x300) = 4))
    | none => false
/-- The front flit of an input port's buffer may leave by output `port` on this VC: it belongs to the packet that holds the output
VC, or nothing holds it and it is a header that the route sends there. -/
def mayLeave (s : State) (h port vc q : Nat) : Option Flit :=
  let own := mget 0 s.net.owner (portKey h port vc)
  ((flitBuf s h q vc).head?).bind fun f =>
    if own ≠ 0 then (if f.pkt + 1 = own ∧ !f.side.getLsbD 0 then some f else none)
    else if f.side.getLsbD 0 ∧ routeOut s h (hdrDst f.data) = some port then some f else none
/-- The input port and flit that an output port would serve on a VC: of headers the earliest stamp, the lower input port on a tie
(R340); none: no flit is ready. -/
def readyFlit (s : State) (h port vc : Nat) : Option (Nat × Flit) :=
  if !outRoom s h port vc then none
  else ((List.range 24).filterMap fun q => (mayLeave s h port vc q).map fun f => (q, f)).foldl
    (fun best e => match best with
      | none => some e
      | some b => if precedes (hdrStamp e.2.data) (hdrStamp b.2.data) then some e else best) none
/-- The VC that an output port serves in a beat: one refused for 32 beats first, then the order of R340. -/
def servedVc (s : State) (h port : Nat) : Option Nat :=
  let ready := vcOrder.filter fun v => (readyFlit s h port v).isSome
  match ready.find? fun v => decide (32 ≤ mget 0 s.net.refused (portKey h port v)) with
  | some v => some v
  | none => ready.head?
/-- What a packet carries has reached its node. -/
def deliverCarry (c : Carry) (s : State) : State :=
  match c with
  | .record p off => traceWrite p off s
  | _ => setNet (fun w => { w with arrived := w.arrived ++ [c] }) s
/-- A packet has left the network. -/
def landPkt (id : Nat) (s : State) : State :=
  match s.net.pkts.find? fun k => decide (k.id = id) with
  | none => s
  | some k => deliverCarry k.carry (setNet (fun w => { w with pkts := w.pkts.filter fun x => decide (x.id ≠ id) }) s)
/-- The oldest access that waits at a Cyust stop sets out (R346, R501). -/
def leaveModule (p : Nat) (s : State) : State :=
  match s.net.arrived.findSome? fun c => (match c with
    | .req tag i => (remotePart s tag i).bind fun e => if routePort s e.2.2 = some p then some (e, i) else none
    | _ => none) with
  | some ((r, x, d), i) => sendRemote r x i d s
  | none => s
/-- The stop of a Cyust port is at this router port. -/
def cyustAt (s : State) (h port : Nat) : Option Nat :=
  (nodeAt s h port).bind fun n => if 0x300 ≤ n ∧ n < 0x308 then some (n - 0x300) else none
/-- Arrivals that nothing can take any more are forgotten. -/
def tidyNet (s : State) : State :=
  setNet (fun w => { w with arrived := w.arrived.filter fun c => match c with
    | .req tag _ => (findReq s tag).isSome
    | .ans tag _ => (findReq s tag).isSome
    | .signal g => s.sync.signals.contains g
    | .wake tag st => s.sync.wakes.contains (tag, st)
    | .record _ _ => false }) s
/-- One beat of an output port: the flit that R340 chooses moves on, and the ready VCs it passes over count a refusal. -/
def flitOut (h port : Nat) (s : State) : State :=
  match servedVc s h port with
  | none => s
  | some v => match readyFlit s h port v with
    | none => s
    | some (q, f) =>
      let refused := vcOrder.foldl (fun m u =>
        let k := portKey h port u
        mset 0 m k (if u ≠ v ∧ (readyFlit s h port u).isSome then mget 0 m k + 1 else 0)) s.net.refused
      let s := bumpCtr (1920 + h) 1 (setNet (fun w => { w with
        refused := refused
        bufs := mset [] w.bufs (portKey h q v) (mget [] w.bufs (portKey h q v)).tail
        owner := mset 0 w.owner (portKey h port v) (if f.side.getLsbD 1 then 0 else f.pkt + 1) }) s)
      let s := seeFlit h port true f s
      if port < 4 then
        let n := linkTo h port
        seeFlit n.1 n.2 false f (pushFlit n.1 n.2 v f s)
      else if f.side.getLsbD 1 then landPkt f.pkt s else s
/-- The header of a packet whose other hops no command lists passes a port of its path; at the destination's port a trace record
reaches its ring, and a request for another module sets out (log 111). -/
def passWhole (h port : Nat) (out : Bool) (c : Carry) (s : State) : State :=
  if inMesh s c || hasArrived s c then s
  else match packetOf s c with
    | none => (match c with
      | .req tag i => (match remotePart s tag i with
        | some e => if (routePort s e.2.2).isNone then unreachable tag i s else s
        | none => s)
      | _ => s)
    | some b =>
      let src := match c with
        | .record _ _ => 0x10
        | _ => bitsOf b.1 32 16
      if !(pathOf s src (hdrDst b.1)).contains (h, port, out) then s
      else
        let s := if out then bumpCtr (1920 + h) (hdrLen b.1 + 1) s else s
        let s := ltnSee h port out b.1 s
        if !out || decide (port < 4) then s
        else match c with
          | .record p off => traceWrite p off s
          | .req tag i => (match cyustAt s h port, remotePart s tag i with
            | some q, some e => if routePort s e.2.2 = some q then sendRemote e.1 e.2.1 i e.2.2 s else s
            | _, _ => s)
          | _ => s
/-- PACKET_FORWARD (R332, R335, R339, R340): a flit enters the router from the node at its port, or leaves by the port; a router works
while the compute side is up. -/
def execPacketForward (h port : Nat) (out : Bool) (what : Passing) (s : State) : Res :=
  runIf (wfPacketForward h port out what)
    (if !flag s GLB_STATUS GLB_STATUS_COMPUTE_UP then s
     else match what with
       | .flit =>
         let s := tidyNet s
         if out then
           let s := match cyustAt s h port with
             | some q => leaveModule q s
             | none => s
           flitOut h port s
         else flitIn h port s
       | .req tag i => passWhole h port out (.req tag i) s
       | .ans tag i => (match (findReq s tag).bind fun r => r.parts[i]? with
         | some p => if p.ans.isSome then passWhole h port out (.ans tag i) s else s
         | none => s)
       | .record p => passWhole h port out (.record p (traceOff s p)) s)

/-! ### Packet ports of cores -/

/-- The answer to an access reaches its core: not while its block sleeps, and not where a sleeping block's router discarded it
(R345, R347); an answer that nothing waits for is gone. -/
def reaches (s : State) (r : Req) : Bool :=
  !unitGated s r.u && (r.orphan || !s.pwr.lost.contains r.tag) && answersHere s r
/-- The core whose packet port serves a part of an access. -/
def partCore (r : Req) (p : Part) : Option Nat :=
  if p.n = 0 || !(decide (selOf p.addr = 1) || decide (selOf p.addr = 2)) then none
  else (homeCore p.addr).bind fun n => if n = r.u ∨ nCores ≤ n then none else some n
/-- A core may reach another core's packet port only within its plot (R344). -/
def portAllowed (s : State) (u n : Nat) : Bool := isCp u || ((plotOf s u).isSome && decide (plotOf s u = plotOf s n))
/-- The packet port of core `n` answers a part of an access (R241, R344; log 44). -/
def portServe (r : Req) (p : Part) (i n : Nat) (s : State) : State :=
  if !portAllowed s r.u n then answerPart r.tag i (.failed 0x0404) (logErr 0x0404 (srcOf n) (plotOf s n) 0 s)
  else
    let k := homeKey s p.addr
    let refused := selOf p.addr = 2 ∧ (bankDenied s n 10 (localOf p.addr) p.n).isSome
    let s := if refused then logErr 0x0602 (srcOf n) (plotOf s n) 0 s else s
    match r.op with
    | .store a data bad =>
      if refused then answerPart r.tag i (.status 0) s
      else
        let d := partData a data bad p
        answerPart r.tag i (.status 0) (markLoc k d.2 (locStore n k d.1 s))
    | _ =>
      if refused then
        let (d, s) := openBytes p.n s
        answerPart r.tag i (.bytes d ((wordsOf p.addr p.n).map (8 * ·))) s
      else
        let (a, s) := locRead n p.addr k p.n s
        answerPart r.tag i a s
/-- A block has been given a packet (R550). -/
def sawPacket (n : Nat) (s : State) : State :=
  { s with pwr := { s.pwr with pktAt := mset 0 s.pwr.pktAt (blockOf (physOf s n)) (paceTime s) } }
/-- A part of an access whose turn has come at the packet port of a core that is awake. -/
def portRequest (tag i : Nat) (s : State) : State :=
  match findReq s tag with
  | none => s
  | some r => match openAt s r i with
    | none => s
    | some p => match partCore r p with
      | none => s
      | some n => if unitGated s n || !inOrder s r p || sieveHolds s (homeKey s p.addr) p.n then s else portServe r p i n (sawPacket n s)
/-- PACKET_PORT_REQUEST (R344). -/
def execPacketPortRequest (tag part : Nat) (s : State) : Res := runIf (wfPacketPortRequest tag part) (portRequest tag part s)

/-! ### Events and doorbells (R337, R372, R376) -/

/-- The key of an event bit that a control processor or the MC (4) has received. -/
def evKey (who : Nat) (queue : Bool) (n : Nat) : Nat := who * 2 ^ 22 + b2n queue * 2 ^ 21 + n
/-- An EVENT packet arrives; none: it is no EVENT packet, or its core sleeps. -/
def takeEvent (s : State) : Signal → Option State
  | .ctxEvent u c bits => if unitGated s u then none else
      let s := raiseEvents u c (BitVec.ofNat 4 bits) s
      some (if isCp u then s else sawPacket u s)
  | .cpMbx k j db => some { s with sync := { s.sync with evBits := mset false s.sync.evBits (evKey k false (j * 32 + db)) true } }
  | .cpQueue k q => some { s with sync := { s.sync with evBits := mset false s.sync.evBits (evKey k true q) true } }
  | .mcMbx j db => some { s with sync := { s.sync with evBits := mset false s.sync.evBits (evKey 4 false (j * 32 + db)) true } }
  | .msix _ _ => none
  | .ownerMsix _ => none
/-- A DOORBELL packet arrives at a host port: an MSI-X trigger (R474). -/
def takeDoorbell (s : State) : Signal → Option State
  | .msix p vec => some (msixTrigger p vec s)
  | .ownerMsix vec => some (ownerTrigger vec s)
  | _ => none
/-- A copy of this signal can be taken: not every one that is on its way is still in the network. -/
def signalHere (s : State) (g : Signal) : Bool :=
  decide ((s.net.pkts.filter fun k => decide (k.carry = .signal g)).length < s.sync.signals.count g)
/-- The oldest signal that `take` accepts is delivered. -/
def deliverSignal (take : State → Signal → Option State) (s : State) : List Signal → List Signal → State
  | _, [] => s
  | before, g :: rest =>
    match (if signalHere s g then take (setNet (fun w => { w with arrived := w.arrived.erase (.signal g) })
      { s with sync := { s.sync with signals := before.reverse ++ rest } }) g else none) with
    | some t => t
    | none => deliverSignal take s (g :: before) rest
/-- EVENT_PACKET (R337): the oldest event on its way. -/
def execEventPacket (s : State) : Res := runIf wfEventPacket (deliverSignal takeEvent s [] s.sync.signals)
/-- DOORBELL_PACKET (R337). -/
def execDoorbellPacket (s : State) : Res := runIf wfDoorbellPacket (deliverSignal takeDoorbell s [] s.sync.signals)

/-! ### Wake on packet (R345–R347) -/

def setPwr (f : PwrSt → PwrSt) (s : State) : State := { s with pwr := f s.pwr }
def heldFor (s : State) (b vc : Nat) : Option HeldPkt :=
  s.pwr.heldPkts.find? fun h => decide (h.block = b) && decide (h.vc = vc) && !h.queued
def unhold (h : HeldPkt) (s : State) : State := setPwr (fun w => { w with heldPkts := w.heldPkts.filter fun x => decide (x ≠ h) }) s
/-- The packet named goes to block `b`: a request on VC0 to a core of it, a response on VC1 to an access of one, a management access
of a control processor on VC3 to the page of one. -/
def heldFits (s : State) (b vc : Nat) (req : Option (Nat × Nat)) : Bool :=
  match req with
  | none => decide (vc = 2)
  | some (tag, i) => match findReq s tag with
    | none => false
    | some r =>
      if vc = 0 then (openPart r i).any fun p => (partCore r p).any fun n => decide (blockOf (physOf s n) = b)
      else if vc = 3 then isCp r.u && (openPart r i).any fun p => decide (selOf p.addr = 3) && sleepingPage s (offOf p.addr) == some b
      else decide (vc = 1) && (r.parts[i]?).any (·.ans.isSome) && !isCp r.u && decide (blockOf (physOf s r.u) = b)
/-- The packet in the network that the wake buffer takes: its header stands at the router of the block, for a core of it. -/
def atRouter (s : State) (b vc : Nat) (k : Pkt) : Bool :=
  (List.range 24).any fun q => ((flitBuf s b q vc).head?).any fun f =>
    decide (f.pkt = k.id) && f.side.getLsbD 0 && (routeOut s b (hdrDst f.data)).any fun p => decide (4 ≤ p) && decide (p < 20)
/-- A packet is taken whole out of the network. -/
def pullPkt (id : Nat) (s : State) : State :=
  setNet (fun w => { w with
    pkts := w.pkts.filter fun k => decide (k.id ≠ id)
    bufs := mmap [] (fun _ => true) (fun l => l.filter fun f => decide (f.pkt ≠ id)) w.bufs
    owner := mmap 0 (fun _ => true) (fun o => if o = id + 1 then 0 else o) w.owner }) s
/-- What the network carries for this request on this VC; an event or wake has no request. -/
def carries (vc : Nat) (req : Option (Nat × Nat)) (k : Pkt) : Bool :=
  match k.carry, req with
  | .req t i, some e => decide (vc = 0) && decide (e = (t, i))
  | .ans t i, some e => decide (vc = 1) && decide (e = (t, i))
  | .signal _, none => decide (vc = 2)
  | .wake _ _, none => decide (vc = 2)
  | _, _ => false
/-- BLOCK_WAKE_REQUEST (R345): one packet is held for each VC of a block, taken whole from the network where it is there. -/
def execBlockWakeRequest (b vc : Nat) (req : Option (Nat × Nat)) (s : State) : Res :=
  runIf (wfBlockWakeRequest b vc req)
    (if !blockGated s b || (heldFor s b vc).isSome || !heldFits s b vc req then s
     else
       let mine := s.net.pkts.filter (carries vc req)
       let here := mine.find? (atRouter s b vc)
       if !mine.isEmpty && here.isNone && req.isSome then s
       else
         let s := match here with
           | some k => pullPkt k.id s
           | none => s
         setPwr (fun w => { w with heldPkts := w.heldPkts ++ [⟨b, vc, req, paceTime s, none, false⟩] }) s)
/-- A held packet is delivered: a request is served; an event, a wake or a response is taken by the row that delivers it. -/
def deliverHeld (s : State) (h : HeldPkt) : State :=
  match h.vc, h.req with
  | 0, some (tag, i) => portRequest tag i (unhold h s)
  | _, _ => unhold h s
/-- The oldest event for a core of block `b` is discarded. -/
def dropEvent (b : Nat) (s : State) : State :=
  match s.sync.signals.find? fun g => (match g with
    | .ctxEvent u _ _ => !isCp u && decide (blockOf (physOf s u) = b)
    | _ => false) with
  | some g => { s with sync := { s.sync with signals := s.sync.signals.erase g } }
  | none => s
/-- A request that is held and given up is answered with the status (R347). -/
def answerHeld (tag i : Nat) (s : State) : State :=
  if ((findReq s tag).bind fun r => openPart r i).isSome then answerPart tag i (.failed 0x0405) s else s
/-- The poisoned answer of a management read (R347). -/
def poisonedRead (g : Mgmt) (s : State) : State :=
  match g.m with
  | .host p =>
    let d := freshBytes g.n s
    emit (.hostData p (some d.1) true) d.2
  | m => emit (.csrPoisoned m 0x0405) s
/-- The next management access that waits upstream of a block takes the wake buffer. -/
def nextHeld (b : Nat) (s : State) : State :=
  match s.pwr.heldPkts.find? fun h => decide (h.block = b) && h.queued with
  | some h => setPwr (fun w => { w with heldPkts := w.heldPkts.map fun x => if x = h then { x with queued := false, time := paceTime s } else x }) s
  | none => s
/-- The held packet is given up (R347). -/
def giveUp (h : HeldPkt) (s : State) : State :=
  let s := unhold h s
  match h.vc, h.req with
  | 0, some (tag, i) => answerHeld tag i s
  | 1, some (tag, _) => setPwr (fun w => { w with lost := tag :: w.lost }) s
  | 2, _ => dropEvent h.block s
  | 3, some (tag, i) => answerHeld tag i s
  | _, _ => match h.mgmt with
    | some g => nextHeld h.block (if g.v.isNone then poisonedRead g s else s)
    | none => s
/-- WAKE_TIMEOUT (R347): 50 µs after the request; the source is the power blocks' (DESIGN CHOICE, log 43). -/
def execWakeTimeout (b vc : Nat) (s : State) : Res :=
  runIf (wfWakeTimeout b vc)
    (match heldFor s b vc with
     | some h => if blockGated s b then giveUp h (logErr 0x0405 0x25 none 0 (advanceTo (h.time + 500000) s)) else s
     | none => s)

/-! ### Lantern registers -/

/-- LTN_CFG_WRITE (R350): ARM = 0 traces from the write that sets EN; clearing EN stops. -/
def execLtnCfgWrite (m : Master) (p : Nat) (v : W64) (s : State) : Res :=
  runIf (wfLtnCfgWrite m p v)
    (byMaster m (LTN_CFG p) (fun s => 
     if !mayAdmin s m then s
     else
       let was := flag s (LTN_CFG p) LTN_CFG_EN && mget false s.pwr.tracing p
       let tr := bit1 v 17 && (!bit1 v 39 || was)
       setPwr (fun w => { w with tracing := mset false w.tracing p tr }) (rset s (LTN_CFG p) (v &&& 0x00FFFFFFFFFFFFFF#64))) s)
/-- LTN_RING_WRITE (R351, R597). -/
def execLtnRingWrite (m : Master) (p : Nat) (v : W64) (s : State) : Res :=
  runIf (wfLtnRingWrite m p v)
    (byMaster m (LTN_RING p) (fun s => 
     if !mayAdmin s m then s
     else if ringFits v (32 * ringLen (bitsOf v 56 4)) then
       setPwr (fun w => { w with ltnFull := mset false w.ltnFull p false })
         (setFld (setFld (rset s (LTN_RING p) (ringWord v)) (LTN_PTR p) LTN_PTR_HEAD 0) (LTN_PTR p) LTN_PTR_TAIL 0)
     else logErr 0x0C0A 0x27 none 0 s) s)

end Sys2Proof.Machine
end

