-- ==== Sys2Proof/Machine/Sequencer.lean ====
section
/-!
DEFINITION. The sequencer (R82–R119): what a bundle names, why it waits, what it faults with, where control goes next, which
context issues, and the beat.
-/
namespace Sys2Proof.Machine
open Sys2Proof

/-! ### The bundle -/

def bundleAt (s : State) (u pc : Nat) : W128 := mget 0 s.core.pstore (u * 2048 + pc)
def special (s : State) (u : Nat) : Bool := flag s (CORE_CFG u) CORE_CFG_SPECIAL
def slotIns (s : State) (u pc : Nat) (sl : Slot) : Option Instr := decodeSlot u (special s u) (bundleAt s u pc) sl
def slotNo : Slot → Nat
  | .S => 0
  | .V => 1
  | .M => 2
  | .X => 3
def allSlots : List Slot := [.S, .V, .M, .X]

/-- Destination registers an instruction names; s0 and p0 are none (R124). -/
def destsOf : Instr → List Reg
  | .add _ _ rd _ _ => [.s rd]
  | .sub _ _ rd _ _ => [.s rd]
  | .and _ _ rd _ _ => [.s rd]
  | .or _ _ rd _ _ => [.s rd]
  | .xor _ _ rd _ _ => [.s rd]
  | .sll _ _ rd _ _ => [.s rd]
  | .srl _ _ rd _ _ => [.s rd]
  | .sra _ _ rd _ _ => [.s rd]
  | .mul _ _ rd _ _ => [.s rd]
  | .mulhu _ _ rd _ _ => [.s rd]
  | .min _ _ rd _ _ => [.s rd]
  | .max _ _ rd _ _ => [.s rd]
  | .minu _ _ rd _ _ => [.s rd]
  | .maxu _ _ rd _ _ => [.s rd]
  | .addi _ _ rd _ _ => [.s rd]
  | .andi _ _ rd _ _ => [.s rd]
  | .ori _ _ rd _ _ => [.s rd]
  | .xori _ _ rd _ _ => [.s rd]
  | .slli _ _ rd _ _ => [.s rd]
  | .srli _ _ rd _ _ => [.s rd]
  | .srai _ _ rd _ _ => [.s rd]
  | .movi _ _ rd _ => [.s rd]
  | .movk _ _ rd _ _ => [.s rd]
  | .cmp _ _ pd _ _ _ => [.p pd]
  | .pand _ _ pd _ _ => [.p pd]
  | .por _ _ pd _ _ => [.p pd]
  | .pxor _ _ pd _ _ => [.p pd]
  | .pandn _ _ pd _ _ => [.p pd]
  | .rds _ _ rd _ => [.s rd]
  | .call _ _ _ => [.s 31]
  | .vadd _ _ _ vd _ _ => [.v vd]
  | .vsub _ _ _ vd _ _ => [.v vd]
  | .vmul _ _ _ vd _ _ => [.v vd]
  | .vfma _ _ _ vd _ _ => [.v vd]
  | .vmin _ _ _ vd _ _ => [.v vd]
  | .vmax _ _ _ vd _ _ => [.v vd]
  | .vand _ _ _ vd _ _ => [.v vd]
  | .vor _ _ _ vd _ _ => [.v vd]
  | .vxor _ _ _ vd _ _ => [.v vd]
  | .vshl _ _ _ vd _ _ => [.v vd]
  | .vshr _ _ _ vd _ _ _ => [.v vd]
  | .vcmp _ _ _ pd _ _ _ => [.p pd]
  | .vcmac _ _ vd _ _ => [.v vd]
  | .vconv _ _ _ _ vd _ _ _ => [.v vd]
  | .vred _ _ _ vd _ _ => [.v vd]
  | .vperm _ _ _ vd _ _ => [.v vd]
  | .vbcast _ _ _ vd _ => [.v vd]
  | .vext _ _ _ rd _ _ => [.s rd]
  | .vmov _ _ _ vd _ => [.v vd]
  | .vspecSearch _ _ _ vd _ _ _ _ => [.v vd]
  | .vspecTap _ _ _ vd va _ _ => [.v vd, .v va]
  | .smRd _ _ pd vd _ => [.p pd, .v vd]
  | .smRds _ _ pd rd _ => [.p pd, .s rd]
  | .smSave _ _ _ dd => [.d dd]
  | .ldB _ _ rd _ _ => [.s rd]
  | .ldH _ _ rd _ _ => [.s rd]
  | .ldW _ _ rd _ _ => [.s rd]
  | .ldD _ _ rd _ _ => [.s rd]
  | .ldBs _ _ rd _ _ => [.s rd]
  | .ldHs _ _ rd _ _ => [.s rd]
  | .ldWs _ _ rd _ _ => [.s rd]
  | .ldV _ _ vd _ _ => [.v vd]
  | .ldDsc _ _ dd _ _ => [.d dd]
  | .syncAdd _ _ rd _ _ => [.s rd]
  | .syncSet _ _ rd _ _ => [.s rd]
  | .syncWait _ _ rd _ _ => [.s rd]
  | .syncTest _ _ pd _ _ => [.p pd]
  | .lockAcq _ _ rd _ => [.s rd]
  | .mbxSend _ _ rd _ _ => [.s rd]
  | .mbxWdraw _ _ rd _ => [.s rd]
  | .qSubmit _ _ rd _ _ => [.s rd]
  | .qTake _ _ pd vd _ => [.p pd, .v vd]
  | .fpRd _ _ rd _ => [.s rd]
  | _ => []

/-- Source registers an instruction names, its predicate included (R94). -/
def sourcesOf : Instr → List Reg
  | .add _ p _ ra rb => [.p p, .s ra, .s rb]
  | .sub _ p _ ra rb => [.p p, .s ra, .s rb]
  | .and _ p _ ra rb => [.p p, .s ra, .s rb]
  | .or _ p _ ra rb => [.p p, .s ra, .s rb]
  | .xor _ p _ ra rb => [.p p, .s ra, .s rb]
  | .sll _ p _ ra rb => [.p p, .s ra, .s rb]
  | .srl _ p _ ra rb => [.p p, .s ra, .s rb]
  | .sra _ p _ ra rb => [.p p, .s ra, .s rb]
  | .mul _ p _ ra rb => [.p p, .s ra, .s rb]
  | .mulhu _ p _ ra rb => [.p p, .s ra, .s rb]
  | .min _ p _ ra rb => [.p p, .s ra, .s rb]
  | .max _ p _ ra rb => [.p p, .s ra, .s rb]
  | .minu _ p _ ra rb => [.p p, .s ra, .s rb]
  | .maxu _ p _ ra rb => [.p p, .s ra, .s rb]
  | .addi _ p _ ra _ => [.p p, .s ra]
  | .andi _ p _ ra _ => [.p p, .s ra]
  | .ori _ p _ ra _ => [.p p, .s ra]
  | .xori _ p _ ra _ => [.p p, .s ra]
  | .slli _ p _ ra _ => [.p p, .s ra]
  | .srli _ p _ ra _ => [.p p, .s ra]
  | .srai _ p _ ra _ => [.p p, .s ra]
  | .movi _ p _ _ => [.p p]
  | .movk _ p rd _ _ => [.p p, .s rd]
  | .cmp _ p _ _ ra rb => [.p p, .s ra, .s rb]
  | .pand _ p _ pa pb => [.p p, .p pa, .p pb]
  | .por _ p _ pa pb => [.p p, .p pa, .p pb]
  | .pxor _ p _ pa pb => [.p p, .p pa, .p pb]
  | .pandn _ p _ pa pb => [.p p, .p pa, .p pb]
  | .rds _ p _ _ => [.p p]
  | .br _ p _ => [.p p]
  | .call _ p _ => [.p p]
  | .ret _ p => [.p p, .s 31]
  | .eret _ p => [.p p]
  | .loop _ p ra _ => [.p p, .s ra]
  | .loopi _ p _ _ => [.p p]
  | .repi _ p ra => [.p p, .s ra]
  | .repii _ p _ => [.p p]
  | .vadd _ p _ _ va vb => [.p p, .v va, .v vb]
  | .vsub _ p _ _ va vb => [.p p, .v va, .v vb]
  | .vmul _ p _ _ va vb => [.p p, .v va, .v vb]
  | .vfma _ p _ vd va vb => [.p p, .v vd, .v va, .v vb]
  | .vmin _ p _ _ va vb => [.p p, .v va, .v vb]
  | .vmax _ p _ _ va vb => [.p p, .v va, .v vb]
  | .vand _ p _ _ va vb => [.p p, .v va, .v vb]
  | .vor _ p _ _ va vb => [.p p, .v va, .v vb]
  | .vxor _ p _ _ va vb => [.p p, .v va, .v vb]
  | .vshl _ p _ _ va vb => [.p p, .v va, .v vb]
  | .vshr _ p _ _ va vb _ => [.p p, .v va, .v vb]
  | .vcmp _ p _ _ _ va vb => [.p p, .v va, .v vb]
  | .vcmac _ p vd va vb => [.p p, .v vd, .v va, .v vb]
  | .vconv _ p _ _ _ va _ _ => [.p p, .v va]
  | .vred _ p _ _ va _ => [.p p, .v va]
  | .vperm _ p _ _ va vb => [.p p, .v va, .v vb]
  | .vbcast _ p _ _ ra => [.p p, .s ra]
  | .vext _ p _ _ va _ => [.p p, .v va]
  | .vmov _ p _ _ va => [.p p, .v va]
  | .vspecSearch _ p _ vd va vb _ acc => if acc then [.p p, .v vd, .v va, .v vb] else [.p p, .v va, .v vb]
  | .vspecTap _ p _ vd va vb _ => [.p p, .v vd, .v va, .v ((va + 1) % 16), .v vb]
  | .mm _ p _ dd => [.p p, .d dd]
  | .smOpen _ p _ dd => [.p p, .d dd]
  | .smClose _ p _ => [.p p]
  | .smRd _ p _ _ _ => [.p p]
  | .smRds _ p _ _ _ => [.p p]
  | .smWr _ p va _ => [.p p, .v va]
  | .smWrs _ p ra _ => [.p p, .s ra]
  | .smSave _ p _ _ => [.p p]
  | .ldB _ p _ ra _ => [.p p, .s ra]
  | .ldH _ p _ ra _ => [.p p, .s ra]
  | .ldW _ p _ ra _ => [.p p, .s ra]
  | .ldD _ p _ ra _ => [.p p, .s ra]
  | .ldBs _ p _ ra _ => [.p p, .s ra]
  | .ldHs _ p _ ra _ => [.p p, .s ra]
  | .ldWs _ p _ ra _ => [.p p, .s ra]
  | .ldV _ p _ ra _ => [.p p, .s ra]
  | .ldDsc _ p _ ra _ => [.p p, .s ra]
  | .stB _ p rs ra _ => [.p p, .s rs, .s ra]
  | .stH _ p rs ra _ => [.p p, .s rs, .s ra]
  | .stW _ p rs ra _ => [.p p, .s rs, .s ra]
  | .stD _ p rs ra _ => [.p p, .s rs, .s ra]
  | .stV _ p vs ra _ => [.p p, .v vs, .s ra]
  | .stDsc _ p ds ra _ => [.p p, .d ds, .s ra]
  | .syncAdd _ p _ ra rb => [.p p, .s ra, .s rb]
  | .syncSet _ p _ ra rb => [.p p, .s ra, .s rb]
  | .syncWait _ p _ ra rb => [.p p, .s ra, .s rb]
  | .syncTest _ p _ ra rb => [.p p, .s ra, .s rb]
  | .lockAcq _ p _ ra => [.p p, .s ra]
  | .lockRel _ p ra => [.p p, .s ra]
  | .mbxSend _ p _ ra rb => [.p p, .s ra, .s rb]
  | .mbxWdraw _ p _ ra => [.p p, .s ra]
  | .qSubmit _ p _ ra vb => [.p p, .s ra, .v vb]
  | .qTake _ p _ _ ra => [.p p, .s ra]
  | .evtWait _ p => [.p p]
  | .evtSend _ p _ => [.p p]
  | .glintWaitNext _ p => [.p p]
  | .glintWaitAlign _ p => [.p p]
  | .boundary _ p => [.p p]
  | .halt _ p => [.p p]
  | .fault _ p _ => [.p p]
  | .fpRd _ p _ _ => [.p p]
  | .fpWr _ p ra _ => [.p p, .s ra]
  | .fpFlush _ p _ => [.p p]
  | .fpMark _ p _ _ => [.p p]
  | .svPrst _ p ra => [.p p, .s ra]
  | .svSres _ p ra rb => [.p p, .s ra, .s rb]
  | .svPsw _ p ra vb => [.p p, .s ra, .v vb]
  | _ => []

/-- The predicate of an instruction, which a slot names in PRED (R85). -/
def predOf (i : Instr) : Nat :=
  match sourcesOf i with
  | .p p :: _ => p
  | _ => 0

def realDest : Reg → Bool
  | .s 0 => false
  | .p 0 => false
  | _ => true

/-! ### Faults that precede operand waits (R84, R99, R117 checks 1–3) -/

/-- R146: the privilege an instruction needs. -/
def privNeeded (pv : Priv) : Instr → Bool
  | .repi _ _ _ => decide (pv ≠ .user)
  | .repii _ _ _ => decide (pv ≠ .user)
  | .fpRd u _ _ _ => isCp u || decide (pv = .border)
  | .fpWr u _ _ _ => isCp u || decide (pv = .border)
  | .fpFlush u _ _ => isCp u || decide (pv = .border)
  | .fpMark u _ _ _ => isCp u || decide (pv = .border)
  | .svPrst _ _ _ => decide (pv = .supervisor)
  | .svSres _ _ _ _ => decide (pv = .supervisor)
  | .svPsw _ _ _ _ => decide (pv = .supervisor)
  | _ => true

/-- The fault of one slot under checks 1–3 of R117; `before` are the destinations of the earlier slots. -/
def staticOne (s : State) (u c : Nat) (i : Option Instr) (before : List Reg) : Option Nat :=
  match i with
  | none => some 0x0101
  | some i =>
    if !privNeeded (privOf s u c) i then some 0x0102
    else if ((destsOf i).filter realDest).any before.contains then some 0x0103
    else none

/-- The first slot, in the order S, V, M, X, with such a fault. -/
def staticFault (s : State) (u c pc : Nat) : List Slot → List Reg → Option (Nat × Nat)
  | [], _ => none
  | sl :: r, before =>
    let i := slotIns s u pc sl
    match staticOne s u c i before with
    | some code => some (code, slotNo sl)
    | none => staticFault s u c pc r (before ++ ((i.map destsOf).getD []))

/-! ### Instruction checks (R117 check 4) -/

def truePred (s : State) (u c : Nat) (i : Instr) : Bool := predTrue (ctx s u c) (predOf i)

/-- Where control goes from bundle `pc` when it neither branches nor repeats: the levels that end there (R104). -/
def stepLevels (pc : Nat) : List Lvl → NMap Nat → Nat × List Lvl × NMap Nat
  | [], lc => (pc + 1, [], lc)
  | l :: ls, lc =>
    if pc = l.stop then
      if 1 < mget 0 lc l.num then (l.start, l :: ls, mset 0 lc l.num (mget 0 lc l.num - 1))
      else stepLevels pc ls (mset 0 lc l.num 0)
    else (pc + 1, l :: ls, lc)

/-- Levels that a taken branch leaves (R104). -/
def leaveLevels (target : Nat) : List Lvl → List Lvl
  | [] => []
  | l :: ls => if target < l.start || decide (l.stop < target) then leaveLevels target ls else l :: ls

/-- The lowest free level number (R103). -/
def freeLevel (ls : List Lvl) : Nat := ((List.range 4).find? fun n => !ls.any fun l => decide (l.num = n)).getD 0

/-- R107, R131: an instruction that a repeated bundle must not contain. -/
def noRepeat : Instr → Bool
  | .br _ _ _ => true
  | .call _ _ _ => true
  | .ret _ _ => true
  | .eret _ _ => true
  | .loop _ _ _ _ => true
  | .loopi _ _ _ _ => true
  | .repi _ _ _ => true
  | .repii _ _ _ => true
  | .glintWaitNext _ _ => true
  | .glintWaitAlign _ _ => true
  | .syncWait _ _ _ _ _ => true
  | .evtWait _ _ => true
  | _ => false
def bodyBad (s : State) (u b : Nat) : Bool := allSlots.any fun sl => (slotIns s u b sl).any noRepeat

/-- What the S slot does to control. -/
structure Ctl where
  pc       : Nat
  levels   : List Lvl
  lc       : NMap Nat
  repiOn   : Bool
  repiLeft : Nat
  deriving DecidableEq, Repr

/-- Fault of a next index beyond the store, else the control state; the bundle at index 2,047 that ends the last iteration of a
repeat faults like any other (DESIGN CHOICE, log 96). -/
def landAt (r : Nat × List Lvl × NMap Nat) (on : Bool) (left : Nat) : Except (Nat × Nat) Ctl :=
  if 2047 < r.1 then .error (0x0104, r.1) else .ok ⟨r.1, r.2.1, r.2.2, on, left⟩

/-- LOOP and LOOPI (R103). -/
def doLoop (x : Ctx) (count stop : Nat) : Except (Nat × Nat) Ctl :=
  if 4 ≤ x.levels.length then .error (0x0105, 0)
  else if 2 ^ 24 < count || decide (stop < x.pc + 1) ||
      (match x.levels with
       | l :: _ => decide (l.stop < stop)
       | [] => false) then .error (0x0106, 0)
  else if count = 0 then landAt (stepLevels stop x.levels x.lc) false 0
  else
    let n := freeLevel x.levels
    landAt (stepLevels x.pc (⟨n, x.pc + 1, stop⟩ :: x.levels) (mset 0 x.lc n count)) false 0

/-- REPI and REPII (R106, R107). -/
def doRepi (s : State) (u : Nat) (x : Ctx) (n : Nat) : Except (Nat × Nat) Ctl :=
  let b := stepLevels x.pc x.levels x.lc
  if 2047 < b.1 then .error (0x0104, b.1)
  else if bodyBad s u b.1 then .error (0x0107, 0)
  else if n = 0 then landAt (stepLevels b.1 b.2.1 b.2.2) false 0
  else landAt b true n

/-- Control after the bundle of context `c`, from its S slot (R86, R103–R106, R114). -/
def control (s : State) (u c : Nat) : Except (Nat × Nat) Ctl :=
  let x := ctx s u c
  let seq : Except (Nat × Nat) Ctl :=
    if x.repiOn && decide (1 < x.repiLeft) then .ok ⟨x.pc, x.levels, x.lc, true, x.repiLeft - 1⟩
    else landAt (stepLevels x.pc x.levels x.lc) false 0
  match slotIns s u x.pc .S with
  | none => seq
  | some i =>
    if !truePred s u c i then seq
    else match i with
      | .br _ _ t => landAt (t, leaveLevels t x.levels, x.lc) false 0
      | .call _ _ t => landAt (t, x.levels, x.lc) false 0
      | .ret _ _ => landAt ((sr x 31).toNat, x.levels, x.lc) false 0
      | .eret _ _ => if x.eie then .error (0x0109, 0) else landAt (x.epc, x.levels, x.lc) false 0
      | .loop _ _ ra stop => doLoop x (sr x ra).toNat stop
      | .loopi _ _ n stop => doLoop x n stop
      | .repi _ _ ra => doRepi s u x (bitsOf (sr x ra) 0 16)
      | .repii _ _ n => doRepi s u x n
      | _ => seq

/-- Fault of a load or store of `n` bytes. -/
def memFault (s : State) (u c ra imm n : Nat) (write : Bool) (v : Nat) : Option (Nat × Nat) :=
  accessFault s u c (effAddr s u c ra imm) n write v
/-- R145. -/
def fabFault (u port : Nat) : Option (Nat × Nat) :=
  if isCp u || !hasEdge u port then some (0x010B, 0) else none
/-- R138, R139, R268. -/
def readFault (s : State) (u ch : Nat) : Option (Nat × Nat) :=
  let x := chan s u ch
  if chanOpen x && readChan x.desc then none else some (0x010C, 0)
def writeFault (s : State) (u ch : Nat) : Option (Nat × Nat) :=
  let x := chan s u ch
  if chanOpen x && writeChan x.desc && decide (x.st ≠ 5) && !atEnd x.desc x.acc then none else some (0x010C, 0)
/-- Every context of the core is neither READY nor WAITING (R87). -/
def coreIdle (s : State) (u : Nat) : Bool :=
  (List.range 8).all fun c => decide ((ctx s u c).st ≠ .ready) && decide ((ctx s u c).st ≠ .waiting)

/-- The instruction's own checks for the V, M and X slots: code and `CTX_FAULT_INFO`. -/
def ownFault (s : State) (u c : Nat) (i : Instr) : Option (Nat × Nat) :=
  let rs (r : Nat) : Nat := (rdS s u c r).toNat
  match i with
  | .mm _ _ e dd => mmFault s u e (dr (ctx s u c) dd)
  | .smOpen _ _ ch dd => openFault s u ch (chanOpen (chan s u ch)) (dr (ctx s u c) dd)
  | .smRd _ _ _ _ ch => readFault s u ch
  | .smRds _ _ _ _ ch => readFault s u ch
  | .smWr _ _ _ ch => writeFault s u ch
  | .smWrs _ _ _ ch => writeFault s u ch
  | .ldB _ _ _ ra imm => memFault s u c ra imm 1 false 0
  | .ldH _ _ _ ra imm => memFault s u c ra imm 2 false 0
  | .ldW _ _ _ ra imm => memFault s u c ra imm 4 false 0
  | .ldD _ _ _ ra imm => memFault s u c ra imm 8 false 0
  | .ldBs _ _ _ ra imm => memFault s u c ra imm 1 false 0
  | .ldHs _ _ _ ra imm => memFault s u c ra imm 2 false 0
  | .ldWs _ _ _ ra imm => memFault s u c ra imm 4 false 0
  | .ldV _ _ _ ra imm => memFault s u c ra imm 64 false 0
  | .ldDsc _ _ _ ra imm => memFault s u c ra imm 64 false 0
  | .stB _ _ r ra imm => memFault s u c ra imm 1 true (rs r)
  | .stH _ _ r ra imm => memFault s u c ra imm 2 true (rs r)
  | .stW _ _ r ra imm => memFault s u c ra imm 4 true (rs r)
  | .stD _ _ r ra imm => memFault s u c ra imm 8 true (rs r)
  | .stV _ _ _ ra imm => memFault s u c ra imm 64 true 0
  | .stDsc _ _ _ ra imm => memFault s u c ra imm 64 true 0
  | .syncAdd _ _ _ ra _ => syncRefFault (rs ra)
  | .syncSet _ _ _ ra _ => syncRefFault (rs ra)
  | .syncWait _ _ _ ra _ => syncRefFault (rs ra)
  | .syncTest _ _ _ ra _ => syncRefFault (rs ra)
  | .lockAcq _ _ _ ra => if rs ra < 256 then none else some (0x0603, 0)
  | .lockRel _ _ ra => if rs ra < 256 then none else some (0x0603, 0)
  | .mbxSend _ _ _ ra rb => mbxFault s u c (rs ra) (rs rb)
  | .mbxWdraw _ _ _ ra => if rs ra < 64 then none else some (0x0603, 0)
  | .qSubmit _ _ _ ra _ => if rs ra < 65536 then none else some (0x0603, 0)
  | .qTake _ _ _ _ ra => if rs ra < 65536 then none else some (0x0603, 0)
  | .fault _ _ imm => some (0x010A, imm)
  | .fpRd _ _ _ port => fabFault u port
  | .fpWr _ _ _ port => fabFault u port
  | .fpFlush _ _ port => fabFault u port
  | .fpMark _ _ port _ => fabFault u port
  | .svPsw _ _ ra _ =>
    let v := rs ra
    if v / 2 ^ 16 % 4 ≠ 0 || (decide (v % 2 ^ 15 < nCores) && !coreIdle s (v % 2 ^ 15)) then some (0x010D, 0)
    else none
  | _ => none

/-- Check 4 of R117 for one slot: nothing with a false predicate (R85). -/
def checkSlot (s : State) (u c pc : Nat) (sl : Slot) : Option (Nat × Nat) :=
  match sl with
  | .S => match control s u c with
    | .error e => some e
    | .ok _ => none
  | _ => match slotIns s u pc sl with
    | some i => if truePred s u c i then ownFault s u c i else none
    | none => none
/-- The first slot whose own checks fail: code, slot, `CTX_FAULT_INFO`. -/
def checkFault (s : State) (u c pc : Nat) : List Slot → Option (Nat × Nat × Nat)
  | [] => none
  | sl :: r => match checkSlot s u c pc sl with
    | some (code, info) => some (code, slotNo sl, info)
    | none => checkFault s u c pc r

/-! ### Operand waits (R94) -/

/-- The address and width of a load, whose tracking partition R286 limits. -/
def loadAddr (s : State) (u c : Nat) : Instr → Option (Nat × Nat × Reg)
  | .ldB _ _ rd ra imm => some (effAddr s u c ra imm, 1, .s rd)
  | .ldH _ _ rd ra imm => some (effAddr s u c ra imm, 2, .s rd)
  | .ldW _ _ rd ra imm => some (effAddr s u c ra imm, 4, .s rd)
  | .ldD _ _ rd ra imm => some (effAddr s u c ra imm, 8, .s rd)
  | .ldBs _ _ rd ra imm => some (effAddr s u c ra imm, 1, .s rd)
  | .ldHs _ _ rd ra imm => some (effAddr s u c ra imm, 2, .s rd)
  | .ldWs _ _ rd ra imm => some (effAddr s u c ra imm, 4, .s rd)
  | .ldV _ _ vd ra imm => some (effAddr s u c ra imm, 64, .v vd)
  | .ldDsc _ _ dd ra imm => some (effAddr s u c ra imm, 64, .d dd)
  | _ => none
/-- A load-like messaging operation that takes a tracking entry (R144). -/
def opTakesEntry : Instr → Bool
  | .syncAdd _ _ rd _ _ => decide (rd ≠ 0)
  | .syncSet _ _ rd _ _ => decide (rd ≠ 0)
  | .syncTest _ _ _ _ _ => true
  | .lockAcq _ _ rd _ => decide (rd ≠ 0)
  | .mbxSend _ _ rd _ _ => decide (rd ≠ 0)
  | .mbxWdraw _ _ rd _ => decide (rd ≠ 0)
  | .qSubmit _ _ rd _ _ => decide (rd ≠ 0)
  | .qTake _ _ _ _ _ => true
  | _ => false

/-- Where the body of an MBX.SEND is read from memory beyond the core. -/
def bodyAddrs (s : State) (u c : Nat) : Instr → List Nat
  | .mbxSend _ _ _ ra rb => readAddrs s u (rdS s u c rb).toNat (bitsOf (rdS s u c ra) 11 9)
  | _ => []
/-- The wait of one instruction whose own checks pass: reason 1, 2, 4, 5 or 6. -/
def waitOf (s : State) (u c : Nat) (i : Instr) : Option Nat :=
  match i with
  | .mm _ _ e _ => if (mget [] s.core.engines (u * 2 + e)).length < 4 then none else some 5
  | .smRd _ _ _ _ ch => if readReady s u ch 64 then none else some 1
  | .smRds _ _ _ _ ch => if readReady s u ch 8 then none else some 1
  | .smWr _ _ _ ch => if writeReady s u ch 64 then none else some 2
  | .smWrs _ _ _ ch => if writeReady s u ch 8 then none else some 2
  | .fpRd _ _ _ e => if fabReady s u e && !(fabOf s u e).rx.isEmpty then none else some 6
  | .fpWr _ _ _ e => if fabReady s u e && decide ((fabOf s u e).tx.length < 4) then none else some 6
  | .fpFlush _ _ e => if fabReady s u e && (fabOf s u e).tx.isEmpty then none else some 6
  | .fpMark _ _ e _ => if fabReady s u e && decide ((fabOf s u e).tx.length < 4) then none else some 6
  | _ =>
    match loadAddr s u c i with
    | some (ea, n, r) => if takesEntry u ea n (some r) && !slotFree s u c (readAddrs s u ea n) then some 4 else none
    | none => if opTakesEntry i && !slotFree s u c (bodyAddrs s u c i) then some 4 else none

/-- Whether a slot's instruction waits: with a true predicate and passing checks. -/
def slotWait (s : State) (u c pc : Nat) (sl : Slot) : Option Nat :=
  match slotIns s u pc sl with
  | some i => if truePred s u c i && (checkSlot s u c pc sl).isNone then waitOf s u c i else none
  | none => none
/-- Whether a source register of the slot has a load outstanding. -/
def slotLoad (s : State) (u c pc : Nat) (sl : Slot) : Bool :=
  (slotIns s u pc sl).any fun i => (sourcesOf i).any (outstandingRegs s u c).contains

/-- The operand wait of the context's bundle: LOAD first, then the slots in order. -/
def operandWait (s : State) (u c : Nat) : Option Nat :=
  let pc := (ctx s u c).pc
  if allSlots.any (slotLoad s u c pc) then some 3 else allSlots.findSome? (slotWait s u c pc)
/-- The first slot under the operand wait (R108). -/
def waitSlot (s : State) (u c : Nat) : Nat :=
  let pc := (ctx s u c).pc
  ((allSlots.find? fun sl => slotLoad s u c pc sl || (slotWait s u c pc sl).isSome).map slotNo).getD 0

/-! ### Selection (R96, R109, R114) -/

/-- What a beat comes to: no context issues, a bundle faults (context, code, slot, `CTX_FAULT_INFO`), a bundle issues. -/
inductive Choice where
  | none
  | faults (c code slot info : Nat)
  | issues (c : Nat)
  deriving DecidableEq, Repr

/-- The epoch names the plot of core `u`, and its contexts are to halt at program boundaries (R31, R109). -/
def epochHalts (s : State) (u : Nat) : Bool :=
  flag s GLB_STATUS GLB_STATUS_EPOCH_ACTIVE &&
    (plotOf s u).any s.avl.epochIn.contains
/-- The bundle is a program boundary that will execute (R109; a false predicate makes it none, DEDUCED, log 17). -/
def atBoundary (s : State) (u c : Nat) : Bool :=
  match slotIns s u (ctx s u c).pc .X with
  | some (.glintWaitNext _ p) => predTrue (ctx s u c) p
  | some (.glintWaitAlign _ p) => predTrue (ctx s u c) p
  | some (.boundary _ p) => predTrue (ctx s u c) p
  | _ => false

/-- A trap that is due (R114). -/
def trapDue (x : Ctx) : Bool := decide (x.st = .ready) && x.eie && decide ((x.pend &&& x.en) ≠ 0) && !x.repiOn
def takeTrap (x : Ctx) : Ctx := { x with epc := x.pc, eie := false, pc := x.vec }

/-- A stream access that finds a ring bank owned by another code halts the channel (R241): a read once its bytes are there, a write
once it has room. -/
def deniedAccess (u c : Nat) (s : State) : State :=
  match slotIns s u (ctx s u c).pc .M with
  | some i =>
    let go (ch p n : Nat) (there : Bool) : State :=
      match (if there then ringDenied s u ch (chan s u ch).desc p n else none) with
      | some b => if (chan s u ch).st = 1 then chanHalt u ch 0x0602 p (devOfLocal u b) s else s
      | none => s
    let rd (ch n : Nat) : State :=
      let x := chan s u ch
      let k := upTo x.desc x.drained n
      go ch x.drained k (decide (x.drained + k ≤ x.acc))
    let wr (ch n : Nat) : State :=
      let x := chan s u ch
      go ch x.acc (upTo x.desc x.acc n) (writeRoom s u ch n)
    if !truePred s u c i then s
    else match i with
      | .smRd _ _ _ _ ch => rd ch 64
      | .smRds _ _ _ _ ch => rd ch 8
      | .smWr _ _ _ ch => wr ch 64
      | .smWrs _ _ _ ch => wr ch 8
      | _ => s
  | none => s

/-- A context comes to wait for reason `r`. -/
def waitDenied (r u c : Nat) (s : State) : State := if r = 1 || r = 2 then deniedAccess u c s else s
/-- Operand waits (R94): one that has ended makes its context READY, and where another follows it the reason becomes that one's. -/
def rewakeCtx (u : Nat) (s : State) (c : Nat) : State :=
  let x := ctx s u c
  if x.st = .waiting ∧ x.hold = .none then
    match operandWait s u c with
    | none => setCtx s u c { x with st := .ready, reason := 0 }
    | some r => if r = x.reason then s else waitDenied r u c (setCtx s u c { x with reason := r })
  else s
def rewake (u : Nat) (s : State) : State := (List.range 8).foldl (rewakeCtx u) s

/-- The fault of a bundle of which a slot fails checks 1–3 (R117): that slot's, or the first of an earlier slot whose own
checks fail with operands that are not outstanding. Such a bundle never issues, so it waits for nothing (DEDUCED, log 98). -/
def earlyFault (s : State) (u c pc : Nat) : Option (Nat × Nat × Nat) :=
  (staticFault s u c pc allSlots []).map fun (code, sl) =>
    (checkFault s u c pc (allSlots.filter fun k => decide (slotNo k < sl) && !slotLoad s u c pc k)).getD (code, sl, 0)

/-- What stands in the way of context `c`, taken in order: a halt request, a trap, an epoch, a poisoned fetch (R88), the
faults and waits of its bundle. -/
def consider (u c : Nat) (s : State) : Choice × State :=
  let x := ctx s u c
  if x.st ≠ .ready then (.none, s)
  else if x.haltReq && !x.repiOn then (.none, setCtx s u c (debugHalt x))
  else
    let s := if trapDue x then setCtx s u c (takeTrap x) else s
    let x := ctx s u c
    if epochHalts s u && atBoundary s u c && !x.repiOn then
      (.none, setCtx s u c { x with st := .halted, cause := 3, stepping := false })
    else if mget false s.core.pstoreBad (u * 2048 + x.pc) then (.faults c 0x0601 0 x.pc, s)
    else match earlyFault s u c x.pc with
      | some (code, sl, info) => (.faults c code sl info, s)
      | none =>
        match operandWait s u c with
        | some r => (.none, waitDenied r u c (setCtx s u c { x with st := .waiting, reason := r, waitFrom := paceTime s }))
        | none =>
          match checkFault s u c x.pc allSlots with
          | some (code, sl, info) => (.faults c code sl info, s)
          | none => (.issues c, s)

/-- The first context of the list that issues or faults. -/
def firstOf (u : Nat) : List Nat → State → Choice × State
  | [], s => (.none, s)
  | c :: cs, s => match consider u c s with
    | (.none, t) => firstOf u cs t
    | r => r

/-- The order of R96; while a REPI runs its context is the only candidate (R106). -/
def order (s : State) (u : Nat) : List Nat :=
  match (List.range 8).find? fun c => (ctx s u c).repiOn &&
      (decide ((ctx s u c).st = .ready) || decide ((ctx s u c).st = .waiting)) with
  | some c => [c]
  | none =>
    let l := mget 7 s.core.last u
    (List.range 8).map fun i => (l + 1 + i) % 8

/-- At least one context is READY or WAITING (R97). -/
def stepping (s : State) (u : Nat) : Bool := !coreIdle s u

/-- What the next beat of a unit comes to, with the halts, traps and waits on the way. -/
def selectCtx (u : Nat) (s : State) : Choice × State :=
  let s := rewake u s
  firstOf u (order s u) s

end Sys2Proof.Machine
end

