-- ==== Sys2Proof/Machine/PwrRows.lean ====
section
/-!
DEFINITION. The rows of the power governor, the thermal sensors and telemetry (chapter 20). A governor step comes with the power
sample in W, the estimates of V_need in mV and of the power after a raise, and whether the AVSBus write and read-back succeed.
-/
namespace Sys2Proof.Machine
open Sys2Proof

/-- The compute side is out of device reset and powered. -/
def devRuns (s : State) : Bool := !s.mc.held && !s.mc.compOff
def pwrFld (s : State) (f : Fld) : Nat := fld s PWR_STATUS f
def setPwrFld (f : Fld) (x : Nat) (s : State) : State := setFld s PWR_STATUS f x
/-- A code of the power blocks with its bit of `PWR_EVENTS`. -/
def pwrReport (code : Nat) (bit : Fld) (s : State) : State := logErr code 0x25 none 0 (setFld s PWR_EVENTS bit 1)

/-! ### Thermal readings (R546–R548) -/

def thermAt (s : State) (i : Nat) : Int := mget 0 s.pwr.therm i
def thermOk (s : State) (i : Nat) : Bool := !mget false s.avl.thFailed i
/-- The hottest valid reading in 1/16 °C and its sensor, the lowest on a tie (DESIGN CHOICE, log 33). -/
def hottest (s : State) : Option (Int × Nat) :=
  ((List.range 208).filter (thermOk s)).foldl (fun (b : Option (Int × Nat)) i => match b with
    | none => some (thermAt s i, i)
    | some (t, j) => if t < thermAt s i then some (thermAt s i, i) else some (t, j)) none
/-- The hottest reading reaches `t` in 1/16 °C. -/
def hotAt (s : State) (t : Int) : Bool := (hottest s).any fun h => decide (t ≤ h.1)
/-- `PWR_STATUS.TJ_MAX` follows, in whole °C (DESIGN CHOICE, log 33). -/
def showTj (s : State) : State :=
  match hottest s with
  | some (t, i) => setPwrFld PWR_STATUS_TJ_SENSOR i (setPwrFld PWR_STATUS_TJ_MAX (narrow 8 (t.fdiv 16)) s)
  | none => s
def inTherm (t : Int) : Bool := decide (-640 ≤ t) && decide (t ≤ 2400)
/-- The sensor has failed by its reading (R547); its neighbours are `Config.thermNeighbours` (log 32). -/
def thermFails (s : State) (ts : List Int) (i : Nat) : Bool :=
  let at_ (j : Nat) : Int := ts.getD j 0
  let ns := (Config.thermNeighbours i).filter fun j => thermOk s j && decide (j < 208) && inTherm (at_ j)
  let d := ns.length * at_ i - (ns.map at_).foldl (· + ·) 0
  !inTherm (at_ i) || decide (320 * ns.length < d) || decide (d < -(320 * ns.length))
def failTherm (s : State) (i : Nat) : State :=
  pwrReport 0x0B08 PWR_EVENTS_SENSOR_FAIL
    (shadowGen { s with avl := { s.avl with thFailed := mset false s.avl.thFailed i true } })
/-- THERMAL_SAMPLE (R546, R547): the 208 readings in 1/16 °C. -/
def execThermalSample (ts : List Int) (s : State) : Res :=
  runIf (wfThermalSample ts)
    (if !devRuns s then s
     else
       let bad := (List.range 208).filter fun i => thermOk s i && thermFails s ts i
       let s := { s with pwr := { s.pwr with therm := ts.zipIdx.foldl (fun m e => mset 0 m e.2 e.1) s.pwr.therm } }
       showTj (bad.foldl failTherm s))
/-- THERMAL_TRIP (R548): the comparator of sensor `i`. -/
def execThermalTrip (i : Nat) (s : State) : Res :=
  runIf (wfThermalTrip i)
    (if !devRuns s || !thermOk s i then s
     else logErr 0x0B03 0x03 none 0 (computeOff { s with pwr := { s.pwr with tripped := true } }))

/-! ### The governor (R536–R543, R552) -/

/-- The effective limit (R538). -/
def powerLimit (s : State) : Nat := min (fld s PWR_LIMIT PWR_LIMIT_LIMIT) (fld s PWR_LIMIT PWR_LIMIT_SB_LIMIT)
/-- Boost is granted (R543). -/
def boostGrant (s : State) : Bool :=
  flag s PWR_CFG PWR_CFG_BOOST_EN && decide (0 < fld s PWR_BOOST PWR_BOOST_CREDIT) && !hotAt s (95 * 16 + 1)
def paceTarget (s : State) : Nat := fld s PACE_FLOOR_TARGET PACE_FLOOR_TARGET_TARGET
/-- V_need: 600 mV where the target is 0. -/
def vNeed (s : State) (vneed : Nat) : Nat := if paceTarget s = 0 then 600 else vneed
/-- V_want before and after its cap. -/
def vAsk (s : State) (vneed : Nat) : Nat := max (fld s PWR_CFG PWR_CFG_VBASE) (vNeed s vneed)
def vWant (s : State) (vneed : Nat) : Nat := min (vAsk s vneed) (if boostGrant s then 900 else 800)
/-- One more of 16 issue steps is withheld, up to 12 (R540). -/
def gateMore (s : State) : State :=
  let k := pwrFld s PWR_STATUS_K
  if !flag s PWR_CFG PWR_CFG_GATE_EN || 12 ≤ k then s
  else
    let s := setPwrFld PWR_STATUS_K (k + 1) s
    if k = 0 then pwrReport 0x0B06 PWR_EVENTS_GATED s else s
def setVcore (v : Nat) (s : State) : State :=
  setPwrFld PWR_STATUS_BOOST (b2n (decide (800 < v))) (setPwrFld PWR_STATUS_VCORE v s)
def setLimiter (n : Nat) (s : State) : State := setPwrFld PWR_STATUS_LIMITER n s
/-- Orders 1 and 2: lower, or gate at 0.60 V and before calibration. -/
def pressDown (s : State) : State :=
  let v := pwrFld s PWR_STATUS_VCORE
  if flag s GLB_STATUS GLB_STATUS_HG_CAL && decide (600 < v) then setVcore (max 600 (v - 5)) s else gateMore s
/-- The limit that blocks a raise: 3 thermal, 2 power (R536 order 4). -/
def raiseBlock (s : State) (est : Nat) : Option Nat :=
  if hotAt s ((fld s PWR_CFG PWR_CFG_TJ_LIMIT - 2) * 16) then some 3
  else if powerLimit s < est then some 2 else none
/-- Orders 4–6: VCORE moves towards V_want. The flag: a limit holds VCORE. -/
def seekWant (vneed est : Nat) (s : State) : Bool × State :=
  let v := pwrFld s PWR_STATUS_VCORE
  let want := vWant s vneed
  let capped := !boostGrant s && decide (800 < vAsk s vneed)
  let lim (n : Nat) := if capped then 4 else n
  if v < want then
    match raiseBlock s est with
    | some b => (true, setLimiter b s)
    | none => (false, setLimiter (lim 1) (setVcore (min 900 (v + 5)) s))
  else if want < v then (false, setLimiter (lim 0) (setVcore (v - 5) s))
  else (capped, setLimiter (lim 0) s)
/-- A governor step by the table of R536; the flag: order 1 or 2, a blocked raise or the boost budget holds VCORE. -/
def governStep (power vneed est : Nat) (s : State) : Bool × State :=
  let cal := flag s GLB_STATUS GLB_STATUS_HG_CAL
  if hotAt s (fld s PWR_CFG PWR_CFG_TJ_LIMIT * 16) then
    let s := if s.pwr.heldEp then s else pwrReport 0x0B01 PWR_EVENTS_THERM_HELD s
    (true, setLimiter 3 (pressDown { s with pwr := { s.pwr with heldEp := true } }))
  else
    let s := { s with pwr := { s.pwr with heldEp := false } }
    if powerLimit s < power then (true, setLimiter 2 (pressDown (setFld s PWR_EVENTS PWR_EVENTS_POWER_HELD 1)))
    else if 0 < pwrFld s PWR_STATUS_K then (false, setPwrFld PWR_STATUS_K (pwrFld s PWR_STATUS_K - 1) s)
    else if !cal then (false, setLimiter 5 (setVcore 800 s))
    else seekWant vneed est s
/-- The floor is breached by this step (R542). -/
def breachNow (s : State) (vneed : Nat) (held : Bool) : Bool :=
  let k := pwrFld s PWR_STATUS_K
  decide (paceTarget s ≠ 0) && flag s GLB_STATUS GLB_STATUS_HG_CAL &&
    ((held && decide (pwrFld s PWR_STATUS_VCORE < vNeed s vneed)) ||
      (decide (0 < k) && decide (fld s PACE_HG_MIN PACE_HG_MIN_RATE * (16 - k) < 16 * paceTarget s)))
/-- Breach episodes begin and end (R542). -/
def judgeBreach (vneed : Nat) (held : Bool) (s : State) : State :=
  if breachNow s vneed held then
    let s := { s with pwr := { s.pwr with okSince := none } }
    if flag s PWR_STATUS PWR_STATUS_BREACH then s
    else pwrReport 0x0B02 PWR_EVENTS_BREACH (setPwrFld PWR_STATUS_BREACH 1 s)
  else if !flag s PWR_STATUS PWR_STATUS_BREACH then s
  else if vNeed s vneed ≤ pwrFld s PWR_STATUS_VCORE ∧ pwrFld s PWR_STATUS_K = 0 then
    match s.pwr.okSince with
    | none => { s with pwr := { s.pwr with okSince := some (paceTime s) } }
    | some t => if t + 10000000 ≤ paceTime s then
        setPwrFld PWR_STATUS_BREACH 0 { s with pwr := { s.pwr with okSince := none } } else s
  else { s with pwr := { s.pwr with okSince := none } }
/-- GOVERNOR_STEP (R536, R537, R552). -/
def execGovernorStep (power vneed est : Nat) (avs : Bool) (s : State) : Res :=
  runIf (wfGovernorStep power vneed est avs)
    (if !devRuns s then s
     else
       let s := setPwrFld PWR_STATUS_POWER power s
       if s.pwr.avsFault then s
       else if !avs then
         pwrReport 0x0B05 PWR_EVENTS_AVS_FAULT (setLimiter 6 { s with pwr := { s.pwr with avsFault := true } })
       else
         let r := governStep power vneed est s
         judgeBreach vneed r.1 r.2)
/-- AVS_RETRY (R537). -/
def execAvsRetry (ok : Bool) (s : State) : Res :=
  runIf (wfAvsRetry ok)
    (if s.pwr.avsFault && ok then setLimiter 0 { s with pwr := { s.pwr with avsFault := false } } else s)
/-- PWR_LIMIT_WRITE (R538): each writer has its own field. -/
def execPwrLimitWrite (m : Master) (v : W64) (s : State) : Res :=
  runIf (wfPwrLimitWrite m v)
    (byMaster m PWR_LIMIT (fun s => 
     if !mayAdmin s m then s
     else
       let f := if m = .mc then PWR_LIMIT_SB_LIMIT else PWR_LIMIT_LIMIT
       let x := fget v f
       let w := fget v PWR_LIMIT_WINDOW
       if x < 600 ∨ 1600 < x ∨ w < 1 ∨ 100 < w then pwrReport 0x0B07 PWR_EVENTS_CFG_INVALID s
       else setFld (setFld s PWR_LIMIT f x) PWR_LIMIT PWR_LIMIT_WINDOW w) s)

/-! ### Boost credit (R544, R545) -/

/-- A minute counter of `PWR_LIFE` gains a second. -/
def lifeSecond (secs : Nat) (f : Fld) (s : State) : Nat × State :=
  if secs + 1 = 60 then (0, bumpFld s PWR_LIFE f 1) else (secs + 1, s)
/-- BOOST_CREDIT_TICK (R544): credit is kept in tenths of a second. -/
def execBoostCreditTick (s : State) : Res :=
  runIf wfBoostCreditTick
    (let up := flag s GLB_STATUS GLB_STATUS_COMPUTE_UP
     let boost := devRuns s && flag s PWR_STATUS PWR_STATUS_BOOST
     let cap := 10 * fld s PWR_BOOST PWR_BOOST_CAP
     let c := if up then max s.pwr.credit (min (s.pwr.credit + 2) cap) else s.pwr.credit
     let c := if boost then c - 10 else c
     let was := fld s PWR_BOOST PWR_BOOST_CREDIT
     let s := setFld { s with pwr := { s.pwr with credit := c } } PWR_BOOST PWR_BOOST_CREDIT (c / 10)
     let r := if up then lifeSecond s.pwr.upSecs PWR_LIFE_OPER_MIN s else (s.pwr.upSecs, s)
     let s := { r.2 with pwr := { r.2.pwr with upSecs := r.1 } }
     let r := if boost then lifeSecond s.pwr.boostSecs PWR_LIFE_BOOST_MIN s else (s.pwr.boostSecs, s)
     let s := { r.2 with pwr := { r.2.pwr with boostSecs := r.1 } }
     if boost ∧ was ≠ 0 ∧ c / 10 = 0 then pwrReport 0x0B04 PWR_EVENTS_BOOST_OUT s else s)
/-- CREDIT and PWR_LIFE go to flash. -/
def saveBoost (s : State) : State :=
  { s with pwr := { s.pwr with
      saved := some (fld s PWR_BOOST PWR_BOOST_CREDIT, fld s PWR_LIFE PWR_LIFE_OPER_MIN, fld s PWR_LIFE PWR_LIFE_BOOST_MIN) } }
/-- BOOST_SAVE (R545): by the running MC. -/
def execBoostSave (s : State) : Res :=
  runIf wfBoostSave (if fld s MC_STATUS MC_STATUS_STATE = 1 then saveBoost s else s)

/-! ### Plot shading (R550, R551) -/

/-- The plot is quiet enough to be shaded. -/
def plotStill (s : State) (p : Nat) : Bool :=
  ((List.range nCores).filter (inPlot s p)).all fun n =>
    coreIdle s n && (List.range 2).all (fun e => (mget [] s.core.engines (n * 2 + e)).isEmpty) &&
      (List.range 4).all fun ch => decide ((chan s n ch).st = 0)
/-- PWR_SHADE_WRITE (R550). -/
def execPwrShadeWrite (m : Master) (v : W64) (s : State) : Res :=
  runIf (wfPwrShadeWrite m v)
    (byMaster m PWR_SHADE (fun s => 
     if mayAdmin s m then
      unshade ((List.range 64).filter fun p => bit1 (rget s PWR_SHADE_ST) p && !bit1 v p) (rset s PWR_SHADE v)
     else s) s)
/-- PLOT_SHADED (R550). -/
def execPlotShaded (p : Nat) (s : State) : Res :=
  runIf (wfPlotShaded p)
    (if bit1 (rget s PWR_SHADE) p && !bit1 (rget s PWR_SHADE_ST) p && plotValid s p && plotStill s p then
      let s := rset s PWR_SHADE_ST (setBits (rget s PWR_SHADE_ST) p 1 1)
      ((plotBlocks s p).filter (mayGate s)).foldl (fun s b =>
        { s with pwr := { s.pwr with gated := mset false s.pwr.gated b true } }) s
     else s)
/-- BLOCK_REGATE (R550): 100 µs after the last packet for the block. -/
def execBlockRegate (b : Nat) (s : State) : Res :=
  runIf (wfBlockRegate b)
    (if devRuns s && !blockGated s b && mayGate s b && s.pwr.heldPkts.all (fun h => decide (h.block ≠ b)) then
      let s := advanceTo (mget 0 s.pwr.pktAt b + 1000000) s
      { s with pwr := { s.pwr with gated := mset false s.pwr.gated b true } }
     else s)

/-! ### Telemetry (R553–R555) -/

/-- Numbers below 2^16 packed four to a word. -/
def quads (f : Nat → Nat) (i : Nat) : W64 := packW ((List.range 4).map fun k => (f (4 * i + k) % 65536, 16 * k))
def thermWord (s : State) (i : Nat) : Nat := if thermOk s i then narrow 16 (thermAt s i) else 0x8000
def hgWord (s : State) (h : Nat) : Nat := if mget false s.avl.hgFailed h || blockGated s h then 0 else mget 0 s.pace.hg h
/-- Word `i` of the first 0x1100 bytes of a record. -/
def sampleWord (s : State) (seq powerMs : Nat) (rails : List (Nat × Nat)) (i : Nat) : W64 :=
  let hot := (hottest s).getD (0, 0)
  if i = 0 then BitVec.ofNat 64 seq
  else if i = 1 then BitVec.ofNat 64 (paceTime s)
  else if i = 2 then rget s PACE_SLOT
  else if i = 3 then
    packW [(pwrFld s PWR_STATUS_VCORE, 0), (powerMs, 16), (fld s PACE_HG_MIN PACE_HG_MIN_RATE, 32),
      (fld s PACE_HG_MIN PACE_HG_MIN_SENSOR, 48)]
  else if i = 4 then
    packW [(pwrFld s PWR_STATUS_LIMITER, 0), (pwrFld s PWR_STATUS_K, 3), (narrow 16 hot.1, 8), (hot.2, 24),
      (fld s PWR_BOOST PWR_BOOST_CREDIT, 32)]
  else if i < 8 then 0
  else if i < 60 then quads (thermWord s) (i - 8)
  else if i < 64 then 0
  else if i < 72 then
    let rail (k : Nat) : Nat := (rails[k]?).elim 0 fun r => r.1 + r.2 * 65536
    packW [(rail (2 * (i - 64)), 0), (rail (2 * (i - 64) + 1), 32)]
  else if i < 128 then 0
  else if i < 544 then quads (hgWord s) (i - 128)
  else 0
/-- Word `i` of the 40 KiB record of the sample just taken. -/
def recordWord (s : State) (i : Nat) : Nat :=
  if i < 544 then (mget (0 : W64) s.pwr.sample i).toNat
  else if i < 576 then 0
  else if i < 4672 then mget 0 s.pwr.ctrSample (i - 576)
  else 0
/-- TELEMETRY_SAMPLE (R553, R555): mean power of the ms in W, and rails 0–6 in mV and 0.1 A. -/
def execTelemetrySample (powerMs : Nat) (rails : List (Nat × Nat)) (s : State) : Res :=
  runIf (wfTelemetrySample powerMs rails)
    (if !devRuns s then s
     else
       let seq := (rget s TELEM_SEQ).toNat + 1
       let s := { s with pwr := { s.pwr with
         sample := (List.range 544).foldl (fun m i => mset 0 m i (sampleWord s seq powerMs rails i)) []
         ctrSample := mkeep (· < 4096) s.pwr.ctr } }
       let s := rset s TELEM_SEQ (BitVec.ofNat 64 seq)
       if flag s TELEM_RING TELEM_RING_EN then
         let n := 2 ^ min (fld s TELEM_RING TELEM_RING_SIZE) 12
         dramWriteAll (fld s TELEM_RING TELEM_RING_BASE * 4096 + seq % n * 40960)
           ((List.range 5120).flatMap fun i => leBytes 8 (recordWord s i)) s
       else s)
/-- TELEM_RING_WRITE (R597). -/
def execTelemRingWrite (m : Master) (v : W64) (s : State) : Res :=
  runIf (wfTelemRingWrite m v)
    (byMaster m TELEM_RING (fun s => 
     if !mayAdmin s m then s
     else if ringFits v (40960 * 2 ^ min (bitsOf v 56 4) 12) then rset s TELEM_RING (ringWord v)
     else logErr 0x0C0A 0x25 none 0 s) s)

end Sys2Proof.Machine
end

