-- ==== Sys2Proof/Machine/AvlRows.lean ====
section
/-!
DEFINITION. The rows of background work and test requests (chapter 21). What a test finds comes with the command.
-/
namespace Sys2Proof.Machine
open Sys2Proof

/-! ### Hourglass recalibration (R558) -/

/-- HG_RECAL_DUE (R48, R558): a sensor asked for comes first, then the next in ascending order. Its reading holds for the 200 µs that a
recalibration may take; the outcome shows at once (DESIGN CHOICE, log 86). The time is that at which the sensor falls due, and no
earlier than the end of the recalibration before. -/
def execHgRecalDue (ok : Bool) (s : State) : Res :=
  runIf (wfHgRecalDue ok)
    (if !computePowered s then s else
     let h := s.avl.hgAsked.headD s.avl.hgNext
     let s := { s with now := max s.now ((s.avl.hgHold.map (·.2)).getD 0) }
     let s := if s.avl.hgAsked.isEmpty then
         let t := nextDue s s.avl.hgAt (max 1 (fld s AVL_CFG AVL_CFG_HG_H) * 3600 * 10 ^ 10 / 1664)
         setAvl (fun a => { a with hgNext := (h + 1) % 1664, hgAt := t }) (advanceTo t s)
       else setAvl (fun a => { a with hgAsked := a.hgAsked.tail }) s
     let s := setAvl (fun a => { a with hgHold := some (h, s.now + 2000000) }) s
     let s := endSlots (fun k t => decide (k = 4) && decide (t = h)) (!ok) 0 0 s
     if ok || mget false s.avl.hgFailed h then s
     else showSlowest (shadowGen (setAvl (fun a => { a with hgFailed := mset false a.hgFailed h true }) s)))

/-! ### Core tests (R557–R562) -/

/-- Every context of the plot is HALTED or UNLOADED, its engines are empty, its channels CLOSED (R557). -/
def plotIdle (s : State) (p : Nat) : Bool :=
  (s.core.ctxs.all fun e => !unitIn s p (e.1 / 8) || decide (e.2.st = .halted) || decide (e.2.st = .unloaded)) &&
  (s.core.engines.all fun e => !unitIn s p (e.1 / 2) || e.2.isEmpty) &&
  (s.strm.chans.all fun e => !unitIn s p (e.1 / 4) || decide (e.2.st = 0))
/-- The core is shaded or in no plot. -/
def coreFree (s : State) (ph : Nat) : Bool := isShaded s ph || (plotAt s ph).isNone
/-- SIEVE_REGION_START (R261, R262): the region is held, and saved with its single-bit errors corrected; `sieveHold` is one more
than the region. Rows of a core that is shaded or in no plot are repaired at its turn (R564). -/
def execSieveRegionStart (phys : Nat) (s : State) : Res :=
  runIf (wfSieveRegionStart phys)
    (if computePowered s && mget false s.avl.sieveDue phys && decide (mget 0 s.avl.sieveHold phys = 0) then
      let s := if coreFree s phys then repairRows (fun ph => decide (ph = phys)) s else s
      let r := mget 0 s.avl.sieveNext phys
      let ws := backWords phys (regionAddr r) 256
      let s := freshBits ws (ws.foldl (touchBack phys) s)
      setAvl (fun a => { a with
        sieveDue := mset false a.sieveDue phys false, sieveHold := mset 0 a.sieveHold phys (r + 1) }) s
     else s)
/-- A test may run on the core: one that a request names also in an idle plot (R562). -/
def mayTest (s : State) (ph : Nat) (named : Bool) : Bool := coreFree s ph || (named && (plotAt s ph).any (plotIdle s))
def testRuns (s : State) (ph : Nat) : Bool := s.avl.tests.any fun t => decide (t.core = ph)
/-- A test starts, or goes on for a request. -/
def startTest (ph : Nat) (req : Option Nat) (s : State) : State :=
  setAvl (fun a => { a with tests := if a.tests.any (fun t => decide (t.core = ph)) then
    (a.tests.map fun t => if t.core = ph then { t with req := if req.isSome then req else t.req } else t)
    else a.tests ++ [⟨ph, 1, req⟩] }) s
/-- CORE_TEST_DUE (R557, R559, R562): the time is the next at which a test of the core falls due. -/
def execCoreTestDue (ph : Nat) (s : State) : Res :=
  runIf (wfCoreTestDue ph)
    (if computePowered s && coreFree s ph && !testRuns s ph then
      let t := nextDue s (mget 0 s.avl.testAt ph) (max 1 (fld s AVL_CFG AVL_CFG_CORE_H) * 3600 * 10 ^ 10)
      startTest ph none (setAvl (fun a => { a with testAt := mset 0 a.testAt ph t }) (advanceTo t s))
     else s)
/-- A step's findings (R559–R561, R564). -/
def stepFind (k : Nat) (f : TestFind) (s : State) : State :=
  match k with
  | 1 => applyFind { f with e0 := 0, e1 := 0, rows := [] } s
  | 2 => applyFind { f with seq := false, rows := [] } s
  | _ => applyFind { f with seq := false, e0 := 0, e1 := 0 } s
/-- A request's result collects the findings of a step. -/
def stepResult (i k : Nat) (f : TestFind) (s : State) : State :=
  let r := AVL_RES i
  match k with
  | 1 => orFld (orFld s r AVL_RES_SEQ_FAIL (b2n f.seq)) r AVL_RES_FAULT (b2n f.seq)
  | 2 => orFld (orFld (orFld s r AVL_RES_E0_FAIL f.e0) r AVL_RES_E1_FAIL f.e1) r AVL_RES_FAULT (b2n (decide (f.e0 ≠ 0) || decide (f.e1 ≠ 0)))
  | _ => orFld (orFld s r AVL_RES_ROW_FAIL (b2n (!f.rows.isEmpty))) r AVL_RES_FAULT (b2n (!f.rows.isEmpty))
/-- A load commits a plot that holds the core. -/
def commitReaches (s : State) (ph : Nat) : Bool := (plotAt s ph).any fun p => decide (fld s (PLOT_STATUS p) PLOT_STATUS_STATE = 1)
/-- The core may no longer be tested (R562). -/
def mustStop (s : State) (t : CoreTest) : Bool := !mayTest s t.core t.req.isSome || commitReaches s t.core
/-- A test stops, its region restored; a requested one is DEFERRED again (R562). -/
def stopTest (t : CoreTest) (s : State) : State :=
  let s := serveHeld (setAvl (fun a => { a with
    tests := a.tests.filter (fun x => decide (x.core ≠ t.core)), sieveHold := mset 0 a.sieveHold t.core 0 }) s)
  match t.req with
  | some i => slotTo i 3 0x0C01 s
  | none => s
/-- CORE_TEST_STEP_DONE (R559): a test that must stop does not reach the end of the step. -/
def execCoreTestStepDone (f : TestFind) (s : State) : Res :=
  runIf (wfCoreTestStepDone f)
    (match s.avl.tests.find? fun t => decide (t.core = f.core) with
     | none => s
     | some t =>
       if mustStop s t then stopTest t s
       else
       let s := match t.req with
         | some i => stepResult i t.step f s
         | none => s
       let rest := s.avl.tests.filter fun x => decide (x.core ≠ f.core)
       let s := setAvl (fun a => { a with tests := if t.step < 3 then rest ++ [{ t with step := t.step + 1 }] else rest }) s
       let s := match t.req with
         | some i => if t.step < 3 then s else slotTo i 4 0 s
         | none => s
       spareAtOnce (groupAt f.core) (stepFind t.step f s))
/-- CORE_TEST_STOP (R562). -/
def execCoreTestStop (ph : Nat) (s : State) : Res :=
  runIf (wfCoreTestStop ph)
    (match s.avl.tests.find? fun t => decide (t.core = ph) with
     | none => s
     | some t => if mustStop s t then stopTest t s else s)

/-! ### Rotation (R565) -/

/-- Rules 1–4 of R563 apply to a group. -/
def ruled (s : State) (g : Nat) : Bool :=
  ((List.range 26).any fun i => coreRetired s (physAt g i) || decide (engineWidth s (physAt g i) 0 ≠ 8) ||
    decide (engineWidth s (physAt g i) 1 ≠ 8)) || (deferredIn s g).isSome
/-- SPARE_ROTATION_DUE (R563, R565). -/
def execSpareRotationDue (g : Nat) (s : State) : Res :=
  runIf (wfSpareRotationDue g)
    (if !flag s AVL_CFG AVL_CFG_ROTATE_EN || ruled s g || s.avl.rotateDue.contains g then s
     else
       let s := advanceTo (mget 0 s.avl.placedAt g + max 1 (fld s AVL_CFG AVL_CFG_ROTATE_H) * 3600 * 10 ^ 10) s
       spareAtOnce g (setAvl (fun a => { a with rotateDue := a.rotateDue ++ [g] }) s))

/-! ### Requests (R570–R572) -/

/-- Two requests name one resource: a physical core, a sensor, a channel, a Cyust port. -/
def sameResource (k t k' t' : Nat) : Bool :=
  if k ≤ 3 then decide (1 ≤ k' ∧ k' ≤ 3) && decide (t = t')
  else if k = 4 then decide (k' = 4) && decide (t = t')
  else if k ≤ 6 then decide (k' = 5 ∨ k' = 6) && decide (t = t')
  else decide (7 ≤ k') && decide (t / 16 = t' / 16)
/-- Another request for the resource is QUEUED, RUNNING or DEFERRED. -/
def resourceTaken (s : State) (k t : Nat) : Bool := (List.range 16).any fun j =>
  slotBusy s j && sameResource k t (mget 0 s.avl.reqKind j) (mget 0 s.avl.reqTarget j)
/-- A request is recorded in its slot in a state, its former result gone. -/
def recordReq (i k t st code : Nat) (s : State) : State :=
  rset (setAvl (fun a => { a with
    reqKind := mset 0 a.reqKind i k, reqTarget := mset 0 a.reqTarget i t
    reqAt := mset 0 a.reqAt i (paceTime s), reqForce := mset false a.reqForce i false }) s) (AVL_RES i) (packW [(st, 0), (code, 16)])
/-- A request of a master that may write reaches a slot that takes one; `go` is what it does when its resource has no other. -/
def request (m : Master) (i k t : Nat) (go : State → State) (s : State) : State :=
  if !mayAdmin s m || slotBusy s i then s
  else if resourceTaken s k t then recordReq i k t 5 0x0C02 s
  else go s
/-- A core test of physical core `ph` (R570, R571). With FORCE the runtime starts an epoch at the next Glint. -/
def coreRequest (i k ph : Nat) (force now : Bool) (s : State) : State :=
  if !isShaded s ph && coreRetired s (physAt (groupAt ph) (spareOf s (groupAt ph))) then recordReq i k ph 5 0x0C04 s
  else if now then startTest ph (some i) (recordReq i k ph 2 0 s)
  else setAvl (fun a => { a with reqForce := mset false a.reqForce i force }) (recordReq i k ph 3 0x0C01 s)
/-- A target that the device does not have (DESIGN CHOICE, log 62). -/
def noTarget (i k t : Nat) (s : State) : State := recordReq i k t 5 0x0C04 s
/-- CORE (R570). -/
def askCore (m : Master) (i n : Nat) (force : Bool) (s : State) : State :=
  if nCores ≤ n || absentCore s n then request m i 1 nPhys (noTarget i 1 nPhys) s
  else
    let ph := physOf s n
    request m i 1 ph (fun s => coreRequest i 1 ph force (match plotOf s n with
      | some p => plotIdle s p
      | none => true) s) s
/-- PCORE (R570). -/
def askPcore (m : Master) (i ph : Nat) (force : Bool) (s : State) : State :=
  request m i 2 ph (fun s => if nPhys ≤ ph then noTarget i 2 ph s else coreRequest i 2 ph force (coreFree s ph) s) s
/-- RETIRE (R561, R570). -/
def askRetire (m : Master) (i ph : Nat) (s : State) : State :=
  request m i 3 ph (fun s =>
    if nPhys ≤ ph then noTarget i 3 ph s
    else spareAtOnce (groupAt ph) (retire ph (recordReq i 3 ph 4 0 s))) s
/-- HG_CAL (R558, R570). -/
def askHg (m : Master) (i h : Nat) (s : State) : State :=
  request m i 4 h (fun s =>
    if 1664 ≤ h then noTarget i 4 h s
    else setAvl (fun a => { a with hgAsked := a.hgAsked ++ [h] }) (recordReq i 4 h 1 0 s)) s
/-- LPDDR_RETRAIN (R394, R570). -/
def askRetrain (m : Master) (i x : Nat) (s : State) : State :=
  request m i 5 x (fun s => if 64 ≤ x then noTarget i 5 x s else makeDue x (recordReq i 5 x 1 0 s)) s
/-- LPDDR_TEST (R570, R571): the test and the retraining of R391 that follows it end at once (DESIGN CHOICE, log 63). -/
def askLpddr (m : Master) (i x : Nat) (force pass : Bool) (s : State) : State :=
  request m i 6 x (fun s =>
    let others := (List.range 16).any fun c => decide (devCh (x / 16) c ≠ x) && decide (chState s (devCh (x / 16) c) ≠ 0)
    let done (s : State) : State := recordReq i 6 x 4 0 s
    let result (s : State) : State := setFld (done s) (AVL_RES i) AVL_RES_FAULT (b2n (!pass))
    if 64 ≤ x || others then recordReq i 6 x 5 0x0C04 s
    else if chState s x = 2 then result s
    else if force = false then recordReq i 6 x 5 0x0C02 s
    else reinstate x pass (result (setCh x 2 s))) s
/-- CYUST_LANE (R494, R499, R570). -/
def askLane (m : Master) (i t : Nat) (force : Bool) (s : State) : State :=
  let (p, l) := (t / 16, t % 16)
  request m i 7 t (fun s =>
    if 8 ≤ p ∨ 9 ≤ l then noTarget i 7 t s
    else if spareFree s p then
      if l = 8 then recordReq i 7 t 4 0 s else swapOn p l (recordReq i 7 t 2 0 s)
    else if force then portDown p [] (recordReq i 7 t 2 0 s)
    else recordReq i 7 t 5 0x0C02 s) s
/-- CYUST_LOOP (R495, R570). -/
def askLoop (m : Master) (i t : Nat) (force : Bool) (s : State) : State :=
  let (p, v) := (t / 16, t % 16)
  request m i 8 t (fun s =>
    if 8 ≤ p ∨ v = 0 ∨ 4 ≤ v then noTarget i 8 t s
    else if portState s p ≤ 1 then startLoop p v (recordReq i 8 t 4 0 s)
    else if force then startLoop p v (portDown p [] (recordReq i 8 t 4 0 s))
    else recordReq i 8 t 5 0x0C02 s) s
/-- CANCEL (R570). -/
def cancelReq (m : Master) (i : Nat) (s : State) : State :=
  if !mayAdmin s m || !(decide (slotState s i = 1) || decide (slotState s i = 3)) then s
  else
    let (k, t) := (mget 0 s.avl.reqKind i, mget 0 s.avl.reqTarget i)
    let s := if k = 4 then setAvl (fun a => { a with hgAsked := a.hgAsked.filter fun h => decide (h ≠ t) }) s else s
    rset s (AVL_RES i) 0

/-- AVL_CORE_TEST (R570). -/
def execAvlCoreTest (m : Master) (i n : Nat) (force : Bool) (s : State) : Res :=
  runIf (wfAvlCoreTest m i n force) (byMaster m (AVL_REQ i) (fun s => askCore m i n force s) s)
/-- AVL_PCORE_TEST (R570). -/
def execAvlPcoreTest (m : Master) (i ph : Nat) (force : Bool) (s : State) : Res :=
  runIf (wfAvlPcoreTest m i ph force) (byMaster m (AVL_REQ i) (fun s => askPcore m i ph force s) s)
/-- AVL_RETIRE (R570). -/
def execAvlRetire (m : Master) (i ph : Nat) (s : State) : Res := runIf (wfAvlRetire m i ph) (byMaster m (AVL_REQ i) (fun s => askRetire m i ph s) s)
/-- AVL_HG_CAL (R570). -/
def execAvlHgCal (m : Master) (i h : Nat) (s : State) : Res := runIf (wfAvlHgCal m i h) (byMaster m (AVL_REQ i) (fun s => askHg m i h s) s)
/-- AVL_LPDDR_RETRAIN (R570). -/
def execAvlLpddrRetrain (m : Master) (i x : Nat) (s : State) : Res := runIf (wfAvlLpddrRetrain m i x) (byMaster m (AVL_REQ i) (fun s => askRetrain m i x s) s)
/-- AVL_LPDDR_TEST (R570). -/
def execAvlLpddrTest (m : Master) (i x : Nat) (force pass : Bool) (s : State) : Res :=
  runIf (wfAvlLpddrTest m i x force pass) (byMaster m (AVL_REQ i) (fun s => askLpddr m i x force pass s) s)
/-- AVL_CYUST_LANE (R570). -/
def execAvlCyustLane (m : Master) (i t : Nat) (force : Bool) (s : State) : Res :=
  runIf (wfAvlCyustLane m i t force) (byMaster m (AVL_REQ i) (fun s => askLane m i t force s) s)
/-- AVL_CYUST_LOOP (R570). -/
def execAvlCyustLoop (m : Master) (i t : Nat) (force : Bool) (s : State) : Res :=
  runIf (wfAvlCyustLoop m i t force) (byMaster m (AVL_REQ i) (fun s => askLoop m i t force s) s)
/-- AVL_CANCEL (R570). -/
def execAvlCancel (m : Master) (i : Nat) (s : State) : Res := runIf (wfAvlCancel m i) (byMaster m (AVL_REQ i) (fun s => cancelReq m i s) s)
/-- DEFERRED_REQUEST_RUN (R570, R572): after the epoch, once the core is shaded or in no plot. -/
def execDeferredRequestRun (i : Nat) (s : State) : Res :=
  runIf (wfDeferredRequestRun i)
    (let ph := mget 0 s.avl.reqTarget i
     if slotState s i = 3 ∧ !epochOn s ∧ coreFree s ph then startTest ph (some i) (slotTo i 2 0 s) else s)

end Sys2Proof.Machine
end

