-- ==== Sys2Proof/Machine/Beat.lean ====
section
/-!
DEFINITION. What each instruction of a bundle does when it issues (R123–R147), and the beat (R96, R97). Every slot reads the
state before the bundle (R83); control moves last.
-/
namespace Sys2Proof.Machine
open Sys2Proof

/-! ### S slot -/

/-- Registers that the S slot writes (R128–R130); branches and repeats act in `control`. -/
def effS (pre : State) (u c : Nat) (i : Instr) (s : State) : State :=
  match i with
  | .add _ _ rd ra rb => effAdd pre u c rd ra rb s
  | .sub _ _ rd ra rb => effSub pre u c rd ra rb s
  | .and _ _ rd ra rb => effAnd pre u c rd ra rb s
  | .or _ _ rd ra rb => effOr pre u c rd ra rb s
  | .xor _ _ rd ra rb => effXor pre u c rd ra rb s
  | .sll _ _ rd ra rb => effSll pre u c rd ra rb s
  | .srl _ _ rd ra rb => effSrl pre u c rd ra rb s
  | .sra _ _ rd ra rb => effSra pre u c rd ra rb s
  | .mul _ _ rd ra rb => effMul pre u c rd ra rb s
  | .mulhu _ _ rd ra rb => effMulhu pre u c rd ra rb s
  | .min _ _ rd ra rb => effMin pre u c rd ra rb s
  | .max _ _ rd ra rb => effMax pre u c rd ra rb s
  | .minu _ _ rd ra rb => effMinu pre u c rd ra rb s
  | .maxu _ _ rd ra rb => effMaxu pre u c rd ra rb s
  | .addi _ _ rd ra imm => effAddi pre u c rd ra imm s
  | .andi _ _ rd ra imm => effAndi pre u c rd ra imm s
  | .ori _ _ rd ra imm => effOri pre u c rd ra imm s
  | .xori _ _ rd ra imm => effXori pre u c rd ra imm s
  | .slli _ _ rd ra sh => effSlli pre u c rd ra sh s
  | .srli _ _ rd ra sh => effSrli pre u c rd ra sh s
  | .srai _ _ rd ra sh => effSrai pre u c rd ra sh s
  | .movi _ _ rd imm => effMovi u c rd imm s
  | .movk _ _ rd hw imm => effMovk pre u c rd hw imm s
  | .cmp _ _ pd cc ra rb => effCmp pre u c pd cc ra rb s
  | .pand _ _ pd pa pb => effPand pre u c pd pa pb s
  | .por _ _ pd pa pb => effPor pre u c pd pa pb s
  | .pxor _ _ pd pa pb => effPxor pre u c pd pa pb s
  | .pandn _ _ pd pa pb => effPandn pre u c pd pa pb s
  | .rds _ _ rd sel => effRds pre u c rd sel s
  | .call _ _ _ => writeS u c 31 (BitVec.ofNat 64 ((ctx pre u c).pc + 1)) s
  | .eret _ _ => updCtx s u c fun x => { x with eie := true }
  | _ => s

/-! ### V slot -/

/-- The V slot: every instruction but NOP counts in `VEC_ISSUED`, whatever its predicate. -/
def effV (pre : State) (u c : Nat) (i : Instr) (s : State) : State :=
  match i with
  | .vadd _ p t vd va vb => effVadd pre u c p t vd va vb s
  | .vsub _ p t vd va vb => effVsub pre u c p t vd va vb s
  | .vmul _ p t vd va vb => effVmul pre u c p t vd va vb s
  | .vfma _ p t vd va vb => effVfma pre u c p t vd va vb s
  | .vmin _ p t vd va vb => effVmin pre u c p t vd va vb s
  | .vmax _ p t vd va vb => effVmax pre u c p t vd va vb s
  | .vand _ p t vd va vb => effVand pre u c p t vd va vb s
  | .vor _ p t vd va vb => effVor pre u c p t vd va vb s
  | .vxor _ p t vd va vb => effVxor pre u c p t vd va vb s
  | .vshl _ p t vd va vb => effVshl pre u c p t vd va vb s
  | .vshr _ p t vd va vb arith => effVshr pre u c p t vd va vb arith s
  | .vcmp _ p t pd cc va vb => effVcmp pre u c p t pd cc va vb s
  | .vcmac _ p vd va vb => effVcmac pre u c p vd va vb s
  | .vconv _ p t d vd va sat h => effVconv pre u c p t d vd va sat h s
  | .vred _ p t vd va op => effVred pre u c p t vd va op s
  | .vperm _ p t vd va vb => effVperm pre u c p t vd va vb s
  | .vbcast _ p t vd ra => effVbcast pre u c p t vd ra s
  | .vext _ p t rd va idx => effVext pre u c p t rd va idx s
  | .vmov _ p t vd va => effVmov pre u c p t vd va s
  | .vspecSearch _ p t vd va vb least accum => effVspecSearch pre u c p t vd va vb least accum s
  | .vspecTap _ p t vd va vb k => effVspecTap pre u c p t vd va vb k s
  | _ => s

/-! ### M slot -/

/-- MM: the descriptor enters the engine's queue (R188). -/
def effMm (pre : State) (u c e dd : Nat) (s : State) : State :=
  let s := bumpFld s (ENG_ISSUED u e) ENG_ISSUED_ISSUED 1
  let cmd : ECmd := { desc := dr (ctx pre u c) dd, c := c, pc := (ctx pre u c).pc, num := fld s (ENG_ISSUED u e) ENG_ISSUED_ISSUED
                      started := false, shape := 0, flow := 0, cols := 0, hidF := false }
  { s with core := { s.core with engines := mset [] s.core.engines (u * 2 + e) (mget [] s.core.engines (u * 2 + e) ++ [cmd]) } }

def effM (pre : State) (u c : Nat) (i : Instr) (s : State) : State :=
  match i with
  | .mm _ _ e dd => effMm pre u c e dd s
  | .smOpen _ _ ch dd => openChan u c ch (ctx pre u c).pc (dr (ctx pre u c) dd) s
  | .smClose _ _ ch => effClose u ch s
  | .smRd _ _ pd vd ch => effRead u c pd ch 64 (fun v => writeV u c vd (BitVec.ofNat 512 v)) s
  | .smRds _ _ pd rd ch => effRead u c pd ch 8 (fun v => writeS u c rd (BitVec.ofNat 64 v)) s
  | .smWr _ _ va ch => effWrite u ch 64 (rdV pre u c va).toNat s
  | .smWrs _ _ ra ch => effWrite u ch 8 (rdS pre u c ra).toNat s
  | .smSave _ _ ch dd => writeD u c dd (liveDesc pre u ch) s
  | _ => s

/-! ### X slot -/

/-- A load of `n` bytes into register `dst`. -/
def effLoad (pre : State) (u c n : Nat) (signed : Bool) (dst : Reg) (ra imm : Nat) (s : State) : State :=
  sendLoad u c (ctx pre u c).pc (effAddr pre u c ra imm) n signed (some dst) s
/-- The flags that the bundle's V slot sets in the beat after its issue, in which a store of the bundle to the own page takes
effect too (R95, R226). -/
def flagsWith (pre : State) (u c : Nat) : Nat :=
  match slotIns pre u (ctx pre u c).pc .V with
  | some i => fld (effV pre u c i (rset pre (VEC_FLAGS u) 0)) (VEC_FLAGS u) ⟨0, 0, 5⟩
  | none => 0
/-- W1C bits of the own page's word at `po` that the bundle's V slot sets in that instant: they stay set (R10, R236). -/
def setWith (pre s : State) (u c po : Nat) : W64 :=
  let fl := flagsWith pre u c
  if fl = 0 then 0
  else if po = 0x800 then BitVec.ofNat 64 fl
  else if po = 0x810 then (if mget 0 s.core.vecFirst u = vecNum pre u then 0x1000000 else 0)
  else if po = 0x118 + c * 0x80 then (if fl &&& fld pre (VEC_EVT_MASK u) VEC_EVT_MASK_MASK ≠ 0 then 2 else 0)
  else 0
/-- A store of the low `n` bytes of `v`. -/
def effStore (pre : State) (u c n v ra imm : Nat) (s : State) : State :=
  let ea := effAddr pre u c ra imm
  let keep := if ownPageAt u ea then (setWith pre s u c (offOf ea % 0x1000 / 8 * 8)).toNat / 2 ^ (8 * (ea % 8)) else 0
  sendStore u c (ctx pre u c).pc ea (leBytes n (if keep = 0 then v else v - (v &&& keep))) s
/-- An operation on the messaging blocks. -/
def effOp (pre : State) (u c : Nat) (op : ReqOp) (dst : Option Reg) (pdst : Nat) (s : State) : State :=
  sendOp u c (ctx pre u c).pc op dst pdst s

/-- A blocking instruction holds a context that still runs (R94). -/
def toHold (h : Hold) (x : Ctx) : Ctx :=
  if x.st = .ready then { x with hold := h, st := .waiting, reason := holdReason h } else x

/-- SYNC.WAIT: the request sets out and the context holds (R94, R358). -/
def effSyncWait (pre : State) (u c rd ra rb : Nat) (s : State) : State :=
  let tag := s.core.nextTag
  let s := effOp pre u c (.syncWait (rdS pre u c ra).toNat (rdS pre u c rb)) (some (.s rd)) 0 s
  updCtx s u c (toHold (.sync tag))

/-- The parts of a message body (R140, R382): the core's own memories are read at issue, the rest is asked for. -/
def bodyParts (u c b n : Nat) (s : State) : List Part × State :=
  if n = 0 then ([], s) else readParts u c false (bankParts s u b n) s

/-- MBX.SEND: the request carries the body's parts, then the part that the mailbox answers. -/
def effMbxSend (pre : State) (u c rd ra rb : Nat) (s : State) : State :=
  let a := (rdS pre u c ra).toNat
  let n := a / 2 ^ 11 % 512
  let r := bodyParts u c (rdS pre u c rb).toNat n s
  sendReq u c (ctx pre u c).pc (.mbxSend (a % 64) (a / 64 % 32) n) (some (.s rd)) 0 (decide (rd ≠ 0)) (r.1 ++ [⟨0, 0, none⟩]) r.2

/-- EVT.WAIT: the context holds until an enabled event is pending. -/
def effEvtWait (u c : Nat) (s : State) : State :=
  updCtx s u c fun x => eventWake (toHold .event x)

/-- The core's GLINT.WAIT issues in the instant in which the last Glint reached it: no time has passed since, and this is the
core's first beat since, which `pre` has counted (R55; DEDUCED, log 93). -/
def sameInstant (pre : State) (u : Nat) : Bool :=
  decide (pre.pace.reachAt = some pre.now) && decide (mget 0 pre.core.reached u = fld pre (CORE_BEATS u) CORE_BEATS_BEATS)
/-- The slot as a GLINT.WAIT finds it: in the instant of a Glint it comes first (R55). -/
def slotNow (pre : State) (u : Nat) : Nat :=
  let n := fld pre PACE_SLOT PACE_SLOT_SLOT
  if sameInstant pre u then n - 1 else n
/-- A paced context ends its slot with GLINT.WAIT: an overrun from the Glint of the next slot (R75), but for a Glint of the same
instant (R55). -/
def endSlot (pre : State) (u c : Nat) (s : State) : State :=
  let k := (ctx s u c).slot
  if slotNow pre u ≤ k then s
  else match s.core.glints.find? fun g => decide (g.1 = u) && decide (g.2.1 = k + 1) with
  | some g => overrun u c k (fld s (CORE_BEATS u) CORE_BEATS_BEATS - g.2.2) s
  | none => s
/-- The context holds for the Glint that opens slot `k` (R53, R54). -/
def holdFor (u c k : Nat) (s : State) : State :=
  updCtx s u c fun x =>
    if k ≤ fld s PACE_SLOT PACE_SLOT_SLOT then { x with slot := k }
    else toHold (.glint k) { x with slot := k }
/-- GLINT.WAIT of an unpaced context (R52): a Glint of the same instant ends it (R55). -/
def holdNext (pre : State) (u c : Nat) (s : State) : State :=
  if sameInstant pre u then updCtx s u c fun x => { x with paced := true, slot := fld s PACE_SLOT PACE_SLOT_SLOT }
  else updCtx s u c (toHold .nextGlint)
/-- GLINT.WAIT, NEXT form (R52, R53). -/
def effGlintNext (pre : State) (u c : Nat) (s : State) : State :=
  if !(ctx s u c).paced then holdNext pre u c s else holdFor u c ((ctx s u c).slot + 1) (endSlot pre u c s)
/-- GLINT.WAIT, ALIGN form (R52, R54). -/
def effGlintAlign (pre : State) (u c : Nat) (s : State) : State :=
  if !(ctx s u c).paced then holdNext pre u c s
  else
    let now := slotNow pre u
    holdFor u c (now + 1) (bumpFld (endSlot pre u c s) (CORE_SKIPPED u) CORE_SKIPPED_SKIPPED (now - (ctx s u c).slot))

/-- FP.RD takes the oldest word from the port (R415). -/
def effFpRd (u c rd e : Nat) (s : State) : State :=
  let p := fabOf s u e
  writeS u c rd (p.rx.headD 0) (setFab u e { p with rx := p.rx.tail } s)

/-- SV.PRST (R90, R91). -/
def effPrst (pre : State) (u c ra : Nat) (s : State) : State :=
  let v := (rdS pre u c ra).toNat
  let s := plotReset (v % 64) s
  if v / 64 % 2 = 1 then plotStart (v % 64) s else s
/-- SV.SRES (R291, R295). -/
def effSres (pre : State) (u c ra rb : Nat) (s : State) : State :=
  let v := (rdS pre u c ra).toNat
  resumeBy (v % 2 ^ 15) (v / 2 ^ 15 % 4) (bit1 (rdS pre u c rb) 0) s
/-- Bundle `i` of a program store takes a word; an error in the old word goes with it. -/
def setBundle (u i : Nat) (w : W128) (s : State) : State :=
  { s with core := { s.core with
      pstore := mset 0 s.core.pstore (u * 2048 + i) w
      pstoreBad := mset false s.core.pstoreBad (u * 2048 + i) false } }
/-- SV.PSW (R140); a core number that names no core has no store to write (DESIGN CHOICE, log 100). -/
def effPsw (pre : State) (u c ra vb : Nat) (s : State) : State :=
  let v := (rdS pre u c ra).toNat
  if nCores ≤ v % 2 ^ 15 then s
  else (List.range 4).foldl (fun s i => setBundle (v % 2 ^ 15) (v / 2 ^ 16 % 2048 + i) ((rdV pre u c vb).extractLsb' (128 * i) 128) s) s

def effX (pre : State) (u c : Nat) (i : Instr) (s : State) : State :=
  let n (r : Nat) : Nat := (rdS pre u c r).toNat
  match i with
  | .ldB _ _ rd ra imm => effLoad pre u c 1 false (.s rd) ra imm s
  | .ldH _ _ rd ra imm => effLoad pre u c 2 false (.s rd) ra imm s
  | .ldW _ _ rd ra imm => effLoad pre u c 4 false (.s rd) ra imm s
  | .ldD _ _ rd ra imm => effLoad pre u c 8 false (.s rd) ra imm s
  | .ldBs _ _ rd ra imm => effLoad pre u c 1 true (.s rd) ra imm s
  | .ldHs _ _ rd ra imm => effLoad pre u c 2 true (.s rd) ra imm s
  | .ldWs _ _ rd ra imm => effLoad pre u c 4 true (.s rd) ra imm s
  | .ldV _ _ vd ra imm => effLoad pre u c 64 false (.v vd) ra imm s
  | .ldDsc _ _ dd ra imm => effLoad pre u c 64 false (.d dd) ra imm s
  | .stB _ _ rs ra imm => effStore pre u c 1 (n rs) ra imm s
  | .stH _ _ rs ra imm => effStore pre u c 2 (n rs) ra imm s
  | .stW _ _ rs ra imm => effStore pre u c 4 (n rs) ra imm s
  | .stD _ _ rs ra imm => effStore pre u c 8 (n rs) ra imm s
  | .stV _ _ vs ra imm => effStore pre u c 64 (rdV pre u c vs).toNat ra imm s
  | .stDsc _ _ ds ra imm => effStore pre u c 64 (dr (ctx pre u c) ds).toNat ra imm s
  | .syncAdd _ _ rd ra rb => effOp pre u c (.syncAdd (n ra) (rdS pre u c rb)) (some (.s rd)) 0 s
  | .syncSet _ _ rd ra rb => effOp pre u c (.syncSet (n ra) (rdS pre u c rb)) (some (.s rd)) 0 s
  | .syncWait _ _ rd ra rb => effSyncWait pre u c rd ra rb s
  | .syncTest _ _ pd ra rb => effOp pre u c (.syncTest (n ra) (rdS pre u c rb)) none pd s
  | .lockAcq _ _ rd ra => effOp pre u c (.lockAcq (n ra)) (some (.s rd)) 0 s
  | .lockRel _ _ ra => effOp pre u c (.lockRel (n ra)) none 0 s
  | .mbxSend _ _ rd ra rb => effMbxSend pre u c rd ra rb s
  | .mbxWdraw _ _ rd ra => effOp pre u c (.mbxWdraw (n ra)) (some (.s rd)) 0 s
  | .qSubmit _ _ rd ra vb => effOp pre u c (.qSubmit (n ra) (rdV pre u c vb)) (some (.s rd)) 0 s
  | .qTake _ _ pd vd ra => effOp pre u c (.qTake (n ra)) (some (.v vd)) pd s
  | .evtWait _ _ => effEvtWait u c s
  | .evtSend _ _ ctx => raiseSoft u ctx s
  | .glintWaitNext _ _ => effGlintNext pre u c s
  | .glintWaitAlign _ _ => effGlintAlign pre u c s
  | .fpRd _ _ rd e => effFpRd u c rd e s
  | .fpWr _ _ ra e => fabSend u e (.word (rdS pre u c ra)) s
  | .fpMark _ _ e imm => fabSend u e (.mark imm) s
  | .svPrst _ _ ra => effPrst pre u c ra s
  | .svSres _ _ ra rb => effSres pre u c ra rb s
  | .svPsw _ _ ra vb => effPsw pre u c ra vb s
  | _ => s

/-! ### The beat -/

/-- One slot of the bundle issues: nothing with a false predicate, but a V slot acts by lanes (R85, R133). -/
def effSlot (pre : State) (u c pc : Nat) (s : State) (sl : Slot) : State :=
  match slotIns pre u pc sl with
  | none => s
  | some i =>
    match sl with
    | .V => effV pre u c i s
    | .S => if truePred pre u c i then effS pre u c i s else s
    | .M => if truePred pre u c i then effM pre u c i s else s
    | .X => if truePred pre u c i then effX pre u c i s else s

def isNop : Instr → Bool
  | .nop _ _ _ => true
  | _ => false
/-- The X slot holds a HALT that executes. -/
def haltsHere (pre : State) (u c pc : Nat) : Bool :=
  match slotIns pre u pc .X with
  | some (.halt _ p) => predTrue (ctx pre u c) p
  | _ => false

/-- Control moves on, and the context stops where HALT, a step or a waiting halt request says so (R111, R140). -/
def moveOn (pre : State) (u c : Nat) (s : State) : State :=
  match control pre u c with
  | .error _ => s
  | .ok k =>
    updCtx s u c fun x =>
      let y := { x with pc := k.pc, levels := k.levels, lc := k.lc }
      if x.st = .faulted ∨ x.st = .unloaded then y
      else
        let y := { y with repiOn := k.repiOn, repiLeft := k.repiLeft }
        if haltsHere pre u c (ctx pre u c).pc then { y with st := .halted, cause := 1, reason := 0, stepping := false, haltReq := false }
        else if y.stepping && !y.repiOn then { y with st := .halted, cause := 2, reason := 0, stepping := false, haltReq := false }
        else y

/-- The bundle of context `c` issues. -/
def issue (u c : Nat) (s : State) : State :=
  let pc := (ctx s u c).pc
  let s := bumpFld s (CORE_BEATS u) CORE_BEATS_BEATS 1
  let t := allSlots.foldl (effSlot s u c pc) s
  let t := if (slotIns s u pc .V).any fun i => !isNop i then bumpFld t (VEC_ISSUED u) VEC_ISSUED_ISSUED 1 else t
  let t := moveOn s u c t
  plotCtr u 0 1 { t with core := { t.core with last := mset 7 t.core.last u c } }

/-- A beat in which nothing issues (R97). -/
def emptyBeat (u : Nat) (s : State) : State :=
  plotCtr u 1 1 (bumpFld (bumpFld s (CORE_BEATS u) CORE_BEATS_BEATS 1) (CORE_EMPTY u) CORE_EMPTY_EMPTY 1)

/-- A bundle faults at issue; a bank access that is not permitted is also logged (R117, R241). -/
def issueFault (u c code slot info : Nat) (s : State) : State :=
  let s := if code = 0x0602 ∧ slot = 3 ∧ selOf info ≠ 3 then logErr 0x0602 (srcOf u) (plotOf s u) info s else s
  faultCtx u c code slot false (ctx s u c).pc info s

/-- The next beat of a unit: its own-page accesses of the beat before take place (R95); then nothing while its sequencer stands
still. -/
def beat (u : Nat) (s : State) : State :=
  let s := settleOwn u s
  if !stepping s u then s
  else
    match selectCtx u s with
    | (.none, t) => if stepping t u then emptyBeat u t else t
    | (.faults c code slot info, t) => issueFault u c code slot info (emptyBeat u t)
    | (.issues c, t) => issue u c t

/-- The unit's next beat issues a bundle whose slot `sl` holds `i`. -/
def willIssue (s : State) (u : Nat) (sl : Slot) (i : Instr) : Bool :=
  match selectCtx u (settleOwn u s) with
  | (.issues c, t) => decide (slotIns t u (ctx t u c).pc sl = some i)
  | _ => false

/-- The row of an instruction: the beat that issues it; with another bundle next there is no such event. -/
def runSlot (u : Nat) (sl : Slot) (i : Instr) (s : State) : State := if willIssue s u sl i then beat u s else s

end Sys2Proof.Machine
end

