-- ==== Sys2Proof/Machine/CoreEvents.lean ====
section
/-!
DEFINITION. Core events that no instruction names: beats in which nothing issues, faults of a repeat, traps, results that
land, and debug control (R97, R106–R114, R118, R226).
-/
namespace Sys2Proof.Machine
open Sys2Proof

/-- EMPTY_BEAT (R97): the next beat, when no bundle issues in it. -/
def execEmptyBeat (u : Nat) (s : State) : Res :=
  runIf (wfEmptyBeat u) (match selectCtx u (settleOwn u s) with
    | (.issues _, _) => s
    | _ => beat u s)

/-- FAULT (R140): the beat in which the bundle faults with 0x010A. -/
def execFault (u p imm : Nat) (s : State) : Res :=
  runIf (wfFault u p imm) (match selectCtx u (settleOwn u s) with
    | (.faults c code slot _, t) =>
      if code = 0x010A ∧ slot = 3 ∧ slotIns t u (ctx t u c).pc .X = some (.fault u p imm) then beat u s else s
    | _ => s)

/-- 1 ms of pace time. -/
def repiLimit : Nat := 10000000
/-- The context of a unit whose REPI iteration has waited beyond the limit (R108). -/
def repiStalled (s : State) (u : Nat) : Option Nat :=
  (List.range 8).find? fun c =>
    let x := ctx s u c
    x.repiOn && decide (x.st = .waiting) && decide (x.hold = .none) && decide (x.waitFrom + repiLimit < paceTime s) &&
      (operandWait s u c).isSome
/-- REPI_STALL (R108). -/
def execRepiStall (u : Nat) (s : State) : Res :=
  runIf (wfRepiStall u) (match repiStalled s u with
    | some c => faultCtx u c 0x0108 (waitSlot s u c) false (ctx s u c).pc 0 s
    | none => s)

/-- VEC_RESULT_WRITE (R226): results of one context to one register land in issue order. -/
def execVecResultWrite (tag : Nat) (s : State) : Res :=
  runIf (wfVecResultWrite tag) (match s.core.vecs.find? fun v => decide (v.tag = tag) with
    | some v => pendDue v s
    | none => s)

/-- TRAP_TAKE (R114). -/
def execTrapTake (u c : Nat) (s : State) : Res :=
  runIf (wfTrapTake u c) (if trapDue (ctx s u c) then updCtx s u c takeTrap else s)

/-- HALT_REQ (R111): a supervisor, the MC or the owning host asks for a debug halt. -/
def execHaltReq (m : Master) (u c : Nat) (s : State) : Res :=
  runIf (wfHaltReq m u c) (byMaster m (CTX_CTRL u c) (unlessAsleep m (CTX_CTRL u c) 0 (some 1) fun s => if mayAdmin s m then updCtx s u c debugHalt else s) s)
/-- RESUME (R111). -/
def execResume (m : Master) (u c : Nat) (s : State) : Res :=
  runIf (wfResume m u c) (byMaster m (CTX_CTRL u c) (unlessAsleep m (CTX_CTRL u c) 0 (some 2) fun s =>
    if mayAdmin s m then updCtx s u c (resumeCtx false) else s) s)
/-- STEP (R111). -/
def execStepCtx (m : Master) (u c : Nat) (s : State) : Res :=
  runIf (wfStepCtx m u c) (byMaster m (CTX_CTRL u c) (unlessAsleep m (CTX_CTRL u c) 0 (some 4) fun s =>
    if mayAdmin s m then updCtx s u c (resumeCtx true) else s) s)
/-- SET_SOFT (R102, R113): also from the context itself. -/
def execSetSoft (m : Master) (u c : Nat) (s : State) : Res :=
  runIf (wfSetSoft m u c)
    (if m = .unit u c then raiseSoft u c s
     else byMaster m (CTX_CTRL u c) (unlessAsleep m (CTX_CTRL u c) 0 (some 16) fun s => if mayAdmin s m then raiseSoft u c s else s) s)

end Sys2Proof.Machine
end

