-- ==== Sys2Proof/Machine/HostRows.lean ====
section
/-!
DEFINITION. The rows of the host ports (chapters 10 and 17): accesses to host memory, translations and page requests, port
resets and links, ownership, MSI-X.
-/
namespace Sys2Proof.Machine
open Sys2Proof

/-! ### Host memory -/

/-- The part of request `tag` that reaches host memory and has not been sent. -/
def hostPart (s : State) (tag i : Nat) : Option (Req × Part) :=
  match findReq s tag with
  | none => none
  | some r => match openAt s r i with
    | some p =>
      if (selOf p.addr = 8 ∨ selOf p.addr = 9) ∧ 0 < p.n ∧ !s.host.sent.contains (tag, i) ∧ inOrder s r p then some (r, p) else none
    | none => none
/-- HOST_MEMORY_READ (R470, R471, R473): sent, answered as poisoned, or held for its translation; it waits while 512 non-posted
requests of its port are outstanding (R463). -/
def execHostMemoryRead (tag part : Nat) (s : State) : Res :=
  runIf (wfHostMemoryRead tag part) (match hostPart s tag part with
    | some (r, p) =>
      let port := selOf p.addr - 8
      if !isLoad r && !(isMsg r.op) then s
      else if !hostReach s port then failHost port tag part 0x0802 (logPortDown port s)
      else if needsXlat s p.addr false then askXlat p.addr false s
      else if 512 ≤ nonPosted s port then s
      else emit (.hostRead port (offOf p.addr) p.n)
        (bumpCtr (144 + 8 * port) 1 { s with host := { s.host with sent := s.host.sent ++ [(tag, part)] } })
    | none => s)
/-- HOST_MEMORY_WRITE (R470, R471, R473). -/
def execHostMemoryWrite (tag part : Nat) (s : State) : Res :=
  runIf (wfHostMemoryWrite tag part) (match hostPart s tag part with
    | some (r, p) => (match r.op with
      | .store a data _ =>
        let port := selOf p.addr - 8
        if !hostReach s port then failHost port tag part 0x0802 (logPortDown port s)
        else if needsXlat s p.addr true then askXlat p.addr true s
        else
          let s := bumpKib (147 + 8 * port) p.n (bumpCtr (145 + 8 * port) 1 s)
          answerPart tag part (.status 0) (emit (.hostWrite port (offOf p.addr) ((data.drop (p.addr - a)).take p.n)) s)
      | _ => s)
    | none => s)
/-- HOST_READ_COMPLETION (R471): the bytes, or none for UR, CA or a timeout. -/
def execHostReadCompletion (tag part : Nat) (data : Option (List Byte)) (s : State) : Res :=
  runIf (wfHostReadCompletion tag part data)
    (if !s.host.sent.contains (tag, part) then s
     else match (findReq s tag).bind fun r => openPart r part with
      | none => s
      | some p =>
        let port := selOf p.addr - 8
        match data with
        | none => answerInvals (logErr 0x0804 0x23 none 0 (failHost port tag part 0x0804 s))
        | some d =>
          if d.length ≠ p.n then s
          else
            let s := { s with host := { s.host with sent := s.host.sent.filter fun e => decide (e ≠ (tag, part)) } }
            answerInvals (answerPart tag part (.bytes d []) (bumpKib (146 + 8 * port) p.n s)))

/-! ### Translations and page requests -/

/-- ATS_TRANSLATION_COMPLETION (R295, R472, R473): the host answers with a range and permissions. -/
def execAtsTranslationCompletion (p page : Nat) (write : Bool) (base pages : Nat) (rd wr : Bool) (s : State) : Res :=
  runIf (wfAtsTranslationCompletion p page write base pages rd wr)
    (match s.host.xreqs.find? fun r => decide (r.port = p) && decide (r.page = page) && decide (r.write = write) && xlatOut r with
     | none => s
     | some r =>
       if base ≤ page ∧ page < base + pages ∧ (if write then wr else rd) = true then xlatArrived r base pages rd wr s
       else xlatFailed r s)
/-- PAGE_RESPONSE (R294, R296, R473): Success translates the page again, Invalid Request gives it up, Response Failure gives up every
page of the port and stops its requests. The place that it leaves goes to a request that waits. -/
def execPageResponse (p page : Nat) (resp : PageResp) (s : State) : Res :=
  runIf (wfPageResponse p page resp)
    (match s.host.xreqs.find? fun r => decide (r.port = p) && decide (r.page = page) && r.asked with
     | none => s
     | some r =>
       let s := setFld s (HOSTIF_PORT_STATUS p) HOSTIF_PORT_STATUS_PRQ_OUT
         (fld s (HOSTIF_PORT_STATUS p) HOSTIF_PORT_STATUS_PRQ_OUT - 1)
       match resp with
       | .success =>
         let s := updXlat r { r with asked := false } s
         sendPages p ((pageWaiters s fun q g => decide (q = p) && decide (g = page)).foldl (fun s e => resumeChan e.1 e.2 s)
           (emit (.translationRequest p page r.write) (bumpCtr (150 + 8 * p) 1 s)))
       | .invalid => sendPages p (pageGone p page r.write s)
       | .failure =>
         let s := { s with host := { s.host with prqStop := mset false s.host.prqStop p true } }
         let all := s.host.xreqs.filter fun q => decide (q.port = p) && !xlatOut q
         let s := setFld s (HOSTIF_PORT_STATUS p) HOSTIF_PORT_STATUS_PRQ_OUT 0
         let s := all.foldl (fun s q => pageGone p q.page q.write s) s
         (pageWaiters s fun q _ => decide (q = p)).foldl (pageFail 0x0307) s)
/-- ATS_INVALIDATE (R472). -/
def execAtsInvalidate (p page pages : Nat) (s : State) : Res :=
  runIf (wfAtsInvalidate p page pages)
    (answerInvals { s with host := { s.host with
      atc := s.host.atc.filter (fun t => !(decide (t.port = p) && overlaps t.page t.pages page pages))
      invals := s.host.invals ++ [(p, page, pages)] } })

/-! ### Ports -/

/-- PERST_ASSERT (R468). -/
def execPerstAssert (p : Nat) (flr : Bool) (s : State) : Res := runIf (wfPerstAssert p flr) (portReset p flr s)
/-- PERST_DEASSERT (R466, R584). -/
def execPerstDeassert (p : Nat) (s : State) : Res :=
  runIf (wfPerstDeassert p)
    { s with host := { s.host with inReset := mset false s.host.inReset p false } }
/-- PORT_CFG_READY (R466). -/
def execPortCfgReady (p : Nat) (s : State) : Res :=
  runIf (wfPortCfgReady p)
    (if mget false s.host.inReset p || s.mc.held then s else setFld s (HOSTIF_PORT_STATUS p) HOSTIF_PORT_STATUS_CFG_READY 1)
/-- HOST_LINK_UP (R471). -/
def execHostLinkUp (p speed width : Nat) (s : State) : Res :=
  runIf (wfHostLinkUp p speed width)
    (if mget false s.host.inReset p || s.mc.held then s
     else
       let r := HOSTIF_PORT_STATUS p
       setFld (setFld (setFld s r HOSTIF_PORT_STATUS_LINK_UP 1) r HOSTIF_PORT_STATUS_SPEED speed) r HOSTIF_PORT_STATUS_WIDTH width)
/-- HOST_LINK_DOWN (R291, R477). -/
def execHostLinkDown (p : Nat) (s : State) : Res :=
  runIf (wfHostLinkDown p)
    (let r := HOSTIF_PORT_STATUS p
     if !flag s r HOSTIF_PORT_STATUS_LINK_UP then s
     else
       let s := setFld (setFld (setFld s r HOSTIF_PORT_STATUS_LINK_UP 0) r HOSTIF_PORT_STATUS_SPEED 0) r HOSTIF_PORT_STATUS_WIDTH 0
       let s := satFld s (HOSTIF_PORT_CNT p) HOSTIF_PORT_CNT_LINK_DOWNS 1
       hostLost p 4 (pagesLost p s))
/-- MSIX_UNMASK (R474): of one vector, or of the function. -/
def execMsixUnmask (p : Nat) (vec : Option Nat) (s : State) : Res :=
  runIf (wfMsixUnmask p vec) (byPort p (fun s => match vec with
    | some v => msixPending p v { s with host := { s.host with unmasked := mset false s.host.unmasked (p * 2048 + v) true } }
    | none => msixFlush p { s with host := { s.host with funcMask := mset false s.host.funcMask p false } }) s)

/-! ### Ownership -/

/-- A command that is not accepted (R476). -/
def ownerRefused (p : Nat) (s : State) : State := ownerStatus p 0x0805 s
/-- CLAIM (R476). -/
def execClaim (p : Nat) (s : State) : Res :=
  runIf (wfClaim p)
    (byPort p (fun s => if ownerCode s = 0 then setOwner (1 + p) (if standbyCode s = 1 + p then 0 else standbyCode s) 1 (ownerStatus p 0 s)
     else ownerRefused p s) s)
/-- STANDBY (R476). -/
def execStandby (p : Nat) (s : State) : Res :=
  runIf (wfStandby p)
    (byPort p (fun s => if ownerCode s ≠ 1 + p ∧ (standbyCode s = 0 ∨ standbyCode s = 1 + p) then
       setFld (ownerStatus p 0 s) HOSTIF_OWNER HOSTIF_OWNER_STANDBY (1 + p)
     else ownerRefused p s) s)
/-- WITHDRAW (R476). -/
def execWithdraw (p : Nat) (s : State) : Res :=
  runIf (wfWithdraw p)
    (byPort p (fun s => if standbyCode s = 1 + p then setFld (ownerStatus p 0 s) HOSTIF_OWNER HOSTIF_OWNER_STANDBY 0 else ownerRefused p s) s)
/-- RELEASE (R476). -/
def execRelease (p : Nat) (s : State) : Res :=
  runIf (wfRelease p)
    (byPort p (fun s => if ownerCode s = 1 + p then setOwner (standbyCode s) 0 2 (ownerStatus p 0 s) else ownerRefused p s) s)
/-- HANDOVER (R476). -/
def execHandOver (p : Nat) (s : State) : Res :=
  runIf (wfHandOver p)
    (byPort p (fun s => if ownerCode s = 1 + p ∧ standbyCode s = 2 - p then setOwner (2 - p) (1 + p) 3 (ownerStatus p 0 s) else ownerRefused p s) s)
/-- BEAT (R477): from the owner. -/
def execOwnerBeat (p : Nat) (s : State) : Res :=
  runIf (wfOwnerBeat p)
    (byPort p (fun s => if ownerHost s = some p then { s with host := { s.host with beatAt := paceTime s } } else s) s)
/-- HEARTBEAT_LAPSE (R477). -/
def execHeartbeatLapse (s : State) : Res :=
  runIf wfHeartbeatLapse
    (let t := fld s HOSTIF_HB HOSTIF_HB_TIMEOUT_MS
     if t ≠ 0 ∧ ownerCode s ≠ 0 ∧ s.host.beatAt + t * 10000000 ≤ paceTime s then ownerLost 6 s else s)

end Sys2Proof.Machine
end

