-- ==== Sys2Proof/Machine/ImageOps.lean ====
section
/-!
DEFINITION. The staged image: its layout (R436–R440) and the loader's checks, in the order of R445. A check yields what it finds
wrong as (image offset, code, frame address); the failure reported is the one of the lowest offset.
-/
namespace Sys2Proof.Machine
open Sys2Proof

/-! ### Layout (R434, R436–R438) -/

def stageBase (s : State) : Nat := fld s LOAD_STAGE LOAD_STAGE_BASE * 4096
def stageBytes (s : State) : Nat := max 1 (fld s LOAD_STAGE LOAD_STAGE_SIZE) * 2 ^ 30
/-- Bytes `[o, o + n)` of the staged image. -/
def imgRun (s : State) (o n : Nat) : List Byte := dramRead s (stageBase s + o) n
def imgNum (s : State) (o n : Nat) : Nat := leNat (imgRun s o n)
def imgWord (s : State) (o : Nat) : W64 := BitVec.ofNat 64 (imgNum s o 8)
def imgZero (s : State) (o n : Nat) : Bool := (imgRun s o n).all fun b => decide (b = 0)
def imgKind (s : State) : Nat := imgNum s 6 1
def imgLen (s : State) : Nat := imgNum s 8 4
def imgSections (s : State) : Nat := imgNum s 12 2
def imgId (s : State) : W64 := imgWord s 24
/-- Regions and plots that the header names. -/
def imgRegions (s : State) : List Nat := (List.range 16).filter fun r => Nat.testBit (imgNum s 14 2) r
def imgPlots (s : State) : List Nat := (List.range 64).filter fun p => Nat.testBit (imgNum s 40 8) p
/-- The section table: (place of the entry, type, offset, length). -/
def imgTable (s : State) : List (Nat × Nat × Nat × Nat) := (List.range (imgSections s)).map fun i =>
  (256 + 16 * i, imgNum s (256 + 16 * i) 2, imgNum s (260 + 16 * i) 4, imgNum s (264 + 16 * i) 4)
/-- Offset and length of the section of a type; (0, 0) where there is none. -/
def section_ (s : State) (t : Nat) : Nat × Nat :=
  match (imgTable s).find? fun e => decide (e.2.1 = t) with
  | some e => e.2.2
  | none => (0, 0)
/-- Offsets of the records of a section of records of one size. -/
def records (s : State) (t size : Nat) : List Nat :=
  (List.range ((section_ s t).2 / size)).map fun i => (section_ s t).1 + size * i
/-- Offsets of records of varying size, and where one does not fit. -/
def walkRecords (size : Nat → Nat) (e : Nat) : Nat → Nat → List Nat × Option Nat
  | 0, o => ([], if o = e then none else some o)
  | fuel + 1, o =>
    if o = e then ([], none)
    else if size o = 0 ∨ e < o + size o then ([], some o)
    else
      let r := walkRecords size e fuel (o + size o)
      (o :: r.1, r.2)
def bundleCount (s : State) (o : Nat) : Nat := imgNum s (o + 4) 4
/-- The records of PROGRAMS and of DATA. -/
def programs (s : State) : List Nat × Option Nat :=
  let (o, n) := section_ s 8
  walkRecords (fun o => if 1 ≤ bundleCount s o ∧ bundleCount s o ≤ 2048 then 32 + 16 * bundleCount s o else 0) (o + n) (n / 16 + 1) o
def dataRecords (s : State) : List Nat × Option Nat :=
  let (o, n) := section_ s 10
  walkRecords (fun o => 16 + (imgNum s (o + 8) 8 + 7) / 8 * 8) (o + n) (n / 16 + 1) o

/-- Frame addresses (R438). -/
def frameRegion (a : Nat) : Nat := a / 2 ^ 28 % 16
def frameKind (a : Nat) : Nat := a / 2 ^ 24 % 16
def frameIndex (a : Nat) : Nat := a % 2 ^ 24
def frameLimit (k : Nat) : Nat := if k = 0 then 6144 else 64
def frameSize (k : Nat) : Nat := if k = 0 then 96 else if k = 1 then 4104 else 4
/-- A range (first address, count) of a used kind within its index range. -/
def rangeOk (a n : Nat) : Bool := decide (frameKind a ≤ 2) && decide (frameIndex a + n ≤ frameLimit (frameKind a))
/-- The frames of the ranges up to one that is not in order: (frame address, image offset). -/
def framesFrom (s : State) : List Nat → Nat → List (Nat × Nat)
  | [], _ => []
  | q :: qs, o =>
    let (a, n) := (imgNum s q 4, imgNum s (q + 4) 4)
    if rangeOk a n then
      ((List.range n).map fun i => (a + i, o + i * frameSize (frameKind a))) ++ framesFrom s qs (o + n * frameSize (frameKind a))
    else []
/-- The frames that lie in LOAM_FRAMES. -/
def imgFrames (s : State) : List (Nat × Nat) :=
  let (o, n) := section_ s 3
  (framesFrom s (records s 2 8) o).filter fun f => decide (f.2 + frameSize (frameKind f.1) ≤ o + n)
/-- The site of a cell frame. -/
def frameSite (a : Nat) : Nat := frameRegion a * 6144 + frameIndex a

/-! ### Findings -/

/-- Image offset, code, frame address. -/
abbrev Finding := Nat × Nat × Nat
def found (wrong : Bool) (off code frame : Nat) : List Finding := if wrong then [(off, code, frame)] else []
/-- The finding of the lowest offset, the first listed of several. -/
def firstFinding (l : List Finding) : Option Finding :=
  l.foldl (fun (b : Option Finding) f => match b with
    | none => some f
    | some g => if f.1 < g.1 then some f else some g) none

/-! ### Check 1: format -/

def headerFindings (s : State) : List Finding :=
  let n := imgLen s
  found (decide (imgNum s 0 4 ≠ 0x49504D42)) 0 0x070F 0 ++ found (decide (imgNum s 4 2 ≠ 1)) 4 0x070F 0 ++
  found (decide (2 < imgKind s)) 6 0x070F 0 ++
  found (decide (n < 256 + 16 * imgSections s + 128) || decide (stageBytes s < n) || decide (n % 8 ≠ 0)) 8 0x070F 0 ++
  found (decide (imgSections s = 0) || decide (32 < imgSections s)) 12 0x070F 0 ++
  found (!imgZero s 20 4) 20 0x070F 0 ++
  found (decide (imgNum s 32 8 ≠ 0) && decide (imgNum s 32 8 ≠ (rget s GLB_SERIAL).toNat)) 32 0x070F 0 ++
  found (!imgZero s 48 208) 48 0x070F 0
/-- The sections that a kind may have; check 4 names those that a REGION image must not. -/
def sectionAllowed (kind t : Nat) : Bool :=
  decide (1 ≤ t ∧ t ≤ 10) && (decide (kind ≠ 2) || decide (6 ≤ t))
def recordSize (t : Nat) : Nat :=
  match t with
  | 1 => 8
  | 2 => 8
  | 4 => 112
  | 5 => 32
  | 6 => 16
  | 7 => 32
  | 9 => 32
  | _ => 1
def tableFindings (s : State) : List Finding :=
  let tab := imgTable s
  tab.flatMap fun e =>
    let (q, t, o, n) := e
    found (!imgZero s (q + 2) 2 || !imgZero s (q + 12) 4 || !sectionAllowed (imgKind s) t || decide (o % 8 ≠ 0) ||
      decide (o < 256 + 16 * imgSections s) || decide (imgLen s < o + n + 128) ||
      tab.any (fun f => decide (f.1 ≠ q) && (decide (f.2.1 = t) || (decide (0 < n) && decide (0 < f.2.2.2) && overlaps o n f.2.2.1 f.2.2.2))) ||
      decide (n % recordSize t ≠ 0)) q 0x070F 0
/-- Reserved bits of a frame (R438). REGION_LIST of a REGION image is held here to its length alone: check 4 names another region. -/
def frameReserved (s : State) (f : Nat × Nat) : Bool :=
  match frameKind f.1 with
  | 0 => !(decide (imgNum s (f.2 + 48) 1 < 16) && imgZero s (f.2 + 49) 1 && imgZero s (f.2 + 58) 6 && imgZero s (f.2 + 84) 12)
  | 1 => !(decide (imgNum s f.2 1 < 16) && imgZero s (f.2 + 1) 7)
  | _ => !(decide (imgNum s f.2 4 < 8) && decide (imgNum s f.2 4 / 2 ≠ 3))
def recordFindings (s : State) : List Finding :=
  let bad (t size : Nat) (f : Nat → Bool) : List Finding := (records s t size).flatMap fun o => found (f o) o 0x070F 0
  bad 1 8 (fun o => decide (15 < imgNum s o 1) || !imgZero s (o + 1) 7) ++
  (let rs := (records s 1 8).map fun o => imgNum s o 1
   found (if imgKind s = 0 then decide (rs ≠ imgRegions s) else decide (imgKind s = 1) && decide (rs.length ≠ (imgRegions s).length))
    (section_ s 1).1 0x070F 0) ++
  (imgFrames s).flatMap (fun f => found (frameReserved s f) f.2 0x070F f.1) ++
  bad 4 112 (fun o => decide (15 < imgNum s o 1) || !imgZero s (o + 1) 7) ++
  bad 5 32 (fun o => decide (15 < imgNum s o 1) || !imgZero s (o + 1) 7) ++
  bad 6 16 (fun o => decide (nCores ≤ imgNum s o 4) || decide (31 < imgNum s (o + 4) 4)) ++
  bad 7 32 (fun o => decide (63 < imgNum s o 1) || !imgZero s (o + 1) 7 || decide (imgNum s (o + 16) 8 / 2 ^ 32 ≠ 0)) ++
  (match (programs s).2 with | some o => [(o, 0x070F, 0)] | none => []) ++
  (programs s).1.flatMap (fun o => found (decide (nCores ≤ imgNum s o 4)) o 0x070F 0) ++
  bad 9 32 (fun o => decide (65535 < imgNum s o 4) || !imgZero s (o + 4) 4 || !imgZero s (o + 17) 15) ++
  (match (dataRecords s).2 with | some o => [(o, 0x070F, 0)] | none => []) ++
  found (!imgZero s (imgLen s - 32) 32) (imgLen s - 32) 0x070F 0
def check1 (s : State) : Option Finding :=
  match firstFinding (headerFindings s) with
  | some f => some f
  | none => match firstFinding (tableFindings s) with
    | some f => some f
    | none => firstFinding (recordFindings s)

/-! ### Checks 2 to 4: key and signature (R440, R441), state (R446), region -/

/-- The key that KEY_ID names, if it is accepted (R441). -/
def imgKey (s : State) : Option (List Byte) :=
  match ownerKey s, imgNum s 7 1 with
  | none, 1 => some Config.testKey
  | some (k, _), 0 => some k
  | some (_, e), 1 => if e = 0 then some Config.testKey else none
  | _, _ => none
/-- The image's bytes before the trailer, which its signature covers. -/
def signedPart (s : State) : List Byte := imgRun s 0 (imgLen s - 128)
/-- The first poisoned byte of the staged image. -/
def imgPoison (s : State) : Option Nat :=
  ((dramBadWords s (stageBase s) (imgLen s)).head?).map fun w => 8 * w - stageBase s
def check2 (s : State) : Option Finding :=
  match imgKey s with
  | none => some (7, 0x0701, 0)
  | some k =>
    if (imgPoison s).isNone && Config.verify k (Config.sha384 (signedPart s)) (imgRun s (imgLen s - 128) 96) then none
    else some (imgLen s - 128, 0x0701, 0)
/-- R446. -/
def kindAllowed (s : State) : Bool :=
  match imgKind s with
  | 0 => (List.range 16).all (fun r => !regionRunning s r) && (List.range 64).all (fun p => !plotValid s p)
  | 1 => true
  | _ => epochOn s && (imgPlots s).all fun p => bit1 (rget s GLB_EPOCH_PLOTS) p
def check3 (s : State) : Option Finding := if kindAllowed s then none else some (6, 0x0711, 0)
/-- A REGION image addresses its region only. -/
def check4 (s : State) : Option Finding :=
  let rs := imgRegions s
  let r := rs.headD 0
  let other (t size at_ : Nat) : List Finding :=
    (records s t size).flatMap fun o => found (decide (imgNum s (o + at_) 1 ≠ r)) o 0x0702 0
  if imgKind s ≠ 1 then none
  else firstFinding (
    found (decide (rs.length ≠ 1)) 14 0x0702 0 ++
    (imgTable s).flatMap (fun e => found (decide (6 ≤ e.2.1)) e.1 0x0702 0) ++
    other 1 8 0 ++ other 4 112 0 ++
    (records s 2 8).flatMap (fun o => found (decide (frameRegion (imgNum s o 4) ≠ r)) o 0x0702 (imgNum s o 4)) ++
    (records s 5 32).flatMap (fun o => found (decide (imgNum s (o + 8) 8 / 2 % 16 ≠ r) ||
      decide (fld s (FL_CFG (imgNum s o 1)) FL_CFG_REGION ≠ r)) o 0x0702 0))

/-! ### Checks 5 and 6: frames (R403, R408, R425) -/

def check5 (s : State) : Option Finding :=
  let qs := records s 2 8
  let rng (o : Nat) : Nat × Nat := (imgNum s o 4, imgNum s (o + 4) 4)
  firstFinding (
    qs.flatMap (fun o =>
      let (a, n) := rng o
      found (!rangeOk a n || qs.any (fun q => decide (q < o) && decide (0 < n) && decide (0 < (rng q).2) &&
        overlaps a n (rng q).1 (rng q).2) || !(imgRegions s).contains (frameRegion a)) o 0x070F a) ++
    found (decide ((qs.map fun o => (rng o).2 * frameSize (frameKind (rng o).1)).foldl (· + ·) 0 ≠ (section_ s 3).2))
      (section_ s 3).1 0x070F 0)

/-- A cell frame's selects. -/
def frameSelect (s : State) (o j : Nat) : Nat := imgNum s (o + 64) 20 / 2 ^ (5 * j) % 32
/-- R403 for entry `e` of a cell frame at offset `o`. -/
def entryWrong (s : State) (o e : Nat) : Bool :=
  let w := imgNum s (o + 6 * e) 6
  let f (lo n : Nat) : Nat := w / 2 ^ lo % 2 ^ n
  let empty (code : Nat) : Bool := decide (4 ≤ code ∧ code ≤ 6) && decide (frameSelect s o (code - 4) = 0)
  decide (15 < f 0 6) || decide (4 < f 16 3) || decide (f 23 9 ≠ 0) || decide (imgNum s (o + 48) 1 % 16 ≤ f 19 3) ||
  (decide (f 0 6 = 12) && decide (f 22 1 = 1)) || (decide (f 0 6 = 15) && decide (f 9 3 ≠ 0)) ||
  (decide (f 0 6 = 0) && (decide (f 6 6 ≠ 0) || decide (f 14 2 ≠ 0) || decide (f 22 1 ≠ 0))) || empty (f 6 3) || empty (f 9 3)
/-- R408 for select `j` of a site. -/
def selectWrong (site j code : Nat) : Bool :=
  decide (23 ≤ code) || (decide (2 ≤ code ∧ code < 14) && (segStart site code).isNone) ||
  (decide (14 ≤ code) && (siteSource site code).isNone) || (decide (15 + (sinksAt site).length ≤ j) && decide (code ≠ 0))
def cellFindings (s : State) (f : Nat × Nat) : List Finding :=
  let len := imgNum s (f.2 + 48) 1 % 16
  found (decide (len = 0) || decide (8 < len)) (f.2 + 48) 0x0706 f.1 ++
  (List.range (min len 8)).flatMap (fun e => found (entryWrong s f.2 e) (f.2 + 6 * e) 0x0706 f.1) ++
  found ((List.range 32).any fun j => selectWrong (frameSite f.1) j (frameSelect s f.2 j)) (f.2 + 64) 0x0705 f.1
/-- Lanes as the image leaves them: enabled, with region and port (R425). -/
def laneAfter (s : State) (l : Nat) : Option Nat :=
  let w := match (records s 5 32).find? fun o => decide (imgNum s o 1 = l) with
    | some o => imgNum s (o + 8) 8
    | none => (rget s (FL_CFG l)).toNat
  if w % 2 = 1 then some (w / 2 % 64) else none
def check6 (s : State) : Option Finding :=
  firstFinding (
    ((imgFrames s).filter fun f => decide (frameKind f.1 = 0)).flatMap (cellFindings s) ++
    (records s 5 32).flatMap fun o =>
      let l := imgNum s o 1
      found ((laneAfter s l).isSome && (List.range 16).any fun k => decide (k ≠ l) && decide (laneAfter s k = laneAfter s l)) o 0x0705 0)

/-! ### Check 7: routes (R308) and placement (R27) -/

/-- The rectangle that a PLOTS record gives: row, column, height, width. -/
def recRect (s : State) (o : Nat) : Nat × Nat × Nat × Nat :=
  let w := imgNum s (o + 8) 8
  (w % 256, w / 2 ^ 8 % 128, w / 2 ^ 15 % 256, w / 2 ^ 23 % 256)
def rectHas (q : Nat × Nat × Nat × Nat) (n : Nat) : Bool :=
  decide (q.1 ≤ rowOf n) && decide (rowOf n < q.1 + q.2.2.1) && decide (q.2.1 ≤ colOf n) && decide (colOf n < q.2.1 + q.2.2.2)
/-- The plot of the image that holds a core. -/
def imgPlotOf (s : State) (n : Nat) : Option Nat :=
  ((records s 7 32).find? fun o => rectHas (recRect s o) n).map fun o => imgNum s o 1
def routeWord (s : State) (o : Nat) : Nat := imgNum s (o + 8) 8
/-- The image's valid route entry of a core for a stream. -/
def imgRoute (s : State) (u link : Nat) : Option Nat := (records s 6 16).find? fun o =>
  decide (imgNum s o 4 = u) && decide (routeWord s o % 4096 = link) && decide (routeWord s o / 4096 % 2 = 1)
/-- The link through a port of core `u` is one that R305 makes not-ready; the east port of column 127 leads to the gateway. -/
def deadPort (s : State) (u port : Nat) : Bool :=
  if port = 1 ∧ colOf u = 127 then absentCore s u else (neighbour s u port).isNone
/-- The core lies in a plot that the image gives, or in a committed one that it leaves alone. -/
def plotAfter (s : State) (u : Nat) : Bool := (imgPlotOf s u).isSome || (plotOf s u).any fun p => !(imgPlots s).contains p
/-- The word of the valid route entry of a core for a stream, as the load leaves it. -/
def routeAfter (s : State) (u link : Nat) : Option Nat :=
  match imgRoute s u link with
  | some o => some (routeWord s o)
  | none =>
    if (plotOf s u).any (fun p => !(imgPlots s).contains p) then
      (routeOf s u link).map fun i => (rget s (ROUTE_ENTRY u i)).toNat
    else none
/-- Following the inputs of a stream upstream from a core comes back to core `u`. -/
def routeLoops (s : State) (link u : Nat) : Nat → Nat → Bool
  | 0, _ => false
  | fuel + 1, v =>
    match routeAfter s v link with
    | none => false
    | some w =>
      let i := w / 2 ^ 13 % 8
      if i < 4 then
        match neighbour s v i with
        | some x => decide (x = u) || routeLoops s link u fuel x
        | none => false
      else false
/-- R308, and one valid entry for a stream on a core (R306). A far end in a plot that is yet to be committed is none of it: its link
stays fenced until then (R322). -/
def routeWrong (s : State) (o : Nat) : Bool :=
  let (u, w) := (imgNum s o 4, routeWord s o)
  let (link, i, outs) := (w % 4096, w / 2 ^ 13 % 8, (List.range 6).filter fun b => Nat.testBit w (16 + b))
  let far (b : Nat) : Bool :=
    match neighbour s u b with
    | some v => plotAfter s v && (match routeAfter s v link with
      | some q => decide (q / 2 ^ 13 % 8 ≠ facing b)
      | none => true)
    | none => false
  decide (w / 4096 % 2 = 1) &&
    (decide (5 < i) || outs.isEmpty || outs.contains i || (i :: outs).any (fun b => decide (b < 4) && deadPort s u b) ||
      ((i :: outs).contains 5 && !borderCore u) || outs.any (fun b => decide (b < 4) && far b) ||
      routeLoops s link u routeFuel u || decide (imgRoute s u link ≠ some o))
/-- Valid gateway entries of the rows whose column-127 core the image gives: the image has no section for them, so they stand as
written before (R503; DESIGN CHOICE, log 107). -/
def imgGateways (s : State) : List Nat :=
  (listedRegs s 0x44000 8 1024 0).filter fun i => flag s (CYUST_GW i) CYUST_GW_VALID &&
    (imgPlotOf s (fld s (CYUST_GW i) CYUST_GW_ROW * 128 + 127)).isSome
/-- A gateway entry that R503 rejects: no route entry matches it, it is inbound with RLINK, or its LINK_ID has another entry of its
direction. -/
def gatewayWrong (s : State) (i : Nat) : Bool :=
  let r := CYUST_GW i
  let link := fld s r CYUST_GW_LINK_ID
  let inb := flag s r CYUST_GW_DIR
  let fits := (routeAfter s (fld s r CYUST_GW_ROW * 128 + 127) link).any fun w =>
    if inb then decide (w / 2 ^ 13 % 8 = 1) else Nat.testBit w 17
  !fits || (inb && decide (fld s r CYUST_GW_RLINK ≠ 0)) ||
    (listedRegs s 0x44000 8 1024 0).any fun k => decide (k ≠ i) && flag s (CYUST_GW k) CYUST_GW_VALID &&
      decide (flag s (CYUST_GW k) CYUST_GW_DIR = inb) && decide (fld s (CYUST_GW k) CYUST_GW_LINK_ID = link)
/-- Logical cores of a plot record that its program would find absent: positions that are, and cores too narrow for it (R27). -/
def absentOf (s : State) (o : Nat) : List Nat :=
  let need := imgNum s (o + 8) 8 / 2 ^ 33 % 16
  (List.range nCores).filter fun n => rectHas (recRect s o) n &&
    (absentCore s n || decide (unitWidth s n 0 < need) || decide (unitWidth s n 1 < need))
/-- R27: a program that tolerates none has an absent position. -/
def placementWrong (s : State) (o : Nat) : Bool := decide (imgNum s (o + 8) 8 / 2 ^ 37 % 2 = 0) && !(absentOf s o).isEmpty
def check7 (s : State) : Option Finding :=
  firstFinding (
    (records s 6 16).flatMap (fun o => found (routeWrong s o) o 0x0403 0) ++
    (imgGateways s).flatMap (fun i => found (gatewayWrong s i) 0 0x0403 0) ++
    (records s 7 32).flatMap fun o => found (placementWrong s o) o 0x0704 0)

/-! ### Check 8: ranges, and bank supplies (R588) -/

/-- A pin's setting word or SAFE field is outside its range (R420, R437). -/
def pinWrong (s : State) (o i : Nat) : Bool :=
  let w (i : Nat) : Nat := imgNum s (o + 8 + 4 * i) 4
  let par (x : Nat) : Bool := decide (x % 8 = 3) || decide (x % 8 = 4)
  decide (w i / 2 ^ 16 % 4 = 3) || decide (2 ^ 19 ≤ w i) || (par (w i) && decide (i % 8 ≠ 0)) ||
  (decide (i % 8 ≠ 0) && par (w (i / 8 * 8)) && decide (w i % 8 ≠ 0)) || decide (imgNum s (o + 104) 8 / 4 ^ i % 4 = 3)
/-- Some core of one plot rectangle lies in another. -/
def rectsMeet (a b : Nat × Nat × Nat × Nat) : Bool := overlaps a.1 a.2.2.1 b.1 b.2.2.1 && overlaps a.2.1 a.2.2.2 b.2.1 b.2.2.2
def plotRect (s : State) (p : Nat) : Nat × Nat × Nat × Nat :=
  let r := PLOT_CFG p
  (fld s r PLOT_CFG_ROW0, fld s r PLOT_CFG_COL0, fld s r PLOT_CFG_HEIGHT, fld s r PLOT_CFG_WIDTH)
/-- A PLOTS record is outside its range, or meets another plot. -/
def plotWrong (s : State) (o : Nat) : Bool :=
  let (p, w, q) := (imgNum s o 1, imgNum s (o + 8) 8, recRect s o)
  decide (q.2.2.1 = 0) || decide (200 < q.1 + q.2.2.1) || decide (q.2.2.2 = 0) || decide (128 < q.2.1 + q.2.2.2) ||
  !(decide (w / 2 ^ 33 % 16 = 7) || decide (w / 2 ^ 33 % 16 = 8)) || decide (2 ^ 50 ≤ w) || !(imgPlots s).contains p ||
  ((records s 7 32).any fun x => decide (x ≠ o) && (decide (imgNum s x 1 = p) || rectsMeet (recRect s x) q)) ||
  (List.range 64).any fun k => plotValid s k && !(imgPlots s).contains k && rectsMeet (plotRect s k) q
/-- The core lies in a committed plot that the image does not name. -/
def coreTaken (s : State) (n : Nat) : Bool :=
  match plotOf s n with
  | some p => !(imgPlots s).contains p
  | none => false
def dataWrong (s : State) (o : Nat) : Bool :=
  let (a, n) := (imgNum s o 8, imgNum s (o + 8) 8)
  decide (2 ^ 56 ≤ a) || !([0, 1, 2, 4].contains (selOf a)) || (decide (n ≠ 0) && !mapped s a n) ||
  (decide (n ≠ 0) && (match homeCore a, homeCore (a + (n - 1)) with
    | some x, some y => (List.range (y + 1 - x)).any fun i => coreTaken s (x + i)
    | _, _ => false))
def check8 (s : State) : Option Finding :=
  firstFinding (
    found ((imgPlots s).any fun p => !(records s 7 32).any fun o => decide (imgNum s o 1 = p)) 40 0x070F 0 ++
    (records s 4 112).flatMap (fun o =>
      found (decide (mget 3 s.loam.vccio (imgNum s o 1) = 3)) o 0x0716 0 ++
      found ((List.range 24).any (pinWrong s o)) o 0x070F 0) ++
    (records s 5 32).flatMap (fun o => found (decide (imgNum s (o + 8) 8 / 2 ^ 7 % 4 = 3)) o 0x070F 0) ++
    (records s 6 16).flatMap (fun o => found (coreTaken s (imgNum s o 4)) o 0x070F 0) ++
    (records s 7 32).flatMap (fun o => found (plotWrong s o) o 0x070F 0) ++
    (programs s).1.flatMap (fun o => found (decide (2 ^ 17 ≤ imgNum s (o + 8) 8) || coreTaken s (imgNum s o 4) ||
      (List.range 8).any fun c => decide (2047 < imgNum s (o + 16 + 2 * c) 2)) o 0x070F 0) ++
    (dataRecords s).1.flatMap fun o => found (dataWrong s o) o 0x070F 0)

/-- The checks in the order of R445: the first failure. -/
def imageFailure (s : State) : Option Finding :=
  [check1, check2, check3, check4, check5, check6, check7, check8].foldl (fun b c => match b with
    | some f => some f
    | none => c s) none

end Sys2Proof.Machine
end

