-- ==== Sys2Proof/Machine/LoadOps.lean ====
section
/-!
DEFINITION. The loader (chapter 16): its states and commands, what a commit writes, the staged release, UNLOAD.
-/
namespace Sys2Proof.Machine
open Sys2Proof

def setLoad (f : LoadSt → LoadSt) (s : State) : State := { s with load := f s.load }
/-- State codes of R442. -/
def loadState (s : State) : Nat := fld s LOAD_STATUS LOAD_STATUS_STATE
def toLoad (n : Nat) (s : State) : State := setFld s LOAD_STATUS LOAD_STATUS_STATE n
def loadCode (n : Nat) (s : State) : State := setFld s LOAD_STATUS LOAD_STATUS_CODE n
/-- R433; `LOAD_CMD` writes for the side-band requester. -/
def mayLoad (s : State) (m : Master) : Bool := mayAdmin s m || decide (m = .sideBand)
def sec10 : Nat := 10 ^ 10
/-- The loader leaves COMMITTING or RELEASING: an END of an epoch that waits may take effect (R32). -/
def leaveLoad (n : Nat) (s : State) : State := epochSettle (toLoad n s)

/-- A load fails (R445, R449, R451). -/
def loadFail (code off frame : Nat) (s : State) : State :=
  let s := loadCode code (rset s LOAD_FAIL (packW [(off % 2 ^ 32, 0), (frame, 32)]))
  let s := logErr code 0x21 none 0 s
  let k := fld s LOAD_STATUS LOAD_STATUS_KIND
  let r := LOAM_RGN_LOADS (fld s LOAD_STATUS LOAD_STATUS_REGION)
  let s := if k = 1 then if (imgRegions s).isEmpty then s else setFld (satFld s r LOAM_RGN_LOADS_REJECTS 1) r LOAM_RGN_LOADS_LAST_CODE code
    else if k = 0 then setFld s GLB_STATUS GLB_STATUS_CFG_ERR 1 else s
  leaveLoad 7 s

/-! ### Commit (R439, R444, R446, R447, R453) -/

/-- The commit point: a region of a REGION image enters RELOADING and its fence rises. R446 holds here too (DEDUCED, log 57). -/
def enterCommit (s : State) : State :=
  if !kindAllowed s then loadFail 0x0711 6 0 s
  else
    let s := toLoad 4 (setLoad (fun l => { l with written := false, plots := imgNum s 40 8 }) s)
    if imgKind s = 1 then (imgRegions s).foldl (fun s r =>
      dropRegion r (fenceRegion r (setFld s (LOAM_RGN_STATUS r) LOAM_RGN_STATUS_STATE 1))) s
    else s
/-- COMMIT, or the end of the checks of a START (R442, R443). -/
def commitOrWait (s : State) : State :=
  if (rget s LOAD_AT).toNat ≠ 0 ∧ fld s PACE_SLOT PACE_SLOT_SLOT < (rget s LOAD_AT).toNat then
    toLoad 3 (setLoad (fun l => { l with heldFrom := if loadState s = 2 then l.heldFrom else paceTime s }) s)
  else enterCommit s

/-- The loader's own write of a register word that the image supplies, whatever its lock (R447). -/
def loadReg (off : Nat) (v : W64) (s : State) : State := plainWrite off true v (BitVec.allOnes 64) s
/-- The loader writes the staging area that it locks for others (R435). -/
def unlocked (f : State → State) (s : State) : State := toLoad (loadState s) (f (toLoad 0 s))

/-- Cells, boundary outputs and ports of a listed region that no frame covers (R439). -/
def baseRegion (r : Nat) (s : State) : State :=
  setLoam (fun l => { l with
    cells := mkeep (fun i => decide (i / 6144 ≠ r)) l.cells, bcfg := mkeep (fun k => decide (k / 64 ≠ r)) l.bcfg
    ports := mkeep (fun k => decide (k / 64 ≠ r)) l.ports, run := mkeep (fun i => decide (i / 6144 ≠ r)) l.run }) s
/-- One frame is written (R438). -/
def writeFrame (img : State) (f : Nat × Nat) (s : State) : State :=
  let (r, i) := (frameRegion f.1, frameIndex f.1)
  match frameKind f.1 with
  | 0 => setLoam (fun l => { l with cells := mset idleCell l.cells (frameSite f.1) (BitVec.ofNat 768 (imgNum img f.2 96)) }) s
  | 1 =>
    let s := setLoam (fun l => { l with ports := mset 0 l.ports (r * 64 + i) (imgNum img f.2 1 % 16) }) s
    (List.range 2048).foldl (fun s w => setLoamWord (wordKeyL r i w) (imgNum img (f.2 + 8 + 2 * w) 2) s) s
  | _ => setLoam (fun l => { l with bcfg := mset 0 l.bcfg (r * 64 + i) (imgNum img f.2 4 % 8) }) s
/-- A bank's settings wait for the release (R420, R452). -/
def writeBank (img : State) (o : Nat) (s : State) : State :=
  let r := imgNum img o 1
  (List.range 24).foldl (fun s i => setLoam (fun l => { l with
    ioNext := mset 0 l.ioNext (pinKey r i) (imgNum img (o + 8 + 4 * i) 4)
    safeNext := mset 0 l.safeNext (pinKey r i) (imgNum img (o + 104) 8 / 4 ^ i % 4) }) s)
    (setFld s (LOAM_BANK_STATUS r) LOAM_BANK_STATUS_CAL_DONE 0)
/-- A lane's settings (R425, R428). -/
def writeLane (img : State) (o : Nat) (s : State) : State :=
  let l := imgNum img o 1
  let s := loadReg (FL_IDLE l) (imgWord img (o + 16)) (loadReg (FL_CFG l) (imgWord img (o + 8)) s)
  let s := setLoam (fun m => { m with
    given := mset 0 m.given l (imgWord img (o + 24)), laneRx := mset [] m.laneRx l [], laneTx := mset [] m.laneTx l [] })
    (rset s (FL_STATUS l) 0)
  if flag s (FL_CFG l) FL_CFG_EN && !laneRateOk s l then logErr 0x070E (rgnSrc (laneRegion s l)) none l s else s
/-- A plot's registers; it is LOADING, and no longer shaded (R324, R447, R550). A program that tolerates absent positions is
given the list of them (R27). -/
def writePlot (img : State) (o : Nat) (s : State) : State :=
  let p := imgNum img o 1
  let s := if imgNum img (o + 8) 8 / 2 ^ 37 % 2 = 1 then emit (.absentList p (absentOf img o)) s else s
  let s := loadReg (PLOT_CFG p) (imgWord img (o + 8)) s
  let s := rset s (PLOT_SPILL_SIZE p) (imgWord img (o + 16))
  let s := loadReg (PLOT_SPILL_BASE p) (imgWord img (o + 24)) s
  let s := if bit1 (rget s PWR_SHADE_ST) p then unshade [p] s else s
  let clear (reg : Nat) (s : State) : State := rset s reg (rget s reg &&& ~~~(1#64 <<< p))
  clear PWR_SHADE (clear PWR_SHADE_ST (rset s (PLOT_STATUS p) (packW [(1, 0)])))
/-- A core's program (R87, R233). -/
def writeProgram (img : State) (o : Nat) (s : State) : State :=
  let n := imgNum img o 4
  let s := loadReg (CORE_CFG n) (imgWord img (o + 8)) s
  let s := (List.range 8).foldl (fun s c => loadReg (CTX_ENTRY n c) (BitVec.ofNat 64 (imgNum img (o + 16 + 2 * c) 2)) s) s
  (List.range (bundleCount img o)).foldl (fun s i => { s with core := { s.core with
    pstore := mset 0 s.core.pstore (n * 2048 + i) (BitVec.ofNat 128 (imgNum img (o + 32 + 16 * i) 16))
    pstoreBad := mset false s.core.pstoreBad (n * 2048 + i) false } }) s
/-- A synchronisation object; its control word is not written while requesters wait or it is ABANDONED. -/
def writeObject (img : State) (o : Nat) (s : State) : State :=
  let i := imgNum img o 4
  let s := rset s (SYNC_VALUE i) (imgWord img (o + 8))
  let s := if syncCtl s i SYNC_CTRL_WAITERS ≠ 0 ∨ syncAbandoned s i then s else loadReg (SYNC_CTRL i) (imgWord img (o + 16)) s
  wakeMet i s
/-- The loader remembers what a load gave a core's memory, for a core that comes to serve the position later (R29). -/
def recordInit (k : Nat) (bs : List Byte) (s : State) : State :=
  setLoad (fun l => { l with init := (bs.zip (List.range bs.length)).foldl (fun m e => mset 0 m (k + e.2) (e.1.toNat + 1)) l.init }) s
/-- Initial contents of memory. -/
def writeData (img : State) (o : Nat) (s : State) : State :=
  let (a, n) := (imgNum img o 8, imgNum img (o + 8) 8)
  let bs := imgRun img (o + 16) n
  match selOf a with
  | 0 => unlocked (dramWriteAll (offOf a) bs) s
  | 4 => (windowWords (offOf a) n).foldl (fun s k => windowPut (offOf a) bs false s k) s
  | _ =>
    let g := if selOf a = 1 then 2 ^ 19 else 2 ^ 16
    (splitAt (n / g + 2) g a n).foldl (fun s p =>
      let (u, run) := ((homeCore p.1).getD 0, (bs.drop (p.1 - a)).take p.2)
      recordInit (u * 2 ^ 20 + localOf p.1) run (locStore u (homeKey s p.1) run s)) s

/-- What a commit writes: offset and length in the image, region and plot that it belongs to, the write. -/
structure CommitItem where
  off    : Nat
  len    : Nat
  region : Option Nat
  plot   : Option Nat
  write  : State → State

/-- The items of a section. -/
def sectionItems (s : State) (t : Nat) : List CommitItem :=
  match t with
  | 3 => (imgFrames s).map fun f => ⟨f.2, frameSize (frameKind f.1), some (frameRegion f.1), none, writeFrame s f⟩
  | 4 => (records s 4 112).map fun o => ⟨o, 112, some (imgNum s o 1), none, writeBank s o⟩
  | 5 => (records s 5 32).map fun o => ⟨o, 32, some (imgNum s (o + 8) 8 / 2 % 16), none, writeLane s o⟩
  | 6 => (records s 6 16).map fun o => ⟨o, 16, none, imgPlotOf s (imgNum s o 4),
      loadReg (ROUTE_ENTRY (imgNum s o 4) (imgNum s (o + 4) 4)) (imgWord s (o + 8))⟩
  | 7 => (records s 7 32).map fun o => ⟨o, 32, none, some (imgNum s o 1), writePlot s o⟩
  | 8 => (programs s).1.map fun o => ⟨o, 32 + 16 * bundleCount s o, none, imgPlotOf s (imgNum s o 4), writeProgram s o⟩
  | 9 => (records s 9 32).map fun o => ⟨o, 32, none, none, writeObject s o⟩
  | 10 => (dataRecords s).1.map fun o => ⟨o, 16 + imgNum s (o + 8) 8, none,
      (homeCore (imgNum s o 8)).bind (imgPlotOf s), writeData s o⟩
  | _ => []
/-- Sections in image order. -/
def insertSection (e : Nat × Nat × Nat × Nat) : List (Nat × Nat × Nat × Nat) → List (Nat × Nat × Nat × Nat)
  | [] => [e]
  | f :: l => if e.2.2.1 < f.2.2.1 then e :: f :: l else f :: insertSection e l
def commitItems (s : State) : List CommitItem :=
  ((imgTable s).foldl (fun l e => insertSection e l) []).flatMap fun e => sectionItems s e.2.1

/-- The cores of a plot start from nothing: no context, no program, no routes (DESIGN CHOICE, log 58). Contexts stay UNLOADED
until the release (DESIGN CHOICE, log 97). -/
def wipeCores (f : Nat → Bool) (s : State) : State :=
  let page (o : Nat) : Bool := decide (0x1000000 ≤ o) && f ((o - 0x1000000) / 0x1000)
  { s with
    load := { s.load with init := mkeep (fun k => !f (k / 2 ^ 20)) s.load.init }
    csr := mkeep (fun o => !(page o && (decide (o % 0x1000 = 8) || decide (0xB00 ≤ o % 0x1000) ||
      (decide (0x100 ≤ o % 0x1000) && decide (o % 0x1000 < 0x500) && decide (o % 0x80 = 0x40))))) s.csr
    core := { s.core with
      ctxs := mkeep (fun k => !f (k / 8)) s.core.ctxs, last := mkeep (fun k => !f k) s.core.last
      pstore := mkeep (fun k => !f (k / 2048)) s.core.pstore, pstoreBad := mkeep (fun k => !f (k / 2048)) s.core.pstoreBad } }
/-- A plot that is about to be written: what it was is reset (R90, R327), its old cores and its new ones start from nothing. -/
def wipePlot (img : State) (p : Nat) (s : State) : State :=
  let t := if plotValid s p then clearPlot p s else s
  wipeCores (fun n => decide (n < nCores) && (inPlot s p n || decide (imgPlotOf img n = some p))) t

/-- Build rates of committed plots, and the floor they set (R46). -/
def setRates (s : State) : State :=
  let top := ((s.load.rates.filter fun e => plotValid s e.1).map (·.2)).foldl max 0
  setFld { s with pace := { s.pace with buildRate := top } } PACE_FLOOR_TARGET PACE_FLOOR_TARGET_TARGET top

/-- The commit locks the RWL fields of what it supplies (R9; DEDUCED, log 79). -/
def lockRwl (img : State) (ps : List Nat) (s : State) : State :=
  let lanes := if imgKind img = 2 then [] else (records img 5 32).map fun o => 0x34000 + imgNum img o 1 * 0x100
  let keys := (if imgKind img = 0 then [0] else []) ++ lanes ++ ps.map PLOT_CFG
  let rects := ((records img 7 32).filter fun o => ps.contains (imgNum img o 1)).map (recRect img)
  setLoad (fun l => { l with
    rwl := keys.foldl (fun m k => mset false m k true) l.rwl
    rwlCores := l.rwlCores ++ rects.filter fun r => !l.rwlCores.contains r }) s

/-- The writes of the commit, up to a poisoned read (R447). -/
def commitWrites (s : State) : State :=
  let stop := imgPoison s
  let items := (commitItems s).filter fun x => match stop with
    | none => true
    | some q => decide (x.off + x.len ≤ q)
  let rs := if imgKind s = 2 then [] else if imgKind s = 1 || stop.isNone then imgRegions s else (items.filterMap (·.region)).eraseDups
  let ps := if stop.isNone then imgPlots s else (items.filterMap (·.plot)).eraseDups
  let t := ps.foldl (fun t p => setFld (wipePlot s p t) (PLOT_STATUS p) PLOT_STATUS_STATE 1) (rs.foldl (fun t r => baseRegion r t) s)
  let t := items.foldl (fun t x => x.write t) t
  let t := { t with load := { t.load with
    rates := ps.foldl (fun m p => mset 0 m p (imgNum s 18 2)) t.load.rates, written := true
    imageId := imgId s, regions := imgNum s 14 2, plots := imgNum s 40 8 } }
  let t := lockRwl s ps (setRates t)
  match stop with
  | none => t
  | some q => loadFail 0x0714 q 0 (rs.foldl (fun t r => haltRegion r 0x0714 t) t)

/-! ### Release (R452, R454) -/

/-- Banks that the image names. -/
def imgBanks (s : State) : List Nat := (records s 4 112).map fun o => imgNum s o 1
/-- Release interval in units of pace time. -/
def relInterval (s : State) : Nat :=
  let n := imgNum s 16 2
  10000 * max 1 (if n = 0 then fld s LOAD_CFG LOAD_CFG_REL_INTERVAL else n)
/-- Output-mode pins without OE tokens drive their idle level (R452). -/
def driveIdle (r : Nat) (s : State) : State :=
  (List.range 24).foldl (fun s i =>
    if [2, 4, 6].contains (pinMode s r i) && pinDrives s r i then emit (.pinIdle r i (pinWord s r i / 2 ^ 16 % 4) true) s else s) s
/-- Step 1: the new settings reach the pins (R452). -/
def releasePins (s : State) : State :=
  let bs := imgBanks s
  let mine (k : Nat) : Bool := bs.contains (k / 24)
  let drive := if imgKind s = 2 then [] else (imgRegions s ++ bs).eraseDups
  let s := setLoam (fun l => { l with
    io := (l.ioNext.filter fun e => mine e.1).foldl (fun m e => mset 0 m e.1 e.2) (mkeep (fun k => !mine k) l.io)
    safe := (l.safeNext.filter fun e => mine e.1).foldl (fun m e => mset 0 m e.1 e.2) (mkeep (fun k => !mine k) l.safe)
    ioNext := mkeep (fun k => !mine k) l.ioNext, safeNext := mkeep (fun k => !mine k) l.safeNext
    oe := mkeep (fun k => !mine k) l.oe, lastTok := mkeep (fun k => !mine k) l.lastTok
    driven := drive.foldl (fun m r => mset false m r true) l.driven }) s
  bs.foldl (fun s r => driveIdle r s) s
/-- Tokens that waited at a region's edge move: fabric ports, neighbours' boundary outputs, lanes. -/
def regionEdges (s : State) (r : Nat) : List Nat :=
  (List.range (portCount r)).flatMap (fun p => siteKeys (siteAt r p 0)) ++
  (List.range 4).flatMap (fun j => siteKeys (laneSiteOf r j)) ++
  (List.range 64).flatMap fun c =>
    let (q, d) := facingOf r c
    let i := siteAt q (if d < 32 then 0 else 95) (2 * (d % 32))
    feeders s i [15 + (sinksAt i).length - 1]
def releaseRegion (id : W64) (dg : BitVec 384) (r : Nat) (s : State) : State :=
  let s := rset s (LOAM_RGN_STATUS r) (packW [(2, 0)])
  let s := setLoam (fun l => { l with run := mkeep (fun i => decide (i / 6144 ≠ r)) l.run }) s
  let s := rset (bumpFld s (LOAM_RGN_LOADS r) LOAM_RGN_LOADS_COMMITS 1) (LOAM_RGN_IMAGE r) id
  wakePins r (move (regionEdges s r) (measure (16 + r) id dg s))
def releasePlot (id : W64) (dg : BitVec 384) (p : Nat) (s : State) : State :=
  if !plotValid s p then setFld s (PLOT_STATUS p) PLOT_STATUS_STATE 0
  else measure (32 + p) id dg (setFld (freshCtxs p .ready 0 s) (PLOT_STATUS p) PLOT_STATUS_STATE 2)
/-- Step 3: resets are released (R404, R93, R451, R452). -/
def releaseResets (s : State) : State :=
  let (id, dg, k) := (s.load.imageId, Config.sha384 (signedPart s), imgKind s)
  let t := if k = 2 then s else (imgRegions s).foldl (fun t r => releaseRegion id dg r t) s
  let t := (imgPlots s).foldl (fun t p => releasePlot id dg p t) t
  if k = 0 then setLoad (fun l => { l with deadline := none }) (setFld t GLB_STATUS GLB_STATUS_CFG_ERR 0) else t
/-- The load is DONE. -/
def loadDone (s : State) : State :=
  leaveLoad 6 (setLoad (fun l => { l with relStep := 0 }) (rset s LOAD_LAST s.load.imageId))
/-- The steps after the first. The staged release of reloaded plots is step 6 of the epoch, which begins with END (R31; DEDUCED, log 83). -/
def releaseStep (s : State) : State :=
  let next (s : State) : State := setLoad (fun l => { l with relStep := l.relStep + 1, relAt := l.relAt + l.relGap }) s
  match s.load.relStep with
  | 2 => next s
  | 3 =>
    if imgKind s = 2 ∧ epochOn s = true ∧ s.avl.epochEnd = false then s
    else
      let t := releaseResets s
      if imgKind s = 1 then loadDone t else next t
  | 4 =>
    if imgKind s = 0 then
      loadDone (setFld (setFld s GLB_STATUS GLB_STATUS_CFG_DONE 1) LOAD_DEADLINE LOAD_DEADLINE_FULL_DONE 1)
    else loadDone s
  | _ => s

/-! ### UNLOAD (R448, R449) -/

/-- A plot is reset and freed. -/
def freePlot (p : Nat) (s : State) : State :=
  let t := if plotValid s p then clearPlot p s else s
  let t := wipeCores (fun n => inPlot s p n) t
  rset (rset (rset (rset t (PLOT_STATUS p) 0) (PLOT_CFG p) 0) (PLOT_SPILL_SIZE p) 0) (PLOT_SPILL_BASE p) 0
/-- A region is as before load: its tokens and settings gone, its memory blocks zero. -/
def emptyRegion (r : Nat) (s : State) : State :=
  let s := baseRegion r (dropRegion r s)
  let pin (k : Nat) : Bool := decide (k / 24 ≠ r)
  let s := setLoam (fun l => { l with
    words := mkeep (fun k => decide (k / 131072 ≠ r)) l.words, badWords := mkeep (fun k => decide (k / 131072 ≠ r)) l.badWords
    level := mkeep (fun k => decide (k / 64 ≠ r)) l.level, driven := mset false l.driven r false
    io := mkeep pin l.io, safe := mkeep pin l.safe, ioNext := mkeep pin l.ioNext, safeNext := mkeep pin l.safeNext
    oe := mkeep pin l.oe, lastTok := mkeep pin l.lastTok, sample := mkeep pin l.sample }) s
  setFld (rset s (LOAM_RGN_STATUS r) 0) (LOAM_BANK_STATUS r) LOAM_BANK_STATUS_CAL_DONE 0
def offLane (l : Nat) (s : State) : State :=
  setLoam (fun m => { m with given := mset 0 m.given l 0, laneRx := mset [] m.laneRx l [], laneTx := mset [] m.laneTx l [] })
    (rset (rset s (FL_CFG l) (resetWord (FL_CFG l))) (FL_STATUS l) 0)
def unload (s : State) : State :=
  let s := (List.range 64).foldl (fun s p => freePlot p s) s
  let s := (List.range 16).foldl (fun s i => offLane i (emptyRegion i s)) s
  let s := setFld (setFld s GLB_STATUS GLB_STATUS_CFG_DONE 0) GLB_STATUS GLB_STATUS_CFG_ERR 0
  let s := setFld (setFld s LOAD_DEADLINE LOAD_DEADLINE_FULL_DONE 0) LOAD_DEADLINE LOAD_DEADLINE_EXPIRED 0
  let s := (List.range 80).foldl (fun s i => measure (16 + i) 0 0 s) s
  let s := if s.mc.ccSwitch then ccSwitchNow s else s
  toLoad 0 (sparesFreed { s with
    load := { s.load with deadline := some (paceTime s), rates := [], init := [] }
    pace := { s.pace with buildRate := 0 } })

/-! ### Commands (R433, R442, R443, R456) -/

/-- The loader may take a VERIFY, START, FORWARD or UNLOAD. -/
def loadFree (s : State) : Bool := [0, 6, 7].contains (loadState s)
/-- A load begins: its requester, nothing of an earlier one. -/
def beginLoad (src st : Nat) (start : Bool) (s : State) : State :=
  let s := setFld (setFld (loadCode 0 s) LOAD_STATUS LOAD_STATUS_REQUESTER src) LOAD_STATUS LOAD_STATUS_STATE st
  setLoad (fun l => { l with stageLogged := false, written := false, started := start, relStep := 0 }) (rset s LOAD_FAIL 0)
def loadRefused (s : State) : State := loadCode 0x0710 s
def loadVerify (src : Nat) (start : Bool) (s : State) : State :=
  if loadFree s then beginLoad src 1 start s else loadRefused s
def loadCommit (s : State) : State := if loadState s = 2 then commitOrWait s else loadRefused s
/-- ABORT unlocks the staging area; in DONE and FAILED any command leaves the state (R442). -/
def loadAbort (s : State) : State :=
  if [1, 2, 3, 6, 7].contains (loadState s) then toLoad 0 s else loadRefused s
def loadUnload (s : State) : State := if loadFree s then unload s else loadRefused s
/-- The module `m` of this group (R456). -/
def forwardTo (s : State) (m : Nat) : Nat := groupIdx s * 64 + m
/-- FORWARD ends in FAILED (R457). -/
def forwardFail (s : State) : State := toLoad 7 (logErr 0x0712 0x21 none 0 (loadCode 0x0712 s))
def loadForward (src m : Nat) (s : State) : State :=
  if !loadFree s then loadRefused s
  else
    let s := beginLoad src 8 false s
    let s := rset s LOAD_FWD (packW [(m, 32), (1, 38)])
    if (routePort s (forwardTo s m)).isNone then forwardFail s else emit (.forward m (imgRun s 0 (imgLen s))) s
/-- A command written to `LOAD_CTRL`; `src` is recorded as the requester. -/
def loadCommand (src cmd m : Nat) (s : State) : State :=
  match cmd with
  | 1 => loadVerify src false s
  | 2 => loadCommit s
  | 3 => loadVerify src true s
  | 4 => loadAbort s
  | 5 => loadUnload s
  | 6 => loadForward src m (setFld s LOAD_CTRL LOAD_CTRL_FWD_MODULE m)
  | _ => s

/-! ### Deadline (R449, R450) -/

/-- The deadline has passed. -/
def deadlineOver (s : State) : Bool :=
  match s.load.deadline with
  | some t => decide (fld s LOAD_DEADLINE LOAD_DEADLINE_SECONDS ≠ 0) &&
      decide (t + fld s LOAD_DEADLINE LOAD_DEADLINE_SECONDS * sec10 ≤ paceTime s) && !flag s LOAD_DEADLINE LOAD_DEADLINE_EXPIRED &&
      !flag s LOAD_DEADLINE LOAD_DEADLINE_FULL_DONE
  | none => false
def expireDeadline (s : State) : State :=
  if deadlineOver s then
    logErr 0x0703 0x21 none 0 (setFld (setFld s LOAD_DEADLINE LOAD_DEADLINE_EXPIRED 1) GLB_STATUS GLB_STATUS_CFG_ERR 1)
  else s

end Sys2Proof.Machine
end

