-- ==== Sys2Proof/Machine/LoadRows.lean ====
section
/-!
DEFINITION. The rows of the loader (chapter 16).
-/
namespace Sys2Proof.Machine
open Sys2Proof

/-- A command of a master that may not give it is ignored (R433). -/
def loadBy (m : Master) (f : State → State) (s : State) : State := if mayLoad s m then f s else s
/-- LOAD_VERIFY (R442). -/
def execLoadVerify (m : Master) (s : State) : Res := runIf (wfLoadVerify m) (byMaster m LOAD_CTRL (fun s => loadBy m (loadVerify (srcOfMaster m) false) s) s)
/-- LOAD_COMMIT (R443). -/
def execLoadCommit (m : Master) (s : State) : Res := runIf (wfLoadCommit m) (byMaster m LOAD_CTRL (fun s => loadBy m loadCommit s) s)
/-- LOAD_START (R442). -/
def execLoadStart (m : Master) (s : State) : Res := runIf (wfLoadStart m) (byMaster m LOAD_CTRL (fun s => loadBy m (loadVerify (srcOfMaster m) true) s) s)
/-- LOAD_ABORT (R443). -/
def execLoadAbort (m : Master) (s : State) : Res := runIf (wfLoadAbort m) (byMaster m LOAD_CTRL (fun s => loadBy m loadAbort s) s)
/-- LOAD_UNLOAD (R448). -/
def execLoadUnload (m : Master) (s : State) : Res := runIf (wfLoadUnload m) (byMaster m LOAD_CTRL (fun s => loadBy m loadUnload s) s)
/-- LOAD_FORWARD (R456). -/
def execLoadForward (m : Master) (k : Nat) (s : State) : Res :=
  runIf (wfLoadForward m k) (byMaster m LOAD_CTRL (fun s => loadBy m (loadCommand (srcOfMaster m) 6 k) s) s)
/-- VERIFY_COMPLETE (R445): KIND and REGION of the image show from here on. -/
def execVerifyComplete (s : State) : Res :=
  runIf wfVerifyComplete
    (if loadState s ≠ 1 then s
     else
       let s := setFld (setFld s LOAD_STATUS LOAD_STATUS_KIND (imgKind s)) LOAD_STATUS LOAD_STATUS_REGION
         (if imgKind s = 1 then (imgRegions s).headD 0 else 0)
       match imageFailure s with
       | some (off, code, frame) => loadFail code off frame s
       | none =>
         if s.load.started then commitOrWait s
         else toLoad 2 (setLoad (fun l => { l with heldFrom := paceTime s }) s))
/-- LOAD_HOLD_EXPIRED (R442). -/
def execLoadHoldExpired (s : State) : Res :=
  runIf wfLoadHoldExpired
    (if loadState s = 2 ∨ loadState s = 3 then
      loadFail 0x0715 0 0 (advanceTo (s.load.heldFrom + max 1 (fld s LOAD_CFG LOAD_CFG_HOLD_S) * sec10) s)
     else s)
/-- COMMIT_AT_SLOT (R442). -/
def execCommitAtSlot (s : State) : Res :=
  runIf wfCommitAtSlot
    (if loadState s = 3 ∧ (rget s LOAD_AT).toNat ≤ fld s PACE_SLOT PACE_SLOT_SLOT then enterCommit s else s)
/-- COMMIT_POINT (R444, R447): the writes. Those of a PLOTS image are step 5 of the epoch (R446); an END that has come by then
waits for them in step 6 (R32). -/
def execCommitPoint (s : State) : Res :=
  runIf wfCommitPoint
    (if loadState s = 4 ∧ s.load.written = false ∧ (imgKind s = 2 → 5 ≤ epochStep s) then commitWrites s else s)
/-- RELEASE_START (R423, R452): the named banks are calibrated; step 1. -/
def execReleaseStart (s : State) : Res :=
  runIf wfReleaseStart
    (if loadState s = 4 && s.load.written && (imgBanks s).all (fun b => decide (mget 3 s.loam.vccio b ≠ 3)) then
      let gap := relInterval s
      let s := (imgBanks s).foldl (fun s b => setFld s (LOAM_BANK_STATUS b) LOAM_BANK_STATUS_CAL_DONE 1) s
      let s := setLoad (fun l => { l with relStep := 2, relAt := paceTime s + gap, relGap := gap }) (releasePins s)
      toLoad 5 s
     else s)
/-- RELEASE_STEP (R452, R454). -/
def execReleaseStep (s : State) : Res :=
  runIf wfReleaseStep (if loadState s = 5 then releaseStep (advanceTo s.load.relAt s) else s)
/-- LOAD_DEADLINE (R449): the instant at which the seconds are over. -/
def execLoadDeadline (s : State) : Res :=
  runIf wfLoadDeadline
    (match s.load.deadline with
     | some t =>
       if fld s LOAD_DEADLINE LOAD_DEADLINE_SECONDS = 0 ∨ flag s LOAD_DEADLINE LOAD_DEADLINE_EXPIRED ∨
          flag s LOAD_DEADLINE LOAD_DEADLINE_FULL_DONE then s
       else expireDeadline (advanceTo (t + fld s LOAD_DEADLINE LOAD_DEADLINE_SECONDS * sec10) s)
     | none => s)
/-- LOAD_DEADLINE_WRITE (R450). -/
def execLoadDeadlineWrite (m : Master) (v : Nat) (s : State) : Res :=
  runIf (wfLoadDeadlineWrite m v)
    (byMaster m LOAD_DEADLINE (fun s => if mayAdmin s m then expireDeadline (setFld s LOAD_DEADLINE LOAD_DEADLINE_SECONDS v) else s) s)
/-- FORWARD_RESULT (R456, R457): the target's state and code; a busy target answers 0x0710. -/
def execForwardResult (st code : Nat) (s : State) : Res :=
  runIf (wfForwardResult st code)
    (if loadState s ≠ 8 then s
     else
       let s := setFld (setFld s LOAD_FWD LOAD_FWD_STATE st) LOAD_FWD LOAD_FWD_CODE code
       if st = 7 ∨ code = 0x0710 then toLoad 7 (loadCode code s)
       else if st = 6 then toLoad 6 s
       else s)
/-- LOAD_FORWARD_FAIL (R457). -/
def execLoadForwardFail (s : State) : Res :=
  runIf wfLoadForwardFail
    (if loadState s = 8 then forwardFail s else s)
/-- LOAD_WINDOW_WRITE (R434, R435): bytes at window offset `x` from BAR2 offset 0x200_0000 on; before LPDDR5X is ready it goes as
a BAR4 write does (R393; DEDUCED, log 59). -/
def execLoadWindowWrite (p x : Nat) (data : List Byte) (s : State) : Res :=
  runIf (wfLoadWindowWrite p x data)
    (byPort p (fun s =>
     let o := fld s LOAD_WIN LOAD_WIN_OFFSET * 2 ^ 25 + x
     if !flag s LMC_STATUS LMC_STATUS_INIT_DONE then logErr 0x060C (lmcSrc (lpDevCh (stageBase s + o))) none 0 s
     else if stageBytes s < o + data.length then logErr 0x0713 0x21 none 0 s
     else dramWriteAll (stageBase s + o) data s) s)

end Sys2Proof.Machine
end

