-- ==== Sys2Proof/Machine/LogRows.lean ====
section
/-!
DEFINITION. The ERRLOG block (R573–R576, R597): entries reach it in order, go to the ring, are held on die or dropped, and are
reported.
-/
namespace Sys2Proof.Machine
open Sys2Proof

def setLog (f : LogSt → LogSt) (s : State) : State := { s with log := f s.log }
def classCode : ErrClass → Nat
  | .notice => 0
  | .corrected => 1
  | .deferred => 2
  | .contained => 3
  | .fatal => 4
/-- The words of an entry (R574). -/
def entryWords (e : LogEntry) : List W64 :=
  [packW [(e.time % 2 ^ 48, 0), (e.code, 48)],
   packW [(e.src, 0), (classCode e.cls, 16), (e.plot.getD 0, 19), (b2n e.plot.isSome, 25)], e.info,
   BitVec.ofNat 64 (e.slot % 2 ^ 48)]
def entryBytes (e : LogEntry) : List Byte := (entryWords e).flatMap fun w => leBytes 8 w.toNat

def errLen (s : State) : Nat := ringLen (fld s ERR_RING ERR_RING_SIZE)
def errHead (s : State) : Nat := fld s ERR_PTR ERR_PTR_HEAD
/-- HEAD + 1 equals TAIL modulo the ring's size. -/
def errFull (s : State) : Bool := decide ((errHead s + 1) % errLen s = fld s ERR_PTR ERR_PTR_TAIL % errLen s)
def errOn (s : State) : Bool := flag s ERR_RING ERR_RING_EN
/-- An entry goes to the ring. -/
def errPut (e : LogEntry) (s : State) : State :=
  setFld (dramWriteAll (fld s ERR_RING ERR_RING_BASE * 4096 + 32 * errHead s) (entryBytes e) s) ERR_PTR ERR_PTR_HEAD
    ((errHead s + 1) % errLen s)
/-- Entries held on die go to the ring while it has room. -/
def errDrain : List LogEntry → State → State
  | [], s => s
  | e :: es, s => if errOn s && !errFull s then errDrain es (errPut e (setLog (fun l => { l with held := es }) s)) else s
/-- Space may have returned: held entries first, then the entry that tells of dropped ones (R574). -/
def errSpace (s : State) : State :=
  let s := errDrain s.log.held s
  let room := s.log.held.isEmpty && errOn s && !errFull s
  if s.log.dropOwed && room then logErr 0x0C09 0x22 none 0 (setLog (fun l => { l with dropOwed := false }) s) else s
/-- An entry takes its place: the ring, the buffer of 256 on die, or none. -/
def errPlace (e : LogEntry) (s : State) : State :=
  if errOn s && s.log.held.isEmpty && !errFull s then errPut e s
  else if (errOn s && s.log.held.isEmpty) || decide (256 ≤ s.log.held.length) then
    setLog (fun l => { l with dropOwed := true }) (satFld s ERR_DROP ERR_DROP_DROPPED 1)
  else setLog (fun l => { l with held := l.held ++ [e] }) s
/-- An internal error in AER of port `p`: its status bit sets, and it is reported unless the host masks it (R576). -/
def aerReport (p : Nat) (unc : Bool) (s : State) : State :=
  let k := 2 * p + b2n unc
  let s := { s with host := { s.host with aerSet := mset false s.host.aerSet k true } }
  if mget true s.host.aerMask k then s else emit (.aer p unc) s
/-- AER, MSI-X and the counters (R474, R554, R576). -/
def errReport (e : LogEntry) (s : State) : State :=
  let s := if e.cls = .notice then s else bumpCtr (31 + classCode e.cls) 1 s
  let s := match e.cls, ownerHost s with
    | .corrected, some p => aerReport p false s
    | _, _ => s
  let s := if e.cls = .fatal then
    ([0, 1].filter (fun p => flag s (HOSTIF_PORT_STATUS p) HOSTIF_PORT_STATUS_LINK_UP)).foldl (fun s p => aerReport p true s) s
    else s
  [0, 1].foldl (fun s p => if flag s (HOSTIF_PORT_VEC p) HOSTIF_PORT_VEC_ERR_EN then
    msixTrigger p (fld s (HOSTIF_PORT_VEC p) HOSTIF_PORT_VEC_ERR_VEC) s else s) s
/-- A device-fatal entry is kept in the always-on domain, and the compute side goes to compute off (R575). -/
def errFatal (e : LogEntry) (s : State) : State :=
  let k := s.log.fatalIdx
  let s := (entryWords e).zipIdx.foldl (fun s x => rset s (ERR_FATAL + 32 * k + 8 * x.2) x.1) s
  computeOff (setMc (fun m => { m with fatalNew := true }) (setLog (fun l => { l with fatalIdx := (k + 1) % 16 }) s))
/-- ERRLOG_ENTRY (R574–R576): the entry that has waited longest reaches the block. -/
def execErrlogEntry (s : State) : Res :=
  runIf wfErrlogEntry
    (match s.log.inFlight with
     | [] => s
     | e :: es =>
       let s := errReport e (errPlace e (setLog (fun l => { l with inFlight := es }) s))
       if e.cls = .fatal then errFatal e s else s)
/-- A ring register other than the PACE block's takes a word, and its pointers go to 0; or it does not, and 0x0C0A is logged. -/
def ringWrite (reg ptr entry src : Nat) (v : W64) (s : State) : State :=
  if ringFits v (ringLen (bitsOf v 56 4) * entry) then rset (rset s reg (ringWord v)) ptr 0 else logErr 0x0C0A src none 0 s
/-- ERR_RING_WRITE (R574, R597). -/
def execErrRingWrite (m : Master) (v : W64) (s : State) : Res :=
  runIf (wfErrRingWrite m v) (byMaster m ERR_RING (fun s => if mayAdmin s m then errSpace (ringWrite ERR_RING ERR_PTR 32 0x22 v s) else s) s)

end Sys2Proof.Machine
end

