-- ==== Sys2Proof/Machine/MsgRows.lean ====
section
/-!
DEFINITION. The rows of the SYNC, LOCK, MBX and QUEUE blocks (chapter 13), and the doorbells and event packets they send
(R337).
-/
namespace Sys2Proof.Machine
open Sys2Proof

/-! ### Synchronisation objects -/

/-- ADD or SET of a request in flight: local, and only after the earlier stores of its context (R343). -/
def serveAddSet (tag ref : Nat) (op : Nat → State → Nat × State) (r : Req) (s : State) : State :=
  if refLocal s ref && storesDone s r then
    let a := op (refObj ref) s
    answerOp tag (.status (BitVec.ofNat 64 a.1)) a.2
  else s
/-- SYNC_OBJECT_ADD (R355, R356, R361, R378). -/
def execSyncObjectAdd (src : OpFrom) (s : State) : Res :=
  runIf (wfSyncObjectAdd src) (match src with
    | .req tag => (match msgReq s tag with
      | some r => (match r.op with
        | .syncAdd ref v => serveAddSet tag ref (fun i => syncAdd i v.toNat (askerOf s r.u)) r s
        | _ => s)
      | none => s)
    | .bar2 p off d => barWrite p off 0 d (fun i v => syncAdd i v .owner) s
    | .remote mod rtag i v => remoteStatus mod rtag (syncAdd i v.toNat .remote s))
/-- SYNC_OBJECT_SET (R355). -/
def execSyncObjectSet (src : OpFrom) (s : State) : Res :=
  runIf (wfSyncObjectSet src) (match src with
    | .req tag => (match msgReq s tag with
      | some r => (match r.op with
        | .syncSet ref v => serveAddSet tag ref (fun i => syncSet i v.toNat (askerOf s r.u)) r s
        | _ => s)
      | none => s)
    | .bar2 p off d => barWrite p off 8 d (fun i v => syncSet i v .owner) s
    | .remote mod rtag i v => remoteStatus mod rtag (syncSet i v.toNat .remote s))
/-- SYNC_OBJECT_WAIT (R358, R359, R361). -/
def execSyncObjectWait (src : OpFrom) (s : State) : Res :=
  runIf (wfSyncObjectWait src) (match src with
    | .req tag => (match msgReq s tag with
      | some r => (match r.op with
        | .syncWait ref v =>
          if refLocal s ref && !waitServed s tag && !s.sync.retry.any (fun e => decide (e.1 = tag)) then serveWait tag ref v s else s
        | _ => s)
      | none => s)
    | .bar2 _ _ _ => s
    | .remote mod rtag i v =>
      let r := waitOn { obj := i, thr := v, tag := none, remote := mod, rtag := rtag } s
      if r.1 then r.2 else emit (.remoteFull mod rtag) r.2)
/-- SYNC_OBJECT_TEST (R355, R357). -/
def execSyncObjectTest (src : OpFrom) (s : State) : Res :=
  runIf (wfSyncObjectTest src) (match src with
    | .req tag => (match msgReq s tag with
      | some r => (match r.op with
        | .syncTest ref v => if refLocal s ref then answerOp tag (.test (syncTest (refObj ref) v.toNat s)) s else s
        | _ => s)
      | none => s)
    | .bar2 _ _ _ => s
    | .remote mod rtag i v => emit (.remoteAnswer mod rtag (boolWord (syncTest i v.toNat s))) s)
/-- SYNC_WAKE (R358, R360). -/
def execSyncWake (tag : Nat) (s : State) : Res :=
  runIf (wfSyncWake tag) (match s.sync.wakes.find? fun e => decide (e.1 = tag) with
    | none => s
    | some e => if inMesh s (.wake tag e.2) || (findReq s tag).any (fun r => unitGated s r.u) then s
      else
        let s := { s with sync := { s.sync with wakes := s.sync.wakes.filter fun e => decide (e.1 ≠ tag) } }
        match findReq s tag with
        | some r => wakeCtx r e.2 s
        | none => s)
/-- SYNC_WAIT_RETRY (R359): 1 µs after the last attempt; one for another module may set out again. -/
def execSyncWaitRetry (tag : Nat) (s : State) : Res :=
  runIf (wfSyncWaitRetry tag) (match s.sync.retry.find? fun e => decide (e.1 = tag) with
    | none => s
    | some e =>
      if paceTime s < e.2 + 10000 then s
      else match findReq s tag with
        | some r => (match r.op with
          | .syncWait ref v => if refLocal s ref then serveWait tag ref v s else noRetry tag s
          | _ => s)
        | none => noRetry tag s)
/-- SYNC_VALUE_WRITE (the register's own rule): from a supervisor or the MC, while nothing waits. -/
def execSyncValueWrite (m : Master) (i : Nat) (v : W64) (s : State) : Res :=
  runIf (wfSyncValueWrite m i v)
    (byMaster m (SYNC_VALUE i) (fun s => 
     if (isSupervisor m || decide (m = .mc) || decide (m = .sideBand) || decide (m = .loader)) &&
        decide (syncCtl s i SYNC_CTRL_WAITERS = 0) then rset s (SYNC_VALUE i) v else s) s)
/-- SYNC_CTRL_WRITE (R356). -/
def execSyncCtrlWrite (m : Master) (i plot : Nat) (owned open_ : Bool) (s : State) : Res :=
  runIf (wfSyncCtrlWrite m i plot owned open_)
    (byMaster m (SYNC_CTRL i) (fun s => 
     if (mayMsg s m || decide (m = .loader)) && decide (syncCtl s i SYNC_CTRL_WAITERS = 0) && !syncAbandoned s i then
      setFld (setFld (setFld s (SYNC_CTRL i) SYNC_CTRL_PLOT plot) (SYNC_CTRL i) SYNC_CTRL_OWNED (b2n owned))
        (SYNC_CTRL i) SYNC_CTRL_OPEN (b2n open_)
     else s) s)

/-! ### Locks -/

/-- LOCK_READ (R362–R364): a standby host's read is not carried out and returns 0xFFFF. -/
def execLockRead (src : LockFrom) (s : State) : Res :=
  runIf (wfLockRead src) (match src with
    | .req tag => (match msgReq s tag with
      | some r => (match r.op with
        | .lockAcq i => let a := lockRead i (srcOf r.u) s; answerOp tag (.status a.1) a.2
        | _ => s)
      | none => s)
    | .csr m i => byMaster m (LOCK i) (fun s =>
      if sideReads s m then let a := lockRead i (srcOfMaster m) s; emit (.csrData m a.1) a.2
      else emit (.csrData m 0xFFFF) s) s true)
/-- LOCK_RELEASE_WRITE (R365). -/
def execLockReleaseWrite (src : LockFrom) (s : State) : Res :=
  runIf (wfLockReleaseWrite src) (match src with
    | .req tag => (match msgReq s tag with
      | some r => (match r.op with
        | .lockRel i => if storesDone s r then answerOp tag (.status 0) (lockRelease i (srcOf r.u) s) else s
        | _ => s)
      | none => s)
    | .csr m i => byMaster m (LOCK i) (fun s => if mayMsg s m then lockRelease i (srcOfMaster m) s else s) s)
/-- LOCK_FORCE (R365). -/
def execLockForce (m : Master) (i : Nat) (s : State) : Res :=
  runIf (wfLockForce m i) (byMaster m (LOCK i) (fun s => if mayMsg s m then rset s (LOCK i) 0 else s) s)

/-! ### Mailboxes -/

/-- MBX_SEND_DELIVER (R343, R367, R368): a poisoned body is not sent, and its context takes the fault (log 27). -/
def execMbxSendDeliver (tag : Nat) (s : State) : Res :=
  runIf (wfMbxSendDeliver tag) (match msgReq s tag with
    | some r => (match r.op with
      | .mbxSend j bit _ =>
        if storesDone s r then
          let g := gather r.parts.dropLast
          match g.2.2, g.2.1 with
          | some (_, a), _ => answerOp tag (.bytes [] [a]) s
          | none, a :: _ => answerOp tag (.bytes [] [a]) s
          | none, [] => let a := mbxSend j (srcOf r.u) bit g.1 s; answerOp tag (.status (BitVec.ofNat 64 a.1)) a.2
        else s
      | _ => s)
    | none => s)
/-- MBX_WITHDRAW (R367, R368). -/
def execMbxWithdraw (tag : Nat) (s : State) : Res :=
  runIf (wfMbxWithdraw tag) (match msgReq s tag with
    | some r => (match r.op with
      | .mbxWdraw j => let a := mbxWdraw j (srcOf r.u) s; answerOp tag (.status (BitVec.ofNat 64 a.1)) a.2
      | _ => s)
    | none => s)
/-- MBX_RESERVE (R369): a read of `MBX_PORT` that is no claim. -/
def execMbxReserve (m : Master) (j : Nat) (s : State) : Res :=
  runIf (wfMbxReserve m j) (byMaster m (MBX_PORT j) (fun s => if isReceiver s j m then s else mbxAnswer m j (mbxReserve m j s)) s true)
/-- MBX_CLAIM (R370). -/
def execMbxClaim (m : Master) (j : Nat) (s : State) : Res :=
  runIf (wfMbxClaim m j) (byMaster m (MBX_PORT j) (fun s => if isReceiver s j m then mbxAnswer m j (mbxClaim j s) else s) s true)
/-- The code that a refused SEND write leaves in LAST: after its reservation has lapsed, another (R367; log 28). -/
def sendRefused (s : State) (j src : Nat) : Nat := if s.sync.lapsed.contains (j, src) then 0x050A else 0x0502
/-- MBX_PORT_SEND (R367). -/
def execMbxPortSend (m : Master) (j db len : Nat) (s : State) : Res :=
  runIf (wfMbxPortSend m j db len)
    (byMaster m (MBX_PORT j) (fun s => 
     if !mayMsg s m then s
     else if mbxState s j = 1 ∧ mbxSrc s j = srcOfMaster m then
       if 480 < len then mbxLast j 0x0502 s else mbxLast j 0 (mbxPending j (srcOfMaster m) len db s)
     else mbxLast j (sendRefused s j (srcOfMaster m)) s) s)
/-- MBX_PORT_FREE (R367). -/
def execMbxPortFree (m : Master) (j : Nat) (s : State) : Res :=
  runIf (wfMbxPortFree m j)
    (byMaster m (MBX_PORT j) (fun s => 
     if isReceiver s j m && decide (mbxState s j = 3) then mbxLast j 0 (setMbx j 0 s)
     else if mayMsg s m then mbxLast j 0x0503 s else s) s)
/-- MBX_PORT_WDRAW (R367). -/
def execMbxPortWdraw (m : Master) (j : Nat) (s : State) : Res :=
  runIf (wfMbxPortWdraw m j)
    (byMaster m (MBX_PORT j) (fun s => if mayMsg s m then let a := mbxWdraw j (srcOfMaster m) s; mbxLast j a.1 a.2 else s) s)
/-- MBX_PORT_CANCEL (R367). -/
def execMbxPortCancel (m : Master) (j : Nat) (s : State) : Res :=
  runIf (wfMbxPortCancel m j)
    (byMaster m (MBX_PORT j) (fun s => 
     if !mayMsg s m then s
     else if mbxState s j = 1 ∧ mbxSrc s j = srcOfMaster m then mbxLast j 0 (setMbx j 0 s)
     else mbxLast j 0x0502 s) s)
/-- MBX_RESERVE_LAPSE (R367): 1 ms of pace time after the reserve. -/
def execMbxReserveLapse (j : Nat) (s : State) : Res :=
  runIf (wfMbxReserveLapse j)
    (if mbxState s j = 1 ∧ mget 0 s.sync.reservedAt j + 10000000 ≤ paceTime s then
      setMbx j 0 { s with sync := { s.sync with lapsed := s.sync.lapsed ++ [(j, mbxSrc s j)] } }
     else s)
/-- MBX_DB_WRITE (R372): PEND bits written 1 clear; a mask bit that clears over a pending bit rings. -/
def execMbxDbWrite (m : Master) (j clear mask : Nat) (s : State) : Res :=
  runIf (wfMbxDbWrite m j clear mask)
    (byMaster m (MBX_DB j) (fun s => 
     if isReceiver s j m then
      let old := fld s (MBX_DB j) MBX_DB_MASK
      let pend := (List.range 32).foldl (fun v b =>
        if Nat.testBit (fld s (MBX_DB j) MBX_DB_PEND) b && !Nat.testBit clear b then v + 2 ^ b else v) 0
      let s := setFld (setFld s (MBX_DB j) MBX_DB_PEND pend) (MBX_DB j) MBX_DB_MASK mask
      (List.range 32).foldl (fun s b =>
        if Nat.testBit old b && !Nat.testBit mask b && Nat.testBit pend b then mbxDoorbell j b s else s) s
     else s) s)

/-! ### Queues -/

/-- QUEUE_SUBMIT (R374, R378). -/
def execQueueSubmit (src : SubmitFrom) (s : State) : Res :=
  runIf (wfQueueSubmit src) (match src with
    | .req tag => (match msgReq s tag with
      | some r => (match r.op with
        | .qSubmit q d =>
          if storesDone s r && !s.sync.qpend.any (fun e => decide (e.tag = some tag)) then
            submit q (unitMay s q r.u Q_CFG_CORE_SUBMIT) d (some tag) s
          else s
        | _ => s)
      | none => s)
    | .bar2 p off d =>
      let q := (off - 0x100000) / 64
      byPort p (fun s =>
        if ownerHost s = some p ∧ off % 64 = 0 ∧ d.length = 64 then submit q true (BitVec.ofNat 512 (leNat d)) none s
        else logErr 0x0508 0x24 none q s) s)
/-- QUEUE_ENTRY_VISIBLE (R374). -/
def execQueueEntryVisible (q : Nat) (s : State) : Res :=
  runIf (wfQueueEntryVisible q) (match s.sync.qpend.find? fun e => decide (e.q = q) with
    | some e => entryVisible e s
    | none => s)
/-- QUEUE_TAKE (R374, R375). -/
def execQueueTake (tag : Nat) (host : W512) (s : State) : Res :=
  runIf (wfQueueTake tag host) (match msgReq s tag with
    | some r => (match r.op with
      | .qTake q => take tag q r.u host s
      | _ => s)
    | none => s)
/-- Q_HEAD_WRITE (R375): the owning host or a supervisor. -/
def execQHeadWrite (m : Master) (q head : Nat) (s : State) : Res :=
  runIf (wfQHeadWrite m q head) (byMaster m (Q_PTR q) (fun s => if isSupervisor m || isOwner s m then qHeadWrite q head s else s) s)
/-- Q_CFG_WRITE (R373, R377). -/
def execQCfgWrite (m : Master) (q v : Nat) (s : State) : Res :=
  runIf (wfQCfgWrite m q v) (byMaster m (Q_CFG q) (fun s => if mayMsg s m || decide (m = .loader) then qCfgWrite q v s else s) s)

end Sys2Proof.Machine
end

