-- ==== Sys2Proof/Machine/CsrOps.lean ====
section
/-!
DEFINITION. CSR space as a master reaches it (R9–R12, R38, R354): what every register word reads as, and what a write to it
does. A word whose write has a row of its own acts as that row does.
-/
namespace Sys2Proof.Machine
open Sys2Proof

/-- The state a meaning leaves. -/
def via (r : Res) (s : State) : State :=
  match r with
  | .next t => t
  | _ => s

/-! ### Who may write, who may read (R32, R81, R354, R467, R475) -/

/-- Registers of a host port: its own host, a supervisor or the MC. -/
def mayPort (p : Nat) : Master → Bool
  | .host q => decide (q = p)
  | .mc => true
  | m => isSupervisor m
/-- Who writes the page of a core at page offset `o`: bank owners as R242 gives. "A supervisor or a host" is either host, owner or not (R224, R236, R301 and
SIEVE_CFG; DEDUCED, log 102); where only these write, the MC does not. -/
def mayPage (s : State) (m : Master) (o : Nat) : Bool :=
  let host := match m with
    | .host _ => true
    | _ => false
  if (0x580 ≤ o ∧ o < 0x600) ∨ (0x900 ≤ o ∧ o < 0xB00) then isSupervisor m || host
  else if 0x600 ≤ o ∧ o < 0x900 then mayAdmin s m || host
  else if 0x500 ≤ o ∧ o < 0x580 then isSupervisor m || isOwner s m
  else mayAdmin s m
/-- The master may write the block that holds the register word at `k`. -/
def mayWrite (s : State) (m : Master) (k : Nat) : Bool :=
  if k < 0x1000 then mayEpoch s m
  else if 0x8000 ≤ k ∧ k < 0xA000 then
    (if k < 0x8100 then isOwner s m else mayPort ((k - 0x8100) / 0x100) m)
  else if (0xA000 ≤ k ∧ k < 0x18000) ∨ (0x100000 ≤ k ∧ k < 0x600000) then mayMsg s m
  else match pageAt k with
    | some (_, o) => mayPage s m o
    | none => mayAdmin s m

/-! ### Reads -/

/-- The register word at `k` (a multiple of 8, or of 4 for the upper register of a pair of 32-bit registers). -/
def regView (s : State) (k : Nat) : W64 :=
  match pageAt k with
  | some (n, o) => if absentCore s n then 0 else pageWord s n o
  | none =>
    if k = PACE_TIME then BitVec.ofNat 64 (paceTime s)
    else if k = PACE_NEXT then BitVec.ofNat 64 ((s.pace.sched.head?).elim 0 (·.fire))
    else if k = TELEM_CTR_VAL then
      BitVec.ofNat 64 (mget 0 s.pwr.ctrSample (fld s TELEM_CTR_IDX TELEM_CTR_IDX_INDEX))
    else if TELEM_LATEST ≤ k ∧ k < TELEM_LATEST + 0x1100 then mget 0 s.pwr.sample ((k - TELEM_LATEST) / 8)
    else if 0x611000 ≤ k ∧ k < 0x630000 then shadowWord s k
    else if 0x30000 ≤ k ∧ k < 0x34000 ∧ k % 0x400 = 0x10 then
      let r := (k - 0x30000) / 0x400
      setBits (setBits (rget s k) 0 2 (mget 3 s.loam.vccio r)) 2 2 (mget 0 s.loam.straps r)
    else if 0x600000 ≤ k ∧ k < 0x610000 ∧ k % 0x400 = 0x18 then setBits (rget s k) 32 20 (poolInUse s ((k - 0x600000) / 0x400))
    else rget s k

/-- Fields of type RC among the bits of `mask` clear. `PACE_MARGIN.MIN_MARGIN`, a minimum since the last read, starts afresh at its
reset value (DESIGN CHOICE, log 85). -/
def clearRc (k : Nat) (mask : W64) (s : State) : State :=
  match regAt k with
  | none => s
  | some (r, w) =>
    let m := r.fields.foldl (fun (v : W64) f =>
      if f.lo / 64 = w ∧ f.acc = .rc then v ||| BitVec.ofNat 64 ((2 ^ f.width - 1) * 2 ^ (f.lo % 64)) else v) 0
    if m &&& mask = 0 then s
    else
      let s := rset s k (rget s k &&& ~~~(m &&& mask))
      if k = PACE_MARGIN ∧ mask &&& 0xFFFF ≠ 0 then setFld s k PACE_MARGIN_MIN_MARGIN 0x7FFF else s
/-- RC fields of a channel's `CH_EVENTS` stand in the channel. -/
def clearChan (n ch : Nat) (mask : W64) (s : State) : State :=
  updChan s n ch fun x => { x with
    pageWaits := if bit1 mask 0 then 0 else x.pageWaits, stalls := if bit1 mask 16 then 0 else x.stalls }
/-- A read clears what reads clear, when its master may write the block (R9). -/
def readClear (m : Master) (k : Nat) (mask : W64) (s : State) : State :=
  if !mayWrite s m k then s
  else match pageAt k with
    | some (n, o) =>
      if absentCore s n then s
      else if 0x900 ≤ o ∧ o < 0xB00 then
        (if (o - 0x900) % 0x80 = 0x58 then clearChan n ((o - 0x900) / 0x80) mask s else s)
      else clearRc k mask s
    | none => clearRc k mask s

/-- A read of the register word at `k` by master `m`, `mask`: the bits it covers. -/
def regRead (m : Master) (k : Nat) (mask : W64) (s : State) : W64 × State :=
  if hostBlocked s m k then (0, s)
  else if 0xA000 ≤ k ∧ k < 0xA800 then
    (if !bit1 mask 0 then (0, s)
     else if sideReads s m then lockRead ((k - 0xA000) / 8) (srcOfMaster m) s
     else (0xFFFF, s))
  else if 0x10000 ≤ k ∧ k < 0x18000 ∧ k % 0x200 = 8 then
    let j := (k - 0x10000) / 0x200
    let r := if isReceiver s j m then mbxClaim j s else mbxReserve m j s
    (mbxPortWord j r, r.2)
  else if k = HOSTIF_LWIN_DATA 0 ∨ k = HOSTIF_LWIN_DATA 1 then
    let p := (k - HOSTIF_LWIN_DATA 0) / 0x100
    let (d, _, s) := windowRead (lwinOffset s p) 8 [] s
    (BitVec.ofNat 64 (leNat d), lwinNext p s)
  else (regView s k, readClear m k mask s)

/-- A read of the Loam window's data register is answered as poisoned (R413, R414). -/
def readPoisoned (s : State) (o : Nat) : Bool :=
  [0, 1].any fun p => decide (o / 8 * 8 = HOSTIF_LWIN_DATA p) &&
    (!regionRunning s (lwinOffset s p / 0x40000) || (windowWords (lwinOffset s p) 8).any fun k => mget false s.loam.badWords k)

def lowHalf : W64 := 0xFFFFFFFF
def highHalf : W64 := 0xFFFFFFFF00000000
/-- Two 32-bit registers share the 8 bytes at `w`. -/
def paired (w : Nat) : Bool := (regAt (w + 4)).isSome
/-- An access to a core's page from outside comes after the core's own accesses of earlier beats (R95). -/
def settlePage (k : Nat) (s : State) : State :=
  match pageAt k with
  | some (n, _) => settleOwn n s
  | none => s
/-- A read of `n` bytes, 4 or 8 and aligned, at CSR offset `o`. -/
def csrRead (m : Master) (o n : Nat) (s : State) : W64 × State :=
  let w := o / 8 * 8
  let s := settlePage w s
  if paired w then
    if n = 8 then
      let a := regRead m w lowHalf s
      let b := regRead m (w + 4) lowHalf a.2
      ((a.1 &&& lowHalf) ||| (b.1 <<< 32), b.2)
    else
      let a := regRead m o lowHalf s
      (a.1 &&& lowHalf, a.2)
  else if n = 8 then regRead m w (BitVec.allOnes 64) s
  else if o = w then
    let a := regRead m w lowHalf s
    (a.1 &&& lowHalf, a.2)
  else
    let a := regRead m w highHalf s
    (a.1 >>> 32, a.2)

/-! ### Writes -/

/-- The word with the written bits in place. -/
def merged (s : State) (k : Nat) (new mask : W64) : W64 := (rget s k &&& ~~~mask) ||| (new &&& mask)
/-- A write that goes by access types, where the master may write the block. -/
def plainBy (m : Master) (k : Nat) (new mask : W64) (s : State) : State :=
  if mayWrite s m k then plainWrite k false new mask s else s

/-- `GLB_EPOCH_PLOTS` and `GLB_EPOCH_CTRL` (R32). Of a START and an END in one write, START comes first (DESIGN CHOICE, log 84). -/
def writeGlb (m : Master) (k : Nat) (new mask : W64) (s : State) : State :=
  if !mayEpoch s m then s
  else if k = GLB_EPOCH_PLOTS then (if epochOn s then epochRefused s else plainWrite k false new mask s)
  else if k = GLB_EPOCH_CTRL then
    let s := plainWrite k false new mask s
    let s := if wrote1 new mask 0 then via (execEpochStart m s) s else s
    if wrote1 new mask 1 then via (execEpochEnd m s) s else s
  else plainWrite k false new mask s
/-- A PACE register with a stated range (R80). -/
def paceRange (m : Master) (k lo hi w : Nat) (new mask : W64) (s : State) : State :=
  if !mayAdmin s m then s
  else
    let v := bitsOf (merged s k new mask) 0 w
    if v < lo ∨ hi < v then paceInvalid s else plainWrite k false new mask s
/-- The PACE block (R80, R81). -/
def writePace (m : Master) (k : Nat) (new mask : W64) (s : State) : State :=
  let v := merged s k new mask
  if k = PACE_CFG then via (execPaceCfgWrite m v.toNat s) s
  else if k = PACE_PERIOD then via (execPacePeriodWrite m v.toNat s) s
  else if k = PACE_IN_MIN then paceRange m k 100 100000 17 new mask s
  else if k = PACE_IN_TIMEOUT then paceRange m k 100 262143 18 new mask s
  else if k = PACE_LATENCY then paceRange m k 10 1000 10 new mask s
  else if k = PACE_FLOOR_TARGET then via (execPaceFloorTargetWrite m v.toNat s) s
  else if k = PACE_OVR_BASE then via (execPaceOvrBaseWrite m v s) s
  else if k = PACE_OVR_PTR then
    let t := plainBy m k new mask s
    if fld t k PACE_OVR_PTR_TAIL = fld s k PACE_OVR_PTR_TAIL then t else setPace (fun p => { p with ringFull := false }) t
  else plainBy m k new mask s
/-- PWR and TELEM. -/
def writePwr (m : Master) (k : Nat) (new mask : W64) (s : State) : State :=
  let v := merged s k new mask
  if k = PWR_LIMIT then via (execPwrLimitWrite m v s) s
  else if k = PWR_SHADE then via (execPwrShadeWrite m v s) s
  else if k = TELEM_RING then via (execTelemRingWrite m v s) s
  else plainBy m k new mask s
/-- A command of `HOSTIF_OWNER.CMD` (R476). -/
def ownerCommand (p cmd : Nat) (s : State) : State :=
  match cmd with
  | 1 => via (execClaim p s) s
  | 2 => via (execStandby p s) s
  | 3 => via (execWithdraw p s) s
  | 4 => via (execRelease p s) s
  | 5 => via (execHandOver p s) s
  | _ => s
/-- HOSTIF. The Loam window takes 8-byte writes (DESIGN CHOICE, log 67). -/
def writeHostif (m : Master) (k : Nat) (new mask : W64) (s : State) : State :=
  if k = HOSTIF_OWNER then
    match m with
    | .host p => ownerCommand p (bitsOf (new &&& mask) 32 3) s
    | _ => s
  else if k = HOSTIF_HB then
    let s := plainBy m k new mask s
    match m with
    | .host p => if wrote1 new mask 16 then via (execOwnerBeat p s) s else s
    | _ => s
  else if k = HOSTIF_LWIN_DATA 0 ∨ k = HOSTIF_LWIN_DATA 1 then
    if mask = BitVec.allOnes 64 then via (execHostifLwinDataWrite m ((k - HOSTIF_LWIN_DATA 0) / 0x100) new s) s else s
  else plainBy m k new mask s
/-- LOCK (R365). -/
def writeLock (m : Master) (i : Nat) (new mask : W64) (s : State) : State :=
  if wrote1 new mask 32 then via (execLockForce m i s) s else via (execLockReleaseWrite (.csr m i) s) s
/-- The OP of a write to `MBX_PORT` (R367). -/
def mbxCommand (m : Master) (j : Nat) (v : W64) (s : State) : State :=
  match bitsOf v 32 3 with
  | 1 => via (execMbxPortSend m j (bitsOf v 35 5) (bitsOf v 40 9) s) s
  | 2 => via (execMbxPortFree m j s) s
  | 3 => via (execMbxPortWdraw m j s) s
  | 4 => via (execMbxPortCancel m j s) s
  | _ => s
/-- MBX: the body takes writes of the reserver only (R369; DEDUCED, log 66). -/
def writeMbx (m : Master) (k : Nat) (new mask : W64) (s : State) : State :=
  let j := (k - 0x10000) / 0x200
  let o := k % 0x200
  let v := merged s k new mask
  if o = 8 then mbxCommand m j (new &&& mask) s
  else if o = 0x10 then via (execMbxDbWrite m j (bitsOf (new &&& mask) 0 32) (bitsOf v 32 32) s) s
  else if 0x20 ≤ o then (if mayMsg s m ∧ mbxState s j = 1 ∧ mbxSrc s j = srcOfMaster m then rset s k v else s)
  else plainBy m k new mask s
/-- SYNC. -/
def writeSync (m : Master) (k : Nat) (new mask : W64) (s : State) : State :=
  let i := (k - 0x100000) / 0x10
  let v := merged s k new mask
  if k % 0x10 = 0 then via (execSyncValueWrite m i v s) s
  else via (execSyncCtrlWrite m i (bitsOf v 0 6) (bit1 v 6) (bit1 v 7) s) s
/-- QUEUE (R377). -/
def writeQueue (m : Master) (k : Nat) (new mask : W64) (s : State) : State :=
  let q := (k - 0x200000) / 0x40
  let v := merged s k new mask
  if k % 0x40 = 0 then (if qState s q = 0 then plainBy m k new mask s else s)
  else if k % 0x40 = 8 then (if bit1 mask 0 then via (execQHeadWrite m q (bitsOf v 0 16) s) s else s)
  else if k % 0x40 = 0x10 then via (execQCfgWrite m q v.toNat s) s
  else s
/-- PLOT. -/
def writePlotReg (m : Master) (k : Nat) (new mask : W64) (s : State) : State :=
  let p := (k - 0x600000) / 0x400
  if k % 0x400 = 0x10 then
    if wrote1 new mask 0 then via (execPlotReset m p (wrote1 new mask 1) s) s
    else if wrote1 new mask 1 then via (execPlotStart m p s) s
    else s
  else plainBy m k new mask s
/-- Lantern. -/
def writeLtn (m : Master) (k : Nat) (new mask : W64) (s : State) : State :=
  let p := (k - 0x700000) / 0x100
  let v := merged s k new mask
  if k % 0x100 = 0 then via (execLtnCfgWrite m p v s) s
  else if k % 0x100 = 0x28 then via (execLtnRingWrite m p v s) s
  else
    let t := plainBy m k new mask s
    if k % 0x100 = 0x30 ∧ bit1 mask 32 ∧ mayAdmin s m then setPwr (fun w => { w with ltnFull := mset false w.ltnFull p false }) t
    else t
/-- LMC: whether the retraining that REINSTATE starts passes is a free value here. -/
def writeLmc (m : Master) (k : Nat) (new mask : W64) (s : State) : State :=
  let v := merged s k new mask
  if k = LMC_WIN_A then via (execLmcWinWrite m 0 (bitsOf v 30 10) s) s
  else if k = LMC_WIN_B then via (execLmcWinWrite m 1 (bitsOf v 30 10) s) s
  else
    match (List.range 64).find? fun x => decide (chReg x = k) with
    | some x =>
      if wrote1 new mask 2 then
        let f := freshValue s
        via (execReinstate m x (bit1 f.1 0) f.2) s
      else s
    | none => plainBy m k new mask s
/-- LOAM: an enabled lane whose rate is out of range is logged (R425); INJECT; tokens that the PRBS generator held move (R429). -/
def writeLoam (m : Master) (k : Nat) (new mask : W64) (s : State) : State :=
  let t := plainBy m k new mask s
  let l := (k - 0x34000) / 0x100
  if 0x34000 ≤ k ∧ k < 0x35000 ∧ k % 0x100 = 0x10 then
    wakeLane l (if wrote1 new mask 5 then via (execInject m l t) t else t)
  else if 0x34000 ≤ k ∧ k < 0x35000 ∧ k % 0x100 = 0 ∧ rget t k ≠ rget s k ∧ flag t k FL_CFG_EN = true ∧ laneRateOk t l = false then
    logErr 0x070E (rgnSrc (laneRegion t l)) none l t
  else t
/-- `CYUST_PORT_CTRL`: the peer, then EN, LOOP and RETRAIN. -/
def writePort (m : Master) (p : Nat) (new mask : W64) (s : State) : State :=
  if !mayAdmin s m then s
  else
    let r := CYUST_PORT_CTRL p
    let v := merged s r new mask
    let s := setFld (setFld (setFld s r CYUST_PORT_CTRL_PEER_MODULE (bitsOf v 3 6)) r CYUST_PORT_CTRL_PEER_GROUP (bitsOf v 9 3))
      r CYUST_PORT_CTRL_USE_DEFAULTS (bitsOf v 13 1)
    let s := via (execCyustPortEnable m p (bit1 v 0) s) s
    let s := if fld s r CYUST_PORT_CTRL_LOOP = bitsOf v 1 2 then s else via (execCyustLoopWrite m p (bitsOf v 1 2) s) s
    if wrote1 new mask 12 then via (execRetrain m p s) s else s
/-- CYUST. -/
def writeCyust (m : Master) (k : Nat) (new mask : W64) (s : State) : State :=
  let v := merged s k new mask
  if k = CYUST_TOPO then via (execCyustTopoWrite m v.toNat s) s
  else if 0x41000 ≤ k ∧ k < 0x42000 then via (execCyustRtWrite m ((k - 0x41000) / 8) v.toNat s) s
  else if 0x42000 ≤ k ∧ k < 0x43000 ∧ k % 0x200 = 0 then writePort m ((k - 0x42000) / 0x200) new mask s
  else plainBy m k new mask s
/-- LOAD (R433, R435). -/
def writeLoad (m : Master) (k : Nat) (new mask : W64) (s : State) : State :=
  let v := merged s k new mask
  if k = LOAD_CTRL then
    if mayLoad s m then
      let w := bitsOf v 3 6
      loadCommand (srcOfMaster m) (bitsOf (new &&& mask) 0 3) w (setFld s LOAD_CTRL LOAD_CTRL_FWD_MODULE w)
    else s
  else if k = LOAD_DEADLINE then via (execLoadDeadlineWrite m (bitsOf v 0 12) s) s
  else if k = LOAD_STAGE then (if [1, 2, 3, 4, 5, 8].contains (loadState s) then s else plainBy m k new mask s)
  else plainBy m k new mask s
/-- `AVL_REQ` (R570): an LPDDR test's outcome is a free value here. -/
def writeAvl (m : Master) (i : Nat) (v : W64) (s : State) : State :=
  let t := bitsOf v 8 24
  let force := bit1 v 4
  if bit1 v 5 then via (execAvlCancel m i s) s
  else match bitsOf v 0 4 with
    | 1 => askCore m i t force s
    | 2 => askPcore m i t force s
    | 3 => askRetire m i t s
    | 4 => askHg m i t s
    | 5 => askRetrain m i t s
    | 6 =>
      let f := freshValue s
      askLpddr m i t force (bit1 f.1 0) f.2
    | 7 => askLane m i t force s
    | 8 => askLoop m i t force s
    | _ => s
/-- SHADOW and ERRLOG. -/
def writeLog (m : Master) (k : Nat) (new mask : W64) (s : State) : State :=
  if 0x630100 ≤ k ∧ k < 0x630200 ∧ k % 0x10 = 0 then
    (if bit1 mask 0 then writeAvl m ((k - 0x630100) / 0x10) (new &&& mask) s else s)
  else if k = ERR_RING then via (execErrRingWrite m (merged s k new mask) s) s
  else if k = ERR_PTR then (if mayAdmin s m then errSpace (plainWrite k false new mask s) else s)
  else plainBy m k new mask s
/-- Core pages: a page of an absent position takes nothing. -/
def writePage (m : Master) (n o : Nat) (new mask : W64) (s : State) : State :=
  if mayPage s m o && !absentCore s n then
    pageWrite n o m new mask s
  else s

/-- A write of `new` in the bits `mask` to the register word at `k` by master `m`. -/
def regWrite (m : Master) (k : Nat) (new mask : W64) (s : State) : State :=
  if hostBlocked s m k then s
  else if k < 0x1000 then writeGlb m k new mask s
  else if k < 0x2000 then writePace m k new mask s
  else if k < 0x8000 then writePwr m k new mask s
  else if k < 0xA000 then writeHostif m k new mask s
  else if k < 0xA800 then writeLock m ((k - 0xA000) / 8) new mask s
  else if k < 0x10000 then s
  else if k < 0x18000 then writeMbx m k new mask s
  else if k < 0x20000 then s
  else if k < 0x30000 then writeLoad m k new mask s
  else if k < 0x40000 then writeLoam m k new mask s
  else if k < 0x80000 then writeCyust m k new mask s
  else if k < 0x100000 then writeLmc m k new mask s
  else if k < 0x200000 then writeSync m k new mask s
  else if k < 0x600000 then writeQueue m k new mask s
  else if k < 0x610000 then writePlotReg m k new mask s
  else if k < 0x680000 then writeLog m k new mask s
  else if k < 0x700000 then s
  else if k < 0x1000000 then (if k < 0x701000 then writeLtn m k new mask s else s)
  else match pageAt k with
    | some (n, o) => writePage m n o new mask s
    | none => s

/-- A write of `n` bytes, 4 or 8 and aligned, at CSR offset `o`. -/
def csrWrite (m : Master) (o n : Nat) (v : W64) (s : State) : State :=
  let w := o / 8 * 8
  let s := settlePage w s
  if paired w then
    if n = 8 then regWrite m (w + 4) (v >>> 32) lowHalf (regWrite m w (v &&& lowHalf) lowHalf s)
    else regWrite m o (v &&& lowHalf) lowHalf s
  else if n = 8 then regWrite m w v (BitVec.allOnes 64) s
  else if o = w then regWrite m w (v &&& lowHalf) lowHalf s
  else regWrite m w (v <<< 32) highHalf s

/-! ### The rows -/

/-- A context's access of `n` bytes at CSR offset `o` goes through the checks of its load or store (R102, R141, R242). -/
def coreCsr (u c o n : Nat) (write : Bool) (v : W64) (f : State → State) (s : State) : State :=
  match accessFault s u c (3 * 2 ^ 48 + o) n write v.toNat with
  | some (code, info) => faultCtx u c code 3 false (ctx s u c).pc info s
  | none => f s
/-- CSR_WRITE (R9–R12, R102). -/
def execCsrWrite (m : Master) (o n : Nat) (v : W64) (s : State) : Res :=
  runIf (wfCsrWrite m o n v)
    (match m with
     | .unit u c =>
       coreCsr u c o n true v (fun s =>
         let w := placed o (leBytes n v.toNat)
         if isCp u then unlessAsleep m o n (some v) (csrWrite m o n v) s else ownWrite u c (o % 0x1000 / 8 * 8) w.1 w.2 s) s
     | _ => if portAsleep s m then s else unlessAsleep m o n (some v) (csrWrite m o n v) s)
/-- A read of a register, with what it clears. -/
def answerRead (m : Master) (o n : Nat) (s : State) : State :=
  let r := csrRead m o n s
  emit (if readPoisoned s o then .csrPoisoned m 0 else .csrData m r.1) r.2
/-- READ_CLEAR_COUNTER (R9, R102). -/
def execReadClearCounter (m : Master) (o n : Nat) (s : State) : Res :=
  runIf (wfReadClearCounter m o n)
    (match m with
     | .unit u c => coreCsr u c o n false 0 (fun s => if isCp u then unlessAsleep m o n none (answerRead m o n) s else answerRead m o n s) s
     | .host p => if portAsleep s m then refuseHost p true s else unlessAsleep m o n none (answerRead m o n) s
     | _ => unlessAsleep m o n none (answerRead m o n) s)

end Sys2Proof.Machine
end

