-- ==== Sys2Proof/Machine/StreamRows.lean ====
section
/-!
DEFINITION. The stream rows (chapters 10, 11): each is one operation of Streams.lean on one channel.
-/
namespace Sys2Proof.Machine
open Sys2Proof

/-- CHANNEL_REQUEST_ISSUE (R275, R282, R287). -/
def execChannelRequestIssue (u ch : Nat) (s : State) : Res := runIf (wfChannelRequestIssue u ch) (issueNext u ch s)
/-- A channel's access whose answer reaches its core. -/
def ifReaches (tag : Nat) (f : State → State) (s : State) : State :=
  if (findReq s tag).any (reaches s) then f s else s
/-- STREAM_READ_RESPONSE (R275, R291, R292). -/
def execStreamReadResponse (tag : Nat) (s : State) : Res := runIf (wfStreamReadResponse tag) (ifReaches tag (readResponse tag) s)
/-- STREAM_WRITE_ACK (R279, R292). -/
def execStreamWriteAck (tag : Nat) (s : State) : Res := runIf (wfStreamWriteAck tag) (ifReaches tag (writeAck tag) s)
/-- SEGMENT_PUBLISH (R276). -/
def execSegmentPublish (u ch : Nat) (s : State) : Res := runIf (wfSegmentPublish u ch) (publish u ch s)
/-- STREAM_COMPLETE (R279). -/
def execStreamComplete (u ch : Nat) (s : State) : Res := runIf (wfStreamComplete u ch) (complete u ch s)
/-- CHANNEL_CLOSE_DONE (R291). -/
def execChannelCloseDone (u ch : Nat) (s : State) : Res := runIf (wfChannelCloseDone u ch) (closeDone u ch s)
/-- RATE_SAMPLE (R281): every open channel. -/
def execRateSample (s : State) : Res :=
  runIf wfRateSample
    (sampleRates s)
/-- STREAM_STALL (R289, R321). -/
def execStreamStall (u ch : Nat) (s : State) : Res := runIf (wfStreamStall u ch) (stallOut u ch s)
/-- SPILL_PAGE_TAKE (R317, R318). -/
def execSpillPageTake (u ch : Nat) (s : State) : Res := runIf (wfSpillPageTake u ch) (spillTake u ch s)
/-- SPILL_PAGE_RETURN (R317). -/
def execSpillPageReturn (u ch : Nat) (s : State) : Res := runIf (wfSpillPageReturn u ch) (spillReturn u ch s)
/-- STREAM_TOKEN_SEND (R310, R312). -/
def execStreamTokenSend (u ch : Nat) (s : State) : Res := runIf (wfStreamTokenSend u ch) (sendToken u ch s)
/-- STREAM_TOKEN_ARRIVE (R307). -/
def execStreamTokenArrive (u port link : Nat) (s : State) : Res :=
  runIf (wfStreamTokenArrive u port link) (arrive u port link s)
/-- FENCE_MARKER_RECEIVE (R326). -/
def execFenceMarkerReceive (u ch : Nat) (s : State) : Res := runIf (wfFenceMarkerReceive u ch) (fenceMarker u ch s)

end Sys2Proof.Machine
end

