-- ==== Sys2Proof/Machine/AckRows.lean ====
section
/-!
DEFINITION. Answers to a context's accesses (R95, R343). A plain access to CSR space outside the own page is served as its
answer sets out, at CP0's stop or in the core that owns the page.
-/
namespace Sys2Proof.Machine
open Sys2Proof

/-- The CSR part of an access, or of a message's body, is served: the own page by the core itself (R95), else in the order of
R142. -/
def serveCsr (r : Req) (s : State) : State :=
  if ownWaits r.u r then settleOwn r.u s
  else match r.parts with
  | p :: _ =>
    if selOf p.addr ≠ 3 ∨ p.ans.isSome ∨ p.n = 0 ∨ !inOrder s r p ∨ !arrivable s r 0 ∨
        (isCp r.u ∧ (sleepingPage s (offOf p.addr)).isSome) then s
    else
      match r.op with
      | .store a d _ => answerPart r.tag 0 (.status 0) (csrWrite (.unit r.u r.c) (offOf a) d.length (BitVec.ofNat 64 (leNat d)) s)
      | _ =>
        let v := csrRead (.unit r.u r.c) (offOf p.addr) p.n s
        answerPart r.tag 0 (.bytes (leBytes p.n v.1.toNat) (if readPoisoned s (offOf p.addr) then badAddrs p.addr (wordsOf (offOf p.addr) p.n) else [])) v.2
  | [] => s
/-- Accesses whose answer LOAD_RETURN brings: loads and the load-like operations, but for SYNC.WAIT, which a wake answers. -/
def returns (r : Req) : Bool :=
  !r.chan && (match r.op with
    | .store _ _ _ => false
    | .lockRel _ => false
    | .syncWait _ _ => false
    | _ => true)
/-- Accesses that a WR_ACK answers. -/
def acks (r : Req) : Bool :=
  !r.chan && (match r.op with
    | .store _ _ _ => true
    | .lockRel _ => true
    | _ => false)
/-- The whole answer reaches the context. -/
def finish (tag : Nat) (s : State) : State :=
  match findReq s tag with
  | some r => if answered r && dstFree s r then deliver r s else s
  | none => s
/-- LOAD_RETURN (R95, R118, R142). -/
def execLoadReturn (tag : Nat) (s : State) : Res :=
  runIf (wfLoadReturn tag)
    (match findReq s tag with
     | some r => if returns r && (reaches s r || ownWaits r.u r) then finish tag (serveCsr r s) else s
     | none => s)
/-- STORE_ACK (R343). -/
def execStoreAck (tag : Nat) (s : State) : Res :=
  runIf (wfStoreAck tag)
    (match findReq s tag with
     | some r => if acks r && reaches s r then finish tag (serveCsr r s) else s
     | none => s)

end Sys2Proof.Machine
end

