-- ==== Sys2Proof/Machine/BootRows.lean ====
section
/-!
DEFINITION. The rows of power, resets, boot, bank supplies and cables (chapters 0, 19 and 22). A DEV_RESET_N pulse comes with its
length in ns, an input voltage in tenths of a volt with how long it lasted in µs, a release with the start-up findings.
-/
namespace Sys2Proof.Machine
open Sys2Proof

/-- COLD_RESET (R13, R581). -/
def execColdReset (s : State) : Res := runIf wfColdReset (coldReset s)
/-- The MC finds the reference absent before it releases the compute side (R585). -/
def refAbsent (s : State) : State :=
  if s.mc.refLost && decide (fld s MC_STATUS MC_STATUS_STATE = 1) then logAs .notice 0x0A0E 0x03 none 0 s else s
/-- PWR_GOOD_RISE (R512 steps 1–4, R581); PWR_LIFE comes from flash (R545). -/
def execPwrGoodRise (s : State) : Res :=
  runIf wfPwrGoodRise
    (if s.mc.pwrGood then s
     else
       let s := refAbsent (bootMc (setMc (fun m => { m with pwrGood := true }) s))
       match s.pwr.saved with
       | some (_, oper, boost) => setFld (setFld s PWR_LIFE PWR_LIFE_OPER_MIN oper) PWR_LIFE PWR_LIFE_BOOST_MIN boost
       | none => s)
/-- VIN_LOSS (R582): a dip within its bounds is carried without effect. -/
def execVinLoss (v us : Nat) (s : State) : Res :=
  runIf (wfVinLoss v us) (if v < 300 ∨ (v < 380 ∧ 50 < us) then coldReset s else s)
/-- A device reset by the pin does not leave compute off after a thermal trip (R548, R575). -/
def pinReset (s : State) : State :=
  let trip := s.pwr.tripped
  setMc (fun m => { m with compOff := m.compOff && trip }) (deviceReset s)
/-- DEV_RESET_N_PULSE (R583): ignored below 100 ns and in cold reset; between 100 ns and 1 µs the spec does not say. -/
def execDevResetNPulse (ns : Nat) (s : State) : Res :=
  runIf (wfDevResetNPulse ns)
    (if !s.mc.pwrGood || decide (ns < 100) then s
     else if 1000 ≤ ns then pinReset s
     else
       let (v, s) := freshValue s
       if bit1 v 0 then pinReset s else s)
/-- Boost credit as the governor starts (R545, R552): the saved value less 600 s. -/
def restoreCredit (s : State) : State :=
  let c := match s.pwr.saved with
    | some (c, _, _) => c - 600
    | none => 0
  setFld { s with pwr := { s.pwr with credit := 10 * c } } PWR_BOOST PWR_BOOST_CREDIT c
/-- The compute side is released, when nothing holds it. -/
def leaveReset (f : StartUp) (s : State) : State :=
  let t := release f s
  if s.mc.held && !t.mc.held then restoreCredit t else t
/-- DEVICE_RESET_RELEASE (R512 steps 5 and 6). -/
def execDeviceResetRelease (f : StartUp) (s : State) : Res := runIf (wfDeviceResetRelease f) (leaveReset f s)
/-- COMPUTE_UP (R449, R512 step 7). -/
def execComputeUp (s : State) : Res :=
  runIf wfComputeUp
    (if s.mc.held || s.mc.compOff || !flag s MC_STATUS MC_STATUS_CC_RUNNING || !flag s GLB_STATUS GLB_STATUS_SHADOW_VALID ||
        flag s GLB_STATUS GLB_STATUS_COMPUTE_UP then s
     else
       let s := setFld s GLB_STATUS GLB_STATUS_COMPUTE_UP 1
       showLive { s with load := { s.load with deadline := some (paceTime s) } })
/-- CYREF_MISSING (R585). -/
def execCyrefMissing (s : State) : Res :=
  runIf wfCyrefMissing
    (if s.mc.refLost then s
     else
       let t := setMc (fun m => { m with refLost := true }) s
       if s.mc.held then refAbsent t else logAs .fatal 0x0A0E 0x03 none 0 t)
/-- CYREF_APPEAR (R585): 10 ms later the compute side is released. -/
def execCyrefAppear (f : StartUp) (s : State) : Res :=
  runIf (wfCyrefAppear f)
    (if s.mc.refLost then
      leaveReset f (setMc (fun m => { m with refLost := false }) { s with now := s.now + 100000000 })
     else s)
/-- The bank's supply goes away (R586, R589). -/
def supplyLost (r : Nat) (s : State) : State :=
  let used := mget false s.loam.driven r
  let s := setFld (setLoam (fun l => { l with vccio := mset 3 l.vccio r 3 }) s) (LOAM_BANK_STATUS r) LOAM_BANK_STATUS_CAL_DONE 0
  if used then logErr 0x0717 (rgnSrc r) none 0 s else s
/-- VCCIO_APPLIED (R586, R587, R589): level 0–2, straps STRAP1 and STRAP0. A change of level is a loss and a return. -/
def execVccioApplied (r level strap : Nat) (s : State) : Res :=
  runIf (wfVccioApplied r level strap)
    (let was := mget 3 s.loam.vccio r
     let s := if was ≠ 3 ∧ was ≠ level ∧ regionRunning s r then supplyLost r s else s
     let s := setLoam (fun l => { l with
       vccio := mset 3 l.vccio r level, straps := mset 0 l.straps r (if strap = 3 then 0 else strap) }) s
     if mget false s.loam.driven r then wakePins r (setFld s (LOAM_BANK_STATUS r) LOAM_BANK_STATUS_CAL_DONE 1) else s)
/-- BANK_SUPPLY_LOST (R589). -/
def execBankSupplyLost (r : Nat) (s : State) : Res :=
  runIf (wfBankSupplyLost r) (if mget 3 s.loam.vccio r = 3 then s else supplyLost r s)
/-- The levels of the status outputs in every reset state; PACE_OUT shows by its pulses (R62, R590). -/
def statusPin (s : State) : StatusPin → PinLevel
  | .pwrGood => if s.mc.pwrGood then .high else .low
  | .devLive => if flag s GLB_STATUS GLB_STATUS_DEV_LIVE then .high else .low
  | .cfgDone => if flag s GLB_STATUS GLB_STATUS_CFG_DONE then .high else .low
  | .cfgErrN => if flag s GLB_STATUS GLB_STATUS_CFG_ERR then .low else .released
  | .thermTripN => if s.pwr.tripped then .low else .released
/-- CAB_PWR of a receptacle (R580). -/
def cabPower (s : State) (p : Nat) : Bool := mget false s.mc.cables p && flag s (CYUST_PORT_CTRL p) CYUST_PORT_CTRL_EN
/-- CABLE_PRESENT_CHANGE (R580). -/
def execCablePresentChange (p : Nat) (on : Bool) (s : State) : Res :=
  runIf (wfCablePresentChange p on) (setMc (fun m => { m with cables := mset false m.cables p on }) s)

end Sys2Proof.Machine
end

