-- ==== Sys2Proof/Machine/ConfigRows.lean ====
section
/-!
DEFINITION. Configuration space of a host port, its MSI-X table and the reads of BAR2 (chapter 17).
-/
namespace Sys2Proof.Machine
open Sys2Proof

/-- What configuration space holds (R2, R462–R464): the identification values, what each capability offers in its own unit (bytes,
counts, a bit per range, state or size), and what is set. -/
def cfgView (s : State) (p : Nat) : CfgReg → Nat
  | .vendorId => 0x1FB3
  | .deviceId => 0xB200
  | .revisionId => 0xB0
  | .classCode => 0x120000
  | .subVendorId => 0x1FB3
  | .subsystemId => if Config.industrial then 0xB202 else 0xB201
  | .serialNumber => (rget s GLB_SERIAL).toNat
  | .payloadOffered => 512
  | .readSizeOffered => 4096
  | .tagBits => 10
  | .nonPosted => 512
  | .aspmOffered => 2
  | .timeoutRanges => 3
  | .rrsVisible => 1
  | .powerStates => 9
  | .pme => 0
  | .msixVectors => 2048
  | .headerLog => 4
  | .bar4Sizes => (2 ^ 11 - 1) * 2 ^ 30
  | .bar0Size => 2 ^ 28
  | .bar2Size => 2 ^ 26
  | .invalidateDepth => 32
  | .pageAligned => 1
  | .pageCapacity => 512
  | .pasid => 0
  | .doeMailboxes => 1
  | .payload => mget 128 s.host.payload p
  | .readSize => mget 512 s.host.readSize p
  | .aspm => b2n (mget false s.host.aspm p) * 2
  | .power => if mget false s.host.d3 p then 3 else 0
  | .bme => fld s (HOSTIF_PORT_STATUS p) HOSTIF_PORT_STATUS_BME
  | .msixEn => fld s (HOSTIF_PORT_STATUS p) HOSTIF_PORT_STATUS_MSIX_EN
  | .funcMask => b2n (mget false s.host.funcMask p)
  | .ats => fld s (HOSTIF_PORT_STATUS p) HOSTIF_PORT_STATUS_ATS_EN
  | .pri => fld s (HOSTIF_PORT_STATUS p) HOSTIF_PORT_STATUS_PRI_EN
  | .pageAlloc => mget 0 s.host.prqAlloc p
  | .pageStopped => b2n (mget false s.host.prqStop p)
  | .bar4 => 2 ^ mget 30 s.host.bar4 p
  | .aer u => b2n (mget false s.host.aerSet (2 * p + b2n u))
  | .aerMask u => b2n (mget true s.host.aerMask (2 * p + b2n u))

/-- A byte of the MSI-X table of port `p` (R465): of each 16 bytes, the address, the data, the mask bit. -/
def msixByte (s : State) (p x : Nat) : Byte :=
  let k := p * 2048 + x / 16
  let v := mget 0 s.host.msixAddr k + mget 0 s.host.msixData k * 2 ^ 64 + b2n (!mget false s.host.unmasked k) * 2 ^ 96
  BitVec.ofNat 8 (v / 256 ^ (x % 16))
/-- A byte of the pending-bit array of port `p`. -/
def pbaByte (s : State) (p x : Nat) : Byte :=
  BitVec.ofNat 8 (((List.range 8).map fun b => b2n (mget false s.host.pba (p * 2048 + 8 * x + b)) * 2 ^ b).foldl (· + ·) 0)
/-- A byte of BAR2 below the load window: the ports and the reserved offsets read as 0 (R378, R465). -/
def bar2Byte (s : State) (p x : Nat) : Byte :=
  if 0x500000 ≤ x ∧ x < 0x508000 then msixByte s p (x - 0x500000)
  else if 0x508000 ≤ x ∧ x < 0x508100 then pbaByte s p (x - 0x508000)
  else 0
/-- A read of the load window (R434, R435), answered as a BAR4 read of the same bytes is; the bytes beyond the staging area, which no
rule gives, are free (DESIGN CHOICE, log 109). -/
def loadWindowRead (p x n : Nat) (b : Bursts) (s : State) : State :=
  let o := fld s LOAD_WIN LOAD_WIN_OFFSET * 2 ^ 25 + x
  if !flag s LMC_STATUS LMC_STATUS_INIT_DONE then emit (.hostData p none false) (logErr 0x060C (lmcSrc (lpDevCh (stageBase s + o))) none 0 s)
  else if stageBytes s < o + n then
    let d := freshBytes n s
    emit (.hostData p (some d.1) false) d.2
  else hostRead p (stageBase s + o) n b s
/-- A Memory Read of BAR2. -/
def bar2Read (p x n : Nat) (b : Bursts) (s : State) : State :=
  if 0x2000000 ≤ x then loadWindowRead p (x - 0x2000000) n b s
  else emit (.hostData p (some ((List.range n).map fun i => bar2Byte s p (x + i))) false) s

/-- What a configuration request does once configuration space is ready. -/
def cfgAccess (p : Nat) (w : HostCfg) (s : State) : State :=
  let r := HOSTIF_PORT_STATUS p
  match w with
  | .bme on =>
    let s := setFld s r HOSTIF_PORT_STATUS_BME (b2n on)
    if on then s else pagesLost p s
  | .msixEn on => msixFlush p (setFld s r HOSTIF_PORT_STATUS_MSIX_EN (b2n on))
  | .funcMask on => msixFlush p { s with host := { s.host with funcMask := mset false s.host.funcMask p on } }
  | .ats on => setFld s r HOSTIF_PORT_STATUS_ATS_EN (b2n on)
  | .pri on =>
    let s := { s with host := { s.host with prqStop := mset false s.host.prqStop p false } }
    sendPages p (setFld s r HOSTIF_PORT_STATUS_PRI_EN (b2n on))
  | .bar4 k => { s with host := { s.host with bar4 := mset 30 s.host.bar4 p k } }
  | .power on => { s with host := { s.host with d3 := mset false s.host.d3 p on } }
  | .aspm on => { s with host := { s.host with aspm := mset false s.host.aspm p on } }
  | .payload n => { s with host := { s.host with payload := mset 128 s.host.payload p n } }
  | .readSize n => { s with host := { s.host with readSize := mset 512 s.host.readSize p n } }
  | .pageAlloc n => sendPages p { s with host := { s.host with prqAlloc := mset 0 s.host.prqAlloc p n } }
  | .aerClear u => { s with host := { s.host with aerSet := mset false s.host.aerSet (2 * p + b2n u) false } }
  | .aerMask u on => { s with host := { s.host with aerMask := mset true s.host.aerMask (2 * p + b2n u) on } }
  | .read c => emit (.cfgData p (some (cfgView s p c))) s
  | .vector _ _ _ _ => s
  | .bar2Read _ _ _ => s
/-- A port that is not ready answers a configuration request with Request Retry Status, and does nothing for it (R466). -/
def cfgRetry (p : Nat) (w : HostCfg) (s : State) : State :=
  match w with
  | .read _ => emit (.cfgData p none) s
  | _ => s

/-- HOST_CONFIG_WRITE (R462–R466, R471, R474): a host's accesses to configuration space, to the MSI-X table, and its reads of BAR2. -/
def execHostConfigWrite (p : Nat) (w : HostCfg) (s : State) : Res :=
  runIf (wfHostConfigWrite p w)
    (match w with
     | .vector v a d mask => byPort p (fun s =>
       msixPending p v { s with host := { s.host with
         msixAddr := mset 0 s.host.msixAddr (p * 2048 + v) a, msixData := mset 0 s.host.msixData (p * 2048 + v) d
         unmasked := mset false s.host.unmasked (p * 2048 + v) (!mask) } }) s
     | .bar2Read x n b => byPort p (bar2Read p x n b) s true
     | _ => if flag s (HOSTIF_PORT_STATUS p) HOSTIF_PORT_STATUS_CFG_READY then cfgAccess p w s else cfgRetry p w s)

end Sys2Proof.Machine
end

