-- ==== Sys2Proof/Machine/CoreRows.lean ====
section
/-!
DEFINITION. The rows of the core's instructions (chapters 3, 4, 8): each is the beat that issues a bundle holding the
instruction.
-/
namespace Sys2Proof.Machine
open Sys2Proof

/-- NOP (R123). -/
def execNop (u p : Nat) (sl : Slot) (s : State) : Res :=
  runIf (wfNop u p sl) (runSlot u sl (.nop u p sl) s)
/-- ADD (R128). -/
def execAdd (u p rd ra rb : Nat) (s : State) : Res :=
  runIf (wfAdd u p rd ra rb) (runSlot u .S (.add u p rd ra rb) s)
/-- SUB (R128). -/
def execSub (u p rd ra rb : Nat) (s : State) : Res :=
  runIf (wfSub u p rd ra rb) (runSlot u .S (.sub u p rd ra rb) s)
/-- AND (R128). -/
def execAnd (u p rd ra rb : Nat) (s : State) : Res :=
  runIf (wfAnd u p rd ra rb) (runSlot u .S (.and u p rd ra rb) s)
/-- OR (R128). -/
def execOr (u p rd ra rb : Nat) (s : State) : Res :=
  runIf (wfOr u p rd ra rb) (runSlot u .S (.or u p rd ra rb) s)
/-- XOR (R128). -/
def execXor (u p rd ra rb : Nat) (s : State) : Res :=
  runIf (wfXor u p rd ra rb) (runSlot u .S (.xor u p rd ra rb) s)
/-- SLL (R128). -/
def execSll (u p rd ra rb : Nat) (s : State) : Res :=
  runIf (wfSll u p rd ra rb) (runSlot u .S (.sll u p rd ra rb) s)
/-- SRL (R128). -/
def execSrl (u p rd ra rb : Nat) (s : State) : Res :=
  runIf (wfSrl u p rd ra rb) (runSlot u .S (.srl u p rd ra rb) s)
/-- SRA (R128). -/
def execSra (u p rd ra rb : Nat) (s : State) : Res :=
  runIf (wfSra u p rd ra rb) (runSlot u .S (.sra u p rd ra rb) s)
/-- MUL (R128). -/
def execMul (u p rd ra rb : Nat) (s : State) : Res :=
  runIf (wfMul u p rd ra rb) (runSlot u .S (.mul u p rd ra rb) s)
/-- MULHU (R128). -/
def execMulhu (u p rd ra rb : Nat) (s : State) : Res :=
  runIf (wfMulhu u p rd ra rb) (runSlot u .S (.mulhu u p rd ra rb) s)
/-- MIN (R128). -/
def execMin (u p rd ra rb : Nat) (s : State) : Res :=
  runIf (wfMin u p rd ra rb) (runSlot u .S (.min u p rd ra rb) s)
/-- MAX (R128). -/
def execMax (u p rd ra rb : Nat) (s : State) : Res :=
  runIf (wfMax u p rd ra rb) (runSlot u .S (.max u p rd ra rb) s)
/-- MINU (R128). -/
def execMinu (u p rd ra rb : Nat) (s : State) : Res :=
  runIf (wfMinu u p rd ra rb) (runSlot u .S (.minu u p rd ra rb) s)
/-- MAXU (R128). -/
def execMaxu (u p rd ra rb : Nat) (s : State) : Res :=
  runIf (wfMaxu u p rd ra rb) (runSlot u .S (.maxu u p rd ra rb) s)
/-- ADDI (R128). -/
def execAddi (u p rd ra imm : Nat) (s : State) : Res :=
  runIf (wfAddi u p rd ra imm) (runSlot u .S (.addi u p rd ra imm) s)
/-- ANDI (R128). -/
def execAndi (u p rd ra imm : Nat) (s : State) : Res :=
  runIf (wfAndi u p rd ra imm) (runSlot u .S (.andi u p rd ra imm) s)
/-- ORI (R128). -/
def execOri (u p rd ra imm : Nat) (s : State) : Res :=
  runIf (wfOri u p rd ra imm) (runSlot u .S (.ori u p rd ra imm) s)
/-- XORI (R128). -/
def execXori (u p rd ra imm : Nat) (s : State) : Res :=
  runIf (wfXori u p rd ra imm) (runSlot u .S (.xori u p rd ra imm) s)
/-- SLLI (R128). -/
def execSlli (u p rd ra sh : Nat) (s : State) : Res :=
  runIf (wfSlli u p rd ra sh) (runSlot u .S (.slli u p rd ra sh) s)
/-- SRLI (R128). -/
def execSrli (u p rd ra sh : Nat) (s : State) : Res :=
  runIf (wfSrli u p rd ra sh) (runSlot u .S (.srli u p rd ra sh) s)
/-- SRAI (R128). -/
def execSrai (u p rd ra sh : Nat) (s : State) : Res :=
  runIf (wfSrai u p rd ra sh) (runSlot u .S (.srai u p rd ra sh) s)
/-- MOVI (R128). -/
def execMovi (u p rd imm : Nat) (s : State) : Res :=
  runIf (wfMovi u p rd imm) (runSlot u .S (.movi u p rd imm) s)
/-- MOVK (R128). -/
def execMovk (u p rd hw imm : Nat) (s : State) : Res :=
  runIf (wfMovk u p rd hw imm) (runSlot u .S (.movk u p rd hw imm) s)
/-- CMP (R129). -/
def execCmp (u p pd : Nat) (cc : Cc) (ra rb : Nat) (s : State) : Res :=
  runIf (wfCmp u p pd cc ra rb) (runSlot u .S (.cmp u p pd cc ra rb) s)
/-- PAND (R128). -/
def execPand (u p pd pa pb : Nat) (s : State) : Res :=
  runIf (wfPand u p pd pa pb) (runSlot u .S (.pand u p pd pa pb) s)
/-- POR (R128). -/
def execPor (u p pd pa pb : Nat) (s : State) : Res :=
  runIf (wfPor u p pd pa pb) (runSlot u .S (.por u p pd pa pb) s)
/-- PXOR (R128). -/
def execPxor (u p pd pa pb : Nat) (s : State) : Res :=
  runIf (wfPxor u p pd pa pb) (runSlot u .S (.pxor u p pd pa pb) s)
/-- PANDN (R128). -/
def execPandn (u p pd pa pb : Nat) (s : State) : Res :=
  runIf (wfPandn u p pd pa pb) (runSlot u .S (.pandn u p pd pa pb) s)
/-- RDS (R130). -/
def execRds (u p rd sel : Nat) (s : State) : Res :=
  runIf (wfRds u p rd sel) (runSlot u .S (.rds u p rd sel) s)
/-- BR (R104). -/
def execBr (u p target : Nat) (s : State) : Res :=
  runIf (wfBr u p target) (runSlot u .S (.br u p target) s)
/-- CALL (R105). -/
def execCall (u p target : Nat) (s : State) : Res :=
  runIf (wfCall u p target) (runSlot u .S (.call u p target) s)
/-- RET (R128). -/
def execRet (u p : Nat) (s : State) : Res :=
  runIf (wfRet u p) (runSlot u .S (.ret u p) s)
/-- ERET (R114). -/
def execEret (u p : Nat) (s : State) : Res :=
  runIf (wfEret u p) (runSlot u .S (.eret u p) s)
/-- LOOP (R103). -/
def execLoop (u p ra stop : Nat) (s : State) : Res :=
  runIf (wfLoop u p ra stop) (runSlot u .S (.loop u p ra stop) s)
/-- LOOPI (R103). -/
def execLoopi (u p count stop : Nat) (s : State) : Res :=
  runIf (wfLoopi u p count stop) (runSlot u .S (.loopi u p count stop) s)
/-- REPI (R106). -/
def execRepi (u p ra : Nat) (s : State) : Res :=
  runIf (wfRepi u p ra) (runSlot u .S (.repi u p ra) s)
/-- REPII (R106). -/
def execRepii (u p n : Nat) (s : State) : Res :=
  runIf (wfRepii u p n) (runSlot u .S (.repii u p n) s)
/-- VADD (R133). -/
def execVadd (u p : Nat) (t : VTy) (vd va vb : Nat) (s : State) : Res :=
  runIf (wfVadd u p t vd va vb) (runSlot u .V (.vadd u p t vd va vb) s)
/-- VSUB (R133). -/
def execVsub (u p : Nat) (t : VTy) (vd va vb : Nat) (s : State) : Res :=
  runIf (wfVsub u p t vd va vb) (runSlot u .V (.vsub u p t vd va vb) s)
/-- VMUL (R133). -/
def execVmul (u p : Nat) (t : VTy) (vd va vb : Nat) (s : State) : Res :=
  runIf (wfVmul u p t vd va vb) (runSlot u .V (.vmul u p t vd va vb) s)
/-- VFMA (R133). -/
def execVfma (u p : Nat) (t : VTy) (vd va vb : Nat) (s : State) : Res :=
  runIf (wfVfma u p t vd va vb) (runSlot u .V (.vfma u p t vd va vb) s)
/-- VMIN (R229). -/
def execVmin (u p : Nat) (t : VTy) (vd va vb : Nat) (s : State) : Res :=
  runIf (wfVmin u p t vd va vb) (runSlot u .V (.vmin u p t vd va vb) s)
/-- VMAX (R229). -/
def execVmax (u p : Nat) (t : VTy) (vd va vb : Nat) (s : State) : Res :=
  runIf (wfVmax u p t vd va vb) (runSlot u .V (.vmax u p t vd va vb) s)
/-- VAND (R133). -/
def execVand (u p : Nat) (t : VTy) (vd va vb : Nat) (s : State) : Res :=
  runIf (wfVand u p t vd va vb) (runSlot u .V (.vand u p t vd va vb) s)
/-- VOR (R133). -/
def execVor (u p : Nat) (t : VTy) (vd va vb : Nat) (s : State) : Res :=
  runIf (wfVor u p t vd va vb) (runSlot u .V (.vor u p t vd va vb) s)
/-- VXOR (R133). -/
def execVxor (u p : Nat) (t : VTy) (vd va vb : Nat) (s : State) : Res :=
  runIf (wfVxor u p t vd va vb) (runSlot u .V (.vxor u p t vd va vb) s)
/-- VSHL (R133). -/
def execVshl (u p : Nat) (t : VTy) (vd va vb : Nat) (s : State) : Res :=
  runIf (wfVshl u p t vd va vb) (runSlot u .V (.vshl u p t vd va vb) s)
/-- VSHR (R133). -/
def execVshr (u p : Nat) (t : VTy) (vd va vb : Nat) (arith : Bool) (s : State) : Res :=
  runIf (wfVshr u p t vd va vb arith) (runSlot u .V (.vshr u p t vd va vb arith) s)
/-- VCMP (R133). -/
def execVcmp (u p : Nat) (t : VTy) (pd : Nat) (cc : Cc) (va vb : Nat) (s : State) : Res :=
  runIf (wfVcmp u p t pd cc va vb) (runSlot u .V (.vcmp u p t pd cc va vb) s)
/-- VCMAC (R228). -/
def execVcmac (u p vd va vb : Nat) (s : State) : Res :=
  runIf (wfVcmac u p vd va vb) (runSlot u .V (.vcmac u p vd va vb) s)
/-- VCONV (R232). -/
def execVconv (u p : Nat) (t d : VTy) (vd va : Nat) (sat : Bool) (h : Nat) (s : State) : Res :=
  runIf (wfVconv u p t d vd va sat h) (runSlot u .V (.vconv u p t d vd va sat h) s)
/-- VRED (R230). -/
def execVred (u p : Nat) (t : VTy) (vd va op : Nat) (s : State) : Res :=
  runIf (wfVred u p t vd va op) (runSlot u .V (.vred u p t vd va op) s)
/-- VPERM (R231). -/
def execVperm (u p : Nat) (t : VTy) (vd va vb : Nat) (s : State) : Res :=
  runIf (wfVperm u p t vd va vb) (runSlot u .V (.vperm u p t vd va vb) s)
/-- VBCAST (R133). -/
def execVbcast (u p : Nat) (t : VTy) (vd ra : Nat) (s : State) : Res :=
  runIf (wfVbcast u p t vd ra) (runSlot u .V (.vbcast u p t vd ra) s)
/-- VEXT (R133). -/
def execVext (u p : Nat) (t : VTy) (rd va idx : Nat) (s : State) : Res :=
  runIf (wfVext u p t rd va idx) (runSlot u .V (.vext u p t rd va idx) s)
/-- VMOV (R133). -/
def execVmov (u p : Nat) (t : VTy) (vd va : Nat) (s : State) : Res :=
  runIf (wfVmov u p t vd va) (runSlot u .V (.vmov u p t vd va) s)
/-- VSPEC_SEARCH (R135). -/
def execVspecSearch (u p : Nat) (t : VTy) (vd va vb : Nat) (least accum : Bool) (s : State) : Res :=
  runIf (wfVspecSearch u p t vd va vb least accum) (runSlot u .V (.vspecSearch u p t vd va vb least accum) s)
/-- VSPEC_TAP (R136). -/
def execVspecTap (u p : Nat) (t : VTy) (vd va vb k : Nat) (s : State) : Res :=
  runIf (wfVspecTap u p t vd va vb k) (runSlot u .V (.vspecTap u p t vd va vb k) s)
/-- MM (R188). -/
def execMm (u p e dd : Nat) (s : State) : Res :=
  runIf (wfMm u p e dd) (runSlot u .M (.mm u p e dd) s)
/-- SM_OPEN (R280). -/
def execSmOpen (u p ch dd : Nat) (s : State) : Res :=
  runIf (wfSmOpen u p ch dd) (runSlot u .M (.smOpen u p ch dd) s)
/-- SM_CLOSE (R139). -/
def execSmClose (u p ch : Nat) (s : State) : Res :=
  runIf (wfSmClose u p ch) (runSlot u .M (.smClose u p ch) s)
/-- SM.RD (R138). -/
def execSmRd (u p pd vd ch : Nat) (s : State) : Res :=
  runIf (wfSmRd u p pd vd ch) (runSlot u .M (.smRd u p pd vd ch) s)
/-- SM_RDS (R138). -/
def execSmRds (u p pd rd ch : Nat) (s : State) : Res :=
  runIf (wfSmRds u p pd rd ch) (runSlot u .M (.smRds u p pd rd ch) s)
/-- SM_WR (R139). -/
def execSmWr (u p va ch : Nat) (s : State) : Res :=
  runIf (wfSmWr u p va ch) (runSlot u .M (.smWr u p va ch) s)
/-- SM_WRS (R139). -/
def execSmWrs (u p ra ch : Nat) (s : State) : Res :=
  runIf (wfSmWrs u p ra ch) (runSlot u .M (.smWrs u p ra ch) s)
/-- SM_SAVE (R299). -/
def execSmSave (u p ch dd : Nat) (s : State) : Res :=
  runIf (wfSmSave u p ch dd) (runSlot u .M (.smSave u p ch dd) s)
/-- LD_B (R141). -/
def execLdB (u p rd ra imm : Nat) (s : State) : Res :=
  runIf (wfLdB u p rd ra imm) (runSlot u .X (.ldB u p rd ra imm) s)
/-- LD_H (R141). -/
def execLdH (u p rd ra imm : Nat) (s : State) : Res :=
  runIf (wfLdH u p rd ra imm) (runSlot u .X (.ldH u p rd ra imm) s)
/-- LD_W (R141). -/
def execLdW (u p rd ra imm : Nat) (s : State) : Res :=
  runIf (wfLdW u p rd ra imm) (runSlot u .X (.ldW u p rd ra imm) s)
/-- LD_D (R141). -/
def execLdD (u p rd ra imm : Nat) (s : State) : Res :=
  runIf (wfLdD u p rd ra imm) (runSlot u .X (.ldD u p rd ra imm) s)
/-- LD_BS (R141). -/
def execLdBs (u p rd ra imm : Nat) (s : State) : Res :=
  runIf (wfLdBs u p rd ra imm) (runSlot u .X (.ldBs u p rd ra imm) s)
/-- LD_HS (R141). -/
def execLdHs (u p rd ra imm : Nat) (s : State) : Res :=
  runIf (wfLdHs u p rd ra imm) (runSlot u .X (.ldHs u p rd ra imm) s)
/-- LD_WS (R141). -/
def execLdWs (u p rd ra imm : Nat) (s : State) : Res :=
  runIf (wfLdWs u p rd ra imm) (runSlot u .X (.ldWs u p rd ra imm) s)
/-- LD_V (R141). -/
def execLdV (u p vd ra imm : Nat) (s : State) : Res :=
  runIf (wfLdV u p vd ra imm) (runSlot u .X (.ldV u p vd ra imm) s)
/-- LD_DSC (R141). -/
def execLdDsc (u p dd ra imm : Nat) (s : State) : Res :=
  runIf (wfLdDsc u p dd ra imm) (runSlot u .X (.ldDsc u p dd ra imm) s)
/-- ST_B (R141). -/
def execStB (u p rs ra imm : Nat) (s : State) : Res :=
  runIf (wfStB u p rs ra imm) (runSlot u .X (.stB u p rs ra imm) s)
/-- ST_H (R141). -/
def execStH (u p rs ra imm : Nat) (s : State) : Res :=
  runIf (wfStH u p rs ra imm) (runSlot u .X (.stH u p rs ra imm) s)
/-- ST_W (R141). -/
def execStW (u p rs ra imm : Nat) (s : State) : Res :=
  runIf (wfStW u p rs ra imm) (runSlot u .X (.stW u p rs ra imm) s)
/-- ST_D (R141). -/
def execStD (u p rs ra imm : Nat) (s : State) : Res :=
  runIf (wfStD u p rs ra imm) (runSlot u .X (.stD u p rs ra imm) s)
/-- ST_V (R141). -/
def execStV (u p vs ra imm : Nat) (s : State) : Res :=
  runIf (wfStV u p vs ra imm) (runSlot u .X (.stV u p vs ra imm) s)
/-- ST_DSC (R141). -/
def execStDsc (u p ds ra imm : Nat) (s : State) : Res :=
  runIf (wfStDsc u p ds ra imm) (runSlot u .X (.stDsc u p ds ra imm) s)
/-- SYNC_ADD (R140). -/
def execSyncAdd (u p rd ra rb : Nat) (s : State) : Res :=
  runIf (wfSyncAdd u p rd ra rb) (runSlot u .X (.syncAdd u p rd ra rb) s)
/-- SYNC_SET (R140). -/
def execSyncSet (u p rd ra rb : Nat) (s : State) : Res :=
  runIf (wfSyncSet u p rd ra rb) (runSlot u .X (.syncSet u p rd ra rb) s)
/-- SYNC_WAIT (R358). -/
def execSyncWait (u p rd ra rb : Nat) (s : State) : Res :=
  runIf (wfSyncWait u p rd ra rb) (runSlot u .X (.syncWait u p rd ra rb) s)
/-- SYNC_TEST (R140). -/
def execSyncTest (u p pd ra rb : Nat) (s : State) : Res :=
  runIf (wfSyncTest u p pd ra rb) (runSlot u .X (.syncTest u p pd ra rb) s)
/-- LOCK_ACQ (R362). -/
def execLockAcq (u p rd ra : Nat) (s : State) : Res :=
  runIf (wfLockAcq u p rd ra) (runSlot u .X (.lockAcq u p rd ra) s)
/-- LOCK_REL (R365). -/
def execLockRel (u p ra : Nat) (s : State) : Res :=
  runIf (wfLockRel u p ra) (runSlot u .X (.lockRel u p ra) s)
/-- MBX_SEND (R368). -/
def execMbxSend (u p rd ra rb : Nat) (s : State) : Res :=
  runIf (wfMbxSend u p rd ra rb) (runSlot u .X (.mbxSend u p rd ra rb) s)
/-- MBX_WDRAW (R368). -/
def execMbxWdraw (u p rd ra : Nat) (s : State) : Res :=
  runIf (wfMbxWdraw u p rd ra) (runSlot u .X (.mbxWdraw u p rd ra) s)
/-- Q_SUBMIT (R374). -/
def execQSubmit (u p rd ra vb : Nat) (s : State) : Res :=
  runIf (wfQSubmit u p rd ra vb) (runSlot u .X (.qSubmit u p rd ra vb) s)
/-- Q_TAKE (R375). -/
def execQTake (u p pd vd ra : Nat) (s : State) : Res :=
  runIf (wfQTake u p pd vd ra) (runSlot u .X (.qTake u p pd vd ra) s)
/-- EVT_WAIT (R115). -/
def execEvtWait (u p : Nat) (s : State) : Res :=
  runIf (wfEvtWait u p) (runSlot u .X (.evtWait u p) s)
/-- EVT_SEND (R140). -/
def execEvtSend (u p ctx : Nat) (s : State) : Res :=
  runIf (wfEvtSend u p ctx) (runSlot u .X (.evtSend u p ctx) s)
/-- GLINT_WAIT_NEXT (R53). -/
def execGlintWaitNext (u p : Nat) (s : State) : Res :=
  runIf (wfGlintWaitNext u p) (runSlot u .X (.glintWaitNext u p) s)
/-- GLINT_WAIT_ALIGN (R54). -/
def execGlintWaitAlign (u p : Nat) (s : State) : Res :=
  runIf (wfGlintWaitAlign u p) (runSlot u .X (.glintWaitAlign u p) s)
/-- BOUNDARY (R109). -/
def execBoundary (u p : Nat) (s : State) : Res :=
  runIf (wfBoundary u p) (runSlot u .X (.boundary u p) s)
/-- HALT (R140). -/
def execHalt (u p : Nat) (s : State) : Res :=
  runIf (wfHalt u p) (runSlot u .X (.halt u p) s)
/-- FP_RD (R145). -/
def execFpRd (u p rd port : Nat) (s : State) : Res :=
  runIf (wfFpRd u p rd port) (runSlot u .X (.fpRd u p rd port) s)
/-- FP_WR (R415). -/
def execFpWr (u p ra port : Nat) (s : State) : Res :=
  runIf (wfFpWr u p ra port) (runSlot u .X (.fpWr u p ra port) s)
/-- FP_FLUSH (R416). -/
def execFpFlush (u p port : Nat) (s : State) : Res :=
  runIf (wfFpFlush u p port) (runSlot u .X (.fpFlush u p port) s)
/-- FP_MARK (R415). -/
def execFpMark (u p port imm : Nat) (s : State) : Res :=
  runIf (wfFpMark u p port imm) (runSlot u .X (.fpMark u p port imm) s)
/-- SV_PRST (R90). -/
def execSvPrst (u p ra : Nat) (s : State) : Res :=
  runIf (wfSvPrst u p ra) (runSlot u .X (.svPrst u p ra) s)
/-- SV_SRES (R291). -/
def execSvSres (u p ra rb : Nat) (s : State) : Res :=
  runIf (wfSvSres u p ra rb) (runSlot u .X (.svSres u p ra rb) s)
/-- SV_PSW (R140). -/
def execSvPsw (u p ra vb : Nat) (s : State) : Res :=
  runIf (wfSvPsw u p ra vb) (runSlot u .X (.svPsw u p ra vb) s)

end Sys2Proof.Machine
end

