-- ==== Sys2Proof/Machine/McOps.lean ====
section
/-!
DEFINITION. The management protocol and the commands of the MC (chapter 19). A requester is 0 the side-band, 1 host A, 2 host B.
-/
namespace Sys2Proof.Machine
open Sys2Proof

/-! ### Requests and answers (R523–R525) -/

def mcState (s : State) : Nat := fld s MC_STATUS MC_STATUS_STATE
/-- The MC firmware runs. -/
def mcRuns (s : State) : Bool := s.mc.pwrGood && decide (mcState s = 1)
/-- The requester's source ID (R39). -/
def requester (q : Nat) : Nat := if q = 0 then 4 else q
/-- Somebody answers: the running MC, a host by its port's DOE mailbox once that can be configured (R463, R466), or the mask ROM in
recovery its three commands on the side-band (R513). -/
def mcAnswers (s : State) (q code : Nat) : Bool :=
  (mcRuns s && (decide (q = 0) || flag s (HOSTIF_PORT_STATUS (q - 1)) HOSTIF_PORT_STATUS_CFG_READY)) || (s.mc.pwrGood && decide (mcState s = 2) && decide (q = 0) && [0x01, 0x10, 0x20].contains code)
/-- The columns of R524. -/
def mcPermits (s : State) (q code : Nat) : Bool :=
  if q = 0 then true
  else if ownerCode s = q then !(decide (0x10 ≤ code) && decide (code ≤ 0x13))
  else if standbyCode s = q then [0x01, 0x02, 0x03, 0x40].contains code
  else false
def mgmtAnswer (q code tag status : Nat) (body : List Byte) (s : State) : State :=
  emit (.mgmt (requester q) (code + 0x80) tag status body) s
/-- A command of codes 0x20–0x40 runs (R525). -/
def mgmtBusy (s : State) : Bool := s.mc.busy || s.mc.ccSwitch
/-- A request: `ok` says that its body is well formed, `go` carries it out and gives status and body of the answer. A command that
has not ended has no answer yet. -/
def mgmt (q tag code : Nat) (body : List Byte) (ok : Bool) (go : State → (Nat × List Byte) × State) (s : State) : State :=
  if !mcAnswers s q code then s
  else if !mcPermits s q code then mgmtAnswer q code tag 0x0A07 [] s
  else if (if q = 0 then 1024 else 4096) < body.length || !ok then mgmtAnswer q code tag 0x0A0D [] s
  else if 0x20 ≤ code && mgmtBusy s then mgmtAnswer q code tag 0x0A06 [] s
  else
    let r := go s
    if 0x20 ≤ code && r.2.mc.busy then r.2 else mgmtAnswer q code tag r.1.1 r.1.2 r.2
/-- A status without a body. -/
def said (code : Nat) (s : State) : (Nat × List Byte) × State := ((code, []), s)
/-- The command is carried out. -/
def done (f : State → State) (s : State) : (Nat × List Byte) × State := said 0 (f s)

def wordBytes (v : W64) : List Byte := leBytes 8 v.toNat

/-! ### What a restart and a switch do (R366, R510, R532, R533) -/

/-- The MC is reset: locks that it held are abandoned, and its firmware runs again at the next heartbeat (log 119). -/
def restartMc (s : State) : State := romMc (abandonLocks (fun src => decide (src = 3)) s)
/-- A restart ends: the firmware runs, and logs a watchdog expiry (R510). -/
def endRestart (s : State) : State :=
  if s.mc.pwrGood && decide (mcState s = 3) then
    let t := runMc s
    if s.mc.expired then logErr 0x0A04 0x03 none 0 (setMc (fun m => { m with expired := false }) t) else t
  else s
def anyPlot (s : State) : Bool := (List.range 64).any (plotValid s)
/-- CC_SWITCH: at once when no plot is committed, otherwise at the next epoch; in device reset the release takes the copy. -/
def ccSwitch (s : State) : State :=
  if s.mc.held then s
  else if anyPlot s then setMc (fun m => { m with ccSwitch := true }) s else ccSwitchNow s
/-- A device reset that the MC commands (R545, R548). -/
def resetCompute (s : State) : State := setMc (fun m => { m with compOff := false }) (deviceReset (saveBoost s))

/-! ### Identity and attestation (R519, R524, R526, R527) -/

/-- The body that GET_INFO answers, in the order of R524 (DESIGN CHOICE, log 70). -/
def infoBody (s : State) : List Byte :=
  wordBytes (rget s GLB_SERIAL) ++ leBytes 1 (fld s GLB_ID GLB_ID_GRADE) ++ leBytes 1 (fld s GLB_ID GLB_ID_STEPPING) ++
  wordBytes (rget s MC_FW) ++ wordBytes (rget s CC_FW) ++ leBytes 4 (rget s SEC_STATE).toNat ++ wordBytes (rget s MEAS_GEN)
/-- Part of the chain of three certificates. -/
def certPart (s : State) (o n : Nat) : (Nat × List Byte) × State :=
  if 864 < o + n then said 0x0A0D s else ((0, flashRun s (0x1C00000 + o) n), s)
/-- A measurement index of the table of R526, and its KIND. -/
def measKind (i : Nat) : Option Nat :=
  if i ≤ 1 then some 0 else if i = 2 then some 1 else if i = 3 then some 2
  else if 16 ≤ i ∧ i ≤ 31 then some 3 else if 32 ≤ i ∧ i ≤ 95 then some 4 else none
def measRecord (s : State) (i : Nat) : List Byte :=
  let m := mget (0, 0) s.mc.meas i
  leBytes 2 i ++ leBytes 1 ((measKind i).getD 0) ++ leBytes 5 0 ++ wordBytes m.1 ++ leBytes 48 m.2.toNat
/-- The indices of a MASK. -/
def maskBits (m : Nat) : List Nat := (List.range 128).filter (Nat.testBit m)
/-- Indices that a mask may select, and how many (R527). -/
def maskOk (q m : Nat) : Bool :=
  (maskBits m).all (fun i => (measKind i).isSome) && decide ((maskBits m).length ≤ if q = 0 then 13 else 61)
/-- GET_MEASUREMENTS: one snapshot, signed with the identity key. -/
def measurements (tag : Nat) (body : List Byte) (s : State) : (Nat × List Byte) × State :=
  if flag s MC_STATUS MC_STATUS_ID_KEY then
    let is := maskBits (fieldAt body 32 16)
    let out := wordBytes (rget s MEAS_GEN) ++ wordBytes (rget s GLB_SERIAL) ++ bytesAt body 0 32 ++ leBytes 2 is.length ++
      leBytes 6 0 ++ is.flatMap (measRecord s)
    let hdr := leBytes 1 1 ++ leBytes 1 0x83 ++ leBytes 2 tag ++ leBytes 2 0 ++ leBytes 2 (out.length + 96)
    ((0, out ++ (Config.sign (Config.sha384 (body ++ hdr ++ out))).take 96), s)
  else said 0x0A05 s

/-! ### Staging and commands by proxy (R524) -/

/-- STAGE_WRITE at staging offset `o`; in recovery it goes into the stale MC copy, whose sequence field is erased (R513). -/
def stageWrite (o : Nat) (data : List Byte) (s : State) : (Nat × List Byte) × State :=
  if mcState s = 2 then
    let b := copyBase 0 (1 - s.mc.mcCopy)
    if copySize 0 - 4096 < o + data.length then said 0x0A0D s
    else said 0 (flashStore (b + 4096 + o) data (flashErase b 8 s))
  else if stageBytes s < o + data.length then said 0x0A0D s
  else if stageLocked s (stageBase s + o) then said 0x0713 (stageRefuse s)
  else if !flag s LMC_STATUS LMC_STATUS_INIT_DONE then
    said 0x060C (logErr 0x060C (lmcSrc (lpDevCh (stageBase s + o))) none 0 s)
  else said 0 (dramWriteAll (stageBase s + o) data s)
/-- LOAD_CMD: LOAD_AT first, then the command. -/
def loadCmd (ctrl : Nat) (at_ : W64) (s : State) : (Nat × List Byte) × State :=
  done (fun s => loadCommand 4 (ctrl % 8) (ctrl / 8 % 64) (rset s LOAD_AT at_)) s
/-- MBX_OP: 1 send, 2 claim, 3 free, 4 withdraw; a claim answers header and body (log 70). -/
def mbxOp (body : List Byte) (s : State) : (Nat × List Byte) × State :=
  let j := fieldAt body 0 4
  match fieldAt body 4 4 with
  | 1 =>
    let r := mbxSend j 4 (fieldAt body 8 4) (body.drop 12) s
    said r.1 r.2
  | 2 =>
    if isReceiver s j .sideBand then
      let r := mbxClaim j s
      if r.1 = 0 then
        ((0, wordBytes (rget r.2 (MBX_HDR j)) ++
          ((List.range 60).flatMap fun i => wordBytes (rget r.2 (mbxBodyWord j i))).take (fld r.2 (MBX_HDR j) MBX_HDR_LEN)), r.2)
      else said r.1 r.2
    else said 0x0A07 s
  | 3 => if isReceiver s j .sideBand && decide (mbxState s j = 3) then said 0 (setMbx j 0 s) else said 0x0503 s
  | _ =>
    let r := mbxWdraw j 4 s
    said r.1 r.2
/-- The body of MBX_OP is well formed. -/
def mbxBodyOk (body : List Byte) : Bool :=
  decide (8 ≤ body.length) && decide (fieldAt body 0 4 < 64) &&
  (match fieldAt body 4 4 with
   | 1 => decide (12 ≤ body.length) && decide (body.length ≤ 492) && decide (fieldAt body 8 4 < 32)
   | 2 => decide (body.length = 8)
   | 3 => decide (body.length = 8)
   | 4 => decide (body.length = 8)
   | _ => false)
def sideRead (o : Nat) (s : State) : (Nat × List Byte) × State :=
  let r := csrRead .sideBand o 8 s
  ((0, wordBytes r.1), r.2)

/-! ### Firmware updates (R460, R513, R531, R534) -/

/-- The stale copy is erased and takes the image; it is verified as read back, and as the last write takes its sequence number.
`cut`: the update has written so many bytes and goes on, its sequence field erased, until a restart ends it (log 119); `good`: no
byte of the image was read as poisoned. -/
def writeCopy (t : Nat) (img : List Byte) (good : Bool) (seq : Nat) (cut : Option Nat) (s : State) : (Nat × List Byte) × State :=
  let c := 1 - runningCopy s t
  let b := copyBase t c
  let s := flashErase b (copySize t) s
  match cut with
  | some n => done (setMc fun m => { m with busy := true }) (flashStore (b + 4096) (img.take n) s)
  | none =>
    let s := flashStore (b + 4096) img s
    if good && fwOk s t (copyImage s t c) then said 0 (showFw t (flashStore b (leBytes 8 seq) s)) else said 0x0A09 s
/-- FW_UPDATE while the MC firmware runs: the image is at a staging offset. -/
def updateFrom (t o n : Nat) (cut : Option Nat) (s : State) : (Nat × List Byte) × State :=
  if stageBytes s < o + n ∨ copySize t - 4096 < n ∨ n < 384 then said 0x0A0D s
  else if !flag s LMC_STATUS LMC_STATUS_INIT_DONE then said 0x060C s
  else
    let img := dramRead s (stageBase s + o) n
    if fieldAt img 16 1 < svnFloor s t then said 0x0A0A s
    else writeCopy t img (dramBadWords s (stageBase s + o) n).isEmpty (copySeq s t (runningCopy s t) + 1) cut s
/-- FW_UPDATE in recovery: the stale MC copy that STAGE_WRITE has written is verified, numbered and booted. -/
def updateRecovery (s : State) : (Nat × List Byte) × State :=
  let c := 1 - s.mc.mcCopy
  let img := copyImage s 0 c
  if fieldAt img 16 1 < svnFloor s 0 then said 0x0A0A s
  else if fwOk s 0 img then
    done bootMc (flashStore (copyBase 0 c) (leBytes 8 ((copySeq s 0 s.mc.mcCopy + 1) % 2 ^ 64)) s)
  else said 0x0A09 s
def fwUpdate (body : List Byte) (cut : Option Nat) (s : State) : (Nat × List Byte) × State :=
  let t := fieldAt body 0 4
  if mcState s = 2 then (if t = 0 then updateRecovery s else said 0x0A0D s)
  else updateFrom t (fieldAt body 4 8) (fieldAt body 12 8) cut s
/-- FW_COMMIT_SVN: the target's counter rises to the SVN of the running copy. -/
def commitSvn (t : Nat) (s : State) : (Nat × List Byte) × State :=
  let v := fld s (if t = 0 then MC_FW else CC_FW) MC_FW_SVN
  if 63 < v then said 0x0A0C s
  else if v ≤ svnFloor s t then said 0 s
  else
    let s := setMc (fun m => if t = 0 then { m with mcCtr := v } else { m with ccCtr := v }) s
    done securityState (showFw t s)

/-! ### Vendor-signed commands (R518, R528–R530) -/

def ownerCnt (s : State) (op : Nat) : Nat := if op = 3 then s.mc.ownerCtr else s.mc.ownerCtr + 1
/-- SET_OWNER and CLEAR_OWNER: the record, the counter, the registers. -/
def ownerRecord (cmd : List Byte) (s : State) : State :=
  let c := match recordCopy s with
    | some c => 1 - c
    | none => 0
  let s := flashStore (0x1C20000 + c * 0x8000) cmd s
  securityState (setMc (fun m => { m with ownerCtr := m.ownerCtr + 1 }) s)
/-- A vendor-signed command with OP `op`. -/
def vendorSigned (op : Nat) (cmd : List Byte) (s : State) : (Nat × List Byte) × State :=
  if !(signedOk cmd && decide (fieldAt cmd 4 1 = op) && decide (fieldAt cmd 16 4 = ownerCnt s op)) then said 0x0A08 s
  else if op = 3 then done securityState (setFld s SEC_STATE SEC_STATE_DEBUG_UNLOCK 1)
  else if 32 ≤ s.mc.ownerCtr then said 0x0A0C s
  else if 1 ≤ loadState s ∧ loadState s ≤ 5 then said 0x0A06 s
  else done (ownerRecord cmd) s

/-! ### PLDM sensors and effecters (R521, R522) -/

/-- Sensors 1–5 from the latest telemetry sample (R555). -/
def numericSensor (s : State) (id : Nat) : Option Int :=
  let w (i : Nat) : W64 := mget 0 s.pwr.sample i
  match id with
  | 1 => some (sgn 16 (bitsOf (w 4) 8 16) / 16)
  | 2 => some (bitsOf (w 3) 16 16)
  | 3 => some (bitsOf (w 3) 0 16)
  | 4 => some (bitsOf (w 64) 0 16 / 10)
  | 5 => some (bitsOf (w 3) 32 16)
  | _ => none
/-- Sensors 6–8. -/
def stateSensor (s : State) (id : Nat) : Nat :=
  match id with
  | 6 => if s.mc.held || s.mc.compOff then 1 else if flag s MC_STATUS MC_STATUS_CC_RUNNING then 2 else 3
  | 7 => if flag s GLB_STATUS GLB_STATUS_DEV_LIVE then 2 else 1
  | _ => if s.mc.fatalNew then 2 else 1
/-- SB_LIMIT (R538), by effecter 1. -/
def setSbLimit (v : Nat) (s : State) : State :=
  if 600 ≤ v ∧ v ≤ 1600 then setFld s PWR_LIMIT PWR_LIMIT_SB_LIMIT v
  else logErr 0x0B07 0x25 none 0 (setFld s PWR_EVENTS PWR_EVENTS_CFG_INVALID 1)
/-- A message of kind `k` (0 MCTP control, 1 PLDM) is answered while the MC runs. -/
def sideSays (k cmd : Nat) (body : List Byte) (s : State) : State := if mcRuns s then emit (.sideBand k cmd body) s else s

end Sys2Proof.Machine
end

