-- ==== Sys2Proof/Machine/McRows.lean ====
section
/-!
DEFINITION. The rows of the management controller, the side-band port and JTAG (chapter 19). Bodies of MCTP control and PLDM
answers hold their values; their framing is the standards' (log 71).
-/
namespace Sys2Proof.Machine
open Sys2Proof

/-! ### Watchdog and heartbeat (R510, R511) -/

/-- MC_WATCHDOG. -/
def execMcWatchdog (s : State) : Res :=
  runIf wfMcWatchdog
    (if mcRuns s then
      restartMc (setMc (fun m => { m with expired := true }) (bumpFld s MC_STATUS MC_STATUS_WD_RESETS 1))
     else s)
/-- MC_HEARTBEAT: the first one after a restart shows that the firmware runs again. -/
def execMcHeartbeat (s : State) : Res :=
  runIf wfMcHeartbeat
    (let t := endRestart s
     if mcRuns t then showLive (setMc (fun m => { m with hbAt := some s.now }) (bumpFld t MC_STATUS MC_STATUS_HB 1)) else t)
/-- DEV_LIVE_DROP: 500 ms after the last heartbeat. -/
def execDevLiveDrop (s : State) : Res :=
  runIf wfDevLiveDrop
    (if flag s GLB_STATUS GLB_STATUS_DEV_LIVE then
      match s.mc.hbAt with
      | some t => showLive (if s.now < t + 5000000000 then { s with now := t + 5000000000 } else s)
      | none => showLive s
     else s)

/-! ### The management protocol (R524) -/

/-- GET_INFO. -/
def execGetInfo (q tag : Nat) (body : List Byte) (s : State) : Res :=
  runIf (wfGetInfo q tag body) (mgmt q tag 0x01 body body.isEmpty (fun s => ((0, infoBody s), s)) s)
/-- GET_CERTS (R519). -/
def execGetCerts (q tag : Nat) (body : List Byte) (s : State) : Res :=
  runIf (wfGetCerts q tag body)
    (mgmt q tag 0x02 body (decide (body.length = 8)) (certPart · (fieldAt body 0 4) (fieldAt body 4 4)) s)
/-- GET_MEASUREMENTS (R527). -/
def execGetMeasurements (q tag : Nat) (body : List Byte) (s : State) : Res :=
  runIf (wfGetMeasurements q tag body)
    (mgmt q tag 0x03 body (decide (body.length = 48) && maskOk q (fieldAt body 32 16)) (measurements tag body) s)
/-- STAGE_WRITE (R435, R513). -/
def execStageWrite (q tag : Nat) (body : List Byte) (s : State) : Res :=
  runIf (wfStageWrite q tag body)
    (mgmt q tag 0x10 body (decide (8 ≤ body.length ∧ body.length ≤ 1016)) (stageWrite (fieldAt body 0 8) (body.drop 8)) s)
/-- LOAD_CMD (R433). -/
def execLoadCmd (q tag : Nat) (body : List Byte) (s : State) : Res :=
  runIf (wfLoadCmd q tag body)
    (mgmt q tag 0x11 body (decide (body.length = 12)) (loadCmd (fieldAt body 0 4) (BitVec.ofNat 64 (fieldAt body 4 8))) s)
/-- MBX_OP (R367). -/
def execMbxOp (q tag : Nat) (body : List Byte) (s : State) : Res :=
  runIf (wfMbxOp q tag body) (mgmt q tag 0x12 body (mbxBodyOk body) (mbxOp body) s)
/-- CSR_READ. -/
def execCsrRead (q tag : Nat) (body : List Byte) (s : State) : Res :=
  runIf (wfCsrRead q tag body)
    (mgmt q tag 0x13 body (decide (body.length = 8 ∧ fieldAt body 0 8 % 8 = 0 ∧ fieldAt body 0 8 < 2 ^ 28))
      (sideRead (fieldAt body 0 8)) s)
/-- FW_UPDATE (R460, R531). -/
def execFwUpdate (q tag : Nat) (body : List Byte) (cut : Option Nat) (s : State) : Res :=
  runIf (wfFwUpdate q tag body cut)
    (mgmt q tag 0x20 body (decide (body.length = 20 ∧ fieldAt body 0 4 ≤ 1)) (fwUpdate body cut) s)
/-- FW_COMMIT_SVN (R534). -/
def execFwCommitSvn (q tag : Nat) (body : List Byte) (s : State) : Res :=
  runIf (wfFwCommitSvn q tag body)
    (mgmt q tag 0x21 body (decide (body.length = 4 ∧ fieldAt body 0 4 ≤ 1)) (commitSvn (fieldAt body 0 4)) s)
/-- CC_SWITCH (R533). -/
def execCcSwitch (q tag : Nat) (body : List Byte) (s : State) : Res :=
  runIf (wfCcSwitch q tag body) (mgmt q tag 0x22 body body.isEmpty (done ccSwitch) s)
/-- RESET_COMPUTE. -/
def execResetCompute (q tag : Nat) (body : List Byte) (s : State) : Res :=
  runIf (wfResetCompute q tag body) (mgmt q tag 0x30 body body.isEmpty (done resetCompute) s)
/-- MC_RESTART (R532). -/
def execMcRestart (q tag : Nat) (body : List Byte) (s : State) : Res :=
  runIf (wfMcRestart q tag body) (mgmt q tag 0x31 body body.isEmpty (done restartMc) s)
/-- SET_OWNER (R528, R529). -/
def execSetOwner (q tag : Nat) (body : List Byte) (s : State) : Res :=
  runIf (wfSetOwner q tag body) (mgmt q tag 0x40 body (decide (body.length = 384)) (vendorSigned 1 body) s)
/-- CLEAR_OWNER (R528, R529). -/
def execClearOwner (q tag : Nat) (body : List Byte) (s : State) : Res :=
  runIf (wfClearOwner q tag body) (mgmt q tag 0x40 body (decide (body.length = 384)) (vendorSigned 2 body) s)
/-- DEBUG_UNLOCK (R530). -/
def execDebugUnlock (q tag : Nat) (body : List Byte) (s : State) : Res :=
  runIf (wfDebugUnlock q tag body) (mgmt q tag 0x40 body (decide (body.length = 384)) (vendorSigned 3 body) s)

/-! ### MCTP control and PLDM (R521, R522) -/

/-- SET_ENDPOINT_ID: 0 and 255 are no endpoint (PRESUMED, log 71). -/
def execSetEndpointId (eid : Nat) (s : State) : Res :=
  runIf (wfSetEndpointId eid)
    (sideSays 0 1 (leBytes 1 eid) (if mcRuns s && decide (eid ≠ 0 ∧ eid ≠ 255) then setMc (fun m => { m with eid := eid }) s else s))
/-- GET_ENDPOINT_ID. -/
def execGetEndpointId (s : State) : Res := runIf wfGetEndpointId (sideSays 0 2 (leBytes 1 s.mc.eid) s)
/-- GET_MCTP_VERSION_SUPPORT. -/
def execGetMctpVersionSupport (s : State) : Res :=
  runIf wfGetMctpVersionSupport (sideSays 0 4 (Config.standardAnswer 0 4) s)
/-- GET_MESSAGE_TYPE_SUPPORT: MCTP control, PLDM, vendor-defined PCI. -/
def execGetMessageTypeSupport (s : State) : Res := runIf wfGetMessageTypeSupport (sideSays 0 5 [0x00, 0x01, 0x7E] s)
/-- GET_VENDOR_DEFINED_MESSAGE_SUPPORT: vendor 0x1FB3. -/
def execGetVendorDefinedMessageSupport (s : State) : Res :=
  runIf wfGetVendorDefinedMessageSupport (sideSays 0 6 (leBytes 2 0x1FB3) s)
/-- GET_TID. -/
def execGetTid (s : State) : Res := runIf wfGetTid (sideSays 1 2 (leBytes 1 s.mc.tid) s)
/-- SET_TID: 0 and 255 are no terminus (PRESUMED, log 71). -/
def execSetTid (tid : Nat) (s : State) : Res :=
  runIf (wfSetTid tid)
    (sideSays 1 1 [] (if mcRuns s && decide (tid ≠ 0 ∧ tid ≠ 255) then setMc (fun m => { m with tid := tid }) s else s))
/-- GET_PLDM_VERSION. -/
def execGetPldmVersion (s : State) : Res := runIf wfGetPldmVersion (sideSays 1 3 (Config.standardAnswer 1 3) s)
/-- GET_PLDM_TYPES. -/
def execGetPldmTypes (s : State) : Res := runIf wfGetPldmTypes (sideSays 1 4 (Config.standardAnswer 1 4) s)
/-- GET_PLDM_COMMANDS. -/
def execGetPldmCommands (s : State) : Res := runIf wfGetPldmCommands (sideSays 1 5 (Config.standardAnswer 1 5) s)
/-- GET_PDR: record `h` of the repository. -/
def execGetPdr (h : Nat) (s : State) : Res := runIf (wfGetPdr h) (sideSays 1 0x251 (Config.standardAnswer 0x251 h) s)
/-- GET_SENSOR_READING (R555): a reading, or nothing for a sensor that is not numeric. -/
def execGetSensorReading (id : Nat) (s : State) : Res :=
  runIf (wfGetSensorReading id)
    (sideSays 1 0x211 ((numericSensor s id).elim [] fun v => leBytes 4 (narrow 32 v)) s)
/-- GET_STATE_SENSOR_READINGS: a reading of sensor 8 forgets the fatal entries up to it. -/
def execGetStateSensorReadings (id : Nat) (s : State) : Res :=
  runIf (wfGetStateSensorReadings id)
    (if !mcRuns s then s
     else
       let s := sideSays 1 0x221 (leBytes 1 (stateSensor s id)) s
       if id = 8 then setMc (fun m => { m with fatalNew := false }) s else s)
/-- GET_NUMERIC_EFFECTER_VALUE: effecter 1. -/
def execGetNumericEffecterValue (s : State) : Res :=
  runIf wfGetNumericEffecterValue (sideSays 1 0x232 (leBytes 4 (fld s PWR_LIMIT PWR_LIMIT_SB_LIMIT)) s)
/-- SET_NUMERIC_EFFECTER_VALUE (R538): effecter 1. -/
def execSetNumericEffecterValue (v : Nat) (s : State) : Res :=
  runIf (wfSetNumericEffecterValue v) (if mcRuns s then sideSays 1 0x231 [] (setSbLimit v s) else s)
/-- SET_STATE_EFFECTER_STATES (R524, R525): effecter 2, a device reset; it waits for no other command, and none runs. -/
def execSetStateEffecterStates (st : Nat) (s : State) : Res :=
  runIf (wfSetStateEffecterStates st)
    (if mcRuns s then sideSays 1 0x239 [] (if st = 2 then resetCompute s else s) else s)
/-- SET_EVENT_RECEIVER. -/
def execSetEventReceiver (a : Nat) (s : State) : Res :=
  runIf (wfSetEventReceiver a) (if mcRuns s then sideSays 1 0x204 [] (setMc (fun m => { m with eventRx := some a }) s) else s)
/-- STATE_SENSOR_EVENT: sensor 6, 7 or 8 has changed since it was last reported. -/
def execStateSensorEvent (id : Nat) (s : State) : Res :=
  runIf (wfStateSensorEvent id)
    (let v := stateSensor s id
     if !mcRuns s || decide (mget 1 s.mc.shown id = v) then s
     else
       let t := setMc (fun m => { m with shown := mset 1 m.shown id v }) s
       if s.mc.eventRx.isSome then emit (.sideBand 2 0x20A (leBytes 1 id ++ leBytes 1 v)) t else t)
/-- SIDEBAND_ERROR (R521): logged at most once per second. -/
def execSidebandError (s : State) : Res :=
  runIf wfSidebandError
    (if !(s.mc.pwrGood && [1, 2].contains (mcState s)) then s
     else
       let t := setMc (fun m => { m with pecErrs := m.pecErrs + 1 }) s
       if s.mc.pecLogAt.any (fun a => decide (s.now < a + sec10)) then t
       else logErr 0x0A0B 0x03 none 0 (setMc (fun m => { m with pecLogAt := some s.now }) t))

/-! ### JTAG (R521, R522) -/

/-- JTAG takes an instruction. -/
def jtagTake (n : Nat) (s : State) : State := setMc (fun m => { m with jtag := n }) s
/-- The instruction in force: EXTEST, CLAMP and HIGHZ act as BYPASS but in device reset (R522). -/
def jtagInForce (s : State) : Nat := if 2 ≤ s.mc.jtag && !s.mc.held then 0 else s.mc.jtag
/-- BYPASS. -/
def execBypass (s : State) : Res := runIf wfBypass (jtagTake 0 s)
/-- SAMPLE/PRELOAD: the boundary register takes what is shifted in. -/
def execSamplePreload (v : Nat) (s : State) : Res := runIf (wfSamplePreload v) (setMc (fun m => { m with jtag := 1, boundary := v }) s)
/-- EXTEST. -/
def execExtest (s : State) : Res := runIf wfExtest (jtagTake 2 s)
/-- CLAMP. -/
def execClamp (s : State) : Res := runIf wfClamp (jtagTake 3 s)
/-- HIGHZ. -/
def execHighz (s : State) : Res := runIf wfHighz (jtagTake 4 s)

/-! ### DOE (R463) -/

/-- DOE_DISCOVERY on port `p`: index 0 is discovery itself (PRESUMED, log 71), index 1 the attestation protocol. -/
def execDoeDiscovery (p i : Nat) (s : State) : Res :=
  runIf (wfDoeDiscovery p i)
    (if !flag s (HOSTIF_PORT_STATUS p) HOSTIF_PORT_STATUS_CFG_READY then s
     else match i with
       | 0 => emit (.doe p 0x0001 0 1) s
       | 1 => emit (.doe p 0x1FB3 1 0) s
       | _ => emit (.doe p 0xFFFF 0 0) s)

end Sys2Proof.Machine
end

