-- ==== Sys2Proof/Machine/WakeRows.lean ====
section
/-!
DEFINITION. The wake of a gated block (R345): what its router's wake buffers hold is delivered.
-/
namespace Sys2Proof.Machine
open Sys2Proof

/-- A management access that was held reaches its core's page. -/
def deliverMgmt (g : Mgmt) (s : State) : State :=
  match g.v with
  | some v => if g.n = 0 then regWrite g.m g.o v v s else csrWrite g.m g.o g.n v s
  | none => answerRead g.m g.o g.n s
/-- BLOCK_WAKE_COMPLETE (R345). -/
def execBlockWakeComplete (b : Nat) (s : State) : Res :=
  runIf (wfBlockWakeComplete b)
    (let hs := s.pwr.heldPkts.filter fun h => decide (h.block = b)
     if !blockGated s b || hs.isEmpty then s
     else
       let s := bumpCtr 38 1 (setPwr (fun w => { w with
         gated := mset false w.gated b false, pktAt := mset 0 w.pktAt b (paceTime s) }) s)
       hs.foldl (fun s h => match h.mgmt with
         | some g => deliverMgmt g (unhold h s)
         | none => deliverHeld s h) s)

end Sys2Proof.Machine
end

