-- ==== Sys2Proof/Machine/AllMeanings.lean ====
section
/-!
DEFINITION. Every family of meanings, for the dispatch.
-/
end

