-- ==== Sys2Proof/Machine/Dispatch.lean ====
section
/-!
DEFINITION. One arm per command: its meaning, or a rejection by name.
-/
namespace Sys2Proof.Machine
open Sys2Proof

def exec (i : Instr) (s : State) : Host.Outcome State Fault Refusal :=
  match i with
  | .coldReset => Sys2Proof.Machine.execColdReset s
  | .pwrGoodRise => Sys2Proof.Machine.execPwrGoodRise s
  | .vinLoss v us => Sys2Proof.Machine.execVinLoss v us s
  | .devResetNPulse ns => Sys2Proof.Machine.execDevResetNPulse ns s
  | .deviceResetRelease f => Sys2Proof.Machine.execDeviceResetRelease f s
  | .computeUp => Sys2Proof.Machine.execComputeUp s
  | .cyrefMissing => Sys2Proof.Machine.execCyrefMissing s
  | .cyrefAppear f => Sys2Proof.Machine.execCyrefAppear f s
  | .vccioApplied r level strap => Sys2Proof.Machine.execVccioApplied r level strap s
  | .bankSupplyLost r => Sys2Proof.Machine.execBankSupplyLost r s
  | .cablePresentChange p on => Sys2Proof.Machine.execCablePresentChange p on s
  | .csrWrite m o n v => Sys2Proof.Machine.execCsrWrite m o n v s
  | .readClearCounter m o n => Sys2Proof.Machine.execReadClearCounter m o n s
  | .hourglassUpdate rs => Sys2Proof.Machine.execHourglassUpdate rs s
  | .hgCalDone => Sys2Proof.Machine.execHgCalDone s
  | .paceCfgWrite m v => Sys2Proof.Machine.execPaceCfgWrite m v s
  | .pacePeriodWrite m v => Sys2Proof.Machine.execPacePeriodWrite m v s
  | .paceFloorTargetWrite m v => Sys2Proof.Machine.execPaceFloorTargetWrite m v s
  | .paceOvrBaseWrite m v => Sys2Proof.Machine.execPaceOvrBaseWrite m v s
  | .paceInEdge high ts hold => Sys2Proof.Machine.execPaceInEdge high ts hold s
  | .paceSourceLost => Sys2Proof.Machine.execPaceSourceLost s
  | .glintFire => Sys2Proof.Machine.execGlintFire s
  | .paceMarkerReceive p k => Sys2Proof.Machine.execPaceMarkerReceive p k s
  | .keepAliveSend => Sys2Proof.Machine.execKeepAliveSend s
  | .keepAliveReceive p k => Sys2Proof.Machine.execKeepAliveReceive p k s
  | .paceMasterChange => Sys2Proof.Machine.execPaceMasterChange s
  | .paceStateRequestRetry => Sys2Proof.Machine.execPaceStateRequestRetry s
  | .paceStateRequest src => Sys2Proof.Machine.execPaceStateRequest src s
  | .paceStateAnswer slot term => Sys2Proof.Machine.execPaceStateAnswer slot term s
  | .emptyBeat u => Sys2Proof.Machine.execEmptyBeat u s
  | .nop u p sl => Sys2Proof.Machine.execNop u p sl s
  | .add u p rd ra rb => Sys2Proof.Machine.execAdd u p rd ra rb s
  | .sub u p rd ra rb => Sys2Proof.Machine.execSub u p rd ra rb s
  | .and u p rd ra rb => Sys2Proof.Machine.execAnd u p rd ra rb s
  | .or u p rd ra rb => Sys2Proof.Machine.execOr u p rd ra rb s
  | .xor u p rd ra rb => Sys2Proof.Machine.execXor u p rd ra rb s
  | .sll u p rd ra rb => Sys2Proof.Machine.execSll u p rd ra rb s
  | .srl u p rd ra rb => Sys2Proof.Machine.execSrl u p rd ra rb s
  | .sra u p rd ra rb => Sys2Proof.Machine.execSra u p rd ra rb s
  | .mul u p rd ra rb => Sys2Proof.Machine.execMul u p rd ra rb s
  | .mulhu u p rd ra rb => Sys2Proof.Machine.execMulhu u p rd ra rb s
  | .min u p rd ra rb => Sys2Proof.Machine.execMin u p rd ra rb s
  | .max u p rd ra rb => Sys2Proof.Machine.execMax u p rd ra rb s
  | .minu u p rd ra rb => Sys2Proof.Machine.execMinu u p rd ra rb s
  | .maxu u p rd ra rb => Sys2Proof.Machine.execMaxu u p rd ra rb s
  | .addi u p rd ra imm => Sys2Proof.Machine.execAddi u p rd ra imm s
  | .andi u p rd ra imm => Sys2Proof.Machine.execAndi u p rd ra imm s
  | .ori u p rd ra imm => Sys2Proof.Machine.execOri u p rd ra imm s
  | .xori u p rd ra imm => Sys2Proof.Machine.execXori u p rd ra imm s
  | .slli u p rd ra sh => Sys2Proof.Machine.execSlli u p rd ra sh s
  | .srli u p rd ra sh => Sys2Proof.Machine.execSrli u p rd ra sh s
  | .srai u p rd ra sh => Sys2Proof.Machine.execSrai u p rd ra sh s
  | .movi u p rd imm => Sys2Proof.Machine.execMovi u p rd imm s
  | .movk u p rd hw imm => Sys2Proof.Machine.execMovk u p rd hw imm s
  | .cmp u p pd cc ra rb => Sys2Proof.Machine.execCmp u p pd cc ra rb s
  | .pand u p pd pa pb => Sys2Proof.Machine.execPand u p pd pa pb s
  | .por u p pd pa pb => Sys2Proof.Machine.execPor u p pd pa pb s
  | .pxor u p pd pa pb => Sys2Proof.Machine.execPxor u p pd pa pb s
  | .pandn u p pd pa pb => Sys2Proof.Machine.execPandn u p pd pa pb s
  | .rds u p rd sel => Sys2Proof.Machine.execRds u p rd sel s
  | .br u p target => Sys2Proof.Machine.execBr u p target s
  | .call u p target => Sys2Proof.Machine.execCall u p target s
  | .ret u p => Sys2Proof.Machine.execRet u p s
  | .eret u p => Sys2Proof.Machine.execEret u p s
  | .loop u p ra stop => Sys2Proof.Machine.execLoop u p ra stop s
  | .loopi u p count stop => Sys2Proof.Machine.execLoopi u p count stop s
  | .repi u p ra => Sys2Proof.Machine.execRepi u p ra s
  | .repii u p n => Sys2Proof.Machine.execRepii u p n s
  | .repiStall u => Sys2Proof.Machine.execRepiStall u s
  | .vadd u p t vd va vb => Sys2Proof.Machine.execVadd u p t vd va vb s
  | .vsub u p t vd va vb => Sys2Proof.Machine.execVsub u p t vd va vb s
  | .vmul u p t vd va vb => Sys2Proof.Machine.execVmul u p t vd va vb s
  | .vfma u p t vd va vb => Sys2Proof.Machine.execVfma u p t vd va vb s
  | .vmin u p t vd va vb => Sys2Proof.Machine.execVmin u p t vd va vb s
  | .vmax u p t vd va vb => Sys2Proof.Machine.execVmax u p t vd va vb s
  | .vand u p t vd va vb => Sys2Proof.Machine.execVand u p t vd va vb s
  | .vor u p t vd va vb => Sys2Proof.Machine.execVor u p t vd va vb s
  | .vxor u p t vd va vb => Sys2Proof.Machine.execVxor u p t vd va vb s
  | .vshl u p t vd va vb => Sys2Proof.Machine.execVshl u p t vd va vb s
  | .vshr u p t vd va vb arith => Sys2Proof.Machine.execVshr u p t vd va vb arith s
  | .vcmp u p t pd cc va vb => Sys2Proof.Machine.execVcmp u p t pd cc va vb s
  | .vcmac u p vd va vb => Sys2Proof.Machine.execVcmac u p vd va vb s
  | .vconv u p t d vd va sat h => Sys2Proof.Machine.execVconv u p t d vd va sat h s
  | .vred u p t vd va op => Sys2Proof.Machine.execVred u p t vd va op s
  | .vperm u p t vd va vb => Sys2Proof.Machine.execVperm u p t vd va vb s
  | .vbcast u p t vd ra => Sys2Proof.Machine.execVbcast u p t vd ra s
  | .vext u p t rd va idx => Sys2Proof.Machine.execVext u p t rd va idx s
  | .vmov u p t vd va => Sys2Proof.Machine.execVmov u p t vd va s
  | .vspecSearch u p t vd va vb least accum => Sys2Proof.Machine.execVspecSearch u p t vd va vb least accum s
  | .vspecTap u p t vd va vb k => Sys2Proof.Machine.execVspecTap u p t vd va vb k s
  | .vecResultWrite tag => Sys2Proof.Machine.execVecResultWrite tag s
  | .mm u p e dd => Sys2Proof.Machine.execMm u p e dd s
  | .smOpen u p ch dd => Sys2Proof.Machine.execSmOpen u p ch dd s
  | .smClose u p ch => Sys2Proof.Machine.execSmClose u p ch s
  | .smRd u p pd vd ch => Sys2Proof.Machine.execSmRd u p pd vd ch s
  | .smRds u p pd rd ch => Sys2Proof.Machine.execSmRds u p pd rd ch s
  | .smWr u p va ch => Sys2Proof.Machine.execSmWr u p va ch s
  | .smWrs u p ra ch => Sys2Proof.Machine.execSmWrs u p ra ch s
  | .smSave u p ch dd => Sys2Proof.Machine.execSmSave u p ch dd s
  | .ldB u p rd ra imm => Sys2Proof.Machine.execLdB u p rd ra imm s
  | .ldH u p rd ra imm => Sys2Proof.Machine.execLdH u p rd ra imm s
  | .ldW u p rd ra imm => Sys2Proof.Machine.execLdW u p rd ra imm s
  | .ldD u p rd ra imm => Sys2Proof.Machine.execLdD u p rd ra imm s
  | .ldBs u p rd ra imm => Sys2Proof.Machine.execLdBs u p rd ra imm s
  | .ldHs u p rd ra imm => Sys2Proof.Machine.execLdHs u p rd ra imm s
  | .ldWs u p rd ra imm => Sys2Proof.Machine.execLdWs u p rd ra imm s
  | .ldV u p vd ra imm => Sys2Proof.Machine.execLdV u p vd ra imm s
  | .ldDsc u p dd ra imm => Sys2Proof.Machine.execLdDsc u p dd ra imm s
  | .stB u p rs ra imm => Sys2Proof.Machine.execStB u p rs ra imm s
  | .stH u p rs ra imm => Sys2Proof.Machine.execStH u p rs ra imm s
  | .stW u p rs ra imm => Sys2Proof.Machine.execStW u p rs ra imm s
  | .stD u p rs ra imm => Sys2Proof.Machine.execStD u p rs ra imm s
  | .stV u p vs ra imm => Sys2Proof.Machine.execStV u p vs ra imm s
  | .stDsc u p ds ra imm => Sys2Proof.Machine.execStDsc u p ds ra imm s
  | .syncAdd u p rd ra rb => Sys2Proof.Machine.execSyncAdd u p rd ra rb s
  | .syncSet u p rd ra rb => Sys2Proof.Machine.execSyncSet u p rd ra rb s
  | .syncWait u p rd ra rb => Sys2Proof.Machine.execSyncWait u p rd ra rb s
  | .syncTest u p pd ra rb => Sys2Proof.Machine.execSyncTest u p pd ra rb s
  | .lockAcq u p rd ra => Sys2Proof.Machine.execLockAcq u p rd ra s
  | .lockRel u p ra => Sys2Proof.Machine.execLockRel u p ra s
  | .mbxSend u p rd ra rb => Sys2Proof.Machine.execMbxSend u p rd ra rb s
  | .mbxWdraw u p rd ra => Sys2Proof.Machine.execMbxWdraw u p rd ra s
  | .qSubmit u p rd ra vb => Sys2Proof.Machine.execQSubmit u p rd ra vb s
  | .qTake u p pd vd ra => Sys2Proof.Machine.execQTake u p pd vd ra s
  | .evtWait u p => Sys2Proof.Machine.execEvtWait u p s
  | .evtSend u p ctx => Sys2Proof.Machine.execEvtSend u p ctx s
  | .glintWaitNext u p => Sys2Proof.Machine.execGlintWaitNext u p s
  | .glintWaitAlign u p => Sys2Proof.Machine.execGlintWaitAlign u p s
  | .boundary u p => Sys2Proof.Machine.execBoundary u p s
  | .halt u p => Sys2Proof.Machine.execHalt u p s
  | .fault u p imm => Sys2Proof.Machine.execFault u p imm s
  | .fpRd u p rd port => Sys2Proof.Machine.execFpRd u p rd port s
  | .fpWr u p ra port => Sys2Proof.Machine.execFpWr u p ra port s
  | .fpFlush u p port => Sys2Proof.Machine.execFpFlush u p port s
  | .fpMark u p port imm => Sys2Proof.Machine.execFpMark u p port imm s
  | .svPrst u p ra => Sys2Proof.Machine.execSvPrst u p ra s
  | .svSres u p ra rb => Sys2Proof.Machine.execSvSres u p ra rb s
  | .svPsw u p ra vb => Sys2Proof.Machine.execSvPsw u p ra vb s
  | .loadReturn tag => Sys2Proof.Machine.execLoadReturn tag s
  | .storeAck tag => Sys2Proof.Machine.execStoreAck tag s
  | .trapTake u c => Sys2Proof.Machine.execTrapTake u c s
  | .haltReq m u c => Sys2Proof.Machine.execHaltReq m u c s
  | .resume m u c => Sys2Proof.Machine.execResume m u c s
  | .stepCtx m u c => Sys2Proof.Machine.execStepCtx m u c s
  | .setSoft m u c => Sys2Proof.Machine.execSetSoft m u c s
  | .plotReset m p start => Sys2Proof.Machine.execPlotReset m p start s
  | .plotStart m p => Sys2Proof.Machine.execPlotStart m p s
  | .plotFaultSettle p => Sys2Proof.Machine.execPlotFaultSettle p s
  | .epochStart m => Sys2Proof.Machine.execEpochStart m s
  | .epochEnd m => Sys2Proof.Machine.execEpochEnd m s
  | .epochTimeout p => Sys2Proof.Machine.execEpochTimeout p s
  | .epochHalted => Sys2Proof.Machine.execEpochHalted s
  | .epochDrained => Sys2Proof.Machine.execEpochDrained s
  | .epochSparesMoved => Sys2Proof.Machine.execEpochSparesMoved s
  | .engineCommandStart u e => Sys2Proof.Machine.execEngineCommandStart u e s
  | .engineCommandComplete u e active stalls early => Sys2Proof.Machine.execEngineCommandComplete u e active stalls early s
  | .enginePoison u e => Sys2Proof.Machine.execEnginePoison u e s
  | .bankOwnerWrite m u b code => Sys2Proof.Machine.execBankOwnerWrite m u b code s
  | .bankHandover u b => Sys2Proof.Machine.execBankHandover u b s
  | .eccRewrite phys word => Sys2Proof.Machine.execEccRewrite phys word s
  | .sieveDue phys => Sys2Proof.Machine.execSieveDue phys s
  | .sieveRegionStart phys => Sys2Proof.Machine.execSieveRegionStart phys s
  | .sieveRegionEnd phys bad => Sys2Proof.Machine.execSieveRegionEnd phys bad s
  | .scrubDue phys upsets => Sys2Proof.Machine.execScrubDue phys upsets s
  | .scrubRow phys => Sys2Proof.Machine.execScrubRow phys s
  | .channelRequestIssue u ch => Sys2Proof.Machine.execChannelRequestIssue u ch s
  | .streamReadResponse tag => Sys2Proof.Machine.execStreamReadResponse tag s
  | .streamWriteAck tag => Sys2Proof.Machine.execStreamWriteAck tag s
  | .segmentPublish u ch => Sys2Proof.Machine.execSegmentPublish u ch s
  | .streamComplete u ch => Sys2Proof.Machine.execStreamComplete u ch s
  | .channelCloseDone u ch => Sys2Proof.Machine.execChannelCloseDone u ch s
  | .rateSample => Sys2Proof.Machine.execRateSample s
  | .streamStall u ch => Sys2Proof.Machine.execStreamStall u ch s
  | .spillPageTake u ch => Sys2Proof.Machine.execSpillPageTake u ch s
  | .spillPageReturn u ch => Sys2Proof.Machine.execSpillPageReturn u ch s
  | .atsTranslationCompletion p page write base pages rd wr => Sys2Proof.Machine.execAtsTranslationCompletion p page write base pages rd wr s
  | .pageResponse p page resp => Sys2Proof.Machine.execPageResponse p page resp s
  | .atsInvalidate p page pages => Sys2Proof.Machine.execAtsInvalidate p page pages s
  | .hostMemoryRead tag part => Sys2Proof.Machine.execHostMemoryRead tag part s
  | .hostMemoryWrite tag part => Sys2Proof.Machine.execHostMemoryWrite tag part s
  | .hostReadCompletion tag part data => Sys2Proof.Machine.execHostReadCompletion tag part data s
  | .streamTokenSend u ch => Sys2Proof.Machine.execStreamTokenSend u ch s
  | .streamTokenArrive u port link => Sys2Proof.Machine.execStreamTokenArrive u port link s
  | .streamCreditReturn u ch => Sys2Proof.Machine.execStreamCreditReturn u ch s
  | .fenceMarkerReceive u ch => Sys2Proof.Machine.execFenceMarkerReceive u ch s
  | .packetForward h port out what => Sys2Proof.Machine.execPacketForward h port out what s
  | .packetPortRequest tag part => Sys2Proof.Machine.execPacketPortRequest tag part s
  | .eventPacket => Sys2Proof.Machine.execEventPacket s
  | .doorbellPacket => Sys2Proof.Machine.execDoorbellPacket s
  | .blockWakeRequest b vc req => Sys2Proof.Machine.execBlockWakeRequest b vc req s
  | .blockWakeComplete b => Sys2Proof.Machine.execBlockWakeComplete b s
  | .wakeTimeout b vc => Sys2Proof.Machine.execWakeTimeout b vc s
  | .ltnCfgWrite m p v => Sys2Proof.Machine.execLtnCfgWrite m p v s
  | .ltnRingWrite m p v => Sys2Proof.Machine.execLtnRingWrite m p v s
  | .syncObjectAdd src => Sys2Proof.Machine.execSyncObjectAdd src s
  | .syncObjectSet src => Sys2Proof.Machine.execSyncObjectSet src s
  | .syncObjectWait src => Sys2Proof.Machine.execSyncObjectWait src s
  | .syncObjectTest src => Sys2Proof.Machine.execSyncObjectTest src s
  | .syncWake tag => Sys2Proof.Machine.execSyncWake tag s
  | .syncWaitRetry tag => Sys2Proof.Machine.execSyncWaitRetry tag s
  | .syncValueWrite m k v => Sys2Proof.Machine.execSyncValueWrite m k v s
  | .syncCtrlWrite m k plot owned open_ => Sys2Proof.Machine.execSyncCtrlWrite m k plot owned open_ s
  | .lockRead src => Sys2Proof.Machine.execLockRead src s
  | .lockReleaseWrite src => Sys2Proof.Machine.execLockReleaseWrite src s
  | .lockForce m k => Sys2Proof.Machine.execLockForce m k s
  | .mbxSendDeliver tag => Sys2Proof.Machine.execMbxSendDeliver tag s
  | .mbxWithdraw tag => Sys2Proof.Machine.execMbxWithdraw tag s
  | .mbxReserve m j => Sys2Proof.Machine.execMbxReserve m j s
  | .mbxClaim m j => Sys2Proof.Machine.execMbxClaim m j s
  | .mbxPortSend m j db len => Sys2Proof.Machine.execMbxPortSend m j db len s
  | .mbxPortFree m j => Sys2Proof.Machine.execMbxPortFree m j s
  | .mbxPortWdraw m j => Sys2Proof.Machine.execMbxPortWdraw m j s
  | .mbxPortCancel m j => Sys2Proof.Machine.execMbxPortCancel m j s
  | .mbxReserveLapse j => Sys2Proof.Machine.execMbxReserveLapse j s
  | .mbxDbWrite m j clear mask => Sys2Proof.Machine.execMbxDbWrite m j clear mask s
  | .queueSubmit src => Sys2Proof.Machine.execQueueSubmit src s
  | .queueEntryVisible q => Sys2Proof.Machine.execQueueEntryVisible q s
  | .queueTake tag host => Sys2Proof.Machine.execQueueTake tag host s
  | .qHeadWrite m q head => Sys2Proof.Machine.execQHeadWrite m q head s
  | .qCfgWrite m q v => Sys2Proof.Machine.execQCfgWrite m q v s
  | .lmcRead q b => Sys2Proof.Machine.execLmcRead q b s
  | .lmcWrite q b => Sys2Proof.Machine.execLmcWrite q b s
  | .stripeWrite stripe lost => Sys2Proof.Machine.execStripeWrite stripe lost s
  | .reinstate m x pass => Sys2Proof.Machine.execReinstate m x pass s
  | .channelRebuildStripe x b => Sys2Proof.Machine.execChannelRebuildStripe x b s
  | .lpddrTrainingDone bad => Sys2Proof.Machine.execLpddrTrainingDone bad s
  | .lpddrInitDone => Sys2Proof.Machine.execLpddrInitDone s
  | .retrainDue k => Sys2Proof.Machine.execRetrainDue k s
  | .retrainStart k => Sys2Proof.Machine.execRetrainStart k s
  | .retrainEnd k ok => Sys2Proof.Machine.execRetrainEnd k ok s
  | .patrolScrubStripe b => Sys2Proof.Machine.execPatrolScrubStripe b s
  | .bar4Read p x n b => Sys2Proof.Machine.execBar4Read p x n b s
  | .bar4Write p x data b => Sys2Proof.Machine.execBar4Write p x data b s
  | .lmcWinWrite m p base => Sys2Proof.Machine.execLmcWinWrite m p base s
  | .cellNop k => Sys2Proof.Machine.execCellNop k s
  | .cellAdd k => Sys2Proof.Machine.execCellAdd k s
  | .cellSub k => Sys2Proof.Machine.execCellSub k s
  | .cellAnd k => Sys2Proof.Machine.execCellAnd k s
  | .cellOr k => Sys2Proof.Machine.execCellOr k s
  | .cellXor k => Sys2Proof.Machine.execCellXor k s
  | .cellShl k => Sys2Proof.Machine.execCellShl k s
  | .cellShr k => Sys2Proof.Machine.execCellShr k s
  | .cellSra k => Sys2Proof.Machine.execCellSra k s
  | .cellCmpeq k => Sys2Proof.Machine.execCellCmpeq k s
  | .cellCmplt k => Sys2Proof.Machine.execCellCmplt k s
  | .cellCmpltu k => Sys2Proof.Machine.execCellCmpltu k s
  | .cellSel k => Sys2Proof.Machine.execCellSel k s
  | .cellMulu k => Sys2Proof.Machine.execCellMulu k s
  | .cellMuls k => Sys2Proof.Machine.execCellMuls k s
  | .cellMov k => Sys2Proof.Machine.execCellMov k s
  | .memoryBlockAccess r b q ecc => Sys2Proof.Machine.execMemoryBlockAccess r b q ecc s
  | .loamWindowAccess tag part ecc => Sys2Proof.Machine.execLoamWindowAccess tag part ecc s
  | .hostifLwinDataRead m p ecc => Sys2Proof.Machine.execHostifLwinDataRead m p ecc s
  | .hostifLwinDataWrite m p v => Sys2Proof.Machine.execHostifLwinDataWrite m p v s
  | .fabricRxWord r p => Sys2Proof.Machine.execFabricRxWord r p s
  | .fabricRxScratchWrite r p => Sys2Proof.Machine.execFabricRxScratchWrite r p s
  | .fabricRxScratchRead r p => Sys2Proof.Machine.execFabricRxScratchRead r p s
  | .fabricPortCode r p => Sys2Proof.Machine.execFabricPortCode r p s
  | .ioInputToken r k v => Sys2Proof.Machine.execIoInputToken r k v s
  | .ioOutputStart r k => Sys2Proof.Machine.execIoOutputStart r k s
  | .ioOutputTokenEnd r k => Sys2Proof.Machine.execIoOutputTokenEnd r k s
  | .ioDelaySwap r => Sys2Proof.Machine.execIoDelaySwap r s
  | .ioClockLost r c => Sys2Proof.Machine.execIoClockLost r c s
  | .ioClockReturn r c => Sys2Proof.Machine.execIoClockReturn r c s
  | .laneRxTransfer l c d => Sys2Proof.Machine.execLaneRxTransfer l c d s
  | .laneTxUnderrun l => Sys2Proof.Machine.execLaneTxUnderrun l s
  | .laneAdaptDone l preset => Sys2Proof.Machine.execLaneAdaptDone l preset s
  | .laneLockLost l cdr => Sys2Proof.Machine.execLaneLockLost l cdr s
  | .prbsLockChange l lock errs => Sys2Proof.Machine.execPrbsLockChange l lock errs s
  | .inject m l => Sys2Proof.Machine.execInject m l s
  | .periodicInjection l => Sys2Proof.Machine.execPeriodicInjection l s
  | .loadVerify m => Sys2Proof.Machine.execLoadVerify m s
  | .loadCommit m => Sys2Proof.Machine.execLoadCommit m s
  | .loadStart m => Sys2Proof.Machine.execLoadStart m s
  | .loadAbort m => Sys2Proof.Machine.execLoadAbort m s
  | .loadUnload m => Sys2Proof.Machine.execLoadUnload m s
  | .loadForward m k => Sys2Proof.Machine.execLoadForward m k s
  | .verifyComplete => Sys2Proof.Machine.execVerifyComplete s
  | .loadHoldExpired => Sys2Proof.Machine.execLoadHoldExpired s
  | .commitAtSlot => Sys2Proof.Machine.execCommitAtSlot s
  | .commitPoint => Sys2Proof.Machine.execCommitPoint s
  | .releaseStart => Sys2Proof.Machine.execReleaseStart s
  | .releaseStep => Sys2Proof.Machine.execReleaseStep s
  | .loadDeadline => Sys2Proof.Machine.execLoadDeadline s
  | .loadDeadlineWrite m v => Sys2Proof.Machine.execLoadDeadlineWrite m v s
  | .forwardResult st code => Sys2Proof.Machine.execForwardResult st code s
  | .loadForwardFail => Sys2Proof.Machine.execLoadForwardFail s
  | .perstAssert p flr => Sys2Proof.Machine.execPerstAssert p flr s
  | .portCfgReady p => Sys2Proof.Machine.execPortCfgReady p s
  | .hostLinkDown p => Sys2Proof.Machine.execHostLinkDown p s
  | .claim p => Sys2Proof.Machine.execClaim p s
  | .standby p => Sys2Proof.Machine.execStandby p s
  | .withdraw p => Sys2Proof.Machine.execWithdraw p s
  | .release p => Sys2Proof.Machine.execRelease p s
  | .handOver p => Sys2Proof.Machine.execHandOver p s
  | .ownerBeat p => Sys2Proof.Machine.execOwnerBeat p s
  | .heartbeatLapse => Sys2Proof.Machine.execHeartbeatLapse s
  | .msixUnmask p vec => Sys2Proof.Machine.execMsixUnmask p vec s
  | .cyustPortEnable m p on => Sys2Proof.Machine.execCyustPortEnable m p on s
  | .cyustTrainingAttempt p => Sys2Proof.Machine.execCyustTrainingAttempt p s
  | .cyustTrainingDone p delay ok bad => Sys2Proof.Machine.execCyustTrainingDone p delay ok bad s
  | .cyustIdBlock p k far => Sys2Proof.Machine.execCyustIdBlock p k far s
  | .blockLockAcquired p heads marks => Sys2Proof.Machine.execBlockLockAcquired p heads marks s
  | .blockLockLost p heads => Sys2Proof.Machine.execBlockLockLost p heads s
  | .cyustPortDown p lost => Sys2Proof.Machine.execCyustPortDown p lost s
  | .portDownNotice k far => Sys2Proof.Machine.execPortDownNotice k far s
  | .remoteTimeout tag part => Sys2Proof.Machine.execRemoteTimeout tag part s
  | .cyustUncorrectableCodeword p cw errs => Sys2Proof.Machine.execCyustUncorrectableCodeword p cw errs s
  | .cyustReplayRequest p cw => Sys2Proof.Machine.execCyustReplayRequest p cw s
  | .cyustCreditBlock p c => Sys2Proof.Machine.execCyustCreditBlock p c s
  | .cyustPktBlock p cls k => Sys2Proof.Machine.execCyustPktBlock p cls k s
  | .cyustStrmBlock p src dst rlink stamp data bad last spill => Sys2Proof.Machine.execCyustStrmBlock p src dst rlink stamp data bad last spill s
  | .gatewayTokenOut row => Sys2Proof.Machine.execGatewayTokenOut row s
  | .cyustDelayBlock p delay err corr off figs => Sys2Proof.Machine.execCyustDelayBlock p delay err corr off figs s
  | .cyustLaneSwap p l on => Sys2Proof.Machine.execCyustLaneSwap p l on s
  | .cyustCalibrationRotation p => Sys2Proof.Machine.execCyustCalibrationRotation p s
  | .cyustLaneSpared p l => Sys2Proof.Machine.execCyustLaneSpared p l s
  | .cyustIdleEntry p => Sys2Proof.Machine.execCyustIdleEntry p s
  | .cyustIdleExit p => Sys2Proof.Machine.execCyustIdleExit p s
  | .cyustFarLoopbackRequest p => Sys2Proof.Machine.execCyustFarLoopbackRequest p s
  | .cyustLoopWrite m p v => Sys2Proof.Machine.execCyustLoopWrite m p v s
  | .retrain m p => Sys2Proof.Machine.execRetrain m p s
  | .cyustTopoWrite m v => Sys2Proof.Machine.execCyustTopoWrite m v s
  | .cyustRtWrite m k v => Sys2Proof.Machine.execCyustRtWrite m k v s
  | .mcWatchdog => Sys2Proof.Machine.execMcWatchdog s
  | .mcHeartbeat => Sys2Proof.Machine.execMcHeartbeat s
  | .devLiveDrop => Sys2Proof.Machine.execDevLiveDrop s
  | .getInfo q tag body => Sys2Proof.Machine.execGetInfo q tag body s
  | .getCerts q tag body => Sys2Proof.Machine.execGetCerts q tag body s
  | .getMeasurements q tag body => Sys2Proof.Machine.execGetMeasurements q tag body s
  | .stageWrite q tag body => Sys2Proof.Machine.execStageWrite q tag body s
  | .loadCmd q tag body => Sys2Proof.Machine.execLoadCmd q tag body s
  | .mbxOp q tag body => Sys2Proof.Machine.execMbxOp q tag body s
  | .csrRead q tag body => Sys2Proof.Machine.execCsrRead q tag body s
  | .fwUpdate q tag body cut => Sys2Proof.Machine.execFwUpdate q tag body cut s
  | .fwCommitSvn q tag body => Sys2Proof.Machine.execFwCommitSvn q tag body s
  | .ccSwitch q tag body => Sys2Proof.Machine.execCcSwitch q tag body s
  | .resetCompute q tag body => Sys2Proof.Machine.execResetCompute q tag body s
  | .mcRestart q tag body => Sys2Proof.Machine.execMcRestart q tag body s
  | .setOwner q tag body => Sys2Proof.Machine.execSetOwner q tag body s
  | .clearOwner q tag body => Sys2Proof.Machine.execClearOwner q tag body s
  | .debugUnlock q tag body => Sys2Proof.Machine.execDebugUnlock q tag body s
  | .setEndpointId eid => Sys2Proof.Machine.execSetEndpointId eid s
  | .getEndpointId => Sys2Proof.Machine.execGetEndpointId s
  | .getMctpVersionSupport => Sys2Proof.Machine.execGetMctpVersionSupport s
  | .getMessageTypeSupport => Sys2Proof.Machine.execGetMessageTypeSupport s
  | .getVendorDefinedMessageSupport => Sys2Proof.Machine.execGetVendorDefinedMessageSupport s
  | .getTid => Sys2Proof.Machine.execGetTid s
  | .setTid tid => Sys2Proof.Machine.execSetTid tid s
  | .getPldmVersion => Sys2Proof.Machine.execGetPldmVersion s
  | .getPldmTypes => Sys2Proof.Machine.execGetPldmTypes s
  | .getPldmCommands => Sys2Proof.Machine.execGetPldmCommands s
  | .getPdr h => Sys2Proof.Machine.execGetPdr h s
  | .getSensorReading id => Sys2Proof.Machine.execGetSensorReading id s
  | .getStateSensorReadings id => Sys2Proof.Machine.execGetStateSensorReadings id s
  | .getNumericEffecterValue => Sys2Proof.Machine.execGetNumericEffecterValue s
  | .setNumericEffecterValue v => Sys2Proof.Machine.execSetNumericEffecterValue v s
  | .setStateEffecterStates st => Sys2Proof.Machine.execSetStateEffecterStates st s
  | .setEventReceiver a => Sys2Proof.Machine.execSetEventReceiver a s
  | .stateSensorEvent id => Sys2Proof.Machine.execStateSensorEvent id s
  | .sidebandError => Sys2Proof.Machine.execSidebandError s
  | .bypass => Sys2Proof.Machine.execBypass s
  | .samplePreload v => Sys2Proof.Machine.execSamplePreload v s
  | .extest => Sys2Proof.Machine.execExtest s
  | .clamp => Sys2Proof.Machine.execClamp s
  | .highz => Sys2Proof.Machine.execHighz s
  | .doeDiscovery p k => Sys2Proof.Machine.execDoeDiscovery p k s
  | .governorStep power vneed est avs => Sys2Proof.Machine.execGovernorStep power vneed est avs s
  | .avsRetry ok => Sys2Proof.Machine.execAvsRetry ok s
  | .pwrLimitWrite m v => Sys2Proof.Machine.execPwrLimitWrite m v s
  | .boostCreditTick => Sys2Proof.Machine.execBoostCreditTick s
  | .boostSave => Sys2Proof.Machine.execBoostSave s
  | .thermalSample ts => Sys2Proof.Machine.execThermalSample ts s
  | .thermalTrip k => Sys2Proof.Machine.execThermalTrip k s
  | .pwrShadeWrite m v => Sys2Proof.Machine.execPwrShadeWrite m v s
  | .plotShaded p => Sys2Proof.Machine.execPlotShaded p s
  | .blockRegate b => Sys2Proof.Machine.execBlockRegate b s
  | .telemetrySample powerMs rails => Sys2Proof.Machine.execTelemetrySample powerMs rails s
  | .telemRingWrite m v => Sys2Proof.Machine.execTelemRingWrite m v s
  | .hgRecalDue ok => Sys2Proof.Machine.execHgRecalDue ok s
  | .coreTestDue ph => Sys2Proof.Machine.execCoreTestDue ph s
  | .coreTestStepDone f => Sys2Proof.Machine.execCoreTestStepDone f s
  | .coreTestStop ph => Sys2Proof.Machine.execCoreTestStop ph s
  | .spareRotationDue g => Sys2Proof.Machine.execSpareRotationDue g s
  | .avlCoreTest m k n force => Sys2Proof.Machine.execAvlCoreTest m k n force s
  | .avlPcoreTest m k ph force => Sys2Proof.Machine.execAvlPcoreTest m k ph force s
  | .avlRetire m k ph => Sys2Proof.Machine.execAvlRetire m k ph s
  | .avlHgCal m k h => Sys2Proof.Machine.execAvlHgCal m k h s
  | .avlLpddrRetrain m k x => Sys2Proof.Machine.execAvlLpddrRetrain m k x s
  | .avlLpddrTest m k x force pass => Sys2Proof.Machine.execAvlLpddrTest m k x force pass s
  | .avlCyustLane m k t force => Sys2Proof.Machine.execAvlCyustLane m k t force s
  | .avlCyustLoop m k t force => Sys2Proof.Machine.execAvlCyustLoop m k t force s
  | .avlCancel m k => Sys2Proof.Machine.execAvlCancel m k s
  | .deferredRequestRun k => Sys2Proof.Machine.execDeferredRequestRun k s
  | .errlogEntry => Sys2Proof.Machine.execErrlogEntry s
  | .errRingWrite m v => Sys2Proof.Machine.execErrRingWrite m v s
  | .perstDeassert p => Sys2Proof.Machine.execPerstDeassert p s
  | .hostLinkUp p speed width => Sys2Proof.Machine.execHostLinkUp p speed width s
  | .hostConfigWrite p w => Sys2Proof.Machine.execHostConfigWrite p w s
  | .loadWindowWrite p x data => Sys2Proof.Machine.execLoadWindowWrite p x data s
  | .laneBlockLockGained l => Sys2Proof.Machine.execLaneBlockLockGained l s
  | .laneTxTransfer l => Sys2Proof.Machine.execLaneTxTransfer l s

end Sys2Proof.Machine
end

