-- ==== Sys2Proof/Machine/Step.lean ====
section
/-!
DEFINITION. One step of the block: the command at the front of the queue, or 100 ps in which nothing is commanded.
-/
namespace Sys2Proof.Machine
open Sys2Proof

/-- The command at the front of the queue runs with the rest of it waiting; on an empty queue 100 ps pass (DESIGN CHOICE, log
75). -/
def step (s : State) : Host.Outcome State Fault Refusal :=
  match s.pending with
  | c :: rest => exec c { s with pending := rest }
  | [] => .next { s with now := s.now + 1 }

/-- The command that a table word spells is put at the front of the queue; the table gives no row a word. -/
def State.withFetchWord (s : State) (nbits w : Nat) : State :=
  match decodeTableWord nbits w with
  | some c => { s with pending := c :: s.pending }
  | none => s

end Sys2Proof.Machine
end

