-- ==== Sys2Proof/Safety.lean ====
section
/-!
DEFINITION. What a safe run is, and the terms the statements use: a command that completes, a core about to issue a bundle of
one instruction, and what such a beat leaves alone.
-/
namespace Sys2Proof.Machine
open Sys2Proof

/-- Every waiting command is well formed. -/
def queueWf (s : State) : Bool := s.pending.all Instr.wf

/-- A run of `n` steps stops nowhere. -/
def runsOn (n : Nat) (s : State) : Prop := ∃ t, Sys2Proof.core.run n s = .next t

/-- Command `i` completes in state `s`, in a next state of which `P` holds. -/
def Runs (i : Instr) (s : State) (P : State → Prop) : Prop := ∃ t, exec i s = .next t ∧ P t

/-- Context `c` is the only context of unit `u` that runs, it runs freely (no halt request, trap, repeat, epoch halt or
outstanding result, no own-page access of the beat before, its next bundle is sound and is not the last of the store), and that bundle holds instruction `i` in slot
`sl` and NOP words in the other slots. -/
structure Alone (s : State) (u c : Nat) (sl : Slot) (i : Instr) : Prop where
  unit   : u < 25604
  context : c < 8
  wf     : i.wf = true
  ready  : (ctx s u c).st = .ready
  others : ∀ d, d < 8 → d ≠ c → (ctx s u d).st ≠ .ready ∧ (ctx s u d).st ≠ .waiting
  noHalt : (ctx s u c).haltReq = false
  noStep : (ctx s u c).stepping = false
  noRepi : (ctx s u c).repiOn = false
  noLoop : (ctx s u c).levels = []
  noTrap : trapDue (ctx s u c) = false
  noEpoch : epochHalts s u = false
  sound  : mget false s.core.pstoreBad (u * 2048 + (ctx s u c).pc) = false
  inside : (ctx s u c).pc < 2047
  nops   : ∀ k, k ≠ sl → slotWord (bundleAt s u (ctx s u c).pc) k = 0
  holds  : slotIns s u (ctx s u c).pc sl = some i
  nothingDue : outstandingRegs s u c = []
  settled : ∀ r ∈ s.core.reqs, ownWaits u r = false

/-- The same with a true predicate (a V slot acts by lanes, so there the predicate is left open). -/
structure Lone (s : State) (u c : Nat) (sl : Slot) (i : Instr) : Prop extends Alone s u c sl i where
  pred   : sl ≠ .V → predTrue (ctx s u c) (predOf i) = true

/-- What the beat of a bundle leaves alone on its core: every other context, every register word but the beat count and the
words at `touched`, the memories, and the blocks outside the core (the telemetry counters of R554 are not said). The beat is
counted. -/
structure CoreFrame (s t : State) (u c : Nat) (touched : List Nat) : Prop where
  others : ∀ v d, ctxKey v d ≠ ctxKey u c → ctx t v d = ctx s v d
  beats  : fld t (CORE_BEATS u) CORE_BEATS_BEATS = (fld s (CORE_BEATS u) CORE_BEATS_BEATS + 1) % 2 ^ 64
  words  : ∀ o, o ≠ CORE_BEATS u → o ∉ touched → rget t o = rget s o
  mem    : t.mem = s.mem
  queue  : t.pending = s.pending
  blocks : t.pace = s.pace ∧ t.avl = s.avl ∧ t.strm = s.strm ∧ t.sync = s.sync ∧ t.host = s.host ∧ t.loam = s.loam ∧
    t.link = s.link ∧ t.load = s.load ∧ t.mc = s.mc ∧ t.log = s.log ∧ t.out = s.out

/-- No register of context `c` changes, and it goes on at bundle `n`. -/
structure Goes (s t : State) (u c n : Nat) : Prop where
  scalars : ∀ r, sr (ctx t u c) r = sr (ctx s u c) r
  preds  : ∀ r, pr (ctx t u c) r = pr (ctx s u c) r
  vecs   : ∀ r, vr (ctx t u c) r = vr (ctx s u c) r ∧ dr (ctx t u c) r = dr (ctx s u c) r
  next   : (ctx t u c).pc = n
  runs   : (ctx t u c).st = .ready
  frame  : CoreFrame s t u c []

/-- Predicate `pd` takes `v` (p0 discards it), the other registers of the context keep their values, and the context goes on at
the next bundle; `touched` are register words that may change. -/
structure PredResult (s t : State) (u c pd : Nat) (v : W64) (touched : List Nat) : Prop where
  result : ∀ r, r < 8 → pr (ctx t u c) r = if r = pd ∧ pd ≠ 0 then v else pr (ctx s u c) r
  scalars : ∀ r, sr (ctx t u c) r = sr (ctx s u c) r
  vecs   : ∀ r, vr (ctx t u c) r = vr (ctx s u c) r ∧ dr (ctx t u c) r = dr (ctx s u c) r
  next   : (ctx t u c).pc = (ctx s u c).pc + 1
  frame  : CoreFrame s t u c touched

/-- Lane `k` of vector register `vd` takes `f k` where bit `k` of predicate `p` is 1 and keeps its value elsewhere; the other
registers keep theirs, the instruction is counted in VEC_ISSUED, and the context goes on at the next bundle. -/
structure VecResult (s t : State) (u c p : Nat) (ty : VTy) (vd : Nat) (f : Nat → Nat) : Prop where
  result : ∀ k, k < laneCount ty → lane (laneBits ty) (vr (ctx t u c) vd) k =
    if (pr (ctx s u c) p).getLsbD k then f k else lane (laneBits ty) (vr (ctx s u c) vd) k
  vecs   : ∀ r, r ≠ vd → vr (ctx t u c) r = vr (ctx s u c) r
  scalars : ∀ r, sr (ctx t u c) r = sr (ctx s u c) r ∧ pr (ctx t u c) r = pr (ctx s u c) r ∧ dr (ctx t u c) r = dr (ctx s u c) r
  next   : (ctx t u c).pc = (ctx s u c).pc + 1
  counted : fld t (VEC_ISSUED u) VEC_ISSUED_ISSUED = (fld s (VEC_ISSUED u) VEC_ISSUED_ISSUED + 1) % 2 ^ 64
  frame  : CoreFrame s t u c [VEC_ISSUED u, VEC_FLAGS u, VEC_FIRST u]

/-- Scalar register `rd` takes `v` (s0 discards it), the other registers of the context keep their values, and the context
goes on at bundle `n`. -/
structure ScalarResult (s t : State) (u c rd : Nat) (v : W64) (n : Nat) : Prop where
  result : ∀ r, r < 32 → sr (ctx t u c) r = if r = rd ∧ rd ≠ 0 then v else sr (ctx s u c) r
  preds  : ∀ r, pr (ctx t u c) r = pr (ctx s u c) r
  vecs   : ∀ r, vr (ctx t u c) r = vr (ctx s u c) r ∧ dr (ctx t u c) r = dr (ctx s u c) r
  next   : (ctx t u c).pc = n
  frame  : CoreFrame s t u c []

/-- Every register of context `c` keeps its value. -/
structure RegsKept (s t : State) (u c : Nat) : Prop where
  scalars : ∀ r, sr (ctx t u c) r = sr (ctx s u c) r
  preds  : ∀ r, pr (ctx t u c) r = pr (ctx s u c) r
  vecs   : ∀ r, vr (ctx t u c) r = vr (ctx s u c) r
  descs  : ∀ r, dr (ctx t u c) r = dr (ctx s u c) r

/-- No register word changes but those at `touched`. -/
def WordsKept (s t : State) (touched : List Nat) : Prop := ∀ o, o ∉ touched → rget t o = rget s o

/-- A bundle has issued and its context goes on at the next one, while every other context, every register word but the beat
count and those at `touched`, and the waiting commands stay. -/
structure Issues (s t : State) (u c : Nat) (touched : List Nat) : Prop where
  others : ∀ v d, ctxKey v d ≠ ctxKey u c → ctx t v d = ctx s v d
  next   : (ctx t u c).pc = (ctx s u c).pc + 1
  runs   : (ctx t u c).st = .ready
  beats  : fld t (CORE_BEATS u) CORE_BEATS_BEATS = (fld s (CORE_BEATS u) CORE_BEATS_BEATS + 1) % 2 ^ 64
  words  : WordsKept s t (CORE_BEATS u :: touched)
  queue  : t.pending = s.pending

/-- An access has set out behind those in flight, with the next number, and nothing else is in flight that was not. -/
def SetsOut (s t : State) (u c : Nat) (op : ReqOp) (dst : Option Reg) (pdst : Nat) (f : Req → Prop) : Prop :=
  ∃ r : Req, t.core.reqs = s.core.reqs ++ [r] ∧ r.tag = s.core.nextTag ∧ t.core.nextTag = s.core.nextTag + 1 ∧ r.u = u ∧ r.c = c ∧
    r.pc = (ctx s u c).pc ∧ r.op = op ∧ r.dst = dst ∧ r.pdst = pdst ∧ r.chan = false ∧ r.orphan = false ∧ f r

/-- A bundle has faulted at issue: its context stands FAULTED with the record of R118, its registers as they were. -/
structure Faulted (s t : State) (u c : Nat) (code slot info : Nat) : Prop where
  state  : (ctx t u c).st = .faulted
  code   : (ctx t u c).fCode = code
  slot   : (ctx t u c).fSlot = slot
  info   : (ctx t u c).fInfo = BitVec.ofNat 64 info
  place  : (ctx t u c).fPc = (ctx s u c).pc ∧ (ctx t u c).fDef = false ∧ (ctx t u c).pc = (ctx s u c).pc
  regs   : RegsKept s t u c

/-- One error-log entry has set out, with this code. -/
def Logs (s t : State) (code : Nat) : Prop := ∃ e : LogEntry, t.log.inFlight = s.log.inFlight ++ [e] ∧ e.code = code

/-- Part `i` of access `tag` has been answered with `a`; other accesses stand as they did. -/
def PartAnswered (s t : State) (tag i : Nat) (a : Answer) : Prop :=
  ∃ r p, findReq s tag = some r ∧ r.parts[i]? = some p ∧
    findReq t tag = some { r with parts := setNth r.parts i { p with ans := some a } } ∧ ∀ k, k ≠ tag → findReq t k = findReq s k

/-- The error-log entry that has set out, with its code, source, class and INFO. -/
def LogsAs (s t : State) (code src : Nat) (cls : ErrClass) (info : Nat) : Prop :=
  ∃ e : LogEntry, t.log.inFlight = s.log.inFlight ++ [e] ∧ e.code = code ∧ e.src = src ∧ e.cls = cls ∧ e.info = BitVec.ofNat 64 info

/-- The compute side stands in device reset (R13): registers outside the always-on domain read their reset values (LOAD_SEC
follows the owner record), those inside it keep theirs but for the status that the reset clears; cores and memories are as
after reset; pace time counts from 0; the management controller, its counters and the flash stay. -/
structure DeviceReset (s t : State) : Prop where
  cold   : ∀ o, domainAt o = some .cold → o ∉ [GLB_STATUS, MC_STATUS, SEC_STATE, MEAS_GEN] → rget t o = rget s o
  fresh  : ∀ o, domainAt o ≠ some .cold → o ≠ LOAD_SEC → rget t o = resetWord o
  status : flag t GLB_STATUS GLB_STATUS_COMPUTE_UP = false ∧ flag t GLB_STATUS GLB_STATUS_DEV_LIVE = false ∧
    flag t GLB_STATUS GLB_STATUS_SHADOW_VALID = false ∧ flag t GLB_STATUS GLB_STATUS_HG_CAL = false ∧
    flag t GLB_STATUS GLB_STATUS_EPOCH_ACTIVE = false ∧ flag t MC_STATUS MC_STATUS_CC_RUNNING = false
  keeps  : fld t GLB_STATUS GLB_STATUS_ID_VALID = fld s GLB_STATUS GLB_STATUS_ID_VALID ∧
    fld t MC_STATUS MC_STATUS_STATE = fld s MC_STATUS MC_STATUS_STATE
  cores  : t.core = CoreSt.reset ∧ t.mem = MemSt.reset ∧ t.strm = StrmSt.reset ∧ t.sync = SyncSt.reset
  time   : paceTime t = 0
  held   : t.mc.held = true
  ident  : t.mc.mcCtr = s.mc.mcCtr ∧ t.mc.ccCtr = s.mc.ccCtr ∧ t.mc.ownerCtr = s.mc.ownerCtr ∧ t.mc.flash = s.mc.flash ∧
    t.mc.pwrGood = s.mc.pwrGood
  queue  : t.pending = s.pending ∧ t.out = s.out

/-- A management command of `code` from requester `q` (0 side-band, 1 host A, 2 host B) is marked in the table of R524. -/
def MgmtMay (s : State) (q code : Nat) : Prop :=
  q = 0 ∨ (ownerCode s = q ∧ (code < 0x10 ∨ 0x13 < code)) ∨ (ownerCode s ≠ q ∧ standbyCode s = q ∧ code ∈ [0x01, 0x02, 0x03, 0x40])

/-- Bank `b` of core `u` has owner `code` and no handover pending, and nothing else has changed (R244). -/
def BankNow (s t : State) (u b code : Nat) : Prop :=
  fld t (BANK_OWNER u b) BANK_OWNER_OWNER = code ∧ fld t (BANK_OWNER u b) BANK_OWNER_PENDING = 0 ∧
  WordsKept s t [BANK_OWNER u b] ∧ t = { s with csr := t.csr }
/-- Its owner stays, and the handover to `code` is pending (R244). -/
def BankLater (s t : State) (u b code : Nat) : Prop :=
  fld t (BANK_OWNER u b) BANK_OWNER_OWNER = bankOwner s u b ∧ fld t (BANK_OWNER u b) BANK_OWNER_TARGET = code ∧
  fld t (BANK_OWNER u b) BANK_OWNER_PENDING = 1 ∧ WordsKept s t [BANK_OWNER u b] ∧ t = { s with csr := t.csr }

/-- A memory or register request of master `m` reaches the register at offset `o`: the port of a host is not in D3hot and serves
the block before compute-up (R463, R467), and the register is in no page of a core of a gated block (R345). -/
def Reaches (s : State) (m : Master) (o : Nat) : Prop :=
  portAsleep s m = false ∧ hostBlocked s m o = false ∧ sleepingPage s o = none ∧ (∀ u c, m = .unit u c → isCp u = true)

/-- A core context that sends command `f` to the register at offset `o` faults with 0x0102 and changes nothing there (R102). -/
def CoresFault (s : State) (o : Nat) (f : Master → Instr) : Prop :=
  ∀ u c, masterOk (.unit u c) = true → isCp u = false → exec (f (.unit u c)) s = .next (csrDenied u c o s)

/-- Block `b` has gone out by every port that is up; by one in electrical idle it waits for the wake (R346). -/
def SentOn (s t : State) (b : LinkBlock) : Prop :=
  ∀ q ∈ upPorts s, (portState s q = 3 → .link q b ∈ t.out) ∧ (portState s q = 4 → (q, b) ∈ t.link.idleQ)

/-- The running MC hears management requester `q`: the side-band, or a host whose port can be configured (R463, R466). -/
def Heard (s : State) (q : Nat) : Prop :=
  mcRuns s = true ∧ (q = 0 ∨ flag s (HOSTIF_PORT_STATUS (q - 1)) HOSTIF_PORT_STATUS_CFG_READY = true)

/-- State `u`, with the answer of R523 to a management request sent. -/
def Says (t u : State) (q code tag status : Nat) (body : List Byte) : Prop :=
  t = { u with out := .mgmt (requester q) (code + 0x80) tag status body :: u.out }

end Sys2Proof.Machine
end

