-- ==== Sys2Proof/Certificates/Slice0/Obligations.lean ====
section
/-!
DEFINITION. The statements for the provers, one definition each; OBLIGATIONS.json says them in words.
-/
open Sys2Proof Sys2Proof.Machine

/-- A step with a command at the front of the queue is exec of it with the rest of the queue (00_scope.md, 98_reader.md). -/
def Obligations.StepRunsTheFrontCommand : Prop :=
  ∀ (c : Instr) (rest : List Instr) (s : State),
    step { s with pending := c :: rest } = exec c { s with pending := rest }

/-- A command completes exactly when it is well formed, and on an empty queue a step only lets time pass (02_pace.md,
01_organisation.md, 00_scope.md). -/
def Obligations.CommandsCompleteWhenWellFormed : Prop :=
  (∀ s : State, s.pending = [] → step s = .next { s with now := s.now + 1 }) ∧
  (∀ (i : Instr) (s : State),
     (i.wf = true → ∃ t, exec i s = .next t) ∧ (i.wf = false → exec i s = .fault .noSuchUnit))

/-- No command's effect touches the queue of waiting commands (00_scope.md). -/
def Obligations.CommandsLeaveTheQueueAlone : Prop :=
  ∀ (i : Instr) (s t : State), exec i s = .next t → t.pending = s.pending

/-- Identity counters rise only by FW_COMMIT_SVN or an owner command, never fall, and are refused past their maximum
(19_management_security.md R518). -/
def Obligations.IdentityCountersNeverFall : Prop :=
  (∀ s t : State, s.mc.mcCtr ≤ 63 → s.mc.ccCtr ≤ 63 → s.mc.ownerCtr ≤ 32 → step s = .next t →
    (t.mc.mcCtr ≤ 63 ∧ t.mc.ccCtr ≤ 63 ∧ t.mc.ownerCtr ≤ 32) ∧
    (s.mc.mcCtr ≤ t.mc.mcCtr ∧ s.mc.ccCtr ≤ t.mc.ccCtr ∧ s.mc.ownerCtr ≤ t.mc.ownerCtr) ∧
    ((∀ q tag body rest, s.pending ≠ .fwCommitSvn q tag body :: rest) → t.mc.mcCtr = s.mc.mcCtr ∧ t.mc.ccCtr = s.mc.ccCtr) ∧
    ((∀ q tag body rest, s.pending ≠ .setOwner q tag body :: rest ∧ s.pending ≠ .clearOwner q tag body :: rest) →
      t.mc.ownerCtr = s.mc.ownerCtr)) ∧
  (∀ (s : State) (q tag : Nat) (body : List Byte), q < 3 → tag < 65536 → Heard s q → s.mc.ccSwitch = false → s.mc.busy = false →
    (MgmtMay s q 0x21 → body.length = 4 → fieldAt body 0 4 ≤ 1 →
      63 < fld s (if fieldAt body 0 4 = 0 then MC_FW else CC_FW) MC_FW_SVN →
      Runs (.fwCommitSvn q tag body) s fun t => Says t s q 0x21 tag 0x0A0C []) ∧
    ∀ e ∈ ([(.setOwner q tag body, 1), (.clearOwner q tag body, 2)] : List (Instr × Nat)), MgmtMay s q 0x40 → body.length = 384 →
      signedOk body = true → fieldAt body 4 1 = e.2 → fieldAt body 16 4 = s.mc.ownerCtr + 1 → 32 ≤ s.mc.ownerCtr →
      Runs e.1 s fun t => Says t s q 0x40 tag 0x0A0C [])

/-- Every step keeps the canonical form of local memory, LPDDR5X and parity (09_core_memory.md, 14_lpddr.md). -/
def Obligations.MemoriesStayCanonical : Prop :=
  ∀ s t : State, memWf s.mem.loc = true → memWf s.mem.dram = true → memWf s.mem.parity = true → step s = .next t →
    memWf t.mem.loc = true ∧ memWf t.mem.dram = true ∧ memWf t.mem.parity = true

/-- State.reset has an empty queue, canonical memories, counters in range and the spec's register reset values (00_scope.md
R13, 01_organisation.md, 02_pace.md, 19_management_security.md R517). -/
def Obligations.ResetMeetsTheInvariants : Prop :=
  State.reset.pending = [] ∧ memWf State.reset.mem.loc = true ∧ memWf State.reset.mem.dram = true ∧
  memWf State.reset.mem.parity = true ∧ State.reset.mc.mcCtr ≤ 63 ∧ State.reset.mc.ccCtr ≤ 63 ∧
  State.reset.mc.ownerCtr ≤ 32 ∧ (∀ u c, (ctx State.reset u c).st = .unloaded) ∧
  fld State.reset GLB_ID GLB_ID_VENDOR = 0x1FB3 ∧ fld State.reset GLB_ID GLB_ID_DEVICE = 0xB200 ∧
  fld State.reset GLB_RATES GLB_RATES_FLOOR = 900 ∧ fld State.reset GLB_RATES GLB_RATES_NOMINAL = 940

/-- ADD … MAXU, ADDI … SRAI, MOVI and MOVK write their result, wrapping modulo 2^64, and nothing else (04_core_isa.md R127,
04_core_isa.md R128, 03_core_model.md R98). -/
def Obligations.ScalarArithmeticResults : Prop :=
  ∀ (s : State) (u c p rd ra rb imm sh hw : Nat) (a b d : W64),
    a = sr (ctx s u c) ra → b = sr (ctx s u c) rb → d = sr (ctx s u c) rd →
    ∀ e ∈ ([(.add u p rd ra rb, a + b), (.sub u p rd ra rb, a - b), (.and u p rd ra rb, a &&& b), (.or u p rd ra rb, a ||| b),
        (.xor u p rd ra rb, a ^^^ b), (.sll u p rd ra rb, a <<< (b.toNat % 64)), (.srl u p rd ra rb, a >>> (b.toNat % 64)),
        (.sra u p rd ra rb, a.sshiftRight (b.toNat % 64)), (.mul u p rd ra rb, a * b),
        (.mulhu u p rd ra rb, (a.zeroExtend 128 * b.zeroExtend 128).extractLsb' 64 64),
        (.min u p rd ra rb, if a.toInt ≤ b.toInt then a else b), (.max u p rd ra rb, if a.toInt ≤ b.toInt then b else a),
        (.minu u p rd ra rb, if a.toNat ≤ b.toNat then a else b), (.maxu u p rd ra rb, if a.toNat ≤ b.toNat then b else a),
        (.addi u p rd ra imm, a + (BitVec.ofNat 13 imm).signExtend 64), (.andi u p rd ra imm, a &&& BitVec.ofNat 64 imm),
        (.ori u p rd ra imm, a ||| BitVec.ofNat 64 imm), (.xori u p rd ra imm, a ^^^ BitVec.ofNat 64 imm),
        (.slli u p rd ra sh, a <<< sh), (.srli u p rd ra sh, a >>> sh), (.srai u p rd ra sh, a.sshiftRight sh),
        (.movi u p rd imm, (BitVec.ofNat 18 imm).signExtend 64),
        (.movk u p rd hw imm, (d &&& ~~~(0xFFFF#64 <<< (16 * hw))) ||| (BitVec.ofNat 64 imm <<< (16 * hw)))] :
        List (Instr × W64)),
      Lone s u c .S e.1 → Runs e.1 s fun t => ScalarResult s t u c rd e.2 ((ctx s u c).pc + 1)

/-- CMP, PAND, POR, PXOR and PANDN write their predicate, and RDS reads the value its selection names (04_core_isa.md R129).
-/
def Obligations.PredicateResultsAndSystemValues : Prop :=
  (∀ (s : State) (u c p pd ra rb pa pb : Nat) (a b : W64) (x y : W64),
     a = sr (ctx s u c) ra → b = sr (ctx s u c) rb → x = pr (ctx s u c) pa → y = pr (ctx s u c) pb →
     ∀ e ∈ ([(.cmp u p pd .eq ra rb, if a = b then BitVec.allOnes 64 else 0),
         (.cmp u p pd .ne ra rb, if a = b then 0 else BitVec.allOnes 64),
         (.cmp u p pd .lt ra rb, if a.toInt < b.toInt then BitVec.allOnes 64 else 0),
         (.cmp u p pd .ge ra rb, if a.toInt < b.toInt then 0 else BitVec.allOnes 64),
         (.cmp u p pd .ltu ra rb, if a.toNat < b.toNat then BitVec.allOnes 64 else 0),
         (.cmp u p pd .geu ra rb, if a.toNat < b.toNat then 0 else BitVec.allOnes 64),
         (.pand u p pd pa pb, x &&& y), (.por u p pd pa pb, x ||| y), (.pxor u p pd pa pb, x ^^^ y),
         (.pandn u p pd pa pb, x &&& ~~~y)] : List (Instr × W64)),
       Lone s u c .S e.1 → Runs e.1 s fun t => PredResult s t u c pd e.2 []) ∧
  (∀ (s : State) (u c p rd sel v : Nat), Lone s u c .S (.rds u p rd sel) →
     (5 ≤ sel → sel ≤ 8 → v = mget 0 (ctx s u c).lc (sel - 5)) → (sel = 9 → v = (ctx s u c).slot) →
     (25600 ≤ u → sel < 5 ∨ 9 < sel → v = 0) →
     (u < 25600 → (sel = 0 → v = u) ∧ (sel = 1 → v = c) ∧ (sel = 2 → v = (plotOf s u).getD 0) ∧ (sel = 3 → v = u / 128) ∧
       (sel = 4 → v = u % 128) ∧ (sel = 10 → v = fld s (PLOT_CFG ((plotOf s u).getD 0)) PLOT_CFG_ROW0) ∧
       (sel = 11 → v = fld s (PLOT_CFG ((plotOf s u).getD 0)) PLOT_CFG_COL0) ∧
       (sel = 12 → v = fld s (PLOT_CFG ((plotOf s u).getD 0)) PLOT_CFG_HEIGHT) ∧
       (sel = 13 → v = fld s (PLOT_CFG ((plotOf s u).getD 0)) PLOT_CFG_WIDTH) ∧
       (sel = 14 → v = fld s CYUST_TOPO CYUST_TOPO_MODULE) ∧ (sel = 15 → v = fld s CYUST_TOPO CYUST_TOPO_GROUP)) →
     Runs (.rds u p rd sel) s fun t => ScalarResult s t u c rd (BitVec.ofNat 64 v) ((ctx s u c).pc + 1))

/-- BR, CALL, RET and ERET go to their target; CALL writes the return index to s31; ERET sets EIE (03_core_model.md R104,
03_core_model.md R105, 03_core_model.md R114, 04_core_isa.md R128). -/
def Obligations.ControlTransfers : Prop :=
  ∀ (s : State) (u c p n : Nat),
    (Lone s u c .S (.br u p n) → Runs (.br u p n) s fun t => Goes s t u c n) ∧
    (Lone s u c .S (.call u p n) → Runs (.call u p n) s fun t =>
      ScalarResult s t u c 31 (BitVec.ofNat 64 ((ctx s u c).pc + 1)) n) ∧
    (Lone s u c .S (.ret u p) → (sr (ctx s u c) 31).toNat ≤ 2047 →
      Runs (.ret u p) s fun t => Goes s t u c (sr (ctx s u c) 31).toNat) ∧
    (Lone s u c .S (.eret u p) → (ctx s u c).eie = false → (ctx s u c).epc ≤ 2047 →
      Runs (.eret u p) s fun t => Goes s t u c (ctx s u c).epc ∧ (ctx t u c).eie = true)

/-- LOOP and LOOPI open level 0, REPI and REPII start issues of the next bundle, and a count of 0 skips (03_core_model.md
R103, 03_core_model.md R104, 03_core_model.md R106, 03_core_model.md R107). -/
def Obligations.Repeats : Prop :=
  (∀ (s : State) (u c p ra n stop : Nat) (i : Instr),
     (i = .loop u p ra stop ∧ n = (sr (ctx s u c) ra).toNat ∨ i = .loopi u p n stop) → Lone s u c .S i →
     n ≤ 2 ^ 24 → (ctx s u c).pc < stop →
     (0 < n → Runs i s fun t => Goes s t u c ((ctx s u c).pc + 1) ∧
       (ctx t u c).levels = [⟨0, (ctx s u c).pc + 1, stop⟩] ∧ mget 0 (ctx t u c).lc 0 = n) ∧
     (n = 0 → stop < 2047 → Runs i s fun t => Goes s t u c (stop + 1) ∧ (ctx t u c).levels = [])) ∧
  (∀ (s : State) (u c p ra n : Nat) (i : Instr),
     (i = .repi u p ra ∧ n = (sr (ctx s u c) ra).toNat % 2 ^ 16 ∨ i = .repii u p n) → Lone s u c .S i →
     privOf s u c ≠ .user → (ctx s u c).pc < 2046 → bodyBad s u ((ctx s u c).pc + 1) = false →
     (0 < n → Runs i s fun t => Goes s t u c ((ctx s u c).pc + 1) ∧ (ctx t u c).repiOn = true ∧ (ctx t u c).repiLeft = n) ∧
     (n = 0 → Runs i s fun t => Goes s t u c ((ctx s u c).pc + 2) ∧ (ctx t u c).repiOn = false))

/-- NOP in every slot, BOUNDARY, HALT and FAULT do what they say; an empty beat counts in CORE_BEATS and CORE_EMPTY only
(04_core_isa.md R123). -/
def Obligations.QuietBundlesAndEmptyBeats : Prop :=
  (∀ (u p : Nat) (sp : Bool) (w : BitVec 32), p < 8 → w = BitVec.ofNat 32 (p * 2 ^ 29) → decodeS u w = some (.nop u p .S) ∧
     decodeV u sp w = some (.nop u p .V) ∧ decodeM u w = some (.nop u p .M) ∧ decodeX u w = some (.nop u p .X) ∧
     ∀ k, decodeSlot u sp 0 k = some (.nop u 0 k)) ∧
  (∀ (s : State) (u c p imm : Nat) (k : Slot),
     (Alone s u c k (.nop u p k) → Runs (.nop u p k) s fun t => Goes s t u c ((ctx s u c).pc + 1)) ∧
     (Lone s u c .X (.boundary u p) → Runs (.boundary u p) s fun t => Goes s t u c ((ctx s u c).pc + 1)) ∧
     (Lone s u c .X (.halt u p) → Runs (.halt u p) s fun t => (ctx t u c).st = .halted ∧ (ctx t u c).cause = 1 ∧
       (ctx t u c).pc = (ctx s u c).pc + 1 ∧ CoreFrame s t u c []) ∧
     (Lone s u c .X (.fault u p imm) → Runs (.fault u p imm) s fun t => (ctx t u c).st = .faulted ∧
       (ctx t u c).fCode = 0x010A ∧ (ctx t u c).fSlot = 3 ∧ (ctx t u c).fInfo = BitVec.ofNat 64 imm ∧
       (ctx t u c).fPc = (ctx s u c).pc ∧ (ctx t u c).fDef = false)) ∧
  (∀ (s : State) (u c : Nat), u < 25604 → c < 8 →
     ((∀ d, d < 8 → (ctx s u d).st ≠ .ready ∧ ((ctx s u d).st = .waiting → (ctx s u d).hold ≠ .none)) →
       (ctx s u c).st = .waiting → Runs (.emptyBeat u) s fun t => CoreFrame s t u c [CORE_EMPTY u] ∧ ctx t u c = ctx s u c ∧
         fld t (CORE_EMPTY u) CORE_EMPTY_EMPTY = (fld s (CORE_EMPTY u) CORE_EMPTY_EMPTY + 1) % 2 ^ 64) ∧
     ((ctx s u c).repiOn = true → (ctx s u c).st = .waiting → (ctx s u c).hold = .none →
       (ctx s u c).waitFrom + 10000000 < paceTime s → (operandWait s u c).isSome = true →
       (∀ d, d < 8 → d ≠ c → (ctx s u d).repiOn = false) →
       Runs (.repiStall u) s fun t => (ctx t u c).st = .faulted ∧ (ctx t u c).fCode = 0x0108 ∧
         (ctx t u c).fPc = (ctx s u c).pc ∧ (ctx t u c).fInfo = 0 ∧ (ctx t u c).fDef = false))

/-- An instruction whose predicate is false in slot S, M or X has no effect, raises no fault and waits for nothing
(03_core_model.md R85, 04_core_isa.md R126). -/
def Obligations.FalsePredicatesDoNothing : Prop :=
  ∀ (s : State) (u c : Nat) (k : Slot) (i : Instr), k ≠ .V → Alone s u c k i → (∀ v q n, i ≠ .fault v q n) →
    predTrue (ctx s u c) (predOf i) = false → privNeeded (privOf s u c) i = true →
    Runs i s fun t => Goes s t u c ((ctx s u c).pc + 1)

/-- Integer VADD … VSHR, the bitwise, permute, broadcast and move instructions act lane by lane under the predicate and set
no flag (04_core_isa.md R126, 04_core_isa.md R132, 04_core_isa.md R133, 08_vector_datapath.md R231). -/
def Obligations.IntegerVectorLanes : Prop :=
  ∀ (s : State) (u c p vd va vb ra : Nat) (ty : VTy) (a b d : Nat → Nat) (w : Nat),
    (∀ k, a k = lane (laneBits ty) (vr (ctx s u c) va) k) → (∀ k, b k = lane (laneBits ty) (vr (ctx s u c) vb) k) →
    (∀ k, d k = lane (laneBits ty) (vr (ctx s u c) vd) k) → w = laneBits ty →
    ∀ e ∈ ((if intTy ty then
          [(.vadd u p ty vd va vb, fun k => (a k + b k) % 2 ^ w), (.vsub u p ty vd va vb, fun k => (a k + 2 ^ w - b k) % 2 ^ w),
           (.vmul u p ty vd va vb, fun k => a k * b k % 2 ^ w), (.vfma u p ty vd va vb, fun k => (a k * b k + d k) % 2 ^ w),
           (.vmin u p ty vd va vb, fun k => if sgn w (a k) ≤ sgn w (b k) then a k else b k),
           (.vmax u p ty vd va vb, fun k => if sgn w (a k) ≤ sgn w (b k) then b k else a k),
           (.vshl u p ty vd va vb, fun k => a k * 2 ^ (b k % w) % 2 ^ w),
           (.vshr u p ty vd va vb false, fun k => a k / 2 ^ (b k % w)),
           (.vshr u p ty vd va vb true, fun k => narrow w (sgn w (a k) / (2 ^ (b k % w) : Nat)))]
        else []) ++
        [(.vand u p ty vd va vb, fun k => a k &&& b k), (.vor u p ty vd va vb, fun k => a k ||| b k),
         (.vxor u p ty vd va vb, fun k => a k ^^^ b k), (.vperm u p ty vd va vb, fun k => a (b k % laneCount ty)),
         (.vbcast u p ty vd ra, fun _ => (sr (ctx s u c) ra).toNat % 2 ^ w), (.vmov u p ty vd va, a)] :
        List (Instr × (Nat → Nat))),
      Lone s u c .V e.1 → Runs e.1 s fun t => VecResult s t u c p ty vd e.2 ∧
        fld t (VEC_FLAGS u) ⟨0, 0, 5⟩ = fld s (VEC_FLAGS u) ⟨0, 0, 5⟩

/-- FP32 and BF16 VADD … VMAX round each exact lane result once; complex products and VCMAC sum exactly before they round
(08_vector_datapath.md R227, 08_vector_datapath.md R228, 08_vector_datapath.md R229, 08_vector_datapath.md R234,
05_number_formats.md). -/
def Obligations.FloatVectorLanes : Prop :=
  ∀ (s : State) (u c p vd va vb : Nat) (ty : VTy) (a b d : Nat → Nat) (F : Fmt) (x y z : Nat → FVal),
    (∀ k, a k = lane (laneBits ty) (vr (ctx s u c) va) k) → (∀ k, b k = lane (laneBits ty) (vr (ctx s u c) vb) k) →
    (∀ k, d k = lane (laneBits ty) (vr (ctx s u c) vd) k) →
    F = (if ty = .bf16 then fmtBF16 else fmtFP32) → (∀ k, x k = decodeF F (a k)) → (∀ k, y k = decodeF F (b k)) →
    (∀ k, z k = decodeF F (d k)) →
    ∀ e ∈ ((if ty = .f32 ∨ ty = .bf16 then
          [(.vadd u p ty vd va vb, fun k => roundEnc F (addF (x k) (y k)).1 (addF (x k) (y k)).2),
           (.vsub u p ty vd va vb, fun k => roundEnc F (addF (x k) (negF (y k))).1 (addF (x k) (negF (y k))).2),
           (.vmul u p ty vd va vb, fun k => roundEnc F (mulF (x k) (y k)).1 (mulF (x k) (y k)).2),
           (.vfma u p ty vd va vb, fun k => roundEnc F (addF (mulF (x k) (y k)).1 (z k)).1
             ((mulF (x k) (y k)).2 || (addF (mulF (x k) (y k)).1 (z k)).2)),
           (.vmin u p ty vd va vb, fun k => (if isNaN (x k) && isNaN (y k) then canonNaN F else if isNaN (x k) then b k
             else if isNaN (y k) then a k else if ltF (x k) (y k) || (!ltF (y k) (x k) && signF (x k)) then a k else b k,
             noFlags)),
           (.vmax u p ty vd va vb, fun k => (if isNaN (x k) && isNaN (y k) then canonNaN F else if isNaN (x k) then b k
             else if isNaN (y k) then a k else if ltF (y k) (x k) || (!ltF (x k) (y k) && !signF (x k)) then a k else b k,
             noFlags))]
        else if ty = .cf32 then
          [(.vadd u p ty vd va vb, fun k => cPack (faddE fmtFP32 (cRe (a k)) (cRe (b k))) (faddE fmtFP32 (cIm (a k)) (cIm (b k)))),
           (.vsub u p ty vd va vb, fun k => cPack (fsubE fmtFP32 (cRe (a k)) (cRe (b k))) (fsubE fmtFP32 (cIm (a k)) (cIm (b k)))),
           (.vmul u p ty vd va vb, fun k => cPack (sumProd0 true (cRe (a k)) (cRe (b k)) (cIm (a k)) (cIm (b k)))
             (sumProd0 false (cRe (a k)) (cIm (b k)) (cIm (a k)) (cRe (b k)))),
           (.vcmac u p vd va vb, fun k => cPack (sumProd true (cRe (a k)) (cRe (b k)) (cIm (a k)) (cIm (b k)) (cRe (d k)))
             (sumProd false (cRe (a k)) (cIm (b k)) (cIm (a k)) (cRe (b k)) (cIm (d k))))]
        else []) : List (Instr × (Nat → Nat × FFlags))),
      Lone s u c .V e.1 → Runs e.1 s fun t => VecResult s t u c p ty vd (fun k => (e.2 k).1 % 2 ^ laneBits ty) ∧
        fld t (VEC_FLAGS u) ⟨0, 0, 5⟩ = fld s (VEC_FLAGS u) ⟨0, 0, 5⟩ ||| ((List.range (laneCount ty)).map fun k =>
          if (pr (ctx s u c) p).getLsbD k then vecFlagBits (e.2 k).2 else 0).foldl (· ||| ·) 0

/-- VCMP writes one predicate bit per lane, VEXT a scalar, and VCONV saturates, extends or rounds once (04_core_isa.md R125,
04_core_isa.md R126, 04_core_isa.md R133, 08_vector_datapath.md R232). -/
def Obligations.VectorComparesExtractsConversions : Prop :=
  (∀ (s : State) (u c p pd rd va vb idx : Nat) (ty : VTy) (cc : Cc) (a b : Nat → Nat) (w : Nat) (yes : Nat → Bool),
     (∀ k, a k = lane w (vr (ctx s u c) va) k) → (∀ k, b k = lane w (vr (ctx s u c) vb) k) → w = laneBits ty →
     (intTy ty = true → ∀ k, yes k = match cc with
       | .eq => decide (a k = b k) | .ne => !decide (a k = b k) | .lt => decide (sgn w (a k) < sgn w (b k))
       | .ge => !decide (sgn w (a k) < sgn w (b k)) | .ltu => decide (a k < b k) | .geu => !decide (a k < b k)) →
     (intTy ty = false → ∀ k, isNaN (decodeF (fmtOf ty) (a k)) = true ∨ isNaN (decodeF (fmtOf ty) (b k)) = true →
       yes k = decide (cc = .ne)) →
     (intTy ty = false → ∀ k, isNaN (decodeF (fmtOf ty) (a k)) = false → isNaN (decodeF (fmtOf ty) (b k)) = false →
       yes k = match cc with
         | .eq => eqF (decodeF (fmtOf ty) (a k)) (decodeF (fmtOf ty) (b k))
         | .ne => !eqF (decodeF (fmtOf ty) (a k)) (decodeF (fmtOf ty) (b k))
         | .lt => ltF (decodeF (fmtOf ty) (a k)) (decodeF (fmtOf ty) (b k))
         | .ge => !ltF (decodeF (fmtOf ty) (a k)) (decodeF (fmtOf ty) (b k))
         | _ => false) →
     (Lone s u c .V (.vcmp u p ty pd cc va vb) → Runs (.vcmp u p ty pd cc va vb) s fun t =>
       ∃ v : W64, PredResult s t u c pd v [VEC_ISSUED u] ∧ ∀ k, v.getLsbD k =
         if k < laneCount ty then (if (pr (ctx s u c) p).getLsbD k then yes k else (pr (ctx s u c) pd).getLsbD k) else false) ∧
     (Lone s u c .V (.vext u p ty rd va idx) → predTrue (ctx s u c) p = true → Runs (.vext u p ty rd va idx) s fun t =>
       (∀ r, r < 32 → sr (ctx t u c) r = if r = rd ∧ rd ≠ 0 then BitVec.ofNat 64 (a idx) else sr (ctx s u c) r) ∧
       (∀ r, vr (ctx t u c) r = vr (ctx s u c) r) ∧ (∀ r, pr (ctx t u c) r = pr (ctx s u c) r) ∧
       CoreFrame s t u c [VEC_ISSUED u])) ∧
  (∀ (s : State) (u c p h vd va : Nat) (sat : Bool) (ty d : VTy) (a : Nat → Nat) (src : Nat → Nat) (conv : Nat → Nat),
     (∀ k, a k = lane (laneBits ty) (vr (ctx s u c) va) k) →
     (∀ k, src k = if laneBits d < laneBits ty then k - 16 * h else if laneBits ty < laneBits d then 16 * h + k else k) →
     (ty = .i32 → d = .i16 → ∀ x, conv x = narrow 16 (max (-32768) (min 32767 (sgn 32 x)))) →
     (ty = .i16 → d = .i32 → ∀ x, conv x = narrow 32 (sgn 16 x)) →
     (ty = .i32 ∨ ty = .i16 → d = .f32 → ∀ x, conv x = (roundEnc fmtFP32 (ofIntF (sgn (laneBits ty) x)) false).1) →
     (ty = .i32 ∨ ty = .i16 → d = .bf16 → ∀ x, conv x = (roundEnc fmtBF16 (ofIntF (sgn (laneBits ty) x)) false).1) →
     (ty = .f32 → d = .bf16 → ∀ x, conv x = encodeF fmtBF16 (convertF fmtBF16 sat false (decodeF fmtFP32 x)).1) →
     (ty = .bf16 → d = .f32 → ∀ x, conv x = encodeF fmtFP32 (decodeF fmtBF16 x)) →
     (ty = .f32 ∨ ty = .bf16 → d = .i32 ∨ d = .i16 → ∀ x, conv x =
       narrow (laneBits d) (toIntSat (laneBits d) (decodeF (fmtOf ty) x)).1) →
     Lone s u c .V (.vconv u p ty d vd va sat h) → Runs (.vconv u p ty d vd va sat h) s fun t =>
       VecResult s t u c p d vd fun k =>
         if laneBits d < laneBits ty ∧ ¬ (16 * h ≤ k ∧ k < 16 * h + 16) then lane (laneBits d) (vr (ctx s u c) vd) k
         else conv (a (src k)) % 2 ^ laneBits d)

/-- VRED and the VSPEC search send a result that VEC_RESULT_WRITE writes, and a VSPEC filter tap moves its delay line
(08_vector_datapath.md R226, 08_vector_datapath.md R230, 04_core_isa.md R135, 04_core_isa.md R136). -/
def Obligations.VectorReductionsAndTaps : Prop :=
  (∀ (s : State) (u c p vd va vb op : Nat) (a : Nat → Nat) (on : Nat → Bool),
     (∀ k, a k = lane 32 (vr (ctx s u c) va) k) → (∀ k, on k = (pr (ctx s u c) p).getLsbD k) →
     (∃ k, k < 16 ∧ on k = true) →
     (Lone s u c .V (.vred u p .i32 vd va op) → Runs (.vred u p .i32 vd va op) s fun t => ∃ r : VecPend,
       t.core.vecs = s.core.vecs ++ [r] ∧ r.u = u ∧ r.c = c ∧ r.dst = .v vd ∧ r.flags = 0 ∧ CoreFrame s t u c [VEC_ISSUED u] ∧
       (op = 0 → r.val.toNat = ((List.range 16).map fun k => if on k then a k else 0).sum % 2 ^ 32) ∧
       (op = 1 → ∃ k, k < 16 ∧ on k = true ∧ r.val.toNat = a k ∧ ∀ j, j < 16 → on j = true → sgn 32 (a k) ≤ sgn 32 (a j)) ∧
       (op = 2 → ∃ k, k < 16 ∧ on k = true ∧ r.val.toNat = a k ∧ ∀ j, j < 16 → on j = true → sgn 32 (a j) ≤ sgn 32 (a k))) ∧
     (∀ least, Lone s u c .V (.vspecSearch u p .i32 vd va vb least false) →
       Runs (.vspecSearch u p .i32 vd va vb least false) s fun t => ∃ (r : VecPend) (k : Nat),
         t.core.vecs = s.core.vecs ++ [r] ∧ r.u = u ∧ r.c = c ∧ r.dst = .v vd ∧ r.flags = 0 ∧ k < 16 ∧ on k = true ∧
         r.val.toNat = a k + (lane 32 (vr (ctx s u c) vb) 0 + k) % 2 ^ 32 * 2 ^ 32 ∧
         (∀ j, j < 16 → on j = true → if least then sgn 32 (a k) ≤ sgn 32 (a j) else sgn 32 (a j) ≤ sgn 32 (a k)) ∧
         (∀ j, j < k → on j = true → a j ≠ a k)) ∧
     (∀ r : VecPend, r ∈ s.core.vecs → (∀ q ∈ s.core.vecs, q.tag = r.tag → q = r) →
       olderWrite s r.u r.c r.dst r.tag = true → Runs (.vecResultWrite r.tag) s fun t => RegsKept s t r.u r.c ∧
         t.core.vecs = s.core.vecs.map (fun q => if q.tag = r.tag then { r with soon := true } else q) ∧ t.mem = s.mem) ∧
     (∀ r : VecPend, r ∈ s.core.vecs → (∀ q ∈ s.core.vecs, q.tag = r.tag → q = r) → r.dst = .v vd → r.mask = allBits →
       (∀ q ∈ s.core.vecs, q.soon = false) → olderWrite s r.u r.c (.v vd) r.tag = false →
       Runs (.vecResultWrite r.tag) s fun t => vr (ctx t r.u r.c) vd = r.val ∧
         (∀ k, k ≠ vd → vr (ctx t r.u r.c) k = vr (ctx s r.u r.c) k) ∧
         (∀ k, sr (ctx t r.u r.c) k = sr (ctx s r.u r.c) k ∧ pr (ctx t r.u r.c) k = pr (ctx s r.u r.c) k) ∧
         t.core.vecs = s.core.vecs.filter (fun q => decide (q.tag ≠ r.tag)) ∧ t.mem = s.mem ∧
         (r.flags = 0 → fld t (VEC_FLAGS r.u) ⟨0, 0, 5⟩ = fld s (VEC_FLAGS r.u) ⟨0, 0, 5⟩))) ∧
  (∀ (s : State) (u c p vd va vb k : Nat) (ty : VTy) (w : Nat), intTy ty = true → w = laneBits ty →
     Lone s u c .V (.vspecTap u p ty vd va vb k) → Runs (.vspecTap u p ty vd va vb k) s fun t =>
       (∀ j, j < laneCount ty → lane w (vr (ctx t u c) vd) j = if (pr (ctx s u c) p).getLsbD j then
         (lane w (vr (ctx s u c) vd) j + lane w (vr (ctx s u c) va) j * lane w (vr (ctx s u c) vb) k) % 2 ^ w
         else lane w (vr (ctx s u c) vd) j) ∧
       (∀ j, j + 1 < laneCount ty → lane w (vr (ctx t u c) va) j = lane w (vr (ctx s u c) va) (j + 1)) ∧
       lane w (vr (ctx t u c) va) (laneCount ty - 1) = lane w (vr (ctx s u c) ((va + 1) % 16)) 0 ∧
       (∀ r, r ≠ vd → r ≠ va → vr (ctx t u c) r = vr (ctx s u c) r) ∧ CoreFrame s t u c [VEC_ISSUED u])

/-- MM queues its descriptor, and the engine starts, completes and poisons its commands (06_matrix_engines.md R188,
04_core_isa.md R137, 03_core_model.md R94, 06_matrix_engines.md R189, 06_matrix_engines.md R191, 06_matrix_engines.md R195,
06_matrix_engines.md R182, 06_matrix_engines.md R183, 07_matrix_numerics.md R208). -/
def Obligations.MatrixCommands : Prop :=
  (∀ (s : State) (u c p e dd : Nat), Lone s u c .M (.mm u p e dd) → mmFault s u e (dr (ctx s u c) dd) = none →
     (mget [] s.core.engines (u * 2 + e)).length < 4 →
     Runs (.mm u p e dd) s fun t => ∃ q : ECmd,
       mget [] t.core.engines (u * 2 + e) = mget [] s.core.engines (u * 2 + e) ++ [q] ∧ q.desc = dr (ctx s u c) dd ∧ q.c = c ∧
       q.pc = (ctx s u c).pc ∧ q.started = false ∧ q.num = (fld s (ENG_ISSUED u e) ENG_ISSUED_ISSUED + 1) % 2 ^ 64 ∧
       fld t (ENG_ISSUED u e) ENG_ISSUED_ISSUED = q.num ∧
       (∀ k, k ≠ u * 2 + e → mget [] t.core.engines k = mget [] s.core.engines k) ∧
       RegsKept s t u c ∧ Issues s t u c [ENG_ISSUED u e] ∧ t.mem = s.mem ∧ t.strm = s.strm ∧ t.core.reqs = s.core.reqs) ∧
  (∀ (s : State) (u e active stalls early k0 : Nat) (c : ECmd) (rest : List ECmd) (d : W512), u < 25600 → e < 2 → early ≤ stalls →
     mget [] s.core.engines (u * 2 + e) = c :: rest → d = c.desc → k0 = locKey (physUnit s u) 0 →
     (∀ x ∈ readItems d, ∀ w ∈ wordsOf (k0 + x.base) x.len, latentAt s w = 0) →
     (c.started = false → Runs (.engineCommandStart u e) s fun t => ∃ q : ECmd,
       mget [] t.core.engines (u * 2 + e) = q :: rest ∧ q.started = true ∧ q.desc = d ∧ q.c = c.c ∧ q.pc = c.pc ∧ q.num = c.num ∧
       q.cols = (if dCols d = 7 then 7 else unitWidth s u e) ∧ q.flow = (if dAuto d then 0 else dFlow d) ∧
       q.shape = (if dAuto d then autoShape (dM d) (dN d) q.cols else dShape d) ∧
       (dM d ≠ 0 → dN d ≠ 0 → fld t (ENG_STATUS u e) ENG_STATUS_LAST_SHAPE = q.shape ∧
         fld t (ENG_STATUS u e) ENG_STATUS_LAST_FLOW = q.flow ∧ fld t (ENG_STATUS u e) ENG_STATUS_COLS_USED = q.cols) ∧
       WordsKept s t [ENG_STATUS u e] ∧ t.mem = s.mem ∧ t.core.ctxs = s.core.ctxs) ∧
     (c.started = true → engineHeld s u e c = false → operandPoison s u c = none → Runs (.engineCommandComplete u e active stalls early) s fun t =>
       mget [] t.core.engines (u * 2 + e) = rest ∧
       fld t (ENG_DONE u e) ENG_DONE_DONE = (fld s (ENG_DONE u e) ENG_DONE_DONE + 1) % 2 ^ 64 ∧
       fld t (ENG_ACTIVE u e) ENG_ACTIVE_ACTIVE = (fld s (ENG_ACTIVE u e) ENG_ACTIVE_ACTIVE + active) % 2 ^ 64 ∧
       fld t (ENG_STALL u e) ENG_STALL_STALL = (fld s (ENG_STALL u e) ENG_STALL_STALL + stalls) % 2 ^ 64 ∧
       (∀ v x r, sr (ctx t v x) r = sr (ctx s v x) r ∧ vr (ctx t v x) r = vr (ctx s v x) r) ∧
       (dM d = 1 → dFmtC d = 7 → (∀ w ∈ wordsOf (k0 + dw d 4 0 20) (4 * dN d), latentAt s w = 0 ∧ locPoisoned s w = false) →
         (∀ a, (a < k0 + dw d 4 0 20 ∨ k0 + dw d 4 0 20 + 4 * dN d ≤ a) → memByte t.mem.loc a = memByte s.mem.loc a) ∧
         memBytes t.mem.loc (k0 + dw d 4 0 20) (4 * dN d) = (rowResult s.mem.loc k0 d 0).1 ∧
         (dN d = 1 → dK d = 1 → dFmtA d = 6 → dFmtB d = 6 → dCinit d = false → dDsm d = 0 →
           leNat (memBytes t.mem.loc (k0 + dw d 4 0 20) 4) = encodeF fmtFP32 (convertF fmtFP32 (dSat d) (dFtz d)
             (addF (.fin false 0 0) (mulF (decodeF fmtBF16 (leNat (memBytes s.mem.loc (k0 + dw d 2 0 20) 2)))
               (decodeF fmtBF16 (leNat (memBytes s.mem.loc (k0 + dw d 3 0 20) 2)))).1).1).1))) ∧
     (∀ w, c.started = true → engineHeld s u e c = false → operandPoison s u c = some w →
       (ctx s u c.c).st = .ready ∨ (ctx s u c.c).st = .waiting ∨ ((ctx s u c.c).st = .halted ∧ (ctx s u c.c).cause ≤ 3) →
       Runs (.enginePoison u e) s fun t => (ctx t u c.c).st = .faulted ∧ (ctx t u c.c).fCode = 0x0601 ∧ (ctx t u c.c).fSlot = 2 ∧
         (ctx t u c.c).fDef = true ∧ (ctx t u c.c).fPc = c.pc ∧
         (ctx t u c.c).fInfo = BitVec.ofNat 64 (devOfLocal u (8 * w % 2 ^ 20)) ∧ t.mem = s.mem))

/-- SM.OPEN starts a channel at POS − FILL, SM.SAVE copies its live descriptor, SM.CLOSE drains or closes it (10_streams.md
R270, 10_streams.md R271, 10_streams.md R291, 04_core_isa.md R139, 10_streams.md R299, 09_core_memory.md R247). -/
def Obligations.ChannelsOpenSaveAndClose : Prop :=
  ∀ (s : State) (u c p ch dd : Nat) (x : Chan) (d : W512), x = chan s u ch → d = dr (ctx s u c) dd →
    (Lone s u c .M (.smOpen u p ch dd) → openFault s u ch (chanOpen x) d = none → Runs (.smOpen u p ch dd) s fun t =>
      (chan t u ch).st = 1 ∧ (chan t u ch).owner = c ∧ (chan t u ch).openPc = (ctx s u c).pc ∧
      (chan t u ch).desc = setBits d 448 64 0 ∧ (chan t u ch).acc = sPos d - sFill d ∧
      (chan t u ch).drained = sPos d - sFill d ∧ (chan t u ch).issued = sPos d - sFill d ∧ (chan t u ch).haltAt = none ∧
      (toLink d = false → ∀ k, k ≠ chanKey u ch → mget Chan.closed t.strm.chans k = mget Chan.closed s.strm.chans k) ∧
      RegsKept s t u c ∧ Issues s t u c [] ∧ t.mem = s.mem) ∧
    (Lone s u c .M (.smSave u p ch dd) → Runs (.smSave u p ch dd) s fun t =>
      (∀ r, dr (ctx t u c) r = if r = dd then setBits x.desc 448 64
        (posShown x % 2 ^ 40 + chanFill s u ch x % 2 ^ 20 * 2 ^ 40 + x.st * 2 ^ 60) else dr (ctx s u c) r) ∧
      (∀ r, sr (ctx t u c) r = sr (ctx s u c) r ∧ vr (ctx t u c) r = vr (ctx s u c) r ∧ pr (ctx t u c) r = pr (ctx s u c) r) ∧
      Issues s t u c [] ∧ t.mem = s.mem ∧ t.strm = s.strm) ∧
    (Lone s u c .M (.smClose u p ch) → Runs (.smClose u p ch) s fun t =>
      RegsKept s t u c ∧ Issues s t u c ((List.range 16).map (BANK_OWNER u)) ∧ t.mem = s.mem ∧
      (writeChan x.desc = true → x.st = 1 ∨ x.st = 2 ∨ x.st = 4 → chan t u ch = { x with st := 5 }) ∧
      (x.st = 5 → chan t u ch = x) ∧
      (x.st ≠ 0 → x.st ≠ 5 → writeChan x.desc = false ∨ x.st = 3 → (chan t u ch).st = 0 ∧
        ∀ b, b < 16 → bankOwner t u b = if bankOwner s u b = 5 + ch then 0 else bankOwner s u b) ∧
      ∀ k, k ≠ chanKey u ch → mget Chan.closed t.strm.chans k = mget Chan.closed s.strm.chans k)

/-- SM.RD and SM.RDS deliver the next bytes of a read channel, SM.WR and SM.WRS append to a write channel (04_core_isa.md
R138, 10_streams.md R267, 04_core_isa.md R139, 10_streams.md R274). -/
def Obligations.StreamAccesses : Prop :=
  (∀ (s : State) (u c p pd r ch n : Nat) (i : Instr) (x : Chan) (bs : List PByte),
     (i = .smRd u p pd r ch ∧ n = 64 ∨ i = .smRds u p pd r ch ∧ n = 8) → Lone s u c .M i → x = chan s u ch → x.st ≠ 0 →
     readChan x.desc = true →
     (atEnd x.desc x.drained = true → x.drained ≤ x.acc → Runs i s fun t => PredResult s t u c pd 0 []) ∧
     (atEnd x.desc x.drained = false → upTo x.desc x.drained n = n → readReady s u ch n = true →
       bs = ringGet s u x.desc x.drained n → (∀ k, k < n → latentAt s (ringKey s u x.desc (x.drained + k) / 8) = 0) →
       (∀ b ∈ bs, b.2 = false) → Runs i s fun t =>
         (∀ q, vr (ctx t u c) q = if n = 64 ∧ q = r then BitVec.ofNat 512 (leNat (bs.map (·.1))) else vr (ctx s u c) q) ∧
         (∀ q, sr (ctx t u c) q = if n = 8 ∧ q = r ∧ r ≠ 0 then BitVec.ofNat 64 (leNat (bs.map (·.1))) else sr (ctx s u c) q) ∧
         (∀ q, pr (ctx t u c) q = if q = pd ∧ pd ≠ 0 then BitVec.allOnes 64 else pr (ctx s u c) q) ∧
         (∀ q, dr (ctx t u c) q = dr (ctx s u c) q) ∧ (chan t u ch).drained = x.drained + n ∧ (chan t u ch).st = x.st ∧
         (x.spIn = x.spOut → (chan t u ch).acc = x.acc ∧ t.mem = s.mem ∧ Issues s t u c []))) ∧
  (∀ (s : State) (u c p r ch n v : Nat) (i : Instr) (x : Chan),
     (i = .smWr u p r ch ∧ n = 64 ∧ v = (vr (ctx s u c) r).toNat ∨ i = .smWrs u p r ch ∧ n = 8 ∧ v = (sr (ctx s u c) r).toNat) →
     Lone s u c .M i → x = chan s u ch → x.st ≠ 0 → x.st ≠ 5 → writeChan x.desc = true → upTo x.desc x.acc n = n →
     atEnd x.desc x.acc = false → writeReady s u ch n = true →
     (∀ k, k < n → latentAt s (ringKey s u x.desc (x.acc + k) / 8) = 0 ∧
       locPoisoned s (ringKey s u x.desc (x.acc + k) / 8) = false) →
     Runs i s fun t => (∀ k, k < n → memByte t.mem.loc (ringKey s u x.desc (x.acc + k)) = BitVec.ofNat 8 (v / 2 ^ (8 * k))) ∧
       (∀ a, (∀ k, k < n → a ≠ ringKey s u x.desc (x.acc + k)) → memByte t.mem.loc a = memByte s.mem.loc a) ∧
       t.mem.dram = s.mem.dram ∧ (chan t u ch).acc = x.acc + n ∧ (chan t u ch).drained = x.drained ∧
       (chan t u ch).st = x.st ∧ (∀ k, k ≠ chanKey u ch → mget Chan.closed t.strm.chans k = mget Chan.closed s.strm.chans k) ∧
       RegsKept s t u c ∧ Issues s t u c [])

/-- A load that passes its checks sets out for ra plus its immediate and leaves its destination outstanding (04_core_isa.md
R140, 04_core_isa.md R141, 03_core_model.md R95, 06_matrix_engines.md R197). -/
def Obligations.LoadsSetOut : Prop :=
  ∀ (s : State) (u c p rd vd ra imm ea : Nat), ea = (sr (ctx s u c) ra + (BitVec.ofNat 13 imm).signExtend 64).toNat →
    ∀ e ∈ ([(.ldB u p rd ra imm, 1, false, .s rd), (.ldH u p rd ra imm, 2, false, .s rd), (.ldW u p rd ra imm, 4, false, .s rd),
        (.ldD u p rd ra imm, 8, false, .s rd), (.ldBs u p rd ra imm, 1, true, .s rd), (.ldHs u p rd ra imm, 2, true, .s rd),
        (.ldWs u p rd ra imm, 4, true, .s rd), (.ldV u p vd ra imm, 64, false, .v vd),
        (.ldDsc u p vd ra imm, 64, false, .d vd)] : List (Instr × Nat × Bool × Reg)),
      Lone s u c .X e.1 → accessFault s u c ea e.2.1 false 0 = none →
      (takesEntry u ea e.2.1 (some e.2.2.2) = true → slotFree s u c (readAddrs s u ea e.2.1) = true) →
      Runs e.1 s fun t => SetsOut s t u c (.load ea e.2.1 e.2.2.1) (some e.2.2.2) 0 (fun r =>
          r.tracked = takesEntry u ea e.2.1 (some e.2.2.2) ∧
          (ownAll u ea e.2.1 = true → mustWait s u c ea e.2.1 = false →
            (∀ w ∈ wordsOf (homeKey s ea) e.2.1, latentAt s w = 0 ∧ locPoisoned s w = false) → r.parts = [⟨ea, e.2.1, some (.bytes (memBytes s.mem.loc (homeKey s ea) e.2.1) [])⟩]) ∧
          (ownPageAt u ea = false → ownAll u ea e.2.1 = false ∨ mustWait s u c ea e.2.1 = true →
            r.parts.map (fun x => (x.addr, x.n)) = bankParts s u ea e.2.1 ∧
            ((∀ x ∈ bankParts s u ea e.2.1, ownMem u x.1 = true → mustWait s u c x.1 x.2 = false) →
              ∀ x ∈ r.parts, (x.ans = none ↔ ownMem u x.addr = false))) ∧
          (ownPageAt u ea = true → r.parts = [⟨ea, e.2.1, none⟩])) ∧
        RegsKept s t u c ∧ (ctx t u c).pc = (ctx s u c).pc + 1 ∧
        ((∀ x ∈ partsOf s ea e.2.1, ownMem u x.1 = true → ∀ w ∈ wordsOf (homeKey s x.1) x.2, latentAt s w = 0) →
          CoreFrame s t u c [])

/-- A store writes the low bytes of its register to the core's own memory, and sets out for any other place (04_core_isa.md
R140, 04_core_isa.md R141, 09_core_memory.md R253, 03_core_model.md R102). -/
def Obligations.StoresReachTheirBytes : Prop :=
  ∀ (s : State) (u c p rs ra imm ea : Nat), ea = (sr (ctx s u c) ra + (BitVec.ofNat 13 imm).signExtend 64).toNat →
    ∀ e ∈ ([(.stB u p rs ra imm, 1, (sr (ctx s u c) rs).toNat), (.stH u p rs ra imm, 2, (sr (ctx s u c) rs).toNat),
        (.stW u p rs ra imm, 4, (sr (ctx s u c) rs).toNat), (.stD u p rs ra imm, 8, (sr (ctx s u c) rs).toNat),
        (.stV u p rs ra imm, 64, (vr (ctx s u c) rs).toNat), (.stDsc u p rs ra imm, 64, (dr (ctx s u c) rs).toNat)] :
        List (Instr × Nat × Nat)),
      Lone s u c .X e.1 → accessFault s u c ea e.2.1 true e.2.2 = none →
      (ownAll u ea e.2.1 = true → mustWait s u c ea e.2.1 = false →
        (∀ w ∈ wordsOf (homeKey s ea) e.2.1, latentAt s w = 0 ∧ locPoisoned s w = false) → Runs e.1 s fun t => (∀ a, memByte t.mem.loc a = if homeKey s ea ≤ a ∧ a < homeKey s ea + e.2.1 then
            BitVec.ofNat 8 (e.2.2 / 2 ^ (8 * (a - homeKey s ea))) else memByte s.mem.loc a) ∧
          t.mem.dram = s.mem.dram ∧ t.core.reqs = s.core.reqs ∧ RegsKept s t u c ∧ Issues s t u c []) ∧
      (ea = 3 * 2 ^ 48 + CTX_TRAP u c → e.2.1 = 4 → u < 25600 → Runs e.1 s fun t =>
        (ctx t u c).vec = (ctx s u c).vec ∧ (ctx t u c).epc = (ctx s u c).epc ∧ t.mem = s.mem ∧
        (ctx (settleOwn u t) u c).vec = e.2.2 % 2 ^ 11 ∧ (ctx (settleOwn u t) u c).epc = e.2.2 / 2 ^ 16 % 2 ^ 11 ∧
        RegsKept s t u c ∧ Issues s t u c []) ∧
      (ownAll u ea e.2.1 = false ∨ mustWait s u c ea e.2.1 = true → ownPageAt u ea = false →
        (∀ x ∈ bankParts s u ea e.2.1, ownMem u x.1 = true → ∀ w ∈ wordsOf (homeKey s x.1) x.2, latentAt s w = 0 ∧ locPoisoned s w = false) →
        Runs e.1 s fun t => SetsOut s t u c (.store ea (leBytes e.2.1 e.2.2) []) none 0 (fun r =>
          r.parts.map (fun x => (x.addr, x.n)) = bankParts s u ea e.2.1 ∧ ∀ x ∈ r.parts, ownMem u x.addr = false → x.ans = none) ∧
        RegsKept s t u c ∧ Issues s t u c [] ∧
        ((∀ x ∈ bankParts s u ea e.2.1, ownMem u x.1 = true → mustWait s u c x.1 x.2 = true) → t.mem = s.mem))

/-- SYNC, LOCK, MBX and Q instructions send their operation to the block; SYNC.WAIT then holds its context (04_core_isa.md
R140, 04_core_isa.md R143, 04_core_isa.md R144, 12_packet_network.md R341). -/
def Obligations.MessagingInstructionsSetOut : Prop :=
  ∀ (s : State) (u c p rd pd vb ra rb v : Nat) (w : W64), v = (sr (ctx s u c) ra).toNat → w = sr (ctx s u c) rb →
    ∀ e ∈ ([(.syncAdd u p rd ra rb, .syncAdd v w, some (.s rd), 0, v < 2 ^ 26 ∧ (v < 2 ^ 25 → v < 2 ^ 16)),
        (.syncSet u p rd ra rb, .syncSet v w, some (.s rd), 0, v < 2 ^ 26 ∧ (v < 2 ^ 25 → v < 2 ^ 16)),
        (.syncWait u p rd ra rb, .syncWait v w, some (.s rd), 0, v < 2 ^ 26 ∧ (v < 2 ^ 25 → v < 2 ^ 16)),
        (.syncTest u p pd ra rb, .syncTest v w, none, pd, v < 2 ^ 26 ∧ (v < 2 ^ 25 → v < 2 ^ 16)),
        (.lockAcq u p rd ra, .lockAcq v, some (.s rd), 0, v < 256), (.lockRel u p ra, .lockRel v, none, 0, v < 256),
        (.mbxSend u p rd ra rb, .mbxSend (v % 64) (v / 64 % 32) 0, some (.s rd), 0, v < 2 ^ 11),
        (.mbxWdraw u p rd ra, .mbxWdraw v, some (.s rd), 0, v < 64),
        (.qSubmit u p rd ra vb, .qSubmit v (vr (ctx s u c) vb), some (.s rd), 0, v < 65536),
        (.qTake u p pd vb ra, .qTake v, some (.v vb), pd, v < 65536)] :
        List (Instr × ReqOp × Option Reg × Nat × Prop)),
      Lone s u c .X e.1 → e.2.2.2.2 → (opTakesEntry e.1 = true → slotFree s u c (bodyAddrs s u c e.1) = true) →
      Runs e.1 s fun t => SetsOut s t u c e.2.1 e.2.2.1 e.2.2.2.1 (fun r => r.parts = [⟨0, 0, none⟩]) ∧ RegsKept s t u c ∧
        CoreFrame s t u c [] ∧ (ctx t u c).pc = (ctx s u c).pc + 1 ∧
        (if e.1 = .syncWait u p rd ra rb then (ctx t u c).st = .waiting ∧ (ctx t u c).reason = 9 ∧
          (ctx t u c).hold = .sync s.core.nextTag else (ctx t u c).st = .ready)

/-- EVT.WAIT and both forms of GLINT.WAIT hold a context or let it go on; EVT.SEND sets the SOFT event of a context
(03_core_model.md R113, 03_core_model.md R115, 02_pace.md R52, 02_pace.md R53, 02_pace.md R54, 04_core_isa.md R140). -/
def Obligations.EventsAndGlintWaits : Prop :=
  ∀ (s : State) (u c p k now : Nat) (x : Ctx), x = ctx s u c → now = fld s PACE_SLOT PACE_SLOT_SLOT →
    (Lone s u c .X (.evtWait u p) → Runs (.evtWait u p) s fun t => RegsKept s t u c ∧ CoreFrame s t u c [] ∧
      (ctx t u c).pc = x.pc + 1 ∧ (x.pend &&& x.en = 0 → (ctx t u c).st = .waiting ∧ (ctx t u c).reason = 10 ∧
        (ctx t u c).hold = .event) ∧ (x.pend &&& x.en ≠ 0 → (ctx t u c).st = .ready)) ∧
    (Lone s u c .X (.evtSend u p k) → Runs (.evtSend u p k) s fun t => RegsKept s t u k ∧ RegsKept s t u c ∧
      (ctx t u c).pc = x.pc + 1 ∧ t.mem = s.mem ∧ WordsKept s t [CORE_BEATS u] ∧
      (ctx t u k).pend = (if (ctx s u k).st = .unloaded then (ctx s u k).pend else (ctx s u k).pend ||| 8) ∧
      (∀ v d, ctxKey v d ≠ ctxKey u c → ctxKey v d ≠ ctxKey u k → ctx t v d = ctx s v d)) ∧
    (∀ i, i = .glintWaitNext u p ∨ i = .glintWaitAlign u p → Lone s u c .X i → x.paced = false → Runs i s fun t =>
      RegsKept s t u c ∧ CoreFrame s t u c [] ∧ (ctx t u c).pc = x.pc + 1 ∧
      (s.pace.reachAt ≠ some s.now → (ctx t u c).st = .waiting ∧ (ctx t u c).reason = 8 ∧ (ctx t u c).hold = .nextGlint) ∧
      (s.pace.reachAt = some s.now → mget 0 s.core.reached u = fld t (CORE_BEATS u) CORE_BEATS_BEATS →
        (ctx t u c).st = .ready ∧ (ctx t u c).paced = true ∧ (ctx t u c).slot = now)) ∧
    (s.pace.reachAt ≠ some s.now → (∀ g ∈ s.core.glints, ¬ (g.1 = u ∧ g.2.1 = x.slot + 1)) → x.paced = true →
      (Lone s u c .X (.glintWaitNext u p) → Runs (.glintWaitNext u p) s fun t => RegsKept s t u c ∧ CoreFrame s t u c [] ∧
        (ctx t u c).slot = x.slot + 1 ∧ (ctx t u c).pc = x.pc + 1 ∧
        (now < x.slot + 1 → (ctx t u c).st = .waiting ∧ (ctx t u c).reason = 8 ∧ (ctx t u c).hold = .glint (x.slot + 1)) ∧
        (x.slot + 1 ≤ now → (ctx t u c).st = .ready)) ∧
      (Lone s u c .X (.glintWaitAlign u p) → Runs (.glintWaitAlign u p) s fun t => RegsKept s t u c ∧
        CoreFrame s t u c [CORE_SKIPPED u] ∧ (ctx t u c).slot = now + 1 ∧ (ctx t u c).st = .waiting ∧
        (ctx t u c).hold = .glint (now + 1) ∧ (ctx t u c).pc = x.pc + 1 ∧
        fld t (CORE_SKIPPED u) CORE_SKIPPED_SKIPPED = (fld s (CORE_SKIPPED u) CORE_SKIPPED_SKIPPED + (now - x.slot)) % 2 ^ 64))

/-- FP.RD takes the port's oldest word, FP.WR and FP.MARK queue a transfer to the Loam, FP.FLUSH waits for an empty port
(04_core_isa.md R140, 04_core_isa.md R145, 15_loam.md R415, 15_loam.md R416). -/
def Obligations.FabricPortInstructions : Prop :=
  ∀ (s : State) (u c p r e imm : Nat), u < 25600 → hasEdge u e = true → privOf s u c = .border → fabReady s u e = true →
    (∀ w rest, (fabOf s u e).rx = w :: rest → Lone s u c .X (.fpRd u p r e) → Runs (.fpRd u p r e) s fun t =>
      (∀ q, sr (ctx t u c) q = if q = r ∧ r ≠ 0 then w else sr (ctx s u c) q) ∧
      (∀ q, vr (ctx t u c) q = vr (ctx s u c) q ∧ pr (ctx t u c) q = pr (ctx s u c) q ∧ dr (ctx t u c) q = dr (ctx s u c) q) ∧
      (fabOf t u e).rx = rest ∧ (fabOf t u e).tx = (fabOf s u e).tx ∧ Issues s t u c [] ∧ t.mem = s.mem) ∧
    (∀ (i : Instr) (x : FabTx), (i = .fpWr u p r e ∧ x = .word (sr (ctx s u c) r) ∨ i = .fpMark u p e imm ∧ x = .mark imm) →
      Lone s u c .X i → (fabOf s u e).tx.length < 4 → Runs i s fun t =>
        (∃ a : State, a.loam = (setFab u e { fabOf s u e with tx := (fabOf s u e).tx ++ [(x, txTokens x)] } s).loam ∧
          t.loam = (move ((List.range 5).map fun k => siteAt (regionOf u e) (portOf u e) 0 * 32 + 14 + k) a).loam) ∧
        RegsKept s t u c ∧ (ctx t u c).pc = (ctx s u c).pc + 1 ∧ t.mem = s.mem ∧ t.core.reqs = s.core.reqs) ∧
    (Lone s u c .X (.fpFlush u p e) → (fabOf s u e).tx = [] → Runs (.fpFlush u p e) s fun t =>
      Goes s t u c ((ctx s u c).pc + 1))

/-- SV.PRST resets or restarts a plot, SV.SRES resumes a stream, SV.PSW writes four bundles (03_core_model.md R90,
03_core_model.md R91, 04_core_isa.md R140, 04_core_isa.md R146, 10_streams.md R291, 10_streams.md R293). -/
def Obligations.SupervisorInstructions : Prop :=
  ∀ (s : State) (u c p ra rb vb v : Nat), 25600 ≤ u → v = (sr (ctx s u c) ra).toNat →
    (Lone s u c .X (.svPrst u p ra) → plotValid s (v % 64) = true → Runs (.svPrst u p ra) s fun t =>
      fld t (PLOT_STATUS (v % 64)) PLOT_STATUS_STATE = (if v / 64 % 2 = 1 then 2 else 5) ∧
      (∀ w d, d < 8 → unitIn s (v % 64) w = true → absentCore s w = false → ctxEnabled s w d = true → (ctx t w d).pc = entryOf s w d ∧
        (if v / 64 % 2 = 1 then (ctx t w d).st = .ready else (ctx t w d).st = .halted ∧ (ctx t w d).cause = 5) ∧
        ∀ r, sr (ctx t w d) r = 0 ∧ vr (ctx t w d) r = 0 ∧ dr (ctx t w d) r = 0) ∧
      (ctx t u c).pc = (ctx s u c).pc + 1 ∧ RegsKept s t u c ∧ t.mem = s.mem) ∧
    (Lone s u c .X (.svSres u p ra rb) → (sr (ctx s u c) rb).getLsbD 0 = false →
      (chan s (v % 2 ^ 15) (v / 2 ^ 15 % 4)).st = 2 ∨ (chan s (v % 2 ^ 15) (v / 2 ^ 15 % 4)).st = 3 →
      ((chan s (v % 2 ^ 15) (v / 2 ^ 15 % 4)).code = 0x0402 →
        routeFenced s (v % 2 ^ 15) (chan s (v % 2 ^ 15) (v / 2 ^ 15 % 4)).desc = false) →
      (chan s (v % 2 ^ 15) (v / 2 ^ 15 % 4)).lost = false → Runs (.svSres u p ra rb) s fun t =>
        (chan t (v % 2 ^ 15) (v / 2 ^ 15 % 4)).st = 1 ∧ (chan t (v % 2 ^ 15) (v / 2 ^ 15 % 4)).haltAt = none ∧
        RegsKept s t u c ∧ Issues s t u c [] ∧ t.mem = s.mem) ∧
    (Lone s u c .X (.svPsw u p ra vb) → v % 2 ^ 15 < 25600 → v / 2 ^ 16 % 4 = 0 → coreIdle s (v % 2 ^ 15) = true →
      Runs (.svPsw u p ra vb) s fun t => RegsKept s t u c ∧ Issues s t u c [] ∧ t.mem = s.mem ∧
        (∀ k, k < 4 → bundleAt t (v % 2 ^ 15) (v / 2 ^ 16 % 2048 + k) = (vr (ctx s u c) vb).extractLsb' (128 * k) 128) ∧
        (∀ w n, n < 2048 → ¬ (w = v % 2 ^ 15 ∧ v / 2 ^ 16 % 2048 ≤ n ∧ n < v / 2 ^ 16 % 2048 + 4) →
          bundleAt t w n = bundleAt s w n))

/-- A bundle whose instruction fails its check faults with the rule's code, changes no register and counts an empty beat
(03_core_model.md R117, 03_core_model.md R97, 04_core_isa.md R146, 03_core_model.md R106, 03_core_model.md R107,
04_core_isa.md R138, 04_core_isa.md R143). -/
def Obligations.ChecksThatFail : Prop :=
  ∀ (s : State) (u c p pd rd ra ch imm n : Nat),
    ∀ e ∈ ([(.S, .ret u p, 2047 < (sr (ctx s u c) 31).toNat, 0x0104, (sr (ctx s u c) 31).toNat),
        (.S, .eret u p, (ctx s u c).eie = true, 0x0109, 0),
        (.S, .loop u p ra n, 2 ^ 24 < (sr (ctx s u c) ra).toNat ∨ n ≤ (ctx s u c).pc, 0x0106, 0),
        (.S, .loopi u p ch n, n ≤ (ctx s u c).pc, 0x0106, 0),
        (.S, .repii u p n, privOf s u c ≠ .user ∧ bodyBad s u ((ctx s u c).pc + 1) = true, 0x0107, 0),
        (.S, .repii u p n, privOf s u c = .user, 0x0102, 0),
        (.M, .mm u p ch rd, unitWidth s u ch = 0, 0x0206, 0),
        (.M, .smOpen u p ch rd, (chan s u ch).st ≠ 0, 0x010C, 0), (.M, .smRd u p pd rd ch, (chan s u ch).st = 0, 0x010C, 0),
        (.M, .smWrs u p rd ch, (chan s u ch).st = 0, 0x010C, 0),
        (.X, .ldD u p rd ra imm, 2 ^ 56 ≤ (sr (ctx s u c) ra + (BitVec.ofNat 13 imm).signExtend 64).toNat, 0x0603,
          (sr (ctx s u c) ra + (BitVec.ofNat 13 imm).signExtend 64).toNat),
        (.X, .lockAcq u p rd ra, 256 ≤ (sr (ctx s u c) ra).toNat, 0x0603, 0),
        (.X, .syncAdd u p rd ra n, 2 ^ 26 ≤ (sr (ctx s u c) ra).toNat, 0x0603, 0),
        (.X, .svPrst u p ra, u < 25600, 0x0102, 0),
        (.X, .fpRd u p rd n, privOf s u c = .border ∧ hasEdge u n = false, 0x010B, 0)] :
        List (Slot × Instr × Prop × Nat × Nat)),
      Lone s u c e.1 e.2.1 → e.2.2.1 → Runs (.emptyBeat u) s fun t =>
        Faulted s t u c e.2.2.2.1 (slotNo e.1) e.2.2.2.2 ∧ t.mem = s.mem ∧
        fld t (CORE_EMPTY u) CORE_EMPTY_EMPTY = (fld s (CORE_EMPTY u) CORE_EMPTY_EMPTY + 1) % 2 ^ 64

/-- LOAD_RETURN writes the destination of an answered access, or raises 0x0601 for poison; STORE_ACK ends a store
(03_core_model.md R95, 03_core_model.md R118, 09_core_memory.md R256, 04_core_isa.md R140, 12_packet_network.md R343). -/
def Obligations.AnswersReturn : Prop :=
  ∀ (s : State) (tag : Nat) (r : Req), findReq s tag = some r → answered r = true → reaches s r = true → dstFree s r = true →
    r.chan = false → r.orphan = false → (∀ v ∈ s.core.vecs, v.soon = false) →
    (∀ a n sg d, r.op = .load a n sg → gather r.parts = (d, [], none) → r.pdst = 0 → Runs (.loadReturn tag) s fun t =>
      t.core.reqs = s.core.reqs.filter (fun q => decide (q.tag ≠ tag)) ∧ t.mem = s.mem ∧ WordsKept s t [] ∧
      (∀ v e, ctxKey v e ≠ ctxKey r.u r.c → ctx t v e = ctx s v e) ∧
      (∀ q, sr (ctx t r.u r.c) q = if r.dst = some (.s q) ∧ q ≠ 0 then
        (if sg then sext64 (8 * n) (leNat d) else BitVec.ofNat 64 (leNat d)) else sr (ctx s r.u r.c) q) ∧
      (∀ q, vr (ctx t r.u r.c) q = if r.dst = some (.v q) then BitVec.ofNat 512 (leNat d) else vr (ctx s r.u r.c) q) ∧
      (∀ q, dr (ctx t r.u r.c) q = if r.dst = some (.d q) then BitVec.ofNat 512 (leNat d) else dr (ctx s r.u r.c) q)) ∧
    (∀ a n sg d w, r.op = .load a n sg → gather r.parts = (d, [w], none) → overlaps w 8 a n = true → r.dst = some (.s 1) →
      (ctx s r.u r.c).st = .ready ∨ (ctx s r.u r.c).st = .waiting → Runs (.loadReturn tag) s fun t =>
        (ctx t r.u r.c).st = .faulted ∧ (ctx t r.u r.c).fCode = 0x0601 ∧ (ctx t r.u r.c).fSlot = 3 ∧
        (ctx t r.u r.c).fDef = true ∧ (ctx t r.u r.c).fPc = r.pc ∧ (ctx t r.u r.c).fInfo = BitVec.ofNat 64 w ∧
        RegsKept s t r.u r.c ∧ t.mem = s.mem) ∧
    (∀ i v d st, r.op = .syncAdd i v ∨ r.op = .syncSet i v ∨ r.op = .lockAcq i → r.parts = [⟨0, 0, some (.status st)⟩] →
      r.dst = some (.s d) → Runs (.loadReturn tag) s fun t =>
        (∀ q, sr (ctx t r.u r.c) q = if q = d ∧ d ≠ 0 then st else sr (ctx s r.u r.c) q) ∧ t.mem = s.mem ∧ WordsKept s t []) ∧
    (∀ i v b, r.op = .syncTest i v → r.parts = [⟨0, 0, some (.test b)⟩] → Runs (.loadReturn tag) s fun t =>
      (∀ q, pr (ctx t r.u r.c) q = if q = r.pdst ∧ q ≠ 0 then boolWord b else pr (ctx s r.u r.c) q) ∧ t.mem = s.mem) ∧
    (∀ i e v, r.op = .qTake i → r.parts = [⟨0, 0, some (.taken true e)⟩] → r.dst = some (.v v) → Runs (.loadReturn tag) s fun t =>
      vr (ctx t r.u r.c) v = e ∧ (r.pdst ≠ 0 → pr (ctx t r.u r.c) r.pdst = BitVec.allOnes 64) ∧ t.mem = s.mem) ∧
    (∀ a d b, r.op = .store a d b → Runs (.storeAck tag) s fun t =>
      t = { s with core := { s.core with reqs := s.core.reqs.filter (fun q => decide (q.tag ≠ tag)) } })

/-- A due trap goes to VEC; debug control halts, resumes and steps a context; SET_SOFT sets its SOFT event (03_core_model.md
R114, 03_core_model.md R111, 03_core_model.md R113, 03_core_model.md R102). -/
def Obligations.TrapsAndDebugControl : Prop :=
  ∀ (s : State) (m : Master) (u c : Nat) (x : Ctx), u < 25604 → c < 8 → masterOk m = true → x = ctx s u c →
    let Only (t : State) (y : Ctx) : Prop := ctx t u c = y ∧
      (∀ v d, ctxKey v d ≠ ctxKey u c → ctx t v d = ctx s v d) ∧ t = { s with core := { s.core with ctxs := t.core.ctxs } }
    (x.st = .ready → x.eie = true → x.pend &&& x.en ≠ 0 → x.repiOn = false → Runs (.trapTake u c) s fun t =>
      Only t { x with epc := x.pc, pc := x.vec, eie := false }) ∧
    (∀ i ∈ [Instr.haltReq m u c, .resume m u c, .stepCtx m u c, .setSoft m u c],
      (mayAdmin s m = false → Reaches s m (CTX_CTRL u c) → exec i s = .next s) ∧
      (∀ v d, m = .unit v d → v < 25600 → i ≠ .setSoft m v d → (ctx s v d).st = .ready ∨ (ctx s v d).st = .waiting → Runs i s fun t =>
        Faulted s t v d 0x0102 3 (3 * 2 ^ 48 + CTX_CTRL u c) ∧ t.mem = s.mem)) ∧
    (mayAdmin s m = true → Reaches s m (CTX_CTRL u c) →
      (x.st = .ready ∨ x.st = .waiting → Runs (.haltReq m u c) s fun t => Only t (if x.repiOn then { x with haltReq := true }
        else { x with st := .halted, cause := 2, reason := 0, haltReq := false })) ∧
      (x.st ≠ .ready → x.st ≠ .waiting → Runs (.haltReq m u c) s fun t => Only t x) ∧
      (∀ i b, (i = .resume m u c ∧ b = false ∨ i = .stepCtx m u c ∧ b = true) →
        (x.st = .halted → x.cause = 1 ∨ x.cause = 2 → Runs i s fun t => Only t { x with
          st := if x.hold = .none then .ready else .waiting, cause := 0, stepping := b
          reason := match x.hold with
            | .none => 0
            | .sync _ => 9
            | .event => 10
            | _ => 8 })) ∧
      (x.st ≠ .unloaded → x.hold ≠ .event → Runs (.setSoft m u c) s fun t => Only t { x with pend := x.pend ||| 8 }))

/-- A plot reset halts its contexts with cause 5, a start makes them READY, settling ends a plot fault (03_core_model.md R90,
03_core_model.md R91, 03_core_model.md R93, 11_stream_network.md R325, 13_sync_and_messaging.md R357,
13_sync_and_messaging.md R377). -/
def Obligations.PlotsResetStartAndSettle : Prop :=
  ∀ (s : State) (m : Master) (p : Nat), masterOk m = true → p < 64 → plotValid s p = true → isSupervisor m = true ∨ isOwner s m = true →
    Reaches s m (PLOT_CTRL p) →
    (∀ start, Runs (.plotReset m p start) s fun t => t.mem = s.mem ∧ t.pending = s.pending ∧
      fld t (PLOT_STATUS p) PLOT_STATUS_STATE = (if start then 2 else 5) ∧ fld t (PLOT_STATUS p) PLOT_STATUS_FENCED = 0 ∧
      ∀ u, unitIn s p u = true →
        (∀ e, e < 2 → mget [] t.core.engines (u * 2 + e) = []) ∧ (∀ ch, ch < 4 → (chan t u ch).st = 0) ∧
        (∀ c, c < 8 → absentCore s u = false → ctxEnabled s u c = true → (ctx t u c).pc = entryOf s u c ∧
          (if start then (ctx t u c).st = .ready else (ctx t u c).st = .halted ∧ (ctx t u c).cause = 5) ∧
          ∀ r, sr (ctx t u c) r = 0 ∧ vr (ctx t u c) r = 0 ∧ dr (ctx t u c) r = 0)) ∧
    (fld s (PLOT_STATUS p) PLOT_STATUS_STATE = 5 → Runs (.plotStart m p) s fun t =>
      fld t (PLOT_STATUS p) PLOT_STATUS_STATE = 2 ∧ t.mem = s.mem ∧ WordsKept s t [PLOT_STATUS p] ∧
      ∀ u c, c < 8 → ctx t u c = if unitIn s p u = true ∧ (ctx s u c).st = .halted ∧ (ctx s u c).cause = 5 then
        { ctx s u c with st := .ready, cause := 0 } else ctx s u c) ∧
    (fld s (PLOT_STATUS p) PLOT_STATUS_STATE ≠ 5 → exec (.plotStart m p) s = .next s) ∧
    (faultFence s p = true → fld s (PLOT_STATUS p) PLOT_STATUS_STATE ≠ 4 → (∀ r ∈ s.core.reqs, unitIn s p r.u = false) →
      Runs (.plotFaultSettle p) s fun t => fld t (PLOT_STATUS p) PLOT_STATUS_STATE = 4 ∧ t.mem = s.mem ∧
        (∃ e : LogEntry, t.log.inFlight = s.log.inFlight ++ [e] ∧ e.cls = .contained ∧ e.plot = some p ∧
          e.code = fld s (PLOT_STATUS p) PLOT_STATUS_FIRST_CODE) ∧
        (∀ q, q < 65536 → fld s (Q_CFG q) Q_CFG_OWNER = 3 → fld s (Q_CFG q) Q_CFG_PLOT = p → fld s (Q_CFG q) Q_CFG_STATE = 1 →
          fld t (Q_CFG q) Q_CFG_STATE = 2))

/-- An epoch starts for the committed plots that are named, steps on as they halt and drain, and ends with its halts
cancelled (01_organisation.md R31, 01_organisation.md R32, 03_core_model.md R110). -/
def Obligations.EpochsStartAndEnd : Prop :=
  ∀ (s : State) (m : Master) (p : Nat), masterOk m = true → p < 64 → isSupervisor m = true ∨ isOwner s m = true →
    Reaches s m GLB_EPOCH_CTRL →
    (epochOn s = true ∨ namedPlots s = [] → Runs (.epochStart m) s fun t =>
      t = { s with csr := t.csr } ∧ fld t GLB_EPOCH_CTRL GLB_EPOCH_CTRL_REFUSED = 1 ∧ WordsKept s t [GLB_EPOCH_CTRL]) ∧
    (epochOn s = false → namedPlots s ≠ [] → Runs (.epochStart m) s fun t => epochOn t = true ∧ epochStep t = 2 ∧
      t.avl.epochIn = namedPlots s ∧ t.core = s.core ∧ t.mem = s.mem ∧
      WordsKept s t (GLB_STATUS :: GLB_EPOCH_CTRL :: (namedPlots s).map PLOT_STATUS)) ∧
    (epochOn s = true → epochStep s = 2 → (∀ q ∈ s.avl.epochIn, plotHalted s q = true) → Runs .epochHalted s fun t =>
      t = { s with csr := t.csr } ∧ epochStep t = 3 ∧ WordsKept s t [GLB_EPOCH_CTRL]) ∧
    (epochOn s = true → epochStep s = 3 → epochDry s = true → Runs .epochDrained s fun t => epochStep t = 4 ∧
      (∀ q ∈ s.avl.epochIn, flag t (PLOT_STATUS q) PLOT_STATUS_FENCED = true) ∧ t.core = s.core ∧ t.mem = s.mem) ∧
    (epochOn s = true → epochStep s = 2 → p ∈ s.avl.epochIn → p ∉ s.avl.epochLate → 0 < fld s (PLOT_CFG p) PLOT_CFG_PATIENCE →
      s.avl.epochFrom + fld s (PLOT_CFG p) PLOT_CFG_PATIENCE ≤ s.log.glints → plotHalted s p = false →
      Runs (.epochTimeout p) s fun t => fld t GLB_EPOCH_CTRL GLB_EPOCH_CTRL_TIMEOUT = 1 ∧
        (∃ e : LogEntry, t.log.inFlight = s.log.inFlight ++ [e] ∧ e.code = 0x0C03 ∧ e.plot = some p) ∧ t.core = s.core) ∧
    (epochOn s = false → Runs (.epochEnd m) s fun t =>
      t = { s with csr := t.csr } ∧ fld t GLB_EPOCH_CTRL GLB_EPOCH_CTRL_REFUSED = 1 ∧ WordsKept s t [GLB_EPOCH_CTRL]) ∧
    (epochOn s = true → epochStep s ≠ 4 → loadBusy s = false → Runs (.epochEnd m) s fun t => epochOn t = false ∧ epochStep t = 0 ∧
      t.avl.epochIn = [] ∧ t.mem = s.mem ∧ (∀ q ∈ s.avl.epochFence, flag t (PLOT_STATUS q) PLOT_STATUS_FENCED = false) ∧
      ∀ u c, c < 8 → ctx t u c = if inEpoch s u = true ∧ (ctx s u c).st = .halted ∧ (ctx s u c).cause = 3 then
        { ctx s u c with st := .ready, cause := 0, reason := 0 } else ctx s u c) ∧
    (epochOn s = true → epochStep s = 5 → loadBusy s = true → Runs (.epochEnd m) s fun t => epochOn t = true ∧ epochStep t = 6 ∧
      t.avl.epochEnd = true ∧ t.core = s.core ∧ t.mem = s.mem) ∧
    (epochOn s = true → epochStep s = 4 → s.avl.epochEnd = false → s.mc.ccSwitch = false → Runs .epochSparesMoved s fun t =>
      epochStep t = 5 ∧ epochOn t = true)

/-- BANK_OWNER_WRITE and BANK_HANDOVER complete: a permitted write hands a bank over at once or once its owner is done;
another is not carried out (09_core_memory.md R242, 09_core_memory.md R244, 09_core_memory.md R245, 03_core_model.md R102).
-/
def Obligations.BanksChangeHands : Prop :=
  (∀ (s : State) (m : Master) (u b code : Nat), u < 25600 → b < 16 → code ≤ 10 → masterOk m = true →
     Reaches s m (BANK_OWNER u b) → isSupervisor m = true ∨ isOwner s m = true → (code = 9 → borderCore u = true) →
     (ownerBusy s u b = false → ∃ t, exec (.bankOwnerWrite m u b code) s = .next t ∧ BankNow s t u b code) ∧
     (ownerBusy s u b = true → ∃ t, exec (.bankOwnerWrite m u b code) s = .next t ∧ BankLater s t u b code)) ∧
  (∀ (s : State) (u b c code : Nat), u < 25600 → b < 16 → c < 8 → code < 16 →
     (privOf s u c = .user ∧ (bankOwner s u b ≤ 4 ∨ bankOwner s u b = 10) ∧ (code ≤ 8 ∨ code = 10)) ∨
       (privOf s u c = .border ∧ (bankOwner s u b ≤ 4 ∨ bankOwner s u b = 9 ∨ bankOwner s u b = 10) ∧ code ≤ 10) →
     (ownerBusy s u b = false → ∃ t, exec (.bankOwnerWrite (.unit u c) u b code) s = .next t ∧ BankNow s t u b code) ∧
     (ownerBusy s u b = true → ∃ t, exec (.bankOwnerWrite (.unit u c) u b code) s = .next t ∧ BankLater s t u b code)) ∧
  (∀ (s : State) (u b c code : Nat), u < 25600 → b < 16 → c < 8 → code < 16 → privOf s u c = .user →
     5 ≤ bankOwner s u b ∧ bankOwner s u b ≤ 9 ∨ code = 9 ∨ 10 < code → (ctx s u c).st = .ready →
     ∃ t, exec (.bankOwnerWrite (.unit u c) u b code) s = .next t ∧ (ctx t u c).st = .faulted ∧ (ctx t u c).fCode = 0x0602 ∧
       (ctx t u c).fSlot = 3 ∧ (ctx t u c).fDef = false ∧ RegsKept s t u c ∧ t.mem = s.mem) ∧
  (∀ (s : State) (u v b c code : Nat), u < 25600 → v < 25600 → v ≠ u → b < 16 → c < 8 → code < 16 → (ctx s v c).st = .ready →
     ∃ t, exec (.bankOwnerWrite (.unit v c) u b code) s = .next t ∧ (ctx t v c).st = .faulted ∧ (ctx t v c).fCode = 0x0102 ∧
       (ctx t v c).fDef = false ∧ RegsKept s t v c ∧ t.mem = s.mem) ∧
  (∀ (s : State) (m : Master) (u b code : Nat), u < 25600 → b < 16 → code < 16 → masterOk m = true →
     Reaches s m (BANK_OWNER u b) → isSupervisor m = false → isOwner s m = false → exec (.bankOwnerWrite m u b code) s = .next s) ∧
  (∀ (s : State) (u b : Nat), u < 25600 → b < 16 →
     (fld s (BANK_OWNER u b) BANK_OWNER_PENDING = 1 → ownerBusy s u b = false →
       ∃ t, exec (.bankHandover u b) s = .next t ∧ BankNow s t u b (fld s (BANK_OWNER u b) BANK_OWNER_TARGET)) ∧
     (fld s (BANK_OWNER u b) BANK_OWNER_PENDING = 0 ∨ ownerBusy s u b = true → exec (.bankHandover u b) s = .next s))

/-- ECC rewriting, Sieve and scrub take away correctable errors, move to their next region or row and change no byte
(09_core_memory.md R250, 09_core_memory.md R254, 09_core_memory.md R260, 09_core_memory.md R261, 09_core_memory.md R264,
09_core_memory.md R265). -/
def Obligations.ErrorsAreRewrittenSievedAndScrubbed : Prop :=
  ∀ (s : State) (ph n w r : Nat), ph < 26624 → logicalOf s ph = some n → computePowered s = true →
    (w < 131072 → mget false s.mem.rewrites (wordKey ph w) = true → sieveHolds s (locKey ph (8 * w)) 8 = false →
      Runs (.eccRewrite ph w) s fun t => mget false t.mem.rewrites (wordKey ph w) = false ∧
      (∀ x, latentAt t x = if x = wordKey ph w ∧ latentAt s x = 1 then 0 else latentAt s x) ∧
      t.mem.loc = s.mem.loc ∧ t.csr = s.csr) ∧
    (w < 131072 → sieveHolds s (locKey ph (8 * w)) 8 = true → exec (.eccRewrite ph w) s = .next s) ∧
    (flag s (SIEVE_CFG n) SIEVE_CFG_EN = false → exec (.sieveDue ph) s = .next s) ∧
    (flag s (SIEVE_CFG n) SIEVE_CFG_EN = true → Runs (.sieveDue ph) s fun t => t = { s with avl := t.avl, now := t.now } ∧
      mget false t.avl.sieveDue ph = true ∧ paceTime t = max (paceTime s) (mget 0 t.avl.sieveAt ph) ∧
      mget 0 t.avl.sieveAt ph = nextDue s (mget 0 s.avl.sieveAt ph) (max 1 (bitsOf (rget s (SIEVE_CFG n)) 8 8) * 15625000000)) ∧
    (mget false s.avl.sieveDue ph = true → mget 0 s.avl.sieveHold ph = 0 → r = mget 0 s.avl.sieveNext ph →
      (coreFree s ph = true → ∀ x ∈ s.avl.rowsBad, x.1 ≠ ph) →
      (∀ x ∈ backWords ph (regionAddr r) 256, latentAt s x = 0) → Runs (.sieveRegionStart ph) s fun t =>
        t = { s with avl := t.avl, mem := t.mem } ∧ t.mem.loc = s.mem.loc ∧ mget false t.avl.sieveDue ph = false ∧
        mget 0 t.avl.sieveHold ph = r + 1 ∧ mget 0 t.avl.sieveNext ph = r) ∧
    ((∀ q ∈ s.core.reqs, ∀ x ∈ q.parts, heldPart q x = false) → mget 0 s.avl.sieveHold ph = r + 1 → r < 2304 →
      (Runs (.sieveRegionEnd ph none) s fun t =>
        mget 0 t.avl.sieveHold ph = 0 ∧ mget 0 t.avl.sieveNext ph = (r + 1) % 2304 ∧ t.mem.loc = s.mem.loc ∧ t.log = s.log ∧
        fld t (SIEVE_STATUS n) SIEVE_STATUS_PASSES =
          (fld s (SIEVE_STATUS n) SIEVE_STATUS_PASSES + if r = 2303 then 1 else 0) % 2 ^ 16) ∧
      Runs (.sieveRegionEnd ph (some (0, 0))) s fun t =>
        mget 0 t.avl.sieveHold ph = 0 ∧ t.mem.loc = s.mem.loc ∧
        fld t (SIEVE_STATUS n) SIEVE_STATUS_FAILS = satAdd 16 (fld s (SIEVE_STATUS n) SIEVE_STATUS_FAILS) 1 ∧
        ∃ e : LogEntry, t.log.inFlight = s.log.inFlight ++ [e] ∧ e.code = 0x0605) ∧
    (flag s (SCRUB_CFG n) SCRUB_CFG_EN = false → exec (.scrubDue ph []) s = .next s) ∧
    (flag s (SCRUB_CFG n) SCRUB_CFG_EN = true → Runs (.scrubDue ph []) s fun t => t = { s with avl := t.avl, now := t.now } ∧
      mget false t.avl.scrubDue ph = true ∧ paceTime t = max (paceTime s) (mget 0 t.avl.scrubAt ph) ∧
      mget 0 t.avl.scrubAt ph = nextDue s (mget 0 s.avl.scrubAt ph) (max 1 (bitsOf (rget s (SCRUB_CFG n)) 8 8) * 3906250000)) ∧
    (mget false s.avl.scrubDue ph = true → r = mget 0 s.avl.scrubNext ph → sieveHolds s (locKey ph (scrubAddr r)) 64 = false →
      (∀ x ∈ backWords ph (scrubAddr r) 64, latentAt s x ≤ 1 ∧ locPoisoned s x = false) → Runs (.scrubRow ph) s fun t =>
        (∀ x ∈ backWords ph (scrubAddr r) 64, latentAt t x = 0) ∧
        (∀ x, x ∉ backWords ph (scrubAddr r) 64 → latentAt t x = latentAt s x) ∧ mget false t.avl.scrubDue ph = false ∧
        mget 0 t.avl.scrubNext ph = (r + 1) % 9216 ∧ t.mem.loc = s.mem.loc)

/-- A channel asks for its next bytes, accepts those that return in stream order, drains those that are written, or halts
(10_streams.md R273, 10_streams.md R275, 10_streams.md R279, 10_streams.md R282, 10_streams.md R284, 10_streams.md R287,
10_streams.md R291, 10_streams.md R292). -/
def Obligations.ChannelAccessesMoveBytes : Prop :=
  ∀ (s : State) (u ch a l n tag : Nat) (x : Chan) (r : Req) (data : List Byte), u < 25600 → ch < 4 → x = chan s u ch →
    x.st = 1 → abortMode s u x.desc = false → x.haltAt = none → x.spIn = x.spOut →
    (picked s u ch = true → canRead s u ch = true → a = memAddr x.desc x.issued → l = a / 64 * 64 →
      n = memRun x.desc x.issued (ringRoom s u ch x) →
      (inSpace s x.desc x.issued = true → needsXlat s a false = false → ownMem u a = false → Runs (.channelRequestIssue u ch) s fun t =>
        ∃ q : Req, t.core.reqs = s.core.reqs ++ [q] ∧ q.op = .load l 64 false ∧ q.chan = true ∧ q.u = u ∧ q.c = ch ∧
          q.pos = x.issued ∧ q.cnt = n ∧ q.stamp = chanStamp s u ch x ∧ q.parts = [⟨l, 64, none⟩] ∧
          (chan t u ch).issued = x.issued + n ∧ t.mem = s.mem ∧ t.csr = s.csr) ∧
      (inSpace s x.desc x.issued = false → Runs (.channelRequestIssue u ch) s fun t => (chan t u ch).st = 3 ∧
        (chan t u ch).code = 0x0603 ∧ (chan t u ch).haltAt = some x.issued ∧ Logs s t 0x0603 ∧ t.mem = s.mem)) ∧
    (picked s u ch = false → exec (.channelRequestIssue u ch) s = .next s) ∧
    (r ∈ s.core.reqs → r.tag = tag → (∀ q ∈ s.core.reqs, q.tag = tag → q = r) → reaches s r = true → r.chan = true →
      r.orphan = false → r.tracked = true → r.u = u → r.c = ch → (∀ q ∈ chanReqs s u ch, q.tag ≠ tag → q.tracked = true) →
      (isLoad r = true → r.parts = [⟨l, 64, some (.bytes data [])⟩] → r.pos = x.acc → r.cnt = n →
        ringDenied s u ch x.desc x.acc n = none → ringHeld s u x.desc x.acc n = false → n ≤ ringSize x.desc →
        (∀ k, k < n → latentAt s (ringKey s u x.desc (x.acc + k) / 8) = 0 ∧
          locPoisoned s (ringKey s u x.desc (x.acc + k) / 8) = false) → Runs (.streamReadResponse tag) s fun t =>
        (∀ k, k < n → memByte t.mem.loc (ringKey s u x.desc (x.acc + k)) = data.getD (memAddr x.desc (x.acc + k) - l) 0) ∧
        (chan t u ch).acc = x.acc + n ∧ (chan t u ch).drained = x.drained ∧
        t.core.reqs = s.core.reqs.filter (fun q => decide (q.tag ≠ tag))) ∧
      (∀ c, isLoad r = true → r.parts = [⟨a, n, some (.failed c)⟩] → Runs (.streamReadResponse tag) s fun t =>
        (chan t u ch).st = 3 ∧ (chan t u ch).code = (if c = 0x0804 then 0x0307 else c) ∧
        (chan t u ch).haltAt = some r.pos ∧ t.mem = s.mem) ∧
      (isLoad r = false → r.parts = [⟨a, n, some (.status 0)⟩] → r.pos = x.drained → Runs (.streamWriteAck tag) s fun t =>
        (chan t u ch).drained = x.drained + r.cnt ∧ (chan t u ch).acc = x.acc ∧ t.mem = s.mem ∧
        t.core.reqs = s.core.reqs.filter (fun q => decide (q.tag ≠ tag))))

/-- Segments are published, finite streams complete, closing channels close, rates are sampled and stalls are reported
(10_streams.md R276, 10_streams.md R277, 10_streams.md R279, 10_streams.md R281, 10_streams.md R289, 10_streams.md R291,
11_stream_network.md R321). -/
def Obligations.SegmentsRatesAndStalls : Prop :=
  ∀ (s : State) (u ch o : Nat) (x : Chan), u < 25600 → ch < 4 → x = chan s u ch → o = sFillObj x.desc →
    let Added (t : State) : Prop := syncMay s o (askerOf s u) = true → syncAbandoned s o = false → syncVal s o + 1 < 2 ^ 64 →
      syncVal t o = syncVal s o + 1
    (x.st = 1 → toRing x.desc = true → x.spIn = x.spOut → segFull x (seg0 x + x.pubs) = true →
      (ringInScratch x.desc = true → segMine s u ch x.desc (seg0 x + x.pubs) = true) → Runs (.segmentPublish u ch) s fun t =>
        (chan t u ch).pubs = x.pubs + 1 ∧ Added t ∧ t.mem = s.mem ∧
        (ringInScratch x.desc = true → bankOwner t u (segBank x.desc (seg0 x + x.pubs)) = sHandoff x.desc) ∧
        (sLength x.desc = 0 → (chan t u ch).st = 1) ∧
        (atEnd x.desc x.acc = true → x.acc ≤ (seg0 x + x.pubs + 1) * segSize x.desc → (chan t u ch).st = 4)) ∧
    (x.st = 1 → toRing x.desc = false → atEnd x.desc x.drained = true → Runs (.streamComplete u ch) s fun t =>
      (chan t u ch).st = 4 ∧ (sSyncEn x.desc = true → x.ended = false → Added t) ∧ t.mem = s.mem) ∧
    (x.st = 5 → x.drained = x.acc → Runs (.channelCloseDone u ch) s fun t => (chan t u ch).st = 0 ∧ t.mem = s.mem ∧
      (atEnd x.desc x.drained = true → sSyncEn x.desc = true → toRing x.desc = false → x.ended = false → Added t) ∧
      ∀ b, b < 16 → bankOwner s u b = 5 + ch → bankOwner t u b = 0) ∧
    (mwf Chan.closed s.strm.chans = true → Runs .rateSample s fun t => t = { s with strm := { s.strm with chans := t.strm.chans } } ∧
      (∀ v k, k < 4 → toRing (chan s v k).desc = true → chan t v k = sampleRate (counting s v k (chan s v k))) ∧
      ∀ v k, k < 4 → toRing (chan s v k).desc = false → chan t v k = if (chan s v k).st = 0 then chan s v k else { chan s v k with
        window := 0
        ema := (((chan s v k).ema : Int) + (((chan s v k).window : Int) * 64 - ((chan s v k).ema : Int)) / 8).toNat }) ∧
    (x.st = 1 → x.raised = false → 0 < sPatience x.desc → sPatience x.desc ≤ x.stall → Runs (.streamStall u ch) s fun t =>
      (chan t u ch).stalled = true ∧ (chan t u ch).stalls = satAdd 16 x.stalls 1 ∧
      (ctx t u x.owner).pend = (ctx s u x.owner).pend ||| 4 ∧ Logs s t 0x0303 ∧ t.mem = s.mem ∧
      flag t (PLOT_STALL ((plotOf s u).getD 0)) PLOT_STALL_VALID = true ∧
      (flag s (PLOT_STALL ((plotOf s u).getD 0)) PLOT_STALL_VALID = false →
        fld t (PLOT_STALL ((plotOf s u).getD 0)) PLOT_STALL_CORE = u ∧ fld t (PLOT_STALL ((plotOf s u).getD 0)) PLOT_STALL_CH = ch ∧
        fld t (PLOT_STALL ((plotOf s u).getD 0)) PLOT_STALL_LINK_ID = sLink x.desc))

/-- Spill pages are taken and returned, drained bytes return as credit, a fence marker halts its channel
(11_stream_network.md R312, 11_stream_network.md R317, 11_stream_network.md R318, 11_stream_network.md R326, 10_streams.md
R298). -/
def Obligations.SpillCreditAndFences : Prop :=
  ∀ (s : State) (u ch p k : Nat) (x : Chan), u < 25600 → ch < 4 → x = chan s u ch → p = (plotOf s u).getD 0 →
    (x.spill = true → ringFree s u ch x = 0 → pagesFree x = 0 → senderWaits s u ch = true →
      (poolFree s p = some k → (fld s (PLOT_SPILL_SIZE p) PLOT_SPILL_SIZE_CH_MAX = 0 ∨
          x.pages.length < fld s (PLOT_SPILL_SIZE p) PLOT_SPILL_SIZE_CH_MAX) → Runs (.spillPageTake u ch) s fun t =>
        (chan t u ch).pages = x.pages ++ [k] ∧ (chan t u ch).grants = x.grants + 4096 ∧
        mget false t.strm.poolUsed (p * 2 ^ 20 + k) = true ∧ t.mem = s.mem ∧ t.csr = s.csr) ∧
      (poolFree s p = none → Runs (.spillPageTake u ch) s fun t => (chan t u ch).exhausted = true ∧
        (chan t u ch).pages = x.pages ∧ t.mem = s.mem ∧ t.csr = s.csr)) ∧
    (∀ rest, x.pages = k :: rest → x.spill = true → x.spIn = x.spOut ∨ 4096 ≤ x.spOut ∧ ringFree s u ch x = 0 → Runs (.spillPageReturn u ch) s fun t =>
      (chan t u ch).pages = rest ∧ mget false t.strm.poolUsed (p * 2 ^ 20 + k) = false ∧
      ((chan t u ch).spill = true ↔ rest ≠ []) ∧ t.mem = s.mem ∧ t.csr = s.csr) ∧
    (x.st ≠ 0 → fromLink x.desc = true → toRing x.desc = false → s.strm.branch = [] → Runs (.streamCreditReturn u ch) s fun t =>
      (chan t u ch).grants = x.grants + x.owed ∧ (chan t u ch).owed = 0 ∧ (chan t u ch).drained = x.drained ∧ t.mem = s.mem) ∧
    ((u, ch) ∈ s.strm.markers → x.st = 1 → abortMode s u x.desc = false → Runs (.fenceMarkerReceive u ch) s fun t =>
      (chan t u ch).st = 3 ∧ (chan t u ch).code = 0x0402 ∧ (x.haltAt = none → (chan t u ch).haltAt = some (if toLink x.desc then x.drained else x.acc + spilled x)) ∧ (u, ch) ∉ t.strm.markers ∧ Logs s t 0x0402 ∧ t.mem = s.mem) ∧
    ((u, ch) ∉ s.strm.markers → exec (.fenceMarkerReceive u ch) s = .next s)

/-- A sender with credit sends a token of up to 32 bytes, and a switch moves it on, delivers it or discards it
(11_stream_network.md R303, 11_stream_network.md R307, 11_stream_network.md R309, 11_stream_network.md R310,
11_stream_network.md R312). -/
def Obligations.TokensTravel : Prop :=
  ∀ (s : State) (u ch port link : Nat) (x : Chan), u < 25600 → ch < 4 → port < 6 → link < 4096 → x = chan s u ch →
    (toLink x.desc = true → x.st = 1 → sLink x.desc = link → x.drained + 32 ≤ x.acc →
      x.sent + 32 ≤ creditBelow s (sDec x.desc) link routeFuel u 4 → tokensAt s u 4 link < 2 →
      ringDenied s u ch x.desc x.drained 32 = none → ringHeld s u x.desc x.drained 32 = false → x.spIn = x.spOut →
      (∀ k, k < 32 → latentAt s (ringKey s u x.desc (x.drained + k) / 8) = 0) → Runs (.streamTokenSend u ch) s fun t =>
        (∃ q : Token, t.strm.tokens = s.strm.tokens ++ [⟨u, 4, q⟩] ∧ q.link = link ∧
          q.data = ringGet s u x.desc x.drained 32 ∧ q.last = atEnd x.desc (x.drained + 32)) ∧
        (chan t u ch).drained = x.drained + 32 ∧ (chan t u ch).sent = x.sent + 32 ∧ t.mem = s.mem ∧ t.csr = s.csr) ∧
    (∀ (q : Token) (rest : List Queued), s.strm.tokens = ⟨u, port, q⟩ :: rest → q.link = link → fenced s u = false →
      ((∀ i, routeOf s u link = some i → routeIn s u i ≠ port) → Runs (.streamTokenArrive u port link) s fun t =>
        t.strm.tokens = rest ∧ Logs s t 0x0403 ∧ t.csr = s.csr ∧ t.mem = s.mem ∧ t.strm.chans = s.strm.chans) ∧
      (∀ i b v, routeOf s u link = some i → routeIn s u i = port → routeOuts s u i = [b] → b < 4 → neighbour s u b = some v →
        (b = 1 → colOf u ≠ 127) → fenced s v = false → linkOpen s u b v link = true → givesWay s u [b] q = false → tokensAt s v (facing b) link < 2 →
        Runs (.streamTokenArrive u port link) s fun t => t.strm.tokens = rest ++ [⟨v, facing b, q⟩] ∧
          fwdOf t u b link = fwdOf s u b link + q.data.length ∧ t.strm.chans = s.strm.chans ∧ t.mem = s.mem ∧ t.csr = s.csr) ∧
      (∀ i, routeOf s u link = some i → routeIn s u i = port → routeOuts s u i = [4] → receiverAt s u link = some ch →
        x.st = 1 → givesWay s u [4] q = false → upTo x.desc x.acc q.data.length = q.data.length →
        ringHeld s u x.desc x.acc q.data.length = false →
        x.spIn = x.spOut → q.data.length ≤ ringFree s u ch x → q.data ≠ [] →
        ringDenied s u ch x.desc x.acc q.data.length = none →
        (∀ k, k < q.data.length → latentAt s (ringKey s u x.desc (x.acc + k) / 8) = 0 ∧
          locPoisoned s (ringKey s u x.desc (x.acc + k) / 8) = false) → (∀ b ∈ q.data, b.2 = false) →
        Runs (.streamTokenArrive u port link) s fun t => t.strm.tokens = rest ∧ (chan t u ch).acc = x.acc + q.data.length ∧
          (chan t u ch).arrived = x.arrived + q.data.length ∧
          (∀ k b, q.data[k]? = some b → memByte t.mem.loc (ringKey s u x.desc (x.acc + k)) = b.1) ∧ t.csr = s.csr))

/-- Device accesses to host memory are sent, or refused while the host cannot be reached, and completions answer reads
(17_host_interface.md R463, 17_host_interface.md R470, 17_host_interface.md R471, 17_host_interface.md R473, 10_streams.md
R295). -/
def Obligations.HostMemoryAccesses : Prop :=
  ∀ (s : State) (tag i port : Nat) (r : Req) (p : Part), port < 2 → hostPart s tag i = some (r, p) → selOf p.addr = 8 + port →
    (isLoad r = true → hostReach s port = true → needsXlat s p.addr false = false →
      (nonPosted s port < 512 → Runs (.hostMemoryRead tag i) s fun t =>
        t.host = { s.host with sent := s.host.sent ++ [(tag, i)] } ∧ t.out = .hostRead port (offOf p.addr) p.n :: s.out ∧
        t = { s with host := t.host, pwr := t.pwr, out := t.out }) ∧
      (512 ≤ nonPosted s port → exec (.hostMemoryRead tag i) s = .next s)) ∧
    (isLoad r = true → hostReach s port = true → needsXlat s p.addr false = true →
      (∀ q ∈ s.host.xreqs, ¬ (q.port = port ∧ q.page = offOf p.addr / 4096 ∧ q.write = false)) →
      Runs (.hostMemoryRead tag i) s fun t => t.host.xreqs = s.host.xreqs ++ [⟨port, offOf p.addr / 4096, false, false, false, 0⟩] ∧
        t.out = .translationRequest port (offOf p.addr / 4096) false :: s.out ∧ t.core = s.core ∧ t.mem = s.mem) ∧
    (isLoad r = true → hostReach s port = false → Runs (.hostMemoryRead tag i) s fun t =>
      PartAnswered s t tag i (.failed 0x0802) ∧ t.mem = s.mem ∧ t.out = s.out) ∧
    (∀ a d b, r.op = .store a d b → hostReach s port = true → needsXlat s p.addr true = false →
      Runs (.hostMemoryWrite tag i) s fun t => PartAnswered s t tag i (.status 0) ∧ t.mem = s.mem ∧ t.csr = s.csr ∧
        t.out = .hostWrite port (offOf p.addr) ((d.drop (p.addr - a)).take p.n) :: s.out) ∧
    (∀ a d b, r.op = .store a d b → hostReach s port = false → Runs (.hostMemoryWrite tag i) s fun t =>
      PartAnswered s t tag i (.failed 0x0802) ∧ t.mem = s.mem ∧ t.out = s.out) ∧
    (∀ (u : State) (d : List Byte), u = { s with host := { s.host with sent := [(tag, i)], invals := [] } } → d.length = p.n →
      Runs (.hostReadCompletion tag i (some d)) u (fun t => PartAnswered s t tag i (.bytes d []) ∧ t.host.sent = [] ∧
        t.mem = s.mem ∧ t.csr = s.csr) ∧
      Runs (.hostReadCompletion tag i none) u fun t => PartAnswered s t tag i (.failed 0x0804) ∧ t.host.sent = [] ∧
        Logs s t 0x0804 ∧ t.mem = s.mem)

/-- ATS_TRANSLATION_COMPLETION, PAGE_RESPONSE and ATS_INVALIDATE complete: translations are cached, missing pages asked for,
waiting channels resumed or halted (10_streams.md R291, 10_streams.md R295, 10_streams.md R296, 17_host_interface.md R472,
17_host_interface.md R473). -/
def Obligations.TranslationsAndPages : Prop :=
  ∀ (s : State) (p page base pages fails prq : Nat) (write rd wr : Bool), p < 2 → page < 2 ^ 36 →
    prq = fld s (HOSTIF_PORT_STATUS p) HOSTIF_PORT_STATUS_PRQ_OUT →
    (∀ k ∈ mkeys s.strm.chans, abortMode s (k / 4) (chan s (k / 4) (k % 4)).desc = false) →
    (s.host.xreqs = [⟨p, page, write, false, false, fails⟩] →
      (base ≤ page → page < base + pages → (if write then wr else rd) = true →
        ∃ t, exec (.atsTranslationCompletion p page write base pages rd wr) s = .next t ∧
          t = { s with host := { s.host with atc := (⟨p, base, pages, rd, wr⟩ :: s.host.atc).take 8192, xreqs := [] } }) ∧
      (page < base ∨ base + pages ≤ page ∨ (if write then wr else rd) = false →
        ((∃ k ∈ mkeys s.strm.chans, chanAtPage s p page write k = true) → fails < 4 → priOn s p = true →
          prq < min 512 (mget 0 s.host.prqAlloc p) →
          ∃ t, exec (.atsTranslationCompletion p page write base pages rd wr) s = .next t ∧
            t.host.xreqs = [⟨p, page, write, true, false, fails + 1⟩] ∧ t.mem = s.mem ∧ t.core = s.core ∧
            t.out = .pageRequest p page write true :: s.out ∧ fld t (HOSTIF_PORT_STATUS p) HOSTIF_PORT_STATUS_PRQ_OUT = prq + 1 ∧
            ∀ k ∈ mkeys s.strm.chans, chanAtPage s p page write k = true → (chan s (k / 4) (k % 4)).st = 1 →
              (chan t (k / 4) (k % 4)).st = 2 ∧ (chan t (k / 4) (k % 4)).code = 0x0301 ∧
              (chan t (k / 4) (k % 4)).page = some (p, page)) ∧
        ((∃ k ∈ mkeys s.strm.chans, chanAtPage s p page write k = true) → 4 ≤ fails ∨ priOn s p = false →
          ∃ t, exec (.atsTranslationCompletion p page write base pages rd wr) s = .next t ∧ t.host.xreqs = [] ∧ t.mem = s.mem ∧
            ∀ k ∈ mkeys s.strm.chans, chanAtPage s p page write k = true → (chan s (k / 4) (k % 4)).st = 1 →
              (chan t (k / 4) (k % 4)).st = 3 ∧ (chan t (k / 4) (k % 4)).code = 0x0307) ∧
        ((∀ k ∈ mkeys s.strm.chans, chanAtPage s p page write k = false) → pageWaiters s (fun q g => decide (q = p ∧ g = page)) = [] →
          ctxAtPage s p page write = [] → ∃ t, exec (.atsTranslationCompletion p page write base pages rd wr) s = .next t ∧
            t = { s with host := { s.host with xreqs := [] } }))) ∧
    (s.host.xreqs = [⟨p, page, write, true, false, fails⟩] → 0 < prq →
      (∃ t, exec (.pageResponse p page .success) s = .next t ∧ t.host.xreqs = [⟨p, page, write, false, false, fails⟩] ∧
        t.mem = s.mem ∧ t.out = .translationRequest p page write :: s.out ∧
        fld t (HOSTIF_PORT_STATUS p) HOSTIF_PORT_STATUS_PRQ_OUT + 1 = prq ∧
        ∀ u ch, ch < 4 → (chan s u ch).st = 2 → (chan s u ch).page = some (p, page) →
          (chan t u ch).st = 1 ∧ (chan t u ch).page = none ∧ (chan t u ch).haltAt = none) ∧
      (∃ t, exec (.pageResponse p page .invalid) s = .next t ∧ t.host.xreqs = [] ∧ t.mem = s.mem ∧
        fld t (HOSTIF_PORT_STATUS p) HOSTIF_PORT_STATUS_PRQ_OUT + 1 = prq ∧
        ∀ u ch, ch < 4 → (chan s u ch).st = 2 → (chan s u ch).page = some (p, page) →
          (chan t u ch).st = 3 ∧ (chan t u ch).code = 0x0307) ∧
      ∃ t, exec (.pageResponse p page .failure) s = .next t ∧ t.host.xreqs = [] ∧ t.mem = s.mem ∧
        fld t (HOSTIF_PORT_STATUS p) HOSTIF_PORT_STATUS_PRQ_OUT = 0 ∧ mget false t.host.prqStop p = true ∧
        ∀ u ch g, ch < 4 → (chan s u ch).st = 2 → (chan s u ch).page = some (p, g) →
          (chan t u ch).st = 3 ∧ (chan t u ch).code = 0x0307) ∧
    (s.host.sent = [] → s.host.invals = [] → ∃ t, exec (.atsInvalidate p page pages) s = .next t ∧
      t.out = .invalidated p page pages :: s.out ∧ t.host.invals = [] ∧
      t.host.atc = s.host.atc.filter (fun x => !(decide (x.port = p) && overlaps x.page x.pages page pages)) ∧
      t = { s with host := t.host, out := t.out })

/-- Packet ports serve their plot, headers are counted, events and doorbells are delivered, sleeping blocks are woken
(12_packet_network.md R335, 12_packet_network.md R336, 12_packet_network.md R339, 12_packet_network.md R340,
12_packet_network.md R344, 12_packet_network.md R345, 12_packet_network.md R347, 12_packet_network.md R337, 09_core_memory.md
R257). -/
def Obligations.PacketsAreServed : Prop :=
  ∀ (s : State) (tag i n k b : Nat) (r : Req) (p : Part), findReq s tag = some r → r.parts[i]? = some p → p.ans = none →
    selOf p.addr = 1 → 0 < p.n → homeCore p.addr = some n → n < 25600 → n ≠ r.u → k = homeKey s p.addr →
    b = blockOf (physOf s n) → b < 1664 →
    (∀ w ∈ wordsOf k p.n, latentAt s w = 0 ∧ locPoisoned s w = false) → inOrder s r p = true → sieveHolds s k p.n = false →
    s.net.pkts = [] → s.net.arrived = [] →
    (unitGated s n = false → portAllowed s r.u n = true →
      (isLoad r = true → Runs (.packetPortRequest tag i) s fun t =>
        PartAnswered s t tag i (.bytes (memBytes s.mem.loc k p.n) []) ∧ t.mem = s.mem ∧ t.csr = s.csr) ∧
      (∀ a d, r.op = .store a d [] → a ≤ p.addr → p.addr - a + p.n ≤ d.length → Runs (.packetPortRequest tag i) s fun t =>
        PartAnswered s t tag i (.status 0) ∧ t.csr = s.csr ∧
        ∀ x, memByte t.mem.loc x = if k ≤ x ∧ x < k + p.n then d.getD (p.addr - a + (x - k)) 0 else memByte s.mem.loc x)) ∧
    (unitGated s n = false → portAllowed s r.u n = false → Runs (.packetPortRequest tag i) s fun t =>
      PartAnswered s t tag i (.failed 0x0404) ∧ Logs s t 0x0404 ∧ t.mem = s.mem ∧ t.csr = s.csr) ∧
    (blockGated s b = true → (∀ h ∈ s.pwr.heldPkts, h.block ≠ b) → Runs (.blockWakeRequest b 0 (some (tag, i))) s fun t =>
      t.pwr.heldPkts = s.pwr.heldPkts ++ [⟨b, 0, some (tag, i), paceTime s, none, false⟩] ∧ t = { s with pwr := t.pwr } ∧
      Runs (.blockWakeComplete b) t (fun v => blockGated v b = false ∧ v.pwr.heldPkts = s.pwr.heldPkts) ∧
      Runs (.wakeTimeout b 0) t fun v => PartAnswered s v tag i (.failed 0x0405) ∧ Logs s v 0x0405 ∧
        v.pwr.heldPkts = s.pwr.heldPkts ∧ paceTime s + 500000 ≤ paceTime v) ∧
    (flag s GLB_STATUS GLB_STATUS_COMPUTE_UP = true → (∀ q, q < 16 → flag s (LTN_CFG q) LTN_CFG_EN = false) → isLoad r = true →
      r.u < 25604 →
      (∀ h port, h < 1664 → port < 4 → (h, port, true) ∈ pathOf s (srcOf r.u) (0x8000 + n) →
        Runs (.packetForward h port true (.req tag i)) s fun t => t = { s with pwr := t.pwr } ∧
          mget 0 t.pwr.ctr (1920 + h) = (mget 0 s.pwr.ctr (1920 + h) + 1) % 2 ^ 64) ∧
      (∀ h port, h < 1664 → port < 24 → s.core.reqs = [r] → r.parts = [p] → r.u < 25600 → isSent s tag 0 = false →
        flitBuf s h port 0 = [] → nodeAt s h port = some (srcOf r.u) → Runs (.packetForward h port false .flit) s fun t =>
          t = { s with net := t.net } ∧ flitBuf t h port 0 =
            [⟨3, headerOf 1 0 (srcOf r.u) (0x8000 + n) p.addr r.stamp tag p.n 0 0, s.net.nextPkt⟩])) ∧
    (∀ h port q (f : Flit), flag s GLB_STATUS GLB_STATUS_COMPUTE_UP = true → (∀ x, x < 16 → flag s (LTN_CFG x) LTN_CFG_EN = false) →
      h < 1664 → port < 4 → q < 24 → flitBuf s h q 0 = [f] → f.side = 3 →
      (∀ x v, x < 24 → v < 4 → x ≠ q ∨ v ≠ 0 → flitBuf s h x v = []) → routeOut s h (hdrDst f.data) = some port →
      mget 0 s.net.owner (portKey h port 0) = 0 → (flitBuf s (linkTo h port).1 (linkTo h port).2 0).length < 8 →
      Runs (.packetForward h port true .flit) s fun t => flitBuf t h q 0 = [] ∧
        flitBuf t (linkTo h port).1 (linkTo h port).2 0 = flitBuf s (linkTo h port).1 (linkTo h port).2 0 ++ [f] ∧
        t = { s with net := t.net, pwr := t.pwr }) ∧
    (∀ u c bits rest, s.sync.signals = .ctxEvent u c bits :: rest → unitGated s u = false → (ctx s u c).hold ≠ .event →
      Runs .eventPacket s fun t => (ctx t u c).pend = (ctx s u c).pend ||| BitVec.ofNat 4 bits ∧ t.sync.signals = rest ∧
        t.mem = s.mem ∧ t.csr = s.csr) ∧
    (∀ cp j db rest, s.sync.signals = .cpMbx cp j db :: rest → Runs .eventPacket s fun t =>
      mget false t.sync.evBits (evKey cp false (j * 32 + db)) = true ∧ t.sync.signals = rest ∧ t.core = s.core) ∧
    (∀ port vec rest, s.sync.signals = .msix port vec :: rest → hostReach s port = true →
      flag s (HOSTIF_PORT_STATUS port) HOSTIF_PORT_STATUS_MSIX_EN = true → mget false s.host.funcMask port = false →
      mget false s.host.unmasked (port * 2048 + vec) = true → Runs .doorbellPacket s fun t => t.sync.signals = rest ∧
        t.out = .msix port vec (mget 0 s.host.msixAddr (port * 2048 + vec)) (mget 0 s.host.msixData (port * 2048 + vec)) :: s.out)

/-- LTN_CFG configures a probe, a matching header counts in LTN_COUNT, LTN_RING places its ring or is refused with 0x0C0A
(12_packet_network.md R348, 12_packet_network.md R349, 12_packet_network.md R350, 12_packet_network.md R351, 00_scope.md
R597). -/
def Obligations.ProbesCountAndTrace : Prop :=
  ∀ (s : State) (m : Master) (p : Nat) (v : W64), masterOk m = true → p < 16 → Reaches s m (LTN_CFG p) → Reaches s m (LTN_RING p) →
    (mayAdmin s m = false → exec (.ltnCfgWrite m p v) s = .next s ∧ exec (.ltnRingWrite m p v) s = .next s) ∧
    (mayAdmin s m = true →
      Runs (.ltnCfgWrite m p v) s (fun t => rget t (LTN_CFG p) = v &&& 0x00FFFFFFFFFFFFFF#64 ∧ WordsKept s t [LTN_CFG p] ∧
        (v.getLsbD 17 = false → mget false t.pwr.tracing p = false) ∧
        (v.getLsbD 17 = true → v.getLsbD 39 = false → mget false t.pwr.tracing p = true) ∧
        t = { s with csr := t.csr, pwr := t.pwr }) ∧
      (ringFits v (32 * ringLen (bitsOf v 56 4)) = true → Runs (.ltnRingWrite m p v) s fun t =>
        fld t (LTN_RING p) LTN_RING_BASE = bitsOf v 12 44 ∧ fld t (LTN_RING p) LTN_RING_SIZE = bitsOf v 56 4 ∧
        fld t (LTN_RING p) LTN_RING_EN = bitsOf v 63 1 ∧ fld t (LTN_PTR p) LTN_PTR_HEAD = 0 ∧ fld t (LTN_PTR p) LTN_PTR_TAIL = 0 ∧
        WordsKept s t [LTN_RING p, LTN_PTR p] ∧ t = { s with csr := t.csr, pwr := t.pwr }) ∧
      (ringFits v (32 * ringLen (bitsOf v 56 4)) = false → Runs (.ltnRingWrite m p v) s fun t =>
        Logs s t 0x0C0A ∧ t = { s with log := t.log })) ∧
    (∀ h port tag i hdr d bad, h < 1664 → port < 24 → flag s GLB_STATUS GLB_STATUS_COMPUTE_UP = true → s.net.pkts = [] →
      s.net.arrived = [] → packetOf s (.req tag i) = some (hdr, d, bad) →
      (h, port, false) ∈ pathOf s (bitsOf hdr 32 16) (hdrDst hdr) → ltnMatch s p h port false hdr = true →
      flag s (LTN_CFG p) LTN_CFG_TRACE = false → (∀ q, q < 16 → q ≠ p → ltnMatch s q h port false hdr = false) →
      Runs (.packetForward h port false (.req tag i)) s fun t =>
        fld t (LTN_COUNT p) LTN_COUNT_PACKETS = satAdd 32 (fld s (LTN_COUNT p) LTN_COUNT_PACKETS) 1 ∧
        fld t (LTN_COUNT p) LTN_COUNT_FLITS = satAdd 32 (fld s (LTN_COUNT p) LTN_COUNT_FLITS) (bitsOf hdr 4 5 + 1) ∧
        WordsKept s t [LTN_COUNT p] ∧ t.mem = s.mem ∧ t.core = s.core)

/-- Cold reset, the boot's steps, device reset by the pin, compute-up and a missing reference (00_scope.md R13,
19_management_security.md R512, 19_management_security.md R513, 22_module.md R581, 22_module.md R582, 22_module.md R583,
22_module.md R585, 20_power_thermal.md R548). -/
def Obligations.PowerAndResets : Prop :=
  ∀ s : State,
    Runs .coldReset s (fun t => (∀ o, rget t o = resetWord o) ∧ t.core = CoreSt.reset ∧ t.mem = MemSt.reset ∧
      t.mc.mcCtr = s.mc.mcCtr ∧ t.mc.ccCtr = s.mc.ccCtr ∧ t.mc.ownerCtr = s.mc.ownerCtr ∧ t.mc.flash = s.mc.flash ∧
      t.mc.pwrGood = false ∧ t.mc.held = true ∧ t.pending = s.pending) ∧
    (∀ v us, exec (.vinLoss v us) s = if v < 300 ∨ (v < 380 ∧ 50 < us) then exec .coldReset s else .next s) ∧
    (s.mc.pwrGood = false → s.mc.held = true → Runs .pwrGoodRise s fun t =>
      t.mc.pwrGood = true ∧ t.mc.held = true ∧ flag t GLB_STATUS GLB_STATUS_ID_VALID = true ∧ rget t GLB_SERIAL = Config.serial ∧
      t.mc.flash = s.mc.flash ∧ t.mem = s.mem ∧ t.core = s.core ∧
      (∀ c, chooseCopy s 0 = some c → fld t MC_STATUS MC_STATUS_STATE = 1 ∧ t.mc.mcCopy = c) ∧
      (chooseCopy s 0 = none → fld t MC_STATUS MC_STATUS_STATE = 2 ∧ ∃ e ∈ t.log.inFlight, e.code = 0x0A02) ∧
      ∀ a b c, s.pwr.saved = some (a, b, c) → fld t PWR_LIFE PWR_LIFE_OPER_MIN = b % 2 ^ 32 ∧
        fld t PWR_LIFE PWR_LIFE_BOOST_MIN = c % 2 ^ 32) ∧
    (s.mc.pwrGood = true → exec .pwrGoodRise s = .next s ∧
      (∀ ns, ns < 100 → exec (.devResetNPulse ns) s = .next s) ∧
      (∀ ns, 100 ≤ ns → ns < 1000 → Runs (.devResetNPulse ns) s fun t =>
        t = { s with free := s.free + 1 } ∨ DeviceReset { s with free := s.free + 1 } t) ∧
      ∀ ns, 1000 ≤ ns → Runs (.devResetNPulse ns) s fun t => DeviceReset s t ∧ t.mc.compOff = (s.mc.compOff && s.pwr.tripped)) ∧
    (∀ f, startUpOk f = true → s.mc.pwrGood = true → s.mc.held = true → s.mc.compOff = false → s.mc.refLost = false →
      fld s MC_STATUS MC_STATUS_STATE = 1 → Runs (.deviceResetRelease f) s fun t =>
        t.mc.held = false ∧ flag t GLB_STATUS GLB_STATUS_SHADOW_VALID = true ∧
        (∀ c, chooseCopy s 1 = some c → flag t MC_STATUS MC_STATUS_CC_RUNNING = true ∧ t.mc.ccCopy = c) ∧
        (chooseCopy s 1 = none → flag t MC_STATUS MC_STATUS_CC_RUNNING = false ∧ ∃ e ∈ t.log.inFlight, e.code = 0x0A03) ∧
        ∀ a b c, s.pwr.saved = some (a, b, c) → t.pwr.credit = 10 * (a - 600)) ∧
    (s.mc.held = false → s.mc.compOff = false → flag s MC_STATUS MC_STATUS_CC_RUNNING = true →
      flag s GLB_STATUS GLB_STATUS_SHADOW_VALID = true → flag s GLB_STATUS GLB_STATUS_COMPUTE_UP = false →
      Runs .computeUp s fun t => flag t GLB_STATUS GLB_STATUS_COMPUTE_UP = true ∧ t.load.deadline = some (paceTime s) ∧
        WordsKept s t [GLB_STATUS] ∧ t = { s with csr := t.csr, load := t.load }) ∧
    (s.mc.refLost = false → Runs .cyrefMissing s fun t =>
      t = { s with mc := { s.mc with refLost := true }, log := t.log } ∧
      (s.mc.held = false → LogsAs s t 0x0A0E 0x03 .fatal 0) ∧
      (s.mc.held = true → fld s MC_STATUS MC_STATUS_STATE = 1 → LogsAs s t 0x0A0E 0x03 .notice 0) ∧
      (s.mc.held = true → fld s MC_STATUS MC_STATUS_STATE ≠ 1 → t.log = s.log)) ∧
    (∀ f, startUpOk f = true → s.mc.refLost = true → Runs (.cyrefAppear f) s fun t =>
      t.mc.refLost = false ∧ t.now = s.now + 100000000 ∧
      (s.mc.pwrGood = true → s.mc.held = true → s.mc.compOff = false → fld s MC_STATUS MC_STATUS_STATE = 1 → t.mc.held = false))

/-- CSR writes follow the access types and the permission, a read clears counters, bank supplies and cables change
(00_scope.md R9, 02_pace.md R80, 02_pace.md R81, 17_host_interface.md R475, 22_module.md R580, 22_module.md R589). -/
def Obligations.RegistersSuppliesAndCables : Prop :=
  ∀ s : State,
    (∀ m, masterOk m = true → mayAdmin s m = true → portAsleep s m = false → flag s GLB_STATUS GLB_STATUS_COMPUTE_UP = true →
      (∀ v : W64, v.toNat < 2 ^ 32 → v.toNat % 2 ^ 17 ≥ 100 → v.toNat % 2 ^ 17 ≤ 100000 → Runs (.csrWrite m PACE_IN_MIN 4 v) s fun t =>
        fld t PACE_IN_MIN PACE_IN_MIN_MIN = v.toNat % 2 ^ 17 ∧ WordsKept s t [PACE_IN_MIN] ∧ t = { s with csr := t.csr }) ∧
      (∀ v : W64, v.toNat < 2 ^ 32 → v.toNat % 2 ^ 17 < 100 ∨ v.toNat % 2 ^ 17 > 100000 → Runs (.csrWrite m PACE_IN_MIN 4 v) s fun t =>
        fld t PACE_IN_MIN PACE_IN_MIN_MIN = fld s PACE_IN_MIN PACE_IN_MIN_MIN ∧ flag t PACE_STATUS PACE_STATUS_CFG_INVALID = true ∧
        LogsAs s t 0x0D09 0x20 .notice 0 ∧ WordsKept s t [PACE_STATUS]) ∧
      (∀ v : W64, Runs (.csrWrite m LOAD_AT 8 v) s fun t => rget t LOAD_AT = v ∧
        WordsKept s t [LOAD_AT] ∧ t = { s with csr := t.csr }) ∧
      (∀ v : W64, v.toNat < 2 ^ 32 → Runs (.csrWrite m PACE_STATUS 4 v) s fun t =>
        (∀ i, 20 ≤ i → i < 28 → (rget t PACE_STATUS).getLsbD i = ((rget s PACE_STATUS).getLsbD i && !v.getLsbD i)) ∧
        (∀ i, i < 20 → (rget t PACE_STATUS).getLsbD i = (rget s PACE_STATUS).getLsbD i) ∧
        WordsKept s t [PACE_STATUS] ∧ t = { s with csr := t.csr }) ∧
      Runs (.readClearCounter m PACE_OVR_COUNT 8) s fun t => t.out = .csrData m (rget s PACE_OVR_COUNT) :: s.out ∧
        rget t PACE_OVR_COUNT = 0 ∧ WordsKept s t [PACE_OVR_COUNT] ∧ t = { s with csr := t.csr, out := t.out }) ∧
    (∀ u c v, u < 25600 → c < 8 → v.toNat < 2 ^ 32 → (ctx s u c).st = .ready ∨ (ctx s u c).st = .waiting →
      Runs (.csrWrite (.unit u c) PACE_IN_MIN 4 v) s fun t => Faulted s t u c 0x0102 3 (3 * 2 ^ 48 + PACE_IN_MIN) ∧ t.mem = s.mem) ∧
    (∀ m v, masterOk m = true → mayAdmin s m = false → (∀ u c, m ≠ .unit u c) → exec (.csrWrite m PACE_IN_MIN 4 v) s = if v.toNat < 2 ^ 32 then .next s else
      .fault .noSuchUnit) ∧
    (∀ r level strap, r < 16 → level < 3 → strap < 4 → mget 3 s.loam.vccio r = 3 ∨ mget 3 s.loam.vccio r = level →
      Runs (.vccioApplied r level strap) s fun t =>
        mget 3 t.loam.vccio r = level ∧ mget 0 t.loam.straps r = (if strap = 3 then 0 else strap) ∧
        (mget false s.loam.driven r = true → flag t (LOAM_BANK_STATUS r) LOAM_BANK_STATUS_CAL_DONE = true) ∧
        WordsKept s t [LOAM_BANK_STATUS r] ∧ t.core = s.core ∧ t.mem = s.mem ∧
        (mget false s.loam.driven r = false → t = { s with loam := { s.loam with vccio := t.loam.vccio, straps := t.loam.straps } })) ∧
    (∀ r level strap, r < 16 → level < 3 → strap < 4 → mget 3 s.loam.vccio r ≠ 3 → mget 3 s.loam.vccio r ≠ level →
      regionRunning s r = true → mget false s.loam.driven r = true → Runs (.vccioApplied r level strap) s fun t =>
        mget 3 t.loam.vccio r = level ∧ Logs s t 0x0717) ∧
    (∀ r, r < 16 → mget 3 s.loam.vccio r ≠ 3 → Runs (.bankSupplyLost r) s fun t =>
      mget 3 t.loam.vccio r = 3 ∧ flag t (LOAM_BANK_STATUS r) LOAM_BANK_STATUS_CAL_DONE = false ∧
      (mget false s.loam.driven r = true → Logs s t 0x0717) ∧ (mget false s.loam.driven r = false → t.log = s.log) ∧
      WordsKept s t [LOAM_BANK_STATUS r] ∧ t = { s with csr := t.csr, log := t.log, loam := { s.loam with vccio := t.loam.vccio } }) ∧
    ∀ p on, p < 8 → Runs (.cablePresentChange p on) s fun t =>
      cabPower t p = (on && flag s (CYUST_PORT_CTRL p) CYUST_PORT_CTRL_EN) ∧ t = { s with mc := { s.mc with cables := t.mc.cables } } ∧
      ∀ q, q ≠ p → cabPower t q = cabPower s q

/-- The Hourglass readings, the PACE registers under R80, edges on PACE_IN and the loss of the source (02_pace.md R46,
02_pace.md R47, 02_pace.md R48, 02_pace.md R49, 02_pace.md R57, 02_pace.md R58, 02_pace.md R59, 02_pace.md R61, 02_pace.md
R77, 02_pace.md R80, 02_pace.md R81). -/
def Obligations.PaceRegistersAndItsInput : Prop :=
  ∀ s : State,
    (∀ rs, wfHourglassUpdate rs = true → s.mc.held = false → s.mc.compOff = false → Runs (.hourglassUpdate rs) s fun t =>
      (∀ h v, rs[h]? = some v → mget 0 t.pace.hg h = if hgHeld s h then mget 0 s.pace.hg h else v) ∧
      (∀ h, h < 1664 → mget false s.avl.hgFailed h = false → fld t PACE_HG_MIN PACE_HG_MIN_RATE ≤ mget 0 t.pace.hg h) ∧
      ((∀ h, mget 0 s.pace.hg h < 65536) → (∃ h, h < 1664 ∧ mget false s.avl.hgFailed h = false) → ∃ h, h < 1664 ∧ mget false s.avl.hgFailed h = false ∧
        fld t PACE_HG_MIN PACE_HG_MIN_SENSOR = h ∧ fld t PACE_HG_MIN PACE_HG_MIN_RATE = mget 0 t.pace.hg h) ∧
      WordsKept s t [PACE_HG_MIN] ∧ t = { s with csr := t.csr, pace := { s.pace with hg := t.pace.hg } }) ∧
    (s.mc.held = false → s.mc.compOff = false → hgCal s = false → Runs .hgCalDone s fun t =>
      hgCal t = true ∧ flag t PACE_HG_MIN PACE_HG_MIN_VALID = true ∧ paceTime t = max (paceTime s) 500000000 ∧ t.core = s.core ∧
      (isMaster s = false → t.pace = s.pace) ∧
      (isMaster s = true → paceSource s = 0 → s.pace.sched = [] → s.pace.lastFire = none →
        t.pace.sched = [⟨paceTime t + 100 * paceInEffect s, nextNum s, .internal⟩])) ∧
    (∀ m v, masterOk m = true → mayAdmin s m = true → (∀ o, 0x1000 ≤ o → o < 0x2000 → Reaches s m o) → v < 2 ^ 32 →
      (bitsOf (BitVec.ofNat 64 v) 0 2 ≤ 1 → bitsOf (BitVec.ofNat 64 v) 2 2 ≠ 3 →
        (bitsOf (BitVec.ofNat 64 v) 2 2 = 2 → bitsOf (BitVec.ofNat 64 v) 4 2 ≠ 0) →
        (paceOn s = true → v % 64 = bitsOf (rget s PACE_CFG) 0 6) →
        Runs (.paceCfgWrite m v) s fun t => rget t PACE_CFG = BitVec.ofNat 64 (v % 65536) ∧ t.core = s.core ∧
          (paceOn s = false → roleNow t = v / 4 % 4 ∧ (v / 256 % 2 = 1 → t.pace.lastEdge = none ∧ t.pace.enabledAt = paceTime s)) ∧
          (paceOn s = true → v / 256 % 2 = 0 → flag t PACE_STATUS PACE_STATUS_SOURCE_LOST = false ∧
            t.pace.sched = (if roleNow s = 0 then s.pace.sched.map fun x => { x with kind := .edge } else []) ∧
            (t.pace.sched = [] → flag t PACE_STATUS PACE_STATUS_RUNNING = false))) ∧
      (1 < bitsOf (BitVec.ofNat 64 v) 0 2 ∨ bitsOf (BitVec.ofNat 64 v) 2 2 = 3 →
        Runs (.paceCfgWrite m v) s fun t => LogsAs s t 0x0D09 0x20 .notice 0 ∧ WordsKept s t [PACE_STATUS] ∧
          flag t PACE_STATUS PACE_STATUS_CFG_INVALID = true ∧ t = { s with csr := t.csr, log := t.log }) ∧
      (100 ≤ v % 2 ^ 17 → v % 2 ^ 17 ≤ 100000 → Runs (.pacePeriodWrite m v) s fun t =>
        fld t PACE_PERIOD PACE_PERIOD_PERIOD = v % 2 ^ 17 ∧ WordsKept s t [PACE_PERIOD] ∧
        t = { s with csr := t.csr, pace := { s.pace with takePeriod := 0 } }) ∧
      (v % 2 ^ 17 < 100 ∨ 100000 < v % 2 ^ 17 → Runs (.pacePeriodWrite m v) s fun t => LogsAs s t 0x0D09 0x20 .notice 0 ∧
        WordsKept s t [PACE_STATUS] ∧ t = { s with csr := t.csr, log := t.log }) ∧
      (s.pace.buildRate ≤ v % 65536 → Runs (.paceFloorTargetWrite m v) s fun t =>
        fld t PACE_FLOOR_TARGET PACE_FLOOR_TARGET_TARGET = v % 65536 ∧ WordsKept s t [PACE_FLOOR_TARGET] ∧ t = { s with csr := t.csr }) ∧
      (v % 65536 < s.pace.buildRate → Runs (.paceFloorTargetWrite m v) s fun t => LogsAs s t 0x0D09 0x20 .notice 0 ∧
        WordsKept s t [PACE_STATUS] ∧ t = { s with csr := t.csr, log := t.log })) ∧
    (∀ m (v : W64), masterOk m = true → mayAdmin s m = true → Reaches s m PACE_OVR_BASE →
      (ringFits v (16 * ringLen (bitsOf v 56 4)) = true → Runs (.paceOvrBaseWrite m v) s fun t =>
        rget t PACE_OVR_BASE = ringWord v ∧ fld t PACE_OVR_PTR PACE_OVR_PTR_HEAD = 0 ∧ fld t PACE_OVR_PTR PACE_OVR_PTR_TAIL = 0 ∧
        t.mem = s.mem ∧ WordsKept s t [PACE_OVR_BASE, PACE_OVR_PTR]) ∧
      (ringFits v (16 * ringLen (bitsOf v 56 4)) = false → Runs (.paceOvrBaseWrite m v) s fun t =>
        LogsAs s t 0x0D09 0x20 .notice 0 ∧ WordsKept s t [PACE_STATUS] ∧ t = { s with csr := t.csr, log := t.log })) ∧
    (∀ m v (w : W64), masterOk m = true → mayAdmin s m = false → (∀ u c, m ≠ .unit u c) → v < 2 ^ 32 → exec (.paceCfgWrite m v) s = .next s ∧
      exec (.pacePeriodWrite m v) s = .next s ∧ exec (.paceFloorTargetWrite m v) s = .next s ∧
      exec (.paceOvrBaseWrite m w) s = .next s) ∧
    (∀ u c v, u < 25600 → c < 8 → v < 2 ^ 32 → (ctx s u c).st = .ready ∨ (ctx s u c).st = .waiting →
      Runs (.paceCfgWrite (.unit u c) v) s fun t => Faulted s t u c 0x0102 3 (3 * 2 ^ 48 + PACE_CFG) ∧ t.mem = s.mem) ∧
    (∀ high ts hold, high ≠ s.pace.inHigh → s.pace.inChange ≤ ts → hold < 200 → Runs (.paceInEdge high ts hold) s fun t =>
      t.pace = { s.pace with inChange := ts + hold } ∧ t.csr = s.csr ∧ t.out = s.out) ∧
    (∀ high ts hold, high ≠ s.pace.inHigh → s.pace.inChange + 200 ≤ ts → 200 ≤ hold → paceOn s = true → paceSource s = 1 →
      roleNow s ≠ 1 → high = !flag s PACE_CFG PACE_CFG_EDGE →
      (s.pace.lastEdge = none → roleNow s = 0 → hgCal s = true → s.pace.sched = [] → s.pace.lastFire = none →
        Runs (.paceInEdge high ts hold) s fun t => t.pace.lastEdge = some ts ∧ t.pace.inHigh = high ∧ t.core = s.core ∧
          t.pace.sched = [⟨ts + 100 * fld s PACE_LATENCY PACE_LATENCY_LATENCY, nextNum s, .edge⟩]) ∧
      ∀ e, s.pace.lastEdge = some e → ts < e + 10000 → Runs (.paceInEdge high ts hold) s fun t =>
        t.pace.lastEdge = some e ∧ t.pace.sched = s.pace.sched ∧ t.pace.glitches = s.pace.glitches + 1 ∧
        flag t PACE_STATUS PACE_STATUS_GLITCH = true ∧ WordsKept s t [PACE_STATUS]) ∧
    (isMaster s = true → paceSource s = 1 → flag s PACE_STATUS PACE_STATUS_SOURCE_LOST = false →
      Runs .paceSourceLost s fun t => flag t PACE_STATUS PACE_STATUS_SOURCE_LOST = true ∧ Logs s t 0x0D02 ∧ t.core = s.core ∧
        (flag s PACE_CFG PACE_CFG_FALLBACK = false → t.pace = s.pace ∧
          (s.pace.sched = [] → flag t PACE_STATUS PACE_STATUS_RUNNING = false)) ∧
        (flag s PACE_CFG PACE_CFG_FALLBACK = true → hgCal s = true → fld s PACE_IN_PERIOD PACE_IN_PERIOD_PERIOD ≠ 0 →
          ∀ l, lastDue s = some l → ∃ x : Sched, t.pace.sched = s.pace.sched ++ [x] ∧ x.kind = .freeRun ∧ x.num = nextNum s ∧ l < x.fire)) ∧
    (paceOn s = true → roleNow s = 2 → paceSource s = 1 → flag s PACE_STATUS PACE_STATUS_SOURCE_LOST = false →
      Runs .paceSourceLost s fun t => flag t PACE_STATUS PACE_STATUS_SOURCE_LOST = true ∧ Logs s t 0x0D02 ∧ t.core = s.core ∧
        t.pace = s.pace)

/-- A Glint fires and ends the waits for it; markers, keep-alives and pace state travel between modules; a backup takes over
(02_pace.md R50, 02_pace.md R51, 02_pace.md R52, 02_pace.md R53, 02_pace.md R62, 02_pace.md R63, 02_pace.md R65, 02_pace.md
R66, 02_pace.md R70, 02_pace.md R71, 12_packet_network.md R346). -/
def Obligations.GlintsMarkersAndTakeover : Prop :=
  ∀ s : State,
    let OnVc3 (t : State) (d : Nat) (c : PktOut) : Prop := ∀ q, s.link.outq = [] → routePort s d = some q → portState s q = 3 →
      flitRoom s q 3 (hopClass s q) 1 = true → .link q (.pkt d 3 (hopClass s q) 1 (flag s (CYUST_RT d) CYUST_RT_USE_ALT) c) ∈ t.out
    (∀ x rest, s.pace.sched = x :: rest → hgCal s = true → Runs .glintFire s fun t =>
      rget t PACE_SLOT = BitVec.ofNat 64 x.num ∧ x.fire ≤ paceTime t ∧ t.pace.lastFire = some x.fire ∧
      (∀ u c, (ctx s u c).st = .waiting → (ctx s u c).hold = .nextGlint → (ctx t u c).st = .ready ∧ (ctx t u c).slot = x.num ∧
        (ctx t u c).paced = true) ∧
      (∀ u c k, (ctx s u c).st = .waiting → (ctx s u c).hold = .glint k → k ≤ x.num → (ctx t u c).st = .ready) ∧
      (∀ u c k, (ctx s u c).st = .waiting → (ctx s u c).hold = .glint k → x.num < k → (ctx t u c).st = .waiting) ∧
      (flag s PACE_CFG PACE_CFG_OUT_EN = true → .paceOut x.fire (max 1 (fld s PACE_CFG PACE_CFG_OUT_WIDTH)) ∈ t.out)) ∧
    (∀ p (k : Marker), p < 8 → markerOk k = true → portUp s p = true →
      (s.pace.markers.contains (k.term, k.slot) = true → exec (.paceMarkerReceive p k) s = .next (gotBlocks p 1 s)) ∧
      (s.pace.markers.contains (k.term, k.slot) = false → paceOn s = false → Runs (.paceMarkerReceive p k) s fun t =>
        t.pace = { s.pace with markers := (k.term, k.slot) :: s.pace.markers } ∧ t.csr = s.csr ∧ SentOn s t (.marker k)) ∧
      (s.pace.markers.contains (k.term, k.slot) = false → paceOn s = true → roleNow s ≠ 0 → s.pace.termSeen ≤ k.term →
        flag s PACE_STATUS PACE_STATUS_SLOT_SYNC = true → Runs (.paceMarkerReceive p k) s fun t =>
          SentOn s t (.marker k) ∧ t.pace.termSeen = k.term ∧ t.pace.heardAt = paceTime s ∧
          fld t PACE_MASTER PACE_MASTER_MODULE = k.module ∧ fld t PACE_MASTER PACE_MASTER_GROUP = k.group ∧
          (s.pace.everLocked = false → t.pace.sched = s.pace.sched ∧ paceTerm t = paceTerm s) ∧
          (s.pace.everLocked = true → hgCal s = true → s.pace.sched = [] → s.pace.lastFire = none → s.pace.issued = true →
            paceTime s < nearest k.fire (2 ^ 38) (paceTime s) → paceTerm t = k.term ∧ t.pace.sched =
              [⟨nearest k.fire (2 ^ 38) (paceTime s), nearest k.slot (2 ^ 40) (nextNum s), .marker⟩]))) ∧
    (isMaster s = true → Runs .keepAliveSend s fun t => t.pace = s.pace ∧ t.csr = s.csr ∧ t.core = s.core ∧
      SentOn s t (.keepAlive (markerOf s (fld s PACE_SLOT PACE_SLOT_SLOT) (paceTime s)))) ∧
    (∀ p (k : Marker), p < 8 → markerOk k = true → portUp s p = true → s.pace.markers.contains (k.term, 2 ^ 40 + k.fire) = false →
      paceOn s = true → roleNow s ≠ 0 → s.pace.termSeen ≤ k.term → Runs (.keepAliveReceive p k) s fun t =>
        t.pace.heardAt = paceTime s ∧ t.pace.sched = s.pace.sched ∧ t.csr = s.csr ∧ SentOn s t (.keepAlive k)) ∧
    (paceOn s = true → roleNow s = 2 → Runs .paceMasterChange s fun t =>
      roleNow t = 0 ∧ paceTerm t = (max (paceTerm s) s.pace.termSeen + 1) % 256 ∧ takeoverAt s ≤ paceTime t ∧ Logs s t 0x0D06 ∧
      flag t PACE_STATUS PACE_STATUS_MASTER_CHANGE = true ∧ t.core = s.core ∧
      (paceSource s = 0 → hgCal s = true → ∃ x : Sched, t.pace.sched = s.pace.sched ++ [x] ∧ x.kind = .internal)) ∧
    (∀ a, s.pace.asked = some a → needsSync s = true → Runs .paceStateRequestRetry s fun t =>
      t.pace.asked = some (paceTime t) ∧ a + 1000000 ≤ paceTime t ∧ t.csr = s.csr ∧
      OnVc3 t (idxOfRef (fld s PACE_MASTER PACE_MASTER_MODULE * 8 + fld s PACE_MASTER PACE_MASTER_GROUP)) .paceRequest) ∧
    (∀ src, src < 512 → isMaster s = true → Runs (.paceStateRequest src) s fun t => t.pace = s.pace ∧ t.csr = s.csr ∧
      t.core = s.core ∧ OnVc3 t (idxOfRef src) (.paceAnswer (fld s PACE_SLOT PACE_SLOT_SLOT) (paceTerm s))) ∧
    (∀ slot term, slot < 2 ^ 64 → term < 256 → needsSync s = true → s.pace.asked.isSome = true →
      Runs (.paceStateAnswer slot term) s fun t => flag t PACE_STATUS PACE_STATUS_SLOT_SYNC = true ∧ WordsKept s t [PACE_STATUS] ∧
        t = { s with csr := t.csr, pace := { s.pace with
          asked := none, answered := some slot, lastSlot := max s.pace.lastSlot slot } })

/-- ADD, SET, WAIT and TEST act on synchronisation objects, wakes return to their contexts, locks are taken, released and
forced (13_sync_and_messaging.md R355, 13_sync_and_messaging.md R356, 13_sync_and_messaging.md R357, 13_sync_and_messaging.md
R358, 13_sync_and_messaging.md R359, 13_sync_and_messaging.md R361, 13_sync_and_messaging.md R362, 13_sync_and_messaging.md
R364, 13_sync_and_messaging.md R365, 13_sync_and_messaging.md R378). -/
def Obligations.SyncObjectsAndLocks : Prop :=
  ∀ s : State,
    (∀ mod rtag i (v : W64), mod < 512 → i < 65536 → syncAbandoned s i = false →
      (syncMay s i .remote = true → ∀ x st, (x, st) = (if syncVal s i + v.toNat < 2 ^ 64 then (syncVal s i + v.toNat, 0)
          else (2 ^ 64 - 1, 0x0507)) → Runs (.syncObjectAdd (.remote mod rtag i v)) s fun t =>
        syncVal t i = x ∧ .remoteAnswer mod rtag (BitVec.ofNat 64 st) ∈ t.out ∧ WordsKept s t [SYNC_VALUE i, SYNC_CTRL i] ∧
        t.sync.waiters = s.sync.waiters.filter (fun w => !(decide (w.obj = i) && decide (w.thr.toNat ≤ x))) ∧ t.core = s.core) ∧
      (syncMay s i .remote = true → syncVal s i ≤ v.toNat → Runs (.syncObjectSet (.remote mod rtag i v)) s fun t =>
        syncVal t i = v.toNat ∧ .remoteAnswer mod rtag 0 ∈ t.out ∧ WordsKept s t [SYNC_VALUE i, SYNC_CTRL i] ∧
        t.sync.waiters = s.sync.waiters.filter (fun w => !(decide (w.obj = i) && decide (w.thr.toNat ≤ v.toNat))) ∧
        t.core = s.core) ∧
      (syncMay s i .remote = true → v.toNat < syncVal s i → Runs (.syncObjectSet (.remote mod rtag i v)) s fun t =>
        t = { s with out := .remoteAnswer mod rtag 0x0505 :: s.out }) ∧
      (syncMay s i .remote = false → Runs (.syncObjectAdd (.remote mod rtag i v)) s fun t =>
        t = { s with out := .remoteAnswer mod rtag 0x0506 :: s.out }) ∧
      (v.toNat ≤ syncVal s i → Runs (.syncObjectWait (.remote mod rtag i v)) s fun t =>
        t = { s with out := .remoteAnswer mod rtag 0 :: s.out }) ∧
      (syncVal s i < v.toNat → s.sync.waiters.length < 16384 → Runs (.syncObjectWait (.remote mod rtag i v)) s fun t =>
        t.sync = { s.sync with waiters := s.sync.waiters ++ [⟨i, v, none, mod, rtag⟩] } ∧ t.out = s.out ∧
        WordsKept s t [SYNC_CTRL i] ∧ t.core = s.core) ∧
      (syncVal s i < v.toNat → 16384 ≤ s.sync.waiters.length → Runs (.syncObjectWait (.remote mod rtag i v)) s fun t =>
        t = { s with out := .remoteFull mod rtag :: s.out }) ∧
      Runs (.syncObjectTest (.remote mod rtag i v)) s fun t =>
        t = { s with out := .remoteAnswer mod rtag (if v.toNat ≤ syncVal s i then BitVec.allOnes 64 else 0) :: s.out }) ∧
    (∀ p off (d : List Byte), wfSyncObjectAdd (.bar2 p off d) = true → mget false s.host.d3 p = false →
      (ownerHost s ≠ some p ∨ off % 16 ≠ 0 ∨ d.length ≠ 8 → Runs (.syncObjectAdd (.bar2 p off d)) s fun t =>
        LogsAs s t 0x0506 0x24 .notice (off / 16) ∧ t = { s with log := t.log }) ∧
      (ownerHost s = some p → off % 16 = 0 → d.length = 8 → syncAbandoned s (off / 16) = false →
        syncVal s (off / 16) + leNat d < 2 ^ 64 → Runs (.syncObjectAdd (.bar2 p off d)) s fun t =>
          syncVal t (off / 16) = syncVal s (off / 16) + leNat d ∧ t.log = s.log ∧ t.core = s.core)) ∧
    (∀ tag r ref (v : W64), msgReq s tag = some r → refLocal s ref = true → syncAbandoned s (refObj ref) = false →
      (r.op = .syncAdd ref v → storesDone s r = true → syncMay s (refObj ref) (askerOf s r.u) = true →
        syncVal s (refObj ref) + v.toNat < 2 ^ 64 → Runs (.syncObjectAdd (.req tag)) s fun t =>
          syncVal t (refObj ref) = syncVal s (refObj ref) + v.toNat ∧ PartAnswered s t tag (r.parts.length - 1) (.status 0)) ∧
      (r.op = .syncSet ref v → storesDone s r = true → syncMay s (refObj ref) (askerOf s r.u) = true →
        syncVal s (refObj ref) ≤ v.toNat → Runs (.syncObjectSet (.req tag)) s fun t =>
          syncVal t (refObj ref) = v.toNat ∧ PartAnswered s t tag (r.parts.length - 1) (.status 0)) ∧
      (r.op = .syncTest ref v → Runs (.syncObjectTest (.req tag)) s fun t => t = { s with core := t.core } ∧
        PartAnswered s t tag (r.parts.length - 1) (.test (decide (v.toNat ≤ syncVal s (refObj ref))))) ∧
      (r.op = .syncWait ref v → waitServed s tag = false → s.sync.retry = [] → Runs (.syncObjectWait (.req tag)) s fun t =>
        t.core = s.core ∧ (v.toNat ≤ syncVal s (refObj ref) → t.sync.wakes = s.sync.wakes ++ [(tag, 0)]) ∧
        (syncVal s (refObj ref) < v.toNat → s.sync.waiters.length < 16384 →
          t.sync.waiters = s.sync.waiters ++ [⟨refObj ref, v, some tag, 0, 0⟩]) ∧
        (syncVal s (refObj ref) < v.toNat → 16384 ≤ s.sync.waiters.length → t.sync.retry = [(tag, paceTime s)] ∧ t.csr = s.csr))) ∧
    (∀ tag st r d, s.sync.wakes = [(tag, st)] → findReq s tag = some r → r.orphan = false → r.dst = some (.s d) →
      (ctx s r.u r.c).hold = .sync tag → r.tag = tag → (ctx s r.u r.c).st = .waiting →
      inMesh s (.wake tag st) = false → unitGated s r.u = false → olderWrite s r.u r.c (.s d) tag = false →
      (∀ v ∈ s.core.vecs, v.soon = false) → Runs (.syncWake tag) s fun t =>
        t.sync.wakes = [] ∧ (ctx t r.u r.c).st = .ready ∧ (ctx t r.u r.c).hold = .none ∧ findReq t tag = none ∧
        (∀ q, sr (ctx t r.u r.c) q = if q = d ∧ q ≠ 0 then st else sr (ctx s r.u r.c) q) ∧ t.mem = s.mem ∧ t.csr = s.csr) ∧
    (∀ tag at_ r ref (v : W64), s.sync.retry = [(tag, at_)] → findReq s tag = some r → r.op = .syncWait ref v →
      (paceTime s < at_ + 10000 → exec (.syncWaitRetry tag) s = .next s) ∧
      (at_ + 10000 ≤ paceTime s → refLocal s ref = true → v.toNat ≤ syncVal s (refObj ref) → syncAbandoned s (refObj ref) = false →
        Runs (.syncWaitRetry tag) s fun t => t.sync.retry = [] ∧ t.sync.wakes = s.sync.wakes ++ [(tag, 0)] ∧ t.core = s.core) ∧
      (at_ + 10000 ≤ paceTime s → refLocal s ref = false → Runs (.syncWaitRetry tag) s fun t =>
        t = { s with sync := { s.sync with retry := [] } })) ∧
    (∀ m i (v : W64) plot owned op, masterOk m = true → i < 65536 → plot < 64 → syncCtl s i SYNC_CTRL_WAITERS = 0 →
      (isSupervisor m = true ∨ m = .mc → Reaches s m (SYNC_VALUE i) → Runs (.syncValueWrite m i v) s fun t => rget t (SYNC_VALUE i) = v ∧
        WordsKept s t [SYNC_VALUE i] ∧ t = { s with csr := t.csr }) ∧
      (mayMsg s m = true → Reaches s m (SYNC_CTRL i) → syncAbandoned s i = false → Runs (.syncCtrlWrite m i plot owned op) s fun t =>
        syncCtl t i SYNC_CTRL_PLOT = plot ∧ syncCtl t i SYNC_CTRL_OWNED = b2n owned ∧ syncCtl t i SYNC_CTRL_OPEN = b2n op ∧
        syncCtl t i SYNC_CTRL_WAITERS = 0 ∧ WordsKept s t [SYNC_CTRL i] ∧ t = { s with csr := t.csr })) ∧
    (∀ m i (v : W64), masterOk m = true → i < 65536 → Reaches s m (SYNC_VALUE i) → syncCtl s i SYNC_CTRL_WAITERS ≠ 0 → exec (.syncValueWrite m i v) s = .next s) ∧
    (∀ m i, masterOk m = true → i < 256 → Reaches s m (LOCK i) →
      (sideReads s m = false → Runs (.lockRead (.csr m i)) s fun t => t = { s with out := .csrData m 0xFFFF :: s.out }) ∧
      (sideReads s m = true → fld s (LOCK i) LOCK_HOLDER = 0 → Runs (.lockRead (.csr m i)) s fun t =>
        fld t (LOCK i) LOCK_HOLDER = srcOfMaster m % 65536 ∧ t.out = .csrData m 0 :: s.out ∧ WordsKept s t [LOCK i] ∧
        t = { s with csr := t.csr, out := t.out }) ∧
      (sideReads s m = true → fld s (LOCK i) LOCK_HOLDER ≠ 0 → Runs (.lockRead (.csr m i)) s fun t =>
        t = { s with out := .csrData m (rget s (LOCK i)) :: s.out }) ∧
      (mayMsg s m = true → fld s (LOCK i) LOCK_HOLDER = srcOfMaster m → flag s (LOCK i) LOCK_ABANDONED = false → Runs (.lockReleaseWrite (.csr m i)) s fun t =>
        rget t (LOCK i) = 0 ∧ WordsKept s t [LOCK i] ∧ t = { s with csr := t.csr }) ∧
      (mayMsg s m = true → fld s (LOCK i) LOCK_HOLDER ≠ srcOfMaster m ∨ flag s (LOCK i) LOCK_ABANDONED = true → Runs (.lockReleaseWrite (.csr m i)) s fun t =>
        LogsAs s t 0x050B 0x24 .notice i ∧ t = { s with log := t.log }) ∧
      (mayMsg s m = true → Runs (.lockForce m i) s fun t => rget t (LOCK i) = 0 ∧ WordsKept s t [LOCK i] ∧ t = { s with csr := t.csr }))

/-- Mailboxes go from FREE through PENDING and CLAIMED by the writes and reads of R367, and queues accept, show and hand out
entries (13_sync_and_messaging.md R354, 13_sync_and_messaging.md R367, 13_sync_and_messaging.md R368,
13_sync_and_messaging.md R369, 13_sync_and_messaging.md R370, 13_sync_and_messaging.md R372, 13_sync_and_messaging.md R373,
13_sync_and_messaging.md R374, 13_sync_and_messaging.md R375, 13_sync_and_messaging.md R376, 13_sync_and_messaging.md R377,
13_sync_and_messaging.md R378). -/
def Obligations.MailboxesAndQueues : Prop :=
  ∀ s : State,
    (∀ tag r j bit n d, msgReq s tag = some r → r.op = .mbxSend j bit n → j < 64 → bit < 32 → storesDone s r = true →
      gather r.parts.dropLast = (d, [], none) → d.length ≤ 480 →
      (mbxState s j = 0 → Runs (.mbxSendDeliver tag) s fun t => mbxState t j = 2 ∧ mbxSrc t j = srcOf r.u % 65536 ∧
        fld t (MBX_HDR j) MBX_HDR_LEN = d.length ∧ fld t (MBX_HDR j) MBX_HDR_DB = bit ∧
        fld t (MBX_HDR j) MBX_HDR_SEQ = (fld s (MBX_HDR j) MBX_HDR_SEQ + 1) % 65536 ∧
        (∀ k, k < 60 → rget t (mbxBodyWord j k) = BitVec.ofNat 64 (leNat ((d.drop (8 * k)).take 8))) ∧
        Nat.testBit (fld t (MBX_DB j) MBX_DB_PEND) bit = true ∧ PartAnswered s t tag (r.parts.length - 1) (.status 0) ∧ t.mem = s.mem) ∧
      (mbxState s j ≠ 0 → Runs (.mbxSendDeliver tag) s fun t => PartAnswered s t tag (r.parts.length - 1) (.status 0x0502) ∧
        t = { s with core := t.core })) ∧
    (∀ tag r j, msgReq s tag = some r → r.op = .mbxWdraw j → j < 64 →
      (mbxState s j = 2 → mbxSrc s j = srcOf r.u → Runs (.mbxWithdraw tag) s fun t => mbxState t j = 0 ∧
        WordsKept s t [MBX_HDR j] ∧ PartAnswered s t tag (r.parts.length - 1) (.status 0)) ∧
      (mbxState s j ≠ 2 → Runs (.mbxWithdraw tag) s fun t => t = { s with core := t.core } ∧
        PartAnswered s t tag (r.parts.length - 1) (.status 0x0503))) ∧
    (∀ m j db len, masterOk m = true → j < 64 → db < 32 → len < 512 → Reaches s m (MBX_PORT j) → Reaches s m (MBX_DB j) →
      (isReceiver s j m = false → sideReads s m = true → mbxState s j = 0 → Runs (.mbxReserve m j) s fun t => mbxState t j = 1 ∧
        mbxSrc t j = srcOfMaster m % 65536 ∧ (∀ k, k < 60 → rget t (mbxBodyWord j k) = 0) ∧
        t.out = .csrData m 0x10000 :: s.out ∧ mget 0 t.sync.reservedAt j = paceTime s ∧ t.core = s.core ∧ t.mem = s.mem) ∧
      (isReceiver s j m = true → mbxState s j = 2 → Runs (.mbxClaim m j) s fun t => mbxState t j = 3 ∧
        t.out = .csrData m 0x30000 :: s.out ∧ WordsKept s t [MBX_HDR j] ∧ t = { s with csr := t.csr, out := t.out }) ∧
      (mayMsg s m = true → mbxState s j = 1 → mbxSrc s j = srcOfMaster m → len ≤ 480 → Runs (.mbxPortSend m j db len) s fun t =>
        mbxState t j = 2 ∧ fld t (MBX_HDR j) MBX_HDR_LEN = len ∧ fld t (MBX_HDR j) MBX_HDR_DB = db ∧
        fld t (MBX_CFG j) MBX_CFG_LAST = 0 ∧ WordsKept s t [MBX_HDR j, MBX_CFG j, MBX_DB j] ∧ t.core = s.core ∧ t.mem = s.mem) ∧
      (mayMsg s m = true → mbxState s j ≠ 1 → Runs (.mbxPortSend m j db len) s fun t => mbxState t j = mbxState s j ∧
        fld t (MBX_CFG j) MBX_CFG_LAST = (if s.sync.lapsed.contains (j, srcOfMaster m) then 0x050A else 0x0502) ∧ WordsKept s t [MBX_CFG j]) ∧
      (isReceiver s j m = true → mbxState s j = 3 → Runs (.mbxPortFree m j) s fun t => mbxState t j = 0 ∧
        fld t (MBX_CFG j) MBX_CFG_LAST = 0 ∧ WordsKept s t [MBX_HDR j, MBX_CFG j] ∧ t = { s with csr := t.csr }) ∧
      (mayMsg s m = true → mbxState s j = 2 → mbxSrc s j = srcOfMaster m → Runs (.mbxPortWdraw m j) s fun t => mbxState t j = 0 ∧
        fld t (MBX_CFG j) MBX_CFG_LAST = 0 ∧ WordsKept s t [MBX_HDR j, MBX_CFG j] ∧ t = { s with csr := t.csr }) ∧
      (mayMsg s m = true → mbxState s j = 1 → mbxSrc s j = srcOfMaster m → Runs (.mbxPortCancel m j) s fun t => mbxState t j = 0 ∧
        fld t (MBX_CFG j) MBX_CFG_LAST = 0 ∧ WordsKept s t [MBX_HDR j, MBX_CFG j] ∧ t = { s with csr := t.csr }) ∧
      (mbxState s j = 1 → mget 0 s.sync.reservedAt j + 10000000 ≤ paceTime s → Runs (.mbxReserveLapse j) s fun t =>
        mbxState t j = 0 ∧ WordsKept s t [MBX_HDR j] ∧
        t = { s with csr := t.csr, sync := { s.sync with lapsed := s.sync.lapsed ++ [(j, mbxSrc s j)] } }) ∧
      ∀ clear mask, clear < 2 ^ 32 → mask < 2 ^ 32 → isReceiver s j m = true → Runs (.mbxDbWrite m j clear mask) s fun t =>
        fld t (MBX_DB j) MBX_DB_MASK = mask ∧ WordsKept s t [MBX_DB j] ∧ t.core = s.core ∧ ∀ b, b < 32 →
          Nat.testBit (fld t (MBX_DB j) MBX_DB_PEND) b = (Nat.testBit (fld s (MBX_DB j) MBX_DB_PEND) b && !Nat.testBit clear b)) ∧
    (∀ tag r q (d : W512), msgReq s tag = some r → r.op = .qSubmit q d → storesDone s r = true →
      s.sync.qpend.any (fun e => decide (e.tag = some tag)) = false →
      (submitCheck s q (unitMay s q r.u Q_CFG_CORE_SUBMIT) = 0 → Runs (.queueSubmit (.req tag)) s fun t =>
        t = { s with sync := { s.sync with qpend := s.sync.qpend ++ [⟨q, d, some tag⟩] } }) ∧
      ∀ code, submitCheck s q (unitMay s q r.u Q_CFG_CORE_SUBMIT) = code → code ≠ 0 → Runs (.queueSubmit (.req tag)) s fun t =>
        fld t (Q_COUNT q) Q_COUNT_REJECTS = satAdd 32 (fld s (Q_COUNT q) Q_COUNT_REJECTS) 1 ∧ WordsKept s t [Q_COUNT q] ∧
        PartAnswered s t tag (r.parts.length - 1) (.status (BitVec.ofNat 64 code)) ∧ t.sync = s.sync ∧ t.mem = s.mem) ∧
    (∀ p off q (d : List Byte), wfQueueSubmit (.bar2 p off d) = true → q = (off - 0x100000) / 64 → mget false s.host.d3 p = false →
      (ownerHost s ≠ some p ∨ off % 64 ≠ 0 ∨ d.length ≠ 64 → Runs (.queueSubmit (.bar2 p off d)) s fun t =>
        LogsAs s t 0x0508 0x24 .notice q ∧ t = { s with log := t.log }) ∧
      (ownerHost s = some p → off % 64 = 0 → d.length = 64 → submitCheck s q true = 0 → Runs (.queueSubmit (.bar2 p off d)) s fun t =>
        t = { s with sync := { s.sync with qpend := s.sync.qpend ++ [⟨q, BitVec.ofNat 512 (leNat d), none⟩] } })) ∧
    (∀ q (d : W512), q < 65536 → s.sync.qpend = [⟨q, d, none⟩] → selOf (qEntry s q (qTail s q)) = 0 → qDown s q = false →
      qLog s q ≤ 16 → fld s (Q_CFG q) Q_CFG_DB_KIND = 0 → Runs (.queueEntryVisible q) s fun t => t.sync.qpend = [] ∧
        qTail t q = (qTail s q + 1) % qLen s q ∧ qHead t q = qHead s q ∧
        fld t (Q_COUNT q) Q_COUNT_SUBMITS = satAdd 32 (fld s (Q_COUNT q) Q_COUNT_SUBMITS) 1 ∧
        (∀ a, a < offOf (qEntry s q (qTail s q)) ∨ offOf (qEntry s q (qTail s q)) + 64 ≤ a →
          memByte t.mem.dram a = memByte s.mem.dram a) ∧ t.mem.loc = s.mem.loc ∧ t.out = s.out) ∧
    (∀ tag r q (e : W512), msgReq s tag = some r → r.op = .qTake q → qState s q = 1 → unitMay s q r.u Q_CFG_CORE_TAKE = true →
      (qHead s q = qTail s q → Runs (.queueTake tag e) s fun t => PartAnswered s t tag (r.parts.length - 1) (.taken false 0) ∧
        t = { s with core := t.core }) ∧
      (qHead s q ≠ qTail s q → qLog s q ≤ 16 → selOf (qEntry s q (qHead s q)) = 8 → qDown s q = false →
        Runs (.queueTake tag e) s fun t => PartAnswered s t tag (r.parts.length - 1) (.taken true e) ∧
          qHead t q = (qHead s q + 1) % qLen s q ∧ WordsKept s t [Q_PTR q] ∧ t.mem = s.mem)) ∧
    (∀ m q h, masterOk m = true → q < 65536 → h < 65536 → isSupervisor m = true ∨ isOwner s m = true → Reaches s m (Q_PTR q) →
      (h < qLen s q → (h + qLen s q - qHead s q) % qLen s q ≤ (qTail s q + qLen s q - qHead s q) % qLen s q →
        Runs (.qHeadWrite m q h) s fun t => qHead t q = h ∧ qTail t q = qTail s q ∧ WordsKept s t [Q_PTR q] ∧ t = { s with csr := t.csr }) ∧
      (qLen s q ≤ h → Runs (.qHeadWrite m q h) s fun t => LogsAs s t 0x0508 0x24 .notice q ∧ t = { s with log := t.log })) ∧
    ∀ m q v, masterOk m = true → q < 65536 → v < 2 ^ 32 → mayMsg s m = true → Reaches s m (Q_CFG q) → qState s q = 0 → v % 4 = 1 →
      (qGood s q = true → Runs (.qCfgWrite m q v) s fun t => rget t (Q_CFG q) = BitVec.ofNat 64 v ∧ rget t (Q_PTR q) = 0 ∧
        WordsKept s t [Q_CFG q, Q_PTR q] ∧ t = { s with csr := t.csr }) ∧
      (qGood s q = false → Runs (.qCfgWrite m q v) s fun t => qState t q = 0 ∧ LogsAs s t 0x0508 0x24 .notice q ∧
        WordsKept s t [Q_CFG q])

/-- LPDDR5X reads return what was written, writes keep the parity right, and failed chunks are rebuilt from it (14_lpddr.md
R384, 14_lpddr.md R386, 14_lpddr.md R387, 14_lpddr.md R393, 14_lpddr.md R396, 01_organisation.md R35). -/
def Obligations.LpddrAccessesAndParity : Prop :=
  ∀ s : State, flag s LMC_STATUS LMC_STATUS_INIT_DONE = true → s.mem.dramPoison = [] → s.mem.dramBad = [] →
    (∀ k, pairFailed s k = false) →
    (∀ tag i r p o, dramPart s tag i = some (r, p) → o = offOf p.addr → o % 64 + p.n ≤ 64 → chState s (lpDevCh o) = 0 →
      (isLoad r || isMsg r.op = true → Runs (.lmcRead (.own tag i) ⟨[], []⟩) s fun t =>
        PartAnswered s t tag i (.bytes (memBytes s.mem.dram o p.n) []) ∧ t.csr = s.csr ∧ t.mem.dram = s.mem.dram ∧ t.out = s.out) ∧
      (∀ inv, isLoad r || isMsg r.op = true → (∀ c, c < 16 → chState s (devCh (lpPair o) c) = 0) →
        Runs (.lmcRead (.own tag i) ⟨[(lpDevCh o, .failed inv)], []⟩) s fun t =>
        PartAnswered s t tag i (.bytes ((List.range p.n).map fun k => rebuilt s.mem (o + k)) []) ∧
        fld t (chReg (lpDevCh o)) LMC_CH_FAILS = satAdd 16 (fld s (chReg (lpDevCh o)) LMC_CH_FAILS) 1 ∧
        fld t (LMC_ERR (lpDevCh o / 8)) LMC_ERR_REBUILT = satAdd 16 (fld s (LMC_ERR (lpDevCh o / 8)) LMC_ERR_REBUILT) 1 ∧
        (∃ e ∈ t.log.inFlight, e.code = 0x0606)) ∧
      (∀ d, r.op = .store p.addr d [] → p.n = d.length → stageLocked s o = false →
        chState s (devCh (lpPair o) (lpT o % 16)) = 0 → Runs (.lmcWrite (.own tag i) ⟨[], []⟩) s fun t =>
          PartAnswered s t tag i (.status 0) ∧ memBytes t.mem.dram o p.n = d ∧
          (∀ a, a < o ∨ o + p.n ≤ a → memByte t.mem.dram a = memByte s.mem.dram a) ∧
          (∀ a, o ≤ a → a < o + p.n → rebuilt s.mem a = memByte s.mem.dram a → rebuilt t.mem a = memByte t.mem.dram a) ∧
          t.csr = s.csr ∧ t.mem.loc = s.mem.loc)) ∧
    (∀ (stripe : Nat) (f : Nat → LmcReq × List Byte × List Nat), stripe < 2 ^ 30 → (∀ c, c < 15 → stripePart s stripe c = some (f c) ∧ (f c).2.1.length = 64 ∧
        stageLocked s (stripe * 960 + c * 64) = false) → (∀ c, c < 16 → chState s (devCh (stripe % 4) c) = 0) →
      Runs (.stripeWrite stripe []) s fun t =>
        (∀ c, c < 15 → memBytes t.mem.dram (stripe * 960 + c * 64) 64 = (f c).2.1) ∧
        (∀ b, b < 960 → rebuilt t.mem (stripe * 960 + b) = memByte t.mem.dram (stripe * 960 + b)) ∧
        (∀ a, a < stripe * 960 ∨ stripe * 960 + 960 ≤ a → memByte t.mem.dram a = memByte s.mem.dram a) ∧
        ((∀ c, c < 15 → ∃ tag i, (f c).1 = .own tag i) → t.csr = s.csr)) ∧
    (∀ p x n o, p < 2 → 0 < n → x % 64 + n ≤ 64 → o = winBase s p + x → mget false s.host.d3 p = false → inBar4 s p x n = true →
      (o + n ≤ lpddrSize → chState s (lpDevCh o) = 0 → Runs (.bar4Read p x n ⟨[], []⟩) s fun t =>
        t.out = .hostData p (some (memBytes s.mem.dram o n)) false :: s.out ∧ t.mem.dram = s.mem.dram ∧ t.csr = s.csr) ∧
      (lpddrSize < o + n → Runs (.bar4Read p x n ⟨[], []⟩) s fun t => t = { s with out := .hostData p none false :: s.out }) ∧
      ∀ d : List Byte, d.length = n →
        (o + n ≤ lpddrSize → chState s (lpDevCh o) = 0 → stageLocked s o = false → Runs (.bar4Write p x d ⟨[], []⟩) s fun t =>
          memBytes t.mem.dram o n = d ∧ (∀ a, a < o ∨ o + n ≤ a → memByte t.mem.dram a = memByte s.mem.dram a) ∧ t.csr = s.csr) ∧
        (lpddrSize < o + n → Runs (.bar4Write p x d ⟨[], []⟩) s fun t => LogsAs s t 0x0603 0x23 .notice 0 ∧ t = { s with log := t.log }) ∧
        ∀ u : State, flag u LMC_STATUS LMC_STATUS_INIT_DONE = false → mget false u.host.d3 p = false → inBar4 u p x n = true → Runs (.bar4Write p x d ⟨[], []⟩) u (fun t => Logs u t 0x060C ∧
            t = { u with log := t.log }) ∧
          Runs (.bar4Read p x n ⟨[], []⟩) u fun t => Logs u t 0x060C ∧ t = { u with log := t.log, out := .hostData p none false :: u.out }) ∧
    (∀ p base, p < 2 → base < 1024 → CoresFault s (if p = 0 then LMC_WIN_A else LMC_WIN_B) fun m => .lmcWinWrite m p base) ∧
    ∀ m p base, masterOk m = true → p < 2 → base < 1024 → mayAdmin s m = true → Reaches s m (if p = 0 then LMC_WIN_A else LMC_WIN_B) →
      (base * 2 ^ 30 % 2 ^ mget 30 s.host.bar4 p = 0 → Runs (.lmcWinWrite m p base) s fun t => winBase t p = base * 2 ^ 30 ∧
        WordsKept s t [if p = 0 then LMC_WIN_A else LMC_WIN_B] ∧ t = { s with csr := t.csr }) ∧
      (base * 2 ^ 30 % 2 ^ mget 30 s.host.bar4 p ≠ 0 → exec (.lmcWinWrite m p base) s = .next s)

/-- Channels train, retrain, degrade, are reinstated and rebuilt; the memory is initialised; the patrol scrub goes on
(14_lpddr.md R389, 14_lpddr.md R391, 14_lpddr.md R392, 14_lpddr.md R393, 14_lpddr.md R394, 14_lpddr.md R395). -/
def Obligations.LpddrTrainingAndRepair : Prop :=
  ∀ s : State,
    (∀ bad, bad.all (· < 64) = true → s.mc.pwrGood = true → s.mc.compOff = false → flag s LMC_STATUS LMC_STATUS_TRAINED = false → Runs (.lpddrTrainingDone bad) s fun t =>
      flag t LMC_STATUS LMC_STATUS_TRAINED = true ∧ flag t GLB_STATUS GLB_STATUS_LPDDR_READY = true ∧ t.mem.dram = s.mem.dram ∧
      (∀ x ∈ bad, chState t x = 2) ∧ ∀ x, x < 64 → x ∉ bad → chState t x = chState s x) ∧
    (flag s LMC_STATUS LMC_STATUS_TRAINED = true → flag s LMC_STATUS LMC_STATUS_INIT_DONE = false → Runs .lpddrInitDone s fun t =>
      flag t LMC_STATUS LMC_STATUS_INIT_DONE = true ∧ (∀ a, memByte t.mem.dram a = 0 ∧ memByte t.mem.parity a = 0) ∧
      WordsKept s t [LMC_STATUS] ∧
      t = { s with csr := t.csr, mem := { s.mem with dram := [], parity := [], dramPoison := [], dramBad := [] } }) ∧
    (flag s LMC_STATUS LMC_STATUS_INIT_DONE = true → exec .lpddrInitDone s = .next s) ∧
    (∀ i l, i < 8 → flag s LMC_STATUS LMC_STATUS_TRAINED = true → nextActive s i (mget 0 s.mem.retrNext i) = some l →
      s.mem.retrDue.any (fun e => decide (e.1 = 8 * i + l)) = false → Runs (.retrainDue i) s fun t =>
        t.mem.retrDue = s.mem.retrDue ++ [(8 * i + l, s.log.glints, paceTime t)] ∧ mget 0 t.mem.retrNext i = (l + 1) % 8 ∧ paceTime s ≤ paceTime t ∧
        t = { s with now := t.now, mem := { s.mem with retrDue := t.mem.retrDue, retrNext := t.mem.retrNext, retrAt := t.mem.retrAt } }) ∧
    (∀ i x g at_, i < 8 → x / 8 = i → s.mem.retrDue = [(x, g, at_)] → (∀ l, l < 8 → chState s (8 * i + l) ≠ 1) →
      chState s x = 0 →
      ((g < s.log.glints ∧ urgent s x = false) ∨ at_ + fld s LMC_RETRAIN LMC_RETRAIN_DEFER * 10000 ≤ paceTime s →
        Runs (.retrainStart i) s fun t => chState t x = 1 ∧ t.mem.retrDue = [] ∧ t.mem.dram = s.mem.dram ∧
          ∀ y, y < 64 → y ≠ x → chState t y = chState s y) ∧
      (s.log.glints ≤ g ∨ urgent s x = true → paceTime s < at_ + fld s LMC_RETRAIN LMC_RETRAIN_DEFER * 10000 →
        exec (.retrainStart i) s = .next s)) ∧
    (∀ i l, i < 8 → l < 8 → chState s (8 * i + l) = 1 → (∀ k, k < l → chState s (8 * i + k) ≠ 1) →
      Runs (.retrainEnd i true) s (fun t => chState t (8 * i + l) = 0 ∧ t.mem.dram = s.mem.dram ∧
        fld t (chReg (8 * i + l)) LMC_CH_TRAININGS = (fld s (chReg (8 * i + l)) LMC_CH_TRAININGS + 1) % 65536 ∧
        ∀ y, y < 64 → y ≠ 8 * i + l → chState t y = chState s y) ∧
      Runs (.retrainEnd i false) s fun t => chState t (8 * i + l) = 2 ∧ t.mem.dram = s.mem.dram ∧
        (∃ e ∈ t.log.inFlight, e.code = 0x060A) ∧ ∀ y, y < 64 → y ≠ 8 * i + l → chState t y = chState s y) ∧
    (∀ x pass, x < 64 → CoresFault s (chReg x) fun m => .reinstate m x pass) ∧
    (∀ m x, masterOk m = true → x < 64 → Reaches s m (chReg x) → isSupervisor m = true ∨ isOwner s m = true → chState s x = 2 → mateDown s x = false →
      Runs (.reinstate m x true) s (fun t => chState t x = 3 ∧ fld t (chReg x) LMC_CH_REBUILD_POS = 0 ∧ t.mem.dram = s.mem.dram ∧
        t.log = s.log) ∧
      Runs (.reinstate m x false) s fun t => chState t x = 2 ∧ Logs s t 0x060A ∧ t.mem.dram = s.mem.dram) ∧
    (∀ m x pass, masterOk m = true → x < 64 → Reaches s m (chReg x) → isSupervisor m = false → isOwner s m = false →
      exec (.reinstate m x pass) s = .next s) ∧
    (∀ x k o, x < 64 → chState s x = 3 → pairFailed s (x / 16) = false → k = fld s (chReg x) LMC_CH_REBUILD_POS →
      matePaused s x = false → (∀ y ∈ mates x, chStale s y k = false) → x % 16 ≠ k % 16 → o = (4 * k + x / 16) * 960 + (x % 16 + 15 - k % 16) % 16 * 64 → Runs (.channelRebuildStripe x ⟨[], []⟩) s fun t =>
        (∀ b, b < 64 → memByte t.mem.dram (o + b) = rebuilt s.mem (o + b)) ∧
        (∀ a, a < o ∨ o + 64 ≤ a → memByte t.mem.dram a = memByte s.mem.dram a) ∧
        (if k + 1 < 2 ^ 28 then chState t x = 3 ∧ fld t (chReg x) LMC_CH_REBUILD_POS = k + 1 else chState t x = 0)) ∧
    (flag s LMC_SCRUB LMC_SCRUB_EN = true → flag s LMC_STATUS LMC_STATUS_INIT_DONE = true → (∀ x, x < 64 → chState s x ≠ 1) →
      Runs (.patrolScrubStripe ⟨[], []⟩) s fun t =>
      fld t LMC_SCRUB LMC_SCRUB_POS = (fld s LMC_SCRUB LMC_SCRUB_POS + 1) % 2 ^ 28 ∧ t.mem.dram = s.mem.dram ∧ t.mem.loc = s.mem.loc ∧
      ∀ k b, k < 4 → (∀ c, c < 16 → chState s (devCh k c) < 2) → b < 960 →
        rebuilt t.mem ((4 * fld s LMC_SCRUB LMC_SCRUB_POS + k) * 960 + b) =
          memByte s.mem.dram ((4 * fld s LMC_SCRUB LMC_SCRUB_POS + k) * 960 + b))

/-- A word cell whose operands are there takes its step: result, flag and next entry of each of the 16 operations (15_loam.md
R400, 15_loam.md R401, 15_loam.md R402, 15_loam.md R403). -/
def Obligations.LoamCells : Prop :=
  ∀ (s : State) (i : Nat) (x : CellRun) (e : BitVec 48), x = cellRun s i → e = cellEntry s i → i < 98304 →
    ∀ o ∈ ([(.cellNop i, 0, fun _ _ f => (0, f)),
      (.cellAdd i, 1, fun a b _ => (a + b, decide (2 ^ 16 ≤ a.toNat + b.toNat))),
      (.cellSub i, 2, fun a b _ => (a - b, decide (a.toNat < b.toNat))),
      (.cellAnd i, 3, fun a b _ => (a &&& b, decide (a &&& b ≠ 0))), (.cellOr i, 4, fun a b _ => (a ||| b, decide (a ||| b ≠ 0))),
      (.cellXor i, 5, fun a b _ => (a ^^^ b, decide (a ^^^ b ≠ 0))),
      (.cellShl i, 6, fun a b _ => (a <<< (b.toNat % 16), decide (a <<< (b.toNat % 16) ≠ 0))),
      (.cellShr i, 7, fun a b _ => (a >>> (b.toNat % 16), decide (a >>> (b.toNat % 16) ≠ 0))),
      (.cellSra i, 8, fun a b _ => (a.sshiftRight (b.toNat % 16), decide (a.sshiftRight (b.toNat % 16) ≠ 0))),
      (.cellCmpeq i, 9, fun a b _ => (if a = b then 1 else 0, decide (a = b))),
      (.cellCmplt i, 10, fun a b _ => (if a.toInt < b.toInt then 1 else 0, decide (a.toInt < b.toInt))),
      (.cellCmpltu i, 11, fun a b _ => (if a.toNat < b.toNat then 1 else 0, decide (a.toNat < b.toNat))),
      (.cellSel i, 12, fun a b f => (if f then a else b, f)),
      (.cellMulu i, 13, fun a b _ => (BitVec.ofNat 16 (a.toNat % 256 * (b.toNat % 256)), decide (a.toNat % 256 * (b.toNat % 256) ≠ 0))),
      (.cellMuls i, 14, fun a b _ => (BitVec.ofInt 16 ((a.setWidth 8).toInt * (b.setWidth 8).toInt),
        decide ((a.setWidth 8).toInt * (b.setWidth 8).toInt ≠ 0))),
      (.cellMov i, 15, fun a _ _ => (a, decide (a ≠ 0)))] :
        List (Instr × Nat × (BitVec 16 → BitVec 16 → Bool → BitVec 16 × Bool))),
      (bitsOf e 0 6 ≠ o.2.1 → exec o.1 s = .next s) ∧
      (regionRunning s (siteR i) = true → bitsOf e 0 6 = o.2.1 → ∀ a b res fo fl,
        (o.2.1 ≠ 0 → cellOperand s i x (bitsOf e 32 16) (bitsOf e 6 3) = some a) →
        (o.2.1 ≠ 0 → o.2.1 ≠ 15 → cellOperand s i x (bitsOf e 32 16) (bitsOf e 9 3) = some b) →
        (o.2.1 ≠ 0 → bitsOf e 15 1 = 1 → x.out = 0) →
        o.2.2 (BitVec.ofNat 16 a) (BitVec.ofNat 16 b) x.flag = (res, fo) →
        fl = (if o.2.1 ≠ 0 ∧ bitsOf e 22 1 = 1 then fo else x.flag) → Runs o.1 s fun t =>
          (cellRun t i).flag = fl ∧
          (cellRun t i).q = (if o.2.1 ≠ 0 ∧ bitsOf e 14 1 = 1 then setBits x.q (16 * bitsOf e 12 2) 16 res.toNat else x.q) ∧
          (o.2.1 ≠ 0 → bitsOf e 15 1 = 1 → (cellRun t i).out = res.toNat + 1 ∨ (cellRun t i).out = 0) ∧
          (cellRun t i).pc = (if bitsOf e 16 3 = 1 then x.pc
            else if 4 ≤ bitsOf e 16 3 ∨ bitsOf e 16 3 = 2 ∧ fl = true ∨ bitsOf e 16 3 = 3 ∧ fl = false then bitsOf e 19 3
            else (x.pc + 1) % cellLen s i) ∧
          t.csr = s.csr ∧ t.core = s.core ∧ t.mem = s.mem ∧ t.loam.words = s.loam.words ∧ t.loam.cells = s.loam.cells) ∧
      (o.2.1 ≠ 0 → cellOperand s i x (bitsOf e 32 16) (bitsOf e 6 3) = none → exec o.1 s = .next s)

/-- Memory blocks, the Loam window and the fabric ports read and write what they are asked (15_loam.md R411, 15_loam.md R412,
15_loam.md R413, 15_loam.md R414, 15_loam.md R415, 15_loam.md R416, 09_core_memory.md R241). -/
def Obligations.LoamMemoryWindowAndPorts : Prop :=
  ∀ s : State, s.loam.badWords = [] →
    (∀ r b q a k, r < 16 → b < 64 → q < 2 → regionRunning s r = true → slotOf s.loam.sink (blockSiteOf r b * 8 + 2 * q) = some a →
      k = wordKeyL r b (a % 2048) →
      (∀ v, portMode s r b q = 2 → slotOf s.loam.sink (blockSiteOf r b * 8 + 2 * q + 1) = some v →
        Runs (.memoryBlockAccess r b q 0) s fun t => loamWord t k = v % 65536 ∧ (∀ j, j ≠ k → loamWord t j = loamWord s j) ∧
          t.csr = s.csr ∧ t.core = s.core ∧ t.mem = s.mem) ∧
      (portMode s r b q = 1 → slotOf s.loam.rdata ((r * 64 + b) * 2 + q) = none → Runs (.memoryBlockAccess r b q 0) s fun t =>
        t.loam.words = s.loam.words ∧ t.csr = s.csr ∧ t.core = s.core ∧ ∃ m : State,
          m = { s with loam := { s.loam with rdata := fillSlot s.loam.rdata ((r * 64 + b) * 2 + q) (loamWord s k),
                                             sink := emptySlot s.loam.sink (blockSiteOf r b * 8 + 2 * q) } } ∧ ∃ ks, t = move ks m) ∧
      (portMode s r b q = 1 → slotOf s.loam.rdata ((r * 64 + b) * 2 + q) = none → Runs (.memoryBlockAccess r b q 2) s fun t =>
        regionRunning t r = false ∧ fld t (LOAM_RGN_STATUS r) LOAM_RGN_STATUS_HALT_CODE = 0x070A ∧
        fld t (LOAM_RGN_STATUS r) LOAM_RGN_STATUS_HALT_WORD = b * 2048 + a % 2048 ∧ Logs s t 0x070A ∧ t.core = s.core)) ∧
    (∀ tag i r p o, findReq s tag = some r → openAt s r i = some p → selOf p.addr = 4 → 0 < p.n → inOrder s r p = true →
      o = offOf p.addr →
      (regionRunning s (o / 0x40000) = true → isLoad r = true → Runs (.loamWindowAccess tag i []) s fun t =>
        PartAnswered s t tag i (.bytes ((List.range p.n).map fun k => BitVec.ofNat 8 (loamWord s ((o + k) / 2) / 256 ^ ((o + k) % 2))) []) ∧
        t = { s with core := t.core }) ∧
      (∀ d, r.op = .store p.addr d [] → d.length = p.n →
        (regionRunning s (o / 0x40000) = true → Runs (.loamWindowAccess tag i []) s fun t => PartAnswered s t tag i (.status 0) ∧
          (∀ k v, d[k]? = some v → BitVec.ofNat 8 (loamWord t ((o + k) / 2) / 256 ^ ((o + k) % 2)) = v) ∧
          (∀ a, a < o ∨ o + p.n ≤ a → BitVec.ofNat 8 (loamWord t (a / 2) / 256 ^ (a % 2)) =
            BitVec.ofNat 8 (loamWord s (a / 2) / 256 ^ (a % 2))) ∧ t.csr = s.csr ∧ t.mem = s.mem) ∧
        (regionRunning s (o / 0x40000) = false → Runs (.loamWindowAccess tag i []) s fun t => PartAnswered s t tag i (.status 0) ∧
          Logs s t 0x070C ∧ t.loam = s.loam ∧ WordsKept s t [LOAM_RGN_ERR (o / 0x40000)]))) ∧
    (∀ p o v, p < 2 → o = lwinOffset s p → Reaches s (.host p) (HOSTIF_LWIN_DATA p) → regionRunning s (o / 0x40000) = true →
      Runs (.hostifLwinDataRead (.host p) p []) s (fun t => t.loam = s.loam ∧ t.core = s.core ∧ WordsKept s t [HOSTIF_LWIN_ADDR p] ∧
        t.out = .hostData p (some ((List.range 8).map fun k => BitVec.ofNat 8 (loamWord s ((o + k) / 2) / 256 ^ ((o + k) % 2)))) false
          :: s.out) ∧
      (ownerHost s = some p → Runs (.hostifLwinDataWrite (.host p) p v) s fun t =>
        (∀ k, k < 8 → BitVec.ofNat 8 (loamWord t ((o + k) / 2) / 256 ^ ((o + k) % 2)) = (v >>> (8 * k)).setWidth 8) ∧
        (∀ j, j < o / 2 ∨ o / 2 + 4 ≤ j → loamWord t j = loamWord s j) ∧ WordsKept s t [HOSTIF_LWIN_ADDR p] ∧ t.core = s.core) ∧
      (ownerHost s ≠ some p → exec (.hostifLwinDataWrite (.host p) p v) s = .next s)) ∧
    ∀ r p u e, r < 16 → p < portCount r → (u, e) = portCore r p → rxReady s r p = true →
      (∀ v, rxSlot s r p 0 = some 0 → rxData s r p = some v → e ≠ fabEdge u ∨ fabStream s u = none → (fabOf s u e).rx.length < 4 → Runs (.fabricRxWord r p) s fun t =>
        (fabOf t u e).rx = (fabOf s u e).rx ++ [v] ∧ t.csr = s.csr ∧ t.core = s.core ∧ t.mem = s.mem) ∧
      (∀ v link, rxSlot s r p 0 = some 0 → rxData s r p = some v → e = fabEdge u → fabStream s u = some link → tokensAt s u 5 link < 2 →
        (mget [] s.strm.fabIn u).length < 24 → Runs (.fabricRxWord r p) s fun t =>
          mget [] t.strm.fabIn u = mget [] s.strm.fabIn u ++ leBytes 8 v.toNat ∧ t.csr = s.csr ∧ t.core = s.core ∧ t.mem = s.mem) ∧
      (∀ v a, sieveHolds s (locKey (physUnit s u) (a % 2 ^ 13 * 8)) 8 = false → rxSlot s r p 0 = some 2 → rxSlot s r p 1 = some a → rxData s r p = some v →
        (bankDenied s u 9 (a % 2 ^ 13 * 8) 8 = none → Runs (.fabricRxScratchWrite r p) s fun t =>
          locBytes t (locKey (physUnit s u) (a % 2 ^ 13 * 8)) 8 = leBytes 8 v.toNat ∧ t.core = s.core ∧
          ∀ k, k < locKey (physUnit s u) (a % 2 ^ 13 * 8) ∨ locKey (physUnit s u) (a % 2 ^ 13 * 8) + 8 ≤ k →
            memByte t.mem.loc k = memByte s.mem.loc k) ∧
        (∀ y, bankDenied s u 9 (a % 2 ^ 13 * 8) 8 = some y → Runs (.fabricRxScratchWrite r p) s fun t =>
          Logs s t 0x0602 ∧ t.mem = s.mem ∧ t.core = s.core ∧ t.csr = s.csr)) ∧
      (∀ a, rxSlot s r p 0 = some 3 → rxSlot s r p 1 = some a → (fabOf s u e).tx.length < 4 → s.mem.locPoison = [] → s.mem.latent = [] →
        sieveHolds s (locKey (physUnit s u) (a % 2 ^ 13 * 8)) 8 = false →
        bankDenied s u 9 (a % 2 ^ 13 * 8) 8 = none → Runs (.fabricRxScratchRead r p) s fun t => t.mem.loc = s.mem.loc ∧
          t.core = s.core ∧ ∃ (m : State) (ks : List Nat) (l : List (FabTx × List (Nat × Nat))) (x : FabTx),
            x = .answer (BitVec.ofNat 64 (leNat (locBytes s (locKey (physUnit s u) (a % 2 ^ 13 * 8)) 8))) ∧
            (fabOf m u e).tx = l ++ [(x, txTokens x)] ∧ t = move ks m) ∧
      (∀ c, rxSlot s r p 0 = some c → c ≠ 0 → c ≠ 2 → c ≠ 3 → Runs (.fabricPortCode r p) s fun t =>
        LogsAs s t 0x070D (rgnSrc r) .notice (r * 64 + p) ∧ t.csr = s.csr ∧ t.core = s.core ∧ t.mem = s.mem)

/-- Pins and lanes take tokens in and send them out, count overruns and underruns, and lose and regain their clocks and locks
(15_loam.md R420, 15_loam.md R421, 15_loam.md R422, 15_loam.md R423, 15_loam.md R424, 15_loam.md R426, 15_loam.md R427,
15_loam.md R428, 15_loam.md R429, 15_loam.md R430). -/
def Obligations.LoamPinsAndLanes : Prop :=
  ∀ s : State,
    (∀ r i v, r < 16 → i < 24 → v < 65536 → bankLive s r = true →
      (pinMode s r i = 5 → Runs (.ioInputToken r i v) s fun t => mget false t.loam.sample (pinKey r i) = decide (v % 2 = 1) ∧
        t = { s with loam := { s.loam with sample := t.loam.sample } }) ∧
      (pinMode s r i = 1 ∨ pinMode s r i = 3 → pinClock s r i = true →
        ((mget [] s.loam.inFifo (pinKey r i)).length < 8 → Runs (.ioInputToken r i v) s fun t => t.csr = s.csr ∧ t.core = s.core ∧
          ∃ m ks, m = { s with loam := { s.loam with inFifo := mset [] s.loam.inFifo (pinKey r i) (mget [] s.loam.inFifo (pinKey r i) ++ [v]) } } ∧
            t = move ks m) ∧
        (8 ≤ (mget [] s.loam.inFifo (pinKey r i)).length → Runs (.ioInputToken r i v) s fun t => t.loam = s.loam ∧
          fld t (LOAM_BANK_CNT r) LOAM_BANK_CNT_OVERRUNS = satAdd 32 (fld s (LOAM_BANK_CNT r) LOAM_BANK_CNT_OVERRUNS) 1 ∧
          flag t (LOAM_BANK_STATUS r) LOAM_BANK_STATUS_OVR_VALID = true ∧ WordsKept s t [LOAM_BANK_CNT r, LOAM_BANK_STATUS r])) ∧
      (pinOutputs s r i = true → mget false s.loam.sending (pinKey r i) = false → ∀ w q, mget [] s.loam.outFifo (pinKey r i) = w :: q →
        (pinWord s r i / 8192 % 8 + 1 ≤ q.length + 1 → Runs (.ioOutputStart r i) s fun t => .pin r i w (pinDrives s r i) ∈ t.out ∧
          mget false t.loam.sending (pinKey r i) = true ∧ t.csr = s.csr ∧ t.core = s.core) ∧
        (q.length + 1 < pinWord s r i / 8192 % 8 + 1 → exec (.ioOutputStart r i) s = .next s)) ∧
      (pinOutputs s r i = true → mget false s.loam.sending (pinKey r i) = true →
        (∀ w q, mget [] s.loam.outFifo (pinKey r i) = w :: q → Runs (.ioOutputTokenEnd r i) s fun t => .pin r i w (pinDrives s r i) ∈ t.out ∧
          mget false t.loam.sending (pinKey r i) = true ∧ t.csr = s.csr) ∧
        (mget [] s.loam.outFifo (pinKey r i) = [] → Runs (.ioOutputTokenEnd r i) s fun t =>
          t.out = .pinIdle r i (pinWord s r i / 2 ^ 16 % 4) (pinDrives s r i) :: s.out ∧
          mget false t.loam.sending (pinKey r i) = false ∧ WordsKept s t [LOAM_BANK_CNT r, LOAM_BANK_STATUS r] ∧
          fld t (LOAM_BANK_CNT r) LOAM_BANK_CNT_UNDERRUNS = satAdd 32 (fld s (LOAM_BANK_CNT r) LOAM_BANK_CNT_UNDERRUNS) 1))) ∧
    (∀ r c, r < 16 → c < 2 →
      (flag s (LOAM_BANK_STATUS r) LOAM_BANK_STATUS_CAL_DONE = true → Runs (.ioDelaySwap r) s fun t =>
        mget false t.loam.line r = !mget false s.loam.line r ∧ mget 0 t.loam.swapAt r = paceTime t ∧ t.csr = s.csr ∧ t.core = s.core) ∧
      (flag s (LOAM_BANK_STATUS r) (clkField c) = true → Runs (.ioClockLost r c) s fun t =>
        flag t (LOAM_BANK_STATUS r) (clkField c) = false ∧ WordsKept s t [LOAM_BANK_STATUS r] ∧ t = { s with csr := t.csr, log := t.log } ∧
        (clockUsed s r c = true → mget false s.loam.driven r = true → Logs s t 0x0709) ∧
        (mget false s.loam.driven r = false → t.log = s.log)) ∧
      Runs (.ioClockReturn r c) s fun t => flag t (LOAM_BANK_STATUS r) (clkField c) = true ∧ WordsKept s t [LOAM_BANK_STATUS r] ∧
        t.core = s.core ∧ t.mem = s.mem) ∧
    ∀ l, l < 16 →
      (laneOn s l = true →
        (∀ c d, c < 65536 → fld s (FL_CFG l) FL_CFG_PCS = 0 → flag s (FL_STATUS l) FL_STATUS_CDR_LOCK = true →
          ((mget [] s.loam.laneRx l).length < 8 → Runs (.laneRxTransfer l c d) s fun t => t.core = s.core ∧ ∃ (m : State) (ks : List Nat),
            mget [] m.loam.laneRx l = mget [] s.loam.laneRx l ++ [(0, 0) :: (List.range 4).map fun i =>
              (i + 1, bitsOf (if flag s (FL_CFG l) FL_CFG_RX_POL then ~~~d else d) (16 * i) 16)] ∧
            t = move ks m) ∧
          (8 ≤ (mget [] s.loam.laneRx l).length → Runs (.laneRxTransfer l c d) s fun t =>
            flag t (FL_STATUS l) FL_STATUS_OVERRUN = true ∧ t.loam = s.loam ∧ WordsKept s t [FL_STATUS l, FL_ERRCNT l])) ∧
        (flag s (FL_PRBS l) FL_PRBS_GEN_EN = false →
          (mget [] s.loam.laneTx l = [] → fld s (FL_CFG l) FL_CFG_PCS = 0 → Runs (.laneTxUnderrun l) s fun t =>
            flag t (FL_STATUS l) FL_STATUS_UNDERRUN = true ∧ WordsKept s t [FL_STATUS l] ∧
            t.out = .lane l 0 (rget s (FL_IDLE l)) (mget false s.loam.inject l) (flag s (FL_CFG l) FL_CFG_TX_POL) :: s.out ∧ mget false t.loam.inject l = false) ∧
          (∀ c d q, mget [] s.loam.laneTx l = (c, d) :: q → laneFenced s l = false → Runs (.laneTxTransfer l) s fun t =>
            .lane l c d (mget false s.loam.inject l) (flag s (FL_CFG l) FL_CFG_TX_POL) ∈ t.out ∧ mget false t.loam.inject l = false ∧ t.csr = s.csr ∧ t.core = s.core)) ∧
        (flag s (FL_PRBS l) FL_PRBS_GEN_EN = true → ∀ a b h w, prbsTaps (fld s (FL_PRBS l) FL_PRBS_POLY) = (a, b) →
          h = mget 0 s.loam.lfsr l → h % 2 ^ a ≠ 0 → w = packW ((prbsBits a b 64 h).zipIdx.map fun e => (e.1, e.2)) →
          Runs (.laneTxTransfer l) s fun t => mget false t.loam.inject l = false ∧ t.csr = s.csr ∧ t.core = s.core ∧
            t.out = .prbs l (if flag s (FL_PRBS l) FL_PRBS_INVERT then ~~~w else w) (mget false s.loam.inject l)
              (flag s (FL_CFG l) FL_CFG_TX_POL) :: s.out) ∧
        (∀ w, Runs (.laneAdaptDone l w) s fun t => mget 0 t.loam.presets l = w ∧ flag t (FL_STATUS l) FL_STATUS_ADAPT_DONE = true ∧
          WordsKept s t [FL_STATUS l] ∧ t = { s with csr := t.csr, loam := { s.loam with presets := t.loam.presets } }) ∧
        (Runs (.laneBlockLockGained l) s fun t => flag t (FL_STATUS l) FL_STATUS_CDR_LOCK = true ∧
          flag t (FL_STATUS l) FL_STATUS_BLOCK_LOCK = decide (fld s (FL_CFG l) FL_CFG_PCS = 1 ∨ fld s (FL_CFG l) FL_CFG_PCS = 2) ∧ WordsKept s t [FL_STATUS l] ∧ t = { s with csr := t.csr }) ∧
        (fld s (FL_PRBS l) FL_PRBS_INJ_PERIOD ≠ 0 → Runs (.periodicInjection l) s fun t => mget false t.loam.inject l = true ∧
          t = { s with loam := { s.loam with inject := t.loam.inject } })) ∧
      (flag s (FL_STATUS l) FL_STATUS_BLOCK_LOCK = true → Runs (.laneLockLost l false) s fun t =>
        flag t (FL_STATUS l) FL_STATUS_BLOCK_LOCK = false ∧ flag t (FL_STATUS l) FL_STATUS_LOCK_LOST = true ∧
        fld t (FL_STATUS l) FL_STATUS_CDR_LOCK = fld s (FL_STATUS l) FL_STATUS_CDR_LOCK ∧ Logs s t 0x070B ∧
        WordsKept s t [FL_STATUS l] ∧ t = { s with csr := t.csr, log := t.log }) ∧
      (flag s (FL_STATUS l) FL_STATUS_CDR_LOCK = true → Runs (.laneLockLost l true) s fun t =>
        flag t (FL_STATUS l) FL_STATUS_BLOCK_LOCK = false ∧ flag t (FL_STATUS l) FL_STATUS_LOCK_LOST = true ∧
        flag t (FL_STATUS l) FL_STATUS_CDR_LOCK = false ∧ Logs s t 0x070B ∧
        WordsKept s t [FL_STATUS l] ∧ t = { s with csr := t.csr, log := t.log }) ∧
      (∀ lock errs, flag s (FL_PRBS l) FL_PRBS_CHK_EN = true → Runs (.prbsLockChange l lock errs) s fun t =>
        flag t (FL_STATUS l) FL_STATUS_PRBS_LOCK = (lock || flag s (FL_STATUS l) FL_STATUS_PRBS_LOCK && decide (errs < 32)) ∧ WordsKept s t [FL_STATUS l, FL_ERRCNT l] ∧ t = { s with csr := t.csr } ∧
        (flag s (FL_STATUS l) FL_STATUS_PRBS_LOCK = true → fld t (FL_ERRCNT l) FL_ERRCNT_PRBS_ERRORS =
          satAdd 32 (fld s (FL_ERRCNT l) FL_ERRCNT_PRBS_ERRORS) errs)) ∧
      CoresFault s (FL_PRBS l) (fun m => .inject m l) ∧
      ∀ m, masterOk m = true → Reaches s m (FL_PRBS l) →
        (mayAdmin s m = true → Runs (.inject m l) s fun t => mget false t.loam.inject l = true ∧
          t = { s with loam := { s.loam with inject := t.loam.inject } }) ∧
        (mayAdmin s m = false → exec (.inject m l) s = .next s)

/-- The loader's commands, its checks, commit, release, deadline and forwarding take it through the states of R442
(16_loading.md R433, 16_loading.md R434, 16_loading.md R435, 16_loading.md R442, 16_loading.md R443, 16_loading.md R445,
16_loading.md R446, 16_loading.md R448, 16_loading.md R449, 16_loading.md R452, 16_loading.md R456, 16_loading.md R457). -/
def Obligations.LoaderCommandsAndStates : Prop :=
  ∀ s : State, epochOn s = false →
    (∀ i ∈ ([.loadVerify, .loadStart, .loadUnload, .loadCommit, .loadAbort] : List (Master → Instr)), CoresFault s LOAD_CTRL i) ∧
    (∀ k, k < 64 → CoresFault s LOAD_CTRL fun m => .loadForward m k) ∧
    (∀ m, masterOk m = true → Reaches s m LOAD_CTRL → mayLoad s m = true →
      (loadFree s = true →
        Runs (.loadVerify m) s (fun t => loadState t = 1 ∧ fld t LOAD_STATUS LOAD_STATUS_CODE = 0 ∧ t.load.started = false ∧
          fld t LOAD_STATUS LOAD_STATUS_REQUESTER = srcOfMaster m % 65536 ∧ WordsKept s t [LOAD_STATUS, LOAD_FAIL] ∧
          t = { s with csr := t.csr, load := t.load }) ∧
        Runs (.loadStart m) s (fun t => loadState t = 1 ∧ t.load.started = true ∧ WordsKept s t [LOAD_STATUS, LOAD_FAIL] ∧
          t = { s with csr := t.csr, load := t.load }) ∧
        Runs (.loadUnload m) s (fun t => loadState t = 0 ∧ flag t GLB_STATUS GLB_STATUS_CFG_DONE = false ∧
          (∀ p, p < 64 → plotValid t p = false) ∧ (∀ r, r < 16 → fld t (LOAM_RGN_STATUS r) LOAM_RGN_STATUS_STATE = 0) ∧
          (∀ k, k < 16 * 131072 → loamWord t k = 0) ∧ t.load.deadline = some (paceTime s)) ∧
        ∀ k, k < 64 →
          ((routePort s (forwardTo s k)).isSome = true → Runs (.loadForward m k) s fun t => loadState t = 8 ∧
            fld t LOAD_FWD LOAD_FWD_MODULE = k ∧ t.out = .forward k (imgRun s 0 (imgLen s)) :: s.out ∧ t.mem = s.mem) ∧
          (routePort s (forwardTo s k) = none → Runs (.loadForward m k) s fun t => loadState t = 7 ∧
            fld t LOAD_STATUS LOAD_STATUS_CODE = 0x0712 ∧ t.out = s.out)) ∧
      (loadFree s = false → ∀ i ∈ [.loadVerify m, .loadStart m, .loadUnload m], Runs i s fun t =>
        loadState t = loadState s ∧ fld t LOAD_STATUS LOAD_STATUS_CODE = 0x0710 ∧ WordsKept s t [LOAD_STATUS] ∧
        t = { s with csr := t.csr }) ∧
      (loadState s = 2 → (rget s LOAD_AT = 0 → kindAllowed s = true → imgKind s ≠ 1 → Runs (.loadCommit m) s fun t =>
          loadState t = 4 ∧ t.load.written = false ∧ WordsKept s t [LOAD_STATUS] ∧ t = { s with csr := t.csr, load := t.load }) ∧
        (fld s PACE_SLOT PACE_SLOT_SLOT < (rget s LOAD_AT).toNat → Runs (.loadCommit m) s fun t => loadState t = 3 ∧
          WordsKept s t [LOAD_STATUS] ∧ t = { s with csr := t.csr })) ∧
      (loadState s ≠ 2 → Runs (.loadCommit m) s fun t => loadState t = loadState s ∧
        fld t LOAD_STATUS LOAD_STATUS_CODE = 0x0710 ∧ WordsKept s t [LOAD_STATUS]) ∧
      (loadState s ∈ [1, 2, 3, 6, 7] → Runs (.loadAbort m) s fun t => loadState t = 0 ∧ WordsKept s t [LOAD_STATUS] ∧
        t = { s with csr := t.csr }) ∧
      (loadState s ∉ [1, 2, 3, 6, 7] → Runs (.loadAbort m) s fun t => loadState t = loadState s ∧
        fld t LOAD_STATUS LOAD_STATUS_CODE = 0x0710 ∧ WordsKept s t [LOAD_STATUS])) ∧
    (∀ m, masterOk m = true → Reaches s m LOAD_CTRL → mayLoad s m = false → ∀ i ∈ [.loadVerify m, .loadStart m, .loadUnload m, .loadCommit m, .loadAbort m],
      exec i s = .next s) ∧
    (∀ u : State, u = setFld (setFld s LOAD_STATUS LOAD_STATUS_KIND (imgKind s)) LOAD_STATUS LOAD_STATUS_REGION
        (if imgKind s = 1 then (imgRegions s).headD 0 else 0) → loadState s = 1 →
      (imageFailure u = none → s.load.started = false → Runs .verifyComplete s fun t => loadState t = 2 ∧
        t.load.heldFrom = paceTime s ∧ fld t LOAD_STATUS LOAD_STATUS_KIND = imgKind s % 4 ∧ WordsKept s t [LOAD_STATUS]) ∧
      ∀ off code frame, imageFailure u = some (off, code, frame) → Runs .verifyComplete s fun t => loadState t = 7 ∧
        fld t LOAD_STATUS LOAD_STATUS_CODE = code % 65536 ∧ fld t LOAD_FAIL LOAD_FAIL_OFFSET = off % 2 ^ 32 ∧
        fld t LOAD_FAIL LOAD_FAIL_FRAME = frame % 2 ^ 32 ∧ Logs s t code ∧ t.mem = s.mem ∧ t.loam = s.loam) ∧
    (loadState s = 2 ∨ loadState s = 3 → Runs .loadHoldExpired s fun t => loadState t = 7 ∧
      fld t LOAD_STATUS LOAD_STATUS_CODE = 0x0715 ∧ Logs s t 0x0715 ∧ t.mem = s.mem ∧
      s.load.heldFrom + max 1 (fld s LOAD_CFG LOAD_CFG_HOLD_S) * sec10 ≤ paceTime t) ∧
    (loadState s = 3 → ((rget s LOAD_AT).toNat ≤ fld s PACE_SLOT PACE_SLOT_SLOT → kindAllowed s = true → imgKind s = 0 →
        Runs .commitAtSlot s fun t => loadState t = 4 ∧ WordsKept s t [LOAD_STATUS] ∧ t.mem = s.mem) ∧
      (fld s PACE_SLOT PACE_SLOT_SLOT < (rget s LOAD_AT).toNat → exec .commitAtSlot s = .next s)) ∧
    (loadState s = 4 → s.load.written = false → imgKind s ≠ 2 →
      (imgPoison s = none → Runs .commitPoint s fun t => loadState t = 4 ∧ t.load.written = true ∧ t.load.imageId = imgId s) ∧
      ∀ q, imgPoison s = some q → Runs .commitPoint s fun t => loadState t = 7 ∧ fld t LOAD_STATUS LOAD_STATUS_CODE = 0x0714) ∧
    (loadState s = 4 → s.load.written = true → (imgBanks s).all (fun b => decide (mget 3 s.loam.vccio b ≠ 3)) = true →
      Runs .releaseStart s fun t => loadState t = 5 ∧ t.load.relStep = 2 ∧ t.load.relAt = paceTime s + relInterval s ∧
        t.core = s.core ∧ t.mem = s.mem) ∧
    (loadState s = 5 →
      (s.load.relStep = 2 → Runs .releaseStep s fun t => t.load.relStep = 3 ∧ t.load.relAt = s.load.relAt + s.load.relGap ∧
        s.load.relAt ≤ paceTime t ∧ t.csr = s.csr ∧ t.loam = s.loam) ∧
      (s.load.relStep = 3 → imgKind s = 1 → Runs .releaseStep s fun t => loadState t = 6 ∧ rget t LOAD_LAST = s.load.imageId ∧
        (∀ r ∈ imgRegions s, regionRunning t r = true)) ∧
      (s.load.relStep = 4 → imgKind s = 0 → Runs .releaseStep s fun t => loadState t = 6 ∧
        flag t GLB_STATUS GLB_STATUS_CFG_DONE = true ∧ rget t LOAD_LAST = s.load.imageId)) ∧
    (∀ a, s.load.deadline = some a → fld s LOAD_DEADLINE LOAD_DEADLINE_SECONDS ≠ 0 →
      flag s LOAD_DEADLINE LOAD_DEADLINE_EXPIRED = false → flag s LOAD_DEADLINE LOAD_DEADLINE_FULL_DONE = false →
      Runs .loadDeadline s fun t => flag t LOAD_DEADLINE LOAD_DEADLINE_EXPIRED = true ∧ flag t GLB_STATUS GLB_STATUS_CFG_ERR = true ∧
        Logs s t 0x0703 ∧ WordsKept s t [LOAD_DEADLINE, GLB_STATUS] ∧
        a + fld s LOAD_DEADLINE LOAD_DEADLINE_SECONDS * sec10 ≤ paceTime t) ∧
    (∀ v, v < 4096 → CoresFault s LOAD_DEADLINE fun m => .loadDeadlineWrite m v) ∧
    (∀ m v, masterOk m = true → v < 4096 → Reaches s m LOAD_DEADLINE → mayAdmin s m = true → Runs (.loadDeadlineWrite m v) s fun t =>
      fld t LOAD_DEADLINE LOAD_DEADLINE_SECONDS = v ∧ WordsKept s t [LOAD_DEADLINE, GLB_STATUS] ∧ t.load = s.load) ∧
    (loadState s = 8 →
      (∀ st code, st < 9 → code < 65536 → Runs (.forwardResult st code) s fun t =>
        fld t LOAD_FWD LOAD_FWD_STATE = st ∧ fld t LOAD_FWD LOAD_FWD_CODE = code ∧
        loadState t = (if st = 7 ∨ code = 0x0710 then 7 else if st = 6 then 6 else 8) ∧ WordsKept s t [LOAD_FWD, LOAD_STATUS] ∧
        t = { s with csr := t.csr }) ∧
      Runs .loadForwardFail s fun t => loadState t = 7 ∧ fld t LOAD_STATUS LOAD_STATUS_CODE = 0x0712 ∧ Logs s t 0x0712 ∧
        WordsKept s t [LOAD_STATUS]) ∧
    ∀ p x o (d : List Byte), p < 2 → mget false s.host.d3 p = false → 0 < d.length → x + d.length ≤ 2 ^ 25 → flag s LMC_STATUS LMC_STATUS_INIT_DONE = true →
      o = fld s LOAD_WIN LOAD_WIN_OFFSET * 2 ^ 25 + x →
      (o + d.length ≤ stageBytes s → Runs (.loadWindowWrite p x d) s fun t => t.mem = (dramWriteAll (stageBase s + o) d s).mem ∧
        (∀ a, a < stageBase s + o ∨ stageBase s + o + d.length ≤ a → memByte t.mem.dram a = memByte s.mem.dram a) ∧ t.csr = s.csr) ∧
      (stageBytes s < o + d.length → Runs (.loadWindowWrite p x d) s fun t => LogsAs s t 0x0713 0x21 .notice 0 ∧
        t = { s with log := t.log })

/-- Ports reset, link up and down, are configured and send MSI-X; ownership is claimed, handed over, released and lost
(17_host_interface.md R464, 17_host_interface.md R466, 17_host_interface.md R468, 17_host_interface.md R474,
17_host_interface.md R475, 17_host_interface.md R476, 17_host_interface.md R477, 17_host_interface.md R478, 22_module.md
R584). -/
def Obligations.HostPortsAndOwnership : Prop :=
  ∀ (s : State) (p : Nat), p < 2 →
    (∀ flr, Runs (.perstAssert p flr) s fun t =>
      (∀ r ∈ t.core.reqs, ∀ q ∈ r.parts, selOf q.addr = 8 + p → 0 < q.n → q.ans.isSome = true) ∧
      (∀ o, portReg p o = true → domainAt o = some .port → o ≠ HOSTIF_PORT_STATUS p → rget t o = resetWord o) ∧
      (∀ v, v < 2048 → mget false t.host.unmasked (p * 2048 + v) = false ∧ mget false t.host.pba (p * 2048 + v) = false) ∧
      (ownerCode s = 1 + p → ownerCode t = standbyCode s ∧ standbyCode t = 0) ∧
      (ownerCode s ≠ 1 + p → ownerCode t = ownerCode s) ∧
      (if flr then bitsOf (rget t (HOSTIF_PORT_STATUS p)) 0 9 = bitsOf (rget s (HOSTIF_PORT_STATUS p)) 0 9
       else mget false t.host.inReset p = true ∧ flag t (HOSTIF_PORT_STATUS p) HOSTIF_PORT_STATUS_LINK_UP = false)) ∧
    (Runs (.perstDeassert p) s fun t => mget false t.host.inReset p = false ∧
      t = { s with host := { s.host with inReset := t.host.inReset } }) ∧
    (mget false s.host.inReset p = false → s.mc.held = false →
      Runs (.portCfgReady p) s (fun t => flag t (HOSTIF_PORT_STATUS p) HOSTIF_PORT_STATUS_CFG_READY = true ∧
        WordsKept s t [HOSTIF_PORT_STATUS p] ∧ t = { s with csr := t.csr }) ∧
      ∀ speed width, 1 ≤ speed → speed ≤ 5 → width ∈ [1, 2, 4, 8, 16] → Runs (.hostLinkUp p speed width) s fun t =>
        flag t (HOSTIF_PORT_STATUS p) HOSTIF_PORT_STATUS_LINK_UP = true ∧
        fld t (HOSTIF_PORT_STATUS p) HOSTIF_PORT_STATUS_SPEED = speed ∧ fld t (HOSTIF_PORT_STATUS p) HOSTIF_PORT_STATUS_WIDTH = width ∧
        WordsKept s t [HOSTIF_PORT_STATUS p] ∧ t = { s with csr := t.csr }) ∧
    (flag s (HOSTIF_PORT_STATUS p) HOSTIF_PORT_STATUS_LINK_UP = true → Runs (.hostLinkDown p) s fun t =>
      flag t (HOSTIF_PORT_STATUS p) HOSTIF_PORT_STATUS_LINK_UP = false ∧ t.mem = s.mem ∧
      fld t (HOSTIF_PORT_CNT p) HOSTIF_PORT_CNT_LINK_DOWNS = satAdd 16 (fld s (HOSTIF_PORT_CNT p) HOSTIF_PORT_CNT_LINK_DOWNS) 1 ∧
      (ownerCode s = 1 + p → standbyCode s ≠ 1 + p → ownerCode t = standbyCode s ∧ standbyCode t = 0 ∧
        fld t HOSTIF_OWNER HOSTIF_OWNER_LAST_CAUSE = 4) ∧ (ownerCode s ≠ 1 + p → ownerCode t = ownerCode s)) ∧
    (flag s (HOSTIF_PORT_STATUS p) HOSTIF_PORT_STATUS_CFG_READY = false →
      (∀ c, Runs (.hostConfigWrite p (.read c)) s fun t => t = { s with out := .cfgData p none :: s.out }) ∧
      ∀ on, ∀ w ∈ ([.bme on, .msixEn on, .funcMask on, .ats on, .pri on, .power on] : List HostCfg), exec (.hostConfigWrite p w) s = .next s) ∧
    (∀ x n b, hostCfgOk (.bar2Read x n b) = true → x + n ≤ 0x500000 → mget false s.host.d3 p = false →
      Runs (.hostConfigWrite p (.bar2Read x n b)) s fun t => t = { s with out := .hostData p (some (List.replicate n 0)) false :: s.out }) ∧
    (∀ v a d mask, v < 2048 → mget false s.host.d3 p = false → mget false s.host.pba (p * 2048 + v) = false →
      Runs (.hostConfigWrite p (.vector v a d mask)) s fun t =>
        mget 0 t.host.msixAddr (p * 2048 + v) = a ∧ mget 0 t.host.msixData (p * 2048 + v) = d ∧
        mget false t.host.unmasked (p * 2048 + v) = !mask ∧ t = { s with host := t.host }) ∧
    (flag s (HOSTIF_PORT_STATUS p) HOSTIF_PORT_STATUS_CFG_READY = true →
      (∀ c, Runs (.hostConfigWrite p (.read c)) s fun t => t = { s with out := .cfgData p (some (cfgView s p c)) :: s.out }) ∧
      cfgView s p .vendorId = 0x1FB3 ∧ cfgView s p .deviceId = 0xB200 ∧ cfgView s p .revisionId = 0xB0 ∧ cfgView s p .classCode = 0x120000 ∧
      (∀ on, Runs (.hostConfigWrite p (.power on)) s fun t => mget false t.host.d3 p = on ∧ t = { s with host := { s.host with d3 := t.host.d3 } }) ∧
      Runs (.hostConfigWrite p (.bme true)) s (fun t => flag t (HOSTIF_PORT_STATUS p) HOSTIF_PORT_STATUS_BME = true ∧
        WordsKept s t [HOSTIF_PORT_STATUS p] ∧ t = { s with csr := t.csr }) ∧
      (∀ on, Runs (.hostConfigWrite p (.ats on)) s (fun t => flag t (HOSTIF_PORT_STATUS p) HOSTIF_PORT_STATUS_ATS_EN = on ∧
          WordsKept s t [HOSTIF_PORT_STATUS p] ∧ t = { s with csr := t.csr }) ∧
        Runs (.hostConfigWrite p (.pri on)) s fun t => flag t (HOSTIF_PORT_STATUS p) HOSTIF_PORT_STATUS_PRI_EN = on ∧
          mget false t.host.prqStop p = false ∧ WordsKept s t [HOSTIF_PORT_STATUS p] ∧ t.core = s.core) ∧
      (∀ k, 30 ≤ k → k ≤ 40 → Runs (.hostConfigWrite p (.bar4 k)) s fun t => mget 30 t.host.bar4 p = k ∧
        t = { s with host := { s.host with bar4 := t.host.bar4 } }) ∧
      Runs (.hostConfigWrite p (.funcMask true)) s (fun t => mget false t.host.funcMask p = true ∧ t.csr = s.csr ∧ t.out = s.out)) ∧
    (mget false s.host.d3 p = true → ∀ i ∈ [.claim p, .standby p, .withdraw p, .release p, .handOver p, .ownerBeat p], exec i s = .next s) ∧
    (∀ v, v < 2048 → mget false s.host.d3 p = false → mget false s.host.pba (p * 2048 + v) = true → mget false s.host.funcMask p = false →
      flag s (HOSTIF_PORT_STATUS p) HOSTIF_PORT_STATUS_MSIX_EN = true → hostReach s p = true → Runs (.msixUnmask p (some v)) s fun t =>
        t.out = .msix p v (mget 0 s.host.msixAddr (p * 2048 + v)) (mget 0 s.host.msixData (p * 2048 + v)) :: s.out ∧
        mget false t.host.pba (p * 2048 + v) = false ∧ mget false t.host.unmasked (p * 2048 + v) = true ∧ t.csr = s.csr) ∧
    (mget false s.host.d3 p = false → ownerCode s = 0 → Runs (.claim p) s fun t => ownerCode t = 1 + p ∧
      standbyCode t = (if standbyCode s = 1 + p then 0 else standbyCode s) ∧
      fld t (HOSTIF_PORT_STATUS p) HOSTIF_PORT_STATUS_LAST_STATUS = 0 ∧ fld t HOSTIF_OWNER HOSTIF_OWNER_LAST_CAUSE = 1 ∧
      fld t HOSTIF_OWNER HOSTIF_OWNER_GEN = (fld s HOSTIF_OWNER HOSTIF_OWNER_GEN + 1) % 65536 ∧ (∃ e ∈ t.log.inFlight, e.code = 0x0801) ∧
      t.host.beatAt = paceTime s ∧ t.mem = s.mem ∧ t.core = s.core) ∧
    (mget false s.host.d3 p = false → ownerCode s ≠ 1 + p → standbyCode s = 0 ∨ standbyCode s = 1 + p → Runs (.standby p) s fun t => standbyCode t = 1 + p ∧ ownerCode t = ownerCode s ∧
      fld t (HOSTIF_PORT_STATUS p) HOSTIF_PORT_STATUS_LAST_STATUS = 0 ∧ WordsKept s t [HOSTIF_OWNER, HOSTIF_PORT_STATUS p] ∧
      t = { s with csr := t.csr }) ∧
    (mget false s.host.d3 p = false → standbyCode s = 1 + p → Runs (.withdraw p) s fun t => standbyCode t = 0 ∧ ownerCode t = ownerCode s ∧
      fld t (HOSTIF_PORT_STATUS p) HOSTIF_PORT_STATUS_LAST_STATUS = 0 ∧ WordsKept s t [HOSTIF_OWNER, HOSTIF_PORT_STATUS p] ∧
      t = { s with csr := t.csr }) ∧
    (mget false s.host.d3 p = false → ownerCode s = 1 + p → standbyCode s ≠ 1 + p → Runs (.release p) s fun t => ownerCode t = standbyCode s ∧ standbyCode t = 0 ∧
      fld t (HOSTIF_PORT_STATUS p) HOSTIF_PORT_STATUS_LAST_STATUS = 0 ∧ fld t HOSTIF_OWNER HOSTIF_OWNER_LAST_CAUSE = 2 ∧ t.mem = s.mem) ∧
    (mget false s.host.d3 p = false → ownerCode s = 1 + p → standbyCode s = 2 - p → Runs (.handOver p) s fun t => ownerCode t = 2 - p ∧ standbyCode t = 1 + p ∧
      fld t (HOSTIF_PORT_STATUS p) HOSTIF_PORT_STATUS_LAST_STATUS = 0 ∧ fld t HOSTIF_OWNER HOSTIF_OWNER_LAST_CAUSE = 3 ∧ t.mem = s.mem) ∧
    (mget false s.host.d3 p = false → ∀ e ∈ [(.claim p, ownerCode s ≠ 0), (.standby p, ownerCode s = 1 + p ∨ standbyCode s ∉ [0, 1 + p]), (.withdraw p, standbyCode s ≠ 1 + p),
        (.release p, ownerCode s ≠ 1 + p), (.handOver p, ownerCode s ≠ 1 + p ∨ standbyCode s ≠ 2 - p)], e.2 → Runs e.1 s fun t =>
      fld t (HOSTIF_PORT_STATUS p) HOSTIF_PORT_STATUS_LAST_STATUS = 0x0805 ∧ WordsKept s t [HOSTIF_PORT_STATUS p] ∧
      t = { s with csr := t.csr }) ∧
    (mget false s.host.d3 p = false → ownerHost s = some p → Runs (.ownerBeat p) s fun t => t = { s with host := { s.host with beatAt := paceTime s } }) ∧
    (fld s HOSTIF_HB HOSTIF_HB_TIMEOUT_MS ≠ 0 → ownerCode s = 1 + p → standbyCode s ≠ 1 + p →
      s.host.beatAt + fld s HOSTIF_HB HOSTIF_HB_TIMEOUT_MS * 10000000 ≤ paceTime s → Runs .heartbeatLapse s fun t =>
        ownerCode t = standbyCode s ∧ standbyCode t = 0 ∧ fld t HOSTIF_OWNER HOSTIF_OWNER_LAST_CAUSE = 6 ∧ t.mem = s.mem)

/-- Cyust ports are enabled, trained, identified, lose lock and go down, spare lanes, idle and loop back (18_cyust.md R490,
18_cyust.md R491, 18_cyust.md R492, 18_cyust.md R494, 18_cyust.md R495, 18_cyust.md R496, 18_cyust.md R501, 18_cyust.md
R506). -/
def Obligations.CyustPortStates : Prop :=
  ∀ (s : State) (p : Nat), p < 8 →
    (∀ on v, v < 4 → CoresFault s (CYUST_PORT_CTRL p) (fun m => .cyustPortEnable m p on) ∧
      CoresFault s (CYUST_PORT_CTRL p) (fun m => .retrain m p) ∧ CoresFault s (CYUST_PORT_CTRL p) fun m => .cyustLoopWrite m p v) ∧
    (∀ m, masterOk m = true → Reaches s m (CYUST_PORT_CTRL p) →
      (mayAdmin s m = true → flag s (CYUST_PORT_CTRL p) CYUST_PORT_CTRL_EN = false → Runs (.cyustPortEnable m p true) s fun t =>
        portState t p = 1 ∧ flag t (CYUST_PORT_CTRL p) CYUST_PORT_CTRL_EN = true ∧
        WordsKept s t [CYUST_PORT_CTRL p, CYUST_PORT_STATUS p, SHADOW_GEN] ∧ t = { s with csr := t.csr }) ∧
      (mayAdmin s m = true → flag s (CYUST_PORT_CTRL p) CYUST_PORT_CTRL_EN = true →
        Runs (.cyustPortEnable m p false) s (fun t => portState t p = 0 ∧ flag t (CYUST_PORT_CTRL p) CYUST_PORT_CTRL_EN = false ∧
          flag t (CYUST_PORT_STATUS p) CYUST_PORT_STATUS_NBR_VALID = false ∧ t.mem = s.mem) ∧
        Runs (.retrain m p) s fun t => portState t p = 1 ∧ flag t (CYUST_PORT_CTRL p) CYUST_PORT_CTRL_EN = true ∧ t.mem = s.mem) ∧
      (mayAdmin s m = false → ∀ on v, v < 4 → exec (.cyustPortEnable m p on) s = .next s ∧ exec (.retrain m p) s = .next s ∧
        exec (.cyustLoopWrite m p v) s = .next s) ∧
      (mayAdmin s m = true →
        (∀ v, 1 ≤ v → v < 4 → portState s p = 1 → Runs (.cyustLoopWrite m p v) s fun t => portState t p = 5 ∧
          fld t (CYUST_PORT_CTRL p) CYUST_PORT_CTRL_LOOP = v ∧ t.out = .link p .test :: (if v = 3 then .link p .farLoop :: s.out else s.out) ∧
          WordsKept s t [CYUST_PORT_CTRL p, CYUST_PORT_STATUS p, SHADOW_GEN]) ∧
        (portState s p = 5 → Runs (.cyustLoopWrite m p 0) s fun t => portState t p = 1 ∧
          fld t (CYUST_PORT_CTRL p) CYUST_PORT_CTRL_LOOP = 0 ∧ mget false t.link.echo p = false ∧ t.out = s.out))) ∧
    (portState s p = 1 → flag s (CYUST_PORT_CTRL p) CYUST_PORT_CTRL_EN = true → Runs (.cyustTrainingAttempt p) s fun t =>
      portState t p = 2 ∧ mget false t.link.idSeen p = false ∧ mget 0 s.link.tryAt p ≤ paceTime t ∧ WordsKept s t [CYUST_PORT_STATUS p, SHADOW_GEN] ∧
      flag t (CYUST_PORT_STATUS p) CYUST_PORT_STATUS_PRESET_STORED =
        (decide (mget 0 s.link.presets p ≠ 0) && !flag s (CYUST_PORT_CTRL p) CYUST_PORT_CTRL_USE_DEFAULTS)) ∧
    (∀ i far, i < 512 → far < 8 → portState s p = 2 → Runs (.cyustIdBlock p i far) s fun t =>
      fld t (CYUST_PORT_STATUS p) CYUST_PORT_STATUS_NBR_MODULE = i % 64 ∧ fld t (CYUST_PORT_STATUS p) CYUST_PORT_STATUS_NBR_GROUP = i / 64 ∧
      fld t (CYUST_PORT_STATUS p) CYUST_PORT_STATUS_NBR_PORT = far ∧ mget false t.link.idSeen p = true ∧ portState t p = 2 ∧
      flag t (CYUST_PORT_STATUS p) CYUST_PORT_STATUS_MISWIRED = (!nbrValid s p i far) ∧
      (nbrValid s p i far = false → Logs s t 0x0904) ∧ (nbrValid s p i far = true → t.log = s.log) ∧
      WordsKept s t [CYUST_PORT_STATUS p, SHADOW_GEN]) ∧
    (∀ i far, i < 512 → far < 8 → portUp s p = true → nbrValid s p i far = false → Runs (.cyustIdBlock p i far) s fun t =>
      portState t p = 1 ∧ flag t (CYUST_PORT_STATUS p) CYUST_PORT_STATUS_MISWIRED = true ∧
      flag t (CYUST_PORT_STATUS p) CYUST_PORT_STATUS_NBR_VALID = false ∧ (∃ e ∈ t.log.inFlight, e.code = 0x0904) ∧ t.mem = s.mem) ∧
    (∀ delay bad, delay < 65536 → bad.all (· < 9) = true → portState s p = 2 →
      (bad.length ≤ 1 → mget false s.link.lock p = true → mget false s.link.idSeen p = true →
        nbrValid s p (fld s (CYUST_PORT_STATUS p) CYUST_PORT_STATUS_NBR_GROUP * 64 + fld s (CYUST_PORT_STATUS p) CYUST_PORT_STATUS_NBR_MODULE)
          (fld s (CYUST_PORT_STATUS p) CYUST_PORT_STATUS_NBR_PORT) = true → Runs (.cyustTrainingDone p delay true bad) s fun t =>
          portState t p = 3 ∧ flag t (CYUST_PORT_STATUS p) CYUST_PORT_STATUS_NBR_VALID = true ∧ mget 0 t.link.fails p = 0 ∧
          fld t (CYUST_PORT_DELAY p) CYUST_PORT_DELAY_DELAY = delay ∧ t.mem = s.mem ∧
          ∀ l, l < 9 → fld t (CYUST_LANE p l) CYUST_LANE_STATE = if bad = [l] then 3 else if l = 8 ∧ bad = [] then 1 else 0) ∧
      Runs (.cyustTrainingDone p delay false bad) s fun t => portState t p = 1 ∧ t.mem = s.mem ∧
        (mget 0 s.link.fails p = 2 → mget 0 t.link.fails p = 0 ∧ ∃ e ∈ t.log.inFlight, e.code = 0x0905) ∧
        (mget 0 s.link.fails p ≠ 2 → mget 0 t.link.fails p = mget 0 s.link.fails p + 1)) ∧
    (∀ heads marks, headsOk heads = true → 64 ≤ heads.length → (lastOf 64 heads).all headValid = true → deskewed marks = true →
      Runs (.blockLockAcquired p heads marks) s fun t => mget false t.link.lock p = true ∧ mget 0 t.link.lostAt p = 0 ∧
      t = { s with link := { s.link with lock := t.link.lock, lostAt := t.link.lostAt } }) ∧
    (∀ heads marks, headsOk heads = true → heads.length < 64 ∨ (lastOf 64 heads).all headValid = false ∨ deskewed marks = false →
      exec (.blockLockAcquired p heads marks) s = .next s) ∧
    (∀ hs, headsOk hs = true → ((lastOf 128 hs).filter fun h => !headValid h).length < 8 → exec (.blockLockLost p (some hs)) s = .next s) ∧
    (∀ heads : Heads, (∀ hs, heads = some hs → headsOk hs = true ∧ 8 ≤ ((lastOf 128 hs).filter fun h => !headValid h).length) →
      mget false s.link.lock p = true → Runs (.blockLockLost p heads) s fun t => mget false t.link.lock p = false ∧
      fld t (CYUST_PORT_ERR p) CYUST_PORT_ERR_LOCK_LOSSES = satAdd 16 (fld s (CYUST_PORT_ERR p) CYUST_PORT_ERR_LOCK_LOSSES) 1 ∧
      (portState s p = 3 → mget 0 t.link.lostAt p = paceTime s + 1) ∧ portState t p = portState s p ∧ WordsKept s t [CYUST_PORT_ERR p]) ∧
    (∀ a, portState s p = 3 → mget 0 s.link.lostAt p = a + 1 → Runs (.cyustPortDown p []) s fun t => portState t p = 1 ∧
      a + fld s CYUST_CFG CYUST_CFG_DOWN_HOLD * 100 ≤ paceTime t ∧ flag t (CYUST_PORT_STATUS p) CYUST_PORT_STATUS_NBR_VALID = false ∧
      fld t (CYUST_PORT_ERR p) CYUST_PORT_ERR_DOWNS = satAdd 16 (fld s (CYUST_PORT_ERR p) CYUST_PORT_ERR_DOWNS) 1 ∧
      (∃ e ∈ t.log.inFlight, e.code = 0x0901) ∧ t.mem = s.mem) ∧
    (∀ i, i < 512 → (i ≠ selfIdx s → inDomain s i = true →
        (∀ q, q < 8 → q ≠ p → (peerOf s i q).isSome = true → mget false s.link.notices (i * 8 + q) = true) →
        Runs (.portDownNotice i p) s fun t => flag t (CYUST_RT i) CYUST_RT_ABSENT = true ∧ t.mem = s.mem) ∧
      (i = selfIdx s → Runs (.portDownNotice i p) s fun t => mget false t.link.notices (i * 8 + p) = true ∧
        t = { s with link := { s.link with notices := t.link.notices } })) ∧
    (∀ l, l < 8 →
      (spareFree s p = true → Runs (.cyustLaneSwap p l true) s fun t => mget 0 t.link.swap p = l + 1 ∧
        fld t (CYUST_LANE p l) CYUST_LANE_STATE = 2 ∧ fld t (CYUST_LANE p 8) CYUST_LANE_STATE = 0 ∧ t.out = .link p (.lane l true (cwNow s p + 1)) :: s.out) ∧
      (portState s p = 3 → mget 0 s.link.swap p = l + 1 → mget 0 s.link.rotate p = 0 → Runs (.cyustLaneSwap p l false) s fun t => mget 0 t.link.swap p = 0 ∧
        fld t (CYUST_LANE p l) CYUST_LANE_STATE = 0 ∧ fld t (CYUST_LANE p 8) CYUST_LANE_STATE = 1 ∧ .link p (.lane l false (cwNow s p + 1)) ∈ t.out) ∧
      (portUp s p = true → mget 0 s.link.swap p = 0 → spareUsed s p = false → fld s (CYUST_LANE p 8) CYUST_LANE_STATE ≠ 3 →
        fld s (CYUST_LANE p l) CYUST_LANE_STATE ≠ 3 →
        Runs (.cyustLaneSpared p l) s fun t => fld t (CYUST_LANE p l) CYUST_LANE_STATE = 3 ∧ spareUsed t p = true ∧
          fld t (CYUST_PORT_STATUS p) CYUST_PORT_STATUS_SPARE_FOR = l ∧ portState t p = portState s p ∧
          (∃ e ∈ t.log.inFlight, e.code = 0x0902) ∧ (portState s p = 3 → .link p (.lane l true (cwNow s p + 1)) ∈ t.out) ∧ t.mem = s.mem) ∧
      (portUp s p = true → mget 0 s.link.swap p = 0 → spareUsed s p = true → fld s (CYUST_LANE p l) CYUST_LANE_STATE ≠ 3 → Runs (.cyustLaneSpared p l) s fun t =>
        portState t p = 1 ∧ t.mem = s.mem)) ∧
    (spareFree s p = true → mget 0 s.link.rotate p = 0 → fld s CYUST_CFG CYUST_CFG_CAL_S ≠ 0 → Runs (.cyustCalibrationRotation p) s fun t =>
      mget 0 t.link.swap p = 1 ∧ mget 0 t.link.rotate p = 1 ∧ fld t (CYUST_LANE p 0) CYUST_LANE_STATE = 2 ∧ t.mem = s.mem) ∧
    (portState s p = 3 → flag s CYUST_CFG CYUST_CFG_IDLE_EN = true → Runs (.cyustIdleEntry p) s fun t => portState t p = 4 ∧
      t.out = .link p .idleEntry :: s.out ∧ mget 0 s.link.quietAt p + fld s CYUST_CFG CYUST_CFG_IDLE_US * 10000 ≤ paceTime t) ∧
    (portState s p = 4 → Runs (.cyustIdleExit p) s fun t => portState t p = 3 ∧ mget 0 t.link.quietAt p = paceTime s ∧
      (∀ b, (p, b) ∈ s.link.idleQ → .link p b ∈ t.out) ∧ WordsKept s t [CYUST_PORT_STATUS p, SHADOW_GEN]) ∧
    (flag s (CYUST_PORT_CTRL p) CYUST_PORT_CTRL_EN = true → portUp s p = false → Runs (.cyustFarLoopbackRequest p) s fun t =>
      portState t p = 5 ∧ mget false t.link.echo p = true ∧ WordsKept s t [CYUST_PORT_STATUS p, SHADOW_GEN])

/-- Cyust carries requests, answers, stream bursts and credit by its routes, and the topology gives the default routes
(18_cyust.md R492, 18_cyust.md R493, 18_cyust.md R497, 18_cyust.md R498, 18_cyust.md R499, 18_cyust.md R501, 18_cyust.md
R503, 18_cyust.md R504, 18_cyust.md R505, 18_cyust.md R506, 02_pace.md R64, 02_pace.md R65). -/
def Obligations.CyustTrafficAndRoutes : Prop :=
  ∀ (s : State) (p : Nat), p < 8 →
    (∀ tag i q at_ r x, s.link.sent = [⟨tag, i, q, at_⟩] → findReq s tag = some r → isLoad r = true → r.parts[i]? = some x →
      Runs (.remoteTimeout tag i) s (fun t => PartAnswered s t tag i (.failed 0x0401) ∧ t.link.sent = [] ∧ t.mem = s.mem ∧
        at_ + fld s CYUST_CFG CYUST_CFG_REMOTE_TO * 10000 ≤ paceTime t) ∧
      ∀ d cls, cls < 2 → portState s p = 3 → Runs (.cyustPktBlock p cls (.answer tag i (.data d []))) s fun t =>
        PartAnswered s t tag i (.bytes d []) ∧ t.link.sent = [] ∧ t.mem = s.mem ∧ t.csr = s.csr ∧
        t.out = .link p (.pktCredit 1 cls (1 + (d.length + 31) / 32)) :: s.out) ∧
    (∀ tag i a cls, cls < 2 → portState s p = 3 → isSent s tag i = false → Runs (.cyustPktBlock p cls (.answer tag i a)) s fun t =>
      t.out = .link p (.pktCredit 1 cls (pktSize (.answer tag i a)).2) :: s.out ∧ t.core = s.core ∧ t.sync = s.sync ∧ t.mem = s.mem ∧
        t.csr = s.csr) ∧
    (∀ dst vc cls stamp detour fl (e : OutPkt) q, pktInOk (.transit dst vc stamp detour fl) = true → cls < 2 → portState s p = 3 →
      s.link.outq = [] → e = ⟨p, dst, vc, cls, fl.length, stamp, detour, .transit fl⟩ → outPort s e = some q → portState s q = 3 →
      (flitRoom s q vc (outClass s e q) fl.length = true → Runs (.cyustPktBlock p cls (.transit dst vc stamp detour fl)) s fun t =>
        t.out = .link p (.pktCredit vc cls fl.length) ::
          .link q (.pkt dst vc (outClass s e q) fl.length (detour || flag s (CYUST_RT dst) CYUST_RT_USE_ALT) (.transit fl)) :: s.out ∧
        t.link.outq = [] ∧ t.core = s.core ∧ t.mem = s.mem ∧ t.csr = s.csr) ∧
      (flitRoom s q vc (outClass s e q) fl.length = false → Runs (.cyustPktBlock p cls (.transit dst vc stamp detour fl)) s fun t =>
        t.out = s.out ∧ t.link.outq = [e] ∧ t.core = s.core ∧ t.mem = s.mem ∧ t.csr = s.csr)) ∧
    (∀ mod rtag o n stamp cls, pktInOk (.read mod rtag o n stamp) = true → cls < 2 →
      (portState s p = 3 → Runs (.cyustPktBlock p cls (.read mod rtag o n stamp)) s fun t =>
        t.link.inbox = s.link.inbox ++ [⟨mod, rtag, o, n, stamp, none⟩] ∧ t.out = .link p (.pktCredit 0 cls 1) :: s.out ∧
        t.core = s.core ∧ t.mem = s.mem ∧ t.csr = s.csr) ∧
      ∀ d bad u q, s.link.inbox = [⟨mod, rtag, o, n, stamp, none⟩] → s.link.outq = [] → s.mem.heldWr = [] →
        lmcRead o n stamp ⟨[], []⟩ s = (some (d, bad), u) → routePort u mod = some q → portState u q = 3 →
        flitRoom u q 1 (hopClass u q) (1 + (d.length + 31) / 32) = true → Runs (.lmcRead (.remote mod rtag) ⟨[], []⟩) s fun t =>
          t.link.inbox = [] ∧ t.mem = u.mem ∧ t.csr = u.csr ∧ t.out = .link q (.pkt mod 1 (hopClass u q) (1 + (d.length + 31) / 32)
            (flag u (CYUST_RT mod) CYUST_RT_USE_ALT) (.answer rtag d bad 0)) :: u.out) ∧
    (∀ cw errs, errs.Nodup → errs.all (· < 544) = true → portState s p = 3 →
      (15 < errs.length → Runs (.cyustUncorrectableCodeword p cw errs) s fun t =>
        t.out = .link p (.replay cw) :: s.out ∧ t.csr = s.csr ∧ t.core = s.core) ∧
      (errs ≠ [] → errs.length ≤ 15 → Runs (.cyustUncorrectableCodeword p cw errs) s fun t => t.out = s.out ∧ t.core = s.core ∧
        fld t (CYUST_PORT_ERR p) CYUST_PORT_ERR_CORR_CW = satAdd CYUST_PORT_ERR_CORR_CW.width (fld s (CYUST_PORT_ERR p) CYUST_PORT_ERR_CORR_CW) 1 ∧
        ∀ l, l < 9 → fld t (CYUST_LANE p l) CYUST_LANE_SYM_ERR = satAdd CYUST_LANE_SYM_ERR.width (fld s (CYUST_LANE p l) CYUST_LANE_SYM_ERR)
          (errs.filter fun i => decide (symbolLane s p i = l)).length) ∧
      Runs (.cyustReplayRequest p cw) s fun t => WordsKept s t [CYUST_PORT_ERR p] ∧ t.core = s.core ∧ t.link = s.link ∧
        fld t (CYUST_PORT_ERR p) CYUST_PORT_ERR_REPLAYS = satAdd 16 (fld s (CYUST_PORT_ERR p) CYUST_PORT_ERR_REPLAYS) 1 ∧
        ∀ e ∈ s.link.buffer, e.port = p → cw ≤ e.cw → cwNow s p < e.cw + 256 → .link p e.block ∈ t.out) ∧
    (∀ vc cls n, creditInOk (.packet vc cls n) = true → portState s p = 3 → s.link.outq = [] → Runs (.cyustCreditBlock p (.packet vc cls n)) s fun t =>
      mget 0 t.link.flits (flitKey p vc cls) = mget 0 s.link.flits (flitKey p vc cls) - n ∧
      (∀ k, k ≠ flitKey p vc cls → mget 0 t.link.flits k = mget 0 s.link.flits k) ∧
      t = { s with link := { s.link with flits := t.link.flits }, pwr := t.pwr }) ∧
    (∀ src dst rlink stamp d bad last spill, portState s p = 3 → src < 512 → dst < 512 → rlink < 4096 → 0 < d.length → d.length ≤ 512 →
      (∀ q, dst ≠ selfIdx s → routePort s dst = some q → portState s q = 3 →
        Runs (.cyustStrmBlock p src dst rlink stamp d bad last spill) s fun t =>
          t.out = .link q (.token dst rlink stamp d bad last spill) :: s.out ∧ t.core = s.core ∧ t.strm = s.strm ∧ t.csr = s.csr) ∧
      (dst = selfIdx s → gwInEntry s src rlink = none → Runs (.cyustStrmBlock p src dst rlink stamp d bad last spill) s fun t =>
        LogsAs s t 0x0403 (portSrc p) .notice 0 ∧ t.strm = s.strm ∧ t.csr = s.csr ∧ t.out = s.out) ∧
      ∀ i, dst = selfIdx s → gwInEntry s src rlink = some i → Runs (.cyustStrmBlock p src dst rlink stamp d bad last spill) s fun t =>
        t.strm.tokens = s.strm.tokens ++ (burstTokens rlink stamp last spill 17 (d.zipIdx.map fun e => (e.1, bad.contains e.2))).map
          (fun k => ⟨fld s (CYUST_GW i) CYUST_GW_ROW * 128 + 127, 1, k⟩) ∧ t.csr = s.csr ∧ t.core = s.core ∧ t.out = s.out) ∧
    (∀ row k q i, row < 200 → s.strm.gwOut = [(row, k)] → s.link.replay = [] →
      (gwOutEntry s row k.link = some i → routePort s (gwPeer s (CYUST_GW i)) = some q → portState s q = 3 →
        Runs (.gatewayTokenOut row) s fun t => t.strm.gwOut = [] ∧ t.csr = s.csr ∧ t.core = s.core ∧
          t.link.replay = [⟨q, row, k.link, k.data.length, paceTime s⟩] ∧
          t.out = .link q (.token (gwPeer s (CYUST_GW i)) (fld s (CYUST_GW i) CYUST_GW_RLINK) k.stamp (k.data.map (·.1))
            ((k.data.zipIdx.filter fun e => e.1.2).map (·.2)) k.last k.spill) :: s.out) ∧
      (gwOutEntry s row k.link = none → Runs (.gatewayTokenOut row) s fun t => t.strm.gwOut = [] ∧ Logs s t 0x0403 ∧ t.out = s.out)) ∧
    (∀ delay err corr off, delay < 65536 → portState s p = 3 →
      (paceOn s = false → Runs (.cyustDelayBlock p delay err corr off []) s fun t =>
        fld t (CYUST_PORT_DELAY p) CYUST_PORT_DELAY_DELAY = delay ∧ t.pace = s.pace ∧ t.log = s.log ∧
        fld t (CYUST_PORT_ERR p) CYUST_PORT_ERR_CORR_CW = satAdd 16 (fld s (CYUST_PORT_ERR p) CYUST_PORT_ERR_CORR_CW) corr ∧
        WordsKept s t [CYUST_PORT_DELAY p, CYUST_PORT_ERR p]) ∧
      ∀ h, paceOn s = true → roleNow s ≠ 0 → flag s PACE_MASTER PACE_MASTER_VALID = true → masterPort s = some (p, h) → err ≤ 50 →
        Runs (.cyustDelayBlock p delay err corr off []) s fun t => t.pace = { s.pace with timeOff := s.pace.timeOff + off, everLocked := true } ∧
          flag t PACE_STATUS PACE_STATUS_TIME_LOCKED = true ∧ fld t PACE_STATUS PACE_STATUS_HOPS = min h 15 ∧ t.log = s.log ∧
          WordsKept s t [CYUST_PORT_DELAY p, CYUST_PORT_ERR p, PACE_STATUS]) ∧
    (∀ v, v < 2 ^ 64 → CoresFault s CYUST_TOPO (fun m => .cyustTopoWrite m v) ∧
      ∀ i, i < 512 → CoresFault s (CYUST_RT i) fun m => .cyustRtWrite m i v) ∧
    (∀ m v, masterOk m = true → Reaches s m CYUST_TOPO → mayAdmin s m = true → v < 2 ^ 64 →
      ((∀ q, q < 8 → flag s (CYUST_PORT_CTRL q) CYUST_PORT_CTRL_EN = false) →
        fget (BitVec.ofNat 64 v) CYUST_TOPO_ZDIM ≠ 3 → fget (BitVec.ofNat 64 v) CYUST_TOPO_AUX ≠ 3 → Runs (.cyustTopoWrite m v) s fun t =>
          rget t CYUST_TOPO = BitVec.ofNat 64 (v % 2 ^ 16) ∧ (∀ j, j < 512 → rget t (CYUST_RT j) = defaultRoute t j) ∧
          t = { s with csr := t.csr }) ∧
      (flag s (CYUST_PORT_CTRL p) CYUST_PORT_CTRL_EN = true ∨ fget (BitVec.ofNat 64 v) CYUST_TOPO_ZDIM = 3 ∨
        fget (BitVec.ofNat 64 v) CYUST_TOPO_AUX = 3 → Runs (.cyustTopoWrite m v) s fun t =>
        LogsAs s t 0x0909 0x300 .notice 0 ∧ t = { s with log := t.log })) ∧
    ∀ m i v, masterOk m = true → i < 512 → v < 2 ^ 64 → isSupervisor m = true ∨ m = .mc →
      (portUp s (v % 8) = true → Runs (.cyustRtWrite m i v) s fun t => fld t (CYUST_RT i) CYUST_RT_PRIMARY = v % 8 ∧
        fld t (CYUST_RT i) CYUST_RT_ALT = v / 16 % 8 ∧ flag t (CYUST_RT i) CYUST_RT_USE_ALT = false ∧
        flag t (CYUST_RT i) CYUST_RT_ABSENT = decide (v / 2 ^ 17 % 2 = 1) ∧ (s.sync.waiters = [] → WordsKept s t [CYUST_RT i, CYUST_STATUS]) ∧ t.log = s.log) ∧
      (portUp s (v % 8) = false → v / 128 % 2 = 1 → Runs (.cyustRtWrite m i v) s fun t =>
        flag t (CYUST_RT i) CYUST_RT_USE_ALT = true ∧ LogsAs s t 0x0906 (portSrc (v % 8)) .corrected 0 ∧
        (s.sync.waiters = [] → WordsKept s t [CYUST_RT i, CYUST_STATUS]))

/-- The management commands: who may send them, what they answer and what they do (19_management_security.md R513,
19_management_security.md R519, 19_management_security.md R523, 19_management_security.md R524, 19_management_security.md
R525, 19_management_security.md R527, 19_management_security.md R528, 19_management_security.md R529,
19_management_security.md R530, 19_management_security.md R531, 19_management_security.md R533, 19_management_security.md
R534). -/
def Obligations.ManagementCommands : Prop :=
  ∀ (s : State) (q tag : Nat) (body : List Byte) (cut : Option Nat), q < 3 → tag < 65536 → body.length < 65536 →
    let all : List (Instr × Nat × Prop) := [(.getInfo q tag body, 0x01, body = []), (.getCerts q tag body, 0x02, body.length = 8),
      (.getMeasurements q tag body, 0x03, body.length = 48 ∧ maskOk q (fieldAt body 32 16) = true),
      (.stageWrite q tag body, 0x10, 8 ≤ body.length ∧ body.length ≤ 1016), (.loadCmd q tag body, 0x11, body.length = 12),
      (.mbxOp q tag body, 0x12, mbxBodyOk body = true),
      (.csrRead q tag body, 0x13, body.length = 8 ∧ fieldAt body 0 8 % 8 = 0 ∧ fieldAt body 0 8 < 2 ^ 28),
      (.fwUpdate q tag body cut, 0x20, body.length = 20 ∧ fieldAt body 0 4 ≤ 1),
      (.fwCommitSvn q tag body, 0x21, body.length = 4 ∧ fieldAt body 0 4 ≤ 1), (.ccSwitch q tag body, 0x22, body = []),
      (.resetCompute q tag body, 0x30, body = []), (.mcRestart q tag body, 0x31, body = []),
      (.setOwner q tag body, 0x40, body.length = 384), (.clearOwner q tag body, 0x40, body.length = 384),
      (.debugUnlock q tag body, 0x40, body.length = 384)]
    (mcRuns s = false → ∀ e ∈ all, q ≠ 0 ∨ e.2.1 ∉ [0x01, 0x10, 0x20] → exec e.1 s = .next s) ∧
    (q ≠ 0 → flag s (HOSTIF_PORT_STATUS (q - 1)) HOSTIF_PORT_STATUS_CFG_READY = false → ∀ e ∈ all, exec e.1 s = .next s) ∧
    (Heard s q →
      (∀ e ∈ all, (¬ MgmtMay s q e.2.1 → Runs e.1 s fun t => Says t s q e.2.1 tag 0x0A07 []) ∧
        (MgmtMay s q e.2.1 → ¬ e.2.2 ∨ (if q = 0 then 1024 else 4096) < body.length →
          Runs e.1 s fun t => Says t s q e.2.1 tag 0x0A0D []) ∧
        (MgmtMay s q e.2.1 → e.2.2 → 0x20 ≤ e.2.1 → s.mc.ccSwitch = true ∨ s.mc.busy = true →
          Runs e.1 s fun t => Says t s q e.2.1 tag 0x0A06 [])) ∧
      (MgmtMay s q 0x01 → body = [] → Runs (.getInfo q tag body) s fun t => Says t s q 0x01 tag 0 (infoBody s)) ∧
      (MgmtMay s q 0x02 → body.length = 8 → Runs (.getCerts q tag body) s fun t =>
        if fieldAt body 0 4 + fieldAt body 4 4 ≤ 864 then
          Says t s q 0x02 tag 0 (flashRun s (0x1C00000 + fieldAt body 0 4) (fieldAt body 4 4))
        else Says t s q 0x02 tag 0x0A0D []) ∧
      (MgmtMay s q 0x03 → body.length = 48 → maskOk q (fieldAt body 32 16) = true →
        (flag s MC_STATUS MC_STATUS_ID_KEY = false → Runs (.getMeasurements q tag body) s fun t => Says t s q 0x03 tag 0x0A05 []) ∧
        (flag s MC_STATUS MC_STATUS_ID_KEY = true → Runs (.getMeasurements q tag body) s fun t => ∃ sig, Says t s q 0x03 tag 0
          (wordBytes (rget s MEAS_GEN) ++ wordBytes (rget s GLB_SERIAL) ++ body.take 32 ++
            leBytes 2 (maskBits (fieldAt body 32 16)).length ++ leBytes 6 0 ++
            (maskBits (fieldAt body 32 16)).flatMap (measRecord s) ++ sig))) ∧
      (∀ o (d : List Byte), q = 0 → body.length ≤ 1016 → 8 ≤ body.length → o = fieldAt body 0 8 → d = body.drop 8 →
        (stageBytes s < o + d.length → Runs (.stageWrite q tag body) s fun t => Says t s q 0x10 tag 0x0A0D []) ∧
        (o + d.length ≤ stageBytes s →
          (stageLocked s (stageBase s + o) = true → Runs (.stageWrite q tag body) s fun t => ∃ u, Says t u q 0x10 tag 0x0713 [] ∧
            u = { s with log := u.log, load := u.load }) ∧
          (stageLocked s (stageBase s + o) = false → flag s LMC_STATUS LMC_STATUS_INIT_DONE = true →
            Runs (.stageWrite q tag body) s fun t => Says t (dramWriteAll (stageBase s + o) d s) q 0x10 tag 0 []))) ∧
      (q = 0 → body.length = 12 → Runs (.loadCmd q tag body) s fun t =>
        Says t (loadCommand 4 (fieldAt body 0 4 % 8) (fieldAt body 0 4 / 8 % 64) (rset s LOAD_AT (BitVec.ofNat 64 (fieldAt body 4 8))))
          q 0x11 tag 0 []) ∧
      (∀ j, q = 0 → mbxBodyOk body = true → j = fieldAt body 0 4 →
        (fieldAt body 4 4 = 1 → mbxState s j = 0 → Runs (.mbxOp q tag body) s fun t => ∃ u, Says t u q 0x12 tag 0 [] ∧
          mbxState u j = 2 ∧ mbxSrc u j = 4 ∧ fld u (MBX_HDR j) MBX_HDR_LEN = body.length - 12 ∧
          fld u (MBX_HDR j) MBX_HDR_DB = fieldAt body 8 4 ∧ u.mem = s.mem ∧
          ∀ k, k < 60 → rget u (mbxBodyWord j k) = BitVec.ofNat 64 (leNat (((body.drop 12).drop (8 * k)).take 8))) ∧
        (fieldAt body 4 4 = 1 → mbxState s j ≠ 0 → Runs (.mbxOp q tag body) s fun t => Says t s q 0x12 tag 0x0502 []) ∧
        (fieldAt body 4 4 = 2 → isReceiver s j .sideBand = true → mbxState s j = 2 → Runs (.mbxOp q tag body) s fun t => ∃ u,
          Says t u q 0x12 tag 0 (wordBytes (rget u (MBX_HDR j)) ++
            ((List.range 60).flatMap fun k => wordBytes (rget u (mbxBodyWord j k))).take (fld u (MBX_HDR j) MBX_HDR_LEN)) ∧
          mbxState u j = 3 ∧ WordsKept s u [MBX_HDR j] ∧ u = { s with csr := u.csr }) ∧
        (fieldAt body 4 4 = 2 → isReceiver s j .sideBand = false → Runs (.mbxOp q tag body) s fun t => Says t s q 0x12 tag 0x0A07 []) ∧
        (fieldAt body 4 4 = 3 → isReceiver s j .sideBand = true → mbxState s j = 3 → Runs (.mbxOp q tag body) s fun t => ∃ u,
          Says t u q 0x12 tag 0 [] ∧ mbxState u j = 0 ∧ WordsKept s u [MBX_HDR j] ∧ u = { s with csr := u.csr }) ∧
        (fieldAt body 4 4 = 4 → mbxState s j = 2 → mbxSrc s j = 4 → Runs (.mbxOp q tag body) s fun t => ∃ u,
          Says t u q 0x12 tag 0 [] ∧ mbxState u j = 0 ∧ WordsKept s u [MBX_HDR j] ∧ u = { s with csr := u.csr }) ∧
        (2 ≤ fieldAt body 4 4 → mbxState s j = 0 → isReceiver s j .sideBand = true → Runs (.mbxOp q tag body) s fun t =>
          Says t s q 0x12 tag 0x0503 [])) ∧
      (q = 0 → body.length = 8 → fieldAt body 0 8 % 8 = 0 → fieldAt body 0 8 < 2 ^ 28 → Runs (.csrRead q tag body) s fun t =>
        Says t (csrRead .sideBand (fieldAt body 0 8) 8 s).2 q 0x13 tag 0 (wordBytes (csrRead .sideBand (fieldAt body 0 8) 8 s).1) ∧
        (fieldAt body 0 8 = GLB_SERIAL → Says t s q 0x13 tag 0 (wordBytes (rget s GLB_SERIAL)))) ∧
      (s.mc.ccSwitch = false → s.mc.busy = false →
        (∀ g o n c img, MgmtMay s q 0x20 → body.length = 20 → g = fieldAt body 0 4 → g ≤ 1 → o = fieldAt body 4 8 →
          n = fieldAt body 12 8 → c = 1 - runningCopy s g → img = dramRead s (stageBase s + o) n →
          (stageBytes s < o + n ∨ copySize g - 4096 < n ∨ n < 384 → Runs (.fwUpdate q tag body cut) s fun t =>
            Says t s q 0x20 tag 0x0A0D []) ∧
          (o + n ≤ stageBytes s → n ≤ copySize g - 4096 → 384 ≤ n → flag s LMC_STATUS LMC_STATUS_INIT_DONE = false →
            Runs (.fwUpdate q tag body cut) s fun t => Says t s q 0x20 tag 0x060C []) ∧
          (o + n ≤ stageBytes s → n ≤ copySize g - 4096 → 384 ≤ n → flag s LMC_STATUS LMC_STATUS_INIT_DONE = true →
            (fieldAt img 16 1 < svnFloor s g → Runs (.fwUpdate q tag body cut) s fun t => Says t s q 0x20 tag 0x0A0A []) ∧
            (svnFloor s g ≤ fieldAt img 16 1 → Runs (.fwUpdate q tag body cut) s fun t =>
              (∀ a, a < copyBase g c ∨ copyBase g c + copySize g ≤ a → flashByte t a = flashByte s a) ∧ t.core = s.core ∧
              t.mem = s.mem ∧ svnFloor t g = svnFloor s g ∧ runningCopy t g = runningCopy s g ∧
              (cut.isSome = true → t.mc.busy = true ∧ t.out = s.out ∧ copyOk t g c = false) ∧
              (cut = none → dramBadWords s (stageBase s + o) n ≠ [] → (∃ u, Says t u q 0x20 tag 0x0A09 []) ∧ copyOk t g c = false) ∧
              (cut = none → dramBadWords s (stageBase s + o) n = [] → fwOk s g img = true → fieldAt img 8 4 = n → copySeq s g (runningCopy s g) + 2 < 2 ^ 64 →
                (∃ u, Says t u q 0x20 tag 0 []) ∧ copyOk t g c = true ∧ copyImage t g c = img ∧
                copySeq t g c = copySeq s g (runningCopy s g) + 1)))) ∧
        (∀ g v, MgmtMay s q 0x21 → body.length = 4 → g = fieldAt body 0 4 → g ≤ 1 → v = fld s (if g = 0 then MC_FW else CC_FW) MC_FW_SVN →
          (63 < v → Runs (.fwCommitSvn q tag body) s fun t => Says t s q 0x21 tag 0x0A0C []) ∧
          (v ≤ 63 → v ≤ svnFloor s g → Runs (.fwCommitSvn q tag body) s fun t => Says t s q 0x21 tag 0 []) ∧
          (v ≤ 63 → svnFloor s g < v → Runs (.fwCommitSvn q tag body) s fun t => (∃ u, Says t u q 0x21 tag 0 []) ∧
            svnFloor t g = v ∧ svnFloor t (1 - g) = svnFloor s (1 - g) ∧ t.mc.ownerCtr = s.mc.ownerCtr ∧ t.mc.flash = s.mc.flash ∧
            (∀ img, fieldAt img 16 1 < v → fwOk t g img = false) ∧ t.core = s.core ∧ t.mem = s.mem)) ∧
        (MgmtMay s q 0x22 → body = [] →
          (s.mc.held = true → Runs (.ccSwitch q tag body) s fun t => Says t s q 0x22 tag 0 []) ∧
          (s.mc.held = false → anyPlot s = true → Runs (.ccSwitch q tag body) s fun t =>
            Says t { s with mc := { s.mc with ccSwitch := true } } q 0x22 tag 0 []) ∧
          ∀ c, s.mc.held = false → anyPlot s = false → chooseCopy s 1 = some c → Runs (.ccSwitch q tag body) s fun t => (∃ u, Says t u q 0x22 tag 0 []) ∧
            t.mc.ccCopy = c ∧ flag t MC_STATUS MC_STATUS_CC_RUNNING = true ∧ t.core = s.core ∧ t.mem = s.mem) ∧
        (MgmtMay s q 0x30 → body = [] → Runs (.resetCompute q tag body) s fun t => ∃ u, Says t u q 0x30 tag 0 [] ∧ DeviceReset s u ∧
          u.mc.compOff = false) ∧
        (∀ c, MgmtMay s q 0x31 → body = [] → chooseCopy s 0 = some c → Runs (.mcRestart q tag body) s fun t =>
          (∃ u, Says t u q 0x31 tag 0 []) ∧ t.mc.mcCopy = c ∧ mcState t = 3 ∧ t.core = s.core ∧ t.mem = s.mem ∧ t.strm = s.strm ∧
          t.mc.held = s.mc.held ∧ t.mc.flash = s.mc.flash) ∧
        (MgmtMay s q 0x40 → body.length = 384 →
          (∀ e ∈ ([(.setOwner q tag body, 1), (.clearOwner q tag body, 2), (.debugUnlock q tag body, 3)] : List (Instr × Nat)),
            (signedOk body = false ∨ fieldAt body 4 1 ≠ e.2 ∨
                fieldAt body 16 4 ≠ (if e.2 = 3 then s.mc.ownerCtr else s.mc.ownerCtr + 1) → Runs e.1 s fun t =>
              Says t s q 0x40 tag 0x0A08 []) ∧
            (signedOk body = true → fieldAt body 4 1 = e.2 → fieldAt body 16 4 = s.mc.ownerCtr + 1 → e.2 ≠ 3 →
              (32 ≤ s.mc.ownerCtr → Runs e.1 s fun t => Says t s q 0x40 tag 0x0A0C []) ∧
              (s.mc.ownerCtr < 32 → 1 ≤ loadState s → loadState s ≤ 5 → Runs e.1 s fun t => Says t s q 0x40 tag 0x0A06 []) ∧
              (s.mc.ownerCtr < 32 → loadState s = 0 ∨ 6 ≤ loadState s → Runs e.1 s fun t => (∃ u, Says t u q 0x40 tag 0 []) ∧
                t.mc.ownerCtr = s.mc.ownerCtr + 1 ∧ t.core = s.core ∧ t.mem = s.mem ∧
                ownerKey t = (if e.2 = 1 then some (bytesAt body 120 96, fieldAt body 5 1) else none) ∧
                fld t LOAD_SEC LOAD_SEC_OWNER_KEY = (if e.2 = 1 then 1 else 0) ∧
                fld t LOAD_SEC LOAD_SEC_ENFORCE = (if e.2 = 1 then fieldAt body 5 1 else 0) ∧
                (∀ c, recordCopy s = some c → recordAt t c = recordAt s c)))) ∧
          (signedOk body = true → fieldAt body 4 1 = 3 → fieldAt body 16 4 = s.mc.ownerCtr → Runs (.debugUnlock q tag body) s fun t =>
            (∃ u, Says t u q 0x40 tag 0 []) ∧ flag t SEC_STATE SEC_STATE_DEBUG_UNLOCK = true ∧ t.mc.ownerCtr = s.mc.ownerCtr ∧
            t.mc.flash = s.mc.flash ∧ t.core = s.core ∧ t.mem = s.mem))))

/-- The watchdog, heartbeat and DEV_LIVE, the MCTP control and PLDM commands, JTAG and DOE discovery
(19_management_security.md R510, 19_management_security.md R511, 19_management_security.md R521, 19_management_security.md
R522, 17_host_interface.md R463, 20_power_thermal.md R538, 20_power_thermal.md R555). -/
def Obligations.McLifeSideBandAndJtag : Prop :=
  ∀ s : State,
    let sends (t u : State) (k cmd : Nat) (body : List Byte) : Prop := t = { u with out := .sideBand k cmd body :: u.out }
    (mcRuns s = false → ∀ i ∈ ([.mcWatchdog, .getEndpointId, .getMctpVersionSupport, .getMessageTypeSupport,
        .getVendorDefinedMessageSupport, .getTid, .getPldmVersion, .getPldmTypes, .getPldmCommands, .getPdr 0, .getSensorReading 1,
        .getStateSensorReadings 6, .getNumericEffecterValue, .setEndpointId 8, .setTid 1, .setNumericEffecterValue 1000,
        .setStateEffecterStates 2, .setEventReceiver 9, .stateSensorEvent 7] : List Instr), exec i s = .next s) ∧
    (s.mc.pwrGood = false ∨ mcState s = 0 → exec .mcHeartbeat s = .next s ∧ exec .sidebandError s = .next s) ∧
    (s.mc.pwrGood = true → mcState s = 3 → Runs .mcHeartbeat s fun t => mcState t = 1 ∧ t.mc.hbAt = some s.now ∧
      fld t MC_STATUS MC_STATUS_HB = (fld s MC_STATUS MC_STATUS_HB + 1) % 2 ^ 32 ∧ t.mc.expired = false ∧
      (s.mc.expired = true → ∃ e ∈ t.log.inFlight, e.code = 0x0A04) ∧ t.core = s.core ∧ t.mem = s.mem ∧ t.strm = s.strm ∧
      t.mc.held = s.mc.held) ∧
    (∀ live, live = (flag s GLB_STATUS GLB_STATUS_COMPUTE_UP && flag s MC_STATUS MC_STATUS_CC_RUNNING) → mcRuns s = true →
      (∀ c, chooseCopy s 0 = some c → Runs .mcWatchdog s fun t =>
        fld t MC_STATUS MC_STATUS_WD_RESETS = (fld s MC_STATUS MC_STATUS_WD_RESETS + 1) % 2 ^ 16 ∧ mcState t = 3 ∧ t.mc.mcCopy = c ∧
        t.mc.expired = true ∧ t.mc.hbAt = s.mc.hbAt ∧ t.core = s.core ∧ t.mem = s.mem ∧
        t.strm = s.strm ∧ t.mc.held = s.mc.held) ∧
      (Runs .mcHeartbeat s fun t => fld t MC_STATUS MC_STATUS_HB = (fld s MC_STATUS MC_STATUS_HB + 1) % 2 ^ 32 ∧
        t.mc = { s.mc with hbAt := some s.now } ∧ flag t GLB_STATUS GLB_STATUS_DEV_LIVE = live ∧
        WordsKept s t [MC_STATUS, GLB_STATUS] ∧ t = { s with csr := t.csr, mc := t.mc }) ∧
      (∀ e, e < 256 → Runs (.setEndpointId e) s fun t => sends t { s with mc := { s.mc with eid := if e = 0 ∨ e = 255 then s.mc.eid else e } }
        0 1 (leBytes 1 e)) ∧
      (∀ x, x < 256 → Runs (.setTid x) s fun t => sends t { s with mc := { s.mc with tid := if x = 0 ∨ x = 255 then s.mc.tid else x } }
        1 1 []) ∧
      (∀ e ∈ ([(.getEndpointId, 0, 2, leBytes 1 s.mc.eid), (.getMessageTypeSupport, 0, 5, [0x00, 0x01, 0x7E]),
          (.getVendorDefinedMessageSupport, 0, 6, [0xB3, 0x1F]), (.getTid, 1, 2, leBytes 1 s.mc.tid),
          (.getMctpVersionSupport, 0, 4, Config.standardAnswer 0 4), (.getPldmVersion, 1, 3, Config.standardAnswer 1 3),
          (.getPldmTypes, 1, 4, Config.standardAnswer 1 4), (.getPldmCommands, 1, 5, Config.standardAnswer 1 5),
          (.getNumericEffecterValue, 1, 0x232, leBytes 4 (fld s PWR_LIMIT PWR_LIMIT_SB_LIMIT)),
          (.getSensorReading 2, 1, 0x211, leBytes 4 (bitsOf (mget 0 s.pwr.sample 3) 16 16)),
          (.getSensorReading 3, 1, 0x211, leBytes 4 (bitsOf (mget 0 s.pwr.sample 3) 0 16)),
          (.getSensorReading 4, 1, 0x211, leBytes 4 (bitsOf (mget 0 s.pwr.sample 64) 0 16 / 10)),
          (.getSensorReading 5, 1, 0x211, leBytes 4 (bitsOf (mget 0 s.pwr.sample 3) 32 16)),
          (.getStateSensorReadings 7, 1, 0x221, [if flag s GLB_STATUS GLB_STATUS_DEV_LIVE then 2 else 1])] :
          List (Instr × Nat × Nat × List Byte)),
        Runs e.1 s fun t => sends t s e.2.1 e.2.2.1 e.2.2.2) ∧
      (∀ x : BitVec 16, (mget 0 s.pwr.sample 4).extractLsb' 8 16 = x → Runs (.getSensorReading 1) s fun t =>
        sends t s 1 0x211 (leBytes 4 ((x.toInt / 16) % 2 ^ 32).toNat)) ∧
      (∀ h, h < 2 ^ 32 → Runs (.getPdr h) s fun t => sends t s 1 0x251 (Config.standardAnswer 0x251 h)) ∧
      (Runs (.getStateSensorReadings 6) s fun t => sends t s 1 0x221
        [if s.mc.held ∨ s.mc.compOff then 1 else if flag s MC_STATUS MC_STATUS_CC_RUNNING then 2 else 3]) ∧
      (Runs (.getStateSensorReadings 8) s fun t => sends t { s with mc := { s.mc with fatalNew := false } } 1 0x221
        [if s.mc.fatalNew then 2 else 1]) ∧
      (∀ v, v < 2 ^ 32 →
        (600 ≤ v → v ≤ 1600 → Runs (.setNumericEffecterValue v) s fun t => ∃ u, sends t u 1 0x231 [] ∧ u = { s with csr := u.csr } ∧
          fld u PWR_LIMIT PWR_LIMIT_SB_LIMIT = v ∧ WordsKept s u [PWR_LIMIT]) ∧
        (v < 600 ∨ 1600 < v → Runs (.setNumericEffecterValue v) s fun t => ∃ u, sends t u 1 0x231 [] ∧ LogsAs s u 0x0B07 0x25 .notice 0 ∧
          flag u PWR_EVENTS PWR_EVENTS_CFG_INVALID = true ∧ WordsKept s u [PWR_EVENTS])) ∧
      (Runs (.setStateEffecterStates 2) s fun t => ∃ u, sends t u 1 0x239 [] ∧ DeviceReset s u ∧ u.mc.compOff = false) ∧
      (Runs (.setStateEffecterStates 1) s fun t => sends t s 1 0x239 []) ∧
      (∀ a, a < 256 → Runs (.setEventReceiver a) s fun t => sends t { s with mc := { s.mc with eventRx := some a } } 1 0x204 []) ∧
      (∀ id, 6 ≤ id → id ≤ 8 →
        (mget 1 s.mc.shown id = stateSensor s id → exec (.stateSensorEvent id) s = .next s) ∧
        (mget 1 s.mc.shown id ≠ stateSensor s id → s.mc.eventRx.isSome = true → Runs (.stateSensorEvent id) s fun t => ∃ u,
          sends t u 2 0x20A (leBytes 1 id ++ leBytes 1 (stateSensor s id)) ∧ mget 1 u.mc.shown id = stateSensor s id ∧
          u = { s with mc := { s.mc with shown := u.mc.shown } }))) ∧
    (s.mc.pwrGood = true → mcState s = 1 ∨ mcState s = 2 →
      (s.mc.pecLogAt = none → Runs .sidebandError s fun t => LogsAs s t 0x0A0B 0x03 .notice 0 ∧
        t = { s with log := t.log, mc := { s.mc with pecErrs := s.mc.pecErrs + 1, pecLogAt := some s.now } }) ∧
      (∀ a, s.mc.pecLogAt = some a → s.now < a + 10 ^ 10 → Runs .sidebandError s fun t =>
        t = { s with mc := { s.mc with pecErrs := s.mc.pecErrs + 1 } })) ∧
    (∀ a, flag s GLB_STATUS GLB_STATUS_DEV_LIVE = true → s.mc.hbAt = some a → Runs .devLiveDrop s fun t =>
      flag t GLB_STATUS GLB_STATUS_DEV_LIVE = false ∧ t.now = max s.now (a + 5000000000) ∧ WordsKept s t [GLB_STATUS] ∧
      t = { s with csr := t.csr, now := t.now }) ∧
    (Runs .bypass s fun t => t = { s with mc := { s.mc with jtag := 0 } } ∧ jtagInForce t = 0) ∧
    (∀ v, Runs (.samplePreload v) s fun t => t = { s with mc := { s.mc with jtag := 1, boundary := v } } ∧ jtagInForce t = 1) ∧
    (∀ e ∈ ([(.extest, 2), (.clamp, 3), (.highz, 4)] : List (Instr × Nat)), Runs e.1 s fun t =>
      t = { s with mc := { s.mc with jtag := e.2 } } ∧ jtagInForce t = if s.mc.held then e.2 else 0) ∧
    (∀ p, p < 2 → (flag s (HOSTIF_PORT_STATUS p) HOSTIF_PORT_STATUS_CFG_READY = false → ∀ i, i < 256 → exec (.doeDiscovery p i) s = .next s) ∧
      (flag s (HOSTIF_PORT_STATUS p) HOSTIF_PORT_STATUS_CFG_READY = true →
        (Runs (.doeDiscovery p 0) s fun t => t = { s with out := .doe p 0x0001 0 1 :: s.out }) ∧
        Runs (.doeDiscovery p 1) s fun t => t = { s with out := .doe p 0x1FB3 1 0 :: s.out }))

/-- The governor's step, boost credit, thermal readings and trip, shading, telemetry samples (20_power_thermal.md R536,
20_power_thermal.md R537, 20_power_thermal.md R538, 20_power_thermal.md R542, 20_power_thermal.md R544, 20_power_thermal.md
R545, 20_power_thermal.md R546, 20_power_thermal.md R547, 20_power_thermal.md R548, 20_power_thermal.md R550,
20_power_thermal.md R553, 20_power_thermal.md R555). -/
def Obligations.PowerThermalAndTelemetry : Prop :=
  ∀ s : State,
    let st (u : State) (f : Fld) : Nat := fld u PWR_STATUS f
    let v := st s PWR_STATUS_VCORE
    let k := st s PWR_STATUS_K
    let cal := flag s GLB_STATUS GLB_STATUS_HG_CAL
    let hot := hotAt s (fld s PWR_CFG PWR_CFG_TJ_LIMIT * 16)
    let press (t : State) : Prop :=
      (cal = true → 600 < v → st t PWR_STATUS_VCORE = max 600 (v - 5) ∧ st t PWR_STATUS_K = k) ∧
      (cal = false ∨ v ≤ 600 → st t PWR_STATUS_VCORE = v ∧
        st t PWR_STATUS_K = if flag s PWR_CFG PWR_CFG_GATE_EN = true ∧ k < 12 then k + 1 else k)
    (devRuns s = true → ∀ power vneed est, power < 2048 → 600 ≤ vneed →
      (s.pwr.avsFault = true → ∀ avs, Runs (.governorStep power vneed est avs) s fun t => st t PWR_STATUS_POWER = power ∧
        st t PWR_STATUS_VCORE = v ∧ WordsKept s t [PWR_STATUS] ∧ t = { s with csr := t.csr }) ∧
      (s.pwr.avsFault = false →
        (Runs (.governorStep power vneed est false) s fun t => st t PWR_STATUS_POWER = power ∧ st t PWR_STATUS_VCORE = v ∧
          st t PWR_STATUS_LIMITER = 6 ∧ t.pwr.avsFault = true ∧ LogsAs s t 0x0B05 0x25 .corrected 0 ∧
          flag t PWR_EVENTS PWR_EVENTS_AVS_FAULT = true) ∧
        (Runs (.governorStep power vneed est true) s fun t => st t PWR_STATUS_POWER = power ∧
          WordsKept s t [PWR_STATUS, PWR_EVENTS] ∧ t = { s with csr := t.csr, pwr := t.pwr, log := t.log } ∧
          (hot = true → press t ∧ st t PWR_STATUS_LIMITER = 3 ∧ t.pwr.heldEp = true ∧
            (s.pwr.heldEp = false → flag t PWR_EVENTS PWR_EVENTS_THERM_HELD = true ∧ ∃ e ∈ t.log.inFlight, e.code = 0x0B01)) ∧
          (hot = true → cal = true → paceTarget s ≠ 0 → max 600 (v - 5) < vneed → 600 < v → flag s PWR_STATUS PWR_STATUS_BREACH = false →
            flag t PWR_STATUS PWR_STATUS_BREACH = true ∧ ∃ e ∈ t.log.inFlight, e.code = 0x0B02) ∧
          (hot = false → powerLimit s < power → press t ∧ st t PWR_STATUS_LIMITER = 2 ∧
            flag t PWR_EVENTS PWR_EVENTS_POWER_HELD = true) ∧
          (hot = false → power ≤ powerLimit s →
            (0 < k → st t PWR_STATUS_K = k - 1 ∧ st t PWR_STATUS_VCORE = v) ∧
            (k = 0 → cal = false → st t PWR_STATUS_VCORE = 800 ∧ st t PWR_STATUS_LIMITER = 5) ∧
            ∀ ask want, k = 0 → cal = true →
              ask = max (fld s PWR_CFG PWR_CFG_VBASE) (if paceTarget s = 0 then 600 else vneed) →
              want = min ask (if boostGrant s then 900 else 800) → st t PWR_STATUS_K = 0 ∧
              (v < want → (∀ b, raiseBlock s est = some b → st t PWR_STATUS_VCORE = v ∧ st t PWR_STATUS_LIMITER = b) ∧
                (raiseBlock s est = none → st t PWR_STATUS_VCORE = min 900 (v + 5))) ∧
              (want < v → st t PWR_STATUS_VCORE = v - 5) ∧ (want = v → st t PWR_STATUS_VCORE = v) ∧
              (want ≤ v → boostGrant s = false → 800 < ask → st t PWR_STATUS_LIMITER = 4))))) ∧
    (s.pwr.avsFault = true → Runs (.avsRetry true) s fun t => t.pwr = { s.pwr with avsFault := false } ∧ st t PWR_STATUS_LIMITER = 0 ∧
      WordsKept s t [PWR_STATUS] ∧ t = { s with csr := t.csr, pwr := t.pwr }) ∧
    (exec (.avsRetry false) s = .next s) ∧
    (∀ m (w : W64) f, masterOk m = true → f = (if m = .mc then PWR_LIMIT_SB_LIMIT else PWR_LIMIT_LIMIT) →
      CoresFault s PWR_LIMIT (fun m => .pwrLimitWrite m w) ∧ CoresFault s PWR_SHADE (fun m => .pwrShadeWrite m w) ∧
      (Reaches s m PWR_LIMIT → Reaches s m PWR_SHADE →
      (mayAdmin s m = false → exec (.pwrLimitWrite m w) s = .next s ∧ exec (.pwrShadeWrite m w) s = .next s) ∧
      (mayAdmin s m = true →
        (600 ≤ fget w f → fget w f ≤ 1600 → 1 ≤ fget w PWR_LIMIT_WINDOW → fget w PWR_LIMIT_WINDOW ≤ 100 → Runs (.pwrLimitWrite m w) s fun t =>
          fld t PWR_LIMIT f = fget w f ∧ fld t PWR_LIMIT PWR_LIMIT_WINDOW = fget w PWR_LIMIT_WINDOW ∧
          (∀ g ∈ [PWR_LIMIT_LIMIT, PWR_LIMIT_SB_LIMIT], g ≠ f → fld t PWR_LIMIT g = fld s PWR_LIMIT g) ∧
          WordsKept s t [PWR_LIMIT] ∧ t = { s with csr := t.csr }) ∧
        (fget w f < 600 ∨ 1600 < fget w f ∨ fget w PWR_LIMIT_WINDOW < 1 ∨ 100 < fget w PWR_LIMIT_WINDOW →
          Runs (.pwrLimitWrite m w) s fun t => LogsAs s t 0x0B07 0x25 .notice 0 ∧ flag t PWR_EVENTS PWR_EVENTS_CFG_INVALID = true ∧
            WordsKept s t [PWR_EVENTS]) ∧
        Runs (.pwrShadeWrite m w) s fun t => rget t PWR_SHADE = w ∧ rget t PWR_SHADE_ST = rget s PWR_SHADE_ST &&& w ∧
          (∀ p b, p < 64 → (rget s PWR_SHADE_ST).getLsbD p = true → w.getLsbD p = false → b ∈ plotBlocks s p → blockGated t b = false) ∧
          WordsKept s t [PWR_SHADE, PWR_SHADE_ST] ∧ t = { s with csr := t.csr, pwr := t.pwr }))) ∧
    (∀ up boost c, up = flag s GLB_STATUS GLB_STATUS_COMPUTE_UP → boost = (devRuns s && flag s PWR_STATUS PWR_STATUS_BOOST) →
      c = (if up then max s.pwr.credit (min (s.pwr.credit + 2) (10 * fld s PWR_BOOST PWR_BOOST_CAP)) else s.pwr.credit) -
        (if boost then 10 else 0) → Runs .boostCreditTick s fun t =>
        t.pwr.credit = c ∧ fld t PWR_BOOST PWR_BOOST_CREDIT = c / 10 % 2 ^ 32 ∧
        (up = true → t.pwr.upSecs = (if s.pwr.upSecs = 59 then 0 else s.pwr.upSecs + 1) ∧
          (s.pwr.upSecs = 59 → fld t PWR_LIFE PWR_LIFE_OPER_MIN = (fld s PWR_LIFE PWR_LIFE_OPER_MIN + 1) % 2 ^ 32)) ∧
        (boost = true → s.pwr.boostSecs = 59 → fld t PWR_LIFE PWR_LIFE_BOOST_MIN = (fld s PWR_LIFE PWR_LIFE_BOOST_MIN + 1) % 2 ^ 32) ∧
        (boost = true → fld s PWR_BOOST PWR_BOOST_CREDIT ≠ 0 → c / 10 = 0 → LogsAs s t 0x0B04 0x25 .corrected 0) ∧
        WordsKept s t [PWR_BOOST, PWR_LIFE, PWR_EVENTS] ∧ t = { s with csr := t.csr, pwr := t.pwr, log := t.log }) ∧
    (fld s MC_STATUS MC_STATUS_STATE = 1 → Runs .boostSave s fun t => t = { s with pwr := { s.pwr with
      saved := some (fld s PWR_BOOST PWR_BOOST_CREDIT, fld s PWR_LIFE PWR_LIFE_OPER_MIN, fld s PWR_LIFE PWR_LIFE_BOOST_MIN) } }) ∧
    (∀ ts : List Int, ts.length = 208 → devRuns s = true → Runs (.thermalSample ts) s fun t =>
      (∀ i x, ts[i]? = some x → mget 0 t.pwr.therm i = x ∧ (x < -640 ∨ 2400 < x → mget false t.avl.thFailed i = true)) ∧
      (∀ i, mget false s.avl.thFailed i = true → mget false t.avl.thFailed i = true) ∧
      (∀ i, i < 208 → thermOk t i = true → ∃ j, j = st t PWR_STATUS_TJ_SENSOR ∧ j < 208 ∧ thermOk t j = true ∧
        thermAt t i ≤ thermAt t j ∧ (st t PWR_STATUS_TJ_MAX : Int) = (thermAt t j / 16) % 256) ∧
      (∀ i, i < 208 → mget false s.avl.thFailed i = false → mget false t.avl.thFailed i = true → ∃ e ∈ t.log.inFlight, e.code = 0x0B08) ∧
      t.core = s.core ∧ t.mem = s.mem) ∧
    (∀ i, i < 208 → devRuns s = true → thermOk s i = true → Runs (.thermalTrip i) s fun t => DeviceReset s t ∧ t.mc.compOff = true ∧
      t.pwr.tripped = true ∧ ∃ e ∈ t.log.inFlight, e.code = 0x0B03 ∧ e.cls = .fatal) ∧
    (∀ p, p < 64 → (rget s PWR_SHADE).getLsbD p = true → (rget s PWR_SHADE_ST).getLsbD p = false → plotValid s p = true →
      plotStill s p = true → Runs (.plotShaded p) s fun t => (∀ q, q < 64 → (rget t PWR_SHADE_ST).getLsbD q =
        (decide (q = p) || (rget s PWR_SHADE_ST).getLsbD q)) ∧ (∀ b ∈ plotBlocks s p, blockGated t b = mayGate t b) ∧
        WordsKept s t [PWR_SHADE_ST] ∧ t = { s with csr := t.csr, pwr := { s.pwr with gated := t.pwr.gated } }) ∧
    (∀ b, b < 1664 → devRuns s = true → blockGated s b = false → mayGate s b = true → (∀ h ∈ s.pwr.heldPkts, h.block ≠ b) →
      Runs (.blockRegate b) s fun t => mget false t.pwr.gated b = true ∧ mget 0 s.pwr.pktAt b + 1000000 ≤ paceTime t ∧
        t = { s with now := t.now, pwr := { s.pwr with gated := t.pwr.gated } }) ∧
    ∀ ms (rails : List (Nat × Nat)), ms < 65536 → rails.length = 7 → (∀ r ∈ rails, r.1 < 65536 ∧ r.2 < 65536) → devRuns s = true →
      Runs (.telemetrySample ms rails) s fun t => rget t TELEM_SEQ = rget s TELEM_SEQ + 1 ∧ WordsKept s t [TELEM_SEQ] ∧
        mget 0 t.pwr.sample 0 = rget s TELEM_SEQ + 1 ∧ mget 0 t.pwr.sample 1 = BitVec.ofNat 64 (paceTime s) ∧
        mget 0 t.pwr.sample 2 = rget s PACE_SLOT ∧ bitsOf (mget 0 t.pwr.sample 3) 16 16 = ms ∧
        bitsOf (mget 0 t.pwr.sample 3) 0 16 = v ∧ (∀ i, i < 4096 → mget 0 t.pwr.ctrSample i = mget 0 s.pwr.ctr i) ∧
        (flag s TELEM_RING TELEM_RING_EN = false → t = { s with csr := t.csr, pwr := t.pwr }) ∧
        (flag s TELEM_RING TELEM_RING_EN = true → ∀ o, o = fld s TELEM_RING TELEM_RING_BASE * 4096 +
            ((rget s TELEM_SEQ).toNat + 1) % 2 ^ min (fld s TELEM_RING TELEM_RING_SIZE) 12 * 40960 →
          (∀ a, a < o ∨ o + 40960 ≤ a → memByte t.mem.dram a = memByte s.mem.dram a) ∧ t.mem.loc = s.mem.loc ∧ t.core = s.core)

/-- PACE_OVR_BASE, LTN_RING, TELEM_RING and ERR_RING accept a ring in LPDDR5X only, and the error log puts its entries away
(00_scope.md R597). -/
def Obligations.RingsAndTheErrorLog : Prop :=
  ∀ s : State,
    (∀ (w : W64) (p : Nat), p < 16 → CoresFault s PACE_OVR_BASE (fun m => .paceOvrBaseWrite m w) ∧
      CoresFault s (LTN_RING p) (fun m => .ltnRingWrite m p w) ∧ CoresFault s TELEM_RING (fun m => .telemRingWrite m w) ∧
      CoresFault s ERR_RING fun m => .errRingWrite m w) ∧
    (∀ (m : Master) (w : W64) (p : Nat) (n : Nat), masterOk m = true → mayAdmin s m = true → p < 16 → n = bitsOf w 56 4 →
      let fits (len : Nat) : Prop := bitsOf w 48 8 = 0 ∧ bitsOf w 12 36 * 4096 + len ≤ 0xF000000000
      ∀ e ∈ ([(.paceOvrBaseWrite m w, PACE_OVR_BASE, PACE_OVR_PTR, 16 * ringLen n, 0x0D09, 0x20),
          (.ltnRingWrite m p w, LTN_RING p, LTN_PTR p, 32 * ringLen n, 0x0C0A, 0x27),
          (.telemRingWrite m w, TELEM_RING, TELEM_RING, 40960 * 2 ^ min n 12, 0x0C0A, 0x25),
          (.errRingWrite m w, ERR_RING, ERR_PTR, 32 * ringLen n, 0x0C0A, 0x22)] : List (Instr × Nat × Nat × Nat × Nat × Nat)), Reaches s m e.2.1 →
        (fits e.2.2.2.1 → s.log.held = [] → s.log.dropOwed = false → Runs e.1 s fun t =>
          rget t e.2.1 = packW [(bitsOf w 12 44, 12), (n, 56), (bitsOf w 63 1, 63)] ∧
          (e.2.2.1 ≠ e.2.1 → fld t e.2.2.1 ERR_PTR_HEAD = 0 ∧ fld t e.2.2.1 ERR_PTR_TAIL = 0) ∧
          WordsKept s t [e.2.1, e.2.2.1] ∧ t.mem = s.mem ∧ t.core = s.core ∧ t.log = s.log) ∧
        (¬ fits e.2.2.2.1 → Runs e.1 s fun t => rget t e.2.1 = rget s e.2.1 ∧
          (s.log.held = [] → s.log.dropOwed = false → rget t e.2.2.1 = rget s e.2.2.1 ∧
            LogsAs s t e.2.2.2.2.1 e.2.2.2.2.2 .notice 0 ∧ WordsKept s t [PACE_STATUS] ∧ t.mem = s.mem ∧ t.core = s.core))) ∧
    (s.log.inFlight = [] → exec .errlogEntry s = .next s) ∧
    ∀ (e : LogEntry) es, s.log.inFlight = e :: es →
      let heard : Prop := ∀ p, p < 2 → flag s (HOSTIF_PORT_VEC p) HOSTIF_PORT_VEC_ERR_EN = true → hostReach s p = true
      (e.cls ≠ .fatal → Runs .errlogEntry s fun t => (∃ l, t.log.inFlight = es ++ l) ∧ t.core = s.core ∧ (heard →
        stageLocked s (fld s ERR_RING ERR_RING_BASE * 4096 + 32 * errHead s) = false →
        (errOn s = true → errFull s = false → s.log.held = [] →
          fld t ERR_PTR ERR_PTR_HEAD = (errHead s + 1) % errLen s ∧ t.log = { s.log with inFlight := es } ∧
          t.mem = (dramWriteAll (fld s ERR_RING ERR_RING_BASE * 4096 + 32 * errHead s) (entryBytes e) s).mem) ∧
        (errOn s = false → s.log.held.length < 256 → t.log = { s.log with inFlight := es, held := s.log.held ++ [e] } ∧ t.mem = s.mem ∧
          rget t ERR_PTR = rget s ERR_PTR) ∧
        (errOn s = true ∧ s.log.held = [] ∧ errFull s = true ∨ 256 ≤ s.log.held.length →
          t.log = { s.log with inFlight := es, dropOwed := true } ∧ t.mem = s.mem ∧
          fld t ERR_DROP ERR_DROP_DROPPED = satAdd 32 (fld s ERR_DROP ERR_DROP_DROPPED) 1))) ∧
      (e.cls = .fatal → s.log.fatalIdx < 16 → Runs .errlogEntry s fun t => t.mc.compOff = true ∧ t.mc.held = true ∧
        t.mc.fatalNew = true ∧ t.log.fatalIdx = (s.log.fatalIdx + 1) % 16 ∧ t.core = CoreSt.reset ∧
        ∀ j, j < 4 → rget t (ERR_FATAL + 32 * s.log.fatalIdx + 8 * j) = (entryWords e).getD j 0)

/-- Sensors are recalibrated, cores tested, spares rotated, and requests run, wait, end or are refused in their slots
(21_availability.md R558, 21_availability.md R559, 21_availability.md R560, 21_availability.md R561, 21_availability.md R562,
21_availability.md R563, 21_availability.md R564, 21_availability.md R565, 21_availability.md R570, 21_availability.md R571,
21_availability.md R572). -/
def Obligations.BackgroundTestsAndRequests : Prop :=
  ∀ s : State,
    (computePowered s = false → ∀ ok, exec (.hgRecalDue ok) s = .next s) ∧
    (∀ ok h, computePowered s = true → h = s.avl.hgAsked.headD s.avl.hgNext → Runs (.hgRecalDue ok) s fun t =>
      t.avl.hgAsked = s.avl.hgAsked.tail ∧ t.avl.hgNext = (if s.avl.hgAsked = [] then (h + 1) % 1664 else s.avl.hgNext) ∧
      (∀ j, mget false t.avl.hgFailed j = (mget false s.avl.hgFailed j || (!ok && decide (j = h)))) ∧
      (∀ i, i < 16 → slotState s i = 1 ∨ slotState s i = 2 → mget 0 s.avl.reqKind i = 4 → mget 0 s.avl.reqTarget i = h →
        slotState t i = 4 ∧ fld t (AVL_RES i) AVL_RES_FAULT = if ok then 0 else 1) ∧ t.avl.hgHold = some (h, t.now + 2000000) ∧ t.core = s.core ∧ t.mem = s.mem) ∧
    (∀ ph, ph < nPhys →
      (computePowered s = true → coreFree s ph = true → testRuns s ph = false → Runs (.coreTestDue ph) s fun t =>
        mget 0 t.avl.testAt ph ≤ paceTime t ∧
        t = { s with now := t.now, avl := { s.avl with tests := s.avl.tests ++ [⟨ph, 1, none⟩], testAt := t.avl.testAt } }) ∧
      (computePowered s = false ∨ coreFree s ph = false ∨ testRuns s ph = true → exec (.coreTestDue ph) s = .next s) ∧
      ∀ k req, s.avl.tests = [⟨ph, k, req⟩] →
        (mayTest s ph req.isSome = true → commitReaches s ph = false → exec (.coreTestStop ph) s = .next s) ∧
        (mayTest s ph req.isSome = false ∨ commitReaches s ph = true → Runs (.coreTestStop ph) s fun t => t.avl.tests = [] ∧
          mget 0 t.avl.sieveHold ph = 0 ∧ (req = none → s.core.reqs = [] → t.csr = s.csr) ∧
          ∀ i, req = some i → i < 16 → slotState t i = 3 ∧ fld t (AVL_RES i) AVL_RES_CODE = 0x0C01 ∧
            (s.core.reqs = [] → WordsKept s t [AVL_RES i]))) ∧
    (∀ (f : TestFind) k req, testFindOk f = true → s.avl.tests = [⟨f.core, k, req⟩] → mustStop s ⟨f.core, k, req⟩ = false → Runs (.coreTestStepDone f) s fun t =>
      (k < 3 → t.avl.tests = [⟨f.core, k + 1, req⟩]) ∧
      (k = 3 → t.avl.tests = [] ∧ ∀ i, req = some i → i < 16 → slotState t i = 4) ∧
      (k = 1 → f.seq = true → coreRetired s f.core = false → coreRetired t f.core = true ∧ (∃ e ∈ t.log.inFlight, e.code = 0x0C05) ∧
        ∀ i, req = some i → i < 16 → fld t (AVL_RES i) AVL_RES_SEQ_FAIL = 1 ∧ fld t (AVL_RES i) AVL_RES_FAULT = 1) ∧
      (k = 1 → f.seq = false → ∀ ph, coreRetired t ph = coreRetired s ph) ∧
      (k = 2 → ∀ c, c < 8 → f.e0 = 2 ^ c → f.e1 = 0 → mget 0 s.avl.bypass (f.core * 2) = 0 → engineWidth t f.core 0 = 7 ∧
        mget 0 t.avl.bypass (f.core * 2) = c + 1 ∧ ∃ e ∈ t.log.inFlight, e.code = 0x0C06) ∧
      (k = 2 → ∀ c, c < 8 → f.e0 = 2 ^ c → mget 0 s.avl.bypass (f.core * 2) < 16 → mget 0 s.avl.bypass (f.core * 2) ≠ 0 →
        mget 0 s.avl.bypass (f.core * 2) ≠ c + 1 → engineWidth t f.core 0 = 0) ∧
      (k = 3 → ∀ r, f.rows = [r] → (f.core, r.1, r.2.1, r.2.2) ∈ t.avl.rowsBad) ∧ (s.load.init = [] → t.mem = s.mem)) ∧
    (∀ g, g < 1024 →
      (flag s AVL_CFG AVL_CFG_ROTATE_EN = false ∨ ruled s g = true → exec (.spareRotationDue g) s = .next s) ∧
      (flag s AVL_CFG AVL_CFG_ROTATE_EN = true → ruled s g = false → g ∉ s.avl.rotateDue → Runs (.spareRotationDue g) s fun t =>
        mget 0 s.avl.placedAt g + max 1 (fld s AVL_CFG AVL_CFG_ROTATE_H) * 3600 * 10 ^ 10 ≤ paceTime t ∧
        (groupPlots s g = [] → spareOf t g = rotateTo s g) ∧
        (groupPlots s g ≠ [] → t = { s with now := t.now, avl := { s.avl with rotateDue := s.avl.rotateDue ++ [g] } }))) ∧
    (∀ i x force pass, i < 16 → x < 2 ^ 24 → ∀ f ∈ ([fun m => .avlCoreTest m i x force, fun m => .avlPcoreTest m i x force,
        fun m => .avlRetire m i x, fun m => .avlHgCal m i x, fun m => .avlLpddrRetrain m i x, fun m => .avlLpddrTest m i x force pass,
        fun m => .avlCyustLane m i x force, fun m => .avlCyustLoop m i x force, fun m => .avlCancel m i] : List (Master → Instr)),
      CoresFault s (AVL_REQ i) f) ∧
    (∀ (m : Master) (i : Nat), masterOk m = true → i < 16 → Reaches s m (AVL_REQ i) →
      let asked (t : State) (k x st code : Nat) : Prop := mget 0 t.avl.reqKind i = k ∧ mget 0 t.avl.reqTarget i = x ∧
        slotState t i = st ∧ fld t (AVL_RES i) AVL_RES_CODE = code
      let alone (x st code : Nat) (k : Nat) (t : State) : Prop := asked t k x st code ∧ WordsKept s t [AVL_RES i] ∧
        t.core = s.core ∧ t.mem = s.mem ∧ t.link = s.link
      (∀ x force pass, x < 2 ^ 24 → mayAdmin s m = false ∨ slotBusy s i = true → ∀ c ∈ ([.avlCoreTest m i x force,
          .avlPcoreTest m i x force, .avlRetire m i x, .avlHgCal m i x, .avlLpddrRetrain m i x, .avlLpddrTest m i x force pass,
          .avlCyustLane m i x force, .avlCyustLoop m i x force] : List Instr), exec c s = .next s) ∧
      (mayAdmin s m = false → exec (.avlCancel m i) s = .next s) ∧
      (mayAdmin s m = true → slotBusy s i = false → ∀ x force pass, x < 2 ^ 24 →
        (∀ e ∈ ([(.avlPcoreTest m i x force, 2), (.avlRetire m i x, 3), (.avlHgCal m i x, 4), (.avlLpddrRetrain m i x, 5),
            (.avlLpddrTest m i x force pass, 6), (.avlCyustLane m i x force, 7), (.avlCyustLoop m i x force, 8)] : List (Instr × Nat)),
          resourceTaken s e.2 x = true → Runs e.1 s (alone x 5 0x0C02 e.2)) ∧
        (∀ ph, x < nCores → absentCore s x = false → ph = physOf s x → resourceTaken s 1 ph = false →
          isShaded s ph = true ∨ coreRetired s (physAt (groupAt ph) (spareOf s (groupAt ph))) = false →
          ((∀ p, plotOf s x = some p → plotIdle s p = true) → Runs (.avlCoreTest m i x force) s fun t => alone ph 2 0 1 t ∧
            ∃ k, ⟨ph, k, some i⟩ ∈ t.avl.tests) ∧
          (∀ p, plotOf s x = some p → plotIdle s p = false → Runs (.avlCoreTest m i x force) s fun t => alone ph 3 0x0C01 1 t ∧
            t.avl.tests = s.avl.tests)) ∧
        (nCores ≤ x ∨ absentCore s x = true → resourceTaken s 1 nPhys = false → Runs (.avlCoreTest m i x force) s (alone nPhys 5 0x0C04 1)) ∧
        (∀ ph, x < nCores → absentCore s x = false → ph = physOf s x → resourceTaken s 1 ph = false → isShaded s ph = false →
          coreRetired s (physAt (groupAt ph) (spareOf s (groupAt ph))) = true → Runs (.avlCoreTest m i x force) s (alone ph 5 0x0C04 1)) ∧
        (resourceTaken s 2 x = false → (nPhys ≤ x → Runs (.avlPcoreTest m i x force) s (alone x 5 0x0C04 2)) ∧
          (x < nPhys → isShaded s x = true ∨ coreRetired s (physAt (groupAt x) (spareOf s (groupAt x))) = false →
            Runs (.avlPcoreTest m i x force) s fun t => if coreFree s x then alone x 2 0 2 t ∧ ∃ k, ⟨x, k, some i⟩ ∈ t.avl.tests
              else alone x 3 0x0C01 2 t)) ∧
        (resourceTaken s 3 x = false → (nPhys ≤ x → Runs (.avlRetire m i x) s (alone x 5 0x0C04 3)) ∧
          (x < nPhys → Runs (.avlRetire m i x) s fun t => asked t 3 x 4 0 ∧ coreRetired t x = true ∧ (s.load.init = [] → t.mem = s.mem))) ∧
        (resourceTaken s 4 x = false → (1664 ≤ x → Runs (.avlHgCal m i x) s (alone x 5 0x0C04 4)) ∧
          (x < 1664 → Runs (.avlHgCal m i x) s fun t => alone x 1 0 4 t ∧ t.avl.hgAsked = s.avl.hgAsked ++ [x])) ∧
        (resourceTaken s 5 x = false → (64 ≤ x → Runs (.avlLpddrRetrain m i x) s (alone x 5 0x0C04 5)) ∧
          (x < 64 → Runs (.avlLpddrRetrain m i x) s fun t => asked t 5 x 1 0 ∧ WordsKept s t [AVL_RES i] ∧ t.core = s.core ∧
            ∃ e ∈ t.mem.retrDue, e.1 = x)) ∧
        (resourceTaken s 6 x = false → (64 ≤ x → Runs (.avlLpddrTest m i x force pass) s (alone x 5 0x0C04 6)) ∧
          (x < 64 → (∀ c, c < 16 → devCh (x / 16) c ≠ x → chState s (devCh (x / 16) c) = 0) →
            (chState s x = 2 → Runs (.avlLpddrTest m i x false pass) s fun t => alone x 4 0 6 t ∧
              fld t (AVL_RES i) AVL_RES_FAULT = if pass then 0 else 1) ∧
            (chState s x ≠ 2 → Runs (.avlLpddrTest m i x false pass) s (alone x 5 0x0C02 6)) ∧
            (chState s x ≠ 2 → Runs (.avlLpddrTest m i x true true) s fun t => asked t 6 x 4 0 ∧ chState t x = 3 ∧ t.core = s.core)) ∧
          (x < 64 → (∃ c, c < 16 ∧ devCh (x / 16) c ≠ x ∧ chState s (devCh (x / 16) c) ≠ 0) →
            Runs (.avlLpddrTest m i x force pass) s (alone x 5 0x0C04 6))) ∧
        (∀ p l, x = p * 16 + l → l < 16 →
          (resourceTaken s 7 x = false →
            (8 ≤ p ∨ 9 ≤ l → Runs (.avlCyustLane m i x force) s (alone x 5 0x0C04 7)) ∧
            (p < 8 → l = 8 → spareFree s p = true → Runs (.avlCyustLane m i x force) s (alone x 4 0 7)) ∧
            (p < 8 → l < 8 → spareFree s p = true → Runs (.avlCyustLane m i x force) s fun t => asked t 7 x 2 0 ∧
              mget 0 t.link.swap p = l + 1 ∧ fld t (CYUST_LANE p l) CYUST_LANE_STATE = 2 ∧ t.mem = s.mem) ∧
            (p < 8 → l < 9 → spareFree s p = false → Runs (.avlCyustLane m i x false) s (alone x 5 0x0C02 7) ∧
              Runs (.avlCyustLane m i x true) s fun t => asked t 7 x 2 0 ∧ portState t p = 1)) ∧
          (resourceTaken s 8 x = false →
            (8 ≤ p ∨ l = 0 ∨ 4 ≤ l → Runs (.avlCyustLoop m i x force) s (alone x 5 0x0C04 8)) ∧
            (p < 8 → 1 ≤ l → l < 4 → portState s p ≤ 1 → Runs (.avlCyustLoop m i x force) s fun t => asked t 8 x 4 0 ∧
              portState t p = 5 ∧ fld t (CYUST_PORT_CTRL p) CYUST_PORT_CTRL_LOOP = l ∧ t.mem = s.mem) ∧
            (p < 8 → 1 ≤ l → l < 4 → 1 < portState s p → Runs (.avlCyustLoop m i x false) s (alone x 5 0x0C02 8) ∧
              Runs (.avlCyustLoop m i x true) s fun t => asked t 8 x 4 0 ∧ portState t p = 5)))) ∧
      (mayAdmin s m = true → slotState s i = 1 ∨ slotState s i = 3 → Runs (.avlCancel m i) s fun t => rget t (AVL_RES i) = 0 ∧
        WordsKept s t [AVL_RES i] ∧ t = { s with csr := t.csr, avl := t.avl } ∧
        (mget 0 s.avl.reqKind i = 4 → mget 0 s.avl.reqTarget i ∉ t.avl.hgAsked)) ∧
      (slotState s i ≠ 1 → slotState s i ≠ 3 → exec (.avlCancel m i) s = .next s) ∧
      (slotState s i = 3 → epochOn s = false → coreFree s (mget 0 s.avl.reqTarget i) = true → Runs (.deferredRequestRun i) s fun t =>
        slotState t i = 2 ∧ fld t (AVL_RES i) AVL_RES_CODE = 0 ∧ (∃ k, ⟨mget 0 s.avl.reqTarget i, k, some i⟩ ∈ t.avl.tests) ∧
        WordsKept s t [AVL_RES i] ∧ t = { s with csr := t.csr, avl := t.avl }) ∧
      (slotState s i ≠ 3 ∨ epochOn s = true ∨ coreFree s (mget 0 s.avl.reqTarget i) = false → exec (.deferredRequestRun i) s = .next s))
end

