-- ==== Sys2Proof/Laws/NMap.lean ====
section
/-!
SUPPORT. The laws of tables: reading after writing, after keeping some keys, after mapping; and that every operation keeps the
canonical form.
-/
namespace Sys2Proof.Machine
open Sys2Proof

variable {α : Type}

@[simp] theorem mget_nil (d : α) (k : Nat) : mget d [] k = d := rfl

theorem mget_filter (d : α) (p : Nat → Bool) (m : NMap α) (k : Nat) :
    mget d (m.filter fun e => p e.1) k = if p k then mget d m k else d := by
  induction m with
  | nil => simp
  | cons e m ih =>
    obtain ⟨k', v⟩ := e
    by_cases hp : p k' <;> by_cases hk : k' = k <;> simp_all [mget]

@[simp] theorem mget_mkeep (d : α) (p : Nat → Bool) (m : NMap α) (k : Nat) :
    mget d (mkeep p m) k = if p k then mget d m k else d := mget_filter d p m k

theorem mget_mdel (d : α) (m : NMap α) (j k : Nat) : mget d (mdel m j) k = if k = j then d else mget d m k := by
  have h := mget_filter d (fun x => decide (x ≠ j)) m k
  simp only [mdel] at *
  rw [h]
  by_cases hk : k = j <;> simp [hk]

theorem mget_mput (d : α) (m : NMap α) (j k : Nat) (v : α) (h : ∀ e ∈ m, e.1 ≠ j) :
    mget d (mput m j v) k = if k = j then v else mget d m k := by
  induction m with
  | nil =>
    by_cases hk : k = j
    · simp [mput, mget, hk]
    · simp [mput, mget, hk, Ne.symm hk]
  | cons e m ih =>
    obtain ⟨k', v'⟩ := e
    have hk' : k' ≠ j := h (k', v') (by simp)
    have ih := ih fun e he => h e (by simp [he])
    by_cases hlt : j < k'
    · by_cases hk : k = j
      · simp [mput, hlt, mget, hk]
      · simp [mput, hlt, mget, hk, Ne.symm hk]
    · by_cases hk : k = j
      · subst hk; simp [mput, hlt, mget, hk', ih]
      · have ih := ih.trans (if_neg hk)
        by_cases h2 : k' = k
        · subst h2; simp [mput, hlt, mget, hk]
        · simp [mput, hlt, mget, h2, hk, ih]

theorem mdel_ne (m : NMap α) (j : Nat) : ∀ e ∈ mdel m j, e.1 ≠ j := by
  intro e he
  simpa using (List.mem_filter.mp he).2

/-- A table reads at `k` what was last written there, and elsewhere what it read before. -/
@[simp] theorem mget_mset [DecidableEq α] (d : α) (m : NMap α) (j k : Nat) (v : α) :
    mget d (mset d m j v) k = if k = j then v else mget d m k := by
  by_cases hv : v = d
  · subst hv; simp [mset, mget_mdel]
  · simp only [mset, hv, if_false]
    rw [mget_mput d _ j k v (mdel_ne m j), mget_mdel]
    by_cases hk : k = j <;> simp [hk]

/-- Whatever default it is read with, another key keeps its value. -/
theorem mget_mset_ne [DecidableEq α] (d d' : α) (m : NMap α) (j k : Nat) (v : α) (h : k ≠ j) :
    mget d' (mset d m j v) k = mget d' m k := by
  by_cases hv : v = d
  · simp [mset, hv, mget_mdel, h]
  · simp only [mset, hv, if_false]
    rw [mget_mput d' _ j k v (mdel_ne m j), mget_mdel, if_neg h, if_neg h]

theorem mget_mset_same [DecidableEq α] (d : α) (m : NMap α) (k : Nat) (v : α) : mget d (mset d m k v) k = v := by simp

theorem mget_mset_other [DecidableEq α] (d : α) (m : NMap α) (j k : Nat) (v : α) (h : k ≠ j) :
    mget d (mset d m j v) k = mget d m k := by simp [h]

/-! ### The canonical form -/

theorem mwf_tail [DecidableEq α] {d : α} {e : Nat × α} {m : NMap α} (h : mwf d (e :: m) = true) : mwf d m = true := by
  cases m with
  | nil => rfl
  | cons e' m => simp [mwf] at h; exact h.2

/-- Canonical: strictly rising keys and no default listed. -/
theorem mwf_iff [DecidableEq α] (d : α) (m : NMap α) :
    mwf d m = true ↔ m.Pairwise (fun a b => a.1 < b.1) ∧ ∀ e ∈ m, e.2 ≠ d := by
  induction m with
  | nil => simp [mwf]
  | cons e m ih =>
    cases m with
    | nil => simp [mwf]
    | cons e' m =>
      obtain ⟨k, v⟩ := e
      obtain ⟨k', v'⟩ := e'
      simp only [mwf, Bool.and_eq_true, decide_eq_true_eq, ih]
      constructor
      · rintro ⟨⟨hv, hk⟩, hp, hd⟩
        refine ⟨List.pairwise_cons.mpr ⟨?_, hp⟩, ?_⟩
        · intro a ha
          rcases List.mem_cons.mp ha with rfl | ha
          · exact hk
          · exact lt_trans hk ((List.pairwise_cons.mp hp).1 a ha)
        · intro e he
          rcases List.mem_cons.mp he with rfl | he
          · exact hv
          · exact hd e he
      · rintro ⟨hp, hd⟩
        exact ⟨⟨hd (k, v) (by simp), (List.pairwise_cons.mp hp).1 (k', v') (by simp)⟩, (List.pairwise_cons.mp hp).2,
          fun e he => hd e (by simp [List.mem_cons.mp he])⟩

theorem mwf_mkeep [DecidableEq α] (d : α) (p : Nat → Bool) (m : NMap α) (h : mwf d m = true) : mwf d (mkeep p m) = true := by
  rw [mwf_iff] at *
  exact ⟨h.1.filter _, fun e he => h.2 e (List.mem_of_mem_filter he)⟩

theorem mwf_mdel [DecidableEq α] (d : α) (m : NMap α) (k : Nat) (h : mwf d m = true) : mwf d (mdel m k) = true := by
  rw [mwf_iff] at *
  exact ⟨h.1.filter _, fun e he => h.2 e (List.mem_of_mem_filter he)⟩

theorem mem_mput (m : NMap α) (k : Nat) (v : α) (e : Nat × α) : e ∈ mput m k v ↔ e = (k, v) ∨ e ∈ m := by
  induction m with
  | nil => simp [mput]
  | cons e' m ih =>
    obtain ⟨k', v'⟩ := e'
    by_cases h : k < k' <;> simp [mput, h, ih]
    tauto

theorem mput_pairwise (m : NMap α) (k : Nat) (v : α) (h : m.Pairwise fun a b => a.1 < b.1) (hk : ∀ e ∈ m, e.1 ≠ k) :
    (mput m k v).Pairwise fun a b => a.1 < b.1 := by
  induction m with
  | nil => simp [mput]
  | cons e m ih =>
    obtain ⟨k', v'⟩ := e
    have hc := List.pairwise_cons.mp h
    have hne : k' ≠ k := hk (k', v') (by simp)
    by_cases hlt : k < k'
    · simp only [mput, hlt, if_true]
      refine List.pairwise_cons.mpr ⟨?_, h⟩
      intro a ha
      rcases List.mem_cons.mp ha with rfl | ha
      · exact hlt
      · exact lt_trans hlt (hc.1 a ha)
    · simp only [mput, hlt, if_false]
      refine List.pairwise_cons.mpr ⟨?_, ih hc.2 fun e he => hk e (by simp [he])⟩
      intro a ha
      rcases (mem_mput m k v a).mp ha with rfl | ha
      · show k' < k; omega
      · exact hc.1 a ha

/-- Writing keeps the canonical form. -/
theorem mwf_mset [DecidableEq α] (d : α) (m : NMap α) (k : Nat) (v : α) (h : mwf d m = true) : mwf d (mset d m k v) = true := by
  by_cases hv : v = d
  · simpa [mset, hv] using mwf_mdel d m k h
  · have hd := mwf_mdel d m k h
    rw [mwf_iff] at *
    simp only [mset, hv, if_false]
    refine ⟨mput_pairwise _ k v hd.1 (mdel_ne m k), fun e he => ?_⟩
    rcases (mem_mput _ k v e).mp he with rfl | he
    · exact hv
    · exact hd.2 e he

theorem mmap_mem [DecidableEq α] (d : α) (p : Nat → Bool) (f : α → α) (m : NMap α) (e : Nat × α) (h : e ∈ mmap d p f m) :
    e.2 ≠ d ∧ ∃ x ∈ m, x.1 = e.1 := by
  induction m with
  | nil => simp [mmap] at h
  | cons x m ih =>
    obtain ⟨k, v⟩ := x
    simp only [mmap] at h
    by_cases hd : (if p k then f v else v) = d
    · rw [if_pos hd] at h
      obtain ⟨h1, x, hx, h2⟩ := ih (List.mem_of_mem_filter h)
      exact ⟨h1, x, by simp [hx], h2⟩
    · rw [if_neg hd] at h
      rcases List.mem_cons.mp h with rfl | h
      · exact ⟨hd, (k, v), by simp, rfl⟩
      · obtain ⟨h1, x, hx, h2⟩ := ih h
        exact ⟨h1, x, by simp [hx], h2⟩

theorem mwf_mmap [DecidableEq α] (d : α) (p : Nat → Bool) (f : α → α) (m : NMap α) (h : mwf d m = true) :
    mwf d (mmap d p f m) = true := by
  induction m with
  | nil => rfl
  | cons x m ih =>
    obtain ⟨k, v⟩ := x
    have ht := ih (mwf_tail h)
    simp only [mmap]
    by_cases hd : (if p k then f v else v) = d
    · rw [if_pos hd]; exact mwf_mdel d _ k ht
    · rw [if_neg hd, mwf_iff] at *
      refine ⟨List.pairwise_cons.mpr ⟨fun a ha => ?_, ht.1⟩, fun e he => ?_⟩
      · obtain ⟨-, x, hx, hxa⟩ := mmap_mem d p f m a ha
        exact hxa ▸ (List.pairwise_cons.mp h.1).1 x hx
      · rcases List.mem_cons.mp he with rfl | he
        · exact hd
        · exact ht.2 e he

/-- Where `f` leaves the default alone, mapping maps what is read. -/
theorem mget_mmap [DecidableEq α] (d : α) (p : Nat → Bool) (f : α → α) (hf : f d = d) (m : NMap α) (k : Nat) :
    mget d (mmap d p f m) k = if p k then f (mget d m k) else mget d m k := by
  induction m with
  | nil => by_cases hp : p k <;> simp [mmap, mget, hp, hf]
  | cons x m ih =>
    obtain ⟨k', v⟩ := x
    simp only [mmap]
    by_cases hd : (if p k' then f v else v) = d
    · rw [if_pos hd, mget_mdel]
      by_cases hk : k = k'
      · subst hk
        rw [if_pos rfl]
        by_cases hp : p k <;> simp_all [mget]
      · rw [if_neg hk, ih]; simp [mget, Ne.symm hk]
    · rw [if_neg hd]
      by_cases hk : k' = k
      · subst hk; simp only [mget, if_true]
      · simp only [mget, if_neg hk, ih]

end Sys2Proof.Machine
end

