-- ==== Sys2Proof/Laws/State.lean ====
section
/-!
SUPPORT. What each shared operation on the state leaves alone: one lemma per operation and field.
-/
namespace Sys2Proof.Machine
open Sys2Proof

variable (s : State)

@[simp] theorem rset_pending (off : Nat) (v : W64) : (rset s off v).pending = s.pending := Eq.trans rfl rfl
@[simp] theorem rset_now (off : Nat) (v : W64) : (rset s off v).now = s.now := Eq.trans rfl rfl
@[simp] theorem rset_free (off : Nat) (v : W64) : (rset s off v).free = s.free := Eq.trans rfl rfl
@[simp] theorem rset_out (off : Nat) (v : W64) : (rset s off v).out = s.out := Eq.trans rfl rfl
@[simp] theorem rset_log (off : Nat) (v : W64) : (rset s off v).log = s.log := Eq.trans rfl rfl
@[simp] theorem rset_core (off : Nat) (v : W64) : (rset s off v).core = s.core := Eq.trans rfl rfl
@[simp] theorem rset_pace (off : Nat) (v : W64) : (rset s off v).pace = s.pace := Eq.trans rfl rfl
@[simp] theorem rset_mem (off : Nat) (v : W64) : (rset s off v).mem = s.mem := Eq.trans rfl rfl
@[simp] theorem rset_avl (off : Nat) (v : W64) : (rset s off v).avl = s.avl := Eq.trans rfl rfl
@[simp] theorem rset_strm (off : Nat) (v : W64) : (rset s off v).strm = s.strm := Eq.trans rfl rfl
@[simp] theorem rset_sync (off : Nat) (v : W64) : (rset s off v).sync = s.sync := Eq.trans rfl rfl
@[simp] theorem rset_host (off : Nat) (v : W64) : (rset s off v).host = s.host := Eq.trans rfl rfl
@[simp] theorem rset_loam (off : Nat) (v : W64) : (rset s off v).loam = s.loam := Eq.trans rfl rfl
@[simp] theorem rset_link (off : Nat) (v : W64) : (rset s off v).link = s.link := Eq.trans rfl rfl
@[simp] theorem rset_net (off : Nat) (v : W64) : (rset s off v).net = s.net := Eq.trans rfl rfl
@[simp] theorem rset_pwr (off : Nat) (v : W64) : (rset s off v).pwr = s.pwr := Eq.trans rfl rfl
@[simp] theorem rset_load (off : Nat) (v : W64) : (rset s off v).load = s.load := Eq.trans rfl rfl
@[simp] theorem rset_mc (off : Nat) (v : W64) : (rset s off v).mc = s.mc := Eq.trans rfl rfl

@[simp] theorem setFld_pending (r : Nat) (f : Fld) (x : Nat) : (setFld s r f x).pending = s.pending := Eq.trans rfl rfl
@[simp] theorem setFld_now (r : Nat) (f : Fld) (x : Nat) : (setFld s r f x).now = s.now := Eq.trans rfl rfl
@[simp] theorem setFld_free (r : Nat) (f : Fld) (x : Nat) : (setFld s r f x).free = s.free := Eq.trans rfl rfl
@[simp] theorem setFld_out (r : Nat) (f : Fld) (x : Nat) : (setFld s r f x).out = s.out := Eq.trans rfl rfl
@[simp] theorem setFld_log (r : Nat) (f : Fld) (x : Nat) : (setFld s r f x).log = s.log := Eq.trans rfl rfl
@[simp] theorem setFld_core (r : Nat) (f : Fld) (x : Nat) : (setFld s r f x).core = s.core := Eq.trans rfl rfl
@[simp] theorem setFld_pace (r : Nat) (f : Fld) (x : Nat) : (setFld s r f x).pace = s.pace := Eq.trans rfl rfl
@[simp] theorem setFld_mem (r : Nat) (f : Fld) (x : Nat) : (setFld s r f x).mem = s.mem := Eq.trans rfl rfl
@[simp] theorem setFld_avl (r : Nat) (f : Fld) (x : Nat) : (setFld s r f x).avl = s.avl := Eq.trans rfl rfl
@[simp] theorem setFld_strm (r : Nat) (f : Fld) (x : Nat) : (setFld s r f x).strm = s.strm := Eq.trans rfl rfl
@[simp] theorem setFld_sync (r : Nat) (f : Fld) (x : Nat) : (setFld s r f x).sync = s.sync := Eq.trans rfl rfl
@[simp] theorem setFld_host (r : Nat) (f : Fld) (x : Nat) : (setFld s r f x).host = s.host := Eq.trans rfl rfl
@[simp] theorem setFld_loam (r : Nat) (f : Fld) (x : Nat) : (setFld s r f x).loam = s.loam := Eq.trans rfl rfl
@[simp] theorem setFld_link (r : Nat) (f : Fld) (x : Nat) : (setFld s r f x).link = s.link := Eq.trans rfl rfl
@[simp] theorem setFld_net (r : Nat) (f : Fld) (x : Nat) : (setFld s r f x).net = s.net := Eq.trans rfl rfl
@[simp] theorem setFld_pwr (r : Nat) (f : Fld) (x : Nat) : (setFld s r f x).pwr = s.pwr := Eq.trans rfl rfl
@[simp] theorem setFld_load (r : Nat) (f : Fld) (x : Nat) : (setFld s r f x).load = s.load := Eq.trans rfl rfl
@[simp] theorem setFld_mc (r : Nat) (f : Fld) (x : Nat) : (setFld s r f x).mc = s.mc := Eq.trans rfl rfl

@[simp] theorem bumpFld_pending (r : Nat) (f : Fld) (x : Nat) : (bumpFld s r f x).pending = s.pending := Eq.trans rfl rfl
@[simp] theorem bumpFld_now (r : Nat) (f : Fld) (x : Nat) : (bumpFld s r f x).now = s.now := Eq.trans rfl rfl
@[simp] theorem bumpFld_free (r : Nat) (f : Fld) (x : Nat) : (bumpFld s r f x).free = s.free := Eq.trans rfl rfl
@[simp] theorem bumpFld_out (r : Nat) (f : Fld) (x : Nat) : (bumpFld s r f x).out = s.out := Eq.trans rfl rfl
@[simp] theorem bumpFld_log (r : Nat) (f : Fld) (x : Nat) : (bumpFld s r f x).log = s.log := Eq.trans rfl rfl
@[simp] theorem bumpFld_core (r : Nat) (f : Fld) (x : Nat) : (bumpFld s r f x).core = s.core := Eq.trans rfl rfl
@[simp] theorem bumpFld_pace (r : Nat) (f : Fld) (x : Nat) : (bumpFld s r f x).pace = s.pace := Eq.trans rfl rfl
@[simp] theorem bumpFld_mem (r : Nat) (f : Fld) (x : Nat) : (bumpFld s r f x).mem = s.mem := Eq.trans rfl rfl
@[simp] theorem bumpFld_avl (r : Nat) (f : Fld) (x : Nat) : (bumpFld s r f x).avl = s.avl := Eq.trans rfl rfl
@[simp] theorem bumpFld_strm (r : Nat) (f : Fld) (x : Nat) : (bumpFld s r f x).strm = s.strm := Eq.trans rfl rfl
@[simp] theorem bumpFld_sync (r : Nat) (f : Fld) (x : Nat) : (bumpFld s r f x).sync = s.sync := Eq.trans rfl rfl
@[simp] theorem bumpFld_host (r : Nat) (f : Fld) (x : Nat) : (bumpFld s r f x).host = s.host := Eq.trans rfl rfl
@[simp] theorem bumpFld_loam (r : Nat) (f : Fld) (x : Nat) : (bumpFld s r f x).loam = s.loam := Eq.trans rfl rfl
@[simp] theorem bumpFld_link (r : Nat) (f : Fld) (x : Nat) : (bumpFld s r f x).link = s.link := Eq.trans rfl rfl
@[simp] theorem bumpFld_net (r : Nat) (f : Fld) (x : Nat) : (bumpFld s r f x).net = s.net := Eq.trans rfl rfl
@[simp] theorem bumpFld_pwr (r : Nat) (f : Fld) (x : Nat) : (bumpFld s r f x).pwr = s.pwr := Eq.trans rfl rfl
@[simp] theorem bumpFld_load (r : Nat) (f : Fld) (x : Nat) : (bumpFld s r f x).load = s.load := Eq.trans rfl rfl
@[simp] theorem bumpFld_mc (r : Nat) (f : Fld) (x : Nat) : (bumpFld s r f x).mc = s.mc := Eq.trans rfl rfl

@[simp] theorem satFld_pending (r : Nat) (f : Fld) (x : Nat) : (satFld s r f x).pending = s.pending := Eq.trans rfl rfl
@[simp] theorem satFld_now (r : Nat) (f : Fld) (x : Nat) : (satFld s r f x).now = s.now := Eq.trans rfl rfl
@[simp] theorem satFld_free (r : Nat) (f : Fld) (x : Nat) : (satFld s r f x).free = s.free := Eq.trans rfl rfl
@[simp] theorem satFld_out (r : Nat) (f : Fld) (x : Nat) : (satFld s r f x).out = s.out := Eq.trans rfl rfl
@[simp] theorem satFld_log (r : Nat) (f : Fld) (x : Nat) : (satFld s r f x).log = s.log := Eq.trans rfl rfl
@[simp] theorem satFld_core (r : Nat) (f : Fld) (x : Nat) : (satFld s r f x).core = s.core := Eq.trans rfl rfl
@[simp] theorem satFld_pace (r : Nat) (f : Fld) (x : Nat) : (satFld s r f x).pace = s.pace := Eq.trans rfl rfl
@[simp] theorem satFld_mem (r : Nat) (f : Fld) (x : Nat) : (satFld s r f x).mem = s.mem := Eq.trans rfl rfl
@[simp] theorem satFld_avl (r : Nat) (f : Fld) (x : Nat) : (satFld s r f x).avl = s.avl := Eq.trans rfl rfl
@[simp] theorem satFld_strm (r : Nat) (f : Fld) (x : Nat) : (satFld s r f x).strm = s.strm := Eq.trans rfl rfl
@[simp] theorem satFld_sync (r : Nat) (f : Fld) (x : Nat) : (satFld s r f x).sync = s.sync := Eq.trans rfl rfl
@[simp] theorem satFld_host (r : Nat) (f : Fld) (x : Nat) : (satFld s r f x).host = s.host := Eq.trans rfl rfl
@[simp] theorem satFld_loam (r : Nat) (f : Fld) (x : Nat) : (satFld s r f x).loam = s.loam := Eq.trans rfl rfl
@[simp] theorem satFld_link (r : Nat) (f : Fld) (x : Nat) : (satFld s r f x).link = s.link := Eq.trans rfl rfl
@[simp] theorem satFld_net (r : Nat) (f : Fld) (x : Nat) : (satFld s r f x).net = s.net := Eq.trans rfl rfl
@[simp] theorem satFld_pwr (r : Nat) (f : Fld) (x : Nat) : (satFld s r f x).pwr = s.pwr := Eq.trans rfl rfl
@[simp] theorem satFld_load (r : Nat) (f : Fld) (x : Nat) : (satFld s r f x).load = s.load := Eq.trans rfl rfl
@[simp] theorem satFld_mc (r : Nat) (f : Fld) (x : Nat) : (satFld s r f x).mc = s.mc := Eq.trans rfl rfl

@[simp] theorem orFld_pending (r : Nat) (f : Fld) (x : Nat) : (orFld s r f x).pending = s.pending := Eq.trans rfl rfl
@[simp] theorem orFld_now (r : Nat) (f : Fld) (x : Nat) : (orFld s r f x).now = s.now := Eq.trans rfl rfl
@[simp] theorem orFld_free (r : Nat) (f : Fld) (x : Nat) : (orFld s r f x).free = s.free := Eq.trans rfl rfl
@[simp] theorem orFld_out (r : Nat) (f : Fld) (x : Nat) : (orFld s r f x).out = s.out := Eq.trans rfl rfl
@[simp] theorem orFld_log (r : Nat) (f : Fld) (x : Nat) : (orFld s r f x).log = s.log := Eq.trans rfl rfl
@[simp] theorem orFld_core (r : Nat) (f : Fld) (x : Nat) : (orFld s r f x).core = s.core := Eq.trans rfl rfl
@[simp] theorem orFld_pace (r : Nat) (f : Fld) (x : Nat) : (orFld s r f x).pace = s.pace := Eq.trans rfl rfl
@[simp] theorem orFld_mem (r : Nat) (f : Fld) (x : Nat) : (orFld s r f x).mem = s.mem := Eq.trans rfl rfl
@[simp] theorem orFld_avl (r : Nat) (f : Fld) (x : Nat) : (orFld s r f x).avl = s.avl := Eq.trans rfl rfl
@[simp] theorem orFld_strm (r : Nat) (f : Fld) (x : Nat) : (orFld s r f x).strm = s.strm := Eq.trans rfl rfl
@[simp] theorem orFld_sync (r : Nat) (f : Fld) (x : Nat) : (orFld s r f x).sync = s.sync := Eq.trans rfl rfl
@[simp] theorem orFld_host (r : Nat) (f : Fld) (x : Nat) : (orFld s r f x).host = s.host := Eq.trans rfl rfl
@[simp] theorem orFld_loam (r : Nat) (f : Fld) (x : Nat) : (orFld s r f x).loam = s.loam := Eq.trans rfl rfl
@[simp] theorem orFld_link (r : Nat) (f : Fld) (x : Nat) : (orFld s r f x).link = s.link := Eq.trans rfl rfl
@[simp] theorem orFld_net (r : Nat) (f : Fld) (x : Nat) : (orFld s r f x).net = s.net := Eq.trans rfl rfl
@[simp] theorem orFld_pwr (r : Nat) (f : Fld) (x : Nat) : (orFld s r f x).pwr = s.pwr := Eq.trans rfl rfl
@[simp] theorem orFld_load (r : Nat) (f : Fld) (x : Nat) : (orFld s r f x).load = s.load := Eq.trans rfl rfl
@[simp] theorem orFld_mc (r : Nat) (f : Fld) (x : Nat) : (orFld s r f x).mc = s.mc := Eq.trans rfl rfl

@[simp] theorem resetRegs_pending (ds : List Domain) (p : Nat → Bool) : (resetRegs ds p s).pending = s.pending := Eq.trans rfl rfl
@[simp] theorem resetRegs_now (ds : List Domain) (p : Nat → Bool) : (resetRegs ds p s).now = s.now := Eq.trans rfl rfl
@[simp] theorem resetRegs_free (ds : List Domain) (p : Nat → Bool) : (resetRegs ds p s).free = s.free := Eq.trans rfl rfl
@[simp] theorem resetRegs_out (ds : List Domain) (p : Nat → Bool) : (resetRegs ds p s).out = s.out := Eq.trans rfl rfl
@[simp] theorem resetRegs_log (ds : List Domain) (p : Nat → Bool) : (resetRegs ds p s).log = s.log := Eq.trans rfl rfl
@[simp] theorem resetRegs_core (ds : List Domain) (p : Nat → Bool) : (resetRegs ds p s).core = s.core := Eq.trans rfl rfl
@[simp] theorem resetRegs_pace (ds : List Domain) (p : Nat → Bool) : (resetRegs ds p s).pace = s.pace := Eq.trans rfl rfl
@[simp] theorem resetRegs_mem (ds : List Domain) (p : Nat → Bool) : (resetRegs ds p s).mem = s.mem := Eq.trans rfl rfl
@[simp] theorem resetRegs_avl (ds : List Domain) (p : Nat → Bool) : (resetRegs ds p s).avl = s.avl := Eq.trans rfl rfl
@[simp] theorem resetRegs_strm (ds : List Domain) (p : Nat → Bool) : (resetRegs ds p s).strm = s.strm := Eq.trans rfl rfl
@[simp] theorem resetRegs_sync (ds : List Domain) (p : Nat → Bool) : (resetRegs ds p s).sync = s.sync := Eq.trans rfl rfl
@[simp] theorem resetRegs_host (ds : List Domain) (p : Nat → Bool) : (resetRegs ds p s).host = s.host := Eq.trans rfl rfl
@[simp] theorem resetRegs_loam (ds : List Domain) (p : Nat → Bool) : (resetRegs ds p s).loam = s.loam := Eq.trans rfl rfl
@[simp] theorem resetRegs_link (ds : List Domain) (p : Nat → Bool) : (resetRegs ds p s).link = s.link := Eq.trans rfl rfl
@[simp] theorem resetRegs_net (ds : List Domain) (p : Nat → Bool) : (resetRegs ds p s).net = s.net := Eq.trans rfl rfl
@[simp] theorem resetRegs_pwr (ds : List Domain) (p : Nat → Bool) : (resetRegs ds p s).pwr = s.pwr := Eq.trans rfl rfl
@[simp] theorem resetRegs_load (ds : List Domain) (p : Nat → Bool) : (resetRegs ds p s).load = s.load := Eq.trans rfl rfl
@[simp] theorem resetRegs_mc (ds : List Domain) (p : Nat → Bool) : (resetRegs ds p s).mc = s.mc := Eq.trans rfl rfl

@[simp] theorem shadowGen_pending : (shadowGen s).pending = s.pending := bumpFld_pending s _ _ _
@[simp] theorem shadowGen_now : (shadowGen s).now = s.now := bumpFld_now s _ _ _
@[simp] theorem shadowGen_free : (shadowGen s).free = s.free := bumpFld_free s _ _ _
@[simp] theorem shadowGen_out : (shadowGen s).out = s.out := bumpFld_out s _ _ _
@[simp] theorem shadowGen_log : (shadowGen s).log = s.log := bumpFld_log s _ _ _
@[simp] theorem shadowGen_core : (shadowGen s).core = s.core := bumpFld_core s _ _ _
@[simp] theorem shadowGen_pace : (shadowGen s).pace = s.pace := bumpFld_pace s _ _ _
@[simp] theorem shadowGen_mem : (shadowGen s).mem = s.mem := bumpFld_mem s _ _ _
@[simp] theorem shadowGen_avl : (shadowGen s).avl = s.avl := bumpFld_avl s _ _ _
@[simp] theorem shadowGen_strm : (shadowGen s).strm = s.strm := bumpFld_strm s _ _ _
@[simp] theorem shadowGen_sync : (shadowGen s).sync = s.sync := bumpFld_sync s _ _ _
@[simp] theorem shadowGen_host : (shadowGen s).host = s.host := bumpFld_host s _ _ _
@[simp] theorem shadowGen_loam : (shadowGen s).loam = s.loam := bumpFld_loam s _ _ _
@[simp] theorem shadowGen_link : (shadowGen s).link = s.link := bumpFld_link s _ _ _
@[simp] theorem shadowGen_net : (shadowGen s).net = s.net := bumpFld_net s _ _ _
@[simp] theorem shadowGen_pwr : (shadowGen s).pwr = s.pwr := bumpFld_pwr s _ _ _
@[simp] theorem shadowGen_load : (shadowGen s).load = s.load := bumpFld_load s _ _ _
@[simp] theorem shadowGen_mc : (shadowGen s).mc = s.mc := bumpFld_mc s _ _ _

@[simp] theorem emit_pending (o : Output) : (emit o s).pending = s.pending := Eq.trans rfl rfl
@[simp] theorem emit_now (o : Output) : (emit o s).now = s.now := Eq.trans rfl rfl
@[simp] theorem emit_free (o : Output) : (emit o s).free = s.free := Eq.trans rfl rfl
@[simp] theorem emit_csr (o : Output) : (emit o s).csr = s.csr := Eq.trans rfl rfl
@[simp] theorem emit_log (o : Output) : (emit o s).log = s.log := Eq.trans rfl rfl
@[simp] theorem emit_core (o : Output) : (emit o s).core = s.core := Eq.trans rfl rfl
@[simp] theorem emit_pace (o : Output) : (emit o s).pace = s.pace := Eq.trans rfl rfl
@[simp] theorem emit_mem (o : Output) : (emit o s).mem = s.mem := Eq.trans rfl rfl
@[simp] theorem emit_avl (o : Output) : (emit o s).avl = s.avl := Eq.trans rfl rfl
@[simp] theorem emit_strm (o : Output) : (emit o s).strm = s.strm := Eq.trans rfl rfl
@[simp] theorem emit_sync (o : Output) : (emit o s).sync = s.sync := Eq.trans rfl rfl
@[simp] theorem emit_host (o : Output) : (emit o s).host = s.host := Eq.trans rfl rfl
@[simp] theorem emit_loam (o : Output) : (emit o s).loam = s.loam := Eq.trans rfl rfl
@[simp] theorem emit_link (o : Output) : (emit o s).link = s.link := Eq.trans rfl rfl
@[simp] theorem emit_net (o : Output) : (emit o s).net = s.net := Eq.trans rfl rfl
@[simp] theorem emit_pwr (o : Output) : (emit o s).pwr = s.pwr := Eq.trans rfl rfl
@[simp] theorem emit_load (o : Output) : (emit o s).load = s.load := Eq.trans rfl rfl
@[simp] theorem emit_mc (o : Output) : (emit o s).mc = s.mc := Eq.trans rfl rfl

@[simp] theorem bumpCtr_pending (i n : Nat) : (bumpCtr i n s).pending = s.pending := Eq.trans rfl rfl
@[simp] theorem bumpCtr_now (i n : Nat) : (bumpCtr i n s).now = s.now := Eq.trans rfl rfl
@[simp] theorem bumpCtr_free (i n : Nat) : (bumpCtr i n s).free = s.free := Eq.trans rfl rfl
@[simp] theorem bumpCtr_csr (i n : Nat) : (bumpCtr i n s).csr = s.csr := Eq.trans rfl rfl
@[simp] theorem bumpCtr_out (i n : Nat) : (bumpCtr i n s).out = s.out := Eq.trans rfl rfl
@[simp] theorem bumpCtr_log (i n : Nat) : (bumpCtr i n s).log = s.log := Eq.trans rfl rfl
@[simp] theorem bumpCtr_core (i n : Nat) : (bumpCtr i n s).core = s.core := Eq.trans rfl rfl
@[simp] theorem bumpCtr_pace (i n : Nat) : (bumpCtr i n s).pace = s.pace := Eq.trans rfl rfl
@[simp] theorem bumpCtr_mem (i n : Nat) : (bumpCtr i n s).mem = s.mem := Eq.trans rfl rfl
@[simp] theorem bumpCtr_avl (i n : Nat) : (bumpCtr i n s).avl = s.avl := Eq.trans rfl rfl
@[simp] theorem bumpCtr_strm (i n : Nat) : (bumpCtr i n s).strm = s.strm := Eq.trans rfl rfl
@[simp] theorem bumpCtr_sync (i n : Nat) : (bumpCtr i n s).sync = s.sync := Eq.trans rfl rfl
@[simp] theorem bumpCtr_host (i n : Nat) : (bumpCtr i n s).host = s.host := Eq.trans rfl rfl
@[simp] theorem bumpCtr_loam (i n : Nat) : (bumpCtr i n s).loam = s.loam := Eq.trans rfl rfl
@[simp] theorem bumpCtr_link (i n : Nat) : (bumpCtr i n s).link = s.link := Eq.trans rfl rfl
@[simp] theorem bumpCtr_net (i n : Nat) : (bumpCtr i n s).net = s.net := Eq.trans rfl rfl
@[simp] theorem bumpCtr_load (i n : Nat) : (bumpCtr i n s).load = s.load := Eq.trans rfl rfl
@[simp] theorem bumpCtr_mc (i n : Nat) : (bumpCtr i n s).mc = s.mc := Eq.trans rfl rfl

@[simp] theorem bumpKib_pending (i n : Nat) : (bumpKib i n s).pending = s.pending := Eq.trans rfl rfl
@[simp] theorem bumpKib_now (i n : Nat) : (bumpKib i n s).now = s.now := Eq.trans rfl rfl
@[simp] theorem bumpKib_free (i n : Nat) : (bumpKib i n s).free = s.free := Eq.trans rfl rfl
@[simp] theorem bumpKib_csr (i n : Nat) : (bumpKib i n s).csr = s.csr := Eq.trans rfl rfl
@[simp] theorem bumpKib_out (i n : Nat) : (bumpKib i n s).out = s.out := Eq.trans rfl rfl
@[simp] theorem bumpKib_log (i n : Nat) : (bumpKib i n s).log = s.log := Eq.trans rfl rfl
@[simp] theorem bumpKib_core (i n : Nat) : (bumpKib i n s).core = s.core := Eq.trans rfl rfl
@[simp] theorem bumpKib_pace (i n : Nat) : (bumpKib i n s).pace = s.pace := Eq.trans rfl rfl
@[simp] theorem bumpKib_mem (i n : Nat) : (bumpKib i n s).mem = s.mem := Eq.trans rfl rfl
@[simp] theorem bumpKib_avl (i n : Nat) : (bumpKib i n s).avl = s.avl := Eq.trans rfl rfl
@[simp] theorem bumpKib_strm (i n : Nat) : (bumpKib i n s).strm = s.strm := Eq.trans rfl rfl
@[simp] theorem bumpKib_sync (i n : Nat) : (bumpKib i n s).sync = s.sync := Eq.trans rfl rfl
@[simp] theorem bumpKib_host (i n : Nat) : (bumpKib i n s).host = s.host := Eq.trans rfl rfl
@[simp] theorem bumpKib_loam (i n : Nat) : (bumpKib i n s).loam = s.loam := Eq.trans rfl rfl
@[simp] theorem bumpKib_link (i n : Nat) : (bumpKib i n s).link = s.link := Eq.trans rfl rfl
@[simp] theorem bumpKib_net (i n : Nat) : (bumpKib i n s).net = s.net := Eq.trans rfl rfl
@[simp] theorem bumpKib_load (i n : Nat) : (bumpKib i n s).load = s.load := Eq.trans rfl rfl
@[simp] theorem bumpKib_mc (i n : Nat) : (bumpKib i n s).mc = s.mc := Eq.trans rfl rfl

@[simp] theorem logAs_pending (c : ErrClass) (code src : Nat) (p : Option Nat) (i : Nat) : (logAs c code src p i s).pending = s.pending := Eq.trans rfl rfl
@[simp] theorem logAs_now (c : ErrClass) (code src : Nat) (p : Option Nat) (i : Nat) : (logAs c code src p i s).now = s.now := Eq.trans rfl rfl
@[simp] theorem logAs_free (c : ErrClass) (code src : Nat) (p : Option Nat) (i : Nat) : (logAs c code src p i s).free = s.free := Eq.trans rfl rfl
@[simp] theorem logAs_csr (c : ErrClass) (code src : Nat) (p : Option Nat) (i : Nat) : (logAs c code src p i s).csr = s.csr := Eq.trans rfl rfl
@[simp] theorem logAs_out (c : ErrClass) (code src : Nat) (p : Option Nat) (i : Nat) : (logAs c code src p i s).out = s.out := Eq.trans rfl rfl
@[simp] theorem logAs_core (c : ErrClass) (code src : Nat) (p : Option Nat) (i : Nat) : (logAs c code src p i s).core = s.core := Eq.trans rfl rfl
@[simp] theorem logAs_pace (c : ErrClass) (code src : Nat) (p : Option Nat) (i : Nat) : (logAs c code src p i s).pace = s.pace := Eq.trans rfl rfl
@[simp] theorem logAs_mem (c : ErrClass) (code src : Nat) (p : Option Nat) (i : Nat) : (logAs c code src p i s).mem = s.mem := Eq.trans rfl rfl
@[simp] theorem logAs_avl (c : ErrClass) (code src : Nat) (p : Option Nat) (i : Nat) : (logAs c code src p i s).avl = s.avl := Eq.trans rfl rfl
@[simp] theorem logAs_strm (c : ErrClass) (code src : Nat) (p : Option Nat) (i : Nat) : (logAs c code src p i s).strm = s.strm := Eq.trans rfl rfl
@[simp] theorem logAs_sync (c : ErrClass) (code src : Nat) (p : Option Nat) (i : Nat) : (logAs c code src p i s).sync = s.sync := Eq.trans rfl rfl
@[simp] theorem logAs_host (c : ErrClass) (code src : Nat) (p : Option Nat) (i : Nat) : (logAs c code src p i s).host = s.host := Eq.trans rfl rfl
@[simp] theorem logAs_loam (c : ErrClass) (code src : Nat) (p : Option Nat) (i : Nat) : (logAs c code src p i s).loam = s.loam := Eq.trans rfl rfl
@[simp] theorem logAs_link (c : ErrClass) (code src : Nat) (p : Option Nat) (i : Nat) : (logAs c code src p i s).link = s.link := Eq.trans rfl rfl
@[simp] theorem logAs_net (c : ErrClass) (code src : Nat) (p : Option Nat) (i : Nat) : (logAs c code src p i s).net = s.net := Eq.trans rfl rfl
@[simp] theorem logAs_pwr (c : ErrClass) (code src : Nat) (p : Option Nat) (i : Nat) : (logAs c code src p i s).pwr = s.pwr := Eq.trans rfl rfl
@[simp] theorem logAs_load (c : ErrClass) (code src : Nat) (p : Option Nat) (i : Nat) : (logAs c code src p i s).load = s.load := Eq.trans rfl rfl
@[simp] theorem logAs_mc (c : ErrClass) (code src : Nat) (p : Option Nat) (i : Nat) : (logAs c code src p i s).mc = s.mc := Eq.trans rfl rfl

@[simp] theorem logErr_pending (code src : Nat) (p : Option Nat) (i : Nat) : (logErr code src p i s).pending = s.pending := Eq.trans rfl rfl
@[simp] theorem logErr_now (code src : Nat) (p : Option Nat) (i : Nat) : (logErr code src p i s).now = s.now := Eq.trans rfl rfl
@[simp] theorem logErr_free (code src : Nat) (p : Option Nat) (i : Nat) : (logErr code src p i s).free = s.free := Eq.trans rfl rfl
@[simp] theorem logErr_csr (code src : Nat) (p : Option Nat) (i : Nat) : (logErr code src p i s).csr = s.csr := Eq.trans rfl rfl
@[simp] theorem logErr_out (code src : Nat) (p : Option Nat) (i : Nat) : (logErr code src p i s).out = s.out := Eq.trans rfl rfl
@[simp] theorem logErr_core (code src : Nat) (p : Option Nat) (i : Nat) : (logErr code src p i s).core = s.core := Eq.trans rfl rfl
@[simp] theorem logErr_pace (code src : Nat) (p : Option Nat) (i : Nat) : (logErr code src p i s).pace = s.pace := Eq.trans rfl rfl
@[simp] theorem logErr_mem (code src : Nat) (p : Option Nat) (i : Nat) : (logErr code src p i s).mem = s.mem := Eq.trans rfl rfl
@[simp] theorem logErr_avl (code src : Nat) (p : Option Nat) (i : Nat) : (logErr code src p i s).avl = s.avl := Eq.trans rfl rfl
@[simp] theorem logErr_strm (code src : Nat) (p : Option Nat) (i : Nat) : (logErr code src p i s).strm = s.strm := Eq.trans rfl rfl
@[simp] theorem logErr_sync (code src : Nat) (p : Option Nat) (i : Nat) : (logErr code src p i s).sync = s.sync := Eq.trans rfl rfl
@[simp] theorem logErr_host (code src : Nat) (p : Option Nat) (i : Nat) : (logErr code src p i s).host = s.host := Eq.trans rfl rfl
@[simp] theorem logErr_loam (code src : Nat) (p : Option Nat) (i : Nat) : (logErr code src p i s).loam = s.loam := Eq.trans rfl rfl
@[simp] theorem logErr_link (code src : Nat) (p : Option Nat) (i : Nat) : (logErr code src p i s).link = s.link := Eq.trans rfl rfl
@[simp] theorem logErr_net (code src : Nat) (p : Option Nat) (i : Nat) : (logErr code src p i s).net = s.net := Eq.trans rfl rfl
@[simp] theorem logErr_pwr (code src : Nat) (p : Option Nat) (i : Nat) : (logErr code src p i s).pwr = s.pwr := Eq.trans rfl rfl
@[simp] theorem logErr_load (code src : Nat) (p : Option Nat) (i : Nat) : (logErr code src p i s).load = s.load := Eq.trans rfl rfl
@[simp] theorem logErr_mc (code src : Nat) (p : Option Nat) (i : Nat) : (logErr code src p i s).mc = s.mc := Eq.trans rfl rfl

@[simp] theorem setCtx_pending (u c : Nat) (x : Ctx) : (setCtx s u c x).pending = s.pending := Eq.trans rfl rfl
@[simp] theorem setCtx_now (u c : Nat) (x : Ctx) : (setCtx s u c x).now = s.now := Eq.trans rfl rfl
@[simp] theorem setCtx_free (u c : Nat) (x : Ctx) : (setCtx s u c x).free = s.free := Eq.trans rfl rfl
@[simp] theorem setCtx_csr (u c : Nat) (x : Ctx) : (setCtx s u c x).csr = s.csr := Eq.trans rfl rfl
@[simp] theorem setCtx_out (u c : Nat) (x : Ctx) : (setCtx s u c x).out = s.out := Eq.trans rfl rfl
@[simp] theorem setCtx_log (u c : Nat) (x : Ctx) : (setCtx s u c x).log = s.log := Eq.trans rfl rfl
@[simp] theorem setCtx_pace (u c : Nat) (x : Ctx) : (setCtx s u c x).pace = s.pace := Eq.trans rfl rfl
@[simp] theorem setCtx_mem (u c : Nat) (x : Ctx) : (setCtx s u c x).mem = s.mem := Eq.trans rfl rfl
@[simp] theorem setCtx_avl (u c : Nat) (x : Ctx) : (setCtx s u c x).avl = s.avl := Eq.trans rfl rfl
@[simp] theorem setCtx_strm (u c : Nat) (x : Ctx) : (setCtx s u c x).strm = s.strm := Eq.trans rfl rfl
@[simp] theorem setCtx_sync (u c : Nat) (x : Ctx) : (setCtx s u c x).sync = s.sync := Eq.trans rfl rfl
@[simp] theorem setCtx_host (u c : Nat) (x : Ctx) : (setCtx s u c x).host = s.host := Eq.trans rfl rfl
@[simp] theorem setCtx_loam (u c : Nat) (x : Ctx) : (setCtx s u c x).loam = s.loam := Eq.trans rfl rfl
@[simp] theorem setCtx_link (u c : Nat) (x : Ctx) : (setCtx s u c x).link = s.link := Eq.trans rfl rfl
@[simp] theorem setCtx_net (u c : Nat) (x : Ctx) : (setCtx s u c x).net = s.net := Eq.trans rfl rfl
@[simp] theorem setCtx_pwr (u c : Nat) (x : Ctx) : (setCtx s u c x).pwr = s.pwr := Eq.trans rfl rfl
@[simp] theorem setCtx_load (u c : Nat) (x : Ctx) : (setCtx s u c x).load = s.load := Eq.trans rfl rfl
@[simp] theorem setCtx_mc (u c : Nat) (x : Ctx) : (setCtx s u c x).mc = s.mc := Eq.trans rfl rfl

@[simp] theorem updCtx_pending (u c : Nat) (g : Ctx → Ctx) : (updCtx s u c g).pending = s.pending := Eq.trans rfl rfl
@[simp] theorem updCtx_now (u c : Nat) (g : Ctx → Ctx) : (updCtx s u c g).now = s.now := Eq.trans rfl rfl
@[simp] theorem updCtx_free (u c : Nat) (g : Ctx → Ctx) : (updCtx s u c g).free = s.free := Eq.trans rfl rfl
@[simp] theorem updCtx_csr (u c : Nat) (g : Ctx → Ctx) : (updCtx s u c g).csr = s.csr := Eq.trans rfl rfl
@[simp] theorem updCtx_out (u c : Nat) (g : Ctx → Ctx) : (updCtx s u c g).out = s.out := Eq.trans rfl rfl
@[simp] theorem updCtx_log (u c : Nat) (g : Ctx → Ctx) : (updCtx s u c g).log = s.log := Eq.trans rfl rfl
@[simp] theorem updCtx_pace (u c : Nat) (g : Ctx → Ctx) : (updCtx s u c g).pace = s.pace := Eq.trans rfl rfl
@[simp] theorem updCtx_mem (u c : Nat) (g : Ctx → Ctx) : (updCtx s u c g).mem = s.mem := Eq.trans rfl rfl
@[simp] theorem updCtx_avl (u c : Nat) (g : Ctx → Ctx) : (updCtx s u c g).avl = s.avl := Eq.trans rfl rfl
@[simp] theorem updCtx_strm (u c : Nat) (g : Ctx → Ctx) : (updCtx s u c g).strm = s.strm := Eq.trans rfl rfl
@[simp] theorem updCtx_sync (u c : Nat) (g : Ctx → Ctx) : (updCtx s u c g).sync = s.sync := Eq.trans rfl rfl
@[simp] theorem updCtx_host (u c : Nat) (g : Ctx → Ctx) : (updCtx s u c g).host = s.host := Eq.trans rfl rfl
@[simp] theorem updCtx_loam (u c : Nat) (g : Ctx → Ctx) : (updCtx s u c g).loam = s.loam := Eq.trans rfl rfl
@[simp] theorem updCtx_link (u c : Nat) (g : Ctx → Ctx) : (updCtx s u c g).link = s.link := Eq.trans rfl rfl
@[simp] theorem updCtx_net (u c : Nat) (g : Ctx → Ctx) : (updCtx s u c g).net = s.net := Eq.trans rfl rfl
@[simp] theorem updCtx_pwr (u c : Nat) (g : Ctx → Ctx) : (updCtx s u c g).pwr = s.pwr := Eq.trans rfl rfl
@[simp] theorem updCtx_load (u c : Nat) (g : Ctx → Ctx) : (updCtx s u c g).load = s.load := Eq.trans rfl rfl
@[simp] theorem updCtx_mc (u c : Nat) (g : Ctx → Ctx) : (updCtx s u c g).mc = s.mc := Eq.trans rfl rfl

@[simp] theorem setPend_pending (u c b : Nat) : (setPend s u c b).pending = s.pending := Eq.trans rfl rfl
@[simp] theorem setPend_now (u c b : Nat) : (setPend s u c b).now = s.now := Eq.trans rfl rfl
@[simp] theorem setPend_free (u c b : Nat) : (setPend s u c b).free = s.free := Eq.trans rfl rfl
@[simp] theorem setPend_csr (u c b : Nat) : (setPend s u c b).csr = s.csr := Eq.trans rfl rfl
@[simp] theorem setPend_out (u c b : Nat) : (setPend s u c b).out = s.out := Eq.trans rfl rfl
@[simp] theorem setPend_log (u c b : Nat) : (setPend s u c b).log = s.log := Eq.trans rfl rfl
@[simp] theorem setPend_pace (u c b : Nat) : (setPend s u c b).pace = s.pace := Eq.trans rfl rfl
@[simp] theorem setPend_mem (u c b : Nat) : (setPend s u c b).mem = s.mem := Eq.trans rfl rfl
@[simp] theorem setPend_avl (u c b : Nat) : (setPend s u c b).avl = s.avl := Eq.trans rfl rfl
@[simp] theorem setPend_strm (u c b : Nat) : (setPend s u c b).strm = s.strm := Eq.trans rfl rfl
@[simp] theorem setPend_sync (u c b : Nat) : (setPend s u c b).sync = s.sync := Eq.trans rfl rfl
@[simp] theorem setPend_host (u c b : Nat) : (setPend s u c b).host = s.host := Eq.trans rfl rfl
@[simp] theorem setPend_loam (u c b : Nat) : (setPend s u c b).loam = s.loam := Eq.trans rfl rfl
@[simp] theorem setPend_link (u c b : Nat) : (setPend s u c b).link = s.link := Eq.trans rfl rfl
@[simp] theorem setPend_net (u c b : Nat) : (setPend s u c b).net = s.net := Eq.trans rfl rfl
@[simp] theorem setPend_pwr (u c b : Nat) : (setPend s u c b).pwr = s.pwr := Eq.trans rfl rfl
@[simp] theorem setPend_load (u c b : Nat) : (setPend s u c b).load = s.load := Eq.trans rfl rfl
@[simp] theorem setPend_mc (u c b : Nat) : (setPend s u c b).mc = s.mc := Eq.trans rfl rfl

@[simp] theorem advanceTo_pending (t : Nat) : (advanceTo t s).pending = s.pending := by unfold advanceTo; split <;> rfl
@[simp] theorem advanceTo_free (t : Nat) : (advanceTo t s).free = s.free := by unfold advanceTo; split <;> rfl
@[simp] theorem advanceTo_csr (t : Nat) : (advanceTo t s).csr = s.csr := by unfold advanceTo; split <;> rfl
@[simp] theorem advanceTo_out (t : Nat) : (advanceTo t s).out = s.out := by unfold advanceTo; split <;> rfl
@[simp] theorem advanceTo_log (t : Nat) : (advanceTo t s).log = s.log := by unfold advanceTo; split <;> rfl
@[simp] theorem advanceTo_core (t : Nat) : (advanceTo t s).core = s.core := by unfold advanceTo; split <;> rfl
@[simp] theorem advanceTo_pace (t : Nat) : (advanceTo t s).pace = s.pace := by unfold advanceTo; split <;> rfl
@[simp] theorem advanceTo_mem (t : Nat) : (advanceTo t s).mem = s.mem := by unfold advanceTo; split <;> rfl
@[simp] theorem advanceTo_avl (t : Nat) : (advanceTo t s).avl = s.avl := by unfold advanceTo; split <;> rfl
@[simp] theorem advanceTo_strm (t : Nat) : (advanceTo t s).strm = s.strm := by unfold advanceTo; split <;> rfl
@[simp] theorem advanceTo_sync (t : Nat) : (advanceTo t s).sync = s.sync := by unfold advanceTo; split <;> rfl
@[simp] theorem advanceTo_host (t : Nat) : (advanceTo t s).host = s.host := by unfold advanceTo; split <;> rfl
@[simp] theorem advanceTo_loam (t : Nat) : (advanceTo t s).loam = s.loam := by unfold advanceTo; split <;> rfl
@[simp] theorem advanceTo_link (t : Nat) : (advanceTo t s).link = s.link := by unfold advanceTo; split <;> rfl
@[simp] theorem advanceTo_net (t : Nat) : (advanceTo t s).net = s.net := by unfold advanceTo; split <;> rfl
@[simp] theorem advanceTo_pwr (t : Nat) : (advanceTo t s).pwr = s.pwr := by unfold advanceTo; split <;> rfl
@[simp] theorem advanceTo_load (t : Nat) : (advanceTo t s).load = s.load := by unfold advanceTo; split <;> rfl
@[simp] theorem advanceTo_mc (t : Nat) : (advanceTo t s).mc = s.mc := by unfold advanceTo; split <;> rfl

@[simp] theorem plotCtr_pending (u i n : Nat) : (plotCtr u i n s).pending = s.pending := by unfold plotCtr; split <;> rfl
@[simp] theorem plotCtr_now (u i n : Nat) : (plotCtr u i n s).now = s.now := by unfold plotCtr; split <;> rfl
@[simp] theorem plotCtr_free (u i n : Nat) : (plotCtr u i n s).free = s.free := by unfold plotCtr; split <;> rfl
@[simp] theorem plotCtr_csr (u i n : Nat) : (plotCtr u i n s).csr = s.csr := by unfold plotCtr; split <;> rfl
@[simp] theorem plotCtr_out (u i n : Nat) : (plotCtr u i n s).out = s.out := by unfold plotCtr; split <;> rfl
@[simp] theorem plotCtr_log (u i n : Nat) : (plotCtr u i n s).log = s.log := by unfold plotCtr; split <;> rfl
@[simp] theorem plotCtr_core (u i n : Nat) : (plotCtr u i n s).core = s.core := by unfold plotCtr; split <;> rfl
@[simp] theorem plotCtr_pace (u i n : Nat) : (plotCtr u i n s).pace = s.pace := by unfold plotCtr; split <;> rfl
@[simp] theorem plotCtr_mem (u i n : Nat) : (plotCtr u i n s).mem = s.mem := by unfold plotCtr; split <;> rfl
@[simp] theorem plotCtr_avl (u i n : Nat) : (plotCtr u i n s).avl = s.avl := by unfold plotCtr; split <;> rfl
@[simp] theorem plotCtr_strm (u i n : Nat) : (plotCtr u i n s).strm = s.strm := by unfold plotCtr; split <;> rfl
@[simp] theorem plotCtr_sync (u i n : Nat) : (plotCtr u i n s).sync = s.sync := by unfold plotCtr; split <;> rfl
@[simp] theorem plotCtr_host (u i n : Nat) : (plotCtr u i n s).host = s.host := by unfold plotCtr; split <;> rfl
@[simp] theorem plotCtr_loam (u i n : Nat) : (plotCtr u i n s).loam = s.loam := by unfold plotCtr; split <;> rfl
@[simp] theorem plotCtr_link (u i n : Nat) : (plotCtr u i n s).link = s.link := by unfold plotCtr; split <;> rfl
@[simp] theorem plotCtr_net (u i n : Nat) : (plotCtr u i n s).net = s.net := by unfold plotCtr; split <;> rfl
@[simp] theorem plotCtr_load (u i n : Nat) : (plotCtr u i n s).load = s.load := by unfold plotCtr; split <;> rfl
@[simp] theorem plotCtr_mc (u i n : Nat) : (plotCtr u i n s).mc = s.mc := by unfold plotCtr; split <;> rfl

@[simp] theorem logLimited_pending (code sc src : Nat) (p : Option Nat) (i : Nat) : (logLimited code sc src p i s).pending = s.pending := by unfold logLimited; split <;> rfl
@[simp] theorem logLimited_now (code sc src : Nat) (p : Option Nat) (i : Nat) : (logLimited code sc src p i s).now = s.now := by unfold logLimited; split <;> rfl
@[simp] theorem logLimited_free (code sc src : Nat) (p : Option Nat) (i : Nat) : (logLimited code sc src p i s).free = s.free := by unfold logLimited; split <;> rfl
@[simp] theorem logLimited_csr (code sc src : Nat) (p : Option Nat) (i : Nat) : (logLimited code sc src p i s).csr = s.csr := by unfold logLimited; split <;> rfl
@[simp] theorem logLimited_out (code sc src : Nat) (p : Option Nat) (i : Nat) : (logLimited code sc src p i s).out = s.out := by unfold logLimited; split <;> rfl
@[simp] theorem logLimited_core (code sc src : Nat) (p : Option Nat) (i : Nat) : (logLimited code sc src p i s).core = s.core := by unfold logLimited; split <;> rfl
@[simp] theorem logLimited_pace (code sc src : Nat) (p : Option Nat) (i : Nat) : (logLimited code sc src p i s).pace = s.pace := by unfold logLimited; split <;> rfl
@[simp] theorem logLimited_mem (code sc src : Nat) (p : Option Nat) (i : Nat) : (logLimited code sc src p i s).mem = s.mem := by unfold logLimited; split <;> rfl
@[simp] theorem logLimited_avl (code sc src : Nat) (p : Option Nat) (i : Nat) : (logLimited code sc src p i s).avl = s.avl := by unfold logLimited; split <;> rfl
@[simp] theorem logLimited_strm (code sc src : Nat) (p : Option Nat) (i : Nat) : (logLimited code sc src p i s).strm = s.strm := by unfold logLimited; split <;> rfl
@[simp] theorem logLimited_sync (code sc src : Nat) (p : Option Nat) (i : Nat) : (logLimited code sc src p i s).sync = s.sync := by unfold logLimited; split <;> rfl
@[simp] theorem logLimited_host (code sc src : Nat) (p : Option Nat) (i : Nat) : (logLimited code sc src p i s).host = s.host := by unfold logLimited; split <;> rfl
@[simp] theorem logLimited_loam (code sc src : Nat) (p : Option Nat) (i : Nat) : (logLimited code sc src p i s).loam = s.loam := by unfold logLimited; split <;> rfl
@[simp] theorem logLimited_link (code sc src : Nat) (p : Option Nat) (i : Nat) : (logLimited code sc src p i s).link = s.link := by unfold logLimited; split <;> rfl
@[simp] theorem logLimited_net (code sc src : Nat) (p : Option Nat) (i : Nat) : (logLimited code sc src p i s).net = s.net := by unfold logLimited; split <;> rfl
@[simp] theorem logLimited_pwr (code sc src : Nat) (p : Option Nat) (i : Nat) : (logLimited code sc src p i s).pwr = s.pwr := by unfold logLimited; split <;> rfl
@[simp] theorem logLimited_load (code sc src : Nat) (p : Option Nat) (i : Nat) : (logLimited code sc src p i s).load = s.load := by unfold logLimited; split <;> rfl
@[simp] theorem logLimited_mc (code sc src : Nat) (p : Option Nat) (i : Nat) : (logLimited code sc src p i s).mc = s.mc := by unfold logLimited; split <;> rfl

end Sys2Proof.Machine
end

