-- ==== Sys2Proof/Laws/Regs.lean ====
section
/-!
SUPPORT. The laws of the CSR file and of its fields, of contexts and of memory bytes: what is read after a write.
-/
namespace Sys2Proof.Machine
open Sys2Proof

/-- A register word reads as last written. -/
@[simp] theorem rget_rset (s : State) (a b : Nat) (v : W64) : rget (rset s a v) b = if b = a then v else rget s b := by
  unfold rget rset
  by_cases h : b = a
  · subst h; simp
  · simp [h, mget_mset_ne _ _ _ _ _ _ h]

theorem toNat_setBits (v : W64) (lo w x : Nat) (h : lo + w ≤ 64) :
    (setBits v lo w x).toNat = v.toNat % 2 ^ lo + (x % 2 ^ w) * 2 ^ lo + (v.toNat / 2 ^ (lo + w)) * 2 ^ (lo + w) := by
  unfold setBits
  rw [BitVec.toNat_ofNat, Nat.mod_eq_of_lt]
  have hv := v.isLt
  have h1 : v.toNat % 2 ^ lo < 2 ^ lo := Nat.mod_lt _ (by positivity)
  have h2 : x % 2 ^ w < 2 ^ w := Nat.mod_lt _ (by positivity)
  have h3 : v.toNat / 2 ^ (lo + w) < 2 ^ (64 - (lo + w)) := by
    rw [Nat.div_lt_iff_lt_mul (by positivity), ← pow_add]; simpa [Nat.sub_add_cancel h] using hv
  have e1 : 2 ^ (lo + w) = 2 ^ lo * 2 ^ w := pow_add ..
  have e2 : 2 ^ 64 = 2 ^ (lo + w) * 2 ^ (64 - (lo + w)) := by rw [← pow_add]; congr 1; omega
  have a1 : v.toNat % 2 ^ lo + (x % 2 ^ w) * 2 ^ lo < 2 ^ (lo + w) := by
    rw [e1]; nlinarith [Nat.one_le_two_pow (n := lo)]
  rw [e2]
  nlinarith [Nat.one_le_two_pow (n := lo + w)]

/-- A field reads as last written, cut to its width. -/
theorem fget_fset (v : W64) (f : Fld) (x : Nat) (h : f.lo + f.width ≤ 64) : fget (fset v f x) f = x % 2 ^ f.width := by
  unfold fget fset bitsOf
  rw [toNat_setBits v _ _ _ h, Nat.shiftRight_eq_div_pow]
  have h1 : v.toNat % 2 ^ f.lo < 2 ^ f.lo := Nat.mod_lt _ (by positivity)
  rw [pow_add, Nat.mul_comm (2 ^ f.lo), ← Nat.mul_assoc, Nat.add_assoc, ← Nat.add_mul,
    Nat.add_mul_div_right _ _ (by positivity), Nat.div_eq_of_lt h1, Nat.zero_add, Nat.add_mul_mod_self_right, Nat.mod_mod]

/-- A field above or below the one written keeps its value. -/
theorem fget_fset_other (v : W64) (f g : Fld) (x : Nat) (h : f.lo + f.width ≤ 64)
    (hd : g.lo + g.width ≤ f.lo ∨ f.lo + f.width ≤ g.lo) : fget (fset v f x) g = fget v g := by
  unfold fget fset bitsOf
  rw [toNat_setBits v _ _ _ h]
  simp only [Nat.shiftRight_eq_div_pow]
  have h1 : v.toNat % 2 ^ f.lo < 2 ^ f.lo := Nat.mod_lt _ (by positivity)
  have h2 : x % 2 ^ f.width < 2 ^ f.width := Nat.mod_lt _ (by positivity)
  rcases hd with hd | hd
  · obtain ⟨k, hk⟩ := Nat.exists_eq_add_of_le hd
    have hsplit := Nat.div_add_mod v.toNat (2 ^ f.lo)
    have key : ∀ y : Nat, (v.toNat % 2 ^ f.lo + y * 2 ^ f.lo) / 2 ^ g.lo % 2 ^ g.width = v.toNat % 2 ^ f.lo / 2 ^ g.lo % 2 ^ g.width := by
      intro y
      rw [hk, pow_add, pow_add]
      rw [show y * (2 ^ g.lo * 2 ^ g.width * 2 ^ k) = (y * 2 ^ k * 2 ^ g.width) * 2 ^ g.lo by ring,
        Nat.add_mul_div_right _ _ (by positivity), Nat.add_mul_mod_self_right]
    have e : v.toNat = v.toNat % 2 ^ f.lo + (v.toNat / 2 ^ f.lo) * 2 ^ f.lo := by rw [Nat.mul_comm]; omega
    rw [show v.toNat % 2 ^ f.lo + x % 2 ^ f.width * 2 ^ f.lo + v.toNat / 2 ^ (f.lo + f.width) * 2 ^ (f.lo + f.width) =
      v.toNat % 2 ^ f.lo + (x % 2 ^ f.width + v.toNat / 2 ^ (f.lo + f.width) * 2 ^ f.width) * 2 ^ f.lo by rw [pow_add]; ring, key]
    conv_rhs => rw [e]
    rw [key]
  · obtain ⟨k, hk⟩ := Nat.exists_eq_add_of_le hd
    have h3 : v.toNat % 2 ^ f.lo + x % 2 ^ f.width * 2 ^ f.lo < 2 ^ (f.lo + f.width) := by
      rw [pow_add]; nlinarith [Nat.one_le_two_pow (n := f.lo)]
    rw [hk, pow_add (2) (f.lo + f.width) k, ← Nat.div_div_eq_div_mul, ← Nat.div_div_eq_div_mul,
      Nat.add_mul_div_right _ _ (by positivity), Nat.div_eq_of_lt h3, Nat.zero_add]

/-- A field of a register reads as last set. -/
theorem fld_setFld (s : State) (r : Nat) (f : Fld) (x : Nat) (h : f.lo + f.width ≤ 64) :
    fld (setFld s r f x) r f = x % 2 ^ f.width := by
  simp [fld, setFld, fget_fset _ _ _ h]

/-- Another field of the same word keeps its value. -/
theorem fld_setFld_other (s : State) (r : Nat) (f g : Fld) (x : Nat) (h : f.lo + f.width ≤ 64) (hw : f.word = g.word)
    (hd : g.lo + g.width ≤ f.lo ∨ f.lo + f.width ≤ g.lo) : fld (setFld s r f x) r g = fld s r g := by
  simp [fld, setFld, hw, fget_fset_other _ _ _ _ h hd]

/-- Another register word keeps its value. -/
theorem rget_setFld_other (s : State) (r o : Nat) (f : Fld) (x : Nat) (h : o ≠ r + 8 * f.word) :
    rget (setFld s r f x) o = rget s o := by
  simp [setFld, h]

theorem fld_setFld_far (s : State) (r q : Nat) (f g : Fld) (x : Nat) (h : q + 8 * g.word ≠ r + 8 * f.word) :
    fld (setFld s r f x) q g = fld s q g := by
  simp [fld, setFld, h]

theorem fld_bumpFld (s : State) (r : Nat) (f : Fld) (n : Nat) (h : f.lo + f.width ≤ 64) :
    fld (bumpFld s r f n) r f = (fld s r f + n) % 2 ^ f.width := fld_setFld s r f _ h

theorem fld_lt (s : State) (r : Nat) (f : Fld) : fld s r f < 2 ^ f.width := Nat.mod_lt _ (by positivity)

/-- Registers of the reset domains named, where the offset is chosen, take their reset values; the others keep theirs. -/
theorem rget_resetRegs (s : State) (ds : List Domain) (p : Nat → Bool) (o : Nat) :
    rget (resetRegs ds p s) o = if p o && ((domainAt o).any fun d => ds.contains d) then resetWord o else rget s o := by
  unfold rget resetRegs
  simp only [mget_mkeep]
  cases (p o && ((domainAt o).any fun d => ds.contains d)) <;> rfl

/-! ### Contexts -/

theorem ctxKey_inj {u c u' c' : Nat} (hc : c < 8) (hc' : c' < 8) : ctxKey u c = ctxKey u' c' ↔ u = u' ∧ c = c' := by
  unfold ctxKey; omega

@[simp] theorem ctx_setCtx (s : State) (u c u' c' : Nat) (x : Ctx) :
    ctx (setCtx s u c x) u' c' = if ctxKey u' c' = ctxKey u c then x else ctx s u' c' := by
  simp [ctx, setCtx]

theorem ctx_setCtx_same (s : State) (u c : Nat) (x : Ctx) : ctx (setCtx s u c x) u c = x := by simp
theorem ctx_updCtx_same (s : State) (u c : Nat) (f : Ctx → Ctx) : ctx (updCtx s u c f) u c = f (ctx s u c) := by simp [updCtx]
theorem ctx_updCtx_other (s : State) (u c u' c' : Nat) (f : Ctx → Ctx) (h : ctxKey u' c' ≠ ctxKey u c) :
    ctx (updCtx s u c f) u' c' = ctx s u' c' := by simp [updCtx, h]

theorem sr_setS (x : Ctx) (r q : Nat) (v : W64) : sr (setS x r v) q = if q = r ∧ r ≠ 0 then v else sr x q := by
  unfold setS sr
  by_cases hr : r = 0
  · simp [hr]
  · by_cases hq : q = 0
    · subst hq; simp [hr, Ne.symm hr]
    · simp [hr, hq]
theorem pr_setP (x : Ctx) (r q : Nat) (v : W64) : pr (setP x r v) q = if q = r ∧ r ≠ 0 then v else pr x q := by
  unfold setP pr
  by_cases hr : r = 0
  · simp [hr]
  · by_cases hq : q = 0
    · subst hq; simp [hr, Ne.symm hr]
    · simp [hr, hq]
theorem vr_setV (x : Ctx) (r q : Nat) (v : W512) : vr (setV x r v) q = if q = r then v else vr x q := by simp [setV, vr]
theorem dr_setD (x : Ctx) (r q : Nat) (v : W512) : dr (setD x r v) q = if q = r then v else dr x q := by simp [setD, dr]

/-! ### Memory bytes -/

/-- A byte inside the bytes stored is the byte stored there; every other byte keeps its value. -/
theorem memByte_memStore (m : Mem) (a : Nat) (bs : List Byte) (x : Nat) :
    memByte (memStore m a bs) x = if h : a ≤ x ∧ x - a < bs.length then bs[x - a]'h.2 else memByte m x := by
  induction bs generalizing m a with
  | nil => simp [memStore]
  | cons b bs ih =>
    rw [memStore, ih]
    by_cases h1 : a + 1 ≤ x ∧ x - (a + 1) < bs.length
    · have h2 : a ≤ x ∧ x - a < (b :: bs).length := by simp; omega
      rw [dif_pos h1, dif_pos h2]
      have e : x - a = (x - (a + 1)) + 1 := by omega
      simp [e]
    · rw [dif_neg h1]
      by_cases hx : x = a
      · subst hx; simp [memByte]
      · have h2 : ¬ (a ≤ x ∧ x - a < (b :: bs).length) := by simp at *; omega
        rw [dif_neg h2]; simp [memByte, hx]

/-- Storing bytes keeps the canonical form. -/
theorem memWf_memStore (m : Mem) (a : Nat) (bs : List Byte) (h : memWf m = true) : memWf (memStore m a bs) = true := by
  induction bs generalizing m a with
  | nil => exact h
  | cons b bs ih => exact ih _ _ (mwf_mset _ _ _ _ h)

theorem memBytes_length (m : Mem) (a n : Nat) : (memBytes m a n).length = n := by
  induction n generalizing a with
  | zero => rfl
  | succ n ih => simp [memBytes, ih]

end Sys2Proof.Machine
end

