-- ==== Sys2Proof/Laws/Issue.lean ====
section
/-!
SUPPORT. A core with one running context whose bundle holds one instruction: the beat issues it, and what the bundle's other
slots and the advance of control do then.
-/
namespace Sys2Proof.Machine
open Sys2Proof

theorem decodeSlot_zero (u : Nat) (sp : Bool) (b : W128) (k : Slot) (h : slotWord b k = 0) :
    decodeSlot u sp b k = some (.nop u 0 k) := by
  cases k <;> simp only [decodeSlot, h] <;> rfl

variable {s : State} {u c : Nat} {sl : Slot} {i : Instr}

theorem Lone.nop (h : Lone s u c sl i) {k : Slot} (hk : k ≠ sl) :
    slotIns s u (ctx s u c).pc k = some (.nop u 0 k) := decodeSlot_zero _ _ _ _ (h.nops k hk)

theorem Lone.rewake (h : Lone s u c sl i) : rewake u s = s := by
  have key : ∀ l : List Nat, (∀ d ∈ l, d < 8) → l.foldl (rewakeCtx u) s = s := by
    intro l
    induction l with
    | nil => intro _; rfl
    | cons d l ih =>
      intro hl
      have hd : rewakeCtx u s d = s := by
        have : (ctx s u d).st ≠ .waiting := by
          by_cases e : d = c
          · subst e; rw [h.ready]; decide
          · exact (h.others d (hl d (by simp)) e).2
        simp [rewakeCtx, this]
      rw [List.foldl_cons, hd]
      exact ih fun d hd => hl d (by simp [hd])
  exact key _ (by intro d hd; exact List.mem_range.mp hd)

theorem consider_other (u d : Nat) (s : State) (h : (ctx s u d).st ≠ .ready) : consider u d s = (.none, s) := by
  simp [consider, h]

/-- The context that can issue does, wherever it stands in the order. -/
theorem firstOf_issues (u c : Nat) (s : State) (hc : consider u c s = (.issues c, s)) :
    ∀ l : List Nat, c ∈ l → (∀ d ∈ l, d ≠ c → (ctx s u d).st ≠ .ready) → firstOf u l s = (.issues c, s) := by
  intro l
  induction l with
  | nil => intro h; simp at h
  | cons d l ih =>
    intro hm ho
    by_cases e : d = c
    · subst e; simp [firstOf, hc]
    · have hm' : c ∈ l := by simpa [Ne.symm e] using hm
      simp only [firstOf, consider_other u d s (ho d (by simp) e)]
      exact ih hm' fun x hx => ho x (by simp [hx])

theorem Lone.order (h : Lone s u c sl i) : c ∈ order s u ∧ ∀ d ∈ order s u, d < 8 := by
  unfold Machine.order
  split
  · rename_i d hd
    have hx := List.find?_some hd
    have hm := List.mem_range.mp (List.mem_of_find?_eq_some hd)
    exfalso
    by_cases e : d = c
    · subst e; simp [h.noRepi] at hx
    · have := h.others d hm e; simp [this.1, this.2] at hx
  · constructor
    · simp only [List.mem_map, List.mem_range]
      have := h.context
      refine ⟨(c + 8 - (mget 7 s.core.last u + 1) % 8) % 8, by omega, by omega⟩
    · intro d hd
      simp only [List.mem_map, List.mem_range] at hd
      omega

theorem Lone.settle (h : Lone s u c sl i) : settleOwn u s = s := by
  have : s.core.reqs.filter (ownWaits u) = [] := List.filter_eq_nil_iff.mpr fun r hr => by simp [h.settled r hr]
  simp [settleOwn, this]

/-- The lone bundle issues when it has no fault of checks 1–4 and no operand wait. -/
theorem Lone.select (h : Lone s u c sl i) (hst : staticFault s u c (ctx s u c).pc allSlots [] = none)
    (hw : operandWait s u c = none) (hck : checkFault s u c (ctx s u c).pc allSlots = none) :
    selectCtx u s = (.issues c, s) := by
  have hcons : consider u c s = (.issues c, s) := by
    simp [consider, h.ready, h.noHalt, h.noTrap, h.noEpoch, h.sound, earlyFault, hst, hw, hck]
  unfold selectCtx
  rw [h.rewake]
  refine firstOf_issues u c s hcons _ h.order.1 fun d hd e => (h.others d (h.order.2 d hd) e).1

theorem Lone.stepping (h : Lone s u c sl i) : stepping s u = true := by
  simp only [Machine.stepping, coreIdle, Bool.not_eq_true', List.all_eq_false]
  exact ⟨c, List.mem_range.mpr h.context, by simp [h.ready]⟩

/-- The row of a lone bundle's instruction is the beat that issues it. -/
theorem Lone.runSlot (h : Lone s u c sl i) (hst : staticFault s u c (ctx s u c).pc allSlots [] = none)
    (hw : operandWait s u c = none) (hck : checkFault s u c (ctx s u c).pc allSlots = none) :
    runSlot u sl i s = issue u c s := by
  have hs := h.select hst hw hck
  have hwi : willIssue s u sl i = true := by
    unfold willIssue; rw [h.settle, hs]; exact decide_eq_true h.holds
  rw [Machine.runSlot, if_pos hwi, beat, h.settle, h.stepping, hs]
  rfl

/-! ### Faults and waits of a lone bundle -/

theorem destsOf_nop (k : Slot) : destsOf (.nop u 0 k) = [] := rfl
theorem staticOne_nop (s : State) (u c p : Nat) (k : Slot) (b : List Reg) : staticOne s u c (some (.nop u p k)) b = none := rfl

/-- No slot of a lone bundle faults under checks 1–3 when its instruction has the privilege it needs. -/
theorem Lone.static (h : Lone s u c sl i) (hp : privNeeded (privOf s u c) i = true) :
    staticFault s u c (ctx s u c).pc allSlots [] = none := by
  have one : ∀ b : List Reg, b = [] → staticOne s u c (some i) b = none := by
    rintro b rfl; simp [staticOne, hp]
  cases sl <;>
    simp [staticFault, allSlots, h.holds, h.nop (k := .S), h.nop (k := .V), h.nop (k := .M), h.nop (k := .X), staticOne_nop,
      destsOf_nop, one]

theorem truePred_zero (s : State) (u c : Nat) (k : Slot) : truePred s u c (.nop u 0 k) = true := by
  simp [truePred, predOf, sourcesOf, predTrue, pr, bit1]

theorem waitOf_nop (s : State) (u c : Nat) (k : Slot) : waitOf s u c (.nop u 0 k) = none := rfl
theorem ownFault_nop (s : State) (u c : Nat) (k : Slot) : ownFault s u c (.nop u 0 k) = none := rfl

theorem Lone.holdsPred (h : Lone s u c sl i) (hs : sl ≠ .V) : truePred s u c i = true := h.pred hs

/-- A lone bundle waits for nothing when its instruction does not. -/
theorem Lone.noWait (h : Lone s u c sl i) (hw : waitOf s u c i = none) : operandWait s u c = none := by
  have hl : ∀ k, slotLoad s u c (ctx s u c).pc k = false := by
    intro k
    simp [slotLoad, h.nothingDue]
    cases slotIns s u (ctx s u c).pc k; simp; simp
  have hs : ∀ k, slotWait s u c (ctx s u c).pc k = none := by
    intro k
    by_cases e : k = sl
    · subst e; simp [slotWait, h.holds, hw]
    · simp [slotWait, h.nop e, waitOf_nop]
  simp [operandWait, hl, hs, allSlots]

/-- Control after a lone bundle whose S slot does not steer it. -/
theorem Lone.controlOn (h : Lone s u c sl i) (hs : sl ≠ .S) :
    control s u c = .ok ⟨(ctx s u c).pc + 1, [], (ctx s u c).lc, false, 0⟩ := by
  have := h.inside
  simp [control, h.nop (Ne.symm hs), truePred_zero, h.noRepi, h.noLoop, stepLevels, landAt]
  omega

/-- A lone bundle passes the instruction checks when its instruction does, outside the S slot. -/
theorem Lone.noFault (h : Lone s u c sl i) (hs : sl ≠ .S) (hf : ownFault s u c i = none) :
    checkFault s u c (ctx s u c).pc allSlots = none := by
  have hk : ∀ k, checkSlot s u c (ctx s u c).pc k = none := by
    intro k
    by_cases e : k = sl
    · subst e
      cases k
      · exact absurd rfl hs
      all_goals simp [checkSlot, h.holds, hf]
    · cases k <;> simp [checkSlot, h.nop e, ownFault_nop, h.controlOn hs]
  simp [checkFault, allSlots, hk]

/-- The same in the S slot, where the checks are those of control. -/
theorem Lone.noFaultS {k : Ctl} (h : Lone s u c .S i) (hc : control s u c = .ok k) :
    checkFault s u c (ctx s u c).pc allSlots = none := by
  simp [checkFault, allSlots, checkSlot, hc, h.nop (k := .V), h.nop (k := .M), h.nop (k := .X), ownFault_nop]

/-! ### The beat itself -/

theorem cfg_ne_beats (u : Nat) : CORE_CFG u + 8 * CORE_CFG_SPECIAL.word ≠ CORE_BEATS u + 8 * CORE_BEATS_BEATS.word := by
  simp [CORE_CFG, CORE_BEATS, CORE_CFG_SPECIAL, CORE_BEATS_BEATS]

theorem special_bump (s : State) (u n : Nat) : special (bumpFld s (CORE_BEATS u) CORE_BEATS_BEATS n) u = special s u := by
  have h := fld_setFld_far s (CORE_BEATS u) (CORE_CFG u) CORE_BEATS_BEATS CORE_CFG_SPECIAL
    (fld s (CORE_BEATS u) CORE_BEATS_BEATS + n) (cfg_ne_beats u)
  unfold special flag bumpFld
  rw [h]

/-- The state that the slots of a bundle read: the one before it, with the beat counted. -/
abbrev counted (u : Nat) (s : State) : State := bumpFld s (CORE_BEATS u) CORE_BEATS_BEATS 1

theorem slotIns_counted (s : State) (u pc : Nat) (k : Slot) : slotIns (counted u s) u pc k = slotIns s u pc k := by
  simp only [slotIns, special_bump, bundleAt, bumpFld_core]

theorem ctx_counted (s : State) (u v d : Nat) : ctx (counted u s) v d = ctx s v d := by simp only [ctx, bumpFld_core]

theorem effSlot_nop (pre : State) (u c pc : Nat) (t : State) (k : Slot) (h : slotIns pre u pc k = some (.nop u 0 k)) :
    effSlot pre u c pc t k = t := by
  cases k <;> simp [effSlot, h, effV, effS, effM, effX]

/-- A lone bundle's slots do what its instruction does. -/
theorem Lone.slots (h : Lone s u c sl i) :
    allSlots.foldl (effSlot (counted u s) u c (ctx s u c).pc) (counted u s) =
      effSlot (counted u s) u c (ctx s u c).pc (counted u s) sl := by
  have hn : ∀ (t : State) (k : Slot), k ≠ sl → effSlot (counted u s) u c (ctx s u c).pc t k = t := fun t k hk =>
    effSlot_nop _ _ _ _ _ _ (by rw [slotIns_counted, h.nop hk])
  cases sl <;> simp [allSlots, hn]

theorem truePred_counted (s : State) (u c : Nat) (j : Instr) : truePred (counted u s) u c j = truePred s u c j := by
  simp only [truePred, ctx_counted]

theorem bodyBad_counted (s : State) (u b : Nat) : bodyBad (counted u s) u b = bodyBad s u b := by
  simp only [bodyBad, slotIns_counted]

theorem control_counted (s : State) (u c : Nat) : control (counted u s) u c = control s u c := by
  simp only [control, doRepi, slotIns_counted, ctx_counted, truePred_counted, bodyBad_counted]

/-- HALT is not in the X slot of a lone bundle of another slot's instruction. -/
theorem Lone.noHaltHere (h : Lone s u c sl i) (hs : sl ≠ .X) : haltsHere (counted u s) u c (ctx s u c).pc = false := by
  simp [haltsHere, slotIns_counted, h.nop (Ne.symm hs)]

theorem mget_last_irrelevant (t : State) (m : NMap Nat) (v d : Nat) :
    ctx { t with core := { t.core with last := m } } v d = ctx t v d := rfl

/-- The beat of a lone bundle: its slot's effect, then the advance of control. -/
theorem Lone.issued (h : Lone s u c sl i) (hv : sl ≠ .V) :
    issue u c s = plotCtr u 0 1
      (let t := moveOn (counted u s) u c (effSlot (counted u s) u c (ctx s u c).pc (counted u s) sl)
       { t with core := { t.core with last := mset 7 t.core.last u c } }) := by
  have hn : ((slotIns (counted u s) u (ctx s u c).pc .V).any fun j => !isNop j) = false := by
    rw [slotIns_counted, h.nop (Ne.symm hv)]; rfl
  simp only [issue]
  rw [show bumpFld s (CORE_BEATS u) CORE_BEATS_BEATS 1 = counted u s from rfl, h.slots, hn]
  rfl

/-- The same with a vector instruction, which is counted. -/
theorem Lone.issuedV (h : Lone s u c .V i) (hi : isNop i = false) :
    issue u c s = plotCtr u 0 1
      (let t := moveOn (counted u s) u c
          (bumpFld (effSlot (counted u s) u c (ctx s u c).pc (counted u s) .V) (VEC_ISSUED u) VEC_ISSUED_ISSUED 1)
       { t with core := { t.core with last := mset 7 t.core.last u c } }) := by
  have hn : ((slotIns (counted u s) u (ctx s u c).pc .V).any fun j => !isNop j) = true := by
    rw [slotIns_counted, h.holds]; simp [hi]
  simp only [issue]
  rw [show bumpFld s (CORE_BEATS u) CORE_BEATS_BEATS 1 = counted u s from rfl, h.slots, hn]
  rfl

/-- Control moves on in a context that still runs and neither halts nor steps. -/
theorem moveOn_runs (pre t : State) (u c : Nat) (k : Ctl) (hc : control pre u c = .ok k)
    (hh : haltsHere pre u c (ctx pre u c).pc = false) (hst : (ctx t u c).st ≠ .faulted) (hsu : (ctx t u c).st ≠ .unloaded)
    (hn : (ctx t u c).stepping = false) :
    moveOn pre u c t = updCtx t u c fun x =>
      { x with pc := k.pc, levels := k.levels, lc := k.lc, repiOn := k.repiOn, repiLeft := k.repiLeft } := by
  simp [moveOn, hc, updCtx, hst, hsu, hh, hn]

end Sys2Proof.Machine
end

