-- ==== Sys2Proof/Laws/PerInstr.lean ====
section
/-!
SUPPORT. The family Preds: the predicate that a well-formed command names is one of p0 to p7 (R85); a command of a device row
names none, which counts as p0.
-/
open Sys2Proof

/-- The predicate of a well-formed command exists. -/
def Sys2Proof.Laws.Preds.Statement (i : Instr) : Prop := i.wf = true → Sys2Proof.Machine.predOf i < 8

/-- The left part of a condition. -/
theorem Sys2Proof.Laws.Preds.first {a b : Bool} (h : (a && b) = true) : a = true := (Bool.and_eq_true_iff.mp h).1
/-- The bound at its right end. -/
theorem Sys2Proof.Laws.Preds.second {a : Bool} {p : Nat} (h : (a && decide (p < 8)) = true) : p < 8 :=
  of_decide_eq_true (Bool.and_eq_true_iff.mp h).2

theorem Sys2Proof.Laws.Preds.coldReset : Sys2Proof.Laws.Preds.Statement .coldReset := fun _ => Nat.zero_lt_succ 7
theorem Sys2Proof.Laws.Preds.pwrGoodRise : Sys2Proof.Laws.Preds.Statement .pwrGoodRise := fun _ => Nat.zero_lt_succ 7
theorem Sys2Proof.Laws.Preds.vinLoss (v us : Nat) : Sys2Proof.Laws.Preds.Statement (.vinLoss v us) := fun _ => Nat.zero_lt_succ 7
theorem Sys2Proof.Laws.Preds.devResetNPulse (ns : Nat) : Sys2Proof.Laws.Preds.Statement (.devResetNPulse ns) := fun _ => Nat.zero_lt_succ 7
theorem Sys2Proof.Laws.Preds.deviceResetRelease (f : StartUp) : Sys2Proof.Laws.Preds.Statement (.deviceResetRelease f) := fun _ => Nat.zero_lt_succ 7
theorem Sys2Proof.Laws.Preds.computeUp : Sys2Proof.Laws.Preds.Statement .computeUp := fun _ => Nat.zero_lt_succ 7
theorem Sys2Proof.Laws.Preds.cyrefMissing : Sys2Proof.Laws.Preds.Statement .cyrefMissing := fun _ => Nat.zero_lt_succ 7
theorem Sys2Proof.Laws.Preds.cyrefAppear (f : StartUp) : Sys2Proof.Laws.Preds.Statement (.cyrefAppear f) := fun _ => Nat.zero_lt_succ 7
theorem Sys2Proof.Laws.Preds.vccioApplied (r level strap : Nat) : Sys2Proof.Laws.Preds.Statement (.vccioApplied r level strap) := fun _ => Nat.zero_lt_succ 7
theorem Sys2Proof.Laws.Preds.bankSupplyLost (r : Nat) : Sys2Proof.Laws.Preds.Statement (.bankSupplyLost r) := fun _ => Nat.zero_lt_succ 7
theorem Sys2Proof.Laws.Preds.cablePresentChange (p : Nat) (on : Bool) : Sys2Proof.Laws.Preds.Statement (.cablePresentChange p on) := fun _ => Nat.zero_lt_succ 7
theorem Sys2Proof.Laws.Preds.csrWrite (m : Master) (o n : Nat) (v : W64) : Sys2Proof.Laws.Preds.Statement (.csrWrite m o n v) := fun _ => Nat.zero_lt_succ 7
theorem Sys2Proof.Laws.Preds.readClearCounter (m : Master) (o n : Nat) : Sys2Proof.Laws.Preds.Statement (.readClearCounter m o n) := fun _ => Nat.zero_lt_succ 7
theorem Sys2Proof.Laws.Preds.hourglassUpdate (rs : List Nat) : Sys2Proof.Laws.Preds.Statement (.hourglassUpdate rs) := fun _ => Nat.zero_lt_succ 7
theorem Sys2Proof.Laws.Preds.hgCalDone : Sys2Proof.Laws.Preds.Statement .hgCalDone := fun _ => Nat.zero_lt_succ 7
theorem Sys2Proof.Laws.Preds.paceCfgWrite (m : Master) (v : Nat) : Sys2Proof.Laws.Preds.Statement (.paceCfgWrite m v) := fun _ => Nat.zero_lt_succ 7
theorem Sys2Proof.Laws.Preds.pacePeriodWrite (m : Master) (v : Nat) : Sys2Proof.Laws.Preds.Statement (.pacePeriodWrite m v) := fun _ => Nat.zero_lt_succ 7
theorem Sys2Proof.Laws.Preds.paceFloorTargetWrite (m : Master) (v : Nat) : Sys2Proof.Laws.Preds.Statement (.paceFloorTargetWrite m v) := fun _ => Nat.zero_lt_succ 7
theorem Sys2Proof.Laws.Preds.paceOvrBaseWrite (m : Master) (v : W64) : Sys2Proof.Laws.Preds.Statement (.paceOvrBaseWrite m v) := fun _ => Nat.zero_lt_succ 7
theorem Sys2Proof.Laws.Preds.paceInEdge (high : Bool) (ts hold : Nat) : Sys2Proof.Laws.Preds.Statement (.paceInEdge high ts hold) := fun _ => Nat.zero_lt_succ 7
theorem Sys2Proof.Laws.Preds.paceSourceLost : Sys2Proof.Laws.Preds.Statement .paceSourceLost := fun _ => Nat.zero_lt_succ 7
theorem Sys2Proof.Laws.Preds.glintFire : Sys2Proof.Laws.Preds.Statement .glintFire := fun _ => Nat.zero_lt_succ 7
theorem Sys2Proof.Laws.Preds.paceMarkerReceive (p : Nat) (k : Marker) : Sys2Proof.Laws.Preds.Statement (.paceMarkerReceive p k) := fun _ => Nat.zero_lt_succ 7
theorem Sys2Proof.Laws.Preds.keepAliveSend : Sys2Proof.Laws.Preds.Statement .keepAliveSend := fun _ => Nat.zero_lt_succ 7
theorem Sys2Proof.Laws.Preds.keepAliveReceive (p : Nat) (k : Marker) : Sys2Proof.Laws.Preds.Statement (.keepAliveReceive p k) := fun _ => Nat.zero_lt_succ 7
theorem Sys2Proof.Laws.Preds.paceMasterChange : Sys2Proof.Laws.Preds.Statement .paceMasterChange := fun _ => Nat.zero_lt_succ 7
theorem Sys2Proof.Laws.Preds.paceStateRequestRetry : Sys2Proof.Laws.Preds.Statement .paceStateRequestRetry := fun _ => Nat.zero_lt_succ 7
theorem Sys2Proof.Laws.Preds.paceStateRequest (src : Nat) : Sys2Proof.Laws.Preds.Statement (.paceStateRequest src) := fun _ => Nat.zero_lt_succ 7
theorem Sys2Proof.Laws.Preds.paceStateAnswer (slot term : Nat) : Sys2Proof.Laws.Preds.Statement (.paceStateAnswer slot term) := fun _ => Nat.zero_lt_succ 7
theorem Sys2Proof.Laws.Preds.emptyBeat (u : Nat) : Sys2Proof.Laws.Preds.Statement (.emptyBeat u) := fun _ => Nat.zero_lt_succ 7
theorem Sys2Proof.Laws.Preds.nop (u p : Nat) (sl : Slot) : Sys2Proof.Laws.Preds.Statement (.nop u p sl) := fun _ => Nat.zero_lt_succ 7
theorem Sys2Proof.Laws.Preds.add (u p rd ra rb : Nat) : Sys2Proof.Laws.Preds.Statement (.add u p rd ra rb) := fun hwf => Sys2Proof.Laws.Preds.second (Sys2Proof.Laws.Preds.first (show wfAdd u p rd ra rb = true from hwf))
theorem Sys2Proof.Laws.Preds.sub (u p rd ra rb : Nat) : Sys2Proof.Laws.Preds.Statement (.sub u p rd ra rb) := fun hwf => Sys2Proof.Laws.Preds.second (Sys2Proof.Laws.Preds.first (show wfSub u p rd ra rb = true from hwf))
theorem Sys2Proof.Laws.Preds.and (u p rd ra rb : Nat) : Sys2Proof.Laws.Preds.Statement (.and u p rd ra rb) := fun hwf => Sys2Proof.Laws.Preds.second (Sys2Proof.Laws.Preds.first (show wfAnd u p rd ra rb = true from hwf))
theorem Sys2Proof.Laws.Preds.or (u p rd ra rb : Nat) : Sys2Proof.Laws.Preds.Statement (.or u p rd ra rb) := fun hwf => Sys2Proof.Laws.Preds.second (Sys2Proof.Laws.Preds.first (show wfOr u p rd ra rb = true from hwf))
theorem Sys2Proof.Laws.Preds.xor (u p rd ra rb : Nat) : Sys2Proof.Laws.Preds.Statement (.xor u p rd ra rb) := fun hwf => Sys2Proof.Laws.Preds.second (Sys2Proof.Laws.Preds.first (show wfXor u p rd ra rb = true from hwf))
theorem Sys2Proof.Laws.Preds.sll (u p rd ra rb : Nat) : Sys2Proof.Laws.Preds.Statement (.sll u p rd ra rb) := fun hwf => Sys2Proof.Laws.Preds.second (Sys2Proof.Laws.Preds.first (show wfSll u p rd ra rb = true from hwf))
theorem Sys2Proof.Laws.Preds.srl (u p rd ra rb : Nat) : Sys2Proof.Laws.Preds.Statement (.srl u p rd ra rb) := fun hwf => Sys2Proof.Laws.Preds.second (Sys2Proof.Laws.Preds.first (show wfSrl u p rd ra rb = true from hwf))
theorem Sys2Proof.Laws.Preds.sra (u p rd ra rb : Nat) : Sys2Proof.Laws.Preds.Statement (.sra u p rd ra rb) := fun hwf => Sys2Proof.Laws.Preds.second (Sys2Proof.Laws.Preds.first (show wfSra u p rd ra rb = true from hwf))
theorem Sys2Proof.Laws.Preds.mul (u p rd ra rb : Nat) : Sys2Proof.Laws.Preds.Statement (.mul u p rd ra rb) := fun hwf => Sys2Proof.Laws.Preds.second (Sys2Proof.Laws.Preds.first (show wfMul u p rd ra rb = true from hwf))
theorem Sys2Proof.Laws.Preds.mulhu (u p rd ra rb : Nat) : Sys2Proof.Laws.Preds.Statement (.mulhu u p rd ra rb) := fun hwf => Sys2Proof.Laws.Preds.second (Sys2Proof.Laws.Preds.first (show wfMulhu u p rd ra rb = true from hwf))
theorem Sys2Proof.Laws.Preds.min (u p rd ra rb : Nat) : Sys2Proof.Laws.Preds.Statement (.min u p rd ra rb) := fun hwf => Sys2Proof.Laws.Preds.second (Sys2Proof.Laws.Preds.first (show wfMin u p rd ra rb = true from hwf))
theorem Sys2Proof.Laws.Preds.max (u p rd ra rb : Nat) : Sys2Proof.Laws.Preds.Statement (.max u p rd ra rb) := fun hwf => Sys2Proof.Laws.Preds.second (Sys2Proof.Laws.Preds.first (show wfMax u p rd ra rb = true from hwf))
theorem Sys2Proof.Laws.Preds.minu (u p rd ra rb : Nat) : Sys2Proof.Laws.Preds.Statement (.minu u p rd ra rb) := fun hwf => Sys2Proof.Laws.Preds.second (Sys2Proof.Laws.Preds.first (show wfMinu u p rd ra rb = true from hwf))
theorem Sys2Proof.Laws.Preds.maxu (u p rd ra rb : Nat) : Sys2Proof.Laws.Preds.Statement (.maxu u p rd ra rb) := fun hwf => Sys2Proof.Laws.Preds.second (Sys2Proof.Laws.Preds.first (show wfMaxu u p rd ra rb = true from hwf))
theorem Sys2Proof.Laws.Preds.addi (u p rd ra imm : Nat) : Sys2Proof.Laws.Preds.Statement (.addi u p rd ra imm) := fun hwf => Sys2Proof.Laws.Preds.second (Sys2Proof.Laws.Preds.first (Sys2Proof.Laws.Preds.first (show wfAddi u p rd ra imm = true from hwf)))
theorem Sys2Proof.Laws.Preds.andi (u p rd ra imm : Nat) : Sys2Proof.Laws.Preds.Statement (.andi u p rd ra imm) := fun hwf => Sys2Proof.Laws.Preds.second (Sys2Proof.Laws.Preds.first (Sys2Proof.Laws.Preds.first (show wfAndi u p rd ra imm = true from hwf)))
theorem Sys2Proof.Laws.Preds.ori (u p rd ra imm : Nat) : Sys2Proof.Laws.Preds.Statement (.ori u p rd ra imm) := fun hwf => Sys2Proof.Laws.Preds.second (Sys2Proof.Laws.Preds.first (Sys2Proof.Laws.Preds.first (show wfOri u p rd ra imm = true from hwf)))
theorem Sys2Proof.Laws.Preds.xori (u p rd ra imm : Nat) : Sys2Proof.Laws.Preds.Statement (.xori u p rd ra imm) := fun hwf => Sys2Proof.Laws.Preds.second (Sys2Proof.Laws.Preds.first (Sys2Proof.Laws.Preds.first (show wfXori u p rd ra imm = true from hwf)))
theorem Sys2Proof.Laws.Preds.slli (u p rd ra sh : Nat) : Sys2Proof.Laws.Preds.Statement (.slli u p rd ra sh) := fun hwf => Sys2Proof.Laws.Preds.second (Sys2Proof.Laws.Preds.first (Sys2Proof.Laws.Preds.first (show wfSlli u p rd ra sh = true from hwf)))
theorem Sys2Proof.Laws.Preds.srli (u p rd ra sh : Nat) : Sys2Proof.Laws.Preds.Statement (.srli u p rd ra sh) := fun hwf => Sys2Proof.Laws.Preds.second (Sys2Proof.Laws.Preds.first (Sys2Proof.Laws.Preds.first (show wfSrli u p rd ra sh = true from hwf)))
theorem Sys2Proof.Laws.Preds.srai (u p rd ra sh : Nat) : Sys2Proof.Laws.Preds.Statement (.srai u p rd ra sh) := fun hwf => Sys2Proof.Laws.Preds.second (Sys2Proof.Laws.Preds.first (Sys2Proof.Laws.Preds.first (show wfSrai u p rd ra sh = true from hwf)))
theorem Sys2Proof.Laws.Preds.movi (u p rd imm : Nat) : Sys2Proof.Laws.Preds.Statement (.movi u p rd imm) := fun hwf => Sys2Proof.Laws.Preds.second (Sys2Proof.Laws.Preds.first (Sys2Proof.Laws.Preds.first (show wfMovi u p rd imm = true from hwf)))
theorem Sys2Proof.Laws.Preds.movk (u p rd hw imm : Nat) : Sys2Proof.Laws.Preds.Statement (.movk u p rd hw imm) := fun hwf => Sys2Proof.Laws.Preds.second (Sys2Proof.Laws.Preds.first (Sys2Proof.Laws.Preds.first (Sys2Proof.Laws.Preds.first (show wfMovk u p rd hw imm = true from hwf))))
theorem Sys2Proof.Laws.Preds.cmp (u p pd : Nat) (cc : Cc) (ra rb : Nat) : Sys2Proof.Laws.Preds.Statement (.cmp u p pd cc ra rb) := fun hwf => Sys2Proof.Laws.Preds.second (Sys2Proof.Laws.Preds.first (Sys2Proof.Laws.Preds.first (show wfCmp u p pd cc ra rb = true from hwf)))
theorem Sys2Proof.Laws.Preds.pand (u p pd pa pb : Nat) : Sys2Proof.Laws.Preds.Statement (.pand u p pd pa pb) := fun hwf => Sys2Proof.Laws.Preds.second (Sys2Proof.Laws.Preds.first (Sys2Proof.Laws.Preds.first (Sys2Proof.Laws.Preds.first (show wfPand u p pd pa pb = true from hwf))))
theorem Sys2Proof.Laws.Preds.por (u p pd pa pb : Nat) : Sys2Proof.Laws.Preds.Statement (.por u p pd pa pb) := fun hwf => Sys2Proof.Laws.Preds.second (Sys2Proof.Laws.Preds.first (Sys2Proof.Laws.Preds.first (Sys2Proof.Laws.Preds.first (show wfPor u p pd pa pb = true from hwf))))
theorem Sys2Proof.Laws.Preds.pxor (u p pd pa pb : Nat) : Sys2Proof.Laws.Preds.Statement (.pxor u p pd pa pb) := fun hwf => Sys2Proof.Laws.Preds.second (Sys2Proof.Laws.Preds.first (Sys2Proof.Laws.Preds.first (Sys2Proof.Laws.Preds.first (show wfPxor u p pd pa pb = true from hwf))))
theorem Sys2Proof.Laws.Preds.pandn (u p pd pa pb : Nat) : Sys2Proof.Laws.Preds.Statement (.pandn u p pd pa pb) := fun hwf => Sys2Proof.Laws.Preds.second (Sys2Proof.Laws.Preds.first (Sys2Proof.Laws.Preds.first (Sys2Proof.Laws.Preds.first (show wfPandn u p pd pa pb = true from hwf))))
theorem Sys2Proof.Laws.Preds.rds (u p rd sel : Nat) : Sys2Proof.Laws.Preds.Statement (.rds u p rd sel) := fun hwf => Sys2Proof.Laws.Preds.second (Sys2Proof.Laws.Preds.first (Sys2Proof.Laws.Preds.first (show wfRds u p rd sel = true from hwf)))
theorem Sys2Proof.Laws.Preds.br (u p target : Nat) : Sys2Proof.Laws.Preds.Statement (.br u p target) := fun hwf => Sys2Proof.Laws.Preds.second (Sys2Proof.Laws.Preds.first (show wfBr u p target = true from hwf))
theorem Sys2Proof.Laws.Preds.call (u p target : Nat) : Sys2Proof.Laws.Preds.Statement (.call u p target) := fun hwf => Sys2Proof.Laws.Preds.second (Sys2Proof.Laws.Preds.first (show wfCall u p target = true from hwf))
theorem Sys2Proof.Laws.Preds.ret (u p : Nat) : Sys2Proof.Laws.Preds.Statement (.ret u p) := fun hwf => Sys2Proof.Laws.Preds.second (show wfRet u p = true from hwf)
theorem Sys2Proof.Laws.Preds.eret (u p : Nat) : Sys2Proof.Laws.Preds.Statement (.eret u p) := fun hwf => Sys2Proof.Laws.Preds.second (show wfEret u p = true from hwf)
theorem Sys2Proof.Laws.Preds.loop (u p ra stop : Nat) : Sys2Proof.Laws.Preds.Statement (.loop u p ra stop) := fun hwf => Sys2Proof.Laws.Preds.second (Sys2Proof.Laws.Preds.first (Sys2Proof.Laws.Preds.first (show wfLoop u p ra stop = true from hwf)))
theorem Sys2Proof.Laws.Preds.loopi (u p count stop : Nat) : Sys2Proof.Laws.Preds.Statement (.loopi u p count stop) := fun hwf => Sys2Proof.Laws.Preds.second (Sys2Proof.Laws.Preds.first (Sys2Proof.Laws.Preds.first (show wfLoopi u p count stop = true from hwf)))
theorem Sys2Proof.Laws.Preds.repi (u p ra : Nat) : Sys2Proof.Laws.Preds.Statement (.repi u p ra) := fun hwf => Sys2Proof.Laws.Preds.second (Sys2Proof.Laws.Preds.first (show wfRepi u p ra = true from hwf))
theorem Sys2Proof.Laws.Preds.repii (u p n : Nat) : Sys2Proof.Laws.Preds.Statement (.repii u p n) := fun hwf => Sys2Proof.Laws.Preds.second (Sys2Proof.Laws.Preds.first (show wfRepii u p n = true from hwf))
theorem Sys2Proof.Laws.Preds.repiStall (u : Nat) : Sys2Proof.Laws.Preds.Statement (.repiStall u) := fun _ => Nat.zero_lt_succ 7
theorem Sys2Proof.Laws.Preds.vadd (u p : Nat) (t : VTy) (vd va vb : Nat) : Sys2Proof.Laws.Preds.Statement (.vadd u p t vd va vb) := fun hwf => Sys2Proof.Laws.Preds.second (Sys2Proof.Laws.Preds.first (show wfVadd u p t vd va vb = true from hwf))
theorem Sys2Proof.Laws.Preds.vsub (u p : Nat) (t : VTy) (vd va vb : Nat) : Sys2Proof.Laws.Preds.Statement (.vsub u p t vd va vb) := fun hwf => Sys2Proof.Laws.Preds.second (Sys2Proof.Laws.Preds.first (show wfVsub u p t vd va vb = true from hwf))
theorem Sys2Proof.Laws.Preds.vmul (u p : Nat) (t : VTy) (vd va vb : Nat) : Sys2Proof.Laws.Preds.Statement (.vmul u p t vd va vb) := fun hwf => Sys2Proof.Laws.Preds.second (Sys2Proof.Laws.Preds.first (show wfVmul u p t vd va vb = true from hwf))
theorem Sys2Proof.Laws.Preds.vfma (u p : Nat) (t : VTy) (vd va vb : Nat) : Sys2Proof.Laws.Preds.Statement (.vfma u p t vd va vb) := fun hwf => Sys2Proof.Laws.Preds.second (Sys2Proof.Laws.Preds.first (Sys2Proof.Laws.Preds.first (show wfVfma u p t vd va vb = true from hwf)))
theorem Sys2Proof.Laws.Preds.vmin (u p : Nat) (t : VTy) (vd va vb : Nat) : Sys2Proof.Laws.Preds.Statement (.vmin u p t vd va vb) := fun hwf => Sys2Proof.Laws.Preds.second (Sys2Proof.Laws.Preds.first (Sys2Proof.Laws.Preds.first (show wfVmin u p t vd va vb = true from hwf)))
theorem Sys2Proof.Laws.Preds.vmax (u p : Nat) (t : VTy) (vd va vb : Nat) : Sys2Proof.Laws.Preds.Statement (.vmax u p t vd va vb) := fun hwf => Sys2Proof.Laws.Preds.second (Sys2Proof.Laws.Preds.first (Sys2Proof.Laws.Preds.first (show wfVmax u p t vd va vb = true from hwf)))
theorem Sys2Proof.Laws.Preds.vand (u p : Nat) (t : VTy) (vd va vb : Nat) : Sys2Proof.Laws.Preds.Statement (.vand u p t vd va vb) := fun hwf => Sys2Proof.Laws.Preds.second (Sys2Proof.Laws.Preds.first (show wfVand u p t vd va vb = true from hwf))
theorem Sys2Proof.Laws.Preds.vor (u p : Nat) (t : VTy) (vd va vb : Nat) : Sys2Proof.Laws.Preds.Statement (.vor u p t vd va vb) := fun hwf => Sys2Proof.Laws.Preds.second (Sys2Proof.Laws.Preds.first (show wfVor u p t vd va vb = true from hwf))
theorem Sys2Proof.Laws.Preds.vxor (u p : Nat) (t : VTy) (vd va vb : Nat) : Sys2Proof.Laws.Preds.Statement (.vxor u p t vd va vb) := fun hwf => Sys2Proof.Laws.Preds.second (Sys2Proof.Laws.Preds.first (show wfVxor u p t vd va vb = true from hwf))
theorem Sys2Proof.Laws.Preds.vshl (u p : Nat) (t : VTy) (vd va vb : Nat) : Sys2Proof.Laws.Preds.Statement (.vshl u p t vd va vb) := fun hwf => Sys2Proof.Laws.Preds.second (Sys2Proof.Laws.Preds.first (Sys2Proof.Laws.Preds.first (show wfVshl u p t vd va vb = true from hwf)))
theorem Sys2Proof.Laws.Preds.vshr (u p : Nat) (t : VTy) (vd va vb : Nat) (arith : Bool) : Sys2Proof.Laws.Preds.Statement (.vshr u p t vd va vb arith) := fun hwf => Sys2Proof.Laws.Preds.second (Sys2Proof.Laws.Preds.first (Sys2Proof.Laws.Preds.first (show wfVshr u p t vd va vb arith = true from hwf)))
theorem Sys2Proof.Laws.Preds.vcmp (u p : Nat) (t : VTy) (pd : Nat) (cc : Cc) (va vb : Nat) : Sys2Proof.Laws.Preds.Statement (.vcmp u p t pd cc va vb) := fun hwf => Sys2Proof.Laws.Preds.second (Sys2Proof.Laws.Preds.first (Sys2Proof.Laws.Preds.first (Sys2Proof.Laws.Preds.first (Sys2Proof.Laws.Preds.first (show wfVcmp u p t pd cc va vb = true from hwf)))))
theorem Sys2Proof.Laws.Preds.vcmac (u p vd va vb : Nat) : Sys2Proof.Laws.Preds.Statement (.vcmac u p vd va vb) := fun hwf => Sys2Proof.Laws.Preds.second (Sys2Proof.Laws.Preds.first (show wfVcmac u p vd va vb = true from hwf))
theorem Sys2Proof.Laws.Preds.vconv (u p : Nat) (t d : VTy) (vd va : Nat) (sat : Bool) (h : Nat) : Sys2Proof.Laws.Preds.Statement (.vconv u p t d vd va sat h) := fun hwf => Sys2Proof.Laws.Preds.second (Sys2Proof.Laws.Preds.first (Sys2Proof.Laws.Preds.first (Sys2Proof.Laws.Preds.first (Sys2Proof.Laws.Preds.first (Sys2Proof.Laws.Preds.first (Sys2Proof.Laws.Preds.first (show wfVconv u p t d vd va sat h = true from hwf)))))))
theorem Sys2Proof.Laws.Preds.vred (u p : Nat) (t : VTy) (vd va op : Nat) : Sys2Proof.Laws.Preds.Statement (.vred u p t vd va op) := fun hwf => Sys2Proof.Laws.Preds.second (Sys2Proof.Laws.Preds.first (Sys2Proof.Laws.Preds.first (Sys2Proof.Laws.Preds.first (show wfVred u p t vd va op = true from hwf))))
theorem Sys2Proof.Laws.Preds.vperm (u p : Nat) (t : VTy) (vd va vb : Nat) : Sys2Proof.Laws.Preds.Statement (.vperm u p t vd va vb) := fun hwf => Sys2Proof.Laws.Preds.second (Sys2Proof.Laws.Preds.first (show wfVperm u p t vd va vb = true from hwf))
theorem Sys2Proof.Laws.Preds.vbcast (u p : Nat) (t : VTy) (vd ra : Nat) : Sys2Proof.Laws.Preds.Statement (.vbcast u p t vd ra) := fun hwf => Sys2Proof.Laws.Preds.second (Sys2Proof.Laws.Preds.first (Sys2Proof.Laws.Preds.first (show wfVbcast u p t vd ra = true from hwf)))
theorem Sys2Proof.Laws.Preds.vext (u p : Nat) (t : VTy) (rd va idx : Nat) : Sys2Proof.Laws.Preds.Statement (.vext u p t rd va idx) := fun hwf => Sys2Proof.Laws.Preds.second (Sys2Proof.Laws.Preds.first (Sys2Proof.Laws.Preds.first (Sys2Proof.Laws.Preds.first (show wfVext u p t rd va idx = true from hwf))))
theorem Sys2Proof.Laws.Preds.vmov (u p : Nat) (t : VTy) (vd va : Nat) : Sys2Proof.Laws.Preds.Statement (.vmov u p t vd va) := fun hwf => Sys2Proof.Laws.Preds.second (Sys2Proof.Laws.Preds.first (show wfVmov u p t vd va = true from hwf))
theorem Sys2Proof.Laws.Preds.vspecSearch (u p : Nat) (t : VTy) (vd va vb : Nat) (least accum : Bool) : Sys2Proof.Laws.Preds.Statement (.vspecSearch u p t vd va vb least accum) := fun hwf => by
  have h : p < 8 := Sys2Proof.Laws.Preds.second (Sys2Proof.Laws.Preds.first (Sys2Proof.Laws.Preds.first (show wfVspecSearch u p t vd va vb least accum = true from hwf)))
  cases accum <;> exact h
theorem Sys2Proof.Laws.Preds.vspecTap (u p : Nat) (t : VTy) (vd va vb k : Nat) : Sys2Proof.Laws.Preds.Statement (.vspecTap u p t vd va vb k) := fun hwf => Sys2Proof.Laws.Preds.second (Sys2Proof.Laws.Preds.first (Sys2Proof.Laws.Preds.first (Sys2Proof.Laws.Preds.first (show wfVspecTap u p t vd va vb k = true from hwf))))
theorem Sys2Proof.Laws.Preds.vecResultWrite (tag : Nat) : Sys2Proof.Laws.Preds.Statement (.vecResultWrite tag) := fun _ => Nat.zero_lt_succ 7
theorem Sys2Proof.Laws.Preds.mm (u p e dd : Nat) : Sys2Proof.Laws.Preds.Statement (.mm u p e dd) := fun hwf => Sys2Proof.Laws.Preds.second (Sys2Proof.Laws.Preds.first (Sys2Proof.Laws.Preds.first (show wfMm u p e dd = true from hwf)))
theorem Sys2Proof.Laws.Preds.smOpen (u p ch dd : Nat) : Sys2Proof.Laws.Preds.Statement (.smOpen u p ch dd) := fun hwf => Sys2Proof.Laws.Preds.second (Sys2Proof.Laws.Preds.first (Sys2Proof.Laws.Preds.first (show wfSmOpen u p ch dd = true from hwf)))
theorem Sys2Proof.Laws.Preds.smClose (u p ch : Nat) : Sys2Proof.Laws.Preds.Statement (.smClose u p ch) := fun hwf => Sys2Proof.Laws.Preds.second (Sys2Proof.Laws.Preds.first (show wfSmClose u p ch = true from hwf))
theorem Sys2Proof.Laws.Preds.smRd (u p pd vd ch : Nat) : Sys2Proof.Laws.Preds.Statement (.smRd u p pd vd ch) := fun hwf => Sys2Proof.Laws.Preds.second (Sys2Proof.Laws.Preds.first (Sys2Proof.Laws.Preds.first (Sys2Proof.Laws.Preds.first (show wfSmRd u p pd vd ch = true from hwf))))
theorem Sys2Proof.Laws.Preds.smRds (u p pd rd ch : Nat) : Sys2Proof.Laws.Preds.Statement (.smRds u p pd rd ch) := fun hwf => Sys2Proof.Laws.Preds.second (Sys2Proof.Laws.Preds.first (Sys2Proof.Laws.Preds.first (Sys2Proof.Laws.Preds.first (show wfSmRds u p pd rd ch = true from hwf))))
theorem Sys2Proof.Laws.Preds.smWr (u p va ch : Nat) : Sys2Proof.Laws.Preds.Statement (.smWr u p va ch) := fun hwf => Sys2Proof.Laws.Preds.second (Sys2Proof.Laws.Preds.first (Sys2Proof.Laws.Preds.first (show wfSmWr u p va ch = true from hwf)))
theorem Sys2Proof.Laws.Preds.smWrs (u p ra ch : Nat) : Sys2Proof.Laws.Preds.Statement (.smWrs u p ra ch) := fun hwf => Sys2Proof.Laws.Preds.second (Sys2Proof.Laws.Preds.first (Sys2Proof.Laws.Preds.first (show wfSmWrs u p ra ch = true from hwf)))
theorem Sys2Proof.Laws.Preds.smSave (u p ch dd : Nat) : Sys2Proof.Laws.Preds.Statement (.smSave u p ch dd) := fun hwf => Sys2Proof.Laws.Preds.second (Sys2Proof.Laws.Preds.first (Sys2Proof.Laws.Preds.first (show wfSmSave u p ch dd = true from hwf)))
theorem Sys2Proof.Laws.Preds.ldB (u p rd ra imm : Nat) : Sys2Proof.Laws.Preds.Statement (.ldB u p rd ra imm) := fun hwf => Sys2Proof.Laws.Preds.second (Sys2Proof.Laws.Preds.first (Sys2Proof.Laws.Preds.first (show wfLdB u p rd ra imm = true from hwf)))
theorem Sys2Proof.Laws.Preds.ldH (u p rd ra imm : Nat) : Sys2Proof.Laws.Preds.Statement (.ldH u p rd ra imm) := fun hwf => Sys2Proof.Laws.Preds.second (Sys2Proof.Laws.Preds.first (Sys2Proof.Laws.Preds.first (show wfLdH u p rd ra imm = true from hwf)))
theorem Sys2Proof.Laws.Preds.ldW (u p rd ra imm : Nat) : Sys2Proof.Laws.Preds.Statement (.ldW u p rd ra imm) := fun hwf => Sys2Proof.Laws.Preds.second (Sys2Proof.Laws.Preds.first (Sys2Proof.Laws.Preds.first (show wfLdW u p rd ra imm = true from hwf)))
theorem Sys2Proof.Laws.Preds.ldD (u p rd ra imm : Nat) : Sys2Proof.Laws.Preds.Statement (.ldD u p rd ra imm) := fun hwf => Sys2Proof.Laws.Preds.second (Sys2Proof.Laws.Preds.first (Sys2Proof.Laws.Preds.first (show wfLdD u p rd ra imm = true from hwf)))
theorem Sys2Proof.Laws.Preds.ldBs (u p rd ra imm : Nat) : Sys2Proof.Laws.Preds.Statement (.ldBs u p rd ra imm) := fun hwf => Sys2Proof.Laws.Preds.second (Sys2Proof.Laws.Preds.first (Sys2Proof.Laws.Preds.first (show wfLdBs u p rd ra imm = true from hwf)))
theorem Sys2Proof.Laws.Preds.ldHs (u p rd ra imm : Nat) : Sys2Proof.Laws.Preds.Statement (.ldHs u p rd ra imm) := fun hwf => Sys2Proof.Laws.Preds.second (Sys2Proof.Laws.Preds.first (Sys2Proof.Laws.Preds.first (show wfLdHs u p rd ra imm = true from hwf)))
theorem Sys2Proof.Laws.Preds.ldWs (u p rd ra imm : Nat) : Sys2Proof.Laws.Preds.Statement (.ldWs u p rd ra imm) := fun hwf => Sys2Proof.Laws.Preds.second (Sys2Proof.Laws.Preds.first (Sys2Proof.Laws.Preds.first (show wfLdWs u p rd ra imm = true from hwf)))
theorem Sys2Proof.Laws.Preds.ldV (u p vd ra imm : Nat) : Sys2Proof.Laws.Preds.Statement (.ldV u p vd ra imm) := fun hwf => Sys2Proof.Laws.Preds.second (Sys2Proof.Laws.Preds.first (Sys2Proof.Laws.Preds.first (Sys2Proof.Laws.Preds.first (show wfLdV u p vd ra imm = true from hwf))))
theorem Sys2Proof.Laws.Preds.ldDsc (u p dd ra imm : Nat) : Sys2Proof.Laws.Preds.Statement (.ldDsc u p dd ra imm) := fun hwf => Sys2Proof.Laws.Preds.second (Sys2Proof.Laws.Preds.first (Sys2Proof.Laws.Preds.first (Sys2Proof.Laws.Preds.first (show wfLdDsc u p dd ra imm = true from hwf))))
theorem Sys2Proof.Laws.Preds.stB (u p rs ra imm : Nat) : Sys2Proof.Laws.Preds.Statement (.stB u p rs ra imm) := fun hwf => Sys2Proof.Laws.Preds.second (Sys2Proof.Laws.Preds.first (Sys2Proof.Laws.Preds.first (show wfStB u p rs ra imm = true from hwf)))
theorem Sys2Proof.Laws.Preds.stH (u p rs ra imm : Nat) : Sys2Proof.Laws.Preds.Statement (.stH u p rs ra imm) := fun hwf => Sys2Proof.Laws.Preds.second (Sys2Proof.Laws.Preds.first (Sys2Proof.Laws.Preds.first (show wfStH u p rs ra imm = true from hwf)))
theorem Sys2Proof.Laws.Preds.stW (u p rs ra imm : Nat) : Sys2Proof.Laws.Preds.Statement (.stW u p rs ra imm) := fun hwf => Sys2Proof.Laws.Preds.second (Sys2Proof.Laws.Preds.first (Sys2Proof.Laws.Preds.first (show wfStW u p rs ra imm = true from hwf)))
theorem Sys2Proof.Laws.Preds.stD (u p rs ra imm : Nat) : Sys2Proof.Laws.Preds.Statement (.stD u p rs ra imm) := fun hwf => Sys2Proof.Laws.Preds.second (Sys2Proof.Laws.Preds.first (Sys2Proof.Laws.Preds.first (show wfStD u p rs ra imm = true from hwf)))
theorem Sys2Proof.Laws.Preds.stV (u p vs ra imm : Nat) : Sys2Proof.Laws.Preds.Statement (.stV u p vs ra imm) := fun hwf => Sys2Proof.Laws.Preds.second (Sys2Proof.Laws.Preds.first (Sys2Proof.Laws.Preds.first (Sys2Proof.Laws.Preds.first (show wfStV u p vs ra imm = true from hwf))))
theorem Sys2Proof.Laws.Preds.stDsc (u p ds ra imm : Nat) : Sys2Proof.Laws.Preds.Statement (.stDsc u p ds ra imm) := fun hwf => Sys2Proof.Laws.Preds.second (Sys2Proof.Laws.Preds.first (Sys2Proof.Laws.Preds.first (Sys2Proof.Laws.Preds.first (show wfStDsc u p ds ra imm = true from hwf))))
theorem Sys2Proof.Laws.Preds.syncAdd (u p rd ra rb : Nat) : Sys2Proof.Laws.Preds.Statement (.syncAdd u p rd ra rb) := fun hwf => Sys2Proof.Laws.Preds.second (Sys2Proof.Laws.Preds.first (show wfSyncAdd u p rd ra rb = true from hwf))
theorem Sys2Proof.Laws.Preds.syncSet (u p rd ra rb : Nat) : Sys2Proof.Laws.Preds.Statement (.syncSet u p rd ra rb) := fun hwf => Sys2Proof.Laws.Preds.second (Sys2Proof.Laws.Preds.first (show wfSyncSet u p rd ra rb = true from hwf))
theorem Sys2Proof.Laws.Preds.syncWait (u p rd ra rb : Nat) : Sys2Proof.Laws.Preds.Statement (.syncWait u p rd ra rb) := fun hwf => Sys2Proof.Laws.Preds.second (Sys2Proof.Laws.Preds.first (show wfSyncWait u p rd ra rb = true from hwf))
theorem Sys2Proof.Laws.Preds.syncTest (u p pd ra rb : Nat) : Sys2Proof.Laws.Preds.Statement (.syncTest u p pd ra rb) := fun hwf => Sys2Proof.Laws.Preds.second (Sys2Proof.Laws.Preds.first (Sys2Proof.Laws.Preds.first (show wfSyncTest u p pd ra rb = true from hwf)))
theorem Sys2Proof.Laws.Preds.lockAcq (u p rd ra : Nat) : Sys2Proof.Laws.Preds.Statement (.lockAcq u p rd ra) := fun hwf => Sys2Proof.Laws.Preds.second (Sys2Proof.Laws.Preds.first (show wfLockAcq u p rd ra = true from hwf))
theorem Sys2Proof.Laws.Preds.lockRel (u p ra : Nat) : Sys2Proof.Laws.Preds.Statement (.lockRel u p ra) := fun hwf => Sys2Proof.Laws.Preds.second (Sys2Proof.Laws.Preds.first (show wfLockRel u p ra = true from hwf))
theorem Sys2Proof.Laws.Preds.mbxSend (u p rd ra rb : Nat) : Sys2Proof.Laws.Preds.Statement (.mbxSend u p rd ra rb) := fun hwf => Sys2Proof.Laws.Preds.second (Sys2Proof.Laws.Preds.first (show wfMbxSend u p rd ra rb = true from hwf))
theorem Sys2Proof.Laws.Preds.mbxWdraw (u p rd ra : Nat) : Sys2Proof.Laws.Preds.Statement (.mbxWdraw u p rd ra) := fun hwf => Sys2Proof.Laws.Preds.second (Sys2Proof.Laws.Preds.first (show wfMbxWdraw u p rd ra = true from hwf))
theorem Sys2Proof.Laws.Preds.qSubmit (u p rd ra vb : Nat) : Sys2Proof.Laws.Preds.Statement (.qSubmit u p rd ra vb) := fun hwf => Sys2Proof.Laws.Preds.second (Sys2Proof.Laws.Preds.first (Sys2Proof.Laws.Preds.first (show wfQSubmit u p rd ra vb = true from hwf)))
theorem Sys2Proof.Laws.Preds.qTake (u p pd vd ra : Nat) : Sys2Proof.Laws.Preds.Statement (.qTake u p pd vd ra) := fun hwf => Sys2Proof.Laws.Preds.second (Sys2Proof.Laws.Preds.first (Sys2Proof.Laws.Preds.first (Sys2Proof.Laws.Preds.first (show wfQTake u p pd vd ra = true from hwf))))
theorem Sys2Proof.Laws.Preds.evtWait (u p : Nat) : Sys2Proof.Laws.Preds.Statement (.evtWait u p) := fun hwf => Sys2Proof.Laws.Preds.second (show wfEvtWait u p = true from hwf)
theorem Sys2Proof.Laws.Preds.evtSend (u p ctx : Nat) : Sys2Proof.Laws.Preds.Statement (.evtSend u p ctx) := fun hwf => Sys2Proof.Laws.Preds.second (Sys2Proof.Laws.Preds.first (show wfEvtSend u p ctx = true from hwf))
theorem Sys2Proof.Laws.Preds.glintWaitNext (u p : Nat) : Sys2Proof.Laws.Preds.Statement (.glintWaitNext u p) := fun hwf => Sys2Proof.Laws.Preds.second (show wfGlintWaitNext u p = true from hwf)
theorem Sys2Proof.Laws.Preds.glintWaitAlign (u p : Nat) : Sys2Proof.Laws.Preds.Statement (.glintWaitAlign u p) := fun hwf => Sys2Proof.Laws.Preds.second (show wfGlintWaitAlign u p = true from hwf)
theorem Sys2Proof.Laws.Preds.boundary (u p : Nat) : Sys2Proof.Laws.Preds.Statement (.boundary u p) := fun hwf => Sys2Proof.Laws.Preds.second (show wfBoundary u p = true from hwf)
theorem Sys2Proof.Laws.Preds.halt (u p : Nat) : Sys2Proof.Laws.Preds.Statement (.halt u p) := fun hwf => Sys2Proof.Laws.Preds.second (show wfHalt u p = true from hwf)
theorem Sys2Proof.Laws.Preds.fault (u p imm : Nat) : Sys2Proof.Laws.Preds.Statement (.fault u p imm) := fun hwf => Sys2Proof.Laws.Preds.second (Sys2Proof.Laws.Preds.first (show wfFault u p imm = true from hwf))
theorem Sys2Proof.Laws.Preds.fpRd (u p rd port : Nat) : Sys2Proof.Laws.Preds.Statement (.fpRd u p rd port) := fun hwf => Sys2Proof.Laws.Preds.second (Sys2Proof.Laws.Preds.first (Sys2Proof.Laws.Preds.first (show wfFpRd u p rd port = true from hwf)))
theorem Sys2Proof.Laws.Preds.fpWr (u p ra port : Nat) : Sys2Proof.Laws.Preds.Statement (.fpWr u p ra port) := fun hwf => Sys2Proof.Laws.Preds.second (Sys2Proof.Laws.Preds.first (Sys2Proof.Laws.Preds.first (show wfFpWr u p ra port = true from hwf)))
theorem Sys2Proof.Laws.Preds.fpFlush (u p port : Nat) : Sys2Proof.Laws.Preds.Statement (.fpFlush u p port) := fun hwf => Sys2Proof.Laws.Preds.second (Sys2Proof.Laws.Preds.first (show wfFpFlush u p port = true from hwf))
theorem Sys2Proof.Laws.Preds.fpMark (u p port imm : Nat) : Sys2Proof.Laws.Preds.Statement (.fpMark u p port imm) := fun hwf => Sys2Proof.Laws.Preds.second (Sys2Proof.Laws.Preds.first (Sys2Proof.Laws.Preds.first (show wfFpMark u p port imm = true from hwf)))
theorem Sys2Proof.Laws.Preds.svPrst (u p ra : Nat) : Sys2Proof.Laws.Preds.Statement (.svPrst u p ra) := fun hwf => Sys2Proof.Laws.Preds.second (Sys2Proof.Laws.Preds.first (show wfSvPrst u p ra = true from hwf))
theorem Sys2Proof.Laws.Preds.svSres (u p ra rb : Nat) : Sys2Proof.Laws.Preds.Statement (.svSres u p ra rb) := fun hwf => Sys2Proof.Laws.Preds.second (Sys2Proof.Laws.Preds.first (show wfSvSres u p ra rb = true from hwf))
theorem Sys2Proof.Laws.Preds.svPsw (u p ra vb : Nat) : Sys2Proof.Laws.Preds.Statement (.svPsw u p ra vb) := fun hwf => Sys2Proof.Laws.Preds.second (Sys2Proof.Laws.Preds.first (Sys2Proof.Laws.Preds.first (show wfSvPsw u p ra vb = true from hwf)))
theorem Sys2Proof.Laws.Preds.loadReturn (tag : Nat) : Sys2Proof.Laws.Preds.Statement (.loadReturn tag) := fun _ => Nat.zero_lt_succ 7
theorem Sys2Proof.Laws.Preds.storeAck (tag : Nat) : Sys2Proof.Laws.Preds.Statement (.storeAck tag) := fun _ => Nat.zero_lt_succ 7
theorem Sys2Proof.Laws.Preds.trapTake (u c : Nat) : Sys2Proof.Laws.Preds.Statement (.trapTake u c) := fun _ => Nat.zero_lt_succ 7
theorem Sys2Proof.Laws.Preds.haltReq (m : Master) (u c : Nat) : Sys2Proof.Laws.Preds.Statement (.haltReq m u c) := fun _ => Nat.zero_lt_succ 7
theorem Sys2Proof.Laws.Preds.resume (m : Master) (u c : Nat) : Sys2Proof.Laws.Preds.Statement (.resume m u c) := fun _ => Nat.zero_lt_succ 7
theorem Sys2Proof.Laws.Preds.stepCtx (m : Master) (u c : Nat) : Sys2Proof.Laws.Preds.Statement (.stepCtx m u c) := fun _ => Nat.zero_lt_succ 7
theorem Sys2Proof.Laws.Preds.setSoft (m : Master) (u c : Nat) : Sys2Proof.Laws.Preds.Statement (.setSoft m u c) := fun _ => Nat.zero_lt_succ 7
theorem Sys2Proof.Laws.Preds.plotReset (m : Master) (p : Nat) (start : Bool) : Sys2Proof.Laws.Preds.Statement (.plotReset m p start) := fun _ => Nat.zero_lt_succ 7
theorem Sys2Proof.Laws.Preds.plotStart (m : Master) (p : Nat) : Sys2Proof.Laws.Preds.Statement (.plotStart m p) := fun _ => Nat.zero_lt_succ 7
theorem Sys2Proof.Laws.Preds.plotFaultSettle (p : Nat) : Sys2Proof.Laws.Preds.Statement (.plotFaultSettle p) := fun _ => Nat.zero_lt_succ 7
theorem Sys2Proof.Laws.Preds.epochStart (m : Master) : Sys2Proof.Laws.Preds.Statement (.epochStart m) := fun _ => Nat.zero_lt_succ 7
theorem Sys2Proof.Laws.Preds.epochEnd (m : Master) : Sys2Proof.Laws.Preds.Statement (.epochEnd m) := fun _ => Nat.zero_lt_succ 7
theorem Sys2Proof.Laws.Preds.epochTimeout (p : Nat) : Sys2Proof.Laws.Preds.Statement (.epochTimeout p) := fun _ => Nat.zero_lt_succ 7
theorem Sys2Proof.Laws.Preds.epochHalted : Sys2Proof.Laws.Preds.Statement .epochHalted := fun _ => Nat.zero_lt_succ 7
theorem Sys2Proof.Laws.Preds.epochDrained : Sys2Proof.Laws.Preds.Statement .epochDrained := fun _ => Nat.zero_lt_succ 7
theorem Sys2Proof.Laws.Preds.epochSparesMoved : Sys2Proof.Laws.Preds.Statement .epochSparesMoved := fun _ => Nat.zero_lt_succ 7
theorem Sys2Proof.Laws.Preds.engineCommandStart (u e : Nat) : Sys2Proof.Laws.Preds.Statement (.engineCommandStart u e) := fun _ => Nat.zero_lt_succ 7
theorem Sys2Proof.Laws.Preds.engineCommandComplete (u e active stalls early : Nat) : Sys2Proof.Laws.Preds.Statement (.engineCommandComplete u e active stalls early) := fun _ => Nat.zero_lt_succ 7
theorem Sys2Proof.Laws.Preds.enginePoison (u e : Nat) : Sys2Proof.Laws.Preds.Statement (.enginePoison u e) := fun _ => Nat.zero_lt_succ 7
theorem Sys2Proof.Laws.Preds.bankOwnerWrite (m : Master) (u b code : Nat) : Sys2Proof.Laws.Preds.Statement (.bankOwnerWrite m u b code) := fun _ => Nat.zero_lt_succ 7
theorem Sys2Proof.Laws.Preds.bankHandover (u b : Nat) : Sys2Proof.Laws.Preds.Statement (.bankHandover u b) := fun _ => Nat.zero_lt_succ 7
theorem Sys2Proof.Laws.Preds.eccRewrite (phys word : Nat) : Sys2Proof.Laws.Preds.Statement (.eccRewrite phys word) := fun _ => Nat.zero_lt_succ 7
theorem Sys2Proof.Laws.Preds.sieveDue (phys : Nat) : Sys2Proof.Laws.Preds.Statement (.sieveDue phys) := fun _ => Nat.zero_lt_succ 7
theorem Sys2Proof.Laws.Preds.sieveRegionStart (phys : Nat) : Sys2Proof.Laws.Preds.Statement (.sieveRegionStart phys) := fun _ => Nat.zero_lt_succ 7
theorem Sys2Proof.Laws.Preds.sieveRegionEnd (phys : Nat) (bad : Option (Nat × Nat)) : Sys2Proof.Laws.Preds.Statement (.sieveRegionEnd phys bad) := fun _ => Nat.zero_lt_succ 7
theorem Sys2Proof.Laws.Preds.scrubDue (phys : Nat) (upsets : List (Nat × Bool)) : Sys2Proof.Laws.Preds.Statement (.scrubDue phys upsets) := fun _ => Nat.zero_lt_succ 7
theorem Sys2Proof.Laws.Preds.scrubRow (phys : Nat) : Sys2Proof.Laws.Preds.Statement (.scrubRow phys) := fun _ => Nat.zero_lt_succ 7
theorem Sys2Proof.Laws.Preds.channelRequestIssue (u ch : Nat) : Sys2Proof.Laws.Preds.Statement (.channelRequestIssue u ch) := fun _ => Nat.zero_lt_succ 7
theorem Sys2Proof.Laws.Preds.streamReadResponse (tag : Nat) : Sys2Proof.Laws.Preds.Statement (.streamReadResponse tag) := fun _ => Nat.zero_lt_succ 7
theorem Sys2Proof.Laws.Preds.streamWriteAck (tag : Nat) : Sys2Proof.Laws.Preds.Statement (.streamWriteAck tag) := fun _ => Nat.zero_lt_succ 7
theorem Sys2Proof.Laws.Preds.segmentPublish (u ch : Nat) : Sys2Proof.Laws.Preds.Statement (.segmentPublish u ch) := fun _ => Nat.zero_lt_succ 7
theorem Sys2Proof.Laws.Preds.streamComplete (u ch : Nat) : Sys2Proof.Laws.Preds.Statement (.streamComplete u ch) := fun _ => Nat.zero_lt_succ 7
theorem Sys2Proof.Laws.Preds.channelCloseDone (u ch : Nat) : Sys2Proof.Laws.Preds.Statement (.channelCloseDone u ch) := fun _ => Nat.zero_lt_succ 7
theorem Sys2Proof.Laws.Preds.rateSample : Sys2Proof.Laws.Preds.Statement .rateSample := fun _ => Nat.zero_lt_succ 7
theorem Sys2Proof.Laws.Preds.streamStall (u ch : Nat) : Sys2Proof.Laws.Preds.Statement (.streamStall u ch) := fun _ => Nat.zero_lt_succ 7
theorem Sys2Proof.Laws.Preds.spillPageTake (u ch : Nat) : Sys2Proof.Laws.Preds.Statement (.spillPageTake u ch) := fun _ => Nat.zero_lt_succ 7
theorem Sys2Proof.Laws.Preds.spillPageReturn (u ch : Nat) : Sys2Proof.Laws.Preds.Statement (.spillPageReturn u ch) := fun _ => Nat.zero_lt_succ 7
theorem Sys2Proof.Laws.Preds.atsTranslationCompletion (p page : Nat) (write : Bool) (base pages : Nat) (rd wr : Bool) : Sys2Proof.Laws.Preds.Statement (.atsTranslationCompletion p page write base pages rd wr) := fun _ => Nat.zero_lt_succ 7
theorem Sys2Proof.Laws.Preds.pageResponse (p page : Nat) (resp : PageResp) : Sys2Proof.Laws.Preds.Statement (.pageResponse p page resp) := fun _ => Nat.zero_lt_succ 7
theorem Sys2Proof.Laws.Preds.atsInvalidate (p page pages : Nat) : Sys2Proof.Laws.Preds.Statement (.atsInvalidate p page pages) := fun _ => Nat.zero_lt_succ 7
theorem Sys2Proof.Laws.Preds.hostMemoryRead (tag part : Nat) : Sys2Proof.Laws.Preds.Statement (.hostMemoryRead tag part) := fun _ => Nat.zero_lt_succ 7
theorem Sys2Proof.Laws.Preds.hostMemoryWrite (tag part : Nat) : Sys2Proof.Laws.Preds.Statement (.hostMemoryWrite tag part) := fun _ => Nat.zero_lt_succ 7
theorem Sys2Proof.Laws.Preds.hostReadCompletion (tag part : Nat) (data : Option (List Byte)) : Sys2Proof.Laws.Preds.Statement (.hostReadCompletion tag part data) := fun _ => Nat.zero_lt_succ 7
theorem Sys2Proof.Laws.Preds.streamTokenSend (u ch : Nat) : Sys2Proof.Laws.Preds.Statement (.streamTokenSend u ch) := fun _ => Nat.zero_lt_succ 7
theorem Sys2Proof.Laws.Preds.streamTokenArrive (u port link : Nat) : Sys2Proof.Laws.Preds.Statement (.streamTokenArrive u port link) := fun _ => Nat.zero_lt_succ 7
theorem Sys2Proof.Laws.Preds.streamCreditReturn (u ch : Nat) : Sys2Proof.Laws.Preds.Statement (.streamCreditReturn u ch) := fun _ => Nat.zero_lt_succ 7
theorem Sys2Proof.Laws.Preds.fenceMarkerReceive (u ch : Nat) : Sys2Proof.Laws.Preds.Statement (.fenceMarkerReceive u ch) := fun _ => Nat.zero_lt_succ 7
theorem Sys2Proof.Laws.Preds.packetForward (h port : Nat) (out : Bool) (what : Passing) : Sys2Proof.Laws.Preds.Statement (.packetForward h port out what) := fun _ => Nat.zero_lt_succ 7
theorem Sys2Proof.Laws.Preds.packetPortRequest (tag part : Nat) : Sys2Proof.Laws.Preds.Statement (.packetPortRequest tag part) := fun _ => Nat.zero_lt_succ 7
theorem Sys2Proof.Laws.Preds.eventPacket : Sys2Proof.Laws.Preds.Statement .eventPacket := fun _ => Nat.zero_lt_succ 7
theorem Sys2Proof.Laws.Preds.doorbellPacket : Sys2Proof.Laws.Preds.Statement .doorbellPacket := fun _ => Nat.zero_lt_succ 7
theorem Sys2Proof.Laws.Preds.blockWakeRequest (b vc : Nat) (req : Option (Nat × Nat)) : Sys2Proof.Laws.Preds.Statement (.blockWakeRequest b vc req) := fun _ => Nat.zero_lt_succ 7
theorem Sys2Proof.Laws.Preds.blockWakeComplete (b : Nat) : Sys2Proof.Laws.Preds.Statement (.blockWakeComplete b) := fun _ => Nat.zero_lt_succ 7
theorem Sys2Proof.Laws.Preds.wakeTimeout (b vc : Nat) : Sys2Proof.Laws.Preds.Statement (.wakeTimeout b vc) := fun _ => Nat.zero_lt_succ 7
theorem Sys2Proof.Laws.Preds.ltnCfgWrite (m : Master) (p : Nat) (v : W64) : Sys2Proof.Laws.Preds.Statement (.ltnCfgWrite m p v) := fun _ => Nat.zero_lt_succ 7
theorem Sys2Proof.Laws.Preds.ltnRingWrite (m : Master) (p : Nat) (v : W64) : Sys2Proof.Laws.Preds.Statement (.ltnRingWrite m p v) := fun _ => Nat.zero_lt_succ 7
theorem Sys2Proof.Laws.Preds.syncObjectAdd (src : OpFrom) : Sys2Proof.Laws.Preds.Statement (.syncObjectAdd src) := fun _ => Nat.zero_lt_succ 7
theorem Sys2Proof.Laws.Preds.syncObjectSet (src : OpFrom) : Sys2Proof.Laws.Preds.Statement (.syncObjectSet src) := fun _ => Nat.zero_lt_succ 7
theorem Sys2Proof.Laws.Preds.syncObjectWait (src : OpFrom) : Sys2Proof.Laws.Preds.Statement (.syncObjectWait src) := fun _ => Nat.zero_lt_succ 7
theorem Sys2Proof.Laws.Preds.syncObjectTest (src : OpFrom) : Sys2Proof.Laws.Preds.Statement (.syncObjectTest src) := fun _ => Nat.zero_lt_succ 7
theorem Sys2Proof.Laws.Preds.syncWake (tag : Nat) : Sys2Proof.Laws.Preds.Statement (.syncWake tag) := fun _ => Nat.zero_lt_succ 7
theorem Sys2Proof.Laws.Preds.syncWaitRetry (tag : Nat) : Sys2Proof.Laws.Preds.Statement (.syncWaitRetry tag) := fun _ => Nat.zero_lt_succ 7
theorem Sys2Proof.Laws.Preds.syncValueWrite (m : Master) (i : Nat) (v : W64) : Sys2Proof.Laws.Preds.Statement (.syncValueWrite m i v) := fun _ => Nat.zero_lt_succ 7
theorem Sys2Proof.Laws.Preds.syncCtrlWrite (m : Master) (i plot : Nat) (owned open_ : Bool) : Sys2Proof.Laws.Preds.Statement (.syncCtrlWrite m i plot owned open_) := fun _ => Nat.zero_lt_succ 7
theorem Sys2Proof.Laws.Preds.lockRead (src : LockFrom) : Sys2Proof.Laws.Preds.Statement (.lockRead src) := fun _ => Nat.zero_lt_succ 7
theorem Sys2Proof.Laws.Preds.lockReleaseWrite (src : LockFrom) : Sys2Proof.Laws.Preds.Statement (.lockReleaseWrite src) := fun _ => Nat.zero_lt_succ 7
theorem Sys2Proof.Laws.Preds.lockForce (m : Master) (i : Nat) : Sys2Proof.Laws.Preds.Statement (.lockForce m i) := fun _ => Nat.zero_lt_succ 7
theorem Sys2Proof.Laws.Preds.mbxSendDeliver (tag : Nat) : Sys2Proof.Laws.Preds.Statement (.mbxSendDeliver tag) := fun _ => Nat.zero_lt_succ 7
theorem Sys2Proof.Laws.Preds.mbxWithdraw (tag : Nat) : Sys2Proof.Laws.Preds.Statement (.mbxWithdraw tag) := fun _ => Nat.zero_lt_succ 7
theorem Sys2Proof.Laws.Preds.mbxReserve (m : Master) (j : Nat) : Sys2Proof.Laws.Preds.Statement (.mbxReserve m j) := fun _ => Nat.zero_lt_succ 7
theorem Sys2Proof.Laws.Preds.mbxClaim (m : Master) (j : Nat) : Sys2Proof.Laws.Preds.Statement (.mbxClaim m j) := fun _ => Nat.zero_lt_succ 7
theorem Sys2Proof.Laws.Preds.mbxPortSend (m : Master) (j db len : Nat) : Sys2Proof.Laws.Preds.Statement (.mbxPortSend m j db len) := fun _ => Nat.zero_lt_succ 7
theorem Sys2Proof.Laws.Preds.mbxPortFree (m : Master) (j : Nat) : Sys2Proof.Laws.Preds.Statement (.mbxPortFree m j) := fun _ => Nat.zero_lt_succ 7
theorem Sys2Proof.Laws.Preds.mbxPortWdraw (m : Master) (j : Nat) : Sys2Proof.Laws.Preds.Statement (.mbxPortWdraw m j) := fun _ => Nat.zero_lt_succ 7
theorem Sys2Proof.Laws.Preds.mbxPortCancel (m : Master) (j : Nat) : Sys2Proof.Laws.Preds.Statement (.mbxPortCancel m j) := fun _ => Nat.zero_lt_succ 7
theorem Sys2Proof.Laws.Preds.mbxReserveLapse (j : Nat) : Sys2Proof.Laws.Preds.Statement (.mbxReserveLapse j) := fun _ => Nat.zero_lt_succ 7
theorem Sys2Proof.Laws.Preds.mbxDbWrite (m : Master) (j clear mask : Nat) : Sys2Proof.Laws.Preds.Statement (.mbxDbWrite m j clear mask) := fun _ => Nat.zero_lt_succ 7
theorem Sys2Proof.Laws.Preds.queueSubmit (src : SubmitFrom) : Sys2Proof.Laws.Preds.Statement (.queueSubmit src) := fun _ => Nat.zero_lt_succ 7
theorem Sys2Proof.Laws.Preds.queueEntryVisible (q : Nat) : Sys2Proof.Laws.Preds.Statement (.queueEntryVisible q) := fun _ => Nat.zero_lt_succ 7
theorem Sys2Proof.Laws.Preds.queueTake (tag : Nat) (host : W512) : Sys2Proof.Laws.Preds.Statement (.queueTake tag host) := fun _ => Nat.zero_lt_succ 7
theorem Sys2Proof.Laws.Preds.qHeadWrite (m : Master) (q head : Nat) : Sys2Proof.Laws.Preds.Statement (.qHeadWrite m q head) := fun _ => Nat.zero_lt_succ 7
theorem Sys2Proof.Laws.Preds.qCfgWrite (m : Master) (q v : Nat) : Sys2Proof.Laws.Preds.Statement (.qCfgWrite m q v) := fun _ => Nat.zero_lt_succ 7
theorem Sys2Proof.Laws.Preds.lmcRead (q : LmcReq) (b : Bursts) : Sys2Proof.Laws.Preds.Statement (.lmcRead q b) := fun _ => Nat.zero_lt_succ 7
theorem Sys2Proof.Laws.Preds.lmcWrite (q : LmcReq) (b : Bursts) : Sys2Proof.Laws.Preds.Statement (.lmcWrite q b) := fun _ => Nat.zero_lt_succ 7
theorem Sys2Proof.Laws.Preds.stripeWrite (stripe : Nat) (lost : List Nat) : Sys2Proof.Laws.Preds.Statement (.stripeWrite stripe lost) := fun _ => Nat.zero_lt_succ 7
theorem Sys2Proof.Laws.Preds.reinstate (m : Master) (x : Nat) (pass : Bool) : Sys2Proof.Laws.Preds.Statement (.reinstate m x pass) := fun _ => Nat.zero_lt_succ 7
theorem Sys2Proof.Laws.Preds.channelRebuildStripe (x : Nat) (b : Bursts) : Sys2Proof.Laws.Preds.Statement (.channelRebuildStripe x b) := fun _ => Nat.zero_lt_succ 7
theorem Sys2Proof.Laws.Preds.lpddrTrainingDone (bad : List Nat) : Sys2Proof.Laws.Preds.Statement (.lpddrTrainingDone bad) := fun _ => Nat.zero_lt_succ 7
theorem Sys2Proof.Laws.Preds.lpddrInitDone : Sys2Proof.Laws.Preds.Statement .lpddrInitDone := fun _ => Nat.zero_lt_succ 7
theorem Sys2Proof.Laws.Preds.retrainDue (i : Nat) : Sys2Proof.Laws.Preds.Statement (.retrainDue i) := fun _ => Nat.zero_lt_succ 7
theorem Sys2Proof.Laws.Preds.retrainStart (i : Nat) : Sys2Proof.Laws.Preds.Statement (.retrainStart i) := fun _ => Nat.zero_lt_succ 7
theorem Sys2Proof.Laws.Preds.retrainEnd (i : Nat) (ok : Bool) : Sys2Proof.Laws.Preds.Statement (.retrainEnd i ok) := fun _ => Nat.zero_lt_succ 7
theorem Sys2Proof.Laws.Preds.patrolScrubStripe (b : Bursts) : Sys2Proof.Laws.Preds.Statement (.patrolScrubStripe b) := fun _ => Nat.zero_lt_succ 7
theorem Sys2Proof.Laws.Preds.bar4Read (p x n : Nat) (b : Bursts) : Sys2Proof.Laws.Preds.Statement (.bar4Read p x n b) := fun _ => Nat.zero_lt_succ 7
theorem Sys2Proof.Laws.Preds.bar4Write (p x : Nat) (data : List Byte) (b : Bursts) : Sys2Proof.Laws.Preds.Statement (.bar4Write p x data b) := fun _ => Nat.zero_lt_succ 7
theorem Sys2Proof.Laws.Preds.lmcWinWrite (m : Master) (p base : Nat) : Sys2Proof.Laws.Preds.Statement (.lmcWinWrite m p base) := fun _ => Nat.zero_lt_succ 7
theorem Sys2Proof.Laws.Preds.cellNop (i : Nat) : Sys2Proof.Laws.Preds.Statement (.cellNop i) := fun _ => Nat.zero_lt_succ 7
theorem Sys2Proof.Laws.Preds.cellAdd (i : Nat) : Sys2Proof.Laws.Preds.Statement (.cellAdd i) := fun _ => Nat.zero_lt_succ 7
theorem Sys2Proof.Laws.Preds.cellSub (i : Nat) : Sys2Proof.Laws.Preds.Statement (.cellSub i) := fun _ => Nat.zero_lt_succ 7
theorem Sys2Proof.Laws.Preds.cellAnd (i : Nat) : Sys2Proof.Laws.Preds.Statement (.cellAnd i) := fun _ => Nat.zero_lt_succ 7
theorem Sys2Proof.Laws.Preds.cellOr (i : Nat) : Sys2Proof.Laws.Preds.Statement (.cellOr i) := fun _ => Nat.zero_lt_succ 7
theorem Sys2Proof.Laws.Preds.cellXor (i : Nat) : Sys2Proof.Laws.Preds.Statement (.cellXor i) := fun _ => Nat.zero_lt_succ 7
theorem Sys2Proof.Laws.Preds.cellShl (i : Nat) : Sys2Proof.Laws.Preds.Statement (.cellShl i) := fun _ => Nat.zero_lt_succ 7
theorem Sys2Proof.Laws.Preds.cellShr (i : Nat) : Sys2Proof.Laws.Preds.Statement (.cellShr i) := fun _ => Nat.zero_lt_succ 7
theorem Sys2Proof.Laws.Preds.cellSra (i : Nat) : Sys2Proof.Laws.Preds.Statement (.cellSra i) := fun _ => Nat.zero_lt_succ 7
theorem Sys2Proof.Laws.Preds.cellCmpeq (i : Nat) : Sys2Proof.Laws.Preds.Statement (.cellCmpeq i) := fun _ => Nat.zero_lt_succ 7
theorem Sys2Proof.Laws.Preds.cellCmplt (i : Nat) : Sys2Proof.Laws.Preds.Statement (.cellCmplt i) := fun _ => Nat.zero_lt_succ 7
theorem Sys2Proof.Laws.Preds.cellCmpltu (i : Nat) : Sys2Proof.Laws.Preds.Statement (.cellCmpltu i) := fun _ => Nat.zero_lt_succ 7
theorem Sys2Proof.Laws.Preds.cellSel (i : Nat) : Sys2Proof.Laws.Preds.Statement (.cellSel i) := fun _ => Nat.zero_lt_succ 7
theorem Sys2Proof.Laws.Preds.cellMulu (i : Nat) : Sys2Proof.Laws.Preds.Statement (.cellMulu i) := fun _ => Nat.zero_lt_succ 7
theorem Sys2Proof.Laws.Preds.cellMuls (i : Nat) : Sys2Proof.Laws.Preds.Statement (.cellMuls i) := fun _ => Nat.zero_lt_succ 7
theorem Sys2Proof.Laws.Preds.cellMov (i : Nat) : Sys2Proof.Laws.Preds.Statement (.cellMov i) := fun _ => Nat.zero_lt_succ 7
theorem Sys2Proof.Laws.Preds.memoryBlockAccess (r b q ecc : Nat) : Sys2Proof.Laws.Preds.Statement (.memoryBlockAccess r b q ecc) := fun _ => Nat.zero_lt_succ 7
theorem Sys2Proof.Laws.Preds.loamWindowAccess (tag part : Nat) (ecc : List Nat) : Sys2Proof.Laws.Preds.Statement (.loamWindowAccess tag part ecc) := fun _ => Nat.zero_lt_succ 7
theorem Sys2Proof.Laws.Preds.hostifLwinDataRead (m : Master) (p : Nat) (ecc : List Nat) : Sys2Proof.Laws.Preds.Statement (.hostifLwinDataRead m p ecc) := fun _ => Nat.zero_lt_succ 7
theorem Sys2Proof.Laws.Preds.hostifLwinDataWrite (m : Master) (p : Nat) (v : W64) : Sys2Proof.Laws.Preds.Statement (.hostifLwinDataWrite m p v) := fun _ => Nat.zero_lt_succ 7
theorem Sys2Proof.Laws.Preds.fabricRxWord (r p : Nat) : Sys2Proof.Laws.Preds.Statement (.fabricRxWord r p) := fun _ => Nat.zero_lt_succ 7
theorem Sys2Proof.Laws.Preds.fabricRxScratchWrite (r p : Nat) : Sys2Proof.Laws.Preds.Statement (.fabricRxScratchWrite r p) := fun _ => Nat.zero_lt_succ 7
theorem Sys2Proof.Laws.Preds.fabricRxScratchRead (r p : Nat) : Sys2Proof.Laws.Preds.Statement (.fabricRxScratchRead r p) := fun _ => Nat.zero_lt_succ 7
theorem Sys2Proof.Laws.Preds.fabricPortCode (r p : Nat) : Sys2Proof.Laws.Preds.Statement (.fabricPortCode r p) := fun _ => Nat.zero_lt_succ 7
theorem Sys2Proof.Laws.Preds.ioInputToken (r i v : Nat) : Sys2Proof.Laws.Preds.Statement (.ioInputToken r i v) := fun _ => Nat.zero_lt_succ 7
theorem Sys2Proof.Laws.Preds.ioOutputStart (r i : Nat) : Sys2Proof.Laws.Preds.Statement (.ioOutputStart r i) := fun _ => Nat.zero_lt_succ 7
theorem Sys2Proof.Laws.Preds.ioOutputTokenEnd (r i : Nat) : Sys2Proof.Laws.Preds.Statement (.ioOutputTokenEnd r i) := fun _ => Nat.zero_lt_succ 7
theorem Sys2Proof.Laws.Preds.ioDelaySwap (r : Nat) : Sys2Proof.Laws.Preds.Statement (.ioDelaySwap r) := fun _ => Nat.zero_lt_succ 7
theorem Sys2Proof.Laws.Preds.ioClockLost (r c : Nat) : Sys2Proof.Laws.Preds.Statement (.ioClockLost r c) := fun _ => Nat.zero_lt_succ 7
theorem Sys2Proof.Laws.Preds.ioClockReturn (r c : Nat) : Sys2Proof.Laws.Preds.Statement (.ioClockReturn r c) := fun _ => Nat.zero_lt_succ 7
theorem Sys2Proof.Laws.Preds.laneRxTransfer (l c : Nat) (d : W64) : Sys2Proof.Laws.Preds.Statement (.laneRxTransfer l c d) := fun _ => Nat.zero_lt_succ 7
theorem Sys2Proof.Laws.Preds.laneTxUnderrun (l : Nat) : Sys2Proof.Laws.Preds.Statement (.laneTxUnderrun l) := fun _ => Nat.zero_lt_succ 7
theorem Sys2Proof.Laws.Preds.laneAdaptDone (l : Nat) (preset : W64) : Sys2Proof.Laws.Preds.Statement (.laneAdaptDone l preset) := fun _ => Nat.zero_lt_succ 7
theorem Sys2Proof.Laws.Preds.laneLockLost (l : Nat) (cdr : Bool) : Sys2Proof.Laws.Preds.Statement (.laneLockLost l cdr) := fun _ => Nat.zero_lt_succ 7
theorem Sys2Proof.Laws.Preds.prbsLockChange (l : Nat) (lock : Bool) (errs : Nat) : Sys2Proof.Laws.Preds.Statement (.prbsLockChange l lock errs) := fun _ => Nat.zero_lt_succ 7
theorem Sys2Proof.Laws.Preds.inject (m : Master) (l : Nat) : Sys2Proof.Laws.Preds.Statement (.inject m l) := fun _ => Nat.zero_lt_succ 7
theorem Sys2Proof.Laws.Preds.periodicInjection (l : Nat) : Sys2Proof.Laws.Preds.Statement (.periodicInjection l) := fun _ => Nat.zero_lt_succ 7
theorem Sys2Proof.Laws.Preds.loadVerify (m : Master) : Sys2Proof.Laws.Preds.Statement (.loadVerify m) := fun _ => Nat.zero_lt_succ 7
theorem Sys2Proof.Laws.Preds.loadCommit (m : Master) : Sys2Proof.Laws.Preds.Statement (.loadCommit m) := fun _ => Nat.zero_lt_succ 7
theorem Sys2Proof.Laws.Preds.loadStart (m : Master) : Sys2Proof.Laws.Preds.Statement (.loadStart m) := fun _ => Nat.zero_lt_succ 7
theorem Sys2Proof.Laws.Preds.loadAbort (m : Master) : Sys2Proof.Laws.Preds.Statement (.loadAbort m) := fun _ => Nat.zero_lt_succ 7
theorem Sys2Proof.Laws.Preds.loadUnload (m : Master) : Sys2Proof.Laws.Preds.Statement (.loadUnload m) := fun _ => Nat.zero_lt_succ 7
theorem Sys2Proof.Laws.Preds.loadForward (m : Master) (k : Nat) : Sys2Proof.Laws.Preds.Statement (.loadForward m k) := fun _ => Nat.zero_lt_succ 7
theorem Sys2Proof.Laws.Preds.verifyComplete : Sys2Proof.Laws.Preds.Statement .verifyComplete := fun _ => Nat.zero_lt_succ 7
theorem Sys2Proof.Laws.Preds.loadHoldExpired : Sys2Proof.Laws.Preds.Statement .loadHoldExpired := fun _ => Nat.zero_lt_succ 7
theorem Sys2Proof.Laws.Preds.commitAtSlot : Sys2Proof.Laws.Preds.Statement .commitAtSlot := fun _ => Nat.zero_lt_succ 7
theorem Sys2Proof.Laws.Preds.commitPoint : Sys2Proof.Laws.Preds.Statement .commitPoint := fun _ => Nat.zero_lt_succ 7
theorem Sys2Proof.Laws.Preds.releaseStart : Sys2Proof.Laws.Preds.Statement .releaseStart := fun _ => Nat.zero_lt_succ 7
theorem Sys2Proof.Laws.Preds.releaseStep : Sys2Proof.Laws.Preds.Statement .releaseStep := fun _ => Nat.zero_lt_succ 7
theorem Sys2Proof.Laws.Preds.loadDeadline : Sys2Proof.Laws.Preds.Statement .loadDeadline := fun _ => Nat.zero_lt_succ 7
theorem Sys2Proof.Laws.Preds.loadDeadlineWrite (m : Master) (v : Nat) : Sys2Proof.Laws.Preds.Statement (.loadDeadlineWrite m v) := fun _ => Nat.zero_lt_succ 7
theorem Sys2Proof.Laws.Preds.forwardResult (st code : Nat) : Sys2Proof.Laws.Preds.Statement (.forwardResult st code) := fun _ => Nat.zero_lt_succ 7
theorem Sys2Proof.Laws.Preds.loadForwardFail : Sys2Proof.Laws.Preds.Statement .loadForwardFail := fun _ => Nat.zero_lt_succ 7
theorem Sys2Proof.Laws.Preds.perstAssert (p : Nat) (flr : Bool) : Sys2Proof.Laws.Preds.Statement (.perstAssert p flr) := fun _ => Nat.zero_lt_succ 7
theorem Sys2Proof.Laws.Preds.portCfgReady (p : Nat) : Sys2Proof.Laws.Preds.Statement (.portCfgReady p) := fun _ => Nat.zero_lt_succ 7
theorem Sys2Proof.Laws.Preds.hostLinkDown (p : Nat) : Sys2Proof.Laws.Preds.Statement (.hostLinkDown p) := fun _ => Nat.zero_lt_succ 7
theorem Sys2Proof.Laws.Preds.claim (p : Nat) : Sys2Proof.Laws.Preds.Statement (.claim p) := fun _ => Nat.zero_lt_succ 7
theorem Sys2Proof.Laws.Preds.standby (p : Nat) : Sys2Proof.Laws.Preds.Statement (.standby p) := fun _ => Nat.zero_lt_succ 7
theorem Sys2Proof.Laws.Preds.withdraw (p : Nat) : Sys2Proof.Laws.Preds.Statement (.withdraw p) := fun _ => Nat.zero_lt_succ 7
theorem Sys2Proof.Laws.Preds.release (p : Nat) : Sys2Proof.Laws.Preds.Statement (.release p) := fun _ => Nat.zero_lt_succ 7
theorem Sys2Proof.Laws.Preds.handOver (p : Nat) : Sys2Proof.Laws.Preds.Statement (.handOver p) := fun _ => Nat.zero_lt_succ 7
theorem Sys2Proof.Laws.Preds.ownerBeat (p : Nat) : Sys2Proof.Laws.Preds.Statement (.ownerBeat p) := fun _ => Nat.zero_lt_succ 7
theorem Sys2Proof.Laws.Preds.heartbeatLapse : Sys2Proof.Laws.Preds.Statement .heartbeatLapse := fun _ => Nat.zero_lt_succ 7
theorem Sys2Proof.Laws.Preds.msixUnmask (p : Nat) (vec : Option Nat) : Sys2Proof.Laws.Preds.Statement (.msixUnmask p vec) := fun _ => Nat.zero_lt_succ 7
theorem Sys2Proof.Laws.Preds.cyustPortEnable (m : Master) (p : Nat) (on : Bool) : Sys2Proof.Laws.Preds.Statement (.cyustPortEnable m p on) := fun _ => Nat.zero_lt_succ 7
theorem Sys2Proof.Laws.Preds.cyustTrainingAttempt (p : Nat) : Sys2Proof.Laws.Preds.Statement (.cyustTrainingAttempt p) := fun _ => Nat.zero_lt_succ 7
theorem Sys2Proof.Laws.Preds.cyustTrainingDone (p delay : Nat) (ok : Bool) (bad : List Nat) : Sys2Proof.Laws.Preds.Statement (.cyustTrainingDone p delay ok bad) := fun _ => Nat.zero_lt_succ 7
theorem Sys2Proof.Laws.Preds.cyustIdBlock (p i far : Nat) : Sys2Proof.Laws.Preds.Statement (.cyustIdBlock p i far) := fun _ => Nat.zero_lt_succ 7
theorem Sys2Proof.Laws.Preds.blockLockAcquired (p : Nat) (heads marks : List (Nat × Nat)) : Sys2Proof.Laws.Preds.Statement (.blockLockAcquired p heads marks) := fun _ => Nat.zero_lt_succ 7
theorem Sys2Proof.Laws.Preds.blockLockLost (p : Nat) (heads : Heads) : Sys2Proof.Laws.Preds.Statement (.blockLockLost p heads) := fun _ => Nat.zero_lt_succ 7
theorem Sys2Proof.Laws.Preds.cyustPortDown (p : Nat) (lost : List Nat) : Sys2Proof.Laws.Preds.Statement (.cyustPortDown p lost) := fun _ => Nat.zero_lt_succ 7
theorem Sys2Proof.Laws.Preds.portDownNotice (i far : Nat) : Sys2Proof.Laws.Preds.Statement (.portDownNotice i far) := fun _ => Nat.zero_lt_succ 7
theorem Sys2Proof.Laws.Preds.remoteTimeout (tag part : Nat) : Sys2Proof.Laws.Preds.Statement (.remoteTimeout tag part) := fun _ => Nat.zero_lt_succ 7
theorem Sys2Proof.Laws.Preds.cyustUncorrectableCodeword (p cw : Nat) (errs : List Nat) : Sys2Proof.Laws.Preds.Statement (.cyustUncorrectableCodeword p cw errs) := fun _ => Nat.zero_lt_succ 7
theorem Sys2Proof.Laws.Preds.cyustReplayRequest (p cw : Nat) : Sys2Proof.Laws.Preds.Statement (.cyustReplayRequest p cw) := fun _ => Nat.zero_lt_succ 7
theorem Sys2Proof.Laws.Preds.cyustCreditBlock (p : Nat) (c : CreditIn) : Sys2Proof.Laws.Preds.Statement (.cyustCreditBlock p c) := fun _ => Nat.zero_lt_succ 7
theorem Sys2Proof.Laws.Preds.cyustPktBlock (p cls : Nat) (k : PktIn) : Sys2Proof.Laws.Preds.Statement (.cyustPktBlock p cls k) := fun _ => Nat.zero_lt_succ 7
theorem Sys2Proof.Laws.Preds.cyustStrmBlock (p src dst rlink stamp : Nat) (data : List Byte) (bad : List Nat) (last spill : Bool) : Sys2Proof.Laws.Preds.Statement (.cyustStrmBlock p src dst rlink stamp data bad last spill) := fun _ => Nat.zero_lt_succ 7
theorem Sys2Proof.Laws.Preds.gatewayTokenOut (row : Nat) : Sys2Proof.Laws.Preds.Statement (.gatewayTokenOut row) := fun _ => Nat.zero_lt_succ 7
theorem Sys2Proof.Laws.Preds.cyustDelayBlock (p delay err corr : Nat) (off : Int) (figs : List LaneFig) : Sys2Proof.Laws.Preds.Statement (.cyustDelayBlock p delay err corr off figs) := fun _ => Nat.zero_lt_succ 7
theorem Sys2Proof.Laws.Preds.cyustLaneSwap (p l : Nat) (on : Bool) : Sys2Proof.Laws.Preds.Statement (.cyustLaneSwap p l on) := fun _ => Nat.zero_lt_succ 7
theorem Sys2Proof.Laws.Preds.cyustCalibrationRotation (p : Nat) : Sys2Proof.Laws.Preds.Statement (.cyustCalibrationRotation p) := fun _ => Nat.zero_lt_succ 7
theorem Sys2Proof.Laws.Preds.cyustLaneSpared (p l : Nat) : Sys2Proof.Laws.Preds.Statement (.cyustLaneSpared p l) := fun _ => Nat.zero_lt_succ 7
theorem Sys2Proof.Laws.Preds.cyustIdleEntry (p : Nat) : Sys2Proof.Laws.Preds.Statement (.cyustIdleEntry p) := fun _ => Nat.zero_lt_succ 7
theorem Sys2Proof.Laws.Preds.cyustIdleExit (p : Nat) : Sys2Proof.Laws.Preds.Statement (.cyustIdleExit p) := fun _ => Nat.zero_lt_succ 7
theorem Sys2Proof.Laws.Preds.cyustFarLoopbackRequest (p : Nat) : Sys2Proof.Laws.Preds.Statement (.cyustFarLoopbackRequest p) := fun _ => Nat.zero_lt_succ 7
theorem Sys2Proof.Laws.Preds.cyustLoopWrite (m : Master) (p v : Nat) : Sys2Proof.Laws.Preds.Statement (.cyustLoopWrite m p v) := fun _ => Nat.zero_lt_succ 7
theorem Sys2Proof.Laws.Preds.retrain (m : Master) (p : Nat) : Sys2Proof.Laws.Preds.Statement (.retrain m p) := fun _ => Nat.zero_lt_succ 7
theorem Sys2Proof.Laws.Preds.cyustTopoWrite (m : Master) (v : Nat) : Sys2Proof.Laws.Preds.Statement (.cyustTopoWrite m v) := fun _ => Nat.zero_lt_succ 7
theorem Sys2Proof.Laws.Preds.cyustRtWrite (m : Master) (i v : Nat) : Sys2Proof.Laws.Preds.Statement (.cyustRtWrite m i v) := fun _ => Nat.zero_lt_succ 7
theorem Sys2Proof.Laws.Preds.mcWatchdog : Sys2Proof.Laws.Preds.Statement .mcWatchdog := fun _ => Nat.zero_lt_succ 7
theorem Sys2Proof.Laws.Preds.mcHeartbeat : Sys2Proof.Laws.Preds.Statement .mcHeartbeat := fun _ => Nat.zero_lt_succ 7
theorem Sys2Proof.Laws.Preds.devLiveDrop : Sys2Proof.Laws.Preds.Statement .devLiveDrop := fun _ => Nat.zero_lt_succ 7
theorem Sys2Proof.Laws.Preds.getInfo (q tag : Nat) (body : List Byte) : Sys2Proof.Laws.Preds.Statement (.getInfo q tag body) := fun _ => Nat.zero_lt_succ 7
theorem Sys2Proof.Laws.Preds.getCerts (q tag : Nat) (body : List Byte) : Sys2Proof.Laws.Preds.Statement (.getCerts q tag body) := fun _ => Nat.zero_lt_succ 7
theorem Sys2Proof.Laws.Preds.getMeasurements (q tag : Nat) (body : List Byte) : Sys2Proof.Laws.Preds.Statement (.getMeasurements q tag body) := fun _ => Nat.zero_lt_succ 7
theorem Sys2Proof.Laws.Preds.stageWrite (q tag : Nat) (body : List Byte) : Sys2Proof.Laws.Preds.Statement (.stageWrite q tag body) := fun _ => Nat.zero_lt_succ 7
theorem Sys2Proof.Laws.Preds.loadCmd (q tag : Nat) (body : List Byte) : Sys2Proof.Laws.Preds.Statement (.loadCmd q tag body) := fun _ => Nat.zero_lt_succ 7
theorem Sys2Proof.Laws.Preds.mbxOp (q tag : Nat) (body : List Byte) : Sys2Proof.Laws.Preds.Statement (.mbxOp q tag body) := fun _ => Nat.zero_lt_succ 7
theorem Sys2Proof.Laws.Preds.csrRead (q tag : Nat) (body : List Byte) : Sys2Proof.Laws.Preds.Statement (.csrRead q tag body) := fun _ => Nat.zero_lt_succ 7
theorem Sys2Proof.Laws.Preds.fwUpdate (q tag : Nat) (body : List Byte) (cut : Option Nat) : Sys2Proof.Laws.Preds.Statement (.fwUpdate q tag body cut) := fun _ => Nat.zero_lt_succ 7
theorem Sys2Proof.Laws.Preds.fwCommitSvn (q tag : Nat) (body : List Byte) : Sys2Proof.Laws.Preds.Statement (.fwCommitSvn q tag body) := fun _ => Nat.zero_lt_succ 7
theorem Sys2Proof.Laws.Preds.ccSwitch (q tag : Nat) (body : List Byte) : Sys2Proof.Laws.Preds.Statement (.ccSwitch q tag body) := fun _ => Nat.zero_lt_succ 7
theorem Sys2Proof.Laws.Preds.resetCompute (q tag : Nat) (body : List Byte) : Sys2Proof.Laws.Preds.Statement (.resetCompute q tag body) := fun _ => Nat.zero_lt_succ 7
theorem Sys2Proof.Laws.Preds.mcRestart (q tag : Nat) (body : List Byte) : Sys2Proof.Laws.Preds.Statement (.mcRestart q tag body) := fun _ => Nat.zero_lt_succ 7
theorem Sys2Proof.Laws.Preds.setOwner (q tag : Nat) (body : List Byte) : Sys2Proof.Laws.Preds.Statement (.setOwner q tag body) := fun _ => Nat.zero_lt_succ 7
theorem Sys2Proof.Laws.Preds.clearOwner (q tag : Nat) (body : List Byte) : Sys2Proof.Laws.Preds.Statement (.clearOwner q tag body) := fun _ => Nat.zero_lt_succ 7
theorem Sys2Proof.Laws.Preds.debugUnlock (q tag : Nat) (body : List Byte) : Sys2Proof.Laws.Preds.Statement (.debugUnlock q tag body) := fun _ => Nat.zero_lt_succ 7
theorem Sys2Proof.Laws.Preds.setEndpointId (eid : Nat) : Sys2Proof.Laws.Preds.Statement (.setEndpointId eid) := fun _ => Nat.zero_lt_succ 7
theorem Sys2Proof.Laws.Preds.getEndpointId : Sys2Proof.Laws.Preds.Statement .getEndpointId := fun _ => Nat.zero_lt_succ 7
theorem Sys2Proof.Laws.Preds.getMctpVersionSupport : Sys2Proof.Laws.Preds.Statement .getMctpVersionSupport := fun _ => Nat.zero_lt_succ 7
theorem Sys2Proof.Laws.Preds.getMessageTypeSupport : Sys2Proof.Laws.Preds.Statement .getMessageTypeSupport := fun _ => Nat.zero_lt_succ 7
theorem Sys2Proof.Laws.Preds.getVendorDefinedMessageSupport : Sys2Proof.Laws.Preds.Statement .getVendorDefinedMessageSupport := fun _ => Nat.zero_lt_succ 7
theorem Sys2Proof.Laws.Preds.getTid : Sys2Proof.Laws.Preds.Statement .getTid := fun _ => Nat.zero_lt_succ 7
theorem Sys2Proof.Laws.Preds.setTid (tid : Nat) : Sys2Proof.Laws.Preds.Statement (.setTid tid) := fun _ => Nat.zero_lt_succ 7
theorem Sys2Proof.Laws.Preds.getPldmVersion : Sys2Proof.Laws.Preds.Statement .getPldmVersion := fun _ => Nat.zero_lt_succ 7
theorem Sys2Proof.Laws.Preds.getPldmTypes : Sys2Proof.Laws.Preds.Statement .getPldmTypes := fun _ => Nat.zero_lt_succ 7
theorem Sys2Proof.Laws.Preds.getPldmCommands : Sys2Proof.Laws.Preds.Statement .getPldmCommands := fun _ => Nat.zero_lt_succ 7
theorem Sys2Proof.Laws.Preds.getPdr (h : Nat) : Sys2Proof.Laws.Preds.Statement (.getPdr h) := fun _ => Nat.zero_lt_succ 7
theorem Sys2Proof.Laws.Preds.getSensorReading (id : Nat) : Sys2Proof.Laws.Preds.Statement (.getSensorReading id) := fun _ => Nat.zero_lt_succ 7
theorem Sys2Proof.Laws.Preds.getStateSensorReadings (id : Nat) : Sys2Proof.Laws.Preds.Statement (.getStateSensorReadings id) := fun _ => Nat.zero_lt_succ 7
theorem Sys2Proof.Laws.Preds.getNumericEffecterValue : Sys2Proof.Laws.Preds.Statement .getNumericEffecterValue := fun _ => Nat.zero_lt_succ 7
theorem Sys2Proof.Laws.Preds.setNumericEffecterValue (v : Nat) : Sys2Proof.Laws.Preds.Statement (.setNumericEffecterValue v) := fun _ => Nat.zero_lt_succ 7
theorem Sys2Proof.Laws.Preds.setStateEffecterStates (st : Nat) : Sys2Proof.Laws.Preds.Statement (.setStateEffecterStates st) := fun _ => Nat.zero_lt_succ 7
theorem Sys2Proof.Laws.Preds.setEventReceiver (a : Nat) : Sys2Proof.Laws.Preds.Statement (.setEventReceiver a) := fun _ => Nat.zero_lt_succ 7
theorem Sys2Proof.Laws.Preds.stateSensorEvent (id : Nat) : Sys2Proof.Laws.Preds.Statement (.stateSensorEvent id) := fun _ => Nat.zero_lt_succ 7
theorem Sys2Proof.Laws.Preds.sidebandError : Sys2Proof.Laws.Preds.Statement .sidebandError := fun _ => Nat.zero_lt_succ 7
theorem Sys2Proof.Laws.Preds.bypass : Sys2Proof.Laws.Preds.Statement .bypass := fun _ => Nat.zero_lt_succ 7
theorem Sys2Proof.Laws.Preds.samplePreload (v : Nat) : Sys2Proof.Laws.Preds.Statement (.samplePreload v) := fun _ => Nat.zero_lt_succ 7
theorem Sys2Proof.Laws.Preds.extest : Sys2Proof.Laws.Preds.Statement .extest := fun _ => Nat.zero_lt_succ 7
theorem Sys2Proof.Laws.Preds.clamp : Sys2Proof.Laws.Preds.Statement .clamp := fun _ => Nat.zero_lt_succ 7
theorem Sys2Proof.Laws.Preds.highz : Sys2Proof.Laws.Preds.Statement .highz := fun _ => Nat.zero_lt_succ 7
theorem Sys2Proof.Laws.Preds.doeDiscovery (p i : Nat) : Sys2Proof.Laws.Preds.Statement (.doeDiscovery p i) := fun _ => Nat.zero_lt_succ 7
theorem Sys2Proof.Laws.Preds.governorStep (power vneed est : Nat) (avs : Bool) : Sys2Proof.Laws.Preds.Statement (.governorStep power vneed est avs) := fun _ => Nat.zero_lt_succ 7
theorem Sys2Proof.Laws.Preds.avsRetry (ok : Bool) : Sys2Proof.Laws.Preds.Statement (.avsRetry ok) := fun _ => Nat.zero_lt_succ 7
theorem Sys2Proof.Laws.Preds.pwrLimitWrite (m : Master) (v : W64) : Sys2Proof.Laws.Preds.Statement (.pwrLimitWrite m v) := fun _ => Nat.zero_lt_succ 7
theorem Sys2Proof.Laws.Preds.boostCreditTick : Sys2Proof.Laws.Preds.Statement .boostCreditTick := fun _ => Nat.zero_lt_succ 7
theorem Sys2Proof.Laws.Preds.boostSave : Sys2Proof.Laws.Preds.Statement .boostSave := fun _ => Nat.zero_lt_succ 7
theorem Sys2Proof.Laws.Preds.thermalSample (ts : List Int) : Sys2Proof.Laws.Preds.Statement (.thermalSample ts) := fun _ => Nat.zero_lt_succ 7
theorem Sys2Proof.Laws.Preds.thermalTrip (i : Nat) : Sys2Proof.Laws.Preds.Statement (.thermalTrip i) := fun _ => Nat.zero_lt_succ 7
theorem Sys2Proof.Laws.Preds.pwrShadeWrite (m : Master) (v : W64) : Sys2Proof.Laws.Preds.Statement (.pwrShadeWrite m v) := fun _ => Nat.zero_lt_succ 7
theorem Sys2Proof.Laws.Preds.plotShaded (p : Nat) : Sys2Proof.Laws.Preds.Statement (.plotShaded p) := fun _ => Nat.zero_lt_succ 7
theorem Sys2Proof.Laws.Preds.blockRegate (b : Nat) : Sys2Proof.Laws.Preds.Statement (.blockRegate b) := fun _ => Nat.zero_lt_succ 7
theorem Sys2Proof.Laws.Preds.telemetrySample (powerMs : Nat) (rails : List (Nat × Nat)) : Sys2Proof.Laws.Preds.Statement (.telemetrySample powerMs rails) := fun _ => Nat.zero_lt_succ 7
theorem Sys2Proof.Laws.Preds.telemRingWrite (m : Master) (v : W64) : Sys2Proof.Laws.Preds.Statement (.telemRingWrite m v) := fun _ => Nat.zero_lt_succ 7
theorem Sys2Proof.Laws.Preds.hgRecalDue (ok : Bool) : Sys2Proof.Laws.Preds.Statement (.hgRecalDue ok) := fun _ => Nat.zero_lt_succ 7
theorem Sys2Proof.Laws.Preds.coreTestDue (ph : Nat) : Sys2Proof.Laws.Preds.Statement (.coreTestDue ph) := fun _ => Nat.zero_lt_succ 7
theorem Sys2Proof.Laws.Preds.coreTestStepDone (f : TestFind) : Sys2Proof.Laws.Preds.Statement (.coreTestStepDone f) := fun _ => Nat.zero_lt_succ 7
theorem Sys2Proof.Laws.Preds.coreTestStop (ph : Nat) : Sys2Proof.Laws.Preds.Statement (.coreTestStop ph) := fun _ => Nat.zero_lt_succ 7
theorem Sys2Proof.Laws.Preds.spareRotationDue (g : Nat) : Sys2Proof.Laws.Preds.Statement (.spareRotationDue g) := fun _ => Nat.zero_lt_succ 7
theorem Sys2Proof.Laws.Preds.avlCoreTest (m : Master) (i n : Nat) (force : Bool) : Sys2Proof.Laws.Preds.Statement (.avlCoreTest m i n force) := fun _ => Nat.zero_lt_succ 7
theorem Sys2Proof.Laws.Preds.avlPcoreTest (m : Master) (i ph : Nat) (force : Bool) : Sys2Proof.Laws.Preds.Statement (.avlPcoreTest m i ph force) := fun _ => Nat.zero_lt_succ 7
theorem Sys2Proof.Laws.Preds.avlRetire (m : Master) (i ph : Nat) : Sys2Proof.Laws.Preds.Statement (.avlRetire m i ph) := fun _ => Nat.zero_lt_succ 7
theorem Sys2Proof.Laws.Preds.avlHgCal (m : Master) (i h : Nat) : Sys2Proof.Laws.Preds.Statement (.avlHgCal m i h) := fun _ => Nat.zero_lt_succ 7
theorem Sys2Proof.Laws.Preds.avlLpddrRetrain (m : Master) (i x : Nat) : Sys2Proof.Laws.Preds.Statement (.avlLpddrRetrain m i x) := fun _ => Nat.zero_lt_succ 7
theorem Sys2Proof.Laws.Preds.avlLpddrTest (m : Master) (i x : Nat) (force pass : Bool) : Sys2Proof.Laws.Preds.Statement (.avlLpddrTest m i x force pass) := fun _ => Nat.zero_lt_succ 7
theorem Sys2Proof.Laws.Preds.avlCyustLane (m : Master) (i t : Nat) (force : Bool) : Sys2Proof.Laws.Preds.Statement (.avlCyustLane m i t force) := fun _ => Nat.zero_lt_succ 7
theorem Sys2Proof.Laws.Preds.avlCyustLoop (m : Master) (i t : Nat) (force : Bool) : Sys2Proof.Laws.Preds.Statement (.avlCyustLoop m i t force) := fun _ => Nat.zero_lt_succ 7
theorem Sys2Proof.Laws.Preds.avlCancel (m : Master) (i : Nat) : Sys2Proof.Laws.Preds.Statement (.avlCancel m i) := fun _ => Nat.zero_lt_succ 7
theorem Sys2Proof.Laws.Preds.deferredRequestRun (i : Nat) : Sys2Proof.Laws.Preds.Statement (.deferredRequestRun i) := fun _ => Nat.zero_lt_succ 7
theorem Sys2Proof.Laws.Preds.errlogEntry : Sys2Proof.Laws.Preds.Statement .errlogEntry := fun _ => Nat.zero_lt_succ 7
theorem Sys2Proof.Laws.Preds.errRingWrite (m : Master) (v : W64) : Sys2Proof.Laws.Preds.Statement (.errRingWrite m v) := fun _ => Nat.zero_lt_succ 7
theorem Sys2Proof.Laws.Preds.perstDeassert (p : Nat) : Sys2Proof.Laws.Preds.Statement (.perstDeassert p) := fun _ => Nat.zero_lt_succ 7
theorem Sys2Proof.Laws.Preds.hostLinkUp (p speed width : Nat) : Sys2Proof.Laws.Preds.Statement (.hostLinkUp p speed width) := fun _ => Nat.zero_lt_succ 7
theorem Sys2Proof.Laws.Preds.hostConfigWrite (p : Nat) (w : HostCfg) : Sys2Proof.Laws.Preds.Statement (.hostConfigWrite p w) := fun _ => Nat.zero_lt_succ 7
theorem Sys2Proof.Laws.Preds.loadWindowWrite (p x : Nat) (data : List Byte) : Sys2Proof.Laws.Preds.Statement (.loadWindowWrite p x data) := fun _ => Nat.zero_lt_succ 7
theorem Sys2Proof.Laws.Preds.laneBlockLockGained (l : Nat) : Sys2Proof.Laws.Preds.Statement (.laneBlockLockGained l) := fun _ => Nat.zero_lt_succ 7
theorem Sys2Proof.Laws.Preds.laneTxTransfer (l : Nat) : Sys2Proof.Laws.Preds.Statement (.laneTxTransfer l) := fun _ => Nat.zero_lt_succ 7
end

