-- ==== Sys2Proof/Tests/Slice0.lean ====
section
/-!
SUPPORT. Tests: ill-formed terms that the check refuses, slot words and results of the spec's own worked examples, one step
each; and the helpers with which the witnesses build their states. Expected values are the spec's, or are worked out by hand
from its rules.
-/
namespace Sys2Proof.Tests
open Sys2Proof Sys2Proof.Machine
set_option Elab.async false
set_option maxRecDepth 100000

/-! ### Helpers -/

/-- A slot word: PRED in bits 31:29, OP in bits 28:23, and the operand fields at their places (R121). -/
def slotWordOf (p op : Nat) (fs : List (Nat × Nat)) : W32 := BitVec.ofNat 32 (p * 2^29 + op * 2^23 + (fs.map fun (v, lo) =>
  v * 2^lo).foldl (· + ·) 0)
/-- Compare codes (R125). -/
def ccCode : Cc → Nat | .eq => 0 | .ne => 1 | .lt => 2 | .ge => 3 | .ltu => 4 | .geu => 5
/-- Vector types (R132). -/
def tyCode : VTy → Nat | .i32 => 0 | .f32 => 1 | .i16 => 2 | .bf16 => 3 | .cf32 => 4
/-- The word of an instruction, from the operand columns of the tables of 04_core_isa.md (R128, R133, R137, R140). -/
def wordOf : Instr → W32
  | .nop _ p _ => slotWordOf p 0 []
  | .add _ p d a b => slotWordOf p 1 [(d,18),(a,13),(b,8)]
  | .sub _ p d a b => slotWordOf p 2 [(d,18),(a,13),(b,8)]
  | .and _ p d a b => slotWordOf p 3 [(d,18),(a,13),(b,8)]
  | .or _ p d a b => slotWordOf p 4 [(d,18),(a,13),(b,8)]
  | .xor _ p d a b => slotWordOf p 5 [(d,18),(a,13),(b,8)]
  | .sll _ p d a b => slotWordOf p 6 [(d,18),(a,13),(b,8)]
  | .srl _ p d a b => slotWordOf p 7 [(d,18),(a,13),(b,8)]
  | .sra _ p d a b => slotWordOf p 8 [(d,18),(a,13),(b,8)]
  | .mul _ p d a b => slotWordOf p 9 [(d,18),(a,13),(b,8)]
  | .mulhu _ p d a b => slotWordOf p 10 [(d,18),(a,13),(b,8)]
  | .min _ p d a b => slotWordOf p 11 [(d,18),(a,13),(b,8)]
  | .max _ p d a b => slotWordOf p 12 [(d,18),(a,13),(b,8)]
  | .minu _ p d a b => slotWordOf p 13 [(d,18),(a,13),(b,8)]
  | .maxu _ p d a b => slotWordOf p 14 [(d,18),(a,13),(b,8)]
  | .addi _ p d a i => slotWordOf p 0x10 [(d,18),(a,13),(i,0)]
  | .andi _ p d a i => slotWordOf p 0x11 [(d,18),(a,13),(i,0)]
  | .ori _ p d a i => slotWordOf p 0x12 [(d,18),(a,13),(i,0)]
  | .xori _ p d a i => slotWordOf p 0x13 [(d,18),(a,13),(i,0)]
  | .slli _ p d a i => slotWordOf p 0x14 [(d,18),(a,13),(i,0)]
  | .srli _ p d a i => slotWordOf p 0x15 [(d,18),(a,13),(i,0)]
  | .srai _ p d a i => slotWordOf p 0x16 [(d,18),(a,13),(i,0)]
  | .movi _ p d i => slotWordOf p 0x17 [(d,18),(i,0)]
  | .movk _ p d h i => slotWordOf p 0x18 [(d,18),(h,16),(i,0)]
  | .cmp _ p pd cc a b => slotWordOf p 0x19 [(pd,20),(ccCode cc,17),(a,12),(b,7)]
  | .pand _ p pd a b => slotWordOf p 0x1A [(pd,20),(a,17),(b,14)]
  | .por _ p pd a b => slotWordOf p 0x1B [(pd,20),(a,17),(b,14)]
  | .pxor _ p pd a b => slotWordOf p 0x1C [(pd,20),(a,17),(b,14)]
  | .pandn _ p pd a b => slotWordOf p 0x1D [(pd,20),(a,17),(b,14)]
  | .rds _ p d s => slotWordOf p 0x1E [(d,18),(s,0)]
  | .br _ p n => slotWordOf p 0x20 [(n,0)]
  | .call _ p n => slotWordOf p 0x21 [(n,0)]
  | .ret _ p => slotWordOf p 0x22 []
  | .eret _ p => slotWordOf p 0x23 []
  | .loop _ p a n => slotWordOf p 0x24 [(a,18),(n,0)]
  | .loopi _ p a n => slotWordOf p 0x25 [(a,11),(n,0)]
  | .repi _ p a => slotWordOf p 0x26 [(a,16)]
  | .repii _ p n => slotWordOf p 0x27 [(n,0)]
  | .vadd _ p t d a b => slotWordOf p 1 [(d,19),(a,15),(b,11),(tyCode t,8)]
  | .vsub _ p t d a b => slotWordOf p 2 [(d,19),(a,15),(b,11),(tyCode t,8)]
  | .vmul _ p t d a b => slotWordOf p 3 [(d,19),(a,15),(b,11),(tyCode t,8)]
  | .vfma _ p t d a b => slotWordOf p 4 [(d,19),(a,15),(b,11),(tyCode t,8)]
  | .vmin _ p t d a b => slotWordOf p 5 [(d,19),(a,15),(b,11),(tyCode t,8)]
  | .vmax _ p t d a b => slotWordOf p 6 [(d,19),(a,15),(b,11),(tyCode t,8)]
  | .vand _ p t d a b => slotWordOf p 7 [(d,19),(a,15),(b,11),(tyCode t,8)]
  | .vor _ p t d a b => slotWordOf p 8 [(d,19),(a,15),(b,11),(tyCode t,8)]
  | .vxor _ p t d a b => slotWordOf p 9 [(d,19),(a,15),(b,11),(tyCode t,8)]
  | .vshl _ p t d a b => slotWordOf p 10 [(d,19),(a,15),(b,11),(tyCode t,8)]
  | .vshr _ p t d a b ar => slotWordOf p 11 [(d,19),(a,15),(b,11),(tyCode t,8),(ar.toNat,0)]
  | .vcmp _ p t pd cc a b => slotWordOf p 12 [(pd,20),(a,15),(b,11),(tyCode t,8),(ccCode cc,0)]
  | .vcmac _ p d a b => slotWordOf p 13 [(d,19),(a,15),(b,11),(4,8)]
  | .vconv _ p t d vd a sat h => slotWordOf p 14 [(vd,19),(a,15),(tyCode t,8),(tyCode d,0),(sat.toNat,3),(h,4)]
  | .vred _ p t d a f => slotWordOf p 15 [(d,19),(a,15),(tyCode t,8),(f,0)]
  | .vperm _ p t d a b => slotWordOf p 16 [(d,19),(a,15),(b,11),(tyCode t,8)]
  | .vbcast _ p t d a => slotWordOf p 17 [(d,19),(a,14),(tyCode t,8)]
  | .vext _ p t d a k => slotWordOf p 18 [(d,18),(a,14),(tyCode t,8),(k,3)]
  | .vmov _ p t d a => slotWordOf p 19 [(d,19),(a,15),(tyCode t,8)]
  | .vspecTap _ p t d a b f => slotWordOf p 20 [(d,19),(a,15),(b,11),(tyCode t,8),(f,0)]
  | .vspecSearch _ p t d a b m f => slotWordOf p 20 [(d,19),(a,15),(b,11),(tyCode t,8),(m.toNat + 2 * f.toNat,0)]
  | .mm _ p e d => slotWordOf p 1 [(e,22),(d,18)]
  | .smOpen _ p h d => slotWordOf p 8 [(h,21),(d,17)]
  | .smClose _ p h => slotWordOf p 9 [(h,21)]
  | .smRd _ p pd v h => slotWordOf p 10 [(pd,20),(v,16),(h,14)]
  | .smRds _ p pd d h => slotWordOf p 11 [(pd,20),(d,15),(h,13)]
  | .smWr _ p v h => slotWordOf p 12 [(v,18),(h,16)]
  | .smWrs _ p v h => slotWordOf p 13 [(v,18),(h,16)]
  | .smSave _ p h d => slotWordOf p 14 [(h,21),(d,17)]
  | .ldB _ p d a i => slotWordOf p 1 [(d,18),(a,13),(i,0)]
  | .ldH _ p d a i => slotWordOf p 2 [(d,18),(a,13),(i,0)]
  | .ldW _ p d a i => slotWordOf p 3 [(d,18),(a,13),(i,0)]
  | .ldD _ p d a i => slotWordOf p 4 [(d,18),(a,13),(i,0)]
  | .ldBs _ p d a i => slotWordOf p 5 [(d,18),(a,13),(i,0)]
  | .ldHs _ p d a i => slotWordOf p 6 [(d,18),(a,13),(i,0)]
  | .ldWs _ p d a i => slotWordOf p 7 [(d,18),(a,13),(i,0)]
  | .ldV _ p d a i => slotWordOf p 8 [(d,18),(a,13),(i,0)]
  | .ldDsc _ p d a i => slotWordOf p 9 [(d,18),(a,13),(i,0)]
  | .stB _ p d a i => slotWordOf p 10 [(d,18),(a,13),(i,0)]
  | .stH _ p d a i => slotWordOf p 11 [(d,18),(a,13),(i,0)]
  | .stW _ p d a i => slotWordOf p 12 [(d,18),(a,13),(i,0)]
  | .stD _ p d a i => slotWordOf p 13 [(d,18),(a,13),(i,0)]
  | .stV _ p d a i => slotWordOf p 14 [(d,18),(a,13),(i,0)]
  | .stDsc _ p d a i => slotWordOf p 15 [(d,18),(a,13),(i,0)]
  | .syncAdd _ p d a b => slotWordOf p 16 [(d,18),(a,13),(b,8)]
  | .syncSet _ p d a b => slotWordOf p 17 [(d,18),(a,13),(b,8)]
  | .syncWait _ p d a b => slotWordOf p 18 [(d,18),(a,13),(b,8)]
  | .syncTest _ p pd a b => slotWordOf p 19 [(pd,20),(a,12),(b,7)]
  | .lockAcq _ p d a => slotWordOf p 20 [(d,18),(a,13)]
  | .lockRel _ p a => slotWordOf p 21 [(a,13)]
  | .mbxSend _ p d a b => slotWordOf p 22 [(d,18),(a,13),(b,8)]
  | .mbxWdraw _ p d a => slotWordOf p 23 [(d,18),(a,13)]
  | .qSubmit _ p d a v => slotWordOf p 24 [(d,18),(a,13),(v,9)]
  | .qTake _ p pd v a => slotWordOf p 25 [(pd,20),(v,16),(a,11)]
  | .evtWait _ p => slotWordOf p 26 []
  | .evtSend _ p e => slotWordOf p 27 [(e,0)]
  | .glintWaitNext _ p => slotWordOf p 28 []
  | .glintWaitAlign _ p => slotWordOf p 28 [(1,0)]
  | .boundary _ p => slotWordOf p 29 []
  | .halt _ p => slotWordOf p 30 []
  | .fault _ p i => slotWordOf p 31 [(i,0)]
  | .fpRd _ p d q => slotWordOf p 32 [(d,18),(q,16)]
  | .fpWr _ p d q => slotWordOf p 33 [(d,18),(q,16)]
  | .fpFlush _ p q => slotWordOf p 34 [(q,16)]
  | .fpMark _ p q i => slotWordOf p 35 [(q,16),(i,0)]
  | .svPrst _ p a => slotWordOf p 0x30 [(a,13)]
  | .svSres _ p a b => slotWordOf p 0x31 [(a,13),(b,8)]
  | .svPsw _ p a v => slotWordOf p 0x32 [(a,13),(v,9)]
  | _ => 0

/-- Unit `u`, context `c` in context state `x`, its bundle holding `i` in slot `sl` and NOP in the others. -/
def one (u c : Nat) (sl : Slot) (i : Instr) (x : Ctx) (s : State) : State :=
  let k := u * 2048 + x.pc
  let w := mget 0 s.core.pstore k ||| (((wordOf i).zeroExtend 128) <<< (32 * slotNo sl))
  let xs := mset Ctx.unloaded s.core.ctxs (ctxKey u c) x
  { s with core := { s.core with ctxs := xs, pstore := mset 0 s.core.pstore k w } }
/-- A ready context at bundle 5 with a few registers set. -/
def rdy : Ctx :=
  { Ctx.unloaded with st := .ready, pc := 5, sreg := [(1, 7), (2, BitVec.ofInt 64 (-3)), (3, 64)], preg := [(1, 5), (2, 6)] }
/-- `Alone` as a check that the kernel can evaluate. -/
def aloneB (s : State) (u c : Nat) (sl : Slot) (i : Instr) : Bool :=
  decide (u < 25604) && decide (c < 8) && i.wf && decide ((ctx s u c).st = .ready) &&
  (List.range 8).all (fun d => decide (d = c) || (decide ((ctx s u d).st ≠ .ready) && decide ((ctx s u d).st ≠ .waiting))) &&
  !(ctx s u c).haltReq && !(ctx s u c).stepping && !(ctx s u c).repiOn && decide ((ctx s u c).levels = []) && !trapDue (ctx
    s u c) &&
  !epochHalts s u && !mget false s.core.pstoreBad (u * 2048 + (ctx s u c).pc) && decide ((ctx s u c).pc < 2047) &&
  allSlots.all (fun k => decide (k = sl) || decide (slotWord (bundleAt s u (ctx s u c).pc) k = 0)) &&
  decide (slotIns s u (ctx s u c).pc sl = some i) && decide (outstandingRegs s u c = []) && s.core.reqs.all (fun r =>
    !ownWaits u r)
/-- What the check answers true of is `Alone`. -/
theorem alone_of {s : State} {u c : Nat} {sl : Slot} {i : Instr} (h : aloneB s u c sl i = true) : Alone s u c sl i := by
  simp only [aloneB, Bool.and_eq_true, decide_eq_true_eq, List.all_eq_true, List.mem_range, Bool.or_eq_true,
    Bool.not_eq_true'] at h
  obtain ⟨⟨⟨⟨⟨⟨⟨⟨⟨⟨⟨⟨⟨⟨⟨⟨h1, h2⟩, h3⟩, h4⟩, h5⟩, h6⟩, h7⟩, h8⟩, h9⟩, h10⟩, h11⟩, h12⟩, h13⟩, h14⟩, h15⟩, h16⟩, h17⟩ := h
  exact ⟨h1, h2, h3, h4, fun d hd hc => (h5 d hd).resolve_left hc, h6, h7, h8, h9, h10, h11, h12, h13,
    fun k hk => (h14 k (by cases k <;> simp [allSlots])).resolve_left hk, h15, h16, h17⟩
/-- The same with the predicate. -/
theorem lone_of {s : State} {u c : Nat} {sl : Slot} {i : Instr}
    (h : (aloneB s u c sl i && (decide (sl = .V) || predTrue (ctx s u c) (predOf i))) = true) : Lone s u c sl i := by
  simp only [Bool.and_eq_true, Bool.or_eq_true, decide_eq_true_eq] at h
  exact ⟨alone_of h.1, fun hv => h.2.resolve_left hv⟩
/-- `Reaches` from a check. -/
theorem reaches_of {s : State} {m : Master} {o : Nat}
    (h : (!portAsleep s m && !hostBlocked s m o && decide (sleepingPage s o = none) &&
      (match m with | .unit u _ => isCp u | _ => true)) = true) : Reaches s m o := by
  simp only [Bool.and_eq_true, Bool.not_eq_true', decide_eq_true_eq] at h
  obtain ⟨⟨⟨h1, h2⟩, h3⟩, h4⟩ := h
  exact ⟨h1, h2, h3, fun u c hm => by subst hm; exact h4⟩
/-- With PAIR_FAILED 0 no pair has failed. -/
theorem pairs_up {s : State} (h : fld s LMC_STATUS LMC_STATUS_PAIR_FAILED = 0) : ∀ k, pairFailed s k = false := by
  intro k; simp [pairFailed, h]

/-! ### Ill-formed terms -/

/-- One ill-formed term for each kind of check: every one is refused by it. -/
theorem test_wf_refuses_ill_formed :
    ([
     .add 25604 0 1 2 3, .add 0 8 1 2 3, .add 0 0 32 2 3, .addi 0 0 1 2 8192, .slli 0 0 1 2 64, .movi 0 0 1 262144, .movk 0
       0 1 4 0,
     .movk 0 0 1 0 65536, .cmp 0 0 8 .eq 1 2, .pand 0 0 1 8 2, .rds 0 0 1 16, .br 0 0 2048, .loopi 0 0 4096 5, .repii 0 0
       65536,
     .vadd 0 0 .i32 16 1 2, .vfma 0 0 .cf32 1 2 3, .vshl 0 0 .f32 1 2 3, .vcmp 0 0 .f32 1 .ltu 2 3, .vconv 0 0 .i32 .i32 1 2
       false 0,
     .vconv 0 0 .i32 .bf16 1 2 false 2, .vred 0 0 .i32 1 2 3, .vext 0 0 .cf32 1 2 8, .vspecTap 0 0 .f32 1 1 2 0, .mm 0 0 2 0,
     .smOpen 0 0 4 0, .ldV 0 0 16 1 0, .evtSend 0 0 8, .fpRd 0 0 1 4, .trapTake 0 8, .haltReq (.host 2) 0 0, .haltReq (.unit
       0 8) 0 0,
     .plotStart .mc 64, .engineCommandStart 25600 0, .engineCommandComplete 0 0 1 2 3, .bankOwnerWrite .mc 0 16 1,
       .eccRewrite 26624 0,
     .sieveRegionEnd 0 (some (256, 0)), .csrWrite .mc 1 4 0, .csrWrite .mc 0 2 0, .csrWrite .mc 0 4 (BitVec.ofNat 64 (2 ^
       32)),
     .csrWrite .mc (2 ^ 28) 8 0, .vccioApplied 16 0 0, .vccioApplied 0 3 0, .hourglassUpdate [], .deviceResetRelease ⟨[],
       [1664], []⟩,
     .paceCfgWrite .mc (2 ^ 32), .paceStateRequest 512, .paceStateAnswer 0 256, .cellAdd 98304, .memoryBlockAccess 0 64 0 0,
     .fabricRxWord 0 32, .ioInputToken 0 0 65536, .laneTxTransfer 16, .loadForward .mc 64, .loadDeadlineWrite .mc 4096,
     .loadWindowWrite 0 0 [], .forwardResult 9 0, .hostConfigWrite 0 (.bar4 29), .hostConfigWrite 0 (.payload 64),
       .hostLinkUp 0 6 16,
     .msixUnmask 0 (some 2048), .cyustIdBlock 8 0 0, .cyustCreditBlock 0 (.packet 4 0 0), .cyustStrmBlock 0 0 0 0 0 [] []
       false false,
     .cyustUncorrectableCodeword 0 0 [544], .getInfo 3 0 [], .setEndpointId 256, .getSensorReading 6,
       .getStateSensorReadings 5,
     .setStateEffecterStates 3, .doeDiscovery 2 0, .governorStep 0 599 0 false, .thermalSample [], .blockRegate 1664,
     .coreTestStepDone ⟨0, false, 0, 256, []⟩, .coreTestStepDone ⟨0, false, 0, 0, [(false, 0, 64)]⟩, .spareRotationDue 1024,
       .avlCancel .mc 16, .gatewayTokenOut 200] : List Instr).all (fun i => !i.wf) = true := by decide +kernel
/-- An ill-formed command ends in the model's fault. -/
theorem test_ill_formed_faults : exec (.add 25604 0 1 2 3) State.reset = .fault .noSuchUnit := rfl
/-- The table gives no row bits. -/
theorem test_no_word_spells_a_command : decodeTableWord 32 0x08108040 = none := by decide

/-! ### Slot words (the worked example of 04_core_isa.md and the words of 08_vector_datapath.md) -/

/-- The four words of the filter-stage bundle. -/
theorem test_bundle_words :
    decodeSlot 9000 false 0x2800C700052440000209190008108040 .S = some (.addi 9000 0 4 4 64) ∧
    decodeSlot 9000 false 0x2800C700052440000209190008108040 .V = some (.vfma 9000 0 .f32 1 2 3) ∧
    decodeSlot 9000 false 0x2800C700052440000209190008108040 .M = some (.smRd 9000 0 2 4 1) ∧
    decodeSlot 9000 false 0x2800C700052440000209190008108040 .X = some (.syncAdd 9000 1 0 6 7) := by decide +kernel
/-- VSPEC's tap and search forms by CORE_CFG.SPECIAL, and VPERM. -/
theorem test_vspec_words :
    decodeV 5160 true 0x0A092107 = some (.vspecTap 5160 0 .f32 1 2 4 7) ∧
    decodeV 5160 true 0x0819A900 = some (.vperm 5160 0 .f32 3 3 5) ∧
    decodeV 9000 false 0x0A33C103 = some (.vspecSearch 9000 0 .f32 6 7 8 true true) := by decide +kernel
/-- NOP in every slot, whatever PRED holds (R123); an unassigned word is none (R122). -/
theorem test_nop_and_unassigned_words :
    (allSlots.all fun k => decide (decodeSlot 0 false 0 k = some (.nop 0 0 k))) = true ∧
    decodeS 0 0xE0000000 = some (.nop 0 7 .S) ∧ decodeS 0 0x07800000 = none ∧ decodeX 0 0x000000FF = none := by decide +kernel
/-- The Loam entry of 15_loam.md: CMPLTU q1 against 443, SETF, NEXT 2, T 0. -/
theorem test_loam_entry_fields :
    [(0, 6), (6, 3), (9, 3), (16, 3), (19, 3), (22, 1), (32, 16)].map (fun f => bitsOf (0x01BB00420E4B : BitVec 48) f.1 f.2) =
      [0x0B, 1, 7, 2, 0, 1, 443] := by decide

/-! ### Arithmetic -/

/-- The filter-stage bundle's VFMA lane: 2.0 × 0.5 + 1.0 = 2.0, no flag. -/
theorem test_vfma_lane : ffmaE fmtFP32 0x40000000 0x3F000000 0x3F800000 = (0x40000000, noFlags) := by decide +kernel
/-- The exponent sum beyond FP32 (07_matrix_numerics.md): ROW scale, no scale, saturated. -/
theorem test_exponent_sum :
    encodeF fmtFP32 (convertF fmtFP32 false false (.fin false 9 121)).1 = 0x7D900000 ∧
    (convertF fmtFP32 false false (.fin false 9 247)).2 = ⟨false, true, false, true⟩ ∧
    encodeF fmtFP32 (convertF fmtFP32 false false (.fin false 9 247)).1 = 0x7F800000 ∧
    encodeF fmtFP32 (convertF fmtFP32 true false (.fin false 9 247)).1 = 0x7F7FFFFF := by decide +kernel
/-- The MXFP4 output block of 05_number_formats.md: scale 0x80, codes 6 1 8 0 B 1, INX alone. -/
theorem test_mxfp4_block :
    quantise 0 true false [.fin false 15 (-1), .fin false 21 (-4), .fin true 11 (-5), .fin false 3 (-7), .fin true 3 0, .fin
      false 5 (-3)] =
      (0x80, [6, 1, 8, 0, 0xB, 1], ⟨false, false, false, true⟩) := by decide +kernel
/-- −560.0 is below −12.0 (08_vector_datapath.md). -/
theorem test_search_order : ltF (decodeF fmtFP32 0xC40C0000) (decodeF fmtFP32 0xC1400000) = true := by decide +kernel

/-! ### One step each -/

/-- The compute side is powered and out of reset. -/
def powered : State := { State.reset with mc := { State.reset.mc with pwrGood := true, held := false } }
/-- A field of the state that a command answers. -/
def after (i : Instr) (s : State) (f : State → Nat) : Option Nat :=
  match step { s with pending := [i] } with
  | .next t => some (f t)
  | _ => none
/-- Core 9,000, context 2, before its bundle with ADDI. -/
def filter : State := one 9000 2 .S (.addi 9000 0 4 4 64) { rdy with sreg := [(4, 0x12000)] } powered

/-- s4 takes 0x12040, and the context goes on at the next bundle. -/
theorem test_addi_result : after (.addi 9000 0 4 4 64) filter (fun t => (sr (ctx t 9000 2) 4).toNat + (ctx t 9000 2).pc) =
  some (0x12040 + 6) := by
  decide +kernel
/-- An immediate of 13 bits is sign-extended (R128): 0x1FFF is −1. -/
theorem test_addi_negative :
    after (.addi 3 0 4 1 0x1FFF) (one 3 1 .S (.addi 3 0 4 1 0x1FFF) rdy powered) (fun t => (sr (ctx t 3 1) 4).toNat) = some
      6 := by
  decide +kernel
/-- s0 discards what is written to it (R98). -/
theorem test_s0_discards :
    after (.addi 3 0 0 1 5) (one 3 1 .S (.addi 3 0 0 1 5) rdy powered) (fun t => (sr (ctx t 3 1) 0).toNat) = some 0 := by
      decide +kernel
/-- A false predicate leaves the destination (R126). -/
theorem test_false_predicate :
    after (.addi 3 2 1 1 5) (one 3 1 .S (.addi 3 2 1 1 5) rdy powered) (fun t => (sr (ctx t 3 1) 1).toNat) = some 7 := by
      decide +kernel
/-- The high half of −3 × −3 unsigned (R128): (2^64 − 3)² div 2^64 = 2^64 − 6. -/
theorem test_mulhu :
    after (.mulhu 3 0 4 2 2) (one 3 1 .S (.mulhu 3 0 4 2 2) rdy powered) (fun t => (sr (ctx t 3 1) 4).toNat) = some (2 ^ 64
      - 6) := by
  decide +kernel
/-- A step from reset with nothing waiting lets time pass. -/
theorem test_idle_step : (match step State.reset with | .next t => t.now | _ => 99) = 1 := by decide +kernel
/-- GLB_ID and GLB_RATES at reset (01_organisation.md). -/
theorem test_reset_registers :
    fld State.reset GLB_ID GLB_ID_VENDOR = 0x1FB3 ∧ fld State.reset GLB_ID GLB_ID_DEVICE = 0xB200 ∧
    fld State.reset GLB_RATES GLB_RATES_NOMINAL = 940 ∧
      fld State.reset LOAD_STAGE LOAD_STAGE_BASE * 4096 = 944 * 2 ^ 30 := by decide +kernel

/-! ### Maps (the worked examples of 10_streams.md, 12_packet_network.md and 14_lpddr.md) -/

/-- The descriptor of 10_streams.md's worked example. -/
def refStrip : W512 := BitVec.ofNat 512 (0x024247000C00805C + 0x2050000000 * 2 ^ 64 + 0x2BC08000 * 2 ^ 128 +
  0x00000045201F000F * 2 ^ 256 + 0x0000400000000200 * 2 ^ 320)
/-- The reference strip of 10_streams.md: stream byte 20,000, the pattern, the first rate and the stamp of request X. -/
theorem test_stream_pattern :
    memAddr refStrip 20000 = 0x2050004E20 ∧ patternBytes refStrip = 18137088 ∧ firstRate State.reset refStrip = 7372 ∧
    stampAt 100000000 8192 7372 = 0x05F5FD72 := by decide +kernel
/-- Core 5,160 at physical row 41, column 40 lies in block 330; its router is (10, 10). -/
theorem test_block_of_core : blockOf (41 * 128 + 40) = 330 ∧ blockOf (72 * 128 + 40) = 586 := by decide +kernel
/-- Offset 0x10_0010_0000 is chunk 8 of a stripe whose t is 17,895,970 and pair 0, on channel 11. -/
theorem test_lpddr_map :
    lpPair 0x1000100000 = 0 ∧ lpT 0x1000100000 = 17895970 ∧ lpDevCh 0x1000100000 = devCh 0 11 := by decide +kernel
end Sys2Proof.Tests
end

