-- ==== Sys2Proof/Tests/WitnessBlocks.lean ====
section
/-!
SUPPORT. For each statement about the Loam, the loader, the ports, the MC, power and availability that has premises, a state and operands that meet them, clause by clause. A premise on an opaque
verdict of Config (a signature) has no witness: nothing evaluates it.
-/

namespace Sys2Proof.Tests.Witness12
open Sys2Proof Sys2Proof.Machine Sys2Proof.Tests
set_option Elab.async false
set_option maxRecDepth 100000
set_option synthInstance.maxSize 2000
set_option synthInstance.maxHeartbeats 200000

def up : State := { State.reset with mc := { State.reset.mc with pwrGood := true, held := false } }
def CI : Nat := 6144 * 15 + 700
def ent (op sa sb dq wq wo nx tg wf imm : Nat) : Nat := op + sa * 64 + sb * 512 + dq * 4096 + wq * 2 ^ 14 + wo * 2 ^ 15 + nx
  * 2 ^ 16 + tg * 2 ^ 19 + wf * 2 ^ 22 + imm * 2 ^ 32
def frame (e pc : Nat) : BitVec 768 := BitVec.ofNat 768 (e * 2 ^ (48 * pc) + 6 * 2 ^ 384 + 0xFFF0800312347FFE * 2 ^ 400 +
  0x1FFFFFF * 2 ^ 512)
def run15 (s : State) : State := setFld s (LOAM_RGN_STATUS 15) LOAM_RGN_STATUS_STATE 2
def cst (op v : Nat) : State := match v with
  | 0 => run15 { up with loam := { up.loam with cells := [(CI, frame (ent op 0 1 2 1 1 2 5 1 0) 0)] } }
  | 1 => run15 { up with loam := { up.loam with cells := [(CI, frame (ent op 7 3 0 1 0 3 5 1 0x80FF) 4)], run := [(CI, ⟨4, true, 0xFFF0800312347FFE, 0⟩)] } }
  | 2 => run15 { up with loam := { up.loam with cells := [(CI, frame (ent op 4 5 0 0 1 0 5 0 0x80FF) 5)], run := [(CI, ⟨5, true, 0x1, 0⟩)], inp := [(CI * 4, 0x8001), (CI * 4 + 1, 0x8001)] } }
  | 3 => run15 { up with loam := { up.loam with cells := [(CI, frame (ent op 4 7 3 1 0 1 5 0 3) 5)], run := [(CI, ⟨5, false, 0x1, 9⟩)], inp := [(CI * 4, 0xFF81)] } }
  | _ => run15 { up with loam := { up.loam with cells := [(CI, frame (ent op 6 4 3 1 1 6 3 1 3) 5)], run := [(CI, ⟨5, false, 0x1, 0⟩)], inp := [(CI * 4, 1), (CI * 4 + 2, 0x10000)] } }
/-- A cell at an entry with ADD: operand registers, output free, flag taken. -/
def adding : State := run15 { up with loam := { up.loam with cells := [(CI, frame (ent 1 0 1 2 1 1 2 5 1 0) 0)] } }
theorem witness_LoamCells :
    CI < 98304 ∧ regionRunning adding (siteR CI) = true ∧ bitsOf (cellEntry adding CI) 0 6 = 1 ∧
    cellOperand adding CI (cellRun adding CI) (bitsOf (cellEntry adding CI) 32 16) (bitsOf (cellEntry adding CI) 6 3) = some
      0x7FFE ∧
    (cellOperand adding CI (cellRun adding CI) (bitsOf (cellEntry adding CI) 32 16) (bitsOf (cellEntry adding CI) 9
      3)).isSome = true ∧
    (cellRun adding CI).out = 0 := by decide +kernel
/-- A cell whose first operand is wanting. -/
theorem witness_LoamCells_wanting :
    cellOperand (run15 { up with loam := { up.loam with cells := [(CI, frame (ent 4 4 0 0 1 0 5 0 0 0) 0)] } }) CI
      ⟨0, false, 0, 0⟩ 0 4 = none := by decide +kernel


end Sys2Proof.Tests.Witness12

namespace Sys2Proof.Tests.Witness12b
open Sys2Proof Sys2Proof.Machine Sys2Proof.Tests
set_option Elab.async false
set_option maxRecDepth 100000
set_option synthInstance.maxSize 2000
set_option synthInstance.maxHeartbeats 200000

def up : State := { State.reset with mc := { State.reset.mc with pwrGood := true, held := false } }
def rg (r : Nat) (s : State) : State := setFld s (LOAM_RGN_STATUS r) LOAM_RGN_STATUS_STATE 2
def lo (f : LoamSt → LoamSt) (s : State) : State := { s with loam := f s.loam }
def KA : Nat := blockSiteOf 15 63 * 8 + 2
def mbk : State := rg 15 (lo (fun l =>
  { l with sink := fillSlot (fillSlot [] KA 0xFFFF) (KA + 1) 0x1234, words := [(wordKeyL 15 63 2047, 77)] }) up)
def md (v : Nat) (s : State) : State := lo (fun l => { l with ports := [(15 * 64 + 63, v * 4)] }) s
def LW : Nat := 4 * 2 ^ 48 + 15 * 0x40000 + 0x3FFF5
def rq (op : ReqOp) (ps : List Part) : Req :=
  { tag := 6, u := 3, c := 2, pc := 4, op := op, dst := none, pdst := 0, tracked := true, parts := ps, chan := false, pos := 0, cnt := 0, stamp := 0, orphan := false }
def wr (r : Req) (s : State) : State :=
  { s with core := { s.core with reqs := [{ r with tag := 77, op := .load 0 8 false }, r] } }
def pl : Part := ⟨LW, 11, none⟩
def ldl : Req := rq (.load LW 11 false) [⟨0, 0, none⟩, pl]
def d11 : List Byte := [1, 2, 3, 4, 5, 6, 7, 8, 9, 10, 11]
def stl : Req := rq (.store LW d11 []) [⟨LW + 77, 0, some (.status 0)⟩, pl]
def lw : State := rg 15 (lo (fun l =>
  { l with words := [(wordKeyL 15 63 2045, 0xFEDC), (wordKeyL 15 63 2046, 0x5577), (wordKeyL 15 63 2047, 0x9988), (wordKeyL 15 63 2042, 0x9988)] })
  up)
def hp (p : Nat) (s : State) : State := setFld (setFld (setFld s (HOSTIF_PORT_STATUS p) HOSTIF_PORT_STATUS_LINK_UP 1)
  (HOSTIF_PORT_STATUS p) HOSTIF_PORT_STATUS_CFG_READY 1) GLB_STATUS GLB_STATUS_COMPUTE_UP 1
def ho : State := setFld (setFld (rset (hp 1 (hp 0 lw)) HOSTIF_OWNER (packW [(2, 0), (1, 2)])) (HOSTIF_LWIN_ADDR 1)
  HOSTIF_LWIN_ADDR_OFFSET ((15 * 0x40000 + 0x3FFF0) / 8)) (HOSTIF_LWIN_ADDR 1) HOSTIF_LWIN_ADDR_INC 1
def ho2 : State := setFld (rset ho HOSTIF_OWNER (packW [(2, 0), (1, 1)])) (HOSTIF_LWIN_ADDR 1) HOSTIF_LWIN_ADDR_INC 0
def rxs (r p : Nat) (l : List (Nat × Nat)) (s : State) : State := lo (fun m =>
  { m with sink := l.foldl (fun z e => fillSlot z (siteAt r p 0 * 8 + e.1) e.2) m.sink }) s
def pal : Nat × Nat := portCore 5 49
def U : Nat := (portCore 5 49).1
def E : Nat := (portCore 5 49).2
def f0 : State := rg 5 (rxs 5 49 [(0, 0), (2, 1), (3, 2), (4, 3), (5, 0xFFFF)] up)
def V : W64 := 0xFFFF000300020001
def fp (s : State) (r p u e : Nat) : Bool := decide (r < 16) && decide (p < portCount r) && decide ((u, e) = portCore r p)
  && rxReady s r p
def own9 (v : Nat) (s : State) : State := setFld s (BANK_OWNER U 0) BANK_OWNER_OWNER v
def fr : State := { own9 9 (rxs 5 49 [(0, 3), (1, 0xE001)] f0) with mem := { up.mem with loc := memStore [] (locKey (physUnit up U) 8) [1, 2, 3, 4, 5, 6, 7, 8] } }
def fs : State := { setFld (setFld (setFld f0 (ROUTE_ENTRY U 31) ROUTE_ENTRY_VALID 1) (ROUTE_ENTRY U 31) ROUTE_ENTRY_LINK_ID 77) (ROUTE_ENTRY U 31) ROUTE_ENTRY_IN 5 with strm := { f0.strm with fabIn := [(U, [1, 2, 3, 4, 5, 6, 7, 8])] } }
/-- The premises of `Obligations.LoamMemoryWindowAndPorts` can be met. -/
theorem witness_LoamMemoryWindowAndPorts :
    (((15 < 16) ∧ (63 < 64) ∧ (1 < 2) ∧ (regionRunning (md 2 mbk) 15 = true) ∧
      (slotOf (md 2 mbk).loam.sink (blockSiteOf 15 63 * 8 + 2 * 1) = some 0xFFFF) ∧
      ((wordKeyL 15 63 2047) = wordKeyL 15 63 (0xFFFF % 2048)) ∧ (portMode (md 2 mbk) 15 63 1 = 2) ∧
      (slotOf (md 2 mbk).loam.sink (blockSiteOf 15 63 * 8 + 2 * 1 + 1) = some 0x1234))) ∧
    (((15 < 16) ∧ (63 < 64) ∧ (1 < 2) ∧ (regionRunning (md 1 mbk) 15 = true) ∧
      (slotOf (md 1 mbk).loam.sink (blockSiteOf 15 63 * 8 + 2 * 1) = some 0xFFFF) ∧
      ((wordKeyL 15 63 2047) = wordKeyL 15 63 (0xFFFF % 2048)) ∧ (portMode (md 1 mbk) 15 63 1 = 1) ∧
      (slotOf (md 1 mbk).loam.rdata ((15 * 64 + 63) * 2 + 1) = none))) ∧
    (((findReq (wr ldl lw) 6 = some ldl) ∧ (openAt (wr ldl lw) ldl 1 = some pl) ∧ (selOf pl.addr = 4) ∧ (0 < pl.n) ∧
      (inOrder (wr ldl lw) ldl pl = true) ∧ ((offOf LW) = offOf pl.addr) ∧
      (regionRunning (wr ldl lw) ((offOf LW) / 0x40000) = true) ∧ (isLoad ldl = true))) ∧
    (((findReq (wr stl lw) 6 = some stl) ∧ (openAt (wr stl lw) stl 1 = some pl) ∧ (selOf pl.addr = 4) ∧ (0 < pl.n) ∧
      (inOrder (wr stl lw) stl pl = true) ∧ ((offOf LW) = offOf pl.addr) ∧ (stl.op = .store pl.addr d11 []) ∧
      (d11.length = pl.n) ∧ (regionRunning (wr stl lw) ((offOf LW) / 0x40000) = true))) ∧
    (((findReq (wr stl up) 6 = some stl) ∧ (openAt (wr stl up) stl 1 = some pl) ∧ (selOf pl.addr = 4) ∧ (0 < pl.n) ∧
      (inOrder (wr stl up) stl pl = true) ∧ ((offOf LW) = offOf pl.addr) ∧ (stl.op = .store pl.addr d11 []) ∧
      (d11.length = pl.n) ∧ (regionRunning (wr stl up) ((offOf LW) / 0x40000) = false))) ∧
    (((1 < 2) ∧ ((15 * 0x40000 + 0x3FFF0) = lwinOffset ho 1)) ∧ (Reaches ho (.host 1) (HOSTIF_LWIN_DATA 1)) ∧
      ((regionRunning ho ((15 * 0x40000 + 0x3FFF0) / 0x40000) = true) ∧ (ownerHost ho = some 1))) ∧
    (((1 < 2) ∧ ((15 * 0x40000 + 0x3FFF0) = lwinOffset ho2 1)) ∧ (Reaches ho2 (.host 1) (HOSTIF_LWIN_DATA 1)) ∧
      ((regionRunning ho2 ((15 * 0x40000 + 0x3FFF0) / 0x40000) = true) ∧ (ownerHost ho2 ≠ some 1))) ∧
    (((1 < 2) ∧ ((15 * 0x40000 + 0x3FFF0) = lwinOffset ho2 1)) ∧ (Reaches ho2 (.host 1) (HOSTIF_LWIN_DATA 1)) ∧
      (regionRunning ho2 ((15 * 0x40000 + 0x3FFF0) / 0x40000) = true)) ∧
    (((fp f0 5 49 U E = true) ∧ (rxSlot f0 5 49 0 = some 0) ∧ (rxData f0 5 49 = some V) ∧
      (E ≠ fabEdge U ∨ fabStream f0 U = none) ∧ ((fabOf f0 U E).rx.length < 4))) ∧
    (((fp (rxs 5 49 [(0, 2), (1, 0xE001)] f0) 5 49 U E = true) ∧
      (sieveHolds (rxs 5 49 [(0, 2), (1, 0xE001)] f0) (locKey (physUnit (rxs 5 49 [(0, 2), (1, 0xE001)] f0) U) (0xE001 % 2 ^
      13 * 8)) 8 = false) ∧ (rxSlot (rxs 5 49 [(0, 2), (1, 0xE001)] f0) 5 49 0 = some 2) ∧
      (rxSlot (rxs 5 49 [(0, 2), (1, 0xE001)] f0) 5 49 1 = some 0xE001) ∧
      (rxData (rxs 5 49 [(0, 2), (1, 0xE001)] f0) 5 49 = some V))) ∧
    (((fp (own9 9 (rxs 5 49 [(0, 2), (1, 0xE001)] f0)) 5 49 U E = true) ∧
      (sieveHolds (own9 9 (rxs 5 49 [(0, 2), (1, 0xE001)] f0)) (locKey (physUnit (own9 9 (rxs 5 49 [(0, 2), (1, 0xE001)]
      f0)) U) (0xE001 % 2 ^ 13 * 8)) 8 = false) ∧ (rxSlot (own9 9 (rxs 5 49 [(0, 2), (1, 0xE001)] f0)) 5 49 0 = some 2) ∧
      (rxSlot (own9 9 (rxs 5 49 [(0, 2), (1, 0xE001)] f0)) 5 49 1 = some 0xE001) ∧
      (rxData (own9 9 (rxs 5 49 [(0, 2), (1, 0xE001)] f0)) 5 49 = some V) ∧
      (bankDenied (own9 9 (rxs 5 49 [(0, 2), (1, 0xE001)] f0)) U 9 (0xE001 % 2 ^ 13 * 8) 8 = none))) ∧
    (((fp (own9 3 (rxs 5 49 [(0, 2), (1, 0xE001)] f0)) 5 49 U E = true) ∧
      (sieveHolds (own9 3 (rxs 5 49 [(0, 2), (1, 0xE001)] f0)) (locKey (physUnit (own9 3 (rxs 5 49 [(0, 2), (1, 0xE001)]
      f0)) U) (0xE001 % 2 ^ 13 * 8)) 8 = false) ∧ (rxSlot (own9 3 (rxs 5 49 [(0, 2), (1, 0xE001)] f0)) 5 49 0 = some 2) ∧
      (rxSlot (own9 3 (rxs 5 49 [(0, 2), (1, 0xE001)] f0)) 5 49 1 = some 0xE001) ∧
      (rxData (own9 3 (rxs 5 49 [(0, 2), (1, 0xE001)] f0)) 5 49 = some V) ∧
      (bankDenied (own9 3 (rxs 5 49 [(0, 2), (1, 0xE001)] f0)) U 9 (0xE001 % 2 ^ 13 * 8) 8 = some 8))) ∧
    (((fp (rxs 5 49 [(0, 0xFFFF)] f0) 5 49 U E = true) ∧ (rxSlot (rxs 5 49 [(0, 0xFFFF)] f0) 5 49 0 = some 0xFFFF) ∧
      (0xFFFF ≠ 0) ∧ (0xFFFF ≠ 2) ∧ (0xFFFF ≠ 3))) ∧
    (((fp fs 5 49 U E = true) ∧ (rxSlot fs 5 49 0 = some 0) ∧ (rxData fs 5 49 = some V) ∧ (E = fabEdge U) ∧
      (fabStream fs U = some 77) ∧ (tokensAt fs U 5 77 < 2) ∧ ((mget [] fs.strm.fabIn U).length < 24))) := ⟨by decide +kernel,
    by decide +kernel,
    by decide +kernel,
    by decide +kernel,
    by decide +kernel,
    ⟨by decide +kernel, reaches_of (by decide +kernel), by decide +kernel⟩,
    ⟨by decide +kernel, reaches_of (by decide +kernel), by decide +kernel⟩,
    ⟨by decide +kernel, reaches_of (by decide +kernel), by decide +kernel⟩,
    by decide +kernel,
    by decide +kernel,
    by decide +kernel,
    by decide +kernel,
    by decide +kernel,
    by decide +kernel⟩
def bl : State := setFld (setFld (rg 7 { up with loam := { up.loam with vccio := [(7, 1)] } }) (LOAM_BANK_STATUS 7)
  LOAM_BANK_STATUS_CAL_DONE 1) (LOAM_BANK_STATUS 7) LOAM_BANK_STATUS_CLK0_PRESENT 1
def PK : Nat := pinKey 7 23
def io (m : Nat) (s : State) : State := lo (fun l => { l with io := [(PK, m)] }) s
def po : State := lo (fun l => { l with outFifo := [(PK, [9, 8])] }) (io (2 + 8192) bl)
def la : State := setFld (setFld (setFld (setFld (setFld (setFld (rg 7 up) (FL_CFG 15) FL_CFG_EN 1) (FL_CFG 15)
  FL_CFG_REGION 7) (FL_CFG 15) FL_CFG_RATE_N 512) (FL_CFG 15) FL_CFG_RX_POL 1) (FL_STATUS 15) FL_STATUS_CDR_LOCK 1) (FL_IDLE
  15) ⟨0, 0, 64⟩ 0x123456789ABC
def W : W64 := 0xFEDCBA9876543210
def l8 : List (List (Nat × Nat)) := List.replicate 8 [(1, 1)]
def li : State := lo (fun m => { m with inject := [(15, true)] }) la
def lpr : State := setFld (setFld (lo (fun m => { m with lfsr := [(15, 0x5555555)] }) li) (FL_PRBS 15) FL_PRBS_GEN_EN 1)
  (FL_PRBS 15) FL_PRBS_INVERT 1
def ck : State := setFld (setFld la (FL_PRBS 15) FL_PRBS_CHK_EN 1) (FL_ERRCNT 15) FL_ERRCNT_PRBS_ERRORS (2 ^ 32 - 3)
def ckl : State := setFld ck (FL_STATUS 15) FL_STATUS_PRBS_LOCK 1
def ctxOn (u c : Nat) (s : State) : State := setCtx s u c { ctx s u c with st := .ready, pc := 9 }
/-- The premises of `Obligations.LoamPinsAndLanes` can be met. -/
theorem witness_LoamPinsAndLanes :
    (((7 < 16) ∧ (23 < 24) ∧ (0xFFFF < 65536) ∧ (bankLive (io 5 bl) 7 = true) ∧ (pinMode (io 5 bl) 7 23 = 5))) ∧
    (((7 < 16) ∧ (23 < 24) ∧ (0xFFFF < 65536) ∧
      (bankLive (lo (fun l => { l with inFifo := [(PK, [1, 2, 3, 4, 5, 6, 7, 8])] }) (io 3 bl)) 7 = true) ∧
      (pinMode (lo (fun l => { l with inFifo := [(PK, [1, 2, 3, 4, 5, 6, 7, 8])] }) (io 3 bl)) 7 23 = 1 ∨ pinMode (lo (fun l
      => { l with inFifo := [(PK, [1, 2, 3, 4, 5, 6, 7, 8])] }) (io 3 bl)) 7 23 = 3) ∧
      (pinClock (lo (fun l => { l with inFifo := [(PK, [1, 2, 3, 4, 5, 6, 7, 8])] }) (io 3 bl)) 7 23 = true) ∧
      (8 ≤ (mget [] (lo (fun l => { l with inFifo := [(PK, [1, 2, 3, 4, 5, 6, 7, 8])] }) (io 3 bl)).loam.inFifo (pinKey 7
      23)).length))) ∧
    (((pinOutputs po 7 23 = true) ∧ (mget false po.loam.sending (pinKey 7 23) = false) ∧
      (mget [] po.loam.outFifo (pinKey 7 23) = 9 :: ([8] : List Nat)) ∧
      (pinWord po 7 23 / 8192 % 8 + 1 ≤ ([8] : List Nat).length + 1))) ∧
    (((pinOutputs (io (2 + 8192 * 2) po) 7 23 = true) ∧
      (mget false (io (2 + 8192 * 2) po).loam.sending (pinKey 7 23) = false) ∧
      (mget [] (io (2 + 8192 * 2) po).loam.outFifo (pinKey 7 23) = 9 :: ([8] : List Nat)) ∧
      (([8] : List Nat).length + 1 < pinWord (io (2 + 8192 * 2) po) 7 23 / 8192 % 8 + 1))) ∧
    (((pinOutputs (lo (fun l => { l with sending := [(PK, true)] }) po) 7 23 = true) ∧
      (mget false (lo (fun l => { l with sending := [(PK, true)] }) po).loam.sending (pinKey 7 23) = true) ∧
      (mget [] (lo (fun l => { l with sending := [(PK, true)] }) po).loam.outFifo (pinKey 7 23) = 9 :: ([8] : List Nat)))) ∧
    (((pinOutputs (lo (fun l => { l with sending := [(PK, true)], outFifo := [] }) po) 7 23 = true) ∧
      (mget false (lo (fun l => { l with sending := [(PK, true)], outFifo := [] }) po).loam.sending (pinKey 7 23) = true) ∧
      (mget [] (lo (fun l => { l with sending := [(PK, true)], outFifo := [] }) po).loam.outFifo (pinKey 7 23) = []))) ∧
    (((7 < 16) ∧ (0 < 2) ∧ (flag bl (LOAM_BANK_STATUS 7) LOAM_BANK_STATUS_CAL_DONE = true))) ∧
    (((7 < 16) ∧ (0 < 2) ∧
      (flag (lo (fun l => { l with driven := [(7, true)] }) po) (LOAM_BANK_STATUS 7) (clkField 0) = true))) ∧
    (((7 < 16) ∧ (0 < 2))) ∧
    (((15 < 16) ∧ (laneOn (lo (fun m => { m with laneRx := [(15, l8)] }) la) 15 = true) ∧ (9 < 65536) ∧
      (fld (lo (fun m => { m with laneRx := [(15, l8)] }) la) (FL_CFG 15) FL_CFG_PCS = 0) ∧
      (flag (lo (fun m => { m with laneRx := [(15, l8)] }) la) (FL_STATUS 15) FL_STATUS_CDR_LOCK = true) ∧
      (8 ≤ (mget [] (lo (fun m => { m with laneRx := [(15, l8)] }) la).loam.laneRx 15).length))) ∧
    (((15 < 16) ∧ (laneOn li 15 = true) ∧ (flag li (FL_PRBS 15) FL_PRBS_GEN_EN = false) ∧ (mget [] li.loam.laneTx 15 = []) ∧
      (fld li (FL_CFG 15) FL_CFG_PCS = 0))) ∧
    (((15 < 16) ∧ (laneOn (lo (fun m => { m with laneTx := [(15, [(1, W), (2, W)])] }) li) 15 = true) ∧
      (flag (lo (fun m => { m with laneTx := [(15, [(1, W), (2, W)])] }) li) (FL_PRBS 15) FL_PRBS_GEN_EN = false) ∧
      (mget [] (lo (fun m => { m with laneTx := [(15, [(1, W), (2, W)])] }) li).loam.laneTx 15 = (1, W) :: ([(2, W)] : List
      (Nat × W64))) ∧ (laneFenced (lo (fun m => { m with laneTx := [(15, [(1, W), (2, W)])] }) li) 15 = false))) ∧
    (((15 < 16) ∧ (laneOn lpr 15 = true) ∧ (flag lpr (FL_PRBS 15) FL_PRBS_GEN_EN = true) ∧
      (prbsTaps (fld lpr (FL_PRBS 15) FL_PRBS_POLY) = (7, 6)) ∧ (0x5555555 = mget 0 lpr.loam.lfsr 15) ∧
      (0x5555555 % 2 ^ 7 ≠ 0))) ∧
    (((15 < 16) ∧ (laneOn la 15 = true))) ∧
    (((15 < 16) ∧ (laneOn (setFld la (FL_CFG 15) FL_CFG_PCS 2) 15 = true))) ∧
    (((15 < 16) ∧ (laneOn (setFld la (FL_PRBS 15) FL_PRBS_INJ_PERIOD 2) 15 = true) ∧
      (fld (setFld la (FL_PRBS 15) FL_PRBS_INJ_PERIOD 2) (FL_PRBS 15) FL_PRBS_INJ_PERIOD ≠ 0))) ∧
    (((15 < 16) ∧ (flag (setFld la (FL_STATUS 15) FL_STATUS_BLOCK_LOCK 1) (FL_STATUS 15) FL_STATUS_BLOCK_LOCK = true))) ∧
    (((15 < 16) ∧ (flag (setFld la (FL_STATUS 15) FL_STATUS_BLOCK_LOCK 1) (FL_STATUS 15) FL_STATUS_CDR_LOCK = true))) ∧
    (((15 < 16) ∧ (flag ck (FL_PRBS 15) FL_PRBS_CHK_EN = true))) ∧
    (((15 < 16) ∧ (masterOk Master.mc = true)) ∧ (Reaches la Master.mc (FL_PRBS 15)) ∧ (mayAdmin la Master.mc = true)) ∧
    (((15 < 16) ∧ (masterOk (Master.host 0) = true)) ∧ (Reaches (hp 0 la) (Master.host 0) (FL_PRBS 15)) ∧
      (mayAdmin (hp 0 la) (Master.host 0) = false)) := ⟨by decide +kernel,
    by decide +kernel,
    by decide +kernel,
    by decide +kernel,
    by decide +kernel,
    by decide +kernel,
    by decide +kernel,
    by decide +kernel,
    by decide +kernel,
    by decide +kernel,
    by decide +kernel,
    by decide +kernel,
    by decide +kernel,
    by decide +kernel,
    by decide +kernel,
    by decide +kernel,
    by decide +kernel,
    by decide +kernel,
    by decide +kernel,
    ⟨by decide +kernel, reaches_of (by decide +kernel), by decide +kernel⟩,
    ⟨by decide +kernel, reaches_of (by decide +kernel), by decide +kernel⟩⟩

end Sys2Proof.Tests.Witness12b

namespace Sys2Proof.Tests.Witness13
open Sys2Proof Sys2Proof.Machine Sys2Proof.Tests
set_option Elab.async false
set_option maxRecDepth 100000
set_option synthInstance.maxSize 2000
set_option synthInstance.maxHeartbeats 200000

def up : State := { State.reset with mc := { State.reset.mc with pwrGood := true, held := false } }
def cup : State := setFld (setFld (setFld up GLB_STATUS GLB_STATUS_COMPUTE_UP 1) LMC_STATUS LMC_STATUS_INIT_DONE 1)
  GLB_STATUS GLB_STATUS_CFG_DONE 1
def img (k : Nat) (s : State) : State :=
  { s with mem := { s.mem with dram := memStore [] (944 * 2 ^ 30 + 6) [BitVec.ofNat 8 k, 0, 0, 1, 0, 0, 0, 0, 5, 0, 0, 0, 0, 0] } }
def pls (s : State) : State := setFld (setFld (setFld (setFld s (PLOT_CFG 3) PLOT_CFG_VALID 1) (PLOT_CFG 3) PLOT_CFG_HEIGHT
  2) (PLOT_CFG 3) PLOT_CFG_WIDTH 2) (PLOT_STATUS 3) PLOT_STATUS_STATE 2
def regs (s : State) : State := setFld (setFld { s with loam := { s.loam with words := [(5, 7), (131072 * 16 - 1, 9)] } }
  (LOAM_RGN_STATUS 3) LOAM_RGN_STATUS_STATE 2) (LOAM_RGN_STATUS 15) LOAM_RGN_STATUS_STATE 3
def lst (n : Nat) (s : State) : State := setFld s LOAD_STATUS LOAD_STATUS_STATE n
def vf : State := lst 1 (img 0 cup)
def cp : State := { lst 4 (img 0 cup) with load := { cup.load with written := false } }
def cw2 : State := { cp with load := { cp.load with written := true } }
def rs (n k : Nat) : State :=
  { lst 5 (img k cup) with load := { cup.load with relStep := n, relAt := 70000, relGap := 333, imageId := 999 } }
def dl : State := setFld (setFld (setFld { cup with load := { cup.load with deadline := some 77 } } LOAD_DEADLINE
  LOAD_DEADLINE_SECONDS 9) LOAD_DEADLINE LOAD_DEADLINE_EXPIRED 0) LOAD_DEADLINE LOAD_DEADLINE_FULL_DONE 0
/-- The premises of `Obligations.LoaderCommandsAndStates` can be met. -/
theorem witness_LoaderCommandsAndStates :
    ((masterOk Master.mc = true) ∧ (Reaches cup Master.mc LOAD_CTRL) ∧ ((mayLoad cup Master.mc = true) ∧
      (epochOn cup = false) ∧ (loadFree cup = true))) ∧
    ((masterOk Master.sideBand = true) ∧ (Reaches (lst 6 cup) Master.sideBand LOAD_CTRL) ∧
      ((mayLoad (lst 6 cup) Master.sideBand = true) ∧ (epochOn (lst 6 cup) = false) ∧ (loadFree (lst 6 cup) = true))) ∧
    ((masterOk (Master.unit 25601 0) = true) ∧ (Reaches (lst 7 (pls (regs cup))) (Master.unit 25601 0) LOAD_CTRL) ∧
      ((mayLoad (lst 7 (pls (regs cup))) (Master.unit 25601 0) = true) ∧ (epochOn (lst 7 (pls (regs cup))) = false) ∧
      (loadFree (lst 7 (pls (regs cup))) = true))) ∧
    ((masterOk Master.mc = true) ∧ (Reaches (img 1 cup) Master.mc LOAD_CTRL) ∧ ((mayLoad (img 1 cup) Master.mc = true) ∧
      (epochOn (img 1 cup) = false) ∧ (loadFree (img 1 cup) = true) ∧
      ((routePort (img 1 cup) (forwardTo (img 1 cup) 63)).isSome = true))) ∧
    ((masterOk Master.mc = true) ∧ (Reaches (setFld (img 1 cup) (CYUST_RT 63) CYUST_RT_ABSENT 1) Master.mc LOAD_CTRL) ∧
      ((mayLoad (setFld (img 1 cup) (CYUST_RT 63) CYUST_RT_ABSENT 1) Master.mc = true) ∧
      (epochOn (setFld (img 1 cup) (CYUST_RT 63) CYUST_RT_ABSENT 1) = false) ∧
      (loadFree (setFld (img 1 cup) (CYUST_RT 63) CYUST_RT_ABSENT 1) = true) ∧
      (routePort (setFld (img 1 cup) (CYUST_RT 63) CYUST_RT_ABSENT 1) (forwardTo (setFld (img 1 cup) (CYUST_RT 63)
      CYUST_RT_ABSENT 1) 63) = none))) ∧
    ((masterOk Master.mc = true) ∧ (Reaches (lst 8 cup) Master.mc LOAD_CTRL) ∧ ((mayLoad (lst 8 cup) Master.mc = true) ∧
      (epochOn (lst 8 cup) = false) ∧ (loadFree (lst 8 cup) = false))) ∧
    ((masterOk Master.mc = true) ∧ (Reaches (lst 2 (img 0 cup)) Master.mc LOAD_CTRL) ∧
      ((mayLoad (lst 2 (img 0 cup)) Master.mc = true) ∧ (epochOn (lst 2 (img 0 cup)) = false) ∧
      (loadState (lst 2 (img 0 cup)) = 2) ∧ (rget (lst 2 (img 0 cup)) LOAD_AT = 0) ∧
      (kindAllowed (lst 2 (img 0 cup)) = true) ∧ (imgKind (lst 2 (img 0 cup)) ≠ 1))) ∧
    ((masterOk Master.mc = true) ∧ (Reaches (rset (lst 2 (img 0 cup)) LOAD_AT 5) Master.mc LOAD_CTRL) ∧
      ((mayLoad (rset (lst 2 (img 0 cup)) LOAD_AT 5) Master.mc = true) ∧
      (epochOn (rset (lst 2 (img 0 cup)) LOAD_AT 5) = false) ∧ (loadState (rset (lst 2 (img 0 cup)) LOAD_AT 5) = 2) ∧
      (fld (rset (lst 2 (img 0 cup)) LOAD_AT 5) PACE_SLOT PACE_SLOT_SLOT < (rget (rset (lst 2 (img 0 cup)) LOAD_AT 5)
      LOAD_AT).toNat))) ∧
    ((masterOk Master.mc = true) ∧ (Reaches (lst 3 (img 0 cup)) Master.mc LOAD_CTRL) ∧
      ((mayLoad (lst 3 (img 0 cup)) Master.mc = true) ∧ (epochOn (lst 3 (img 0 cup)) = false) ∧
      (loadState (lst 3 (img 0 cup)) ≠ 2))) ∧
    ((masterOk Master.mc = true) ∧ (Reaches (lst 3 (img 0 cup)) Master.mc LOAD_CTRL) ∧
      ((mayLoad (lst 3 (img 0 cup)) Master.mc = true) ∧ (epochOn (lst 3 (img 0 cup)) = false) ∧
      (loadState (lst 3 (img 0 cup)) ∈ [1, 2, 3, 6, 7]))) ∧
    ((masterOk Master.mc = true) ∧ (Reaches (lst 5 (img 0 cup)) Master.mc LOAD_CTRL) ∧
      ((mayLoad (lst 5 (img 0 cup)) Master.mc = true) ∧ (epochOn (lst 5 (img 0 cup)) = false) ∧
      (loadState (lst 5 (img 0 cup)) ∉ [1, 2, 3, 6, 7]))) ∧
    ((masterOk (Master.host 1) = true) ∧ (Reaches (lst 0 (img 0 cup)) (Master.host 1) LOAD_CTRL) ∧
      (mayLoad (lst 0 (img 0 cup)) (Master.host 1) = false)) ∧
    ((((setFld (setFld vf LOAD_STATUS LOAD_STATUS_KIND (imgKind vf)) LOAD_STATUS LOAD_STATUS_REGION (if imgKind vf = 1 then
      (imgRegions vf).headD 0 else 0)) = setFld (setFld vf LOAD_STATUS LOAD_STATUS_KIND (imgKind vf)) LOAD_STATUS
      LOAD_STATUS_REGION (if imgKind vf = 1 then (imgRegions vf).headD 0 else 0)) ∧ (loadState vf = 1) ∧
      (imageFailure (setFld (setFld vf LOAD_STATUS LOAD_STATUS_KIND (imgKind vf)) LOAD_STATUS LOAD_STATUS_REGION (if imgKind
      vf = 1 then (imgRegions vf).headD 0 else 0)) = some (0, 0x070F, 0)))) ∧
    ((loadState (lst 3 cup) = 2 ∨ loadState (lst 3 cup) = 3)) ∧
    ((loadState (lst 3 (img 0 cup)) = 3)) ∧
    (((loadState cp = 4) ∧ (cp.load.written = false) ∧ (imgKind cp ≠ 2) ∧ (imgPoison cp = none))) ∧
    (((loadState ({ cp with mem := { cp.mem with dramBad := [(944 * 2 ^ 27 + 2, true)] } }) = 4) ∧
      (({ cp with mem := { cp.mem with dramBad := [(944 * 2 ^ 27 + 2, true)] } }).load.written = false) ∧
      (imgKind ({ cp with mem := { cp.mem with dramBad := [(944 * 2 ^ 27 + 2, true)] } }) ≠ 2) ∧
      (imgPoison ({ cp with mem := { cp.mem with dramBad := [(944 * 2 ^ 27 + 2, true)] } }) = some 16))) ∧
    (((loadState cw2 = 4) ∧ (cw2.load.written = true))) ∧
    (((loadState (rs 2 0) = 5) ∧ ((rs 2 0).load.relStep = 2))) ∧
    (((loadState ({ rs 3 1 with mem := { (img 1 cup).mem with dram := mset 0 (mset 0 (img 1 cup).mem.dram (944 * 2 ^ 30 + 14) 1) (944 * 2 ^ 30 + 15) 0x80 } })
      = 5) ∧ (({ rs 3 1 with mem := { (img 1 cup).mem with dram := mset 0 (mset 0 (img 1 cup).mem.dram (944 * 2 ^ 30 + 14) 1) (944 * 2 ^ 30 + 15) 0x80 } }).load.relStep
      = 3) ∧ (imgKind ({ rs 3 1 with mem := { (img 1 cup).mem with dram := mset 0 (mset 0 (img 1 cup).mem.dram (944 * 2 ^ 30 + 14) 1) (944 * 2 ^ 30 + 15) 0x80 } })
      = 1))) ∧
    (((loadState (rs 4 0) = 5) ∧ ((rs 4 0).load.relStep = 4) ∧ (imgKind (rs 4 0) = 0))) ∧
    (((dl.load.deadline = some 77) ∧ (fld dl LOAD_DEADLINE LOAD_DEADLINE_SECONDS ≠ 0) ∧
      (flag dl LOAD_DEADLINE LOAD_DEADLINE_EXPIRED = false) ∧ (flag dl LOAD_DEADLINE LOAD_DEADLINE_FULL_DONE = false))) ∧
    (((masterOk Master.mc = true) ∧ (4095 < 4096)) ∧ (Reaches dl Master.mc LOAD_DEADLINE) ∧ (mayAdmin dl Master.mc = true)) ∧
    (((loadState (lst 8 cup) = 8) ∧ (7 < 9) ∧ (65535 < 65536))) ∧
    (((1 < 2) ∧ (mget false dl.host.d3 1 = false) ∧ (0 < ([1, 2, 3] : List Byte).length) ∧
      (5 + ([1, 2, 3] : List Byte).length ≤ 2 ^ 25) ∧ (flag dl LMC_STATUS LMC_STATUS_INIT_DONE = true) ∧
      (5 = fld dl LOAD_WIN LOAD_WIN_OFFSET * 2 ^ 25 + 5) ∧ (5 + ([1, 2, 3] : List Byte).length ≤ stageBytes dl))) ∧
    (((1 < 2) ∧ (mget false (setFld dl LOAD_WIN LOAD_WIN_OFFSET 512).host.d3 1 = false) ∧
      (0 < ([1, 2, 3] : List Byte).length) ∧ (5 + ([1, 2, 3] : List Byte).length ≤ 2 ^ 25) ∧
      (flag (setFld dl LOAD_WIN LOAD_WIN_OFFSET 512) LMC_STATUS LMC_STATUS_INIT_DONE = true) ∧
      ((16 * 2 ^ 30 + 5) = fld (setFld dl LOAD_WIN LOAD_WIN_OFFSET 512) LOAD_WIN LOAD_WIN_OFFSET * 2 ^ 25 + 5) ∧
      (stageBytes (setFld dl LOAD_WIN LOAD_WIN_OFFSET 512) < (16 * 2 ^ 30 + 5) + ([1, 2, 3] : List Byte).length))) := ⟨⟨by
      decide +kernel, reaches_of (by decide +kernel), by decide +kernel⟩,
    ⟨by decide +kernel, reaches_of (by decide +kernel), by decide +kernel⟩,
    ⟨by decide +kernel, reaches_of (by decide +kernel), by decide +kernel⟩,
    ⟨by decide +kernel, reaches_of (by decide +kernel), by decide +kernel⟩,
    ⟨by decide +kernel, reaches_of (by decide +kernel), by decide +kernel⟩,
    ⟨by decide +kernel, reaches_of (by decide +kernel), by decide +kernel⟩,
    ⟨by decide +kernel, reaches_of (by decide +kernel), by decide +kernel⟩,
    ⟨by decide +kernel, reaches_of (by decide +kernel), by decide +kernel⟩,
    ⟨by decide +kernel, reaches_of (by decide +kernel), by decide +kernel⟩,
    ⟨by decide +kernel, reaches_of (by decide +kernel), by decide +kernel⟩,
    ⟨by decide +kernel, reaches_of (by decide +kernel), by decide +kernel⟩,
    ⟨by decide +kernel, reaches_of (by decide +kernel), by decide +kernel⟩,
    by decide +kernel,
    by decide +kernel,
    by decide +kernel,
    by decide +kernel,
    by decide +kernel,
    by decide +kernel,
    by decide +kernel,
    by decide +kernel,
    by decide +kernel,
    by decide +kernel,
    ⟨by decide +kernel, reaches_of (by decide +kernel), by decide +kernel⟩,
    by decide +kernel,
    by decide +kernel,
    by decide +kernel⟩

end Sys2Proof.Tests.Witness13

namespace Sys2Proof.Tests.Witness14
open Sys2Proof Sys2Proof.Machine Sys2Proof.Tests
set_option Elab.async false
set_option maxRecDepth 100000
set_option synthInstance.maxSize 2000
set_option synthInstance.maxHeartbeats 200000

def up : State := { State.reset with mc := { State.reset.mc with pwrGood := true, held := false } }
def cup : State := setFld (setFld (setFld up GLB_STATUS GLB_STATUS_COMPUTE_UP 1) LMC_STATUS LMC_STATUS_INIT_DONE 1)
  GLB_STATUS GLB_STATUS_CFG_DONE 1
def own (o sb : Nat) (s : State) : State := rset s HOSTIF_OWNER (packW [(o, 0), (sb, 2), (1, 4), (65535, 16)])
def hp (p : Nat) (s : State) : State := setFld (setFld (setFld (setFld s (HOSTIF_PORT_STATUS p) HOSTIF_PORT_STATUS_LINK_UP
  1) (HOSTIF_PORT_STATUS p) HOSTIF_PORT_STATUS_CFG_READY 1) (HOSTIF_PORT_STATUS p) HOSTIF_PORT_STATUS_BME 1)
  (HOSTIF_PORT_STATUS p) HOSTIF_PORT_STATUS_MSIX_EN 1
def rq (t : Nat) (op : ReqOp) (ps : List Part) : Req :=
  { tag := t, u := 3, c := 2, pc := 4, op := op, dst := none, pdst := 0, tracked := true, parts := ps, chan := false, pos := 0, cnt := 0, stamp := 0, orphan := false }
def two : State := (fun s =>
  { s with host := { s.host with inReset := [], unmasked := [(5, true), (2050, true)], pba := [(2051, true)] }, core := { s.core with reqs := [rq 6 (.load (9 * 2 ^ 48 + 56) 16 false) [⟨9 * 2 ^ 48 + 56, 8, none⟩, ⟨9 * 2 ^ 48 + 64, 8, none⟩], rq 7 (.load (8 * 2 ^ 48) 8 false) [⟨8 * 2 ^ 48, 8, none⟩]] } })
  (hp 0 (hp 1 cup))
def two2 : State := setFld (setFld two (HOSTIF_LWIN_ADDR 1) HOSTIF_LWIN_ADDR_OFFSET 77) LMC_WIN_B LMC_WIN_A_BASE 5
def d3s : State := { two with host := { two.host with d3 := [(1, true)] } }
def hb : State := { setFld (own 2 1 two) HOSTIF_HB HOSTIF_HB_TIMEOUT_MS 3 with now := 30000077, host := { two.host with beatAt := 77 } }
/-- The premises of `Obligations.HostPortsAndOwnership` can be met. -/
theorem witness_HostPortsAndOwnership :
    ((1 < 2)) ∧
    (((1 < 2) ∧ (mget false two.host.inReset 1 = false) ∧ (two.mc.held = false))) ∧
    (((1 < 2) ∧ (mget false two.host.inReset 1 = false) ∧ (two.mc.held = false) ∧ (1 ≤ 5) ∧ (5 ≤ 5) ∧
      (16 ∈ [1, 2, 4, 8, 16]))) ∧
    (((1 < 2) ∧ (flag (own 2 1 two) (HOSTIF_PORT_STATUS 1) HOSTIF_PORT_STATUS_LINK_UP = true))) ∧
    (((1 < 2) ∧ (hostCfgOk (.bar2Read 0x4FFFFC 4 ⟨[], []⟩) = true) ∧ (0x4FFFFC + 4 ≤ 0x500000) ∧
      (mget false two.host.d3 1 = false))) ∧
    (((1 < 2) ∧ (2047 < 2048) ∧ (mget false two.host.d3 1 = false) ∧ (mget false two.host.pba (1 * 2048 + 2047) = false))) ∧
    (((1 < 2) ∧ (mget false d3s.host.d3 1 = true))) ∧
    (((1 < 2) ∧ (3 < 2048) ∧ (mget false two.host.d3 1 = false) ∧ (mget false two.host.pba (1 * 2048 + 3) = true) ∧
      (mget false two.host.funcMask 1 = false) ∧ (flag two (HOSTIF_PORT_STATUS 1) HOSTIF_PORT_STATUS_MSIX_EN = true) ∧
      (hostReach two 1 = true))) ∧
    (((1 < 2) ∧ (mget false (own 0 2 two).host.d3 1 = false) ∧ (ownerCode (own 0 2 two) = 0))) ∧
    (((1 < 2) ∧ (mget false (own 1 0 two).host.d3 1 = false) ∧ (ownerCode (own 1 0 two) ≠ 1 + 1) ∧
      (standbyCode (own 1 0 two) = 0 ∨ standbyCode (own 1 0 two) = 1 + 1))) ∧
    (((1 < 2) ∧ (mget false (own 1 2 two).host.d3 1 = false) ∧ (standbyCode (own 1 2 two) = 1 + 1))) ∧
    (((1 < 2) ∧ (mget false (own 2 1 two).host.d3 1 = false) ∧ (ownerCode (own 2 1 two) = 1 + 1) ∧
      (standbyCode (own 2 1 two) ≠ 1 + 1))) ∧
    (((1 < 2) ∧ (mget false (own 2 1 two).host.d3 1 = false) ∧ (ownerCode (own 2 1 two) = 1 + 1) ∧
      (standbyCode (own 2 1 two) = 2 - 1))) ∧
    (((1 < 2) ∧ (mget false (own 2 0 two).host.d3 1 = false) ∧ (ownerCode (own 2 0 two) ≠ 0))) ∧
    (((1 < 2) ∧ (mget false (own 2 0 two).host.d3 1 = false) ∧ (ownerHost (own 2 0 two) = some 1))) ∧
    (((1 < 2) ∧ (fld hb HOSTIF_HB HOSTIF_HB_TIMEOUT_MS ≠ 0) ∧ (ownerCode hb = 1 + 1) ∧ (standbyCode hb ≠ 1 + 1) ∧
      (hb.host.beatAt + fld hb HOSTIF_HB HOSTIF_HB_TIMEOUT_MS * 10000000 ≤ paceTime hb))) := by decide +kernel

end Sys2Proof.Tests.Witness14

namespace Sys2Proof.Tests.Witness15
open Sys2Proof Sys2Proof.Machine Sys2Proof.Tests
set_option Elab.async false
set_option maxRecDepth 100000
set_option synthInstance.maxSize 2000
set_option synthInstance.maxHeartbeats 200000

def up : State := { State.reset with mc := { State.reset.mc with pwrGood := true, held := false } }
def cup : State := { setFld up GLB_STATUS GLB_STATUS_COMPUTE_UP 1 with now := 9000000 }
def en (p v : Nat) (s : State) : State := setFld (setFld s (CYUST_PORT_CTRL p) CYUST_PORT_CTRL_EN 1) (CYUST_PORT_STATUS p)
  CYUST_PORT_STATUS_STATE v
def ctxOn (u c : Nat) (s : State) : State := setCtx s u c { ctx s u c with st := .ready, pc := 9 }
def rt (p i : Nat) (s : State) : State := rset s (CYUST_RT i) (packW [(p, 0), ((p + 1) % 8, 4), (1, 7)])
def lk : State := rt 5 77 (rt 5 78 (en 5 3 (en 6 3 cup)))
def M : Master := .mc
def tr : State := en 5 2 cup
def trd : State := setFld (setFld
  { en 0 2 cup with link := { cup.link with lock := [(0, true)], idSeen := [(0, true)], fails := [(0, 2)] } }
  (CYUST_PORT_STATUS 0) CYUST_PORT_STATUS_NBR_MODULE 1) (CYUST_PORT_STATUS 0) CYUST_PORT_STATUS_NBR_PORT 1
def hs64 : List (Nat × Nat) := (0, 5) :: List.replicate 63 (1, 0) ++ [(2, 0x1E)]
def mk8 : List (Nat × Nat) := (List.range 8).map fun l => (l, 77)
def bad8 (n : Nat) : List (Nat × Nat) := List.replicate n (0, 0) ++ List.replicate 120 (1, 0)
def lok : State := { lk with link := { lk.link with lock := [(5, true)] } }
def dn : State := setFld (setFld { lk with link := { lk.link with lostAt := [(5, 5000001)], buffer := [⟨5, 3, .test⟩] } }
  (CYUST_PORT_STATUS 5) CYUST_PORT_STATUS_NBR_VALID 1) (CYUST_PORT_STATUS 5) CYUST_PORT_STATUS_NBR_MODULE 16
def nt : State := { lk with link := { lk.link with notices := [(9, true), (10, true), (11, true)] } }
def l9 : State := setFld (setFld lk (CYUST_LANE 5 8) CYUST_LANE_STATE 1) (CYUST_LANE 5 3) CYUST_LANE_STATE 0
def idl : State := { en 5 4 lk with link := { lk.link with idleQ := [(5, .test), (6, .farLoop), (5, .idleEntry)] } }
/-- The premises of `Obligations.CyustPortStates` can be met. -/
theorem witness_CyustPortStates :
    (((5 < 8) ∧ (masterOk M = true)) ∧ (Reaches cup M (CYUST_PORT_CTRL 5)) ∧ ((mayAdmin cup M = true) ∧
      (flag cup (CYUST_PORT_CTRL 5) CYUST_PORT_CTRL_EN = false))) ∧
    (((5 < 8) ∧ (masterOk M = true)) ∧ (Reaches lk M (CYUST_PORT_CTRL 5)) ∧ ((mayAdmin lk M = true) ∧
      (flag lk (CYUST_PORT_CTRL 5) CYUST_PORT_CTRL_EN = true))) ∧
    (((5 < 8) ∧ (masterOk M = true)) ∧ (Reaches (en 5 1 cup) M (CYUST_PORT_CTRL 5)) ∧ ((mayAdmin (en 5 1 cup) M = true) ∧
      (1 ≤ 3) ∧ (3 < 4) ∧ (portState (en 5 1 cup) 5 = 1))) ∧
    (((5 < 8) ∧ (masterOk M = true)) ∧ (Reaches (en 5 5 cup) M (CYUST_PORT_CTRL 5)) ∧ ((mayAdmin (en 5 5 cup) M = true) ∧
      (portState (en 5 5 cup) 5 = 5))) ∧
    (((5 < 8) ∧ (portState (en 5 1
      { cup with link := { cup.link with tryAt := [(5, 99000000)], presets := [(5, 7)], idSeen := [(5, true)] } }) 5 = 1) ∧
      (flag (en 5 1 { cup with link := { cup.link with tryAt := [(5, 99000000)], presets := [(5, 7)], idSeen := [(5, true)] } })
      (CYUST_PORT_CTRL 5) CYUST_PORT_CTRL_EN = true))) ∧
    (((0 < 8) ∧ (1 < 512) ∧ (1 < 8) ∧ (portState (en 0 2 cup) 0 = 2))) ∧
    (((0 < 8) ∧ (1 < 512) ∧ (7 < 8) ∧ (portUp (en 0 4 lk) 0 = true) ∧ (nbrValid (en 0 4 lk) 0 1 7 = false))) ∧
    (((0 < 8) ∧ (65535 < 65536) ∧ (([3] : List Nat).all (· < 9) = true) ∧ (portState trd 0 = 2) ∧
      (([3] : List Nat).length ≤ 1) ∧ (mget false trd.link.lock 0 = true) ∧ (mget false trd.link.idSeen 0 = true) ∧
      (nbrValid trd 0 (fld trd (CYUST_PORT_STATUS 0) CYUST_PORT_STATUS_NBR_GROUP * 64 + fld trd (CYUST_PORT_STATUS 0)
      CYUST_PORT_STATUS_NBR_MODULE) (fld trd (CYUST_PORT_STATUS 0) CYUST_PORT_STATUS_NBR_PORT) = true))) ∧
    (((0 < 8) ∧ (65535 < 65536) ∧ (([1, 2] : List Nat).all (· < 9) = true) ∧ (portState trd 0 = 2))) ∧
    (((5 < 8) ∧ (headsOk hs64 = true) ∧ (64 ≤ hs64.length) ∧ ((lastOf 64 hs64).all headValid = true) ∧
      (deskewed mk8 = true))) ∧
    (((5 < 8) ∧ (headsOk (hs64 ++ [(3, 1)]) = true) ∧
      ((hs64 ++ [(3, 1)]).length < 64 ∨ (lastOf 64 (hs64 ++ [(3, 1)])).all headValid = false ∨ deskewed mk8 = false))) ∧
    (((5 < 8) ∧ (headsOk (bad8 7) = true))) ∧
    (((5 < 8) ∧ (headsOk (bad8 8) = true) ∧ (8 ≤ ((lastOf 128 (bad8 8)).filter fun h => !headValid h).length) ∧
      (mget false lok.link.lock 5 = true))) ∧
    (((5 < 8) ∧ (portState dn 5 = 3) ∧ (mget 0 dn.link.lostAt 5 = 5000000 + 1))) ∧
    (((0 < 8) ∧ (1 < 512))) ∧
    (((5 < 8) ∧ (7 < 8) ∧ (spareFree l9 5 = true))) ∧
    (((5 < 8) ∧ (3 < 8) ∧ (portState (setFld { l9 with link := { l9.link with swap := [(5, 4)] } } (CYUST_LANE 5 3)
      CYUST_LANE_STATE 2) 5 = 3) ∧
      (mget 0 (setFld { l9 with link := { l9.link with swap := [(5, 4)] } } (CYUST_LANE 5 3) CYUST_LANE_STATE 2).link.swap 5
      = 3 + 1) ∧ (mget 0 (setFld { l9 with link := { l9.link with swap := [(5, 4)] } } (CYUST_LANE 5 3) CYUST_LANE_STATE
      2).link.rotate 5 = 0))) ∧
    (((5 < 8) ∧ (3 < 8) ∧ (portUp l9 5 = true) ∧ (mget 0 l9.link.swap 5 = 0) ∧ (spareUsed l9 5 = false) ∧
      (fld l9 (CYUST_LANE 5 8) CYUST_LANE_STATE ≠ 3) ∧ (fld l9 (CYUST_LANE 5 3) CYUST_LANE_STATE ≠ 3))) ∧
    (((5 < 8) ∧ (3 < 8) ∧ (portUp (setFld l9 (CYUST_PORT_STATUS 5) CYUST_PORT_STATUS_SPARE_USED 1) 5 = true) ∧
      (mget 0 (setFld l9 (CYUST_PORT_STATUS 5) CYUST_PORT_STATUS_SPARE_USED 1).link.swap 5 = 0) ∧
      (spareUsed (setFld l9 (CYUST_PORT_STATUS 5) CYUST_PORT_STATUS_SPARE_USED 1) 5 = true) ∧
      (fld (setFld l9 (CYUST_PORT_STATUS 5) CYUST_PORT_STATUS_SPARE_USED 1) (CYUST_LANE 5 3) CYUST_LANE_STATE ≠ 3))) ∧
    (((5 < 8) ∧ (spareFree (setFld l9 CYUST_CFG CYUST_CFG_CAL_S 3) 5 = true) ∧
      (mget 0 (setFld l9 CYUST_CFG CYUST_CFG_CAL_S 3).link.rotate 5 = 0) ∧
      (fld (setFld l9 CYUST_CFG CYUST_CFG_CAL_S 3) CYUST_CFG CYUST_CFG_CAL_S ≠ 0))) ∧
    (((5 < 8) ∧ (portState (setFld l9 CYUST_CFG CYUST_CFG_IDLE_EN 1) 5 = 3) ∧
      (flag (setFld l9 CYUST_CFG CYUST_CFG_IDLE_EN 1) CYUST_CFG CYUST_CFG_IDLE_EN = true))) ∧
    (((5 < 8) ∧ (portState idl 5 = 4))) ∧
    (((5 < 8) ∧ (flag tr (CYUST_PORT_CTRL 5) CYUST_PORT_CTRL_EN = true) ∧
      (portUp tr 5 = false))) := ⟨⟨by decide +kernel, reaches_of (by decide +kernel), by decide +kernel⟩,
    ⟨by decide +kernel, reaches_of (by decide +kernel), by decide +kernel⟩,
    ⟨by decide +kernel, reaches_of (by decide +kernel), by decide +kernel⟩,
    ⟨by decide +kernel, reaches_of (by decide +kernel), by decide +kernel⟩,
    by decide +kernel,
    by decide +kernel,
    by decide +kernel,
    by decide +kernel,
    by decide +kernel,
    by decide +kernel,
    by decide +kernel,
    by decide +kernel,
    by decide +kernel,
    by decide +kernel,
    by decide +kernel,
    by decide +kernel,
    by decide +kernel,
    by decide +kernel,
    by decide +kernel,
    by decide +kernel,
    by decide +kernel,
    by decide +kernel,
    by decide +kernel⟩
def rq (t u : Nat) (op : ReqOp) (ps : List Part) : Req :=
  { tag := t, u := u, c := 1, pc := 4, op := op, dst := none, pdst := 0, tracked := true, parts := ps, chan := false, pos := 0, cnt := 0, stamp := 0, orphan := false }
def far : Nat := 0x45 * 2 ^ 48 + 0x100
def ldr : Req := rq 6 3 (.load far 8 false) [⟨far, 0, some (.status 0)⟩, ⟨far, 8, none⟩]
def rs : State := { lk with core := { lk.core with reqs := [ldr] }, link := { lk.link with sent := [⟨6, 1, 5, 400⟩] } }
def d40 : List Byte := (List.range 40).map fun i => BitVec.ofNat 8 i
def FL : List W512 := [1, 2, 3]
def full : State := { lk with link := { lk.link with flits := [(5 * 8 + 6, 30), (5 * 8 + 7, 30)] } }
def rmd : State := setFld { lk with link := { lk.link with inbox := [⟨77, 9, 0x1000, 64, 3, none⟩] } } LMC_STATUS
  LMC_STATUS_INIT_DONE 1
def LR := lmcRead 0x1000 64 3 ⟨[], []⟩ rmd
def cwS : State := setFld (setFld
  { lk with link := { lk.link with buffer := [⟨5, 70000, .test⟩, ⟨5, 140620, .farLoop⟩, ⟨5, 140624, .idleEntry⟩] } }
  (CYUST_PORT_ERR 5) CYUST_PORT_ERR_CORR_CW 3) (CYUST_LANE 5 1) CYUST_LANE_SYM_ERR ((2 ^ CYUST_LANE_SYM_ERR.width) - 2)
def d70 : List Byte := (List.range 70).map fun i => BitVec.ofNat 8 i
def sb (s : State) (p src dst rlink : Nat) (d : List Byte) : Bool := decide (p < 8 ∧ portState s p = 3 ∧ src < 512 ∧
  dst < 512 ∧ rlink < 4096 ∧ 0 < d.length ∧ d.length ≤ 512)
def gw : State := rset lk (CYUST_GW 1023) (packW [(1, CYUST_GW_VALID.lo), (1, CYUST_GW_DIR.lo), (4095, CYUST_GW_LINK_ID.lo),
  (199, CYUST_GW_ROW.lo), (7, CYUST_GW_DGROUP.lo), (63, CYUST_GW_DMODULE.lo)])
def tk : Token := ⟨4095, d70.map (fun b => (b, decide (b = 5))), 9, true, true, false⟩
def gwo : State := { rset lk (CYUST_GW 5) (packW [(1, CYUST_GW_VALID.lo), (0, CYUST_GW_DIR.lo), (4095, CYUST_GW_LINK_ID.lo), (199, CYUST_GW_ROW.lo), (1, CYUST_GW_DGROUP.lo), (13, CYUST_GW_DMODULE.lo), (77, CYUST_GW_RLINK.lo)]) with strm := { lk.strm with gwOut := [(199, tk)] } }
def fo : State := setFld (setFld (setFld (rset (en 0 3 cup) PACE_CFG 0x104) PACE_STATUS PACE_STATUS_ROLE_NOW 1) PACE_MASTER
  PACE_MASTER_VALID 1) PACE_MASTER PACE_MASTER_MODULE 2
/-- The premises of `Obligations.CyustTrafficAndRoutes` can be met. -/
theorem witness_CyustTrafficAndRoutes :
    (((5 < 8) ∧ (rs.link.sent = [⟨6, 1, 5, 400⟩]) ∧ (findReq rs 6 = some ldr) ∧ (isLoad ldr = true) ∧
      (ldr.parts[1]? = some (⟨far, 8, none⟩ : Part)))) ∧
    (((5 < 8) ∧ (rs.link.sent = [⟨6, 1, 5, 400⟩]) ∧ (findReq rs 6 = some ldr) ∧ (isLoad ldr = true) ∧
      (ldr.parts[1]? = some (⟨far, 8, none⟩ : Part)) ∧ (1 < 2) ∧ (portState rs 5 = 3))) ∧
    (((5 < 8) ∧ (1 < 2) ∧ (portState rs 5 = 3) ∧ (isSent rs 6 0 = false))) ∧
    (((6 < 8) ∧ (pktInOk (.transit 77 3 5 false [1, 2, 3]) = true) ∧ (1 < 2) ∧ (portState lk 6 = 3) ∧ (lk.link.outq = []) ∧
      ((⟨6, 77, 3, 1, 3, 5, false, .transit [1, 2, 3]⟩ : OutPkt) = ⟨6, 77, 3, 1, [1, 2, 3].length, 5, false, .transit [1, 2,
      3]⟩) ∧ (outPort lk (⟨6, 77, 3, 1, 3, 5, false, .transit [1, 2, 3]⟩ : OutPkt) = some 5) ∧ (portState lk 5 = 3) ∧
      (flitRoom lk 5 3 (outClass lk (⟨6, 77, 3, 1, 3, 5, false, .transit [1, 2, 3]⟩ : OutPkt) 5) [1, 2, 3].length = true))) ∧
    (((6 < 8) ∧ (pktInOk (.transit 77 3 5 false [1, 2, 3]) = true) ∧ (1 < 2) ∧ (portState full 6 = 3) ∧
      (full.link.outq = []) ∧
      ((⟨6, 77, 3, 1, 3, 5, false, .transit [1, 2, 3]⟩ : OutPkt) = ⟨6, 77, 3, 1, [1, 2, 3].length, 5, false, .transit [1, 2,
      3]⟩) ∧ (outPort full (⟨6, 77, 3, 1, 3, 5, false, .transit [1, 2, 3]⟩ : OutPkt) = some 5) ∧ (portState full 5 = 3) ∧
      (flitRoom full 5 3 (outClass full (⟨6, 77, 3, 1, 3, 5, false, .transit [1, 2, 3]⟩ : OutPkt) 5) [1, 2, 3].length =
      false))) ∧
    (((5 < 8) ∧ (pktInOk (.read 77 9 0x1000 64 3) = true) ∧ (1 < 2) ∧ (portState lk 5 = 3))) ∧
    (((5 < 8) ∧ (pktInOk (.read 77 9 0x1000 64 3) = true) ∧ (1 < 2) ∧ (rmd.link.inbox = [⟨77, 9, 0x1000, 64, 3, none⟩]) ∧
      (rmd.link.outq = []) ∧ (rmd.mem.heldWr = []) ∧
      (lmcRead 0x1000 64 3 ⟨[], []⟩ rmd = (some ((List.replicate 64 0), []), LR.2)) ∧ (routePort LR.2 77 = some 5) ∧
      (portState LR.2 5 = 3) ∧ (flitRoom LR.2 5 1 (hopClass LR.2 5) (1 + ((List.replicate 64 0).length + 31) / 32) = true))) ∧
    (((5 < 8) ∧ ((List.range 16).Nodup) ∧ ((List.range 16).all (· < 544) = true) ∧ (portState cwS 5 = 3) ∧
      (15 < (List.range 16).length))) ∧
    (((5 < 8) ∧ ([1, 9, 17, 543].Nodup) ∧ ([1, 9, 17, 543].all (· < 544) = true) ∧ (portState cwS 5 = 3) ∧
      ([1, 9, 17, 543] ≠ []) ∧ ([1, 9, 17, 543].length ≤ 15))) ∧
    (((5 < 8) ∧ ([1, 9, 17, 543].Nodup) ∧ ([1, 9, 17, 543].all (· < 544) = true) ∧ (portState cwS 5 = 3))) ∧
    (((5 < 8) ∧ (creditInOk (.packet 3 1 32) = true) ∧ (portState full 5 = 3) ∧ (full.link.outq = []))) ∧
    (((sb lk 6 511 77 4095 d70 = true) ∧ (77 ≠ selfIdx lk) ∧ (routePort lk 77 = some 5) ∧ (portState lk 5 = 3))) ∧
    (((sb lk 6 511 0 4095 d70 = true) ∧ (0 = selfIdx lk) ∧ (gwInEntry lk 511 4095 = none))) ∧
    (((sb gw 6 511 0 4095 d70 = true) ∧ (0 = selfIdx gw) ∧ (gwInEntry gw 511 4095 = some 1023))) ∧
    (((6 < 8) ∧ (199 < 200) ∧ (gwo.strm.gwOut = [(199, tk)]) ∧ (gwo.link.replay = []) ∧
      (gwOutEntry gwo 199 tk.link = some 5) ∧ (routePort gwo (gwPeer gwo (CYUST_GW 5)) = some 5) ∧ (portState gwo 5 = 3))) ∧
    (((6 < 8) ∧ (199 < 200) ∧ (({ lk with strm := gwo.strm }).strm.gwOut = [(199, tk)]) ∧
      (({ lk with strm := gwo.strm }).link.replay = []) ∧ (gwOutEntry ({ lk with strm := gwo.strm }) 199 tk.link = none))) ∧
    (((5 < 8) ∧ (65535 < 65536) ∧ (portState lk 5 = 3) ∧ (paceOn lk = false))) ∧
    (((0 < 8) ∧ (65535 < 65536) ∧ (portState fo 0 = 3) ∧ (paceOn fo = true) ∧ (roleNow fo ≠ 0) ∧
      (flag fo PACE_MASTER PACE_MASTER_VALID = true) ∧ (masterPort fo = some (0, 2)) ∧ (50 ≤ 50))) ∧
    (((0 < 8) ∧ (masterOk M = true)) ∧ (Reaches cup M CYUST_TOPO) ∧ ((mayAdmin cup M = true) ∧
      ((0xFFFFFFFFFFF00000 + 0x5) < 2 ^ 64) ∧ (∀ q, q < 8 → flag cup (CYUST_PORT_CTRL q) CYUST_PORT_CTRL_EN = false) ∧
      (fget (BitVec.ofNat 64 (0xFFFFFFFFFFF00000 + 0x5)) CYUST_TOPO_ZDIM ≠ 3) ∧
      (fget (BitVec.ofNat 64 (0xFFFFFFFFFFF00000 + 0x5)) CYUST_TOPO_AUX ≠ 3))) ∧
    (((5 < 8) ∧ (masterOk M = true)) ∧ (Reaches lk M CYUST_TOPO) ∧ ((mayAdmin lk M = true) ∧ (0 < 2 ^ 64) ∧
      (flag lk (CYUST_PORT_CTRL 5) CYUST_PORT_CTRL_EN = true ∨ fget (BitVec.ofNat 64 0) CYUST_TOPO_ZDIM = 3 ∨ fget
      (BitVec.ofNat 64 0) CYUST_TOPO_AUX = 3))) ∧
    (((5 < 8) ∧ (masterOk M = true) ∧ (511 < 512) ∧ ((2 ^ 17 + 0x76) < 2 ^ 64) ∧ (isSupervisor M = true ∨ M = .mc) ∧
      (portUp lk ((2 ^ 17 + 0x76) % 8) = true))) ∧
    (((5 < 8) ∧ (masterOk M = true) ∧ (511 < 512) ∧ ((0xF4) < 2 ^ 64) ∧ (isSupervisor M = true ∨ M = .mc) ∧
      (portUp lk ((0xF4) % 8) = false) ∧ ((0xF4) / 128 % 2 = 1))) := ⟨by decide +kernel,
    by decide +kernel,
    by decide +kernel,
    by decide +kernel,
    by decide +kernel,
    by decide +kernel,
    by decide +kernel,
    by decide +kernel,
    by decide +kernel,
    by decide +kernel,
    by decide +kernel,
    by decide +kernel,
    by decide +kernel,
    by decide +kernel,
    by decide +kernel,
    by decide +kernel,
    by decide +kernel,
    by decide +kernel,
    ⟨by decide +kernel, reaches_of (by decide +kernel), by decide +kernel⟩,
    ⟨by decide +kernel, reaches_of (by decide +kernel), by decide +kernel⟩,
    by decide +kernel,
    by decide +kernel⟩

end Sys2Proof.Tests.Witness15

namespace Sys2Proof.Tests.Witness16
open Sys2Proof Sys2Proof.Machine Sys2Proof.Tests
set_option Elab.async false
set_option maxRecDepth 100000
set_option synthInstance.maxSize 2000
set_option synthInstance.maxHeartbeats 200000

def mcOn : State := { (setFld State.reset MC_STATUS MC_STATUS_STATE 1) with mc := { State.reset.mc with pwrGood := true } }
def mcRec : State := { (setFld State.reset MC_STATUS MC_STATUS_STATE 2) with mc := { State.reset.mc with pwrGood := true } }
def mcOwn : State := setFld (setFld (rset mcOn HOSTIF_OWNER (packW [(2, 0), (1, 2)])) (HOSTIF_PORT_STATUS 0)
  HOSTIF_PORT_STATUS_CFG_READY 1) (HOSTIF_PORT_STATUS 1) HOSTIF_PORT_STATUS_CFG_READY 1
def zeros (n : Nat) : List Byte := List.replicate n 0
def req2 (a b : Nat) : List Byte := leBytes 4 a ++ leBytes 4 b
def mcBusy : State := { mcOn with mc := { mcOn.mc with ccSwitch := true } }
def mcDram : State := { (setFld (setFld mcOn LMC_STATUS LMC_STATUS_INIT_DONE 1) LOAD_STAGE LOAD_STAGE_SIZE 1) with mem := { mcOn.mem with dram := [(5, 7)] } }
def mcLock : State := setFld mcDram LOAD_STATUS LOAD_STATUS_STATE 1
def mcBox : State := setFld (setFld (setFld mcOn (MBX_CFG 5) MBX_CFG_RECEIVER 8) (MBX_CFG 6) MBX_CFG_RECEIVER 8) (MBX_CFG 0)
  MBX_CFG_RECEIVER 8
def mcBoxP : State := setFld (setFld (setFld (rset mcBox (mbxBodyWord 5 0) 0x1122334455667788) (MBX_HDR 5) MBX_HDR_STATE 2)
  (MBX_HDR 5) MBX_HDR_SRC 4) (MBX_HDR 5) MBX_HDR_LEN 3
def mcBoxC : State := setFld mcBox (MBX_HDR 5) MBX_HDR_STATE 3
def mcSvn : State := setFld (setFld mcOn MC_FW MC_FW_SVN 4) CC_FW MC_FW_SVN 64
def mcPlot : State := { setFld mcOn (PLOT_CFG 3) PLOT_CFG_VALID 1 with mc := { mcOn.mc with held := false } }
/-- The premises of `Obligations.ManagementCommands` can be met. -/
theorem witness_ManagementCommands :
    (((mcRuns mcRec = false) ∧ (0 ≠ 0 ∨ 0x40 ∉ [0x01, 0x10, 0x20]))) ∧
    (((mcRuns mcOwn = true) ∧ (1 < 3))) ∧
    (((mcRuns mcOwn = true) ∧ (2 < 3)) ∧ (MgmtMay mcOwn 2 0x01) ∧ (([] : List Byte) = [])) ∧
    ((mcRuns mcOn = true) ∧ (MgmtMay mcOn 0 0x02) ∧ ((req2 864 0).length = 8)) ∧
    ((mcRuns mcOn = true) ∧ (MgmtMay mcOn 0 0x03) ∧ (((zeros 32 ++ leBytes 16 (2 ^ 95 + 9)).length = 48) ∧
      (maskOk 0 (fieldAt (zeros 32 ++ leBytes 16 (2 ^ 95 + 9)) 32 16) = true) ∧
      (flag mcOn MC_STATUS MC_STATUS_ID_KEY = false))) ∧
    (((mcRuns mcDram = true) ∧ (0 = 0) ∧ ((leBytes 8 (2 ^ 30) ++ [9]).length ≤ 1016) ∧
      (8 ≤ (leBytes 8 (2 ^ 30) ++ [9]).length) ∧ ((2 ^ 30) = fieldAt (leBytes 8 (2 ^ 30) ++ [9]) 0 8) ∧
      (([9] : List Byte) = (leBytes 8 (2 ^ 30) ++ [9]).drop 8) ∧ (stageBytes mcDram < (2 ^ 30) + ([9] : List Byte).length))) ∧
    (((mcRuns mcLock = true) ∧ (0 = 0) ∧ ((leBytes 8 (2 ^ 30 - 1) ++ [9]).length ≤ 1016) ∧
      (8 ≤ (leBytes 8 (2 ^ 30 - 1) ++ [9]).length) ∧ ((2 ^ 30 - 1) = fieldAt (leBytes 8 (2 ^ 30 - 1) ++ [9]) 0 8) ∧
      (([9] : List Byte) = (leBytes 8 (2 ^ 30 - 1) ++ [9]).drop 8) ∧
      ((2 ^ 30 - 1) + ([9] : List Byte).length ≤ stageBytes mcLock) ∧
      (stageLocked mcLock (stageBase mcLock + (2 ^ 30 - 1)) = true))) ∧
    (((mcRuns mcDram = true) ∧ (0 = 0) ∧ ((leBytes 8 (2 ^ 30 - 1) ++ [9]).length ≤ 1016) ∧
      (8 ≤ (leBytes 8 (2 ^ 30 - 1) ++ [9]).length) ∧ ((2 ^ 30 - 1) = fieldAt (leBytes 8 (2 ^ 30 - 1) ++ [9]) 0 8) ∧
      (([9] : List Byte) = (leBytes 8 (2 ^ 30 - 1) ++ [9]).drop 8) ∧
      ((2 ^ 30 - 1) + ([9] : List Byte).length ≤ stageBytes mcDram) ∧
      (stageLocked mcDram (stageBase mcDram + (2 ^ 30 - 1)) = false) ∧
      (flag mcDram LMC_STATUS LMC_STATUS_INIT_DONE = true))) ∧
    (((mcRuns mcOn = true) ∧ (0 = 0) ∧ ((leBytes 4 0 ++ leBytes 8 77).length = 12))) ∧
    (((mcRuns mcBox = true) ∧ (0 = 0) ∧ (mbxBodyOk (req2 5 1 ++ leBytes 4 31 ++ [1, 2, 3, 4, 5, 6, 7, 8, 9]) = true) ∧
      (5 = fieldAt (req2 5 1 ++ leBytes 4 31 ++ [1, 2, 3, 4, 5, 6, 7, 8, 9]) 0 4) ∧
      (fieldAt (req2 5 1 ++ leBytes 4 31 ++ [1, 2, 3, 4, 5, 6, 7, 8, 9]) 4 4 = 1) ∧ (mbxState mcBox 5 = 0))) ∧
    (((mcRuns mcBoxP = true) ∧ (0 = 0) ∧ (mbxBodyOk (req2 5 1 ++ leBytes 4 31 ++ [1, 2, 3, 4, 5, 6, 7, 8, 9]) = true) ∧
      (5 = fieldAt (req2 5 1 ++ leBytes 4 31 ++ [1, 2, 3, 4, 5, 6, 7, 8, 9]) 0 4) ∧
      (fieldAt (req2 5 1 ++ leBytes 4 31 ++ [1, 2, 3, 4, 5, 6, 7, 8, 9]) 4 4 = 1) ∧ (mbxState mcBoxP 5 ≠ 0))) ∧
    (((mcRuns mcBoxP = true) ∧ (0 = 0) ∧ (mbxBodyOk (req2 5 2) = true) ∧ (5 = fieldAt (req2 5 2) 0 4) ∧
      (fieldAt (req2 5 2) 4 4 = 2) ∧ (isReceiver mcBoxP 5 .sideBand = true) ∧ (mbxState mcBoxP 5 = 2))) ∧
    (((mcRuns mcOn = true) ∧ (0 = 0) ∧ (mbxBodyOk (req2 5 2) = true) ∧ (5 = fieldAt (req2 5 2) 0 4) ∧
      (fieldAt (req2 5 2) 4 4 = 2) ∧ (isReceiver mcOn 5 .sideBand = false))) ∧
    (((mcRuns mcBoxC = true) ∧ (0 = 0) ∧ (mbxBodyOk (req2 5 3) = true) ∧ (5 = fieldAt (req2 5 3) 0 4) ∧
      (fieldAt (req2 5 3) 4 4 = 3) ∧ (isReceiver mcBoxC 5 .sideBand = true) ∧ (mbxState mcBoxC 5 = 3))) ∧
    (((mcRuns mcBoxP = true) ∧ (0 = 0) ∧ (mbxBodyOk (req2 5 4) = true) ∧ (5 = fieldAt (req2 5 4) 0 4) ∧
      (fieldAt (req2 5 4) 4 4 = 4) ∧ (mbxState mcBoxP 5 = 2) ∧ (mbxSrc mcBoxP 5 = 4))) ∧
    (((mcRuns mcBox = true) ∧ (0 = 0) ∧ (mbxBodyOk (req2 5 2) = true) ∧ (5 = fieldAt (req2 5 2) 0 4) ∧
      (2 ≤ fieldAt (req2 5 2) 4 4) ∧ (mbxState mcBox 5 = 0) ∧ (isReceiver mcBox 5 .sideBand = true))) ∧
    (((mcRuns mcBox = true) ∧ (0 = 0) ∧ ((leBytes 8 8).length = 8) ∧ (fieldAt (leBytes 8 8) 0 8 % 8 = 0) ∧
      (fieldAt (leBytes 8 8) 0 8 < 2 ^ 28))) ∧
    (((mcRuns mcDram = true) ∧ (mcDram.mc.ccSwitch = false)) ∧ (MgmtMay mcDram 0 0x20) ∧
      (((leBytes 4 0 ++ leBytes 8 (2 ^ 30) ++ leBytes 8 384).length = 20) ∧
      (0 = fieldAt (leBytes 4 0 ++ leBytes 8 (2 ^ 30) ++ leBytes 8 384) 0 4) ∧ (0 ≤ 1) ∧
      ((2 ^ 30) = fieldAt (leBytes 4 0 ++ leBytes 8 (2 ^ 30) ++ leBytes 8 384) 4 8) ∧
      (384 = fieldAt (leBytes 4 0 ++ leBytes 8 (2 ^ 30) ++ leBytes 8 384) 12 8) ∧ (1 = 1 - runningCopy mcDram 0) ∧
      ((dramRead mcDram (2 ^ 30) 384) = dramRead mcDram (stageBase mcDram + (2 ^ 30)) 384) ∧
      (stageBytes mcDram < (2 ^ 30) + 384 ∨ copySize 0 - 4096 < 384 ∨ 384 < 384))) ∧
    (((mcRuns ({ mcDram with mc := { mcDram.mc with mcCtr := 3 } }) = true) ∧
      (({ mcDram with mc := { mcDram.mc with mcCtr := 3 } }).mc.ccSwitch = false)) ∧
      (MgmtMay ({ mcDram with mc := { mcDram.mc with mcCtr := 3 } }) 0 0x20) ∧
      (((leBytes 4 0 ++ leBytes 8 0 ++ leBytes 8 384).length = 20) ∧
      (0 = fieldAt (leBytes 4 0 ++ leBytes 8 0 ++ leBytes 8 384) 0 4) ∧ (0 ≤ 1) ∧
      (0 = fieldAt (leBytes 4 0 ++ leBytes 8 0 ++ leBytes 8 384) 4 8) ∧
      (384 = fieldAt (leBytes 4 0 ++ leBytes 8 0 ++ leBytes 8 384) 12 8) ∧
      (1 = 1 - runningCopy ({ mcDram with mc := { mcDram.mc with mcCtr := 3 } }) 0) ∧
      ((dramRead mcDram (stageBase mcDram) 384) = dramRead ({ mcDram with mc := { mcDram.mc with mcCtr := 3 } }) (stageBase
      ({ mcDram with mc := { mcDram.mc with mcCtr := 3 } }) + 0) 384) ∧
      (0 + 384 ≤ stageBytes ({ mcDram with mc := { mcDram.mc with mcCtr := 3 } })) ∧ (384 ≤ copySize 0 - 4096) ∧ (384 ≤ 384) ∧
      (fieldAt (dramRead mcDram (stageBase mcDram) 384) 16 1 < svnFloor
      ({ mcDram with mc := { mcDram.mc with mcCtr := 3 } }) 0))) ∧
    (((mcRuns mcSvn = true) ∧ (mcSvn.mc.ccSwitch = false)) ∧ (MgmtMay mcSvn 0 0x21) ∧ (((leBytes 4 1).length = 4) ∧
      (1 = fieldAt (leBytes 4 1) 0 4) ∧ (1 ≤ 1) ∧ (64 = fld mcSvn (if 1 = 0 then MC_FW else CC_FW) MC_FW_SVN) ∧ (63 < 64))) ∧
    (((mcRuns ({ mcSvn with mc := { mcSvn.mc with mcCtr := 4 } }) = true) ∧
      (({ mcSvn with mc := { mcSvn.mc with mcCtr := 4 } }).mc.ccSwitch = false)) ∧
      (MgmtMay ({ mcSvn with mc := { mcSvn.mc with mcCtr := 4 } }) 0 0x21) ∧ (((leBytes 4 0).length = 4) ∧
      (0 = fieldAt (leBytes 4 0) 0 4) ∧ (0 ≤ 1) ∧
      (4 = fld ({ mcSvn with mc := { mcSvn.mc with mcCtr := 4 } }) (if 0 = 0 then MC_FW else CC_FW) MC_FW_SVN) ∧ (4 ≤ 63) ∧
      (4 ≤ svnFloor ({ mcSvn with mc := { mcSvn.mc with mcCtr := 4 } }) 0))) ∧
    (((mcRuns mcPlot = true) ∧ (mcPlot.mc.ccSwitch = false)) ∧ (MgmtMay mcPlot 0 0x22) ∧ ((([] : List Byte) = []) ∧
      (mcPlot.mc.held = false) ∧ (anyPlot mcPlot = true))) ∧
    (((mcRuns mcPlot = true) ∧ (mcPlot.mc.ccSwitch = false)) ∧ (MgmtMay mcPlot 0 0x30) ∧ (([] : List Byte) = [])) ∧
    (((mcRuns mcOn = true) ∧ (mcOn.mc.ccSwitch = false)) ∧ (MgmtMay mcOn 0 0x40) ∧
      ((zeros 384).length = 384)) := ⟨by decide +kernel,
    by decide +kernel,
    ⟨by decide +kernel, by unfold MgmtMay; decide +kernel, by decide +kernel⟩,
    ⟨by decide +kernel, by unfold MgmtMay; decide +kernel, by decide +kernel⟩,
    ⟨by decide +kernel, by unfold MgmtMay; decide +kernel, by decide +kernel⟩,
    by decide +kernel,
    by decide +kernel,
    by decide +kernel,
    by decide +kernel,
    by decide +kernel,
    by decide +kernel,
    by decide +kernel,
    by decide +kernel,
    by decide +kernel,
    by decide +kernel,
    by decide +kernel,
    by decide +kernel,
    ⟨by decide +kernel, by unfold MgmtMay; decide +kernel, by decide +kernel⟩,
    ⟨by decide +kernel, by unfold MgmtMay; decide +kernel, by decide +kernel⟩,
    ⟨by decide +kernel, by unfold MgmtMay; decide +kernel, by decide +kernel⟩,
    ⟨by decide +kernel, by unfold MgmtMay; decide +kernel, by decide +kernel⟩,
    ⟨by decide +kernel, by unfold MgmtMay; decide +kernel, by decide +kernel⟩,
    ⟨by decide +kernel, by unfold MgmtMay; decide +kernel, by decide +kernel⟩,
    ⟨by decide +kernel, by unfold MgmtMay; decide +kernel, by decide +kernel⟩⟩

end Sys2Proof.Tests.Witness16

namespace Sys2Proof.Tests.Witness17
open Sys2Proof Sys2Proof.Machine Sys2Proof.Tests
set_option Elab.async false
set_option maxRecDepth 100000
set_option synthInstance.maxSize 2000
set_option synthInstance.maxHeartbeats 200000

def mcOn : State := { (setFld State.reset MC_STATUS MC_STATUS_STATE 1) with mc := { State.reset.mc with pwrGood := true } }
def mcUp : State := { (setFld (setFld (setFld mcOn GLB_STATUS GLB_STATUS_COMPUTE_UP 1) MC_STATUS MC_STATUS_CC_RUNNING 1) GLB_STATUS GLB_STATUS_DEV_LIVE 1) with now := 6000, mc := { mcOn.mc with held := false, hbAt := some 5000, eventRx := some 9, pecLogAt := some 10, fatalNew := true }, pwr := { mcOn.pwr with sample := [(3, 0x0123456789ABCDEF), (4, 0xFFFF0000FFFF12AB), (64, 1234)] } }
def mcRun3 : State := { (setFld mcOn MC_STATUS MC_STATUS_STATE 3) with mc := { mcOn.mc with expired := true } }
/-- The premises of `Obligations.McLifeSideBandAndJtag` can be met. -/
theorem witness_McLifeSideBandAndJtag :
    ((mcRuns State.reset = false)) ∧
    (((mcRuns mcUp = true) ∧
      (true = (flag mcUp GLB_STATUS GLB_STATUS_COMPUTE_UP && flag mcUp MC_STATUS MC_STATUS_CC_RUNNING)))) ∧
    (((mcRuns mcOn = true) ∧ (255 < 256))) ∧
    (((mcRuns mcOn = true) ∧ (0 < 256))) ∧
    ((mcRuns mcUp = true)) ∧
    (((mcRuns mcUp = true) ∧
      ((mget 0 mcUp.pwr.sample 4).extractLsb' 8 16 = ((mget (0 : W64) mcUp.pwr.sample 4).extractLsb' 8 16)))) ∧
    (((mcRuns mcOn = true) ∧ (5 < 2 ^ 32))) ∧
    (((mcRuns mcOn = true) ∧ (600 < 2 ^ 32) ∧ (600 ≤ 600) ∧ (600 ≤ 1600))) ∧
    (((mcRuns mcOn = true) ∧ (1601 < 2 ^ 32) ∧ (1601 < 600 ∨ 1600 < 1601))) ∧
    (((mcRuns mcUp = true) ∧ (33 < 256))) ∧
    (((mcRuns mcOn = true) ∧ (6 ≤ 8) ∧ (8 ≤ 8) ∧ (mget 1 mcOn.mc.shown 8 = stateSensor mcOn 8))) ∧
    (((mcRuns mcUp = true) ∧ (6 ≤ 7) ∧ (7 ≤ 8) ∧ (mget 1 mcUp.mc.shown 7 ≠ stateSensor mcUp 7) ∧
      (mcUp.mc.eventRx.isSome = true))) ∧
    (((mcOn.mc.pwrGood = true) ∧ (mcState mcOn = 1) ∧ (mcOn.mc.pecLogAt = none))) ∧
    (((mcUp.mc.pwrGood = true) ∧ (mcState mcUp = 1) ∧ (mcUp.mc.pecLogAt = some 10) ∧ (mcUp.now < 10 + 10 ^ 10))) ∧
    (((flag mcUp GLB_STATUS GLB_STATUS_DEV_LIVE = true) ∧ (mcUp.mc.hbAt = some 5000))) ∧
    (((1 < 2) ∧ (flag State.reset (HOSTIF_PORT_STATUS 1) HOSTIF_PORT_STATUS_CFG_READY = false))) ∧
    (((1 < 2) ∧ (flag (setFld mcUp (HOSTIF_PORT_STATUS 1) HOSTIF_PORT_STATUS_CFG_READY 1) (HOSTIF_PORT_STATUS 1)
      HOSTIF_PORT_STATUS_CFG_READY = true))) ∧
    ((State.reset.mc.pwrGood = false ∨ mcState State.reset = 0)) ∧
    (((mcRun3.mc.pwrGood = true) ∧ (mcState mcRun3 = 3))) := by decide +kernel

end Sys2Proof.Tests.Witness17

namespace Sys2Proof.Tests.Witness18
open Sys2Proof Sys2Proof.Machine Sys2Proof.Tests
set_option Elab.async false
set_option maxRecDepth 100000
set_option synthInstance.maxSize 2000
set_option synthInstance.maxHeartbeats 200000

def up : State := { State.reset with mc := { State.reset.mc with pwrGood := true, held := false } }
def pst (v k : Nat) (s : State) : State := setFld (setFld s PWR_STATUS PWR_STATUS_VCORE v) PWR_STATUS PWR_STATUS_K k
def cald (s : State) : State := setFld s GLB_STATUS GLB_STATUS_HG_CAL 1
def hots (x : Int) (s : State) : State := { s with pwr := { s.pwr with therm := [(7, x)] } }
def G := Sys2Proof.Machine.execGovernorStep
def hot1 : State := cald (hots 2000 (pst 700 0 up))
def hot2 : State := cald (setFld (hots 2000 (pst 600 3 up)) PWR_CFG PWR_CFG_GATE_EN 1)
def hot3 : State := setFld (cald (hots 2000 (pst 700 0 up))) PACE_FLOOR_TARGET PACE_FLOOR_TARGET_TARGET 900
/-- The premises of `Obligations.PowerThermalAndTelemetry` can be met. -/
theorem witness_PowerThermalAndTelemetry :
    (((devRuns ({ up with pwr := { up.pwr with avsFault := true } }) = true) ∧ (2047 < 2048) ∧ (600 ≤ 600) ∧
      (({ up with pwr := { up.pwr with avsFault := true } }).pwr.avsFault = true))) ∧
    (((devRuns up = true) ∧ (2047 < 2048) ∧ (600 ≤ 600) ∧ (up.pwr.avsFault = false))) ∧
    (((devRuns up = true) ∧ (0 < 2048) ∧ (600 ≤ 600) ∧ (up.pwr.avsFault = false))) ∧
    ((({ up with pwr := { up.pwr with avsFault := true } }).pwr.avsFault = true)) ∧
    (((masterOk (.host 1 : Master) = true) ∧ (mayAdmin State.reset (.host 1 : Master) = false))) ∧
    (((masterOk Master.mc = true) ∧ (PWR_LIMIT_SB_LIMIT = (if Master.mc = .mc then PWR_LIMIT_SB_LIMIT else PWR_LIMIT_LIMIT)) ∧
      (mayAdmin up Master.mc = true) ∧ (600 ≤ fget (packW [(600, 16), (100, 32)]) PWR_LIMIT_SB_LIMIT) ∧
      (fget (packW [(600, 16), (100, 32)]) PWR_LIMIT_SB_LIMIT ≤ 1600) ∧
      (1 ≤ fget (packW [(600, 16), (100, 32)]) PWR_LIMIT_WINDOW) ∧
      (fget (packW [(600, 16), (100, 32)]) PWR_LIMIT_WINDOW ≤ 100))) ∧
    (((masterOk (.unit 25600 3 : Master) = true) ∧
      (PWR_LIMIT_LIMIT = (if (.unit 25600 3 : Master) = .mc then PWR_LIMIT_SB_LIMIT else PWR_LIMIT_LIMIT)) ∧
      (mayAdmin up (.unit 25600 3 : Master) = true) ∧
      (fget (packW [(1600, 0), (101, 32)]) PWR_LIMIT_LIMIT < 600 ∨ 1600 < fget (packW [(1600, 0), (101, 32)])
      PWR_LIMIT_LIMIT ∨ fget (packW [(1600, 0), (101, 32)]) PWR_LIMIT_WINDOW < 1 ∨ 100 < fget (packW [(1600, 0), (101, 32)])
      PWR_LIMIT_WINDOW))) ∧
    (((masterOk Master.mc = true) ∧ (mayAdmin (rset up PWR_SHADE_ST 7) Master.mc = true))) ∧
    (((true = flag ({ (setFld (setFld (setFld up GLB_STATUS GLB_STATUS_COMPUTE_UP 1) PWR_STATUS PWR_STATUS_BOOST 1) PWR_BOOST PWR_BOOST_CREDIT 1) with pwr := { up.pwr with credit := 15, upSecs := 59, boostSecs := 59 } })
      GLB_STATUS GLB_STATUS_COMPUTE_UP) ∧
      (true = (devRuns ({ (setFld (setFld (setFld up GLB_STATUS GLB_STATUS_COMPUTE_UP 1) PWR_STATUS PWR_STATUS_BOOST 1) PWR_BOOST PWR_BOOST_CREDIT 1) with pwr := { up.pwr with credit := 15, upSecs := 59, boostSecs := 59 } })
      && flag ({ (setFld (setFld (setFld up GLB_STATUS GLB_STATUS_COMPUTE_UP 1) PWR_STATUS PWR_STATUS_BOOST 1) PWR_BOOST PWR_BOOST_CREDIT 1) with pwr := { up.pwr with credit := 15, upSecs := 59, boostSecs := 59 } })
      PWR_STATUS PWR_STATUS_BOOST)) ∧
      (7 = (if true then max
      ({ (setFld (setFld (setFld up GLB_STATUS GLB_STATUS_COMPUTE_UP 1) PWR_STATUS PWR_STATUS_BOOST 1) PWR_BOOST PWR_BOOST_CREDIT 1) with pwr := { up.pwr with credit := 15, upSecs := 59, boostSecs := 59 } }).pwr.credit
      (min (({ (setFld (setFld (setFld up GLB_STATUS GLB_STATUS_COMPUTE_UP 1) PWR_STATUS PWR_STATUS_BOOST 1) PWR_BOOST PWR_BOOST_CREDIT 1) with pwr := { up.pwr with credit := 15, upSecs := 59, boostSecs := 59 } }).pwr.credit
      + 2) (10 * fld ({ (setFld (setFld (setFld up GLB_STATUS GLB_STATUS_COMPUTE_UP 1) PWR_STATUS PWR_STATUS_BOOST 1) PWR_BOOST PWR_BOOST_CREDIT 1) with pwr := { up.pwr with credit := 15, upSecs := 59, boostSecs := 59 } })
      PWR_BOOST PWR_BOOST_CAP)) else
      ({ (setFld (setFld (setFld up GLB_STATUS GLB_STATUS_COMPUTE_UP 1) PWR_STATUS PWR_STATUS_BOOST 1) PWR_BOOST PWR_BOOST_CREDIT 1) with pwr := { up.pwr with credit := 15, upSecs := 59, boostSecs := 59 } }).pwr.credit)
      - (if true then 10 else 0)))) ∧
    ((fld (setFld up MC_STATUS MC_STATUS_STATE 1) MC_STATUS MC_STATUS_STATE = 1)) ∧
    ((((List.replicate 20 (-641 : Int) ++ [2400] ++ List.replicate 187 (-641 : Int)).length = 208) ∧ (devRuns up = true))) ∧
    (((207 < 208) ∧ (devRuns hot1 = true) ∧ (thermOk hot1 207 = true))) ∧
    (((63 < 64) ∧ ((rget (rset (setFld up (PLOT_CFG 63) PLOT_CFG_VALID 1) PWR_SHADE (BitVec.ofNat 64 (2 ^ 63)))
      PWR_SHADE).getLsbD 63 = true) ∧
      ((rget (rset (setFld up (PLOT_CFG 63) PLOT_CFG_VALID 1) PWR_SHADE (BitVec.ofNat 64 (2 ^ 63))) PWR_SHADE_ST).getLsbD 63
      = false) ∧ (plotValid (rset (setFld up (PLOT_CFG 63) PLOT_CFG_VALID 1) PWR_SHADE (BitVec.ofNat 64 (2 ^ 63))) 63 =
      true) ∧ (plotStill (rset (setFld up (PLOT_CFG 63) PLOT_CFG_VALID 1) PWR_SHADE (BitVec.ofNat 64 (2 ^ 63))) 63 = true))) ∧
    (((1663 < 1664) ∧ (devRuns up = true) ∧ (blockGated up 1663 = false) ∧ (mayGate up 1663 = true) ∧
      (∀ h ∈ up.pwr.heldPkts, h.block ≠ 1663))) ∧
    (((65535 < 65536) ∧ ((List.replicate 7 (1, 2)).length = 7) ∧ (∀ r ∈ (List.replicate 7 (1, 2)), r.1 < 65536 ∧
      r.2 < 65536) ∧ (devRuns up = true))) := by decide +kernel
def rw (b n en : Nat) : W64 := packW [(b, 12), (n, 56), (en, 63)]
def ent (k : ErrClass) (c : Nat) : LogEntry :=
  { time := 5, code := c, src := 3, cls := k, plot := some 2, info := 9, slot := 4 }
def lg1 : State := { State.reset with log := { State.reset.log with inFlight := [ent .corrected 0x0605, ent .notice 1] } }
def lgOn : State := { (setFld (rset lg1 ERR_RING (rw 1 0 1)) ERR_PTR ERR_PTR_TAIL 7) with mem := { lg1.mem with dram := [(3, 3)] } }
def lgFat : State := { State.reset with log := { State.reset.log with inFlight := [ent .fatal 0x0B03], fatalIdx := 15 } }
/-- The premises of `Obligations.RingsAndTheErrorLog` can be met. -/
theorem witness_RingsAndTheErrorLog :
    (((masterOk Master.mc = true) ∧ (mayAdmin State.reset Master.mc = true) ∧ (15 < 16) ∧ (0 = bitsOf (rw 1 0 1) 56 4)) ∧
      (Reaches State.reset Master.mc PACE_OVR_BASE)) ∧
    ((State.reset.log.inFlight = [])) ∧
    (((lg1.log.inFlight = (ent .corrected 0x0605) :: ([ent .notice 1])) ∧ ((ent .corrected 0x0605).cls ≠ .fatal))) ∧
    (((lgFat.log.inFlight = (ent .fatal 0x0B03) :: ([] : List LogEntry)) ∧ ((ent .fatal 0x0B03).cls = .fatal) ∧
      (lgFat.log.fatalIdx < 16))) := ⟨⟨by decide +kernel, reaches_of (by decide +kernel)⟩,
    by decide +kernel,
    by decide +kernel,
    by decide +kernel⟩

end Sys2Proof.Tests.Witness18

namespace Sys2Proof.Tests.Witness19
open Sys2Proof Sys2Proof.Machine Sys2Proof.Tests
set_option Elab.async false
set_option maxRecDepth 100000
set_option synthInstance.maxSize 2000
set_option synthInstance.maxHeartbeats 200000

def mkPlot (s : State) : State := setFld (setFld (setFld (setFld (setFld (setFld s (PLOT_CFG 0) PLOT_CFG_ROW0 0) (PLOT_CFG
  0) PLOT_CFG_COL0 0) (PLOT_CFG 0) PLOT_CFG_HEIGHT 8) (PLOT_CFG 0) PLOT_CFG_WIDTH 8) (PLOT_CFG 0) PLOT_CFG_VALID 1)
  (PLOT_STATUS 0) PLOT_STATUS_STATE 2
def up : State := { State.reset with mc := { State.reset.mc with pwrGood := true, held := false } }
def slotIs (i st k x : Nat) (s : State) : State := setAvl (fun a =>
  { a with reqKind := mset 0 a.reqKind i k, reqTarget := mset 0 a.reqTarget i x }) (setFld s (AVL_RES i) AVL_RES_STATE st)
def hg : State := slotIs 3 1 4 9 { up with avl := { up.avl with hgAsked := [9, 10] } }
def tst (s : State) (t : List CoreTest) : State := { s with avl := { s.avl with tests := t } }
def fnd (c : Nat) : TestFind := { core := c, seq := false, e0 := 0, e1 := 0, rows := [] }
def twoCols : State := { tst up [⟨9, 2, some 3⟩] with avl := { (tst up [⟨9, 2, some 3⟩]).avl with bypass := [(18, 3)] } }
def busyPlot : State := { mkPlot up with core := { (mkPlot up).core with ctxs := [(24, { Ctx.unloaded with st := .ready })] } }
def other (j k x : Nat) : State := slotIs j 2 k x up
def chan (x st : Nat) (s : State) : State := setFld s (chReg x) LMC_CH_STATE st
def port (p st : Nat) (s : State) : State := setFld s (CYUST_PORT_STATUS p) CYUST_PORT_STATUS_STATE st
def live : State := port 7 3 up
/-- The premises of `Obligations.BackgroundTestsAndRequests` can be met. -/
theorem witness_BackgroundTestsAndRequests :
    ((9 = hg.avl.hgAsked.headD hg.avl.hgNext)) ∧
    (((0 < nPhys) ∧ (coreFree up 0 = true) ∧ (testRuns up 0 = false))) ∧
    (((0 < nPhys) ∧ (coreFree (tst up [⟨0, 1, none⟩]) 0 = false ∨ testRuns (tst up [⟨0, 1, none⟩]) 0 = true))) ∧
    (((0 < nPhys) ∧ ((tst up [⟨0, 1, none⟩]).avl.tests = [⟨0, 1, (none : Option Nat)⟩]))) ∧
    (((7 < nPhys) ∧ ((mkPlot (tst up [⟨7, 1, some 3⟩])).avl.tests = [⟨7, 1, (some 3 : Option Nat)⟩]))) ∧
    (((testFindOk (fnd 9) = true) ∧ ((tst up [⟨9, 1, some 3⟩]).avl.tests = [⟨(fnd 9).core, 1, (some 3 : Option Nat)⟩]))) ∧
    ((flag ({ up with avl := { up.avl with retired := [(physAt 1023 0, true)] } }) AVL_CFG AVL_CFG_ROTATE_EN = false ∨ ruled
      ({ up with avl := { up.avl with retired := [(physAt 1023 0, true)] } }) 1023 = true)) ∧
    (((flag up AVL_CFG AVL_CFG_ROTATE_EN = true) ∧ (ruled up 1023 = false) ∧ (1023 ∉ up.avl.rotateDue))) ∧
    (((masterOk (.host 1 : Master) = true) ∧ (15 < 16) ∧
      (mayAdmin State.reset (.host 1 : Master) = false ∨ slotBusy State.reset 15 = true) ∧ (5 < 2 ^ 24))) ∧
    ((mayAdmin State.reset (.host 1 : Master) = false)) ∧
    (((mayAdmin (other 4 3 17) (Master.mc) = true) ∧ (slotBusy (other 4 3 17) 5 = false) ∧ (17 < 2 ^ 24) ∧ (17 = 17) ∧
      (resourceTaken (other 4 3 17) 2 17 = true))) ∧
    (((17 < nCores) ∧ (absentCore up 17 = false) ∧ ((physOf up 17) = physOf up 17) ∧
      (resourceTaken up 1 (physOf up 17) = false) ∧
      (isShaded up (physOf up 17) = true ∨ coreRetired up (physAt (groupAt (physOf up 17)) (spareOf up (groupAt (physOf up
      17)))) = false) ∧ (∀ p, plotOf up 17 = some p → plotIdle up p = true))) ∧
    (((nCores ≤ nCores) ∧ (resourceTaken up 1 nPhys = false))) ∧
    (((3 < nCores) ∧ (absentCore busyPlot 3 = false) ∧ ((physOf up 3) = physOf busyPlot 3) ∧
      (resourceTaken busyPlot 1 (physOf up 3) = false) ∧ (plotOf busyPlot 3 = some 0) ∧ (plotIdle busyPlot 0 = false))) ∧
    (((resourceTaken up 2 nPhys = false) ∧ (nPhys ≤ nPhys))) ∧
    (((resourceTaken up 2 (nPhys - 1) = false) ∧ ((nPhys - 1) < nPhys) ∧
      (isShaded up (nPhys - 1) = true ∨ coreRetired up (physAt (groupAt (nPhys - 1)) (spareOf up (groupAt (nPhys - 1)))) =
      false))) ∧
    (((resourceTaken up 3 nPhys = false) ∧ (nPhys ≤ nPhys))) ∧
    (((resourceTaken up 3 7 = false) ∧ (7 < nPhys))) ∧
    (((resourceTaken up 4 1664 = false) ∧ (1664 ≤ 1664))) ∧
    (((resourceTaken up 4 1663 = false) ∧ (1663 < 1664))) ∧
    (((resourceTaken up 5 64 = false) ∧ (64 ≤ 64))) ∧
    (((resourceTaken up 5 39 = false) ∧ (39 < 64))) ∧
    (((resourceTaken up 6 64 = false) ∧ (64 ≤ 64))) ∧
    (((resourceTaken (chan 39 2 up) 6 39 = false) ∧ (39 < 64) ∧ (∀ c, c < 16 → devCh (39 / 16) c ≠ 39 →
      chState (chan 39 2 up) (devCh (39 / 16) c) = 0) ∧ (chState (chan 39 2 up) 39 = 2))) ∧
    (((resourceTaken up 6 39 = false) ∧ (39 < 64) ∧ (∀ c, c < 16 → devCh (39 / 16) c ≠ 39 →
      chState up (devCh (39 / 16) c) = 0) ∧ (chState up 39 ≠ 2))) ∧
    (((resourceTaken live 7 128 = false) ∧ (128 = 8 * 16 + 0) ∧ (0 < 16) ∧ (8 ≤ 8 ∨ 9 ≤ 0))) ∧
    (((resourceTaken live 7 120 = false) ∧ (120 = 7 * 16 + 8) ∧ (8 < 16) ∧ (7 < 8) ∧ (8 = 8) ∧ (spareFree live 7 = true))) ∧
    (((resourceTaken live 7 119 = false) ∧ (119 = 7 * 16 + 7) ∧ (7 < 16) ∧ (7 < 8) ∧ (7 < 8) ∧ (spareFree live 7 = true))) ∧
    (((resourceTaken up 7 120 = false) ∧ (120 = 7 * 16 + 8) ∧ (8 < 16) ∧ (7 < 8) ∧ (8 < 9) ∧ (spareFree up 7 = false))) ∧
    (((resourceTaken up 8 116 = false) ∧ (116 = 7 * 16 + 4) ∧ (4 < 16) ∧ (8 ≤ 7 ∨ 4 = 0 ∨ 4 ≤ 4))) ∧
    (((resourceTaken up 8 115 = false) ∧ (115 = 7 * 16 + 3) ∧ (3 < 16) ∧ (7 < 8) ∧ (1 ≤ 3) ∧ (3 < 4) ∧
      (portState up 7 ≤ 1))) ∧
    (((resourceTaken live 8 115 = false) ∧ (115 = 7 * 16 + 3) ∧ (3 < 16) ∧ (7 < 8) ∧ (1 ≤ 3) ∧ (3 < 4) ∧
      (1 < portState live 7))) ∧
    (((mayAdmin hg (Master.mc) = true) ∧ (slotState hg 3 = 1 ∨ slotState hg 3 = 3))) ∧
    (((slotState up 3 ≠ 1) ∧ (slotState up 3 ≠ 3))) ∧
    (((slotState (slotIs 3 3 2 17 up) 3 = 3) ∧ (epochOn (slotIs 3 3 2 17 up) = false) ∧
      (coreFree (slotIs 3 3 2 17 up) (mget 0 (slotIs 3 3 2 17 up).avl.reqTarget 3) = true))) ∧
    ((slotState up 3 ≠ 3 ∨ epochOn up = true ∨ coreFree up (mget 0 up.avl.reqTarget 3) = false)) := by decide +kernel

end Sys2Proof.Tests.Witness19
end

