-- ==== Sys2Proof/Tests/WitnessCores.lean ====
section
/-!
SUPPORT. For each statement about the queue and the cores that has premises, a state and operands that meet them, clause by clause. A premise on an opaque
verdict of Config (a signature) has no witness: nothing evaluates it.
-/

namespace Sys2Proof.Tests.Witness00
open Sys2Proof Sys2Proof.Machine Sys2Proof.Tests
set_option Elab.async false
set_option maxRecDepth 100000
set_option synthInstance.maxSize 2000
set_option synthInstance.maxHeartbeats 200000

/-- State.reset meets the premises of the invariants, and a step from it with a command waiting answers a next state. -/
theorem witness_MemoriesStayCanonical :
    memWf State.reset.mem.loc = true ∧ memWf State.reset.mem.dram = true ∧ memWf State.reset.mem.parity = true ∧
    ∃ t, step { State.reset with pending := [.nop 3 0 .S] } = .next t := ⟨by decide, by decide, by decide, _, rfl⟩
/-- The same for the identity counters; the queue holds another command than those that change them. -/
theorem witness_IdentityCountersNeverFall :
    State.reset.mc.mcCtr ≤ 63 ∧ State.reset.mc.ccCtr ≤ 63 ∧ State.reset.mc.ownerCtr ≤ 32 ∧
    (∃ t, step { State.reset with pending := [.nop 3 0 .S] } = .next t) ∧
    (∀ q tag body rest, ([.nop 3 0 .S] : List Instr) ≠ .fwCommitSvn q tag body :: rest) ∧
    (∀ q tag body rest, ([.nop 3 0 .S] : List Instr) ≠ .setOwner q tag body :: rest) :=
  ⟨by decide, by decide, by decide, ⟨_, rfl⟩, by simp, by simp⟩
/-- A command that answers a next state. -/
theorem witness_CommandsLeaveTheQueueAlone : ∃ t, exec (.nop 3 0 .S) State.reset = .next t := ⟨_, rfl⟩
/-- A well-formed command and an ill-formed one, and a state with nothing waiting. -/
theorem witness_CommandsCompleteWhenWellFormed :
    (Instr.nop 25603 7 .X).wf = true ∧ (Instr.nop 25604 0 .S).wf = false ∧ State.reset.pending = [] := by decide


end Sys2Proof.Tests.Witness00

namespace Sys2Proof.Tests.Witness01
open Sys2Proof Sys2Proof.Machine Sys2Proof.Tests
set_option Elab.async false
set_option maxRecDepth 100000
set_option synthInstance.maxSize 2000
set_option synthInstance.maxHeartbeats 200000

def up : State := { State.reset with mc := { State.reset.mc with pwrGood := true, held := false } }
/-- The premises of `Obligations.ScalarArithmeticResults` can be met. -/
theorem witness_ScalarArithmeticResults :
    ((((7 : W64) = sr (ctx (one 25599 7 .S (.add 25599 0 4 1 2) rdy up) 25599 7) 1) ∧
      ((BitVec.ofInt 64 (-3)) = sr (ctx (one 25599 7 .S (.add 25599 0 4 1 2) rdy up) 25599 7) 2) ∧
      ((0 : W64) = sr (ctx (one 25599 7 .S (.add 25599 0 4 1 2) rdy up) 25599 7) 4)) ∧
      (Lone (one 25599 7 .S (.add 25599 0 4 1 2) rdy up) 25599 7 .S (.add 25599 0 4 1 2))) := ⟨by decide +kernel, lone_of
      (by decide +kernel)⟩
def plt (p : Nat) (s : State) : State := setFld (setFld (setFld (setFld (setFld (setFld s (PLOT_CFG p) PLOT_CFG_ROW0 0)
  (PLOT_CFG p) PLOT_CFG_COL0 2) (PLOT_CFG p) PLOT_CFG_HEIGHT 8) (PLOT_CFG p) PLOT_CFG_WIDTH 8) (PLOT_CFG p) PLOT_CFG_VALID
  1) (PLOT_STATUS p) PLOT_STATUS_STATE 2
/-- The premises of `Obligations.PredicateResultsAndSystemValues` can be met. -/
theorem witness_PredicateResultsAndSystemValues :
    ((((7 : W64) = sr (ctx (one 3 1 .S (.cmp 3 0 7 .eq 1 2) rdy up) 3 1) 1) ∧
      ((BitVec.ofInt 64 (-3)) = sr (ctx (one 3 1 .S (.cmp 3 0 7 .eq 1 2) rdy up) 3 1) 2) ∧
      ((5 : W64) = pr (ctx (one 3 1 .S (.cmp 3 0 7 .eq 1 2) rdy up) 3 1) 1) ∧
      ((6 : W64) = pr (ctx (one 3 1 .S (.cmp 3 0 7 .eq 1 2) rdy up) 3 1) 2)) ∧
      (Lone (one 3 1 .S (.cmp 3 0 7 .eq 1 2) rdy up) 3 1 .S (.cmp 3 0 7 .eq 1 2))) ∧
    ((Lone (one 3 1 .S (.rds 3 0 4 0) rdy (plt 9 up)) 3 1 .S (.rds 3 0 4 0)) ∧ ((5 ≤ 0 → 0 ≤ 8 →
      3 = mget 0 (ctx (one 3 1 .S (.rds 3 0 4 0) rdy (plt 9 up)) 3 1).lc (0 - 5)) ∧ (0 = 9 →
      3 = (ctx (one 3 1 .S (.rds 3 0 4 0) rdy (plt 9 up)) 3 1).slot) ∧ (25600 ≤ 3 → 0 < 5 ∨ 9 < 0 → 3 = 0) ∧ (3 < 25600 →
      (0 = 0 → 3 = 3) ∧ (0 = 1 → 3 = 1) ∧ (0 = 2 → 3 = (plotOf (one 3 1 .S (.rds 3 0 4 0) rdy (plt 9 up)) 3).getD 0) ∧
      (0 = 3 → 3 = 3 / 128) ∧ (0 = 4 → 3 = 3 % 128) ∧ (0 = 10 →
      3 = fld (one 3 1 .S (.rds 3 0 4 0) rdy (plt 9 up)) (PLOT_CFG ((plotOf (one 3 1 .S (.rds 3 0 4 0) rdy (plt 9 up))
      3).getD 0)) PLOT_CFG_ROW0) ∧ (0 = 11 →
      3 = fld (one 3 1 .S (.rds 3 0 4 0) rdy (plt 9 up)) (PLOT_CFG ((plotOf (one 3 1 .S (.rds 3 0 4 0) rdy (plt 9 up))
      3).getD 0)) PLOT_CFG_COL0) ∧ (0 = 12 →
      3 = fld (one 3 1 .S (.rds 3 0 4 0) rdy (plt 9 up)) (PLOT_CFG ((plotOf (one 3 1 .S (.rds 3 0 4 0) rdy (plt 9 up))
      3).getD 0)) PLOT_CFG_HEIGHT) ∧ (0 = 13 →
      3 = fld (one 3 1 .S (.rds 3 0 4 0) rdy (plt 9 up)) (PLOT_CFG ((plotOf (one 3 1 .S (.rds 3 0 4 0) rdy (plt 9 up))
      3).getD 0)) PLOT_CFG_WIDTH) ∧ (0 = 14 →
      3 = fld (one 3 1 .S (.rds 3 0 4 0) rdy (plt 9 up)) CYUST_TOPO CYUST_TOPO_MODULE) ∧ (0 = 15 →
      3 = fld (one 3 1 .S (.rds 3 0 4 0) rdy (plt 9 up)) CYUST_TOPO CYUST_TOPO_GROUP)))) := ⟨⟨by decide +kernel, lone_of (by
      decide +kernel)⟩,
    ⟨lone_of (by decide +kernel), by decide +kernel⟩⟩
/-- The premises of `Obligations.ControlTransfers` can be met. -/
theorem witness_ControlTransfers :
    ((Lone (one 3 1 .S (.br 3 0 2047) rdy up) 3 1 .S (.br 3 0 2047))) ∧
    ((Lone (one 3 1 .S (.call 3 0 0) rdy up) 3 1 .S (.call 3 0 0))) ∧
    ((Lone (one 3 1 .S (.ret 3 0) { rdy with sreg := [(31, 2047)] } up) 3 1 .S (.ret 3 0)) ∧
      ((sr (ctx (one 3 1 .S (.ret 3 0) { rdy with sreg := [(31, 2047)] } up) 3 1) 31).toNat ≤ 2047)) ∧
    ((Lone (one 3 1 .S (.eret 3 0) { rdy with epc := 2047 } up) 3 1 .S (.eret 3 0)) ∧
      (((ctx (one 3 1 .S (.eret 3 0) { rdy with epc := 2047 } up) 3 1).eie = false) ∧
      ((ctx (one 3 1 .S (.eret 3 0) { rdy with epc := 2047 } up) 3 1).epc ≤ 2047))) := ⟨lone_of (by decide +kernel),
    lone_of (by decide +kernel),
    ⟨lone_of (by decide +kernel), by decide +kernel⟩,
    ⟨lone_of (by decide +kernel), by decide +kernel⟩⟩
/-- The premises of `Obligations.Repeats` can be met. -/
theorem witness_Repeats :
    (((.loop 3 0 1 2047 : Instr) = .loop 3 0 1 2047 ∧
      7 = (sr (ctx (one 3 1 .S (.loop 3 0 1 2047 : Instr) rdy up) 3 1) 1).toNat ∨ (.loop 3 0 1 2047 : Instr) = .loopi 3 0 7
      2047) ∧ (Lone (one 3 1 .S (.loop 3 0 1 2047 : Instr) rdy up) 3 1 .S (.loop 3 0 1 2047 : Instr)) ∧ ((7 ≤ 2 ^ 24) ∧
      ((ctx (one 3 1 .S (.loop 3 0 1 2047 : Instr) rdy up) 3 1).pc < 2047) ∧ (0 < 7))) ∧
    (((.loopi 3 0 0 2046 : Instr) = .loop 3 0 1 2046 ∧
      0 = (sr (ctx (one 3 1 .S (.loopi 3 0 0 2046 : Instr) rdy up) 3 1) 1).toNat ∨ (.loopi 3 0 0 2046 : Instr) = .loopi 3 0
      0 2046) ∧ (Lone (one 3 1 .S (.loopi 3 0 0 2046 : Instr) rdy up) 3 1 .S (.loopi 3 0 0 2046 : Instr)) ∧ ((0 ≤ 2 ^ 24) ∧
      ((ctx (one 3 1 .S (.loopi 3 0 0 2046 : Instr) rdy up) 3 1).pc < 2046) ∧ (0 = 0) ∧ (2046 < 2047))) ∧
    (((.repi 25600 0 1 : Instr) = .repi 25600 0 1 ∧
      7 = (sr (ctx (one 25600 1 .S (.repi 25600 0 1 : Instr) rdy up) 25600 1) 1).toNat % 2 ^ 16 ∨ (.repi 25600 0 1 : Instr)
      = .repii 25600 0 7) ∧ (Lone (one 25600 1 .S (.repi 25600 0 1 : Instr) rdy up) 25600 1 .S (.repi 25600 0 1 : Instr)) ∧
      ((privOf (one 25600 1 .S (.repi 25600 0 1 : Instr) rdy up) 25600 1 ≠ .user) ∧
      ((ctx (one 25600 1 .S (.repi 25600 0 1 : Instr) rdy up) 25600 1).pc < 2046) ∧
      (bodyBad (one 25600 1 .S (.repi 25600 0 1 : Instr) rdy up) 25600 ((ctx (one 25600 1 .S (.repi 25600 0 1 : Instr) rdy
      up) 25600 1).pc + 1) = false) ∧ (0 < 7))) ∧
    (((.repii 25600 0 0 : Instr) = .repi 25600 0 1 ∧
      0 = (sr (ctx (one 25600 1 .S (.repii 25600 0 0 : Instr) rdy up) 25600 1) 1).toNat % 2 ^ 16 ∨ (.repii 25600 0 0 :
      Instr) = .repii 25600 0 0) ∧
      (Lone (one 25600 1 .S (.repii 25600 0 0 : Instr) rdy up) 25600 1 .S (.repii 25600 0 0 : Instr)) ∧
      ((privOf (one 25600 1 .S (.repii 25600 0 0 : Instr) rdy up) 25600 1 ≠ .user) ∧
      ((ctx (one 25600 1 .S (.repii 25600 0 0 : Instr) rdy up) 25600 1).pc < 2046) ∧
      (bodyBad (one 25600 1 .S (.repii 25600 0 0 : Instr) rdy up) 25600 ((ctx (one 25600 1 .S (.repii 25600 0 0 : Instr) rdy
      up) 25600 1).pc + 1) = false) ∧ (0 = 0))) := ⟨⟨by decide +kernel, lone_of (by decide +kernel), by decide +kernel⟩,
    ⟨by decide +kernel, lone_of (by decide +kernel), by decide +kernel⟩,
    ⟨by decide +kernel, lone_of (by decide +kernel), by decide +kernel⟩,
    ⟨by decide +kernel, lone_of (by decide +kernel), by decide +kernel⟩⟩
def holdS : State := one 3 1 .X (.halt 3 0) { rdy with st := .waiting, hold := .event } up
def stallS : State := { one 3 1 .S (.add 3 0 1 2 3) { rdy with st := .waiting, repiOn := true, repiLeft := 2 } up with now := 20000000, core := { (one 3 1 .S (.add 3 0 1 2 3) { rdy with st := .waiting, repiOn := true, repiLeft := 2 } up).core with reqs := [{ tag := 0, u := 3, c := 1, pc := 4, op := .load 0 8 false, dst := some (.s 2), pdst := 0, tracked := true, parts := [⟨0, 8, none⟩], chan := false, pos := 0, stamp := 0, orphan := false, cnt := 0 }] } }
/-- The premises of `Obligations.QuietBundlesAndEmptyBeats` can be met. -/
theorem witness_QuietBundlesAndEmptyBeats :
    (((7 < 8) ∧ ((BitVec.ofNat 32 (7 * 2 ^ 29)) = BitVec.ofNat 32 (7 * 2 ^ 29)))) ∧
    ((Alone (one 3 1 .V (.nop 3 1 .V) rdy up) 3 1 Slot.V (.nop 3 1 Slot.V))) ∧
    ((Lone (one 3 1 .X (.boundary 3 0) rdy up) 3 1 .X (.boundary 3 0))) ∧
    ((Lone (one 3 1 .X (.halt 3 0) rdy up) 3 1 .X (.halt 3 0))) ∧
    ((Lone (one 3 1 .X (.fault 3 0 65535) rdy up) 3 1 .X (.fault 3 0 65535))) ∧
    (((3 < 25604) ∧ (1 < 8) ∧ (∀ d, d < 8 → (ctx holdS 3 d).st ≠ .ready ∧ ((ctx holdS 3 d).st = .waiting →
      (ctx holdS 3 d).hold ≠ .none)) ∧ ((ctx holdS 3 1).st = .waiting))) ∧
    (((3 < 25604) ∧ (1 < 8) ∧ ((ctx stallS 3 1).repiOn = true) ∧ ((ctx stallS 3 1).st = .waiting) ∧
      ((ctx stallS 3 1).hold = .none) ∧ ((ctx stallS 3 1).waitFrom + 10000000 < paceTime stallS) ∧
      ((operandWait stallS 3 1).isSome = true) ∧ (∀ d, d < 8 → d ≠ 1 →
      (ctx stallS 3 d).repiOn = false))) := ⟨by decide +kernel,
    alone_of (by decide +kernel),
    lone_of (by decide +kernel),
    lone_of (by decide +kernel),
    lone_of (by decide +kernel),
    by decide +kernel,
    by decide +kernel⟩
/-- The premises of `Obligations.FalsePredicatesDoNothing` can be met. -/
theorem witness_FalsePredicatesDoNothing :
    ((Slot.S ≠ .V) ∧ (Alone (one 3 1 .S (.call 3 3 9 : Instr) rdy up) 3 1 Slot.S (.call 3 3 9 : Instr)) ∧
      (∀ v q n, (.call 3 3 9 : Instr) ≠ .fault v q n) ∧
      ((predTrue (ctx (one 3 1 .S (.call 3 3 9 : Instr) rdy up) 3 1) (predOf (.call 3 3 9 : Instr)) = false) ∧
      (privNeeded (privOf (one 3 1 .S (.call 3 3 9 : Instr) rdy up) 3 1) (.call 3 3 9 : Instr) = true))) := ⟨by
      decide +kernel, alone_of (by decide +kernel), by simp, by decide +kernel⟩

end Sys2Proof.Tests.Witness01

namespace Sys2Proof.Tests.Witness02
open Sys2Proof Sys2Proof.Machine Sys2Proof.Tests
set_option Elab.async false
set_option maxRecDepth 100000
set_option synthInstance.maxSize 2000
set_option synthInstance.maxHeartbeats 200000

def up : State := { State.reset with mc := { State.reset.mc with pwrGood := true, held := false } }
def v512 (w : Nat) (l : List Int) : W512 := BitVec.ofNat 512 ((l.mapIdx fun i x => (x % (2 ^ w : Int)).toNat * 2 ^ (w *
  i)).foldl (· + ·) 0)
def vx (w : Nat) : Ctx :=
  { rdy with preg := [(1, 0x1A5)], vreg := [(3, v512 w [5, -7, 100, 30000, -30000, 1, 2, 3, -1, 2147483647]), (4, v512 w [-1, 3, 33, 7, 15, 16, 17, 2, 1, 2147483647, 5, 6]), (5, v512 w [1, 2, 3, 4, 5, -6, 7, 8])] }
/-- The premises of `Obligations.IntegerVectorLanes` can be met. -/
theorem witness_IntegerVectorLanes :
    ((∀ k, (fun k => lane 32 (vr (vx 32) 3) k) k = lane (laneBits VTy.i32) (vr (ctx (one 3 1 .V (.vadd 3 1 VTy.i32 5 3 4)
      (vx 32) up) 3 1) 3) k) ∧
      (∀ k, (fun k => lane 32 (vr (vx 32) 4) k) k = lane (laneBits VTy.i32) (vr (ctx (one 3 1 .V (.vadd 3 1 VTy.i32 5 3 4)
      (vx 32) up) 3 1) 4) k) ∧
      (∀ k, (fun k => lane 32 (vr (vx 32) 5) k) k = lane (laneBits VTy.i32) (vr (ctx (one 3 1 .V (.vadd 3 1 VTy.i32 5 3 4)
      (vx 32) up) 3 1) 5) k) ∧ (32 = laneBits VTy.i32) ∧
      (Lone (one 3 1 .V (.vadd 3 1 VTy.i32 5 3 4) (vx 32) up) 3 1 .V (.vadd 3 1 VTy.i32 5 3 4))) := ⟨fun _ => rfl, fun _ =>
      rfl, fun _ => rfl, by decide +kernel, lone_of (by decide +kernel)⟩
def f32s : List Int := [0x3F800000, 0x40490FDB, 0x7F800000, 0x7FC00001, 0x80000000, 0x00000001, 0x7F7FFFFF, 0xC0000000,
  0x7F800000, 0xFF800000]
def f32t : List Int := [0x3F800001, 0xC0490FDB, 0xFF800000, 0x3F800000, 0x00000000, 0x00000001, 0x7F7FFFFF, 0x33000000,
  0x00000000, 0x7F800001]
def vf : Ctx := { rdy with preg := [(1, 0x1A5)], vreg := [(3, v512 32 f32s), (4, v512 32 f32t), (5, v512 32 [0x3F800000, 0x7FC00000, 0x80000000])] }
def vh : Ctx := { rdy with preg := [(1, 0xF1A5)], vreg := [(3, v512 16 [0x3F80, 0x4049, 0x7F80, 0x7FC1, 0x8000, 1, 0x7F7F]), (4, v512 16 [0x3F81, 0xC049, 0xFF80, 0x3F80, 0, 1, 0x7F7F]), (5, v512 16 [0x3F80, 0x7FC0, 0x8000])] }
/-- The premises of `Obligations.FloatVectorLanes` can be met. -/
theorem witness_FloatVectorLanes :
    ((∀ k, (fun k => lane 32 (vr vf 3) k) k = lane (laneBits VTy.f32) (vr (ctx (one 3 1 .V (.vadd 3 1 VTy.f32 5 3 4) vf up)
      3 1) 3) k) ∧ (∀ k, (fun k => lane 32 (vr vf 4) k) k = lane (laneBits VTy.f32) (vr (ctx (one 3 1 .V (.vadd 3 1 VTy.f32
      5 3 4) vf up) 3 1) 4) k) ∧
      (∀ k, (fun k => lane 32 (vr vf 5) k) k = lane (laneBits VTy.f32) (vr (ctx (one 3 1 .V (.vadd 3 1 VTy.f32 5 3 4) vf up)
      3 1) 5) k) ∧ (fmtFP32 = (if VTy.f32 = .bf16 then fmtBF16 else fmtFP32)) ∧
      (∀ k, (fun k => decodeF fmtFP32 (lane 32 (vr vf 3) k)) k = decodeF fmtFP32 ((fun k => lane 32 (vr vf 3) k) k)) ∧
      (∀ k, (fun k => decodeF fmtFP32 (lane 32 (vr vf 4) k)) k = decodeF fmtFP32 ((fun k => lane 32 (vr vf 4) k) k)) ∧
      (∀ k, (fun k => decodeF fmtFP32 (lane 32 (vr vf 5) k)) k = decodeF fmtFP32 ((fun k => lane 32 (vr vf 5) k) k)) ∧
      (Lone (one 3 1 .V (.vadd 3 1 VTy.f32 5 3 4) vf up) 3 1 .V (.vadd 3 1 VTy.f32 5 3 4))) := ⟨fun _ => rfl, fun _ => rfl,
      fun _ => rfl, by decide +kernel, fun _ => rfl, fun _ => rfl, fun _ => rfl, lone_of (by decide +kernel)⟩
/-- The premises of `Obligations.VectorComparesExtractsConversions` can be met. -/
theorem witness_VectorComparesExtractsConversions :
    ((Lone (one 3 1 .V (.vcmp 3 1 .i32 2 .lt 3 4) { vx 32 with preg := [(1, 0x1A5), (2, BitVec.ofNat 64 0xFFFFF05A)] } up) 3
      1 .V (.vcmp 3 1 VTy.i32 2 Cc.lt 3 4))) ∧
    ((Lone (one 3 1 .V (.vext 3 1 .i32 4 3 15) (vx 32) up) 3 1 .V (.vext 3 1 VTy.i32 4 3 15)) ∧
      (predTrue (ctx (one 3 1 .V (.vext 3 1 .i32 4 3 15) (vx 32) up) 3 1) 1 = true)) ∧
    ((Lone (one 3 1 .V (.vconv 3 0 .i32 .i16 5 3 false 0) (vx 32) up) 3 1 .V (.vconv 3 0 VTy.i32 VTy.i16 5 3 false 0))) :=
      ⟨lone_of (by decide +kernel),
    ⟨lone_of (by decide +kernel), by decide +kernel⟩,
    lone_of (by decide +kernel)⟩
def vp (n : Nat) : VecPend :=
  { tag := n, u := 3, c := 1, pc := 4, num := 1, dst := .v 7, val := BitVec.ofNat 512 (99 + n), mask := allBits, flags := 0, lane := 0, soon := false }
def vecS : State := { one 3 1 .S (.nop 3 0 .S) (vx 32) up with core := { (one 3 1 .S (.nop 3 0 .S) (vx 32) up).core with vecs := [vp 4, { vp 6 with flags := 3 }] } }
def vecS2 : State := { vecS with core := { vecS.core with vecs := [vp 4, vp 6] } }
/-- The premises of `Obligations.VectorReductionsAndTaps` can be met. -/
theorem witness_VectorReductionsAndTaps :
    ((∃ k, k < 16 ∧ (fun k => (pr (vx 32) 0).getLsbD k) k = true) ∧
      (Lone (one 3 1 .V (.vred 3 0 .i32 5 3 0) (vx 32) up) 3 1 .V (.vred 3 0 .i32 5 3 0))) ∧
    ((∃ k, k < 16 ∧ (fun k => (pr (vx 32) 0).getLsbD k) k = true) ∧
      (Lone (one 3 1 .V (.vspecSearch 3 0 .i32 5 3 4 true false) (vx 32) up) 3 1 .V (.vspecSearch 3 0 .i32 5 3 4 true
      false))) ∧
    ((((vp 4) ∈ vecS.core.vecs) ∧ (∀ q ∈ vecS.core.vecs, q.tag = (vp 4).tag → q = (vp 4)) ∧ ((vp 4).dst = .v 7) ∧
      ((vp 4).mask = allBits) ∧ (∀ q ∈ vecS.core.vecs, q.soon = false) ∧
      (olderWrite vecS (vp 4).u (vp 4).c (.v 7) (vp 4).tag = false))) ∧
    ((((vp 6) ∈ vecS2.core.vecs) ∧ (∀ q ∈ vecS2.core.vecs, q.tag = (vp 6).tag → q = (vp 6)) ∧
      (olderWrite vecS2 (vp 6).u (vp 6).c (vp 6).dst (vp 6).tag = true))) ∧
    (((intTy VTy.i32 = true) ∧ (32 = laneBits VTy.i32)) ∧
      (Lone (one 3 1 .V (.vspecTap 3 0 .i32 5 3 4 15) (vx 32) (setFld up (CORE_CFG 3) CORE_CFG_SPECIAL 1)) 3 1 .V (.vspecTap
      3 0 VTy.i32 5 3 4 15))) := ⟨⟨by decide +kernel, lone_of (by decide +kernel)⟩,
    ⟨by decide +kernel, lone_of (by decide +kernel)⟩,
    by decide +kernel,
    by decide +kernel,
    ⟨by decide +kernel, lone_of (by decide +kernel)⟩⟩

end Sys2Proof.Tests.Witness02

namespace Sys2Proof.Tests.Witness03
open Sys2Proof Sys2Proof.Machine Sys2Proof.Tests
set_option Elab.async false
set_option maxRecDepth 100000
set_option synthInstance.maxSize 2000
set_option synthInstance.maxHeartbeats 200000

def lastE (t : State) : ECmd := let l := mget [] t.core.engines 7; (l.find? (·.started)).getD (l.getLast?.getD
  { desc := 0, c := 1, pc := 4, num := 9, started := false, shape := 1, flow := 0, cols := 8, hidF := false })
def up : State := { State.reset with mc := { State.reset.mc with pwrGood := true, held := false } }
def dsc (l : List (Nat × Nat)) : W512 := BitVec.ofNat 512 ((l.map fun x => x.2 * 2 ^ x.1).foldl (· + ·) 0)
def mmD : W512 := dsc [(0, 6), (4, 6), (8, 7), (20, 1), (64, 1), (80, 1), (96, 1), (128, 0x80100), (192, 0x80200), (256,
  0x80300)]
def rdyD (d : W512) : Ctx := { rdy with dreg := [(2, d)] }
def mmS : State := one 3 1 .M (.mm 3 0 1 2) (rdyD mmD) up
def eng (k : Nat) (l : List ECmd) (s : State) : State :=
  { s with core := { s.core with engines := mset [] s.core.engines k l } }
def ec (d : W512) (st : Bool) : ECmd :=
  { desc := d, c := 1, pc := 4, num := 9, started := st, shape := 1, flow := 0, cols := 8, hidF := false }
def bf (s : State) : State :=
  { s with mem := { s.mem with loc := memStore (memStore s.mem.loc (locKey (physUnit s 3) 0x80100) (leBytes 2 0x4049)) (locKey (physUnit s 3) 0x80200) (leBytes 2 0xC0A1) } }
def mmP : State := { (eng 7 [ec mmD true, ec 0 false] (one 3 1 .M (.mm 3 0 1 2) (rdyD mmD) up)) with mem := { up.mem with locPoison := mset false up.mem.locPoison (locKey (physUnit up 3) 0x80200 / 8) true } }
/-- The premises of `Obligations.MatrixCommands` can be met. -/
theorem witness_MatrixCommands :
    ((Lone mmS 3 1 .M (.mm 3 0 1 2)) ∧ ((mmFault mmS 3 1 (dr (ctx mmS 3 1) 2) = none) ∧
      ((mget [] mmS.core.engines (3 * 2 + 1)).length < 4))) ∧
    (((3 < 25600) ∧ (1 < 2) ∧ (3 ≤ 5) ∧
      (mget [] (eng 7 [ec mmD false, ec 0 false] (bf up)).core.engines (3 * 2 + 1) = (ec mmD false) :: ([ec 0 false])) ∧
      ((locKey (physUnit up 3) 0) = locKey (physUnit (eng 7 [ec mmD false, ec 0 false] (bf up)) 3) 0) ∧
      ((ec mmD false).started = false))) ∧
    (((3 < 25600) ∧ (1 < 2) ∧ (3 ≤ 5) ∧
      (mget [] (eng 7 [ec mmD true, ec 0 false] (bf up)).core.engines (3 * 2 + 1) = (ec mmD true) :: ([ec 0 false])) ∧
      ((locKey (physUnit up 3) 0) = locKey (physUnit (eng 7 [ec mmD true, ec 0 false] (bf up)) 3) 0) ∧
      (∀ x ∈ readItems mmD, ∀ w ∈ wordsOf ((locKey (physUnit up 3) 0) + x.base) x.len, latentAt (eng 7 [ec mmD true, ec 0
      false] (bf up)) w = 0) ∧ ((ec mmD true).started = true) ∧
      (engineHeld (eng 7 [ec mmD true, ec 0 false] (bf up)) 3 1 (ec mmD true) = false) ∧
      (operandPoison (eng 7 [ec mmD true, ec 0 false] (bf up)) 3 (ec mmD true) = none))) ∧
    (((3 < 25600) ∧ (1 < 2) ∧ (mget [] mmP.core.engines (3 * 2 + 1) = (ec mmD true) :: ([ec 0 false])) ∧
      ((ec mmD true).started = true) ∧ (engineHeld mmP 3 1 (ec mmD true) = false) ∧
      (operandPoison mmP 3 (ec mmD true) = some (locKey (physUnit up 3) 0x80200 / 8)) ∧
      ((ctx mmP 3 (ec mmD true).c).st = .ready ∨ (ctx mmP 3 (ec mmD true).c).st = .waiting ∨ ((ctx mmP 3 (ec mmD true).c).st
      = .halted ∧ (ctx mmP 3 (ec mmD true).c).cause ≤ 3)))) := ⟨⟨lone_of (by decide +kernel), by decide +kernel⟩,
    by decide +kernel,
    by decide +kernel,
    by decide +kernel⟩
def memRd : W512 := dsc [(0, 0), (2, 1), (4, 0), (8, 0), (41, 1), (64, 2 ^ 40 * 0), (128, 0x8000), (192, 128), (448, 64),
  (448 + 40, 0)]
def regWr : W512 := dsc [(0, 1), (2, 2), (41, 1), (128, 0x8000), (192, 128), (232, 5)]
def och (k : Nat) (x : Chan) (s : State) : State :=
  { s with strm := { s.strm with chans := mset Chan.closed s.strm.chans k x } }
def xr : Chan := { Chan.closed with st := 1, owner := 1, desc := memRd, acc := 128, drained := 64, issued := 128 }
def xw : Chan := { Chan.closed with st := 1, owner := 1, desc := regWr, acc := 64, drained := 32, issued := 64 }
/-- The premises of `Obligations.ChannelsOpenSaveAndClose` can be met. -/
theorem witness_ChannelsOpenSaveAndClose :
    (((Chan.closed = chan (setFld (one 3 1 .M (.smOpen 3 0 3 2) (rdyD memRd) up) (BANK_OWNER 3 8) BANK_OWNER_OWNER 8) 3 3) ∧
      (memRd = dr (ctx (setFld (one 3 1 .M (.smOpen 3 0 3 2) (rdyD memRd) up) (BANK_OWNER 3 8) BANK_OWNER_OWNER 8) 3 1) 2)) ∧
      (Lone (setFld (one 3 1 .M (.smOpen 3 0 3 2) (rdyD memRd) up) (BANK_OWNER 3 8) BANK_OWNER_OWNER 8) 3 1 .M (.smOpen 3 0
      3 2)) ∧ (openFault (setFld (one 3 1 .M (.smOpen 3 0 3 2) (rdyD memRd) up) (BANK_OWNER 3 8) BANK_OWNER_OWNER 8) 3 3
      (chanOpen Chan.closed) memRd = none)) ∧
    ((xr = chan (och (chanKey 3 3) xr (one 3 1 .M (.smSave 3 0 3 2) (rdyD regWr) up)) 3 3) ∧
      (Lone (och (chanKey 3 3) xr (one 3 1 .M (.smSave 3 0 3 2) (rdyD regWr) up)) 3 1 .M (.smSave 3 0 3 2))) ∧
    ((xr = chan (setFld (och (chanKey 3 3) xr (one 3 1 .M (.smClose 3 0 3) (rdyD regWr) up)) (BANK_OWNER 3 8)
      BANK_OWNER_OWNER 8) 3 3) ∧
      (Lone (setFld (och (chanKey 3 3) xr (one 3 1 .M (.smClose 3 0 3) (rdyD regWr) up)) (BANK_OWNER 3 8) BANK_OWNER_OWNER
      8) 3 1 .M (.smClose 3 0 3))) := ⟨⟨by decide +kernel, lone_of (by decide +kernel), by decide +kernel⟩,
    ⟨by decide +kernel, lone_of (by decide +kernel)⟩,
    ⟨by decide +kernel, lone_of (by decide +kernel)⟩⟩
def ringB (s : State) : State :=
  { s with mem := { s.mem with loc := memStore s.mem.loc (locKey (physUnit s 3) 0x8000) ((List.range 4).map fun i => BitVec.ofNat 8 (i + 1)) } }
def chS (x : Chan) (i : Instr) : State := setFld (ringB (och (chanKey 3 3) x (one 3 1 .M i rdy up))) (BANK_OWNER 3 8)
  BANK_OWNER_OWNER 8
def xw2 : Chan := { xw with acc := 64, drained := 32 }
/-- The premises of `Obligations.StreamAccesses` can be met. -/
theorem witness_StreamAccesses :
    ((xr = chan (chS xr (.smRd 3 0 4 5 3 : Instr)) 3 3) ∧
      (Lone (chS xr (.smRd 3 0 4 5 3 : Instr)) 3 1 .M (.smRd 3 0 4 5 3 : Instr)) ∧ ((xr.st ≠ 0) ∧ (readChan xr.desc = true) ∧
      (atEnd xr.desc xr.drained = false) ∧ (upTo xr.desc xr.drained 64 = 64) ∧
      (readReady (chS xr (.smRd 3 0 4 5 3 : Instr)) 3 3 64 = true) ∧
      ((ringGet (chS xr (.smRd 3 0 4 5 3)) 3 memRd 64 64) = ringGet (chS xr (.smRd 3 0 4 5 3 : Instr)) 3 xr.desc xr.drained
      64) ∧ (∀ k, k < 64 →
      latentAt (chS xr (.smRd 3 0 4 5 3 : Instr)) (ringKey (chS xr (.smRd 3 0 4 5 3 : Instr)) 3 xr.desc (xr.drained + k) /
      8) = 0) ∧ (∀ b ∈ (ringGet (chS xr (.smRd 3 0 4 5 3)) 3 memRd 64 64), b.2 = false))) ∧
    ((({ xr with drained := 128 }) = chan (chS { xr with drained := 128 } (.smRds 3 0 4 5 3 : Instr)) 3 3) ∧
      (Lone (chS { xr with drained := 128 } (.smRds 3 0 4 5 3 : Instr)) 3 1 .M (.smRds 3 0 4 5 3 : Instr)) ∧
      ((({ xr with drained := 128 }).st ≠ 0) ∧ (readChan ({ xr with drained := 128 }).desc = true) ∧
      (atEnd ({ xr with drained := 128 }).desc ({ xr with drained := 128 }).drained = true) ∧
      (({ xr with drained := 128 }).drained ≤ ({ xr with drained := 128 }).acc))) ∧
    ((xw2 = chan (chS xw2 (.smWrs 3 0 2 3 : Instr)) 3 3) ∧
      (Lone (chS xw2 (.smWrs 3 0 2 3 : Instr)) 3 1 .M (.smWrs 3 0 2 3 : Instr)) ∧
      ((xw2 = chan (chS xw2 (.smWrs 3 0 2 3 : Instr)) 3 3) ∧ (xw2.st ≠ 0) ∧ (xw2.st ≠ 5) ∧ (writeChan xw2.desc = true) ∧
      (upTo xw2.desc xw2.acc 8 = 8) ∧ (atEnd xw2.desc xw2.acc = false) ∧
      (writeReady (chS xw2 (.smWrs 3 0 2 3 : Instr)) 3 3 8 = true) ∧ (∀ k, k < 8 →
      latentAt (chS xw2 (.smWrs 3 0 2 3 : Instr)) (ringKey (chS xw2 (.smWrs 3 0 2 3 : Instr)) 3 xw2.desc (xw2.acc + k) / 8)
      = 0 ∧ locPoisoned (chS xw2 (.smWrs 3 0 2 3 : Instr)) (ringKey (chS xw2 (.smWrs 3 0 2 3 : Instr)) 3 xw2.desc (xw2.acc +
      k) / 8) = false))) := ⟨⟨by decide +kernel, lone_of (by decide +kernel), by decide +kernel⟩,
    ⟨by decide +kernel, lone_of (by decide +kernel), by decide +kernel⟩,
    ⟨by decide +kernel, lone_of (by decide +kernel), by decide +kernel⟩⟩

end Sys2Proof.Tests.Witness03

namespace Sys2Proof.Tests.Witness04
open Sys2Proof Sys2Proof.Machine Sys2Proof.Tests
set_option Elab.async false
set_option maxRecDepth 100000
set_option synthInstance.maxSize 2000
set_option synthInstance.maxHeartbeats 200000

def up : State := { State.reset with mc := { State.reset.mc with pwrGood := true, held := false } }
def rdyA (v : Nat) : Ctx :=
  { rdy with sreg := [(1, BitVec.ofNat 64 v), (2, 0x1122334455667788), (3, 64)], vreg := [(2, 0x0102030405060708090A)], dreg := [(2, 0x7777)] }
def ringB (s : State) : State :=
  { s with mem := { s.mem with loc := memStore s.mem.loc (locKey (physUnit s 3) 0x80100) ((List.range 4).map fun i => BitVec.ofNat 8 (i + 1)) } }
def dv (a : Nat) : Nat := devOfLocal 3 a
/-- The premises of `Obligations.LoadsSetOut` can be met. -/
theorem witness_LoadsSetOut :
    (((dv 0x80100) = (sr (ctx (ringB (one 3 1 .X (.ldB 3 0 4 1 8128) (rdyA (dv 0x80140)) up)) 3 1) 1 + (BitVec.ofNat 13
      8128).signExtend 64).toNat) ∧
      (Lone (ringB (one 3 1 .X (.ldB 3 0 4 1 8128) (rdyA (dv 0x80140)) up)) 3 1 .X (.ldB 3 0 4 1 8128)) ∧
      ((accessFault (ringB (one 3 1 .X (.ldB 3 0 4 1 8128) (rdyA (dv 0x80140)) up)) 3 1 (dv 0x80100) 1 false 0 = none) ∧
      (takesEntry 3 (dv 0x80100) 1 (some (.s 4)) = true →
      slotFree (ringB (one 3 1 .X (.ldB 3 0 4 1 8128) (rdyA (dv 0x80140)) up)) 3 1 (readAddrs (ringB (one 3 1 .X (.ldB 3 0 4
      1 8128) (rdyA (dv 0x80140)) up)) 3 (dv 0x80100) 1) = true))) := ⟨by decide +kernel, lone_of (by decide +kernel), by
      decide +kernel⟩
def inst : List (Instr × Nat × Nat) := [(.stB 3 0 2 1 0, 1, 0x1122334455667788), (.stH 3 0 2 1 0, 2, 0x1122334455667788),
  (.stW 3 0 2 1 0, 4, 0x1122334455667788), (.stD 3 0 2 1 0, 8, 0x1122334455667788), (.stV 3 0 2 1 0, 64,
  0x0102030405060708090A), (.stDsc 3 0 2 1 0, 64, 0x7777)]
/-- The premises of `Obligations.StoresReachTheirBytes` can be met. -/
theorem witness_StoresReachTheirBytes :
    (((dv 0x80100) = (sr (ctx (ringB (one 3 1 .X (.stB 3 0 2 1 0) (rdyA (dv 0x80100)) up)) 3 1) 1 + (BitVec.ofNat 13
      0).signExtend 64).toNat) ∧ (Lone (ringB (one 3 1 .X (.stB 3 0 2 1 0) (rdyA (dv 0x80100)) up)) 3 1 .X (.stB 3 0 2 1 0)) ∧
      (accessFault (ringB (one 3 1 .X (.stB 3 0 2 1 0) (rdyA (dv 0x80100)) up)) 3 1 (dv 0x80100) 1 true ((sr (ctx (ringB
      (one 3 1 .X (.stB 3 0 2 1 0) (rdyA (dv 0x80100)) up)) 3 1) 2).toNat) = none)) := ⟨by decide +kernel, lone_of (by
      decide +kernel), by decide +kernel⟩
/-- The premises of `Obligations.MessagingInstructionsSetOut` can be met. -/
theorem witness_MessagingInstructionsSetOut :
    (((60 = (sr (ctx (one 3 1 .X (.syncAdd 3 0 4 1 2) (rdyA 60) up) 3 1) 1).toNat) ∧
      (0x1122334455667788 = sr (ctx (one 3 1 .X (.syncAdd 3 0 4 1 2) (rdyA 60) up) 3 1) 2)) ∧
      (Lone (one 3 1 .X (.syncAdd 3 0 4 1 2) (rdyA 60) up) 3 1 .X (.syncAdd 3 0 4 1 2)) ∧ ((60 < 2 ^ 26) ∧ (60 < 2 ^ 25 →
      60 < 2 ^ 16) ∧ (opTakesEntry (.syncAdd 3 0 4 1 2) = true →
      slotFree (one 3 1 .X (.syncAdd 3 0 4 1 2) (rdyA 60) up) 3 1 (bodyAddrs (one 3 1 .X (.syncAdd 3 0 4 1 2) (rdyA 60) up)
      3 1 (.syncAdd 3 0 4 1 2)) = true))) := ⟨by decide +kernel, lone_of (by decide +kernel), by decide +kernel⟩
def rdyE : Ctx := { rdy with pend := 6, en := 4 }
def pc9 : Ctx := { rdy with paced := true, slot := 9 }
/-- The premises of `Obligations.EventsAndGlintWaits` can be met. -/
theorem witness_EventsAndGlintWaits :
    (((rdy = ctx (one 3 1 .X (.evtWait 3 0) rdy up) 3 1) ∧
      (0 = fld (one 3 1 .X (.evtWait 3 0) rdy up) PACE_SLOT PACE_SLOT_SLOT)) ∧
      (Lone (one 3 1 .X (.evtWait 3 0) rdy up) 3 1 .X (.evtWait 3 0))) ∧
    (((rdy = ctx (one 3 1 .X (.evtSend 3 0 1) rdy up) 3 1) ∧
      (0 = fld (one 3 1 .X (.evtSend 3 0 1) rdy up) PACE_SLOT PACE_SLOT_SLOT)) ∧
      (Lone (one 3 1 .X (.evtSend 3 0 1) rdy up) 3 1 .X (.evtSend 3 0 1))) ∧
    (((rdy = ctx (setFld (one 3 1 .X (.glintWaitNext 3 0 : Instr) rdy up) PACE_SLOT PACE_SLOT_SLOT 9) 3 1) ∧
      (9 = fld (setFld (one 3 1 .X (.glintWaitNext 3 0 : Instr) rdy up) PACE_SLOT PACE_SLOT_SLOT 9) PACE_SLOT
      PACE_SLOT_SLOT) ∧ ((.glintWaitNext 3 0 : Instr) = .glintWaitNext 3 0 ∨ (.glintWaitNext 3 0 : Instr) = .glintWaitAlign
      3 0)) ∧ (Lone (setFld (one 3 1 .X (.glintWaitNext 3 0 : Instr) rdy up) PACE_SLOT PACE_SLOT_SLOT 9) 3 1 .X
      (.glintWaitNext 3 0 : Instr)) ∧ (rdy.paced = false)) ∧
    (((pc9 = ctx (setFld (one 3 1 .X (.glintWaitNext 3 0) pc9 up) PACE_SLOT PACE_SLOT_SLOT 9) 3 1) ∧
      (9 = fld (setFld (one 3 1 .X (.glintWaitNext 3 0) pc9 up) PACE_SLOT PACE_SLOT_SLOT 9) PACE_SLOT PACE_SLOT_SLOT) ∧
      ((setFld (one 3 1 .X (.glintWaitNext 3 0) pc9 up) PACE_SLOT PACE_SLOT_SLOT 9).pace.reachAt ≠ some (setFld (one 3 1 .X
      (.glintWaitNext 3 0) pc9 up) PACE_SLOT PACE_SLOT_SLOT 9).now) ∧
      (∀ g ∈ (setFld (one 3 1 .X (.glintWaitNext 3 0) pc9 up) PACE_SLOT PACE_SLOT_SLOT 9).core.glints, ¬ (g.1 = 3 ∧
      g.2.1 = pc9.slot + 1)) ∧ (pc9.paced = true)) ∧
      (Lone (setFld (one 3 1 .X (.glintWaitNext 3 0) pc9 up) PACE_SLOT PACE_SLOT_SLOT 9) 3 1 .X (.glintWaitNext 3 0))) ∧
    (((pc9 = ctx (setFld (one 3 1 .X (.glintWaitAlign 3 0) pc9 up) PACE_SLOT PACE_SLOT_SLOT 12) 3 1) ∧
      (12 = fld (setFld (one 3 1 .X (.glintWaitAlign 3 0) pc9 up) PACE_SLOT PACE_SLOT_SLOT 12) PACE_SLOT PACE_SLOT_SLOT) ∧
      ((setFld (one 3 1 .X (.glintWaitAlign 3 0) pc9 up) PACE_SLOT PACE_SLOT_SLOT 12).pace.reachAt ≠ some (setFld (one 3 1
      .X (.glintWaitAlign 3 0) pc9 up) PACE_SLOT PACE_SLOT_SLOT 12).now) ∧
      (∀ g ∈ (setFld (one 3 1 .X (.glintWaitAlign 3 0) pc9 up) PACE_SLOT PACE_SLOT_SLOT 12).core.glints, ¬ (g.1 = 3 ∧
      g.2.1 = pc9.slot + 1)) ∧ (pc9.paced = true)) ∧
      (Lone (setFld (one 3 1 .X (.glintWaitAlign 3 0) pc9 up) PACE_SLOT PACE_SLOT_SLOT 12) 3 1 .X (.glintWaitAlign 3 0))) :=
      ⟨⟨by decide +kernel, lone_of (by decide +kernel)⟩,
    ⟨by decide +kernel, lone_of (by decide +kernel)⟩,
    ⟨by decide +kernel, lone_of (by decide +kernel), by decide +kernel⟩,
    ⟨by decide +kernel, lone_of (by decide +kernel)⟩,
    ⟨by decide +kernel, lone_of (by decide +kernel)⟩⟩
def fb (s : State) : State := setFld (setFld s (LOAM_RGN_STATUS 0) LOAM_RGN_STATUS_STATE 2) (CORE_CFG 3) CORE_CFG_BPRIV 2
def fbR : State := setFab 3 0 { FabPort.empty with rx := [7, 8] } (fb (one 3 1 .X (.fpRd 3 0 4 0) rdy up))
/-- The premises of `Obligations.FabricPortInstructions` can be met. -/
theorem witness_FabricPortInstructions :
    (((3 < 25600) ∧ (hasEdge 3 0 = true) ∧ (privOf fbR 3 1 = .border) ∧ (fabReady fbR 3 0 = true) ∧
      ((fabOf fbR 3 0).rx = 7 :: ([8] : List W64))) ∧ (Lone fbR 3 1 .X (.fpRd 3 0 4 0))) ∧
    (((3 < 25600) ∧ (hasEdge 3 0 = true) ∧ (privOf (fb (one 3 1 .X (.fpWr 3 0 2 0 : Instr) rdy up)) 3 1 = .border) ∧
      (fabReady (fb (one 3 1 .X (.fpWr 3 0 2 0 : Instr) rdy up)) 3 0 = true) ∧ ((.fpWr 3 0 2 0 : Instr) = .fpWr 3 0 2 0 ∧
      (.word (sr rdy 2) : FabTx) = .word (sr (ctx (fb (one 3 1 .X (.fpWr 3 0 2 0 : Instr) rdy up)) 3 1) 2) ∨ (.fpWr 3 0 2 0
      : Instr) = .fpMark 3 0 0 0 ∧ (.word (sr rdy 2) : FabTx) = .mark 0)) ∧
      (Lone (fb (one 3 1 .X (.fpWr 3 0 2 0 : Instr) rdy up)) 3 1 .X (.fpWr 3 0 2 0 : Instr)) ∧
      ((fabOf (fb (one 3 1 .X (.fpWr 3 0 2 0 : Instr) rdy up)) 3 0).tx.length < 4)) ∧
    (((3 < 25600) ∧ (hasEdge 3 0 = true) ∧ (privOf (fb (one 3 1 .X (.fpFlush 3 0 0) rdy up)) 3 1 = .border) ∧
      (fabReady (fb (one 3 1 .X (.fpFlush 3 0 0) rdy up)) 3 0 = true)) ∧
      (Lone (fb (one 3 1 .X (.fpFlush 3 0 0) rdy up)) 3 1 .X (.fpFlush 3 0 0)) ∧
      ((fabOf (fb (one 3 1 .X (.fpFlush 3 0 0) rdy up)) 3 0).tx = [])) := ⟨⟨by decide +kernel, lone_of (by decide +kernel)⟩,
    ⟨by decide +kernel, lone_of (by decide +kernel), by decide +kernel⟩,
    ⟨by decide +kernel, lone_of (by decide +kernel), by decide +kernel⟩⟩
def mkPlot (s : State) : State := setFld (setFld (setFld (setFld (setFld (setFld s (PLOT_CFG 0) PLOT_CFG_ROW0 0) (PLOT_CFG
  0) PLOT_CFG_COL0 0) (PLOT_CFG 0) PLOT_CFG_HEIGHT 8) (PLOT_CFG 0) PLOT_CFG_WIDTH 8) (PLOT_CFG 0) PLOT_CFG_VALID 1)
  (PLOT_STATUS 0) PLOT_STATUS_STATE 2
def core5 (s : State) : State := setFld (setFld (setFld s (CORE_CFG 5) CORE_CFG_CTX_EN 3) (CTX_ENTRY 5 1) CTX_ENTRY_ENTRY
  2047) (CTX_ENTRY 5 0) CTX_ENTRY_ENTRY 9
def cpS (i : Instr) (v : Nat) : State := core5 (mkPlot (one 25602 1 .X i (rdyA v) up))
def memRd : W512 := BitVec.ofNat 512 (0 + 2 ^ 2 + 2 ^ 41 + 0x8000 * 2 ^ 128)
def och (u ch : Nat) (x : Chan) (s : State) : State :=
  { s with strm := { s.strm with chans := mset Chan.closed s.strm.chans (chanKey u ch) x } }
/-- The premises of `Obligations.SupervisorInstructions` can be met. -/
theorem witness_SupervisorInstructions :
    (((25600 ≤ 25602) ∧ (0 = (sr (ctx (cpS (.svPrst 25602 0 1) 0) 25602 1) 1).toNat)) ∧
      (Lone (cpS (.svPrst 25602 0 1) 0) 25602 1 .X (.svPrst 25602 0 1)) ∧
      (plotValid (cpS (.svPrst 25602 0 1) 0) (0 % 64) = true)) ∧
    (((25600 ≤ 25602) ∧ ((5 + 2 ^ 15 * 3) = (sr (ctx (och 5 3
      { Chan.closed with st := 3, desc := memRd, code := 0x0603, haltAt := some 5, acc := 5, issued := 7 } (cpS (.svSres
      25602 0 1 3) (5 + 2 ^ 15 * 3))) 25602 1) 1).toNat)) ∧
      (Lone (och 5 3 { Chan.closed with st := 3, desc := memRd, code := 0x0603, haltAt := some 5, acc := 5, issued := 7 }
      (cpS (.svSres 25602 0 1 3) (5 + 2 ^ 15 * 3))) 25602 1 .X (.svSres 25602 0 1 3)) ∧
      (((sr (ctx (och 5 3
      { Chan.closed with st := 3, desc := memRd, code := 0x0603, haltAt := some 5, acc := 5, issued := 7 } (cpS (.svSres
      25602 0 1 3) (5 + 2 ^ 15 * 3))) 25602 1) 3).getLsbD 0 = false) ∧
      ((chan (och 5 3 { Chan.closed with st := 3, desc := memRd, code := 0x0603, haltAt := some 5, acc := 5, issued := 7 }
      (cpS (.svSres 25602 0 1 3) (5 + 2 ^ 15 * 3))) ((5 + 2 ^ 15 * 3) % 2 ^ 15) ((5 + 2 ^ 15 * 3) / 2 ^ 15 % 4)).st = 2 ∨
      (chan (och 5 3 { Chan.closed with st := 3, desc := memRd, code := 0x0603, haltAt := some 5, acc := 5, issued := 7 }
      (cpS (.svSres 25602 0 1 3) (5 + 2 ^ 15 * 3))) ((5 + 2 ^ 15 * 3) % 2 ^ 15) ((5 + 2 ^ 15 * 3) / 2 ^ 15 % 4)).st = 3) ∧
      ((chan (och 5 3 { Chan.closed with st := 3, desc := memRd, code := 0x0603, haltAt := some 5, acc := 5, issued := 7 }
      (cpS (.svSres 25602 0 1 3) (5 + 2 ^ 15 * 3))) ((5 + 2 ^ 15 * 3) % 2 ^ 15) ((5 + 2 ^ 15 * 3) / 2 ^ 15 % 4)).code =
      0x0402 → routeFenced (och 5 3
      { Chan.closed with st := 3, desc := memRd, code := 0x0603, haltAt := some 5, acc := 5, issued := 7 } (cpS (.svSres
      25602 0 1 3) (5 + 2 ^ 15 * 3))) ((5 + 2 ^ 15 * 3) % 2 ^ 15) (chan (och 5 3
      { Chan.closed with st := 3, desc := memRd, code := 0x0603, haltAt := some 5, acc := 5, issued := 7 } (cpS (.svSres
      25602 0 1 3) (5 + 2 ^ 15 * 3))) ((5 + 2 ^ 15 * 3) % 2 ^ 15) ((5 + 2 ^ 15 * 3) / 2 ^ 15 % 4)).desc = false) ∧
      ((chan (och 5 3 { Chan.closed with st := 3, desc := memRd, code := 0x0603, haltAt := some 5, acc := 5, issued := 7 }
      (cpS (.svSres 25602 0 1 3) (5 + 2 ^ 15 * 3))) ((5 + 2 ^ 15 * 3) % 2 ^ 15) ((5 + 2 ^ 15 * 3) / 2 ^ 15 % 4)).lost =
      false))) ∧
    (((25600 ≤ 25602) ∧ ((25599 + 2 ^ 16 * 2044) = (sr (ctx (cpS (.svPsw 25602 0 1 2) (25599 + 2 ^ 16 * 2044)) 25602 1)
      1).toNat)) ∧ (Lone (cpS (.svPsw 25602 0 1 2) (25599 + 2 ^ 16 * 2044)) 25602 1 .X (.svPsw 25602 0 1 2)) ∧
      (((25599 + 2 ^ 16 * 2044) % 2 ^ 15 < 25600) ∧ ((25599 + 2 ^ 16 * 2044) / 2 ^ 16 % 4 = 0) ∧
      (coreIdle (cpS (.svPsw 25602 0 1 2) (25599 + 2 ^ 16 * 2044)) ((25599 + 2 ^ 16 * 2044) % 2 ^ 15) = true))) := ⟨⟨by
      decide +kernel, lone_of (by decide +kernel), by decide +kernel⟩,
    ⟨by decide +kernel, lone_of (by decide +kernel), by decide +kernel⟩,
    ⟨by decide +kernel, lone_of (by decide +kernel), by decide +kernel⟩⟩
def cw (s : State) : State := setFld s (CORE_CFG 3) CORE_CFG_BPRIV 2
def rdyF : Ctx := { rdy with sreg := [(1, 0xFFFFFFFFFFFFFFF0), (31, 2048)], eie := true }
def badNext : State := cw
  { one 3 1 .S (.nop 3 0 .S) rdyF up with core := { (one 3 1 .S (.nop 3 0 .S) rdyF up).core with pstore := [(3 * 2048 + 6, (wordOf (.loopi 3 0 1 9)).zeroExtend 128)] } }
def opn (s : State) : State :=
  { s with strm := { s.strm with chans := mset Chan.closed s.strm.chans (chanKey 3 1) { Chan.closed with st := 1 } } }
def one' (sl : Slot) (i : Instr) : State :=
  { one 3 1 sl i rdyF (opn badNext) with avl := { up.avl with bypass := [(physOf up 3 * 2 + 1, 16)] } }
/-- The premises of `Obligations.ChecksThatFail` can be met. -/
theorem witness_ChecksThatFail :
    ((Lone (one 3 1 .S (.ret 3 0) rdyF up) 3 1 .S (.ret 3 0)) ∧
      (2047 < (sr (ctx (one 3 1 .S (.ret 3 0) rdyF up) 3 1) 31).toNat)) := ⟨lone_of (by decide +kernel), by decide +kernel⟩

end Sys2Proof.Tests.Witness04

namespace Sys2Proof.Tests.Witness05
open Sys2Proof Sys2Proof.Machine Sys2Proof.Tests
set_option Elab.async false
set_option maxRecDepth 100000
set_option synthInstance.maxSize 2000
set_option synthInstance.maxHeartbeats 200000

def up : State := { State.reset with mc := { State.reset.mc with pwrGood := true, held := false } }
def rq (t : Nat) (op : ReqOp) (dst : Option Reg) (pd : Nat) (ps : List Part) : Req :=
  { tag := t, u := 3, c := 1, pc := 4, op := op, dst := dst, pdst := pd, tracked := true, parts := ps, chan := false, pos := 0, cnt := 0, stamp := 0, orphan := false }
def wr (r : Req) (s : State) : State :=
  { s with core := { s.core with reqs := [rq 5 (.load 8 8 false) (some (.s 9)) 0 [⟨8, 8, none⟩], r], ctxs := mset Ctx.unloaded s.core.ctxs (ctxKey 3 1) rdy } }
def b8 : List Byte := [1, 2, 3, 0x84]
def l1 (d : Reg) (sg : Bool) (bad : List Nat) : Req := rq 6 (.load 8 4 sg) (some d) 0 [⟨8, 4, some (.bytes b8 bad)⟩]
def o1 (op : ReqOp) (d : Option Reg) (pd : Nat) (an : Answer) : Req := rq 6 op d pd [⟨0, 0, some an⟩]
def ra : Req := o1 (.syncAdd 7 9) (some (.s 4)) 0 (.status 77)
def rb : Req := o1 (.lockAcq 7) (some (.s 4)) 0 (.status 77)
def rc : Req := o1 (.syncTest 7 9) none 3 (.test true)
def rd : Req := o1 (.qTake 7) (some (.v 4)) 3 (.taken true 99)
def re : Req := o1 (.store 7 [1] []) none 0 (.status 0)
/-- The premises of `Obligations.AnswersReturn` can be met. -/
theorem witness_AnswersReturn :
    (((findReq (wr (l1 (.s 4) true []) up) 6 = some (l1 (.s 4) true [])) ∧ (answered (l1 (.s 4) true []) = true) ∧
      (reaches (wr (l1 (.s 4) true []) up) (l1 (.s 4) true []) = true) ∧
      (dstFree (wr (l1 (.s 4) true []) up) (l1 (.s 4) true []) = true) ∧ ((l1 (.s 4) true []).chan = false) ∧
      ((l1 (.s 4) true []).orphan = false) ∧ (∀ q ∈ (wr (l1 (.s 4) true []) up).core.vecs, q.soon = false) ∧
      ((l1 (.s 4) true []).op = .load 8 4 true) ∧ (gather (l1 (.s 4) true []).parts = (b8, [], none)) ∧
      ((l1 (.s 4) true []).pdst = 0))) ∧
    (((findReq (wr (l1 (.s 1) false [8]) up) 6 = some (l1 (.s 1) false [8])) ∧ (answered (l1 (.s 1) false [8]) = true) ∧
      (reaches (wr (l1 (.s 1) false [8]) up) (l1 (.s 1) false [8]) = true) ∧
      (dstFree (wr (l1 (.s 1) false [8]) up) (l1 (.s 1) false [8]) = true) ∧ ((l1 (.s 1) false [8]).chan = false) ∧
      ((l1 (.s 1) false [8]).orphan = false) ∧ (∀ q ∈ (wr (l1 (.s 1) false [8]) up).core.vecs, q.soon = false) ∧
      ((l1 (.s 1) false [8]).op = .load 8 4 false) ∧ (gather (l1 (.s 1) false [8]).parts = (b8, [8], none)) ∧
      (overlaps 8 8 8 4 = true) ∧ ((l1 (.s 1) false [8]).dst = some (.s 1)) ∧
      ((ctx (wr (l1 (.s 1) false [8]) up) (l1 (.s 1) false [8]).u (l1 (.s 1) false [8]).c).st = .ready ∨ (ctx (wr (l1 (.s 1)
      false [8]) up) (l1 (.s 1) false [8]).u (l1 (.s 1) false [8]).c).st = .waiting))) ∧
    (((findReq (wr ra up) 6 = some ra) ∧ (answered ra = true) ∧ (reaches (wr ra up) ra = true) ∧
      (dstFree (wr ra up) ra = true) ∧ (ra.chan = false) ∧ (ra.orphan = false) ∧
      (∀ q ∈ (wr ra up).core.vecs, q.soon = false) ∧ (ra.op = .syncAdd 7 9 ∨ ra.op = .syncSet 7 9 ∨ ra.op = .lockAcq 7) ∧
      (ra.parts = [⟨0, 0, some (.status 77)⟩]) ∧ (ra.dst = some (.s 4)))) ∧
    (((findReq (wr rc up) 6 = some rc) ∧ (answered rc = true) ∧ (reaches (wr rc up) rc = true) ∧
      (dstFree (wr rc up) rc = true) ∧ (rc.chan = false) ∧ (rc.orphan = false) ∧
      (∀ q ∈ (wr rc up).core.vecs, q.soon = false) ∧ (rc.op = .syncTest 7 9) ∧ (rc.parts = [⟨0, 0, some (.test true)⟩]))) ∧
    (((findReq (wr rd up) 6 = some rd) ∧ (answered rd = true) ∧ (reaches (wr rd up) rd = true) ∧
      (dstFree (wr rd up) rd = true) ∧ (rd.chan = false) ∧ (rd.orphan = false) ∧
      (∀ q ∈ (wr rd up).core.vecs, q.soon = false) ∧ (rd.op = .qTake 7) ∧ (rd.parts = [⟨0, 0, some (.taken true 99)⟩]) ∧
      (rd.dst = some (.v 4)))) ∧
    (((findReq (wr re up) 6 = some re) ∧ (answered re = true) ∧ (reaches (wr re up) re = true) ∧
      (dstFree (wr re up) re = true) ∧ (re.chan = false) ∧ (re.orphan = false) ∧
      (∀ q ∈ (wr re up).core.vecs, q.soon = false) ∧
      (re.op = .store 7 ([1] : List Byte) ([] : List Nat)))) := by decide +kernel
def st1 (x : Ctx) (s : State) : State :=
  { s with core := { s.core with ctxs := mset Ctx.unloaded s.core.ctxs (ctxKey 3 1) x } }
def tr : Ctx := { rdy with eie := true, pend := 5, en := 4, vec := 99 }
def trp : Ctx := { tr with repiOn := true }
def trh : Ctx := { tr with st := .halted, cause := 2, hold := .glint 5 }
/-- The premises of `Obligations.TrapsAndDebugControl` can be met. -/
theorem witness_TrapsAndDebugControl :
    (((3 < 25604) ∧ (1 < 8) ∧ (masterOk Master.mc = true) ∧ (tr = ctx (st1 tr up) 3 1) ∧ (tr.st = .ready) ∧ (tr.eie = true) ∧
      (tr.pend &&& tr.en ≠ 0) ∧ (tr.repiOn = false))) ∧
    (((3 < 25604) ∧ (1 < 8) ∧ (masterOk (Master.host 0) = true) ∧ (tr = ctx (st1 tr up) 3 1))) ∧
    (((3 < 25604) ∧ (1 < 8) ∧ (masterOk Master.mc = true) ∧ (tr = ctx (st1 tr up) 3 1) ∧
      (mayAdmin (st1 tr up) Master.mc = true)) ∧ (Reaches (st1 tr up) Master.mc (CTX_CTRL 3 1)) ∧
      (tr.st = .ready ∨ tr.st = .waiting)) ∧
    (((3 < 25604) ∧ (1 < 8) ∧ (masterOk Master.mc = true) ∧ (trh = ctx (st1 trh up) 3 1) ∧
      (mayAdmin (st1 trh up) Master.mc = true)) ∧ (Reaches (st1 trh up) Master.mc (CTX_CTRL 3 1)) ∧ ((trh.st ≠ .ready) ∧
      (trh.st ≠ .waiting))) ∧
    (((3 < 25604) ∧ (1 < 8) ∧ (masterOk Master.mc = true) ∧ (trh = ctx (st1 trh up) 3 1) ∧
      (mayAdmin (st1 trh up) Master.mc = true)) ∧ (Reaches (st1 trh up) Master.mc (CTX_CTRL 3 1)) ∧
      ((.resume .mc 3 1 : Instr) = .resume Master.mc 3 1 ∧
      false = false ∨ (.resume .mc 3 1 : Instr) = .stepCtx Master.mc 3 1 ∧ false = true)) ∧
    (((3 < 25604) ∧ (1 < 8) ∧ (masterOk (Master.unit 25600 0) = true) ∧ (trh = ctx (st1 trh up) 3 1) ∧
      (mayAdmin (st1 trh up) (Master.unit 25600 0) = true)) ∧ (Reaches (st1 trh up) (Master.unit 25600 0) (CTX_CTRL 3 1)) ∧
      ((trh.st ≠ .unloaded) ∧ (trh.hold ≠ .event))) := ⟨by decide +kernel,
    by decide +kernel,
    ⟨by decide +kernel, reaches_of (by decide +kernel), by decide +kernel⟩,
    ⟨by decide +kernel, reaches_of (by decide +kernel), by decide +kernel⟩,
    ⟨by decide +kernel, reaches_of (by decide +kernel), by decide +kernel⟩,
    ⟨by decide +kernel, reaches_of (by decide +kernel), by decide +kernel⟩⟩
def mkPlot (s : State) : State := setFld (setFld (setFld (setFld (setFld (setFld s (PLOT_CFG 0) PLOT_CFG_ROW0 0) (PLOT_CFG
  0) PLOT_CFG_COL0 0) (PLOT_CFG 0) PLOT_CFG_HEIGHT 8) (PLOT_CFG 0) PLOT_CFG_WIDTH 8) (PLOT_CFG 0) PLOT_CFG_VALID 1)
  (PLOT_STATUS 0) PLOT_STATUS_STATE 2
def core5 (s : State) : State := setFld (setFld (setFld s (CORE_CFG 5) CORE_CFG_CTX_EN 3) (CTX_ENTRY 5 1) CTX_ENTRY_ENTRY
  2047) (CTX_ENTRY 5 0) CTX_ENTRY_ENTRY 9
def ec : ECmd := { desc := 0, c := 1, pc := 4, num := 9, started := true, shape := 1, flow := 0, cols := 8, hidF := false }
def busy (s : State) : State :=
  { s with core := { s.core with engines := [(10, [ec])], ctxs := mset Ctx.unloaded s.core.ctxs (ctxKey 5 1) rdy }, strm := { s.strm with chans := mset Chan.closed s.strm.chans (chanKey 5 1) { Chan.closed with st := 1 } } }
def pl : State := busy (core5 (mkPlot up))
def pl5 : State := { (setFld pl (PLOT_STATUS 0) PLOT_STATUS_STATE 5) with core := { pl.core with ctxs := [(ctxKey 5 1, { rdy with st := .halted, cause := 5 }), (ctxKey 900 1, { rdy with st := .halted, cause := 5 })] } }
def plF : State := { setFld (setFld (setFld (setFld (setFld pl (PLOT_STATUS 0) PLOT_STATUS_STATE 3) (PLOT_STATUS 0) PLOT_STATUS_FENCED 1) (PLOT_STATUS 0) PLOT_STATUS_FIRST_CODE 0x601) (Q_CFG 7) Q_CFG_OWNER 3) (Q_CFG 7) Q_CFG_STATE 1 with core := { pl.core with reqs := [] } }
/-- The premises of `Obligations.PlotsResetStartAndSettle` can be met. -/
theorem witness_PlotsResetStartAndSettle :
    (((masterOk (Master.unit 25600 0) = true) ∧ (0 < 64) ∧ (plotValid pl 0 = true) ∧
      (isSupervisor (Master.unit 25600 0) = true)) ∧ (Reaches pl (Master.unit 25600 0) (PLOT_CTRL 0))) ∧
    (((masterOk (Master.unit 25600 0) = true) ∧ (0 < 64) ∧ (plotValid pl5 0 = true) ∧
      (isSupervisor (Master.unit 25600 0) = true)) ∧ (Reaches pl5 (Master.unit 25600 0) (PLOT_CTRL 0)) ∧
      (fld pl5 (PLOT_STATUS 0) PLOT_STATUS_STATE = 5)) ∧
    (((masterOk (Master.unit 25600 0) = true) ∧ (0 < 64) ∧ (plotValid pl 0 = true) ∧
      (isSupervisor (Master.unit 25600 0) = true)) ∧ (Reaches pl (Master.unit 25600 0) (PLOT_CTRL 0)) ∧
      (fld pl (PLOT_STATUS 0) PLOT_STATUS_STATE ≠ 5)) ∧
    (((masterOk (Master.unit 25600 0) = true) ∧ (0 < 64) ∧ (plotValid plF 0 = true) ∧
      (isSupervisor (Master.unit 25600 0) = true)) ∧ (Reaches plF (Master.unit 25600 0) (PLOT_CTRL 0)) ∧
      ((faultFence plF 0 = true) ∧ (fld plF (PLOT_STATUS 0) PLOT_STATUS_STATE ≠ 4) ∧
      (∀ r ∈ plF.core.reqs, unitIn plF 0 r.u = false))) := ⟨⟨by decide +kernel, reaches_of (by decide +kernel)⟩,
    ⟨by decide +kernel, reaches_of (by decide +kernel), by decide +kernel⟩,
    ⟨by decide +kernel, reaches_of (by decide +kernel), by decide +kernel⟩,
    ⟨by decide +kernel, reaches_of (by decide +kernel), by decide +kernel⟩⟩
def ep0 : State := setFld pl GLB_EPOCH_PLOTS ⟨0, 0, 64⟩ 3
def epo (k : Nat) (s : State) : State :=
  { setFld (setFld s GLB_STATUS GLB_STATUS_EPOCH_ACTIVE 1) GLB_EPOCH_CTRL GLB_EPOCH_CTRL_STEP k with avl := { s.avl with epochIn := [0], epochFence := [0] } }
def halt3 : State := { pl with core := { pl.core with engines := [], ctxs := [(ctxKey 5 0, { rdy with st := .halted, cause := 3 }), (ctxKey 5 1, { rdy with st := .halted, cause := 3 })] } }
/-- The premises of `Obligations.EpochsStartAndEnd` can be met. -/
theorem witness_EpochsStartAndEnd :
    (((masterOk (Master.unit 25600 0) = true) ∧ (isSupervisor (Master.unit 25600 0) = true)) ∧
      (Reaches pl (Master.unit 25600 0) GLB_EPOCH_CTRL) ∧ (epochOn pl = true ∨ namedPlots pl = [])) ∧
    (((masterOk (Master.unit 25600 0) = true) ∧ (isSupervisor (Master.unit 25600 0) = true)) ∧
      (Reaches ep0 (Master.unit 25600 0) GLB_EPOCH_CTRL) ∧ ((epochOn ep0 = false) ∧ (namedPlots ep0 ≠ []))) ∧
    (((masterOk (Master.unit 25600 0) = true) ∧ (isSupervisor (Master.unit 25600 0) = true)) ∧
      (Reaches (epo 2 halt3) (Master.unit 25600 0) GLB_EPOCH_CTRL) ∧ ((epochOn (epo 2 halt3) = true) ∧
      (epochStep (epo 2 halt3) = 2) ∧ (∀ q ∈ (epo 2 halt3).avl.epochIn, plotHalted (epo 2 halt3) q = true))) ∧
    (((masterOk (Master.unit 25600 0) = true) ∧ (isSupervisor (Master.unit 25600 0) = true)) ∧
      (Reaches ({ epo 3 halt3 with strm := up.strm }) (Master.unit 25600 0) GLB_EPOCH_CTRL) ∧
      ((epochOn ({ epo 3 halt3 with strm := up.strm }) = true) ∧ (epochStep ({ epo 3 halt3 with strm := up.strm }) = 3) ∧
      (epochDry ({ epo 3 halt3 with strm := up.strm }) = true))) ∧
    (((masterOk (Master.unit 25600 0) = true) ∧ (isSupervisor (Master.unit 25600 0) = true)) ∧
      (Reaches ({ setFld (epo 2 pl) (PLOT_CFG 0) PLOT_CFG_PATIENCE 3 with log := { up.log with glints := 3 } }) (Master.unit
      25600 0) GLB_EPOCH_CTRL) ∧
      ((epochOn ({ setFld (epo 2 pl) (PLOT_CFG 0) PLOT_CFG_PATIENCE 3 with log := { up.log with glints := 3 } }) = true) ∧
      (epochStep ({ setFld (epo 2 pl) (PLOT_CFG 0) PLOT_CFG_PATIENCE 3 with log := { up.log with glints := 3 } }) = 2) ∧
      (0 ∈ ({ setFld (epo 2 pl) (PLOT_CFG 0) PLOT_CFG_PATIENCE 3 with log := { up.log with glints := 3 } }).avl.epochIn) ∧
      (0 ∉ ({ setFld (epo 2 pl) (PLOT_CFG 0) PLOT_CFG_PATIENCE 3 with log := { up.log with glints := 3 } }).avl.epochLate) ∧
      (0 < fld ({ setFld (epo 2 pl) (PLOT_CFG 0) PLOT_CFG_PATIENCE 3 with log := { up.log with glints := 3 } }) (PLOT_CFG 0)
      PLOT_CFG_PATIENCE) ∧
      (({ setFld (epo 2 pl) (PLOT_CFG 0) PLOT_CFG_PATIENCE 3 with log := { up.log with glints := 3 } }).avl.epochFrom + fld
      ({ setFld (epo 2 pl) (PLOT_CFG 0) PLOT_CFG_PATIENCE 3 with log := { up.log with glints := 3 } }) (PLOT_CFG 0)
      PLOT_CFG_PATIENCE ≤
      ({ setFld (epo 2 pl) (PLOT_CFG 0) PLOT_CFG_PATIENCE 3 with log := { up.log with glints := 3 } }).log.glints) ∧
      (plotHalted ({ setFld (epo 2 pl) (PLOT_CFG 0) PLOT_CFG_PATIENCE 3 with log := { up.log with glints := 3 } }) 0 =
      false))) ∧
    (((masterOk (Master.unit 25600 0) = true) ∧ (isSupervisor (Master.unit 25600 0) = true)) ∧
      (Reaches pl (Master.unit 25600 0) GLB_EPOCH_CTRL) ∧ (epochOn pl = false)) ∧
    (((masterOk (Master.unit 25600 0) = true) ∧ (isSupervisor (Master.unit 25600 0) = true)) ∧
      (Reaches (epo 5 halt3) (Master.unit 25600 0) GLB_EPOCH_CTRL) ∧ ((epochOn (epo 5 halt3) = true) ∧
      (epochStep (epo 5 halt3) ≠ 4) ∧ (loadBusy (epo 5 halt3) = false))) ∧
    (((masterOk (Master.unit 25600 0) = true) ∧ (isSupervisor (Master.unit 25600 0) = true)) ∧
      (Reaches (epo 4 halt3) (Master.unit 25600 0) GLB_EPOCH_CTRL) ∧ ((epochOn (epo 4 halt3) = true) ∧
      (epochStep (epo 4 halt3) = 4) ∧ ((epo 4 halt3).avl.epochEnd = false) ∧
      ((epo 4 halt3).mc.ccSwitch = false))) := ⟨⟨by decide +kernel, reaches_of (by decide +kernel), by decide +kernel⟩,
    ⟨by decide +kernel, reaches_of (by decide +kernel), by decide +kernel⟩,
    ⟨by decide +kernel, reaches_of (by decide +kernel), by decide +kernel⟩,
    ⟨by decide +kernel, reaches_of (by decide +kernel), by decide +kernel⟩,
    ⟨by decide +kernel, reaches_of (by decide +kernel), by decide +kernel⟩,
    ⟨by decide +kernel, reaches_of (by decide +kernel), by decide +kernel⟩,
    ⟨by decide +kernel, reaches_of (by decide +kernel), by decide +kernel⟩,
    ⟨by decide +kernel, reaches_of (by decide +kernel), by decide +kernel⟩⟩

end Sys2Proof.Tests.Witness05
end

