-- ==== Sys2Proof/Tests/WitnessMemory.lean ====
section
/-!
SUPPORT. For each statement about memories, streams, packets, pace and messaging that has premises, a state and operands that meet them, clause by clause. A premise on an opaque
verdict of Config (a signature) has no witness: nothing evaluates it.
-/

namespace Sys2Proof.Tests.Witness06
open Sys2Proof Sys2Proof.Machine Sys2Proof.Tests
set_option Elab.async false
set_option maxRecDepth 100000
set_option synthInstance.maxSize 2000
set_option synthInstance.maxHeartbeats 200000

def up : State := { State.reset with mc := { State.reset.mc with pwrGood := true, held := false } }
def bk (o : Nat) (s : State) : State := setFld s (BANK_OWNER 200 7) BANK_OWNER_OWNER o
def chv (x : Chan) (s : State) : State :=
  { s with strm := { s.strm with chans := mset Chan.closed s.strm.chans (chanKey 200 0) x } }
def memRd : W512 := BitVec.ofNat 512 (2 ^ 2 + 2 ^ 41 + 0x7000 * 2 ^ 128)
def bbusy : State := { (chv { Chan.closed with st := 1, desc := memRd, acc := 5 } (bk 5 up)) with core := { up.core with reqs := [{ tag := 5, u := 200, c := 0, pc := 4, op := .load (devOfLocal 200 0x7000) 64 false, dst := none, pdst := 0, tracked := true, parts := [⟨devOfLocal 200 0x7000, 64, none⟩], chan := true, pos := 0, cnt := 0, stamp := 0, orphan := false }] } }
def ct (s : State) : State := { s with core := { s.core with ctxs := mset Ctx.unloaded s.core.ctxs (ctxKey 200 3) rdy } }
/-- The premises of `Obligations.BanksChangeHands` can be met. -/
theorem witness_BanksChangeHands :
    (((200 < 25600) ∧ (7 < 16) ∧ (10 ≤ 10) ∧ (masterOk (Master.unit 25601 7) = true)) ∧
      (Reaches (bk 4 up) (Master.unit 25601 7) (BANK_OWNER 200 7)) ∧ ((isSupervisor (Master.unit 25601 7) = true) ∧ (10 = 9 →
      borderCore 200 = true) ∧ (ownerBusy (bk 4 up) 200 7 = false))) ∧
    (((200 < 25600) ∧ (7 < 16) ∧ (10 ≤ 10) ∧ (masterOk (Master.unit 25601 7) = true)) ∧
      (Reaches bbusy (Master.unit 25601 7) (BANK_OWNER 200 7)) ∧ ((isSupervisor (Master.unit 25601 7) = true) ∧ (10 = 9 →
      borderCore 200 = true) ∧ (ownerBusy bbusy 200 7 = true))) ∧
    (((200 < 25600) ∧ (7 < 16) ∧ (3 < 8) ∧ (8 < 16) ∧ (privOf (ct (bk 10 up)) 200 3 = .user) ∧
      (bankOwner (ct (bk 10 up)) 200 7 ≤ 4 ∨ bankOwner (ct (bk 10 up)) 200 7 = 10) ∧ (8 ≤ 8 ∨ 8 = 10) ∧
      (ownerBusy (ct (bk 10 up)) 200 7 = false))) ∧
    (((200 < 25600) ∧ (7 < 16) ∧ (3 < 8) ∧ (8 < 16) ∧ (privOf (ct bbusy) 200 3 = .user) ∧ (5 ≤ bankOwner (ct bbusy) 200 7 ∧
      bankOwner (ct bbusy) 200 7 ≤ 9 ∨ 8 = 9 ∨ 10 < 8) ∧ ((ctx (ct bbusy) 200 3).st = .ready))) ∧
    (((199 < 25600) ∧ (200 < 25600) ∧ (200 ≠ 199) ∧ (7 < 16) ∧ (3 < 8) ∧ (9 < 16) ∧ ((ctx (ct up) 200 3).st = .ready))) ∧
    (((200 < 25600) ∧ (masterOk Master.mc = true) ∧ (isSupervisor Master.mc = false) ∧ (isOwner (ct up) Master.mc = false)) ∧
      (Reaches (ct up) Master.mc (BANK_OWNER 200 7)) ∧ ((isSupervisor Master.mc = false) ∧
      (isOwner (ct up) Master.mc = false))) ∧
    (((200 < 25600) ∧ (fld (setFld (setFld (bk 4 up) (BANK_OWNER 200 7) BANK_OWNER_PENDING 1) (BANK_OWNER 200 7)
      BANK_OWNER_TARGET 2) (BANK_OWNER 200 7) BANK_OWNER_PENDING = 1) ∧
      (ownerBusy (setFld (setFld (bk 4 up) (BANK_OWNER 200 7) BANK_OWNER_PENDING 1) (BANK_OWNER 200 7) BANK_OWNER_TARGET 2)
      200 7 = false))) ∧
    (((200 < 25600) ∧ (fld (setFld bbusy (BANK_OWNER 200 7) BANK_OWNER_PENDING 1) (BANK_OWNER 200 7) BANK_OWNER_PENDING = 0
      ∨ ownerBusy (setFld bbusy (BANK_OWNER 200 7) BANK_OWNER_PENDING 1) 200 7 = true))) := ⟨⟨by decide +kernel, reaches_of
      (by decide +kernel), by decide +kernel⟩,
    ⟨by decide +kernel, reaches_of (by decide +kernel), by decide +kernel⟩,
    by decide +kernel,
    by decide +kernel,
    by decide +kernel,
    ⟨by decide +kernel, reaches_of (by decide +kernel), by decide +kernel⟩,
    by decide +kernel,
    by decide +kernel⟩
def av (f : AvlSt → AvlSt) (s : State) : State := { s with avl := f s.avl }
def me (f : MemSt → MemSt) (s : State) : State := { s with mem := f s.mem }
def ec1 : State := me (fun m =>
  { m with rewrites := [(wordKey 7 131071, true)], latent := [(wordKey 7 131071, 1), (wordKey 7 5, 1)] }) up
def scr : State := me (fun m => { m with latent := [((backWords 7 (scrubAddr 9215) 64).headD 0, 1), (3, 1)] }) (av (fun a =>
  { a with scrubDue := [(7, true)], scrubNext := [(7, 9215)] }) up)
/-- The premises of `Obligations.ErrorsAreRewrittenSievedAndScrubbed` can be met. -/
theorem witness_ErrorsAreRewrittenSievedAndScrubbed :
    (((7 < 26624) ∧ (logicalOf ec1 7 = some 7) ∧ (computePowered ec1 = true) ∧ (131071 < 131072) ∧
      (mget false ec1.mem.rewrites (wordKey 7 131071) = true) ∧ (sieveHolds ec1 (locKey 7 (8 * 131071)) 8 = false))) ∧
    (((7 < 26624) ∧ (logicalOf (av (fun a => { a with sieveHold := [(7, 2304)] }) ec1) 7 = some 7) ∧
      (computePowered (av (fun a => { a with sieveHold := [(7, 2304)] }) ec1) = true) ∧ (131071 < 131072) ∧
      (sieveHolds (av (fun a => { a with sieveHold := [(7, 2304)] }) ec1) (locKey 7 (8 * 131071)) 8 = true))) ∧
    (((7 < 26624) ∧ (logicalOf (setFld up (SIEVE_CFG 7) SIEVE_CFG_EN 1) 7 = some 7) ∧
      (computePowered (setFld up (SIEVE_CFG 7) SIEVE_CFG_EN 1) = true) ∧
      (flag (setFld up (SIEVE_CFG 7) SIEVE_CFG_EN 1) (SIEVE_CFG 7) SIEVE_CFG_EN = true))) ∧
    (((7 < 26624) ∧ (logicalOf (setFld up (SIEVE_CFG 7) SIEVE_CFG_EN 0) 7 = some 7) ∧
      (computePowered (setFld up (SIEVE_CFG 7) SIEVE_CFG_EN 0) = true) ∧
      (flag (setFld up (SIEVE_CFG 7) SIEVE_CFG_EN 0) (SIEVE_CFG 7) SIEVE_CFG_EN = false))) ∧
    (((7 < 26624) ∧ (logicalOf (av (fun a => { a with sieveDue := [(7, true)], sieveNext := [(7, 2303)] }) up) 7 = some 7) ∧
      (computePowered (av (fun a => { a with sieveDue := [(7, true)], sieveNext := [(7, 2303)] }) up) = true) ∧
      (mget false (av (fun a => { a with sieveDue := [(7, true)], sieveNext := [(7, 2303)] }) up).avl.sieveDue 7 = true) ∧
      (mget 0 (av (fun a => { a with sieveDue := [(7, true)], sieveNext := [(7, 2303)] }) up).avl.sieveHold 7 = 0) ∧
      (2303 = mget 0 (av (fun a => { a with sieveDue := [(7, true)], sieveNext := [(7, 2303)] }) up).avl.sieveNext 7) ∧
      (coreFree (av (fun a => { a with sieveDue := [(7, true)], sieveNext := [(7, 2303)] }) up) 7 = true →
      ∀ x ∈ (av (fun a => { a with sieveDue := [(7, true)], sieveNext := [(7, 2303)] }) up).avl.rowsBad, x.1 ≠ 7) ∧
      (∀ x ∈ backWords 7 (regionAddr 2303) 256, latentAt (av (fun a =>
      { a with sieveDue := [(7, true)], sieveNext := [(7, 2303)] }) up) x = 0))) ∧
    (((7 < 26624) ∧ (logicalOf (av (fun a => { a with sieveHold := [(7, 2304)] }) ec1) 7 = some 7) ∧
      (computePowered (av (fun a => { a with sieveHold := [(7, 2304)] }) ec1) = true) ∧
      (∀ q ∈ (av (fun a => { a with sieveHold := [(7, 2304)] }) ec1).core.reqs, ∀ x ∈ q.parts, heldPart q x = false) ∧
      (mget 0 (av (fun a => { a with sieveHold := [(7, 2304)] }) ec1).avl.sieveHold 7 = 2303 + 1) ∧ (2303 < 2304))) ∧
    (((7 < 26624) ∧ (logicalOf (av (fun a => { a with sieveHold := [(7, 1)] }) ec1) 7 = some 7) ∧
      (computePowered (av (fun a => { a with sieveHold := [(7, 1)] }) ec1) = true) ∧
      (∀ q ∈ (av (fun a => { a with sieveHold := [(7, 1)] }) ec1).core.reqs, ∀ x ∈ q.parts, heldPart q x = false) ∧
      (mget 0 (av (fun a => { a with sieveHold := [(7, 1)] }) ec1).avl.sieveHold 7 = 0 + 1) ∧ (0 < 2304))) ∧
    (((7 < 26624) ∧ (logicalOf (setFld up (SCRUB_CFG 7) SCRUB_CFG_EN 0) 7 = some 7) ∧
      (computePowered (setFld up (SCRUB_CFG 7) SCRUB_CFG_EN 0) = true) ∧
      (flag (setFld up (SCRUB_CFG 7) SCRUB_CFG_EN 0) (SCRUB_CFG 7) SCRUB_CFG_EN = false))) ∧
    (((7 < 26624) ∧ (logicalOf (setFld up (SCRUB_CFG 7) SCRUB_CFG_EN 1) 7 = some 7) ∧
      (computePowered (setFld up (SCRUB_CFG 7) SCRUB_CFG_EN 1) = true) ∧
      (flag (setFld up (SCRUB_CFG 7) SCRUB_CFG_EN 1) (SCRUB_CFG 7) SCRUB_CFG_EN = true))) ∧
    (((7 < 26624) ∧ (logicalOf scr 7 = some 7) ∧ (computePowered scr = true) ∧ (mget false scr.avl.scrubDue 7 = true) ∧
      (9215 = mget 0 scr.avl.scrubNext 7) ∧ (sieveHolds scr (locKey 7 (scrubAddr 9215)) 64 = false) ∧
      (∀ x ∈ backWords 7 (scrubAddr 9215) 64, latentAt scr x ≤ 1 ∧ locPoisoned scr x = false))) := by decide +kernel

end Sys2Proof.Tests.Witness06

namespace Sys2Proof.Tests.Witness07
open Sys2Proof Sys2Proof.Machine Sys2Proof.Tests
set_option Elab.async false
set_option maxRecDepth 100000
set_option synthInstance.maxSize 2000
set_option synthInstance.maxHeartbeats 200000

def up : State := { State.reset with mc := { State.reset.mc with pwrGood := true, held := false } }
def dsc (l : List (Nat × Nat)) : W512 := BitVec.ofNat 512 ((l.map fun x => x.2 * 2 ^ x.1).foldl (· + ·) 0)
def memRd : W512 := dsc [(0, 0), (2, 1), (41, 1), (64, 0x20), (128, 0x8000), (192, 128), (256, 63)]
def regMem : W512 := dsc [(0, 1), (2, 0), (41, 1), (64, 0x40), (128, 0x8000), (192, 128), (256, 63)]
def och (k : Nat) (x : Chan) (s : State) : State := setFld
  { s with strm := { s.strm with chans := mset Chan.closed s.strm.chans k x } } (BANK_OWNER 3 8) BANK_OWNER_OWNER 8
def cr (x : Chan) : Chan := { x with st := 1, owner := 1, stamp := 5 }
def ringB (s : State) : State :=
  { s with mem := { s.mem with loc := memStore s.mem.loc (locKey (physUnit s 3) 0x8000) ((List.range 4).map fun i => BitVec.ofNat 8 (i + 1)) } }
def x1 : Chan := cr { Chan.closed with desc := memRd }
def c1 : State := och (chanKey 3 3) x1 (ringB up)
def memBad : W512 := dsc [(0, 0), (2, 1), (41, 1), (64, 0x20 + 0x4000000000000), (64 + 48, 1), (128, 0x8000), (192, 128),
  (256, 63)]
def x2 : Chan := cr { Chan.closed with desc := memBad }
def c2 : State := och (chanKey 3 3) x2 (ringB up)
def dat : List Byte := (List.range 64).map fun i => BitVec.ofNat 8 (200 - i)
def rq (op : ReqOp) (pos cnt : Nat) (ps : List Part) : Req :=
  { tag := 6, u := 3, c := 3, pc := 4, op := op, dst := none, pdst := 0, tracked := true, parts := ps, chan := true, pos := pos, cnt := cnt, stamp := 0, orphan := false }
def wr (r : Req) (s : State) : State :=
  { s with core := { s.core with reqs := [r, { r with tag := 9, pos := r.pos + 32, parts := [⟨64, 64, none⟩] }] } }
def x3 : Chan := cr { Chan.closed with desc := memRd, acc := 64, issued := 96, drained := 0 }
def r3 : Req := rq (.load 64 64 false) 64 32 [⟨64, 64, some (.bytes dat [])⟩]
def c3 : State := wr r3 (och (chanKey 3 3) x3 (ringB up))
def r4 : Req := rq (.load 64 64 false) 64 32 [⟨64, 64, some (.failed 0x0804)⟩]
def c4 : State := wr r4 (och (chanKey 3 3) x3 (ringB up))
def x5 : Chan := cr { Chan.closed with desc := regMem, acc := 128, issued := 64, drained := 0 }
def r5 : Req := rq (.store 64 [] []) 0 64 [⟨64, 64, some (.status 0)⟩]
def c5 : State := wr r5 (och (chanKey 3 3) x5 (ringB up))
/-- The premises of `Obligations.ChannelAccessesMoveBytes` can be met. -/
theorem witness_ChannelAccessesMoveBytes :
    (((x1 = chan c1 3 3) ∧ (x1.st = 1) ∧ (abortMode c1 3 x1.desc = false) ∧ (x1.haltAt = none) ∧ (x1.spIn = x1.spOut) ∧
      (picked c1 3 3 = true) ∧ (canRead c1 3 3 = true) ∧ (32 = memAddr x1.desc x1.issued) ∧ (0 = 32 / 64 * 64) ∧
      (32 = memRun x1.desc x1.issued (ringRoom c1 3 3 x1)) ∧ (inSpace c1 x1.desc x1.issued = true) ∧
      (needsXlat c1 32 false = false) ∧ (ownMem 3 32 = false))) ∧
    (((x2 = chan c2 3 3) ∧ (x2.st = 1) ∧ (abortMode c2 3 x2.desc = false) ∧ (x2.haltAt = none) ∧ (x2.spIn = x2.spOut) ∧
      (picked c2 3 3 = true) ∧ (canRead c2 3 3 = true) ∧ ((memAddr memBad 0) = memAddr x2.desc x2.issued) ∧
      ((memAddr memBad 0 / 64 * 64) = (memAddr memBad 0) / 64 * 64) ∧ (32 = memRun x2.desc x2.issued (ringRoom c2 3 3 x2)) ∧
      (inSpace c2 x2.desc x2.issued = false))) ∧
    (((Chan.closed = chan c2 3 2) ∧ (picked c2 3 2 = false))) ∧
    (((x3 = chan c3 3 3) ∧ (x3.st = 1) ∧ (abortMode c3 3 x3.desc = false) ∧ (x3.haltAt = none) ∧ (x3.spIn = x3.spOut) ∧
      (r3 ∈ c3.core.reqs) ∧ (r3.tag = 6) ∧ (∀ q ∈ c3.core.reqs, q.tag = 6 → q = r3) ∧ (reaches c3 r3 = true) ∧
      (r3.chan = true) ∧ (r3.orphan = false) ∧ (r3.tracked = true) ∧ (r3.u = 3) ∧ (r3.c = 3) ∧
      (∀ q ∈ chanReqs c3 3 3, q.tag ≠ 6 → q.tracked = true) ∧ (isLoad r3 = true) ∧
      (r3.parts = [⟨64, 64, some (.bytes dat [])⟩]) ∧ (r3.pos = x3.acc) ∧ (r3.cnt = 32) ∧
      (ringDenied c3 3 3 x3.desc x3.acc 32 = none) ∧ (ringHeld c3 3 x3.desc x3.acc 32 = false) ∧ (32 ≤ ringSize x3.desc) ∧
      (∀ k, k < 32 → latentAt c3 (ringKey c3 3 x3.desc (x3.acc + k) / 8) = 0 ∧
      locPoisoned c3 (ringKey c3 3 x3.desc (x3.acc + k) / 8) = false))) ∧
    (((x3 = chan c4 3 3) ∧ (x3.st = 1) ∧ (abortMode c4 3 x3.desc = false) ∧ (x3.haltAt = none) ∧ (x3.spIn = x3.spOut) ∧
      (r4 ∈ c4.core.reqs) ∧ (r4.tag = 6) ∧ (∀ q ∈ c4.core.reqs, q.tag = 6 → q = r4) ∧ (reaches c4 r4 = true) ∧
      (r4.chan = true) ∧ (r4.orphan = false) ∧ (r4.tracked = true) ∧ (r4.u = 3) ∧ (r4.c = 3) ∧
      (∀ q ∈ chanReqs c4 3 3, q.tag ≠ 6 → q.tracked = true) ∧ (isLoad r4 = true) ∧
      (r4.parts = [⟨64, 64, some (.failed 0x0804)⟩]))) ∧
    (((x5 = chan c5 3 3) ∧ (x5.st = 1) ∧ (abortMode c5 3 x5.desc = false) ∧ (x5.haltAt = none) ∧ (x5.spIn = x5.spOut) ∧
      (r5 ∈ c5.core.reqs) ∧ (r5.tag = 6) ∧ (∀ q ∈ c5.core.reqs, q.tag = 6 → q = r5) ∧ (reaches c5 r5 = true) ∧
      (r5.chan = true) ∧ (r5.orphan = false) ∧ (r5.tracked = true) ∧ (r5.u = 3) ∧ (r5.c = 3) ∧
      (∀ q ∈ chanReqs c5 3 3, q.tag ≠ 6 → q.tracked = true) ∧ (isLoad r5 = false) ∧
      (r5.parts = [⟨64, 64, some (.status 0)⟩]) ∧ (r5.pos = x5.drained))) := by decide +kernel
def memRing : W512 := dsc [(0, 0), (2, 3), (41, 1), (38, 4), (45, 2), (57, 1), (64, 0x20), (128, 0x8000), (192, 8192), (256,
  255), (148, 7)]
def y1 : Chan := cr { Chan.closed with desc := memRing, acc := 4096 }
def d1 : State := och (chanKey 3 3) y1 up
def y2 : Chan := { y1 with acc := 8192, pubs := 1 }
def d2 : State := setFld (och (chanKey 3 3) y2 up) (BANK_OWNER 3 9) BANK_OWNER_OWNER 8
def y3 : Chan := { x5 with acc := 128, drained := 128, desc := setBits regMem 57 1 1 }
def d3 : State := och (chanKey 3 3) y3 up
def y4 : Chan := { y3 with st := 5 }
def y5 : Chan := { y1 with window := 77, ema := 500 }
def y6 : Chan := { y3 with window := 77, ema := 500 }
def y7 : Chan := { x3 with stall := 9, desc := setBits memRd 26 12 9 }
/-- The premises of `Obligations.SegmentsRatesAndStalls` can be met. -/
theorem witness_SegmentsRatesAndStalls :
    (((y1 = chan d1 3 3) ∧ (7 = sFillObj y1.desc) ∧ (y1.st = 1) ∧ (toRing y1.desc = true) ∧ (y1.spIn = y1.spOut) ∧
      (segFull y1 (seg0 y1 + y1.pubs) = true) ∧ (ringInScratch y1.desc = true →
      segMine d1 3 3 y1.desc (seg0 y1 + y1.pubs) = true))) ∧
    (((y3 = chan d3 3 3) ∧ (0 = sFillObj y3.desc) ∧ (y3.st = 1) ∧ (toRing y3.desc = false) ∧
      (atEnd y3.desc y3.drained = true))) ∧
    (((y4 = chan (och (chanKey 3 3) y4 up) 3 3) ∧ (0 = sFillObj y4.desc) ∧ (y4.st = 5) ∧ (y4.drained = y4.acc))) ∧
    (((y5 = chan ({ och 7 y6 (och (chanKey 3 3) y5 up) with now := 500000 }) 3 3) ∧ (7 = sFillObj y5.desc) ∧
      (mwf Chan.closed ({ och 7 y6 (och (chanKey 3 3) y5 up) with now := 500000 }).strm.chans = true))) ∧
    (((y7 = chan (och (chanKey 3 3) y7 up) 3 3) ∧ (0 = sFillObj y7.desc) ∧ (y7.st = 1) ∧ (y7.raised = false) ∧
      (0 < sPatience y7.desc) ∧ (sPatience y7.desc ≤ y7.stall))) := by decide +kernel
def lnkReg : W512 := dsc [(0, 2), (2, 1), (41, 1), (128, 0x8000), (192, 16384), (232, 5)]
def pool (s : State) : State := setFld (setFld (setFld s (PLOT_SPILL_BASE 0) PLOT_SPILL_BASE_EN 1) (PLOT_SPILL_SIZE 0)
  PLOT_SPILL_SIZE_PAGES 3) (PLOT_SPILL_SIZE 0) PLOT_SPILL_SIZE_CH_MAX 2
def z1 : Chan := cr { Chan.closed with desc := lnkReg, spill := true, spillOk := true, pages := [1], spIn := 4096, spOut := 0, acc := 512, drained := 0 }
def pu (s : State) : State := { s with strm := { s.strm with poolUsed := [(1, true)] } }
def e1 : State := pu (pool (och (chanKey 3 3) z1 up))
def z2 : Chan := { z1 with spOut := 4096 }
def z3 : Chan := { z1 with pages := [1, 2], spIn := 8192, spOut := 4096 }
def z4 : Chan := cr { Chan.closed with desc := lnkReg, owed := 64, grants := 512, drained := 64, acc := 100 }
/-- The premises of `Obligations.SpillCreditAndFences` can be met. -/
theorem witness_SpillCreditAndFences :
    (((z1 = chan e1 3 3) ∧ (0 = (plotOf e1 3).getD 0) ∧ (z1.spill = true) ∧ (ringFree e1 3 3 z1 = 0) ∧ (pagesFree z1 = 0) ∧
      (senderWaits e1 3 3 = true) ∧ (poolFree e1 0 = some 0) ∧
      (fld e1 (PLOT_SPILL_SIZE 0) PLOT_SPILL_SIZE_CH_MAX = 0 ∨ z1.pages.length < fld e1 (PLOT_SPILL_SIZE 0)
      PLOT_SPILL_SIZE_CH_MAX))) ∧
    (((z1 = chan (setFld e1 (PLOT_SPILL_SIZE 0) PLOT_SPILL_SIZE_PAGES 1) 3 3) ∧
      (0 = (plotOf (setFld e1 (PLOT_SPILL_SIZE 0) PLOT_SPILL_SIZE_PAGES 1) 3).getD 0) ∧ (z1.spill = true) ∧
      (ringFree (setFld e1 (PLOT_SPILL_SIZE 0) PLOT_SPILL_SIZE_PAGES 1) 3 3 z1 = 0) ∧ (pagesFree z1 = 0) ∧
      (senderWaits (setFld e1 (PLOT_SPILL_SIZE 0) PLOT_SPILL_SIZE_PAGES 1) 3 3 = true) ∧
      (poolFree (setFld e1 (PLOT_SPILL_SIZE 0) PLOT_SPILL_SIZE_PAGES 1) 0 = none))) ∧
    (((z2 = chan (pu (pool (och (chanKey 3 3) z2 up))) 3 3) ∧ (0 = (plotOf (pu (pool (och (chanKey 3 3) z2 up))) 3).getD 0) ∧
      (z2.pages = 1 :: ([] : List Nat)) ∧ (z2.spill = true) ∧ (z2.spIn = z2.spOut ∨ 4096 ≤ z2.spOut ∧
      ringFree (pu (pool (och (chanKey 3 3) z2 up))) 3 3 z2 = 0))) ∧
    (((z4 = chan (och (chanKey 3 3) z4 up) 3 3) ∧ (0 = (plotOf (och (chanKey 3 3) z4 up) 3).getD 0) ∧ (z4.st ≠ 0) ∧
      (fromLink z4.desc = true) ∧ (toRing z4.desc = false) ∧ ((och (chanKey 3 3) z4 up).strm.branch = []))) ∧
    (((z4 = chan ({ och (chanKey 3 3) z4 up with strm := { (och (chanKey 3 3) z4 up).strm with markers := [(9, 1), (3, 3)] } })
      3 3) ∧ (0 = (plotOf
      ({ och (chanKey 3 3) z4 up with strm := { (och (chanKey 3 3) z4 up).strm with markers := [(9, 1), (3, 3)] } }) 3).getD
      0) ∧ ((3, 3) ∈ ({ och (chanKey 3 3) z4 up with strm := { (och (chanKey 3 3) z4 up).strm with markers := [(9, 1), (3, 3)] } }).strm.markers)
      ∧ (z4.st = 1) ∧ (abortMode
      ({ och (chanKey 3 3) z4 up with strm := { (och (chanKey 3 3) z4 up).strm with markers := [(9, 1), (3, 3)] } }) 3
      z4.desc = false))) ∧
    (((z4 = chan (och (chanKey 3 3) z4 up) 3 3) ∧ (0 = (plotOf (och (chanKey 3 3) z4 up) 3).getD 0) ∧
      ((3, 3) ∉ (och (chanKey 3 3) z4 up).strm.markers))) := by decide +kernel
def regLnk : W512 := dsc [(0, 1), (2, 2), (41, 1), (128, 0x8000), (192, 16384), (232, 5)]
def rt (u i inp outs : Nat) (s : State) : State := rset s (ROUTE_ENTRY u i) (fset (fset (fset (fset 0 ROUTE_ENTRY_VALID 1)
  ROUTE_ENTRY_LINK_ID 5) ROUTE_ENTRY_IN inp) ROUTE_ENTRY_OUT outs)
def w1 : Chan := cr { Chan.closed with desc := regLnk, acc := 64, drained := 0 }
def w2 : Chan := cr { Chan.closed with desc := lnkReg, grants := 512 }
def plt (s : State) : State := setFld (setFld (setFld (setFld (setFld (setFld s (PLOT_CFG 0) PLOT_CFG_ROW0 0) (PLOT_CFG 0)
  PLOT_CFG_COL0 0) (PLOT_CFG 0) PLOT_CFG_HEIGHT 8) (PLOT_CFG 0) PLOT_CFG_WIDTH 8) (PLOT_CFG 0) PLOT_CFG_VALID 1)
  (PLOT_STATUS 0) PLOT_STATUS_STATE 2
def f1 : State := plt (och (chanKey 4 2) w2 (och (chanKey 3 3) w1 (rt 4 0 3 16 (rt 3 0 4 2 (ringB up)))))
def tk : Token := { link := 5, data := (List.range 32).map fun i => (BitVec.ofNat 8 i, false), stamp := 0, last := false, spill := false, dec := false }
def qd (l : List Queued) (s : State) : State := { s with strm := { s.strm with tokens := l } }
def f2 : State := qd [⟨3, 4, tk⟩, ⟨4, 2, { tk with link := 9 }⟩] f1
def f3 : State := setFld (qd [⟨4, 3, tk⟩] f1) (BANK_OWNER 4 8) BANK_OWNER_OWNER 7
/-- The premises of `Obligations.TokensTravel` can be met. -/
theorem witness_TokensTravel :
    (((w1 = chan f1 3 3) ∧ (toLink w1.desc = true) ∧ (w1.st = 1) ∧ (sLink w1.desc = 5) ∧ (w1.drained + 32 ≤ w1.acc) ∧
      (w1.sent + 32 ≤ creditBelow f1 (sDec w1.desc) 5 routeFuel 3 4) ∧ (tokensAt f1 3 4 5 < 2) ∧
      (ringDenied f1 3 3 w1.desc w1.drained 32 = none) ∧ (ringHeld f1 3 w1.desc w1.drained 32 = false) ∧
      (w1.spIn = w1.spOut) ∧ (∀ k, k < 32 → latentAt f1 (ringKey f1 3 w1.desc (w1.drained + k) / 8) = 0))) ∧
    (((w1 = chan f2 3 3) ∧ (f2.strm.tokens = ⟨3, 4, tk⟩ :: ([⟨4, 2, { tk with link := 9 }⟩] : List Queued)) ∧ (tk.link = 5) ∧
      (fenced f2 3 = false) ∧ (routeOf f2 3 5 = some 0) ∧ (routeIn f2 3 0 = 4) ∧ (routeOuts f2 3 0 = [1]) ∧ (1 < 4) ∧
      (neighbour f2 3 1 = some 4) ∧ (1 = 1 → colOf 3 ≠ 127) ∧ (fenced f2 4 = false) ∧ (linkOpen f2 3 1 4 5 = true) ∧
      (givesWay f2 3 [1] tk = false) ∧ (tokensAt f2 4 (facing 1) 5 < 2))) ∧
    (((w1 = chan (qd [⟨3, 3, tk⟩] f1) 3 3) ∧ ((qd [⟨3, 3, tk⟩] f1).strm.tokens = ⟨3, 3, tk⟩ :: ([] : List Queued)) ∧
      (tk.link = 5) ∧ (fenced (qd [⟨3, 3, tk⟩] f1) 3 = false) ∧ (∀ i, routeOf (qd [⟨3, 3, tk⟩] f1) 3 5 = some i →
      routeIn (qd [⟨3, 3, tk⟩] f1) 3 i ≠ 3))) ∧
    (((w2 = chan f3 4 2) ∧ (f3.strm.tokens = ⟨4, 3, tk⟩ :: ([] : List Queued)) ∧ (tk.link = 5) ∧ (fenced f3 4 = false) ∧
      (routeOf f3 4 5 = some 0) ∧ (routeIn f3 4 0 = 3) ∧ (routeOuts f3 4 0 = [4]) ∧ (receiverAt f3 4 5 = some 2) ∧
      (w2.st = 1) ∧ (givesWay f3 4 [4] tk = false) ∧ (upTo w2.desc w2.acc tk.data.length = tk.data.length) ∧
      (ringHeld f3 4 w2.desc w2.acc tk.data.length = false) ∧ (w2.spIn = w2.spOut) ∧ (tk.data.length ≤ ringFree f3 4 2 w2) ∧
      (tk.data ≠ []) ∧ (ringDenied f3 4 2 w2.desc w2.acc tk.data.length = none) ∧ (∀ k, k < tk.data.length →
      latentAt f3 (ringKey f3 4 w2.desc (w2.acc + k) / 8) = 0 ∧
      locPoisoned f3 (ringKey f3 4 w2.desc (w2.acc + k) / 8) = false) ∧ (∀ b ∈ tk.data, b.2 = false))) := by decide +kernel

end Sys2Proof.Tests.Witness07

namespace Sys2Proof.Tests.Witness08
open Sys2Proof Sys2Proof.Machine Sys2Proof.Tests
set_option Elab.async false
set_option maxRecDepth 100000
set_option synthInstance.maxSize 2000
set_option synthInstance.maxHeartbeats 200000

def up : State := { State.reset with mc := { State.reset.mc with pwrGood := true, held := false } }
def rq (t u : Nat) (op : ReqOp) (ps : List Part) : Req :=
  { tag := t, u := u, c := 1, pc := 4, op := op, dst := none, pdst := 0, tracked := true, parts := ps, chan := false, pos := 0, cnt := 0, stamp := 0, orphan := false }
def wr (r : Req) (s : State) : State := { s with core := { s.core with reqs := [r] } }
def hst (p : Nat) (s : State) : State :=
  { setFld (setFld (setFld s (HOSTIF_PORT_STATUS p) HOSTIF_PORT_STATUS_LINK_UP 1) (HOSTIF_PORT_STATUS p) HOSTIF_PORT_STATUS_BME 1) (HOSTIF_PORT_STATUS p) HOSTIF_PORT_STATUS_CFG_READY 1 with host := { s.host with inReset := [] } }
def ats (s : State) : State := setFld s (HOSTIF_PORT_STATUS 1) HOSTIF_PORT_STATUS_ATS_EN 1
def pa : Part := ⟨9 * 2 ^ 48 + 0x5040, 64, none⟩
def pb : Part := ⟨9 * 2 ^ 48 + 0x5000, 64, some (.status 0)⟩
def ld : Req := rq 6 3 (.load (9 * 2 ^ 48 + 0x5000) 128 false) [pb, pa]
def sto : Req := rq 6 3 (.store (9 * 2 ^ 48 + 0x5000) ((List.range 128).map fun i => BitVec.ofNat 8 i) []) [pb, pa]
def h1 : State := hst 1 (wr ld up)
def h2 : State := { h1 with host := { h1.host with sent := [(6, 1)], invals := [] } }
/-- The premises of `Obligations.HostMemoryAccesses` can be met. -/
theorem witness_HostMemoryAccesses :
    (((1 < 2) ∧ (hostPart h1 6 1 = some (ld, pa)) ∧ (selOf pa.addr = 8 + 1) ∧ (isLoad ld = true) ∧ (hostReach h1 1 = true) ∧
      (needsXlat h1 pa.addr false = false))) ∧
    (((1 < 2) ∧ (hostPart (ats h1) 6 1 = some (ld, pa)) ∧ (selOf pa.addr = 8 + 1) ∧ (isLoad ld = true) ∧
      (hostReach (ats h1) 1 = true) ∧ (needsXlat (ats h1) pa.addr false = true) ∧ (∀ q ∈ (ats h1).host.xreqs, ¬ (q.port = 1 ∧
      q.page = offOf pa.addr / 4096 ∧ q.write = false)))) ∧
    (((1 < 2) ∧ (hostPart (wr ld up) 6 1 = some (ld, pa)) ∧ (selOf pa.addr = 8 + 1) ∧ (isLoad ld = true) ∧
      (hostReach (wr ld up) 1 = false))) ∧
    (((1 < 2) ∧ (hostPart (hst 1 (wr sto up)) 6 1 = some (sto, pa)) ∧ (selOf pa.addr = 8 + 1) ∧
      (sto.op = .store (9 * 2 ^ 48 + 0x5000) ((List.range 128).map fun i => BitVec.ofNat 8 i) ([] : List Nat)) ∧
      (hostReach (hst 1 (wr sto up)) 1 = true) ∧ (needsXlat (hst 1 (wr sto up)) pa.addr true = false))) ∧
    (((1 < 2) ∧ (hostPart (wr sto up) 6 1 = some (sto, pa)) ∧ (selOf pa.addr = 8 + 1) ∧
      (sto.op = .store (9 * 2 ^ 48 + 0x5000) ((List.range 128).map fun i => BitVec.ofNat 8 i) ([] : List Nat)) ∧
      (hostReach (wr sto up) 1 = false))) ∧
    (((1 < 2) ∧ (hostPart h1 6 1 = some (ld, pa)) ∧ (selOf pa.addr = 8 + 1) ∧
      (h2 = { h1 with host := { h1.host with sent := [(6, 1)], invals := [] } }) ∧ ((List.replicate 64 7).length = pa.n))) ∧
    (((1 < 2) ∧ (hostPart h1 6 1 = some (ld, pa)) ∧ (selOf pa.addr = 8 + 1))) := by decide +kernel
def dsc (l : List (Nat × Nat)) : W512 := BitVec.ofNat 512 ((l.map fun x => x.2 * 2 ^ x.1).foldl (· + ·) 0)
def memRd : W512 := dsc [(0, 0), (2, 1), (41, 1), (64, 0x5020 + 9 * 2 ^ 48), (128, 0x8000), (192, 128), (256, 63)]
def hch (st : Nat) (pg : Option (Nat × Nat)) (s : State) : State :=
  { s with strm := { s.strm with chans := mset Chan.closed s.strm.chans (chanKey 3 3) { Chan.closed with st := st, owner := 1, desc := memRd, page := pg } } }
def xr (b : Bool) (fails : Nat) (s : State) : State :=
  { s with host := { s.host with xreqs := [⟨1, 5, false, b, false, fails⟩] } }
def pri (n : Nat) (s : State) : State :=
  { setFld (setFld s (HOSTIF_PORT_STATUS 1) HOSTIF_PORT_STATUS_PRI_EN 1) (HOSTIF_PORT_STATUS 1) HOSTIF_PORT_STATUS_PRQ_OUT n with host := { s.host with prqAlloc := [(1, 9)] } }
def g1 : State := pri 3 (xr false 3 (hch 1 none (ats (hst 1 up))))
def g2 : State := pri 3 (xr true 3 (hch 2 (some (1, 5)) (ats (hst 1 up))))
/-- The premises of `Obligations.TranslationsAndPages` can be met. -/
theorem witness_TranslationsAndPages :
    (((1 < 2) ∧ (5 < 2 ^ 36) ∧ (3 = fld g1 (HOSTIF_PORT_STATUS 1) HOSTIF_PORT_STATUS_PRQ_OUT) ∧
      (∀ k ∈ mkeys g1.strm.chans, abortMode g1 (k / 4) (chan g1 (k / 4) (k % 4)).desc = false) ∧
      (g1.host.xreqs = [⟨1, 5, false, false, false, 3⟩]) ∧ (4 ≤ 5) ∧ (5 < 4 + 2) ∧
      ((if false then false else true) = true))) ∧
    (((1 < 2) ∧ (5 < 2 ^ 36) ∧ (3 = fld g1 (HOSTIF_PORT_STATUS 1) HOSTIF_PORT_STATUS_PRQ_OUT) ∧
      (∀ k ∈ mkeys g1.strm.chans, abortMode g1 (k / 4) (chan g1 (k / 4) (k % 4)).desc = false) ∧
      (g1.host.xreqs = [⟨1, 5, false, false, false, 3⟩]) ∧ (5 < 4 ∨ 4 + 2 ≤ 5 ∨ (if false then true else false) = false) ∧
      (∃ k ∈ mkeys g1.strm.chans, chanAtPage g1 1 5 false k = true) ∧ (3 < 4) ∧ (priOn g1 1 = true) ∧
      (3 < min 512 (mget 0 g1.host.prqAlloc 1)))) ∧
    (((1 < 2) ∧ (5 < 2 ^ 36) ∧ (3 = fld (xr false 4 g1) (HOSTIF_PORT_STATUS 1) HOSTIF_PORT_STATUS_PRQ_OUT) ∧
      (∀ k ∈ mkeys (xr false 4 g1).strm.chans, abortMode (xr false 4 g1) (k / 4) (chan (xr false 4 g1) (k / 4) (k % 4)).desc
      = false) ∧ ((xr false 4 g1).host.xreqs = [⟨1, 5, false, false, false, 4⟩]) ∧
      (5 < 4 ∨ 4 + 2 ≤ 5 ∨ (if false then true else false) = false) ∧
      (∃ k ∈ mkeys (xr false 4 g1).strm.chans, chanAtPage (xr false 4 g1) 1 5 false k = true) ∧
      (4 ≤ 4 ∨ priOn (xr false 4 g1) 1 = false))) ∧
    (((1 < 2) ∧ (9 < 2 ^ 36) ∧
      (3 = fld ({ g1 with host := { g1.host with xreqs := [⟨1, 9, false, false, false, 4⟩] } }) (HOSTIF_PORT_STATUS 1)
      HOSTIF_PORT_STATUS_PRQ_OUT) ∧
      (∀ k ∈ mkeys ({ g1 with host := { g1.host with xreqs := [⟨1, 9, false, false, false, 4⟩] } }).strm.chans, abortMode
      ({ g1 with host := { g1.host with xreqs := [⟨1, 9, false, false, false, 4⟩] } }) (k / 4) (chan
      ({ g1 with host := { g1.host with xreqs := [⟨1, 9, false, false, false, 4⟩] } }) (k / 4) (k % 4)).desc = false) ∧
      (({ g1 with host := { g1.host with xreqs := [⟨1, 9, false, false, false, 4⟩] } }).host.xreqs = [⟨1, 9, false, false,
      false, 4⟩]) ∧ (9 < 4 ∨ 4 + 2 ≤ 9 ∨ (if false then true else false) = false) ∧
      (∀ k ∈ mkeys ({ g1 with host := { g1.host with xreqs := [⟨1, 9, false, false, false, 4⟩] } }).strm.chans, chanAtPage
      ({ g1 with host := { g1.host with xreqs := [⟨1, 9, false, false, false, 4⟩] } }) 1 9 false k = false))) ∧
    (((1 < 2) ∧ (5 < 2 ^ 36) ∧ (3 = fld g2 (HOSTIF_PORT_STATUS 1) HOSTIF_PORT_STATUS_PRQ_OUT) ∧
      (∀ k ∈ mkeys g2.strm.chans, abortMode g2 (k / 4) (chan g2 (k / 4) (k % 4)).desc = false) ∧
      (g2.host.xreqs = [⟨1, 5, false, true, false, 3⟩]) ∧ (0 < 3))) ∧
    (((1 < 2) ∧ (5 < 2 ^ 36) ∧
      (({ g2 with host := { g2.host with atc := [⟨1, 6, 1, true, true⟩, ⟨1, 7, 1, true, true⟩] } }).host.sent = []) ∧
      (({ g2 with host := { g2.host with atc := [⟨1, 6, 1, true, true⟩, ⟨1, 7, 1, true, true⟩] } }).host.invals = []))) :=
      by decide +kernel
def k9 (s : State) : Nat := homeKey s (2 ^ 48 + 5000 * 0x80000 + 0x40)
def pp : Part := ⟨2 ^ 48 + 5000 * 0x80000 + 0x40, 8, none⟩
def ldp : Req := rq 6 3 (.load (2 ^ 48 + 5000 * 0x80000 + 0x40) 8 false) [pp]
def sp : Req := rq 6 3 (.store (2 ^ 48 + 5000 * 0x80000 + 0x40) [1, 2, 3, 4, 5, 6, 7, 8] []) [pp]
def big (s : State) : State := setFld (setFld (setFld (setFld (setFld (setFld s (PLOT_CFG 0) PLOT_CFG_ROW0 0) (PLOT_CFG 0)
  PLOT_CFG_COL0 0) (PLOT_CFG 0) PLOT_CFG_HEIGHT 200) (PLOT_CFG 0) PLOT_CFG_WIDTH 128) (PLOT_CFG 0) PLOT_CFG_VALID 1)
  (PLOT_STATUS 0) PLOT_STATUS_STATE 2
def p1 : State := big (wr ldp up)
def p2 : State := big (wr sp up)
def cup (s : State) : State := setFld s GLB_STATUS GLB_STATUS_COMPUTE_UP 1
def gt (s : State) : State := rset { s with pwr := { s.pwr with gated := [(blockOf (physOf s 5000), true)] } } PWR_SHADE_ST 1
def fl : Flit := ⟨3, headerOf 1 0 (srcOf 3) (0x8000 + 5000) pp.addr 0 6 8 0 0, 0⟩
def bfd (h q : Nat) (l : List Flit) (s : State) : State := { s with net := { s.net with bufs := [(((24 * h + q) * 4), l)] } }
def sg (l : List Signal) (s : State) : State := { s with sync := { s.sync with signals := l } }
def ms : State := { sg [.msix 1 2047] (setFld (hst 1 up) (HOSTIF_PORT_STATUS 1) HOSTIF_PORT_STATUS_MSIX_EN 1) with host := { up.host with unmasked := [(4095, true)], inReset := [] } }
/-- The premises of `Obligations.PacketsAreServed` can be met. -/
theorem witness_PacketsAreServed :
    (((findReq p1 6 = some ldp) ∧ (ldp.parts[0]? = some pp) ∧ (pp.ans = none) ∧ (selOf pp.addr = 1) ∧
      (homeCore pp.addr = some 5000) ∧ ((k9 up) = homeKey p1 pp.addr) ∧
      ((blockOf (physOf p1 5000)) = blockOf (physOf p1 5000)) ∧ (inOrder p1 ldp pp = true) ∧
      (sieveHolds p1 (k9 up) pp.n = false) ∧ (unitGated p1 5000 = false) ∧ (portAllowed p1 ldp.u 5000 = true) ∧
      (isLoad ldp = true))) ∧
    (((findReq p2 6 = some sp) ∧ (sp.parts[0]? = some pp) ∧ (pp.ans = none) ∧ (selOf pp.addr = 1) ∧
      (homeCore pp.addr = some 5000) ∧ ((k9 up) = homeKey p2 pp.addr) ∧
      ((blockOf (physOf p1 5000)) = blockOf (physOf p2 5000)) ∧ (inOrder p2 sp pp = true) ∧
      (sieveHolds p2 (k9 up) pp.n = false) ∧ (unitGated p2 5000 = false) ∧ (portAllowed p2 sp.u 5000 = true) ∧
      (sp.op = .store pp.addr ([1, 2, 3, 4, 5, 6, 7, 8] : List Byte) []) ∧ (pp.addr ≤ pp.addr) ∧
      (pp.addr - pp.addr + pp.n ≤ ([1, 2, 3, 4, 5, 6, 7, 8] : List Byte).length))) ∧
    (((findReq (setFld p1 (PLOT_CFG 0) PLOT_CFG_HEIGHT 1) 6 = some ldp) ∧ (ldp.parts[0]? = some pp) ∧ (pp.ans = none) ∧
      (selOf pp.addr = 1) ∧ (homeCore pp.addr = some 5000) ∧
      ((k9 up) = homeKey (setFld p1 (PLOT_CFG 0) PLOT_CFG_HEIGHT 1) pp.addr) ∧
      ((blockOf (physOf p1 5000)) = blockOf (physOf (setFld p1 (PLOT_CFG 0) PLOT_CFG_HEIGHT 1) 5000)) ∧
      (inOrder (setFld p1 (PLOT_CFG 0) PLOT_CFG_HEIGHT 1) ldp pp = true) ∧
      (sieveHolds (setFld p1 (PLOT_CFG 0) PLOT_CFG_HEIGHT 1) (k9 up) pp.n = false) ∧
      (unitGated (setFld p1 (PLOT_CFG 0) PLOT_CFG_HEIGHT 1) 5000 = false) ∧
      (portAllowed (setFld p1 (PLOT_CFG 0) PLOT_CFG_HEIGHT 1) ldp.u 5000 = false))) ∧
    (((findReq (gt p1) 6 = some ldp) ∧ (ldp.parts[0]? = some pp) ∧ (pp.ans = none) ∧ (selOf pp.addr = 1) ∧
      (homeCore pp.addr = some 5000) ∧ ((k9 up) = homeKey (gt p1) pp.addr) ∧
      ((blockOf (physOf p1 5000)) = blockOf (physOf (gt p1) 5000)) ∧ (inOrder (gt p1) ldp pp = true) ∧
      (sieveHolds (gt p1) (k9 up) pp.n = false) ∧ (blockGated (gt p1) (blockOf (physOf p1 5000)) = true) ∧
      (∀ h ∈ (gt p1).pwr.heldPkts, h.block ≠ (blockOf (physOf p1 5000))))) ∧
    (((flag (cup p1) GLB_STATUS GLB_STATUS_COMPUTE_UP = true) ∧ (∀ q, q < 16 → flag (cup p1) (LTN_CFG q) LTN_CFG_EN = false) ∧
      (isLoad ldp = true) ∧ (0 < 1664) ∧ (1 < 4) ∧ ((0, 1, true) ∈ pathOf (cup p1) (srcOf ldp.u) (0x8000 + 5000)))) ∧
    (((flag (cup p1) GLB_STATUS GLB_STATUS_COMPUTE_UP = true) ∧ (∀ q, q < 16 → flag (cup p1) (LTN_CFG q) LTN_CFG_EN = false) ∧
      (isLoad ldp = true) ∧ (0 < 1664) ∧ (7 < 24) ∧ ((cup p1).core.reqs = [ldp]) ∧ (ldp.parts = [pp]) ∧ (ldp.u < 25600) ∧
      (isSent (cup p1) 6 0 = false) ∧ (flitBuf (cup p1) 0 7 0 = []) ∧ (nodeAt (cup p1) 0 7 = some (srcOf ldp.u)))) ∧
    (((flag (bfd 0 7 [fl] (cup p1)) GLB_STATUS GLB_STATUS_COMPUTE_UP = true) ∧ (∀ x, x < 16 →
      flag (bfd 0 7 [fl] (cup p1)) (LTN_CFG x) LTN_CFG_EN = false) ∧ (0 < 1664) ∧ (1 < 4) ∧ (7 < 24) ∧
      (flitBuf (bfd 0 7 [fl] (cup p1)) 0 7 0 = [fl]) ∧ (fl.side = 3)) ∧ (∀ x v, x < 24 → v < 4 → x ≠ 7 ∨ v ≠ 0 →
      flitBuf (bfd 0 7 [fl] (cup p1)) 0 x v = []) ∧ ((routeOut (bfd 0 7 [fl] (cup p1)) 0 (hdrDst fl.data) = some 1) ∧
      (mget 0 (bfd 0 7 [fl] (cup p1)).net.owner (portKey 0 1 0) = 0) ∧
      ((flitBuf (bfd 0 7 [fl] (cup p1)) (linkTo 0 1).1 (linkTo 0 1).2 0).length < 8))) ∧
    ((((sg [.ctxEvent 3 1 15] p1).sync.signals = .ctxEvent 3 1 15 :: ([] : List Signal)) ∧
      (unitGated (sg [.ctxEvent 3 1 15] p1) 3 = false) ∧ ((ctx (sg [.ctxEvent 3 1 15] p1) 3 1).hold ≠ .event))) ∧
    (((sg [.cpMbx 3 63 31] p1).sync.signals = .cpMbx 3 63 31 :: ([] : List Signal))) ∧
    (((ms.sync.signals = .msix 1 2047 :: ([] : List Signal)) ∧ (hostReach ms 1 = true) ∧
      (flag ms (HOSTIF_PORT_STATUS 1) HOSTIF_PORT_STATUS_MSIX_EN = true) ∧ (mget false ms.host.funcMask 1 = false) ∧
      (mget false ms.host.unmasked (1 * 2048 + 2047) = true))) := ⟨by decide +kernel,
    by decide +kernel,
    by decide +kernel,
    by decide +kernel,
    by decide +kernel,
    by decide +kernel,
    ⟨by decide +kernel, fun x v hx hv => (by decide +kernel : ∀ x, x < 24 → ∀ v, v < 4 → x ≠ 7 ∨ v ≠ 0 →
      flitBuf (bfd 0 7 [fl] (cup p1)) 0 x v = []) x hx v hv, by decide +kernel⟩,
    by decide +kernel,
    by decide +kernel,
    by decide +kernel⟩
def prb (p : Nat) (s : State) : State := rset (rset (rset (rset s (LTN_CFG p) (fset (fset (fset (fset (fset 0 LTN_CFG_EN 1)
  LTN_CFG_ROUTER 0) LTN_CFG_PORT 7) LTN_CFG_OP_MASK 0xFFFF) LTN_CFG_VC_MASK 15)) (LTN_ADDR_LO p) 0) (LTN_ADDR_HI p)
  (BitVec.ofNat 64 (2 ^ 56 - 1))) (LTN_NODE p) 0
def lt : State := prb 15 (cup p1)
def hd : BitVec 256 := ((packetOf (cup p1) (.req 6 0)).getD (0, [], [])).1
/-- The premises of `Obligations.ProbesCountAndTrace` can be met. -/
theorem witness_ProbesCountAndTrace :
    (((masterOk (Master.host 1) = true) ∧ (15 < 16)) ∧ (Reaches (cup (hst 1 up)) (Master.host 1) (LTN_CFG 15)) ∧
      (Reaches (cup (hst 1 up)) (Master.host 1) (LTN_RING 15)) ∧ (mayAdmin (cup (hst 1 up)) (Master.host 1) = false)) ∧
    (((masterOk Master.mc = true) ∧ (15 < 16)) ∧ (Reaches up Master.mc (LTN_CFG 15)) ∧ (Reaches up Master.mc (LTN_RING 15)) ∧
      (mayAdmin up Master.mc = true)) ∧
    (((masterOk Master.mc = true) ∧ (15 < 16)) ∧ (Reaches up Master.mc (LTN_CFG 15)) ∧ (Reaches up Master.mc (LTN_RING 15)) ∧
      ((mayAdmin up Master.mc = true) ∧
      (ringFits (packW [(5, 12), (15, 56), (1, 63)]) (32 * ringLen (bitsOf (packW [(5, 12), (15, 56), (1, 63)]) 56 4)) =
      true))) ∧
    (((masterOk Master.mc = true) ∧ (15 < 16)) ∧ (Reaches up Master.mc (LTN_CFG 15)) ∧ (Reaches up Master.mc (LTN_RING 15)) ∧
      ((mayAdmin up Master.mc = true) ∧
      (ringFits (packW [(0xF000000, 12), (15, 56), (1, 63)]) (32 * ringLen (bitsOf (packW [(0xF000000, 12), (15, 56), (1,
      63)]) 56 4)) = false))) ∧
    (((masterOk Master.mc = true) ∧ (15 < 16)) ∧ (Reaches lt Master.mc (LTN_CFG 15)) ∧ (Reaches lt Master.mc (LTN_RING 15)) ∧
      ((0 < 1664) ∧ (7 < 24) ∧ (flag lt GLB_STATUS GLB_STATUS_COMPUTE_UP = true) ∧ (lt.net.pkts = []) ∧
      (lt.net.arrived = []) ∧ (packetOf lt (.req 6 0) = some (hd, ([] : List Byte), ([] : List Nat))) ∧
      ((0, 7, false) ∈ pathOf lt (bitsOf hd 32 16) (hdrDst hd)) ∧ (ltnMatch lt 15 0 7 false hd = true) ∧
      (flag lt (LTN_CFG 15) LTN_CFG_TRACE = false) ∧ (∀ q, q < 16 → q ≠ 15 →
      ltnMatch lt q 0 7 false hd = false))) := ⟨⟨by decide +kernel, reaches_of (by decide +kernel), reaches_of (by
      decide +kernel), by decide +kernel⟩,
    ⟨by decide +kernel, reaches_of (by decide +kernel), reaches_of (by decide +kernel), by decide +kernel⟩,
    ⟨by decide +kernel, reaches_of (by decide +kernel), reaches_of (by decide +kernel), by decide +kernel⟩,
    ⟨by decide +kernel, reaches_of (by decide +kernel), reaches_of (by decide +kernel), by decide +kernel⟩,
    ⟨by decide +kernel, reaches_of (by decide +kernel), reaches_of (by decide +kernel), by decide +kernel⟩⟩

end Sys2Proof.Tests.Witness08

namespace Sys2Proof.Tests.Witness09
open Sys2Proof Sys2Proof.Machine Sys2Proof.Tests
set_option Elab.async false
set_option maxRecDepth 100000
set_option synthInstance.maxSize 2000
set_option synthInstance.maxHeartbeats 200000

def up : State := { State.reset with mc := { State.reset.mc with pwrGood := true, held := false } }
def mcOn : State := { (setFld State.reset MC_STATUS MC_STATUS_STATE 1) with mc := { State.reset.mc with pwrGood := true } }
def sv : State := { up with pwr := { up.pwr with saved := some (700, 12, 13) } }
def cold : State := { State.reset with pwr := { State.reset.pwr with saved := some (700, 12, 13) } }
def offd : State := { up with mc := { up.mc with compOff := true } }
def trp : State := { offd with pwr := { up.pwr with tripped := true } }
def rel : State := { mcOn with pwr := { mcOn.pwr with saved := some (700, 12, 13) } }
def shd : State := setFld (setFld up MC_STATUS MC_STATUS_CC_RUNNING 1) GLB_STATUS GLB_STATUS_SHADOW_VALID 1
/-- The premises of `Obligations.PowerAndResets` can be met. -/
theorem witness_PowerAndResets :
    (((cold.mc.pwrGood = false) ∧ (cold.mc.held = true))) ∧
    ((up.mc.pwrGood = true)) ∧
    (((up.mc.pwrGood = true) ∧ (99 < 100))) ∧
    (((up.mc.pwrGood = true) ∧ (100 ≤ 100) ∧ (100 < 1000))) ∧
    (((up.mc.pwrGood = true) ∧ (1000 ≤ 1000))) ∧
    (((startUpOk ({ tests := [], hg := [3], th := [] } : StartUp) = true) ∧ (rel.mc.pwrGood = true) ∧ (rel.mc.held = true) ∧
      (rel.mc.compOff = false) ∧ (rel.mc.refLost = false) ∧ (fld rel MC_STATUS MC_STATUS_STATE = 1))) ∧
    (((shd.mc.held = false) ∧ (shd.mc.compOff = false) ∧ (flag shd MC_STATUS MC_STATUS_CC_RUNNING = true) ∧
      (flag shd GLB_STATUS GLB_STATUS_SHADOW_VALID = true) ∧ (flag shd GLB_STATUS GLB_STATUS_COMPUTE_UP = false))) ∧
    ((up.mc.refLost = false)) ∧
    (((startUpOk ({ tests := [], hg := [3], th := [] } : StartUp) = true) ∧
      (({ mcOn with mc := { mcOn.mc with refLost := true } }).mc.refLost = true))) := by decide +kernel
def cup : State := setFld up GLB_STATUS GLB_STATUS_COMPUTE_UP 1
def pov : State := rset (rset cup PACE_OVR_COUNT 0x500000007) PACE_STATUS 0xFFF00F05
def ok (s : State) (m : Master) : Bool := masterOk m && mayAdmin s m && !portAsleep s m && flag s GLB_STATUS
  GLB_STATUS_COMPUTE_UP
def hs : Master := .host 1
def own : State := rset (setFld (setFld pov (HOSTIF_PORT_STATUS 0) HOSTIF_PORT_STATUS_LINK_UP 1) (HOSTIF_PORT_STATUS 0)
  HOSTIF_PORT_STATUS_CFG_READY 1) HOSTIF_OWNER (packW [(2, 0), (1, 2)])
def ctxOn (u c : Nat) (s : State) : State := setCtx s u c { ctx s u c with st := .ready, pc := 9 }
def drv : State := { up with loam := { up.loam with driven := [(5, true)] } }
def drv2 : State := { drv with loam := { drv.loam with vccio := [(5, 1)] } }
def drv3 : State := setFld { drv2 with loam := { drv2.loam with driven := [(5, true)] } } (LOAM_RGN_STATUS 5)
  LOAM_RGN_STATUS_STATE 2
/-- The premises of `Obligations.RegistersSuppliesAndCables` can be met. -/
theorem witness_RegistersSuppliesAndCables :
    (((ok pov Master.mc = true) ∧ ((100 : W64).toNat < 2 ^ 32) ∧ ((100 : W64).toNat % 2 ^ 17 ≥ 100) ∧
      ((100 : W64).toNat % 2 ^ 17 ≤ 100000))) ∧
    (((ok pov Master.mc = true) ∧ ((99 : W64).toNat < 2 ^ 32) ∧
      ((99 : W64).toNat % 2 ^ 17 < 100 ∨ (99 : W64).toNat % 2 ^ 17 > 100000))) ∧
    ((ok pov Master.mc = true)) ∧
    (((ok pov Master.mc = true) ∧ ((0xFFFFFFFF : W64).toNat < 2 ^ 32))) ∧
    (((3 < 25600) ∧ (2 < 8) ∧ ((5 : W64).toNat < 2 ^ 32) ∧
      ((ctx (ctxOn 3 2 pov) 3 2).st = .ready ∨ (ctx (ctxOn 3 2 pov) 3 2).st = .waiting))) ∧
    (((masterOk (Master.host 1) = true) ∧ (mayAdmin pov (Master.host 1) = false)) ∧ (∀ u c, (Master.host 1) ≠ .unit u c)) ∧
    (((5 < 16) ∧ (2 < 3) ∧ (1 < 4) ∧ (mget 3 drv.loam.vccio 5 = 3 ∨ mget 3 drv.loam.vccio 5 = 2))) ∧
    (((5 < 16) ∧ (0 < 3) ∧ (2 < 4) ∧ (mget 3 drv3.loam.vccio 5 ≠ 3) ∧ (mget 3 drv3.loam.vccio 5 ≠ 0) ∧
      (regionRunning drv3 5 = true) ∧ (mget false drv3.loam.driven 5 = true))) ∧
    (((5 < 16) ∧ (mget 3 drv2.loam.vccio 5 ≠ 3))) ∧
    ((3 < 8)) := ⟨by decide +kernel,
    by decide +kernel,
    by decide +kernel,
    by decide +kernel,
    by decide +kernel,
    ⟨by decide +kernel, by simp⟩,
    by decide +kernel,
    by decide +kernel,
    by decide +kernel,
    by decide +kernel⟩

end Sys2Proof.Tests.Witness09

namespace Sys2Proof.Tests.Witness09b
open Sys2Proof Sys2Proof.Machine Sys2Proof.Tests
set_option Elab.async false
set_option maxRecDepth 100000
set_option synthInstance.maxSize 2000
set_option synthInstance.maxHeartbeats 200000

def up : State := { State.reset with mc := { State.reset.mc with pwrGood := true, held := false } }
def rl (b : Nat) : List Nat := (List.range 1664).map fun i => 1000 + (i * 7 + b) % 1500
def hgs : State := { up with avl := { up.avl with hgFailed := [(0, true)] }, pace := { up.pace with hg := [(5, 77), (6, 12)] } }
def pc (v : Nat) (s : State) : State := rset s PACE_CFG (BitVec.ofNat 64 v)
def ms : State := pc 0x100 up
def cup : State := setFld (setFld up GLB_STATUS GLB_STATUS_COMPUTE_UP 1) GLB_STATUS GLB_STATUS_HG_CAL 1
def mon : State := { pc 0x100 cup with pace := { cup.pace with sched := [⟨99, 5, .internal⟩] } }
def ctxOn (u c : Nat) (s : State) : State := setCtx s u c { ctx s u c with st := .ready, pc := 9 }
def inp : State := pc 0x101 cup
def inp2 : State := { inp with pace := { inp.pace with lastEdge := some 500, lastFire := some 400, sched := [⟨99, 5, .internal⟩] } }
def inp3 : State := setFld (setFld inp2 PACE_CFG PACE_CFG_FALLBACK 1) PACE_IN_PERIOD PACE_IN_PERIOD_PERIOD 40000
def bk : State := setFld (pc 0x149 cup) PACE_STATUS PACE_STATUS_ROLE_NOW 2
/-- The premises of `Obligations.PaceRegistersAndItsInput` can be met. -/
theorem witness_PaceRegistersAndItsInput :
    (((wfHourglassUpdate (rl 3) = true) ∧ (up.mc.held = false) ∧ (up.mc.compOff = false))) ∧
    (((up.mc.held = false) ∧ (up.mc.compOff = false) ∧ (hgCal up = false))) ∧
    (((masterOk Master.mc = true) ∧ (mayAdmin cup Master.mc = true) ∧ (0x101 < 2 ^ 32) ∧
      (bitsOf (BitVec.ofNat 64 0x101) 0 2 ≤ 1) ∧ (bitsOf (BitVec.ofNat 64 0x101) 2 2 ≠ 3) ∧
      (bitsOf (BitVec.ofNat 64 0x101) 2 2 = 2 → bitsOf (BitVec.ofNat 64 0x101) 4 2 ≠ 0) ∧ (paceOn cup = true →
      0x101 % 64 = bitsOf (rget cup PACE_CFG) 0 6))) ∧
    (((masterOk Master.mc = true) ∧ (mayAdmin mon Master.mc = true) ∧ (0x0002 < 2 ^ 32) ∧
      (1 < bitsOf (BitVec.ofNat 64 0x0002) 0 2 ∨ bitsOf (BitVec.ofNat 64 0x0002) 2 2 = 3))) ∧
    (((masterOk Master.mc = true) ∧ (mayAdmin mon Master.mc = true) ∧ (100 < 2 ^ 32) ∧ (100 ≤ 100 % 2 ^ 17) ∧
      (100 % 2 ^ 17 ≤ 100000))) ∧
    (((masterOk Master.mc = true) ∧ (mayAdmin mon Master.mc = true) ∧ ((2 ^ 17 + 100001) < 2 ^ 32) ∧
      ((2 ^ 17 + 100001) % 2 ^ 17 < 100 ∨ 100000 < (2 ^ 17 + 100001) % 2 ^ 17))) ∧
    (((masterOk Master.mc = true) ∧ (mayAdmin mon Master.mc = true) ∧ (65535 < 2 ^ 32) ∧
      (mon.pace.buildRate ≤ 65535 % 65536))) ∧
    (((masterOk Master.mc = true) ∧ (mayAdmin ({ mon with pace := { mon.pace with buildRate := 900 } }) Master.mc = true) ∧
      (65536 < 2 ^ 32) ∧ (65536 % 65536 < ({ mon with pace := { mon.pace with buildRate := 900 } }).pace.buildRate))) ∧
    (((masterOk Master.mc = true) ∧ (mayAdmin (setFld mon PACE_OVR_PTR PACE_OVR_PTR_TAIL 7) Master.mc = true) ∧
      (ringFits (0x8300000000010000 : W64) (16 * ringLen (bitsOf (0x8300000000010000 : W64) 56 4)) = true))) ∧
    (((masterOk Master.mc = true) ∧ (mayAdmin (setFld mon PACE_OVR_PTR PACE_OVR_PTR_TAIL 7) Master.mc = true) ∧
      (ringFits (0xFFFFFFFFFFFFFFFF : W64) (16 * ringLen (bitsOf (0xFFFFFFFFFFFFFFFF : W64) 56 4)) = false))) ∧
    (((masterOk (Master.host 0) = true) ∧ (mayAdmin mon (Master.host 0) = false)) ∧ (∀ u c, (Master.host 0) ≠ .unit u c) ∧
      (0xFFFFFFFF < 2 ^ 32)) ∧
    (((25599 < 25600) ∧ (7 < 8) ∧ (0xFFFFFFFF < 2 ^ 32) ∧
      ((ctx (ctxOn 25599 7 mon) 25599 7).st = .ready ∨ (ctx (ctxOn 25599 7 mon) 25599 7).st = .waiting))) ∧
    (((true ≠ inp.pace.inHigh) ∧ (inp.pace.inChange ≤ 500) ∧ (199 < 200))) ∧
    (((true ≠ inp.pace.inHigh) ∧ (inp.pace.inChange + 200 ≤ 500) ∧ (200 ≤ 200) ∧ (paceOn inp = true) ∧ (paceSource inp = 1) ∧
      (roleNow inp ≠ 1) ∧ (true = !flag inp PACE_CFG PACE_CFG_EDGE) ∧ (inp.pace.lastEdge = none) ∧ (roleNow inp = 0) ∧
      (hgCal inp = true) ∧ (inp.pace.sched = []) ∧ (inp.pace.lastFire = none))) ∧
    (((true ≠ inp2.pace.inHigh) ∧ (inp2.pace.inChange + 200 ≤ 10499) ∧ (200 ≤ 200) ∧ (paceOn inp2 = true) ∧
      (paceSource inp2 = 1) ∧ (roleNow inp2 ≠ 1) ∧ (true = !flag inp2 PACE_CFG PACE_CFG_EDGE) ∧
      (inp2.pace.lastEdge = some 500) ∧ (10499 < 500 + 10000))) ∧
    (((isMaster inp = true) ∧ (paceSource inp = 1) ∧ (flag inp PACE_STATUS PACE_STATUS_SOURCE_LOST = false))) ∧
    (((paceOn bk = true) ∧ (roleNow bk = 2) ∧ (paceSource bk = 1) ∧
      (flag bk PACE_STATUS PACE_STATUS_SOURCE_LOST = false))) := ⟨by decide +kernel,
    by decide +kernel,
    by decide +kernel,
    by decide +kernel,
    by decide +kernel,
    by decide +kernel,
    by decide +kernel,
    by decide +kernel,
    by decide +kernel,
    by decide +kernel,
    ⟨by decide +kernel, by simp, by decide +kernel⟩,
    by decide +kernel,
    by decide +kernel,
    by decide +kernel,
    by decide +kernel,
    by decide +kernel,
    by decide +kernel⟩
def gl : State := { pc 0x100 cup with pace := { cup.pace with sched := [⟨99, 5, .internal⟩] } }
def cw (u c : Nat) (h : Hold) (s : State) : State := setCtx s u c { ctx s u c with st := .waiting, hold := h, pc := 9 }
def gl2 : State := setFld (cw 3 1 .nextGlint (cw 4 2 (.glint 5) (cw 4 3 (.glint 6) gl))) PACE_CFG PACE_CFG_OUT_EN 1
def ups (p v : Nat) (s : State) : State := setFld (setFld s (CYUST_PORT_CTRL p) CYUST_PORT_CTRL_EN 1) (CYUST_PORT_STATUS p)
  CYUST_PORT_STATUS_STATE v
def lk : State := ups 0 3 (ups 2 4 (ups 5 3 cup))
def mk1 : Marker := { term := 3, slot := 9, fire := 1000, period := 5000, module := 4, group := 2 }
def fo : State := setFld (setFld (pc 0x104 lk) PACE_STATUS PACE_STATUS_ROLE_NOW 1) PACE_STATUS PACE_STATUS_SLOT_SYNC 1
def fo2 : State := { fo with pace := { fo.pace with everLocked := true, issued := true } }
def ml : State := pc 0x100 lk
def bk2 : State := setFld (pc 0x148 lk) PACE_STATUS PACE_STATUS_ROLE_NOW 2
def ak : State := { setFld fo PACE_STATUS PACE_STATUS_SLOT_SYNC 0 with pace := { fo.pace with asked := some 77 } }
def ak2 : State := { ak with csr := ak.csr }
/-- The premises of `Obligations.GlintsMarkersAndTakeover` can be met. -/
theorem witness_GlintsMarkersAndTakeover :
    (((gl2.pace.sched = (⟨99, 5, .internal⟩ : Sched) :: ([] : List Sched)) ∧ (hgCal gl2 = true))) ∧
    (((0 < 8) ∧ (markerOk mk1 = true) ∧ (portUp ({ lk with pace := { lk.pace with markers := [(3, 9)] } }) 0 = true) ∧
      (({ lk with pace := { lk.pace with markers := [(3, 9)] } }).pace.markers.contains (mk1.term, mk1.slot) = true))) ∧
    (((0 < 8) ∧ (markerOk mk1 = true) ∧ (portUp lk 0 = true) ∧ (lk.pace.markers.contains (mk1.term, mk1.slot) = false) ∧
      (paceOn lk = false))) ∧
    (((0 < 8) ∧ (markerOk mk1 = true) ∧ (portUp fo 0 = true) ∧ (fo.pace.markers.contains (mk1.term, mk1.slot) = false) ∧
      (paceOn fo = true) ∧ (roleNow fo ≠ 0) ∧ (fo.pace.termSeen ≤ mk1.term) ∧
      (flag fo PACE_STATUS PACE_STATUS_SLOT_SYNC = true))) ∧
    ((isMaster ml = true)) ∧
    (((0 < 8) ∧ (markerOk mk1 = true) ∧ (portUp fo2 0 = true) ∧
      (fo2.pace.markers.contains (mk1.term, 2 ^ 40 + mk1.fire) = false) ∧ (paceOn fo2 = true) ∧ (roleNow fo2 ≠ 0) ∧
      (fo2.pace.termSeen ≤ mk1.term))) ∧
    (((paceOn bk2 = true) ∧ (roleNow bk2 = 2))) ∧
    (((ak2.pace.asked = some 77) ∧ (needsSync ak2 = true))) ∧
    (((511 < 512) ∧ (isMaster ml = true))) ∧
    ((((2 ^ 64 - 1) < 2 ^ 64) ∧ (255 < 256) ∧ (needsSync ak2 = true) ∧ (ak2.pace.asked.isSome = true))) := by decide +kernel

end Sys2Proof.Tests.Witness09b

namespace Sys2Proof.Tests.Witness10
open Sys2Proof Sys2Proof.Machine Sys2Proof.Tests
set_option Elab.async false
set_option maxRecDepth 100000
set_option synthInstance.maxSize 2000
set_option synthInstance.maxHeartbeats 200000

def up : State := { State.reset with mc := { State.reset.mc with pwrGood := true, held := false } }
def cup : State := setFld up GLB_STATUS GLB_STATUS_COMPUTE_UP 1
def wt (i : Nat) (v : W64) (t : Option Nat) (m r : Nat) : Waiter := ⟨i, v, t, m, r⟩
def so : State := { rset (setFld cup (SYNC_CTRL 7) SYNC_CTRL_WAITERS 2) (SYNC_VALUE 7) 100 with sync := { cup.sync with waiters := [wt 7 105 none 3 4, wt 7 200 none 5 6, wt 8 1 none 5 7] } }
def som : State := setFld so (SYNC_CTRL 7) SYNC_CTRL_OWNED 1
def sof : State := { so with sync := { so.sync with waiters := List.replicate 16384 (wt 7 200 none 5 6) } }
def own : State := rset (setFld (setFld so (HOSTIF_PORT_STATUS 0) HOSTIF_PORT_STATUS_LINK_UP 1) (HOSTIF_PORT_STATUS 0)
  HOSTIF_PORT_STATUS_CFG_READY 1) HOSTIF_OWNER (packW [(2, 0), (1, 2)])
def rq (op : ReqOp) : Req :=
  { tag := 6, u := 3, c := 2, pc := 4, op := op, dst := none, pdst := 0, tracked := true, parts := [⟨0, 0, none⟩], chan := false, pos := 0, cnt := 0, stamp := 0, orphan := false }
def wr (r : Req) (s : State) : State :=
  { s with core := { s.core with reqs := [{ r with tag := 77, op := .load 0 8 false }, r] } }
def pre (s : State) (r : Req) (ref : Nat) : Bool := msgReq s 6 == some r && refLocal s ref && !syncAbandoned s (refObj ref)
def rw : Req := { rq (.syncWait 7 50) with dst := some (.s 9) }
def wk : State := { setCtx (wr rw so) 3 2 { ctx so 3 2 with st := .waiting, hold := .sync 6, pc := 5 } with sync := { so.sync with wakes := [(6, 0x0501)] } }
def wk0 : State := { wr { rw with dst := some (.s 0) } wk with now := wk.now }
def rt : State := { wr (rq (.syncWait 7 50)) so with now := 30000, sync := { so.sync with retry := [(6, 20000)] } }
def far : Nat := 2 ^ 25 + 3 * 2 ^ 16 + 7
def rt2 : State := wr (rq (.syncWait far 50)) rt
def nw : State := { cup with now := 5 }
def lkh : State := setFld (rset own (LOCK 255) 2) (LOCK 254) LOCK_HOLDER 9
/-- The premises of `Obligations.SyncObjectsAndLocks` can be met. -/
theorem witness_SyncObjectsAndLocks :
    (((511 < 512) ∧ (7 < 65536) ∧ (syncAbandoned so 7 = false) ∧
      ((105, 0) = (if syncVal so 7 + (5 : W64).toNat < 2 ^ 64 then (syncVal so 7 + (5 : W64).toNat, 0) else (2 ^ 64 - 1,
      0x0507))))) ∧
    (((511 < 512) ∧ (7 < 65536) ∧ (syncAbandoned so 7 = false) ∧ (syncMay so 7 .remote = true) ∧
      (syncVal so 7 ≤ (200 : W64).toNat))) ∧
    (((511 < 512) ∧ (7 < 65536) ∧ (syncAbandoned so 7 = false) ∧ (syncMay so 7 .remote = true) ∧
      ((99 : W64).toNat < syncVal so 7))) ∧
    (((511 < 512) ∧ (7 < 65536) ∧ (syncAbandoned som 7 = false) ∧ (syncMay som 7 .remote = false))) ∧
    (((511 < 512) ∧ (7 < 65536) ∧ (syncAbandoned so 7 = false) ∧ ((100 : W64).toNat ≤ syncVal so 7))) ∧
    (((511 < 512) ∧ (7 < 65536) ∧ (syncAbandoned so 7 = false) ∧ (syncVal so 7 < (101 : W64).toNat) ∧
      (so.sync.waiters.length < 16384))) ∧
    (((511 < 512) ∧ (7 < 65536) ∧ (syncAbandoned sof 7 = false) ∧ (syncVal sof 7 < (101 : W64).toNat) ∧
      (16384 ≤ sof.sync.waiters.length))) ∧
    (((511 < 512) ∧ (7 < 65536) ∧ (syncAbandoned sof 7 = false))) ∧
    (((wfSyncObjectAdd (.bar2 1 0x70 ([5, 0, 0, 0] : List Byte)) = true) ∧ (mget false own.host.d3 1 = false) ∧
      (ownerHost own ≠ some 1 ∨ 0x70 % 16 ≠ 0 ∨ ([5, 0, 0, 0] : List Byte).length ≠ 8))) ∧
    (((wfSyncObjectAdd (.bar2 1 0x70 ([5, 1, 0, 0, 0, 0, 0, 0] : List Byte)) = true) ∧ (mget false own.host.d3 1 = false) ∧
      (ownerHost own = some 1) ∧ (0x70 % 16 = 0) ∧ (([5, 1, 0, 0, 0, 0, 0, 0] : List Byte).length = 8) ∧
      (syncAbandoned own (0x70 / 16) = false) ∧
      (syncVal own (0x70 / 16) + leNat ([5, 1, 0, 0, 0, 0, 0, 0] : List Byte) < 2 ^ 64))) ∧
    (((pre (wr (rq (.syncAdd 7 5)) so) (rq (.syncAdd 7 5)) 7 = true) ∧ ((rq (.syncAdd 7 5)).op = .syncAdd 7 (5 : W64)) ∧
      (storesDone (wr (rq (.syncAdd 7 5)) so) (rq (.syncAdd 7 5)) = true) ∧
      (syncMay (wr (rq (.syncAdd 7 5)) so) (refObj 7) (askerOf (wr (rq (.syncAdd 7 5)) so) (rq (.syncAdd 7 5)).u) = true) ∧
      (syncVal (wr (rq (.syncAdd 7 5)) so) (refObj 7) + (5 : W64).toNat < 2 ^ 64))) ∧
    (((pre (wr (rq (.syncSet 7 500)) so) (rq (.syncSet 7 500)) 7 = true) ∧
      ((rq (.syncSet 7 500)).op = .syncSet 7 (500 : W64)) ∧
      (storesDone (wr (rq (.syncSet 7 500)) so) (rq (.syncSet 7 500)) = true) ∧
      (syncMay (wr (rq (.syncSet 7 500)) so) (refObj 7) (askerOf (wr (rq (.syncSet 7 500)) so) (rq (.syncSet 7 500)).u) =
      true) ∧ (syncVal (wr (rq (.syncSet 7 500)) so) (refObj 7) ≤ (500 : W64).toNat))) ∧
    (((pre (wr (rq (.syncTest 7 500)) so) (rq (.syncTest 7 500)) 7 = true) ∧
      ((rq (.syncTest 7 500)).op = .syncTest 7 (500 : W64)))) ∧
    (((pre (wr (rq (.syncWait 7 50)) so) (rq (.syncWait 7 50)) 7 = true) ∧
      ((rq (.syncWait 7 50)).op = .syncWait 7 (50 : W64)) ∧ (waitServed (wr (rq (.syncWait 7 50)) so) 6 = false) ∧
      ((wr (rq (.syncWait 7 50)) so).sync.retry = []))) ∧
    (((wk.sync.wakes = [(6, (0x0501 : W64))]) ∧ (findReq wk 6 = some rw) ∧ (rw.orphan = false) ∧ (rw.dst = some (.s 9)) ∧
      ((ctx wk rw.u rw.c).hold = .sync 6) ∧ (rw.tag = 6) ∧ ((ctx wk rw.u rw.c).st = .waiting) ∧
      (inMesh wk (.wake 6 (0x0501 : W64)) = false) ∧ (unitGated wk rw.u = false) ∧
      (olderWrite wk rw.u rw.c (.s 9) 6 = false) ∧ (∀ v ∈ wk.core.vecs, v.soon = false))) ∧
    (((({ rt with now := 29999 }).sync.retry = [(6, 20000)]) ∧
      (findReq ({ rt with now := 29999 }) 6 = some (rq (.syncWait 7 50))) ∧
      ((rq (.syncWait 7 50)).op = .syncWait 7 (50 : W64)) ∧ (paceTime ({ rt with now := 29999 }) < 20000 + 10000))) ∧
    (((rt.sync.retry = [(6, 20000)]) ∧ (findReq rt 6 = some (rq (.syncWait 7 50))) ∧
      ((rq (.syncWait 7 50)).op = .syncWait 7 (50 : W64)) ∧ (20000 + 10000 ≤ paceTime rt) ∧ (refLocal rt 7 = true) ∧
      ((50 : W64).toNat ≤ syncVal rt (refObj 7)) ∧ (syncAbandoned rt (refObj 7) = false))) ∧
    (((rt2.sync.retry = [(6, 20000)]) ∧ (findReq rt2 6 = some (rq (.syncWait far 50))) ∧
      ((rq (.syncWait far 50)).op = .syncWait far (50 : W64)) ∧ (20000 + 10000 ≤ paceTime rt2) ∧
      (refLocal rt2 far = false))) ∧
    (((masterOk (Master.unit 25601 1) = true) ∧ (65535 < 65536) ∧ (63 < 64) ∧ (syncCtl nw 65535 SYNC_CTRL_WAITERS = 0) ∧
      (isSupervisor (Master.unit 25601 1) = true ∨ (Master.unit 25601 1) = .mc)) ∧
      (Reaches nw (Master.unit 25601 1) (SYNC_VALUE 65535))) ∧
    (((masterOk Master.mc = true) ∧ (65535 < 65536) ∧ (63 < 64) ∧ (syncCtl nw 65535 SYNC_CTRL_WAITERS = 0) ∧
      (mayMsg nw Master.mc = true)) ∧ (Reaches nw Master.mc (SYNC_CTRL 65535)) ∧ (syncAbandoned nw 65535 = false)) ∧
    (((masterOk Master.mc = true) ∧ (7 < 65536)) ∧ (Reaches so Master.mc (SYNC_VALUE 7)) ∧
      (syncCtl so 7 SYNC_CTRL_WAITERS ≠ 0)) ∧
    (((masterOk (Master.host 0) = true) ∧ (255 < 256)) ∧ (Reaches own (Master.host 0) (LOCK 255)) ∧
      (sideReads own (Master.host 0) = false)) ∧
    (((masterOk (Master.host 1) = true) ∧ (255 < 256)) ∧ (Reaches own (Master.host 1) (LOCK 255)) ∧
      ((sideReads own (Master.host 1) = true) ∧ (fld own (LOCK 255) LOCK_HOLDER = 0))) ∧
    (((masterOk (Master.host 1) = true) ∧ (254 < 256)) ∧ (Reaches lkh (Master.host 1) (LOCK 254)) ∧
      ((sideReads lkh (Master.host 1) = true) ∧ (fld lkh (LOCK 254) LOCK_HOLDER ≠ 0))) ∧
    (((masterOk (Master.host 1) = true) ∧ (255 < 256)) ∧ (Reaches lkh (Master.host 1) (LOCK 255)) ∧
      ((mayMsg lkh (Master.host 1) = true) ∧ (fld lkh (LOCK 255) LOCK_HOLDER = srcOfMaster (Master.host 1)) ∧
      (flag lkh (LOCK 255) LOCK_ABANDONED = false))) ∧
    (((masterOk (Master.host 1) = true) ∧ (254 < 256)) ∧ (Reaches lkh (Master.host 1) (LOCK 254)) ∧
      ((mayMsg lkh (Master.host 1) = true) ∧
      (fld lkh (LOCK 254) LOCK_HOLDER ≠ srcOfMaster (Master.host 1) ∨ flag lkh (LOCK 254) LOCK_ABANDONED = true))) ∧
    (((masterOk Master.mc = true) ∧ (255 < 256)) ∧ (Reaches (setFld lkh (LOCK 255) LOCK_ABANDONED 1) Master.mc (LOCK 255)) ∧
      (mayMsg (setFld lkh (LOCK 255) LOCK_ABANDONED 1) Master.mc = true)) := ⟨by decide +kernel,
    by decide +kernel,
    by decide +kernel,
    by decide +kernel,
    by decide +kernel,
    by decide +kernel,
    by decide +kernel,
    by decide +kernel,
    by decide +kernel,
    by decide +kernel,
    by decide +kernel,
    by decide +kernel,
    by decide +kernel,
    by decide +kernel,
    by decide +kernel,
    by decide +kernel,
    by decide +kernel,
    by decide +kernel,
    ⟨by decide +kernel, reaches_of (by decide +kernel)⟩,
    ⟨by decide +kernel, reaches_of (by decide +kernel), by decide +kernel⟩,
    ⟨by decide +kernel, reaches_of (by decide +kernel), by decide +kernel⟩,
    ⟨by decide +kernel, reaches_of (by decide +kernel), by decide +kernel⟩,
    ⟨by decide +kernel, reaches_of (by decide +kernel), by decide +kernel⟩,
    ⟨by decide +kernel, reaches_of (by decide +kernel), by decide +kernel⟩,
    ⟨by decide +kernel, reaches_of (by decide +kernel), by decide +kernel⟩,
    ⟨by decide +kernel, reaches_of (by decide +kernel), by decide +kernel⟩,
    ⟨by decide +kernel, reaches_of (by decide +kernel), by decide +kernel⟩⟩
def byt (n : Nat) : List Byte := (List.range n).map fun i => BitVec.ofNat 8 (i * 3 + 1)
def ms : Req := { rq (.mbxSend 63 31 100) with parts := [⟨0x8000, 64, some (.bytes (byt 64) [])⟩, ⟨0x8040, 36, some (.bytes (byt 36) [])⟩, ⟨0, 0, none⟩] }
def mb : State := setFld (setFld (setFld (rset (wr ms cup) (MBX_HDR 63) 0xFFFFFFFFFFFFFFFC) (MBX_HDR 63) MBX_HDR_SEQ 65535)
  (MBX_HDR 63) MBX_HDR_STATE 0) (MBX_CFG 63) MBX_CFG_RECEIVER 1
def mb2 : State := setFld mb (MBX_HDR 63) MBX_HDR_STATE 3
def md : Req := rq (.mbxWdraw 63)
def mw : State := setFld (setFld (wr md cup) (MBX_HDR 63) MBX_HDR_STATE 2) (MBX_HDR 63) MBX_HDR_SRC (srcOf 3)
def mo : State := { rset (setFld (setFld own (MBX_CFG 5) MBX_CFG_RECEIVER 8) (MBX_CFG 6) MBX_CFG_RECEIVER 2) (mbxBodyWord 5 59) 77 with now := 20000000 }
def mst (j st src : Nat) (s : State) : State := setFld (setFld s (MBX_HDR j) MBX_HDR_STATE st) (MBX_HDR j) MBX_HDR_SRC src
def rqs : Req := rq (.qSubmit 65535 0x123456789)
def qo : State := setFld (setFld (setFld (setFld (setFld (rset (wr rqs cup) (Q_BASE 65535) 0) (Q_BASE 65535) Q_BASE_LOG_SIZE
  4) (Q_BASE 65535) Q_BASE_BASE 0x4000) (Q_CFG 65535) Q_CFG_STATE 1) (Q_PTR 65535) Q_PTR_HEAD 3) (Q_PTR 65535) Q_PTR_TAIL 15
def qoc : State := setFld qo (Q_CFG 65535) Q_CFG_CORE_SUBMIT 1
def plt (s : State) : State := setFld (setFld (setFld (setFld (setFld (setFld s (PLOT_CFG 0) PLOT_CFG_ROW0 0) (PLOT_CFG 0)
  PLOT_CFG_COL0 0) (PLOT_CFG 0) PLOT_CFG_HEIGHT 200) (PLOT_CFG 0) PLOT_CFG_WIDTH 128) (PLOT_CFG 0) PLOT_CFG_VALID 1)
  (PLOT_STATUS 0) PLOT_STATUS_STATE 2
def qop : State := plt qoc
def qb : State := setFld (setFld (setFld (setFld own (Q_BASE 5) Q_BASE_LOG_SIZE 4) (Q_BASE 5) Q_BASE_BASE 0x4000) (Q_CFG 5)
  Q_CFG_STATE 1) (Q_PTR 5) Q_PTR_HEAD 3
def qv : State := { qb with sync := { qb.sync with qpend := [⟨5, 0x777, none⟩] } }
def rqt : Req := rq (.qTake 65535)
def qt : State := wr rqt (setFld qop (Q_CFG 65535) Q_CFG_CORE_TAKE 1)
def qth : State := setFld (setFld (setFld (setFld qt (Q_BASE 65535) Q_BASE_BASE (2 ^ 45)) (HOSTIF_PORT_STATUS 0)
  HOSTIF_PORT_STATUS_LINK_UP 1) (HOSTIF_PORT_STATUS 0) HOSTIF_PORT_STATUS_BME 1) (Q_PTR 65535) Q_PTR_HEAD 15
def qth2 : State := { setFld qth (Q_PTR 65535) Q_PTR_TAIL 3 with host := { qth.host with inReset := [] } }
/-- The premises of `Obligations.MailboxesAndQueues` can be met. -/
theorem witness_MailboxesAndQueues :
    (((msgReq mb 6 = some ms) ∧ (ms.op = .mbxSend 63 31 100) ∧ (63 < 64) ∧ (31 < 32) ∧ (storesDone mb ms = true) ∧
      (gather ms.parts.dropLast = ((byt 64 ++ byt 36), [], none)) ∧ ((byt 64 ++ byt 36).length ≤ 480) ∧
      (mbxState mb 63 = 0))) ∧
    (((msgReq mb2 6 = some ms) ∧ (ms.op = .mbxSend 63 31 100) ∧ (63 < 64) ∧ (31 < 32) ∧ (storesDone mb2 ms = true) ∧
      (gather ms.parts.dropLast = ((byt 64 ++ byt 36), [], none)) ∧ ((byt 64 ++ byt 36).length ≤ 480) ∧
      (mbxState mb2 63 ≠ 0))) ∧
    (((msgReq mw 6 = some md) ∧ (md.op = .mbxWdraw 63) ∧ (63 < 64) ∧ (mbxState mw 63 = 2) ∧ (mbxSrc mw 63 = srcOf md.u))) ∧
    (((msgReq (setFld mw (MBX_HDR 63) MBX_HDR_STATE 1) 6 = some md) ∧ (md.op = .mbxWdraw 63) ∧ (63 < 64) ∧
      (mbxState (setFld mw (MBX_HDR 63) MBX_HDR_STATE 1) 63 ≠ 2))) ∧
    (((masterOk (Master.host 1) = true) ∧ (5 < 64)) ∧ (Reaches mo (Master.host 1) (MBX_PORT 5)) ∧
      (Reaches mo (Master.host 1) (MBX_DB 5)) ∧ ((isReceiver mo 5 (Master.host 1) = false) ∧
      (sideReads mo (Master.host 1) = true) ∧ (mbxState mo 5 = 0))) ∧
    (((masterOk (Master.host 1) = true) ∧ (6 < 64)) ∧ (Reaches (mst 6 2 9 mo) (Master.host 1) (MBX_PORT 6)) ∧
      (Reaches (mst 6 2 9 mo) (Master.host 1) (MBX_DB 6)) ∧ ((isReceiver (mst 6 2 9 mo) 6 (Master.host 1) = true) ∧
      (mbxState (mst 6 2 9 mo) 6 = 2))) ∧
    (((masterOk (Master.host 1) = true) ∧ (5 < 64)) ∧ (Reaches (mst 5 1 2 mo) (Master.host 1) (MBX_PORT 5)) ∧
      (Reaches (mst 5 1 2 mo) (Master.host 1) (MBX_DB 5)) ∧ ((mayMsg (mst 5 1 2 mo) (Master.host 1) = true) ∧
      (mbxState (mst 5 1 2 mo) 5 = 1) ∧ (mbxSrc (mst 5 1 2 mo) 5 = srcOfMaster (Master.host 1)) ∧ (480 ≤ 480))) ∧
    (((masterOk (Master.host 1) = true) ∧ (5 < 64)) ∧ (Reaches (mst 5 3 2 mo) (Master.host 1) (MBX_PORT 5)) ∧
      (Reaches (mst 5 3 2 mo) (Master.host 1) (MBX_DB 5)) ∧ ((mayMsg (mst 5 3 2 mo) (Master.host 1) = true) ∧
      (mbxState (mst 5 3 2 mo) 5 ≠ 1))) ∧
    (((masterOk (Master.host 1) = true) ∧ (6 < 64)) ∧ (Reaches (mst 6 3 9 mo) (Master.host 1) (MBX_PORT 6)) ∧
      (Reaches (mst 6 3 9 mo) (Master.host 1) (MBX_DB 6)) ∧ ((isReceiver (mst 6 3 9 mo) 6 (Master.host 1) = true) ∧
      (mbxState (mst 6 3 9 mo) 6 = 3))) ∧
    (((masterOk (Master.host 1) = true) ∧ (5 < 64)) ∧ (Reaches (mst 5 2 2 mo) (Master.host 1) (MBX_PORT 5)) ∧
      (Reaches (mst 5 2 2 mo) (Master.host 1) (MBX_DB 5)) ∧ ((mayMsg (mst 5 2 2 mo) (Master.host 1) = true) ∧
      (mbxState (mst 5 2 2 mo) 5 = 2) ∧ (mbxSrc (mst 5 2 2 mo) 5 = srcOfMaster (Master.host 1)))) ∧
    (((masterOk (Master.host 1) = true) ∧ (5 < 64)) ∧ (Reaches (mst 5 1 2 mo) (Master.host 1) (MBX_PORT 5)) ∧
      (Reaches (mst 5 1 2 mo) (Master.host 1) (MBX_DB 5)) ∧ ((mayMsg (mst 5 1 2 mo) (Master.host 1) = true) ∧
      (mbxState (mst 5 1 2 mo) 5 = 1) ∧ (mbxSrc (mst 5 1 2 mo) 5 = srcOfMaster (Master.host 1)))) ∧
    (((masterOk (Master.host 1) = true) ∧ (5 < 64)) ∧ (Reaches (mst 5 1 2 mo) (Master.host 1) (MBX_PORT 5)) ∧
      (Reaches (mst 5 1 2 mo) (Master.host 1) (MBX_DB 5)) ∧ ((mbxState (mst 5 1 2 mo) 5 = 1) ∧
      (mget 0 (mst 5 1 2 mo).sync.reservedAt 5 + 10000000 ≤ paceTime (mst 5 1 2 mo)))) ∧
    (((masterOk (Master.host 1) = true) ∧ (6 < 64)) ∧
      (Reaches (setFld mo (MBX_DB 6) MBX_DB_PEND 0xF0F0F0FF) (Master.host 1) (MBX_PORT 6)) ∧
      (Reaches (setFld mo (MBX_DB 6) MBX_DB_PEND 0xF0F0F0FF) (Master.host 1) (MBX_DB 6)) ∧ ((0xFFFF0003 < 2 ^ 32) ∧
      (0xFFFFFFFF < 2 ^ 32) ∧ (isReceiver (setFld mo (MBX_DB 6) MBX_DB_PEND 0xF0F0F0FF) 6 (Master.host 1) = true))) ∧
    (((msgReq qop 6 = some rqs) ∧ (rqs.op = .qSubmit 65535 (0x123456789 : W512)) ∧ (storesDone qop rqs = true) ∧
      (qop.sync.qpend.any (fun e => decide (e.tag = some 6)) = false) ∧
      (submitCheck qop 65535 (unitMay qop 65535 rqs.u Q_CFG_CORE_SUBMIT) = 0))) ∧
    (((msgReq qo 6 = some rqs) ∧ (rqs.op = .qSubmit 65535 (0x123456789 : W512)) ∧ (storesDone qo rqs = true) ∧
      (qo.sync.qpend.any (fun e => decide (e.tag = some 6)) = false) ∧
      (submitCheck qo 65535 (unitMay qo 65535 rqs.u Q_CFG_CORE_SUBMIT) = 0x0508) ∧ (0x0508 ≠ 0))) ∧
    (((wfQueueSubmit (.bar2 0 (0x100000 + 5 * 64) (byt 64)) = true) ∧ (5 = ((0x100000 + 5 * 64) - 0x100000) / 64) ∧
      (mget false qb.host.d3 0 = false) ∧ (ownerHost qb ≠ some 0 ∨ (0x100000 + 5 * 64) % 64 ≠ 0 ∨ (byt 64).length ≠ 64))) ∧
    (((wfQueueSubmit (.bar2 1 (0x100000 + 5 * 64) (byt 64)) = true) ∧ (5 = ((0x100000 + 5 * 64) - 0x100000) / 64) ∧
      (mget false qb.host.d3 1 = false) ∧ (ownerHost qb = some 1) ∧ ((0x100000 + 5 * 64) % 64 = 0) ∧ ((byt 64).length = 64) ∧
      (submitCheck qb 5 true = 0))) ∧
    (((5 < 65536) ∧ (qv.sync.qpend = [⟨5, (0x777 : W512), none⟩]) ∧ (selOf (qEntry qv 5 (qTail qv 5)) = 0) ∧
      (qDown qv 5 = false) ∧ (qLog qv 5 ≤ 16) ∧ (fld qv (Q_CFG 5) Q_CFG_DB_KIND = 0))) ∧
    (((msgReq (setFld qt (Q_PTR 65535) Q_PTR_HEAD 15) 6 = some rqt) ∧ (rqt.op = .qTake 65535) ∧
      (qState (setFld qt (Q_PTR 65535) Q_PTR_HEAD 15) 65535 = 1) ∧
      (unitMay (setFld qt (Q_PTR 65535) Q_PTR_HEAD 15) 65535 rqt.u Q_CFG_CORE_TAKE = true) ∧
      (qHead (setFld qt (Q_PTR 65535) Q_PTR_HEAD 15) 65535 = qTail (setFld qt (Q_PTR 65535) Q_PTR_HEAD 15) 65535))) ∧
    (((msgReq qth2 6 = some rqt) ∧ (rqt.op = .qTake 65535) ∧ (qState qth2 65535 = 1) ∧
      (unitMay qth2 65535 rqt.u Q_CFG_CORE_TAKE = true) ∧ (qHead qth2 65535 ≠ qTail qth2 65535) ∧ (qLog qth2 65535 ≤ 16) ∧
      (selOf (qEntry qth2 65535 (qHead qth2 65535)) = 8) ∧ (qDown qth2 65535 = false))) ∧
    (((masterOk (Master.unit 25601 0) = true) ∧ (65535 < 65536) ∧ (15 < 65536) ∧
      (isSupervisor (Master.unit 25601 0) = true ∨ isOwner qt (Master.unit 25601 0) = true)) ∧
      (Reaches qt (Master.unit 25601 0) (Q_PTR 65535)) ∧ ((15 < qLen qt 65535) ∧
      ((15 + qLen qt 65535 - qHead qt 65535) % qLen qt 65535 ≤ (qTail qt 65535 + qLen qt 65535 - qHead qt 65535) % qLen qt
      65535))) ∧
    (((masterOk (Master.unit 25601 0) = true) ∧ (65535 < 65536) ∧ (16 < 65536) ∧
      (isSupervisor (Master.unit 25601 0) = true ∨ isOwner qt (Master.unit 25601 0) = true)) ∧
      (Reaches qt (Master.unit 25601 0) (Q_PTR 65535)) ∧ (qLen qt 65535 ≤ 16)) ∧
    (((masterOk (Master.unit 25601 0) = true) ∧ (65535 < 65536) ∧ (0xFFFFFFFD < 2 ^ 32) ∧
      (mayMsg (setFld qt (Q_CFG 65535) Q_CFG_STATE 0) (Master.unit 25601 0) = true)) ∧
      (Reaches (setFld qt (Q_CFG 65535) Q_CFG_STATE 0) (Master.unit 25601 0) (Q_CFG 65535)) ∧
      ((qState (setFld qt (Q_CFG 65535) Q_CFG_STATE 0) 65535 = 0) ∧ (0xFFFFFFFD % 4 = 1) ∧
      (qGood (setFld qt (Q_CFG 65535) Q_CFG_STATE 0) 65535 = true))) ∧
    (((masterOk Master.mc = true) ∧ (65535 < 65536) ∧ (0xFFFFFFFD < 2 ^ 32) ∧
      (mayMsg (setFld (setFld qt (Q_CFG 65535) Q_CFG_STATE 0) (Q_BASE 65535) Q_BASE_LOG_SIZE 17) Master.mc = true)) ∧
      (Reaches (setFld (setFld qt (Q_CFG 65535) Q_CFG_STATE 0) (Q_BASE 65535) Q_BASE_LOG_SIZE 17) Master.mc (Q_CFG 65535)) ∧
      ((qState (setFld (setFld qt (Q_CFG 65535) Q_CFG_STATE 0) (Q_BASE 65535) Q_BASE_LOG_SIZE 17) 65535 = 0) ∧
      (0xFFFFFFFD % 4 = 1) ∧
      (qGood (setFld (setFld qt (Q_CFG 65535) Q_CFG_STATE 0) (Q_BASE 65535) Q_BASE_LOG_SIZE 17) 65535 = false))) := ⟨by
      decide +kernel,
    by decide +kernel,
    by decide +kernel,
    by decide +kernel,
    ⟨by decide +kernel, reaches_of (by decide +kernel), reaches_of (by decide +kernel), by decide +kernel⟩,
    ⟨by decide +kernel, reaches_of (by decide +kernel), reaches_of (by decide +kernel), by decide +kernel⟩,
    ⟨by decide +kernel, reaches_of (by decide +kernel), reaches_of (by decide +kernel), by decide +kernel⟩,
    ⟨by decide +kernel, reaches_of (by decide +kernel), reaches_of (by decide +kernel), by decide +kernel⟩,
    ⟨by decide +kernel, reaches_of (by decide +kernel), reaches_of (by decide +kernel), by decide +kernel⟩,
    ⟨by decide +kernel, reaches_of (by decide +kernel), reaches_of (by decide +kernel), by decide +kernel⟩,
    ⟨by decide +kernel, reaches_of (by decide +kernel), reaches_of (by decide +kernel), by decide +kernel⟩,
    ⟨by decide +kernel, reaches_of (by decide +kernel), reaches_of (by decide +kernel), by decide +kernel⟩,
    ⟨by decide +kernel, reaches_of (by decide +kernel), reaches_of (by decide +kernel), by decide +kernel⟩,
    by decide +kernel,
    by decide +kernel,
    by decide +kernel,
    by decide +kernel,
    by decide +kernel,
    by decide +kernel,
    by decide +kernel,
    ⟨by decide +kernel, reaches_of (by decide +kernel), by decide +kernel⟩,
    ⟨by decide +kernel, reaches_of (by decide +kernel), by decide +kernel⟩,
    ⟨by decide +kernel, reaches_of (by decide +kernel), by decide +kernel⟩,
    ⟨by decide +kernel, reaches_of (by decide +kernel), by decide +kernel⟩⟩

end Sys2Proof.Tests.Witness10

namespace Sys2Proof.Tests.Witness11
open Sys2Proof Sys2Proof.Machine Sys2Proof.Tests
set_option Elab.async false
set_option maxRecDepth 100000
set_option synthInstance.maxSize 2000
set_option synthInstance.maxHeartbeats 200000

def up : State := { State.reset with mc := { State.reset.mc with pwrGood := true, held := false } }
def cup : State := setFld (setFld (setFld up GLB_STATUS GLB_STATUS_COMPUTE_UP 1) LMC_STATUS LMC_STATUS_INIT_DONE 1)
  LMC_STATUS LMC_STATUS_TRAINED 1
def byt (k n : Nat) : List Byte := (List.range n).map fun i => BitVec.ofNat 8 (i * 7 + k)
def O : Nat := (4 * 5 + 2) * 960 + 3 * 64 + 16
def dm : State := { cup with mem := { stripeParity { cup.mem with dram := memStore [] ((4 * 5 + 2) * 960) (byt 3 960) } ((4 * 5 + 2) * 960) with chFails := [] } }
def rq (op : ReqOp) (ps : List Part) : Req :=
  { tag := 6, u := 3, c := 2, pc := 4, op := op, dst := none, pdst := 0, tracked := true, parts := ps, chan := false, pos := 0, cnt := 0, stamp := 0, orphan := false }
def wr (r : Req) (s : State) : State :=
  { s with core := { s.core with reqs := [{ r with tag := 77, op := .load 0 8 false }, r] } }
def p8 : Part := ⟨O, 8, none⟩
def ldr : Req := rq (.load O 8 false) [p8]
def d8 : List Byte := [9, 8, 7, 6, 5, 4, 3, 2]
def str : Req := rq (.store O d8 []) [p8]
def SO (c : Nat) : Nat := (4 * 9 + 1) * 960 + c * 64
def sreq (c : Nat) : Req := { rq (.store (SO c) (byt c 64) []) [⟨SO c, 64, none⟩] with tag := 100 + c, c := c }
def st15 : State := { dm with core := { dm.core with reqs := (List.range 15).map sreq } }
def ff (c : Nat) : LmcReq × List Byte × List Nat := (.own (100 + c) 0, byt c 64, [])
def dwn : State := rset { dm with host := { dm.host with bar4 := [(1, 40)] } } LMC_WIN_B 0
def dwn2 : State := setFld dwn LMC_WIN_B ⟨0, 0, 10⟩ 1023
def ctxOn (u c : Nat) (s : State) : State := setCtx s u c { ctx s u c with st := .ready, pc := 9 }
/-- The premises of `Obligations.LpddrAccessesAndParity` can be met. -/
theorem witness_LpddrAccessesAndParity :
    (((flag (wr ldr dm) LMC_STATUS LMC_STATUS_INIT_DONE = true) ∧ ((wr ldr dm).mem.dramPoison.isEmpty = true) ∧
      ((wr ldr dm).mem.dramBad.isEmpty = true)) ∧ (∀ k, pairFailed (wr ldr dm) k = false) ∧
      ((dramPart (wr ldr dm) 6 0 = some (ldr, p8)) ∧ (O = offOf p8.addr) ∧ (O % 64 + p8.n ≤ 64) ∧
      (chState (wr ldr dm) (lpDevCh O) = 0) ∧ (isLoad ldr || isMsg ldr.op = true))) ∧
    (((flag (wr str dm) LMC_STATUS LMC_STATUS_INIT_DONE = true) ∧ ((wr str dm).mem.dramPoison.isEmpty = true) ∧
      ((wr str dm).mem.dramBad.isEmpty = true)) ∧ (∀ k, pairFailed (wr str dm) k = false) ∧
      ((dramPart (wr str dm) 6 0 = some (str, p8)) ∧ (O = offOf p8.addr) ∧ (O % 64 + p8.n ≤ 64) ∧
      (chState (wr str dm) (lpDevCh O) = 0) ∧ (str.op = .store p8.addr d8 []) ∧ (p8.n = d8.length) ∧
      (stageLocked (wr str dm) O = false) ∧ (chState (wr str dm) (devCh (lpPair O) (lpT O % 16)) = 0))) ∧
    (((flag st15 LMC_STATUS LMC_STATUS_INIT_DONE = true) ∧ (st15.mem.dramPoison.isEmpty = true) ∧
      (st15.mem.dramBad.isEmpty = true)) ∧ (∀ k, pairFailed st15 k = false) ∧ (((4 * 9 + 1) < 2 ^ 30) ∧ (∀ c, c < 15 →
      stripePart st15 (4 * 9 + 1) c = some (ff c) ∧ (ff c).2.1.length = 64 ∧
      stageLocked st15 ((4 * 9 + 1) * 960 + c * 64) = false) ∧ (∀ c, c < 16 →
      chState st15 (devCh ((4 * 9 + 1) % 4) c) = 0))) ∧
    (((flag dm LMC_STATUS LMC_STATUS_INIT_DONE = true) ∧ (dm.mem.dramPoison.isEmpty = true) ∧
      (dm.mem.dramBad.isEmpty = true)) ∧ (∀ k, pairFailed dm k = false) ∧ ((1 < 2) ∧ (0 < 48) ∧ (O % 64 + 48 ≤ 64) ∧
      (O = winBase dm 1 + O) ∧ (mget false dm.host.d3 1 = false) ∧ (inBar4 dm 1 O 48 = true) ∧ (O + 48 ≤ lpddrSize) ∧
      (chState dm (lpDevCh O) = 0))) ∧
    (((flag dm LMC_STATUS LMC_STATUS_INIT_DONE = true) ∧ (dm.mem.dramPoison.isEmpty = true) ∧
      (dm.mem.dramBad.isEmpty = true)) ∧ (∀ k, pairFailed dm k = false) ∧ ((1 < 2) ∧ (0 < 48) ∧ (O % 64 + 48 ≤ 64) ∧
      (O = winBase dm 1 + O) ∧ (mget false dm.host.d3 1 = false) ∧ (inBar4 dm 1 O 48 = true) ∧ ((byt 99 48).length = 48) ∧
      (O + 48 ≤ lpddrSize) ∧ (chState dm (lpDevCh O) = 0) ∧ (stageLocked dm O = false))) ∧
    (((flag dwn LMC_STATUS LMC_STATUS_INIT_DONE = true) ∧ (dwn.mem.dramPoison.isEmpty = true) ∧
      (dwn.mem.dramBad.isEmpty = true)) ∧ (∀ k, pairFailed dwn k = false) ∧ ((1 < 2) ∧ (0 < 8) ∧
      ((960 * 2 ^ 30) % 64 + 8 ≤ 64) ∧ ((960 * 2 ^ 30) = winBase dwn 1 + (960 * 2 ^ 30)) ∧
      (mget false dwn.host.d3 1 = false) ∧ (inBar4 dwn 1 (960 * 2 ^ 30) 8 = true) ∧ (lpddrSize < (960 * 2 ^ 30) + 8))) ∧
    (((flag dwn LMC_STATUS LMC_STATUS_INIT_DONE = true) ∧ (dwn.mem.dramPoison.isEmpty = true) ∧
      (dwn.mem.dramBad.isEmpty = true)) ∧ (∀ k, pairFailed dwn k = false) ∧ ((1 < 2) ∧ (0 < 8) ∧
      ((960 * 2 ^ 30) % 64 + 8 ≤ 64) ∧ ((960 * 2 ^ 30) = winBase dwn 1 + (960 * 2 ^ 30)) ∧
      (mget false dwn.host.d3 1 = false) ∧ (inBar4 dwn 1 (960 * 2 ^ 30) 8 = true) ∧ (d8.length = 8) ∧
      (lpddrSize < (960 * 2 ^ 30) + 8))) ∧
    (((d8.length = 8) ∧ (flag up LMC_STATUS LMC_STATUS_INIT_DONE = false) ∧ (mget false up.host.d3 1 = false) ∧
      (inBar4 up 1 O 8 = true))) ∧
    (((0 < 2) ∧ (1023 < 1024))) ∧
    (((masterOk Master.mc = true) ∧ (1 < 2) ∧ (1023 < 1024) ∧ (mayAdmin dm Master.mc = true)) ∧
      (Reaches dm Master.mc (if 1 = 0 then LMC_WIN_A else LMC_WIN_B)) ∧ (1023 * 2 ^ 30 % 2 ^ mget 30 dm.host.bar4 1 = 0)) ∧
    (((masterOk Master.mc = true) ∧ (1 < 2) ∧ (5 < 1024) ∧ (mayAdmin dwn Master.mc = true)) ∧
      (Reaches dwn Master.mc (if 1 = 0 then LMC_WIN_A else LMC_WIN_B)) ∧
      (5 * 2 ^ 30 % 2 ^ mget 30 dwn.host.bar4 1 ≠ 0)) := ⟨⟨by decide +kernel, pairs_up (by decide +kernel), by
      decide +kernel⟩,
    ⟨by decide +kernel, pairs_up (by decide +kernel), by decide +kernel⟩,
    ⟨by decide +kernel, pairs_up (by decide +kernel), by decide +kernel⟩,
    ⟨by decide +kernel, pairs_up (by decide +kernel), by decide +kernel⟩,
    ⟨by decide +kernel, pairs_up (by decide +kernel), by decide +kernel⟩,
    ⟨by decide +kernel, pairs_up (by decide +kernel), by decide +kernel⟩,
    ⟨by decide +kernel, pairs_up (by decide +kernel), by decide +kernel⟩,
    by decide +kernel,
    by decide +kernel,
    ⟨by decide +kernel, reaches_of (by decide +kernel), by decide +kernel⟩,
    ⟨by decide +kernel, reaches_of (by decide +kernel), by decide +kernel⟩⟩
def rd : State := { setFld dm LMC_RETRAIN LMC_RETRAIN_DEFER 3 with now := 40000, log := { dm.log with glints := 9 }, mem := { dm.mem with retrDue := [(57, 8, 20000)] } }
def re : State := setFld { setCh 57 1 dm with mem := { dm.mem with heldWr := [(330, none)] } } (chReg 57) LMC_CH_TRAININGS
  65535
def hw : State := { re with mem := { re.mem with heldWr := [(O / 64, some (.own 6 0))] }, core := (wr str re).core }
def XC : Nat := lpDevCh O
def rb (pos : Nat) : State := setFld (setCh XC 3 dm) (chReg XC) LMC_CH_REBUILD_POS pos
def OK (k : Nat) : Nat := (4 * k + XC / 16) * 960 + (XC % 16 + 15 - k % 16) % 16 * 64
def sc : State := setFld (setFld dm LMC_SCRUB LMC_SCRUB_EN 1) LMC_SCRUB LMC_SCRUB_POS 5
/-- The premises of `Obligations.LpddrTrainingAndRepair` can be met. -/
theorem witness_LpddrTrainingAndRepair :
    (((([0, 63, 5] : List Nat).all (· < 64) = true) ∧ (up.mc.pwrGood = true) ∧ (up.mc.compOff = false) ∧
      (flag up LMC_STATUS LMC_STATUS_TRAINED = false))) ∧
    (((flag (setFld { dm with mem := { dm.mem with dramPoison := [(5, true)] } } LMC_STATUS LMC_STATUS_INIT_DONE 0)
      LMC_STATUS LMC_STATUS_TRAINED = true) ∧
      (flag (setFld { dm with mem := { dm.mem with dramPoison := [(5, true)] } } LMC_STATUS LMC_STATUS_INIT_DONE 0)
      LMC_STATUS LMC_STATUS_INIT_DONE = false))) ∧
    ((flag dm LMC_STATUS LMC_STATUS_INIT_DONE = true)) ∧
    (((7 < 8) ∧ (flag (setCh 56 2 dm) LMC_STATUS LMC_STATUS_TRAINED = true) ∧
      (nextActive (setCh 56 2 dm) 7 (mget 0 (setCh 56 2 dm).mem.retrNext 7) = some 1))) ∧
    (((7 < 8) ∧ (57 / 8 = 7) ∧ (rd.mem.retrDue = [(57, 8, 20000)]) ∧ (∀ l, l < 8 → chState rd (8 * 7 + l) ≠ 1) ∧
      (chState rd 57 = 0) ∧ ((8 < rd.log.glints ∧
      urgent rd 57 = false) ∨ 20000 + fld rd LMC_RETRAIN LMC_RETRAIN_DEFER * 10000 ≤ paceTime rd))) ∧
    (((7 < 8) ∧ (57 / 8 = 7) ∧
      (({ rd with log := { rd.log with glints := 8 }, now := 49999 }).mem.retrDue = [(57, 8, 20000)]) ∧ (∀ l, l < 8 →
      chState ({ rd with log := { rd.log with glints := 8 }, now := 49999 }) (8 * 7 + l) ≠ 1) ∧
      (chState ({ rd with log := { rd.log with glints := 8 }, now := 49999 }) 57 = 0) ∧
      (({ rd with log := { rd.log with glints := 8 }, now := 49999 }).log.glints ≤ 8 ∨ urgent
      ({ rd with log := { rd.log with glints := 8 }, now := 49999 }) 57 = true) ∧
      (paceTime ({ rd with log := { rd.log with glints := 8 }, now := 49999 }) < 20000 + fld
      ({ rd with log := { rd.log with glints := 8 }, now := 49999 }) LMC_RETRAIN LMC_RETRAIN_DEFER * 10000))) ∧
    (((7 < 8) ∧ (1 < 8) ∧ (chState re (8 * 7 + 1) = 1) ∧ (∀ k, k < 1 → chState re (8 * 7 + k) ≠ 1))) ∧
    ((63 < 64)) ∧
    (((masterOk (Master.unit 25600 3) = true) ∧ (57 < 64)) ∧ (Reaches (setCh 57 2 dm) (Master.unit 25600 3) (chReg 57)) ∧
      ((isSupervisor (Master.unit 25600 3) = true ∨ isOwner (setCh 57 2 dm) (Master.unit 25600 3) = true) ∧
      (chState (setCh 57 2 dm) 57 = 2) ∧ (mateDown (setCh 57 2 dm) 57 = false))) ∧
    (((masterOk Master.mc = true) ∧ (57 < 64)) ∧ (Reaches (setCh 57 2 dm) Master.mc (chReg 57)) ∧
      ((isSupervisor Master.mc = false) ∧ (isOwner (setCh 57 2 dm) Master.mc = false))) ∧
    (((XC < 64) ∧ (chState (rb 5) XC = 3) ∧ (pairFailed (rb 5) (XC / 16) = false) ∧
      (5 = fld (rb 5) (chReg XC) LMC_CH_REBUILD_POS) ∧ (matePaused (rb 5) XC = false) ∧
      (∀ y ∈ mates XC, chStale (rb 5) y 5 = false) ∧ (XC % 16 ≠ 5 % 16) ∧
      ((OK 5) = (4 * 5 + XC / 16) * 960 + (XC % 16 + 15 - 5 % 16) % 16 * 64))) ∧
    (((flag sc LMC_SCRUB LMC_SCRUB_EN = true) ∧ (flag sc LMC_STATUS LMC_STATUS_INIT_DONE = true) ∧ (∀ x, x < 64 →
      chState sc x ≠ 1))) := ⟨by decide +kernel,
    by decide +kernel,
    by decide +kernel,
    by decide +kernel,
    by decide +kernel,
    by decide +kernel,
    by decide +kernel,
    by decide +kernel,
    ⟨by decide +kernel, reaches_of (by decide +kernel), by decide +kernel⟩,
    ⟨by decide +kernel, reaches_of (by decide +kernel), by decide +kernel⟩,
    by decide +kernel,
    by decide +kernel⟩

end Sys2Proof.Tests.Witness11
end

section
/-!
PROOFS. Laws of the register file that the proofs of power, registers and rings use: which words a write to a field leaves,
and how a property of the state that every step of a fold keeps is kept by the fold.
-/
namespace Sys2Proof.Machine
open Sys2Proof

/-- What every step of a fold keeps, the fold keeps. -/
theorem foldl_keeps {α β γ : Type} (π : α → β) (f : α → γ → α) (h : ∀ a x, π (f a x) = π a) (l : List γ) (a : α) :
    π (l.foldl f a) = π a := by
  induction l generalizing a with
  | nil => rfl
  | cons x l ih => rw [List.foldl_cons, ih, h]

/-- A register word depends on the register file alone. -/
theorem rget_of_csr {s t : State} (h : t.csr = s.csr) (o : Nat) : rget t o = rget s o := by
  unfold rget; rw [h]

theorem fld_of_rget {s t : State} {r : Nat} {f : Fld} (h : rget t (r + 8 * f.word) = rget s (r + 8 * f.word)) :
    fld t r f = fld s r f := by
  unfold fld; rw [h]

theorem flag_of_fld {s t : State} {r : Nat} {f : Fld} (h : fld t r f = fld s r f) : flag t r f = flag s r f := by
  unfold flag; rw [h]

theorem flag_of_csr {s t : State} (h : t.csr = s.csr) (r : Nat) (f : Fld) : flag t r f = flag s r f :=
  flag_of_fld (fld_of_rget (rget_of_csr h _))

theorem fld_of_csr {s t : State} (h : t.csr = s.csr) (r : Nat) (f : Fld) : fld t r f = fld s r f :=
  fld_of_rget (rget_of_csr h _)

/-- A one-bit field reads as last written. -/
theorem flag_setFld (s : State) (r : Nat) (f : Fld) (x : Nat) (hw : f.width = 1) (h : f.lo + f.width ≤ 64) :
    flag (setFld s r f x) r f = decide (x % 2 = 1) := by
  simp [flag, fld_setFld s r f x h, hw]

/-- With an empty register file every register stands at its reset value. -/
theorem rget_of_csr_nil {s : State} (h : s.csr = []) (o : Nat) : rget s o = resetWord o := by
  unfold rget; rw [h, mget_nil]

theorem wordsKept_of_csr {s t : State} (h : t.csr = s.csr) (l : List Nat) : WordsKept s t l := fun o _ => rget_of_csr h o

theorem WordsKept.trans {s t u : State} {l : List Nat} (h₁ : WordsKept s t l) (h₂ : WordsKept t u l) : WordsKept s u l :=
  fun o ho => (h₂ o ho).trans (h₁ o ho)

theorem WordsKept.mono {s t : State} {l m : List Nat} (h : WordsKept s t l) (hlm : l ⊆ m) : WordsKept s t m :=
  fun o ho => h o fun hm => ho (hlm hm)

theorem wordsKept_rset (s : State) (o : Nat) (v : W64) : WordsKept s (rset s o v) [o] := by
  intro k hk
  rw [rget_rset, if_neg (by simpa using hk)]

theorem wordsKept_setFld (s : State) (r : Nat) (f : Fld) (x : Nat) : WordsKept s (setFld s r f x) [r + 8 * f.word] :=
  wordsKept_rset _ _ _

/-- A field of a word that was left alone keeps its value. -/
theorem WordsKept.fld {s t : State} {l : List Nat} (h : WordsKept s t l) {r : Nat} {f : Fld} (hr : r + 8 * f.word ∉ l) :
    fld t r f = fld s r f := fld_of_rget (h _ hr)

theorem WordsKept.flag {s t : State} {l : List Nat} (h : WordsKept s t l) {r : Nat} {f : Fld} (hr : r + 8 * f.word ∉ l) :
    flag t r f = flag s r f := flag_of_fld (h.fld hr)

end Sys2Proof.Machine
end

section
/-!
PROOFS. The state after reset.
-/
namespace Sys2Proof.Machine
open Sys2Proof

/-- Settles O6: every part of `State.reset` is a literal, and the two identity registers are read from the register table. -/
theorem resetMeetsTheInvariants : Obligations.ResetMeetsTheInvariants := by
  have word (o : Nat) : rget State.reset o = resetWord o := rget_of_csr_nil rfl o
  refine ⟨rfl, rfl, rfl, rfl, Nat.zero_le _, Nat.zero_le _, Nat.zero_le _, fun _ _ => rfl, ?_, ?_, ?_, ?_⟩
  all_goals
    simp only [fld, word]
    decide
end Sys2Proof.Machine
end

section
/-!
PROOFS. What the shared operations leave alone. Each view of the state below erases what a family of operations changes, so
that "nothing else changes" is one equation, and chains of operations compose by rewriting.
-/
namespace Sys2Proof.Machine
open Sys2Proof

/-! ### Tokens of the Loam -/

/-- The state without the Loam's tokens, the telemetry counters and what has left the device: the supplies, straps and drivers
of the banks stay in view. -/
def tokenKept (s : State) : State :=
  { s with
    loam := { LoamSt.reset with vccio := s.loam.vccio, straps := s.loam.straps, driven := s.loam.driven }
    pwr := { s.pwr with ctr := [] }
    out := [] }

theorem tokenKept_pinLevels (r i : Nat) (s : State) : tokenKept (pinLevels r i s) = tokenKept s := by
  unfold pinLevels
  split
  · exact foldl_keeps tokenKept _ (fun _ _ => by rfl) _ _
  · rfl

theorem tokenKept_laneGather (r j : Nat) (s : State) : tokenKept (laneGather r j s) = tokenKept s := by
  unfold laneGather
  split
  · rfl
  · dsimp only
    split
    · split <;> rfl
    · rfl

theorem tokenKept_popToken (i code : Nat) (s : State) : tokenKept (popToken i code s) = tokenKept s := by
  unfold popToken
  dsimp only
  split
  · rfl
  split
  · rfl
  split
  · rfl
  · split
    case h_4 => rfl
    case h_5 j c _ => split <;> rfl
    all_goals rfl

theorem tokenKept_sinkTakes {i k v : Nat} {x : Sink} {s t : State} (h : sinkTakes i k v x s = some t) :
    tokenKept t = tokenKept s := by
  have latched : ∀ {u : State}, (if (slotOf s.loam.sink (i * 8 + k)).isSome then none
      else some (setLoam (fun l => { l with sink := fillSlot l.sink (i * 8 + k) v }) s)) = some u →
      tokenKept u = tokenKept s := by
    intro u hu
    split at hu
    · cases hu
    · cases hu; rfl
  cases x with
  | rx p c =>
    simp only [sinkTakes] at h
    split at h
    · obtain ⟨u, hu, rfl⟩ := Option.map_eq_some_iff.mp h
      exact (show tokenKept (bumpCtr _ _ u) = tokenKept u from rfl).trans (latched hu)
    · cases h
  | mem b q d => exact latched h
  | bout c =>
    simp only [sinkTakes] at h
    split at h
    · cases h; rfl
    split at h
    · cases h
    · cases h; rfl
  | lane j c =>
    simp only [sinkTakes] at h
    split at h
    · split at h
      · cases h
      · obtain ⟨u, hu, rfl⟩ := Option.map_eq_some_iff.mp h
        exact (tokenKept_laneGather _ _ _).trans (latched hu)
    · cases h
  | out p =>
    simp only [sinkTakes] at h
    split at h
    · cases h
    · cases h; exact tokenKept_pinLevels _ _ _
  | oe p => cases h; rfl

theorem tokenKept_selTakes {i j v : Nat} {s t : State} {w : List Nat} (h : selTakes i j v s = some (t, w)) :
    tokenKept t = tokenKept s := by
  unfold selTakes at h
  split at h
  · split at h
    · cases h
    · cases h; rfl
  split at h
  · split at h
    · cases h
    · split at h
      · cases h
      · cases h; rfl
  · split at h
    · cases h
    · obtain ⟨u, hu, he⟩ := Option.map_eq_some_iff.mp h
      cases he
      exact tokenKept_sinkTakes hu

theorem tokenKept_offer (k : Nat) (s : State) : tokenKept (offer k s).1 = tokenKept s := by
  unfold offer
  dsimp only
  split
  · rfl
  · have kept : ∀ (js : List Nat) (v : Nat), tokenKept (js.foldl (fun (a : State × List Nat) j =>
        if Nat.testBit (mget 0 a.1.loam.done k) j then a
        else match selTakes (k / 32) j v a.1 with
          | none => a
          | some (t, w) => (setLoam (fun l => { l with done := mset 0 l.done k (mget 0 l.done k ||| 2 ^ j) }) t, a.2 ++ w))
        (s, [])).1 = tokenKept s := by
      intro js v
      refine foldl_keeps (fun a : State × List Nat => tokenKept a.1) _ (fun a j => ?_) js (s, [])
      split
      · rfl
      · split
        · rfl
        · rename_i t w ht
          exact (show tokenKept (setLoam _ t) = tokenKept t from rfl).trans (tokenKept_selTakes ht)
    split
    · exact (tokenKept_popToken _ _ _).trans (kept _ _)
    · exact kept _ _

theorem tokenKept_settle (n : Nat) (ks : List Nat) (s : State) : tokenKept (settle n ks s) = tokenKept s := by
  induction n generalizing ks s with
  | zero => rfl
  | succ n ih =>
    cases ks with
    | nil => rfl
    | cons k ks => exact (ih _ _).trans (tokenKept_offer k s)

/-- Tokens that move change the Loam's tokens, the telemetry counters and the pins, and nothing else. -/
theorem tokenKept_move (ks : List Nat) (s : State) : tokenKept (move ks s) = tokenKept s := by
  rw [move, tokenKept_settle]

theorem tokenKept_wakePorts (mine : Nat → Bool) (s : State) : tokenKept (wakePorts mine s) = tokenKept s := by
  rw [wakePorts, tokenKept_move]

theorem tokenKept_wakePins (r : Nat) (s : State) : tokenKept (wakePins r s) = tokenKept s := by
  refine foldl_keeps tokenKept _ (fun t i => ?_) _ _
  split
  · rw [tokenKept_move, tokenKept_pinLevels]
  · rfl

/-! ### Streams and plots -/

/-- What the ends of channels, accesses and waits leave alone: contexts, memories, the MC, time and power. -/
def streamKept (s : State) : NMap Ctx × MemSt × McSt × Nat × PwrSt := (s.core.ctxs, s.mem, s.mc, s.now, s.pwr)

@[simp] theorem streamKept_orphanWhere (p : Req → Bool) (s : State) : streamKept (orphanWhere p s) = streamKept s := rfl
@[simp] theorem streamKept_poolReturn (p : Nat) (l : List Nat) (s : State) : streamKept (poolReturn p l s) = streamKept s := rfl
@[simp] theorem streamKept_setChan (s : State) (u ch : Nat) (x : Chan) : streamKept (setChan s u ch x) = streamKept s := rfl
@[simp] theorem streamKept_rset (s : State) (o : Nat) (v : W64) : streamKept (rset s o v) = streamKept s := rfl
@[simp] theorem streamKept_setFld (s : State) (r : Nat) (f : Fld) (x : Nat) : streamKept (setFld s r f x) = streamKept s := rfl
@[simp] theorem streamKept_emit (o : Output) (s : State) : streamKept (emit o s) = streamKept s := rfl

@[simp] theorem streamKept_banksBack (u who : Nat) (s : State) : streamKept (banksBack u who s) = streamKept s := by
  refine foldl_keeps streamKept _ (fun t b => ?_) _ _
  split
  · exact streamKept_rset _ _ _
  · rfl

@[simp] theorem streamKept_closeChan (u ch : Nat) (s : State) : streamKept (closeChan u ch s) = streamKept s := by
  unfold closeChan
  dsimp only
  split
  · rfl
  · split <;> simp

@[simp] theorem streamKept_closeChans (f : Nat → Bool) (s : State) : streamKept (closeChans f s) = streamKept s :=
  foldl_keeps streamKept _ (fun _ _ => streamKept_closeChan _ _ _) _ _

@[simp] theorem streamKept_dropWaiters (f : Req → Bool) (s : State) : streamKept (dropWaiters f s) = streamKept s :=
  (foldl_keeps streamKept (fun t i => syncCount i t) (fun t _ => streamKept_setFld t _ _ _) _ _).trans
    (foldl_keeps streamKept (fun t (e : Nat × Nat) => emit (.remoteWithdraw e.1 e.2) t) (fun t _ => streamKept_emit _ t) _ _)

@[simp] theorem streamKept_dropTokens (f : Nat → Bool) (s : State) : streamKept (dropTokens f s) = streamKept s := by
  unfold dropTokens dropBranches
  exact foldl_keeps streamKept _ (fun _ _ => by rfl) _ _

@[simp] theorem streamKept_abandonLocks (f : Nat → Bool) (s : State) : streamKept (abandonLocks f s) = streamKept s :=
  foldl_keeps streamKept _ (fun _ _ => streamKept_setFld _ _ _ _) _ _

end Sys2Proof.Machine
end

section
/-!
PROOFS. What a plot fault leaves alone: contexts that stand FAULTED, the memories, the MC, time and power.
-/
namespace Sys2Proof.Machine
open Sys2Proof

theorem streamKept_avl (s : State) (x : AvlSt) : streamKept { s with avl := x } = streamKept s := rfl
theorem streamKept_strm (s : State) (x : StrmSt) : streamKept { s with strm := x } = streamKept s := rfl

/-- A plot fault halts contexts of its plot; those that stand FAULTED stay, and so do the memories, the MC, time and power. -/
theorem streamKept_plotFault (p code u c : Nat) (s : State) :
    ∃ m, streamKept (plotFault p code u c s) = (m, s.mem, s.mc, s.now, s.pwr) ∧
      ∀ k, (mget Ctx.unloaded s.core.ctxs k).st = .faulted → mget Ctx.unloaded m k = mget Ctx.unloaded s.core.ctxs k := by
  unfold plotFault
  extract_lets r avl s₁ mine markers s₂ core s₃ s₄ s₅ s₆ s₇ strm s₈
  split
  · exact ⟨s.core.ctxs, rfl, fun _ _ => rfl⟩
  · have h₂ : streamKept s₂ = streamKept s := (streamKept_dropWaiters _ s₁).trans (streamKept_avl s _)
    have h₄ : streamKept s₄ = streamKept s₃ :=
      (streamKept_setFld _ _ _ _).trans ((streamKept_setFld _ _ _ _).trans (streamKept_setFld _ _ _ _))
    have h₅ : streamKept s₅ = streamKept s₄ := (streamKept_orphanWhere _ _).trans (streamKept_closeChans _ _)
    have h₇ : streamKept s₇ = streamKept s₅ := (streamKept_dropTokens _ _).trans (streamKept_setFld _ _ _ _)
    have h₈ : streamKept s₈ = streamKept s₇ := streamKept_strm s₇ _
    have hc : s₂.core.ctxs = s.core.ctxs := congrArg Prod.fst h₂
    have hr : (s₂.mem, s₂.mc, s₂.now, s₂.pwr) = (s.mem, s.mc, s.now, s.pwr) := congrArg Prod.snd h₂
    refine ⟨s₃.core.ctxs, ?_, fun k hk => ?_⟩
    · rw [streamKept_abandonLocks, h₈, h₇, h₅, h₄]
      exact congrArg (Prod.mk s₃.core.ctxs) hr
    · simp only [s₃]
      rw [mget_mmap _ _ _ rfl, hc]
      split
      · simp [hk]
      · rfl

end Sys2Proof.Machine
end

section
/-!
PROOFS. Start-up: rebuilding the Shadow map from the findings of the tests touches neither the MC, nor time, nor the saved credit.
-/
namespace Sys2Proof.Machine
open Sys2Proof

/-! ### Start-up -/

/-- What rebuilding the Shadow map leaves alone: the MC but for its measurements, time, and the saved boost credit. -/
def startKept (s : State) : McSt × Nat × Option (Nat × Nat × Nat) := ({ s.mc with meas := [] }, s.now, s.pwr.saved)

theorem startKept_of_streamKept {s t : State} (h : streamKept t = streamKept s) : startKept t = startKept s :=
  congrArg (fun v : NMap Ctx × MemSt × McSt × Nat × PwrSt => ({ v.2.2.1 with meas := [] }, v.2.2.2.1, v.2.2.2.2.saved)) h

theorem startKept_of_tokenKept {s t : State} (h : tokenKept t = tokenKept s) : startKept t = startKept s :=
  congrArg (fun v : State => ({ v.mc with meas := [] }, v.now, v.pwr.saved)) h

theorem startKept_of_parts {s t : State} (hm : t.mc = s.mc) (hn : t.now = s.now) (hp : t.pwr = s.pwr) :
    startKept t = startKept s := by simp only [startKept, hm, hn, hp]

@[simp] theorem startKept_setFld (s : State) (r : Nat) (f : Fld) (x : Nat) : startKept (setFld s r f x) = startKept s :=
  startKept_of_parts (setFld_mc s _ _ _) (setFld_now s _ _ _) (setFld_pwr s _ _ _)
@[simp] theorem startKept_bumpFld (s : State) (r : Nat) (f : Fld) (n : Nat) : startKept (bumpFld s r f n) = startKept s :=
  startKept_of_parts (bumpFld_mc s _ _ _) (bumpFld_now s _ _ _) (bumpFld_pwr s _ _ _)
@[simp] theorem startKept_satFld (s : State) (r : Nat) (f : Fld) (n : Nat) : startKept (satFld s r f n) = startKept s :=
  startKept_of_parts (satFld_mc s _ _ _) (satFld_now s _ _ _) (satFld_pwr s _ _ _)
@[simp] theorem startKept_resetRegs (ds : List Domain) (p : Nat → Bool) (s : State) :
    startKept (resetRegs ds p s) = startKept s :=
  startKept_of_parts (resetRegs_mc s _ _) (resetRegs_now s _ _) (resetRegs_pwr s _ _)
@[simp] theorem startKept_logErr (code src : Nat) (p : Option Nat) (i : Nat) (s : State) :
    startKept (logErr code src p i s) = startKept s :=
  startKept_of_parts (logErr_mc s _ _ _ _) (logErr_now s _ _ _ _) (logErr_pwr s _ _ _ _)
@[simp] theorem startKept_shadowGen (s : State) : startKept (shadowGen s) = startKept s := startKept_bumpFld _ _ _ _
@[simp] theorem startKept_setAvl (f : AvlSt → AvlSt) (s : State) : startKept (setAvl f s) = startKept s := rfl
@[simp] theorem startKept_setAbsent (g : Nat) (l : List Nat) (s : State) : startKept (setAbsent g l s) = startKept s :=
  startKept_setAvl _ _
@[simp] theorem startKept_mem (s : State) (x : MemSt) : startKept { s with mem := x } = startKept s := rfl
@[simp] theorem startKept_core (s : State) (x : CoreSt) : startKept { s with core := x } = startKept s := rfl
@[simp] theorem startKept_setLocPoison (s : State) (w : Nat) (b : Bool) : startKept (setLocPoison s w b) = startKept s := rfl

@[simp] theorem startKept_touchWord (n : Nat) (s : State) (w : Nat) : startKept (touchWord n s w) = startKept s := by
  unfold touchWord
  split
  · rfl
  · exact (startKept_mem _ _).trans (startKept_satFld _ _ _ _)
  · split
    · rfl
    · rw [startKept_logErr]
      split <;> simp

@[simp] theorem startKept_locStore (n k : Nat) (d : List Byte) (s : State) : startKept (locStore n k d s) = startKept s := by
  unfold locStore
  refine (foldl_keeps startKept _ (fun t w => ?_) _ _).trans
    ((startKept_mem _ _).trans (foldl_keeps startKept _ (startKept_touchWord n) _ _))
  split
  · rfl
  · split <;> rfl

@[simp] theorem startKept_wakePorts (mine : Nat → Bool) (s : State) : startKept (wakePorts mine s) = startKept s :=
  startKept_of_tokenKept (tokenKept_wakePorts mine s)

@[simp] theorem startKept_plotFault (p code u c : Nat) (s : State) : startKept (plotFault p code u c s) = startKept s := by
  obtain ⟨m, h, -⟩ := streamKept_plotFault p code u c s
  exact startKept_of_streamKept (s := { s with core := { s.core with ctxs := m } }) h

theorem startKept_startCtxs (n cause : Nat) (s : State) :
    startKept (if absentCore s n then s else
      (List.range 8).foldl (fun t c => if ctxEnabled s n c then setCtx t n c (freshCtx s n c .halted cause) else t) s) =
    startKept s := by
  split
  · rfl
  · refine foldl_keeps startKept _ (fun t c => ?_) _ _
    split <;> rfl

@[simp] theorem startKept_reseat (s : State) (n : Nat) : startKept (reseat s n) = startKept s := by
  unfold reseat
  extract_lets mine s₁ page given s₂ core s₃ s₄ start
  have h₁ : startKept s₁ = startKept s := startKept_of_streamKept (streamKept_closeChans mine s)
  have h₂ : startKept s₂ = startKept s₁ := startKept_resetRegs _ _ _
  have h₃ : startKept s₃ = startKept s₂ := startKept_core _ _
  have h₄ : startKept s₄ = startKept s₃ := foldl_keeps startKept _ (fun t r => startKept_locStore _ _ _ t) _ _
  have h : startKept s₄ = startKept s := h₄.trans (h₃.trans (h₂.trans h₁))
  split
  · exact (startKept_startCtxs _ _ _).trans h
  · exact (startKept_startCtxs _ _ _).trans h
  · exact h

@[simp] theorem startKept_moveSpare (g i : Nat) (s : State) : startKept (moveSpare g i s) = startKept s := by
  unfold moveSpare
  extract_lets old s₁
  split
  · rfl
  · exact (startKept_wakePorts _ _).trans ((foldl_keeps startKept _ startKept_reseat _ _).trans (startKept_shadowGen _))

@[simp] theorem startKept_placeGroup (g : Nat) (s : State) : startKept (placeGroup g s) = startKept s := by
  simp [placeGroup]

@[simp] theorem startKept_columnFails (ph e c : Nat) (s : State) : startKept (columnFails ph e c s) = startKept s := by
  unfold columnFails
  extract_lets b v
  split <;> simp

@[simp] theorem startKept_rowFails (ph : Nat) (r : Bool × Nat × Nat) (s : State) :
    startKept (rowFails ph r s) = startKept s := by
  unfold rowFails
  split <;> simp

@[simp] theorem startKept_faultRetired (ph : Nat) (s : State) : startKept (faultRetired ph s) = startKept s := by
  unfold faultRetired
  split
  · split <;> simp
  · rfl

@[simp] theorem startKept_retire (ph : Nat) (s : State) : startKept (retire ph s) = startKept s := by
  unfold retire
  split
  · rfl
  · simp only [apply_ite startKept, startKept_faultRetired, startKept_setAbsent, startKept_moveSpare, startKept_logErr,
      startKept_shadowGen, startKept_setAvl, ite_self]

@[simp] theorem startKept_applyFind (x : TestFind) (s : State) : startKept (applyFind x s) = startKept s := by
  have cols : ∀ (e m : Nat) (t : State), startKept ((List.range 8).foldl (fun t c =>
      if Nat.testBit m c then columnFails x.core e c t else t) t) = startKept t := fun e m t =>
    foldl_keeps startKept _ (fun t c => by split <;> simp) _ _
  have rows : ∀ t : State, startKept (x.rows.foldl (fun t r => rowFails x.core r t) t) = startKept t := fun t =>
    foldl_keeps startKept _ (fun t r => startKept_rowFails _ _ t) _ _
  unfold applyFind
  dsimp only
  split
  · rw [startKept_retire, rows, cols, cols]
  · rw [rows, cols, cols]

@[simp] theorem startKept_glbCores (s : State) : startKept (glbCores s) = startKept s := by
  simp only [glbCores, startKept_setFld]

@[simp] theorem startKept_measure (i : Nat) (info : W64) (dg : BitVec 384) (s : State) :
    startKept (measure i info dg s) = startKept s := by
  unfold measure
  split
  · rfl
  · exact startKept_bumpFld _ _ _ _

@[simp] theorem startKept_shadowDigest (s : State) : startKept (shadowDigest s) = startKept s := by
  simp only [shadowDigest, startKept_bumpFld, startKept_measure]

/-- Rebuilding the Shadow map from the start-up findings leaves the MC, time and the saved credit alone. -/
@[simp] theorem startKept_startUp (f : StartUp) (s : State) : startKept (startUp f s) = startKept s := by
  have sensors : ∀ t : State, startKept (f.th.foldl (fun s _ =>
      logErr 0x0B08 0x25 none 0 (setFld s PWR_EVENTS PWR_EVENTS_SENSOR_FAIL 1)) t) = startKept t := fun t =>
    foldl_keeps startKept _ (fun t _ => by rw [startKept_logErr, startKept_setFld]) _ _
  unfold startUp
  simp only [startKept_setFld, startKept_shadowDigest, startKept_glbCores, startKept_setAvl, sensors,
    foldl_keeps startKept _ fun s g => startKept_placeGroup g s, foldl_keeps startKept _ fun s t => startKept_applyFind t s]

/-- The Shadow map is valid once it is rebuilt. -/
theorem shadowValid_startUp (f : StartUp) (s : State) : flag (startUp f s) GLB_STATUS GLB_STATUS_SHADOW_VALID = true :=
  flag_setFld _ _ _ _ rfl (by decide)

end Sys2Proof.Machine
end

section
/-!
PROOFS. Resets and the boot (R13, R512–R514, R581–R585): which register words each step of the boot touches, that all else but
the log and the measurements stays, and what the steps leave.
-/
namespace Sys2Proof.Machine
open Sys2Proof

theorem WordsKept.append {s t u : State} {l m : List Nat} (h₁ : WordsKept s t l) (h₂ : WordsKept t u m) :
    WordsKept s u (l ++ m) := fun o ho => by
  rw [List.mem_append, not_or] at ho
  rw [h₂ o ho.2, h₁ o ho.1]

/-- The state without registers, error log and measurements: what no step of the boot but the choice of copies touches. -/
def bootKept (s : State) : State := { s with csr := [], log := LogSt.reset, mc := { s.mc with meas := [] } }

@[simp] theorem bootKept_pending (s : State) : (bootKept s).pending = s.pending := rfl
@[simp] theorem bootKept_now (s : State) : (bootKept s).now = s.now := rfl
@[simp] theorem bootKept_out (s : State) : (bootKept s).out = s.out := rfl
@[simp] theorem bootKept_core (s : State) : (bootKept s).core = s.core := rfl
@[simp] theorem bootKept_pace (s : State) : (bootKept s).pace = s.pace := rfl
@[simp] theorem bootKept_mem (s : State) : (bootKept s).mem = s.mem := rfl
@[simp] theorem bootKept_strm (s : State) : (bootKept s).strm = s.strm := rfl
@[simp] theorem bootKept_sync (s : State) : (bootKept s).sync = s.sync := rfl
@[simp] theorem bootKept_pwr (s : State) : (bootKept s).pwr = s.pwr := rfl
@[simp] theorem bootKept_mc (s : State) : (bootKept s).mc = { s.mc with meas := [] } := rfl

theorem bootKept_csr (s : State) (x : NMap W64) : bootKept { s with csr := x } = bootKept s := rfl
theorem bootKept_log (s : State) (x : LogSt) : bootKept { s with log := x } = bootKept s := rfl
@[simp] theorem bootKept_rset (s : State) (o : Nat) (v : W64) : bootKept (rset s o v) = bootKept s := bootKept_csr s _
@[simp] theorem bootKept_setFld (s : State) (r : Nat) (f : Fld) (x : Nat) : bootKept (setFld s r f x) = bootKept s :=
  bootKept_rset _ _ _
@[simp] theorem bootKept_bumpFld (s : State) (r : Nat) (f : Fld) (x : Nat) : bootKept (bumpFld s r f x) = bootKept s :=
  bootKept_setFld _ _ _ _
@[simp] theorem bootKept_logErr (code src : Nat) (p : Option Nat) (i : Nat) (s : State) :
    bootKept (logErr code src p i s) = bootKept s := bootKept_log s _

@[simp] theorem setMc_csr (g : McSt → McSt) (s : State) : (setMc g s).csr = s.csr := rfl
@[simp] theorem setMc_mc (g : McSt → McSt) (s : State) : (setMc g s).mc = g s.mc := rfl
@[simp] theorem setMc_mem (g : McSt → McSt) (s : State) : (setMc g s).mem = s.mem := rfl
@[simp] theorem setMc_core (g : McSt → McSt) (s : State) : (setMc g s).core = s.core := rfl
@[simp] theorem setMc_pwr (g : McSt → McSt) (s : State) : (setMc g s).pwr = s.pwr := rfl
@[simp] theorem setMc_log (g : McSt → McSt) (s : State) : (setMc g s).log = s.log := rfl
@[simp] theorem setMc_now (g : McSt → McSt) (s : State) : (setMc g s).now = s.now := rfl
@[simp] theorem rget_setMc (g : McSt → McSt) (s : State) (o : Nat) : rget (setMc g s) o = rget s o := rget_of_csr (setMc_csr g s) o
@[simp] theorem fld_setMc (g : McSt → McSt) (s : State) (r : Nat) (f : Fld) : fld (setMc g s) r f = fld s r f :=
  fld_of_csr (setMc_csr g s) r f
@[simp] theorem flag_setMc (g : McSt → McSt) (s : State) (r : Nat) (f : Fld) : flag (setMc g s) r f = flag s r f :=
  flag_of_csr (setMc_csr g s) r f

/-- Copies of firmware are chosen by the flash and the identity counters alone. -/
theorem chooseCopy_of_mc {s t : State} (hf : t.mc.flash = s.mc.flash) (hm : t.mc.mcCtr = s.mc.mcCtr)
    (hc : t.mc.ccCtr = s.mc.ccCtr) (k : Nat) : chooseCopy t k = chooseCopy s k := by
  have hrun : ∀ a n, flashRun t a n = flashRun s a n := fun a n => by simp only [flashRun, flashByte, hf]
  have hseq : ∀ c, copySeq t k c = copySeq s k c := fun c => by simp only [copySeq, hrun]
  have himg : ∀ c, copyImage t k c = copyImage s k c := fun c => by simp only [copyImage, hrun]
  have hfw : ∀ img, fwOk t k img = fwOk s k img := fun img => by unfold fwOk svnFloor; rw [hm, hc]
  have hok : ∀ c, copyOk t k c = copyOk s k c := fun c => by unfold copyOk; rw [hseq, himg, hfw]
  unfold chooseCopy
  rw [hok, hok, hseq, hseq]

/-! ### Measurements, owner record, firmware -/

theorem wordsKept_measure (i : Nat) (info : W64) (dg : BitVec 384) (s : State) :
    WordsKept s (measure i info dg s) [MEAS_GEN] := by
  unfold measure
  split
  · exact fun _ _ => rfl
  · exact fun o ho => rget_setFld_other (setMc _ s) MEAS_GEN o MEAS_GEN_GEN _ fun e => ho (List.mem_singleton.mpr e)

@[simp] theorem bootKept_measure (i : Nat) (info : W64) (dg : BitVec 384) (s : State) :
    bootKept (measure i info dg s) = bootKept s := by
  unfold measure
  split
  · rfl
  · rw [bootKept_bumpFld]; rfl

theorem wordsKept_securityState (s : State) : WordsKept s (securityState s) [LOAD_SEC, SEC_STATE, MEAS_GEN] := by
  refine WordsKept.trans (t := _) ?_ ((wordsKept_measure 2 0 _ _).mono (by decide))
  have sec : ∀ (t : State) (f : Fld) (x : Nat), f.word = 0 →
      WordsKept t (setFld t SEC_STATE f x) [LOAD_SEC, SEC_STATE, MEAS_GEN] := fun t f x hf =>
    (wordsKept_setFld t SEC_STATE f x).mono (by rw [hf]; decide)
  have load : ∀ (t : State) (f : Fld) (x : Nat), f.word = 0 →
      WordsKept t (setFld t LOAD_SEC f x) [LOAD_SEC, SEC_STATE, MEAS_GEN] := fun t f x hf =>
    (wordsKept_setFld t LOAD_SEC f x).mono (by rw [hf]; decide)
  exact (((((load s LOAD_SEC_ENFORCE _ rfl).trans (load _ LOAD_SEC_OWNER_KEY _ rfl)).trans
    (sec _ SEC_STATE_ENFORCE _ rfl)).trans (sec _ SEC_STATE_OWNER_KEY _ rfl)).trans (sec _ SEC_STATE_OWNER_CTR _ rfl))

@[simp] theorem bootKept_securityState (s : State) : bootKept (securityState s) = bootKept s := by
  simp only [securityState, bootKept_measure, bootKept_setFld]

theorem wordsKept_showFw (t : Nat) (s : State) : WordsKept s (showFw t s) [MC_FW, CC_FW] := by
  refine (wordsKept_rset s _ _).mono ?_
  split <;> decide

@[simp] theorem bootKept_showFw (t : Nat) (s : State) : bootKept (showFw t s) = bootKept s := bootKept_rset _ _ _

theorem wordsKept_measureFw (t c : Nat) (s : State) : WordsKept s (measureFw t c s) [MEAS_GEN] := wordsKept_measure _ _ _ _
@[simp] theorem bootKept_measureFw (t c : Nat) (s : State) : bootKept (measureFw t c s) = bootKept s := bootKept_measure _ _ _ _

theorem wordsKept_deriveKey (s : State) : WordsKept s (deriveKey s) [MC_STATUS] := by
  unfold deriveKey
  extract_lets
  split
  · exact wordsKept_setFld _ _ _ _
  · exact (wordsKept_setFld s MC_STATUS MC_STATUS_ID_KEY 0).trans (wordsKept_of_csr (logErr_csr _ _ _ _ _) _)

theorem fld_deriveKey_state (s : State) : fld (deriveKey s) MC_STATUS MC_STATUS_STATE = fld s MC_STATUS MC_STATUS_STATE := by
  unfold deriveKey
  extract_lets
  split
  · exact fld_setFld_other _ _ _ _ _ (by decide) rfl (by decide)
  · rw [fld_of_csr (logErr_csr _ _ _ _ _)]
    exact fld_setFld_other _ _ _ _ _ (by decide) rfl (by decide)

@[simp] theorem bootKept_deriveKey (s : State) : bootKept (deriveKey s) = bootKept s := by
  unfold deriveKey
  extract_lets
  split
  · exact bootKept_setFld _ _ _ _
  · rw [bootKept_logErr, bootKept_setFld]

theorem wordsKept_showLive (s : State) : WordsKept s (showLive s) [GLB_STATUS] := wordsKept_setFld _ _ _ _
@[simp] theorem bootKept_showLive (s : State) : bootKept (showLive s) = bootKept s := bootKept_setFld _ _ _ _

/-- DEV_LIVE is a bit of `GLB_STATUS` of its own. -/
theorem flag_showLive (s : State) (f : Fld) (hw : f.word = 0) (hd : f.lo + f.width ≤ 7 ∨ 8 ≤ f.lo) :
    flag (showLive s) GLB_STATUS f = flag s GLB_STATUS f :=
  flag_of_fld (fld_setFld_other _ _ _ _ _ (by decide) hw.symm hd)

theorem csr_logBadCopies (t : Nat) (s : State) : (logBadCopies t s).csr = s.csr := by
  refine foldl_keeps State.csr _ (fun s c => ?_) _ _
  split
  · rfl
  · exact logErr_csr _ _ _ _ _

@[simp] theorem bootKept_logBadCopies (t : Nat) (s : State) : bootKept (logBadCopies t s) = bootKept s := by
  refine foldl_keeps bootKept _ (fun s c => ?_) _ _
  split
  · rfl
  · exact bootKept_logErr _ _ _ _ _

/-! ### Device reset -/

/-- The compute side at its reset state, before the status registers of the always-on domain follow. -/
def resetSide (s : State) : State :=
  let t := keepPins s State.reset
  { t with
    now := s.now
    csr := mkeep (fun o => decide (domainAt o = some .cold)) s.csr
    log := { t.log with fatalIdx := s.log.fatalIdx }
    pace := { t.pace with timeOff := -(s.now : Int) }
    pwr := { t.pwr with credit := s.pwr.credit, upSecs := s.pwr.upSecs, boostSecs := s.pwr.boostSecs, tripped := s.pwr.tripped }
    mc := { s.mc with held := true, ccSwitch := false } }

theorem deviceReset_eq (s : State) :
    deviceReset s = securityState (setFld (clearStatus (resetSide s)) MC_STATUS MC_STATUS_CC_RUNNING 0) := rfl

theorem rget_resetSide (s : State) (o : Nat) :
    rget (resetSide s) o = if domainAt o = some .cold then rget s o else resetWord o := by
  have h := mget_mkeep (resetWord o) (fun o => decide (domainAt o = some .cold)) s.csr o
  simp only [decide_eq_true_eq] at h
  exact h

theorem wordsKept_clearStatus (s : State) : WordsKept s (clearStatus s) [GLB_STATUS] := by
  have one : ∀ (t : State) (f : Fld), f.word = 0 → WordsKept t (setFld t GLB_STATUS f 0) [GLB_STATUS] := fun t f hf => by
    have h := wordsKept_setFld t GLB_STATUS f 0
    rwa [hf] at h
  exact (((((((one s _ rfl).trans (one _ _ rfl)).trans (one _ _ rfl)).trans (one _ _ rfl)).trans (one _ _ rfl)).trans
    (one _ _ rfl)).trans (one _ _ rfl)).trans (one _ _ rfl)

@[simp] theorem bootKept_clearStatus (s : State) : bootKept (clearStatus s) = bootKept s :=
  foldl_keeps bootKept _ (fun t _ => bootKept_setFld t _ _ _) _ _

/-- The words that follow a device reset in the always-on domain, and `LOAD_SEC`. -/
theorem wordsKept_deviceReset (s : State) :
    WordsKept (resetSide s) (deviceReset s) [GLB_STATUS, MC_STATUS, LOAD_SEC, SEC_STATE, MEAS_GEN] :=
  ((wordsKept_clearStatus _).append (wordsKept_setFld _ MC_STATUS _ _)).append (wordsKept_securityState _)

theorem bootKept_deviceReset (s : State) : bootKept (deviceReset s) = bootKept (resetSide s) := by
  rw [deviceReset_eq, bootKept_securityState, bootKept_setFld, bootKept_clearStatus]

theorem flag_deviceReset_glb (s : State) (f : Fld) (hf : f.word = 0) :
    flag (deviceReset s) GLB_STATUS f = flag (clearStatus (resetSide s)) GLB_STATUS f := by
  rw [deviceReset_eq, (wordsKept_securityState _).flag (by rw [hf]; decide),
    (wordsKept_setFld _ MC_STATUS _ _).flag (by rw [hf]; decide)]

theorem fld_deviceReset_mc (s : State) (f : Fld) (hf : f.word = 0) :
    fld (deviceReset s) MC_STATUS f = fld (setFld (clearStatus (resetSide s)) MC_STATUS MC_STATUS_CC_RUNNING 0) MC_STATUS f := by
  rw [deviceReset_eq, (wordsKept_securityState _).fld (by rw [hf]; decide)]

/-- The status bits of R13 read 0 after they are cleared, and ID_VALID stays. -/
theorem fld_clearStatus (s : State) :
    fld (clearStatus s) GLB_STATUS GLB_STATUS_COMPUTE_UP = 0 ∧ fld (clearStatus s) GLB_STATUS GLB_STATUS_DEV_LIVE = 0 ∧
    fld (clearStatus s) GLB_STATUS GLB_STATUS_SHADOW_VALID = 0 ∧ fld (clearStatus s) GLB_STATUS GLB_STATUS_HG_CAL = 0 ∧
    fld (clearStatus s) GLB_STATUS GLB_STATUS_EPOCH_ACTIVE = 0 ∧
    fld (clearStatus s) GLB_STATUS GLB_STATUS_ID_VALID = fld s GLB_STATUS GLB_STATUS_ID_VALID := by
  have same : ∀ (t : State) (f : Fld), f.lo + f.width ≤ 64 → fld (setFld t GLB_STATUS f 0) GLB_STATUS f = 0 := fun t f h => by
    rw [fld_setFld t _ f 0 h, Nat.zero_mod]
  simp (disch := decide) only [clearStatus, List.foldl_cons, List.foldl_nil, same, fld_setFld_other, and_self]

end Sys2Proof.Machine
end

section
/-!
PROOFS. What a device reset leaves (R13), and the steps of the mask ROM up to its choice of a copy (R512).
-/
namespace Sys2Proof.Machine
open Sys2Proof

@[simp] theorem resetSide_pending (s : State) : (resetSide s).pending = s.pending := rfl
@[simp] theorem resetSide_out (s : State) : (resetSide s).out = s.out := rfl
@[simp] theorem resetSide_now (s : State) : (resetSide s).now = s.now := rfl
@[simp] theorem resetSide_core (s : State) : (resetSide s).core = CoreSt.reset := rfl
@[simp] theorem resetSide_mem (s : State) : (resetSide s).mem = MemSt.reset := rfl
@[simp] theorem resetSide_strm (s : State) : (resetSide s).strm = StrmSt.reset := rfl
@[simp] theorem resetSide_sync (s : State) : (resetSide s).sync = SyncSt.reset := rfl
@[simp] theorem resetSide_mc (s : State) : (resetSide s).mc = { s.mc with held := true, ccSwitch := false } := rfl

/-- R13: what the compute side's reset leaves. -/
theorem deviceReset_spec (s : State) : DeviceReset s (deviceReset s) := by
  have kept := bootKept_deviceReset s
  have part {α : Type} (g : State → α) : g (bootKept (deviceReset s)) = g (bootKept (resetSide s)) := congrArg g kept
  obtain ⟨hup, hlive, hvalid, hcal, hep, hid⟩ := fld_clearStatus (resetSide s)
  have glb : ∀ f : Fld, f.word = 0 → fld (clearStatus (resetSide s)) GLB_STATUS f = 0 →
      flag (deviceReset s) GLB_STATUS f = false := fun f hw h => by
    rw [flag_deviceReset_glb s f hw, flag, h]; rfl
  have hcold : ∀ r ∈ [GLB_STATUS, MC_STATUS], ∀ f : Fld, f.word = 0 → fld (resetSide s) r f = fld s r f := by
    intro r hr f hw
    refine fld_of_rget ?_
    rw [hw, Nat.mul_zero, Nat.add_zero, rget_resetSide, if_pos]
    fin_cases hr <;> decide
  constructor
  case cold =>
    intro o hd ho
    have hload : o ≠ LOAD_SEC := by rintro rfl; revert hd; decide
    rw [wordsKept_deviceReset s o (by simp only [List.mem_cons] at *; tauto), rget_resetSide, if_pos hd]
  case fresh =>
    intro o hd ho
    have hne : ∀ r, domainAt r = some .cold → o ≠ r := by rintro r hr rfl; exact hd hr
    have hm : o ∉ [GLB_STATUS, MC_STATUS, LOAD_SEC, SEC_STATE, MEAS_GEN] := by
      simp only [List.mem_cons, List.not_mem_nil, or_false, not_or]
      exact ⟨hne _ (by decide), hne _ (by decide), ho, hne _ (by decide), hne _ (by decide)⟩
    rw [wordsKept_deviceReset s o hm, rget_resetSide, if_neg hd]
  case status =>
    refine ⟨glb _ rfl hup, glb _ rfl hlive, glb _ rfl hvalid, glb _ rfl hcal, glb _ rfl hep, ?_⟩
    unfold flag
    rw [fld_deviceReset_mc s _ rfl, fld_setFld _ _ _ _ (by decide)]
    decide
  case keeps =>
    constructor
    · rw [deviceReset_eq, (wordsKept_securityState _).fld (by decide), (wordsKept_setFld _ MC_STATUS _ _).fld (by decide), hid]
      exact hcold _ (by simp) _ rfl
    · rw [fld_deviceReset_mc s _ rfl, fld_setFld_other _ _ MC_STATUS_CC_RUNNING MC_STATUS_STATE _ (by decide) rfl (by decide),
        (wordsKept_clearStatus _).fld (by decide)]
      exact hcold _ (by simp) _ rfl
  case cores =>
    exact ⟨by simpa using part State.core, by simpa using part State.mem, by simpa using part State.strm,
      by simpa using part State.sync⟩
  case time =>
    have hn : (deviceReset s).now = s.now := by simpa using part State.now
    have hp : (deviceReset s).pace = (resetSide s).pace := by simpa using part State.pace
    unfold paceTime
    rw [hn, hp]
    show ((s.now : Int) + -(s.now : Int)).toNat = 0
    omega
  case held => simpa using part fun v => v.mc.held
  case ident =>
    exact ⟨by simpa using part fun v => v.mc.mcCtr, by simpa using part fun v => v.mc.ccCtr,
      by simpa using part fun v => v.mc.ownerCtr, by simpa using part fun v => v.mc.flash, by simpa using part fun v => v.mc.pwrGood⟩
  case queue => exact ⟨by simpa using part State.pending, by simpa using part State.out⟩

/-- Compute off is no part of what a device reset leaves. -/
theorem DeviceReset.setCompOff {s t : State} (h : DeviceReset s t) (g : McSt → Bool) :
    DeviceReset s (setMc (fun m => { m with compOff := g m }) t) :=
  ⟨h.cold, h.fresh, h.status, h.keeps, h.cores, h.time, h.held, h.ident, h.queue⟩

theorem compOff_deviceReset (s : State) : (deviceReset s).mc.compOff = s.mc.compOff := by
  simpa using congrArg (fun v : State => v.mc.compOff) (bootKept_deviceReset s)

/-- A device reset by the pin leaves compute off behind, unless a thermal trip holds it (R548, R575). -/
theorem pinReset_spec (s : State) :
    DeviceReset s (pinReset s) ∧ (pinReset s).mc.compOff = (s.mc.compOff && s.pwr.tripped) :=
  ⟨(deviceReset_spec s).setCompOff fun m => m.compOff && s.pwr.tripped, congrArg (· && s.pwr.tripped) (compOff_deviceReset s)⟩

/-- The words that starting the MC firmware touches. -/
theorem wordsKept_runMc (s : State) :
    WordsKept s (runMc s) [MC_STATUS, MC_FW, CC_FW, MEAS_GEN, LOAD_SEC, SEC_STATE, GLB_STATUS] :=
  (((((wordsKept_setFld s MC_STATUS MC_STATUS_STATE 1).append (wordsKept_showFw 0 _)).append (wordsKept_measureFw 0 _ _)).append
    (wordsKept_deriveKey _)).append ((wordsKept_securityState _).append (wordsKept_showLive _))).mono (by decide)

@[simp] theorem bootKept_runMc (s : State) : bootKept (runMc s) = bootKept s := by
  simp only [runMc, bootKept_showLive, bootKept_securityState, bootKept_deriveKey, bootKept_measureFw, bootKept_showFw,
    bootKept_setFld]

/-- The MC runs its firmware. -/
theorem fld_runMc_state (s : State) : fld (runMc s) MC_STATUS MC_STATUS_STATE = 1 := by
  unfold runMc
  rw [(wordsKept_showLive _).fld (by decide), (wordsKept_securityState _).fld (by decide), fld_deriveKey_state,
    (wordsKept_measureFw _ _ _).fld (by decide), (wordsKept_showFw _ _).fld (by decide), fld_setFld _ _ _ _ (by decide)]
  rfl

theorem flag_runMc_idValid (s : State) :
    flag (runMc s) GLB_STATUS GLB_STATUS_ID_VALID = flag s GLB_STATUS GLB_STATUS_ID_VALID := by
  unfold runMc
  rw [flag_showLive _ _ rfl (by decide), (wordsKept_securityState _).flag (by decide), (wordsKept_deriveKey _).flag (by decide),
    (wordsKept_measureFw _ _ _).flag (by decide), (wordsKept_showFw _ _).flag (by decide),
    (wordsKept_setFld _ MC_STATUS _ _).flag (by decide)]

/-- What the mask ROM sets anew in the MC's own state. -/
def romAnew (m : McSt) : McSt := { m with eid := 0, tid := 0, eventRx := none, ccSwitch := false, busy := false }

/-- The mask ROM up to its choice of a copy: the identity registers, the requesters' state, copies that fail logged. -/
def romFound (s : State) : State :=
  let s := setFld s GLB_STATUS GLB_STATUS_ID_VALID 1
  let s := rset s GLB_SERIAL Config.serial
  let s := setFld s GLB_ID GLB_ID_GRADE (if Config.industrial then 2 else 1)
  let s := setFld s GLB_RATES GLB_RATES_FLOOR (if Config.industrial then 880 else 900)
  logBadCopies 0 (setMc romAnew s)

theorem bootKept_setMc (g : McSt → McSt) (hg : ∀ m, { g m with meas := [] } = g { m with meas := [] }) (s : State) :
    bootKept (setMc g s) = setMc g (bootKept s) := by
  simp only [bootKept, setMc, hg]

theorem bootKept_romFound (s : State) : bootKept (romFound s) = setMc romAnew (bootKept s) := by
  rw [romFound, bootKept_logBadCopies, bootKept_setMc _ fun _ => rfl, bootKept_setFld, bootKept_setFld, bootKept_rset,
    bootKept_setFld]

theorem csr_romFound (s : State) : (romFound s).csr = (setFld (setFld (rset (setFld s GLB_STATUS GLB_STATUS_ID_VALID 1)
    GLB_SERIAL Config.serial) GLB_ID GLB_ID_GRADE (if Config.industrial then 2 else 1)) GLB_RATES GLB_RATES_FLOOR
    (if Config.industrial then 880 else 900)).csr := csr_logBadCopies _ _

theorem romFound_words (s : State) :
    flag (romFound s) GLB_STATUS GLB_STATUS_ID_VALID = true ∧ rget (romFound s) GLB_SERIAL = Config.serial := by
  constructor
  · rw [flag_of_csr (csr_romFound s), (wordsKept_setFld _ GLB_RATES _ _).flag (by decide),
      (wordsKept_setFld _ GLB_ID _ _).flag (by decide), (wordsKept_rset _ GLB_SERIAL _).flag (by decide)]
    exact flag_setFld _ _ _ _ rfl (by decide)
  · rw [rget_of_csr (csr_romFound s), wordsKept_setFld _ GLB_RATES _ _ _ (by decide),
      wordsKept_setFld _ GLB_ID _ _ _ (by decide), rget_rset, if_pos rfl]

end Sys2Proof.Machine
end

section
/-!
PROOFS. The boot of the MC with and without a valid copy (R512, R513).
-/
namespace Sys2Proof.Machine
open Sys2Proof

theorem chooseCopy_romFound (s : State) (k : Nat) : chooseCopy (romFound s) k = chooseCopy s k := by
  have part {α : Type} (g : State → α) : g (bootKept (romFound s)) = g (setMc romAnew (bootKept s)) :=
    congrArg g (bootKept_romFound s)
  exact chooseCopy_of_mc (by simpa [romAnew] using part fun v => v.mc.flash) (by simpa [romAnew] using part fun v => v.mc.mcCtr)
    (by simpa [romAnew] using part fun v => v.mc.ccCtr) k

theorem romMc_some {s : State} {c : Nat} (h : chooseCopy s 0 = some c) :
    romMc s = setMc (fun m => { m with mcCopy := c }) (setFld (romFound s) MC_STATUS MC_STATUS_STATE 3) := by
  have h' := (chooseCopy_romFound s 0).trans h
  unfold romMc
  extract_lets s₁ s₂ s₃ s₄ s₅ s₆ t
  split
  case h_1 d hd =>
    obtain rfl : c = d := Option.some.inj (h'.symm.trans hd)
    rfl
  case h_2 hd => cases h'.symm.trans hd

theorem romMc_none {s : State} (h : chooseCopy s 0 = none) (hheld : s.mc.held = true) :
    romMc s = logErr 0x0A02 0x03 none 0
      (setMc (fun m => { m with expired := false }) (setFld (romFound s) MC_STATUS MC_STATUS_STATE 2)) := by
  have h' := (chooseCopy_romFound s 0).trans h
  have hr : (romFound s).mc.held = true := by
    have := congrArg (fun v : State => v.mc.held) (bootKept_romFound s)
    simpa [romAnew, hheld] using this
  unfold romMc
  extract_lets s₁ s₂ s₃ s₄ s₅ s₆ t
  have hs : s₆ = romFound s := rfl
  split
  case h_1 d hd => cases h'.symm.trans hd
  case h_2 hd =>
    have e : t = logErr 0x0A02 0x03 none 0
        (setMc (fun m => { m with expired := false }) (setFld (romFound s) MC_STATUS MC_STATUS_STATE 2)) := by simp only [t, hs]
    have ht : t.mc.held = true := by
      simp only [e, logErr_mc, setMc_mc, setFld_mc, hr]
    clear_value t
    rw [if_pos ht]
    exact e

/-- What the boot of the MC, with the compute side held, leaves in `t` (R512 steps 1 to 4, R513). -/
structure McBooted (s t : State) : Prop where
  mc     : t.mc.pwrGood = s.mc.pwrGood ∧ t.mc.held = true ∧ t.mc.flash = s.mc.flash
  mem    : t.mem = s.mem
  core   : t.core = s.core
  pwr    : t.pwr = s.pwr
  valid  : flag t GLB_STATUS GLB_STATUS_ID_VALID = true
  serial : rget t GLB_SERIAL = Config.serial
  runs   : ∀ c, chooseCopy s 0 = some c → fld t MC_STATUS MC_STATUS_STATE = 1 ∧ t.mc.mcCopy = c
  waits  : chooseCopy s 0 = none → fld t MC_STATUS MC_STATUS_STATE = 2 ∧ ∃ e ∈ t.log.inFlight, e.code = 0x0A02

theorem bootMc_some {s : State} {c : Nat} (h : chooseCopy s 0 = some c) :
    bootMc s = runMc (setMc (fun m => { m with mcCopy := c }) (setFld (romFound s) MC_STATUS MC_STATUS_STATE 3)) := by
  unfold bootMc
  rw [romMc_some h]
  refine if_pos ?_
  rw [fld_setMc, fld_setFld _ _ _ _ (by decide)]
  decide

theorem bootMc_none {s : State} (h : chooseCopy s 0 = none) (hheld : s.mc.held = true) :
    bootMc s = logErr 0x0A02 0x03 none 0
      (setMc (fun m => { m with expired := false }) (setFld (romFound s) MC_STATUS MC_STATUS_STATE 2)) := by
  unfold bootMc
  rw [romMc_none h hheld]
  refine if_neg ?_
  rw [fld_of_csr (logErr_csr _ _ _ _ _), fld_setMc, fld_setFld _ _ _ _ (by decide)]
  decide

theorem mcBooted_bootMc (s : State) (hheld : s.mc.held = true) : McBooted s (bootMc s) := by
  obtain ⟨hid, hser⟩ := romFound_words s
  have hrom := bootKept_romFound s
  cases hcc : chooseCopy s 0 with
  | some c =>
    rw [bootMc_some hcc]
    generalize hu : setMc (fun m => { m with mcCopy := c }) (setFld (romFound s) MC_STATUS MC_STATUS_STATE 3) = u
    have hk : bootKept u = setMc (fun m => { m with mcCopy := c }) (setMc romAnew (bootKept s)) := by
      rw [← hu, bootKept_setMc _ fun _ => rfl, bootKept_setFld, hrom]
    have part {α : Type} (g : State → α) : g (bootKept (runMc u)) =
        g (setMc (fun m => { m with mcCopy := c }) (setMc romAnew (bootKept s))) := congrArg g ((bootKept_runMc u).trans hk)
    have hw : WordsKept (romFound s) u [MC_STATUS] := by
      rw [← hu]
      exact fun o ho => (rget_setMc _ _ o).trans (wordsKept_setFld _ MC_STATUS _ _ o ho)
    constructor
    case mc =>
      exact ⟨by simpa [-bootKept_runMc, romAnew] using part fun v => v.mc.pwrGood,
        by simpa [-bootKept_runMc, romAnew, hheld] using part fun v => v.mc.held,
        by simpa [-bootKept_runMc, romAnew] using part fun v => v.mc.flash⟩
    case mem => simpa [-bootKept_runMc] using part State.mem
    case core => simpa [-bootKept_runMc] using part State.core
    case pwr => simpa [-bootKept_runMc] using part State.pwr
    case valid => rw [flag_runMc_idValid, hw.flag (by decide), hid]
    case serial => rw [wordsKept_runMc u _ (by decide), hw _ (by decide), hser]
    case runs =>
      rintro d hd
      obtain rfl : c = d := Option.some.inj (hcc.symm.trans hd)
      exact ⟨fld_runMc_state u, by simpa [-bootKept_runMc, romAnew] using part fun v => v.mc.mcCopy⟩
    case waits => intro hn; cases hcc.symm.trans hn
  | none =>
    rw [bootMc_none hcc hheld]
    generalize hu : setMc (fun m => { m with expired := false }) (setFld (romFound s) MC_STATUS MC_STATUS_STATE 2) = u
    have hk : bootKept u = setMc (fun m => { m with expired := false }) (setMc romAnew (bootKept s)) := by
      rw [← hu, bootKept_setMc _ fun _ => rfl, bootKept_setFld, hrom]
    have part {α : Type} (g : State → α) : g (bootKept u) =
        g (setMc (fun m => { m with expired := false }) (setMc romAnew (bootKept s))) := congrArg g hk
    have hw : WordsKept (romFound s) u [MC_STATUS] := by
      rw [← hu]
      exact fun o ho => (rget_setMc _ _ o).trans (wordsKept_setFld _ MC_STATUS _ _ o ho)
    constructor
    case mc =>
      rw [logErr_mc]
      exact ⟨by simpa [romAnew] using part fun v => v.mc.pwrGood, by simpa [romAnew, hheld] using part fun v => v.mc.held,
        by simpa [romAnew] using part fun v => v.mc.flash⟩
    case mem => simpa using part State.mem
    case core => simpa using part State.core
    case pwr => simpa using part State.pwr
    case valid => rw [flag_of_csr (logErr_csr _ _ _ _ _), hw.flag (by decide), hid]
    case serial => rw [rget_of_csr (logErr_csr _ _ _ _ _), hw _ (by decide), hser]
    case runs => intro d hd; cases hcc.symm.trans hd
    case waits =>
      refine fun _ => ⟨?_, _, List.mem_append_right _ (List.mem_singleton.mpr rfl), rfl⟩
      rw [fld_of_csr (logErr_csr _ _ _ _ _), ← hu, fld_setMc, fld_setFld _ _ _ _ (by decide)]
      decide

end Sys2Proof.Machine
end

section
/-!
PROOFS. O41: each row of power and reset in turn, then the obligation.
-/
namespace Sys2Proof.Machine
open Sys2Proof

/-! ### Start of the control cluster -/

theorem chooseCopy_logBadCopies (t k : Nat) (s : State) : chooseCopy (logBadCopies t s) k = chooseCopy s k := by
  have hm {α : Type} (g : McSt → α) (hg : ∀ m, g { m with meas := [] } = g m) : g (logBadCopies t s).mc = g s.mc := by
    have h := congrArg (fun v : State => g v.mc) (bootKept_logBadCopies t s)
    simpa only [bootKept_mc, hg] using h
  exact chooseCopy_of_mc (hm McSt.flash fun _ => rfl) (hm McSt.mcCtr fun _ => rfl) (hm McSt.ccCtr fun _ => rfl) k

theorem bootCc_some {s : State} {c : Nat} (h : chooseCopy s 1 = some c) :
    bootCc s = measureFw 1 c (showFw 1
      (setMc (fun m => { m with ccCopy := c }) (setFld (logBadCopies 1 s) MC_STATUS MC_STATUS_CC_RUNNING 1))) := by
  have h' := (chooseCopy_logBadCopies 1 1 s).trans h
  unfold bootCc
  extract_lets t
  split
  case h_1 d hd =>
    obtain rfl : c = d := Option.some.inj (h'.symm.trans hd)
    rfl
  case h_2 hd => cases h'.symm.trans hd

theorem bootCc_none {s : State} (h : chooseCopy s 1 = none) :
    bootCc s = logErr 0x0A03 0x03 none 0 (setFld (logBadCopies 1 s) MC_STATUS MC_STATUS_CC_RUNNING 0) := by
  have h' := (chooseCopy_logBadCopies 1 1 s).trans h
  unfold bootCc
  extract_lets t
  split
  case h_1 d hd => cases h'.symm.trans hd
  case h_2 hd => rfl

/-- What the start of the control cluster leaves in `t` (R512 steps 5 and 6). -/
structure CcBooted (s t : State) : Prop where
  words  : WordsKept s t [MC_STATUS, MC_FW, CC_FW, MEAS_GEN]
  rest   : t.now = s.now ∧ t.pwr = s.pwr ∧ t.mc.held = s.mc.held ∧ t.mc.refLost = s.mc.refLost
  runs   : ∀ c, chooseCopy s 1 = some c → flag t MC_STATUS MC_STATUS_CC_RUNNING = true ∧ t.mc.ccCopy = c
  waits  : chooseCopy s 1 = none → flag t MC_STATUS MC_STATUS_CC_RUNNING = false ∧ ∃ e ∈ t.log.inFlight, e.code = 0x0A03

theorem ccBooted_bootCc (s : State) : CcBooted s (bootCc s) := by
  have hbad : WordsKept s (logBadCopies 1 s) [MC_STATUS] := wordsKept_of_csr (csr_logBadCopies 1 s) _
  cases hcc : chooseCopy s 1 with
  | some c =>
    rw [bootCc_some hcc]
    generalize hu : setMc (fun m => { m with ccCopy := c }) (setFld (logBadCopies 1 s) MC_STATUS MC_STATUS_CC_RUNNING 1) = u
    have hw : WordsKept s u [MC_STATUS] := by
      rw [← hu]
      exact hbad.trans fun o ho => (rget_setMc _ _ o).trans (wordsKept_setFld _ MC_STATUS _ _ o ho)
    have hk : bootKept (measureFw 1 c (showFw 1 u)) = setMc (fun m => { m with ccCopy := c }) (bootKept s) := by
      rw [bootKept_measureFw, bootKept_showFw, ← hu, bootKept_setMc _ fun _ => rfl, bootKept_setFld, bootKept_logBadCopies]
    have part {α : Type} (g : State → α) : g (bootKept (measureFw 1 c (showFw 1 u))) =
        g (setMc (fun m => { m with ccCopy := c }) (bootKept s)) := congrArg g hk
    constructor
    case words => exact ((hw.append (wordsKept_showFw 1 u)).append (wordsKept_measureFw 1 c _)).mono (by decide)
    case rest =>
      exact ⟨by simpa [-bootKept_measureFw] using part State.now, by simpa [-bootKept_measureFw] using part State.pwr,
        by simpa [-bootKept_measureFw] using part fun v => v.mc.held,
        by simpa [-bootKept_measureFw] using part fun v => v.mc.refLost⟩
    case runs =>
      rintro d hd
      obtain rfl : c = d := Option.some.inj (hcc.symm.trans hd)
      refine ⟨?_, by simpa [-bootKept_measureFw] using part fun v => v.mc.ccCopy⟩
      rw [(wordsKept_measureFw 1 c _).flag (by decide), (wordsKept_showFw 1 u).flag (by decide), ← hu, flag_setMc,
        flag_setFld _ _ _ _ rfl (by decide)]
      rfl
    case waits => intro hn; cases hcc.symm.trans hn
  | none =>
    rw [bootCc_none hcc]
    generalize hu : setFld (logBadCopies 1 s) MC_STATUS MC_STATUS_CC_RUNNING 0 = u
    have hw : WordsKept s u [MC_STATUS] := by
      rw [← hu]
      exact hbad.trans (wordsKept_setFld _ MC_STATUS _ _)
    have hk : bootKept u = bootKept s := by rw [← hu, bootKept_setFld, bootKept_logBadCopies]
    have part {α : Type} (g : State → α) : g (bootKept u) = g (bootKept s) := congrArg g hk
    constructor
    case words => exact (hw.mono (by decide)).trans (wordsKept_of_csr (logErr_csr _ _ _ _ _) _)
    case rest =>
      rw [logErr_now, logErr_pwr, logErr_mc]
      exact ⟨by simpa using part State.now, by simpa using part State.pwr, by simpa using part fun v => v.mc.held,
        by simpa using part fun v => v.mc.refLost⟩
    case runs => intro d hd; cases hcc.symm.trans hd
    case waits =>
      refine fun _ => ⟨?_, _, List.mem_append_right _ (List.mem_singleton.mpr rfl), rfl⟩
      rw [flag_of_csr (logErr_csr _ _ _ _ _), ← hu, flag_setFld _ _ _ _ rfl (by decide)]
      rfl

/-! ### The end of device reset -/

/-- R583: the conditions under which device reset ends. -/
structure Releasable (s : State) : Prop where
  power : s.mc.pwrGood = true
  held  : s.mc.held = true
  on    : s.mc.compOff = false
  ref   : s.mc.refLost = false
  boots : fld s MC_STATUS MC_STATUS_STATE = 1

/-- The compute side let go, with no thermal trip pending, before its start-up. -/
def unheld (s : State) : State := setMc (fun m => { m with held := false }) { s with pwr := { s.pwr with tripped := false } }

theorem release_of {s : State} (h : Releasable s) (f : StartUp) : release f s = bootCc (startUp f (unheld s)) := by
  obtain ⟨hp, hh, ho, hr, hb⟩ := h
  refine if_neg ?_
  simp [hp, hh, ho, hr, hb]

theorem startKept_unheld (s : State) :
    startKept (unheld s) = ({ s.mc with meas := [], held := false }, s.now, s.pwr.saved) := rfl

/-- What the end of device reset leaves in `t` (R512, R545, R583). -/
structure Left (s t : State) : Prop where
  mc     : t.mc.held = false ∧ t.mc.refLost = false
  now    : t.now = s.now
  valid  : flag t GLB_STATUS GLB_STATUS_SHADOW_VALID = true
  runs   : ∀ c, chooseCopy s 1 = some c → flag t MC_STATUS MC_STATUS_CC_RUNNING = true ∧ t.mc.ccCopy = c
  waits  : chooseCopy s 1 = none → flag t MC_STATUS MC_STATUS_CC_RUNNING = false ∧ ∃ e ∈ t.log.inFlight, e.code = 0x0A03
  credit : ∀ a b c, s.pwr.saved = some (a, b, c) → t.pwr.credit = 10 * (a - 600)

theorem restoreCredit_parts (s : State) :
    (restoreCredit s).mc = s.mc ∧ (restoreCredit s).log = s.log ∧ (restoreCredit s).now = s.now ∧
    WordsKept s (restoreCredit s) [PWR_BOOST] ∧
    ∀ a b c, s.pwr.saved = some (a, b, c) → (restoreCredit s).pwr.credit = 10 * (a - 600) := by
  refine ⟨setFld_mc _ _ _ _, setFld_log _ _ _ _, setFld_now _ _ _ _, fun o ho => ?_, fun a b c h => ?_⟩
  · exact (wordsKept_setFld _ PWR_BOOST PWR_BOOST_CREDIT _ o ho).trans (rget_of_csr rfl o)
  · unfold restoreCredit
    rw [setFld_pwr, h]

theorem left_leaveReset {s : State} (h : Releasable s) (f : StartUp) : Left s (leaveReset f s) := by
  have hk : startKept (startUp f (unheld s)) = ({ s.mc with meas := [], held := false }, s.now, s.pwr.saved) :=
    (startKept_startUp f _).trans (startKept_unheld s)
  have hcc : CcBooted (startUp f (unheld s)) (release f s) := release_of h f ▸ ccBooted_bootCc _
  have hvalid := shadowValid_startUp f (unheld s)
  generalize startUp f (unheld s) = u at hk hcc hvalid
  obtain ⟨hum, hun, hus⟩ : { u.mc with meas := [] } = { s.mc with meas := [], held := false } ∧ u.now = s.now ∧
      u.pwr.saved = s.pwr.saved := by simpa [startKept] using hk
  have hmc {α : Type} (g : McSt → α) (hg : ∀ m, g { m with meas := [] } = g m) : g u.mc = g { s.mc with held := false } := by
    have e := congrArg g hum
    rw [hg] at e
    exact e.trans (hg { s.mc with held := false })
  have hchoose : chooseCopy u 1 = chooseCopy s 1 :=
    chooseCopy_of_mc (hmc McSt.flash fun _ => rfl) (hmc McSt.mcCtr fun _ => rfl) (hmc McSt.ccCtr fun _ => rfl) 1
  obtain ⟨hwords, ⟨hnow, hpwr, hheld, href⟩, hruns, hwaits⟩ := hcc
  have huheld : u.mc.held = false := hmc McSt.held fun _ => rfl
  have huref : u.mc.refLost = false := (hmc McSt.refLost fun _ => rfl).trans h.ref
  have hleave : leaveReset f s = restoreCredit (release f s) := if_pos (by simp [h.held, hheld, huheld])
  rw [hleave]
  generalize release f s = r at hwords hnow hpwr hheld href hruns hwaits
  obtain ⟨hrm, hrl, hrn, hrw, hrc⟩ := restoreCredit_parts r
  constructor
  case mc => rw [hrm, hheld, href]; exact ⟨huheld, huref⟩
  case now => rw [hrn, hnow, hun]
  case valid => rw [hrw.flag (by decide), hwords.flag (by decide), hvalid]
  case runs => rw [hrw.flag (by decide), hrm, ← hchoose]; exact hruns
  case waits => rw [hrw.flag (by decide), hrl, ← hchoose]; exact hwaits
  case credit =>
    intro a b c hs
    exact hrc a b c (by rw [hpwr, hus, hs])

/-- A cold reference clock that returns, or a release that does not apply, leaves the reference as it is and takes no time. -/
theorem leaveReset_ref (f : StartUp) (s : State) (h : s.mc.refLost = false) :
    (leaveReset f s).mc.refLost = false ∧ (leaveReset f s).now = s.now := by
  by_cases hr : Releasable s
  · obtain ⟨⟨-, href⟩, hnow, -⟩ := left_leaveReset hr f
    exact ⟨href, hnow⟩
  · have hrel : release f s = s := by
      refine if_pos ?_
      by_contra hc
      simp only [Bool.or_eq_true, Bool.not_eq_true', decide_eq_true_eq, not_or, Bool.not_eq_true, Bool.not_eq_false,
        not_not] at hc
      obtain ⟨⟨⟨⟨hp, hh⟩, ho⟩, hl⟩, hb⟩ := hc
      exact hr ⟨hp, hh, ho, hl, hb⟩
    have hleave : leaveReset f s = s := by
      unfold leaveReset
      simp only [hrel]
      exact if_neg (by cases s.mc.held <;> simp)
    rw [hleave]
    exact ⟨h, rfl⟩

end Sys2Proof.Machine
end

section
/-!
PROOFS. O41: the rows of power and resets, one by one, then the obligation.
-/
namespace Sys2Proof.Machine
open Sys2Proof

theorem exec_coldReset (s : State) : exec .coldReset s = .next (coldReset s) := rfl

theorem coldReset_row (s : State) : Runs .coldReset s fun t =>
    (∀ o, rget t o = resetWord o) ∧ t.core = CoreSt.reset ∧ t.mem = MemSt.reset ∧
    t.mc.mcCtr = s.mc.mcCtr ∧ t.mc.ccCtr = s.mc.ccCtr ∧ t.mc.ownerCtr = s.mc.ownerCtr ∧ t.mc.flash = s.mc.flash ∧
    t.mc.pwrGood = false ∧ t.mc.held = true ∧ t.pending = s.pending :=
  ⟨_, exec_coldReset s, rget_of_csr_nil rfl, rfl, rfl, rfl, rfl, rfl, rfl, rfl, rfl, rfl⟩

theorem vinLoss_row (s : State) (v us : Nat) :
    exec (.vinLoss v us) s = if v < 300 ∨ (v < 380 ∧ 50 < us) then exec .coldReset s else .next s := by
  rw [exec_coldReset]
  exact apply_ite Host.Outcome.next (v < 300 ∨ (v < 380 ∧ 50 < us)) (coldReset s) s

theorem refAbsent_parts (s : State) : (refAbsent s).csr = s.csr ∧ (refAbsent s).mc = s.mc ∧ (refAbsent s).mem = s.mem ∧
    (refAbsent s).core = s.core ∧ (refAbsent s).pwr = s.pwr ∧ s.log.inFlight ⊆ (refAbsent s).log.inFlight := by
  unfold refAbsent
  split
  · exact ⟨logAs_csr _ _ _ _ _ _, logAs_mc _ _ _ _ _ _, logAs_mem _ _ _ _ _ _, logAs_core _ _ _ _ _ _,
      logAs_pwr _ _ _ _ _ _, List.subset_append_left _ _⟩
  · exact ⟨rfl, rfl, rfl, rfl, rfl, fun _ h => h⟩

/-- The entry of an absent reference leaves what the boot of the MC has set. -/
theorem McBooted.refAbsent {s t : State} (h : McBooted s t) : McBooted s (refAbsent t) := by
  obtain ⟨hcsr, hmc, hmem, hcore, hpwr, hlog⟩ := refAbsent_parts t
  constructor
  case mc => rw [hmc]; exact h.mc
  case mem => rw [hmem]; exact h.mem
  case core => rw [hcore]; exact h.core
  case pwr => rw [hpwr]; exact h.pwr
  case valid => rw [flag_of_csr hcsr]; exact h.valid
  case serial => rw [rget_of_csr hcsr]; exact h.serial
  case runs => rw [fld_of_csr hcsr, hmc]; exact h.runs
  case waits =>
    intro hn
    obtain ⟨hst, e, he, hcode⟩ := h.waits hn
    exact ⟨by rw [fld_of_csr hcsr]; exact hst, e, hlog he, hcode⟩

/-- The saved life counters, where there are any, appear in `PWR_LIFE` (R545). -/
def showLife (s : State) : State :=
  match s.pwr.saved with
  | some (_, oper, boost) => setFld (setFld s PWR_LIFE PWR_LIFE_OPER_MIN oper) PWR_LIFE PWR_LIFE_BOOST_MIN boost
  | none => s

theorem exec_pwrGoodRise {s : State} (h : s.mc.pwrGood = false) :
    exec .pwrGoodRise s = .next (showLife (refAbsent (bootMc (setMc (fun m => { m with pwrGood := true }) s)))) := by
  show execPwrGoodRise s = _
  unfold execPwrGoodRise
  rw [if_neg (by simp [h])]
  extract_lets t
  have ht : t = refAbsent (bootMc (setMc (fun m => { m with pwrGood := true }) s)) := rfl
  rw [← ht]
  clear_value t
  rfl

theorem showLife_parts (s : State) : (showLife s).mc = s.mc ∧ (showLife s).mem = s.mem ∧ (showLife s).core = s.core ∧
    (showLife s).log = s.log ∧ WordsKept s (showLife s) [PWR_LIFE] := by
  unfold showLife
  split
  · refine ⟨?_, ?_, ?_, ?_, (wordsKept_setFld s PWR_LIFE PWR_LIFE_OPER_MIN _).trans
      (wordsKept_setFld _ PWR_LIFE PWR_LIFE_BOOST_MIN _)⟩ <;> simp
  · exact ⟨rfl, rfl, rfl, rfl, fun _ _ => rfl⟩

theorem fld_showLife {s : State} {a b c : Nat} (h : s.pwr.saved = some (a, b, c)) :
    fld (showLife s) PWR_LIFE PWR_LIFE_OPER_MIN = b % 2 ^ 32 ∧ fld (showLife s) PWR_LIFE PWR_LIFE_BOOST_MIN = c % 2 ^ 32 := by
  have e : showLife s = setFld (setFld s PWR_LIFE PWR_LIFE_OPER_MIN b) PWR_LIFE PWR_LIFE_BOOST_MIN c := by
    unfold showLife; rw [h]
  rw [e]
  constructor
  · rw [fld_setFld_other _ _ PWR_LIFE_BOOST_MIN PWR_LIFE_OPER_MIN _ (by decide) rfl (by decide),
      fld_setFld _ _ _ _ (by decide)]
    rfl
  · rw [fld_setFld _ _ _ _ (by decide)]; rfl

theorem pwrGoodRise_row {s : State} (hp : s.mc.pwrGood = false) (hh : s.mc.held = true) : Runs .pwrGoodRise s fun t =>
    t.mc.pwrGood = true ∧ t.mc.held = true ∧ flag t GLB_STATUS GLB_STATUS_ID_VALID = true ∧ rget t GLB_SERIAL = Config.serial ∧
    t.mc.flash = s.mc.flash ∧ t.mem = s.mem ∧ t.core = s.core ∧
    (∀ c, chooseCopy s 0 = some c → fld t MC_STATUS MC_STATUS_STATE = 1 ∧ t.mc.mcCopy = c) ∧
    (chooseCopy s 0 = none → fld t MC_STATUS MC_STATUS_STATE = 2 ∧ ∃ e ∈ t.log.inFlight, e.code = 0x0A02) ∧
    ∀ a b c, s.pwr.saved = some (a, b, c) → fld t PWR_LIFE PWR_LIFE_OPER_MIN = b % 2 ^ 32 ∧
      fld t PWR_LIFE PWR_LIFE_BOOST_MIN = c % 2 ^ 32 := by
  refine ⟨_, exec_pwrGoodRise hp, ?_⟩
  generalize hp' : setMc (fun m => { m with pwrGood := true }) s = p
  have hchoose : chooseCopy p 0 = chooseCopy s 0 := by
    have hm : p.mc = { s.mc with pwrGood := true } := by rw [← hp', setMc_mc]
    exact chooseCopy_of_mc (by rw [hm]) (by rw [hm]) (by rw [hm]) 0
  obtain ⟨hpmem, hpcore, hppwr⟩ : p.mem = s.mem ∧ p.core = s.core ∧ p.pwr = s.pwr := by simp [← hp']
  obtain ⟨hpgood, hpheld, hpflash⟩ : p.mc.pwrGood = true ∧ p.mc.held = true ∧ p.mc.flash = s.mc.flash := by simp [← hp', hh]
  have hboot := (mcBooted_bootMc p hpheld).refAbsent
  generalize refAbsent (bootMc p) = u at *
  obtain ⟨⟨hgood, hheld, hflash⟩, hmem, hcore, hpwr, hvalid, hser, hruns, hwaits⟩ := hboot
  rw [hchoose] at hruns hwaits
  rw [hpmem] at hmem
  rw [hpcore] at hcore
  rw [hppwr] at hpwr
  rw [hpgood] at hgood
  rw [hpflash] at hflash
  obtain ⟨hmc', hmem', hcore', hlog', hw⟩ := showLife_parts u
  rw [hw.flag (by decide), hw _ (by decide), hw.fld (by decide), hmc', hmem', hcore', hlog']
  exact ⟨hgood, hheld, hvalid, hser, hflash, hmem, hcore, hruns, hwaits,
    fun a b c h => fld_showLife (by rw [hpwr, h])⟩

theorem exec_pwrGoodRise_again {s : State} (h : s.mc.pwrGood = true) : exec .pwrGoodRise s = .next s :=
  congrArg Host.Outcome.next (if_pos h)

theorem exec_devResetNPulse_ignored {s : State} {ns : Nat} (h : ns < 100) : exec (.devResetNPulse ns) s = .next s :=
  congrArg Host.Outcome.next (if_pos (by simp [h]))

theorem exec_devResetNPulse {s : State} (h : s.mc.pwrGood = true) {ns : Nat} (hn : 100 ≤ ns) :
    exec (.devResetNPulse ns) s = .next (if 1000 ≤ ns then pinReset s
      else if bit1 (freshValue s).1 0 then pinReset (freshValue s).2 else (freshValue s).2) :=
  congrArg Host.Outcome.next (if_neg (by simp [h, hn]))

/-- Between 100 ns and 1 µs the model leaves the reset open: a free value decides it (log 4). -/
theorem devResetNPulse_row_open {s : State} (h : s.mc.pwrGood = true) {ns : Nat} (h₁ : 100 ≤ ns) (h₂ : ns < 1000) :
    Runs (.devResetNPulse ns) s fun t =>
      t = { s with free := s.free + 1 } ∨ DeviceReset { s with free := s.free + 1 } t := by
  refine ⟨_, exec_devResetNPulse h h₁, ?_⟩
  rw [if_neg (Nat.not_le.mpr h₂)]
  by_cases hb : bit1 (freshValue s).1 0 = true
  · rw [if_pos hb]
    exact .inr (pinReset_spec _).1
  · rw [if_neg hb]
    exact .inl rfl

theorem devResetNPulse_row {s : State} (h : s.mc.pwrGood = true) {ns : Nat} (hn : 1000 ≤ ns) :
    Runs (.devResetNPulse ns) s fun t => DeviceReset s t ∧ t.mc.compOff = (s.mc.compOff && s.pwr.tripped) := by
  refine ⟨_, exec_devResetNPulse h (by omega), ?_⟩
  rw [if_pos hn]
  exact pinReset_spec s

theorem runIf_of {wf : Bool} (h : wf = true) (s : State) : runIf wf s = .next s := if_pos h

theorem exec_deviceResetRelease {f : StartUp} (hf : startUpOk f = true) (s : State) :
    exec (.deviceResetRelease f) s = .next (leaveReset f s) := runIf_of hf _

theorem computeUp_row {s : State} (hh : s.mc.held = false) (ho : s.mc.compOff = false)
    (hr : flag s MC_STATUS MC_STATUS_CC_RUNNING = true) (hv : flag s GLB_STATUS GLB_STATUS_SHADOW_VALID = true)
    (hu : flag s GLB_STATUS GLB_STATUS_COMPUTE_UP = false) : Runs .computeUp s fun t =>
      flag t GLB_STATUS GLB_STATUS_COMPUTE_UP = true ∧ t.load.deadline = some (paceTime s) ∧
      WordsKept s t [GLB_STATUS] ∧ t = { s with csr := t.csr, load := t.load } := by
  have e : exec .computeUp s = .next (showLive { setFld s GLB_STATUS GLB_STATUS_COMPUTE_UP 1 with
      load := { s.load with deadline := some (paceTime s) } }) :=
    congrArg Host.Outcome.next (if_neg (by simp [hh, ho, hr, hv, hu]))
  refine ⟨_, e, ?_, congrArg LoadSt.deadline (setFld_load _ _ _ _), ?_, rfl⟩
  · rw [flag_showLive _ _ rfl (by decide)]
    exact flag_setFld s _ _ _ rfl (by decide)
  · exact (wordsKept_setFld s GLB_STATUS GLB_STATUS_COMPUTE_UP 1).trans fun o ho =>
      (wordsKept_showLive _ o ho).trans (rget_of_csr rfl o)

theorem logsAs_logAs (cls : ErrClass) (code src i : Nat) (s : State) : LogsAs s (logAs cls code src none i s) code src cls i :=
  ⟨_, rfl, rfl, rfl, rfl, rfl⟩

theorem exec_cyrefMissing {s : State} (h : s.mc.refLost = false) :
    exec .cyrefMissing s = .next (if s.mc.held then refAbsent (setMc (fun m => { m with refLost := true }) s)
      else logAs .fatal 0x0A0E 0x03 none 0 (setMc (fun m => { m with refLost := true }) s)) :=
  congrArg Host.Outcome.next (if_neg (by simp [h]))

theorem cyrefMissing_row {s : State} (h : s.mc.refLost = false) : Runs .cyrefMissing s fun t =>
    t = { s with mc := { s.mc with refLost := true }, log := t.log } ∧
    (s.mc.held = false → LogsAs s t 0x0A0E 0x03 .fatal 0) ∧
    (s.mc.held = true → fld s MC_STATUS MC_STATUS_STATE = 1 → LogsAs s t 0x0A0E 0x03 .notice 0) ∧
    (s.mc.held = true → fld s MC_STATUS MC_STATUS_STATE ≠ 1 → t.log = s.log) := by
  refine ⟨_, exec_cyrefMissing h, ?_⟩
  generalize hu : setMc (fun m => { m with refLost := true }) s = u
  have hlost : u.mc.refLost = true := by rw [← hu]; rfl
  have hlog : u.log = s.log := by rw [← hu]; rfl
  have hfld : fld u MC_STATUS MC_STATUS_STATE = fld s MC_STATUS MC_STATUS_STATE := by rw [← hu]; exact fld_setMc _ _ _ _
  have hlogged (l : LogSt) : { u with log := l } = { s with mc := { s.mc with refLost := true }, log := l } := by
    rw [← hu]; rfl
  have hself : u = { s with mc := { s.mc with refLost := true }, log := u.log } := hlogged u.log
  have hlogs (cls : ErrClass) : logAs cls 0x0A0E 0x03 none 0 u =
      { s with mc := { s.mc with refLost := true }, log := (logAs cls 0x0A0E 0x03 none 0 u).log } := hlogged _
  have hin (cls : ErrClass) : LogsAs s (logAs cls 0x0A0E 0x03 none 0 u) 0x0A0E 0x03 cls 0 := by
    have hl := logsAs_logAs cls 0x0A0E 0x03 0 u
    unfold LogsAs at hl ⊢
    rwa [hlog] at hl
  cases hheld : s.mc.held with
  | false => exact ⟨hlogs _, fun _ => hin _, nofun, nofun⟩
  | true =>
    by_cases hst : fld s MC_STATUS MC_STATUS_STATE = 1
    · have e : refAbsent u = logAs .notice 0x0A0E 0x03 none 0 u := if_pos (by simp [hlost, hfld, hst])
      rw [if_pos rfl, e]
      exact ⟨hlogs _, nofun, fun _ _ => hin _, fun _ hn => absurd hst hn⟩
    · have e : refAbsent u = u := if_neg (by simp [hfld, hst])
      rw [if_pos rfl, e]
      exact ⟨hself, nofun, fun _ h1 => absurd h1 hst, fun _ _ => hlog⟩

theorem exec_cyrefAppear {f : StartUp} (hf : startUpOk f = true) {s : State} (h : s.mc.refLost = true) :
    exec (.cyrefAppear f) s =
      .next (leaveReset f (setMc (fun m => { m with refLost := false }) { s with now := s.now + 100000000 })) :=
  (runIf_of hf _).trans (congrArg Host.Outcome.next (if_pos h))

theorem cyrefAppear_row {f : StartUp} (hf : startUpOk f = true) {s : State} (h : s.mc.refLost = true) :
    Runs (.cyrefAppear f) s fun t => t.mc.refLost = false ∧ t.now = s.now + 100000000 ∧
      (s.mc.pwrGood = true → s.mc.held = true → s.mc.compOff = false → fld s MC_STATUS MC_STATUS_STATE = 1 →
        t.mc.held = false) := by
  refine ⟨_, exec_cyrefAppear hf h, ?_⟩
  have hst : fld (setMc (fun m => { m with refLost := false }) { s with now := s.now + 100000000 }) MC_STATUS MC_STATUS_STATE =
      fld s MC_STATUS MC_STATUS_STATE := (fld_setMc _ _ _ _).trans (fld_of_csr rfl _ _)
  obtain ⟨href, hnow⟩ :=
    leaveReset_ref f (setMc (fun m => { m with refLost := false }) { s with now := s.now + 100000000 }) rfl
  refine ⟨href, hnow, fun hp hh ho hb => ?_⟩
  have hr : Releasable (setMc (fun m => { m with refLost := false }) { s with now := s.now + 100000000 }) :=
    ⟨hp, hh, ho, rfl, hst.trans hb⟩
  obtain ⟨⟨hheld, -⟩, -⟩ := left_leaveReset hr f
  exact hheld

/-- Settles O41: each row of power and resets by what its one state operation leaves. -/
theorem powerAndResets : Obligations.PowerAndResets := by
  intro s
  refine ⟨coldReset_row s, vinLoss_row s, pwrGoodRise_row, fun hp => ?_, fun f hf hp hh ho hr hb => ?_, computeUp_row,
    cyrefMissing_row, fun f hf hr => cyrefAppear_row hf hr⟩
  · exact ⟨exec_pwrGoodRise_again hp, fun _ => exec_devResetNPulse_ignored, fun _ => devResetNPulse_row_open hp,
      fun _ => devResetNPulse_row hp⟩
  · obtain ⟨⟨hheld, -⟩, -, hvalid, hruns, hwaits, hcredit⟩ := left_leaveReset ⟨hp, hh, ho, hr, hb⟩ f
    exact ⟨_, exec_deviceResetRelease hf s, hheld, hvalid, hruns, hwaits, hcredit⟩

end Sys2Proof.Machine
end

section
/-!
PROOFS. Access to registers below the core pages: who reaches them (R9, R475), and what each access type of the register table
makes of a written word (R80, R81).
-/
namespace Sys2Proof.Machine
open Sys2Proof

/-! ### Who reaches a register -/

/-- An access to an aligned register word below the core pages faults where it is not permitted, and nowhere else (R475). -/
theorem accessFault_low (s : State) {u o n : Nat} (c : Nat) (w : Bool) (v : Nat) (ho : o < 0x1000000)
    (hn : n = 4 ∨ n = 8) (hal : o % n = 0) : accessFault s u c (3 * 2 ^ 48 + o) n w v =
      if csrPermitted s u c o n w then none else some (0x0102, 3 * 2 ^ 48 + o) := by
  have hoff : offOf (3 * 2 ^ 48 + o) = o := by unfold offOf; omega
  have hsel : selOf (3 * 2 ^ 48 + o) = 3 := by unfold selOf; omega
  have hhome : homeCore (3 * 2 ^ 48 + o) = none := by
    simp only [homeCore, hsel, hoff]
    exact if_neg (by omega)
  have hmap : mapped s (3 * 2 ^ 48 + o) n = true := by
    simp only [mapped, hhome, hsel, hoff, spaceSize, Bool.and_true, Bool.and_eq_true, decide_eq_true_eq]
    exact ⟨by omega, by simp; omega⟩
  have hpage : pageAt o = none := if_neg (by omega)
  have hal' : (3 * 2 ^ 48 + o) % n = 0 := by rcases hn with rfl | rfl <;> omega
  unfold accessFault
  rw [if_neg (by omega), hsel, if_pos rfl]
  simp only [hoff, hmap, hpage, hal']
  rw [if_neg (by rcases hn with rfl | rfl <;> simp)]
  cases csrPermitted s u c o n w <;> rfl

/-- A supervisor's access to an aligned register word below the core pages meets no fault. -/
theorem accessFault_cp (s : State) {u o n : Nat} (c : Nat) (w : Bool) (v : Nat) (hu : isCp u = true) (ho : o < 0x1000000)
    (hn : n = 4 ∨ n = 8) (hal : o % n = 0) : accessFault s u c (3 * 2 ^ 48 + o) n w v = none := by
  have hperm : csrPermitted s u c o n w = true := by simp only [csrPermitted, privOf, hu, if_true]
  rw [accessFault_low s c w v ho hn hal, if_pos hperm]

theorem sleepingPage_low (s : State) {o : Nat} (ho : o < 0x1000000) : sleepingPage s o = none := by
  have hpage : pageAt o = none := if_neg (by omega)
  simp only [sleepingPage, hpage, Option.bind_none]

theorem settlePage_low (s : State) {o : Nat} (ho : o < 0x1000000) : settlePage o s = s := by
  have hpage : pageAt o = none := if_neg (by omega)
  simp only [settlePage, hpage]

theorem unlessAsleep_low (m : Master) {o : Nat} (n : Nat) (v : Option W64) (f : State → State) (s : State) (ho : o < 0x1000000) :
    unlessAsleep m o n v f s = f s := by
  simp only [unlessAsleep, sleepingPage_low s ho]

theorem coreCsr_cp (s : State) {u o n : Nat} (c : Nat) (w : Bool) (v : W64) (f : State → State) (hu : isCp u = true)
    (ho : o < 0x1000000) (hn : n = 4 ∨ n = 8) (hal : o % n = 0) : coreCsr u c o n w v f s = f s := by
  simp only [coreCsr, accessFault_cp s c w v.toNat hu ho hn hal]

/-- A master that may change device settings (R9), whose access meets no sleeping port and no compute side in reset (R475). -/
structure Admin (s : State) (m : Master) : Prop where
  ok    : masterOk m = true
  admin : mayAdmin s m = true
  awake : portAsleep s m = false
  up    : flag s GLB_STATUS GLB_STATUS_COMPUTE_UP = true

/-- A unit that may change device settings is a control processor. -/
theorem isCp_of_mayAdmin {s : State} {u c : Nat} (h : mayAdmin s (.unit u c) = true) : isCp u = true := by
  simpa [mayAdmin, isSupervisor, isOwner] using h

theorem exec_csrWrite_admin {s : State} {m : Master} (h : Admin s m) {o n : Nat} {v : W64} (ho : o < 0x1000000)
    (hn : n = 4 ∨ n = 8) (hal : o % n = 0) (hv : n = 8 ∨ v.toNat < 2 ^ 32) :
    exec (.csrWrite m o n v) s = .next (csrWrite m o n v s) := by
  have hwf : wfCsrWrite m o n v = true := by
    simp only [wfCsrWrite, h.ok, Bool.true_and, Bool.and_eq_true, Bool.or_eq_true, decide_eq_true_eq]
    exact ⟨⟨⟨by omega, hn⟩, hal⟩, hv⟩
  refine (runIf_of hwf _).trans (congrArg Host.Outcome.next ?_)
  cases m with
  | unit u c =>
    have hu := isCp_of_mayAdmin h.admin
    simp only [coreCsr_cp s c true v _ hu ho hn hal, hu, if_true, unlessAsleep_low _ _ _ _ _ ho]
  | _ => simp only [h.awake, Bool.false_eq_true, if_false, unlessAsleep_low _ _ _ _ _ ho]

theorem exec_readClearCounter_admin {s : State} {m : Master} (h : Admin s m) {o n : Nat} (ho : o < 0x1000000)
    (hn : n = 4 ∨ n = 8) (hal : o % n = 0) : exec (.readClearCounter m o n) s = .next (answerRead m o n s) := by
  have hwf : wfReadClearCounter m o n = true := by
    simp only [wfReadClearCounter, h.ok, Bool.true_and, Bool.and_eq_true, Bool.or_eq_true, decide_eq_true_eq]
    exact ⟨⟨by omega, hn⟩, hal⟩
  refine (runIf_of hwf _).trans (congrArg Host.Outcome.next ?_)
  cases m with
  | unit u c =>
    have hu := isCp_of_mayAdmin h.admin
    simp only [coreCsr_cp s c false 0 _ hu ho hn hal, hu, if_true, unlessAsleep_low _ _ _ _ _ ho]
  | host p => simp only [h.awake, Bool.false_eq_true, if_false, unlessAsleep_low _ _ _ _ _ ho]
  | _ => simp only [unlessAsleep_low _ _ _ _ _ ho]

theorem hostBlocked_up {s : State} (h : flag s GLB_STATUS GLB_STATUS_COMPUTE_UP = true) (m : Master) (k : Nat) :
    hostBlocked s m k = false := by
  cases m <;> simp [hostBlocked, h]

theorem mayWrite_of_mayAdmin {s : State} {m : Master} (h : mayAdmin s m = true) {k : Nat}
    (hk : 0x1000 ≤ k ∧ k < 0x8000 ∨ 0x18000 ≤ k ∧ k < 0x100000) : mayWrite s m k = true := by
  have hpage : pageAt k = none := if_neg (by omega)
  unfold mayWrite
  rw [if_neg (by omega), if_neg (by omega), if_neg (by omega), hpage]
  exact h

theorem regWrite_pace {s : State} {m : Master} {k : Nat} (new mask : W64) (h : hostBlocked s m k = false)
    (h₁ : 0x1000 ≤ k) (h₂ : k < 0x2000) : regWrite m k new mask s = writePace m k new mask s := by
  unfold regWrite
  rw [if_neg (by simp [h]), if_neg (by omega), if_pos h₂]

theorem regWrite_load {s : State} {m : Master} {k : Nat} (new mask : W64) (h : hostBlocked s m k = false)
    (h₁ : 0x20000 ≤ k) (h₂ : k < 0x30000) : regWrite m k new mask s = writeLoad m k new mask s := by
  unfold regWrite
  rw [if_neg (by simp [h]), if_neg (by omega), if_neg (by omega), if_neg (by omega), if_neg (by omega), if_neg (by omega),
    if_neg (by omega), if_neg (by omega), if_neg (by omega), if_pos h₂]

/-- A 4-byte write of a register that shares its 8 bytes with another (R80). -/
theorem csrWrite_paired {m : Master} {o : Nat} {v : W64} (s : State) (ho : o < 0x1000000) (hp : paired (o / 8 * 8) = true) :
    csrWrite m o 4 v s = regWrite m o (v &&& lowHalf) lowHalf s := by
  unfold csrWrite
  simp only [settlePage_low s (show o / 8 * 8 < 0x1000000 by omega), hp, if_true]
  exact if_neg (by decide)

/-- An 8-byte write of a register that fills its 8 bytes. -/
theorem csrWrite_whole {m : Master} {o : Nat} {v : W64} (s : State) (ho : o < 0x1000000) (hal : o / 8 * 8 = o)
    (hp : paired o = false) : csrWrite m o 8 v s = regWrite m o v (BitVec.allOnes 64) s := by
  unfold csrWrite
  simp only [hal, settlePage_low s ho, hp, Bool.false_eq_true, if_false, if_true]

/-! ### What a write makes of a word -/

theorem bitsOf_eq_of_getLsbD {x y : W64} {lo w : Nat} (h : ∀ i, i < w → x.getLsbD (lo + i) = y.getLsbD (lo + i)) :
    bitsOf x lo w = bitsOf y lo w := by
  refine Nat.eq_of_testBit_eq fun i => ?_
  simp only [bitsOf, Nat.testBit_mod_two_pow, Nat.testBit_shiftRight]
  by_cases hi : i < w
  · simp only [hi, decide_true, Bool.true_and]
    exact h i hi
  · simp [hi]

theorem plainWrite_of {r : RegDef} {w off : Nat} (h : regAt off = some (r, w)) (free : Bool) (new mask : W64) (s : State) :
    plainWrite off free new mask s = rset s off (accWord r.fields w (!free && rwlLocked s off) (rget s off) new mask) := by
  unfold plainWrite
  simp only [h]

/-- Writes of 1 to write-one-to-clear bits add up. -/
theorem clear_clear (v n a b : W64) : v &&& ~~~(n &&& a) &&& ~~~(n &&& b) = v &&& ~~~(n &&& (a ||| b)) := by
  ext i hi
  simp only [BitVec.getElem_and, BitVec.getElem_not, BitVec.getElem_or]
  cases v[i] <;> cases n[i] <;> cases a[i] <;> cases b[i] <;> rfl

/-- The written bits of a plain field replace the old ones. -/
theorem getLsbD_replaced (old new m : W64) (i : Nat) :
    ((old &&& ~~~m) ||| (new &&& m)).getLsbD i = if m.getLsbD i then new.getLsbD i else old.getLsbD i := by
  simp only [BitVec.getLsbD_or, BitVec.getLsbD_and, BitVec.getLsbD_not]
  by_cases hi : i < 64
  · cases m.getLsbD i <;> simp [hi]
  · simp [BitVec.getLsbD_of_ge _ i (Nat.le_of_not_lt hi)]

theorem regAt_paceInMin : regAt PACE_IN_MIN = some (⟨0x1008, [], 1, 32, .device, [⟨0, 17, .rw, 0x64⟩]⟩, 0) := by decide

theorem regAt_loadAt : regAt LOAD_AT = some (⟨0x20038, [], 1, 64, .device, [⟨0, 64, .rw, 0⟩]⟩, 0) := by decide

theorem accWord_loadAt (locked : Bool) (old new : W64) :
    accWord [⟨0, 64, .rw, 0⟩] 0 locked old new (BitVec.allOnes 64) = new := by
  have hm : (BitVec.ofNat 64 ((2 ^ 64 - 1) * 2 ^ (0 % 64)) : W64) = BitVec.allOnes 64 := by decide
  simp only [accWord, List.foldl_cons, List.foldl_nil, Nat.zero_div, if_true, hm, BitVec.not_allOnes, BitVec.and_zero,
    BitVec.zero_or, BitVec.and_allOnes]

/-- The part of `PACE_IN_MIN` that a 4-byte write replaces. -/
theorem accWord_paceInMin (locked : Bool) (old new : W64) :
    accWord [⟨0, 17, .rw, 0x64⟩] 0 locked old new lowHalf = (old &&& ~~~0x1FFFF) ||| (new &&& 0x1FFFF) := by
  have hm : (BitVec.ofNat 64 ((2 ^ 17 - 1) * 2 ^ (0 % 64))) &&& lowHalf = 0x1FFFF := by decide
  simp only [accWord, List.foldl_cons, List.foldl_nil, Nat.zero_div, if_true, hm]

/-- The word of `PACE_STATUS` in the register table: read-only fields, and the event bits 20 to 27. -/
def paceStatusDef : RegDef :=
  ⟨0x1018, [], 1, 32, .device, [⟨0, 2, .ro, 0⟩, ⟨2, 1, .ro, 0⟩, ⟨3, 1, .ro, 0⟩, ⟨4, 1, .ro, 0⟩, ⟨5, 1, .ro, 0⟩, ⟨8, 8, .ro, 0⟩,
    ⟨16, 4, .ro, 0xF⟩, ⟨20, 1, .w1c, 0⟩, ⟨21, 1, .w1c, 0⟩, ⟨22, 1, .w1c, 0⟩, ⟨23, 1, .w1c, 0⟩, ⟨24, 1, .w1c, 0⟩,
    ⟨25, 1, .w1c, 0⟩, ⟨26, 1, .w1c, 0⟩, ⟨27, 1, .w1c, 0⟩]⟩

theorem regAt_paceStatus : regAt PACE_STATUS = some (paceStatusDef, 0) := by decide

/-- A 4-byte write of `PACE_STATUS` clears the event bits written 1 and no other bit (R81). -/
theorem accWord_paceStatus (locked : Bool) (old new : W64) :
    accWord paceStatusDef.fields 0 locked old new lowHalf = old &&& ~~~(new &&& 0xFF00000) := by
  simp only [paceStatusDef, accWord, List.foldl_cons, List.foldl_nil, Nat.reduceDiv, if_true, clear_clear]
  congr 3

theorem bitsOf_zero_and_lowHalf {v : W64} {w : Nat} (hw : w ≤ 32) : bitsOf (v &&& lowHalf) 0 w = v.toNat % 2 ^ w := by
  have hmask : (v &&& lowHalf).toNat = v.toNat % 2 ^ 32 :=
    (BitVec.toNat_and _ _).trans (Nat.and_two_pow_sub_one_eq_mod v.toNat 32)
  rw [bitsOf, hmask, Nat.shiftRight_zero, Nat.mod_mod_of_dvd _ (Nat.pow_dvd_pow 2 hw)]

theorem getLsbD_lowHalf {i : Nat} (h : i < 32) : lowHalf.getLsbD i = true := by
  have : ∀ k : Fin 32, lowHalf.getLsbD k = true := by decide
  exact this ⟨i, h⟩

/-- The value that a write of the low half would give a field there. -/
theorem bitsOf_merged (s : State) (k : Nat) (v : W64) {w : Nat} (hw : w ≤ 32) :
    bitsOf (merged s k (v &&& lowHalf) lowHalf) 0 w = v.toNat % 2 ^ w := by
  rw [← bitsOf_zero_and_lowHalf hw]
  refine bitsOf_eq_of_getLsbD fun i hi => ?_
  rw [merged, getLsbD_replaced, getLsbD_lowHalf (by omega), if_pos rfl]

end Sys2Proof.Machine
end

section
/-!
PROOFS. O42: the registers' rows, the supplies of the banks and the cables, then the obligation.
-/
namespace Sys2Proof.Machine
open Sys2Proof

/-! ### Writes by the masters that may -/

theorem rget_rset_same (s : State) (o : Nat) (v : W64) : rget (rset s o v) o = v := by rw [rget_rset, if_pos rfl]

theorem rget_emit (x : Output) (s : State) (o : Nat) : rget (emit x s) o = rget s o := rget_of_csr rfl o

theorem csrWrite_paceInMin {m : Master} {s : State} (h : hostBlocked s m PACE_IN_MIN = false) (v : W64) :
    csrWrite m PACE_IN_MIN 4 v s = paceRange m PACE_IN_MIN 100 100000 17 (v &&& lowHalf) lowHalf s := by
  rw [csrWrite_paired s (by decide) (by decide), regWrite_pace _ _ h (by decide) (by decide)]
  unfold writePace
  extract_lets
  rw [if_neg (by decide), if_neg (by decide), if_pos rfl]

theorem paceInMin_taken {s : State} {m : Master} (h : Admin s m) {v : W64} (hv : v.toNat < 2 ^ 32)
    (hlo : v.toNat % 2 ^ 17 ≥ 100) (hhi : v.toNat % 2 ^ 17 ≤ 100000) : Runs (.csrWrite m PACE_IN_MIN 4 v) s fun t =>
      fld t PACE_IN_MIN PACE_IN_MIN_MIN = v.toNat % 2 ^ 17 ∧ WordsKept s t [PACE_IN_MIN] ∧ t = { s with csr := t.csr } := by
  have e : csrWrite m PACE_IN_MIN 4 v s =
      rset s PACE_IN_MIN ((rget s PACE_IN_MIN &&& ~~~0x1FFFF) ||| (v &&& lowHalf &&& 0x1FFFF)) := by
    rw [csrWrite_paceInMin (hostBlocked_up h.up m _)]
    unfold paceRange
    rw [if_neg (by simp [h.admin])]
    simp only [bitsOf_merged s PACE_IN_MIN v (show 17 ≤ 32 by decide)]
    rw [if_neg (by omega), plainWrite_of regAt_paceInMin, accWord_paceInMin]
  refine ⟨_, exec_csrWrite_admin h (by decide) (.inl rfl) (by decide) (.inr hv), ?_⟩
  rw [e]
  refine ⟨?_, wordsKept_rset _ _ _, rfl⟩
  have hread : fld (rset s PACE_IN_MIN ((rget s PACE_IN_MIN &&& ~~~0x1FFFF) ||| (v &&& lowHalf &&& 0x1FFFF)))
      PACE_IN_MIN PACE_IN_MIN_MIN = bitsOf ((rget s PACE_IN_MIN &&& ~~~0x1FFFF) ||| (v &&& lowHalf &&& 0x1FFFF)) 0 17 :=
    congrArg (fun x : W64 => bitsOf x 0 17) (rget_rset_same _ _ _)
  rw [hread, ← bitsOf_zero_and_lowHalf (show 17 ≤ 32 by decide)]
  refine bitsOf_eq_of_getLsbD fun i hi => ?_
  have hmask : ∀ k : Fin 17, (0x1FFFF : W64).getLsbD (0 + k) = true := by decide
  rw [getLsbD_replaced, hmask ⟨i, hi⟩, if_pos rfl]

/-- A refused value of a PACE register is reported, and nothing else changes (R81). -/
theorem paceInvalid_spec (s : State) : WordsKept s (paceInvalid s) [PACE_STATUS] ∧
    flag (paceInvalid s) PACE_STATUS PACE_STATUS_CFG_INVALID = true ∧ LogsAs s (paceInvalid s) 0x0D09 0x20 .notice 0 ∧
    (paceInvalid s).mem = s.mem ∧ (paceInvalid s).core = s.core := by
  have einv : paceInvalid s = logErr 0x0D09 0x20 none 0 (setFld s PACE_STATUS PACE_STATUS_CFG_INVALID 1) := by
    unfold paceInvalid paceReport
    exact if_neg (by decide)
  rw [einv]
  have hw : WordsKept s (setFld s PACE_STATUS PACE_STATUS_CFG_INVALID 1) [PACE_STATUS] := wordsKept_setFld _ _ _ _
  have hset : flag (setFld s PACE_STATUS PACE_STATUS_CFG_INVALID 1) PACE_STATUS PACE_STATUS_CFG_INVALID = true :=
    flag_setFld _ _ _ _ rfl (by decide)
  have hlog : (setFld s PACE_STATUS PACE_STATUS_CFG_INVALID 1).log = s.log := setFld_log _ _ _ _
  have hmem : (setFld s PACE_STATUS PACE_STATUS_CFG_INVALID 1).mem = s.mem := setFld_mem _ _ _ _
  have hcore : (setFld s PACE_STATUS PACE_STATUS_CFG_INVALID 1).core = s.core := setFld_core _ _ _ _
  generalize setFld s PACE_STATUS PACE_STATUS_CFG_INVALID 1 = u at hw hset hlog hmem hcore
  refine ⟨hw.trans (wordsKept_of_csr (logErr_csr _ _ _ _ _) _), ?_, ?_, by rw [logErr_mem, hmem], by rw [logErr_core, hcore]⟩
  · rw [flag_of_csr (logErr_csr _ _ _ _ _), hset]
  · have hl := logsAs_logAs (classOf 0x0D09) 0x0D09 0x20 0 u
    unfold LogsAs at hl ⊢
    rwa [hlog] at hl

theorem paceInMin_refused {s : State} {m : Master} (h : Admin s m) {v : W64} (hv : v.toNat < 2 ^ 32)
    (hout : v.toNat % 2 ^ 17 < 100 ∨ v.toNat % 2 ^ 17 > 100000) : Runs (.csrWrite m PACE_IN_MIN 4 v) s fun t =>
      fld t PACE_IN_MIN PACE_IN_MIN_MIN = fld s PACE_IN_MIN PACE_IN_MIN_MIN ∧ flag t PACE_STATUS PACE_STATUS_CFG_INVALID = true ∧
      LogsAs s t 0x0D09 0x20 .notice 0 ∧ WordsKept s t [PACE_STATUS] := by
  have e : csrWrite m PACE_IN_MIN 4 v s = paceInvalid s := by
    rw [csrWrite_paceInMin (hostBlocked_up h.up m _)]
    unfold paceRange
    rw [if_neg (by simp [h.admin])]
    simp only [bitsOf_merged s PACE_IN_MIN v (show 17 ≤ 32 by decide)]
    rw [if_pos (by omega)]
  refine ⟨_, exec_csrWrite_admin h (by decide) (.inl rfl) (by decide) (.inr hv), ?_⟩
  rw [e]
  obtain ⟨hw, hflag, hlogs, -, -⟩ := paceInvalid_spec s
  exact ⟨hw.fld (by decide), hflag, hlogs, hw⟩

theorem loadAt_taken {s : State} {m : Master} (h : Admin s m) (v : W64) : Runs (.csrWrite m LOAD_AT 8 v) s fun t =>
    rget t LOAD_AT = v ∧ WordsKept s t [LOAD_AT] ∧ t = { s with csr := t.csr } := by
  have e : csrWrite m LOAD_AT 8 v s = rset s LOAD_AT v := by
    rw [csrWrite_whole s (by decide) (by decide) (by decide),
      regWrite_load _ _ (hostBlocked_up h.up m _) (by decide) (by decide)]
    unfold writeLoad
    extract_lets
    rw [if_neg (by decide), if_neg (by decide), if_neg (by decide), plainBy, if_pos (mayWrite_of_mayAdmin h.admin (by decide)),
      plainWrite_of regAt_loadAt, accWord_loadAt]
  refine ⟨_, exec_csrWrite_admin h (by decide) (.inr rfl) (by decide) (.inl rfl), ?_⟩
  rw [e]
  exact ⟨rget_rset_same _ _ _, wordsKept_rset _ _ _, rfl⟩

theorem paceStatus_cleared {s : State} {m : Master} (h : Admin s m) {v : W64} (hv : v.toNat < 2 ^ 32) :
    Runs (.csrWrite m PACE_STATUS 4 v) s fun t =>
      (∀ i, 20 ≤ i → i < 28 → (rget t PACE_STATUS).getLsbD i = ((rget s PACE_STATUS).getLsbD i && !v.getLsbD i)) ∧
      (∀ i, i < 20 → (rget t PACE_STATUS).getLsbD i = (rget s PACE_STATUS).getLsbD i) ∧
      WordsKept s t [PACE_STATUS] ∧ t = { s with csr := t.csr } := by
  have e : csrWrite m PACE_STATUS 4 v s =
      rset s PACE_STATUS (rget s PACE_STATUS &&& ~~~(v &&& lowHalf &&& 0xFF00000)) := by
    rw [csrWrite_paired s (by decide) (by decide), regWrite_pace _ _ (hostBlocked_up h.up m _) (by decide) (by decide)]
    unfold writePace
    extract_lets
    rw [if_neg (by decide), if_neg (by decide), if_neg (by decide), if_neg (by decide), if_neg (by decide), if_neg (by decide),
      if_neg (by decide), if_neg (by decide), plainBy, if_pos (mayWrite_of_mayAdmin h.admin (by decide)),
      plainWrite_of regAt_paceStatus, accWord_paceStatus]
  refine ⟨_, exec_csrWrite_admin h (by decide) (.inl rfl) (by decide) (.inr hv), ?_⟩
  rw [e]
  have events : ∀ i : Fin 28, (0xFF00000 : W64).getLsbD i = decide (20 ≤ i.val) := by decide
  have bit (i : Nat) (hi : i < 28) : (rget s PACE_STATUS &&& ~~~(v &&& lowHalf &&& 0xFF00000)).getLsbD i =
      ((rget s PACE_STATUS).getLsbD i && !(v.getLsbD i && decide (20 ≤ i))) := by
    simp only [BitVec.getLsbD_and, BitVec.getLsbD_not, getLsbD_lowHalf (show i < 32 by omega), events ⟨i, hi⟩,
      show i < 64 by omega, decide_true, Bool.true_and, Bool.and_true]
  refine ⟨fun i h₁ h₂ => ?_, fun i h₂ => ?_, wordsKept_rset _ _ _, rfl⟩
  · rw [rget_rset_same, bit i h₂, decide_eq_true h₁, Bool.and_true]
  · rw [rget_rset_same, bit i (by omega), decide_eq_false (by omega), Bool.and_false, Bool.not_false, Bool.and_true]

/-! ### Read and clear -/

theorem regAt_paceOvrCount :
    regAt PACE_OVR_COUNT = some (⟨0x1058, [], 1, 64, .device, [⟨0, 32, .rc, 0⟩, ⟨32, 32, .rc, 0⟩]⟩, 0) := by decide

theorem clearRc_paceOvrCount (s : State) : clearRc PACE_OVR_COUNT (BitVec.allOnes 64) s = rset s PACE_OVR_COUNT 0 := by
  have hm : (⟨0x1058, [], 1, 64, .device, [⟨0, 32, .rc, 0⟩, ⟨32, 32, .rc, 0⟩]⟩ : RegDef).fields.foldl (fun (v : W64) f =>
      if f.lo / 64 = 0 ∧ f.acc = .rc then v ||| BitVec.ofNat 64 ((2 ^ f.width - 1) * 2 ^ (f.lo % 64)) else v) 0 =
      BitVec.allOnes 64 := by decide
  unfold clearRc
  simp only [regAt_paceOvrCount, hm]
  rw [if_neg (by decide), if_neg (by decide), BitVec.and_self, BitVec.not_allOnes, BitVec.and_zero]
  rfl

theorem csrRead_paceOvrCount {s : State} {m : Master} (h : Admin s m) :
    csrRead m PACE_OVR_COUNT 8 s = (rget s PACE_OVR_COUNT, rset s PACE_OVR_COUNT 0) := by
  have hw : PACE_OVR_COUNT / 8 * 8 = PACE_OVR_COUNT := by decide
  have hp : paired PACE_OVR_COUNT = false := by decide
  have hpage : pageAt PACE_OVR_COUNT = none := by decide
  have hview : regView s PACE_OVR_COUNT = rget s PACE_OVR_COUNT := by
    unfold regView
    simp only [hpage]
    rw [if_neg (by decide), if_neg (by decide), if_neg (by decide), if_neg (by decide), if_neg (by decide), if_neg (by decide),
      if_neg (by decide)]
  have hclear : readClear m PACE_OVR_COUNT (BitVec.allOnes 64) s = rset s PACE_OVR_COUNT 0 := by
    unfold readClear
    rw [if_neg (by simp [mayWrite_of_mayAdmin h.admin (show _ by decide : 0x1000 ≤ PACE_OVR_COUNT ∧ PACE_OVR_COUNT < 0x8000 ∨
      0x18000 ≤ PACE_OVR_COUNT ∧ PACE_OVR_COUNT < 0x100000)])]
    simp only [hpage]
    exact clearRc_paceOvrCount s
  unfold csrRead
  simp only [hw, settlePage_low s (show PACE_OVR_COUNT < 0x1000000 by decide), hp, Bool.false_eq_true, if_false, if_true]
  unfold regRead
  rw [if_neg (by simp [hostBlocked_up h.up]), if_neg (by decide), if_neg (by decide), if_neg (by decide), hview, hclear]

theorem paceOvrCount_read {s : State} {m : Master} (h : Admin s m) : Runs (.readClearCounter m PACE_OVR_COUNT 8) s fun t =>
    t.out = .csrData m (rget s PACE_OVR_COUNT) :: s.out ∧ rget t PACE_OVR_COUNT = 0 ∧ WordsKept s t [PACE_OVR_COUNT] ∧
    t = { s with csr := t.csr, out := t.out } := by
  have e : answerRead m PACE_OVR_COUNT 8 s = emit (.csrData m (rget s PACE_OVR_COUNT)) (rset s PACE_OVR_COUNT 0) := by
    have hp : readPoisoned s PACE_OVR_COUNT = false := by
      have hne : ∀ p ∈ [0, 1], PACE_OVR_COUNT / 8 * 8 ≠ HOSTIF_LWIN_DATA p := by decide
      simp [readPoisoned, hne 0, hne 1]
    unfold answerRead
    simp only [csrRead_paceOvrCount h, hp, Bool.false_eq_true, if_false]
  refine ⟨_, exec_readClearCounter_admin h (by decide) (.inr rfl) (by decide), ?_⟩
  rw [e]
  exact ⟨rfl, (rget_emit _ _ _).trans (rget_rset_same _ _ _), 
    fun o ho => (rget_emit _ _ o).trans (wordsKept_rset s PACE_OVR_COUNT 0 o ho), rfl⟩

end Sys2Proof.Machine
end

section
/-!
PROOFS. O42: a core context and a host without permission, the supplies of the banks, the cables, then the obligation.
-/
namespace Sys2Proof.Machine
open Sys2Proof

/-! ### Those that may not write -/

/-- A core's own access to an aligned word below the core pages, other than a read of a shared register, is refused (R475). -/
theorem accessFault_core (s : State) {u o n : Nat} (c v : Nat) (hu : isCp u = false) (ho : o < 0x1000000)
    (hn : n = 4 ∨ n = 8) (hal : o % n = 0) :
    accessFault s u c (3 * 2 ^ 48 + o) n true v = some (0x0102, 3 * 2 ^ 48 + o) := by
  have hown : ownPage u o = none := if_neg (by simp; omega)
  have hperm : csrPermitted s u c o n true = false := by
    unfold csrPermitted privOf
    rw [if_neg (by simp [hu])]
    split
    next h => split at h <;> cases h
    next => simp only [hown, Bool.not_true, Bool.false_and]
  rw [accessFault_low s c true v ho hn hal, if_neg (by simp [hperm])]

/-- What `faultCtx` makes of a context that runs. -/
def faultedCtx (x : Ctx) (code slot pc info : Nat) : Ctx :=
  { x with
    st := .faulted, reason := 0, cause := 0, hold := .none, haltReq := false, repiOn := false, stepping := false
    fCode := code, fSlot := slot, fDef := false, fPc := pc, fInfo := BitVec.ofNat 64 info }

theorem streamKept_satFld (s : State) (r : Nat) (f : Fld) (n : Nat) : streamKept (satFld s r f n) = streamKept s :=
  streamKept_setFld s r f _

/-- The summary of a core's faults touches registers alone. -/
theorem streamKept_faultSum (s : State) (r code c : Nat) :
    streamKept (if flag s r CORE_FAULT_SUM_VALID then satFld s r CORE_FAULT_SUM_COUNT 1
      else setFld (setFld (setFld s r CORE_FAULT_SUM_FIRST_CODE code) r CORE_FAULT_SUM_FIRST_CTX c) r CORE_FAULT_SUM_VALID 1) =
    streamKept s := by
  split
  · exact streamKept_satFld _ _ _ _
  · exact (streamKept_setFld _ _ _ _).trans ((streamKept_setFld _ _ _ _).trans (streamKept_setFld _ _ _ _))

/-- A fault at issue of a context that runs leaves it FAULTED, its registers and the memories as they were (R118). -/
theorem faulted_faultCtx {s : State} {u c : Nat} (h : (ctx s u c).st = .ready ∨ (ctx s u c).st = .waiting) (code slot info : Nat) :
    Faulted s (faultCtx u c code slot false (ctx s u c).pc info s) u c code slot info ∧
    (faultCtx u c code slot false (ctx s u c).pc info s).mem = s.mem := by
  have key : ctx (faultCtx u c code slot false (ctx s u c).pc info s) u c =
        faultedCtx (ctx s u c) code slot (ctx s u c).pc info ∧
      (faultCtx u c code slot false (ctx s u c).pc info s).mem = s.mem := by
    unfold faultCtx
    extract_lets x s₁ r s₂
    have hrun : ¬ (x.st ≠ .ready ∧ x.st ≠ .waiting ∧ ¬ (False ∧ x.st = .halted ∧ x.cause ≤ 3)) := fun hc =>
      h.elim hc.1 hc.2.1
    have h₁ : ctx s₁ u c = faultedCtx (ctx s u c) code slot (ctx s u c).pc info := ctx_setCtx_same s u c _
    have hm₁ : s₁.mem = s.mem := setCtx_mem s u c _
    have h₂ : streamKept s₂ = streamKept s₁ := streamKept_faultSum s₁ r code c
    clear_value s₂ s₁
    have hc₂ : s₂.core.ctxs = s₁.core.ctxs := congrArg Prod.fst h₂
    have hm₂ : s₂.mem = s₁.mem := congrArg (fun v => v.2.1) h₂
    have hctx₂ : ctx s₂ u c = faultedCtx (ctx s u c) code slot (ctx s u c).pc info := by rw [← h₁]; unfold ctx; rw [hc₂]
    rw [if_neg (by simpa using hrun)]
    split
    next p hp =>
      obtain ⟨m, hk, hm⟩ := streamKept_plotFault p code u c s₂
      have hcs : (plotFault p code u c s₂).core.ctxs = m := congrArg Prod.fst hk
      have hst : (mget Ctx.unloaded s₂.core.ctxs (ctxKey u c)).st = .faulted := congrArg Ctx.st hctx₂
      refine ⟨?_, (congrArg (fun v => v.2.1) hk : _ = s₂.mem).trans (hm₂.trans hm₁)⟩
      unfold ctx
      rw [hcs, hm _ hst]
      exact hctx₂
    next => exact ⟨hctx₂, hm₂.trans hm₁⟩
  obtain ⟨hctx, hmem⟩ := key
  refine ⟨?_, hmem⟩
  constructor
  case regs => constructor <;> intro r <;> rw [hctx] <;> rfl
  case place => rw [hctx]; exact ⟨rfl, rfl, rfl⟩
  all_goals rw [hctx]; rfl

theorem csrWrite_by_core {s : State} {u c : Nat} {v : W64} (hu : u < 25600) (hc : c < 8) (hv : v.toNat < 2 ^ 32)
    (h : (ctx s u c).st = .ready ∨ (ctx s u c).st = .waiting) :
    Runs (.csrWrite (.unit u c) PACE_IN_MIN 4 v) s fun t =>
      Faulted s t u c 0x0102 3 (3 * 2 ^ 48 + PACE_IN_MIN) ∧ t.mem = s.mem := by
  have hwf : wfCsrWrite (.unit u c) PACE_IN_MIN 4 v = true := by
    simp [wfCsrWrite, masterOk, unitOk, hc, show u < 25604 by omega, PACE_IN_MIN]
    exact hv
  have hcp : isCp u = false := decide_eq_false (Nat.not_le.mpr hu)
  refine ⟨_, (runIf_of hwf _).trans (congrArg Host.Outcome.next ?_), faulted_faultCtx h _ _ _⟩
  simp only [coreCsr, accessFault_core s c v.toNat hcp (show PACE_IN_MIN < 0x1000000 by decide) (.inl rfl) (by decide)]

theorem csrWrite_denied {s : State} {m : Master} {v : W64} (hok : masterOk m = true) (hno : mayAdmin s m = false)
    (hunit : ∀ u c, m ≠ .unit u c) :
    exec (.csrWrite m PACE_IN_MIN 4 v) s = if v.toNat < 2 ^ 32 then .next s else .fault .noSuchUnit := by
  have hsame : csrWrite m PACE_IN_MIN 4 v s = s := by
    by_cases hb : hostBlocked s m PACE_IN_MIN = true
    · rw [csrWrite_paired s (by decide) (by decide)]
      exact if_pos hb
    · rw [csrWrite_paceInMin (Bool.not_eq_true _ ▸ hb)]
      exact if_pos (by simp [hno])
  have hbody : execCsrWrite m PACE_IN_MIN 4 v s = runIf (wfCsrWrite m PACE_IN_MIN 4 v) s := by
    refine congrArg (runIf _) ?_
    cases m with
    | unit u c => exact absurd rfl (hunit u c)
    | _ =>
      simp only [unlessAsleep_low _ _ _ _ _ (show PACE_IN_MIN < 0x1000000 by decide), hsame, ite_self]
  have hwf : wfCsrWrite m PACE_IN_MIN 4 v = decide (v.toNat < 2 ^ 32) := by simp [wfCsrWrite, hok, PACE_IN_MIN]
  refine hbody.trans ?_
  unfold runIf
  simp only [hwf, decide_eq_true_eq]

end Sys2Proof.Machine
end

section
/-!
PROOFS. O42: the supplies of the banks (R580), the cables (R589), then the obligation.
-/
namespace Sys2Proof.Machine
open Sys2Proof

/-- What the movement of tokens leaves alone, part by part. -/
theorem parts_of_tokenKept {s t : State} (h : tokenKept t = tokenKept s) :
    t.csr = s.csr ∧ t.core = s.core ∧ t.mem = s.mem ∧ t.log = s.log ∧ t.loam.vccio = s.loam.vccio ∧
    t.loam.straps = s.loam.straps := by
  have part {α : Type} (g : State → α) : g (tokenKept t) = g (tokenKept s) := congrArg g h
  exact ⟨part State.csr, part State.core, part State.mem, part State.log, part fun v => v.loam.vccio,
    part fun v => v.loam.straps⟩

/-- A bank with a supply and its straps. -/
def supplied (r level strap : Nat) (s : State) : State :=
  setLoam (fun l => { l with
    vccio := mset 3 l.vccio r level, straps := mset 0 l.straps r (if strap = 3 then 0 else strap) }) s

theorem supplied_parts (r level strap : Nat) (s : State) :
    mget 3 (supplied r level strap s).loam.vccio r = level ∧
    mget 0 (supplied r level strap s).loam.straps r = (if strap = 3 then 0 else strap) ∧
    (supplied r level strap s).csr = s.csr ∧ (supplied r level strap s).core = s.core ∧
    (supplied r level strap s).mem = s.mem ∧ (supplied r level strap s).log = s.log ∧
    (supplied r level strap s).loam.driven = s.loam.driven ∧
    supplied r level strap s = { s with loam := { s.loam with
      vccio := (supplied r level strap s).loam.vccio, straps := (supplied r level strap s).loam.straps } } :=
  ⟨mget_mset_same _ _ _ _, mget_mset_same _ _ _ _, rfl, rfl, rfl, rfl, rfl, rfl⟩

/-- A driven bank is calibrated, and its pins' tokens move; a bank not driven stays. -/
def recalibrated (r : Nat) (s : State) : State :=
  if mget false s.loam.driven r then wakePins r (setFld s (LOAM_BANK_STATUS r) LOAM_BANK_STATUS_CAL_DONE 1) else s

theorem exec_vccioApplied {r level strap : Nat} (hr : r < 16) (hl : level < 3) (hs : strap < 4) (s : State) :
    exec (.vccioApplied r level strap) s = .next (recalibrated r (supplied r level strap
      (if mget 3 s.loam.vccio r ≠ 3 ∧ mget 3 s.loam.vccio r ≠ level ∧ regionRunning s r then supplyLost r s else s))) :=
  runIf_of (by simp [wfVccioApplied, hr, hl, hs]) _

/-- What a recalibration leaves in `t`. -/
structure Recalibrated (r : Nat) (s t : State) : Prop where
  loam : t.loam.vccio = s.loam.vccio ∧ t.loam.straps = s.loam.straps
  done : mget false s.loam.driven r = true → flag t (LOAM_BANK_STATUS r) LOAM_BANK_STATUS_CAL_DONE = true
  idle : mget false s.loam.driven r = false → t = s
  rest : t.core = s.core ∧ t.mem = s.mem ∧ t.log = s.log
  words : WordsKept s t [LOAM_BANK_STATUS r]

theorem recalibrated_spec (r : Nat) (s : State) : Recalibrated r s (recalibrated r s) := by
  cases hd : mget false s.loam.driven r with
  | false =>
    have e : recalibrated r s = s := if_neg (by simp [hd])
    rw [e]
    exact ⟨⟨rfl, rfl⟩, fun h => (by rw [hd] at h; cases h), fun _ => rfl, ⟨rfl, rfl, rfl⟩, fun _ _ => rfl⟩
  | true =>
    have e : recalibrated r s = wakePins r (setFld s (LOAM_BANK_STATUS r) LOAM_BANK_STATUS_CAL_DONE 1) := if_pos hd
    rw [e]
    obtain ⟨hcsr, hcore, hmem, hlog, hv, hst⟩ :=
      parts_of_tokenKept (tokenKept_wakePins r (setFld s (LOAM_BANK_STATUS r) LOAM_BANK_STATUS_CAL_DONE 1))
    refine ⟨⟨?_, ?_⟩, fun _ => ?_, fun h => (by rw [hd] at h; cases h), ⟨?_, ?_, ?_⟩, ?_⟩
    · rw [hv, setFld_loam]
    · rw [hst, setFld_loam]
    · rw [flag_of_csr hcsr]
      exact flag_setFld _ _ _ _ rfl (by decide)
    · rw [hcore, setFld_core]
    · rw [hmem, setFld_mem]
    · rw [hlog, setFld_log]
    · exact (wordsKept_setFld s (LOAM_BANK_STATUS r) LOAM_BANK_STATUS_CAL_DONE 1).trans (wordsKept_of_csr hcsr _)

theorem vccioApplied_row {s : State} {r level strap : Nat} (hr : r < 16) (hl : level < 3) (hs : strap < 4)
    (hwas : mget 3 s.loam.vccio r = 3 ∨ mget 3 s.loam.vccio r = level) : Runs (.vccioApplied r level strap) s fun t =>
      mget 3 t.loam.vccio r = level ∧ mget 0 t.loam.straps r = (if strap = 3 then 0 else strap) ∧
      (mget false s.loam.driven r = true → flag t (LOAM_BANK_STATUS r) LOAM_BANK_STATUS_CAL_DONE = true) ∧
      WordsKept s t [LOAM_BANK_STATUS r] ∧ t.core = s.core ∧ t.mem = s.mem ∧
      (mget false s.loam.driven r = false →
        t = { s with loam := { s.loam with vccio := t.loam.vccio, straps := t.loam.straps } }) := by
  refine ⟨_, exec_vccioApplied hr hl hs s, ?_⟩
  have hsame : (if mget 3 s.loam.vccio r ≠ 3 ∧ mget 3 s.loam.vccio r ≠ level ∧ regionRunning s r then supplyLost r s else s) =
      s := if_neg fun h => hwas.elim h.1 h.2.1
  rw [hsame]
  obtain ⟨hv, hst, hcsr, hcore, hmem, -, hdr, hself⟩ := supplied_parts r level strap s
  obtain ⟨⟨tv, tst⟩, hdone, hidle, ⟨tcore, tmem, -⟩, tw⟩ := recalibrated_spec r (supplied r level strap s)
  generalize supplied r level strap s = u at *
  generalize recalibrated r u = t at *
  rw [hdr] at hdone hidle
  refine ⟨by rw [tv, hv], by rw [tst, hst], hdone, fun o ho => (tw o ho).trans (rget_of_csr hcsr o), by rw [tcore, hcore],
    by rw [tmem, hmem], fun hd => ?_⟩
  rw [hidle hd]
  exact hself

/-- What the loss of a bank's supply leaves (R580). -/
theorem supplyLost_parts (r : Nat) (s : State) :
    mget 3 (supplyLost r s).loam.vccio r = 3 ∧ (supplyLost r s).loam.driven = s.loam.driven ∧
    flag (supplyLost r s) (LOAM_BANK_STATUS r) LOAM_BANK_STATUS_CAL_DONE = false ∧
    (mget false s.loam.driven r = true → Logs s (supplyLost r s) 0x0717) ∧
    (mget false s.loam.driven r = false → (supplyLost r s).log = s.log) ∧
    WordsKept s (supplyLost r s) [LOAM_BANK_STATUS r] ∧
    supplyLost r s = { s with
      csr := (supplyLost r s).csr, log := (supplyLost r s).log, loam := { s.loam with vccio := (supplyLost r s).loam.vccio } } := by
  generalize hu : setLoam (fun l => { l with vccio := mset 3 l.vccio r 3 }) s = u
  have huv : mget 3 u.loam.vccio r = 3 := by rw [← hu]; exact mget_mset_same 3 s.loam.vccio r 3
  have hcsr : u.csr = s.csr := by rw [← hu]; rfl
  have hlog : u.log = s.log := by rw [← hu]; rfl
  have hdr : u.loam.driven = s.loam.driven := by rw [← hu]; rfl
  have hself (x : NMap W64) (l : LogSt) :
      { u with csr := x, log := l } = { s with csr := x, log := l, loam := { s.loam with vccio := u.loam.vccio } } := by
    rw [← hu]; rfl
  have hclear : flag (setFld u (LOAM_BANK_STATUS r) LOAM_BANK_STATUS_CAL_DONE 0) (LOAM_BANK_STATUS r)
      LOAM_BANK_STATUS_CAL_DONE = false := flag_setFld _ _ _ _ rfl (by decide)
  have hw : WordsKept s (setFld u (LOAM_BANK_STATUS r) LOAM_BANK_STATUS_CAL_DONE 0) [LOAM_BANK_STATUS r] := fun o ho =>
    (wordsKept_setFld u (LOAM_BANK_STATUS r) LOAM_BANK_STATUS_CAL_DONE 0 o ho).trans (rget_of_csr hcsr o)
  have hv : setFld u (LOAM_BANK_STATUS r) LOAM_BANK_STATUS_CAL_DONE 0 =
      { u with csr := (setFld u (LOAM_BANK_STATUS r) LOAM_BANK_STATUS_CAL_DONE 0).csr } := rfl
  have hl : supplyLost r s = if mget false s.loam.driven r then
      logErr 0x0717 (rgnSrc r) none 0 (setFld u (LOAM_BANK_STATUS r) LOAM_BANK_STATUS_CAL_DONE 0)
      else setFld u (LOAM_BANK_STATUS r) LOAM_BANK_STATUS_CAL_DONE 0 := by rw [← hu]; rfl
  generalize setFld u (LOAM_BANK_STATUS r) LOAM_BANK_STATUS_CAL_DONE 0 = w at *
  cases hd : mget false s.loam.driven r with
  | true =>
    rw [hd, if_pos rfl] at hl
    rw [hl]
    have hlogs : Logs u (logErr 0x0717 (rgnSrc r) none 0 w) 0x0717 := by
      rw [hv]; exact ⟨_, rfl, rfl⟩
    refine ⟨?_, ?_, ?_, fun _ => ?_, nofun, ?_, ?_⟩
    · rw [logErr_loam, hv]; exact huv
    · rw [logErr_loam, hv]; exact hdr
    · rw [flag_of_csr (logErr_csr _ _ _ _ _)]; exact hclear
    · unfold Logs at hlogs ⊢; rwa [hlog] at hlogs
    · exact hw.trans (wordsKept_of_csr (logErr_csr _ _ _ _ _) _)
    · rw [hv]; exact hself _ _
  | false =>
    rw [hd, if_neg (by simp)] at hl
    rw [hl]
    refine ⟨?_, ?_, hclear, nofun, fun _ => ?_, hw, ?_⟩
    · rw [hv]; exact huv
    · rw [hv]; exact hdr
    · rw [hv]; exact hlog
    · rw [hv]; exact hself _ _

theorem vccioChanged_row {s : State} {r level strap : Nat} (hr : r < 16) (hl : level < 3) (hs : strap < 4)
    (h₃ : mget 3 s.loam.vccio r ≠ 3) (hne : mget 3 s.loam.vccio r ≠ level) (hrun : regionRunning s r = true)
    (hd : mget false s.loam.driven r = true) : Runs (.vccioApplied r level strap) s fun t =>
      mget 3 t.loam.vccio r = level ∧ Logs s t 0x0717 := by
  refine ⟨_, exec_vccioApplied hr hl hs s, ?_⟩
  have hlost : (if mget 3 s.loam.vccio r ≠ 3 ∧ mget 3 s.loam.vccio r ≠ level ∧ regionRunning s r then supplyLost r s else s) =
      supplyLost r s := if_pos ⟨h₃, hne, hrun⟩
  rw [hlost]
  obtain ⟨-, -, -, hlogs, -⟩ := supplyLost_parts r s
  have hlogs := hlogs hd
  generalize supplyLost r s = x at *
  obtain ⟨hv, -, -, -, -, hlog, -, -⟩ := supplied_parts r level strap x
  obtain ⟨⟨tv, -⟩, -, -, ⟨-, -, tlog⟩, -⟩ := recalibrated_spec r (supplied r level strap x)
  refine ⟨by rw [tv, hv], ?_⟩
  unfold Logs at hlogs ⊢
  rwa [tlog, hlog]

theorem bankSupplyLost_row {s : State} {r : Nat} (hr : r < 16) (h : mget 3 s.loam.vccio r ≠ 3) :
    Runs (.bankSupplyLost r) s fun t =>
      mget 3 t.loam.vccio r = 3 ∧ flag t (LOAM_BANK_STATUS r) LOAM_BANK_STATUS_CAL_DONE = false ∧
      (mget false s.loam.driven r = true → Logs s t 0x0717) ∧ (mget false s.loam.driven r = false → t.log = s.log) ∧
      WordsKept s t [LOAM_BANK_STATUS r] ∧
      t = { s with csr := t.csr, log := t.log, loam := { s.loam with vccio := t.loam.vccio } } := by
  have e : exec (.bankSupplyLost r) s = .next (supplyLost r s) :=
    (runIf_of (by simp [wfBankSupplyLost, hr]) _).trans (congrArg Host.Outcome.next (if_neg h))
  obtain ⟨hv, -, hdone, hlogs, hquiet, hw, hself⟩ := supplyLost_parts r s
  exact ⟨_, e, hv, hdone, hlogs, hquiet, hw, hself⟩

theorem cablePresentChange_row {s : State} {p : Nat} (on : Bool) (hp : p < 8) : Runs (.cablePresentChange p on) s fun t =>
    cabPower t p = (on && flag s (CYUST_PORT_CTRL p) CYUST_PORT_CTRL_EN) ∧
    t = { s with mc := { s.mc with cables := t.mc.cables } } ∧ ∀ q, q ≠ p → cabPower t q = cabPower s q := by
  have e : exec (.cablePresentChange p on) s =
      .next (setMc (fun m => { m with cables := mset false m.cables p on }) s) :=
    runIf_of (by simp [wfCablePresentChange, hp]) _
  refine ⟨_, e, ?_, rfl, fun q hq => ?_⟩
  · unfold cabPower
    rw [flag_setMc, setMc_mc, mget_mset_same]
  · unfold cabPower
    rw [flag_setMc, setMc_mc, mget_mset_other _ _ _ _ _ hq]

/-- Settles O42: the access types by the register table, the permission by the three writers of R9, the supplies and cables by
what each one operation leaves. -/
theorem registersSuppliesAndCables : Obligations.RegistersSuppliesAndCables := by
  intro s
  refine ⟨fun m hok hadmin hawake hup => ?_, fun u c v hu hc hv h => csrWrite_by_core hu hc hv h,
    fun m v hok hno hunit => csrWrite_denied hok hno hunit, fun r level strap hr hl hs hwas => vccioApplied_row hr hl hs hwas,
    fun r level strap hr hl hs h₃ hne hrun hd => vccioChanged_row hr hl hs h₃ hne hrun hd,
    fun r hr h => bankSupplyLost_row hr h, fun p on hp => cablePresentChange_row on hp⟩
  have h : Admin s m := ⟨hok, hadmin, hawake, hup⟩
  exact ⟨fun v hv hlo hhi => paceInMin_taken h hv hlo hhi, fun v hv hout => paceInMin_refused h hv hout,
    fun v => loadAt_taken h v, fun v hv => paceStatus_cleared h hv, paceOvrCount_read h⟩

end Sys2Proof.Machine
end

section
/-!
PROOFS. O59: writes of the four ring registers (R597).
-/
namespace Sys2Proof.Machine
open Sys2Proof

/-- What a ring register's write leaves when the ring fits. -/
def RingTaken (s t : State) (reg ptr : Nat) (w : W64) : Prop :=
  rget t reg = ringWord w ∧ (ptr ≠ reg → fld t ptr ERR_PTR_HEAD = 0 ∧ fld t ptr ERR_PTR_TAIL = 0) ∧
  WordsKept s t [reg, ptr] ∧ t.mem = s.mem ∧ t.core = s.core ∧ t.log = s.log

/-- What a ring register's write leaves when the ring does not fit. -/
def RingIgnored (s t : State) (reg ptr code src : Nat) : Prop :=
  rget t reg = rget s reg ∧ (s.log.held = [] → s.log.dropOwed = false → rget t ptr = rget s ptr ∧
    LogsAs s t code src .notice 0 ∧ WordsKept s t [PACE_STATUS] ∧ t.mem = s.mem ∧ t.core = s.core)

theorem ringFits_iff (w : W64) (n : Nat) :
    ringFits w n = true ↔ bitsOf w 48 8 = 0 ∧ bitsOf w 12 36 * 4096 + n ≤ 0xF000000000 := by
  simp only [ringFits, Bool.and_eq_true, decide_eq_true_eq]
  exact Iff.rfl

/-- An access that reaches its register is carried out. -/
theorem byMaster_of_reaches {s : State} {m : Master} {o : Nat} (h : Reaches s m o) (f : State → State) :
    byMaster m o f s = f s := by
  obtain ⟨hawake, hopen, -, hcp⟩ := h
  cases m with
  | unit u c => exact if_pos (hcp u c rfl)
  | host p =>
    unfold byMaster
    simp only [hawake, hopen, Bool.false_eq_true, if_false]
  | _ => rfl

/-- A core other than a control processor is refused at every ring register. -/
theorem byMaster_core {s : State} {u : Nat} (c o : Nat) (f : State → State) (h : isCp u = false) :
    byMaster (.unit u c) o f s = csrDenied u c o s := if_neg (by simp [h])

/-! ### What the writes leave -/

/-- A ring register taken, with both pointers at 0. -/
theorem ringTaken_fields {s t : State} {reg ptr : Nat} {w : W64} (hne : ptr ≠ reg)
    (hcsr : t.csr = (setFld (setFld (rset s reg (ringWord w)) ptr ERR_PTR_HEAD 0) ptr ERR_PTR_TAIL 0).csr)
    (hmem : t.mem = s.mem) (hcore : t.core = s.core) (hlog : t.log = s.log) : RingTaken s t reg ptr w := by
  have hw : WordsKept (rset s reg (ringWord w)) t [ptr] := fun o ho =>
    (rget_of_csr hcsr o).trans (((wordsKept_setFld _ ptr ERR_PTR_HEAD 0).trans (wordsKept_setFld _ ptr ERR_PTR_TAIL 0)) o ho)
  refine ⟨?_, fun _ => ⟨?_, ?_⟩, ((wordsKept_rset s reg _).append hw), hmem, hcore, hlog⟩
  · rw [hw reg (by simpa using hne.symm), rget_rset_same]
  · rw [fld_of_csr hcsr, fld_setFld_other _ _ ERR_PTR_TAIL ERR_PTR_HEAD _ (by decide) rfl (by decide),
      fld_setFld _ _ _ _ (by decide), Nat.zero_mod]
  · rw [fld_of_csr hcsr, fld_setFld _ _ _ _ (by decide), Nat.zero_mod]

theorem ringIgnored_logErr (s : State) {reg ptr code src : Nat} (hcls : classOf code = .notice) :
    RingIgnored s (logErr code src none 0 s) reg ptr code src :=
  ⟨rget_of_csr (logErr_csr _ _ _ _ _) _, fun _ _ => ⟨rget_of_csr (logErr_csr _ _ _ _ _) _, hcls ▸ logsAs_logAs (classOf code) _ _ _ _,
    wordsKept_of_csr (logErr_csr _ _ _ _ _) _, logErr_mem _ _ _ _ _, logErr_core _ _ _ _ _⟩⟩

/-- The rule of a ring register's row: taken where the ring fits, ignored where it does not. -/
structure RingRow (i : Instr) (s : State) (reg ptr len code src : Nat) (w : W64) : Prop where
  takes   : ringFits w len = true → s.log.held = [] → s.log.dropOwed = false → Runs i s fun t => RingTaken s t reg ptr w
  ignores : ringFits w len = false → Runs i s fun t => RingIgnored s t reg ptr code src

theorem paceOvrBase_row {s : State} {m : Master} (w : W64) (hok : masterOk m = true) (hm : mayAdmin s m = true)
    (h : Reaches s m PACE_OVR_BASE) : RingRow (.paceOvrBaseWrite m w) s PACE_OVR_BASE PACE_OVR_PTR
      (16 * ringLen (bitsOf w 56 4)) 0x0D09 0x20 w := by
  have e : exec (.paceOvrBaseWrite m w) s = .next (if ringFits w (16 * ringLen (bitsOf w 56 4)) then
      setPace (fun p => { p with ringFull := false })
        (setFld (setFld (rset s PACE_OVR_BASE (ringWord w)) PACE_OVR_PTR PACE_OVR_PTR_HEAD 0) PACE_OVR_PTR PACE_OVR_PTR_TAIL 0)
      else paceInvalid s) := by
    refine (runIf_of hok _).trans (congrArg Host.Outcome.next ?_)
    rw [byMaster_of_reaches h]
    exact if_neg (by simp [hm])
  refine ⟨fun hf _ _ => ⟨_, e, ?_⟩, fun hf => ⟨_, e, ?_⟩⟩
  · rw [if_pos hf]
    exact ringTaken_fields (by decide) rfl (by simp [setPace]) (by simp [setPace]) (by simp [setPace])
  · rw [if_neg (by simp [hf])]
    obtain ⟨hw, -, hlogs, hmem, hcore⟩ := paceInvalid_spec s
    exact ⟨hw _ (by decide), fun _ _ => ⟨hw _ (by decide), hlogs, hw, hmem, hcore⟩⟩

theorem ltnRing_row {s : State} {m : Master} (w : W64) {p : Nat} (hp : p < 16) (hok : masterOk m = true)
    (hm : mayAdmin s m = true) (h : Reaches s m (LTN_RING p)) : RingRow (.ltnRingWrite m p w) s (LTN_RING p) (LTN_PTR p)
      (32 * ringLen (bitsOf w 56 4)) 0x0C0A 0x27 w := by
  have e : exec (.ltnRingWrite m p w) s = .next (if ringFits w (32 * ringLen (bitsOf w 56 4)) then
      setPwr (fun x => { x with ltnFull := mset false x.ltnFull p false })
        (setFld (setFld (rset s (LTN_RING p) (ringWord w)) (LTN_PTR p) LTN_PTR_HEAD 0) (LTN_PTR p) LTN_PTR_TAIL 0)
      else logErr 0x0C0A 0x27 none 0 s) := by
    refine (runIf_of (by simp [wfLtnRingWrite, hok, hp]) _).trans (congrArg Host.Outcome.next ?_)
    rw [byMaster_of_reaches h]
    exact if_neg (by simp [hm])
  refine ⟨fun hf _ _ => ⟨_, e, ?_⟩, fun hf => ⟨_, e, ?_⟩⟩
  · rw [if_pos hf]
    exact ringTaken_fields (by unfold LTN_PTR LTN_RING; omega) rfl (by simp [setPwr]) (by simp [setPwr]) (by simp [setPwr])
  · rw [if_neg (by simp [hf])]
    exact ringIgnored_logErr s (by decide)

theorem telemRing_row {s : State} {m : Master} (w : W64) (hok : masterOk m = true)
    (hm : mayAdmin s m = true) (h : Reaches s m TELEM_RING) : RingRow (.telemRingWrite m w) s TELEM_RING TELEM_RING
      (40960 * 2 ^ min (bitsOf w 56 4) 12) 0x0C0A 0x25 w := by
  have e : exec (.telemRingWrite m w) s = .next (if ringFits w (40960 * 2 ^ min (bitsOf w 56 4) 12) then
      rset s TELEM_RING (ringWord w) else logErr 0x0C0A 0x25 none 0 s) := by
    refine (runIf_of hok _).trans (congrArg Host.Outcome.next ?_)
    rw [byMaster_of_reaches h]
    exact if_neg (by simp [hm])
  refine ⟨fun hf _ _ => ⟨_, e, ?_⟩, fun hf => ⟨_, e, ?_⟩⟩
  · rw [if_pos hf]
    exact ⟨rget_rset_same _ _ _, fun hne => absurd rfl hne, (wordsKept_rset _ _ _).mono (by simp), rset_mem _ _ _, rset_core _ _ _,
      rset_log _ _ _⟩
  · rw [if_neg (by simp [hf])]
    exact ringIgnored_logErr s (by decide)

end Sys2Proof.Machine
end

section
/-!
PROOFS. O59: what storing an entry of the error log in memory leaves alone, and the row of ERR_RING.
-/
namespace Sys2Proof.Machine
open Sys2Proof

/-! ### A store to memory -/

/-- The state without its memories: all that a store outside a locked staging range keeps. -/
def memless (s : State) : State := { s with mem := MemSt.reset }

theorem memless_mem (s : State) (m : MemSt) : memless { s with mem := m } = memless s := rfl

@[simp] theorem memless_markDram (o n : Nat) (bad : List Nat) (s : State) : memless (markDram o n bad s) = memless s := by
  refine foldl_keeps memless _ (fun t w => ?_) _ _
  split
  · rfl
  · split <;> rfl

/-- A store that no rule of R385 and R389 lets take place. -/
def dramDropped (o n : Nat) (s : State) : Bool :=
  dramListed s o && !(decide (o % 64 = 0) && decide (n = 64)) || chStale s (lpDevCh o) (lpT o) && pairFailed s (lpPair o)

/-- The memories after a store that takes place, before its words are marked. -/
def dramStored (o : Nat) (data : List Byte) (s : State) : MemSt :=
  let par := !pairFailed s (lpPair o) && decide (chState s (devCh (lpPair o) (lpT o % 16)) ≠ 2)
  let m := storeChunk (chStale s (lpDevCh o) (lpT o)) (decide (chState s (lpDevCh o) ≠ 2)) par s.mem o data
  let m := if dramListed s o && par then chunkParity m o data else m
  { m with dramPoison := mset false m.dramPoison (o / 64) false }

theorem dramWrite_locked {o : Nat} {s : State} (h : stageLocked s o = true) (data : List Byte) (bad : List Nat) :
    dramWrite o data bad s = stageRefuse s := if_pos h

theorem dramWrite_free {o : Nat} {s : State} (h : stageLocked s o = false) (data : List Byte) (bad : List Nat) :
    dramWrite o data bad s =
      if dramDropped o data.length s then s else markDram o data.length bad { s with mem := dramStored o data s } :=
  if_neg (by simp [h])

theorem memless_dramWrite {o : Nat} {s : State} (h : stageLocked s o = false) (data : List Byte) (bad : List Nat) :
    memless (dramWrite o data bad s) = memless s := by
  rw [dramWrite_free h]
  split
  · rfl
  · rw [memless_markDram, memless_mem]

theorem markDram_setLog (o n : Nat) (bad : List Nat) (f : LogSt → LogSt) (s : State) :
    markDram o n bad (setLog f s) = setLog f (markDram o n bad s) := by
  refine (List.foldl_hom (setLog f) fun t w => ?_)
  split
  · rfl
  · split <;> rfl

/-- The error log has no part in a store. -/
theorem dramWrite_setLog {o : Nat} {s : State} (h : stageLocked s o = false) (data : List Byte) (bad : List Nat)
    (f : LogSt → LogSt) : dramWrite o data bad (setLog f s) = setLog f (dramWrite o data bad s) := by
  rw [dramWrite_free h, dramWrite_free (s := setLog f s) h]
  have hd : dramDropped o data.length (setLog f s) = dramDropped o data.length s := rfl
  have hs : dramStored o data (setLog f s) = dramStored o data s := rfl
  rw [hd, hs]
  split
  · rfl
  · exact markDram_setLog _ _ _ f { s with mem := dramStored o data s }

theorem length_entryBytes (e : LogEntry) : (entryBytes e).length = 32 := by simp [entryBytes, entryWords, leBytes]

/-- An entry of 32 bytes at a multiple of 32 lies in one chunk. -/
theorem dramWriteAll_entry {o : Nat} (ho : o % 64 ≤ 32) (e : LogEntry) (s : State) :
    dramWriteAll o (entryBytes e) s = dramWrite o (entryBytes e) [] s := by
  have hsplit : splitAt (32 / 64 + 2) 64 o 32 = [(o, 32)] := by
    have hk : min 32 (64 - o % 64) = 32 := by omega
    simp [splitAt, hk]
  unfold dramWriteAll
  rw [length_entryBytes, hsplit, List.foldl_cons, List.foldl_nil]
  simp only [Nat.sub_self, List.drop_zero]
  rw [List.take_of_length_le (Nat.le_of_eq (length_entryBytes e))]

/-! ### What reporting leaves -/

/-- Entries may have joined those in flight; contexts, cores, registers, the hosts and the ring of fatal entries are as they were. -/
structure Reported (s t : State) : Prop where
  core : t.core = s.core
  csr  : t.csr = s.csr
  host : t.host.inReset = s.host.inReset ∧ t.host.d3 = s.host.d3
  log  : ∃ l, t.log.inFlight = s.log.inFlight ++ l
  idx  : t.log.fatalIdx = s.log.fatalIdx

theorem Reported.refl (s : State) : Reported s s := ⟨rfl, rfl, ⟨rfl, rfl⟩, ⟨[], (List.append_nil _).symm⟩, rfl⟩

theorem Reported.trans {s t u : State} (h₁ : Reported s t) (h₂ : Reported t u) : Reported s u := by
  obtain ⟨l₁, e₁⟩ := h₁.log
  obtain ⟨l₂, e₂⟩ := h₂.log
  exact ⟨h₂.core.trans h₁.core, h₂.csr.trans h₁.csr, ⟨h₂.host.1.trans h₁.host.1, h₂.host.2.trans h₁.host.2⟩,
    ⟨l₁ ++ l₂, by rw [e₂, e₁, List.append_assoc]⟩, h₂.idx.trans h₁.idx⟩

theorem reported_logErr (code src : Nat) (p : Option Nat) (i : Nat) (s : State) : Reported s (logErr code src p i s) :=
  ⟨logErr_core _ _ _ _ _, logErr_csr _ _ _ _ _, by rw [logErr_host]; exact ⟨rfl, rfl⟩, ⟨_, rfl⟩, rfl⟩

theorem reported_foldl {γ : Type} {f : State → γ → State} (h : ∀ a x, Reported a (f a x)) (l : List γ) (a : State) :
    Reported a (l.foldl f a) := by
  induction l generalizing a with
  | nil => exact .refl a
  | cons x l ih => exact (h a x).trans (ih _)

theorem log_of_memless {s t : State} (h : memless t = memless s) : t.log = s.log := by
  have part {α : Type} (g : State → α) : g (memless t) = g (memless s) := congrArg g h
  exact part State.log

theorem reported_of_memless {s t : State} (h : memless t = memless s) : Reported s t := by
  have part {α : Type} (g : State → α) : g (memless t) = g (memless s) := congrArg g h
  have hlog : t.log = s.log := log_of_memless h
  exact ⟨part State.core, part State.csr, ⟨part fun v => v.host.inReset, part fun v => v.host.d3⟩,
    ⟨[], by rw [hlog, List.append_nil]⟩, by rw [hlog]⟩

theorem reported_stageRefuse (s : State) : Reported s (stageRefuse s) := by
  unfold stageRefuse
  split
  · exact .refl s
  · have h : Reported s { s with load := { s.load with stageLogged := true } } :=
      ⟨rfl, rfl, ⟨rfl, rfl⟩, ⟨[], (List.append_nil _).symm⟩, rfl⟩
    exact h.trans (reported_logErr _ _ _ _ _)

theorem reported_dramWrite (o : Nat) (data : List Byte) (bad : List Nat) (s : State) : Reported s (dramWrite o data bad s) := by
  cases h : stageLocked s o with
  | true => rw [dramWrite_locked h]; exact reported_stageRefuse s
  | false => exact reported_of_memless (memless_dramWrite h data bad)

theorem reported_dramWriteAll (o : Nat) (data : List Byte) (s : State) : Reported s (dramWriteAll o data s) :=
  reported_foldl (fun _ _ => reported_dramWrite _ _ _ _) _ _

/-! ### The ring of the error log -/

theorem wordsKept_errPut (e : LogEntry) (s : State) : WordsKept s (errPut e s) [ERR_PTR] := by
  have h := wordsKept_setFld (dramWriteAll (fld s ERR_RING ERR_RING_BASE * 4096 + 32 * errHead s) (entryBytes e) s) ERR_PTR
    ERR_PTR_HEAD ((errHead s + 1) % errLen s)
  exact (wordsKept_of_csr (reported_dramWriteAll _ _ _).csr _).trans h

theorem wordsKept_errDrain (l : List LogEntry) (s : State) : WordsKept s (errDrain l s) [ERR_PTR] := by
  induction l generalizing s with
  | nil => exact fun _ _ => rfl
  | cons e es ih =>
    unfold errDrain
    split
    · have h : WordsKept s (setLog (fun l => { l with held := es }) s) [ERR_PTR] := wordsKept_of_csr rfl _
      exact (h.trans (wordsKept_errPut e _)).trans (ih _)
    · exact fun _ _ => rfl

/-- New room in the ring changes no register but the ring's pointers. -/
theorem wordsKept_errSpace (s : State) : WordsKept s (errSpace s) [ERR_PTR] := by
  unfold errSpace
  extract_lets t room
  have ht : WordsKept s t [ERR_PTR] := wordsKept_errDrain _ _
  clear_value t
  split
  · have h : WordsKept t (setLog (fun l => { l with dropOwed := false }) t) [ERR_PTR] := wordsKept_of_csr rfl _
    exact (ht.trans h).trans (wordsKept_of_csr (logErr_csr _ _ _ _ _) _)
  · exact ht

theorem errSpace_idle {s : State} (hh : s.log.held = []) (ho : s.log.dropOwed = false) : errSpace s = s := by
  have hd : errDrain s.log.held s = s := by rw [hh]; rfl
  unfold errSpace
  extract_lets t room
  have ht : t = s := hd
  clear_value t
  subst ht
  exact if_neg (by simp [ho])

theorem errRing_row {s : State} {m : Master} (w : W64) (hok : masterOk m = true) (hm : mayAdmin s m = true)
    (h : Reaches s m ERR_RING) : RingRow (.errRingWrite m w) s ERR_RING ERR_PTR (32 * ringLen (bitsOf w 56 4)) 0x0C0A 0x22 w := by
  have e : exec (.errRingWrite m w) s = .next (errSpace (if ringFits w (32 * ringLen (bitsOf w 56 4)) then
      rset (rset s ERR_RING (ringWord w)) ERR_PTR 0 else logErr 0x0C0A 0x22 none 0 s)) := by
    refine (runIf_of hok _).trans (congrArg Host.Outcome.next ?_)
    rw [byMaster_of_reaches h, if_pos hm, Nat.mul_comm 32]
    rfl
  refine ⟨fun hf hh ho => ⟨_, e, ?_⟩, fun hf => ⟨_, e, ?_⟩⟩
  · rw [if_pos hf]
    have hlog : (rset (rset s ERR_RING (ringWord w)) ERR_PTR 0).log = s.log := by simp
    have hmem : (rset (rset s ERR_RING (ringWord w)) ERR_PTR 0).mem = s.mem := by simp
    have hcore : (rset (rset s ERR_RING (ringWord w)) ERR_PTR 0).core = s.core := by simp
    have hk : WordsKept s (rset (rset s ERR_RING (ringWord w)) ERR_PTR 0) [ERR_RING, ERR_PTR] :=
      (wordsKept_rset s ERR_RING _).append (wordsKept_rset _ ERR_PTR 0)
    have hreg : rget (rset (rset s ERR_RING (ringWord w)) ERR_PTR 0) ERR_RING = ringWord w := by
      rw [wordsKept_rset _ ERR_PTR 0 ERR_RING (by decide), rget_rset_same]
    have hptr : rget (rset (rset s ERR_RING (ringWord w)) ERR_PTR 0) ERR_PTR = 0 := rget_rset_same _ _ _
    generalize rset (rset s ERR_RING (ringWord w)) ERR_PTR 0 = t at *
    rw [errSpace_idle (by rw [hlog, hh]) (by rw [hlog, ho])]
    have hz (f : Fld) (h0 : f.word = 0) : fld t ERR_PTR f = 0 := by
      unfold fld
      rw [h0, Nat.mul_zero, Nat.add_zero, hptr]
      simp [fget, bitsOf]
    exact ⟨hreg, fun _ => ⟨hz _ rfl, hz _ rfl⟩, hk, hmem, hcore, hlog⟩
  · rw [if_neg (by simp [hf])]
    obtain ⟨hreg, hrest⟩ := ringIgnored_logErr s (reg := ERR_RING) (ptr := ERR_PTR) (src := 0x22)
      (show classOf 0x0C0A = .notice by decide)
    have hheld : (logErr 0x0C0A 0x22 none 0 s).log.held = s.log.held := rfl
    have howed : (logErr 0x0C0A 0x22 none 0 s).log.dropOwed = s.log.dropOwed := rfl
    generalize logErr 0x0C0A 0x22 none 0 s = t at *
    refine ⟨by rw [wordsKept_errSpace t ERR_RING (by decide), hreg], fun hh ho => ?_⟩
    rw [errSpace_idle (by rw [hheld, hh]) (by rw [howed, ho])]
    exact hrest hh ho

end Sys2Proof.Machine
end

section
/-!
PROOFS. O59: the entry that has waited longest is put away and reported (R574), or keeps compute off (R575); then the
obligation.
-/
namespace Sys2Proof.Machine
open Sys2Proof

/-! ### Signals to the hosts -/

/-- Nothing that decides how an entry is reported has changed, nor has the log, a memory or a core. -/
structure Quiet (s t : State) : Prop where
  csr  : t.csr = s.csr
  log  : t.log = s.log
  mem  : t.mem = s.mem
  core : t.core = s.core
  host : t.host.inReset = s.host.inReset ∧ t.host.d3 = s.host.d3

theorem Quiet.refl (s : State) : Quiet s s := ⟨rfl, rfl, rfl, rfl, rfl, rfl⟩

theorem Quiet.trans {s t u : State} (h₁ : Quiet s t) (h₂ : Quiet t u) : Quiet s u :=
  ⟨h₂.csr.trans h₁.csr, h₂.log.trans h₁.log, h₂.mem.trans h₁.mem, h₂.core.trans h₁.core,
    h₂.host.1.trans h₁.host.1, h₂.host.2.trans h₁.host.2⟩

theorem Quiet.reported {s t : State} (h : Quiet s t) : Reported s t :=
  ⟨h.core, h.csr, h.host, ⟨[], by rw [h.log, List.append_nil]⟩, by rw [h.log]⟩

theorem quiet_foldl {γ : Type} {f : State → γ → State} (h : ∀ a x, Quiet a (f a x)) (l : List γ) (a : State) :
    Quiet a (l.foldl f a) := by
  induction l generalizing a with
  | nil => exact .refl a
  | cons x l ih => exact (h a x).trans (ih _)

theorem quiet_bumpCtr (i n : Nat) (s : State) : Quiet s (bumpCtr i n s) := ⟨rfl, rfl, rfl, rfl, rfl, rfl⟩
theorem quiet_emit (o : Output) (s : State) : Quiet s (emit o s) := ⟨rfl, rfl, rfl, rfl, rfl, rfl⟩

theorem quiet_aerReport (p : Nat) (unc : Bool) (s : State) : Quiet s (aerReport p unc s) := by
  have h : Quiet s { s with host := { s.host with aerSet := mset false s.host.aerSet (2 * p + b2n unc) true } } :=
    ⟨rfl, rfl, rfl, rfl, rfl, rfl⟩
  unfold aerReport
  extract_lets k host t
  split
  · exact h
  · exact h.trans (quiet_emit _ _)

/-- A message signalled interrupt logs an error only where the host cannot be reached. -/
theorem quiet_msixTrigger {s : State} {p : Nat} (vec : Nat) (h : hostReach s p = true) : Quiet s (msixTrigger p vec s) := by
  unfold msixTrigger
  split
  · exact .refl s
  split
  · exact ⟨rfl, rfl, rfl, rfl, rfl, rfl⟩
  · unfold msixOut
    rw [if_pos h]
    exact (quiet_bumpCtr _ _ s).trans (quiet_emit _ _)

theorem reported_logPortDown (p : Nat) (s : State) : Reported s (logPortDown p s) := by
  unfold logPortDown logLimited
  split
  · exact .refl s
  · obtain ⟨hcore, hcsr, hhost, hlog, hidx⟩ := reported_logErr 0x0802 0x23 none p s
    exact ⟨hcore, hcsr, hhost, hlog, hidx⟩

theorem reported_msixTrigger (p vec : Nat) (s : State) : Reported s (msixTrigger p vec s) := by
  cases hr : hostReach s p with
  | true => exact (quiet_msixTrigger vec hr).reported
  | false =>
    unfold msixTrigger
    split
    · exact .refl s
    split
    · exact ⟨rfl, rfl, ⟨rfl, rfl⟩, ⟨[], (List.append_nil _).symm⟩, rfl⟩
    · unfold msixOut
      rw [if_neg (by simp [hr])]
      exact reported_logPortDown p s

/-- The counters and the error signalling of PCI Express for an entry (R574). -/
def errSignals (e : LogEntry) (s : State) : State :=
  let s := if e.cls = .notice then s else bumpCtr (31 + classCode e.cls) 1 s
  let s := match e.cls, ownerHost s with
    | .corrected, some p => aerReport p false s
    | _, _ => s
  if e.cls = .fatal then
    ([0, 1].filter (fun p => flag s (HOSTIF_PORT_STATUS p) HOSTIF_PORT_STATUS_LINK_UP)).foldl (fun s p => aerReport p true s) s
  else s

/-- The error vector of one port. -/
def errVector (s : State) (p : Nat) : State :=
  if flag s (HOSTIF_PORT_VEC p) HOSTIF_PORT_VEC_ERR_EN then
    msixTrigger p (fld s (HOSTIF_PORT_VEC p) HOSTIF_PORT_VEC_ERR_VEC) s else s

theorem errReport_eq (e : LogEntry) (s : State) : errReport e s = errVector (errVector (errSignals e s) 0) 1 := by
  unfold errReport errSignals
  extract_lets a b c
  rfl

theorem quiet_errSignals (e : LogEntry) (s : State) : Quiet s (errSignals e s) := by
  unfold errSignals
  extract_lets a b
  have ha : Quiet s a := by
    simp only [a]
    split
    · exact .refl s
    · exact quiet_bumpCtr _ _ _
  have hb : Quiet a b := by
    simp only [b]
    clear_value a
    split
    · exact quiet_aerReport _ _ _
    · exact .refl a
  clear_value b
  refine (ha.trans hb).trans ?_
  split
  · exact quiet_foldl (fun _ _ => quiet_aerReport _ _ _) _ _
  · exact .refl b

theorem reported_errVector (s : State) (p : Nat) : Reported s (errVector s p) := by
  unfold errVector
  split
  · exact reported_msixTrigger _ _ _
  · exact .refl s

theorem reported_errReport (e : LogEntry) (s : State) : Reported s (errReport e s) := by
  rw [errReport_eq]
  exact ((quiet_errSignals e s).reported.trans (reported_errVector _ 0)).trans (reported_errVector _ 1)

/-- Every port that wants the error vector can be reached. -/
def PortsHeard (s : State) : Prop := ∀ p, p < 2 → flag s (HOSTIF_PORT_VEC p) HOSTIF_PORT_VEC_ERR_EN = true → hostReach s p = true

/-- Whether the ports are heard rests on their registers and on what the hosts do. -/
theorem PortsHeard.of_kept {s t : State} {l : List Nat} (h : PortsHeard s) (hw : WordsKept s t l)
    (hl : ∀ p, p < 2 → HOSTIF_PORT_VEC p ∉ l ∧ HOSTIF_PORT_STATUS p ∉ l)
    (hh : t.host.inReset = s.host.inReset ∧ t.host.d3 = s.host.d3) : PortsHeard t := by
  intro p hp hen
  obtain ⟨hv, hs⟩ := hl p hp
  have hr := h p hp ((hw.flag (f := HOSTIF_PORT_VEC_ERR_EN) hv).symm.trans hen)
  unfold hostReach at hr ⊢
  rwa [hw.flag (r := HOSTIF_PORT_STATUS p) (f := HOSTIF_PORT_STATUS_LINK_UP) hs,
    hw.flag (r := HOSTIF_PORT_STATUS p) (f := HOSTIF_PORT_STATUS_BME) hs, hh.1, hh.2]

theorem PortsHeard.of_quiet {s t : State} (h : PortsHeard s) (hq : Quiet s t) : PortsHeard t :=
  h.of_kept (wordsKept_of_csr hq.csr []) (fun _ _ => ⟨List.not_mem_nil, List.not_mem_nil⟩) hq.host

theorem quiet_errVector {s : State} {p : Nat} (h : PortsHeard s) (hp : p < 2) : Quiet s (errVector s p) := by
  unfold errVector
  split
  next hen => exact quiet_msixTrigger _ (h p hp hen)
  next => exact .refl s

/-- Reporting to ports that are heard logs nothing. -/
theorem quiet_errReport (e : LogEntry) {s : State} (h : PortsHeard s) : Quiet s (errReport e s) := by
  rw [errReport_eq]
  have h₀ := quiet_errSignals e s
  have h₁ := h₀.trans (quiet_errVector (h.of_quiet h₀) (p := 0) (by decide))
  exact h₁.trans (quiet_errVector (h.of_quiet h₁) (by decide))

/-! ### The place of an entry -/

theorem errPlace_ring (e : LogEntry) {s : State} (hon : errOn s = true) (hroom : errFull s = false) (hh : s.log.held = []) :
    errPlace e s = errPut e s := if_pos (by simp [hon, hroom, hh])

theorem errPlace_held (e : LogEntry) {s : State} (hoff : errOn s = false) (hlen : s.log.held.length < 256) :
    errPlace e s = setLog (fun l => { l with held := l.held ++ [e] }) s := by
  unfold errPlace
  rw [if_neg (by simp [hoff]), if_neg (by simp [hoff, hlen])]

theorem errPlace_dropped (e : LogEntry) {s : State}
    (h : errOn s = true ∧ s.log.held = [] ∧ errFull s = true ∨ 256 ≤ s.log.held.length) :
    errPlace e s = setLog (fun l => { l with dropOwed := true }) (satFld s ERR_DROP ERR_DROP_DROPPED 1) := by
  unfold errPlace
  rcases h with ⟨hon, hh, hfull⟩ | hlen
  · rw [if_neg (by simp [hfull]), if_pos (by simp [hon, hh])]
  · have hne : s.log.held.isEmpty = false := by
      cases hl : s.log.held with
      | nil => simp [hl] at hlen
      | cons => rfl
    rw [if_neg (by simp [hne]), if_pos (by simp [hlen])]

/-- What the place of an entry leaves: the registers but the ring's pointer and the count of losses, the log's order, the cores
and the hosts. -/
structure Placed (s t : State) : Prop where
  words : WordsKept s t [ERR_PTR, ERR_DROP]
  core  : t.core = s.core
  host  : t.host.inReset = s.host.inReset ∧ t.host.d3 = s.host.d3
  log   : ∃ l, t.log.inFlight = s.log.inFlight ++ l
  idx   : t.log.fatalIdx = s.log.fatalIdx

theorem Placed.of_log (s : State) {f : LogSt → LogSt} (hf : (f s.log).inFlight = s.log.inFlight ∧ (f s.log).fatalIdx = s.log.fatalIdx)
    {t : State} (h : WordsKept s t [ERR_PTR, ERR_DROP]) (hc : t.core = s.core) (hh : t.host = s.host) (hl : t.log = s.log) :
    Placed s (setLog f t) :=
  ⟨h, hc, by rw [← hh]; exact ⟨rfl, rfl⟩, ⟨[], by rw [List.append_nil, ← hf.1, ← hl]; rfl⟩, by rw [← hf.2, ← hl]; rfl⟩

theorem placed_errPut (e : LogEntry) (s : State) : Placed s (errPut e s) := by
  have h := reported_dramWriteAll (fld s ERR_RING ERR_RING_BASE * 4096 + 32 * errHead s) (entryBytes e) s
  refine ⟨(wordsKept_errPut e s).mono (by decide), ?_, ?_, ?_, ?_⟩ <;> unfold errPut
  · rw [setFld_core]; exact h.core
  · rw [setFld_host]; exact h.host
  · rw [setFld_log]; exact h.log
  · rw [setFld_log]; exact h.idx

theorem placed_errPlace (e : LogEntry) (s : State) : Placed s (errPlace e s) := by
  unfold errPlace
  split
  · exact placed_errPut e s
  split
  · exact .of_log s ⟨rfl, rfl⟩ ((wordsKept_setFld s ERR_DROP ERR_DROP_DROPPED _).mono (by decide)) (setFld_core _ _ _ _)
      (setFld_host _ _ _ _) (setFld_log _ _ _ _)
  · exact .of_log s ⟨rfl, rfl⟩ (fun _ _ => rfl) rfl rfl rfl

theorem PortsHeard.of_placed {s t : State} (h : PortsHeard s) (hp : Placed s t) : PortsHeard t := by
  refine h.of_kept hp.words (fun p hlt => ?_) hp.host
  have : p = 0 ∨ p = 1 := by omega
  rcases this with rfl | rfl <;> decide

end Sys2Proof.Machine
end

section
/-!
PROOFS. O59: the error log's row, and the obligation.
-/
namespace Sys2Proof.Machine
open Sys2Proof

/-- The state with the entry at the head of those in flight taken off. -/
def dequeued (es : List LogEntry) (s : State) : State := setLog (fun l => { l with inFlight := es }) s

theorem exec_errlogEntry_none {s : State} (h : s.log.inFlight = []) : exec .errlogEntry s = .next s := by
  show execErrlogEntry s = _
  unfold execErrlogEntry
  simp only [h]
  rfl

theorem exec_errlogEntry {s : State} {e : LogEntry} {es : List LogEntry} (h : s.log.inFlight = e :: es) :
    exec .errlogEntry s = .next (if e.cls = .fatal then errFatal e (errReport e (errPlace e (dequeued es s)))
      else errReport e (errPlace e (dequeued es s))) := by
  show execErrlogEntry s = _
  unfold execErrlogEntry
  simp only [h]
  rfl

/-! ### An entry put away -/

theorem errLen_le (s : State) : errLen s ≤ 2 ^ 16 :=
  Nat.pow_le_pow_right (by decide) (by omega)

/-- The ring takes an entry in the chunk at its head, and the head moves on. -/
theorem errPut_dequeued (e : LogEntry) (es : List LogEntry) {s : State}
    (h : stageLocked s (fld s ERR_RING ERR_RING_BASE * 4096 + 32 * errHead s) = false) :
    fld (errPut e (dequeued es s)) ERR_PTR ERR_PTR_HEAD = (errHead s + 1) % errLen s ∧
    (errPut e (dequeued es s)).log = { s.log with inFlight := es } ∧
    (errPut e (dequeued es s)).mem =
      (dramWriteAll (fld s ERR_RING ERR_RING_BASE * 4096 + 32 * errHead s) (entryBytes e) s).mem := by
  have hput : errPut e (dequeued es s) = setFld (dramWriteAll (fld s ERR_RING ERR_RING_BASE * 4096 + 32 * errHead s)
      (entryBytes e) (dequeued es s)) ERR_PTR ERR_PTR_HEAD ((errHead s + 1) % errLen s) := rfl
  rw [hput]
  generalize ho : fld s ERR_RING ERR_RING_BASE * 4096 + 32 * errHead s = o at h
  have hmod : o % 64 ≤ 32 := by omega
  have hwrite : dramWriteAll o (entryBytes e) (dequeued es s) =
      setLog (fun l => { l with inFlight := es }) (dramWrite o (entryBytes e) [] s) := by
    rw [dramWriteAll_entry hmod]
    exact dramWrite_setLog h _ _ _
  have hlog : (dramWrite o (entryBytes e) [] s).log = s.log :=
    log_of_memless (memless_dramWrite h (entryBytes e) [])
  rw [hwrite, dramWriteAll_entry hmod]
  generalize dramWrite o (entryBytes e) [] s = w at hlog
  refine ⟨?_, ?_, ?_⟩
  · rw [fld_setFld _ _ _ _ (by decide)]
    refine Nat.mod_eq_of_lt (Nat.lt_of_lt_of_le (Nat.mod_lt _ ?_) (errLen_le s))
    exact Nat.two_pow_pos _
  · rw [setFld_log, ← hlog]; rfl
  · rw [setFld_mem]; rfl

theorem portsHeard_dequeued {s : State} (h : PortsHeard s) (es : List LogEntry) : PortsHeard (dequeued es s) := h

/-- R574: the log keeps its order, and where the ports are heard the entry goes to the ring, to the buffer, or is dropped. -/
theorem errlogEntry_row {s : State} {e : LogEntry} {es : List LogEntry} (h : s.log.inFlight = e :: es) (hcls : e.cls ≠ .fatal) :
    Runs .errlogEntry s fun t => (∃ l, t.log.inFlight = es ++ l) ∧ t.core = s.core ∧ (PortsHeard s →
      stageLocked s (fld s ERR_RING ERR_RING_BASE * 4096 + 32 * errHead s) = false →
      (errOn s = true → errFull s = false → s.log.held = [] →
        fld t ERR_PTR ERR_PTR_HEAD = (errHead s + 1) % errLen s ∧ t.log = { s.log with inFlight := es } ∧
        t.mem = (dramWriteAll (fld s ERR_RING ERR_RING_BASE * 4096 + 32 * errHead s) (entryBytes e) s).mem) ∧
      (errOn s = false → s.log.held.length < 256 →
        t.log = { s.log with inFlight := es, held := s.log.held ++ [e] } ∧ t.mem = s.mem ∧ rget t ERR_PTR = rget s ERR_PTR) ∧
      (errOn s = true ∧ s.log.held = [] ∧ errFull s = true ∨ 256 ≤ s.log.held.length →
        t.log = { s.log with inFlight := es, dropOwed := true } ∧ t.mem = s.mem ∧
        fld t ERR_DROP ERR_DROP_DROPPED = satAdd 32 (fld s ERR_DROP ERR_DROP_DROPPED) 1)) := by
  refine ⟨_, exec_errlogEntry h, ?_⟩
  rw [if_neg hcls]
  have hp := placed_errPlace e (dequeued es s)
  have hr := reported_errReport e (errPlace e (dequeued es s))
  have hq (hh : PortsHeard s) : Quiet (errPlace e (dequeued es s)) (errReport e (errPlace e (dequeued es s))) :=
    quiet_errReport e ((portsHeard_dequeued hh es).of_placed hp)
  generalize errReport e (errPlace e (dequeued es s)) = t at hr hq
  refine ⟨?_, hr.core.trans hp.core, fun hheard hfree => ?_⟩
  · obtain ⟨l₁, e₁⟩ := hp.log
    obtain ⟨l₂, e₂⟩ := hr.log
    exact ⟨l₁ ++ l₂, by rw [e₂, e₁, List.append_assoc]; rfl⟩
  · obtain ⟨hcsr, hlog, hmem, -, -⟩ := hq hheard
    refine ⟨fun hon hroom hheld => ?_, fun hoff hlen => ?_, fun hdrop => ?_⟩
    · obtain ⟨hhead, hl, hm⟩ := errPut_dequeued e es hfree
      rw [errPlace_ring e (s := dequeued es s) hon hroom hheld] at hcsr hlog hmem
      exact ⟨by rw [fld_of_csr hcsr, hhead], by rw [hlog, hl], by rw [hmem, hm]⟩
    · rw [errPlace_held e (s := dequeued es s) hoff hlen] at hcsr hlog hmem
      exact ⟨hlog, hmem, rget_of_csr hcsr _⟩
    · rw [errPlace_dropped e (s := dequeued es s) hdrop] at hcsr hlog hmem
      have hl : (satFld (dequeued es s) ERR_DROP ERR_DROP_DROPPED 1).log = { s.log with inFlight := es } := setFld_log _ _ _ _
      have hm : (satFld (dequeued es s) ERR_DROP ERR_DROP_DROPPED 1).mem = s.mem := setFld_mem _ _ _ _
      have hd : fld (satFld (dequeued es s) ERR_DROP ERR_DROP_DROPPED 1) ERR_DROP ERR_DROP_DROPPED =
          satAdd 32 (fld s ERR_DROP ERR_DROP_DROPPED) 1 := by
        refine (fld_setFld _ _ _ _ (by decide)).trans (Nat.mod_eq_of_lt ?_)
        show min _ (2 ^ 32 - 1) < 2 ^ 32
        omega
      generalize satFld (dequeued es s) ERR_DROP ERR_DROP_DROPPED 1 = w at hcsr hlog hmem hl hm hd
      refine ⟨?_, hmem.trans hm, (fld_of_csr hcsr _ _).trans hd⟩
      rw [hlog]
      show { w.log with dropOwed := true } = _
      rw [hl]

/-! ### A device-fatal entry -/

/-- The words of a device-fatal entry in the ring that outlives a device reset (R575). -/
def keepFatal (k : Nat) (e : LogEntry) (s : State) : State :=
  (entryWords e).zipIdx.foldl (fun s x => rset s (ERR_FATAL + 32 * k + 8 * x.2) x.1) s

theorem rget_keepFatal (k : Nat) (e : LogEntry) (s : State) {j : Nat} (hj : j < 4) :
    rget (keepFatal k e s) (ERR_FATAL + 32 * k + 8 * j) = (entryWords e).getD j 0 := by
  obtain ⟨a, b, c, d, h⟩ : ∃ a b c d, entryWords e = [a, b, c, d] := ⟨_, _, _, _, rfl⟩
  unfold keepFatal
  rw [h]
  interval_cases j <;> simp [rget_rset]

theorem log_measure (i : Nat) (info : W64) (dg : BitVec 384) (s : State) : (measure i info dg s).log = s.log := by
  unfold measure
  split
  · rfl
  · rw [bumpFld_log, setMc_log]

theorem log_deviceReset (s : State) : (deviceReset s).log = (resetSide s).log := by
  have hsec (t : State) : (securityState t).log = t.log := by simp only [securityState, log_measure, setFld_log]
  have hclear (t : State) : (clearStatus t).log = t.log := foldl_keeps State.log _ (fun t _ => setFld_log t _ _ _) _ _
  rw [deviceReset_eq, hsec, setFld_log, hclear]

theorem domainAt_errFatal {k j : Nat} (hk : k < 16) (hj : j < 4) : domainAt (ERR_FATAL + 32 * k + 8 * j) = some .cold := by
  have all : ∀ a : Fin 16, ∀ b : Fin 4, domainAt (ERR_FATAL + 32 * a + 8 * b) = some .cold := by decide
  exact all ⟨k, hk⟩ ⟨j, hj⟩

/-- The mark that a device-fatal entry stands at index `k`. -/
def fatalKept (k : Nat) (s : State) : State :=
  setMc (fun m => { m with fatalNew := true }) (setLog (fun l => { l with fatalIdx := (k + 1) % 16 }) s)

theorem fatalKept_parts (k : Nat) (s : State) : (fatalKept k s).mc.fatalNew = true ∧
    (fatalKept k s).log.fatalIdx = (k + 1) % 16 ∧ (fatalKept k s).csr = s.csr := ⟨rfl, rfl, rfl⟩

/-- R575: a device-fatal entry outlives the device reset that compute off brings. -/
theorem errFatal_spec (e : LogEntry) {s : State} (hk : s.log.fatalIdx < 16) :
    (errFatal e s).mc.compOff = true ∧ (errFatal e s).mc.held = true ∧ (errFatal e s).mc.fatalNew = true ∧
    (errFatal e s).log.fatalIdx = (s.log.fatalIdx + 1) % 16 ∧ (errFatal e s).core = CoreSt.reset ∧
    ∀ j, j < 4 → rget (errFatal e s) (ERR_FATAL + 32 * s.log.fatalIdx + 8 * j) = (entryWords e).getD j 0 := by
  have hstart : errFatal e s = computeOff (fatalKept s.log.fatalIdx (keepFatal s.log.fatalIdx e s)) := rfl
  have hkept (j : Nat) (hj : j < 4) := rget_keepFatal s.log.fatalIdx e s hj
  generalize keepFatal s.log.fatalIdx e s = v at hstart hkept
  obtain ⟨hnew, hidx, hcsr⟩ := fatalKept_parts s.log.fatalIdx v
  have hword (j : Nat) (hj : j < 4) := (rget_of_csr hcsr (ERR_FATAL + 32 * s.log.fatalIdx + 8 * j)).trans (hkept j hj)
  generalize fatalKept s.log.fatalIdx v = u at hstart hnew hidx hword
  have herr : errFatal e s = setMc (fun m => { m with compOff := true }) (deviceReset u) := hstart
  have hreset := (deviceReset_spec u).setCompOff fun _ => true
  have hmc : (deviceReset u).mc.fatalNew = u.mc.fatalNew := by
    simpa using congrArg (fun v : State => v.mc.fatalNew) (bootKept_deviceReset u)
  rw [herr]
  refine ⟨rfl, hreset.held, by rw [setMc_mc]; exact hmc.trans hnew, ?_, hreset.cores.1, fun j hj => ?_⟩
  · rw [setMc_log, log_deviceReset, ← hidx]; rfl
  · rw [hreset.cold _ (domainAt_errFatal hk hj), hword j hj]
    simp [ERR_FATAL, GLB_STATUS, MC_STATUS, SEC_STATE, MEAS_GEN]
    omega

theorem errlogEntry_fatal_row {s : State} {e : LogEntry} {es : List LogEntry} (h : s.log.inFlight = e :: es)
    (hcls : e.cls = .fatal) (hk : s.log.fatalIdx < 16) : Runs .errlogEntry s fun t => t.mc.compOff = true ∧ t.mc.held = true ∧
      t.mc.fatalNew = true ∧ t.log.fatalIdx = (s.log.fatalIdx + 1) % 16 ∧ t.core = CoreSt.reset ∧
      ∀ j, j < 4 → rget t (ERR_FATAL + 32 * s.log.fatalIdx + 8 * j) = (entryWords e).getD j 0 := by
  refine ⟨_, exec_errlogEntry h, ?_⟩
  rw [if_pos hcls]
  have hidx : (errReport e (errPlace e (dequeued es s))).log.fatalIdx = s.log.fatalIdx :=
    (reported_errReport e _).idx.trans (placed_errPlace e (dequeued es s)).idx
  generalize errReport e (errPlace e (dequeued es s)) = u at hidx
  have hspec := errFatal_spec e (s := u) (by rw [hidx]; exact hk)
  rwa [hidx] at hspec

/-! ### The obligation -/

/-- The rule of a ring register in the words of the obligation, whose ring ends by 960 GiB. -/
theorem RingRow.settles {i : Instr} {s : State} {reg ptr len code src : Nat} {w : W64} (h : RingRow i s reg ptr len code src w) :
    (bitsOf w 48 8 = 0 ∧ bitsOf w 12 36 * 4096 + len ≤ 0xF000000000 → s.log.held = [] → s.log.dropOwed = false →
      Runs i s fun t => RingTaken s t reg ptr w) ∧
    (¬ (bitsOf w 48 8 = 0 ∧ bitsOf w 12 36 * 4096 + len ≤ 0xF000000000) → Runs i s fun t => RingIgnored s t reg ptr code src) :=
  ⟨fun hf => h.takes ((ringFits_iff w len).mpr hf),
    fun hf => h.ignores (Bool.eq_false_iff.mpr fun hr => hf ((ringFits_iff w len).mp hr))⟩

/-- Settles O59: the four ring registers share one rule, and the error log's row is the place of the entry and its report. -/
theorem ringsAndTheErrorLog : Obligations.RingsAndTheErrorLog := by
  intro s
  refine ⟨fun w p hp => ⟨?_, ?_, ?_, ?_⟩, fun m w p n hok hm hp hn => ?_, exec_errlogEntry_none,
    fun e es h => ⟨errlogEntry_row h, errlogEntry_fatal_row h⟩⟩
  · exact fun u c hok hcp => (runIf_of hok _).trans (congrArg Host.Outcome.next (byMaster_core c _ _ hcp))
  · exact fun u c hok hcp =>
      (runIf_of (by simp [wfLtnRingWrite, hok, hp]) _).trans (congrArg Host.Outcome.next (byMaster_core c _ _ hcp))
  · exact fun u c hok hcp => (runIf_of hok _).trans (congrArg Host.Outcome.next (byMaster_core c _ _ hcp))
  · exact fun u c hok hcp => (runIf_of hok _).trans (congrArg Host.Outcome.next (byMaster_core c _ _ hcp))
  · subst hn
    intro fits e he hreach
    simp only [List.mem_cons, List.not_mem_nil, or_false] at he
    rcases he with rfl | rfl | rfl | rfl
    · exact (paceOvrBase_row w hok hm hreach).settles
    · exact (ltnRing_row w hp hok hm hreach).settles
    · exact (telemRing_row w hok hm hreach).settles
    · exact (errRing_row w hok hm hreach).settles

end Sys2Proof.Machine
end

section
/-!
PROOFS. The registers of an epoch (R31, R32): its words, the states and fences of its plots, and what the moves of the spares
in step 4 leave alone.
-/
namespace Sys2Proof.Machine
open Sys2Proof

/-! ### Words of the epoch and of its plots -/

theorem glbStatus_lt_plotStatus (p : Nat) : GLB_STATUS < PLOT_STATUS p :=
  Nat.lt_add_right (p * 0x400) (by decide : GLB_STATUS < 0x600008)

theorem epochCtrl_lt_plotStatus (p : Nat) : GLB_EPOCH_CTRL < PLOT_STATUS p :=
  Nat.lt_add_right (p * 0x400) (by decide : GLB_EPOCH_CTRL < 0x600008)

theorem plotStatus_inj {p q : Nat} : PLOT_STATUS p = PLOT_STATUS q ↔ p = q := by
  unfold PLOT_STATUS
  omega

theorem wordsKept_foldl {γ : Type} {f : State → γ → State} {w : List Nat} (l : List γ)
    (h : ∀ t, ∀ x ∈ l, WordsKept t (f t x) w) (s : State) : WordsKept s (l.foldl f s) w := by
  induction l generalizing s with
  | nil => exact fun _ _ => rfl
  | cons x l ih => exact (h s x List.mem_cons_self).trans (ih (fun t y hy => h t y (List.mem_cons_of_mem x hy)) (f s x))

theorem wordsKept_toStep (n : Nat) (s : State) : WordsKept s (toStep n s) [GLB_EPOCH_CTRL] := wordsKept_setFld _ _ _ _

@[simp] theorem toStep_avl (n : Nat) (s : State) : (toStep n s).avl = s.avl := setFld_avl _ _ _ _
@[simp] theorem toStep_core (n : Nat) (s : State) : (toStep n s).core = s.core := setFld_core _ _ _ _
@[simp] theorem toStep_mem (n : Nat) (s : State) : (toStep n s).mem = s.mem := setFld_mem _ _ _ _

theorem epochStep_toStep {n : Nat} (hn : n < 8) (s : State) : epochStep (toStep n s) = n :=
  (fld_setFld _ _ _ _ (by decide)).trans (Nat.mod_eq_of_lt hn)

@[simp] theorem epochOn_toStep (n : Nat) (s : State) : epochOn (toStep n s) = epochOn s :=
  (wordsKept_toStep n s).flag (by decide)

theorem fenced_toStep (n q : Nat) (s : State) :
    flag (toStep n s) (PLOT_STATUS q) PLOT_STATUS_FENCED = flag s (PLOT_STATUS q) PLOT_STATUS_FENCED :=
  (wordsKept_toStep n s).flag fun h => (epochCtrl_lt_plotStatus q).ne' (List.mem_singleton.mp h)

/-- `EPOCH_ACTIVE` takes `x`. -/
def setActive (x : Nat) (s : State) : State := setFld s GLB_STATUS GLB_STATUS_EPOCH_ACTIVE x

@[simp] theorem setActive_avl (x : Nat) (s : State) : (setActive x s).avl = s.avl := setFld_avl _ _ _ _
@[simp] theorem setActive_core (x : Nat) (s : State) : (setActive x s).core = s.core := setFld_core _ _ _ _
@[simp] theorem setActive_mem (x : Nat) (s : State) : (setActive x s).mem = s.mem := setFld_mem _ _ _ _

theorem wordsKept_setActive (x : Nat) (s : State) : WordsKept s (setActive x s) [GLB_STATUS] := wordsKept_setFld _ _ _ _

theorem epochOn_setActive (x : Nat) (s : State) : epochOn (setActive x s) = decide (x % 2 = 1) :=
  flag_setFld _ _ _ _ rfl (by decide)

theorem fenced_setActive (x q : Nat) (s : State) :
    flag (setActive x s) (PLOT_STATUS q) PLOT_STATUS_FENCED = flag s (PLOT_STATUS q) PLOT_STATUS_FENCED :=
  (wordsKept_setActive x s).flag fun h => (glbStatus_lt_plotStatus q).ne' (List.mem_singleton.mp h)

/-- The plots `ps` that stand in state `a` go to state `b`. -/
def restate (a b : Nat) (ps : List Nat) (s : State) : State :=
  ps.foldl (fun s p => if fld s (PLOT_STATUS p) PLOT_STATUS_STATE = a then
    setFld s (PLOT_STATUS p) PLOT_STATUS_STATE b else s) s

theorem restate_keeps {β : Type} (π : State → β) (h : ∀ t r f x, π (setFld t r f x) = π t) (a b : Nat) (ps : List Nat)
    (s : State) : π (restate a b ps s) = π s := by
  refine foldl_keeps π _ (fun t p => ?_) ps s
  split
  · exact h _ _ _ _
  · rfl

theorem wordsKept_restate (a b : Nat) (ps : List Nat) (s : State) : WordsKept s (restate a b ps s) (ps.map PLOT_STATUS) := by
  refine wordsKept_foldl ps (fun t p hp => ?_) s
  split
  · exact (wordsKept_setFld t (PLOT_STATUS p) PLOT_STATUS_STATE b).mono
      (List.cons_subset.mpr ⟨List.mem_map_of_mem hp, List.nil_subset _⟩)
  · exact fun _ _ => rfl

/-- A plot's state and its fence are fields of their own. -/
theorem fenced_restate (a b q : Nat) (ps : List Nat) (s : State) :
    flag (restate a b ps s) (PLOT_STATUS q) PLOT_STATUS_FENCED = flag s (PLOT_STATUS q) PLOT_STATUS_FENCED := by
  refine foldl_keeps (fun t => flag t (PLOT_STATUS q) PLOT_STATUS_FENCED) _ (fun t p => ?_) ps s
  split
  · by_cases hqp : q = p
    · subst hqp
      exact flag_of_fld (fld_setFld_other _ _ _ _ _ (by decide) rfl (by decide))
    · exact flag_of_fld (fld_setFld_far _ _ _ _ _ _ fun h => hqp (plotStatus_inj.mp h))
  · rfl

/-- `FENCED` of the plots `ps` takes `x`. -/
def setFences (x : Nat) (ps : List Nat) (s : State) : State :=
  ps.foldl (fun s p => setFld s (PLOT_STATUS p) PLOT_STATUS_FENCED x) s

theorem setFences_keeps {β : Type} (π : State → β) (h : ∀ t r f x, π (setFld t r f x) = π t) (x : Nat) (ps : List Nat)
    (s : State) : π (setFences x ps s) = π s := foldl_keeps π _ (fun t _ => h t _ _ _) ps s

theorem fld_setFences (x q : Nat) (ps : List Nat) (s : State) :
    fld (setFences x ps s) (PLOT_STATUS q) PLOT_STATUS_FENCED =
      if q ∈ ps then x % 2 else fld s (PLOT_STATUS q) PLOT_STATUS_FENCED := by
  induction ps generalizing s with
  | nil => rfl
  | cons p ps ih =>
    rw [show setFences x (p :: ps) s = setFences x ps (setFld s (PLOT_STATUS p) PLOT_STATUS_FENCED x) from rfl, ih]
    by_cases hqp : q = p
    · subst hqp
      rw [fld_setFld _ _ _ _ (by decide)]
      exact (ite_self _).trans (if_pos List.mem_cons_self).symm
    · rw [fld_setFld_far _ _ _ _ _ _ fun h => hqp (plotStatus_inj.mp h)]
      simp only [List.mem_cons, hqp, false_or]

theorem flag_setFences (x : Nat) {q : Nat} {ps : List Nat} (hq : q ∈ ps) (s : State) :
    flag (setFences x ps s) (PLOT_STATUS q) PLOT_STATUS_FENCED = decide (x % 2 = 1) := by
  rw [flag, fld_setFences, if_pos hq]

/-! ### What the moves of the spares leave alone -/

/-- What findings, repairs and moves of spares leave alone: `GLB_STATUS`, a waiting END, and a waiting CC_SWITCH. -/
def epochKept (s : State) : W64 × Bool × Bool := (rget s GLB_STATUS, s.avl.epochEnd, s.mc.ccSwitch)

theorem epochKept_of_parts {s t : State} (hr : rget t GLB_STATUS = rget s GLB_STATUS) (ha : t.avl = s.avl) (hm : t.mc = s.mc) :
    epochKept t = epochKept s := by simp only [epochKept, hr, ha, hm]

theorem epochOn_of_epochKept {s t : State} (h : epochKept t = epochKept s) : epochOn t = epochOn s :=
  flag_of_fld (fld_of_rget (congrArg Prod.fst h))

theorem epochEnd_of_epochKept {s t : State} (h : epochKept t = epochKept s) : t.avl.epochEnd = s.avl.epochEnd :=
  congrArg (fun v : W64 × Bool × Bool => v.2.1) h

theorem ccSwitch_of_epochKept {s t : State} (h : epochKept t = epochKept s) : t.mc.ccSwitch = s.mc.ccSwitch :=
  congrArg (fun v : W64 × Bool × Bool => v.2.2) h

theorem epochKept_of_tokenKept {s t : State} (h : tokenKept t = tokenKept s) : epochKept t = epochKept s :=
  calc epochKept t
    _ = epochKept (tokenKept t) := rfl
    _ = epochKept (tokenKept s) := congrArg epochKept h
    _ = epochKept s := rfl

theorem epochKept_core (s : State) (x : CoreSt) : epochKept { s with core := x } = epochKept s := rfl
theorem epochKept_mem (s : State) (x : MemSt) : epochKept { s with mem := x } = epochKept s := rfl
theorem epochKept_strm (s : State) (x : StrmSt) : epochKept { s with strm := x } = epochKept s := rfl
theorem epochKept_setAvl {f : AvlSt → AvlSt} (h : ∀ a, (f a).epochEnd = a.epochEnd) (s : State) :
    epochKept (setAvl f s) = epochKept s := congrArg (fun e => (rget s GLB_STATUS, e, s.mc.ccSwitch)) (h s.avl)
@[simp] theorem epochKept_orphanWhere (p : Req → Bool) (s : State) : epochKept (orphanWhere p s) = epochKept s := rfl

/-- Of the registers that change here, all but `GLB_CORES` lie above `GLB_STATUS`. -/
theorem epochKept_rset (s : State) {o : Nat} (v : W64) (h : GLB_STATUS < o) : epochKept (rset s o v) = epochKept s :=
  epochKept_of_parts ((rget_rset _ _ _ _).trans (if_neg h.ne)) rfl rfl

theorem epochKept_setFld (s : State) {r : Nat} (f : Fld) (x : Nat) (h : GLB_STATUS < r) :
    epochKept (setFld s r f x) = epochKept s := epochKept_rset s _ (Nat.lt_add_right _ h)

theorem epochKept_plotStatus (s : State) (p : Nat) (f : Fld) (x : Nat) :
    epochKept (setFld s (PLOT_STATUS p) f x) = epochKept s := epochKept_setFld s f x (glbStatus_lt_plotStatus p)

@[simp] theorem epochKept_shadowGen (s : State) : epochKept (shadowGen s) = epochKept s :=
  epochKept_setFld s SHADOW_GEN_GEN _ (by decide)

@[simp] theorem epochKept_logErr (code src : Nat) (p : Option Nat) (i : Nat) (s : State) :
    epochKept (logErr code src p i s) = epochKept s := rfl

@[simp] theorem epochKept_setAbsent (g : Nat) (l : List Nat) (s : State) : epochKept (setAbsent g l s) = epochKept s :=
  epochKept_setAvl (fun _ => rfl) s

@[simp] theorem epochKept_glbCores (s : State) : epochKept (glbCores s) = epochKept s := by
  have cores (t : State) (f : Fld) (x : Nat) (hf : f.word = 0) : epochKept (setFld t GLB_CORES f x) = epochKept t :=
    epochKept_of_parts (rget_setFld_other _ _ _ _ _ (by rw [hf]; decide)) rfl rfl
  unfold glbCores
  extract_lets
  rw [cores _ _ _ rfl, cores _ _ _ rfl, cores _ _ _ rfl]

@[simp] theorem epochKept_shadowDigest (s : State) : epochKept (shadowDigest s) = epochKept s := by
  have measured (i : Nat) (info : W64) (dg : BitVec 384) : epochKept (measure i info dg s) = epochKept s := by
    unfold measure
    split
    · rfl
    · exact epochKept_setFld (setMc _ s) MEAS_GEN_GEN _ (by decide)
  exact (epochKept_setFld _ SHADOW_GEN_DIGEST_GEN _ (by decide)).trans (measured _ _ _)

/-! ### Repairs and local memory -/

@[simp] theorem epochKept_freshBits (ws : List Nat) (s : State) : epochKept (freshBits ws s) = epochKept s := by
  refine foldl_keeps epochKept _ (fun t w => ?_) ws s
  unfold rewriteWord
  dsimp only
  split
  · rfl
  · split <;> rfl

@[simp] theorem epochKept_touchWord (n : Nat) (s : State) (w : Nat) : epochKept (touchWord n s w) = epochKept s := by
  have ecc (t : State) (f : Fld) (x : Nat) : epochKept (setFld t (MEM_ECC n) f x) = epochKept t :=
    epochKept_setFld t f x (by unfold GLB_STATUS MEM_ECC; omega)
  have loc (t : State) (f : Fld) (x : Nat) : epochKept (setFld t (MEM_ECC_LOC n) f x) = epochKept t :=
    epochKept_setFld t f x (by unfold GLB_STATUS MEM_ECC_LOC; omega)
  unfold touchWord
  split
  · rfl
  · exact (epochKept_mem _ _).trans (ecc _ _ _)
  · split
    · rfl
    · rw [epochKept_logErr]
      split
      · exact (ecc _ _ _).trans (epochKept_mem _ _)
      · exact (loc _ _ _).trans ((loc _ _ _).trans ((ecc _ _ _).trans (epochKept_mem _ _)))

@[simp] theorem epochKept_locStore (n k : Nat) (d : List Byte) (s : State) : epochKept (locStore n k d s) = epochKept s := by
  unfold locStore
  refine (foldl_keeps epochKept _ (fun t w => ?_) _ _).trans (foldl_keeps epochKept _ (epochKept_touchWord n) _ _)
  split
  · rfl
  · split <;> rfl

/-! ### Plots that fault, cores that move -/

@[simp] theorem epochKept_closeChans (f : Nat → Bool) (s : State) : epochKept (closeChans f s) = epochKept s := by
  have banks (u who : Nat) (t : State) : epochKept (banksBack u who t) = epochKept t := by
    refine foldl_keeps epochKept _ (fun t b => ?_) _ t
    split
    · exact epochKept_rset _ _ (by unfold GLB_STATUS BANK_OWNER; omega)
    · rfl
  refine foldl_keeps epochKept _ (fun t k => ?_) _ s
  unfold closeChan
  dsimp only
  split
  · rfl
  · rw [setChan, epochKept_strm]
    split
    · rw [banks, epochKept_orphanWhere]
    · rw [poolReturn, epochKept_strm, banks, epochKept_orphanWhere]

@[simp] theorem epochKept_dropWaiters (f : Req → Bool) (s : State) : epochKept (dropWaiters f s) = epochKept s :=
  (foldl_keeps epochKept (fun t i => syncCount i t)
    (fun t i => epochKept_setFld t _ _ (by unfold GLB_STATUS SYNC_CTRL; omega)) _ _).trans
    (foldl_keeps epochKept (fun t (e : Nat × Nat) => emit (.remoteWithdraw e.1 e.2) t) (fun _ _ => rfl) _ _)

@[simp] theorem epochKept_dropTokens (f : Nat → Bool) (s : State) : epochKept (dropTokens f s) = epochKept s := by
  unfold dropTokens dropBranches
  exact (foldl_keeps epochKept _ (fun _ _ => by rfl) _ _).trans (epochKept_strm _ _)

@[simp] theorem epochKept_abandonLocks (f : Nat → Bool) (s : State) : epochKept (abandonLocks f s) = epochKept s :=
  foldl_keeps epochKept _ (fun t i => epochKept_setFld t _ _ (by unfold GLB_STATUS LOCK; omega)) _ _

/-- A plot that faults leaves its epoch, which goes on (R328). -/
@[simp] theorem epochKept_plotFault (p code u c : Nat) (s : State) : epochKept (plotFault p code u c s) = epochKept s := by
  unfold plotFault
  extract_lets r avl s₁ mine markers s₂ core s₃ s₄ s₅ s₆ s₇ strm s₈
  split
  · rfl
  · have h₂ : epochKept s₂ = epochKept s₁ := epochKept_dropWaiters _ s₁
    have h₄ : epochKept s₄ = epochKept s₃ := (epochKept_plotStatus _ p _ _).trans
      ((epochKept_plotStatus _ p _ _).trans (epochKept_plotStatus _ p _ _))
    have h₅ : epochKept s₅ = epochKept s₄ := (epochKept_orphanWhere _ _).trans (epochKept_closeChans mine s₄)
    have h₆ : epochKept s₆ = epochKept s₅ := epochKept_plotStatus _ p _ _
    have h₇ : epochKept s₇ = epochKept s₆ := epochKept_dropTokens mine s₆
    calc epochKept (abandonLocks (srcInPlot s₈ p) s₈)
      _ = epochKept s₈ := epochKept_abandonLocks _ s₈
      _ = epochKept s₇ := epochKept_strm s₇ _
      _ = epochKept s₃ := h₇.trans (h₆.trans (h₅.trans h₄))
      _ = epochKept s₂ := epochKept_core s₂ _
      _ = epochKept s := h₂

@[simp] theorem epochKept_faultRetired (ph : Nat) (s : State) : epochKept (faultRetired ph s) = epochKept s := by
  unfold faultRetired
  split
  · split <;> simp
  · rfl

/-- A core that starts afresh loses registers of its own page alone. -/
@[simp] theorem epochKept_reseat (s : State) (n : Nat) : epochKept (reseat s n) = epochKept s := by
  unfold reseat
  extract_lets mine s₁ page given s₂ core s₃ s₄ start
  have h₁ : epochKept s₁ = epochKept s := (epochKept_core _ _).trans
    ((epochKept_core _ _).trans ((epochKept_orphanWhere _ _).trans (epochKept_closeChans mine s)))
  have h₂ : epochKept s₂ = epochKept s₁ := by
    have hlow : ¬ page ≤ GLB_STATUS := Nat.not_le.mpr (Nat.lt_add_right _ (by decide))
    exact epochKept_of_parts (by rw [rget_resetRegs]; simp [hlow]) rfl rfl
  have h₃ : epochKept s₃ = epochKept s₂ := epochKept_core s₂ _
  have h₄ : epochKept s₄ = epochKept s₃ := foldl_keeps epochKept _ (fun t r => epochKept_locStore _ _ _ t) _ _
  have h : epochKept s₄ = epochKept s := h₄.trans (h₃.trans (h₂.trans h₁))
  have hstart (cause : Nat) : epochKept (start cause s₄) = epochKept s₄ := by
    simp only [start]
    split
    · rfl
    · refine foldl_keeps epochKept _ (fun t c => ?_) _ _
      split
      · exact epochKept_core _ _
      · rfl
  split
  · exact (hstart 3).trans h
  · exact (hstart 5).trans h
  · exact h

@[simp] theorem epochKept_moveSpare (g i : Nat) (s : State) : epochKept (moveSpare g i s) = epochKept s := by
  unfold moveSpare
  extract_lets old s₁
  split
  · rfl
  · have hports (t : State) : epochKept (wakePorts (fun u => decide (groupOf u = g)) t) = epochKept t :=
      epochKept_of_tokenKept (tokenKept_wakePorts _ t)
    exact (hports _).trans ((foldl_keeps epochKept _ epochKept_reseat _ s₁).trans (epochKept_shadowGen _))

@[simp] theorem epochKept_retire (ph : Nat) (s : State) : epochKept (retire ph s) = epochKept s := by
  unfold retire
  split
  · rfl
  · simp only [apply_ite epochKept, epochKept_faultRetired, epochKept_setAbsent, epochKept_moveSpare, epochKept_logErr,
      epochKept_shadowGen, ite_self]
    exact epochKept_setAvl (fun _ => rfl) s

@[simp] theorem epochKept_repairRow (r : Nat × Bool × Nat × Nat) (s : State) : epochKept (repairRow r s) = epochKept s := by
  unfold repairRow
  extract_lets s₁
  have h₁ : epochKept s₁ = epochKept s := epochKept_setAvl (fun _ => rfl) s
  split
  extract_lets used s₂
  have h₂ : epochKept s₂ = epochKept s₁ := epochKept_freshBits _ s₁
  refine iteInduction (motive := fun t => epochKept t = epochKept s) (fun _ => ?_) fun _ => ?_
  · exact (epochKept_retire _ s₁).trans h₁
  · rw [epochKept_logErr, epochKept_shadowGen, epochKept_setAvl, h₂, h₁]
    exact fun _ => rfl

theorem epochKept_repairRows (f : Nat → Bool) (s : State) : epochKept (repairRows f s) = epochKept s :=
  foldl_keeps epochKept _ (fun t r => epochKept_repairRow r t) _ _

end Sys2Proof.Machine
end

section
/-!
PROOFS. The rows of an epoch (R31, R32, R110): how each command completes, and what it leaves.
-/
namespace Sys2Proof.Machine
open Sys2Proof

/-- An END has come and waits. -/
def endAsked (s : State) : State := { s with avl := { s.avl with epochEnd := true } }

/-- A master that may write the epoch registers and reaches them. -/
structure EpochMaster (s : State) (m : Master) : Prop where
  ok : masterOk m = true
  may : isSupervisor m = true ∨ isOwner s m = true
  reaches : Reaches s m GLB_EPOCH_CTRL

theorem EpochMaster.mayEpoch {s : State} {m : Master} (h : EpochMaster s m) : mayEpoch s m = true :=
  (Bool.or_eq_true _ _).mpr h.may

theorem exec_epochStart {s : State} {m : Master} (h : EpochMaster s m) :
    exec (.epochStart m) s =
      .next (if epochOn s || (namedPlots s).isEmpty then epochRefused s else startEpoch (namedPlots s) s) := by
  refine (runIf_of h.ok _).trans (congrArg Host.Outcome.next ((byMaster_of_reaches h.reaches _).trans ?_))
  simp only [h.mayEpoch, Bool.not_true, Bool.false_eq_true, if_false]

theorem exec_epochEnd {s : State} {m : Master} (h : EpochMaster s m) :
    exec (.epochEnd m) s = .next (if epochOn s then epochSettle (endAsked s) else epochRefused s) := by
  refine (runIf_of h.ok _).trans (congrArg Host.Outcome.next ((byMaster_of_reaches h.reaches _).trans ?_))
  cases hon : epochOn s <;> simp [h.mayEpoch, endAsked]

/-- A refused command sets REFUSED and nothing else. -/
theorem epochRefused_spec (s : State) : epochRefused s = { s with csr := (epochRefused s).csr } ∧
    fld (epochRefused s) GLB_EPOCH_CTRL GLB_EPOCH_CTRL_REFUSED = 1 ∧ WordsKept s (epochRefused s) [GLB_EPOCH_CTRL] :=
  ⟨rfl, fld_setFld _ _ _ _ (by decide), wordsKept_setFld _ _ _ _⟩

/-! ### The start, and the steps up to the fence -/

/-- The epoch's record at its START. -/
def epochOpened (ps : List Nat) (s : State) : State :=
  setAvl (fun a => { a with epochIn := ps, epochFrom := s.log.glints, epochLate := [], epochFence := [], epochEnd := false }) s

theorem startEpoch_eq (ps : List Nat) (s : State) :
    startEpoch ps s = toStep 2 (setActive 1 (restate 2 3 ps (epochOpened ps s))) := rfl

/-- R31 step 1: the plots named take part, and only their state and the epoch's own words change. -/
theorem startEpoch_spec (ps : List Nat) (s : State) : epochOn (startEpoch ps s) = true ∧ epochStep (startEpoch ps s) = 2 ∧
    (startEpoch ps s).avl.epochIn = ps ∧ (startEpoch ps s).core = s.core ∧ (startEpoch ps s).mem = s.mem ∧
    WordsKept s (startEpoch ps s) (GLB_STATUS :: GLB_EPOCH_CTRL :: ps.map PLOT_STATUS) := by
  rw [startEpoch_eq]
  refine ⟨?_, epochStep_toStep (by decide) _, ?_, ?_, ?_, ?_⟩
  · rw [epochOn_toStep, epochOn_setActive]; rfl
  · rw [toStep_avl, setActive_avl, restate_keeps State.avl setFld_avl]; rfl
  · rw [toStep_core, setActive_core, restate_keeps State.core setFld_core]; rfl
  · rw [toStep_mem, setActive_mem, restate_keeps State.mem setFld_mem]; rfl
  · have hplots : WordsKept s (restate 2 3 ps (epochOpened ps s)) (ps.map PLOT_STATUS) :=
      wordsKept_restate 2 3 ps (epochOpened ps s)
    refine ((hplots.append (wordsKept_setActive 1 _)).append (wordsKept_toStep 2 _)).mono fun o ho => ?_
    simp only [List.mem_append, List.mem_cons] at ho ⊢
    tauto

theorem exec_epochHalted {s : State} (hon : epochOn s = true) (hstep : epochStep s = 2)
    (hh : ∀ q ∈ s.avl.epochIn, plotHalted s q = true) : exec .epochHalted s = .next (toStep 3 s) := by
  refine (runIf_of rfl _).trans (congrArg Host.Outcome.next (if_pos ?_))
  simpa [hon, hstep] using hh

theorem exec_epochDrained {s : State} (hon : epochOn s = true) (hstep : epochStep s = 3) (hdry : epochDry s = true) :
    exec .epochDrained s = .next (toStep 4 (epochFences s)) :=
  (runIf_of rfl _).trans (congrArg Host.Outcome.next (if_pos (by simp [hon, hstep, hdry])))

/-- The plots of the epoch whose fence this epoch raises. -/
def fencesNoted (s : State) : State :=
  { s with avl := { s.avl with epochFence := s.avl.epochIn.filter fun p => !flag s (PLOT_STATUS p) PLOT_STATUS_FENCED } }

/-- R31 step 3: every plot of the epoch stands fenced, and the cores and memories stay. -/
theorem epochFences_spec (s : State) :
    (∀ q ∈ s.avl.epochIn, flag (epochFences s) (PLOT_STATUS q) PLOT_STATUS_FENCED = true) ∧
    (epochFences s).core = s.core ∧ (epochFences s).mem = s.mem := by
  obtain ⟨x, hx⟩ : ∃ x, epochFences s = { setFences 1 s.avl.epochIn (fencesNoted s) with strm := x } := ⟨_, rfl⟩
  rw [hx]
  refine ⟨fun q hq => ?_, ?_, ?_⟩
  · exact (flag_of_csr rfl _ _).trans (flag_setFences 1 hq _)
  · exact setFences_keeps State.core setFld_core 1 _ _
  · exact setFences_keeps State.mem setFld_mem 1 _ _

/-- The plot is noted as late, and `TIMEOUT` set. -/
def lateNoted (p : Nat) (s : State) : State :=
  setFld { s with avl := { s.avl with epochLate := p :: s.avl.epochLate } } GLB_EPOCH_CTRL GLB_EPOCH_CTRL_TIMEOUT 1

theorem exec_epochTimeout {s : State} {p : Nat} (hp : p < 64) (hon : epochOn s = true) (hstep : epochStep s = 2)
    (hin : p ∈ s.avl.epochIn) (hlate : p ∉ s.avl.epochLate) (hn : 0 < fld s (PLOT_CFG p) PLOT_CFG_PATIENCE)
    (hdue : s.avl.epochFrom + fld s (PLOT_CFG p) PLOT_CFG_PATIENCE ≤ s.log.glints) (hh : plotHalted s p = false) :
    exec (.epochTimeout p) s = .next (logErr 0x0C03 0x10 (some p) 0 (lateNoted p s)) := by
  refine (runIf_of (decide_eq_true hp) _).trans (congrArg Host.Outcome.next (if_pos ?_))
  simp [hon, hstep, hin, hlate, hn.ne', hdue, hh]

/-! ### The end -/

theorem epochSettle_none {s : State} (h : s.avl.epochEnd = false) : epochSettle s = s := if_pos (by simp [h])

theorem epochSettle_endAsked {s : State} (hon : epochOn s = true) (hstep : epochStep s ≠ 4) : epochSettle (endAsked s) =
    if loadBusy s then (if epochStep s = 5 then toStep 6 (endAsked s) else endAsked s) else epochFinish (endAsked s) := by
  have hwaits : (endAsked s).avl.epochEnd = true := rfl
  have hon' : epochOn (endAsked s) = true := hon
  have hstep' : epochStep (endAsked s) ≠ 4 := hstep
  exact if_neg (by simp [hwaits, hon', hstep'])

/-- The contexts that halted at program boundaries go on (R110). -/
def haltsCancelled (s : State) : State :=
  { s with core := { s.core with ctxs := mmap Ctx.unloaded (fun k => inEpoch s (k / 8)) endHalt s.core.ctxs } }

/-- The epoch's record after its end. -/
def epochClosed (s : State) : State :=
  { s with avl := { s.avl with epochIn := [], epochLate := [], epochFence := [], epochEnd := false } }

/-- The end of an epoch in its steps: halts, fences, plot states, record, registers. -/
theorem epochFinish_eq (s : State) : epochFinish s = toStep 0 (setActive 0 (epochClosed
    (restate 3 2 (setFences 0 s.avl.epochFence (haltsCancelled s)).avl.epochIn
      (setFences 0 s.avl.epochFence (haltsCancelled s))))) := rfl

theorem core_epochFinish (s : State) : (epochFinish s).core = (haltsCancelled s).core := by
  rw [epochFinish_eq, toStep_core, setActive_core]
  exact (restate_keeps State.core setFld_core 3 2 _ _).trans (setFences_keeps State.core setFld_core 0 _ _)

theorem mem_epochFinish (s : State) : (epochFinish s).mem = s.mem := by
  rw [epochFinish_eq, toStep_mem, setActive_mem]
  exact (restate_keeps State.mem setFld_mem 3 2 _ _).trans (setFences_keeps State.mem setFld_mem 0 _ _)

/-- Exactly the contexts of the epoch that stand halted with cause 3 are READY again (R110). -/
theorem ctx_epochFinish (s : State) (u : Nat) {c : Nat} (hc : c < 8) : ctx (epochFinish s) u c =
    if inEpoch s u = true ∧ (ctx s u c).st = .halted ∧ (ctx s u c).cause = 3 then
      { ctx s u c with st := .ready, cause := 0, reason := 0 } else ctx s u c := by
  have hu : ctxKey u c / 8 = u := by unfold ctxKey; omega
  unfold ctx
  rw [core_epochFinish, haltsCancelled, mget_mmap _ _ _ (by decide), hu]
  by_cases hin : inEpoch s u = true
  · simp only [hin, if_true, true_and]; rfl
  · simp only [hin, Bool.false_eq_true, if_false, false_and]

/-- The fences that the epoch raised fall. -/
theorem fenced_epochFinish (s : State) {q : Nat} (hq : q ∈ s.avl.epochFence) :
    flag (epochFinish s) (PLOT_STATUS q) PLOT_STATUS_FENCED = false := by
  rw [epochFinish_eq, fenced_toStep, fenced_setActive]
  exact (flag_of_csr rfl _ _).trans ((fenced_restate _ _ _ _ _).trans (flag_setFences 0 hq _))

theorem epochFinish_spec (s : State) : epochOn (epochFinish s) = false ∧ epochStep (epochFinish s) = 0 ∧
    (epochFinish s).avl.epochIn = [] := by
  rw [epochFinish_eq]
  refine ⟨?_, epochStep_toStep (by decide) _, ?_⟩
  · rw [epochOn_toStep, epochOn_setActive]; rfl
  · rw [toStep_avl, setActive_avl]; rfl

/-! ### The spares -/

/-- Step 4: the rows of the epoch's cores are repaired, and the spares of its groups move (R563, R564). -/
def sparesMoved (s : State) : State :=
  let t := repairRows (fun ph => (plotAt s ph).any s.avl.epochIn.contains) s
  (epochGroups t).foldl (fun s g => moveSpare g (designate s g) s) t

theorem epochKept_sparesMoved (s : State) : epochKept (sparesMoved s) = epochKept s :=
  (foldl_keeps epochKept _ (fun t g => epochKept_moveSpare g _ t) _ _).trans (epochKept_repairRows _ _)

theorem epochKept_sparesShown (s : State) : epochKept (shadowDigest (glbCores (sparesMoved s))) = epochKept s := by
  rw [epochKept_shadowDigest, epochKept_glbCores, epochKept_sparesMoved]

theorem exec_epochSparesMoved {s : State} (hon : epochOn s = true) (hstep : epochStep s = 4) (he : s.avl.epochEnd = false)
    (hcc : s.mc.ccSwitch = false) :
    exec .epochSparesMoved s = .next (toStep 5 (shadowDigest (glbCores (sparesMoved s)))) := by
  have hrun : exec .epochSparesMoved s = runIf wfEpochSparesMoved (if epochOn s && decide (epochStep s = 4) then
      epochSettle (toStep 5 (shadowDigest (glbCores
        (if (sparesMoved s).mc.ccSwitch then ccSwitchNow (sparesMoved s) else sparesMoved s)))) else s) := by
    have harm : exec .epochSparesMoved s = execEpochSparesMoved s := rfl
    rw [harm]
    unfold execEpochSparesMoved sparesMoved
    dsimp only
  rw [if_pos (by simp [hon, hstep])] at hrun
  have hswitch : (sparesMoved s).mc.ccSwitch = false := (ccSwitch_of_epochKept (epochKept_sparesMoved s)).trans hcc
  rw [hrun, hswitch, if_neg (by decide)]
  refine congrArg Host.Outcome.next (epochSettle_none ?_)
  rw [toStep_avl, epochEnd_of_epochKept (epochKept_sparesShown s), he]

/-! ### The obligation -/

/-- Settles O30: each row of an epoch completes in a state that one lemma above describes. -/
theorem epochsStartAndEnd : Obligations.EpochsStartAndEnd := by
  intro s m p hok hp hmay hreach
  have hm : EpochMaster s m := ⟨hok, hmay, hreach⟩
  refine ⟨fun h => ?_, fun hoff hnamed => ?_, fun hon hstep hh => ?_, fun hon hstep hdry => ?_,
    fun hon hstep hin hlate hn hdue hh => ?_, fun hoff => ?_, fun hon hstep hfree => ?_, fun hon hstep hbusy => ?_,
    fun hon hstep he hcc => ?_⟩
  · refine ⟨_, (exec_epochStart hm).trans (congrArg Host.Outcome.next (if_pos ?_)), epochRefused_spec s⟩
    simpa using h
  · refine ⟨_, (exec_epochStart hm).trans (congrArg Host.Outcome.next (if_neg ?_)), startEpoch_spec (namedPlots s) s⟩
    simpa [hoff] using hnamed
  · exact ⟨_, exec_epochHalted hon hstep hh, rfl, epochStep_toStep (by decide) s, wordsKept_toStep 3 s⟩
  · obtain ⟨hfence, hcore, hmem⟩ := epochFences_spec s
    exact ⟨_, exec_epochDrained hon hstep hdry, epochStep_toStep (by decide) _,
      fun q hq => (fenced_toStep 4 q _).trans (hfence q hq), (toStep_core 4 _).trans hcore, (toStep_mem 4 _).trans hmem⟩
  · refine ⟨_, exec_epochTimeout hp hon hstep hin hlate hn hdue hh, ?_, ⟨_, rfl, rfl, rfl⟩, rfl⟩
    exact (fld_of_csr (logErr_csr _ _ _ _ _) _ _).trans (fld_setFld _ _ _ _ (by decide))
  · exact ⟨_, (exec_epochEnd hm).trans (congrArg Host.Outcome.next (if_neg (by simp [hoff]))), epochRefused_spec s⟩
  · obtain ⟨hact, hzero, hnone⟩ := epochFinish_spec (endAsked s)
    refine ⟨_, (exec_epochEnd hm).trans (congrArg Host.Outcome.next (if_pos hon)), ?_⟩
    rw [epochSettle_endAsked hon hstep, hfree]
    exact ⟨hact, hzero, hnone, mem_epochFinish _, fun q hq => fenced_epochFinish _ hq, fun u c hc => ctx_epochFinish _ u hc⟩
  · refine ⟨_, (exec_epochEnd hm).trans (congrArg Host.Outcome.next (if_pos hon)), ?_⟩
    rw [epochSettle_endAsked hon (by rw [hstep]; decide), hbusy, if_pos rfl, if_pos hstep]
    exact ⟨(epochOn_toStep 6 _).trans hon, epochStep_toStep (by decide) _, rfl, rfl, rfl⟩
  · exact ⟨_, exec_epochSparesMoved hon hstep he hcc, epochStep_toStep (by decide) _,
      (epochOn_toStep 5 _).trans ((epochOn_of_epochKept (epochKept_sparesShown s)).trans hon)⟩

end Sys2Proof.Machine
end

section
/-!
PROOFS. What leaves by the Cyust ports: a block on every port that is up (R63, R346), and a VC3 packet for one module (R66, R498).
-/
namespace Sys2Proof.Machine
open Sys2Proof

/-! ### What sending leaves alone -/

/-- The state without the queues of the ports, the telemetry counters and what has left the device. -/
def sendKept (s : State) : State := { s with link := LinkSt.reset, pwr := { s.pwr with ctr := [] }, out := [] }

theorem sendKept_setLink (f : LinkSt → LinkSt) (s : State) : sendKept (setLink f s) = sendKept s := rfl
theorem sendKept_bumpCtr (i n : Nat) (s : State) : sendKept (bumpCtr i n s) = sendKept s := rfl
theorem sendKept_emit (o : Output) (s : State) : sendKept (emit o s) = sendKept s := rfl

theorem sendKept_sendBlock (p : Nat) (b : LinkBlock) (s : State) : sendKept (sendBlock p b s) = sendKept s := by
  unfold sendBlock
  split
  · exact sendKept_setLink _ s
  · unfold putBlock emitBlock
    rw [sendKept_emit, sendKept_bumpCtr, sendKept_setLink]
    split
    · exact sendKept_setLink _ s
    · rfl

theorem sendKept_passOut (e : OutPkt) (s : State) : sendKept (passOut e s) = sendKept s := by
  unfold passOut
  extract_lets s₁ s₂
  have h₂ : sendKept s₂ = sendKept s₁ := by
    simp only [s₂]
    split
    · exact (sendKept_sendBlock _ _ _).trans ((sendKept_bumpCtr _ _ _).trans (sendKept_setLink _ _))
    · rfl
  refine Eq.trans ?_ (h₂.trans (sendKept_setLink _ s))
  split
  · exact sendKept_sendBlock _ _ _
  · rfl

theorem sendKept_drainOut (n : Nat) (s : State) : sendKept (drainOut n s) = sendKept s := by
  induction n generalizing s with
  | zero => rfl
  | succ n ih =>
    unfold drainOut
    split
    · exact (ih _).trans (sendKept_passOut _ s)
    · rfl

theorem sendKept_sendPacket (e : OutPkt) (s : State) : sendKept (sendPacket e s) = sendKept s :=
  (sendKept_drainOut _ _).trans (sendKept_setLink _ s)

theorem sendKept_sendAll (b : LinkBlock) (s : State) : sendKept (sendAll b s) = sendKept s :=
  foldl_keeps sendKept _ (fun t p => sendKept_sendBlock p b t) _ s

theorem sendKept_forwardPace (key : Nat × Nat) (b : LinkBlock) (s : State) :
    sendKept (forwardPace key b s) = sendKept (setPace (fun p => { p with markers := key :: p.markers }) s) :=
  foldl_keeps sendKept _ (fun t p => (sendKept_bumpCtr _ _ _).trans (sendKept_sendBlock p b t)) _ _

theorem parts_of_sendKept {s t : State} (h : sendKept t = sendKept s) :
    t.csr = s.csr ∧ t.core = s.core ∧ t.pace = s.pace ∧ t.now = s.now ∧ t.log = s.log := by
  have part {α : Type} (g : State → α) : g (sendKept t) = g (sendKept s) := congrArg g h
  exact ⟨part State.csr, part State.core, part State.pace, part State.now, part State.log⟩

/-! ### What has left, and what waits for an idle port, stays so -/

/-- Messages may have been added to what has left, and blocks to what waits for idle ports. -/
structure Sends (s t : State) : Prop where
  out  : s.out <:+ t.out
  idle : s.link.idleQ <+: t.link.idleQ

theorem Sends.refl (s : State) : Sends s s := ⟨List.suffix_rfl, List.prefix_rfl⟩

theorem Sends.trans {s t u : State} (h₁ : Sends s t) (h₂ : Sends t u) : Sends s u :=
  ⟨h₁.out.trans h₂.out, h₁.idle.trans h₂.idle⟩

theorem Sends.of_eq {s t : State} (ho : t.out = s.out) (hl : t.link = s.link) : Sends s t :=
  ⟨ho ▸ List.suffix_rfl, hl ▸ List.prefix_rfl⟩

theorem sends_emit (o : Output) (s : State) : Sends s (emit o s) := ⟨List.suffix_cons _ _, List.prefix_rfl⟩

theorem sends_foldl {γ : Type} {f : State → γ → State} (h : ∀ a x, Sends a (f a x)) (l : List γ) (a : State) :
    Sends a (l.foldl f a) := by
  induction l generalizing a with
  | nil => exact .refl a
  | cons x l ih => exact (h a x).trans (ih _)

theorem sends_sendBlock (p : Nat) (b : LinkBlock) (s : State) : Sends s (sendBlock p b s) := by
  unfold sendBlock putBlock
  split
  · exact ⟨List.suffix_rfl, List.prefix_append _ _⟩
  · dsimp only
    split <;> exact ⟨List.suffix_cons _ _, List.prefix_rfl⟩

theorem sends_sendAll (b : LinkBlock) (s : State) : Sends s (sendAll b s) := sends_foldl (fun t p => sends_sendBlock p b t) _ s

/-! ### A block for every port that is up -/

/-- A block for a port in service is sent, and one for a port in electrical idle waits (R346). -/
theorem sent_sendBlock (p : Nat) (b : LinkBlock) (s : State) :
    (portState s p = 3 → .link p b ∈ (sendBlock p b s).out) ∧ (portState s p = 4 → (p, b) ∈ (sendBlock p b s).link.idleQ) := by
  unfold sendBlock
  refine ⟨fun h => ?_, fun h => ?_⟩
  · rw [if_neg (by simp [h])]
    exact List.mem_cons_self
  · rw [if_pos h]
    exact List.mem_append_right _ List.mem_cons_self

theorem portState_of_csr {s t : State} (h : t.csr = s.csr) (p : Nat) : portState t p = portState s p := fld_of_csr h _ _

theorem SentOn.mono {s t u : State} {b : LinkBlock} (h : SentOn s t b) (htu : Sends t u) : SentOn s u b := fun q hq =>
  ⟨fun h3 => htu.out.subset ((h q hq).1 h3), fun h4 => htu.idle.subset ((h q hq).2 h4)⟩

theorem upPorts_of_csr {s t : State} (h : t.csr = s.csr) : upPorts t = upPorts s := by
  unfold upPorts portUp
  simp only [portState_of_csr h]

theorem SentOn.of_csr {s t u : State} {b : LinkBlock} (h : SentOn s u b) (hc : t.csr = s.csr) : SentOn t u b := by
  intro q hq
  rw [portState_of_csr hc]
  exact h q (upPorts_of_csr hc ▸ hq)

/-- A fold that sends `b` by each port of a list, and counts at most, has sent it by all of them. -/
theorem sent_foldl {f : State → Nat → State} {b : LinkBlock}
    (hf : ∀ a q, (f a q).csr = a.csr ∧ Sends (sendBlock q b a) (f a q)) (l : List Nat) (s : State) :
    ∀ q ∈ l, (portState s q = 3 → .link q b ∈ (l.foldl f s).out) ∧ (portState s q = 4 → (q, b) ∈ (l.foldl f s).link.idleQ) := by
  induction l generalizing s with
  | nil => exact nofun
  | cons p l ih =>
    intro q hq
    have hlater : Sends (f s p) (l.foldl f (f s p)) := sends_foldl (fun a x => (sends_sendBlock x b a).trans (hf a x).2) l _
    rcases List.mem_cons.mp hq with rfl | hq
    · obtain ⟨h3, h4⟩ := sent_sendBlock q b s
      have hgrown := (hf s q).2.trans hlater
      exact ⟨fun h => hgrown.out.subset (h3 h), fun h => hgrown.idle.subset (h4 h)⟩
    · have h := ih (f s p) q hq
      rwa [portState_of_csr (hf s p).1] at h

theorem sentOn_sendAll (b : LinkBlock) (s : State) : SentOn s (sendAll b s) b :=
  sent_foldl (fun a q => ⟨(parts_of_sendKept (sendKept_sendBlock q b a)).1, .refl _⟩) (upPorts s) s

/-- The first copy of a marker or keep-alive goes out on every port that is up (R63). -/
theorem sentOn_forwardPace (key : Nat × Nat) (b : LinkBlock) (s : State) : SentOn s (forwardPace key b s) b :=
  sent_foldl (f := fun a q => bumpCtr (84 + 8 * q) 1 (sendBlock q b a))
    (fun a q => ⟨(parts_of_sendKept (sendKept_sendBlock q b a)).1, .of_eq rfl rfl⟩) (upPorts s)
    (setPace (fun p => { p with markers := key :: p.markers }) s)

/-! ### A management packet for one module -/

/-- With no packet waiting, a packet of VC3 for module `d` that has a way out and credit has left. -/
def OnVc3 (s t : State) (d : Nat) (c : PktOut) : Prop :=
  ∀ q, s.link.outq = [] → routePort s d = some q → portState s q = 3 → flitRoom s q 3 (hopClass s q) 1 = true →
    .link q (.pkt d 3 (hopClass s q) 1 (flag s (CYUST_RT d) CYUST_RT_USE_ALT) c) ∈ t.out

theorem takeFlits_csr (p vc cls n : Nat) (s : State) : (takeFlits p vc cls n s).csr = s.csr := bumpCtr_csr _ _ _

theorem nextOut_single {s : State} {e : OutPkt} (h : s.link.outq = [e]) (hl : canLeave s e = true) : nextOut s = some e := by
  simp [nextOut, h, hl]

/-- A packet of this module that leaves by port `q` goes out as one message. -/
theorem passOut_own {s : State} {e : OutPkt} {q : Nat} (h : e.from_ = 8) (hq : outPort s e = some q) :
    passOut e s = sendBlock q (.pkt e.dst e.vc (outClass s e q) e.n (e.detour || flag s (CYUST_RT e.dst) CYUST_RT_USE_ALT) e.c)
      (takeFlits q e.vc (outClass s e q) e.n (setLink (fun l => { l with outq := l.outq.erase e }) s)) := by
  have hq' : outPort (setLink (fun l => { l with outq := l.outq.erase e }) s) e = some q := hq
  unfold passOut
  simp only [hq', h]
  rfl

theorem onVc3_sendPacket (s : State) (d : Nat) (c : PktOut) : OnVc3 s (sendPacket (ownPkt s d 3 1 c) s) d c := by
  intro q hempty hroute hup hroom
  let e := ownPkt s d 3 1 c
  let u := setLink (fun l => { l with outq := l.outq ++ [e] }) s
  have hone : u.link.outq = [e] := by simp [u, setLink, hempty]
  have hport : outPort u e = some q := by
    have hr : routePort u d = some q := hroute
    have hp : portState u q = 3 := hup
    simp [outPort, e, ownPkt, hr, portUp, hp]
  have hclass : outClass u e q = hopClass s q := if_neg (by simp [e, ownPkt])
  have hleave : canLeave u e = true := by
    have hp : portState u q = 3 := hup
    have hf : flitRoom u q e.vc (hopClass s q) e.n = true := hroom
    simp [canLeave, hport, hp, hclass, hf]
  have hsent : sendPacket e s = passOut e u := by
    show drainOut u.link.outq.length u = _
    rw [hone]
    simp [drainOut, nextOut_single hone hleave]
  have hblock : LinkBlock.pkt e.dst e.vc (hopClass s q) e.n (e.detour || flag u (CYUST_RT e.dst) CYUST_RT_USE_ALT) e.c =
      .pkt d 3 (hopClass s q) 1 (flag s (CYUST_RT d) CYUST_RT_USE_ALT) c := by
    rw [flag_of_csr (s := s) (t := u) rfl]
    rfl
  rw [hsent, passOut_own rfl hport, hclass, hblock]
  exact (sent_sendBlock q _ _).1 ((portState_of_csr (takeFlits_csr q e.vc _ e.n _) q).trans hup)

end Sys2Proof.Machine
end

section
/-!
PROOFS. Tokens of the Loam that move (R418–R420) only add to what has left the device.
-/
namespace Sys2Proof.Machine
open Sys2Proof

/-- A list that every step of a fold only adds to in front has only been added to in front. -/
theorem suffix_foldl {α γ δ : Type} (π : α → List δ) (f : α → γ → α) (h : ∀ a x, π a <:+ π (f a x)) (l : List γ) (a : α) :
    π a <:+ π (l.foldl f a) := by
  induction l generalizing a with
  | nil => exact List.suffix_rfl
  | cons x l ih => exact (h a x).trans (ih _)

theorem suffix_out_pinLevels (r i : Nat) (s : State) : s.out <:+ (pinLevels r i s).out := by
  unfold pinLevels
  split
  · exact suffix_foldl State.out _ (fun a v => List.suffix_cons _ a.out) _ (setLoam _ s)
  · exact List.suffix_rfl

theorem out_laneGather (r j : Nat) (s : State) : (laneGather r j s).out = s.out := by
  unfold laneGather
  split
  · rfl
  · dsimp only
    split
    · split <;> rfl
    · rfl

theorem out_popToken (i code : Nat) (s : State) : (popToken i code s).out = s.out := by
  unfold popToken
  dsimp only
  split
  · rfl
  split
  · rfl
  split
  · rfl
  · split
    case h_5 => split <;> rfl
    all_goals rfl

theorem suffix_out_sinkTakes {i k v : Nat} {x : Sink} {s t : State} (h : sinkTakes i k v x s = some t) : s.out <:+ t.out := by
  have latched {u : State} (hu : (if (slotOf s.loam.sink (i * 8 + k)).isSome then none
      else some (setLoam (fun l => { l with sink := fillSlot l.sink (i * 8 + k) v }) s)) = some u) : u.out = s.out := by
    split at hu <;> cases hu
    rfl
  cases x with
  | rx p c =>
    simp only [sinkTakes] at h
    split at h
    · obtain ⟨u, hu, rfl⟩ := Option.map_eq_some_iff.mp h
      exact (latched hu) ▸ List.suffix_rfl
    · cases h
  | mem b q d => exact (latched h) ▸ List.suffix_rfl
  | bout c =>
    simp only [sinkTakes] at h
    split at h
    · cases h; exact List.suffix_rfl
    · split at h <;> cases h
      exact List.suffix_rfl
  | lane j c =>
    simp only [sinkTakes] at h
    split at h
    · split at h
      · cases h
      · obtain ⟨u, hu, rfl⟩ := Option.map_eq_some_iff.mp h
        rw [out_laneGather, latched hu]
    · cases h
  | out p =>
    simp only [sinkTakes] at h
    split at h <;> cases h
    exact suffix_out_pinLevels _ _ (setLoam _ s)
  | oe p => cases h; exact List.suffix_rfl

theorem suffix_out_selTakes {i j v : Nat} {s t : State} {w : List Nat} (h : selTakes i j v s = some (t, w)) :
    s.out <:+ t.out := by
  unfold selTakes at h
  split at h
  · split at h <;> cases h
    exact List.suffix_rfl
  split at h
  · split at h
    · cases h
    · split at h <;> cases h
      exact List.suffix_rfl
  · split at h
    · cases h
    · obtain ⟨u, hu, he⟩ := Option.map_eq_some_iff.mp h
      cases he
      exact suffix_out_sinkTakes hu

/-- The selects that name a source take its token one by one. -/
theorem suffix_out_offer (k : Nat) (s : State) : s.out <:+ (offer k s).1.out := by
  unfold offer
  dsimp only
  split
  · exact List.suffix_rfl
  · rw [apply_ite Prod.fst, apply_ite State.out, out_popToken, ite_self]
    refine suffix_foldl (fun a : State × List Nat => a.1.out) _ (fun a j => ?_) _ (s, [])
    split
    · exact List.suffix_rfl
    split
    · exact List.suffix_rfl
    next t w ht => exact suffix_out_selTakes (t := t) ht

theorem suffix_out_settle (n : Nat) (ks : List Nat) (s : State) : s.out <:+ (settle n ks s).out := by
  induction n generalizing ks s with
  | zero => exact List.suffix_rfl
  | succ n ih =>
    cases ks with
    | nil => exact List.suffix_rfl
    | cons k ks => exact (suffix_out_offer k s).trans (ih _ _)

theorem suffix_out_move (ks : List Nat) (s : State) : s.out <:+ (move ks s).out := suffix_out_settle _ ks s

end Sys2Proof.Machine
end

section
/-!
PROOFS. What the firing of a Glint keeps: who the master is and what was last heard of it, pace time, the slot number and what
has been sent.
-/
namespace Sys2Proof.Machine
open Sys2Proof

/-! ### Two relations between a state and a later one -/

/-- The role stays, and what a module that is not master knows of its master; what has been sent stays sent. -/
structure MasterKept (s t : State) : Prop where
  role   : roleNow t = roleNow s
  master : roleNow s ≠ 0 → rget t PACE_MASTER = rget s PACE_MASTER
  heard  : t.pace.termSeen = s.pace.termSeen ∧ t.pace.heardAt = s.pace.heardAt
  sends  : Sends s t

/-- The same, and the cores, pace time, the slot in effect and the configuration of the pace stay. -/
structure PaceKept (s t : State) : Prop extends MasterKept s t where
  core   : t.core = s.core
  time   : paceTime t = paceTime s
  fired  : t.pace.lastFire = s.pace.lastFire
  slot   : rget t PACE_SLOT = rget s PACE_SLOT
  cfg    : rget t PACE_CFG = rget s PACE_CFG

theorem MasterKept.trans {s t u : State} (h₁ : MasterKept s t) (h₂ : MasterKept t u) : MasterKept s u where
  role := h₂.role.trans h₁.role
  master hr := (h₂.master (h₁.role ▸ hr)).trans (h₁.master hr)
  heard := ⟨h₂.heard.1.trans h₁.heard.1, h₂.heard.2.trans h₁.heard.2⟩
  sends := h₁.sends.trans h₂.sends

theorem PaceKept.trans {s t u : State} (h₁ : PaceKept s t) (h₂ : PaceKept t u) : PaceKept s u where
  toMasterKept := h₁.toMasterKept.trans h₂.toMasterKept
  core := h₂.core.trans h₁.core
  time := h₂.time.trans h₁.time
  fired := h₂.fired.trans h₁.fired
  slot := h₂.slot.trans h₁.slot
  cfg := h₂.cfg.trans h₁.cfg

theorem paceTime_of_parts {s t : State} (hn : t.now = s.now) (hp : t.pace.timeOff = s.pace.timeOff) :
    paceTime t = paceTime s := by
  unfold paceTime; rw [hn, hp]

/-- Nothing of the PACE block, the cores and the ports has changed. -/
theorem PaceKept.of_parts {s t : State} (hcsr : t.csr = s.csr) (hpace : t.pace = s.pace) (hnow : t.now = s.now)
    (hcore : t.core = s.core) (hs : Sends s t) : PaceKept s t where
  role := fld_of_csr hcsr _ _
  master _ := rget_of_csr hcsr _
  heard := by rw [hpace]; exact ⟨rfl, rfl⟩
  sends := hs
  core := hcore
  time := paceTime_of_parts hnow (by rw [hpace])
  fired := by rw [hpace]
  slot := rget_of_csr hcsr _
  cfg := rget_of_csr hcsr _

theorem PaceKept.refl (s : State) : PaceKept s s := .of_parts rfl rfl rfl rfl (.refl s)

theorem paceKept_foldl {γ : Type} {f : State → γ → State} (h : ∀ a x, PaceKept a (f a x)) (l : List γ) (a : State) :
    PaceKept a (l.foldl f a) := by
  induction l generalizing a with
  | nil => exact .refl a
  | cons x l ih => exact (h a x).trans (ih _)

theorem PaceKept.ite {c : Prop} [Decidable c] {s t u : State} (h₁ : c → PaceKept s t) (h₂ : ¬ c → PaceKept s u) :
    PaceKept s (if c then t else u) := iteInduction (motive := PaceKept s) h₁ h₂

/-! ### Register words -/

/-- A field of the first word of a register. -/
theorem wordsKept_setFirst (s : State) (r : Nat) {f : Fld} (hf : f.word = 0) (x : Nat) : WordsKept s (setFld s r f x) [r] := by
  have h := wordsKept_setFld s r f x
  rwa [hf] at h

/-- The words of the PACE block that the two relations speak of. -/
def paceWords : List Nat := [PACE_CFG, PACE_STATUS, PACE_MASTER, PACE_SLOT]

theorem not_paceWord {o : Nat} (h : PACE_MARGIN ≤ o) : o ∉ paceWords := fun hm =>
  absurd (show ∀ x ∈ paceWords, x < PACE_MARGIN by decide) fun hall => Nat.not_lt.mpr h (hall o hm)

/-- A register write that leaves the role, the slot and the configuration, and a module's knowledge of another as master. -/
theorem paceKept_rset_of {s : State} {o : Nat} {v : W64} (hrole : roleNow (rset s o v) = roleNow s)
    (hmaster : roleNow s ≠ 0 → o ≠ PACE_MASTER) (hslot : o ≠ PACE_SLOT) (hcfg : o ≠ PACE_CFG) : PaceKept s (rset s o v) := by
  have hw (r : Nat) (hr : o ≠ r) : rget (rset s o v) r = rget s r :=
    wordsKept_rset s o v r fun hm => hr (List.mem_singleton.mp hm).symm
  exact { role := hrole, master := fun h => hw _ (hmaster h), heard := ⟨rfl, rfl⟩, sends := .of_eq rfl rfl
          core := rfl, time := rfl, fired := rfl, slot := hw _ hslot, cfg := hw _ hcfg }

theorem paceKept_rset (s : State) {o : Nat} (v : W64) (h : o ∉ paceWords) : PaceKept s (rset s o v) := by
  have hne (r : Nat) (hr : r ∈ paceWords) : o ≠ r := fun he => h (he ▸ hr)
  refine paceKept_rset_of (fld_of_rget (wordsKept_rset s o v _ fun hm => ?_)) (fun _ => hne _ (by decide)) (hne _ (by decide))
    (hne _ (by decide))
  exact hne PACE_STATUS (by decide) (List.mem_singleton.mp hm).symm

theorem paceKept_setFld (s : State) {r : Nat} {f : Fld} (x : Nat) (h : r + 8 * f.word ∉ paceWords) :
    PaceKept s (setFld s r f x) := paceKept_rset s _ h

/-- A field of PACE_STATUS other than the role. -/
theorem paceKept_setPaceBit (s : State) {f : Fld} (x : Nat) (hw : f.word = 0) (hlo : 2 ≤ f.lo) (hhi : f.lo + f.width ≤ 64) :
    PaceKept s (setPaceBit f x s) := by
  have hrole : roleNow (setPaceBit f x s) = roleNow s := fld_setFld_other s _ _ _ _ hhi hw (.inl hlo)
  have hword : PACE_STATUS + 8 * f.word = PACE_STATUS := by rw [hw]; rfl
  exact paceKept_rset_of hrole (fun _ => hword.trans_ne (by decide)) (hword.trans_ne (by decide)) (hword.trans_ne (by decide))

/-- A master shows itself in PACE_MASTER. -/
theorem paceKept_setMaster {s : State} (hr : roleNow s = 0) {f : Fld} (hf : f.word = 0) (x : Nat) :
    PaceKept s (setFld s PACE_MASTER f x) := by
  have hword : PACE_MASTER + 8 * f.word = PACE_MASTER := by rw [hf]; rfl
  exact paceKept_rset_of (fld_setFld_far s _ _ _ _ _ (hword.trans_ne (by decide)).symm) (fun h => absurd hr h)
    (hword.trans_ne (by decide)) (hword.trans_ne (by decide))

/-! ### Parts of the state outside the PACE block -/

theorem paceKept_strm (s : State) (x : StrmSt) : PaceKept s { s with strm := x } := .of_parts rfl rfl rfl rfl (.of_eq rfl rfl)
theorem paceKept_setLoam (f : LoamSt → LoamSt) (s : State) : PaceKept s (setLoam f s) :=
  .of_parts rfl rfl rfl rfl (.of_eq rfl rfl)
theorem paceKept_setAvl (f : AvlSt → AvlSt) (s : State) : PaceKept s (setAvl f s) := .of_parts rfl rfl rfl rfl (.of_eq rfl rfl)
theorem paceKept_bumpCtr (i n : Nat) (s : State) : PaceKept s (bumpCtr i n s) := .of_parts rfl rfl rfl rfl (.of_eq rfl rfl)

/-! ### A Glint reaches channels, regions and epochs -/

theorem paceKept_updChan (s : State) (u ch : Nat) (f : Chan → Chan) : PaceKept s (updChan s u ch f) := paceKept_strm s _

theorem spillSize_not_paceWord (p : Nat) (f : Fld) : PLOT_SPILL_SIZE p + 8 * f.word ∉ paceWords :=
  not_paceWord (by unfold PLOT_SPILL_SIZE PACE_MARGIN; omega)

theorem paceKept_plotCtr (u i n : Nat) (s : State) : PaceKept s (plotCtr u i n s) :=
  .of_parts (plotCtr_csr _ _ _ _) (plotCtr_pace _ _ _ _) (plotCtr_now _ _ _ _) (plotCtr_core _ _ _ _)
    (.of_eq (plotCtr_out _ _ _ _) (plotCtr_link _ _ _ _))

theorem paceKept_takePage (u ch : Nat) (s : State) : PaceKept s (takePage u ch s) := by
  unfold takePage
  dsimp only
  split
  · exact paceKept_updChan s u ch _
  · exact (paceKept_strm s _).trans (paceKept_updChan (poolTake _ _ s) u ch _)

theorem paceKept_enterSpill (u ch : Nat) (s : State) : PaceKept s (enterSpill u ch s) := by
  unfold enterSpill
  refine .ite (fun _ => .refl s) fun _ => .ite (fun _ => paceKept_updChan s u ch _) fun _ => ?_
  exact (paceKept_updChan s u ch _).trans ((paceKept_setFld _ _ (spillSize_not_paceWord _ _)).trans
    ((paceKept_plotCtr u 4 1 _).trans (paceKept_takePage u ch _)))

theorem paceKept_glintChan (s : State) (k : Nat) : PaceKept s (glintChan s k) := by
  unfold glintChan
  extract_lets u ch t x wants
  have h : PaceKept s t := paceKept_updChan s u ch _
  exact .ite (fun _ => h) fun _ => .ite (fun _ => h.trans (paceKept_enterSpill u ch t)) fun _ => h.trans (paceKept_updChan t u ch _)

theorem paceKept_move (ks : List Nat) (s : State) : PaceKept s (move ks s) := by
  have h := tokenKept_move ks s
  have part {α : Type} (g : State → α) : g (tokenKept (move ks s)) = g (tokenKept s) := congrArg g h
  exact .of_parts (part State.csr) (part State.pace) (part State.now) (part State.core)
    ⟨suffix_out_move ks s, (part State.link) ▸ List.prefix_rfl⟩

theorem paceKept_glintLoam (slot : Nat) (s : State) : PaceKept s (glintLoam slot s) := by
  have hmiss (r : Nat) : LOAM_RGN_ERR r + 8 * LOAM_RGN_ERR_GLINT_MISS.word ∉ paceWords :=
    not_paceWord (by unfold LOAM_RGN_ERR PACE_MARGIN; omega)
  refine paceKept_foldl (fun t r => .ite (fun _ => .refl t) fun _ => ?_) _ s
  extract_lets k u
  have hu : PaceKept t u := .ite (fun _ => paceKept_setFld t _ (hmiss r)) fun _ => .refl t
  exact hu.trans ((paceKept_setLoam _ u).trans (paceKept_move [k] _))

theorem paceKept_startEpoch (ps : List Nat) (s : State) : PaceKept s (startEpoch ps s) := by
  rw [startEpoch_eq]
  have hplots (t : State) : PaceKept t (restate 2 3 ps t) :=
    paceKept_foldl (fun v p => .ite (fun _ => paceKept_setFld v _ (not_paceWord (by unfold PLOT_STATUS PACE_MARGIN; omega)))
      fun _ => .refl v) ps t
  have hactive (t : State) : PaceKept t (setActive 1 t) := paceKept_setFld t 1 (by decide)
  have hstep (t : State) : PaceKept t (toStep 2 t) := paceKept_setFld t 2 (by decide)
  exact (paceKept_setAvl _ s).trans ((hplots _).trans ((hactive _).trans (hstep _)))

theorem paceKept_forcedEpoch (s : State) : PaceKept s (forcedEpoch s) := by
  unfold forcedEpoch
  refine .ite (fun _ => .refl s) fun _ => ?_
  have hnamed (t : State) (v : W64) : PaceKept t (rset t GLB_EPOCH_PLOTS v) := paceKept_rset t v (by decide)
  exact (paceKept_setAvl _ s).trans ((hnamed _ _).trans (paceKept_startEpoch _ _))

end Sys2Proof.Machine
end

section
/-!
PROOFS. A Glint is scheduled and announced (R50, R63), and the earliest one fires (R50–R53, R62).
-/
namespace Sys2Proof.Machine
open Sys2Proof

/-! ### Scheduling -/

/-- When a Glint wanted at `want` fires, given when the one before it does: at least 1 µs later (R50). -/
def fireAfter : Option Nat → Nat → Nat
  | some t, want => max want (t + 10000)
  | none, want => want

theorem scheduleAt_of_hgCal {s : State} (h : hgCal s = true) (want num : Nat) (kind : GlintKind) : scheduleAt want num kind s =
    setPace (fun p => { p with sched := p.sched ++ [⟨fireAfter (lastDue s) want, num, kind⟩] }) s := by
  unfold scheduleAt
  rw [if_neg (by simp [h])]
  cases lastDue s <;> rfl

theorem scheduleAt_of_not_hgCal {s : State} (h : hgCal s = false) (want num : Nat) (kind : GlintKind) :
    scheduleAt want num kind s = s := if_pos (by simp [h])

/-- The state without the scheduled Glints, and without what sending them to other modules changes. -/
def schedKept (s : State) : State := sendKept (setPace (fun p => { p with sched := [] }) s)

theorem schedKept_of_sendKept {s t : State} (h : sendKept t = sendKept s) : schedKept t = schedKept s :=
  congrArg (setPace fun p => { p with sched := [] }) h

theorem parts_of_schedKept {s t : State} (h : schedKept t = schedKept s) :
    t.csr = s.csr ∧ t.core = s.core ∧ t.log = s.log ∧ paceTime t = paceTime s := by
  have part {α : Type} (g : State → α) : g (schedKept t) = g (schedKept s) := congrArg g h
  exact ⟨part State.csr, part State.core, part State.log, part paceTime⟩

theorem schedKept_scheduleAt (want num : Nat) (kind : GlintKind) (s : State) :
    schedKept (scheduleAt want num kind s) = schedKept s := by
  cases h : hgCal s with
  | true => rw [scheduleAt_of_hgCal h]; rfl
  | false => rw [scheduleAt_of_not_hgCal h]

theorem sends_scheduleAt (want num : Nat) (kind : GlintKind) (s : State) : Sends s (scheduleAt want num kind s) := by
  cases h : hgCal s with
  | true => rw [scheduleAt_of_hgCal h]; exact .of_eq rfl rfl
  | false => rw [scheduleAt_of_not_hgCal h]; exact .refl s

/-- The master's next Glint is scheduled, and announced by a marker where there is one to announce. -/
theorem schedule_cases (want : Nat) (kind : GlintKind) (s : State) :
    schedule want kind s = scheduleAt want (nextNum s) kind s ∨
    ∃ b, schedule want kind s = sendAll b (scheduleAt want (nextNum s) kind s) := by
  unfold schedule
  dsimp only
  split
  · split
    · exact .inr ⟨_, rfl⟩
    · exact .inl rfl
  · exact .inl rfl

theorem schedKept_schedule (want : Nat) (kind : GlintKind) (s : State) : schedKept (schedule want kind s) = schedKept s := by
  rcases schedule_cases want kind s with h | ⟨b, h⟩
  · rw [h, schedKept_scheduleAt]
  · rw [h, schedKept_of_sendKept (sendKept_sendAll b _), schedKept_scheduleAt]

theorem sends_schedule (want : Nat) (kind : GlintKind) (s : State) : Sends s (schedule want kind s) := by
  rcases schedule_cases want kind s with h | ⟨b, h⟩
  · exact h ▸ sends_scheduleAt _ _ _ s
  · exact h ▸ (sends_scheduleAt _ _ _ s).trans (sends_sendAll b _)

/-- The Glint scheduled follows those scheduled before it. -/
theorem sched_schedule {s : State} (h : hgCal s = true) (want : Nat) (kind : GlintKind) :
    (schedule want kind s).pace.sched = s.pace.sched ++ [⟨fireAfter (lastDue s) want, nextNum s, kind⟩] := by
  rcases schedule_cases want kind s with e | ⟨b, e⟩
  · rw [e, scheduleAt_of_hgCal h]; rfl
  · rw [e, (parts_of_sendKept (sendKept_sendAll b _)).2.2.1, scheduleAt_of_hgCal h]; rfl

theorem schedKept_freeRun (lost : Nat) (s : State) : schedKept (freeRun lost s) = schedKept s := by
  unfold freeRun
  dsimp only
  split
  · split
    · exact schedKept_schedule _ _ s
    · rfl
  · rfl

theorem PaceKept.of_schedKept {s t : State} (h : schedKept t = schedKept s) (hs : Sends s t) : PaceKept s t := by
  obtain ⟨hcsr, hcore, -, htime⟩ := parts_of_schedKept h
  have part {α : Type} (g : PaceSt → α) : g (schedKept t).pace = g (schedKept s).pace := congrArg (g ·.pace) h
  exact { role := fld_of_csr hcsr _ _, master := fun _ => rget_of_csr hcsr _
          heard := ⟨part PaceSt.termSeen, part PaceSt.heardAt⟩, sends := hs, core := hcore, time := htime
          fired := part PaceSt.lastFire, slot := rget_of_csr hcsr _, cfg := rget_of_csr hcsr _ }

theorem paceKept_scheduleAt (want num : Nat) (kind : GlintKind) (s : State) : PaceKept s (scheduleAt want num kind s) :=
  .of_schedKept (schedKept_scheduleAt want num kind s) (sends_scheduleAt want num kind s)

theorem paceKept_schedule (want : Nat) (kind : GlintKind) (s : State) : PaceKept s (schedule want kind s) :=
  .of_schedKept (schedKept_schedule want kind s) (sends_schedule want kind s)

/-! ### The steps of a Glint that fires -/

/-- A change of the PACE block's own state that leaves time, the last Glint and what was heard of the master. -/
theorem paceKept_setPace {s : State} {f : PaceSt → PaceSt} (hterm : (f s.pace).termSeen = s.pace.termSeen)
    (hheard : (f s.pace).heardAt = s.pace.heardAt) (hoff : (f s.pace).timeOff = s.pace.timeOff)
    (hfired : (f s.pace).lastFire = s.pace.lastFire) : PaceKept s (setPace f s) where
  role := rfl
  master _ := rfl
  heard := ⟨hterm, hheard⟩
  sends := .of_eq rfl rfl
  core := rfl
  time := paceTime_of_parts rfl hoff
  fired := hfired
  slot := rfl
  cfg := rfl

theorem paceKept_masterRuns (s : State) : PaceKept s (masterRuns s) := by
  unfold masterRuns
  refine .ite (fun _ => .refl s) fun hrole => ?_
  extract_lets s₁ s₂ s₃
  have h₁ : PaceKept s s₁ := paceKept_setPace rfl rfl rfl rfl
  have h₂ : PaceKept s₁ s₂ := paceKept_setPaceBit s₁ _ rfl (by decide) (by decide)
  have h₃ : PaceKept s₂ s₃ := (paceKept_setPaceBit s₂ (f := PACE_STATUS_HOPS) 0 rfl (by decide) (by decide)).trans
    ((paceKept_setPaceBit _ (f := PACE_STATUS_TIME_LOCKED) 1 rfl (by decide) (by decide)).trans
      (paceKept_setPaceBit _ (f := PACE_STATUS_SLOT_SYNC) 1 rfl (by decide) (by decide)))
  have h : PaceKept s s₃ := (h₁.trans h₂).trans h₃
  have hmaster {t : State} (ht : PaceKept s t) {f : Fld} (hf : f.word = 0) (x : Nat) :
      PaceKept s (setFld t PACE_MASTER f x) :=
    ht.trans (paceKept_setMaster (ht.role.trans (not_not.mp hrole)) hf x)
  exact hmaster (hmaster (hmaster h rfl _) rfl _) rfl _

theorem paceKept_chainGlint (x : Sched) (s : State) : PaceKept s (chainGlint x s) := by
  unfold chainGlint
  split
  · exact .ite (fun _ => paceKept_schedule _ _ s) fun _ => .refl s
  · exact .ite (fun _ => paceKept_schedule _ _ s) fun _ => .refl s
  · exact .refl s

theorem PaceKept.emit {s t : State} (h : PaceKept s t) (o : Output) : PaceKept s (emit o t) :=
  h.trans (.of_parts rfl rfl rfl rfl (sends_emit o t))

theorem paceKept_paceOut (fire : Nat) (s : State) : PaceKept s (paceOut fire s) :=
  .ite (fun _ => PaceKept.emit (paceKept_setPace rfl rfl rfl rfl) _) fun _ => .refl s

/-- PACE_OUT pulses where it is enabled (R62). -/
theorem pulse_paceOut {s : State} (h : flag s PACE_CFG PACE_CFG_OUT_EN = true) (fire : Nat) :
    .paceOut fire (max 1 (fld s PACE_CFG PACE_CFG_OUT_WIDTH)) ∈ (paceOut fire s).out := by
  unfold paceOut
  rw [if_pos h]
  exact List.mem_cons_self

theorem paceKept_paceStops (s : State) : PaceKept s (paceStops s) := by
  unfold paceStops
  extract_lets t
  have h : PaceKept s t :=
    .ite (fun _ => paceKept_setPaceBit s _ rfl (by decide) (by decide)) fun _ => .refl s
  exact h.trans (paceKept_setPaceBit t _ rfl (by decide) (by decide))

/-- The earliest Glint `x` leaves the schedule, and its slot opens. -/
def slotOpened (x : Sched) (rest : List Sched) (s : State) : State :=
  rset (advanceTo x.fire (setPace (fun p => { p with sched := rest, lastFire := some x.fire, issued := true }) s))
    PACE_SLOT (BitVec.ofNat 64 x.num)

/-- What the module shows with Glint `x`: the master itself, the next Glint, the pulse. -/
def glintShown (x : Sched) (s : State) : State := paceOut x.fire (chainGlint x (masterRuns (setPaceBit PACE_STATUS_RUNNING 1 s)))

/-- RUNNING and TIME_LOCKED end where no further Glint will come. -/
def lastGlint (s : State) : State :=
  let t := if isMaster s && flag s PACE_STATUS PACE_STATUS_SOURCE_LOST && s.pace.sched.isEmpty then
    setPaceBit PACE_STATUS_RUNNING 0 s else s
  if !paceOn t && t.pace.sched.isEmpty then paceStops t else t

theorem fireNext_eq {s : State} {x : Sched} {rest : List Sched} (hx : s.pace.sched = x :: rest) (hc : hgCal s = true) :
    fireNext s = glintReach x.num (lastGlint (glintShown x (slotOpened x rest s))) := by
  unfold fireNext
  simp only [hx, hc]
  rfl

theorem paceKept_glintShown (x : Sched) (s : State) : PaceKept s (glintShown x s) :=
  (paceKept_setPaceBit s _ rfl (by decide) (by decide)).trans ((paceKept_masterRuns _).trans
    ((paceKept_chainGlint x _).trans (paceKept_paceOut x.fire _)))

theorem pulse_glintShown {s : State} (h : flag s PACE_CFG PACE_CFG_OUT_EN = true) (x : Sched) :
    .paceOut x.fire (max 1 (fld s PACE_CFG PACE_CFG_OUT_WIDTH)) ∈ (glintShown x s).out := by
  have hkept := (paceKept_setPaceBit s (f := PACE_STATUS_RUNNING) 1 rfl (by decide) (by decide)).trans
    ((paceKept_masterRuns _).trans (paceKept_chainGlint x _))
  have hen := flag_of_fld (f := PACE_CFG_OUT_EN) (fld_of_rget (r := PACE_CFG) hkept.cfg)
  have hwidth : fld _ PACE_CFG PACE_CFG_OUT_WIDTH = fld s PACE_CFG PACE_CFG_OUT_WIDTH := fld_of_rget hkept.cfg
  exact hwidth ▸ pulse_paceOut (hen.trans h) x.fire

theorem paceKept_lastGlint (s : State) : PaceKept s (lastGlint s) := by
  unfold lastGlint
  extract_lets t
  have h : PaceKept s t := .ite (fun _ => paceKept_setPaceBit s _ rfl (by decide) (by decide)) fun _ => .refl s
  exact .ite (fun _ => h.trans (paceKept_paceStops t)) fun _ => h

/-! ### The cores -/

/-- The Glint that opens slot `num` has reached the contexts; time and the slot stay. -/
structure GlintReached (num : Nat) (s t : State) : Prop extends MasterKept s t where
  ctxs  : ∀ u c, ctx t u c = glintCtx num (ctx s u c)
  time  : paceTime t = paceTime s
  fired : t.pace.lastFire = s.pace.lastFire
  slot  : rget t PACE_SLOT = rget s PACE_SLOT

theorem glintReached_glintReach (num : Nat) (s : State) : GlintReached num s (glintReach num s) := by
  unfold glintReach
  extract_lets late keep new log core pace s₁ s₂
  have hrest : PaceKept s₁ (forcedEpoch (glintLoam num (bumpCtr 36 1 s₂))) :=
    (paceKept_foldl paceKept_glintChan _ s₁).trans ((paceKept_bumpCtr 36 1 s₂).trans
      ((paceKept_glintLoam num _).trans (paceKept_forcedEpoch _)))
  have hfirst : MasterKept s s₁ := ⟨rfl, fun _ => rfl, ⟨rfl, rfl⟩, .of_eq rfl rfl⟩
  refine { toMasterKept := hfirst.trans hrest.toMasterKept, ctxs := fun u c => ?_, time := hrest.time
           fired := hrest.fired, slot := hrest.slot }
  unfold ctx
  rw [hrest.core]
  exact mget_mmap _ _ _ rfl _ _

theorem wordsKept_slotOpened (x : Sched) (rest : List Sched) (s : State) : WordsKept s (slotOpened x rest s) [PACE_SLOT] := by
  unfold slotOpened
  exact WordsKept.trans (wordsKept_of_csr (s := s) (advanceTo_csr (setPace _ s) _) _) (wordsKept_rset _ _ _)

theorem masterKept_slotOpened (x : Sched) (rest : List Sched) (s : State) : MasterKept s (slotOpened x rest s) := by
  have hw := wordsKept_slotOpened x rest s
  refine ⟨hw.fld (by decide), fun _ => hw _ (by decide), ?_, .of_eq ?_ ?_⟩
  · rw [slotOpened, rset_pace, advanceTo_pace]; exact ⟨rfl, rfl⟩
  · rw [slotOpened, rset_out, advanceTo_out]; rfl
  · rw [slotOpened, rset_link, advanceTo_link]; rfl

/-- A Glint that fires, if one does, changes neither the role nor what a follower knows of its master. -/
theorem masterKept_fireNext (s : State) : MasterKept s (fireNext s) := by
  cases hx : s.pace.sched with
  | nil => unfold fireNext; rw [hx]; exact (PaceKept.refl s).toMasterKept
  | cons x rest =>
    cases hc : hgCal s with
    | false =>
      have h : fireNext s = s := by unfold fireNext; simp only [hx, hc]; rfl
      rw [h]; exact (PaceKept.refl s).toMasterKept
    | true =>
      rw [fireNext_eq hx hc]
      exact (masterKept_slotOpened x rest s).trans ((paceKept_glintShown x _).trans (paceKept_lastGlint _)).toMasterKept
        |>.trans (glintReached_glintReach x.num _).toMasterKept

/-! ### The row of GLINT_FIRE -/

theorem le_paceTime_advanceTo (t : Nat) (s : State) : t ≤ paceTime (advanceTo t s) := by
  unfold advanceTo
  split
  · simp only [paceTime]
    omega
  · omega

theorem glintCtx_next {x : Ctx} (num : Nat) (hst : x.st = .waiting) (hh : x.hold = .nextGlint) :
    (glintCtx num x).st = .ready ∧ (glintCtx num x).slot = num ∧ (glintCtx num x).paced = true := by
  simp [glintCtx, hst, hh]

theorem glintCtx_due {x : Ctx} {num k : Nat} (hst : x.st = .waiting) (hh : x.hold = .glint k) (hk : k ≤ num) :
    (glintCtx num x).st = .ready := by
  simp [glintCtx, hst, hh, Nat.not_lt.mpr hk]

theorem glintCtx_later {x : Ctx} {num k : Nat} (hh : x.hold = .glint k) (hk : num < k) : glintCtx num x = x := by
  simp [glintCtx, hh, hk]

theorem glintFire_row {s : State} {x : Sched} {rest : List Sched} (hx : s.pace.sched = x :: rest) (hc : hgCal s = true) :
    Runs .glintFire s fun t => rget t PACE_SLOT = BitVec.ofNat 64 x.num ∧ x.fire ≤ paceTime t ∧
      t.pace.lastFire = some x.fire ∧
      (∀ u c, (ctx s u c).st = .waiting → (ctx s u c).hold = .nextGlint → (ctx t u c).st = .ready ∧ (ctx t u c).slot = x.num ∧
        (ctx t u c).paced = true) ∧
      (∀ u c k, (ctx s u c).st = .waiting → (ctx s u c).hold = .glint k → k ≤ x.num → (ctx t u c).st = .ready) ∧
      (∀ u c k, (ctx s u c).st = .waiting → (ctx s u c).hold = .glint k → x.num < k → (ctx t u c).st = .waiting) ∧
      (flag s PACE_CFG PACE_CFG_OUT_EN = true → .paceOut x.fire (max 1 (fld s PACE_CFG PACE_CFG_OUT_WIDTH)) ∈ t.out) := by
  refine ⟨_, (runIf_of rfl _).trans (congrArg Host.Outcome.next (fireNext_eq hx hc)), ?_⟩
  generalize ho : slotOpened x rest s = o
  have hshown := paceKept_glintShown x o
  have hlast := paceKept_lastGlint (glintShown x o)
  have hkept := hshown.trans hlast
  have hreach := glintReached_glintReach x.num (lastGlint (glintShown x o))
  have hctx (u c : Nat) : ctx (glintReach x.num (lastGlint (glintShown x o))) u c = glintCtx x.num (ctx s u c) := by
    have hcore : (lastGlint (glintShown x o)).core = s.core := by
      rw [hkept.core, ← ho, slotOpened, rset_core, advanceTo_core]; rfl
    rw [hreach.ctxs]
    unfold ctx
    rw [hcore]
  refine ⟨?_, ?_, ?_, fun u c hst hh => ?_, fun u c k hst hh hk => ?_, fun u c k hst hh hk => ?_, fun hen => ?_⟩
  · rw [hreach.slot, hkept.slot, ← ho]
    exact rget_rset_same _ _ _
  · rw [hreach.time, hkept.time, ← ho]
    exact le_paceTime_advanceTo x.fire (setPace _ s)
  · rw [hreach.fired, hkept.fired, ← ho, slotOpened, rset_pace, advanceTo_pace]; rfl
  · rw [hctx]; exact glintCtx_next x.num hst hh
  · rw [hctx]; exact glintCtx_due hst hh hk
  · rw [hctx, glintCtx_later hh hk]; exact hst
  · have hw := ho ▸ wordsKept_slotOpened x rest s
    have hpulse := pulse_glintShown ((hw.flag (by decide)).trans hen) x
    rw [hw.fld (by decide)] at hpulse
    exact (hlast.sends.trans hreach.sends).out.subset hpulse

end Sys2Proof.Machine
end

section
/-!
PROOFS. Markers (R63, R65–R67): a first copy goes on to the neighbours, and a follower follows it.
-/
namespace Sys2Proof.Machine
open Sys2Proof

/-! ### Reports of the PACE block -/

theorem paceKept_logErr (code src : Nat) (plot : Option Nat) (info : Nat) (s : State) :
    PaceKept s (logErr code src plot info s) := .of_parts rfl rfl rfl rfl (.of_eq rfl rfl)

theorem paceKept_logLimited (code scope src : Nat) (plot : Option Nat) (info : Nat) (s : State) :
    PaceKept s (logLimited code scope src plot info s) :=
  .ite (fun _ => .refl s) fun _ => .of_parts rfl rfl rfl rfl (.of_eq rfl rfl)

theorem paceKept_paceReport (code : Nat) {f : Fld} (hw : f.word = 0) (hlo : 2 ≤ f.lo) (hhi : f.lo + f.width ≤ 64) (s : State) :
    PaceKept s (paceReport code (some f) s) :=
  (paceKept_setPaceBit s 1 hw hlo hhi).trans
    (.ite (fun _ => paceKept_logLimited _ _ _ _ _ _) fun _ => paceKept_logErr _ _ _ _ _)

/-! ### A first copy goes on -/

/-- The block has gone on by every port that is up, and its key is remembered. -/
structure Forwarded (key : Nat × Nat) (b : LinkBlock) (s t : State) : Prop where
  csr  : t.csr = s.csr
  pace : t.pace = { s.pace with markers := key :: s.pace.markers }
  now  : t.now = s.now
  sent : SentOn s t b

/-- The state once a block that came by port `p` has gone on. -/
def passedOn (p : Nat) (key : Nat × Nat) (b : LinkBlock) (s : State) : State := forwardPace key b (gotBlocks p 1 s)

theorem forwarded_passedOn (p : Nat) (key : Nat × Nat) (b : LinkBlock) (s : State) : Forwarded key b s (passedOn p key b s) := by
  obtain ⟨hcsr, -, hpace, hnow, -⟩ := parts_of_sendKept (sendKept_forwardPace key b (gotBlocks p 1 s))
  exact ⟨hcsr, hpace, hnow, (sentOn_forwardPace key b (gotBlocks p 1 s)).of_csr rfl⟩

theorem Forwarded.time {key : Nat × Nat} {b : LinkBlock} {s t : State} (h : Forwarded key b s t) : paceTime t = paceTime s :=
  paceTime_of_parts h.now (by rw [h.pace])

/-! ### What a follower takes from a marker -/

/-- PACE_MASTER names the sender of marker `k`. -/
def masterNamed (k : Marker) (s : State) : State :=
  setFld (setFld (setFld s PACE_MASTER PACE_MASTER_MODULE k.module) PACE_MASTER PACE_MASTER_GROUP k.group)
    PACE_MASTER PACE_MASTER_VALID 1

theorem wordsKept_masterNamed (k : Marker) (s : State) : WordsKept s (masterNamed k s) [PACE_MASTER] :=
  ((wordsKept_setFirst s _ rfl _).trans (wordsKept_setFirst _ _ rfl _)).trans (wordsKept_setFirst _ _ rfl 1)

theorem fld_masterNamed {k : Marker} (hk : markerOk k = true) (s : State) :
    fld (masterNamed k s) PACE_MASTER PACE_MASTER_MODULE = k.module ∧
    fld (masterNamed k s) PACE_MASTER PACE_MASTER_GROUP = k.group := by
  simp only [markerOk, Bool.and_eq_true, decide_eq_true_eq] at hk
  obtain ⟨⟨-, hmodule⟩, hgroup⟩ := hk
  constructor
  · calc fld (masterNamed k s) PACE_MASTER PACE_MASTER_MODULE
      _ = fld (setFld (setFld s _ _ k.module) PACE_MASTER PACE_MASTER_GROUP k.group) PACE_MASTER PACE_MASTER_MODULE :=
        fld_setFld_other _ _ _ _ _ (by decide) rfl (by decide)
      _ = fld (setFld s PACE_MASTER PACE_MASTER_MODULE k.module) PACE_MASTER PACE_MASTER_MODULE :=
        fld_setFld_other _ _ _ _ _ (by decide) rfl (by decide)
      _ = k.module := (fld_setFld _ _ _ _ (by decide)).trans (Nat.mod_eq_of_lt hmodule)
  · calc fld (masterNamed k s) PACE_MASTER PACE_MASTER_GROUP
      _ = fld (setFld (setFld s _ _ k.module) PACE_MASTER PACE_MASTER_GROUP k.group) PACE_MASTER PACE_MASTER_GROUP :=
        fld_setFld_other _ _ _ _ _ (by decide) rfl (by decide)
      _ = k.group := (fld_setFld _ _ _ _ (by decide)).trans (Nat.mod_eq_of_lt hgroup)

/-- The number that the Glint of marker `k` takes (R66). -/
def markerNum (k : Marker) (s : State) : Nat :=
  nearest k.slot (2 ^ 40) (if s.pace.issued || !s.pace.sched.isEmpty then nextNum s
    else s.pace.answered.getD (nextNum s - 1) + 1)

/-- What the PACE block keeps of marker `k`. -/
def markerNoted (k : Marker) (s : State) : State :=
  setPace (fun p => { p with
    termSeen := k.term, heardAt := paceTime s, pathsDown := none, lastPeriod := k.period, lastSlot := markerNum k s }) s

/-- The Glint of marker `k`, with number `num`, is scheduled for `fire`, or fires at once where the marker is late (R67). -/
def markerGlint (k : Marker) (num fire : Nat) (s : State) : State :=
  let t := scheduleAt (max fire (paceTime s)) num .marker (noteMargin fire (setPaceBit PACE_STATUS_TERM k.term s))
  if (t.pace.sched.head?).any fun x => decide (x.fire ≤ paceTime s) then fireNext t else t

/-- A follower in step with the slot numbers notes marker `k`, and takes its Glint once its pace time has locked (R65, R66). -/
theorem followMarker_eq {s : State} (hsync : flag s PACE_STATUS PACE_STATUS_SLOT_SYNC = true) (k : Marker) :
    followMarker k s =
      if !(markerNoted k (masterNamed k s)).pace.everLocked || !hgCal (markerNoted k (masterNamed k s)) then
        markerNoted k (masterNamed k s)
      else markerGlint k (markerNum k (masterNamed k s)) (nearest k.fire (2 ^ 38) (paceTime (markerNoted k (masterNamed k s))))
        (markerNoted k (masterNamed k s)) := by
  have h : flag (masterNamed k s) PACE_STATUS PACE_STATUS_SLOT_SYNC = true :=
    ((wordsKept_masterNamed k s).flag (by decide)).trans hsync
  unfold followMarker
  extract_lets s₁ synced near num s₂ s₃ fire now s₄
  have hsynced : synced = true := h
  have hnow : paceTime (markerNoted k (masterNamed k s)) = now :=
    (paceKept_setPaceBit s₂ _ rfl (by decide) (by decide)).time.symm
  rw [if_neg (by simp [hsynced]), hnow]
  refine if_congr Iff.rfl rfl ?_
  rw [markerGlint, hnow]
  rfl

theorem paceKept_noteMargin (fire : Nat) (s : State) : PaceKept s (noteMargin fire s) := by
  unfold noteMargin
  extract_lets d was s₁ l s₂
  have h₁ : PaceKept s s₁ := .ite (fun _ => paceKept_setFld s _ (by decide)) fun _ => .refl s
  have h₂ : PaceKept s s₂ := h₁.trans (paceKept_setFld s₁ _ (by decide))
  exact .ite (fun _ => h₁) fun _ => h₂.trans (paceKept_paceReport _ rfl (by decide) (by decide) s₂)

/-- A marker that comes in time changes the margin at most. -/
theorem noteMargin_early {s : State} {fire : Nat} (h : paceTime s ≤ fire) :
    WordsKept s (noteMargin fire s) [PACE_MARGIN] ∧ (noteMargin fire s).pace = s.pace := by
  unfold noteMargin
  extract_lets d was s₁ l s₂
  have hs₁ : WordsKept s s₁ [PACE_MARGIN] ∧ s₁.pace = s.pace := iteInduction
    (motive := fun t => WordsKept s t [PACE_MARGIN] ∧ t.pace = s.pace)
    (fun _ => ⟨wordsKept_setFld _ _ _ _, rfl⟩) fun _ => ⟨fun _ _ => rfl, rfl⟩
  have htime : paceTime s₁ = paceTime s :=
    (show PaceKept s s₁ from .ite (fun _ => paceKept_setFld s _ (by decide)) fun _ => .refl s).time
  rwa [if_pos (htime ▸ h)]

theorem masterKept_markerGlint (k : Marker) (num fire : Nat) (s : State) : MasterKept s (markerGlint k num fire s) := by
  unfold markerGlint
  extract_lets t
  have h : PaceKept s t := (paceKept_setPaceBit s _ rfl (by decide) (by decide)).trans
    ((paceKept_noteMargin fire _).trans (paceKept_scheduleAt _ _ _ _))
  exact iteInduction (motive := MasterKept s) (fun _ => h.toMasterKept.trans (masterKept_fireNext t)) fun _ => h.toMasterKept

/-- The first Glint of a marker that comes before its fire time is the only one scheduled, and the term is the marker's. -/
theorem markerGlint_early {s : State} {k : Marker} {num fire : Nat} (hterm : k.term < 256) (hc : hgCal s = true)
    (hsched : s.pace.sched = []) (hfired : s.pace.lastFire = none) (hearly : paceTime s < fire) :
    paceTerm (markerGlint k num fire s) = k.term ∧ (markerGlint k num fire s).pace.sched = [⟨fire, num, .marker⟩] := by
  obtain ⟨hw, hpace⟩ := noteMargin_early (s := setPaceBit PACE_STATUS_TERM k.term s) (fire := fire) hearly.le
  have hpace' : (noteMargin fire (setPaceBit PACE_STATUS_TERM k.term s)).pace = s.pace := hpace
  have hw₁ : WordsKept s (setPaceBit PACE_STATUS_TERM k.term s) [PACE_STATUS] := wordsKept_setFld _ _ _ _
  have hcal := (hw.flag (r := GLB_STATUS) (f := GLB_STATUS_HG_CAL) (by decide)).trans ((hw₁.flag (by decide)).trans hc)
  have hterm' := (hw.fld (r := PACE_STATUS) (f := PACE_STATUS_TERM) (by decide)).trans
    ((fld_setFld _ _ _ _ (by decide)).trans (Nat.mod_eq_of_lt hterm))
  unfold markerGlint
  generalize noteMargin fire (setPaceBit PACE_STATUS_TERM k.term s) = t at hpace' hcal hterm'
  have hdue : lastDue t = none := by simp [lastDue, hpace', hsched, hfired]
  have hone : scheduleAt (max fire (paceTime s)) num .marker t = setPace (fun p => { p with sched := [⟨fire, num, .marker⟩] }) t := by
    rw [scheduleAt_of_hgCal hcal, hdue, fireAfter, Nat.max_eq_left hearly.le]
    simp [setPace, hpace', hsched]
  rw [hone]
  rw [if_neg (by simpa [setPace] using hearly)]
  exact ⟨hterm', rfl⟩

/-! ### The row of PACE_MARKER_RECEIVE -/

section
variable {p : Nat} {k : Marker} {s : State} (hp : p < 8) (hk : markerOk k = true) (hup : portUp s p = true)
include hp hk hup

theorem exec_paceMarkerReceive_seen (h : s.pace.markers.contains (k.term, k.slot) = true) :
    exec (.paceMarkerReceive p k) s = .next (gotBlocks p 1 s) := by
  refine (runIf_of (by simp [wfPaceMarkerReceive, hp, hk]) _).trans (congrArg Host.Outcome.next ?_)
  rw [if_neg (by simp [hup])]
  exact if_pos h

theorem exec_paceMarkerReceive_off (h : s.pace.markers.contains (k.term, k.slot) = false) (hon : paceOn s = false) :
    exec (.paceMarkerReceive p k) s = .next (passedOn p (k.term, k.slot) (.marker k) s) := by
  have hf := forwarded_passedOn p (k.term, k.slot) (.marker k) s
  have hoff : paceOn (passedOn p (k.term, k.slot) (.marker k) s) = false := (flag_of_csr hf.csr _ _).trans hon
  refine (runIf_of (by simp [wfPaceMarkerReceive, hp, hk]) _).trans (congrArg Host.Outcome.next ?_)
  rw [if_neg (by simp [hup])]
  refine (if_neg (Bool.eq_false_iff.mp h)).trans ?_
  exact if_pos ((Bool.not_eq_true' _).mpr hoff)

theorem exec_paceMarkerReceive_follower (h : s.pace.markers.contains (k.term, k.slot) = false) (hon : paceOn s = true)
    (hrole : roleNow s ≠ 0) (hterm : s.pace.termSeen ≤ k.term) :
    exec (.paceMarkerReceive p k) s = .next (followMarker k (passedOn p (k.term, k.slot) (.marker k) s)) := by
  have hf := forwarded_passedOn p (k.term, k.slot) (.marker k) s
  have hon' : paceOn (passedOn p (k.term, k.slot) (.marker k) s) = true := (flag_of_csr hf.csr _ _).trans hon
  have hrole' : roleNow (passedOn p (k.term, k.slot) (.marker k) s) ≠ 0 := fun h => hrole ((fld_of_csr hf.csr _ _).symm.trans h)
  have hseen : ¬ k.term < (passedOn p (k.term, k.slot) (.marker k) s).pace.termSeen := by
    rw [hf.pace]; exact Nat.not_lt.mpr hterm
  refine (runIf_of (by simp [wfPaceMarkerReceive, hp, hk]) _).trans (congrArg Host.Outcome.next ?_)
  rw [if_neg (by simp [hup])]
  refine (if_neg (Bool.eq_false_iff.mp h)).trans ?_
  refine (if_neg (fun hn => Bool.eq_false_iff.mp ((Bool.not_eq_true' _).mp hn) hon')).trans ?_
  exact (if_neg hrole').trans (if_neg hseen)

theorem paceMarkerReceive_off_row (h : s.pace.markers.contains (k.term, k.slot) = false) (hon : paceOn s = false) :
    Runs (.paceMarkerReceive p k) s fun t =>
      t.pace = { s.pace with markers := (k.term, k.slot) :: s.pace.markers } ∧ t.csr = s.csr ∧ SentOn s t (.marker k) := by
  have hf := forwarded_passedOn p (k.term, k.slot) (.marker k) s
  exact ⟨_, exec_paceMarkerReceive_off hp hk hup h hon, hf.pace, hf.csr, hf.sent⟩

end

end Sys2Proof.Machine
end

section
/-!
PROOFS. The rows of PACE_MARKER_RECEIVE for a follower (R63, R65, R66) and of the keep-alives (R70).
-/
namespace Sys2Proof.Machine
open Sys2Proof

/-! ### A follower that has noted a marker -/

theorem masterNamed_parts (k : Marker) (s : State) :
    (masterNamed k s).pace = s.pace ∧ (masterNamed k s).now = s.now ∧ Sends s (masterNamed k s) :=
  ⟨by simp [masterNamed], by simp [masterNamed], .of_eq (by simp [masterNamed]) (by simp [masterNamed])⟩

/-- What a follower knows once a marker has gone on and been noted. -/
structure Noted (k : Marker) (s t : State) : Prop where
  words : WordsKept s t [PACE_MASTER]
  sent  : SentOn s t (.marker k)
  named : fld t PACE_MASTER PACE_MASTER_MODULE = k.module ∧ fld t PACE_MASTER PACE_MASTER_GROUP = k.group
  heard : t.pace.termSeen = k.term ∧ t.pace.heardAt = paceTime s
  sched : t.pace.sched = s.pace.sched ∧ t.pace.lastFire = s.pace.lastFire ∧ t.pace.everLocked = s.pace.everLocked
  time  : paceTime t = paceTime s

theorem Forwarded.noted {key : Nat × Nat} {k : Marker} {s t : State} (h : Forwarded key (.marker k) s t) (hk : markerOk k = true) :
    Noted k s (markerNoted k (masterNamed k t)) := by
  obtain ⟨hpace, hnow, hsends⟩ := masterNamed_parts k t
  have hpace' : (masterNamed k t).pace = { s.pace with markers := key :: s.pace.markers } := hpace.trans h.pace
  have htime : paceTime (masterNamed k t) = paceTime s := paceTime_of_parts (hnow.trans h.now) (by rw [hpace'])
  have hw : WordsKept s (masterNamed k t) [PACE_MASTER] :=
    (wordsKept_of_csr h.csr _).trans (wordsKept_masterNamed k t)
  have hnamed := fld_masterNamed hk t
  have hsent : SentOn s (masterNamed k t) (.marker k) := h.sent.mono hsends
  generalize masterNamed k t = u at hpace' htime hw hnamed hsent
  refine ⟨hw, hsent, hnamed, ⟨rfl, htime⟩, ?_, htime⟩
  simp [markerNoted, setPace, hpace']

theorem nextNum_of_parts {s t : State} (hslot : rget t PACE_SLOT = rget s PACE_SLOT) (hsched : t.pace.sched = s.pace.sched)
    (hlast : t.pace.lastSlot = s.pace.lastSlot) : nextNum t = nextNum s := by
  have h : fld t PACE_SLOT PACE_SLOT_SLOT = fld s PACE_SLOT PACE_SLOT_SLOT := fld_of_rget hslot
  unfold nextNum
  rw [hsched, hlast, h]

/-- A module that has issued a Glint numbers the next one nearest to its own count (R66). -/
theorem Forwarded.markerNum_eq {key : Nat × Nat} {b : LinkBlock} {k : Marker} {s t : State} (h : Forwarded key b s t)
    (hi : s.pace.issued = true) : markerNum k (masterNamed k t) = nearest k.slot (2 ^ 40) (nextNum s) := by
  have hpace := (masterNamed_parts k t).1.trans h.pace
  have hslot : rget (masterNamed k t) PACE_SLOT = rget s PACE_SLOT :=
    (wordsKept_masterNamed k t _ (by decide)).trans (rget_of_csr h.csr _)
  have hnext : nextNum (masterNamed k t) = nextNum s := nextNum_of_parts hslot (by rw [hpace]) (by rw [hpace])
  have hissued : (masterNamed k t).pace.issued = true := by rw [hpace]; exact hi
  rw [markerNum, hissued, hnext]
  rfl

theorem masterKept_followMarker {s : State} (hsync : flag s PACE_STATUS PACE_STATUS_SLOT_SYNC = true) (k : Marker) :
    MasterKept (markerNoted k (masterNamed k s)) (followMarker k s) := by
  rw [followMarker_eq hsync]
  exact iteInduction (motive := MasterKept _) (fun _ => (PaceKept.refl _).toMasterKept) fun _ => masterKept_markerGlint k _ _ _

theorem paceMarkerReceive_follower_row {p : Nat} {k : Marker} {s : State} (hp : p < 8) (hk : markerOk k = true)
    (hup : portUp s p = true) (h : s.pace.markers.contains (k.term, k.slot) = false) (hon : paceOn s = true)
    (hrole : roleNow s ≠ 0) (hterm : s.pace.termSeen ≤ k.term) (hsync : flag s PACE_STATUS PACE_STATUS_SLOT_SYNC = true) :
    Runs (.paceMarkerReceive p k) s fun t =>
      SentOn s t (.marker k) ∧ t.pace.termSeen = k.term ∧ t.pace.heardAt = paceTime s ∧
      fld t PACE_MASTER PACE_MASTER_MODULE = k.module ∧ fld t PACE_MASTER PACE_MASTER_GROUP = k.group ∧
      (s.pace.everLocked = false → t.pace.sched = s.pace.sched ∧ paceTerm t = paceTerm s) ∧
      (s.pace.everLocked = true → hgCal s = true → s.pace.sched = [] → s.pace.lastFire = none → s.pace.issued = true →
        paceTime s < nearest k.fire (2 ^ 38) (paceTime s) → paceTerm t = k.term ∧ t.pace.sched =
          [⟨nearest k.fire (2 ^ 38) (paceTime s), nearest k.slot (2 ^ 40) (nextNum s), .marker⟩]) := by
  refine ⟨_, exec_paceMarkerReceive_follower hp hk hup h hon hrole hterm, ?_⟩
  have hf := forwarded_passedOn p (k.term, k.slot) (.marker k) s
  generalize passedOn p (k.term, k.slot) (.marker k) s = f at hf
  have hfsync : flag f PACE_STATUS PACE_STATUS_SLOT_SYNC = true := (flag_of_csr hf.csr _ _).trans hsync
  have hkept := masterKept_followMarker hfsync k
  have heq := followMarker_eq hfsync k
  have hnum (hi : s.pace.issued = true) := hf.markerNum_eq (k := k) hi
  have hn := hf.noted hk
  generalize markerNoted k (masterNamed k f) = n at hn hkept heq
  have hnrole : roleNow n ≠ 0 := fun h0 => hrole ((hn.words.fld (by decide)).symm.trans h0)
  have hcal : hgCal n = hgCal s := hn.words.flag (by decide)
  have hmaster (g : Fld) (hg : g.word = 0) : fld (followMarker k f) PACE_MASTER g = fld n PACE_MASTER g :=
    fld_of_rget (by rw [hg]; exact hkept.master hnrole)
  refine ⟨hn.sent.mono hkept.sends, hkept.heard.1.trans hn.heard.1, hkept.heard.2.trans hn.heard.2,
    (hmaster _ rfl).trans hn.named.1, (hmaster _ rfl).trans hn.named.2, fun hl => ?_, fun hl hc hs hfire hi hearly => ?_⟩
  · rw [heq, if_pos (by simp [hn.sched.2.2, hl])]
    exact ⟨hn.sched.1, hn.words.fld (by decide)⟩
  · have hterm : k.term < 256 := by
      simp only [markerOk, Bool.and_eq_true, decide_eq_true_eq] at hk
      omega
    rw [heq, if_neg (by simp [hn.sched.2.2, hl, hcal, hc]), hnum hi, hn.time]
    exact markerGlint_early hterm (hcal.trans hc) (hn.sched.1.trans hs) (hn.sched.2.1.trans hfire) (hn.time ▸ hearly)

/-! ### Keep-alives -/

theorem exec_keepAliveSend {s : State} (h : isMaster s = true) : exec .keepAliveSend s =
    .next (sendAll (.keepAlive (markerOf s (fld s PACE_SLOT PACE_SLOT_SLOT) (paceTime s))) s) :=
  (runIf_of rfl _).trans (congrArg Host.Outcome.next (if_pos h))

theorem keepAliveSend_row {s : State} (h : isMaster s = true) : Runs .keepAliveSend s fun t =>
    t.pace = s.pace ∧ t.csr = s.csr ∧ t.core = s.core ∧
    SentOn s t (.keepAlive (markerOf s (fld s PACE_SLOT PACE_SLOT_SLOT) (paceTime s))) := by
  obtain ⟨hcsr, hcore, hpace, -, -⟩ :=
    parts_of_sendKept (sendKept_sendAll (.keepAlive (markerOf s (fld s PACE_SLOT PACE_SLOT_SLOT) (paceTime s))) s)
  exact ⟨_, exec_keepAliveSend h, hpace, hcsr, hcore, sentOn_sendAll _ s⟩

/-- The loss timer starts again (R70). -/
def masterAlive (s : State) : State := setPace (fun q => { q with heardAt := paceTime s, pathsDown := none }) s

theorem exec_keepAliveReceive {p : Nat} {k : Marker} {s : State} (hp : p < 8) (hk : markerOk k = true) (hup : portUp s p = true)
    (h : s.pace.markers.contains (k.term, 2 ^ 40 + k.fire) = false) (hon : paceOn s = true) (hrole : roleNow s ≠ 0)
    (hterm : s.pace.termSeen ≤ k.term) : exec (.keepAliveReceive p k) s =
      .next (masterAlive (passedOn p (k.term, 2 ^ 40 + k.fire) (.keepAlive k) s)) := by
  have hf := forwarded_passedOn p (k.term, 2 ^ 40 + k.fire) (.keepAlive k) s
  have hon' : paceOn (passedOn p (k.term, 2 ^ 40 + k.fire) (.keepAlive k) s) = true := (flag_of_csr hf.csr _ _).trans hon
  have hrole' : roleNow (passedOn p (k.term, 2 ^ 40 + k.fire) (.keepAlive k) s) ≠ 0 := fun h0 =>
    hrole ((fld_of_csr hf.csr _ _).symm.trans h0)
  have hterm' : (passedOn p (k.term, 2 ^ 40 + k.fire) (.keepAlive k) s).pace.termSeen ≤ k.term := by rw [hf.pace]; exact hterm
  refine (runIf_of (by simp [wfKeepAliveReceive, hp, hk]) _).trans (congrArg Host.Outcome.next ?_)
  rw [if_neg (by simp [hup])]
  refine (if_neg (Bool.eq_false_iff.mp h)).trans ?_
  exact if_pos (by simp only [Bool.and_eq_true, decide_eq_true_eq]; exact ⟨⟨hon', hrole'⟩, hterm'⟩)

theorem keepAliveReceive_row {p : Nat} {k : Marker} {s : State} (hp : p < 8) (hk : markerOk k = true) (hup : portUp s p = true)
    (h : s.pace.markers.contains (k.term, 2 ^ 40 + k.fire) = false) (hon : paceOn s = true) (hrole : roleNow s ≠ 0)
    (hterm : s.pace.termSeen ≤ k.term) : Runs (.keepAliveReceive p k) s fun t =>
      t.pace.heardAt = paceTime s ∧ t.pace.sched = s.pace.sched ∧ t.csr = s.csr ∧ SentOn s t (.keepAlive k) := by
  refine ⟨_, exec_keepAliveReceive hp hk hup h hon hrole hterm, ?_⟩
  have hf := forwarded_passedOn p (k.term, 2 ^ 40 + k.fire) (.keepAlive k) s
  generalize passedOn p (k.term, 2 ^ 40 + k.fire) (.keepAlive k) s = f at hf
  have hsched : f.pace.sched = s.pace.sched := by rw [hf.pace]
  exact ⟨hf.time, hsched, hf.csr, hf.sent.mono (.of_eq rfl rfl)⟩

end Sys2Proof.Machine
end

section
/-!
PROOFS. The takeover by a backup (R70, R71) and the pace state (R66), then the obligation.
-/
namespace Sys2Proof.Machine
open Sys2Proof

/-! ### The takeover -/

/-- The term that a backup takes over with (R71). -/
def nextTerm (s : State) : Nat := (max (paceTerm s) s.pace.termSeen + 1) % 256

/-- The backup is master, with the next term and the old master's period. -/
def newMaster (s : State) : State :=
  setPace (fun p => { p with termSeen := nextTerm s, takePeriod := p.lastPeriod })
    (setPaceBit PACE_STATUS_ROLE_NOW 0 (setPaceBit PACE_STATUS_TERM (nextTerm s) s))

/-- It reports that it has taken over. -/
def tookOver (s : State) : State :=
  logErr 0x0D06 0x20 none 0 (setPaceBit PACE_STATUS_MASTER_CHANGE 1 (newMaster s))

/-- The new master's Glints go on (R71). -/
def glintsGoOn (s : State) : State :=
  if paceSource s = 0 then
    schedule (nextMultiple ((lastDue s).getD (paceTime s)) (100 * paceInEffect s) (paceTime s + 10000)) .internal s
  else if flag s PACE_STATUS PACE_STATUS_SOURCE_LOST then freeRun (paceTime s) s
  else s

theorem exec_paceMasterChange {s : State} (hon : paceOn s = true) (hrole : roleNow s = 2) :
    exec .paceMasterChange s = .next (glintsGoOn (tookOver (advanceTo (takeoverAt s) s))) :=
  (runIf_of rfl _).trans (congrArg Host.Outcome.next (if_neg (by simp [hon, hrole])))

theorem wordsKept_setPaceBit (s : State) {f : Fld} (hf : f.word = 0) (x : Nat) :
    WordsKept s (setPaceBit f x s) [PACE_STATUS] := wordsKept_setFirst s _ hf x

theorem wordsKept_newMaster (s : State) : WordsKept s (newMaster s) [PACE_STATUS] :=
  (wordsKept_setPaceBit s (f := PACE_STATUS_TERM) rfl (nextTerm s)).trans
    (wordsKept_setPaceBit (setPaceBit PACE_STATUS_TERM (nextTerm s) s) rfl 0)

theorem fld_setPace (g : PaceSt → PaceSt) (s : State) (r : Nat) (f : Fld) : fld (setPace g s) r f = fld s r f := rfl

theorem status_newMaster (s : State) : roleNow (newMaster s) = 0 ∧ paceTerm (newMaster s) = nextTerm s := by
  have hterm : paceTerm (setPaceBit PACE_STATUS_TERM (nextTerm s) s) = nextTerm s :=
    (fld_setFld _ _ _ _ (by decide)).trans (Nat.mod_eq_of_lt (Nat.mod_lt _ (by decide)))
  unfold newMaster
  generalize setPaceBit PACE_STATUS_TERM (nextTerm s) s = u at hterm ⊢
  unfold roleNow paceTerm setPaceBit at *
  rw [fld_setPace, fld_setPace]
  exact ⟨fld_setFld u _ PACE_STATUS_ROLE_NOW 0 (by decide),
    (fld_setFld_other u _ PACE_STATUS_ROLE_NOW PACE_STATUS_TERM 0 (by decide) rfl (by decide)).trans hterm⟩

theorem parts_newMaster (s : State) : (newMaster s).core = s.core ∧ (newMaster s).log = s.log ∧ (newMaster s).now = s.now ∧
    (newMaster s).pace.sched = s.pace.sched ∧ (newMaster s).pace.timeOff = s.pace.timeOff := by
  simp [newMaster, setPace, setPaceBit]

/-- What a takeover leaves in `t`. -/
structure TookOver (s t : State) : Prop where
  words  : WordsKept s t [PACE_STATUS]
  role   : roleNow t = 0
  term   : paceTerm t = nextTerm s
  shown  : flag t PACE_STATUS PACE_STATUS_MASTER_CHANGE = true
  logged : Logs s t 0x0D06
  core   : t.core = s.core
  sched  : t.pace.sched = s.pace.sched
  time   : paceTime t = paceTime s

theorem tookOver_spec (s : State) : TookOver s (tookOver s) := by
  have hwords := wordsKept_newMaster s
  obtain ⟨hrole, hterm⟩ := status_newMaster s
  obtain ⟨hcore, hlog, hnow, hsched, hoff⟩ := parts_newMaster s
  unfold tookOver
  generalize newMaster s = u at *
  have hkept : PaceKept u (setPaceBit PACE_STATUS_MASTER_CHANGE 1 u) := paceKept_setPaceBit u 1 rfl (by decide) (by decide)
  have hwords' := hwords.trans (wordsKept_setPaceBit u (f := PACE_STATUS_MASTER_CHANGE) rfl 1)
  have hterm' : paceTerm (setPaceBit PACE_STATUS_MASTER_CHANGE 1 u) = paceTerm u :=
    fld_setFld_other u PACE_STATUS PACE_STATUS_MASTER_CHANGE PACE_STATUS_TERM 1 (by decide) rfl (by decide)
  have hshown : flag (setPaceBit PACE_STATUS_MASTER_CHANGE 1 u) PACE_STATUS PACE_STATUS_MASTER_CHANGE = true :=
    flag_setFld u PACE_STATUS PACE_STATUS_MASTER_CHANGE 1 rfl (by decide)
  have hsched' : (setPaceBit PACE_STATUS_MASTER_CHANGE 1 u).pace = u.pace := rfl
  have hlog' : (setPaceBit PACE_STATUS_MASTER_CHANGE 1 u).log = u.log := rfl
  generalize setPaceBit PACE_STATUS_MASTER_CHANGE 1 u = v at *
  have hreport := paceKept_logErr 0x0D06 0x20 none 0 v
  have hcsr := logErr_csr v 0x0D06 0x20 none 0
  refine ⟨hwords'.trans (wordsKept_of_csr hcsr _), ?_, ?_, ?_, ?_, ?_, ?_, ?_⟩
  · rw [hreport.role, hkept.role, hrole]
  · exact (fld_of_csr hcsr _ _).trans (hterm'.trans hterm)
  · exact (flag_of_csr hcsr _ _).trans hshown
  · exact ⟨_, congrArg (fun l : LogSt => l.inFlight ++ [_]) (hlog'.trans hlog), rfl⟩
  · rw [hreport.core, hkept.core, hcore]
  · rw [logErr_pace, hsched', hsched]
  · rw [hreport.time, hkept.time, paceTime_of_parts hnow hoff]

theorem schedKept_glintsGoOn (s : State) : schedKept (glintsGoOn s) = schedKept s := by
  unfold glintsGoOn
  split
  · exact schedKept_schedule _ _ s
  · split
    · exact schedKept_freeRun _ s
    · rfl

theorem paceMasterChange_row {s : State} (hon : paceOn s = true) (hrole : roleNow s = 2) : Runs .paceMasterChange s fun t =>
    roleNow t = 0 ∧ paceTerm t = (max (paceTerm s) s.pace.termSeen + 1) % 256 ∧ takeoverAt s ≤ paceTime t ∧ Logs s t 0x0D06 ∧
    flag t PACE_STATUS PACE_STATUS_MASTER_CHANGE = true ∧ t.core = s.core ∧
    (paceSource s = 0 → hgCal s = true → ∃ x : Sched, t.pace.sched = s.pace.sched ++ [x] ∧ x.kind = .internal) := by
  refine ⟨_, exec_paceMasterChange hon hrole, ?_⟩
  have hdue := le_paceTime_advanceTo (takeoverAt s) s
  have hcsr : (advanceTo (takeoverAt s) s).csr = s.csr := advanceTo_csr _ _
  have hpace : (advanceTo (takeoverAt s) s).pace = s.pace := advanceTo_pace _ _
  have hlog : (advanceTo (takeoverAt s) s).log = s.log := advanceTo_log _ _
  have hcore : (advanceTo (takeoverAt s) s).core = s.core := advanceTo_core _ _
  have ht := tookOver_spec (advanceTo (takeoverAt s) s)
  generalize advanceTo (takeoverAt s) s = u at *
  generalize tookOver u = v at ht
  obtain ⟨hcsr', hcore', hlog', htime'⟩ := parts_of_schedKept (schedKept_glintsGoOn v)
  have hnext : nextTerm u = (max (paceTerm s) s.pace.termSeen + 1) % 256 := by
    have h : paceTerm u = paceTerm s := fld_of_csr hcsr _ _
    rw [nextTerm, h, hpace]
  refine ⟨(fld_of_csr hcsr' _ _).trans ht.role, (fld_of_csr hcsr' _ _).trans (ht.term.trans hnext), ?_, ?_,
    (flag_of_csr hcsr' _ _).trans ht.shown, hcore'.trans (ht.core.trans hcore), fun hsrc hc => ?_⟩
  · rw [htime', ht.time]; exact hdue
  · obtain ⟨e, he, hcode⟩ := ht.logged
    exact ⟨e, by rw [hlog', he, hlog], hcode⟩
  · have hsrc' : paceSource v = 0 := (ht.words.fld (by decide)).trans ((fld_of_csr hcsr _ _).trans hsrc)
    have hc' : hgCal v = true := (ht.words.flag (by decide)).trans ((flag_of_csr hcsr _ _).trans hc)
    rw [glintsGoOn, if_pos hsrc', sched_schedule hc', ht.sched, hpace]
    exact ⟨_, rfl, rfl⟩

/-! ### The pace state -/

/-- The master that PACE_MASTER names, as group × 64 + module. -/
def masterIdx (s : State) : Nat := idxOfRef (fld s PACE_MASTER PACE_MASTER_MODULE * 8 + fld s PACE_MASTER PACE_MASTER_GROUP)

/-- The time of a request is kept. -/
def requestNoted (s : State) : State := setPace (fun p => { p with asked := some (paceTime s) }) s

theorem exec_paceStateRequestRetry {s : State} {a : Nat} (ha : s.pace.asked = some a) (hn : needsSync s = true) :
    exec .paceStateRequestRetry s = .next (askState (advanceTo (a + 1000000) s)) := by
  refine (runIf_of rfl _).trans (congrArg Host.Outcome.next ?_)
  rw [ha]
  exact if_pos hn

theorem askState_eq (s : State) :
    askState s = sendPacket (ownPkt (requestNoted s) (masterIdx s) 3 1 .paceRequest) (requestNoted s) := rfl

/-- Pace time passes, and nothing else changes. -/
theorem advanceTo_eq (t : Nat) (s : State) : ∃ n, advanceTo t s = { s with now := n } := by
  unfold advanceTo
  split
  · exact ⟨_, rfl⟩
  · exact ⟨s.now, rfl⟩

theorem paceStateRequestRetry_row {s : State} {a : Nat} (ha : s.pace.asked = some a) (hn : needsSync s = true) :
    Runs .paceStateRequestRetry s fun t => t.pace.asked = some (paceTime t) ∧ a + 1000000 ≤ paceTime t ∧ t.csr = s.csr ∧
      OnVc3 s t (masterIdx s) .paceRequest := by
  refine ⟨_, exec_paceStateRequestRetry ha hn, ?_⟩
  have hdue := le_paceTime_advanceTo (a + 1000000) s
  obtain ⟨n, hadv⟩ := advanceTo_eq (a + 1000000) s
  rw [hadv] at hdue ⊢
  rw [askState_eq]
  obtain ⟨hcsr, -, hpace, hnow, -⟩ := parts_of_sendKept (sendKept_sendPacket
    (ownPkt (requestNoted { s with now := n }) (masterIdx { s with now := n }) 3 1 .paceRequest) (requestNoted { s with now := n }))
  have hsent := onVc3_sendPacket (requestNoted { s with now := n }) (masterIdx s) .paceRequest
  have htime := (paceTime_of_parts hnow (congrArg PaceSt.timeOff hpace)).trans
    (show paceTime (requestNoted { s with now := n }) = paceTime { s with now := n } from rfl)
  exact ⟨by rw [hpace, htime]; rfl, htime ▸ hdue, hcsr, hsent⟩

theorem exec_paceStateRequest {s : State} {src : Nat} (hsrc : src < 512) (hm : isMaster s = true) : exec (.paceStateRequest src) s =
    .next (sendPacket (ownPkt s (idxOfRef src) 3 1 (.paceAnswer (fld s PACE_SLOT PACE_SLOT_SLOT) (paceTerm s))) s) :=
  (runIf_of (decide_eq_true hsrc) _).trans (congrArg Host.Outcome.next (if_neg (by simp [hm])))

theorem paceStateRequest_row {s : State} {src : Nat} (hsrc : src < 512) (hm : isMaster s = true) :
    Runs (.paceStateRequest src) s fun t => t.pace = s.pace ∧ t.csr = s.csr ∧ t.core = s.core ∧
      OnVc3 s t (idxOfRef src) (.paceAnswer (fld s PACE_SLOT PACE_SLOT_SLOT) (paceTerm s)) := by
  obtain ⟨hcsr, hcore, hpace, -, -⟩ := parts_of_sendKept (sendKept_sendPacket
    (ownPkt s (idxOfRef src) 3 1 (.paceAnswer (fld s PACE_SLOT PACE_SLOT_SLOT) (paceTerm s))) s)
  exact ⟨_, exec_paceStateRequest hsrc hm, hpace, hcsr, hcore, onVc3_sendPacket s _ _⟩

/-- The answer of the master is kept, and the slot number is synchronised (R66). -/
def synced (slot : Nat) (s : State) : State :=
  setPaceBit PACE_STATUS_SLOT_SYNC 1 (setPace (fun p => { p with
    asked := none, answered := some slot, lastSlot := max p.lastSlot slot }) s)

theorem exec_paceStateAnswer {s : State} {slot term : Nat} (hslot : slot < 2 ^ 64) (hterm : term < 256) (hn : needsSync s = true)
    (ha : s.pace.asked.isSome = true) : exec (.paceStateAnswer slot term) s = .next (synced slot s) :=
  (runIf_of (by simp only [wfPaceStateAnswer, hslot, hterm, decide_true, Bool.and_self]) _).trans
    (congrArg Host.Outcome.next (if_pos (by rw [hn, ha]; rfl)))

theorem paceStateAnswer_row {s : State} {slot term : Nat} (hslot : slot < 2 ^ 64) (hterm : term < 256) (hn : needsSync s = true)
    (ha : s.pace.asked.isSome = true) : Runs (.paceStateAnswer slot term) s fun t =>
      flag t PACE_STATUS PACE_STATUS_SLOT_SYNC = true ∧ WordsKept s t [PACE_STATUS] ∧
      t = { s with csr := t.csr, pace := { s.pace with
        asked := none, answered := some slot, lastSlot := max s.pace.lastSlot slot } } :=
  ⟨_, exec_paceStateAnswer hslot hterm hn ha, flag_setFld _ _ _ _ rfl (by decide), wordsKept_setPaceBit (setPace _ s) rfl 1, rfl⟩

/-! ### The obligation -/

/-- Settles O44: each row of Glints, markers, keep-alives, takeover and pace state by what its one state operation leaves. -/
theorem glintsMarkersAndTakeover : Obligations.GlintsMarkersAndTakeover := by
  intro s
  refine ⟨fun x rest => glintFire_row, fun p k hp hk hup => ⟨exec_paceMarkerReceive_seen hp hk hup,
    paceMarkerReceive_off_row hp hk hup, paceMarkerReceive_follower_row hp hk hup⟩, keepAliveSend_row,
    fun p k => keepAliveReceive_row, paceMasterChange_row, fun a => paceStateRequestRetry_row, fun src => paceStateRequest_row,
    fun slot term => paceStateAnswer_row⟩

end Sys2Proof.Machine
end
section
/-!
PROOFS. The beat of a bundle of one instruction, without a condition on its predicate: the row of the instruction is the beat
that issues it, and the state after the beat is `landed`, from which every frame is read.
-/
namespace Sys2Proof.Machine
open Sys2Proof

/-! ### Rows of the decoded instructions -/

theorem exec_of_decodeS {u : Nat} {w : W32} {i : Instr} (h : decodeS u w = some i) (hwf : i.wf = true) (s : State) :
    exec i s = .next (runSlot u .S i s) := by
  unfold decodeS at h
  dsimp only at h
  split at h
  case h_25 =>
    split at h
    · obtain ⟨cc, -, rfl⟩ := Option.map_eq_some_iff.mp h
      exact runIf_of hwf _
    · cases h
  all_goals
    repeat' split at h
    all_goals cases h <;> exact runIf_of hwf _

theorem exec_of_decodeM {u : Nat} {w : W32} {i : Instr} (h : decodeM u w = some i) (hwf : i.wf = true) (s : State) :
    exec i s = .next (runSlot u .M i s) := by
  unfold decodeM at h
  dsimp only at h
  split at h
  all_goals
    repeat' split at h
    all_goals cases h <;> exact runIf_of hwf _

theorem exec_of_decodeX {u : Nat} {w : W32} {i : Instr} (h : decodeX u w = some i) (hwf : i.wf = true)
    (hf : ∀ v q n, i ≠ .fault v q n) (s : State) : exec i s = .next (runSlot u .X i s) := by
  unfold decodeX at h
  dsimp only at h
  split at h
  case h_32 =>
    split at h
    · exact absurd (Option.some.inj h).symm (hf _ _ _)
    · cases h
  all_goals
    repeat' split at h
    all_goals cases h <;> exact runIf_of hwf _

section
variable {s : State} {u c : Nat} {sl : Slot} {i : Instr}

/-- The row of an instruction that stands in slot S, M or X of a bundle is a beat of its unit; FAULT has a row of its own. -/
theorem Alone.exec (h : Alone s u c sl i) (hv : sl ≠ .V) (hf : sl = .X → ∀ v q n, i ≠ .fault v q n) :
    Machine.exec i s = .next (Machine.runSlot u sl i s) := by
  have hd := h.holds
  cases sl with
  | S => exact exec_of_decodeS hd h.wf s
  | V => exact absurd rfl hv
  | M => exact exec_of_decodeM hd h.wf s
  | X => exact exec_of_decodeX hd h.wf (hf rfl) s

/-! ### The bundle issues -/

theorem Alone.nop (h : Alone s u c sl i) {k : Slot} (hk : k ≠ sl) : slotIns s u (ctx s u c).pc k = some (.nop u 0 k) :=
  decodeSlot_zero _ _ _ _ (h.nops k hk)

theorem Alone.not_waiting (h : Alone s u c sl i) {d : Nat} (hd : d < 8) : (ctx s u d).st ≠ .waiting := by
  by_cases e : d = c
  · rw [e, h.ready]
    decide
  · exact (h.others d hd e).2

theorem Alone.rewake (h : Alone s u c sl i) : Machine.rewake u s = s := by
  have stays : ∀ l : List Nat, (∀ d ∈ l, d < 8) → l.foldl (rewakeCtx u) s = s := by
    intro l hl
    induction l with
    | nil => rfl
    | cons d l ih =>
      have hd : rewakeCtx u s d = s := if_neg fun hw => h.not_waiting (hl d List.mem_cons_self) hw.1
      rw [List.foldl_cons, hd]
      exact ih fun k hk => hl k (List.mem_cons_of_mem d hk)
  exact stays _ fun d hd => List.mem_range.mp hd

theorem Alone.order (h : Alone s u c sl i) : c ∈ Machine.order s u ∧ ∀ d ∈ Machine.order s u, d < 8 := by
  have hnone : (List.range 8).find? (fun d => (ctx s u d).repiOn &&
      (decide ((ctx s u d).st = .ready) || decide ((ctx s u d).st = .waiting))) = none := by
    refine List.find?_eq_none.mpr fun d hd => ?_
    by_cases e : d = c
    · simp [e, h.noRepi]
    · simp [h.others d (List.mem_range.mp hd) e]
  unfold Machine.order
  rw [hnone]
  simp only [List.mem_map, List.mem_range]
  have hc := h.context
  exact ⟨⟨(c + 8 - (mget 7 s.core.last u + 1) % 8) % 8, by omega, by omega⟩, fun d ⟨k, _, e⟩ => by omega⟩

theorem Alone.settle (h : Alone s u c sl i) : settleOwn u s = s := by
  have : s.core.reqs.filter (ownWaits u) = [] := List.filter_eq_nil_iff.mpr fun r hr => by simp [h.settled r hr]
  simp [settleOwn, this]

/-- What a bundle that stands alone has to pass: no fault of checks 1–4 (R117) and no operand wait (R94). -/
structure Clear (s : State) (u c : Nat) : Prop where
  static : staticFault s u c (ctx s u c).pc allSlots [] = none
  wait   : operandWait s u c = none
  check  : checkFault s u c (ctx s u c).pc allSlots = none

theorem Alone.select (h : Alone s u c sl i) (hk : Clear s u c) : selectCtx u s = (.issues c, s) := by
  have hcons : consider u c s = (.issues c, s) := by
    simp [consider, h.ready, h.noHalt, h.noTrap, h.noEpoch, h.sound, earlyFault, hk.static, hk.wait, hk.check]
  unfold selectCtx
  rw [h.rewake]
  exact firstOf_issues u c s hcons _ h.order.1 fun d hd e => (h.others d (h.order.2 d hd) e).1

theorem Alone.runSlot (h : Alone s u c sl i) (hk : Clear s u c) : Machine.runSlot u sl i s = issue u c s := by
  have hs := h.select hk
  have hwi : willIssue s u sl i = true := by
    unfold willIssue
    rw [h.settle, hs]
    exact decide_eq_true h.holds
  have hstep : Machine.stepping s u = true := by
    simp only [Machine.stepping, coreIdle, Bool.not_eq_true', List.all_eq_false]
    exact ⟨c, List.mem_range.mpr h.context, by simp [h.ready]⟩
  rw [Machine.runSlot, if_pos hwi, beat, h.settle, hstep, hs]
  rfl

/-! ### The state after the beat -/

/-- The context moves on to where control goes. -/
def steer (k : Ctl) (x : Ctx) : Ctx :=
  { x with pc := k.pc, levels := k.levels, lc := k.lc, repiOn := k.repiOn, repiLeft := k.repiLeft }

/-- The state after a beat whose slots have made `e` and whose control goes on as `k` says. -/
def landed (u c : Nat) (k : Ctl) (e : State) : State :=
  let t := updCtx e u c (steer k)
  plotCtr u 0 1 { t with core := { t.core with last := mset 7 t.core.last u c } }

/-- The context goes on after its bundle: it has not faulted, and no STEP was to end with the bundle. -/
structure GoesOn (x : Ctx) : Prop where
  sound    : x.st ≠ .faulted
  loaded   : x.st ≠ .unloaded
  noStep   : x.stepping = false

theorem Alone.goesOn (h : Alone s u c sl i) : GoesOn (ctx s u c) :=
  ⟨by rw [h.ready]; decide, by rw [h.ready]; decide, h.noStep⟩

theorem Alone.goesOn_counted (h : Alone s u c sl i) : GoesOn (ctx (counted u s) u c) := by
  rw [ctx_counted]
  exact h.goesOn

theorem Alone.slots (h : Alone s u c sl i) :
    allSlots.foldl (effSlot (counted u s) u c (ctx s u c).pc) (counted u s) =
      effSlot (counted u s) u c (ctx s u c).pc (counted u s) sl := by
  have hn : ∀ (t : State) (k : Slot), k ≠ sl → effSlot (counted u s) u c (ctx s u c).pc t k = t := fun t k hk =>
    effSlot_nop _ _ _ _ _ _ (by rw [slotIns_counted, h.nop hk])
  cases sl <;> simp [allSlots, hn]

/-- A beat without a vector instruction and without HALT ends in `landed`. -/
theorem Alone.issue {k : Ctl} {e : State} (h : Alone s u c sl i) (hv : sl ≠ .V) (hc : control s u c = .ok k)
    (hh : haltsHere (counted u s) u c (ctx s u c).pc = false)
    (he : effSlot (counted u s) u c (ctx s u c).pc (counted u s) sl = e) (hgo : GoesOn (ctx e u c)) :
    Machine.issue u c s = landed u c k e := by
  have hn : ((slotIns (counted u s) u (ctx s u c).pc .V).any fun j => !isNop j) = false := by
    rw [slotIns_counted, h.nop (Ne.symm hv)]
    rfl
  have hm : moveOn (counted u s) u c e = updCtx e u c (steer k) :=
    moveOn_runs _ _ _ _ k ((control_counted s u c).trans hc) (by rw [ctx_counted]; exact hh) hgo.sound hgo.loaded hgo.noStep
  simp only [Machine.issue]
  rw [show bumpFld s (CORE_BEATS u) CORE_BEATS_BEATS 1 = counted u s from rfl, h.slots, hn, he]
  simp only [Bool.false_eq_true, if_false]
  rw [hm]
  rfl

theorem ctx_landed (u c v d : Nat) (k : Ctl) (e : State) :
    ctx (landed u c k e) v d = if ctxKey v d = ctxKey u c then steer k (ctx e u c) else ctx e v d := by
  unfold landed updCtx
  dsimp only
  unfold ctx
  rw [plotCtr_core]
  exact ctx_setCtx e u c v d _

theorem ctx_landed_same (u c : Nat) (k : Ctl) (e : State) : ctx (landed u c k e) u c = steer k (ctx e u c) := by
  rw [ctx_landed, if_pos rfl]

theorem ctx_landed_other {u c v d : Nat} (k : Ctl) (e : State) (h : ctxKey v d ≠ ctxKey u c) :
    ctx (landed u c k e) v d = ctx e v d := by rw [ctx_landed, if_neg h]

theorem landed_csr (u c : Nat) (k : Ctl) (e : State) : (landed u c k e).csr = e.csr := by
  unfold landed
  rw [plotCtr_csr]
  rfl

theorem rget_landed (u c : Nat) (k : Ctl) (e : State) (o : Nat) : rget (landed u c k e) o = rget e o :=
  rget_of_csr (landed_csr u c k e) o

theorem fld_landed (u c : Nat) (k : Ctl) (e : State) (r : Nat) (f : Fld) : fld (landed u c k e) r f = fld e r f :=
  fld_of_csr (landed_csr u c k e) r f

/-- The state without the registers, the cores and the power counters: what a beat leaves alone beside them. -/
def besideCore (s : State) : State := { s with csr := [], core := CoreSt.reset, pwr := PwrSt.reset }

theorem besideCore_landed (u c : Nat) (k : Ctl) (e : State) : besideCore (landed u c k e) = besideCore e := by
  unfold landed plotCtr besideCore
  dsimp only
  split <;> rfl

theorem fields_of_besideCore {s t : State} (h : besideCore t = besideCore s) : t.mem = s.mem ∧ t.pending = s.pending ∧
    t.pace = s.pace ∧ t.avl = s.avl ∧ t.strm = s.strm ∧ t.sync = s.sync ∧ t.host = s.host ∧ t.loam = s.loam ∧
    t.link = s.link ∧ t.load = s.load ∧ t.mc = s.mc ∧ t.log = s.log ∧ t.out = s.out := by
  simp only [besideCore, State.mk.injEq] at h
  tauto

/-- The slots of a bundle have acted on their own context and on the register words at `touched` alone. -/
structure OwnEffect (s e : State) (u c : Nat) (touched : List Nat) : Prop where
  beside : besideCore e = besideCore s
  others : ∀ v d, ctxKey v d ≠ ctxKey u c → ctx e v d = ctx s v d
  words  : WordsKept (counted u s) e touched

theorem ownEffect_counted (s : State) (u c : Nat) : OwnEffect s (counted u s) u c [] :=
  ⟨by simp [besideCore], fun v d _ => ctx_counted s u v d, fun _ _ => rfl⟩

theorem OwnEffect.upd {e : State} {l : List Nat} (h : OwnEffect s e u c l) (f : Ctx → Ctx) :
    OwnEffect s (updCtx e u c f) u c l :=
  ⟨Eq.trans (by simp [besideCore]) h.beside, fun v d hv => (ctx_updCtx_other e u c v d f hv).trans (h.others v d hv), h.words⟩

theorem OwnEffect.bump {e : State} (h : OwnEffect s e u c []) (r : Nat) (f : Fld) (n : Nat) (hf : f.word = 0) :
    OwnEffect s (bumpFld e r f n) u c [r] := by
  refine ⟨Eq.trans (by simp [besideCore]) h.beside, h.others, fun o ho => ?_⟩
  have hne : o ≠ r + 8 * f.word := by simpa [hf] using ho
  exact (rget_setFld_other e r o f _ hne).trans (h.words o (List.not_mem_nil))

theorem fld_beats_counted (s : State) (u : Nat) : fld (counted u s) (CORE_BEATS u) CORE_BEATS_BEATS =
    (fld s (CORE_BEATS u) CORE_BEATS_BEATS + 1) % 2 ^ 64 := fld_bumpFld s _ _ 1 (by decide)

theorem rget_counted (s : State) {u o : Nat} (h : o ≠ CORE_BEATS u) : rget (counted u s) o = rget s o :=
  rget_setFld_other s _ o _ _ h

theorem OwnEffect.coreFrame {e : State} {l : List Nat} (h : OwnEffect s e u c l) (hb : CORE_BEATS u ∉ l) (k : Ctl) :
    CoreFrame s (landed u c k e) u c l := by
  obtain ⟨hmem, hqueue, hblocks⟩ := fields_of_besideCore ((besideCore_landed u c k e).trans h.beside)
  refine ⟨fun v d hv => (ctx_landed_other k e hv).trans (h.others v d hv), ?_, fun o ho hl => ?_, hmem, hqueue, hblocks⟩
  · rw [fld_landed, h.words.fld hb, fld_beats_counted]
  · rw [rget_landed, h.words o hl, rget_counted s ho]

/-- The registers of a context. -/
def regsOf (x : Ctx) : NMap W64 × NMap W64 × NMap W512 × NMap W512 := (x.sreg, x.preg, x.vreg, x.dreg)

theorem regsKept_of_regsOf {s t : State} {u c : Nat} (h : regsOf (ctx t u c) = regsOf (ctx s u c)) : RegsKept s t u c := by
  simp only [regsOf, Prod.mk.injEq] at h
  obtain ⟨hs, hp, hv, hd⟩ := h
  constructor <;> intro r
  · simp only [sr, hs]
  · simp only [pr, hp]
  · simp only [vr, hv]
  · simp only [dr, hd]

theorem regsOf_landed {e : State} (k : Ctl) (h : regsOf (ctx e u c) = regsOf (ctx s u c)) :
    regsOf (ctx (landed u c k e) u c) = regsOf (ctx s u c) := by
  rw [ctx_landed_same]
  exact h

theorem OwnEffect.goes {e : State} (h : OwnEffect s e u c []) (hr : regsOf (ctx e u c) = regsOf (ctx s u c))
    (hst : (ctx e u c).st = .ready) (k : Ctl) : Goes s (landed u c k e) u c k.pc := by
  obtain ⟨hs, hp, hv, hd⟩ := regsKept_of_regsOf (regsOf_landed k hr)
  exact ⟨hs, hp, fun r => ⟨hv r, hd r⟩, by rw [ctx_landed_same]; rfl, by rw [ctx_landed_same]; exact hst,
    h.coreFrame (List.not_mem_nil) k⟩

/-! ### A beat that changes its own context -/

theorem ctx_upd_counted (s : State) (u c : Nat) (f : Ctx → Ctx) : ctx (updCtx (counted u s) u c f) u c = f (ctx s u c) := by
  rw [ctx_updCtx_same, ctx_counted]

theorem ctx_landed_upd (s : State) (u c : Nat) (k : Ctl) (f : Ctx → Ctx) :
    ctx (landed u c k (updCtx (counted u s) u c f)) u c = steer k (f (ctx s u c)) := by
  rw [ctx_landed_same, ctx_upd_counted]

theorem coreFrame_upd (s : State) (u c : Nat) (k : Ctl) (f : Ctx → Ctx) :
    CoreFrame s (landed u c k (updCtx (counted u s) u c f)) u c [] :=
  ((ownEffect_counted s u c).upd f).coreFrame (List.not_mem_nil) k

theorem outstandingRegs_counted (s : State) (u c : Nat) : outstandingRegs (counted u s) u c = outstandingRegs s u c := by
  simp only [outstandingRegs, bumpFld_core]

/-- Nothing is due to the registers of a bundle that stands alone, so its result is written at once (R226). -/
theorem Alone.writeS (h : Alone s u c sl i) (r : Nat) (v : W64) :
    Machine.writeS u c r v (counted u s) = updCtx (counted u s) u c fun x => setS x r v := by
  unfold Machine.writeS writeNow
  rw [outstandingRegs_counted, h.nothingDue]
  rfl

/-- The beat counts, and nothing else but control has an effect. -/
theorem Alone.goes (h : Alone s u c sl i) (k : Ctl) : Goes s (landed u c k (counted u s)) u c k.pc :=
  (ownEffect_counted s u c).goes (by rw [ctx_counted]) (by rw [ctx_counted, h.ready]) k

end

end Sys2Proof.Machine
end

section
/-!
PROOFS. The rows of a bundle that holds one instruction: with a true predicate it does what its slot does (O9, O10), with a
false one nothing but the beat happens (O12).
-/
namespace Sys2Proof.Machine
open Sys2Proof

section
variable {s : State} {u c : Nat} {sl : Slot} {i : Instr}

/-! ### A true predicate -/

theorem Lone.truePred (h : Lone s u c sl i) (hv : sl ≠ .V) : Machine.truePred s u c i = true := h.pred hv

/-- The row of an instruction in slot S, from where it sends control and what it makes of the registers. -/
theorem Lone.rowS {k : Ctl} {e : State} (h : Lone s u c .S i) (hp : privNeeded (privOf s u c) i = true)
    (hw : waitOf s u c i = none) (hc : control s u c = .ok k) (he : effS (counted u s) u c i (counted u s) = e)
    (hgo : GoesOn (ctx e u c)) : exec i s = .next (landed u c k e) := by
  have hclear : Clear s u c := ⟨h.static hp, h.noWait hw, h.noFaultS hc⟩
  have hslot : effSlot (counted u s) u c (ctx s u c).pc (counted u s) .S = e := by
    simp only [effSlot, slotIns_counted, h.holds, truePred_counted, h.truePred (by decide), if_true]
    exact he
  rw [h.toAlone.exec (by decide) (by simp), h.toAlone.runSlot hclear,
    h.toAlone.issue (by decide) hc (h.noHaltHere (by decide)) hslot hgo]

/-- Control after a bundle whose S slot does not steer it, with no repeat level active. -/
def straightOn (x : Ctx) : Ctl := ⟨x.pc + 1, [], x.lc, false, 0⟩

/-- The row of an instruction in slot X that passes its check and waits for nothing. -/
theorem Lone.rowX {e : State} (h : Lone s u c .X i) (hf : ∀ v q n, i ≠ .fault v q n) (hh : ∀ v q, i ≠ .halt v q)
    (hp : privNeeded (privOf s u c) i = true) (hw : waitOf s u c i = none) (hown : ownFault s u c i = none)
    (he : effX (counted u s) u c i (counted u s) = e) (hgo : GoesOn (ctx e u c)) :
    exec i s = .next (landed u c (straightOn (ctx s u c)) e) := by
  have hclear : Clear s u c := ⟨h.static hp, h.noWait hw, h.noFault (by decide) hown⟩
  have hslot : effSlot (counted u s) u c (ctx s u c).pc (counted u s) .X = e := by
    simp only [effSlot, slotIns_counted, h.holds, truePred_counted, h.truePred (by decide), if_true]
    exact he
  have hhalt : haltsHere (counted u s) u c (ctx s u c).pc = false := by
    unfold haltsHere
    rw [slotIns_counted, h.holds]
    split
    next v q e => exact absurd (Option.some.inj e) (hh v q)
    next => rfl
  rw [h.toAlone.exec (by decide) fun _ => hf, h.toAlone.runSlot hclear,
    h.toAlone.issue (by decide) (h.controlOn (by decide)) hhalt hslot hgo]
  rfl

/-! ### Branches (R104, R105, R114) -/

section
variable {p n : Nat}

theorem landAt_of_le {r : Nat × List Lvl × NMap Nat} (h : r.1 ≤ 2047) (on : Bool) (left : Nat) :
    landAt r on left = .ok ⟨r.1, r.2.1, r.2.2, on, left⟩ := if_neg (Nat.not_lt.mpr h)

theorem Lone.control_br (h : Lone s u c .S (.br u p n)) (hn : n ≤ 2047) :
    control s u c = .ok ⟨n, [], (ctx s u c).lc, false, 0⟩ := by
  simp [control, h.holds, h.truePred, h.noLoop, leaveLevels, landAt_of_le, hn]

theorem Lone.control_call (h : Lone s u c .S (.call u p n)) (hn : n ≤ 2047) :
    control s u c = .ok ⟨n, [], (ctx s u c).lc, false, 0⟩ := by
  simp [control, h.holds, h.truePred, h.noLoop, landAt_of_le, hn]

theorem Lone.control_ret (h : Lone s u c .S (.ret u p)) (hn : (sr (ctx s u c) 31).toNat ≤ 2047) :
    control s u c = .ok ⟨(sr (ctx s u c) 31).toNat, [], (ctx s u c).lc, false, 0⟩ := by
  simp [control, h.holds, h.truePred, h.noLoop, landAt_of_le, hn]

theorem Lone.control_eret (h : Lone s u c .S (.eret u p)) (he : (ctx s u c).eie = false) (hn : (ctx s u c).epc ≤ 2047) :
    control s u c = .ok ⟨(ctx s u c).epc, [], (ctx s u c).lc, false, 0⟩ := by
  simp [control, h.holds, h.truePred, h.noLoop, he, landAt_of_le, hn]

theorem br_row (h : Lone s u c .S (.br u p n)) : Runs (.br u p n) s fun t => Goes s t u c n := by
  have hn : n ≤ 2047 := by
    have := h.wf
    simp [Instr.wf, wfBr] at this
    omega
  exact ⟨_, h.rowS rfl rfl (h.control_br hn) rfl h.goesOn_counted, h.goes _⟩

theorem ret_row (h : Lone s u c .S (.ret u p)) (hn : (sr (ctx s u c) 31).toNat ≤ 2047) :
    Runs (.ret u p) s fun t => Goes s t u c (sr (ctx s u c) 31).toNat :=
  ⟨_, h.rowS rfl rfl (h.control_ret hn) rfl h.goesOn_counted, h.goes _⟩

theorem setS_frame (x : Ctx) (r : Nat) (v : W64) : setS x r v = { x with sreg := (setS x r v).sreg } := by
  unfold setS
  split <;> rfl

theorem GoesOn.setS {x : Ctx} (h : GoesOn x) (r : Nat) (v : W64) : GoesOn (setS x r v) := by
  rw [setS_frame]
  exact ⟨h.sound, h.loaded, h.noStep⟩

theorem scalarResult_landed (s : State) (u c : Nat) (k : Ctl) (r : Nat) (v : W64) :
    ScalarResult s (landed u c k (updCtx (counted u s) u c fun x => setS x r v)) u c r v k.pc := by
  refine ⟨fun q _ => ?_, fun q => ?_, fun q => ?_, ?_, coreFrame_upd s u c k _⟩
  all_goals rw [ctx_landed_upd]
  · exact sr_setS (ctx s u c) r q v
  · rw [setS_frame]
    rfl
  · rw [setS_frame]
    exact ⟨rfl, rfl⟩
  · rfl

theorem call_row (h : Lone s u c .S (.call u p n)) : Runs (.call u p n) s fun t =>
    ScalarResult s t u c 31 (BitVec.ofNat 64 ((ctx s u c).pc + 1)) n := by
  have hn : n ≤ 2047 := by
    have := h.wf
    simp [Instr.wf, wfCall] at this
    omega
  have he : effS (counted u s) u c (.call u p n) (counted u s) =
      updCtx (counted u s) u c fun x => setS x 31 (BitVec.ofNat 64 ((ctx s u c).pc + 1)) := by
    rw [← h.writeS, effS, ctx_counted]
  refine ⟨_, h.rowS rfl rfl (h.control_call hn) he ?_, scalarResult_landed s u c _ 31 _⟩
  rw [ctx_upd_counted]
  exact h.goesOn.setS _ _

/-- ERET lets traps in again. -/
def trapsOn (x : Ctx) : Ctx := { x with eie := true }

theorem eret_row (h : Lone s u c .S (.eret u p)) (he : (ctx s u c).eie = false) (hn : (ctx s u c).epc ≤ 2047) :
    Runs (.eret u p) s fun t => Goes s t u c (ctx s u c).epc ∧ (ctx t u c).eie = true := by
  have hctx : ctx (updCtx (counted u s) u c trapsOn) u c = trapsOn (ctx s u c) := ctx_upd_counted s u c trapsOn
  refine ⟨_, h.rowS (e := updCtx (counted u s) u c trapsOn) rfl rfl (h.control_eret he hn) rfl ?_, ?_, ?_⟩
  · rw [hctx]
    exact ⟨h.goesOn.sound, h.goesOn.loaded, h.goesOn.noStep⟩
  · exact ((ownEffect_counted s u c).upd trapsOn).goes (by rw [hctx]; rfl) (by rw [hctx]; exact h.ready) _
  · rw [ctx_landed_upd]
    rfl

/-! ### Repeats (R103, R104, R106, R107) -/

/-- The row of an instruction in slot S that does nothing but steer. -/
theorem Lone.rowS_steers {k : Ctl} (h : Lone s u c .S i) (hp : privNeeded (privOf s u c) i = true)
    (hw : waitOf s u c i = none) (hc : control s u c = .ok k) (he : effS (counted u s) u c i (counted u s) = counted u s) :
    exec i s = .next (landed u c k (counted u s)) := h.rowS hp hw hc he h.goesOn_counted

theorem doLoop_opens {x : Ctx} {stop : Nat} (hl : x.levels = []) (hin : x.pc < 2047) (hn : n ≤ 2 ^ 24)
    (hs : x.pc < stop) (h0 : 0 < n) :
    doLoop x n stop = .ok ⟨x.pc + 1, [⟨0, x.pc + 1, stop⟩], mset 0 x.lc 0 n, false, 0⟩ := by
  have hfit : ¬ 2 ^ 24 < n ∧ ¬ stop < x.pc + 1 := by omega
  have hfree : freeLevel [] = 0 := rfl
  have hstep : stepLevels x.pc [⟨0, x.pc + 1, stop⟩] (mset 0 x.lc 0 n) =
      (x.pc + 1, [⟨0, x.pc + 1, stop⟩], mset 0 x.lc 0 n) := by simp [stepLevels, hs.ne]
  rw [doLoop, hl, hfree]
  simp only [List.length_nil, hfit, decide_false, Bool.or_self, Bool.false_eq_true, if_false, h0.ne', hstep]
  exact landAt_of_le (r := (x.pc + 1, _)) hin _ _

theorem doLoop_skips {x : Ctx} {stop : Nat} (hl : x.levels = []) (hs : x.pc < stop) (hin : stop < 2047) :
    doLoop x 0 stop = .ok ⟨stop + 1, [], x.lc, false, 0⟩ := by
  have hfit : ¬ stop < x.pc + 1 := by omega
  simp [doLoop, hl, hfit, stepLevels, landAt_of_le, hin]

theorem Lone.control_loop {ra stop : Nat} (h : Lone s u c .S i)
    (hi : i = .loop u p ra stop ∧ n = (sr (ctx s u c) ra).toNat ∨ i = .loopi u p n stop) :
    control s u c = doLoop (ctx s u c) n stop := by
  rcases hi with ⟨rfl, rfl⟩ | rfl <;> simp [control, h.holds, h.truePred]

/-- LOOP and LOOPI act on control alone. -/
theorem Lone.row_loop {ra stop : Nat} {k : Ctl} (h : Lone s u c .S i)
    (hi : i = .loop u p ra stop ∧ n = (sr (ctx s u c) ra).toNat ∨ i = .loopi u p n stop)
    (hk : doLoop (ctx s u c) n stop = .ok k) : exec i s = .next (landed u c k (counted u s)) := by
  have hc := (h.control_loop hi).trans hk
  rcases hi with ⟨rfl, -⟩ | rfl <;> exact h.rowS_steers rfl rfl hc rfl

theorem doRepi_opens {x : Ctx} (hl : x.levels = []) (hin : x.pc < 2046) (hb : bodyBad s u (x.pc + 1) = false) (h0 : 0 < n) :
    doRepi s u x n = .ok ⟨x.pc + 1, [], x.lc, true, n⟩ := by
  have hfit : ¬ 2047 < x.pc + 1 := by omega
  simp [doRepi, hl, stepLevels, hfit, hb, h0.ne', landAt]

theorem doRepi_skips {x : Ctx} (hl : x.levels = []) (hin : x.pc < 2046) (hb : bodyBad s u (x.pc + 1) = false) :
    doRepi s u x 0 = .ok ⟨x.pc + 2, [], x.lc, false, 0⟩ := by
  have hfit : ¬ 2047 < x.pc + 1 ∧ ¬ 2047 < x.pc + 1 + 1 := by omega
  simp [doRepi, hl, stepLevels, hfit, hb, landAt]

theorem Lone.control_repi {ra : Nat} (h : Lone s u c .S i)
    (hi : i = .repi u p ra ∧ n = (sr (ctx s u c) ra).toNat % 2 ^ 16 ∨ i = .repii u p n) :
    control s u c = doRepi s u (ctx s u c) n := by
  rcases hi with ⟨rfl, rfl⟩ | rfl <;> simp [control, h.holds, h.truePred, bitsOf]

/-- REPI and REPII act on control alone. -/
theorem Lone.row_repi {ra : Nat} {k : Ctl} (h : Lone s u c .S i)
    (hi : i = .repi u p ra ∧ n = (sr (ctx s u c) ra).toNat % 2 ^ 16 ∨ i = .repii u p n)
    (hp : privOf s u c ≠ .user) (hk : doRepi s u (ctx s u c) n = .ok k) :
    exec i s = .next (landed u c k (counted u s)) := by
  have hc := (h.control_repi hi).trans hk
  rcases hi with ⟨rfl, -⟩ | rfl <;> exact h.rowS_steers (decide_eq_true hp) rfl hc rfl

theorem ctx_landed_counted (s : State) (u c : Nat) (k : Ctl) :
    ctx (landed u c k (counted u s)) u c = steer k (ctx s u c) := by rw [ctx_landed_same, ctx_counted]

end

end

/-- Settles O9: each branch by where `control` sends it and what its slot makes of the context. -/
theorem controlTransfers : Obligations.ControlTransfers :=
  fun _ _ _ _ _ => ⟨br_row, call_row, ret_row, eret_row⟩

/-- Settles O10: what `doLoop` and `doRepi` answer with no level active, and rows that act on control alone. -/
theorem repeats : Obligations.Repeats := by
  constructor
  · intro s u c p ra n stop i hi h hn hs
    constructor
    · intro h0
      refine ⟨_, h.row_loop hi (doLoop_opens h.noLoop h.inside hn hs h0), h.goes _, ?_⟩
      rw [ctx_landed_counted]
      exact ⟨rfl, mget_mset_same 0 _ 0 n⟩
    · rintro rfl hin
      refine ⟨_, h.row_loop hi (doLoop_skips h.noLoop hs hin), h.goes _, ?_⟩
      rw [ctx_landed_counted]
      rfl
  · intro s u c p ra n i hi h hp hin hb
    constructor
    · intro h0
      refine ⟨_, h.row_repi hi hp (doRepi_opens h.noLoop hin hb h0), h.goes _, ?_⟩
      rw [ctx_landed_counted]
      exact ⟨rfl, rfl⟩
    · rintro rfl
      refine ⟨_, h.row_repi hi hp (doRepi_skips h.noLoop hin hb), h.goes _, ?_⟩
      rw [ctx_landed_counted]
      rfl

/-! ### A false predicate (R85, R126) -/

section
variable {s : State} {u c : Nat} {sl : Slot} {i : Instr}

theorem Alone.static (h : Alone s u c sl i) (hp : privNeeded (privOf s u c) i = true) :
    staticFault s u c (ctx s u c).pc allSlots [] = none := by
  have one : staticOne s u c (some i) [] = none := by simp [staticOne, hp]
  cases sl <;>
    simp [staticFault, allSlots, h.holds, h.nop (k := .S), h.nop (k := .V), h.nop (k := .M), h.nop (k := .X), staticOne_nop,
      destsOf_nop, one]

/-- An instruction with a false predicate does not steer, and neither does a NOP in slot S. -/
theorem Alone.control_false (h : Alone s u c sl i) (hp : truePred s u c i = false) :
    control s u c = .ok (straightOn (ctx s u c)) := by
  have hseq : landAt (stepLevels (ctx s u c).pc (ctx s u c).levels (ctx s u c).lc) false 0 =
      .ok (straightOn (ctx s u c)) := by
    rw [h.noLoop]
    exact landAt_of_le (r := (_, _)) h.inside _ _
  by_cases hs : sl = .S
  · subst hs
    simp [control, h.holds, hp, h.noRepi, hseq]
  · simp [control, h.nop (Ne.symm hs), truePred_zero, h.noRepi, hseq]

theorem Alone.wait_false (h : Alone s u c sl i) (hp : truePred s u c i = false) : operandWait s u c = none := by
  have hload : ∀ k, slotLoad s u c (ctx s u c).pc k = false := by
    intro k
    simp only [slotLoad, h.nothingDue]
    cases slotIns s u (ctx s u c).pc k <;> simp
  have hwait : ∀ k, slotWait s u c (ctx s u c).pc k = none := by
    intro k
    by_cases e : k = sl
    · subst e
      simp [slotWait, h.holds, hp]
    · simp [slotWait, h.nop e, waitOf_nop]
  simp [operandWait, hload, hwait, allSlots]

theorem Alone.check_false (h : Alone s u c sl i) (hp : truePred s u c i = false) :
    checkFault s u c (ctx s u c).pc allSlots = none := by
  have hslot : ∀ k, checkSlot s u c (ctx s u c).pc k = none := by
    intro k
    by_cases hs : k = .S
    · subst hs
      simp [checkSlot, h.control_false hp]
    · by_cases e : k = sl
      · subst e
        cases k <;> simp_all [checkSlot, h.holds]
      · cases k <;> simp_all [checkSlot, h.nop e, ownFault_nop]
  simp [checkFault, allSlots, hslot]

theorem Alone.effSlot_false (h : Alone s u c sl i) (hv : sl ≠ .V) (hp : truePred s u c i = false) :
    effSlot (counted u s) u c (ctx s u c).pc (counted u s) sl = counted u s := by
  cases sl with
  | V => exact absurd rfl hv
  | _ => simp [effSlot, slotIns_counted, h.holds, truePred_counted, hp]

theorem Alone.noHalt_false (h : Alone s u c sl i) (hp : truePred s u c i = false) :
    haltsHere (counted u s) u c (ctx s u c).pc = false := by
  unfold haltsHere
  rw [slotIns_counted, ctx_counted]
  by_cases hx : sl = .X
  · subst hx
    rw [h.holds]
    split
    next v q e =>
      cases e
      exact hp
    next => rfl
  · rw [h.nop (Ne.symm hx)]

/-- A bundle whose one instruction has a false predicate issues, and control goes to the next bundle. -/
theorem Alone.row_false (h : Alone s u c sl i) (hv : sl ≠ .V) (hf : ∀ v q n, i ≠ .fault v q n)
    (hp : truePred s u c i = false) (hpriv : privNeeded (privOf s u c) i = true) :
    Machine.exec i s = .next (landed u c (straightOn (ctx s u c)) (counted u s)) := by
  rw [h.exec hv fun _ => hf, h.runSlot ⟨h.static hpriv, h.wait_false hp, h.check_false hp⟩,
    h.issue hv (h.control_false hp) (h.noHalt_false hp) (h.effSlot_false hv hp) h.goesOn_counted]

end

/-- Settles O12: the beat of a bundle with a false predicate is counted and moves on. -/
theorem falsePredicatesDoNothing : Obligations.FalsePredicatesDoNothing :=
  fun _ _ _ _ _ hv h hf hp hpriv => ⟨_, h.row_false hv hf hp hpriv, h.goes _⟩

end Sys2Proof.Machine
end

section
/-!
PROOFS. Traps and debug control (R102, R111, R113, R114): rows that change one context.
-/
namespace Sys2Proof.Machine
open Sys2Proof

section
variable {s : State} {m : Master} {u c : Nat}

/-- A request that reaches its register is served, in a block that does not sleep too. -/
theorem served_of_reaches {o n : Nat} {v : Option W64} {f : State → State} (h : Reaches s m o) :
    byMaster m o (unlessAsleep m o n v f) s = f s := by
  obtain ⟨-, -, hawake, -⟩ := id h
  rw [byMaster_of_reaches h, unlessAsleep, hawake]

theorem wf_debug (hm : masterOk m = true) (hu : u < 25604) (hc : c < 8) :
    (masterOk m && unitOk u && decide (c < 8)) = true := by simp [hm, unitOk, hu, hc]

/-- Nothing but context `c` of unit `u` changes, and it becomes `y`. -/
def OnlyCtx (s t : State) (u c : Nat) (y : Ctx) : Prop :=
  ctx t u c = y ∧ (∀ v d, ctxKey v d ≠ ctxKey u c → ctx t v d = ctx s v d) ∧
    t = { s with core := { s.core with ctxs := t.core.ctxs } }

theorem onlyCtx_updCtx (s : State) (u c : Nat) (f : Ctx → Ctx) : OnlyCtx s (updCtx s u c f) u c (f (ctx s u c)) :=
  ⟨ctx_updCtx_same s u c f, fun v d h => ctx_updCtx_other s u c v d f h, rfl⟩

theorem trapTake_row {x : Ctx} (hx : x = ctx s u c) (hu : u < 25604) (hc : c < 8) (hst : x.st = .ready) (he : x.eie = true)
    (hp : x.pend &&& x.en ≠ 0) (hr : x.repiOn = false) :
    Runs (.trapTake u c) s fun t => OnlyCtx s t u c { x with epc := x.pc, pc := x.vec, eie := false } := by
  subst hx
  have hdue : trapDue (ctx s u c) = true := by simpa [trapDue, hst, he, hr] using hp
  have hrow : exec (.trapTake u c) s = .next (updCtx s u c takeTrap) :=
    (runIf_of (by simp [wfTrapTake, unitOk, hu, hc]) _).trans (congrArg Host.Outcome.next (if_pos hdue))
  exact ⟨_, hrow, onlyCtx_updCtx s u c takeTrap⟩

/-! ### What each command asks of a register that it reaches -/

section
variable (hm : masterOk m = true) (hu : u < 25604) (hc : c < 8) (h : Reaches s m (CTX_CTRL u c))
include hm hu hc h

theorem exec_haltReq : exec (.haltReq m u c) s = .next (if mayAdmin s m then updCtx s u c debugHalt else s) :=
  (runIf_of (wf_debug hm hu hc) _).trans (congrArg Host.Outcome.next (served_of_reaches h))

theorem exec_resume : exec (.resume m u c) s = .next (if mayAdmin s m then updCtx s u c (resumeCtx false) else s) :=
  (runIf_of (wf_debug hm hu hc) _).trans (congrArg Host.Outcome.next (served_of_reaches h))

theorem exec_stepCtx : exec (.stepCtx m u c) s = .next (if mayAdmin s m then updCtx s u c (resumeCtx true) else s) :=
  (runIf_of (wf_debug hm hu hc) _).trans (congrArg Host.Outcome.next (served_of_reaches h))

/-- A control processor that asks for its own context is a supervisor like any other. -/
theorem exec_setSoft : exec (.setSoft m u c) s = .next (if mayAdmin s m then raiseSoft u c s else s) := by
  refine (runIf_of (wf_debug hm hu hc) _).trans (congrArg Host.Outcome.next ?_)
  by_cases hself : m = .unit u c
  · obtain ⟨-, -, -, hcp⟩ := h
    have hadmin : mayAdmin s m = true := by
      rw [hself]
      simp [mayAdmin, isSupervisor, hcp u c hself]
    rw [if_pos hself, if_pos hadmin]
  · rw [if_neg hself, served_of_reaches h]

theorem debug_not_permitted (hno : mayAdmin s m = false) :
    ∀ i ∈ [Instr.haltReq m u c, .resume m u c, .stepCtx m u c, .setSoft m u c], exec i s = .next s := by
  simp [exec_haltReq hm hu hc h, exec_resume hm hu hc h, exec_stepCtx hm hu hc h, exec_setSoft hm hu hc h, hno]

end

/-- A core context that asks faults, but for SET_SOFT of its own (R102). -/
theorem debug_by_core {v d : Nat} (hm : masterOk (.unit v d) = true) (hu : u < 25604) (hc : c < 8) (hv : v < 25600) :
    ∀ i ∈ [Instr.haltReq (.unit v d) u c, .resume (.unit v d) u c, .stepCtx (.unit v d) u c, .setSoft (.unit v d) u c],
      i ≠ .setSoft (.unit v d) v d → (ctx s v d).st = .ready ∨ (ctx s v d).st = .waiting → Runs i s fun t =>
        Faulted s t v d 0x0102 3 (3 * 2 ^ 48 + CTX_CTRL u c) ∧ t.mem = s.mem := by
  have hcp : isCp v = false := decide_eq_false (Nat.not_le.mpr hv)
  have hwf := wf_debug hm hu hc
  have hdenied : ∀ f, byMaster (.unit v d) (CTX_CTRL u c) f s = csrDenied v d (CTX_CTRL u c) s :=
    fun f => byMaster_core d (CTX_CTRL u c) f hcp
  intro i hi hself hst
  have hrow : exec i s = .next (csrDenied v d (CTX_CTRL u c) s) := by
    simp only [List.mem_cons, List.not_mem_nil, or_false] at hi
    rcases hi with rfl | rfl | rfl | rfl
    · exact (runIf_of hwf _).trans (congrArg Host.Outcome.next (hdenied _))
    · exact (runIf_of hwf _).trans (congrArg Host.Outcome.next (hdenied _))
    · exact (runIf_of hwf _).trans (congrArg Host.Outcome.next (hdenied _))
    · have hother : Master.unit v d ≠ .unit u c := by
        rintro e
        cases e
        exact hself rfl
      exact (runIf_of hwf _).trans (congrArg Host.Outcome.next ((if_neg hother).trans (hdenied _)))
  exact ⟨_, hrow, faulted_faultCtx hst 0x0102 3 _⟩

/-! ### What the commands make of the context -/

theorem debugHalt_of_runs {x : Ctx} (h : x.st = .ready ∨ x.st = .waiting) :
    debugHalt x = if x.repiOn then { x with haltReq := true }
      else { x with st := .halted, cause := 2, reason := 0, haltReq := false } :=
  if_neg fun hn => h.elim hn.1 hn.2

theorem debugHalt_of_stands {x : Ctx} (h₁ : x.st ≠ .ready) (h₂ : x.st ≠ .waiting) : debugHalt x = x := if_pos ⟨h₁, h₂⟩

theorem resumeCtx_of_halted {x : Ctx} (b : Bool) (hst : x.st = .halted) (hcause : x.cause = 1 ∨ x.cause = 2) :
    resumeCtx b x = { x with
      st := if x.hold = .none then .ready else .waiting, reason := holdReason x.hold, cause := 0, stepping := b } :=
  if_pos ⟨hst, hcause⟩

/-- The SOFT event is pending. -/
def softPending (x : Ctx) : Ctx := { x with pend := x.pend ||| 8 }

theorem raiseSoft_of_loaded (h : (ctx s u c).st ≠ .unloaded) :
    raiseSoft u c s = updCtx s u c fun x => eventWake (softPending x) := if_neg h

theorem eventWake_softPending {x : Ctx} (h : x.hold ≠ .event) : eventWake (softPending x) = softPending x :=
  if_neg fun hn => h hn.1

end

/-- Settles O28: each row by the one context that it changes, or by the fault of the core that asked. -/
theorem trapsAndDebugControl : Obligations.TrapsAndDebugControl := by
  intro s m u c x hu hc hm hx Only
  refine ⟨trapTake_row hx hu hc, fun i hi => ⟨fun hno h => debug_not_permitted hm hu hc h hno i hi, ?_⟩, fun hmay h => ?_⟩
  · rintro v d rfl hv
    exact debug_by_core hm hu hc hv i hi
  · subst hx
    have halts := exec_haltReq hm hu hc h
    have resumes := exec_resume hm hu hc h
    have steps := exec_stepCtx hm hu hc h
    have softs := exec_setSoft hm hu hc h
    rw [if_pos hmay] at halts resumes steps softs
    refine ⟨fun hst => ⟨_, halts, ?_⟩, fun h₁ h₂ => ⟨_, halts, ?_⟩, fun i b hi hst hcause => ⟨updCtx s u c (resumeCtx b), ?_, ?_⟩,
      fun hst hhold => ⟨_, softs, ?_⟩⟩
    · rw [← debugHalt_of_runs hst]
      exact onlyCtx_updCtx s u c debugHalt
    · have := onlyCtx_updCtx s u c debugHalt
      rwa [debugHalt_of_stands h₁ h₂] at this
    · rcases hi with ⟨rfl, rfl⟩ | ⟨rfl, rfl⟩
      · exact resumes
      · exact steps
    · have := onlyCtx_updCtx s u c (resumeCtx b)
      rw [resumeCtx_of_halted b hst hcause] at this
      cases hh : (ctx s u c).hold <;> rw [hh] at this <;> exact this
    · have := onlyCtx_updCtx s u c fun x => eventWake (softPending x)
      rw [eventWake_softPending hhold] at this
      rwa [raiseSoft_of_loaded hst]

end Sys2Proof.Machine
end

section
/-!
PROOFS. Event and Glint waits (R52–R54, R113, R115): what each makes of its context, and the rows.
-/
namespace Sys2Proof.Machine
open Sys2Proof

theorem Runs.mono {i : Instr} {s : State} {P Q : State → Prop} (h : Runs i s P) (hpq : ∀ t, P t → Q t) : Runs i s Q := by
  obtain ⟨t, ht, hp⟩ := h
  exact ⟨t, ht, hpq t hp⟩

/-! ### What holds and events make of a context -/

theorem toHold_of_ready {x : Ctx} (hd : Hold) (h : x.st = .ready) :
    toHold hd x = { x with hold := hd, st := .waiting, reason := holdReason hd } := if_pos h

@[simp] theorem regsOf_toHold (hd : Hold) (x : Ctx) : regsOf (toHold hd x) = regsOf x := by
  unfold toHold
  split <;> rfl

@[simp] theorem regsOf_eventWake (x : Ctx) : regsOf (eventWake x) = regsOf x := by
  unfold eventWake
  split <;> rfl

theorem GoesOn.toHold {x : Ctx} (h : GoesOn x) (hd : Hold) : GoesOn (toHold hd x) := by
  unfold Machine.toHold
  split
  · exact ⟨by simp, by simp, h.noStep⟩
  · exact h

theorem GoesOn.eventWake {x : Ctx} (h : GoesOn x) : GoesOn (eventWake x) := by
  unfold Machine.eventWake
  split
  · refine ⟨?_, ?_, h.noStep⟩ <;> dsimp only <;> split
    · simp
    · exact h.sound
    · simp
    · exact h.loaded
  · exact h

/-- The context as EVT.WAIT leaves it: its hold ends at once when an enabled event is pending (R115). -/
def eventHold (x : Ctx) : Ctx := eventWake (toHold .event x)

theorem eventHold_of_none {x : Ctx} (h : x.st = .ready) (hp : x.pend &&& x.en = 0) :
    eventHold x = { x with hold := .event, st := .waiting, reason := 10 } := by
  rw [eventHold, toHold_of_ready _ h]
  exact if_neg fun hn => hn.2 hp

theorem eventHold_st_of_some {x : Ctx} (h : x.st = .ready) (hp : x.pend &&& x.en ≠ 0) : (eventHold x).st = .ready := by
  rw [eventHold, toHold_of_ready _ h, eventWake, if_pos ⟨rfl, hp⟩]
  rfl

/-- The context as EVT.SEND leaves the one it names (R113). -/
def softened (x : Ctx) : Ctx := if x.st = .unloaded then x else eventWake (softPending x)

theorem regsOf_softened (x : Ctx) : regsOf (softened x) = regsOf x := by
  unfold softened
  split
  · rfl
  · exact regsOf_eventWake _

theorem GoesOn.softened {x : Ctx} (h : GoesOn x) : GoesOn (softened x) := by
  unfold Machine.softened
  split
  · exact h
  · exact GoesOn.eventWake ⟨h.sound, h.loaded, h.noStep⟩

theorem softened_pend (x : Ctx) : (softened x).pend = if x.st = .unloaded then x.pend else x.pend ||| 8 := by
  unfold softened eventWake
  split
  · rfl
  · split <;> rfl

theorem ctx_raiseSoft (s : State) (u k v d : Nat) :
    ctx (raiseSoft u k s) v d = if ctxKey v d = ctxKey u k then softened (ctx s u k) else ctx s v d := by
  unfold raiseSoft softened
  split
  next h =>
    split
    next hk => unfold ctx; rw [hk]
    next => rfl
  next h => exact ctx_setCtx s u k v d _

theorem ctx_bumpFld (t : State) (r : Nat) (f : Fld) (n v d : Nat) : ctx (bumpFld t r f n) v d = ctx t v d := by
  simp only [ctx, bumpFld_core]

/-- The slot a context counts is `k` from now on, and it holds for the Glint of `k` unless that has fired (R53, R54). -/
def forSlot (k now : Nat) (x : Ctx) : Ctx :=
  if k ≤ now then { x with slot := k } else toHold (.glint k) { x with slot := k }

theorem regsOf_forSlot (k now : Nat) (x : Ctx) : regsOf (forSlot k now x) = regsOf x := by
  unfold forSlot
  split
  · rfl
  · exact regsOf_toHold _ _

theorem GoesOn.forSlot {x : Ctx} (h : GoesOn x) (k now : Nat) : GoesOn (forSlot k now x) := by
  unfold Machine.forSlot
  split
  · exact ⟨h.sound, h.loaded, h.noStep⟩
  · exact GoesOn.toHold (x := { x with slot := k }) ⟨h.sound, h.loaded, h.noStep⟩ _

theorem forSlot_slot (k now : Nat) (x : Ctx) : (forSlot k now x).slot = k := by
  unfold forSlot toHold
  split
  · rfl
  · split <;> rfl

theorem forSlot_of_fired {k now : Nat} (x : Ctx) (h : k ≤ now) : forSlot k now x = { x with slot := k } := if_pos h

theorem forSlot_of_coming {k now : Nat} {x : Ctx} (hst : x.st = .ready) (h : now < k) :
    forSlot k now x = { x with slot := k, hold := .glint k, st := .waiting, reason := 8 } := by
  rw [forSlot, if_neg (Nat.not_le.mpr h)]
  exact toHold_of_ready _ hst

/-! ### Rows that act on the context alone -/

section
variable {s : State} {u c : Nat} {i : Instr}

/-- The row of an instruction in slot X that acts on its own context, perhaps after counting in register words `l`. -/
theorem Lone.row_own {e : State} {l : List Nat} (h : Lone s u c .X i) (hf : ∀ v q n, i ≠ .fault v q n)
    (hh : ∀ v q, i ≠ .halt v q) (hp : privNeeded (privOf s u c) i = true) (hw : waitOf s u c i = none)
    (hown : ownFault s u c i = none) (f : Ctx → Ctx) (hb : CORE_BEATS u ∉ l) (heff : OwnEffect s e u c l)
    (hctx : ctx e u c = ctx s u c) (he : effX (counted u s) u c i (counted u s) = updCtx e u c f)
    (hr : ∀ x, regsOf (f x) = regsOf x) (hgo : ∀ x, GoesOn x → GoesOn (f x)) :
    Runs i s fun t => RegsKept s t u c ∧ CoreFrame s t u c l ∧ ctx t u c = steer (straightOn (ctx s u c)) (f (ctx s u c)) ∧
      t.csr = e.csr := by
  have hx : ctx (updCtx e u c f) u c = f (ctx s u c) := by rw [ctx_updCtx_same, hctx]
  refine ⟨_, h.rowX hf hh hp hw hown he (by rw [hx]; exact hgo _ h.goesOn), ?_, ?_, ?_, ?_⟩
  · exact regsKept_of_regsOf (regsOf_landed _ (by rw [hx, hr]))
  · exact (heff.upd f).coreFrame hb _
  · rw [ctx_landed_same, hx]
  · exact landed_csr _ _ _ _

/-- The row of an instruction in slot X that acts on its own context and on nothing else. -/
theorem Lone.row_ctx (h : Lone s u c .X i) (hf : ∀ v q n, i ≠ .fault v q n) (hh : ∀ v q, i ≠ .halt v q)
    (hp : privNeeded (privOf s u c) i = true) (hw : waitOf s u c i = none) (hown : ownFault s u c i = none) (f : Ctx → Ctx)
    (he : effX (counted u s) u c i (counted u s) = updCtx (counted u s) u c f) (hr : ∀ x, regsOf (f x) = regsOf x)
    (hgo : ∀ x, GoesOn x → GoesOn (f x)) :
    Runs i s fun t => RegsKept s t u c ∧ CoreFrame s t u c [] ∧ ctx t u c = steer (straightOn (ctx s u c)) (f (ctx s u c)) ∧
      t.csr = (counted u s).csr :=
  h.row_own hf hh hp hw hown f List.not_mem_nil (ownEffect_counted s u c) (ctx_counted s u u c) he hr hgo

/-! ### Events -/

theorem evtWait_row {p : Nat} (h : Lone s u c .X (.evtWait u p)) : Runs (.evtWait u p) s fun t =>
    RegsKept s t u c ∧ CoreFrame s t u c [] ∧ (ctx t u c).pc = (ctx s u c).pc + 1 ∧
    ((ctx s u c).pend &&& (ctx s u c).en = 0 →
      (ctx t u c).st = .waiting ∧ (ctx t u c).reason = 10 ∧ (ctx t u c).hold = .event) ∧
    ((ctx s u c).pend &&& (ctx s u c).en ≠ 0 → (ctx t u c).st = .ready) := by
  have hrow := h.row_ctx (by simp) (by simp) rfl rfl rfl eventHold rfl (fun x => by simp [eventHold])
    fun x hx => (hx.toHold _).eventWake
  refine hrow.mono fun t ⟨hregs, hframe, hctx, _⟩ => ⟨hregs, hframe, by rw [hctx]; rfl, fun hp => ?_, fun hp => ?_⟩
  · rw [hctx, eventHold_of_none h.ready hp]
    exact ⟨rfl, rfl, rfl⟩
  · rw [hctx]
    exact eventHold_st_of_some h.ready hp

/-- What control does not touch is as the slots left it, in every context. -/
theorem ctx_landed_keeps {β : Type} (π : Ctx → β) (h : ∀ k x, π (steer k x) = π x) (u c v d : Nat) (k : Ctl) (e : State) :
    π (ctx (landed u c k e) v d) = π (ctx e v d) := by
  rw [ctx_landed]
  split
  next hk => rw [h]; unfold ctx; rw [hk]
  next => rfl

theorem raiseSoft_csr (u k : Nat) (t : State) : (raiseSoft u k t).csr = t.csr := by
  unfold raiseSoft
  split <;> rfl

theorem besideCore_raiseSoft (u k : Nat) (t : State) : besideCore (raiseSoft u k t) = besideCore t := by
  unfold raiseSoft
  split
  · rfl
  · simp [besideCore, raiseEvents]

theorem evtSend_row {p k : Nat} (h : Lone s u c .X (.evtSend u p k)) : Runs (.evtSend u p k) s fun t =>
    RegsKept s t u k ∧ RegsKept s t u c ∧ (ctx t u c).pc = (ctx s u c).pc + 1 ∧ t.mem = s.mem ∧
    WordsKept s t [CORE_BEATS u] ∧
    (ctx t u k).pend = (if (ctx s u k).st = .unloaded then (ctx s u k).pend else (ctx s u k).pend ||| 8) ∧
    (∀ v d, ctxKey v d ≠ ctxKey u c → ctxKey v d ≠ ctxKey u k → ctx t v d = ctx s v d) := by
  have he (v d : Nat) : ctx (raiseSoft u k (counted u s)) v d =
      if ctxKey v d = ctxKey u k then softened (ctx s u k) else ctx s v d := by
    rw [ctx_raiseSoft, ctx_counted, ctx_counted]
  have hnamed : ctx (raiseSoft u k (counted u s)) u k = softened (ctx s u k) := (he u k).trans (if_pos rfl)
  have hself : regsOf (ctx (raiseSoft u k (counted u s)) u c) = regsOf (ctx s u c) ∧
      GoesOn (ctx (raiseSoft u k (counted u s)) u c) := by
    rw [he]
    split
    next hk =>
      obtain rfl : c = k := by unfold ctxKey at hk; omega
      exact ⟨regsOf_softened _, h.goesOn.softened⟩
    next => exact ⟨rfl, h.goesOn⟩
  obtain ⟨hregs, hgo⟩ := hself
  refine ⟨_, h.rowX (by simp) (by simp) rfl rfl rfl rfl hgo, ?_, ?_, ?_, ?_, fun o ho => ?_, ?_, fun v d hc hk => ?_⟩
  · refine regsKept_of_regsOf ?_
    rw [ctx_landed_keeps regsOf fun _ _ => rfl]
    exact (congrArg regsOf hnamed).trans (regsOf_softened _)
  · exact regsKept_of_regsOf (regsOf_landed _ hregs)
  · rw [ctx_landed_same]
    rfl
  · obtain ⟨hmem, -⟩ := fields_of_besideCore ((besideCore_landed u c _ _).trans ((besideCore_raiseSoft u k _).trans
      (ownEffect_counted s u c).beside))
    exact hmem
  · rw [rget_landed]
    exact (rget_of_csr (raiseSoft_csr u k _) o).trans (rget_counted s (by simpa using ho))
  · rw [ctx_landed_keeps Ctx.pend fun _ _ => rfl]
    exact (congrArg Ctx.pend hnamed).trans (softened_pend _)
  · rw [ctx_landed_other _ _ hc]
    exact (he v d).trans (if_neg hk)

/-! ### Glints -/

theorem pace_ne_core {o : Nat} (h : 0x1000000 ≤ o) : PACE_SLOT + 8 * PACE_SLOT_SLOT.word ≠ o := by
  simp only [PACE_SLOT, PACE_SLOT_SLOT]
  omega

theorem paceSlot_counted (s : State) (u : Nat) :
    fld (counted u s) PACE_SLOT PACE_SLOT_SLOT = fld s PACE_SLOT PACE_SLOT_SLOT :=
  fld_of_rget (rget_counted s (pace_ne_core (by unfold CORE_BEATS; omega)))

theorem sameInstant_counted (s : State) (u : Nat) : sameInstant (counted u s) u =
    (decide (s.pace.reachAt = some s.now) && decide (mget 0 s.core.reached u = fld (counted u s) (CORE_BEATS u) CORE_BEATS_BEATS)) := by
  simp only [sameInstant, bumpFld_pace, bumpFld_now, bumpFld_core]

/-- The context takes the Glint of its instant, or holds for the next (R52, R55). -/
def firstGlint (now : Bool) (slot : Nat) (x : Ctx) : Ctx :=
  if now then { x with paced := true, slot := slot } else toHold .nextGlint x

theorem GoesOn.firstGlint {x : Ctx} (h : GoesOn x) (now : Bool) (slot : Nat) : GoesOn (firstGlint now slot x) := by
  unfold Machine.firstGlint
  split
  · exact ⟨h.sound, h.loaded, h.noStep⟩
  · exact h.toHold _

theorem regsOf_firstGlint (now : Bool) (slot : Nat) (x : Ctx) : regsOf (firstGlint now slot x) = regsOf x := by
  unfold firstGlint
  split
  · rfl
  · exact regsOf_toHold _ _

/-- Both forms of GLINT.WAIT of an unpaced context. -/
theorem effX_glint_unpaced {p : Nat} (hi : i = .glintWaitNext u p ∨ i = .glintWaitAlign u p)
    (hx : (ctx s u c).paced = false) : effX (counted u s) u c i (counted u s) =
      updCtx (counted u s) u c (firstGlint (sameInstant (counted u s) u) (fld s PACE_SLOT PACE_SLOT_SLOT)) := by
  have hun : (ctx (counted u s) u c).paced = false := by rw [ctx_counted, hx]
  have hnext : holdNext (counted u s) u c (counted u s) =
      updCtx (counted u s) u c (firstGlint (sameInstant (counted u s) u) (fld s PACE_SLOT PACE_SLOT_SLOT)) := by
    unfold holdNext firstGlint
    rw [paceSlot_counted]
    split <;> rfl
  rw [← hnext]
  rcases hi with rfl | rfl
  · exact if_pos (by rw [hun]; rfl)
  · exact if_pos (by rw [hun]; rfl)

theorem glint_unpaced_row {p : Nat} (hi : i = .glintWaitNext u p ∨ i = .glintWaitAlign u p) (h : Lone s u c .X i)
    (hx : (ctx s u c).paced = false) : Runs i s fun t =>
      RegsKept s t u c ∧ CoreFrame s t u c [] ∧ (ctx t u c).pc = (ctx s u c).pc + 1 ∧
      (s.pace.reachAt ≠ some s.now → (ctx t u c).st = .waiting ∧ (ctx t u c).reason = 8 ∧ (ctx t u c).hold = .nextGlint) ∧
      (s.pace.reachAt = some s.now → mget 0 s.core.reached u = fld t (CORE_BEATS u) CORE_BEATS_BEATS →
        (ctx t u c).st = .ready ∧ (ctx t u c).paced = true ∧ (ctx t u c).slot = fld s PACE_SLOT PACE_SLOT_SLOT) := by
  have he := effX_glint_unpaced hi hx
  have hrow : Runs i s fun t => RegsKept s t u c ∧ CoreFrame s t u c [] ∧ ctx t u c = steer (straightOn (ctx s u c))
      (firstGlint (sameInstant (counted u s) u) (fld s PACE_SLOT PACE_SLOT_SLOT) (ctx s u c)) ∧ t.csr = (counted u s).csr := by
    rcases hi with rfl | rfl <;>
      exact h.row_ctx (by simp) (by simp) rfl rfl rfl _ he (regsOf_firstGlint _ _) fun x hx => hx.firstGlint _ _
  refine hrow.mono fun t ⟨hregs, hframe, hctx, hcsr⟩ => ⟨hregs, hframe, by rw [hctx]; rfl, fun hat => ?_, fun hat hbeat => ?_⟩
  · rw [hctx, sameInstant_counted, decide_eq_false hat, firstGlint, toHold_of_ready _ h.ready]
    exact ⟨rfl, rfl, rfl⟩
  · rw [fld_of_csr hcsr] at hbeat
    rw [hctx, sameInstant_counted, decide_eq_true hat, decide_eq_true hbeat]
    exact ⟨h.ready, rfl, rfl⟩

section
theorem endSlot_counted (hg : ∀ g ∈ s.core.glints, ¬ (g.1 = u ∧ g.2.1 = (ctx s u c).slot + 1)) :
    endSlot (counted u s) u c (counted u s) = counted u s := by
  have hnone : s.core.glints.find? (fun g => decide (g.1 = u) && decide (g.2.1 = (ctx s u c).slot + 1)) = none :=
    List.find?_eq_none.mpr fun g hm => by simpa using hg g hm
  simp only [endSlot, ctx_counted, bumpFld_core, hnone, ite_self]

theorem glintNext_row {p : Nat} (hg : ∀ g ∈ s.core.glints, ¬ (g.1 = u ∧ g.2.1 = (ctx s u c).slot + 1))
    (hx : (ctx s u c).paced = true) (h : Lone s u c .X (.glintWaitNext u p)) : Runs (.glintWaitNext u p) s fun t =>
      RegsKept s t u c ∧ CoreFrame s t u c [] ∧ (ctx t u c).slot = (ctx s u c).slot + 1 ∧
      (ctx t u c).pc = (ctx s u c).pc + 1 ∧
      (fld s PACE_SLOT PACE_SLOT_SLOT < (ctx s u c).slot + 1 →
        (ctx t u c).st = .waiting ∧ (ctx t u c).reason = 8 ∧ (ctx t u c).hold = .glint ((ctx s u c).slot + 1)) ∧
      ((ctx s u c).slot + 1 ≤ fld s PACE_SLOT PACE_SLOT_SLOT → (ctx t u c).st = .ready) := by
  have he : effX (counted u s) u c (.glintWaitNext u p) (counted u s) =
      updCtx (counted u s) u c (forSlot ((ctx s u c).slot + 1) (fld s PACE_SLOT PACE_SLOT_SLOT)) := by
    simp only [effX, effGlintNext, ctx_counted, hx, Bool.not_true, Bool.false_eq_true, if_false, endSlot_counted hg,
      holdFor, paceSlot_counted]
    rfl
  refine (h.row_ctx (by simp) (by simp) rfl rfl rfl _ he (regsOf_forSlot _ _) fun x hx => hx.forSlot _ _).mono
    fun t ⟨hregs, hframe, hctx, _⟩ => ⟨hregs, hframe, ?_, by rw [hctx]; rfl, fun hnow => ?_, fun hnow => ?_⟩
  · rw [hctx]
    exact forSlot_slot _ _ _
  · rw [hctx, forSlot_of_coming h.ready hnow]
    exact ⟨rfl, rfl, rfl⟩
  · rw [hctx, forSlot_of_fired _ hnow]
    exact h.ready

variable {p : Nat} (hat : s.pace.reachAt ≠ some s.now)
include hat

theorem slotNow_counted : slotNow (counted u s) u = fld s PACE_SLOT PACE_SLOT_SLOT := by
  unfold slotNow
  rw [sameInstant_counted, decide_eq_false hat, paceSlot_counted]
  rfl

theorem glintAlign_row (hg : ∀ g ∈ s.core.glints, ¬ (g.1 = u ∧ g.2.1 = (ctx s u c).slot + 1))
    (hx : (ctx s u c).paced = true) (h : Lone s u c .X (.glintWaitAlign u p)) : Runs (.glintWaitAlign u p) s fun t =>
      RegsKept s t u c ∧ CoreFrame s t u c [CORE_SKIPPED u] ∧
      (ctx t u c).slot = fld s PACE_SLOT PACE_SLOT_SLOT + 1 ∧ (ctx t u c).st = .waiting ∧
      (ctx t u c).hold = .glint (fld s PACE_SLOT PACE_SLOT_SLOT + 1) ∧ (ctx t u c).pc = (ctx s u c).pc + 1 ∧
      fld t (CORE_SKIPPED u) CORE_SKIPPED_SKIPPED =
        (fld s (CORE_SKIPPED u) CORE_SKIPPED_SKIPPED + (fld s PACE_SLOT PACE_SLOT_SLOT - (ctx s u c).slot)) % 2 ^ 64 := by
  have hne : CORE_SKIPPED u ≠ CORE_BEATS u := by unfold CORE_SKIPPED CORE_BEATS; omega
  have hslot (n : Nat) : fld (bumpFld (counted u s) (CORE_SKIPPED u) CORE_SKIPPED_SKIPPED n) PACE_SLOT PACE_SLOT_SLOT =
      fld s PACE_SLOT PACE_SLOT_SLOT :=
    (fld_setFld_far _ _ _ _ _ _ (pace_ne_core (by unfold CORE_SKIPPED; omega))).trans (paceSlot_counted s u)
  have he : effX (counted u s) u c (.glintWaitAlign u p) (counted u s) =
      updCtx (bumpFld (counted u s) (CORE_SKIPPED u) CORE_SKIPPED_SKIPPED
          (fld s PACE_SLOT PACE_SLOT_SLOT - (ctx s u c).slot)) u c
        (forSlot (fld s PACE_SLOT PACE_SLOT_SLOT + 1) (fld s PACE_SLOT PACE_SLOT_SLOT)) := by
    simp only [effX, effGlintAlign, ctx_counted, hx, Bool.not_true, Bool.false_eq_true, if_false, endSlot_counted hg,
      holdFor, slotNow_counted hat, hslot]
    rfl
  have heff := (ownEffect_counted s u c).bump (CORE_SKIPPED u) CORE_SKIPPED_SKIPPED
    (fld s PACE_SLOT PACE_SLOT_SLOT - (ctx s u c).slot) rfl
  have hctx₀ : ctx (bumpFld (counted u s) (CORE_SKIPPED u) CORE_SKIPPED_SKIPPED
      (fld s PACE_SLOT PACE_SLOT_SLOT - (ctx s u c).slot)) u c = ctx s u c := by
    rw [ctx_bumpFld, ctx_counted]
  refine (h.row_own (by simp) (by simp) rfl rfl rfl _ (by simpa using hne.symm) heff hctx₀ he (regsOf_forSlot _ _)
    fun x hx => hx.forSlot _ _).mono fun t ⟨hregs, hframe, hctx, hcsr⟩ => ?_
  rw [forSlot_of_coming h.ready (Nat.lt_succ_self _)] at hctx
  refine ⟨hregs, hframe, by rw [hctx]; rfl, by rw [hctx]; rfl, by rw [hctx]; rfl, by rw [hctx]; rfl, ?_⟩
  rw [fld_of_csr hcsr, fld_bumpFld _ _ _ _ (by decide), fld_of_rget (rget_counted s hne)]
  rfl

end

end

/-- Settles O23: each wait by what it makes of its context, EVT.SEND by the context it names. -/
theorem eventsAndGlintWaits : Obligations.EventsAndGlintWaits := by
  rintro s u c p k now x rfl rfl
  exact ⟨evtWait_row, evtSend_row, fun i hi h hx => glint_unpaced_row hi h hx,
    fun hat hg hx => ⟨glintNext_row hg hx, glintAlign_row hat hg hx⟩⟩

end Sys2Proof.Machine
end

section
/-!
PROOFS. O26 fails at a state that no run reaches: a waiter that names no sync object, whose count lies over `CORE_EMPTY`.
-/
namespace Sys2Proof.Machine
open Sys2Proof

/-! ### A waiter whose object number lies beyond the objects

`SYNC_CTRL n` of a number that is none of the 65536 objects is the address of some other register. The fault of a context drops
the waiters of its plot and writes the count of each one's object (R357), so that register changes. -/

/-- The object number for which `SYNC_CTRL` is the address of `CORE_EMPTY 3`. -/
def strayObject : Nat := 983810

theorem syncCtrl_strayObject : SYNC_CTRL strayObject = CORE_EMPTY 3 := by decide

/-- Context 1 of unit 3, about to issue an ERET with EIE set (0x0109). -/
def trappedCtx : Ctx := { Ctx.unloaded with st := .ready, pc := 5, eie := true }

/-- A request of another context of the unit, answered to nobody, for the waiter to belong to. -/
def strayRequest : Req :=
  { tag := 5, u := 3, c := 2, pc := 0, op := .lockRel 0, dst := none, pdst := 0, tracked := false, parts := [⟨0, 0, none⟩],
    chan := false, pos := 0, cnt := 0, stamp := 0, orphan := false }

/-- The registers after reset, but for plot 0 over rows 0 to 7 and columns 2 to 9 and for 65536 empty beats of unit 3. -/
def strayRegs : State :=
  let s := setFld (setFld State.reset (PLOT_CFG 0) PLOT_CFG_COL0 2) (PLOT_CFG 0) PLOT_CFG_HEIGHT 8
  setFld (setFld (setFld s (PLOT_CFG 0) PLOT_CFG_WIDTH 8) (PLOT_CFG 0) PLOT_CFG_VALID 1) (CORE_EMPTY 3) CORE_EMPTY_EMPTY 65536

/-- The ERET in slot S of a bundle whose other slots are NOP. -/
def eretBundle : W128 := 0x11800000

/-- The whole state: the context at an ERET alone in its bundle, the request, and the waiter that names no object. -/
def strayState : State :=
  { strayRegs with
    core := { strayRegs.core with
      ctxs := [(ctxKey 3 1, trappedCtx)]
      pstore := [(3 * 2048 + 5, eretBundle)]
      reqs := [strayRequest] }
    sync := { strayRegs.sync with waiters := [{ obj := strayObject, thr := 0, tag := some 5, remote := 0, rtag := 0 }] } }

theorem lone_strayState : Lone strayState 3 1 .S (.eret 3 0) where
  unit := by decide
  context := by decide
  wf := by decide
  ready := by decide
  others := by decide
  noHalt := by decide
  noStep := by decide
  noRepi := by decide
  noLoop := by decide
  noTrap := by decide
  noEpoch := by decide +kernel
  sound := by decide
  inside := by decide
  nops := by
    intro k hk
    cases k with
    | S => exact absurd rfl hk
    | V | M | X => decide +kernel
  holds := by decide +kernel
  nothingDue := by decide
  settled := by decide
  pred _ := by decide

/-- The word of `CORE_EMPTY 3` after a row, where the row is served. -/
def emptyBeatsAfter : Res → Option Nat
  | .next t => some (fld t (CORE_EMPTY 3) CORE_EMPTY_EMPTY)
  | _ => none

theorem emptyBeats_strayState : fld strayState (CORE_EMPTY 3) CORE_EMPTY_EMPTY = 65536 := by decide +kernel

/-- The fault's own count makes 65537; the count of the waiter's object, now 0, then takes bits 31:16 away. -/
theorem emptyBeatsAfter_strayState : emptyBeatsAfter (exec (.emptyBeat 3) strayState) = some 1 := by decide +kernel

/-- Refutes O26: at `strayState` a waiter names object 983810, which does not exist (the objects are 0 to 65535). The ERET
with EIE set faults with 0x0109 as it should, but `CORE_EMPTY 3` goes from 65536 to 1 and not to 65537. No run reaches such a
waiter; the statement does not exclude it. -/
theorem not_checksThatFail : ¬ Obligations.ChecksThatFail := by
  unfold Obligations.ChecksThatFail
  intro h
  obtain ⟨t, ht, -, -, hcount⟩ := h strayState 3 1 0 0 0 0 0 0 0 _ (List.mem_cons_of_mem _ List.mem_cons_self)
    lone_strayState (by decide)
  have hafter := emptyBeatsAfter_strayState
  rw [ht, emptyBeatsAfter, hcount, emptyBeats_strayState] at hafter
  exact absurd hafter (by decide)

end Sys2Proof.Machine
end

section
/-!
PROOFS. The register table over repeated blocks: core pages, queues and plots. A block of `size` bytes that stands `count` times
from `base` on answers for every copy as it does for the first.
-/
namespace Sys2Proof.Machine
open Sys2Proof

/-- The bytes from the first copy of a register to the end of its last. -/
def dimSpan (words : Nat) : List (Nat × Nat) → Nat
  | [] => 8 * words
  | (st, n) :: rest => st * (n - 1) + dimSpan words rest

/-- A register lies outside the blocks from `base` on, or is repeated with them and stays inside its own. -/
def inStep (base size count : Nat) (r : RegDef) : Bool :=
  decide (base + count * size ≤ r.base) || decide (r.base + dimSpan r.words r.dims ≤ base) ||
  match r.dims with
  | (st, n) :: rest => decide (st = size) && decide (count ≤ n) && decide (base ≤ r.base) &&
      decide (r.base - base + dimSpan r.words rest ≤ size)
  | [] => false

/-- The word that a register of these indices has at distance `d` from its base. -/
def wordAt (d words : Nat) (dims : List (Nat × Nat)) : Option Nat :=
  match matchDims d dims with
  | some rem => if rem < 8 * words && rem % 8 = 0 then some (rem / 8) else none
  | none => none

theorem regWord_eq (off : Nat) (r : RegDef) :
    regWord off r = if r.base ≤ off then wordAt (off - r.base) r.words r.dims else none := rfl

theorem wordAt_cons (d words st n : Nat) (rest : List (Nat × Nat)) :
    wordAt d words ((st, n) :: rest) = if d / st < n then wordAt (d % st) words rest else none := by
  unfold wordAt
  rw [matchDims]
  by_cases h : d / st < n
  · rw [if_pos h, if_pos h]
  · rw [if_neg h, if_neg h]

theorem wordAt_beyond {words : Nat} {dims : List (Nat × Nat)} : ∀ {d : Nat}, dimSpan words dims ≤ d → wordAt d words dims = none := by
  induction dims with
  | nil =>
    intro d h
    have hw : ¬ d < 8 * words := Nat.not_lt.mpr h
    simp [wordAt, matchDims, hw]
  | cons e rest ih =>
    obtain ⟨st, n⟩ := e
    intro d h
    rw [wordAt_cons]
    split
    next hlt =>
      have hle : st * (d / st) ≤ st * (n - 1) := Nat.mul_le_mul_left st (Nat.le_sub_one_of_lt hlt)
      have hd := Nat.div_add_mod d st
      have hs : st * (n - 1) + dimSpan words rest ≤ d := h
      exact ih (by omega)
    next => rfl

/-- A register in step with the blocks has the same word at the same place of every block. -/
theorem regWord_inStep {base size count : Nat} {r : RegDef} (h : inStep base size count r = true) {i k : Nat} (hi : i < count)
    (hk : k < size) : regWord (base + i * size + k) r = regWord (base + k) r := by
  have hend : (i + 1) * size ≤ count * size := Nat.mul_le_mul_right size hi
  rw [Nat.add_mul, Nat.one_mul] at hend
  simp only [inStep, Bool.or_eq_true, decide_eq_true_eq] at h
  rw [regWord_eq, regWord_eq]
  rcases h with (habove | hbelow) | hrep
  · rw [if_neg (by omega), if_neg (by omega)]
  · rw [wordAt_beyond (by omega), wordAt_beyond (by omega), ite_self, ite_self]
  · split at hrep
    next st n rest hdims =>
      simp only [Bool.and_eq_true, decide_eq_true_eq] at hrep
      obtain ⟨⟨⟨rfl, hcount⟩, hbase⟩, hspan⟩ := hrep
      obtain ⟨b, hb⟩ := Nat.exists_eq_add_of_le hbase
      rw [hb, Nat.add_sub_cancel_left] at hspan
      rw [hdims, hb]
      have hst : 0 < st := Nat.zero_lt_of_lt hk
      rcases Nat.lt_or_ge k b with hkb | hkb
      · rw [if_neg (show ¬ base + b ≤ base + k by omega)]
        split
        next hge =>
          obtain ⟨j, rfl⟩ := Nat.exists_eq_succ_of_ne_zero (show i ≠ 0 by rintro rfl; omega)
          rw [Nat.succ_eq_add_one] at hge ⊢
          have hd : base + (j + 1) * st + k - (base + b) = st * j + (st + k - b) := by
            rw [Nat.add_mul, Nat.mul_comm j st]; omega
          rw [hd, wordAt_cons, Nat.mul_add_mod, Nat.mod_eq_of_lt (by omega), wordAt_beyond (by omega), ite_self]
        next => rfl
      · have hd : base + i * st + k - (base + b) = st * i + (k - b) := by rw [Nat.mul_comm i st]; omega
        rw [if_pos (by omega), if_pos (by omega), hd, wordAt_cons, wordAt_cons, Nat.mul_add_mod, Nat.mul_add_div hst,
          Nat.div_eq_of_lt (by omega), if_pos (by omega), show base + k - (base + b) = k - b by omega,
          Nat.div_eq_of_lt (by omega), if_pos (by omega)]
    next => exact absurd hrep Bool.false_ne_true

theorem findSome?_congr_mem {α β : Type} {f g : α → Option β} {l : List α} (h : ∀ a ∈ l, f a = g a) :
    l.findSome? f = l.findSome? g := by
  induction l with
  | nil => rfl
  | cons a l ih =>
    rw [List.findSome?_cons, List.findSome?_cons, h a List.mem_cons_self, ih fun b hb => h b (List.mem_cons_of_mem a hb)]

theorem regAt_inStep {base size count : Nat} (h : ∀ r ∈ regTable, inStep base size count r = true) {i k : Nat} (hi : i < count)
    (hk : k < size) : regAt (base + i * size + k) = regAt (base + k) :=
  findSome?_congr_mem fun r hr => by rw [regWord_inStep (h r hr) hi hk]

theorem corePages_inStep : ∀ r ∈ regTable, inStep 0x1000000 0x1000 25600 r = true := by decide +kernel
theorem queues_inStep : ∀ r ∈ regTable, inStep 0x200000 0x40 65536 r = true := by decide +kernel
theorem plots_inStep : ∀ r ∈ regTable, inStep 0x600000 0x400 64 r = true := by decide +kernel

theorem regAt_corePage {u k : Nat} (hu : u < 25600) (hk : k < 0x1000) :
    regAt (0x1000000 + u * 0x1000 + k) = regAt (0x1000000 + k) := regAt_inStep corePages_inStep hu hk

theorem regAt_queue {q k : Nat} (hq : q < 65536) (hk : k < 0x40) :
    regAt (0x200000 + q * 0x40 + k) = regAt (0x200000 + k) := regAt_inStep queues_inStep hq hk

theorem regAt_plot {p k : Nat} (hp : p < 64) (hk : k < 0x400) :
    regAt (0x600000 + p * 0x400 + k) = regAt (0x600000 + k) := regAt_inStep plots_inStep hp hk

/-! ### The registers that the reset of a plot turns on -/

theorem regAt_coreCfg {u : Nat} (hu : u < 25600) : regAt (CORE_CFG u) = regAt (CORE_CFG 0) := by
  rw [show CORE_CFG u = 0x1000000 + u * 0x1000 + 8 by unfold CORE_CFG; omega]
  exact regAt_corePage hu (by decide)

theorem regAt_ctxEntry {u c : Nat} (hu : u < 25600) (hc : c < 8) : regAt (CTX_ENTRY u c) = regAt (CTX_ENTRY 0 c) := by
  rw [show CTX_ENTRY u c = 0x1000000 + u * 0x1000 + (0x140 + c * 0x80) by unfold CTX_ENTRY; omega,
    show CTX_ENTRY 0 c = 0x1000000 + (0x140 + c * 0x80) by unfold CTX_ENTRY; omega]
  exact regAt_corePage hu (by omega)

theorem regAt_qCfg {q : Nat} (hq : q < 65536) : regAt (Q_CFG q) = regAt (Q_CFG 0) := by
  rw [show Q_CFG q = 0x200000 + q * 0x40 + 0x10 by unfold Q_CFG; omega]
  exact regAt_queue hq (by decide)

theorem regAt_plotCfg {p : Nat} (hp : p < 64) : regAt (PLOT_CFG p) = regAt (PLOT_CFG 0) :=
  regAt_plot hp (k := 0) (by decide)

theorem resetWord_of_regAt {a b : Nat} (h : regAt a = regAt b) : resetWord a = resetWord b := by
  unfold resetWord
  rw [h]

theorem domainAt_of_regAt {a b : Nat} (h : regAt a = regAt b) : domainAt a = domainAt b := by
  unfold domainAt
  rw [h]

theorem resetWord_coreCfg {u : Nat} (hu : u < 25600) : resetWord (CORE_CFG u) = 0 :=
  (resetWord_of_regAt (regAt_coreCfg hu)).trans (by decide)

theorem resetWord_qCfg {q : Nat} (hq : q < 65536) : resetWord (Q_CFG q) = 0 :=
  (resetWord_of_regAt (regAt_qCfg hq)).trans (by decide)

theorem domainAt_coreCfg {u : Nat} (hu : u < 25600) : domainAt (CORE_CFG u) = some .device :=
  (domainAt_of_regAt (regAt_coreCfg hu)).trans (by decide)

theorem domainAt_ctxEntry {u c : Nat} (hu : u < 25600) (hc : c < 8) : domainAt (CTX_ENTRY u c) = some .device := by
  have first : ∀ d : Fin 8, domainAt (CTX_ENTRY 0 d) = some .device := by decide
  exact (domainAt_of_regAt (regAt_ctxEntry hu hc)).trans (first ⟨c, hc⟩)

theorem domainAt_plotCfg {p : Nat} (hp : p < 64) : domainAt (PLOT_CFG p) = some .device :=
  (domainAt_of_regAt (regAt_plotCfg hp)).trans (by decide)

end Sys2Proof.Machine
end


section
/-!
PROOFS. The reset of a plot (R90): what clearing its cores leaves alone, the contexts it sets afresh, and its start (R91).
-/
namespace Sys2Proof.Machine
open Sys2Proof

theorem foldl_keeps_mem {α β γ : Type} (π : α → β) (f : α → γ → α) {l : List γ} (h : ∀ a, ∀ x ∈ l, π (f a x) = π a) (a : α) :
    π (l.foldl f a) = π a := by
  induction l generalizing a with
  | nil => rfl
  | cons x l ih =>
    rw [List.foldl_cons, ih fun b y hy => h b y (List.mem_cons_of_mem x hy)]
    exact h a x List.mem_cons_self

/-! ### What clearing a plot leaves alone -/

/-- What the reset of plot `p` starts from and clearing its cores leaves alone: its rectangle, the entry indices and enabled
contexts of the cores, the contexts, the memories, the waiting commands and the placement of the cores. -/
structure PlotSeat where
  cfg     : W64
  entry   : Nat → Nat → W64
  enabled : Nat → Nat
  ctxs    : NMap Ctx
  mem     : MemSt
  queue   : List Instr
  avl     : AvlSt

def plotSeat (p : Nat) (s : State) : PlotSeat :=
  { cfg := rget s (PLOT_CFG p)
    entry := fun u c => rget s (CTX_ENTRY u (c % 8))
    enabled := fun u => fld s (CORE_CFG u) CORE_CFG_CTX_EN
    ctxs := s.core.ctxs
    mem := s.mem
    queue := s.pending
    avl := s.avl }

section
variable {p : Nat}

theorem plotSeat_of_regs {s t : State} (hcfg : rget t (PLOT_CFG p) = rget s (PLOT_CFG p))
    (hentry : ∀ u c, rget t (CTX_ENTRY u (c % 8)) = rget s (CTX_ENTRY u (c % 8)))
    (hen : ∀ u, fld t (CORE_CFG u) CORE_CFG_CTX_EN = fld s (CORE_CFG u) CORE_CFG_CTX_EN) (hctx : t.core.ctxs = s.core.ctxs)
    (hmem : t.mem = s.mem) (hqueue : t.pending = s.pending) (havl : t.avl = s.avl) : plotSeat p t = plotSeat p s := by
  simp only [plotSeat, hcfg, hentry, hen, hctx, hmem, hqueue, havl]

/-- The seat is a matter of registers, contexts, memories, waiting commands and placement. -/
theorem plotSeat_of_parts {s t : State} (hcsr : t.csr = s.csr) (hctx : t.core.ctxs = s.core.ctxs) (hmem : t.mem = s.mem)
    (hqueue : t.pending = s.pending) (havl : t.avl = s.avl) : plotSeat p t = plotSeat p s :=
  plotSeat_of_regs (rget_of_csr hcsr _) (fun _ _ => rget_of_csr hcsr _) (fun _ => fld_of_csr hcsr _ _) hctx hmem hqueue havl

theorem plotSeat_strm (s : State) (x : StrmSt) : plotSeat p { s with strm := x } = plotSeat p s :=
  plotSeat_of_parts rfl rfl rfl rfl rfl
theorem plotSeat_emit (o : Output) (s : State) : plotSeat p (emit o s) = plotSeat p s :=
  plotSeat_of_parts rfl rfl rfl rfl rfl
theorem plotSeat_reqs (s : State) (l : List Req) : plotSeat p { s with core := { s.core with reqs := l } } = plotSeat p s :=
  plotSeat_of_parts rfl rfl rfl rfl rfl

theorem plotSeat_rset (s : State) {o : Nat} (v : W64) (hcfg : PLOT_CFG p ≠ o) (hentry : ∀ u c, CTX_ENTRY u (c % 8) ≠ o)
    (hen : ∀ u, CORE_CFG u ≠ o) : plotSeat p (rset s o v) = plotSeat p s := by
  have word (k : Nat) (hk : k ≠ o) : rget (rset s o v) k = rget s k := (rget_rset _ _ _ _).trans (if_neg hk)
  exact plotSeat_of_regs (word _ hcfg) (fun u c => word _ (hentry u c)) (fun u => fld_of_rget (word _ (hen u)))
    (congrArg CoreSt.ctxs (rset_core s o v)) (rset_mem s o v) (rset_pending s o v) (rset_avl s o v)

/-- Of the registers below the core pages, `PLOT_CFG` alone is among those seen. -/
theorem plotSeat_setFld_low (s : State) {r : Nat} {f : Fld} (x : Nat) (hf : f.word = 0) (h : r < 0x1000000)
    (hcfg : PLOT_CFG p ≠ r) : plotSeat p (setFld s r f x) = plotSeat p s :=
  plotSeat_rset s _ (by omega) (fun u c => by unfold CTX_ENTRY; omega) fun u => by unfold CORE_CFG; omega

/-- The count of a waiter's object: a number that names no object may lie over `CORE_CFG`, beside CTX_EN. -/
theorem plotSeat_syncCount (i : Nat) (s : State) : plotSeat p (syncCount i s) = plotSeat p s := by
  have word (k : Nat) (hk : k ≠ SYNC_CTRL i) : rget (syncCount i s) k = rget s k := rget_setFld_other _ _ _ _ _ hk
  refine plotSeat_of_regs (word _ ?_) (fun u c => word _ ?_) (fun u => ?_)
    (congrArg CoreSt.ctxs (setFld_core s _ _ _)) (setFld_mem s _ _ _) (setFld_pending s _ _ _) (setFld_avl s _ _ _)
  · unfold PLOT_CFG SYNC_CTRL; omega
  · unfold CTX_ENTRY SYNC_CTRL; omega
  · by_cases h : CORE_CFG u = SYNC_CTRL i
    · rw [h]
      exact fld_setFld_other _ _ _ _ _ (by decide) rfl (by decide)
    · exact fld_setFld_far _ _ _ _ _ _ h

theorem plotSeat_dropWaiters (f : Req → Bool) (s : State) : plotSeat p (dropWaiters f s) = plotSeat p s :=
  (foldl_keeps (plotSeat p) (fun t i => syncCount i t) (fun t i => plotSeat_syncCount i t) _ _).trans
    (foldl_keeps (plotSeat p) (fun t (e : Nat × Nat) => emit (.remoteWithdraw e.1 e.2) t) (fun t _ => plotSeat_emit _ t) _ _)

theorem plotSeat_banksBack (u who : Nat) (s : State) : plotSeat p (banksBack u who s) = plotSeat p s := by
  unfold banksBack
  refine foldl_keeps_mem (plotSeat p) _ (fun t b hb => ?_) s
  have hb16 : b < 16 := List.mem_range.mp hb
  split
  · exact plotSeat_rset t 0 (by unfold PLOT_CFG BANK_OWNER; omega) (fun v c => by unfold CTX_ENTRY BANK_OWNER; omega)
      fun v => by unfold CORE_CFG BANK_OWNER; omega
  · rfl

theorem plotSeat_closeChan (u ch : Nat) (s : State) : plotSeat p (closeChan u ch s) = plotSeat p s := by
  unfold closeChan
  dsimp only
  split
  · rfl
  · rw [setChan, plotSeat_strm]
    split
    · rw [plotSeat_banksBack, orphanWhere, plotSeat_reqs]
    · rw [poolReturn, plotSeat_strm, plotSeat_banksBack, orphanWhere, plotSeat_reqs]

theorem plotSeat_closeChans (f : Nat → Bool) (s : State) : plotSeat p (closeChans f s) = plotSeat p s :=
  foldl_keeps (plotSeat p) _ (fun t _ => plotSeat_closeChan _ _ t) _ _

theorem plotSeat_dropTokens (f : Nat → Bool) (s : State) : plotSeat p (dropTokens f s) = plotSeat p s := by
  unfold dropTokens dropBranches
  refine (foldl_keeps (plotSeat p) _ (fun t k => ?_) _ _).trans (plotSeat_strm _ _)
  rw [poolReturn, plotSeat_strm, plotSeat_strm]

theorem plotSeat_gwAfresh (mine : Nat → Bool) (s : State) : plotSeat p (gwAfresh mine s) = plotSeat p s :=
  plotSeat_of_parts rfl rfl rfl rfl rfl

/-- Registers that only a device reset touches stay through a plot reset. -/
theorem rget_resetRegs_device {o : Nat} (h : domainAt o = some .device) (f : Nat → Bool) (s : State) :
    rget (resetRegs [.plot] f s) o = rget s o := by
  rw [rget_resetRegs, h]
  exact if_neg (by simp)

theorem rget_resetRegs_outside {o : Nat} {f : Nat → Bool} (h : f o = false) (s : State) :
    rget (resetRegs [.plot] f s) o = rget s o := by
  rw [rget_resetRegs, h]
  exact if_neg (by simp)

/-- The registers whose plot domain the reset of plot `p` resets: the pages of the cores `mine` and the block of the plot. -/
def plotRegs (p : Nat) (mine : Nat → Bool) (o : Nat) : Bool :=
  (decide (0x1000000 ≤ o) && mine ((o - 0x1000000) / 0x1000)) || decide (PLOT_CFG p ≤ o ∧ o < PLOT_CFG p + 0x400)

theorem plotRegs_page {mine : Nat → Bool} (hp : p < 64) {u k : Nat} (hk : k < 0x1000) :
    plotRegs p mine (0x1000000 + u * 0x1000 + k) = mine u := by
  have hpage : (0x1000000 + u * 0x1000 + k - 0x1000000) / 0x1000 = u := by omega
  have hplot : ¬ (PLOT_CFG p ≤ 0x1000000 + u * 0x1000 + k ∧ 0x1000000 + u * 0x1000 + k < PLOT_CFG p + 0x400) := by
    unfold PLOT_CFG; omega
  have hlow : 0x1000000 ≤ 0x1000000 + u * 0x1000 + k := by omega
  simp [plotRegs, hpage, hplot, hlow]

theorem plotSeat_resetRegs (hp : p < 64) {mine : Nat → Bool} (hmine : ∀ u, mine u = true → u < 25600) (s : State) :
    plotSeat p (resetRegs [.plot] (plotRegs p mine) s) = plotSeat p s := by
  have page (u k : Nat) (hk : k < 0x1000) (hd : u < 25600 → domainAt (0x1000000 + u * 0x1000 + k) = some .device) :
      rget (resetRegs [.plot] (plotRegs p mine) s) (0x1000000 + u * 0x1000 + k) = rget s (0x1000000 + u * 0x1000 + k) := by
    cases hm : mine u with
    | false => exact rget_resetRegs_outside ((plotRegs_page hp hk).trans hm) s
    | true => exact rget_resetRegs_device (hd (hmine u hm)) _ s
  refine plotSeat_of_regs (rget_resetRegs_device (domainAt_plotCfg hp) _ s) (fun u c => ?_) (fun u => fld_of_rget ?_)
    rfl rfl rfl rfl
  · have hc : c % 8 < 8 := Nat.mod_lt _ (by decide)
    have h := page u (0x140 + c % 8 * 0x80) (by omega)
    rw [show 0x1000000 + u * 0x1000 + (0x140 + c % 8 * 0x80) = CTX_ENTRY u (c % 8) by unfold CTX_ENTRY; omega] at h
    exact h fun hu => domainAt_ctxEntry hu hc
  · have h := page u 8 (by decide)
    rw [show 0x1000000 + u * 0x1000 + 8 = CORE_CFG u by unfold CORE_CFG; omega] at h
    exact h domainAt_coreCfg

/-! ### Listed registers -/

theorem lt_of_mem_listedRegs {s : State} {base step n k i : Nat} (h : i ∈ listedRegs s base step n k) : i < n := by
  obtain ⟨o, -, ho⟩ := List.mem_filterMap.mp h
  split at ho
  next hc =>
    simp only [Bool.and_eq_true, decide_eq_true_eq] at hc
    cases ho
    exact hc.2
  next => exact absurd ho (by simp)

theorem mem_listedRegs {s : State} {base step n k i : Nat} (hi : i < n) (hk : k < step)
    (ho : base + i * step + k ∈ mkeys s.csr) : i ∈ listedRegs s base step n k := by
  refine List.mem_filterMap.mpr ⟨_, ho, ?_⟩
  have hsub : base + i * step + k - base = k + step * i := by rw [Nat.mul_comm]; omega
  have hdiv : (k + step * i) / step = i := by
    rw [Nat.add_mul_div_left _ _ (by omega), Nat.div_eq_of_lt hk, Nat.zero_add]
  rw [hsub, hdiv, Nat.add_mul_mod_self_left, Nat.mod_eq_of_lt hk]
  exact if_pos (by simp [hi]; omega)

theorem mem_mkeys_of_rget {s : State} {o : Nat} (h : rget s o ≠ resetWord o) : o ∈ mkeys s.csr := by
  by_contra hn
  refine h ?_
  have none : ∀ (m : NMap W64), o ∉ mkeys m → mget (resetWord o) m o = resetWord o := by
    intro m hm
    induction m with
    | nil => rfl
    | cons e m ih =>
      obtain ⟨k, v⟩ := e
      simp only [mkeys, List.map_cons, List.mem_cons, not_or] at hm
      exact (if_neg (Ne.symm hm.1)).trans (ih hm.2)
  exact none _ hn

theorem lt_of_mem_objectsOf {s : State} {i : Nat} (h : i ∈ objectsOf s p) : i < 65536 :=
  lt_of_mem_listedRegs (List.mem_of_mem_filter h)

theorem lt_of_mem_queuesOf {s : State} {q : Nat} (h : q ∈ queuesOf s p) : q < 65536 :=
  lt_of_mem_listedRegs (List.mem_of_mem_filter h)

theorem lt_of_mem_locksOf {s : State} {f : Nat → Bool} {i : Nat} (h : i ∈ locksOf s f) : i < 256 :=
  lt_of_mem_listedRegs (List.mem_of_mem_filter h)

/-! ### Clearing -/

theorem plotSeat_objects (s t : State) (x : Nat) :
    plotSeat p ((objectsOf s p).foldl (fun a i => setFld a (SYNC_CTRL i) SYNC_CTRL_ABANDONED x) t) = plotSeat p t :=
  foldl_keeps_mem (plotSeat p) _ (fun a i hi => by
    have hlt := lt_of_mem_objectsOf hi
    exact plotSeat_setFld_low a x rfl (by unfold SYNC_CTRL; omega)
      (by unfold PLOT_CFG SYNC_CTRL; omega)) t

theorem plotSeat_queues (s t : State) (a b : Nat) :
    plotSeat p ((queuesOf s p).foldl (fun s q =>
      if fld s (Q_CFG q) Q_CFG_STATE = a then setFld s (Q_CFG q) Q_CFG_STATE b else s) t) = plotSeat p t :=
  foldl_keeps_mem (plotSeat p) _ (fun s q hq => by
    have hlt := lt_of_mem_queuesOf hq
    split
    · exact plotSeat_setFld_low s b rfl (by unfold Q_CFG; omega) (by unfold PLOT_CFG Q_CFG; omega)
    · rfl) t

theorem plotSeat_locks (f : Nat → Bool) (s t : State) :
    plotSeat p ((locksOf s f).foldl (fun s i => rset s (LOCK i) 0) t) = plotSeat p t :=
  foldl_keeps_mem (plotSeat p) _ (fun s i hi => by
    have hlt := lt_of_mem_locksOf hi
    exact plotSeat_rset s 0 (by unfold PLOT_CFG LOCK; omega) (fun u c => by unfold CTX_ENTRY LOCK; omega)
      fun u => by unfold CORE_CFG LOCK; omega) t

theorem plotSeat_status (hp : p < 64) (s : State) {f : Fld} (hf : f.word = 0) (x : Nat) :
    plotSeat p (setFld s (PLOT_STATUS p) f x) = plotSeat p s :=
  plotSeat_setFld_low s x hf (by unfold PLOT_STATUS; omega) (by unfold PLOT_CFG PLOT_STATUS; omega)

/-- Accesses, waits, channels and tokens of the cores `mine` end. -/
def dropPlot (mine : Nat → Bool) (s : State) : State :=
  gwAfresh mine (dropTokens mine (dropOwn mine (orphanWhere (fun q => mine q.u) (closeChans mine
    (dropWaiters (fun q => !q.chan && mine q.u) s)))))

/-- Engines, vector results, Glints and channels of the cores `mine` are as after reset. -/
def bareCores (mine : Nat → Bool) (s : State) : State :=
  { s with
    core := { s.core with
      engines := mkeep (fun k => !mine (k / 2)) s.core.engines
      vecs := s.core.vecs.filter (fun v => !mine v.u)
      vecFirst := mkeep (fun k => !mine k) s.core.vecFirst
      glints := s.core.glints.filter (fun g => !mine g.1) }
    strm := { s.strm with
      chans := mkeep (fun k => !mine (k / 4)) s.strm.chans
      fwd := mkeep (fun k => !mine (k / 4096 / 8)) s.strm.fwd
      lagging := mkeep (fun k => !mine (k / 4096)) s.strm.lagging } }

/-- Objects, queues and locks of plot `p` come back. -/
def returnPlot (p : Nat) (s : State) : State :=
  let s := (objectsOf s p).foldl (fun s i => setFld s (SYNC_CTRL i) SYNC_CTRL_ABANDONED 0) s
  let s := (queuesOf s p).foldl (fun s q =>
    if fld s (Q_CFG q) Q_CFG_STATE = 2 then setFld s (Q_CFG q) Q_CFG_STATE 1 else s) s
  (locksOf s (srcInPlot s p)).foldl (fun s i => rset s (LOCK i) 0) s

theorem clearPlot_eq (p : Nat) (s : State) : clearPlot p s =
    setFld (returnPlot p (resetRegs [.plot] (plotRegs p (unitIn s p)) (bareCores (unitIn s p) (dropPlot (unitIn s p) s))))
      (PLOT_STATUS p) PLOT_STATUS_FENCED 0 := by
  unfold clearPlot returnPlot bareCores dropPlot plotRegs
  with_reducible rfl

theorem plotSeat_dropPlot (mine : Nat → Bool) (s : State) : plotSeat p (dropPlot mine s) = plotSeat p s := by
  rw [dropPlot, plotSeat_gwAfresh, plotSeat_dropTokens, dropOwn, plotSeat_reqs, orphanWhere, plotSeat_reqs,
    plotSeat_closeChans, plotSeat_dropWaiters]

theorem plotSeat_bareCores (mine : Nat → Bool) (s : State) : plotSeat p (bareCores mine s) = plotSeat p s :=
  plotSeat_of_parts rfl rfl rfl rfl rfl

theorem plotSeat_returnPlot (s : State) : plotSeat p (returnPlot p s) = plotSeat p s := by
  unfold returnPlot
  extract_lets s₁ s₂
  exact (plotSeat_locks _ _ s₂).trans ((plotSeat_queues _ s₁ _ _).trans (plotSeat_objects _ s _))

theorem lt_of_unitIn {s : State} {u : Nat} (h : unitIn s p u = true) : u < 25600 := by
  simp only [unitIn, Bool.and_eq_true, decide_eq_true_eq] at h
  exact h.1

theorem plotSeat_clearPlot (hp : p < 64) (s : State) : plotSeat p (clearPlot p s) = plotSeat p s := by
  rw [clearPlot_eq, plotSeat_status hp _ rfl, plotSeat_returnPlot, plotSeat_resetRegs hp fun _ => lt_of_unitIn,
    plotSeat_bareCores, plotSeat_dropPlot]

/-- What the registers that come back leave alone. -/
def coresAndStreams (s : State) : CoreSt × StrmSt := (s.core, s.strm)

theorem coresAndStreams_setFld (s : State) (r : Nat) (f : Fld) (x : Nat) :
    coresAndStreams (setFld s r f x) = coresAndStreams s := by simp only [coresAndStreams, setFld_core, setFld_strm]

theorem coresAndStreams_rset (s : State) (o : Nat) (v : W64) :
    coresAndStreams (rset s o v) = coresAndStreams s := by simp only [coresAndStreams, rset_core, rset_strm]

theorem coresAndStreams_resetRegs (ds : List Domain) (f : Nat → Bool) (s : State) :
    coresAndStreams (resetRegs ds f s) = coresAndStreams s := by simp only [coresAndStreams, resetRegs_core, resetRegs_strm]

theorem coresAndStreams_returnPlot (s : State) : coresAndStreams (returnPlot p s) = coresAndStreams s := by
  unfold returnPlot
  extract_lets s₁ s₂
  have h₁ : coresAndStreams s₁ = coresAndStreams s :=
    foldl_keeps coresAndStreams _ (fun t i => coresAndStreams_setFld t _ _ _) _ s
  have h₂ : coresAndStreams s₂ = coresAndStreams s₁ := foldl_keeps coresAndStreams _ (fun t q => by
    split
    · exact coresAndStreams_setFld t _ _ _
    · rfl) _ s₁
  exact (foldl_keeps coresAndStreams _ (fun t i => coresAndStreams_rset t _ _) _ s₂).trans (h₂.trans h₁)

theorem coresAndStreams_clearPlot (s : State) :
    coresAndStreams (clearPlot p s) = coresAndStreams (bareCores (unitIn s p) (dropPlot (unitIn s p) s)) := by
  rw [clearPlot_eq, coresAndStreams_setFld, coresAndStreams_returnPlot, coresAndStreams_resetRegs]

theorem engines_bareCores {mine : Nat → Bool} {u e : Nat} (hu : mine u = true) (he : e < 2) (s : State) :
    mget [] (bareCores mine s).core.engines (u * 2 + e) = [] := by
  have hk : (u * 2 + e) / 2 = u := by omega
  rw [bareCores, mget_mkeep, hk, hu]
  rfl

theorem chan_bareCores {mine : Nat → Bool} {u ch : Nat} (hu : mine u = true) (hch : ch < 4) (s : State) :
    chan (bareCores mine s) u ch = Chan.closed := by
  have hk : chanKey u ch / 4 = u := by unfold chanKey; omega
  rw [chan, bareCores, mget_mkeep, hk, hu]
  rfl

theorem engines_clearPlot (s : State) {u e : Nat} (hu : unitIn s p u = true) (he : e < 2) :
    mget [] (clearPlot p s).core.engines (u * 2 + e) = [] := by
  obtain ⟨hcore, -⟩ := Prod.mk.inj (coresAndStreams_clearPlot (p := p) s)
  rw [hcore]
  exact engines_bareCores hu he _

theorem chan_clearPlot (s : State) {u ch : Nat} (hu : unitIn s p u = true) (hch : ch < 4) :
    chan (clearPlot p s) u ch = Chan.closed := by
  obtain ⟨-, hstrm⟩ := Prod.mk.inj (coresAndStreams_clearPlot (p := p) s)
  rw [chan, hstrm]
  exact chan_bareCores hu hch _

theorem chan_of_strm {s t : State} (h : t.strm = s.strm) (u ch : Nat) : chan t u ch = chan s u ch := by rw [chan, h, chan]

theorem ctx_of_core {s t : State} (h : t.core = s.core) (u c : Nat) : ctx t u c = ctx s u c := by rw [ctx, h, ctx]

/-! ### What the seat says -/

/-- The units of a plot are a matter of `PLOT_CFG`. -/
theorem unitIn_of_rget {s t : State} (h : rget t (PLOT_CFG p) = rget s (PLOT_CFG p)) : unitIn t p = unitIn s p := by
  have field (f : Fld) (hf : f.word = 0) : fld t (PLOT_CFG p) f = fld s (PLOT_CFG p) f := fld_of_rget (by rw [hf]; exact h)
  funext u
  simp only [unitIn, inPlot, plotValid, inRect, flag, field PLOT_CFG_VALID rfl, field PLOT_CFG_ROW0 rfl,
    field PLOT_CFG_HEIGHT rfl, field PLOT_CFG_COL0 rfl, field PLOT_CFG_WIDTH rfl]

section
variable {s t : State} (h : plotSeat p t = plotSeat p s)
include h

theorem unitIn_of_plotSeat : unitIn t p = unitIn s p := unitIn_of_rget (congrArg PlotSeat.cfg h)

theorem mem_of_plotSeat : t.mem = s.mem := congrArg PlotSeat.mem h
theorem queue_of_plotSeat : t.pending = s.pending := congrArg PlotSeat.queue h

theorem entryOf_of_plotSeat {u c : Nat} (hc : c < 8) : entryOf t u c = entryOf s u c := by
  have hentry : rget t (CTX_ENTRY u (c % 8)) = rget s (CTX_ENTRY u (c % 8)) := congrFun (congrFun (congrArg PlotSeat.entry h) u) c
  rw [Nat.mod_eq_of_lt hc] at hentry
  exact fld_of_rget hentry

theorem ctxEnabled_of_plotSeat (u c : Nat) : ctxEnabled t u c = ctxEnabled s u c :=
  congrArg (fun n => Nat.testBit n c) (congrFun (congrArg PlotSeat.enabled h) u)

theorem absentCore_of_plotSeat (u : Nat) : absentCore t u = absentCore s u := by
  have havl : t.avl = s.avl := congrArg PlotSeat.avl h
  simp only [absentCore, spareOf, havl]

theorem ctx_of_plotSeat (u c : Nat) : ctx t u c = ctx s u c :=
  congrArg (fun m => mget Ctx.unloaded m (ctxKey u c)) (congrArg PlotSeat.ctxs h)

end

/-! ### Fresh contexts -/

/-- A core with an enabled context is listed: the reset value of `CORE_CFG` enables none. -/
theorem mem_loadedUnits {s : State} {u c : Nat} (hu : unitIn s p u = true) (hen : ctxEnabled s u c = true) :
    u ∈ loadedUnits s p := by
  have hword : rget s (CORE_CFG u) ≠ resetWord (CORE_CFG u) := by
    rw [resetWord_coreCfg (lt_of_unitIn hu)]
    intro h0
    simp [ctxEnabled, fld, CORE_CFG_CTX_EN, h0, fget, bitsOf] at hen
  refine List.mem_filterMap.mpr ⟨_, mem_mkeys_of_rget hword, ?_⟩
  have hmod : (CORE_CFG u - 0x1000000) % 0x1000 = 8 := by unfold CORE_CFG; omega
  have hdiv : (CORE_CFG u - 0x1000000) / 0x1000 = u := by unfold CORE_CFG; omega
  have hlow : 0x1000000 ≤ CORE_CFG u := by unfold CORE_CFG; omega
  rw [hmod, hdiv, hu]
  exact if_pos (by simp [hlow])

theorem unitIn_of_loaded {s : State} {u : Nat} (h : u ∈ loadedUnits s p) : unitIn s p u = true := by
  obtain ⟨o, -, ho⟩ := List.mem_filterMap.mp h
  split at ho
  next hc =>
    simp only [Bool.and_eq_true] at hc
    cases ho
    exact hc.2
  next => exact absurd ho (by simp)

/-- Contexts `cs` of unit `u` that are enabled in `s` start afresh. -/
def freshUnit (s : State) (st : CtxSt) (cause u : Nat) (cs : List Nat) (t : State) : State :=
  cs.foldl (fun t c => if ctxEnabled s u c then setCtx t u c (freshCtx s u c st cause) else t) t

theorem ctx_freshUnit (s : State) (st : CtxSt) (cause u : Nat) {cs : List Nat} (hcs : ∀ c ∈ cs, c < 8) (t : State) {w d : Nat}
    (hd : d < 8) : ctx (freshUnit s st cause u cs t) w d =
      if (w = u ∧ d ∈ cs) ∧ ctxEnabled s w d = true then freshCtx s w d st cause else ctx t w d := by
  induction cs generalizing t with
  | nil => simp [freshUnit]
  | cons c cs ih =>
    have hc : c < 8 := hcs c List.mem_cons_self
    rw [show freshUnit s st cause u (c :: cs) t = freshUnit s st cause u cs
      (if ctxEnabled s u c then setCtx t u c (freshCtx s u c st cause) else t) from rfl,
      ih fun x hx => hcs x (List.mem_cons_of_mem c hx)]
    by_cases hw : w = u ∧ d = c
    · obtain ⟨rfl, rfl⟩ := hw
      cases hen : ctxEnabled s w d <;> simp
    · have hkey : ctxKey w d ≠ ctxKey u c := fun h => hw ((ctxKey_inj hd hc).mp h)
      have hkeep : ctx (if ctxEnabled s u c = true then setCtx t u c (freshCtx s u c st cause) else t) w d = ctx t w d := by
        split
        · rw [ctx_setCtx, if_neg hkey]
        · rfl
      have hmem : (w = u ∧ d ∈ c :: cs) ↔ (w = u ∧ d ∈ cs) := by
        simp only [List.mem_cons]
        tauto
      simp only [hkeep, hmem]

theorem ctx_freshUnits (s : State) (st : CtxSt) (cause : Nat) (us : List Nat) (t : State) {w d : Nat} (hd : d < 8) :
    ctx (us.foldl (fun t u => freshUnit s st cause u (List.range 8) t) t) w d =
      if w ∈ us ∧ ctxEnabled s w d = true then freshCtx s w d st cause else ctx t w d := by
  induction us generalizing t with
  | nil => simp
  | cons u us ih =>
    rw [List.foldl_cons, ih, ctx_freshUnit s st cause u (fun c hc => List.mem_range.mp hc) t hd]
    by_cases hw : w = u <;> cases hen : ctxEnabled s w d <;> simp [hw, hd]

/-- The contexts of the plot's cores after a reset (R90, R93); the others stay. -/
theorem ctx_freshCtxs (st : CtxSt) (cause : Nat) (s : State) {w d : Nat} (hd : d < 8) : ctx (freshCtxs p st cause s) w d =
    if unitIn s p w = true then
      if absentCore s w = false ∧ ctxEnabled s w d = true then freshCtx s w d st cause else Ctx.unloaded
    else ctx s w d := by
  have hstart : ctx { s with core := { s.core with
      ctxs := mkeep (fun k => !unitIn s p (k / 8)) s.core.ctxs
      last := mkeep (fun k => !unitIn s p k) s.core.last } } w d = if unitIn s p w = true then Ctx.unloaded else ctx s w d := by
    have hk : ctxKey w d / 8 = w := by unfold ctxKey; omega
    rw [ctx, mget_mkeep, hk]
    cases unitIn s p w <;> rfl
  refine (ctx_freshUnits s st cause _ _ hd).trans ?_
  rw [hstart]
  have hus : (w ∈ (loadedUnits s p).filter (fun u => !absentCore s u) ∧ ctxEnabled s w d = true) ↔
      (unitIn s p w = true ∧ absentCore s w = false ∧ ctxEnabled s w d = true) := by
    rw [List.mem_filter, Bool.not_eq_true']
    refine ⟨fun ⟨⟨hw, ha⟩, hen⟩ => ⟨unitIn_of_loaded hw, ha, hen⟩, fun ⟨hu, ha, hen⟩ => ⟨⟨mem_loadedUnits hu hen, ha⟩, hen⟩⟩
  simp only [hus]
  split <;> split <;> simp_all

/-- What the contexts that start afresh leave alone: all but them and the order of issue. -/
def besideCtxs (s : State) : State := { s with core := { s.core with ctxs := [], last := [] } }

theorem parts_of_besideCtxs {s t : State} (h : besideCtxs t = besideCtxs s) :
    t.csr = s.csr ∧ t.mem = s.mem ∧ t.pending = s.pending ∧ t.strm = s.strm ∧ t.core.engines = s.core.engines := by
  have part {α : Type} (g : State → α) : g (besideCtxs t) = g (besideCtxs s) := congrArg g h
  exact ⟨part State.csr, part State.mem, part State.pending, part State.strm, part fun v => v.core.engines⟩

theorem besideCtxs_freshUnit (s : State) (st : CtxSt) (cause u : Nat) (cs : List Nat) (t : State) :
    besideCtxs (freshUnit s st cause u cs t) = besideCtxs t :=
  foldl_keeps besideCtxs _ (fun t c => by split <;> rfl) cs t

theorem besideCtxs_freshCtxs (st : CtxSt) (cause : Nat) (s : State) : besideCtxs (freshCtxs p st cause s) = besideCtxs s := by
  unfold freshCtxs
  exact (foldl_keeps besideCtxs _ (fun t u => besideCtxs_freshUnit s st cause u _ t) _ _).trans rfl

/-! ### Reset and start -/

/-- What the reset of plot `p` makes of the state (R90). -/
structure PlotResetTo (p : Nat) (s t : State) : Prop where
  mem     : t.mem = s.mem
  queue   : t.pending = s.pending
  units   : unitIn t p = unitIn s p
  state   : fld t (PLOT_STATUS p) PLOT_STATUS_STATE = 5
  fenced  : fld t (PLOT_STATUS p) PLOT_STATUS_FENCED = 0
  engines : ∀ u e, unitIn s p u = true → e < 2 → mget [] t.core.engines (u * 2 + e) = []
  chans   : ∀ u ch, unitIn s p u = true → ch < 4 → chan t u ch = Chan.closed
  ctxs    : ∀ u c, c < 8 → ctx t u c = if unitIn s p u = true then
    if absentCore s u = false ∧ ctxEnabled s u c = true then freshCtx s u c .halted 5 else Ctx.unloaded else ctx s u c

theorem PlotResetTo.of_tokenKept {s t v : State} (h : PlotResetTo p s t) (hv : tokenKept v = tokenKept t) :
    PlotResetTo p s v := by
  have part {α : Type} (g : State → α) : g (tokenKept v) = g (tokenKept t) := congrArg g hv
  have hcsr : v.csr = t.csr := part State.csr
  have hcore : v.core = t.core := part State.core
  have hstrm : v.strm = t.strm := part State.strm
  refine ⟨(part State.mem).trans h.mem, (part State.pending).trans h.queue, ?_, (fld_of_csr hcsr _ _).trans h.state,
    (fld_of_csr hcsr _ _).trans h.fenced, fun u e hu he => ?_, fun u ch hu hch => ?_, fun u c hc => ?_⟩
  · exact (unitIn_of_rget (rget_of_csr hcsr _)).trans h.units
  · rw [hcore]
    exact h.engines u e hu he
  · rw [chan, hstrm]
    exact h.chans u ch hu hch
  · rw [ctx, hcore]
    exact h.ctxs u c hc

/-- The registers and contexts of the reset, before tokens move. -/
theorem plotReset_settled (hp : p < 64) (s : State) : PlotResetTo p s
    (setFld (freshCtxs p .halted 5 (clearPlot p s)) (PLOT_STATUS p) PLOT_STATUS_STATE 5) := by
  have hseat : plotSeat p (clearPlot p s) = plotSeat p s := plotSeat_clearPlot hp s
  have hctx (u c : Nat) (hc : c < 8) := ctx_freshCtxs (p := p) .halted 5 (clearPlot p s) (w := u) hc
  obtain ⟨hcsr, hmem, hqueue, hstrm, hengines⟩ := parts_of_besideCtxs (besideCtxs_freshCtxs (p := p) .halted 5 (clearPlot p s))
  generalize freshCtxs p .halted 5 (clearPlot p s) = f at hctx hcsr hmem hqueue hstrm hengines
  have hunits : unitIn (clearPlot p s) p = unitIn s p := unitIn_of_plotSeat hseat
  have hfenced : fld (clearPlot p s) (PLOT_STATUS p) PLOT_STATUS_FENCED = 0 := by
    rw [clearPlot_eq]
    exact fld_setFld _ _ _ _ (by decide)
  refine ⟨?_, ?_, ?_, fld_setFld _ _ _ _ (by decide), ?_, fun u e hu he => ?_, fun u ch hu hch => ?_, fun u c hc => ?_⟩
  · rw [setFld_mem, hmem]
    exact mem_of_plotSeat hseat
  · rw [setFld_pending, hqueue]
    exact queue_of_plotSeat hseat
  · rw [← hunits]
    refine unitIn_of_rget ((rget_setFld_other _ _ _ _ _ ?_).trans (rget_of_csr hcsr _))
    unfold PLOT_CFG PLOT_STATUS PLOT_STATUS_STATE; omega
  · rw [fld_setFld_other f (PLOT_STATUS p) PLOT_STATUS_STATE PLOT_STATUS_FENCED 5 (by decide) rfl (by decide),
      fld_of_csr hcsr, hfenced]
  · rw [setFld_core, hengines, engines_clearPlot s hu he]
  · exact (chan_of_strm ((setFld_strm _ _ _ _).trans hstrm) u ch).trans (chan_clearPlot s hu hch)
  · refine (ctx_of_core (setFld_core _ _ _ _) u c).trans ((hctx u c hc).trans ?_)
    rw [hunits, absentCore_of_plotSeat hseat, ctxEnabled_of_plotSeat hseat, freshCtx, entryOf_of_plotSeat hseat hc,
      ctx_of_plotSeat hseat]
    rfl

theorem plotReset_to (hp : p < 64) {s : State} (hv : plotValid s p = true) : PlotResetTo p s (plotReset p s) := by
  rw [plotReset, hv]
  exact (plotReset_settled hp s).of_tokenKept (tokenKept_wakePorts _ _)

/-! ### Start -/

/-- A context as the start of its plot leaves it (R91). -/
def startedCtx (x : Ctx) : Ctx := if x.st = .halted ∧ x.cause = 5 then { x with st := .ready, cause := 0 } else x

/-- The contexts of plot `p` started, before `PLOT_STATUS` says so. -/
def startCtxs (p : Nat) (s : State) : State :=
  { s with core := { s.core with ctxs := mmap Ctx.unloaded (fun k => unitIn s p (k / 8)) startedCtx s.core.ctxs } }

theorem plotStart_of_reset {s : State} (h : fld s (PLOT_STATUS p) PLOT_STATUS_STATE = 5) :
    plotStart p s = setFld (startCtxs p s) (PLOT_STATUS p) PLOT_STATUS_STATE 2 := if_neg (not_not_intro h)

theorem plotStart_of_other {s : State} (h : fld s (PLOT_STATUS p) PLOT_STATUS_STATE ≠ 5) : plotStart p s = s := if_pos h

theorem ctx_startCtxs (s : State) {u c : Nat} (hc : c < 8) :
    ctx (startCtxs p s) u c = if unitIn s p u = true then startedCtx (ctx s u c) else ctx s u c := by
  have hk : ctxKey u c / 8 = u := by unfold ctxKey; omega
  rw [ctx, startCtxs, mget_mmap _ _ _ rfl, hk]
  rfl

/-- What the start of plot `p` makes of the state (R91). -/
structure PlotStartTo (p : Nat) (s t : State) : Prop where
  state : fld t (PLOT_STATUS p) PLOT_STATUS_STATE = 2
  fence : fld t (PLOT_STATUS p) PLOT_STATUS_FENCED = fld s (PLOT_STATUS p) PLOT_STATUS_FENCED
  mem   : t.mem = s.mem
  queue : t.pending = s.pending
  strm  : t.strm = s.strm
  engines : t.core.engines = s.core.engines
  words : WordsKept s t [PLOT_STATUS p]
  ctxs  : ∀ u c, c < 8 → ctx t u c = if unitIn s p u = true then startedCtx (ctx s u c) else ctx s u c

theorem plotStart_to {s : State} (h : fld s (PLOT_STATUS p) PLOT_STATUS_STATE = 5) : PlotStartTo p s (plotStart p s) := by
  rw [plotStart_of_reset h]
  refine ⟨fld_setFld _ _ _ _ (by decide), ?_, setFld_mem _ _ _ _, setFld_pending _ _ _ _, setFld_strm _ _ _ _, ?_, ?_,
    fun u c hc => (ctx_of_core (setFld_core _ _ _ _) u c).trans (ctx_startCtxs s hc)⟩
  · rw [fld_setFld_other (startCtxs p s) (PLOT_STATUS p) PLOT_STATUS_STATE PLOT_STATUS_FENCED 2 (by decide) rfl (by decide)]
    exact fld_of_csr (s := s) rfl _ _
  · rw [setFld_core]
    rfl
  · exact (wordsKept_of_csr (s := s) rfl _).trans (wordsKept_setFld (startCtxs p s) (PLOT_STATUS p) PLOT_STATUS_STATE 2)

theorem startedCtx_freshCtx (s : State) (u c : Nat) : startedCtx (freshCtx s u c .halted 5) = freshCtx s u c .ready 0 :=
  if_pos ⟨rfl, rfl⟩

/-- The reset of a plot, with the start that may come with it. -/
def resetPlot (p : Nat) (start : Bool) (s : State) : State :=
  if start then plotStart p (plotReset p s) else plotReset p s

/-- What the reset of plot `p` makes of the state, with or without a start (R90, R91). -/
structure PlotAfresh (p : Nat) (start : Bool) (s t : State) : Prop where
  mem     : t.mem = s.mem
  queue   : t.pending = s.pending
  state   : fld t (PLOT_STATUS p) PLOT_STATUS_STATE = if start then 2 else 5
  fenced  : fld t (PLOT_STATUS p) PLOT_STATUS_FENCED = 0
  engines : ∀ u e, unitIn s p u = true → e < 2 → mget [] t.core.engines (u * 2 + e) = []
  chans   : ∀ u ch, unitIn s p u = true → ch < 4 → chan t u ch = Chan.closed
  enabled : ∀ u c, c < 8 → unitIn s p u = true → absentCore s u = false → ctxEnabled s u c = true →
    ctx t u c = if start then freshCtx s u c .ready 0 else freshCtx s u c .halted 5
  others  : ∀ u c, c < 8 → unitIn s p u = false → ctx t u c = ctx s u c

theorem plotAfresh_resetPlot (hp : p < 64) {s : State} (hv : plotValid s p = true) (start : Bool) :
    PlotAfresh p start s (resetPlot p start s) := by
  have hr := plotReset_to hp hv
  cases start with
  | false =>
    exact ⟨hr.mem, hr.queue, hr.state, hr.fenced, hr.engines, hr.chans,
      fun u c hc hu ha hen => by rw [resetPlot, if_neg Bool.false_ne_true, hr.ctxs u c hc, if_pos hu, if_pos ⟨ha, hen⟩]; rfl,
      fun u c hc hu => by rw [resetPlot, if_neg Bool.false_ne_true, hr.ctxs u c hc, hu]; rfl⟩
  | true =>
    have ht := plotStart_to hr.state
    refine ⟨ht.mem.trans hr.mem, ht.queue.trans hr.queue, ht.state, ht.fence.trans hr.fenced, fun u e hu he => ?_,
      fun u ch hu hch => (chan_of_strm ht.strm u ch).trans (hr.chans u ch hu hch), fun u c hc hu ha hen => ?_,
      fun u c hc hu => ?_⟩
    · rw [resetPlot, if_pos rfl, ht.engines]
      exact hr.engines u e hu he
    · rw [resetPlot, if_pos rfl, ht.ctxs u c hc, hr.units, if_pos hu, hr.ctxs u c hc, if_pos hu, if_pos ⟨ha, hen⟩,
        startedCtx_freshCtx]
      rfl
    · rw [resetPlot, if_pos rfl, ht.ctxs u c hc, hr.units, hu, hr.ctxs u c hc, hu]
      rfl

/-- What a context stands as after the reset of its plot, as the statements say it. -/
theorem PlotAfresh.stands {start : Bool} {s t : State} (h : PlotAfresh p start s t) {u c : Nat} (hc : c < 8)
    (hu : unitIn s p u = true) (ha : absentCore s u = false) (hen : ctxEnabled s u c = true) : (ctx t u c).pc = entryOf s u c ∧
      (if start then (ctx t u c).st = .ready else (ctx t u c).st = .halted ∧ (ctx t u c).cause = 5) ∧
      ∀ r, sr (ctx t u c) r = 0 ∧ vr (ctx t u c) r = 0 ∧ dr (ctx t u c) r = 0 := by
  rw [h.enabled u c hc hu ha hen]
  cases start with
  | false => exact ⟨rfl, ⟨rfl, rfl⟩, fun r => ⟨ite_self _, rfl, rfl⟩⟩
  | true => exact ⟨rfl, rfl, fun r => ⟨ite_self _, rfl, rfl⟩⟩

end

end Sys2Proof.Machine
end

section
/-!
PROOFS. Plots: the rows of reset and start (R90, R91), and the settling of a plot that has faulted (R325, R357, R377).
-/
namespace Sys2Proof.Machine
open Sys2Proof

section
variable {p : Nat}

/-! ### Settling -/

/-- What the wakes of waiters leave alone. -/
def memAndLog (s : State) : MemSt × LogSt := (s.mem, s.log)

theorem wordsKept_wakeOne (st : W64) (w : Waiter) (s : State) (l : List Nat) : WordsKept s (wakeOne st s w) l := by
  unfold wakeOne
  split <;> exact wordsKept_of_csr rfl l

theorem memAndLog_wakeOne (st : W64) (w : Waiter) (s : State) : memAndLog (wakeOne st s w) = memAndLog s := by
  unfold wakeOne
  split <;> rfl

theorem memAndLog_setFld (s : State) (r : Nat) (f : Fld) (x : Nat) : memAndLog (setFld s r f x) = memAndLog s := by
  simp only [memAndLog, setFld_mem, setFld_log]

theorem wordsKept_wakeWhere (i : Nat) (f : Waiter → Bool) (st : W64) (s : State) : WordsKept s (wakeWhere i f st s) [SYNC_CTRL i] := by
  unfold wakeWhere
  extract_lets go sync s₁
  have h₁ : WordsKept s s₁ [SYNC_CTRL i] := wordsKept_of_csr rfl _
  have h₂ : WordsKept s₁ (go.foldl (wakeOne st) s₁) [SYNC_CTRL i] := wordsKept_foldl go (fun t w _ => wordsKept_wakeOne st w t _) s₁
  exact (h₁.trans h₂).trans (wordsKept_setFld _ _ _ _)

theorem memAndLog_wakeWhere (i : Nat) (f : Waiter → Bool) (st : W64) (s : State) :
    memAndLog (wakeWhere i f st s) = memAndLog s := by
  unfold wakeWhere syncCount
  rw [memAndLog_setFld]
  exact foldl_keeps memAndLog _ (fun t w => memAndLog_wakeOne st w t) _ _

/-- The objects of a faulted plot: marked, their waiters woken. -/
def abandonObjects (l : List Nat) (s : State) : State :=
  l.foldl (fun s i => wakeWhere i (fun _ => true) 0x0501 (setFld s (SYNC_CTRL i) SYNC_CTRL_ABANDONED 1)) s

theorem wordsKept_abandonObjects (l : List Nat) (s : State) : WordsKept s (abandonObjects l s) (l.map SYNC_CTRL) :=
  wordsKept_foldl l (fun t i hi =>
    have hsub : [SYNC_CTRL i] ⊆ l.map SYNC_CTRL := by simpa using ⟨i, hi, rfl⟩
    (((wordsKept_setFld t _ _ _).mono hsub).trans ((wordsKept_wakeWhere i _ _ _).mono hsub))) s

theorem memAndLog_abandonObjects (l : List Nat) (s : State) : memAndLog (abandonObjects l s) = memAndLog s :=
  foldl_keeps memAndLog _ (fun t i => (memAndLog_wakeWhere i _ _ _).trans (memAndLog_setFld t _ _ _)) l s

theorem qCfg_inj {q r : Nat} : Q_CFG q = Q_CFG r ↔ q = r := by
  unfold Q_CFG
  omega

/-- The active queues of a faulted plot, suspended. -/
def haltQueues (l : List Nat) (s : State) : State :=
  l.foldl (fun s q => if fld s (Q_CFG q) Q_CFG_STATE = 1 then setFld s (Q_CFG q) Q_CFG_STATE 2 else s) s

theorem wordsKept_haltQueues (l : List Nat) (s : State) : WordsKept s (haltQueues l s) (l.map Q_CFG) :=
  wordsKept_foldl l (fun t q hq => by
    have hsub : [Q_CFG q] ⊆ l.map Q_CFG := by simpa using ⟨q, hq, rfl⟩
    split
    · exact (wordsKept_setFld t (Q_CFG q) Q_CFG_STATE 2).mono hsub
    · exact fun _ _ => rfl) s

theorem memAndLog_haltQueues (l : List Nat) (s : State) : memAndLog (haltQueues l s) = memAndLog s :=
  foldl_keeps memAndLog _ (fun t q => by
    split
    · exact memAndLog_setFld t _ _ _
    · rfl) l s

theorem fld_haltQueues (l : List Nat) (s : State) (q : Nat) : fld (haltQueues l s) (Q_CFG q) Q_CFG_STATE =
    if q ∈ l ∧ fld s (Q_CFG q) Q_CFG_STATE = 1 then 2 else fld s (Q_CFG q) Q_CFG_STATE := by
  induction l generalizing s with
  | nil => simp [haltQueues]
  | cons r l ih =>
    rw [show haltQueues (r :: l) s = haltQueues l
      (if fld s (Q_CFG r) Q_CFG_STATE = 1 then setFld s (Q_CFG r) Q_CFG_STATE 2 else s) from rfl, ih]
    by_cases hq : q = r
    · subst hq
      by_cases h1 : fld s (Q_CFG q) Q_CFG_STATE = 1
      · have h2 : fld (setFld s (Q_CFG q) Q_CFG_STATE 2) (Q_CFG q) Q_CFG_STATE = 2 := fld_setFld _ _ _ _ (by decide)
        simp [h1, h2]
      · simp [h1]
    · have hfar : fld (if fld s (Q_CFG r) Q_CFG_STATE = 1 then setFld s (Q_CFG r) Q_CFG_STATE 2 else s) (Q_CFG q) Q_CFG_STATE =
          fld s (Q_CFG q) Q_CFG_STATE := by
        split
        · exact fld_setFld_far _ _ _ _ _ _ fun h => hq (qCfg_inj.mp h)
        · rfl
      simp [hfar, hq]

/-- A queue of a plot is listed: the reset value of `Q_CFG` names no plot. -/
theorem mem_queuesOf {s : State} {q : Nat} (hq : q < 65536) (howner : fld s (Q_CFG q) Q_CFG_OWNER = 3)
    (hplot : fld s (Q_CFG q) Q_CFG_PLOT = p) : q ∈ queuesOf s p := by
  have hword : rget s (Q_CFG q) ≠ resetWord (Q_CFG q) := by
    rw [resetWord_qCfg hq]
    intro h0
    simp [fld, Q_CFG_OWNER, h0, fget, bitsOf] at howner
  refine List.mem_filter.mpr ⟨mem_listedRegs hq (by decide) ?_, by simp [howner, hplot]⟩
  have hkey : 0x200000 + q * 0x40 + 0x10 = Q_CFG q := by unfold Q_CFG; omega
  rw [hkey]
  exact mem_mkeys_of_rget hword

/-- The state of plot `p` whose objects and queues are settled, before the log entry. -/
def settledParts (p : Nat) (s : State) : State :=
  let t := abandonObjects (objectsOf s p) s
  haltQueues (queuesOf t p) t

theorem settlePlot_eq (p : Nat) (s : State) : settlePlot p s =
    setFld (logAs .contained (fld (settledParts p s) (PLOT_STATUS p) PLOT_STATUS_FIRST_CODE)
      (srcOf (fld (settledParts p s) (PLOT_STATUS p) PLOT_STATUS_FIRST_CORE)) (some p)
      (fld (settledParts p s) (PLOT_STATUS p) PLOT_STATUS_FIRST_CTX) (settledParts p s)) (PLOT_STATUS p) PLOT_STATUS_STATE 4 := by
  unfold settlePlot settledParts abandonObjects haltQueues
  with_reducible rfl

theorem memAndLog_settledParts (s : State) : memAndLog (settledParts p s) = memAndLog s :=
  (memAndLog_haltQueues _ _).trans (memAndLog_abandonObjects _ s)

/-- Objects and queues end below the plots. -/
theorem plotStatus_settledParts (s : State) : rget (settledParts p s) (PLOT_STATUS p) = rget s (PLOT_STATUS p) := by
  have hobj := wordsKept_abandonObjects (objectsOf s p) s
  have hqueue := wordsKept_haltQueues (queuesOf (abandonObjects (objectsOf s p) s) p) (abandonObjects (objectsOf s p) s)
  refine (hqueue _ fun hm => ?_).trans (hobj _ fun hm => ?_)
  · obtain ⟨q, hq, he⟩ := List.mem_map.mp hm
    have hlt := lt_of_mem_queuesOf hq
    unfold Q_CFG PLOT_STATUS at he; omega
  · obtain ⟨i, hi, he⟩ := List.mem_map.mp hm
    have hlt := lt_of_mem_objectsOf hi
    unfold SYNC_CTRL PLOT_STATUS at he; omega

theorem queue_settledParts {s : State} {q : Nat} (hq : q < 65536) (howner : fld s (Q_CFG q) Q_CFG_OWNER = 3)
    (hplot : fld s (Q_CFG q) Q_CFG_PLOT = p) (hstate : fld s (Q_CFG q) Q_CFG_STATE = 1) :
    fld (settledParts p s) (Q_CFG q) Q_CFG_STATE = 2 := by
  have hfar : Q_CFG q ∉ (objectsOf s p).map SYNC_CTRL := by
    intro hm
    obtain ⟨i, hi, he⟩ := List.mem_map.mp hm
    have hlt := lt_of_mem_objectsOf hi
    unfold SYNC_CTRL Q_CFG at he; omega
  have field (f : Fld) (hf : f.word = 0) : fld (abandonObjects (objectsOf s p) s) (Q_CFG q) f = fld s (Q_CFG q) f :=
    (wordsKept_abandonObjects (objectsOf s p) s).fld (by rw [hf]; exact hfar)
  have hmem : q ∈ queuesOf (abandonObjects (objectsOf s p) s) p :=
    mem_queuesOf hq ((field Q_CFG_OWNER rfl).trans howner) ((field Q_CFG_PLOT rfl).trans hplot)
  exact (fld_haltQueues _ _ q).trans (if_pos ⟨hmem, (field Q_CFG_STATE rfl).trans hstate⟩)

theorem inFlight_logAs (cls : ErrClass) (code src : Nat) (plot : Option Nat) (info : Nat) (s : State) :
    ∃ e : LogEntry, (logAs cls code src plot info s).log.inFlight = s.log.inFlight ++ [e] ∧ e.cls = cls ∧ e.plot = plot ∧
      e.code = code := ⟨_, rfl, rfl, rfl, rfl⟩

/-- What settling a faulted plot makes of the state. -/
structure PlotSettledTo (p : Nat) (s t : State) : Prop where
  state : fld t (PLOT_STATUS p) PLOT_STATUS_STATE = 4
  mem   : t.mem = s.mem
  log   : ∃ e : LogEntry, t.log.inFlight = s.log.inFlight ++ [e] ∧ e.cls = .contained ∧ e.plot = some p ∧
    e.code = fld s (PLOT_STATUS p) PLOT_STATUS_FIRST_CODE
  queues : ∀ q, q < 65536 → fld s (Q_CFG q) Q_CFG_OWNER = 3 → fld s (Q_CFG q) Q_CFG_PLOT = p → fld s (Q_CFG q) Q_CFG_STATE = 1 →
    fld t (Q_CFG q) Q_CFG_STATE = 2

theorem settlePlot_to (s : State) : PlotSettledTo p s (settlePlot p s) := by
  have hcode : fld (settledParts p s) (PLOT_STATUS p) PLOT_STATUS_FIRST_CODE = fld s (PLOT_STATUS p) PLOT_STATUS_FIRST_CODE :=
    fld_of_rget (plotStatus_settledParts s)
  have hqueues (q : Nat) (hq : q < 65536) := queue_settledParts (p := p) (s := s) hq
  obtain ⟨hmem, hlog⟩ := Prod.mk.inj (memAndLog_settledParts (p := p) s)
  rw [settlePlot_eq]
  generalize settledParts p s = v at hcode hqueues hmem hlog
  refine ⟨fld_setFld _ _ _ _ (by decide), ?_, ?_, fun q hq howner hplot hstate => ?_⟩
  · rw [setFld_mem, logAs_mem, hmem]
  · rw [setFld_log, ← hlog, ← hcode]
    exact inFlight_logAs _ _ _ _ _ v
  · have hne : Q_CFG q ≠ PLOT_STATUS p := by unfold Q_CFG PLOT_STATUS; omega
    rw [fld_setFld_far _ _ _ _ _ _ hne, fld_of_csr (logAs_csr _ _ _ _ _ _)]
    exact hqueues q hq howner hplot hstate

/-! ### The rows -/

theorem mayPlot_of {s : State} {m : Master} (h : isSupervisor m = true ∨ isOwner s m = true) : mayPlot s m = true := by
  simpa [mayPlot] using h

theorem exec_plotReset {s : State} {m : Master} (hm : masterOk m = true) (hp : p < 64)
    (hmay : isSupervisor m = true ∨ isOwner s m = true) (hr : Reaches s m (PLOT_CTRL p)) (start : Bool) :
    exec (.plotReset m p start) s = .next (resetPlot p start s) := by
  refine (runIf_of (by simp [wfPlotReset, hm, hp]) _).trans (congrArg Host.Outcome.next ?_)
  rw [byMaster_of_reaches hr, mayPlot_of hmay]
  rfl

theorem exec_plotStart {s : State} {m : Master} (hm : masterOk m = true) (hp : p < 64)
    (hmay : isSupervisor m = true ∨ isOwner s m = true) (hr : Reaches s m (PLOT_CTRL p)) :
    exec (.plotStart m p) s = .next (plotStart p s) := by
  refine (runIf_of (by simp [wfPlotStart, hm, hp]) _).trans (congrArg Host.Outcome.next ?_)
  rw [byMaster_of_reaches hr, mayPlot_of hmay]
  rfl

theorem exec_plotFaultSettle {s : State} (hp : p < 64) (hfence : faultFence s p = true)
    (hstate : fld s (PLOT_STATUS p) PLOT_STATUS_STATE ≠ 4) (hquiet : ∀ r ∈ s.core.reqs, unitIn s p r.u = false) :
    exec (.plotFaultSettle p) s = .next (settlePlot p s) := by
  have hq : plotQuiet s p = true := by
    simp only [plotQuiet, Bool.not_eq_true', List.any_eq_false, Bool.not_eq_true]
    exact hquiet
  refine (runIf_of (by simp [wfPlotFaultSettle, hp]) _).trans (congrArg Host.Outcome.next ?_)
  exact if_pos (by simp [hfence, hstate, hq])

end

/-- A plot that starts turns each of its waiting contexts, and no other, into a ready one. -/
theorem PlotStartTo.eq_ite {p : Nat} {s t : State} (h : PlotStartTo p s t) {u c : Nat} (hc : c < 8) :
    ctx t u c = if unitIn s p u = true ∧ (ctx s u c).st = .halted ∧ (ctx s u c).cause = 5 then
      { ctx s u c with st := .ready, cause := 0 } else ctx s u c := by
  rw [h.ctxs u c hc, ite_and]
  rfl

/-- Settles O29: the reset by what it leaves of the plot's seat, the start by its contexts, the settling part by part. -/
theorem plotsResetStartAndSettle : Obligations.PlotsResetStartAndSettle := by
  intro s m p hm hp hv hmay hr
  refine ⟨fun start => ⟨_, exec_plotReset hm hp hmay hr start, ?_⟩, fun hstate => ⟨_, exec_plotStart hm hp hmay hr, ?_⟩,
    fun hstate => ?_, fun hfence hstate hquiet => ⟨_, exec_plotFaultSettle hp hfence hstate hquiet, ?_⟩⟩
  · have h := plotAfresh_resetPlot hp hv start
    exact ⟨h.mem, h.queue, h.state, h.fenced, fun u hu => ⟨fun e => h.engines u e hu,
      fun ch hch => congrArg Chan.st (h.chans u ch hu hch), fun c hc ha hen => h.stands hc hu ha hen⟩⟩
  · have h := plotStart_to hstate
    exact ⟨h.state, h.mem, h.words, fun u c hc => h.eq_ite hc⟩
  · rw [exec_plotStart hm hp hmay hr, plotStart_of_other hstate]
  · have h := settlePlot_to (p := p) s
    exact ⟨h.state, h.mem, h.log, h.queues⟩

end Sys2Proof.Machine
end

section
/-!
PROOFS. The instructions of a control processor (R90, R140, R291): a plot reset, a stream resumed, a program store written.
-/
namespace Sys2Proof.Machine
open Sys2Proof

/-! ### Routes do not depend on the beat counts -/

section
variable {s t : State} (hr : ∀ o, o % 0x1000 ≠ 0x20 → rget t o = rget s o) (ha : t.avl = s.avl)

section
include hr

theorem fld_of_words {r : Nat} {f : Fld} (hf : f.word = 0) (h : r % 0x1000 ≠ 0x20) : fld t r f = fld s r f :=
  fld_of_rget (hr _ (by rw [hf]; exact h))

theorem inPlot_of_words (p : Nat) : inPlot t p = inPlot s p := by
  have field (f : Fld) (hf : f.word = 0) : fld t (PLOT_CFG p) f = fld s (PLOT_CFG p) f :=
    fld_of_words hr hf (by unfold PLOT_CFG; omega)
  funext n
  simp only [inPlot, plotValid, inRect, flag, field PLOT_CFG_VALID rfl, field PLOT_CFG_ROW0 rfl, field PLOT_CFG_HEIGHT rfl,
    field PLOT_CFG_COL0 rfl, field PLOT_CFG_WIDTH rfl]

theorem plotOf_of_words (u : Nat) : plotOf t u = plotOf s u := by simp only [plotOf, inPlot_of_words hr]

theorem fenced_of_words (u : Nat) : fenced t u = fenced s u := by
  have field (p : Nat) : flag t (PLOT_STATUS p) PLOT_STATUS_FENCED = flag s (PLOT_STATUS p) PLOT_STATUS_FENCED :=
    flag_of_fld (fld_of_words hr rfl (by unfold PLOT_STATUS; omega))
  simp only [fenced, plotOf_of_words hr, field]

theorem fld_route_of_words {u i : Nat} (hi : i < 32) {f : Fld} (hf : f.word = 0) :
    fld t (ROUTE_ENTRY u i) f = fld s (ROUTE_ENTRY u i) f :=
  fld_of_words hr hf (by unfold ROUTE_ENTRY; omega)

theorem routeOf_of_words (u link : Nat) : routeOf t u link = routeOf s u link := by
  unfold routeOf
  split
  · rfl
  · refine List.find?_congr fun i hi => ?_
    have hlt := List.mem_range.mp hi
    simp only [routeOk, flag, fld_route_of_words hr hlt (f := ROUTE_ENTRY_VALID) rfl,
      fld_route_of_words hr hlt (f := ROUTE_ENTRY_LINK_ID) rfl]

theorem routeIn_of_words {u i : Nat} (hi : i < 32) : routeIn t u i = routeIn s u i := fld_route_of_words hr hi rfl

theorem routeOuts_of_words {u i : Nat} (hi : i < 32) : routeOuts t u i = routeOuts s u i := by
  simp only [routeOuts, fld_route_of_words hr hi (f := ROUTE_ENTRY_OUT) rfl]

end

theorem lt_of_routeOf {u link i : Nat} (h : routeOf s u link = some i) : i < 32 := by
  unfold routeOf at h
  split at h
  · exact absurd h (by simp)
  · exact List.mem_range.mp (List.mem_of_find?_eq_some h)

section
include ha

theorem neighbour_of_avl (u b : Nat) : neighbour t u b = neighbour s u b := by
  have habs : absentCore t = absentCore s := by
    funext n
    simp only [absentCore, spareOf, ha]
  unfold neighbour
  rw [habs]

end

include hr ha

theorem routeRoot_of_words (link n u : Nat) : routeRoot t link n u = routeRoot s link n u := by
  induction n generalizing u with
  | zero => rfl
  | succ n ih =>
    rw [routeRoot, routeRoot, routeOf_of_words hr]
    cases h : routeOf s u link with
    | none => rfl
    | some i => simp only [routeIn_of_words hr (lt_of_routeOf h), neighbour_of_avl ha, ih]

theorem routePath_of_words (link n u : Nat) : routePath t link n u = routePath s link n u := by
  induction n generalizing u with
  | zero => rfl
  | succ n ih =>
    rw [routePath, routePath, routeOf_of_words hr]
    cases h : routeOf s u link with
    | none => rfl
    | some i => simp only [routeIn_of_words hr (lt_of_routeOf h), neighbour_of_avl ha, ih]

theorem routeDown_of_words (link n u port : Nat) : routeDown t link n u port = routeDown s link n u port := by
  induction n generalizing u port with
  | zero => rfl
  | succ n ih =>
    rw [routeDown, routeDown, routeOf_of_words hr]
    cases h : routeOf s u link with
    | none => rfl
    | some i =>
      have hi := lt_of_routeOf h
      simp only [routeIn_of_words hr hi, routeOuts_of_words hr hi, neighbour_of_avl ha, ih]

theorem routeCores_of_words (u link : Nat) : routeCores t u link = routeCores s u link := by
  unfold routeCores
  simp only [routeRoot_of_words hr ha, routeOf_of_words hr]
  cases h : routeOf s (routeRoot s link routeFuel u) link with
  | none => rfl
  | some i => simp only [routeIn_of_words hr (lt_of_routeOf h), routeDown_of_words hr ha]

theorem routeFenced_of_words (u : Nat) (d : W512) : routeFenced t u d = routeFenced s u d := by
  simp only [routeFenced, routeCores_of_words hr ha, routePath_of_words hr ha, fenced_of_words hr]

end

section
variable {s : State} {u c p ra rb vb : Nat}

theorem routeFenced_counted (w : Nat) (d : W512) : routeFenced (counted u s) w d = routeFenced s w d :=
  routeFenced_of_words (fun o ho => rget_counted s (by unfold CORE_BEATS; omega)) (by rw [bumpFld_avl]) w d

/-! ### What a control processor's bundle leaves alone -/

theorem privOf_controlProcessor (hu : 25600 ≤ u) : privOf s u c = .supervisor := if_pos (decide_eq_true hu)

/-- The slots of a bundle have acted beside contexts, registers, memories and waiting commands. -/
structure Aside (s e : State) (u : Nat) : Prop where
  ctxs  : e.core.ctxs = s.core.ctxs
  csr   : e.csr = (counted u s).csr
  mem   : e.mem = s.mem
  queue : e.pending = s.pending

theorem Aside.ctx {e : State} (h : Aside s e u) (v d : Nat) : ctx e v d = ctx s v d := by
  unfold Machine.ctx
  rw [h.ctxs]

theorem aside_counted : Aside s (counted u s) u :=
  ⟨congrArg CoreSt.ctxs (bumpFld_core s _ _ _), rfl, bumpFld_mem s _ _ _, bumpFld_pending s _ _ _⟩

theorem Aside.setChan {e : State} (h : Aside s e u) (w ch : Nat) (x : Chan) : Aside s (setChan e w ch x) u :=
  ⟨h.ctxs, h.csr, h.mem, h.queue⟩

theorem Aside.orphanWhere {e : State} (h : Aside s e u) (f : Req → Bool) : Aside s (orphanWhere f e) u :=
  ⟨h.ctxs, h.csr, h.mem, h.queue⟩

theorem Aside.setBundle {e : State} (h : Aside s e u) (w i : Nat) (b : W128) : Aside s (setBundle w i b e) u :=
  ⟨h.ctxs, h.csr, h.mem, h.queue⟩

theorem mem_landed (k : Ctl) (e : State) : (landed u c k e).mem = e.mem := (fields_of_besideCore (besideCore_landed u c k e)).1

theorem pending_landed (k : Ctl) (e : State) : (landed u c k e).pending = e.pending :=
  (fields_of_besideCore (besideCore_landed u c k e)).2.1

theorem strm_landed (k : Ctl) (e : State) : (landed u c k e).strm = e.strm :=
  (fields_of_besideCore (besideCore_landed u c k e)).2.2.2.2.1

theorem pstore_landed (k : Ctl) (e : State) : (landed u c k e).core.pstore = e.core.pstore := by
  unfold landed
  rw [plotCtr_core]
  rfl

theorem Aside.regsKept {e : State} (h : Aside s e u) (k : Ctl) : RegsKept s (landed u c k e) u c :=
  regsKept_of_regsOf (regsOf_landed k (by rw [h.ctx]))

theorem Aside.issues {e : State} (h : Aside s e u) (hready : (Machine.ctx s u c).st = .ready) :
    Issues s (landed u c (straightOn (Machine.ctx s u c)) e) u c [] := by
  refine ⟨fun v d hv => (ctx_landed_other _ e hv).trans (h.ctx v d), ?_, ?_, ?_, fun o ho => ?_,
    (pending_landed _ e).trans h.queue⟩
  · rw [ctx_landed_same]
    rfl
  · rw [ctx_landed_same, h.ctx]
    exact hready
  · rw [fld_landed, fld_of_csr h.csr, fld_beats_counted]
  · rw [rget_landed, rget_of_csr h.csr, rget_counted s (by simpa using ho)]

/-- A lone bundle in slot X of a control processor whose effect is aside. -/
theorem Lone.row_aside {i : Instr} {e : State} (h : Lone s u c .X i) (hf : ∀ v q n, i ≠ .fault v q n)
    (hh : ∀ v q, i ≠ .halt v q) (hp : privNeeded (privOf s u c) i = true) (hw : waitOf s u c i = none)
    (hown : ownFault s u c i = none) (he : effX (counted u s) u c i (counted u s) = e) (hside : Aside s e u) :
    exec i s = .next (landed u c (straightOn (ctx s u c)) e) :=
  h.rowX hf hh hp hw hown he (by rw [hside.ctx]; exact h.goesOn)

theorem rdS_counted (r : Nat) : rdS (counted u s) u c r = sr (ctx s u c) r := by rw [rdS, ctx_counted]

theorem rdV_counted (r : Nat) : rdV (counted u s) u c r = vr (ctx s u c) r := by rw [rdV, ctx_counted]

/-! ### SV.PRST -/

theorem plotSeat_counted {q : Nat} : plotSeat q (counted u s) = plotSeat q s :=
  plotSeat_of_regs (rget_counted s (by unfold PLOT_CFG CORE_BEATS; omega))
    (fun v d => rget_counted s (by unfold CTX_ENTRY CORE_BEATS; omega))
    (fun v => fld_of_rget (rget_counted s (show CORE_CFG v ≠ CORE_BEATS u by unfold CORE_CFG CORE_BEATS; omega)))
    (congrArg CoreSt.ctxs (bumpFld_core s _ _ _)) (bumpFld_mem s _ _ _) (bumpFld_pending s _ _ _) (bumpFld_avl s _ _ _)

theorem plotValid_of_plotSeat {q : Nat} {t : State} (h : plotSeat q t = plotSeat q s) : plotValid t q = plotValid s q := by
  have hcfg : rget t (PLOT_CFG q) = rget s (PLOT_CFG q) := congrArg PlotSeat.cfg h
  exact flag_of_fld (fld_of_rget hcfg)

theorem effPrst_counted : effPrst (counted u s) u c ra (counted u s) =
    resetPlot ((sr (ctx s u c) ra).toNat % 64) (decide ((sr (ctx s u c) ra).toNat / 64 % 2 = 1)) (counted u s) := by
  rw [effPrst, rdS_counted, resetPlot]
  simp only [decide_eq_true_eq]

/-! ### SV.PSW -/

theorem bundleAt_setBundle (w i v m : Nat) (b : W128) (s : State) :
    bundleAt (setBundle w i b s) v m = if v * 2048 + m = w * 2048 + i then b else bundleAt s v m := mget_mset _ _ _ _ _

theorem bundleAt_counted (v m : Nat) : bundleAt (counted u s) v m = bundleAt s v m := by simp only [bundleAt, bumpFld_core]

/-- The bundles that a vector register holds, lowest first. -/
def quarter (v : W512) (k : Nat) : W128 := v.extractLsb' (128 * k) 128

/-- Bundles `i` to `i + n - 1` of a store take the words of `f`. -/
def setBundles (w i : Nat) (f : Nat → W128) (n : Nat) (s : State) : State :=
  (List.range n).foldl (fun s j => setBundle w (i + j) (f j) s) s

theorem setBundles_succ (w i : Nat) (f : Nat → W128) (n : Nat) (s : State) :
    setBundles w i f (n + 1) s = setBundle w (i + n) (f n) (setBundles w i f n s) := by
  simp [setBundles, List.range_succ]

theorem bundleAt_setBundles (w i v m : Nat) (f : Nat → W128) (n : Nat) (s : State) : bundleAt (setBundles w i f n s) v m =
    if w * 2048 + i ≤ v * 2048 + m ∧ v * 2048 + m < w * 2048 + i + n then f (v * 2048 + m - (w * 2048 + i))
    else bundleAt s v m := by
  induction n with
  | zero => rw [if_neg (by omega)]; rfl
  | succ n ih =>
    rw [setBundles_succ, bundleAt_setBundle, ih]
    by_cases hlast : v * 2048 + m = w * 2048 + (i + n)
    · rw [if_pos hlast, if_pos (by omega), hlast]
      congr 1
      omega
    · rw [if_neg hlast]
      exact if_congr (by omega) rfl rfl

/-- What writing bundles leaves alone. -/
theorem aside_setBundles (w i : Nat) (f : Nat → W128) (n : Nat) : Aside s (setBundles w i f n (counted u s)) u := by
  induction n with
  | zero => exact aside_counted
  | succ n ih =>
    rw [setBundles_succ]
    exact ih.setBundle _ _ _

/-! ### SV.SRES -/

/-- The stream position from which a resumed channel goes on. -/
def resumeAt (x : Chan) : Nat :=
  match x.haltAt with
  | some h => if fromMem x.desc then max x.acc h else min x.issued h
  | none => x.issued

/-- A channel resumed (R291). -/
def resumedChan (x : Chan) : Chan :=
  { x with st := if x.st = 5 then 5 else 1, haltAt := none, page := none, fails := 0, issued := resumeAt x }

theorem resumeChan_eq (w ch : Nat) (s : State) : resumeChan w ch s =
    setChan (orphanWhere (fun r => r.chan && decide (r.u = w) && decide (r.c = ch) && decide (resumeAt (chan s w ch) ≤ r.pos)) s)
      w ch (resumedChan (chan s w ch)) := rfl

theorem chan_resumeChan (w ch : Nat) (s : State) : chan (resumeChan w ch s) w ch = resumedChan (chan s w ch) := by
  rw [resumeChan_eq]
  exact mget_mset_same _ _ _ _

/-- What a resumed channel leaves alone. -/
theorem aside_resumeChan (w ch : Nat) : Aside s (resumeChan w ch (counted u s)) u := by
  rw [resumeChan_eq]
  exact (aside_counted.orphanWhere _).setChan _ _ _

/-- SV.SRES without a grant, of a stream that nothing keeps halted. -/
theorem resumeBy_resumes {w ch : Nat} {t : State} (hst : (chan t w ch).st = 2 ∨ (chan t w ch).st = 3)
    (hfence : (chan t w ch).code = 0x0402 → routeFenced t w (chan t w ch).desc = false) (hlost : (chan t w ch).lost = false) :
    resumeBy w ch false t = resumeChan w ch t := by
  have hopen : (!(decide ((chan t w ch).code = 0x0402) && routeFenced t w (chan t w ch).desc)) = true := by
    by_cases hc : (chan t w ch).code = 0x0402
    · simp [hfence hc]
    · simp [hc]
  unfold resumeBy
  simp only [Bool.false_and, Bool.false_eq_true, if_false]
  exact if_pos (by rw [hopen, hlost]; rcases hst with h | h <;> simp [h])

/-! ### The rows -/

/-- SV.PRST: the plot's units are cores, so the control processor that resets it goes on. -/
theorem Lone.row_svPrst (hu : 25600 ≤ u) {q : Nat} {start : Bool} (hq : q = (sr (ctx s u c) ra).toNat % 64)
    (hstart : start = decide ((sr (ctx s u c) ra).toNat / 64 % 2 = 1)) (h : Lone s u c .X (.svPrst u p ra))
    (hv : plotValid s q = true) : Runs (.svPrst u p ra) s fun t =>
      fld t (PLOT_STATUS q) PLOT_STATUS_STATE = (if start then 2 else 5) ∧
      (∀ w d, d < 8 → unitIn s q w = true → absentCore s w = false → ctxEnabled s w d = true → (ctx t w d).pc = entryOf s w d ∧
        (if start then (ctx t w d).st = .ready else (ctx t w d).st = .halted ∧ (ctx t w d).cause = 5) ∧
        ∀ r, sr (ctx t w d) r = 0 ∧ vr (ctx t w d) r = 0 ∧ dr (ctx t w d) r = 0) ∧
      (ctx t u c).pc = (ctx s u c).pc + 1 ∧ RegsKept s t u c ∧ t.mem = s.mem := by
  have hq64 : q < 64 := by omega
  have hseat : plotSeat q (counted u s) = plotSeat q s := plotSeat_counted
  have hunits : unitIn (counted u s) q = unitIn s q := unitIn_of_plotSeat hseat
  have hvalid : plotValid (counted u s) q = true := (plotValid_of_plotSeat hseat).trans hv
  have hfresh := plotAfresh_resetPlot hq64 hvalid start
  have he : effX (counted u s) u c (.svPrst u p ra) (counted u s) = resetPlot q start (counted u s) := by
    rw [hq, hstart]
    exact effPrst_counted
  generalize resetPlot q start (counted u s) = e at hfresh he
  have hown : ctx e u c = ctx s u c := by
    have hout : unitIn (counted u s) q u = false := by
      rw [hunits, Bool.eq_false_iff]
      exact fun hin => absurd (lt_of_unitIn hin) (by omega)
    rw [hfresh.others u c h.context hout, ctx_counted]
  refine ⟨_, h.rowX (by simp) (by simp) (by simp [privNeeded, privOf_controlProcessor hu]) rfl rfl he
    (by rw [hown]; exact h.goesOn), ?_, fun w d hd hw ha hen => ?_, ?_, ?_, ?_⟩
  · rw [fld_landed]
    exact hfresh.state
  · have hkey : ctxKey w d ≠ ctxKey u c := fun hk => by
      have hlt := lt_of_unitIn hw
      have hwu := (ctxKey_inj hd h.context).mp hk
      omega
    rw [ctx_landed_other _ _ hkey]
    have hstands := hfresh.stands hd (by rw [hunits]; exact hw) ((absentCore_of_plotSeat hseat w).trans ha)
      ((ctxEnabled_of_plotSeat hseat w d).trans hen)
    rw [entryOf_of_plotSeat hseat hd] at hstands
    exact hstands
  · rw [ctx_landed_same, hown]
    rfl
  · exact regsKept_of_regsOf (regsOf_landed _ (by rw [hown]))
  · rw [mem_landed, hfresh.mem, bumpFld_mem]

theorem Lone.row_svSres (hu : 25600 ≤ u) {v w ch : Nat} (hv : v = (sr (ctx s u c) ra).toNat) (hw : w = v % 2 ^ 15)
    (hch : ch = v / 2 ^ 15 % 4) (h : Lone s u c .X (.svSres u p ra rb)) (hgrant : (sr (ctx s u c) rb).getLsbD 0 = false)
    (hst : (chan s w ch).st = 2 ∨ (chan s w ch).st = 3)
    (hfence : (chan s w ch).code = 0x0402 → routeFenced s w (chan s w ch).desc = false) (hlost : (chan s w ch).lost = false) :
    Runs (.svSres u p ra rb) s fun t => (chan t w ch).st = 1 ∧ (chan t w ch).haltAt = none ∧
      RegsKept s t u c ∧ Issues s t u c [] ∧ t.mem = s.mem := by
  have hx : chan (counted u s) w ch = chan s w ch := chan_of_strm (bumpFld_strm s _ _ _) w ch
  have he : effX (counted u s) u c (.svSres u p ra rb) (counted u s) = resumeChan w ch (counted u s) := by
    have hby := resumeBy_resumes (w := w) (ch := ch) (t := counted u s) (by rw [hx]; exact hst)
      (by rw [hx, routeFenced_counted]; exact hfence) (by rw [hx]; exact hlost)
    simp only [effX, effSres, rdS_counted, bit1, hgrant, ← hv, ← hw, ← hch]
    exact hby
  have hside : Aside s (resumeChan w ch (counted u s)) u := aside_resumeChan w ch
  have hchan (k : Ctl) : chan (landed u c k (resumeChan w ch (counted u s))) w ch = resumedChan (chan s w ch) := by
    rw [chan_of_strm (strm_landed k _), chan_resumeChan, hx]
  refine ⟨_, h.row_aside (by simp) (by simp) (by simp [privNeeded, privOf_controlProcessor hu]) rfl rfl he hside, ?_, ?_,
    hside.regsKept _, hside.issues h.ready, ?_⟩
  · rw [hchan]
    exact if_neg (by rcases hst with h | h <;> simp [h])
  · rw [hchan]
    rfl
  · rw [mem_landed, hside.mem]

theorem Lone.row_svPsw (hu : 25600 ≤ u) {v w i : Nat} (hv : v = (sr (ctx s u c) ra).toNat) (hw : w = v % 2 ^ 15)
    (hi : i = v / 2 ^ 16 % 2048) (h : Lone s u c .X (.svPsw u p ra vb)) (hlt : w < 25600) (hfour : v / 2 ^ 16 % 4 = 0)
    (hidle : coreIdle s w = true) : Runs (.svPsw u p ra vb) s fun t => RegsKept s t u c ∧ Issues s t u c [] ∧ t.mem = s.mem ∧
      (∀ k, k < 4 → bundleAt t w (i + k) = (vr (ctx s u c) vb).extractLsb' (128 * k) 128) ∧
      (∀ x n, n < 2048 → ¬ (x = w ∧ i ≤ n ∧ n < i + 4) → bundleAt t x n = bundleAt s x n) := by
  have hown : ownFault s u c (.svPsw u p ra vb) = none := by
    simp only [ownFault, rdS, ← hv, ← hw, hfour, hidle]
    simp
  have he : effX (counted u s) u c (.svPsw u p ra vb) (counted u s) =
      setBundles w i (quarter (vr (ctx s u c) vb)) 4 (counted u s) := by
    simp only [effX, effPsw, rdS_counted, rdV_counted, ← hv, ← hw, ← hi]
    exact if_neg (Nat.not_le.mpr hlt)
  have hside := aside_setBundles (s := s) (u := u) w i (quarter (vr (ctx s u c) vb)) 4
  have hstore (k : Ctl) (x n : Nat) : bundleAt (landed u c k
      (setBundles w i (quarter (vr (ctx s u c) vb)) 4 (counted u s))) x n =
      if w * 2048 + i ≤ x * 2048 + n ∧ x * 2048 + n < w * 2048 + i + 4 then
        quarter (vr (ctx s u c) vb) (x * 2048 + n - (w * 2048 + i)) else bundleAt s x n := by
    rw [bundleAt, pstore_landed]
    refine (bundleAt_setBundles w i x n _ 4 _).trans ?_
    rw [bundleAt_counted]
  refine ⟨_, h.row_aside (by simp) (by simp) (by simp [privNeeded, privOf_controlProcessor hu]) rfl hown he hside,
    hside.regsKept _, hside.issues h.ready, ?_, fun k hk => ?_, fun x n hn hout => ?_⟩
  · rw [mem_landed, hside.mem]
  · rw [hstore, if_pos (by omega), show w * 2048 + (i + k) - (w * 2048 + i) = k by omega]
    rfl
  · rw [hstore, if_neg (by omega)]

end

/-- Settles O25: SV.PRST by the reset of the plot, SV.SRES by the channel it resumes, SV.PSW by the four bundles. -/
theorem supervisorInstructions : Obligations.SupervisorInstructions := by
  rintro s u c p ra rb vb v hu rfl
  refine ⟨fun h hv => ?_, fun h hgrant hst hfence hlost => h.row_svSres hu rfl rfl rfl hgrant hst hfence hlost,
    fun h hlt hfour hidle => h.row_svPsw hu rfl rfl rfl hlt hfour hidle⟩
  simpa only [decide_eq_true_eq] using h.row_svPrst hu rfl rfl hv

end Sys2Proof.Machine
end

section
/-!
PROOFS. Slot S (R125–R130): an instruction that does not steer writes one register, and control goes to the next bundle.
-/
namespace Sys2Proof.Machine
open Sys2Proof

/-! ### Rows of slot S that write one register -/

section
variable {s : State} {u c p : Nat} {i : Instr}

theorem straightOn_of_no_level {x : Ctx} (hl : x.levels = []) (hin : x.pc < 2047) :
    landAt (stepLevels x.pc x.levels x.lc) false 0 = .ok (straightOn x) := by
  rw [hl]
  exact landAt_of_le (r := (_, _)) hin _ _

/-- An instruction in slot S that a repeated bundle may contain leaves control alone (R131). -/
theorem Lone.control_straight (h : Lone s u c .S i) (hi : noRepeat i = false) :
    control s u c = .ok (straightOn (ctx s u c)) := by
  have hseq := straightOn_of_no_level h.noLoop h.inside
  have ht : Machine.truePred s u c i = true := h.truePred (by decide)
  unfold control
  simp only [h.holds, h.noRepi, ht, Bool.false_and, Bool.false_eq_true, if_false, Bool.not_true]
  split
  case h_9 => exact hseq
  all_goals cases hi

/-- What an instruction needs to issue alone in slot S: it does not steer, needs no privilege and waits for nothing. -/
structure Plain (s : State) (u c : Nat) (i : Instr) : Prop where
  straight : noRepeat i = false
  free     : privNeeded (privOf s u c) i = true
  ready    : waitOf s u c i = none

/-- The row of an instruction that writes scalar register `r`. -/
theorem Lone.row_scalar (h : Lone s u c .S i) (hp : Plain s u c i) {r : Nat} {v : W64}
    (he : effS (counted u s) u c i (counted u s) = writeS u c r v (counted u s)) :
    Runs i s fun t => ScalarResult s t u c r v ((ctx s u c).pc + 1) := by
  rw [h.writeS] at he
  refine ⟨_, h.rowS hp.free hp.ready (h.control_straight hp.straight) he ?_, scalarResult_landed s u c _ r v⟩
  rw [ctx_upd_counted]
  exact h.goesOn.setS _ _

theorem setP_frame (x : Ctx) (r : Nat) (v : W64) : setP x r v = { x with preg := (setP x r v).preg } := by
  unfold setP
  split <;> rfl

theorem GoesOn.setP {x : Ctx} (h : GoesOn x) (r : Nat) (v : W64) : GoesOn (setP x r v) := by
  rw [setP_frame]
  exact ⟨h.sound, h.loaded, h.noStep⟩

/-- Nothing is due to the predicates of a bundle that stands alone, so its result is written at once (R226). -/
theorem Alone.writeP {sl : Slot} (h : Alone s u c sl i) (r : Nat) (v : W64) :
    Machine.writeP u c r v (counted u s) = updCtx (counted u s) u c fun x => setP x r v := by
  unfold Machine.writeP writeNow
  rw [outstandingRegs_counted, h.nothingDue]
  rfl

/-- What slots that write predicate `r` and touch the words `l` leave after the beat. -/
theorem OwnEffect.predResult {e : State} {l : List Nat} (h : OwnEffect s e u c l) (hctx : ctx e u c = ctx s u c)
    (hb : CORE_BEATS u ∉ l) (r : Nat) (v : W64) :
    PredResult s (landed u c (straightOn (ctx s u c)) (updCtx e u c fun x => setP x r v)) u c r v l := by
  have hown : ctx (landed u c (straightOn (ctx s u c)) (updCtx e u c fun x => setP x r v)) u c =
      steer (straightOn (ctx s u c)) (setP (ctx s u c) r v) := by rw [ctx_landed_same, ctx_updCtx_same, hctx]
  refine ⟨fun q _ => ?_, fun q => ?_, fun q => ?_, ?_, (h.upd _).coreFrame hb _⟩
  all_goals rw [hown]
  · exact pr_setP (ctx s u c) r q v
  · rw [setP_frame]
    rfl
  · rw [setP_frame]
    exact ⟨rfl, rfl⟩
  · rfl

/-- The row of an instruction that writes predicate register `r`. -/
theorem Lone.row_pred (h : Lone s u c .S i) (hp : Plain s u c i) {r : Nat} {v : W64}
    (he : effS (counted u s) u c i (counted u s) = writeP u c r v (counted u s)) :
    Runs i s fun t => PredResult s t u c r v [] := by
  rw [h.writeP] at he
  refine ⟨_, h.rowS hp.free hp.ready (h.control_straight hp.straight) he ?_,
    (ownEffect_counted s u c).predResult (ctx_counted s u u c) List.not_mem_nil r v⟩
  rw [ctx_upd_counted]
  exact h.goesOn.setP _ _

end

/-! ### Results (R127–R129) -/

theorem shamt_eq (v : W64) : shamt v = v.toNat % 64 := by simp [shamt, bitsOf]

/-- The high half of a product of two 64-bit words. -/
theorem mulhu_eq (a b : W64) : BitVec.ofNat 64 (a.toNat * b.toNat / 2 ^ 64) =
    (a.zeroExtend 128 * b.zeroExtend 128).extractLsb' 64 64 := by
  have ha := a.isLt
  have hb := b.isLt
  have hab : a.toNat * b.toNat < 340282366920938463463374607431768211456 := by nlinarith
  apply BitVec.eq_of_toNat_eq
  simp [BitVec.extractLsb'_toNat, Nat.shiftRight_eq_div_pow, Nat.mod_eq_of_lt hab]

theorem sgn_eq_toInt {w : Nat} (hw : 0 < w) (x : Nat) : sgn w x = (BitVec.ofNat w x).toInt := by
  obtain ⟨n, rfl⟩ : ∃ n, w = n + 1 := ⟨w - 1, by omega⟩
  simp only [sgn, BitVec.toInt_eq_toNat_cond, BitVec.toNat_ofNat, Nat.add_sub_cancel, pow_succ]
  congr 1
  exact propext (by omega)

theorem sext64_eq {w : Nat} (hw : 0 < w) (x : Nat) : sext64 w x = (BitVec.ofNat w x).signExtend 64 := by
  rw [sext64, sgn_eq_toInt hw]
  rfl

theorem getLsbD_setBits {n : Nat} (v : BitVec n) (lo w x i : Nat) : (setBits v lo w x).getLsbD i =
    (decide (i < n) && if lo ≤ i ∧ i < lo + w then x.testBit (i - lo) else v.getLsbD i) := by
  have hlow : v.toNat % 2 ^ lo < 2 ^ lo := Nat.mod_lt _ (by positivity)
  have hmid : v.toNat % 2 ^ lo + x % 2 ^ w * 2 ^ lo < 2 ^ (lo + w) := by
    have hx : x % 2 ^ w + 1 ≤ 2 ^ w := Nat.mod_lt _ (by positivity)
    calc _ < 2 ^ lo + x % 2 ^ w * 2 ^ lo := Nat.add_lt_add_right hlow _
      _ = (x % 2 ^ w + 1) * 2 ^ lo := by ring
      _ ≤ 2 ^ w * 2 ^ lo := Nat.mul_le_mul_right _ hx
      _ = 2 ^ (lo + w) := by rw [pow_add, Nat.mul_comm]
  rw [setBits, BitVec.getLsbD_ofNat, Nat.add_comm (_ + _) (_ * _), Nat.mul_comm _ (2 ^ (lo + w)),
    Nat.testBit_two_pow_mul_add _ hmid, Nat.add_comm (_ % _) (_ * _), Nat.mul_comm _ (2 ^ lo), Nat.testBit_two_pow_mul_add _ hlow]
  congr 1
  by_cases h₁ : i < lo
  · rw [if_pos (by omega), if_pos h₁, if_neg (by omega), Nat.testBit_mod_two_pow]
    simp [h₁, BitVec.getLsbD]
  · by_cases h₂ : i < lo + w
    · rw [if_pos h₂, if_neg h₁, if_pos (by omega), Nat.testBit_mod_two_pow]
      simp [show i - lo < w by omega]
    · rw [if_neg h₂, if_neg (by omega), Nat.testBit_div_two_pow, show i - (lo + w) + (lo + w) = i by omega]
      rfl

/-- MOVK replaces 16 bits of its register. -/
theorem setBits_eq_masked {hw imm : Nat} (himm : imm < 65536) (d : W64) : setBits d (16 * hw) 16 imm =
    (d &&& ~~~(0xFFFF#64 <<< (16 * hw))) ||| (BitVec.ofNat 64 imm <<< (16 * hw)) := by
  apply BitVec.eq_of_getLsbD_eq
  intro i hi
  have hmask : (0xFFFF#64).getLsbD (i - 16 * hw) = decide (i - 16 * hw < 16) := by
    rw [show (0xFFFF#64) = BitVec.ofNat 64 (2 ^ 16 - 1) from rfl, BitVec.getLsbD_ofNat, Nat.testBit_two_pow_sub_one]
    simp
    omega
  have hbit : 16 ≤ i - 16 * hw → imm.testBit (i - 16 * hw) = false := fun h =>
    Nat.testBit_lt_two_pow (lt_of_lt_of_le himm (Nat.pow_le_pow_right (n := 2) (by omega) h))
  rw [getLsbD_setBits]
  simp only [BitVec.getLsbD_or, BitVec.getLsbD_and, BitVec.getLsbD_not, BitVec.getLsbD_shiftLeft, BitVec.getLsbD_ofNat, hmask, hi]
  by_cases h₁ : i < 16 * hw
  · simp [h₁, Nat.not_le.mpr h₁]
  · by_cases h₂ : i - 16 * hw < 16
    · simp [h₁, h₂, show 16 * hw ≤ i ∧ i < 16 * hw + 16 by omega, show i - 16 * hw < 64 by omega]
    · simp [h₁, h₂, hbit (by omega), show ¬ (16 * hw ≤ i ∧ i < 16 * hw + 16) by omega]

theorem min_eq (a b : W64) : (if b.slt a then b else a) = if a.toInt ≤ b.toInt then a else b := by
  simp only [BitVec.slt, decide_eq_true_eq, ← not_le, ite_not]

theorem max_eq (a b : W64) : (if a.slt b then b else a) = if a.toInt ≤ b.toInt then b else a := by
  rcases lt_trichotomy a.toInt b.toInt with h | h | h
  · simp [BitVec.slt, h, h.le]
  · simp [BitVec.toInt_inj.mp h]
  · simp [BitVec.slt, h.not_gt, h.not_ge]

theorem minu_eq (a b : W64) : (if b.ult a then b else a) = if a.toNat ≤ b.toNat then a else b := by
  simp only [BitVec.ult, decide_eq_true_eq, ← not_le, ite_not]

theorem maxu_eq (a b : W64) : (if a.ult b then b else a) = if a.toNat ≤ b.toNat then b else a := by
  rcases lt_trichotomy a.toNat b.toNat with h | h | h
  · simp [BitVec.ult, h, h.le]
  · simp [BitVec.eq_of_toNat_eq h]
  · simp [BitVec.ult, h.not_gt, h.not_ge]

/-- Settles O7: each instruction by what its slot writes; the values differ from R128's words only in their form. -/
theorem scalarArithmeticResults : Obligations.ScalarArithmeticResults := by
  rintro s u c p rd ra rb imm sh hw a b d rfl rfl rfl e he h
  have row {i : Instr} {v w : W64} (h : Lone s u c .S i) (hp : Plain s u c i)
      (hw : effS (counted u s) u c i (counted u s) = writeS u c rd w (counted u s)) (hv : w = v) :
      Runs i s fun t => ScalarResult s t u c rd v ((ctx s u c).pc + 1) := h.row_scalar hp (hw.trans (by rw [hv]))
  simp only [List.mem_cons, List.not_mem_nil, or_false] at he
  rcases he with rfl | rfl | rfl | rfl | rfl | rfl | rfl | rfl | rfl | rfl | rfl | rfl | rfl | rfl | rfl | rfl | rfl | rfl |
    rfl | rfl | rfl | rfl | rfl
  on_goal 23 =>
    have himm : imm < 65536 := by
      have := h.wf
      simp [Instr.wf, wfMovk] at this
      omega
    exact row h ⟨rfl, rfl, rfl⟩ rfl (by rw [setBits_eq_masked himm, rdS_counted])
  all_goals
    refine row h ⟨rfl, rfl, rfl⟩ rfl ?_
    simp only [rdS_counted, shamt_eq, mulhu_eq, min_eq, max_eq, minu_eq, maxu_eq, simm13, zimm13, sext64_eq (Nat.succ_pos _)]

/-! ### Compares and predicates (R128, R129) -/

/-- A compare answers all ones or all zeros, by its code. -/
theorem boolWord_cmpWord (a b : W64) :
    boolWord (cmpWord .eq a b) = (if a = b then BitVec.allOnes 64 else 0) ∧
    boolWord (cmpWord .ne a b) = (if a = b then 0 else BitVec.allOnes 64) ∧
    boolWord (cmpWord .lt a b) = (if a.toInt < b.toInt then BitVec.allOnes 64 else 0) ∧
    boolWord (cmpWord .ge a b) = (if a.toInt < b.toInt then 0 else BitVec.allOnes 64) ∧
    boolWord (cmpWord .ltu a b) = (if a.toNat < b.toNat then BitVec.allOnes 64 else 0) ∧
    boolWord (cmpWord .geu a b) = (if a.toNat < b.toNat then 0 else BitVec.allOnes 64) := by
  simp only [boolWord, cmpWord, BitVec.slt, BitVec.ult, decide_eq_true_eq, Bool.not_eq_true', decide_eq_false_iff_not, ne_eq,
    ite_not, and_self]

/-! ### System values (R130) -/

section
variable {s : State} {u c : Nat}

theorem rdP_counted (r : Nat) : rdP (counted u s) u c r = pr (ctx s u c) r := by rw [rdP, ctx_counted]

/-- The system values do not depend on the beat count. -/
theorem sysValue_counted (sel : Nat) : sysValue (counted u s) u c sel = sysValue s u c sel := by
  have words : ∀ o, o % 0x1000 ≠ 0x20 → rget (counted u s) o = rget s o := fun o ho =>
    rget_counted s (by unfold CORE_BEATS; omega)
  have plot (q : Nat) (f : Fld) (hf : f.word = 0) : fld (counted u s) (PLOT_CFG q) f = fld s (PLOT_CFG q) f :=
    fld_of_words words hf (by unfold PLOT_CFG; omega)
  have topo (f : Fld) (hf : f.word = 0) : fld (counted u s) CYUST_TOPO f = fld s CYUST_TOPO f :=
    fld_of_words words hf (by decide)
  simp only [sysValue, moduleIdx, groupIdx, ctx_counted, plotOf_of_words words, plot _ PLOT_CFG_ROW0 rfl, plot _ PLOT_CFG_COL0 rfl,
    plot _ PLOT_CFG_HEIGHT rfl, plot _ PLOT_CFG_WIDTH rfl, topo CYUST_TOPO_MODULE rfl, topo CYUST_TOPO_GROUP rfl]

/-- Selections 5 to 8 are the loop counts of the context. -/
theorem sysValue_loopCount {sel : Nat} (h : 5 ≤ sel) (h8 : sel ≤ 8) : sysValue s u c sel = mget 0 (ctx s u c).lc (sel - 5) := by
  interval_cases sel <;> rfl

/-- On a control processor the selections that name a place read 0. -/
theorem sysValue_controlProcessor (hu : 25600 ≤ u) {sel : Nat} (h : sel < 5 ∨ 9 < sel) : sysValue s u c sel = 0 := by
  have hcp : isCp u = true := decide_eq_true hu
  unfold sysValue
  split
  case h_6 => rw [if_pos hcp]
  all_goals omega

/-- The selections that name a place. -/
theorem placeSelection_cases {sel : Nat} (h : sel < 16) (hp : sel < 5 ∨ 9 < sel) : sel = 0 ∨ sel = 1 ∨ sel = 2 ∨ sel = 3 ∨
    sel = 4 ∨ sel = 10 ∨ sel = 11 ∨ sel = 12 ∨ sel = 13 ∨ sel = 14 ∨ sel = 15 := by
  omega

/-- On a core they read the place. -/
theorem sysValue_core (hu : u < 25600) : sysValue s u c 0 = u ∧ sysValue s u c 1 = c ∧
    sysValue s u c 2 = (plotOf s u).getD 0 ∧ sysValue s u c 3 = u / 128 ∧ sysValue s u c 4 = u % 128 ∧
    sysValue s u c 10 = fld s (PLOT_CFG ((plotOf s u).getD 0)) PLOT_CFG_ROW0 ∧
    sysValue s u c 11 = fld s (PLOT_CFG ((plotOf s u).getD 0)) PLOT_CFG_COL0 ∧
    sysValue s u c 12 = fld s (PLOT_CFG ((plotOf s u).getD 0)) PLOT_CFG_HEIGHT ∧
    sysValue s u c 13 = fld s (PLOT_CFG ((plotOf s u).getD 0)) PLOT_CFG_WIDTH ∧
    sysValue s u c 14 = fld s CYUST_TOPO CYUST_TOPO_MODULE ∧ sysValue s u c 15 = fld s CYUST_TOPO CYUST_TOPO_GROUP := by
  have hcp : isCp u = false := decide_eq_false (Nat.not_le.mpr hu)
  simp only [sysValue, hcp, Bool.false_eq_true, if_false, rowOf, colOf, moduleIdx, groupIdx, and_self]

end

/-- Settles O8: CMP and the predicate operations by what slot S writes, RDS by the value of `sysValue` for each selection. -/
theorem predicateResultsAndSystemValues : Obligations.PredicateResultsAndSystemValues := by
  constructor
  · rintro s u c p pd ra rb pa pb a b x y rfl rfl rfl rfl e he h
    have row {i : Instr} {v w : W64} (h : Lone s u c .S i) (hp : Plain s u c i)
        (hw : effS (counted u s) u c i (counted u s) = writeP u c pd w (counted u s)) (hv : w = v) :
        Runs i s fun t => PredResult s t u c pd v [] := h.row_pred hp (hw.trans (by rw [hv]))
    obtain ⟨heq, hne, hlt, hge, hltu, hgeu⟩ := boolWord_cmpWord (sr (ctx s u c) ra) (sr (ctx s u c) rb)
    simp only [List.mem_cons, List.not_mem_nil, or_false] at he
    rcases he with rfl | rfl | rfl | rfl | rfl | rfl | rfl | rfl | rfl | rfl
    all_goals
      refine row h ⟨rfl, rfl, rfl⟩ rfl ?_
      simp only [rdS_counted, rdP_counted, heq, hne, hlt, hge, hltu, hgeu]
  · intro s u c p rd sel v h hloop hslot hcp hcore
    have hsel : sel < 16 := by
      have := h.wf
      simp [Instr.wf, wfRds] at this
      omega
    have hv : sysValue s u c sel = v := by
      by_cases hcount : 5 ≤ sel ∧ sel ≤ 8
      · rw [sysValue_loopCount hcount.1 hcount.2, hloop hcount.1 hcount.2]
      by_cases hnine : sel = 9
      · rw [hslot hnine, hnine]
        rfl
      have hplace : sel < 5 ∨ 9 < sel := by omega
      by_cases hu : 25600 ≤ u
      · rw [sysValue_controlProcessor hu hplace, hcp hu hplace]
      obtain ⟨h0, h1, h2, h3, h4, h10, h11, h12, h13, h14, h15⟩ := sysValue_core (s := s) (c := c) (Nat.not_le.mp hu)
      obtain ⟨g0, g1, g2, g3, g4, g10, g11, g12, g13, g14, g15⟩ := hcore (Nat.not_le.mp hu)
      obtain rfl | rfl | rfl | rfl | rfl | rfl | rfl | rfl | rfl | rfl | rfl := placeSelection_cases hsel hplace
      · rw [h0, g0 rfl]
      · rw [h1, g1 rfl]
      · rw [h2, g2 rfl]
      · rw [h3, g3 rfl]
      · rw [h4, g4 rfl]
      · rw [h10, g10 rfl]
      · rw [h11, g11 rfl]
      · rw [h12, g12 rfl]
      · rw [h13, g13 rfl]
      · rw [h14, g14 rfl]
      · rw [h15, g15 rfl]
    exact h.row_scalar ⟨rfl, rfl, rfl⟩ (by rw [effS, effRds, sysValue_counted, hv])

end Sys2Proof.Machine
end

section
/-!
PROOFS. O11 fails: a beat in which nothing issues still carries out the own-page accesses of the beat before (R95).
-/
namespace Sys2Proof.Machine
open Sys2Proof

/-! ### An own-page store under way at an empty beat -/

/-- The ST.W of context 0 of unit 3 that gives its `CTX_TRAP` vector 5: issued in the last beat, it takes place in the next. -/
def vectorStore : Req :=
  let ea := 3 * 2 ^ 48 + CTX_TRAP 3 0
  { tag := 0, u := 3, c := 0, pc := 0, op := .store ea [5, 0, 0, 0] [], dst := none, pdst := 0, tracked := false,
    parts := [⟨ea, 4, none⟩], chan := false, pos := 0, cnt := 0, stamp := 0, orphan := false }

/-- Unit 3 after reset, but that context 0 has stored that vector and halted behind its step, and context 1 waits for an event. -/
def storedVectorState : State :=
  { State.reset with
    core := { State.reset.core with
      ctxs := [(ctxKey 3 0, { Ctx.unloaded with st := .halted, cause := 2 }),
        (ctxKey 3 1, { Ctx.unloaded with st := .waiting, hold := .event, reason := 10 })]
      reqs := [vectorStore] } }

/-- The vector of context 0 of unit 3 after a row, where the row is served. -/
def vectorAfter : Res → Option Nat
  | .next t => some (ctx t 3 0).vec
  | _ => none

theorem vector_storedVectorState : (ctx storedVectorState 3 0).vec = 0 := by decide

theorem vectorAfter_storedVectorState : vectorAfter (exec (.emptyBeat 3) storedVectorState) = some 5 := by decide +kernel

/-- No context of unit 3 is ready, and its one that waits is held. -/
theorem idle_storedVectorState : ∀ d, d < 8 → (ctx storedVectorState 3 d).st ≠ .ready ∧
    ((ctx storedVectorState 3 d).st = .waiting → (ctx storedVectorState 3 d).hold ≠ .none) := by decide

/-- Refutes O11: at `storedVectorState` no context of unit 3 is ready and context 1 is held, and EMPTY_BEAT gives context 0 the
vector 5 of its own-page store (R95), so another context changes. -/
theorem not_quietBundlesAndEmptyBeats : ¬ Obligations.QuietBundlesAndEmptyBeats := by
  unfold Obligations.QuietBundlesAndEmptyBeats
  rintro ⟨-, -, h⟩
  obtain ⟨quiet, -⟩ := h storedVectorState 3 1 (by decide) (by decide)
  obtain ⟨t, ht, frame, -⟩ := quiet idle_storedVectorState (by decide)
  have hafter := vectorAfter_storedVectorState
  rw [ht, vectorAfter, frame.others 3 0 (by decide), vector_storedVectorState] at hafter
  exact absurd hafter (by decide)

end Sys2Proof.Machine
end

section
/-!
PROOFS. O19 fails: the bytes that a read takes make room in the ring, and where the pages that fill it do not exist the channel halts.
-/
namespace Sys2Proof.Machine
open Sys2Proof

/-! ### A read channel whose spilled bytes lie in pages that do not exist

A receiver in spill mode refills its ring from its pages as bytes leave it (R317); a page that the map does not hold halts the
channel with 0x0603 (R320). -/

/-- A stream from a link to a register, over a ring of 256 bytes at 0x8000 of the core's scratch. -/
def spilledDesc : W512 := BitVec.ofNat 512 (2 + 2 ^ 2 + 0x8000 * 2 ^ 128)

/-- The channel with its ring full and 8 bytes more in its one page. -/
def spilledChan : Chan :=
  { Chan.closed with st := 1, owner := 1, desc := spilledDesc, acc := 256, spill := true, pages := [0], spIn := 8 }

/-- The registers after reset, but for plot 0 over unit 3 with its spill pool at the end of the address space, and for the bank
of the ring, which is channel 3's. -/
def spilledRegs : State :=
  let s := setFld (setFld State.reset (PLOT_CFG 0) PLOT_CFG_COL0 2) (PLOT_CFG 0) PLOT_CFG_HEIGHT 8
  let s := setFld (setFld s (PLOT_CFG 0) PLOT_CFG_WIDTH 8) (PLOT_CFG 0) PLOT_CFG_VALID 1
  setFld (setFld s (PLOT_SPILL_BASE 0) PLOT_SPILL_BASE_BASE (2 ^ 44 - 1)) (BANK_OWNER 3 8) BANK_OWNER_OWNER 8

/-- SM.RDS s5, p4 from channel 3 in slot M of a bundle whose other slots are NOP. -/
def streamReadBundle : W128 := BitVec.ofNat 128 ((0x0B * 2 ^ 23 + 4 * 2 ^ 20 + 5 * 2 ^ 15 + 3 * 2 ^ 13) * 2 ^ 64)

/-- The whole state: context 1 of unit 3 at the read. -/
def spilledState : State :=
  { spilledRegs with
    core := { spilledRegs.core with
      ctxs := [(ctxKey 3 1, { Ctx.unloaded with st := .ready, pc := 5 })]
      pstore := [(3 * 2048 + 5, streamReadBundle)] }
    strm := { spilledRegs.strm with chans := [(chanKey 3 3, spilledChan)] } }

theorem lone_spilledState : Lone spilledState 3 1 .M (.smRds 3 0 4 5 3) where
  unit := by decide
  context := by decide
  wf := by decide
  ready := by decide
  others := by decide
  noHalt := by decide
  noStep := by decide
  noRepi := by decide
  noLoop := by decide
  noTrap := by decide
  noEpoch := by decide +kernel
  sound := by decide
  inside := by decide
  nops := by
    intro k hk
    cases k with
    | M => exact absurd rfl hk
    | S | V | X => decide +kernel
  holds := by decide +kernel
  nothingDue := by decide
  settled := by decide
  pred _ := by decide

/-- The state code of channel 3 of unit 3 after a row, where the row is served. -/
def channelAfter : Res → Option Nat
  | .next t => some (chan t 3 3).st
  | _ => none

/-- The read of 8 bytes leaves room for those of the page: the channel, open before, is halted (3). -/
theorem channelAfter_spilledState : channelAfter (exec (.smRds 3 0 4 5 3) spilledState) = some 3 := by decide +kernel

theorem chan_spilledState : chan spilledState 3 3 = spilledChan := by decide +kernel

/-- The eight bytes are in the ring, in the channel's bank, and none of their words holds an error. -/
theorem readReady_spilledState : readReady spilledState 3 3 8 = true ∧
    (∀ k, k < 8 → latentAt spilledState (ringKey spilledState 3 spilledChan.desc (spilledChan.drained + k) / 8) = 0) ∧
    ∀ b ∈ ringGet spilledState 3 spilledChan.desc spilledChan.drained 8, b.2 = false := by decide +kernel

/-- Refutes O19: at `spilledState` the read of an open channel delivers its 8 bytes, and the refill that follows halts the
channel, as its page does not exist (R320); the statement has the channel's state kept whatever its pages hold. -/
theorem not_streamAccesses : ¬ Obligations.StreamAccesses := by
  unfold Obligations.StreamAccesses
  rintro ⟨h, -⟩
  obtain ⟨hready, hlatent, hpoison⟩ := readReady_spilledState
  obtain ⟨-, deliver⟩ := h spilledState 3 1 0 4 5 3 8 _ spilledChan _ (.inr ⟨rfl, rfl⟩) lone_spilledState
    chan_spilledState.symm (by decide) (by decide +kernel)
  obtain ⟨t, ht, -, -, -, -, -, hst, -⟩ := deliver (by decide +kernel) (by decide +kernel) hready rfl hlatent hpoison
  have hafter := channelAfter_spilledState
  rw [ht, channelAfter, hst] at hafter
  exact absurd hafter (by decide)

end Sys2Proof.Machine
end

section
/-!
PROOFS. Accesses that a bundle sends (R140, R143, R144): the access stands behind those in flight, and the beat leaves it there.
-/
namespace Sys2Proof.Machine
open Sys2Proof

/-! ### An access that has set out -/

section
variable {s e : State} {u c pc pdst : Nat} {op : ReqOp} {dst : Option Reg} {tr : Bool} {parts : List Part} {f : Req → Prop}

@[simp] theorem ctx_sendReq (v d : Nat) : ctx (sendReq u c pc op dst pdst tr parts e) v d = ctx e v d := rfl

theorem OwnEffect.sendReq {l : List Nat} (h : OwnEffect s e u c l) (pc : Nat) (op : ReqOp) (dst : Option Reg) (pdst : Nat)
    (tr : Bool) (parts : List Part) : OwnEffect s (sendReq u c pc op dst pdst tr parts e) u c l :=
  ⟨h.beside, h.others, h.words⟩

/-- What sets out has the number and the place that the state before gives it. -/
theorem setsOut_sendReq (hreqs : e.core.reqs = s.core.reqs) (htag : e.core.nextTag = s.core.nextTag)
    (hpc : pc = (ctx s u c).pc) (hf : ∀ r : Req, r.parts = parts → r.tracked = tr → f r) :
    SetsOut s (sendReq u c pc op dst pdst tr parts e) u c op dst pdst f :=
  ⟨_, congrArg (· ++ _) hreqs, htag, congrArg (· + 1) htag, rfl, rfl, hpc, rfl, rfl, rfl, rfl, rfl, hf _ rfl rfl⟩

theorem SetsOut.of_core {t : State} (h : SetsOut s e u c op dst pdst f) (hreqs : t.core.reqs = e.core.reqs)
    (htag : t.core.nextTag = e.core.nextTag) : SetsOut s t u c op dst pdst f := by
  obtain ⟨r, hr, ht, hn, hrest⟩ := h
  exact ⟨r, hreqs.trans hr, ht, htag.trans hn, hrest⟩

theorem SetsOut.upd (h : SetsOut s e u c op dst pdst f) (v d : Nat) (g : Ctx → Ctx) :
    SetsOut s (updCtx e v d g) u c op dst pdst f := h.of_core rfl rfl

theorem reqs_landed (k : Ctl) (e : State) : (landed u c k e).core.reqs = e.core.reqs := by
  unfold landed
  rw [plotCtr_core]
  rfl

theorem nextTag_landed (k : Ctl) (e : State) : (landed u c k e).core.nextTag = e.core.nextTag := by
  unfold landed
  rw [plotCtr_core]
  rfl

theorem SetsOut.landed (h : SetsOut s e u c op dst pdst f) (k : Ctl) : SetsOut s (landed u c k e) u c op dst pdst f :=
  h.of_core (reqs_landed k e) (nextTag_landed k e)

/-- What a beat leaves of a bundle in slot X that has sent an access and touched nothing but its own context. -/
theorem Lone.row_sends {i : Instr} (h : Lone s u c .X i) (hf : ∀ v q n, i ≠ .fault v q n) (hh : ∀ v q, i ≠ .halt v q)
    (hp : privNeeded (privOf s u c) i = true) (hw : waitOf s u c i = none) (hown : ownFault s u c i = none)
    (he : effX (counted u s) u c i (counted u s) = e) (hset : SetsOut s e u c op dst pdst f) (heff : OwnEffect s e u c [])
    (hregs : regsOf (ctx e u c) = regsOf (ctx s u c)) (hgo : GoesOn (ctx e u c)) :
    Runs i s fun t => SetsOut s t u c op dst pdst f ∧ RegsKept s t u c ∧ CoreFrame s t u c [] ∧
      ctx t u c = steer (straightOn (ctx s u c)) (ctx e u c) :=
  ⟨_, h.rowX hf hh hp hw hown he hgo, hset.landed _, regsKept_of_regsOf (regsOf_landed _ hregs),
    heff.coreFrame List.not_mem_nil _, ctx_landed_same _ _ _ _⟩

end

/-! ### Operations on the messaging blocks -/

section
variable {s : State} {u c pdst : Nat} {i : Instr} {op : ReqOp} {dst : Option Reg}

theorem setsOut_counted (tr : Bool) (parts : List Part) : SetsOut s
    (sendReq u c (ctx s u c).pc op dst pdst tr parts (counted u s)) u c op dst pdst fun r => r.parts = parts :=
  setsOut_sendReq (by rw [bumpFld_core]) (by rw [bumpFld_core]) rfl fun _ hr _ => hr

/-- An instruction that needs a tracking entry only where one is free does not wait. -/
theorem noEntryWait {needs free : Bool} (h : needs = true → free = true) :
    (if needs && !free then some 4 else none) = (none : Option Nat) := by
  cases needs with
  | false => rfl
  | true => simp [h rfl]

theorem effOp_counted : ∃ tr, effOp (counted u s) u c op dst pdst (counted u s) =
    sendReq u c (ctx s u c).pc op dst pdst tr [⟨0, 0, none⟩] (counted u s) := by
  unfold effOp sendOp
  rw [ctx_counted]
  exact ⟨_, rfl⟩

/-- What R140 says of a request that an instruction sends before it goes on. -/
def SendsOp (s : State) (u c : Nat) (op : ReqOp) (dst : Option Reg) (pdst : Nat) (t : State) : Prop :=
  SetsOut s t u c op dst pdst (fun r => r.parts = [⟨0, 0, none⟩]) ∧ RegsKept s t u c ∧ CoreFrame s t u c [] ∧
    (ctx t u c).pc = (ctx s u c).pc + 1 ∧ (ctx t u c).st = .ready

/-- An instruction that sends one request and goes on. -/
theorem Lone.row_op {tr : Bool} (h : Lone s u c .X i) (hf : ∀ v q n, i ≠ .fault v q n) (hh : ∀ v q, i ≠ .halt v q)
    (hp : privNeeded (privOf s u c) i = true) (hw : waitOf s u c i = none) (hown : ownFault s u c i = none)
    (he : effX (counted u s) u c i (counted u s) =
      sendReq u c (ctx s u c).pc op dst pdst tr [⟨0, 0, none⟩] (counted u s)) : Runs i s (SendsOp s u c op dst pdst) := by
  have hctx : ctx (sendReq u c (ctx s u c).pc op dst pdst tr [⟨0, 0, none⟩] (counted u s)) u c = ctx s u c := by
    rw [ctx_sendReq, ctx_counted]
  refine (h.row_sends hf hh hp hw hown he (setsOut_counted _ _) ((ownEffect_counted s u c).sendReq _ _ _ _ _ _)
    (by rw [hctx]) (by rw [hctx]; exact h.goesOn)).mono fun t ⟨hset, hregs, hframe, ht⟩ => ⟨hset, hregs, hframe, ?_⟩
  rw [ht, hctx]
  exact ⟨rfl, h.ready⟩

/-- An instruction that does no more than send an operation on a messaging block. -/
theorem Lone.row_effOp (h : Lone s u c .X i) (hf : ∀ v q n, i ≠ .fault v q n) (hh : ∀ v q, i ≠ .halt v q)
    (hp : privNeeded (privOf s u c) i = true) (hw : waitOf s u c i = none) (hown : ownFault s u c i = none)
    (he : effX (counted u s) u c i (counted u s) = effOp (counted u s) u c op dst pdst (counted u s)) :
    Runs i s (SendsOp s u c op dst pdst) := by
  obtain ⟨tr, hsend⟩ := effOp_counted (s := s) (u := u) (c := c) (op := op) (dst := dst) (pdst := pdst)
  exact h.row_op hf hh hp hw hown (he.trans hsend)

theorem syncRefFault_none {v : Nat} (h : v < 2 ^ 26 ∧ (v < 2 ^ 25 → v < 2 ^ 16)) : syncRefFault v = none := by
  have hout : ¬ (2 ^ 26 ≤ v ∨ v / 2 ^ 25 % 2 = 0 ∧ v / 2 ^ 16 ≠ 0) := by omega
  simpa [syncRefFault] using hout

/-- A message without a body names neither bytes nor their address. -/
theorem mbxFault_none {a b : Nat} (h : a < 2 ^ 11) : mbxFault s u c a b = none := by
  have hn : a / 2 ^ 11 % 512 = 0 := by omega
  have ha : ¬ 2 ^ 20 ≤ a := by omega
  simp only [mbxFault, hn, ha]
  rfl

theorem effMbxSend_counted {rd ra rb : Nat} (h : (sr (ctx s u c) ra).toNat < 2 ^ 11) :
    effMbxSend (counted u s) u c rd ra rb (counted u s) = sendReq u c (ctx s u c).pc
      (.mbxSend ((sr (ctx s u c) ra).toNat % 64) ((sr (ctx s u c) ra).toNat / 64 % 32) 0) (some (.s rd)) 0 (decide (rd ≠ 0))
      [⟨0, 0, none⟩] (counted u s) := by
  have hn : (sr (ctx s u c) ra).toNat / 2 ^ 11 % 512 = 0 := by omega
  simp only [effMbxSend, rdS_counted, ctx_counted, hn, bodyParts]
  rfl

/-- SYNC.WAIT sends its operation and holds its context until the answer (R94, R358). -/
theorem Lone.row_syncWait {p rd ra rb : Nat} (h : Lone s u c .X (.syncWait u p rd ra rb))
    (hown : ownFault s u c (.syncWait u p rd ra rb) = none) : Runs (.syncWait u p rd ra rb) s fun t =>
      SetsOut s t u c (.syncWait (sr (ctx s u c) ra).toNat (sr (ctx s u c) rb)) (some (.s rd)) 0
        (fun r => r.parts = [⟨0, 0, none⟩]) ∧ RegsKept s t u c ∧ CoreFrame s t u c [] ∧
      (ctx t u c).pc = (ctx s u c).pc + 1 ∧ (ctx t u c).st = .waiting ∧ (ctx t u c).reason = 9 ∧
      (ctx t u c).hold = .sync s.core.nextTag := by
  have he : effX (counted u s) u c (.syncWait u p rd ra rb) (counted u s) =
      updCtx (sendReq u c (ctx s u c).pc (.syncWait (sr (ctx s u c) ra).toNat (sr (ctx s u c) rb)) (some (.s rd)) 0 false
        [⟨0, 0, none⟩] (counted u s)) u c (toHold (.sync s.core.nextTag)) := by
    simp only [effX, effSyncWait, effOp, sendOp, rdS_counted, ctx_counted, bumpFld_core]
  have hctx := (ctx_updCtx_same (sendReq u c (ctx s u c).pc (.syncWait (sr (ctx s u c) ra).toNat (sr (ctx s u c) rb))
    (some (.s rd)) 0 false [⟨0, 0, none⟩] (counted u s)) u c (toHold (.sync s.core.nextTag))).trans
      (by rw [ctx_sendReq, ctx_counted])
  refine (h.row_sends (by simp) (by simp) rfl rfl hown he ((setsOut_counted _ _).upd _ _ _)
    (((ownEffect_counted s u c).sendReq _ _ _ _ _ _).upd _) (by rw [hctx, regsOf_toHold])
    (by rw [hctx]; exact h.goesOn.toHold _)).mono fun t ⟨hset, hregs, hframe, ht⟩ => ⟨hset, hregs, hframe, ?_⟩
  rw [ht, hctx, toHold_of_ready _ h.ready]
  exact ⟨rfl, rfl, rfl, rfl⟩

end

/-- Settles O22: each instruction by the request its slot sends; the checks of R143 pass by the operand's range. -/
theorem messagingInstructionsSetOut : Obligations.MessagingInstructionsSetOut := by
  rintro s u c p rd pd vb ra rb v w rfl rfl e he h hrange hfree
  have goesOn {i : Instr} {op : ReqOp} {dst : Option Reg} {pdst : Nat} (hrow : Runs i s (SendsOp s u c op dst pdst))
      (hi : i ≠ .syncWait u p rd ra rb) : Runs i s fun t =>
        SetsOut s t u c op dst pdst (fun r => r.parts = [⟨0, 0, none⟩]) ∧ RegsKept s t u c ∧ CoreFrame s t u c [] ∧
        (ctx t u c).pc = (ctx s u c).pc + 1 ∧
        (if i = .syncWait u p rd ra rb then (ctx t u c).st = .waiting ∧ (ctx t u c).reason = 9 ∧
          (ctx t u c).hold = .sync s.core.nextTag else (ctx t u c).st = .ready) :=
    hrow.mono fun t ⟨hset, hregs, hframe, hpc, hst⟩ => ⟨hset, hregs, hframe, hpc, by rw [if_neg hi]; exact hst⟩
  simp only [List.mem_cons, List.not_mem_nil, or_false] at he
  rcases he with rfl | rfl | rfl | rfl | rfl | rfl | rfl | rfl | rfl | rfl
  case inr.inr.inl => simpa using h.row_syncWait (syncRefFault_none hrange)
  all_goals refine goesOn ?_ (by simp)
  · exact h.row_effOp (by simp) (by simp) rfl (noEntryWait hfree) (syncRefFault_none hrange) (by simp only [effX, rdS_counted])
  · exact h.row_effOp (by simp) (by simp) rfl (noEntryWait hfree) (syncRefFault_none hrange) (by simp only [effX, rdS_counted])
  · exact h.row_effOp (by simp) (by simp) rfl (noEntryWait hfree) (syncRefFault_none hrange) (by simp only [effX, rdS_counted])
  · exact h.row_effOp (by simp) (by simp) rfl (noEntryWait hfree) (if_pos hrange) (by simp only [effX, rdS_counted])
  · exact h.row_effOp (by simp) (by simp) rfl rfl (if_pos hrange) (by simp only [effX, rdS_counted])
  · exact h.row_op (by simp) (by simp) rfl (noEntryWait hfree) (mbxFault_none hrange) (effMbxSend_counted hrange)
  · exact h.row_effOp (by simp) (by simp) rfl (noEntryWait hfree) (if_pos hrange) (by simp only [effX, rdS_counted])
  · exact h.row_effOp (by simp) (by simp) rfl (noEntryWait hfree) (if_pos hrange)
      (by simp only [effX, rdS_counted, rdV_counted])
  · exact h.row_effOp (by simp) (by simp) rfl (noEntryWait hfree) (if_pos hrange) (by simp only [effX, rdS_counted])

end Sys2Proof.Machine
end

section
/-!
PROOFS. The fabric ports (R415–R417): what FP.RD, FP.WR, FP.MARK and FP.FLUSH make of a port, and what their beats leave alone.
-/
namespace Sys2Proof.Machine
open Sys2Proof

/-! ### A beat that changes its own context and blocks beside the registers -/

section
variable {s e : State} {u c : Nat}

/-- The slots of a bundle have left the registers of the device, the other contexts and the waiting commands alone. -/
structure OwnIssue (s e : State) (u c : Nat) : Prop where
  others : ∀ v d, ctxKey v d ≠ ctxKey u c → ctx e v d = ctx s v d
  csr    : e.csr = (counted u s).csr
  queue  : e.pending = s.pending

theorem Aside.ownIssue (h : Aside s e u) : OwnIssue s e u c := ⟨fun v d _ => h.ctx v d, h.csr, h.queue⟩

theorem OwnIssue.upd (h : OwnIssue s e u c) (f : Ctx → Ctx) : OwnIssue s (updCtx e u c f) u c :=
  ⟨fun v d hv => (ctx_updCtx_other e u c v d f hv).trans (h.others v d hv), h.csr, h.queue⟩

theorem OwnIssue.issues (h : OwnIssue s e u c) (hready : (ctx e u c).st = .ready) :
    Issues s (landed u c (straightOn (ctx s u c)) e) u c [] := by
  refine ⟨fun v d hv => (ctx_landed_other _ e hv).trans (h.others v d hv), ?_, ?_, ?_, fun o ho => ?_,
    (pending_landed _ e).trans h.queue⟩
  · rw [ctx_landed_same]
    rfl
  · rw [ctx_landed_same]
    exact hready
  · rw [fld_landed, fld_of_csr h.csr, fld_beats_counted]
  · rw [rget_landed, rget_of_csr h.csr, rget_counted s (by simpa using ho)]

/-- A result to a register to which nothing is due is written at once (R226). -/
theorem writeS_of_none {t : State} (h : outstandingRegs t u c = []) (r : Nat) (v : W64) :
    writeS u c r v t = updCtx t u c fun x => setS x r v := by
  unfold writeS writeNow
  rw [h]
  rfl

theorem loam_landed (k : Ctl) (e : State) : (landed u c k e).loam = e.loam := by
  obtain ⟨-, -, -, -, -, -, -, hloam, -⟩ := fields_of_besideCore (besideCore_landed u c k e)
  exact hloam

end

/-! ### The instructions -/

section
variable {s : State} {u c p r e : Nat}

theorem isCp_of_core (hu : u < 25600) : isCp u = false := decide_eq_false (Nat.not_le.mpr hu)

theorem fabFault_none (hu : u < 25600) (he : hasEdge u e = true) : fabFault u e = none := by
  simp [fabFault, isCp_of_core hu, he]

theorem borderFree (hp : privOf s u c = .border) : (isCp u || decide (privOf s u c = .border)) = true := by simp [hp]

theorem fabOf_counted : fabOf (counted u s) u e = fabOf s u e := by simp only [fabOf, bumpFld_loam]

theorem Aside.setFab {t : State} (h : Aside s t u) (w k : Nat) (q : FabPort) : Aside s (Machine.setFab w k q t) u :=
  ⟨h.ctxs, h.csr, h.mem, h.queue⟩

/-- The movement of tokens is aside. -/
theorem Aside.of_tokenKept {t v : State} (h : Aside s t u) (hkept : tokenKept v = tokenKept t) : Aside s v u := by
  obtain ⟨hcsr, hcore, hmem, -⟩ := parts_of_tokenKept hkept
  have hqueue : (tokenKept v).pending = (tokenKept t).pending := congrArg State.pending hkept
  exact ⟨(congrArg CoreSt.ctxs hcore).trans h.ctxs, hcsr.trans h.csr, hmem.trans h.mem, hqueue.trans h.queue⟩

theorem fabOf_setFab (q : FabPort) (t : State) : fabOf (setFab u e q t) u e = q := mget_mset_same _ _ _ _

theorem fabOf_of_loam {t v : State} (h : t.loam = v.loam) : fabOf t u e = fabOf v u e := by rw [fabOf, fabOf, h]

theorem outstandingRegs_setFab (q : FabPort) (t : State) (v d : Nat) :
    outstandingRegs (setFab u e q t) v d = outstandingRegs t v d := rfl

/-- The port without its oldest word. -/
def withoutOldest (s : State) (u e : Nat) : FabPort := { fabOf s u e with rx := (fabOf s u e).rx.tail }

theorem Lone.effX_fpRd {w : W64} {rest : List W64} (hrx : (fabOf s u e).rx = w :: rest) (h : Lone s u c .X (.fpRd u p r e)) :
    effX (counted u s) u c (.fpRd u p r e) (counted u s) =
      updCtx (setFab u e (withoutOldest s u e) (counted u s)) u c fun x => setS x r w := by
  rw [← writeS_of_none (by rw [outstandingRegs_setFab, outstandingRegs_counted, h.nothingDue])]
  simp only [effX, effFpRd, fabOf_counted, hrx, List.headD_cons, withoutOldest]

/-- FP.RD takes the oldest word from its port. -/
theorem Lone.row_fpRd {w : W64} {rest : List W64} (hu : u < 25600) (hedge : hasEdge u e = true) (hp : privOf s u c = .border)
    (hready : fabReady s u e = true) (hrx : (fabOf s u e).rx = w :: rest) (h : Lone s u c .X (.fpRd u p r e)) :
    Runs (.fpRd u p r e) s fun t =>
      (∀ q, sr (ctx t u c) q = if q = r ∧ r ≠ 0 then w else sr (ctx s u c) q) ∧
      (∀ q, vr (ctx t u c) q = vr (ctx s u c) q ∧ pr (ctx t u c) q = pr (ctx s u c) q ∧ dr (ctx t u c) q = dr (ctx s u c) q) ∧
      (fabOf t u e).rx = rest ∧ (fabOf t u e).tx = (fabOf s u e).tx ∧ Issues s t u c [] ∧ t.mem = s.mem := by
  have hside : Aside s (setFab u e (withoutOldest s u e) (counted u s)) u := aside_counted.setFab _ _ _
  have hctx : ctx (updCtx (setFab u e (withoutOldest s u e) (counted u s)) u c fun x => setS x r w) u c =
      setS (ctx s u c) r w := by rw [ctx_updCtx_same, hside.ctx]
  have hwait : waitOf s u c (.fpRd u p r e) = none := if_pos (by rw [hready, hrx]; rfl)
  have hport (k : Ctl) : fabOf (landed u c k (updCtx (setFab u e (withoutOldest s u e) (counted u s)) u c
      fun x => setS x r w)) u e = withoutOldest s u e := by
    rw [fabOf_of_loam ((loam_landed k _).trans (updCtx_loam _ _ _ _)), fabOf_setFab]
  refine ⟨_, h.rowX (by simp) (by simp) (borderFree hp) hwait (fabFault_none hu hedge) (h.effX_fpRd hrx)
    (by rw [hctx]; exact h.goesOn.setS _ _), fun q => ?_, fun q => ?_, ?_, ?_, ?_, ?_⟩
  · rw [ctx_landed_same, hctx]
    exact sr_setS (ctx s u c) r q w
  · rw [ctx_landed_same, hctx, setS_frame]
    exact ⟨rfl, rfl, rfl⟩
  · rw [hport, withoutOldest, hrx]
    rfl
  · rw [hport]
    rfl
  · exact (hside.ownIssue.upd _).issues (by rw [hctx, setS_frame]; exact h.ready)
  · exact (mem_landed _ _).trans ((updCtx_mem _ _ _ _).trans hside.mem)

/-- The sites from which the tokens of a port's transfers move on. -/
def txSites (u e : Nat) : List Nat := (List.range 5).map fun k => siteAt (regionOf u e) (portOf u e) 0 * 32 + 14 + k

/-- The port with a transfer behind those that wait. -/
def queued (s : State) (u e : Nat) (x : FabTx) : FabPort := { fabOf s u e with tx := (fabOf s u e).tx ++ [(x, txTokens x)] }

/-- An instruction that queues a transfer, from where its tokens move on. -/
theorem Lone.row_fabSend {i : Instr} {x : FabTx} (hf : ∀ v q n, i ≠ .fault v q n) (hh : ∀ v q, i ≠ .halt v q)
    (h : Lone s u c .X i) (hp : privNeeded (privOf s u c) i = true) (hw : waitOf s u c i = none)
    (hown : ownFault s u c i = none) (he : effX (counted u s) u c i (counted u s) = fabSend u e x (counted u s)) :
    Runs i s fun t => (∃ a : State, a.loam = (setFab u e (queued s u e x) s).loam ∧ t.loam = (move (txSites u e) a).loam) ∧
      RegsKept s t u c ∧ (ctx t u c).pc = (ctx s u c).pc + 1 ∧ t.mem = s.mem ∧ t.core.reqs = s.core.reqs := by
  let a : State := setFab u e (queued s u e x) (counted u s)
  have hsend : fabSend u e x (counted u s) = move (txSites u e) a := by
    unfold fabSend
    rw [fabOf_counted]
    rfl
  have hside : Aside s (move (txSites u e) a) u := (aside_counted.setFab _ _ _).of_tokenKept (tokenKept_move _ _)
  obtain ⟨-, hcore, -⟩ := parts_of_tokenKept (tokenKept_move (txSites u e) a)
  have hreqs : (move (txSites u e) a).core.reqs = s.core.reqs := by
    rw [hcore]
    simp only [a, setFab, bumpFld_core]
  have hloam : a.loam = (setFab u e (queued s u e x) s).loam := by
    simp only [a, setFab, bumpFld_loam]
  exact ⟨_, h.row_aside hf hh hp hw hown (he.trans hsend) hside, ⟨a, hloam, loam_landed _ _⟩, hside.regsKept _,
    by rw [ctx_landed_same]; rfl, (mem_landed _ _).trans hside.mem, (reqs_landed _ _).trans hreqs⟩

end

/-- Settles O24: FP.RD by the port it leaves, FP.WR and FP.MARK by the transfer they queue, FP.FLUSH by the beat alone. -/
theorem fabricPortInstructions : Obligations.FabricPortInstructions := by
  intro s u c p r e imm hu hedge hp hready
  have hfault := fabFault_none hu hedge
  refine ⟨fun w rest hrx h => h.row_fpRd hu hedge hp hready hrx, fun i x hi h hroom => ?_, fun h hempty => ?_⟩
  · have hwait : (if fabReady s u e && decide ((fabOf s u e).tx.length < 4) then none else some 6) = (none : Option Nat) :=
      if_pos (by rw [hready, decide_eq_true hroom]; rfl)
    obtain ⟨rfl, rfl⟩ | ⟨rfl, rfl⟩ := hi
    · exact h.row_fabSend (by simp) (by simp) (borderFree hp) hwait hfault (by simp only [effX, rdS_counted])
    · exact h.row_fabSend (by simp) (by simp) (borderFree hp) hwait hfault rfl
  · have hwait : waitOf s u c (.fpFlush u p e) = none := if_pos (by rw [hready, hempty]; rfl)
    exact ⟨_, h.rowX (by simp) (by simp) (borderFree hp) hwait hfault rfl h.goesOn_counted, h.goes _⟩

end Sys2Proof.Machine
end

section
/-!
PROOFS. The core's own memories (R250–R257, R382): what an access to them leaves alone, and how an access falls into parts.
-/
namespace Sys2Proof.Machine
open Sys2Proof

/-! ### What errors in local memory leave alone -/

/-- The cores, Sieve's regions and the waiting commands: none of them changes with the words of local memory. -/
def localKept (s : State) : CoreSt × AvlSt × List Instr := (s.core, s.avl, s.pending)

theorem localKept_of_parts {s t : State} (hc : t.core = s.core) (ha : t.avl = s.avl) (hp : t.pending = s.pending) :
    localKept t = localKept s := by simp only [localKept, hc, ha, hp]

theorem parts_of_localKept {s t : State} (h : localKept t = localKept s) :
    t.core = s.core ∧ t.avl = s.avl ∧ t.pending = s.pending := by
  simpa only [localKept, Prod.mk.injEq] using h

@[simp] theorem localKept_mem (s : State) (m : MemSt) : localKept { s with mem := m } = localKept s := rfl
@[simp] theorem localKept_setLocPoison (s : State) (w : Nat) (b : Bool) : localKept (setLocPoison s w b) = localKept s := rfl
@[simp] theorem localKept_setFld (s : State) (r : Nat) (f : Fld) (x : Nat) : localKept (setFld s r f x) = localKept s :=
  localKept_of_parts (setFld_core s _ _ _) (setFld_avl s _ _ _) (setFld_pending s _ _ _)
@[simp] theorem localKept_satFld (s : State) (r : Nat) (f : Fld) (x : Nat) : localKept (satFld s r f x) = localKept s :=
  localKept_of_parts (satFld_core s _ _ _) (satFld_avl s _ _ _) (satFld_pending s _ _ _)
@[simp] theorem localKept_bumpFld (s : State) (r : Nat) (f : Fld) (x : Nat) : localKept (bumpFld s r f x) = localKept s :=
  localKept_of_parts (bumpFld_core s _ _ _) (bumpFld_avl s _ _ _) (bumpFld_pending s _ _ _)
@[simp] theorem localKept_logErr (code src : Nat) (p : Option Nat) (i : Nat) (s : State) :
    localKept (logErr code src p i s) = localKept s := rfl

@[simp] theorem localKept_touchWord (n : Nat) (s : State) (w : Nat) : localKept (touchWord n s w) = localKept s := by
  unfold touchWord
  split
  · rfl
  · rw [localKept_mem, localKept_satFld]
  · split
    · rfl
    · rw [localKept_logErr]
      split <;> simp

@[simp] theorem localKept_touchRange (n k len : Nat) (s : State) : localKept (touchRange n k len s) = localKept s :=
  foldl_keeps localKept _ (localKept_touchWord n) _ _

@[simp] theorem localKept_locStore (n k : Nat) (d : List Byte) (s : State) : localKept (locStore n k d s) = localKept s := by
  unfold locStore
  refine (foldl_keeps localKept _ (fun t w => ?_) _ _).trans
    ((localKept_mem _ _).trans (foldl_keeps localKept _ (localKept_touchWord n) _ _))
  split
  · rfl
  · split <;> rfl

theorem ctx_of_localKept {s t : State} (h : localKept t = localKept s) (u c : Nat) : ctx t u c = ctx s u c := by
  obtain ⟨hcore, -⟩ := parts_of_localKept h
  unfold ctx
  rw [hcore]

theorem homeKey_of_localKept {s t : State} (h : localKept t = localKept s) (a : Nat) : homeKey t a = homeKey s a := by
  obtain ⟨-, havl, -⟩ := parts_of_localKept h
  simp only [homeKey, physUnit, physOf, spareOf, havl]

theorem mustWait_of_localKept {s t : State} (h : localKept t = localKept s) (u c a n : Nat) :
    mustWait t u c a n = mustWait s u c a n := by
  obtain ⟨hcore, havl, -⟩ := parts_of_localKept h
  simp only [mustWait, ownHeld, homeKey_of_localKept h, sieveHolds, sieveZone, havl, hcore]

/-! ### Words without an error -/

theorem mem_wordsOf {k n w : Nat} : w ∈ wordsOf k n ↔ 0 < n ∧ k / 8 ≤ w ∧ w ≤ (k + n - 1) / 8 := by
  unfold wordsOf
  split
  · next h => simp [h]
  · next h =>
    simp only [List.mem_map, List.mem_range]
    constructor
    · rintro ⟨a, ha, rfl⟩
      omega
    · rintro ⟨-, hlo, hhi⟩
      exact ⟨w - k / 8, by omega, by omega⟩

/-- The words of bytes `[k + d, k + d + m)` are among those of `[k, k + n)`. -/
theorem wordsOf_subset {k n d m w : Nat} (h : d + m ≤ n) (hw : w ∈ wordsOf (k + d) m) : w ∈ wordsOf k n := by
  rw [mem_wordsOf] at hw ⊢
  omega

theorem touchWord_of_clean {s : State} {n w : Nat} (h : latentAt s w = 0) : touchWord n s w = s := by
  unfold touchWord
  rw [h]
  rfl

theorem touchWords_of_clean {s : State} {n : Nat} {ws : List Nat} (h : ∀ w ∈ ws, latentAt s w = 0) :
    ws.foldl (touchWord n) s = s := by
  induction ws with
  | nil => rfl
  | cons w ws ih =>
    rw [List.foldl_cons, touchWord_of_clean (h w List.mem_cons_self)]
    exact ih fun v hv => h v (List.mem_cons_of_mem _ hv)

theorem touchRange_of_clean {s : State} {n k len : Nat} (h : ∀ w ∈ wordsOf k len, latentAt s w = 0) :
    touchRange n k len s = s := touchWords_of_clean h

theorem badOf_of_clean {s : State} {a k n : Nat} (h : ∀ w ∈ wordsOf k n, locPoisoned s w = false) : badOf s a k n = [] := by
  have hnone : (wordsOf k n).filter (fun w => locPoisoned s w) = [] :=
    List.filter_eq_nil_iff.mpr fun w hw => by rw [h w hw]; decide
  rw [badOf, hnone]
  rfl

/-! ### The parts of an access -/

/-- A part stays in one unit of `g` bytes, and starts the access or a unit. -/
theorem mem_splitAt {fuel g a n : Nat} {x : Nat × Nat} (hg : 0 < g) (h : x ∈ splitAt fuel g a n) :
    (x.1 = a ∨ x.1 % g = 0) ∧ x.1 % g + x.2 ≤ g ∧ a ≤ x.1 ∧ x.1 + x.2 ≤ a + n ∧ 0 < x.2 := by
  induction fuel generalizing a n with
  | zero => cases h
  | succ fuel ih =>
    have hlt := Nat.mod_lt a hg
    unfold splitAt at h
    split at h
    · cases h
    · dsimp only at h
      rcases List.mem_cons.mp h with rfl | h
      · refine ⟨.inl rfl, ?_, le_refl _, ?_, ?_⟩ <;> dsimp only <;> omega
      · obtain ⟨hstart, hfit, hlo, hhi, hpos⟩ := ih h
        refine ⟨.inr ?_, hfit, by omega, by omega, hpos⟩
        rcases hstart with hx | hx
        · by_cases hall : n ≤ g - a % g
          · rw [Nat.min_eq_left hall] at h
            have : splitAt fuel g (a + n) (n - n) = [] := by cases fuel <;> simp [splitAt]
            rw [this] at h
            cases h
          · have hdiv := Nat.div_add_mod a g
            have hnext : x.1 = g * (a / g + 1) := by
              rw [hx, Nat.min_eq_right (by omega), Nat.mul_add]
              omega
            rw [hnext, Nat.mul_mod_right]
        · exact hx

theorem ownMem_iff {u a : Nat} : ownMem u a = true ↔
    selOf a = 1 ∧ offOf a / 2 ^ 19 = u ∨ selOf a = 2 ∧ offOf a / 2 ^ 16 = u := by
  have hcore : (selOf a = 1 → homeCore a = some (offOf a / 2 ^ 19)) ∧ (selOf a = 2 → homeCore a = some (offOf a / 2 ^ 16)) := by
    constructor <;> intro h <;> simp only [homeCore, h]
  simp only [ownMem, Bool.and_eq_true, Bool.or_eq_true, decide_eq_true_eq]
  constructor
  · rintro ⟨h | h, hu⟩
    · exact .inl ⟨h, Option.some.inj ((hcore.1 h).symm.trans hu)⟩
    · exact .inr ⟨h, Option.some.inj ((hcore.2 h).symm.trans hu)⟩
  · rintro (⟨h, rfl⟩ | ⟨h, rfl⟩)
    · exact ⟨.inl h, hcore.1 h⟩
    · exact ⟨.inr h, hcore.2 h⟩

/-- Within one core's scratch the address and the key rise together. -/
theorem homeKey_add {a d : Nat} (s : State) (hs : selOf a = 2) (hd : a % 2 ^ 16 + d < 2 ^ 16) :
    selOf (a + d) = 2 ∧ homeCore (a + d) = homeCore a ∧ homeKey s (a + d) = homeKey s a + d := by
  have hsel : selOf (a + d) = 2 := by
    unfold selOf at *
    omega
  have hcore : homeCore (a + d) = homeCore a := by
    simp only [homeCore, hs, hsel, offOf]
    congr 1
    omega
  refine ⟨hsel, hcore, ?_⟩
  have hloc : localOf (a + d) = localOf a + d := by
    rw [localOf, localOf, hs, hsel, if_neg (by decide), if_neg (by decide), offOf, offOf]
    omega
  rw [homeKey, homeKey, hcore, hloc]
  unfold locKey
  omega

/-- A part in scratch lies in one core's scratch. -/
theorem partsOf_fits {s : State} {ea n : Nat} {x : Nat × Nat} (hn : n ≤ 64) (hx : x ∈ partsOf s ea n) (hs : selOf x.1 = 2) :
    x.1 % 2 ^ 16 + x.2 ≤ 2 ^ 16 := by
  unfold partsOf at hx
  split at hx
  next =>
    obtain ⟨-, hfit, -⟩ := mem_splitAt (by omega) hx
    omega
  next hfar =>
    split at hx
    next h1 =>
      obtain ⟨hstart, hfit, hlo, hhi, -⟩ := mem_splitAt (by omega) hx
      rcases hstart with h | h
      · rw [h, h1] at hs
        cases hs
      · omega
    next =>
      split at hx
      next =>
        obtain ⟨-, hfit, -⟩ := mem_splitAt (by omega) hx
        exact hfit
      next h2 =>
        obtain rfl := List.mem_singleton.mp hx
        exact absurd hs h2

/-- An access whose ends lie in the core's own scratch, or in its own Silt, is one part. -/
theorem partsOf_of_ownAll {s : State} {u ea n : Nat} (h : ownAll u ea n = true) (hpos : 0 < n) (hn : n ≤ 64) :
    partsOf s ea n = [(ea, n)] := by
  have one (fuel g : Nat) (hfit : ea % g + n ≤ g) : splitAt (fuel + 1) g ea n = [(ea, n)] := by
    have hmin : min n (g - ea % g) = n := by omega
    have hend : splitAt fuel g (ea + n) 0 = [] := by cases fuel <;> rfl
    simp only [splitAt, hpos.ne', if_false, hmin, Nat.sub_self, hend]
  obtain ⟨hlo, hhi⟩ := Bool.and_eq_true_iff.mp h
  rw [ownMem_iff] at hlo hhi
  unfold selOf offOf at hlo hhi
  have hnear : (isLocalDram s (selOf ea) || decide (0x40 ≤ selOf ea)) = false := by
    simp only [isLocalDram, Bool.or_eq_false_iff, decide_eq_false_iff_not]
    unfold selOf
    omega
  unfold partsOf
  rw [hnear]
  simp only [Bool.false_eq_true, if_false]
  unfold selOf
  rcases hlo with ⟨hsel, hcore⟩ | ⟨hsel, hcore⟩
  · rw [if_pos hsel]
    exact one 2 _ (by omega)
  · rw [if_neg (by omega), if_pos hsel]
    exact one 2 _ (by omega)

/-- What holds of every word of the core's own parts holds of every word of their banks' parts. -/
theorem bankParts_words {s : State} {u ea n : Nat} {P : Nat → Prop} (hn : n ≤ 64)
    (h : ∀ x ∈ partsOf s ea n, ownMem u x.1 = true → ∀ w ∈ wordsOf (homeKey s x.1) x.2, P w) :
    ∀ x ∈ bankParts s u ea n, ownMem u x.1 = true → ∀ w ∈ wordsOf (homeKey s x.1) x.2, P w := by
  intro x hx hown w hw
  obtain ⟨p, hp, hxp⟩ := List.mem_flatMap.mp hx
  split at hxp
  next hbank =>
    obtain ⟨hpown, hsel⟩ := Bool.and_eq_true_iff.mp hbank
    have hsel := of_decide_eq_true hsel
    obtain ⟨-, -, hlo, hhi, hpos⟩ := mem_splitAt (by omega) hxp
    have hfit := partsOf_fits hn hp hsel
    obtain ⟨-, -, hkey⟩ := homeKey_add s hsel (d := x.1 - p.1) (by omega)
    rw [show p.1 + (x.1 - p.1) = x.1 by omega] at hkey
    rw [hkey] at hw
    exact h p hp hpown w (wordsOf_subset (by omega) hw)
  next =>
    obtain rfl := List.mem_singleton.mp hxp
    exact h x hp hown w hw

/-! ### Routes and parts do not depend on the beat count -/

section
variable {s : State} {u : Nat}

theorem localKept_counted : localKept (counted u s) = localKept s := localKept_bumpFld s _ _ _

theorem partsOf_counted (ea n : Nat) : partsOf (counted u s) ea n = partsOf s ea n := by
  have topo : fld (counted u s) CYUST_TOPO CYUST_TOPO_MODULE = fld s CYUST_TOPO CYUST_TOPO_MODULE :=
    fld_of_words (fun o ho => rget_counted s (by unfold CORE_BEATS; omega)) rfl (by decide)
  have near : isLocalDram (counted u s) = isLocalDram s := by
    funext sel
    rw [isLocalDram, topo, isLocalDram]
  rw [partsOf, near, partsOf]

theorem bankParts_counted (v ea n : Nat) : bankParts (counted u s) v ea n = bankParts s v ea n := by
  rw [bankParts, partsOf_counted, bankParts]

end

/-! ### Reading the parts -/

section
variable {u c : Nat}

theorem readParts_places (w : Bool) (ps : List (Nat × Nat)) (s : State) :
    (readParts u c w ps s).1.map (fun x => (x.addr, x.n)) = ps := by
  induction ps generalizing w s with
  | nil => rfl
  | cons p ps ih =>
    unfold readParts
    dsimp only
    split <;> simp only [List.map_cons, ih]

@[simp] theorem localKept_readParts (w : Bool) (ps : List (Nat × Nat)) (s : State) :
    localKept (readParts u c w ps s).2 = localKept s := by
  induction ps generalizing w s with
  | nil => rfl
  | cons p ps ih =>
    unfold readParts
    dsimp only
    split
    · exact (ih _ _).trans (localKept_touchRange _ _ _ _)
    · exact ih _ _

/-- Where no own part waits, the own parts are read and the others are not. -/
theorem readParts_answered {ps : List (Nat × Nat)} {s : State}
    (h : ∀ x ∈ ps, ownMem u x.1 = true → mustWait s u c x.1 x.2 = false) :
    ∀ x ∈ (readParts u c false ps s).1, (x.ans = none ↔ ownMem u x.addr = false) := by
  induction ps generalizing s with
  | nil => simp [readParts]
  | cons p ps ih =>
    have hrest := fun x hx => h x (List.mem_cons_of_mem p hx)
    have hp := h p List.mem_cons_self
    unfold readParts
    cases hown : ownMem u p.1 with
    | true =>
      have hkept : localKept (locRead u p.1 (homeKey s p.1) p.2 s).2 = localKept s := localKept_touchRange _ _ _ _
      simp only [hp hown, Bool.and_false, Bool.or_false, Bool.not_false, Bool.and_true, if_true]
      refine List.forall_mem_cons.mpr ⟨by simp [hown], ih fun x hx hx' => ?_⟩
      rw [mustWait_of_localKept hkept]
      exact hrest x hx hx'
    | false =>
      simp only [Bool.false_and, Bool.or_false, Bool.false_eq_true, if_false]
      exact List.forall_mem_cons.mpr ⟨by simp [hown], ih hrest⟩

/-- Reading words without an error changes nothing. -/
theorem readParts_of_clean {w : Bool} {ps : List (Nat × Nat)} {s : State}
    (h : ∀ x ∈ ps, ownMem u x.1 = true → ∀ w ∈ wordsOf (homeKey s x.1) x.2, latentAt s w = 0) :
    (readParts u c w ps s).2 = s := by
  induction ps generalizing w with
  | nil => rfl
  | cons p ps ih =>
    have hrest := fun x hx => h x (List.mem_cons_of_mem p hx)
    unfold readParts
    dsimp only
    split
    next hread =>
      have hown := (Bool.and_eq_true_iff.mp hread).1
      have hclean : (locRead u p.1 (homeKey s p.1) p.2 s).2 = s := touchRange_of_clean (h p List.mem_cons_self hown)
      rw [hclean]
      exact ih hrest
    next => exact ih hrest

end

end Sys2Proof.Machine
end

section
/-!
PROOFS. Loads (R95, R140, R141, R382): the access that each of the three kinds of place makes set out, and what reading leaves alone.
-/
namespace Sys2Proof.Machine
open Sys2Proof

section
variable {s : State} {u c ea n : Nat}

/-! ### Addresses -/

theorem effAddr_eq (ra imm : Nat) :
    effAddr s u c ra imm = (sr (ctx s u c) ra + (BitVec.ofNat 13 imm).signExtend 64).toNat := by
  rw [effAddr, rdS, simm13, sext64_eq (Nat.succ_pos _)]

theorem effAddr_counted (ra imm : Nat) : effAddr (counted u s) u c ra imm = effAddr s u c ra imm := by
  rw [effAddr, rdS_counted, effAddr, rdS]

/-- The core's own memories and its own page are in different spaces. -/
theorem ownAll_of_ownPageAt (h : ownPageAt u ea = true) : ownAll u ea n = false := by
  have hsel : selOf ea = 3 := of_decide_eq_true (Bool.and_eq_true_iff.mp h).1
  have hmem : ownMem u ea = false := by
    rw [Bool.eq_false_iff, ne_eq, ownMem_iff]
    omega
  rw [ownAll, hmem, Bool.false_and]

theorem takesEntry_of_isOwn {dst : Option Reg} (h : isOwn u ea n = true) : takesEntry u ea n dst = false := by
  unfold takesEntry
  rw [h, Bool.not_true, Bool.false_and]

/-! ### The parts with which a load sets out -/

/-- No own word of the access holds an error that a read would find. -/
def ReadsClean (s : State) (u ea n : Nat) : Prop :=
  ∀ x ∈ partsOf s ea n, ownMem u x.1 = true → ∀ w ∈ wordsOf (homeKey s x.1) x.2, latentAt s w = 0

/-- The parts of a load: read whole, in the parts of its banks, or to be sampled (R95, R250, R382). -/
def LoadParts (s : State) (u c ea n : Nat) (ps : List Part) : Prop :=
  (ownAll u ea n = true → mustWait s u c ea n = false →
    (∀ w ∈ wordsOf (homeKey s ea) n, latentAt s w = 0 ∧ locPoisoned s w = false) →
    ps = [⟨ea, n, some (.bytes (memBytes s.mem.loc (homeKey s ea) n) [])⟩]) ∧
  (ownPageAt u ea = false → ownAll u ea n = false ∨ mustWait s u c ea n = true →
    ps.map (fun x => (x.addr, x.n)) = bankParts s u ea n ∧
    ((∀ x ∈ bankParts s u ea n, ownMem u x.1 = true → mustWait s u c x.1 x.2 = false) →
      ∀ x ∈ ps, (x.ans = none ↔ ownMem u x.addr = false))) ∧
  (ownPageAt u ea = true → ps = [⟨ea, n, none⟩])

theorem loadParts_page (h : ownPageAt u ea = true) : LoadParts s u c ea n [⟨ea, n, none⟩] :=
  ⟨fun hall => absurd hall (by simp [ownAll_of_ownPageAt h]), fun hpage => absurd h (by simp [hpage]), fun _ => rfl⟩

theorem locRead_of_clean {a k : Nat} {s : State} (h : ∀ w ∈ wordsOf k n, latentAt s w = 0 ∧ locPoisoned s w = false) :
    locRead u a k n s = (.bytes (memBytes s.mem.loc k n) [], s) := by
  simp only [locRead, touchRange_of_clean fun w hw => (h w hw).1, badOf_of_clean fun w hw => (h w hw).2, locBytes]

theorem loadParts_own (hall : ownAll u ea n = true) (hwait : mustWait s u c ea n = false) :
    LoadParts s u c ea n [⟨ea, n, some (locRead u ea (homeKey s ea) n (counted u s)).1⟩] := by
  refine ⟨fun _ _ hclean => ?_, fun _ hout => ?_, fun hpage => ?_⟩
  · rw [locRead_of_clean fun w hw => by
      simpa only [latentAt, locPoisoned, bumpFld_mem] using hclean w hw]
    rw [bumpFld_mem]
  · rw [hall, hwait] at hout
    simp at hout
  · rw [ownAll_of_ownPageAt hpage] at hall
    cases hall

theorem loadParts_banks (hpage : ownPageAt u ea = false) (h : ownAll u ea n = false ∨ mustWait s u c ea n = true) :
    LoadParts s u c ea n (readParts u c false (bankParts s u ea n) (counted u s)).1 := by
  refine ⟨fun hall hwait => ?_, fun _ _ => ⟨readParts_places _ _ _, fun hfree => readParts_answered fun x hx hown => ?_⟩,
    fun hp => ?_⟩
  · rw [hall, hwait] at h
    simp at h
  · rw [mustWait_of_localKept localKept_counted]
    exact hfree x hx hown
  · rw [hpage] at hp
    cases hp

/-- A load sends one access, from a state that differs from the one before in what the read found (R254, R255). -/
theorem sendLoad_counted {pc : Nat} {sg : Bool} {dst : Option Reg} (hpos : 0 < n) (hn : n ≤ 64) :
    ∃ ps e, sendLoad u c pc ea n sg dst (counted u s) = sendReq u c pc (.load ea n sg) dst 0 (takesEntry u ea n dst) ps e ∧
      LoadParts s u c ea n ps ∧ localKept e = localKept s ∧ (ReadsClean s u ea n → e = counted u s) := by
  have hlatent (w : Nat) : latentAt (counted u s) w = latentAt s w := by simp only [latentAt, bumpFld_mem]
  have hkey := homeKey_of_localKept (localKept_counted (s := s) (u := u))
  unfold sendLoad
  dsimp only
  rw [mustWait_of_localKept localKept_counted, bankParts_counted, hkey]
  cases hpage : ownPageAt u ea with
  | true =>
    have hown : takesEntry u ea n dst = false := takesEntry_of_isOwn (by rw [isOwn, hpage, Bool.or_true])
    exact ⟨_, counted u s, by rw [hown]; rfl, loadParts_page hpage, localKept_counted, fun _ => rfl⟩
  | false =>
    cases hread : ownAll u ea n && !mustWait s u c ea n with
    | true =>
      obtain ⟨hall, hwait⟩ := Bool.and_eq_true_iff.mp hread
      have hown : takesEntry u ea n dst = false := takesEntry_of_isOwn (by rw [isOwn, hall, Bool.true_or])
      refine ⟨_, _, by rw [hown]; rfl, loadParts_own hall (by simpa using hwait),
        (localKept_touchRange _ _ _ _).trans localKept_counted, fun hclean => touchRange_of_clean fun w hw => ?_⟩
      rw [hlatent]
      rw [ReadsClean, partsOf_of_ownAll hall hpos hn] at hclean
      exact hclean _ List.mem_cons_self (Bool.and_eq_true_iff.mp hall).1 w hw
    | false =>
      refine ⟨_, _, rfl, loadParts_banks hpage ?_, (localKept_readParts _ _ _).trans localKept_counted,
        fun hclean => readParts_of_clean fun x hx hown w hw => ?_⟩
      · rw [Bool.and_eq_false_iff, Bool.not_eq_false'] at hread
        exact hread
      · rw [hlatent]
        rw [hkey] at hw
        exact bankParts_words hn hclean x hx hown w hw

/-! ### The row -/

/-- A load sends its access and goes on. -/
theorem Lone.row_load {i : Instr} {ra imm : Nat} {sg : Bool} {dst : Reg} (h : Lone s u c .X i)
    (hf : ∀ v q n, i ≠ .fault v q n) (hh : ∀ v q, i ≠ .halt v q) (hp : privNeeded (privOf s u c) i = true)
    (hea : ea = (sr (ctx s u c) ra + (BitVec.ofNat 13 imm).signExtend 64).toNat) (hpos : 0 < n) (hn : n ≤ 64)
    (hw : waitOf s u c i = if takesEntry u (effAddr s u c ra imm) n (some dst) &&
      !slotFree s u c (readAddrs s u (effAddr s u c ra imm) n) then some 4 else none)
    (hown : ownFault s u c i = memFault s u c ra imm n false 0)
    (he : effX (counted u s) u c i (counted u s) = effLoad (counted u s) u c n sg dst ra imm (counted u s))
    (hpass : accessFault s u c ea n false 0 = none)
    (hfree : takesEntry u ea n (some dst) = true → slotFree s u c (readAddrs s u ea n) = true) :
    Runs i s fun t => SetsOut s t u c (.load ea n sg) (some dst) 0 (fun r =>
      r.tracked = takesEntry u ea n (some dst) ∧ LoadParts s u c ea n r.parts) ∧ RegsKept s t u c ∧
      (ctx t u c).pc = (ctx s u c).pc + 1 ∧ (ReadsClean s u ea n → CoreFrame s t u c []) := by
  rw [effAddr_eq, ← hea] at hw
  rw [noEntryWait hfree] at hw
  rw [memFault, effAddr_eq, ← hea, hpass] at hown
  obtain ⟨ps, e, hsend, hparts, hkept, hclean⟩ := sendLoad_counted (s := s) (u := u) (c := c) (ea := ea)
    (pc := (ctx s u c).pc) (sg := sg) (dst := some dst) hpos hn
  rw [effLoad, effAddr_counted, effAddr_eq, ← hea, ctx_counted, hsend] at he
  obtain ⟨hcore, -⟩ := parts_of_localKept hkept
  have hctx : ctx (sendReq u c (ctx s u c).pc (.load ea n sg) (some dst) 0 (takesEntry u ea n (some dst)) ps e) u c =
      ctx s u c := ctx_of_localKept hkept u c
  refine ⟨_, h.rowX hf hh hp hw hown he (by rw [hctx]; exact h.goesOn), SetsOut.landed (setsOut_sendReq ?_ ?_ rfl ?_) _,
    regsKept_of_regsOf (regsOf_landed _ (by rw [hctx])), ?_, fun hread => ?_⟩
  · rw [hcore]
  · rw [hcore]
  · rintro r rfl htr
    exact ⟨htr, hparts⟩
  · rw [ctx_landed_same]
    rfl
  · rw [hclean hread]
    exact ((ownEffect_counted s u c).sendReq _ _ _ _ _ _).coreFrame List.not_mem_nil _

end

/-- Settles O20: each load by its address, width and destination; its parts are those of `LoadParts`. -/
theorem loadsSetOut : Obligations.LoadsSetOut := by
  intro s u c p rd vd ra imm ea hea e he h hpass hfree
  simp only [List.mem_cons, List.not_mem_nil, or_false] at he
  rcases he with rfl | rfl | rfl | rfl | rfl | rfl | rfl | rfl | rfl
  all_goals exact h.row_load (by simp) (by simp) rfl hea (by simp) (by simp) rfl rfl rfl hpass hfree

end Sys2Proof.Machine
end

section
/-!
PROOFS. Stores to the core's own memories (R253, R257): what a store to words without an error makes of the bytes.
-/
namespace Sys2Proof.Machine
open Sys2Proof

/-! ### Bytes of a number -/

theorem leBytes_length (n x : Nat) : (leBytes n x).length = n := by
  induction n generalizing x with
  | zero => rfl
  | succ n ih => simp [leBytes, ih]

theorem leBytes_getElem {n x i : Nat} (h : i < (leBytes n x).length) : (leBytes n x)[i] = BitVec.ofNat 8 (x / 2 ^ (8 * i)) := by
  induction n generalizing x i with
  | zero => cases h
  | succ n ih =>
    cases i with
    | zero => simp [leBytes]
    | succ i =>
      simp only [leBytes, List.getElem_cons_succ]
      rw [ih, Nat.div_div_eq_div_mul, show (256 : Nat) = 2 ^ 8 from rfl, ← pow_add, Nat.mul_succ, Nat.add_comm]

/-- The bytes of a number are the number, as far as they hold it. -/
theorem leNat_leBytes (n x : Nat) : leNat (leBytes n x) = x % 2 ^ (8 * n) := by
  induction n generalizing x with
  | zero => simp [leBytes, leNat, Nat.mod_one]
  | succ n ih =>
    have hsplit := Nat.mod_mul (x := x) (a := 256) (b := 2 ^ (8 * n))
    rw [leBytes, leNat, ih, BitVec.toNat_ofNat, show 2 ^ (8 * (n + 1)) = 256 * 2 ^ (8 * n) by rw [Nat.mul_succ, pow_add]; omega]
    exact hsplit.symm

/-- Memory after a store of the low `n` bytes of `v`. -/
theorem memByte_memStore_leBytes (m : Mem) (k n v a : Nat) : memByte (memStore m k (leBytes n v)) a =
    if k ≤ a ∧ a < k + n then BitVec.ofNat 8 (v / 2 ^ (8 * (a - k))) else memByte m a := by
  rw [memByte_memStore]
  by_cases h : k ≤ a ∧ a < k + n
  · rw [if_pos h, dif_pos ⟨h.1, by rw [leBytes_length]; omega⟩, leBytes_getElem]
  · rw [if_neg h, dif_neg (by rw [leBytes_length]; omega)]

/-! ### A store to words without an error -/

section
variable {s : State} {n k : Nat} {d : List Byte}

/-- Every word without an error in `s` has none in `t`. -/
def StaysClean (s t : State) : Prop := ∀ w, latentAt s w = 0 ∧ locPoisoned s w = false → latentAt t w = 0 ∧ locPoisoned t w = false

theorem StaysClean.trans {a b c : State} (h : StaysClean a b) (h' : StaysClean b c) : StaysClean a c := fun w hw => h' w (h w hw)

/-- No bits of a word are in error any more, or are left to be. -/
theorem staysClean_setLatent (w : Nat) (t : State) : StaysClean t (setLatent t w 0) := fun v ⟨hl, hp⟩ => by
  refine ⟨?_, hp⟩
  unfold latentAt setLatent
  rw [mget_mset]
  split
  · rfl
  · exact hl

theorem staysClean_setLocPoison (w : Nat) (t : State) : StaysClean t (setLocPoison t w false) := fun v ⟨hl, hp⟩ => by
  refine ⟨hl, ?_⟩
  unfold locPoisoned setLocPoison
  rw [mget_mset]
  split
  · rfl
  · exact hp

theorem storeRaw_of_sound {pz : NMap Bool} {k0 len : Nat} {m : Mem}
    (h : ∀ i, i < d.length → mget false pz ((k + i) / 8) = false) : storeRaw m pz k0 len k d = memStore m k d := by
  induction d generalizing m k with
  | nil => rfl
  | cons b bs ih =>
    have hb : mget false pz (k / 8) = false := h 0 (Nat.succ_pos _)
    rw [storeRaw, hb, memStore]
    exact ih fun i hi => by
      rw [Nat.add_assoc, Nat.add_comm 1]
      exact h (i + 1) (Nat.succ_lt_succ hi)

/-- The state but for the check bits of local memory. -/
def bitsKept (s : State) : State × Mem × Mem := ({ s with mem := MemSt.reset }, s.mem.loc, s.mem.dram)

/-- A word is written with fresh check bits, if it is not poisoned or is covered whole (R253, R257). -/
def freshWord (k len : Nat) (s : State) (w : Nat) : State :=
  if coversWord k len w then
    let s := setLatent (setLocPoison s w false) w 0
    { s with mem := { s.mem with rewrites := mset false s.mem.rewrites w false } }
  else if locPoisoned s w then s
  else { (setLatent s w 0) with mem := { (setLatent s w 0).mem with rewrites := mset false s.mem.rewrites w false } }

theorem bitsKept_freshWord (k len : Nat) (s : State) (w : Nat) : bitsKept (freshWord k len s w) = bitsKept s := by
  unfold freshWord
  split
  · rfl
  · split <;> rfl

theorem staysClean_freshWord (k len : Nat) (s : State) (w : Nat) : StaysClean s (freshWord k len s w) := by
  unfold freshWord
  split
  · exact (staysClean_setLocPoison w s).trans (staysClean_setLatent w _)
  · split
    · exact fun _ h => h
    · exact staysClean_setLatent w s

theorem staysClean_freshWords (k len : Nat) (ws : List Nat) (s : State) : StaysClean s (ws.foldl (freshWord k len) s) := by
  induction ws generalizing s with
  | nil => exact fun _ h => h
  | cons w ws ih => exact (staysClean_freshWord k len s w).trans (ih _)

/-- Bytes stand in local memory from key `k` on. -/
def withBytes (k : Nat) (d : List Byte) (s : State) : State := { s with mem := { s.mem with loc := memStore s.mem.loc k d } }

theorem staysClean_withBytes (k : Nat) (d : List Byte) (s : State) : StaysClean s (withBytes k d s) := fun _ h => h

/-- The bytes land, and with them nothing changes but check bits. -/
theorem locStore_of_clean (h : ∀ w ∈ wordsOf k d.length, latentAt s w = 0 ∧ locPoisoned s w = false) :
    bitsKept (locStore n k d s) = bitsKept (withBytes k d s) ∧
      StaysClean s (locStore n k d s) := by
  have htouch : ((wordsOf k d.length).filter fun w => !coversWord k d.length w).foldl (touchWord n) s = s :=
    touchWords_of_clean fun w hw => (h w (List.mem_of_mem_filter hw)).1
  have hraw : storeRaw s.mem.loc s.mem.locPoison k d.length k d = memStore s.mem.loc k d :=
    storeRaw_of_sound fun i hi => (h _ (mem_wordsOf.mpr (by omega))).2
  have heq : locStore n k d s = (wordsOf k d.length).foldl (freshWord k d.length)
      (withBytes k d s) := by
    unfold locStore
    dsimp only
    rw [htouch, hraw]
    rfl
  rw [heq]
  exact ⟨foldl_keeps bitsKept _ (bitsKept_freshWord k d.length) _ _, (staysClean_withBytes k d s).trans (staysClean_freshWords k d.length _ _)⟩

theorem parts_of_bitsKept {s t : State} (h : bitsKept t = bitsKept s) : t.csr = s.csr ∧ t.mem.loc = s.mem.loc ∧
    t.mem.dram = s.mem.dram := by
  simp only [bitsKept, Prod.mk.injEq, State.mk.injEq] at h
  tauto

end

end Sys2Proof.Machine
end

section
/-!
PROOFS. Stores (R95, R102, R140, R141, R253, R382): what a store writes at once, and what sets out.
-/
namespace Sys2Proof.Machine
open Sys2Proof

section
variable {s : State} {u c pc ea n v : Nat}

section
variable {op : ReqOp} {dst : Option Reg} {pdst : Nat} {tr : Bool} {parts : List Part} {t : State}

@[simp] theorem sendReq_mem : (sendReq u c pc op dst pdst tr parts t).mem = t.mem := rfl
@[simp] theorem sendReq_csr : (sendReq u c pc op dst pdst tr parts t).csr = t.csr := rfl
@[simp] theorem sendReq_pending : (sendReq u c pc op dst pdst tr parts t).pending = t.pending := rfl

end

/-! ### The parts with which a store sets out -/

theorem storeParts_places {data : List Byte} (w : Bool) (ps : List (Nat × Nat)) (s : State) :
    (storeParts u c ea data w ps s).1.map (fun x => (x.addr, x.n)) = ps := by
  induction ps generalizing w s with
  | nil => rfl
  | cons p ps ih =>
    unfold storeParts
    dsimp only
    split <;> simp only [List.map_cons, ih]

@[simp] theorem localKept_storeParts {data : List Byte} (w : Bool) (ps : List (Nat × Nat)) (s : State) :
    localKept (storeParts u c ea data w ps s).2 = localKept s := by
  induction ps generalizing w s with
  | nil => rfl
  | cons p ps ih =>
    unfold storeParts
    dsimp only
    split
    · exact (ih _ _).trans (localKept_locStore _ _ _ _)
    · exact ih _ _

/-- A part in another place is not written at issue. -/
theorem storeParts_away {data : List Byte} (w : Bool) (ps : List (Nat × Nat)) (s : State) :
    ∀ x ∈ (storeParts u c ea data w ps s).1, ownMem u x.addr = false → x.ans = none := by
  induction ps generalizing w s with
  | nil => simp [storeParts]
  | cons p ps ih =>
    unfold storeParts
    dsimp only
    split
    next hown =>
      refine List.forall_mem_cons.mpr ⟨fun haway => ?_, ih _ _⟩
      rw [haway] at hown
      cases hown
    next => exact List.forall_mem_cons.mpr ⟨fun _ => rfl, ih _ _⟩

/-- Where every own part waits, nothing is written at issue. -/
theorem storeParts_waiting {data : List Byte} {w : Bool} {ps : List (Nat × Nat)} {s : State}
    (h : ∀ x ∈ ps, ownMem u x.1 = true → mustWait s u c x.1 x.2 = true) : (storeParts u c ea data w ps s).2 = s := by
  induction ps generalizing w with
  | nil => rfl
  | cons p ps ih =>
    have hskip : (ownMem u p.1 && !(w || ownMem u p.1 && mustWait s u c p.1 p.2)) = false := by
      cases hown : ownMem u p.1 with
      | false => rfl
      | true => simp [h p List.mem_cons_self hown]
    unfold storeParts
    dsimp only
    rw [hskip]
    exact ih fun x hx => h x (List.mem_cons_of_mem p hx)

/-- No own word of the parts holds an error. -/
def WritesClean (s : State) (u : Nat) (ps : List (Nat × Nat)) : Prop :=
  ∀ x ∈ ps, ownMem u x.1 = true → ∀ w ∈ wordsOf (homeKey s x.1) x.2, latentAt s w = 0 ∧ locPoisoned s w = false

theorem WritesClean.step {t : State} {ps : List (Nat × Nat)} (h : WritesClean s u ps) (hkept : localKept t = localKept s)
    (hclean : StaysClean s t) : WritesClean t u ps := fun x hx hown w hw => by
  rw [homeKey_of_localKept hkept] at hw
  exact hclean w (h x hx hown w hw)

/-- Writing words without an error leaves the registers of the device alone. -/
theorem storeParts_csr {data : List Byte} {w : Bool} {ps : List (Nat × Nat)} {s : State} (h : WritesClean s u ps) :
    (storeParts u c ea data w ps s).2.csr = s.csr := by
  induction ps generalizing w s with
  | nil => rfl
  | cons p ps ih =>
    have hrest : WritesClean s u ps := fun x hx => h x (List.mem_cons_of_mem p hx)
    unfold storeParts
    dsimp only
    split
    next hwrite =>
      have hown := (Bool.and_eq_true_iff.mp hwrite).1
      obtain ⟨hbits, hclean⟩ := locStore_of_clean (s := s) (n := u) (k := homeKey s p.1)
        (d := (data.drop (p.1 - ea)).take p.2) fun w hw => h p List.mem_cons_self hown w (by
          rw [mem_wordsOf] at hw ⊢
          have hlen := List.length_take_le p.2 (data.drop (p.1 - ea))
          omega)
      obtain ⟨hcsr, -⟩ := parts_of_bitsKept hbits
      exact (ih (hrest.step (localKept_locStore _ _ _ _) hclean)).trans hcsr
    next => exact ih hrest

/-! ### The beat of a store -/

theorem sendStore_ctx (data : List Byte) (s : State) (v d : Nat) : ctx (sendStore u c pc ea data s) v d = ctx s v d := by
  unfold sendStore
  split
  · rfl
  · split
    · exact ctx_of_localKept (localKept_locStore _ _ _ _) v d
    · exact ctx_of_localKept (localKept_storeParts _ _ _) v d

/-- A bundle without a vector instruction sets no flag in the instant of its store (R236). -/
theorem flagsWith_of_nop (h : slotIns s u (ctx s u c).pc .V = some (.nop u 0 .V)) : flagsWith (counted u s) u c = 0 := by
  unfold flagsWith
  rw [slotIns_counted, ctx_counted, h]
  show fget (rget (rset (counted u s) (VEC_FLAGS u) 0) (VEC_FLAGS u)) ⟨0, 0, 5⟩ = 0
  rw [rget_rset_same]
  rfl

/-- A store sends the low bytes of its register. -/
theorem effStore_counted {ra imm : Nat} (hea : ea = (sr (ctx s u c) ra + (BitVec.ofNat 13 imm).signExtend 64).toNat)
    (h : slotIns s u (ctx s u c).pc .V = some (.nop u 0 .V)) : effStore (counted u s) u c n v ra imm (counted u s) =
      sendStore u c (ctx s u c).pc ea (leBytes n v) (counted u s) := by
  have hkeep (t : State) (po : Nat) : (setWith (counted u s) t u c po).toNat = 0 := by
    unfold setWith
    dsimp only
    rw [flagsWith_of_nop h]
    rfl
  unfold effStore
  dsimp only
  rw [effAddr_counted, effAddr_eq, ← hea, ctx_counted]
  simp only [hkeep, Nat.zero_div, ite_self, if_true]

/-- The state after the beat of a store. -/
def stored (s : State) (u c ea n v : Nat) : State :=
  landed u c (straightOn (ctx s u c)) (sendStore u c (ctx s u c).pc ea (leBytes n v) (counted u s))

theorem Lone.row_store {i : Instr} {ra imm : Nat} (h : Lone s u c .X i) (hf : ∀ v q n, i ≠ .fault v q n)
    (hh : ∀ v q, i ≠ .halt v q) (hp : privNeeded (privOf s u c) i = true) (hw : waitOf s u c i = none)
    (hea : ea = (sr (ctx s u c) ra + (BitVec.ofNat 13 imm).signExtend 64).toNat)
    (hown : ownFault s u c i = none)
    (he : effX (counted u s) u c i (counted u s) = effStore (counted u s) u c n v ra imm (counted u s)) :
    exec i s = .next (stored s u c ea n v) :=
  h.rowX hf hh hp hw hown (he.trans (effStore_counted hea (h.toAlone.nop (by decide))))
    (by rw [sendStore_ctx, ctx_counted]; exact h.goesOn)

theorem stored_regsKept : RegsKept s (stored s u c ea n v) u c :=
  regsKept_of_regsOf (regsOf_landed _ (by rw [sendStore_ctx, ctx_counted]))

theorem stored_issues (hready : (ctx s u c).st = .ready)
    (hcsr : (sendStore u c (ctx s u c).pc ea (leBytes n v) (counted u s)).csr = (counted u s).csr)
    (hqueue : (sendStore u c (ctx s u c).pc ea (leBytes n v) (counted u s)).pending = s.pending) :
    Issues s (stored s u c ea n v) u c [] := by
  refine OwnIssue.issues ⟨fun w d _ => ?_, hcsr, hqueue⟩ ?_
  · rw [sendStore_ctx, ctx_counted]
  · rw [sendStore_ctx, ctx_counted, hready]

/-! ### The three kinds of place -/

/-- A store to the core's own memory, with nothing to wait for. -/
theorem stored_own (hready : (ctx s u c).st = .ready) (hall : ownAll u ea n = true) (hwait : mustWait s u c ea n = false)
    (hclean : ∀ w ∈ wordsOf (homeKey s ea) n, latentAt s w = 0 ∧ locPoisoned s w = false) :
    (∀ a, memByte (stored s u c ea n v).mem.loc a = if homeKey s ea ≤ a ∧ a < homeKey s ea + n then
        BitVec.ofNat 8 (v / 2 ^ (8 * (a - homeKey s ea))) else memByte s.mem.loc a) ∧
      (stored s u c ea n v).mem.dram = s.mem.dram ∧ (stored s u c ea n v).core.reqs = s.core.reqs ∧
      Issues s (stored s u c ea n v) u c [] := by
  have hpage : ownPageAt u ea = false := by
    by_contra hp
    rw [ownAll_of_ownPageAt (by simpa using hp)] at hall
    cases hall
  have hsend : sendStore u c (ctx s u c).pc ea (leBytes n v) (counted u s) =
      locStore u (homeKey s ea) (leBytes n v) (counted u s) := by
    unfold sendStore
    rw [hpage, leBytes_length, mustWait_of_localKept localKept_counted, hall, hwait, homeKey_of_localKept localKept_counted]
    rfl
  have hkept : localKept (locStore u (homeKey s ea) (leBytes n v) (counted u s)) = localKept s :=
    (localKept_locStore _ _ _ _).trans localKept_counted
  obtain ⟨hcore, -, hqueue⟩ := parts_of_localKept hkept
  obtain ⟨hbits, -⟩ := locStore_of_clean (s := counted u s) (n := u) (k := homeKey s ea) (d := leBytes n v) (by
    rw [leBytes_length]
    simpa only [latentAt, locPoisoned, bumpFld_mem] using hclean)
  obtain ⟨hcsr, hloc, hdram⟩ := parts_of_bitsKept hbits
  refine ⟨fun a => ?_, ?_, ?_, stored_issues hready (by rw [hsend]; exact hcsr) (by rw [hsend]; exact hqueue)⟩
  · rw [stored, mem_landed, hsend, hloc, withBytes, memByte_memStore_leBytes, bumpFld_mem]
  · rw [stored, mem_landed, hsend, hdram, withBytes, bumpFld_mem]
  · rw [stored, reqs_landed, hsend, hcore]

/-- A store that does not take place at once sets out with its parts. -/
theorem stored_parts (hready : (ctx s u c).st = .ready) (hout : ownAll u ea n = false ∨ mustWait s u c ea n = true)
    (hpage : ownPageAt u ea = false) (hclean : WritesClean s u (bankParts s u ea n)) :
    SetsOut s (stored s u c ea n v) u c (.store ea (leBytes n v) []) none 0 (fun r =>
        r.parts.map (fun x => (x.addr, x.n)) = bankParts s u ea n ∧ ∀ x ∈ r.parts, ownMem u x.addr = false → x.ans = none) ∧
      Issues s (stored s u c ea n v) u c [] ∧
      ((∀ x ∈ bankParts s u ea n, ownMem u x.1 = true → mustWait s u c x.1 x.2 = true) →
        (stored s u c ea n v).mem = s.mem) := by
  have hgo : (ownAll u ea n && !mustWait s u c ea n) = false := by
    rcases hout with h | h <;> simp [h]
  have hsend : sendStore u c (ctx s u c).pc ea (leBytes n v) (counted u s) =
      sendReq u c (ctx s u c).pc (.store ea (leBytes n v) []) none 0 false
        (storeParts u c ea (leBytes n v) false (bankParts s u ea n) (counted u s)).1
        (storeParts u c ea (leBytes n v) false (bankParts s u ea n) (counted u s)).2 := by
    unfold sendStore
    dsimp only
    rw [hpage, leBytes_length, mustWait_of_localKept localKept_counted, hgo, bankParts_counted]
    rfl
  have hkept : localKept (storeParts u c ea (leBytes n v) false (bankParts s u ea n) (counted u s)).2 = localKept s :=
    (localKept_storeParts _ _ _).trans localKept_counted
  obtain ⟨hcore, -, hqueue⟩ := parts_of_localKept hkept
  have hcsr : (storeParts u c ea (leBytes n v) false (bankParts s u ea n) (counted u s)).2.csr = (counted u s).csr :=
    storeParts_csr (hclean.step localKept_counted fun w hw => by simpa only [latentAt, locPoisoned, bumpFld_mem] using hw)
  refine ⟨?_, stored_issues hready (by rw [hsend, sendReq_csr, hcsr]) (by rw [hsend, sendReq_pending, hqueue]), fun hwait => ?_⟩
  · rw [stored, hsend]
    refine (setsOut_sendReq (by rw [hcore]) (by rw [hcore]) rfl ?_).landed _
    intro r hparts _
    rw [hparts]
    exact ⟨storeParts_places _ _ _, storeParts_away _ _ _⟩
  · have hnone : (storeParts u c ea (leBytes n v) false (bankParts s u ea n) (counted u s)).2 = counted u s :=
      storeParts_waiting fun x hx hown => (mustWait_of_localKept localKept_counted _ _ _ _).trans (hwait x hx hown)
    rw [stored, mem_landed, hsend, sendReq_mem, hnone, bumpFld_mem]

/-! ### The own page (R95, R102) -/

theorem ctxTrap_place (hu : u < 25600) (hc : c < 8) (hea : ea = 3 * 2 ^ 48 + CTX_TRAP u c) :
    ownPageAt u ea = true ∧ offOf ea % 0x1000 / 8 * 8 = 0x120 + c * 0x80 ∧ ea % 8 = 0 := by
  have hoff : offOf ea = CTX_TRAP u c := by
    unfold offOf CTX_TRAP at *
    omega
  have hsel : selOf ea = 3 := by
    unfold selOf CTX_TRAP at *
    omega
  refine ⟨?_, ?_, ?_⟩
  · have hlo : 0x1000000 + u * 0x1000 ≤ CTX_TRAP u c := by
      unfold CTX_TRAP
      omega
    have hhi : CTX_TRAP u c < 0x1000000 + u * 0x1000 + 0x1000 := by
      unfold CTX_TRAP
      omega
    have hin : (!isCp u && decide (0x1000000 + u * 0x1000 ≤ CTX_TRAP u c) &&
        decide (CTX_TRAP u c < 0x1000000 + u * 0x1000 + 0x1000)) = true := by
      rw [isCp_of_core hu, decide_eq_true hlo, decide_eq_true hhi]
      rfl
    rw [ownPageAt, hsel, hoff, ownPage, if_pos hin]
    rfl
  · rw [hoff]
    unfold CTX_TRAP
    omega
  · unfold CTX_TRAP at hea
    omega

/-- The bits of CTX_TRAP that its context may write. -/
def trapMask : W64 := 0x07FF07FF

/-- A context with the vector and return index of `new`. -/
def withTrap (new : W64) (x : Ctx) : Ctx :=
  let v := (packW [(x.vec, 0), (x.epc, 16)] &&& ~~~trapMask) ||| (new &&& trapMask)
  { x with vec := bitsOf v 0 11, epc := bitsOf v 16 11 }

/-- Under the mask, the fields are those of the value written. -/
theorem withTrap_fields {new : W64} {x : Ctx} :
    (withTrap new x).vec = bitsOf new 0 11 ∧ (withTrap new x).epc = bitsOf new 16 11 := by
  have field {lo : Nat} (old : W64) (hmask : ∀ i, i < 11 → trapMask.getLsbD (lo + i) = true) :
      bitsOf ((old &&& ~~~trapMask) ||| (new &&& trapMask)) lo 11 = bitsOf new lo 11 :=
    bitsOf_eq_of_getLsbD fun i hi => by simp [hmask i hi]
  exact ⟨field _ (by decide), field _ (by decide)⟩

theorem ownWrite_trap (hc : c < 8) (new : W64) (t : State) :
    ownWrite u c (0x120 + c * 0x80) new (touched 0 4) t = updCtx t u c (withTrap new) := by
  have hmask : touched 0 4 &&& ownMask u c (0x120 + c * 0x80) = trapMask := by
    unfold ownMask
    dsimp only
    rw [if_neg (by omega), if_neg (by omega), if_pos rfl]
    decide
  have hrange : (decide (0x100 ≤ 0x120 + c * 0x80) && decide (0x120 + c * 0x80 < 0x500)) = true := by
    simp only [Bool.and_eq_true, decide_eq_true_eq]
    omega
  unfold ownWrite
  dsimp only
  rw [hmask, if_pos hrange, show (0x120 + c * 0x80 - 0x100) % 0x80 = 0x20 by omega]
  rfl

/-- An own-page access that is the unit's only one takes place in the next beat. -/
theorem settleOwn_of_one {t : State} {r : Req} (hreqs : t.core.reqs = s.core.reqs ++ [r])
    (hnone : ∀ q ∈ s.core.reqs, ownWaits u q = false) (hr : ownWaits u r = true) : settleOwn u t = settleReq t r := by
  have hold : s.core.reqs.filter (ownWaits u) = [] := List.filter_eq_nil_iff.mpr fun q hq => by simp [hnone q hq]
  rw [settleOwn, hreqs, List.filter_append, hold, List.filter_singleton, hr]
  rfl

/-- A store to the own page sets out, to take place in the beat after. -/
theorem stored_page (hready : (ctx s u c).st = .ready) (hpage : ownPageAt u ea = true) :
    SetsOut s (stored s u c ea n v) u c (.store ea (leBytes n v) []) none 0 (fun r => r.parts = [⟨ea, n, none⟩]) ∧
      (stored s u c ea n v).mem = s.mem ∧ Issues s (stored s u c ea n v) u c [] := by
  have hsend : sendStore u c (ctx s u c).pc ea (leBytes n v) (counted u s) =
      sendReq u c (ctx s u c).pc (.store ea (leBytes n v) []) none 0 false [⟨ea, n, none⟩] (counted u s) := by
    unfold sendStore
    rw [if_pos hpage, leBytes_length]
  obtain ⟨hcore, -, hqueue⟩ := parts_of_localKept (localKept_counted (s := s) (u := u))
  refine ⟨?_, ?_, stored_issues hready (by rw [hsend, sendReq_csr]) (by rw [hsend, sendReq_pending, hqueue])⟩
  · rw [stored, hsend]
    exact (setsOut_sendReq (by rw [hcore]) (by rw [hcore]) rfl fun r hparts _ => hparts).landed _
  · rw [stored, mem_landed, hsend, sendReq_mem, bumpFld_mem]

/-- ST.W to the context's own CTX_TRAP, and what the beat after makes of it. -/
theorem stored_trap (h : Lone s u c .X i) (hu : u < 25600) (hea : ea = 3 * 2 ^ 48 + CTX_TRAP u c) :
    (ctx (stored s u c ea 4 v) u c).vec = (ctx s u c).vec ∧ (ctx (stored s u c ea 4 v) u c).epc = (ctx s u c).epc ∧
      (stored s u c ea 4 v).mem = s.mem ∧ (ctx (settleOwn u (stored s u c ea 4 v)) u c).vec = v % 2 ^ 11 ∧
      (ctx (settleOwn u (stored s u c ea 4 v)) u c).epc = v / 2 ^ 16 % 2 ^ 11 ∧
      Issues s (stored s u c ea 4 v) u c [] := by
  obtain ⟨hpage, hoff, hal⟩ := ctxTrap_place hu h.context hea
  obtain ⟨⟨r, hreqs, -, -, hru, hrc, -, hop, -, -, hchan, -, hparts⟩, hmem, hissues⟩ := stored_page (n := 4) (v := v) h.ready hpage
  have hctx : ctx (stored s u c ea 4 v) u c = steer (straightOn (ctx s u c)) (ctx s u c) := by
    rw [stored, ctx_landed_same, sendStore_ctx, ctx_counted]
  have hwaits : ownWaits u r = true := by
    simp [ownWaits, hru, hparts, ownPart, hchan, hpage]
  have hplaced : placed ea (leBytes 4 v) = (BitVec.ofNat 64 (v % 2 ^ 32), touched 0 4) := by
    simp only [placed, leNat_leBytes, leBytes_length, touched, hal, Nat.zero_mod, Nat.mul_zero, pow_zero, Nat.mul_one]
  have hsettle : settleOwn u (stored s u c ea 4 v) =
      updCtx (dropReq r.tag (stored s u c ea 4 v)) u c (withTrap (BitVec.ofNat 64 (v % 2 ^ 32))) := by
    rw [settleOwn_of_one hreqs h.settled hwaits, settleReq, hop]
    dsimp only
    rw [hru, hrc, hoff, hplaced, ownWrite_trap h.context]
  obtain ⟨hvec, hepc⟩ := withTrap_fields (new := BitVec.ofNat 64 (v % 2 ^ 32)) (x := ctx (dropReq r.tag (stored s u c ea 4 v)) u c)
  refine ⟨by rw [hctx]; rfl, by rw [hctx]; rfl, hmem, ?_, ?_, hissues⟩
  · rw [hsettle, ctx_updCtx_same, hvec]
    simp only [bitsOf, BitVec.toNat_ofNat, Nat.shiftRight_zero]
    omega
  · rw [hsettle, ctx_updCtx_same, hepc]
    simp only [bitsOf, BitVec.toNat_ofNat, Nat.shiftRight_eq_div_pow]
    omega

/-! ### The checks -/

/-- The value of a store matters for a bank's owner alone, which 64 bytes do not write. -/
theorem accessFault_wide (h : accessFault s u c ea 64 true v = none) (w : Nat) : accessFault s u c ea 64 true w = none := by
  unfold accessFault at h ⊢
  by_cases hbig : 2 ^ 56 ≤ ea
  · rw [if_pos hbig] at h
    cases h
  by_cases hcsr : selOf ea = 3
  · rw [if_neg hbig, if_pos hcsr] at h
    cases h
  rw [if_neg hbig, if_neg hcsr] at h ⊢
  exact h

end

/-- Settles O21: every store is `sendStore` of its register's low bytes; each kind of place says what that makes of them. -/
theorem storesReachTheirBytes : Obligations.StoresReachTheirBytes := by
  intro s u c p rs ra imm ea hea e he h hpass
  have hexec : exec e.1 s = .next (stored s u c ea e.2.1 e.2.2) := by
    simp only [List.mem_cons, List.not_mem_nil, or_false] at he
    have hmem (n : Nat) (v : Nat) : memFault s u c ra imm n true v = accessFault s u c ea n true v := by
      rw [memFault, effAddr_eq, ← hea]
    rcases he with rfl | rfl | rfl | rfl | rfl | rfl
    · exact h.row_store (by simp) (by simp) rfl rfl hea ((hmem _ _).trans hpass) (by simp only [effX, rdS_counted])
    · exact h.row_store (by simp) (by simp) rfl rfl hea ((hmem _ _).trans hpass) (by simp only [effX, rdS_counted])
    · exact h.row_store (by simp) (by simp) rfl rfl hea ((hmem _ _).trans hpass) (by simp only [effX, rdS_counted])
    · exact h.row_store (by simp) (by simp) rfl rfl hea ((hmem _ _).trans hpass) (by simp only [effX, rdS_counted])
    · exact h.row_store (by simp) (by simp) rfl rfl hea ((hmem _ _).trans (accessFault_wide hpass _))
        (by simp only [effX, rdV_counted])
    · exact h.row_store (by simp) (by simp) rfl rfl hea ((hmem _ _).trans (accessFault_wide hpass _))
        (by simp only [effX, ctx_counted])
  refine ⟨fun hall hwait hclean => ?_, fun htrap hfour hu => ?_, fun hout hpage hclean => ?_⟩
  · obtain ⟨hbytes, hdram, hreqs, hissues⟩ := stored_own h.ready hall hwait hclean
    exact ⟨_, hexec, hbytes, hdram, hreqs, stored_regsKept, hissues⟩
  · rw [hfour] at hexec
    obtain ⟨hvec, hepc, hmem, hvec', hepc', hissues⟩ := stored_trap h hu htrap
    exact ⟨_, hexec, hvec, hepc, hmem, hvec', hepc', stored_regsKept, hissues⟩
  · obtain ⟨hset, hissues, hmem⟩ := stored_parts h.ready hout hpage hclean
    exact ⟨_, hexec, hset, stored_regsKept, hissues, hmem⟩

end Sys2Proof.Machine
end

section
/-!
PROOFS. Slot V (R126, R132–R136, R226): the row of a vector instruction, and what its result and its flags make of the state.
-/
namespace Sys2Proof.Machine
open Sys2Proof

/-! ### Lanes (R132) -/

theorem packNat_lt (w : Nat) (xs : List Nat) : packNat w xs < 2 ^ (w * xs.length) := by
  induction xs with
  | nil => simp [packNat]
  | cons x xs ih =>
    have hx : x % 2 ^ w + 1 ≤ 2 ^ w := Nat.mod_lt _ (by positivity)
    calc packNat w (x :: xs) = x % 2 ^ w + 2 ^ w * packNat w xs := rfl
      _ < 2 ^ w + 2 ^ w * packNat w xs := by omega
      _ = 2 ^ w * (packNat w xs + 1) := by ring
      _ ≤ 2 ^ w * 2 ^ (w * xs.length) := Nat.mul_le_mul_left _ ih
      _ = 2 ^ (w * (x :: xs).length) := by rw [← pow_add, List.length_cons, Nat.mul_succ, Nat.add_comm]

/-- The digits of a packed number are the listed lanes. -/
theorem packNat_digit (w : Nat) {xs : List Nat} {k : Nat} (hk : k < xs.length) :
    packNat w xs / 2 ^ (w * k) % 2 ^ w = xs[k] % 2 ^ w := by
  induction xs generalizing k with
  | nil => cases hk
  | cons x xs ih =>
    cases k with
    | zero => simp [packNat]
    | succ k =>
      have hdrop : packNat w (x :: xs) / 2 ^ w = packNat w xs := by
        rw [packNat, Nat.add_mul_div_left _ _ (by positivity), Nat.div_eq_of_lt (Nat.mod_lt _ (by positivity)), Nat.zero_add]
      rw [Nat.mul_succ, Nat.add_comm, pow_add, ← Nat.div_div_eq_div_mul, hdrop]
      exact ih (Nat.lt_of_succ_lt_succ hk)

theorem lane_lt (w : Nat) (v : W512) (k : Nat) : lane w v k < 2 ^ w := Nat.mod_lt _ (by positivity)

set_option exponentiation.threshold 512 in
theorem lane_ofLanes {w : Nat} {xs : List Nat} {k : Nat} (hk : k < xs.length) (hfit : w * xs.length ≤ 512) :
    lane w (ofLanes w xs) k = xs[k] % 2 ^ w := by
  have hsmall : packNat w xs < 2 ^ 512 := 
    lt_of_lt_of_le (packNat_lt w xs) (pow_le_pow_right₀ one_le_two hfit)
  have hval : (ofLanes w xs).toNat = packNat w xs := (BitVec.toNat_ofNat _ _).trans (Nat.mod_eq_of_lt hsmall)
  rw [lane, bitsOf, hval, Nat.shiftRight_eq_div_pow, packNat_digit w hk]

theorem laneBits_mul_laneCount (t : VTy) : laneBits t * laneCount t = 512 := by cases t <;> rfl

/-- What a lane function under a predicate makes of a register. -/
theorem mapLanes_lane (t : VTy) (m : W64) (old : W512) (f : Nat → Nat × FFlags) {k : Nat} (hk : k < laneCount t) :
    lane (laneBits t) (mapLanes t m old f).val k =
      if m.getLsbD k then (f k).1 % 2 ^ laneBits t else lane (laneBits t) old k := by
  unfold mapLanes
  dsimp only
  rw [lane_ofLanes (by simpa using hk) (by simp [laneBits_mul_laneCount])]
  simp only [List.getElem_map, List.getElem_range, lanePred, bit1]
  split
  · rfl
  · exact Nat.mod_eq_of_lt (lane_lt _ _ _)

/-- Lane functions that set no flag. -/
theorem mapLanes_pure_flags (t : VTy) (m : W64) (old : W512) (g : Nat → Nat) :
    (mapLanes t m old fun k => pureLane (g k)).flags = 0 := by
  have none (l : List Nat) : (l.map fun _ => 0).foldl (· ||| ·) 0 = 0 := by
    induction l with
    | nil => rfl
    | cons x l ih =>
      rw [List.map_cons, List.foldl_cons]
      exact ih
  refine Eq.trans ?_ (none (List.range (laneCount t)))
  unfold mapLanes
  dsimp only
  rw [List.map_map]
  congr 1
  refine List.map_congr_left fun k _ => ?_
  dsimp only [Function.comp]
  split <;> rfl

/-! ### The row of a vector instruction -/

theorem exec_of_decodeV {u : Nat} {sp : Bool} {w : W32} {i : Instr} (h : decodeV u sp w = some i) (hwf : i.wf = true)
    (s : State) : exec i s = .next (runSlot u .V i s) := by
  unfold decodeV at h
  dsimp only at h
  split at h
  · split at h
    · cases h
      exact runIf_of hwf _
    · cases h
  split at h
  · cases h
  split at h
  all_goals
    repeat' split at h
    all_goals cases h <;> exact runIf_of hwf _

section
variable {s e : State} {u c p : Nat} {i : Instr}

/-- The beat counts a vector instruction. -/
def vecCounted (u : Nat) (e : State) : State := bumpFld e (VEC_ISSUED u) VEC_ISSUED_ISSUED 1

theorem ctx_vecCounted (v d : Nat) : ctx (vecCounted u e) v d = ctx e v d := ctx_bumpFld _ _ _ _ _ _

/-- The row of an instruction in slot V that passes its check and waits for nothing. -/
theorem Lone.rowV (h : Lone s u c .V i) (hn : isNop i = false) (hp : privNeeded (privOf s u c) i = true)
    (hw : waitOf s u c i = none) (hown : ownFault s u c i = none) (he : effV (counted u s) u c i (counted u s) = e)
    (hgo : GoesOn (ctx e u c)) : exec i s = .next (landed u c (straightOn (ctx s u c)) (vecCounted u e)) := by
  have hclear : Clear s u c := ⟨h.static hp, h.noWait hw, h.noFault (by decide) hown⟩
  have hslot : effSlot (counted u s) u c (ctx s u c).pc (counted u s) .V = e := by
    simp only [effSlot, slotIns_counted, h.holds]
    exact he
  have hgo' : GoesOn (ctx (vecCounted u e) u c) := by
    rw [ctx_vecCounted]
    exact hgo
  have hmove : moveOn (counted u s) u c (vecCounted u e) = updCtx (vecCounted u e) u c (steer (straightOn (ctx s u c))) :=
    moveOn_runs _ _ _ _ _ ((control_counted s u c).trans (h.controlOn (by decide)))
      (by rw [ctx_counted]; exact h.noHaltHere (by decide)) hgo'.sound hgo'.loaded hgo'.noStep
  rw [exec_of_decodeV h.holds h.wf, h.toAlone.runSlot hclear, h.issuedV hn, hslot]
  rw [show bumpFld e (VEC_ISSUED u) VEC_ISSUED_ISSUED 1 = vecCounted u e from rfl, hmove]
  rfl

end

end Sys2Proof.Machine
end

section
/-!
PROOFS. Vector results written at once (R126, R226, R231, R235, R236), and the integer and bitwise lanes (R133).
-/
namespace Sys2Proof.Machine
open Sys2Proof

section
variable {s e : State} {u c p : Nat} {i : Instr}

/-! ### What the flags of a vector instruction leave alone -/

theorem besideCore_flagCtrs (base flags : Nat) (t : State) : besideCore (flagCtrs base flags t) = besideCore t :=
  foldl_keeps besideCore _ (fun _ _ => by split <;> rfl) _ _

theorem core_flagCtrs (base flags : Nat) (t : State) : (flagCtrs base flags t).core = t.core :=
  foldl_keeps State.core _ (fun _ _ => by split <;> rfl) _ _

theorem csr_flagCtrs (base flags : Nat) (t : State) : (flagCtrs base flags t).csr = t.csr :=
  foldl_keeps State.csr _ (fun _ _ => by split <;> rfl) _ _

/-- Slots that have acted on their own context, its flags and their record: its registers are those of `x`, and it goes on. -/
structure Flagged (s e : State) (u c : Nat) (x : Ctx) : Prop where
  own    : OwnEffect s e u c [VEC_FLAGS u, VEC_FIRST u]
  regs   : regsOf (ctx e u c) = regsOf x
  goesOn : GoesOn (ctx e u c)

/-- A change of registers at the flags or the record, of counters or of the record's number. -/
theorem Flagged.of_parts {t : State} {x : Ctx} (h : Flagged s e u c x) (hbeside : besideCore t = besideCore e)
    (hctxs : t.core.ctxs = e.core.ctxs) (hwords : WordsKept e t [VEC_FLAGS u, VEC_FIRST u]) : Flagged s t u c x := by
  have hctx (v d : Nat) : ctx t v d = ctx e v d := by
    unfold ctx
    rw [hctxs]
  refine ⟨⟨hbeside.trans h.own.beside, fun v d hv => (hctx v d).trans (h.own.others v d hv), fun o ho =>
    (hwords o ho).trans (h.own.words o ho)⟩, ?_, ?_⟩
  · rw [hctx, h.regs]
  · rw [hctx]
    exact h.goesOn

theorem Flagged.orFlags {x : Ctx} (h : Flagged s e u c x) (n : Nat) : Flagged s (orFld e (VEC_FLAGS u) ⟨0, 0, 5⟩ n) u c x :=
  h.of_parts (by simp [besideCore]) (by rw [orFld_core]) fun o ho =>
    rget_setFld_other e _ o _ _ fun heq => ho (by simp [heq])

theorem Flagged.counters {x : Ctx} (h : Flagged s e u c x) (base n : Nat) : Flagged s (flagCtrs base n e) u c x :=
  h.of_parts (besideCore_flagCtrs _ _ _) (by rw [core_flagCtrs]) fun o _ => rget_of_csr (csr_flagCtrs _ _ _) o

theorem Flagged.pend {x : Ctx} (h : Flagged s e u c x) (b : Nat) : Flagged s (setPend e u c b) u c x := by
  have hctx : ctx (setPend e u c b) u c = eventWake { ctx e u c with pend := (ctx e u c).pend ||| (1#4 <<< b) } :=
    ctx_updCtx_same _ _ _ _
  refine ⟨h.own.upd _, ?_, ?_⟩
  · rw [hctx, regsOf_eventWake]
    exact h.regs
  · rw [hctx]
    exact GoesOn.eventWake ⟨h.goesOn.sound, h.goesOn.loaded, h.goesOn.noStep⟩

theorem Flagged.record {x : Ctx} (h : Flagged s e u c x) (w : W64) (num : Nat) :
    Flagged s { rset e (VEC_FIRST u) w with core := { (rset e (VEC_FIRST u) w).core with
      vecFirst := mset 0 (rset e (VEC_FIRST u) w).core.vecFirst u num } } u c x :=
  h.of_parts (by simp [besideCore]) rfl fun o ho =>
    Eq.trans (rget_of_csr rfl o) ((rget_rset e _ o w).trans (if_neg fun heq => ho (by simp [heq])))

theorem raiseVec_zero (pc num ln : Nat) (t : State) : raiseVec u c pc num 0 ln t = t := if_pos rfl

/-- Raising flags touches them, their counters, the NUM event of the context and the record of the first (R235, R236). -/
theorem Flagged.raiseVec {x : Ctx} (h : Flagged s e u c x) (pc num flags ln : Nat) :
    Flagged s (raiseVec u c pc num flags ln e) u c x := by
  unfold Machine.raiseVec
  split
  · exact h
  · have hor := h.orFlags flags
    generalize orFld e (VEC_FLAGS u) ⟨0, 0, 5⟩ flags = e₁ at hor
    have hctr : Flagged s (if isCp u then e₁ else flagCtrs (8 + 5 * vecClass e₁ u) flags e₁) u c x := by
      split
      · exact hor
      · exact hor.counters _ _
    dsimp only
    generalize (if isCp u then e₁ else flagCtrs (8 + 5 * vecClass e₁ u) flags e₁) = e₂ at hctr ⊢
    have hpend : Flagged s (if flags &&& fld e₂ (VEC_EVT_MASK u) VEC_EVT_MASK_MASK ≠ 0 then setPend e₂ u c 1 else e₂) u c x := by
      split
      · exact hctr.pend 1
      · exact hctr
    generalize (if flags &&& fld e₂ (VEC_EVT_MASK u) VEC_EVT_MASK_MASK ≠ 0 then setPend e₂ u c 1 else e₂) = e₃ at hpend ⊢
    split
    · exact hpend
    · exact hpend.record _ _

/-! ### A vector result (R126, R226) -/

/-- Nothing is due to the registers of a bundle that stands alone, so its result and flags land at once. -/
theorem Alone.landVec {sl : Slot} (h : Alone s u c sl i) (vd : Nat) (r : VRes) : landVec (counted u s) u c vd r (counted u s) =
    raiseVec u c (ctx s u c).pc (vecNum (counted u s) u) r.flags r.lane (updCtx (counted u s) u c fun x => setV x vd r.val) := by
  unfold Machine.landVec
  rw [outstandingRegs_counted, h.nothingDue, ctx_counted]
  rfl

theorem Alone.flagged_setV {sl : Slot} (h : Alone s u c sl i) (vd : Nat) (v : W512) :
    Flagged s (updCtx (counted u s) u c fun x => setV x vd v) u c (setV (ctx s u c) vd v) := by
  have hctx : ctx (updCtx (counted u s) u c fun x => setV x vd v) u c = setV (ctx s u c) vd v := ctx_upd_counted s u c _
  have hown := (ownEffect_counted s u c).upd fun x => setV x vd v
  refine ⟨⟨hown.beside, hown.others, fun o _ => hown.words o List.not_mem_nil⟩, by rw [hctx], ?_⟩
  rw [hctx]
  exact ⟨h.goesOn.sound, h.goesOn.loaded, h.goesOn.noStep⟩

theorem vecIssued_apart (u : Nat) : VEC_ISSUED u ∉ [VEC_FLAGS u, VEC_FIRST u] ∧ CORE_BEATS u ∉ [VEC_FLAGS u, VEC_FIRST u] ∧
    VEC_ISSUED u ≠ CORE_BEATS u ∧ VEC_FLAGS u ≠ VEC_ISSUED u ∧ VEC_FLAGS u ≠ CORE_BEATS u := by
  simp only [VEC_ISSUED, VEC_FLAGS, VEC_FIRST, CORE_BEATS, List.mem_cons, List.not_mem_nil, or_false]
  omega

/-- What the beat of a vector instruction leaves, from what its slot makes of its own context. -/
theorem Flagged.vecResult {x : Ctx} {ty : VTy} {vd : Nat} {f : Nat → Nat} (h : Flagged s e u c x)
    (hvec : ∀ r, r ≠ vd → vr x r = vr (ctx s u c) r)
    (hlane : ∀ k, k < laneCount ty → lane (laneBits ty) (vr x vd) k =
      if (pr (ctx s u c) p).getLsbD k then f k else lane (laneBits ty) (vr (ctx s u c) vd) k)
    (hrest : x.sreg = (ctx s u c).sreg ∧ x.preg = (ctx s u c).preg ∧ x.dreg = (ctx s u c).dreg) :
    VecResult s (landed u c (straightOn (ctx s u c)) (vecCounted u e)) u c p ty vd f := by
  have hregs : regsOf (ctx (landed u c (straightOn (ctx s u c)) (vecCounted u e)) u c) = regsOf x := by
    rw [ctx_landed_keeps regsOf fun _ _ => rfl, ctx_vecCounted, h.regs]
  simp only [regsOf, Prod.mk.injEq] at hregs
  obtain ⟨hs, hp, hv, hd⟩ := hregs
  obtain ⟨hs', hp', hd'⟩ := hrest
  obtain ⟨hissued, hbeats, hne, -⟩ := vecIssued_apart u
  have hown : OwnEffect s (vecCounted u e) u c [VEC_ISSUED u, VEC_FLAGS u, VEC_FIRST u] := by
    refine ⟨Eq.trans (by simp [besideCore, vecCounted]) h.own.beside, fun v d hvd => ?_, fun o ho => ?_⟩
    · rw [ctx_vecCounted]
      exact h.own.others v d hvd
    · have hfar : o ≠ VEC_ISSUED u := fun heq => ho (heq ▸ List.mem_cons_self)
      exact (rget_setFld_other e _ o _ _ hfar).trans (h.own.words o fun hm => ho (List.mem_cons_of_mem _ hm))
  refine ⟨fun k hk => ?_, fun r hr => ?_, fun r => ⟨?_, ?_, ?_⟩, ?_, ?_, hown.coreFrame ?_ _⟩
  · have hsame : vr (ctx (landed u c (straightOn (ctx s u c)) (vecCounted u e)) u c) vd = vr x vd := by simp only [vr, hv]
    rw [hsame]
    exact hlane k hk
  · have hsame : vr (ctx (landed u c (straightOn (ctx s u c)) (vecCounted u e)) u c) r = vr x r := by simp only [vr, hv]
    rw [hsame]
    exact hvec r hr
  · simp only [sr, hs, hs']
  · simp only [pr, hp, hp']
  · simp only [dr, hd, hd']
  · rw [ctx_landed_same]
    rfl
  · rw [fld_landed, vecCounted, fld_bumpFld _ _ _ _ (by decide), h.own.words.fld hissued, fld_of_rget (rget_counted s hne)]
    rfl
  · exact fun hmem => (List.mem_cons.mp hmem).elim (fun heq => hne heq.symm) hbeats

/-- The row of an instruction whose result is that of a lane function under its predicate. -/
theorem Lone.row_lanes {ty : VTy} {vd : Nat} {m : W64} {g : Nat → Nat × FFlags} {f : Nat → Nat} (h : Lone s u c .V i)
    (hn : isNop i = false) (hp : privNeeded (privOf s u c) i = true) (hw : waitOf s u c i = none)
    (hown : ownFault s u c i = none)
    (he : effV (counted u s) u c i (counted u s) =
      landVec (counted u s) u c vd (mapLanes ty m (vr (ctx s u c) vd) g) (counted u s))
    (hf : ∀ k, k < laneCount ty → (if m.getLsbD k then (g k).1 % 2 ^ laneBits ty else lane (laneBits ty) (vr (ctx s u c) vd) k) =
      if (pr (ctx s u c) p).getLsbD k then f k else lane (laneBits ty) (vr (ctx s u c) vd) k) :
    Runs i s fun t => VecResult s t u c p ty vd f ∧ ((mapLanes ty m (vr (ctx s u c) vd) g).flags = 0 →
      fld t (VEC_FLAGS u) ⟨0, 0, 5⟩ = fld s (VEC_FLAGS u) ⟨0, 0, 5⟩) := by
  rw [h.landVec] at he
  have hflag := (h.flagged_setV vd (mapLanes ty m (vr (ctx s u c) vd) g).val).raiseVec (ctx s u c).pc
    (vecNum (counted u s) u) (mapLanes ty m (vr (ctx s u c) vd) g).flags (mapLanes ty m (vr (ctx s u c) vd) g).lane
  refine ⟨_, h.rowV hn hp hw hown he hflag.goesOn, hflag.vecResult (fun r hr => ?_) (fun k hk => ?_) ⟨rfl, rfl, rfl⟩,
    fun hzero => ?_⟩
  · rw [vr_setV, if_neg hr]
  · rw [vr_setV, if_pos rfl, mapLanes_lane _ _ _ _ hk]
    exact hf k hk
  · obtain ⟨-, -, -, hflags, hbeats⟩ := vecIssued_apart u
    rw [hzero, raiseVec_zero, fld_landed, vecCounted, bumpFld]
    rw [fld_setFld_far _ _ _ _ _ _ (show VEC_FLAGS u + 8 * 0 ≠ VEC_ISSUED u + 8 * VEC_ISSUED_ISSUED.word by
      simpa [VEC_ISSUED_ISSUED] using hflags)]
    exact (fld_of_csr (updCtx_csr _ _ _ _) _ _).trans (fld_of_rget (rget_counted s (by simpa using hbeats)))

/-- The row of an instruction whose lanes set no flag. -/
theorem Lone.row_pure {ty : VTy} {vd : Nat} {f : Nat → Nat} (h : Lone s u c .V i) (hn : isNop i = false)
    (hp : privNeeded (privOf s u c) i = true) (hw : waitOf s u c i = none) (hown : ownFault s u c i = none)
    (he : effV (counted u s) u c i (counted u s) = landVec (counted u s) u c vd
      (mapLanes ty (pr (ctx s u c) p) (vr (ctx s u c) vd) fun k => pureLane (f k)) (counted u s))
    (hf : ∀ k, f k < 2 ^ laneBits ty) : Runs i s fun t => VecResult s t u c p ty vd f ∧
      fld t (VEC_FLAGS u) ⟨0, 0, 5⟩ = fld s (VEC_FLAGS u) ⟨0, 0, 5⟩ :=
  (h.row_lanes (p := p) hn hp hw hown he fun k _ => by rw [pureLane, Nat.mod_eq_of_lt (hf k)]).mono
    fun _ ⟨hres, hflags⟩ => ⟨hres, hflags (mapLanes_pure_flags _ _ _ _)⟩

end

end Sys2Proof.Machine
end

section
/-!
PROOFS. O13: the integer lanes in the words of R133, and the bundle of each instruction.
-/
namespace Sys2Proof.Machine
open Sys2Proof

/-! ### Integer lanes -/

section
variable {t : VTy}

theorem eq_of_intTy (h : intTy t = true) : t = .i32 ∨ t = .i16 := by
  cases t with
  | i32 => exact .inl rfl
  | i16 => exact .inr rfl
  | f32 | bf16 | cf32 => cases h

theorem laneAdd_int (h : intTy t = true) (a b : Nat) : laneAdd t a b = pureLane ((a + b) % 2 ^ laneBits t) := by
  rcases eq_of_intTy h with rfl | rfl <;> rfl

theorem laneSub_int (h : intTy t = true) (a b : Nat) : laneSub t a b = pureLane ((a + (2 ^ laneBits t - b)) % 2 ^ laneBits t) := by
  rcases eq_of_intTy h with rfl | rfl <;> rfl

theorem laneMul_int (h : intTy t = true) (a b : Nat) : laneMul t a b = pureLane (a * b % 2 ^ laneBits t) := by
  rcases eq_of_intTy h with rfl | rfl <;> rfl

theorem laneFma_int (h : intTy t = true) (d a b : Nat) : laneFma t d a b = pureLane ((d + a * b) % 2 ^ laneBits t) := by
  rcases eq_of_intTy h with rfl | rfl <;> rfl

/-- A lane is its signed value. -/
theorem eq_of_sgn_eq {w a b : Nat} (ha : a < 2 ^ w) (hb : b < 2 ^ w) (h : sgn w a = sgn w b) : a = b := by
  unfold sgn at h
  rw [Nat.mod_eq_of_lt ha, Nat.mod_eq_of_lt hb] at h
  split at h <;> split at h <;> omega

theorem laneMin_int (h : intTy t = true) {a b : Nat} (ha : a < 2 ^ laneBits t) (hb : b < 2 ^ laneBits t) :
    laneMinMax t false a b = if sgn (laneBits t) a ≤ sgn (laneBits t) b then a else b := by
  rw [laneMinMax, if_pos h]
  rcases lt_trichotomy (sgn (laneBits t) a) (sgn (laneBits t) b) with hlt | heq | hgt
  · simp [hlt, hlt.le]
  · simp [eq_of_sgn_eq ha hb heq]
  · simp [hgt.not_gt, hgt.not_ge]

theorem laneMax_int (h : intTy t = true) {a b : Nat} (ha : a < 2 ^ laneBits t) (hb : b < 2 ^ laneBits t) :
    laneMinMax t true a b = if sgn (laneBits t) a ≤ sgn (laneBits t) b then b else a := by
  rw [laneMinMax, if_pos h]
  rcases lt_trichotomy (sgn (laneBits t) a) (sgn (laneBits t) b) with hlt | heq | hgt
  · simp [hlt, hlt.le]
  · simp [eq_of_sgn_eq ha hb heq]
  · simp [hgt.not_gt, hgt.not_ge]

end

/-! ### Lane operations -/

section
variable {s : State} {u c p vd va vb : Nat} {ty : VTy} {i : Instr}

theorem effLanes_counted (g : Nat → Nat → Nat → Nat × FFlags) : effLanes (counted u s) u c p ty vd va vb g (counted u s) =
    landVec (counted u s) u c vd (mapLanes ty (pr (ctx s u c) p) (vr (ctx s u c) vd) fun k =>
      g (lane (laneBits ty) (vr (ctx s u c) vd) k) (lane (laneBits ty) (vr (ctx s u c) va) k)
        (lane (laneBits ty) (vr (ctx s u c) vb) k)) (counted u s) := by
  simp only [effLanes, rdP_counted, rdV_counted]

/-- The row of an instruction that makes a lane of the lanes of two registers and of its destination. -/
theorem Lone.row_effLanes {g : Nat → Nat → Nat → Nat × FFlags} {f : Nat → Nat} (h : Lone s u c .V i)
    (hn : isNop i = false) (hp : privNeeded (privOf s u c) i = true) (hw : waitOf s u c i = none)
    (hown : ownFault s u c i = none)
    (he : effV (counted u s) u c i (counted u s) = effLanes (counted u s) u c p ty vd va vb g (counted u s))
    (hg : ∀ k, g (lane (laneBits ty) (vr (ctx s u c) vd) k) (lane (laneBits ty) (vr (ctx s u c) va) k)
      (lane (laneBits ty) (vr (ctx s u c) vb) k) = pureLane (f k))
    (hf : ∀ k, f k < 2 ^ laneBits ty) : Runs i s fun t => VecResult s t u c p ty vd f ∧
      fld t (VEC_FLAGS u) ⟨0, 0, 5⟩ = fld s (VEC_FLAGS u) ⟨0, 0, 5⟩ := by
  refine h.row_pure hn hp hw hown ?_ hf
  rw [he, effLanes_counted]
  simp only [hg]

end

section
variable {s : State} {u c p vd va vb ra : Nat} {ty : VTy} {a b d : Nat → Nat} {f : Nat → Nat} {i : Instr}

/-- What O13 says of an instruction: its lanes, and that it sets no flag. -/
def SetsLanes (s : State) (u c p vd : Nat) (ty : VTy) (i : Instr) (f : Nat → Nat) : Prop :=
  Lone s u c .V i → Runs i s fun t => VecResult s t u c p ty vd f ∧
    fld t (VEC_FLAGS u) ⟨0, 0, 5⟩ = fld s (VEC_FLAGS u) ⟨0, 0, 5⟩

theorem narrow_lt (w : Nat) (x : Int) : narrow w x < 2 ^ w := by
  have hpos : (0 : Int) < (2 ^ w : Nat) := by positivity
  have hlt := Int.emod_lt_of_pos x hpos
  have hge := Int.emod_nonneg x hpos.ne'
  unfold narrow
  omega

variable (ha : ∀ k, a k = lane (laneBits ty) (vr (ctx s u c) va) k) (hb : ∀ k, b k = lane (laneBits ty) (vr (ctx s u c) vb) k)
  (hd : ∀ k, d k = lane (laneBits ty) (vr (ctx s u c) vd) k)

include ha hb hd in
/-- An instruction over the lanes `d`, `a` and `b` of its registers. -/
theorem setsLanes_effLanes {g : Nat → Nat → Nat → Nat × FFlags} (hn : isNop i = false)
    (hp : privNeeded (privOf s u c) i = true) (hw : waitOf s u c i = none) (hown : ownFault s u c i = none)
    (he : effV (counted u s) u c i (counted u s) = effLanes (counted u s) u c p ty vd va vb g (counted u s))
    (hg : ∀ k, g (d k) (a k) (b k) = pureLane (f k)) (hf : ∀ k, f k < 2 ^ laneBits ty) : SetsLanes s u c p vd ty i f :=
  fun h => h.row_effLanes hn hp hw hown he (fun k => by rw [← hd, ← ha, ← hb, hg]) hf

include ha in
theorem a_lt (k : Nat) : a k < 2 ^ laneBits ty := by
  rw [ha]
  exact lane_lt _ _ _

end

section
variable {s : State} {u c p vd va vb ra : Nat} {ty : VTy} {a b d : Nat → Nat}
  (ha : ∀ k, a k = lane (laneBits ty) (vr (ctx s u c) va) k) (hb : ∀ k, b k = lane (laneBits ty) (vr (ctx s u c) vb) k)
  (hd : ∀ k, d k = lane (laneBits ty) (vr (ctx s u c) vd) k)
include ha hb hd

/-- Integer arithmetic wraps, orders by sign and shifts by the amount modulo the lane width (R133). -/
theorem setsLanes_integer (hint : intTy ty = true) :
    ∀ e ∈ ([(.vadd u p ty vd va vb, fun k => (a k + b k) % 2 ^ laneBits ty),
      (.vsub u p ty vd va vb, fun k => (a k + 2 ^ laneBits ty - b k) % 2 ^ laneBits ty),
      (.vmul u p ty vd va vb, fun k => a k * b k % 2 ^ laneBits ty),
      (.vfma u p ty vd va vb, fun k => (a k * b k + d k) % 2 ^ laneBits ty),
      (.vmin u p ty vd va vb, fun k => if sgn (laneBits ty) (a k) ≤ sgn (laneBits ty) (b k) then a k else b k),
      (.vmax u p ty vd va vb, fun k => if sgn (laneBits ty) (a k) ≤ sgn (laneBits ty) (b k) then b k else a k),
      (.vshl u p ty vd va vb, fun k => a k * 2 ^ (b k % laneBits ty) % 2 ^ laneBits ty),
      (.vshr u p ty vd va vb false, fun k => a k / 2 ^ (b k % laneBits ty)),
      (.vshr u p ty vd va vb true, fun k => narrow (laneBits ty) (sgn (laneBits ty) (a k) / (2 ^ (b k % laneBits ty) : Nat)))] :
      List (Instr × (Nat → Nat))), SetsLanes s u c p vd ty e.1 e.2 := by
  have wraps (x : Nat) : x % 2 ^ laneBits ty < 2 ^ laneBits ty := Nat.mod_lt _ (by positivity)
  have ha' := a_lt ha
  have hb' := a_lt hb
  have either (q : Prop) [Decidable q] (x y : Nat) (hx : x < 2 ^ laneBits ty) (hy : y < 2 ^ laneBits ty) :
      (if q then x else y) < 2 ^ laneBits ty := by
    split
    · exact hx
    · exact hy
  simp only [List.forall_mem_cons]
  refine ⟨?_, ?_, ?_, ?_, ?_, ?_, ?_, ?_, ?_, fun _ h => absurd h List.not_mem_nil⟩
  · exact setsLanes_effLanes ha hb hd (g := fun _ x y => laneAdd ty x y) rfl rfl rfl rfl rfl
      (fun k => laneAdd_int hint _ _) fun k => wraps _
  · refine setsLanes_effLanes ha hb hd (g := fun _ x y => laneSub ty x y) rfl rfl rfl rfl rfl (fun k => ?_) fun k => wraps _
    rw [laneSub_int hint, Nat.add_sub_assoc (hb' k).le]
  · exact setsLanes_effLanes ha hb hd (g := fun _ x y => laneMul ty x y) rfl rfl rfl rfl rfl
      (fun k => laneMul_int hint _ _) fun k => wraps _
  · refine setsLanes_effLanes ha hb hd (g := fun z x y => laneFma ty z x y) rfl rfl rfl rfl rfl (fun k => ?_) fun k => wraps _
    rw [laneFma_int hint, Nat.add_comm]
  · exact setsLanes_effLanes ha hb hd (g := fun _ x y => pureLane (laneMinMax ty false x y)) rfl rfl rfl rfl rfl
      (fun k => congrArg pureLane (laneMin_int hint (ha' k) (hb' k))) fun k => either _ _ _ (ha' k) (hb' k)
  · exact setsLanes_effLanes ha hb hd (g := fun _ x y => pureLane (laneMinMax ty true x y)) rfl rfl rfl rfl rfl
      (fun k => congrArg pureLane (laneMax_int hint (ha' k) (hb' k))) fun k => either _ _ _ (hb' k) (ha' k)
  · exact setsLanes_effLanes ha hb hd (g := fun _ x y => pureLane (x * 2 ^ (y % laneBits ty) % 2 ^ laneBits ty)) rfl rfl rfl rfl
      rfl (fun k => rfl) fun k => wraps _
  · exact setsLanes_effLanes ha hb hd (g := fun _ x y => pureLane (x / 2 ^ (y % laneBits ty))) rfl rfl rfl rfl
      (by simp only [effV, effVshr, Bool.false_eq_true, if_false]) (fun k => rfl) fun k => (Nat.div_le_self _ _).trans_lt (ha' k)
  · exact setsLanes_effLanes ha hb hd (g := fun _ x y =>
      pureLane (narrow (laneBits ty) (sgn (laneBits ty) x / (2 ^ (y % laneBits ty) : Nat)))) rfl rfl rfl rfl
      (by simp only [effV, effVshr, if_true]) (fun k => rfl) fun k => narrow_lt _ _

/-- Bitwise operations and moves of lanes (R133, R231). -/
theorem setsLanes_bits :
    ∀ e ∈ ([(.vand u p ty vd va vb, fun k => a k &&& b k), (.vor u p ty vd va vb, fun k => a k ||| b k),
      (.vxor u p ty vd va vb, fun k => a k ^^^ b k), (.vperm u p ty vd va vb, fun k => a (b k % laneCount ty)),
      (.vbcast u p ty vd ra, fun _ => (sr (ctx s u c) ra).toNat % 2 ^ laneBits ty), (.vmov u p ty vd va, a)] :
      List (Instr × (Nat → Nat))), SetsLanes s u c p vd ty e.1 e.2 := by
  have ha' := a_lt ha
  have hb' := a_lt hb
  simp only [List.forall_mem_cons]
  refine ⟨?_, ?_, ?_, fun h => ?_, fun h => ?_, ?_, fun _ h => absurd h List.not_mem_nil⟩
  · exact setsLanes_effLanes ha hb hd (g := fun _ x y => pureLane (x &&& y)) rfl rfl rfl rfl rfl (fun k => rfl)
      fun k => Nat.and_lt_two_pow _ (hb' k)
  · exact setsLanes_effLanes ha hb hd (g := fun _ x y => pureLane (x ||| y)) rfl rfl rfl rfl rfl (fun k => rfl)
      fun k => Nat.or_lt_two_pow (ha' k) (hb' k)
  · exact setsLanes_effLanes ha hb hd (g := fun _ x y => pureLane (x ^^^ y)) rfl rfl rfl rfl rfl (fun k => rfl)
      fun k => Nat.xor_lt_two_pow (ha' k) (hb' k)
  · exact h.row_pure rfl rfl rfl rfl (by simp only [effV, effVperm, rdP_counted, rdV_counted, ha, hb]) fun k => ha' _
  · exact h.row_pure rfl rfl rfl rfl (by simp only [effV, effVbcast, rdP_counted, rdV_counted, rdS_counted])
      fun k => Nat.mod_lt _ (by positivity)
  · exact setsLanes_effLanes ha ha hd (g := fun _ x _ => pureLane x) rfl rfl rfl rfl rfl (fun k => rfl) ha'

end

/-- Settles O13: each instruction by its lane function, which sets no flag and fits its lane. -/
theorem integerVectorLanes : Obligations.IntegerVectorLanes := by
  intro s u c p vd va vb ra ty a b d w ha hb hd hw e he
  obtain rfl : w = laneBits ty := hw
  rcases List.mem_append.mp he with he | he
  · cases hint : intTy ty with
    | false =>
      rw [hint] at he
      cases he
    | true =>
      rw [if_pos hint] at he
      exact setsLanes_integer ha hb hd hint e he
  · exact setsLanes_bits ha hb hd e he

end Sys2Proof.Machine
end

section
/-!
PROOFS. Compares, extraction and conversion in slot V (R125, R126, R133, R232).
-/
namespace Sys2Proof.Machine
open Sys2Proof

/-! ### One bit for each lane -/

theorem testBit_packNat (n : Nat) (q : Nat → Bool) (k : Nat) :
    (packNat 1 ((List.range n).map fun i => b2n (q i))).testBit k = (decide (k < n) && q k) := by
  by_cases hk : k < n
  · have hdigit := packNat_digit 1 (xs := (List.range n).map fun i => b2n (q i)) (k := k) (by simpa using hk)
    simp only [List.getElem_map, List.getElem_range, Nat.one_mul, pow_one] at hdigit
    rw [Nat.testBit_eq_decide_div_mod_eq, hdigit]
    cases q k <;> simp [hk, b2n]
  · have hlt := packNat_lt 1 ((List.range n).map fun i => b2n (q i))
    rw [List.length_map, List.length_range, Nat.one_mul] at hlt
    rw [Nat.testBit_lt_two_pow (lt_of_lt_of_le hlt (pow_le_pow_right₀ one_le_two (Nat.not_lt.mp hk)))]
    simp [hk]

theorem laneCount_le (t : VTy) : laneCount t ≤ 32 := by cases t <;> decide

theorem getLsbD_laneWord (t : VTy) (q : Nat → Bool) (k : Nat) :
    (BitVec.ofNat 64 (packNat 1 ((List.range (laneCount t)).map fun i => b2n (q i)))).getLsbD k =
      (decide (k < laneCount t) && q k) := by
  have hcount := laneCount_le t
  rw [BitVec.getLsbD_ofNat, testBit_packNat]
  by_cases hk : k < laneCount t
  · simp [hk, show k < 64 by omega]
  · simp [hk]

/-! ### Compares -/

section
variable {t : VTy} {a b : Nat}

theorem order_of_nan {x y : FVal} (h : isNaN x = true ∨ isNaN y = true) : eqF x y = false ∧ ltF x y = false := by
  rcases h with h | h
  · cases x with
    | nan => exact ⟨rfl, rfl⟩
    | inf _ | fin _ _ _ => cases h
  · cases y with
    | nan => cases x <;> exact ⟨rfl, rfl⟩
    | inf _ | fin _ _ _ => cases h

/-- A compare of integer lanes: signed for LT and GE, unsigned for LTU and GEU. -/
theorem laneCmp_int (h : intTy t = true) :
    laneCmp t .eq a b = decide (a = b) ∧ laneCmp t .ne a b = !decide (a = b) ∧
    laneCmp t .lt a b = decide (sgn (laneBits t) a < sgn (laneBits t) b) ∧
    laneCmp t .ge a b = !decide (sgn (laneBits t) a < sgn (laneBits t) b) ∧
    laneCmp t .ltu a b = decide (a < b) ∧ laneCmp t .geu a b = !decide (a < b) := by
  simp only [laneCmp, h, if_true, ← decide_not, not_lt, ne_eq, and_self]

/-- A compare with a NaN is false, except NE (R133). -/
theorem laneCmp_nan {cc : Cc} (h : intTy t = false)
    (hn : isNaN (decodeF (fmtOf t) a) = true ∨ isNaN (decodeF (fmtOf t) b) = true) : laneCmp t cc a b = decide (cc = .ne) := by
  obtain ⟨heq, hlt⟩ := order_of_nan hn
  have hge : (!isNaN (decodeF (fmtOf t) a) && !isNaN (decodeF (fmtOf t) b)) = false := by
    rcases hn with hn | hn <;> simp [hn]
  cases cc <;> simp [laneCmp, h, heq, hlt, hge]

theorem laneCmp_num (h : intTy t = false) (ha : isNaN (decodeF (fmtOf t) a) = false) (hb : isNaN (decodeF (fmtOf t) b) = false) :
    laneCmp t .eq a b = eqF (decodeF (fmtOf t) a) (decodeF (fmtOf t) b) ∧
    laneCmp t .ne a b = !eqF (decodeF (fmtOf t) a) (decodeF (fmtOf t) b) ∧
    laneCmp t .lt a b = ltF (decodeF (fmtOf t) a) (decodeF (fmtOf t) b) ∧
    laneCmp t .ge a b = !ltF (decodeF (fmtOf t) a) (decodeF (fmtOf t) b) ∧
    laneCmp t .ltu a b = false ∧ laneCmp t .geu a b = false := by
  simp [laneCmp, h, ha, hb]

end

/-! ### Rows that write a predicate or a scalar -/

section
variable {s : State} {u c p pd rd va vb idx : Nat} {ty : VTy} {cc : Cc}

theorem bumpFld_updCtx (u c : Nat) (f : Ctx → Ctx) (e : State) (r : Nat) (fl : Fld) (n : Nat) :
    bumpFld (updCtx e u c f) r fl n = updCtx (bumpFld e r fl n) u c f := rfl

theorem vecCounted_updCtx (u c : Nat) (f : Ctx → Ctx) (e : State) :
    vecCounted u (updCtx e u c f) = updCtx (vecCounted u e) u c f := bumpFld_updCtx _ _ _ _ _ _ _

theorem OwnEffect.issued {e : State} (h : OwnEffect s e u c []) : OwnEffect s (vecCounted u e) u c [VEC_ISSUED u] := by
  unfold vecCounted
  exact h.bump _ VEC_ISSUED_ISSUED 1 rfl

theorem beats_ne_issued : CORE_BEATS u ∉ [VEC_ISSUED u] := by
  simp only [VEC_ISSUED, CORE_BEATS, List.mem_singleton]
  omega

/-- The predicate that VCMP writes: compares where the predicate enables them, the old bits elsewhere, none past the lanes. -/
def comparedWord (s : State) (u c p pd va vb : Nat) (ty : VTy) (cc : Cc) : W64 :=
  BitVec.ofNat 64 (packNat 1 ((List.range (laneCount ty)).map fun k =>
    b2n (if lanePred (pr (ctx s u c) p) k then
        laneCmp ty cc (lane (laneBits ty) (vr (ctx s u c) va) k) (lane (laneBits ty) (vr (ctx s u c) vb) k)
      else bit1 (pr (ctx s u c) pd) k)))

theorem Lone.row_vcmp (h : Lone s u c .V (.vcmp u p ty pd cc va vb)) : Runs (.vcmp u p ty pd cc va vb) s fun t =>
    PredResult s t u c pd (comparedWord s u c p pd va vb ty cc) [VEC_ISSUED u] := by
  have he : effV (counted u s) u c (.vcmp u p ty pd cc va vb) (counted u s) =
      updCtx (counted u s) u c fun x => setP x pd (comparedWord s u c p pd va vb ty cc) := by
    simp only [effV, effVcmp, rdP_counted, rdV_counted, writeNow, outstandingRegs_counted, h.nothingDue]
    rfl
  have hctx : ctx (vecCounted u (counted u s)) u c = ctx s u c := by rw [ctx_vecCounted, ctx_counted]
  refine ⟨_, h.rowV rfl rfl rfl rfl he ?_, ?_⟩
  · rw [ctx_upd_counted]
    exact h.goesOn.setP _ _
  · rw [vecCounted_updCtx]
    exact (ownEffect_counted s u c).issued.predResult hctx beats_ne_issued _ _

theorem Lone.row_vext (h : Lone s u c .V (.vext u p ty rd va idx)) (hp : predTrue (ctx s u c) p = true) :
    Runs (.vext u p ty rd va idx) s fun t =>
      (∀ r, r < 32 → sr (ctx t u c) r = if r = rd ∧ rd ≠ 0 then
        BitVec.ofNat 64 (lane (laneBits ty) (vr (ctx s u c) va) idx) else sr (ctx s u c) r) ∧
      (∀ r, vr (ctx t u c) r = vr (ctx s u c) r) ∧ (∀ r, pr (ctx t u c) r = pr (ctx s u c) r) ∧
      CoreFrame s t u c [VEC_ISSUED u] := by
  have he : effV (counted u s) u c (.vext u p ty rd va idx) (counted u s) =
      updCtx (counted u s) u c fun x => setS x rd (BitVec.ofNat 64 (lane (laneBits ty) (vr (ctx s u c) va) idx)) := by
    rw [← h.writeS]
    simp only [effV, effVext, ctx_counted, hp, if_true, rdV_counted]
  have hctx : ctx (landed u c (straightOn (ctx s u c)) (vecCounted u (updCtx (counted u s) u c fun x =>
      setS x rd (BitVec.ofNat 64 (lane (laneBits ty) (vr (ctx s u c) va) idx))))) u c =
      steer (straightOn (ctx s u c)) (setS (ctx s u c) rd (BitVec.ofNat 64 (lane (laneBits ty) (vr (ctx s u c) va) idx))) := by
    rw [ctx_landed_same, ctx_vecCounted, ctx_upd_counted]
  refine ⟨_, h.rowV rfl rfl rfl rfl he ?_, fun r _ => ?_, fun r => ?_, fun r => ?_, ?_⟩
  · rw [ctx_upd_counted]
    exact h.goesOn.setS _ _
  · rw [hctx]
    exact sr_setS (ctx s u c) rd r _
  · rw [hctx, setS_frame]
    rfl
  · rw [hctx, setS_frame]
    rfl
  · rw [vecCounted_updCtx]
    exact ((ownEffect_counted s u c).issued.upd _).coreFrame beats_ne_issued _

end

/-! ### Conversion -/

section
variable {ty d : VTy}

theorem saturated_eq (x : Int) : (if x < -32768 then -32768 else if 32767 < x then 32767 else x) = max (-32768) (min 32767 x) := by
  omega

/-- The lanes that VCONV fills, and from where: 16 from `16 h` on for narrower lanes, those from `16 h` on for wider ones. -/
theorem convSrc_eq (h k : Nat) : convSrc ty d h k =
    if laneBits d < laneBits ty ∧ ¬ (16 * h ≤ k ∧ k < 16 * h + 16) then none
    else some (if laneBits d < laneBits ty then k - 16 * h else if laneBits ty < laneBits d then 16 * h + k else k) := by
  unfold convSrc
  rcases lt_trichotomy (laneBits d) (laneBits ty) with hlt | heq | hgt
  · by_cases hin : 16 * h ≤ k ∧ k < 16 * h + 16
    · simp [hlt, hlt.ne', hin]
    · simp [hlt, hlt.ne', hin]
  · simp [heq]
  · simp [hgt, hgt.ne, hgt.not_gt]

variable {s : State} {u c p h vd va : Nat} {sat : Bool}

/-- The row of VCONV, whose lanes hold what `laneConv` makes of their sources. -/
theorem Lone.row_vconv {f : Nat → Nat} (hl : Lone s u c .V (.vconv u p ty d vd va sat h))
    (hnone : ∀ k, convSrc ty d h k = none → f k = lane (laneBits d) (vr (ctx s u c) vd) k)
    (hsome : ∀ k j, convSrc ty d h k = some j →
      f k = (laneConv ty d sat (lane (laneBits ty) (vr (ctx s u c) va) j)).1 % 2 ^ laneBits d) :
    Runs (.vconv u p ty d vd va sat h) s fun t => VecResult s t u c p d vd f := by
  have he : effV (counted u s) u c (.vconv u p ty d vd va sat h) (counted u s) = landVec (counted u s) u c vd
      (mapLanes d (BitVec.ofNat 64 (packNat 1 ((List.range (laneCount d)).map fun k =>
          b2n (lanePred (pr (ctx s u c) p) k && (convSrc ty d h k).isSome)))) (vr (ctx s u c) vd)
        fun k => laneConv ty d sat (lane (laneBits ty) (vr (ctx s u c) va) ((convSrc ty d h k).getD 0))) (counted u s) := by
    simp only [effV, effVconv, rdP_counted, rdV_counted]
  refine (hl.row_lanes rfl rfl rfl rfl he fun k hk => ?_).mono fun _ ⟨hres, _⟩ => hres
  rw [getLsbD_laneWord]
  simp only [hk, decide_true, Bool.true_and, lanePred, bit1]
  cases hsrc : convSrc ty d h k with
  | none => simp [hnone k hsrc]
  | some j => simp [hsome k j hsrc]

end

/-! ### The statement -/

/-- What a compare of lanes answers, from its three cases: integers, a NaN among the operands, two numbers. -/
theorem laneCmp_eq_of_cases {t : VTy} {cc : Cc} {a b : Nat} {yes : Bool} :
    (intTy t = true → yes = match cc with
      | .eq => decide (a = b) | .ne => !decide (a = b) | .lt => decide (sgn (laneBits t) a < sgn (laneBits t) b)
      | .ge => !decide (sgn (laneBits t) a < sgn (laneBits t) b) | .ltu => decide (a < b) | .geu => !decide (a < b)) →
    (intTy t = false → isNaN (decodeF (fmtOf t) a) = true ∨ isNaN (decodeF (fmtOf t) b) = true → yes = decide (cc = .ne)) →
    (intTy t = false → isNaN (decodeF (fmtOf t) a) = false → isNaN (decodeF (fmtOf t) b) = false → yes = match cc with
      | .eq => eqF (decodeF (fmtOf t) a) (decodeF (fmtOf t) b) | .ne => !eqF (decodeF (fmtOf t) a) (decodeF (fmtOf t) b)
      | .lt => ltF (decodeF (fmtOf t) a) (decodeF (fmtOf t) b) | .ge => !ltF (decodeF (fmtOf t) a) (decodeF (fmtOf t) b)
      | _ => false) → laneCmp t cc a b = yes := by
  intro hint hnan hnum
  cases ht : intTy t with
  | true =>
    obtain ⟨heq, hne, hlt, hge, hltu, hgeu⟩ := laneCmp_int (a := a) (b := b) ht
    rw [hint ht]
    cases cc <;> assumption
  | false =>
    by_cases hn : isNaN (decodeF (fmtOf t) a) = true ∨ isNaN (decodeF (fmtOf t) b) = true
    · rw [hnan ht hn, laneCmp_nan ht hn]
    · obtain ⟨ha, hb⟩ := not_or.mp hn
      obtain ⟨heq, hne, hlt, hge, hltu, hgeu⟩ := laneCmp_num ht (Bool.eq_false_iff.mpr ha) (Bool.eq_false_iff.mpr hb)
      rw [hnum ht (Bool.eq_false_iff.mpr ha) (Bool.eq_false_iff.mpr hb)]
      cases cc <;> assumption

theorem getLsbD_comparedWord {s : State} {u c p pd va vb : Nat} {t : VTy} {cc : Cc} (k : Nat) :
    (comparedWord s u c p pd va vb t cc).getLsbD k = if k < laneCount t then
        (if (pr (ctx s u c) p).getLsbD k then
          laneCmp t cc (lane (laneBits t) (vr (ctx s u c) va) k) (lane (laneBits t) (vr (ctx s u c) vb) k)
        else (pr (ctx s u c) pd).getLsbD k) else false := by
  rw [comparedWord, getLsbD_laneWord]
  by_cases hk : k < laneCount t
  · rw [if_pos hk, decide_eq_true hk, Bool.true_and]
    rfl
  · rw [if_neg hk, decide_eq_false hk, Bool.false_and]

/-- The pairs of types that VCONV takes: two different ones among the four real types. -/
theorem wfVconv_types {u p vd va h : Nat} {ty d : VTy} {sat : Bool} (hwf : wfVconv u p ty d vd va sat h = true) :
    ty ≠ .cf32 ∧ d ≠ .cf32 ∧ ty ≠ d := by
  simp only [wfVconv, Bool.and_eq_true, decide_eq_true_eq] at hwf
  obtain ⟨⟨⟨⟨⟨-, hty⟩, hd⟩, hne⟩, -⟩, -⟩ := hwf
  refine ⟨fun h => ?_, fun h => ?_, hne⟩
  · rw [h] at hty
    cases hty
  · rw [h] at hd
    cases hd

/-- Settles O15: VCMP and VEXT by what one lane answers, VCONV by the lanes it fills and what one lane becomes. -/
theorem vectorComparesExtractsConversions : Obligations.VectorComparesExtractsConversions := by
  refine ⟨fun s u c p pd rd va vb idx ty cc a b w yes ha hb hw hint hnan hnum => ?_,
    fun s u c p h vd va sat ty d a src conv ha hsrc hii hi hif hib hfb hbf hfi hl => ?_⟩
  · subst hw
    have hyes : ∀ k, laneCmp ty cc (a k) (b k) = yes k := fun k =>
      laneCmp_eq_of_cases (fun ht => hint ht k) (fun ht => hnan ht k) (fun ht => hnum ht k)
    refine ⟨fun h => h.row_vcmp.mono fun t ht => ⟨_, ht, fun k => ?_⟩, fun h hp => ?_⟩
    · rw [getLsbD_comparedWord, ← ha, ← hb, hyes]
    · rw [ha]
      exact h.row_vext hp
  · have hconv : ∀ x, (laneConv ty d sat x).1 = conv x := fun x => by
      obtain ⟨hty, hd, hne⟩ := wfVconv_types (sat := sat) hl.wf
      cases ty with
      | i32 => cases d with
        | i16 => rw [hii rfl rfl, ← saturated_eq]; rfl
        | f32 => exact (hif (.inl rfl) rfl x).symm
        | bf16 => exact (hib (.inl rfl) rfl x).symm
        | i32 => exact absurd rfl hne
        | cf32 => exact absurd rfl hd
      | i16 => cases d with
        | i32 => exact (hi rfl rfl x).symm
        | f32 => exact (hif (.inr rfl) rfl x).symm
        | bf16 => exact (hib (.inr rfl) rfl x).symm
        | i16 => exact absurd rfl hne
        | cf32 => exact absurd rfl hd
      | f32 => cases d with
        | i32 => exact (hfi (.inl rfl) (.inl rfl) x).symm
        | i16 => exact (hfi (.inl rfl) (.inr rfl) x).symm
        | bf16 => exact (hfb rfl rfl x).symm
        | f32 => exact absurd rfl hne
        | cf32 => exact absurd rfl hd
      | bf16 => cases d with
        | i32 => exact (hfi (.inr rfl) (.inl rfl) x).symm
        | i16 => exact (hfi (.inr rfl) (.inr rfl) x).symm
        | f32 => exact (hbf rfl rfl x).symm
        | bf16 => exact absurd rfl hne
        | cf32 => exact absurd rfl hd
      | cf32 => exact absurd rfl hty
    refine hl.row_vconv (fun k hk => ?_) fun k j hk => ?_
    · rw [convSrc_eq] at hk
      by_cases hout : laneBits d < laneBits ty ∧ ¬ (16 * h ≤ k ∧ k < 16 * h + 16)
      · rw [if_pos hout]
      · rw [if_neg hout] at hk
        cases hk
    · rw [convSrc_eq, ← hsrc] at hk
      by_cases hout : laneBits d < laneBits ty ∧ ¬ (16 * h ≤ k ∧ k < 16 * h + 16)
      · rw [if_pos hout] at hk
        cases hk
      · rw [if_neg hout] at hk
        cases hk
        rw [if_neg hout, ← ha, hconv]

end Sys2Proof.Machine
end

section
/-!
PROOFS. MM (R94, R137, R188): the row of an instruction in slot M, and the command that it leaves last in its engine's queue.
-/
namespace Sys2Proof.Machine
open Sys2Proof

section
variable {s e : State} {u c : Nat} {i : Instr}

/-- The row of an instruction in slot M that passes its check and waits for nothing. -/
theorem Lone.rowM (h : Lone s u c .M i) (hp : privNeeded (privOf s u c) i = true) (hw : waitOf s u c i = none)
    (hown : ownFault s u c i = none) (he : effM (counted u s) u c i (counted u s) = e) (hgo : GoesOn (ctx e u c)) :
    exec i s = .next (landed u c (straightOn (ctx s u c)) e) := by
  have hclear : Clear s u c := ⟨h.static hp, h.noWait hw, h.noFault (by decide) hown⟩
  have hslot : effSlot (counted u s) u c (ctx s u c).pc (counted u s) .M = e := by
    simp only [effSlot, slotIns_counted, h.holds, truePred_counted, h.truePred (by decide), if_true]
    exact he
  rw [h.toAlone.exec (by decide) (by simp), h.toAlone.runSlot hclear,
    h.toAlone.issue (by decide) (h.controlOn (by decide)) (h.noHaltHere (by decide)) hslot hgo]
  rfl

theorem engines_landed (k : Ctl) (e : State) : (landed u c k e).core.engines = e.core.engines := by
  unfold landed
  rw [plotCtr_core]
  rfl

theorem OwnEffect.issues {l : List Nat} (h : OwnEffect s e u c l) (hb : CORE_BEATS u ∉ l) (hready : (ctx e u c).st = .ready) :
    Issues s (landed u c (straightOn (ctx s u c)) e) u c l := by
  have hf := h.coreFrame hb (straightOn (ctx s u c))
  refine ⟨hf.others, by rw [ctx_landed_same]; rfl, by rw [ctx_landed_same]; exact hready, hf.beats, fun o ho => ?_, hf.queue⟩
  rw [List.mem_cons, not_or] at ho
  exact hf.words o ho.1 ho.2

end

/-! ### The queue of an engine -/

section
variable {s : State} {u c p e dd : Nat}

@[simp] theorem mget_setQueue (u e k : Nat) (q : List ECmd) (s : State) :
    mget [] (setQueue u e q s).core.engines k = if k = u * 2 + e then q else mget [] s.core.engines k := mget_mset _ _ _ _ _

theorem ctx_setQueue (u e v d : Nat) (q : List ECmd) (s : State) : ctx (setQueue u e q s) v d = ctx s v d := rfl
theorem csr_setQueue (u e : Nat) (q : List ECmd) (s : State) : (setQueue u e q s).csr = s.csr := rfl
theorem mem_setQueue (u e : Nat) (q : List ECmd) (s : State) : (setQueue u e q s).mem = s.mem := rfl
theorem reqs_setQueue (u e : Nat) (q : List ECmd) (s : State) : (setQueue u e q s).core.reqs = s.core.reqs := rfl
theorem ctxs_setQueue (u e : Nat) (q : List ECmd) (s : State) : (setQueue u e q s).core.ctxs = s.core.ctxs := rfl
theorem besideCore_setQueue (u e : Nat) (q : List ECmd) (s : State) : besideCore (setQueue u e q s) = besideCore s := rfl

theorem OwnEffect.setQueue {t : State} {l : List Nat} (h : OwnEffect s t u c l) (w k : Nat) (q : List ECmd) :
    OwnEffect s (setQueue w k q t) u c l :=
  ⟨(besideCore_setQueue w k q t).trans h.beside, fun v d hv => (ctx_setQueue w k v d q t).trans (h.others v d hv),
    fun o ho => (rget_of_csr (csr_setQueue w k q t) o).trans (h.words o ho)⟩

/-- The command that MM makes of a descriptor. -/
def queuedCmd (s : State) (u c e dd : Nat) : ECmd :=
  { desc := dr (ctx s u c) dd, c := c, pc := (ctx s u c).pc, num := (fld s (ENG_ISSUED u e) ENG_ISSUED_ISSUED + 1) % 2 ^ 64
    started := false, shape := 0, flow := 0, cols := 0, hidF := false }

/-- The state in which the engine has counted and queued that command. -/
def withCmd (s : State) (u c e dd : Nat) : State :=
  setQueue u e (mget [] s.core.engines (u * 2 + e) ++ [queuedCmd s u c e dd])
    (bumpFld (counted u s) (ENG_ISSUED u e) ENG_ISSUED_ISSUED 1)

theorem engIssued_ne_beats (u e : Nat) : ENG_ISSUED u e ≠ CORE_BEATS u := by
  unfold ENG_ISSUED CORE_BEATS
  omega

theorem fld_engIssued_counted (s : State) (u e : Nat) :
    fld (bumpFld (counted u s) (ENG_ISSUED u e) ENG_ISSUED_ISSUED 1) (ENG_ISSUED u e) ENG_ISSUED_ISSUED =
      (fld s (ENG_ISSUED u e) ENG_ISSUED_ISSUED + 1) % 2 ^ 64 := by
  have hbump := fld_bumpFld (counted u s) (ENG_ISSUED u e) ENG_ISSUED_ISSUED 1 (by decide)
  have hfar : fld (counted u s) (ENG_ISSUED u e) ENG_ISSUED_ISSUED = fld s (ENG_ISSUED u e) ENG_ISSUED_ISSUED :=
    fld_setFld_far _ _ _ _ _ _ (engIssued_ne_beats u e)
  rw [hbump, hfar, show ENG_ISSUED_ISSUED.width = 64 from rfl]

theorem effMm_counted : effM (counted u s) u c (.mm u p e dd) (counted u s) = withCmd s u c e dd := by
  simp only [effM, effMm, withCmd, setQueue, queuedCmd, ctx_counted, fld_engIssued_counted, bumpFld_core]

theorem ownEffect_withCmd : OwnEffect s (withCmd s u c e dd) u c [ENG_ISSUED u e] :=
  ((ownEffect_counted s u c).bump (ENG_ISSUED u e) ENG_ISSUED_ISSUED 1 rfl).setQueue _ _ _

theorem ctx_withCmd (v d : Nat) : ctx (withCmd s u c e dd) v d = ctx s v d := by
  rw [withCmd, ctx_setQueue, ctx_bumpFld, ctx_counted]

/-- MM: its command stands last in the queue of its engine. -/
theorem Lone.row_mm (h : Lone s u c .M (.mm u p e dd)) (hok : mmFault s u e (dr (ctx s u c) dd) = none)
    (hroom : (mget [] s.core.engines (u * 2 + e)).length < 4) : Runs (.mm u p e dd) s fun t => ∃ q : ECmd,
      mget [] t.core.engines (u * 2 + e) = mget [] s.core.engines (u * 2 + e) ++ [q] ∧ q.desc = dr (ctx s u c) dd ∧ q.c = c ∧
      q.pc = (ctx s u c).pc ∧ q.started = false ∧ q.num = (fld s (ENG_ISSUED u e) ENG_ISSUED_ISSUED + 1) % 2 ^ 64 ∧
      fld t (ENG_ISSUED u e) ENG_ISSUED_ISSUED = q.num ∧
      (∀ k, k ≠ u * 2 + e → mget [] t.core.engines k = mget [] s.core.engines k) ∧
      RegsKept s t u c ∧ Issues s t u c [ENG_ISSUED u e] ∧ t.mem = s.mem ∧ t.strm = s.strm ∧ t.core.reqs = s.core.reqs := by
  have hown : OwnEffect s (withCmd s u c e dd) u c [ENG_ISSUED u e] := ownEffect_withCmd
  have hctx : ctx (withCmd s u c e dd) u c = ctx s u c := ctx_withCmd u c
  have hfar : CORE_BEATS u ∉ [ENG_ISSUED u e] := by simpa using (engIssued_ne_beats u e).symm
  have hframe := hown.coreFrame hfar (straightOn (ctx s u c))
  obtain ⟨-, -, hstrm, -⟩ := hframe.blocks
  have hreqs : (withCmd s u c e dd).core.reqs = s.core.reqs := by
    rw [withCmd, reqs_setQueue, bumpFld_core, bumpFld_core]
  refine ⟨_, h.rowM rfl (if_pos hroom) hok effMm_counted (by rw [hctx]; exact h.goesOn), queuedCmd s u c e dd,
    ?_, rfl, rfl, rfl, rfl, rfl, ?_, fun k hk => ?_, regsKept_of_regsOf (regsOf_landed _ (by rw [hctx])),
    hown.issues hfar (by rw [hctx]; exact h.ready), hframe.mem, hstrm, (reqs_landed _ _).trans hreqs⟩
  · rw [engines_landed, withCmd, mget_setQueue, if_pos rfl]
  · rw [fld_landed, withCmd, fld_of_csr (csr_setQueue _ _ _ _), fld_engIssued_counted]
    rfl
  · rw [engines_landed, withCmd, mget_setQueue, if_neg hk, bumpFld_core, bumpFld_core]

end

end Sys2Proof.Machine
end

section
/-!
PROOFS. ENGINE_COMMAND_START (R182, R183, R189): the oldest command of an engine that runs none takes its columns, shape and
dataflow, and `ENG_STATUS` shows them.
-/
namespace Sys2Proof.Machine
open Sys2Proof

section
variable {s : State} {u e : Nat} {c : ECmd} {rest : List ECmd}

/-! ### What a command uses fits its field of `ENG_STATUS` -/

theorem autoShape_lt (m n cols : Nat) : autoShape m n cols < 7 := by
  unfold autoShape
  refine List.foldlRecOn (motive := fun best : Nat × Nat => best.1 < 7) _ _ (Nat.succ_pos 6) fun best hbest code hcode => ?_
  dsimp only
  split
  · exact List.mem_range.mp hcode
  · exact hbest

theorem dw_lt (d : W512) (i lo w : Nat) : dw d i lo w < 2 ^ w := Nat.mod_lt _ (Nat.two_pow_pos w)

theorem shapeUsed_lt (d : W512) (cols : Nat) : shapeUsed d cols < 8 := by
  unfold shapeUsed
  split
  · exact (autoShape_lt _ _ _).trans (by decide)
  · exact dw_lt d 0 17 3

theorem flowUsed_lt (d : W512) : flowUsed d < 2 := by
  unfold flowUsed
  split
  · decide
  · exact dw_lt d 0 16 1

theorem unitWidth_le (s : State) (u e : Nat) : unitWidth s u e ≤ 8 := by
  unfold unitWidth engineWidth
  split
  · decide
  · dsimp only
    split
    · decide
    · split <;> decide

theorem colsUsed_lt (s : State) (u e : Nat) (d : W512) : colsUsed s u e d < 16 := by
  unfold colsUsed
  split
  · decide
  · exact Nat.lt_of_le_of_lt (unitWidth_le s u e) (by decide)

/-! ### The register -/

/-- `ENG_STATUS` shows a command. -/
def showCmd (u e : Nat) (c : ECmd) (s : State) : State :=
  setFld (setFld (setFld (setFld s (ENG_STATUS u e) ENG_STATUS_LAST_SHAPE c.shape) (ENG_STATUS u e) ENG_STATUS_LAST_FLOW c.flow)
    (ENG_STATUS u e) ENG_STATUS_COLS_USED c.cols) (ENG_STATUS u e) ENG_STATUS_LAST_CTX c.c

theorem wordsKept_showCmd (u e : Nat) (c : ECmd) (s : State) : WordsKept s (showCmd u e c s) [ENG_STATUS u e] :=
  (wordsKept_setFld s _ ENG_STATUS_LAST_SHAPE _).trans ((wordsKept_setFld _ _ ENG_STATUS_LAST_FLOW _).trans
    ((wordsKept_setFld _ _ ENG_STATUS_COLS_USED _).trans (wordsKept_setFld _ _ ENG_STATUS_LAST_CTX _)))

theorem showCmd_core (u e : Nat) (c : ECmd) (s : State) : (showCmd u e c s).core = s.core := by simp [showCmd]
theorem showCmd_mem (u e : Nat) (c : ECmd) (s : State) : (showCmd u e c s).mem = s.mem := by simp [showCmd]

/-- A field below the one written keeps its value. -/
theorem fld_setFld_below (t : State) (r : Nat) (f g : Fld) (x : Nat)
    (h : f.lo + f.width ≤ 64 ∧ f.word = g.word ∧ g.lo + g.width ≤ f.lo) : fld (setFld t r f x) r g = fld t r g :=
  fld_setFld_other t r f g x h.1 h.2.1 (.inl h.2.2)

theorem fld_showCmd (s : State) (hshape : c.shape < 8) (hflow : c.flow < 2) (hcols : c.cols < 16) :
    fld (showCmd u e c s) (ENG_STATUS u e) ENG_STATUS_LAST_SHAPE = c.shape ∧
    fld (showCmd u e c s) (ENG_STATUS u e) ENG_STATUS_LAST_FLOW = c.flow ∧
    fld (showCmd u e c s) (ENG_STATUS u e) ENG_STATUS_COLS_USED = c.cols := by
  refine ⟨?_, ?_, ?_⟩
  · exact (fld_setFld_below _ _ _ _ _ (by decide)).trans <| (fld_setFld_below _ _ _ _ _ (by decide)).trans <|
      (fld_setFld_below _ _ _ _ _ (by decide)).trans <| (fld_setFld _ _ _ _ (by decide)).trans (Nat.mod_eq_of_lt hshape)
  · exact (fld_setFld_below _ _ _ _ _ (by decide)).trans <| (fld_setFld_below _ _ _ _ _ (by decide)).trans <|
      (fld_setFld _ _ _ _ (by decide)).trans (Nat.mod_eq_of_lt hflow)
  · exact (fld_setFld_below _ _ _ _ _ (by decide)).trans <| (fld_setFld _ _ _ _ (by decide)).trans (Nat.mod_eq_of_lt hcols)

/-! ### The row -/

/-- The command that starts, in front of an engine that ran none. -/
def startedCmd (s : State) (u e : Nat) (c : ECmd) : ECmd := { settled s u e c with hidF := false }

theorem startCmd_alone (c : ECmd) (rest : List ECmd) (s : State) : startCmd u e [] c rest s =
    if hasTiles c.desc then showCmd u e (settled s u e c) (setQueue u e (startedCmd s u e c :: rest) s)
    else setQueue u e (startedCmd s u e c :: rest) s := by
  unfold startCmd
  exact if_pos rfl

theorem exec_engineCommandStart (hu : u < 25600) (he : e < 2) (hq : mget [] s.core.engines (u * 2 + e) = c :: rest)
    (hc : c.started = false) : exec (.engineCommandStart u e) s = .next
      (if hasTiles c.desc then showCmd u e (settled s u e c) (setQueue u e (startedCmd s u e c :: rest) s)
        else setQueue u e (startedCmd s u e c :: rest) s) := by
  refine (runIf_of (by simp [wfEngineCommandStart, hu, he, nCores]) _).trans (congrArg Host.Outcome.next ?_)
  have hrun : (c :: rest).takeWhile (·.started) = [] := by simp [hc]
  have hwait : (c :: rest).dropWhile (·.started) = c :: rest := by simp [hc]
  rw [show engQueue s u e = c :: rest from hq]
  dsimp only
  rw [hrun, hwait]
  exact startCmd_alone c rest s

theorem engineCommandStart_row (hu : u < 25600) (he : e < 2) (hq : mget [] s.core.engines (u * 2 + e) = c :: rest)
    (hc : c.started = false) : Runs (.engineCommandStart u e) s fun t => ∃ q : ECmd,
      mget [] t.core.engines (u * 2 + e) = q :: rest ∧ q.started = true ∧ q.desc = c.desc ∧ q.c = c.c ∧ q.pc = c.pc ∧
      q.num = c.num ∧ q.cols = (if dCols c.desc = 7 then 7 else unitWidth s u e) ∧
      q.flow = (if dAuto c.desc then 0 else dFlow c.desc) ∧
      q.shape = (if dAuto c.desc then autoShape (dM c.desc) (dN c.desc) q.cols else dShape c.desc) ∧
      (dM c.desc ≠ 0 → dN c.desc ≠ 0 → fld t (ENG_STATUS u e) ENG_STATUS_LAST_SHAPE = q.shape ∧
        fld t (ENG_STATUS u e) ENG_STATUS_LAST_FLOW = q.flow ∧ fld t (ENG_STATUS u e) ENG_STATUS_COLS_USED = q.cols) ∧
      WordsKept s t [ENG_STATUS u e] ∧ t.mem = s.mem ∧ t.core.ctxs = s.core.ctxs := by
  have hqueue : WordsKept s (setQueue u e (startedCmd s u e c :: rest) s) [ENG_STATUS u e] := wordsKept_of_csr rfl _
  have hnow : mget [] (setQueue u e (startedCmd s u e c :: rest) s).core.engines (u * 2 + e) = startedCmd s u e c :: rest := by
    rw [mget_setQueue, if_pos rfl]
  refine ⟨_, exec_engineCommandStart hu he hq hc, startedCmd s u e c, ?_, rfl, rfl, rfl, rfl, rfl, rfl, rfl, rfl,
    fun hm hn => ?_, ?_, ?_, ?_⟩
  · split
    · rw [showCmd_core, hnow]
    · exact hnow
  · rw [if_pos (by simp [hasTiles, hm, hn])]
    exact fld_showCmd _ (shapeUsed_lt _ _) (flowUsed_lt _) (colsUsed_lt _ _ _ _)
  · split
    · exact hqueue.trans (wordsKept_showCmd _ _ _ _)
    · exact hqueue
  · split
    · rw [showCmd_mem, mem_setQueue]
    · rw [mem_setQueue]
  · split
    · rw [showCmd_core, ctxs_setQueue]
    · rw [ctxs_setQueue]

end

end Sys2Proof.Machine
end

section
/-!
PROOFS. Rounding (R166, R168, R210): `convert` gives one answer for one exact value, however it is written as a fraction; the
wide format holds a product of two BF16 elements exactly; and an FP32 encoding has 32 bits.
-/
namespace Sys2Proof.Machine
open Sys2Proof

/-! ### Dyadic numbers as rationals -/

theorem dyDen_pos (e : Int) : 0 < dyDen e := Nat.two_pow_pos _

theorem two_zpow_toNat (k : Int) : (2 : ℚ) ^ k * 2 ^ (-k).toNat = 2 ^ k.toNat := by
  rcases le_or_gt 0 k with h | h
  · rw [Int.toNat_of_nonpos (by omega), pow_zero, mul_one, ← zpow_natCast, Int.toNat_of_nonneg h]
  · rw [Int.toNat_of_nonpos h.le, ← zpow_natCast, Int.toNat_of_nonneg (by omega), ← zpow_add₀ two_ne_zero]
    norm_num

/-- The fraction that a dyadic magnitude is written as. -/
theorem dyNum_div_dyDen (m : Nat) (e : Int) : (dyNum m e : ℚ) / dyDen e = m * 2 ^ e := by
  rw [div_eq_iff (by exact_mod_cast (dyDen_pos e).ne'), dyNum, dyDen]
  push_cast
  rw [mul_assoc, two_zpow_toNat]

theorem dyNum_eq_zero {m : Nat} {e : Int} : dyNum m e = 0 ↔ m = 0 := by simp [dyNum]

/-- Fractions of one value, cross-multiplied. -/
theorem cross_of_div_eq {n d n' d' : Nat} (hd : 0 < d) (hd' : 0 < d') (h : (n : ℚ) / d = n' / d') : n * d' = n' * d := by
  have hq := (div_eq_div_iff (by exact_mod_cast hd.ne') (by exact_mod_cast hd'.ne')).mp h
  exact_mod_cast hq

/-- A comparison of magnitudes in units of a power of two. -/
theorem dyLt_iff (m' : Nat) (e' : Int) (m : Nat) (e : Int) : dyLt m' e' m e = true ↔ (m' : ℚ) * 2 ^ e' < m * 2 ^ e := by
  have scale (x : Nat) (a k : Int) (h : k ≤ a) : (x : ℚ) * 2 ^ a = (x * 2 ^ (a - k).toNat : Nat) * 2 ^ k := by
    push_cast
    rw [mul_assoc, ← zpow_natCast, Int.toNat_of_nonneg (by omega), ← zpow_add₀ two_ne_zero, Int.sub_add_cancel]
  rw [scale m' e' _ (min_le_right e e'), scale m e _ (min_le_left e e'), mul_lt_mul_iff_left₀ (by positivity), Nat.cast_lt]
  exact decide_eq_true_iff

/-! ### The binade of a fraction -/

section
variable {n d : Nat}

theorem log2_bounds (hn : 0 < n) : (2 : ℚ) ^ Nat.log2 n ≤ n ∧ (n : ℚ) < 2 ^ (Nat.log2 n + 1) :=
  ⟨by exact_mod_cast Nat.log2_self_le hn.ne', by exact_mod_cast Nat.lt_log2_self⟩

theorem floorLog2_test (hd : 0 < d) (k : Int) :
    (if 0 ≤ k then d * 2 ^ k.toNat ≤ n else d ≤ n * 2 ^ (-k).toNat) ↔ (2 : ℚ) ^ k ≤ n / d := by
  have hdq : (0 : ℚ) < d := by exact_mod_cast hd
  have hpos : (0 : ℚ) < 2 ^ (-k).toNat := by positivity
  have hq : (2 : ℚ) ^ k ≤ n / d ↔ d * 2 ^ k.toNat ≤ n * 2 ^ (-k).toNat := by
    rw [le_div_iff₀ hdq, ← mul_le_mul_iff_left₀ hpos, mul_right_comm, two_zpow_toNat, mul_comm (2 ^ k.toNat : ℚ)]
    exact_mod_cast Iff.rfl
  rw [hq]
  split
  next h => rw [Int.toNat_of_nonpos (by omega : -k ≤ 0), pow_zero, Nat.mul_one]
  next h => rw [Int.toNat_of_nonpos (by omega : k ≤ 0), pow_zero, Nat.mul_one]

/-- `floorLog2` is the logarithm of the value alone. -/
theorem floorLog2_eq_log (hn : 0 < n) (hd : 0 < d) : floorLog2 n d = Int.log 2 ((n : ℚ) / d) := by
  obtain ⟨hn₁, hn₂⟩ := log2_bounds hn
  obtain ⟨hd₁, hd₂⟩ := log2_bounds hd
  have hdq : (0 : ℚ) < d := by exact_mod_cast hd
  have hr : (0 : ℚ) < n / d := div_pos (by exact_mod_cast hn) hdq
  have hlt : Int.log 2 ((n : ℚ) / d) < (Nat.log2 n : Int) - Nat.log2 d + 1 := by
    refine (Int.lt_zpow_iff_log_lt one_lt_two hr).mp ((div_lt_iff₀ hdq).mpr (hn₂.trans_le ?_))
    calc (2 : ℚ) ^ (Nat.log2 n + 1) = 2 ^ ((Nat.log2 n : Int) - Nat.log2 d + 1) * 2 ^ Nat.log2 d := by
          rw [← zpow_natCast, ← zpow_natCast, ← zpow_add₀ two_ne_zero]
          congr 1
          push_cast
          ring
      _ ≤ _ := mul_le_mul_of_nonneg_left hd₁ (by positivity)
  have hle : (Nat.log2 n : Int) - Nat.log2 d - 1 ≤ Int.log 2 ((n : ℚ) / d) := by
    refine (Int.zpow_le_iff_le_log one_lt_two hr).mp ((le_div_iff₀ hdq).mpr (le_trans ?_ hn₁))
    calc (2 : ℚ) ^ ((Nat.log2 n : Int) - Nat.log2 d - 1) * d
        ≤ 2 ^ ((Nat.log2 n : Int) - Nat.log2 d - 1) * 2 ^ (Nat.log2 d + 1) := mul_le_mul_of_nonneg_left hd₂.le (by positivity)
      _ = _ := by
          rw [← zpow_natCast, ← zpow_natCast, ← zpow_add₀ two_ne_zero]
          congr 1
          push_cast
          ring
  unfold floorLog2
  dsimp only
  by_cases h : (2 : ℚ) ^ ((Nat.log2 n : Int) - Nat.log2 d) ≤ n / d
  · have := (Int.zpow_le_iff_le_log one_lt_two hr).mp h
    rw [if_pos ((floorLog2_test hd _).mpr h)]
    omega
  · have := mt (Int.zpow_le_iff_le_log one_lt_two hr).mpr h
    rw [if_neg (mt (floorLog2_test hd _).mp h)]
    omega

end

/-! ### One value, one rounding -/

section
variable {n d n' d' : Nat}

theorem rne_mul_left (c : Nat) (hc : 0 < c) (n d : Nat) : rne (c * n) (c * d) = rne n d := by
  have hlt (x y : Nat) : c * x < 2 * (c * y) ↔ x < 2 * y := by
    rw [Nat.mul_left_comm, Nat.mul_lt_mul_left hc]
  have heq (x y : Nat) : 2 * (c * x) = c * y ↔ 2 * x = y := by
    rw [Nat.mul_left_comm, Nat.mul_right_inj hc.ne']
  unfold rne
  simp only [Nat.mul_div_mul_left _ _ hc, Nat.mul_mod_mul_left, hlt, heq, ne_eq, Nat.mul_eq_zero, hc.ne', false_or]

theorem rne_congr (hd : 0 < d) (hd' : 0 < d') (h : n * d' = n' * d) : rne n d = rne n' d' := by
  rw [← rne_mul_left d' hd', ← rne_mul_left d hd n' d', Nat.mul_comm d' n, h, Nat.mul_comm n' d, Nat.mul_comm d' d]

theorem div_eq_of_cross (hd : 0 < d) (hd' : 0 < d') (h : n * d' = n' * d) : (n : ℚ) / d = n' / d' :=
  (div_eq_div_iff (by exact_mod_cast hd.ne') (by exact_mod_cast hd'.ne')).mpr (by exact_mod_cast h)

theorem eq_zero_of_cross (hd : 0 < d) (hd' : 0 < d') (h : n * d' = n' * d) : n = 0 ↔ n' = 0 := by
  constructor <;> rintro rfl <;> simp at h <;> omega

theorem roundMag_congr (mb : Nat) (emin : Int) (hd : 0 < d) (hd' : 0 < d') (h : n * d' = n' * d) :
    roundMag mb emin n d = roundMag mb emin n' d' := by
  have hzero := eq_zero_of_cross hd hd' h
  unfold roundMag
  by_cases hn : n = 0
  · rw [if_pos hn, if_pos (hzero.mp hn)]
  · have hlog : floorLog2 n d = floorLog2 n' d' := by
      rw [floorLog2_eq_log (Nat.pos_of_ne_zero hn) hd, floorLog2_eq_log (Nat.pos_of_ne_zero (mt hzero.mpr hn)) hd',
        div_eq_of_cross hd hd' h]
    rw [if_neg hn, if_neg (mt hzero.mpr hn), hlog]
    dsimp only
    rw [rne_congr (n' := n' * _) (d' := d' * _) (Nat.mul_pos hd (Nat.two_pow_pos _)) (Nat.mul_pos hd' (Nat.two_pow_pos _))
      (by rw [Nat.mul_mul_mul_comm, h, Nat.mul_mul_mul_comm])]

theorem mul_lt_mul_of_cross (hd : 0 < d) (hd' : 0 < d') (h : n * d' = n' * d) (a b : Nat) : n * a < d * b ↔ n' * a < d' * b := by
  rw [← Nat.mul_lt_mul_left hd', ← Nat.mul_lt_mul_left hd (b := n' * a)]
  have hl : d' * (n * a) = d * (n' * a) := by rw [← Nat.mul_assoc, Nat.mul_comm d', h, Nat.mul_comm n', Nat.mul_assoc]
  rw [hl, Nat.mul_left_comm d']

theorem convertMag_congr (f : Fmt) (sat ftz neg : Bool) (hd : 0 < d) (hd' : 0 < d') (h : n * d' = n' * d) :
    convertMag f sat ftz neg n d = convertMag f sat ftz neg n' d' := by
  have hup (a : Nat) : n < d * a ↔ n' < d' * a := by simpa using mul_lt_mul_of_cross hd hd' h 1 a
  have hdown (a : Nat) : n * a < d ↔ n' * a < d' := by simpa using mul_lt_mul_of_cross hd hd' h a 1
  unfold convertMag
  simp only [roundMag_congr f.mbits f.emin hd hd' h, ne_eq, eq_zero_of_cross hd hd' h, hup, hdown]

/-- `convert` depends on the value alone. -/
theorem convertF_congr (f : Fmt) (sat ftz neg : Bool) {m m' : Nat} {e e' : Int} (h : (m : ℚ) * 2 ^ e = m' * 2 ^ e') :
    convertF f sat ftz (.fin neg m e) = convertF f sat ftz (.fin neg m' e') :=
  convertMag_congr f sat ftz neg (dyDen_pos e) (dyDen_pos e')
    (cross_of_div_eq (dyDen_pos e) (dyDen_pos e') (by rw [dyNum_div_dyDen, dyNum_div_dyDen, h]))

end

end Sys2Proof.Machine
end

section
/-!
PROOFS. The wide format and the encodings (R149, R151, R210): what round40 holds exactly, and the bits of an FP32 encoding.
-/
namespace Sys2Proof.Machine
open Sys2Proof

/-! ### The wide format -/

section
variable {n d : Nat}

theorem rne_exact {k : Nat} (hd : 0 < d) : rne (k * d) d = (k, false) := by
  unfold rne
  simp [Nat.mul_div_cancel _ hd, hd.ne]

/-- A magnitude of `mb + 1` bits, not below the smallest unit, is held exactly. -/
theorem roundMag_exact (mb : Nat) {emin j : Int} {a : Nat} (hd : 0 < d) (ha : a < 2 ^ (mb + 1)) (hj : emin - mb ≤ j)
    (h : (n : ℚ) / d = a * 2 ^ j) :
    ((roundMag mb emin n d).1 : ℚ) * 2 ^ (roundMag mb emin n d).2.1 = a * 2 ^ j := by
  unfold roundMag
  by_cases hn : n = 0
  · rw [if_pos hn]
    subst hn
    simpa using h
  · rw [if_neg hn]
    dsimp only
    have hr : (0 : ℚ) < n / d := div_pos (by exact_mod_cast Nat.pos_of_ne_zero hn) (by exact_mod_cast hd)
    have hlog : floorLog2 n d < j + mb + 1 := by
      rw [floorLog2_eq_log (Nat.pos_of_ne_zero hn) hd]
      have hsplit : (2 : ℚ) ^ (j + mb + 1) = 2 ^ (mb + 1) * 2 ^ j := by
        rw [← zpow_natCast, ← zpow_add₀ two_ne_zero]
        congr 1
        push_cast
        ring
      have hlt : (n : ℚ) / d < 2 ^ (j + mb + 1) := by
        rw [h, hsplit]
        exact mul_lt_mul_of_pos_right (by exact_mod_cast ha) (by positivity)
      exact (Int.lt_zpow_iff_log_lt one_lt_two hr).mp hlt
    have hu : max (floorLog2 n d) emin - mb ≤ j := by omega
    generalize max (floorLog2 n d) emin - (mb : Int) = u at hu
    have hint : n * 2 ^ (-u).toNat = a * 2 ^ (j - u).toNat * (d * 2 ^ u.toNat) := by
      have hq : (n : ℚ) = a * 2 ^ j * d := (div_eq_iff (by exact_mod_cast hd.ne')).mp h
      have hj : (2 : ℚ) ^ j = 2 ^ (j - u).toNat * 2 ^ u := by
        rw [← zpow_natCast, Int.toNat_of_nonneg (by omega), ← zpow_add₀ two_ne_zero, Int.sub_add_cancel]
      have : (n : ℚ) * 2 ^ (-u).toNat = a * 2 ^ (j - u).toNat * (d * 2 ^ u.toNat) := by
        rw [hq, hj, ← two_zpow_toNat u]
        ring
      exact_mod_cast this
    rw [hint, rne_exact (Nat.mul_pos hd (Nat.two_pow_pos _))]
    push_cast
    rw [mul_assoc, ← zpow_natCast, Int.toNat_of_nonneg (by omega), ← zpow_add₀ two_ne_zero, Int.sub_add_cancel]

/-- round40 keeps the value of a number of 40 bits (R210). -/
theorem convertF_round40 (f : Fmt) (sat ftz neg : Bool) {m a : Nat} {e j : Int} (ha : a < 2 ^ 40) (hj : -4039 ≤ j)
    (h : (m : ℚ) * 2 ^ e = a * 2 ^ j) :
    convertF f sat ftz (round40 (.fin neg m e)).1 = convertF f sat ftz (.fin neg m e) := by
  refine convertF_congr f sat ftz neg ?_
  rw [h]
  exact roundMag_exact 39 (dyDen_pos e) ha (by omega) (by rw [dyNum_div_dyDen, h])

end

/-! ### A product of two BF16 elements -/

/-- The sum of +0 and a finite number: that number with an exponent that is not positive, a zero without a sign. -/
theorem addF_zero_left (p : Bool) (m : Nat) (e : Int) : addF (.fin false 0 0) (.fin p m e) =
    (.fin (p && decide (m ≠ 0)) (m * 2 ^ (e - min 0 e).toNat) (min 0 e), false) := by
  by_cases hm : m = 0
  · subst hm
    simp [addF]
  · have hpos : 0 < m * 2 ^ (e - min 0 e).toNat := Nat.mul_pos (Nat.pos_of_ne_zero hm) (Nat.two_pow_pos _)
    unfold addF
    dsimp only
    generalize m * 2 ^ (e - min 0 e).toNat = k at hpos
    cases p
    · simp only [Bool.false_eq_true, if_false, Nat.zero_mul, Nat.cast_zero, mul_zero, zero_add, one_mul]
      rw [if_neg (by omega), decide_eq_false (by omega)]
      rfl
    · simp only [Bool.false_eq_true, if_false, if_true, Nat.zero_mul, Nat.cast_zero, mul_zero, zero_add, neg_one_mul]
      rw [if_neg (by omega), decide_eq_true (by omega), decide_eq_true hm, Int.natAbs_neg]
      rfl

theorem addF_comm_zero (p : Bool) (m : Nat) (e : Int) :
    addF (.fin p m e) (.fin false 0 0) = addF (.fin false 0 0) (.fin p m e) := by
  unfold addF
  simp only [min_comm e 0, add_comm, Bool.and_comm p false]

/-- What an encoding decodes to: a significand of `mbits + 1` bits in units not below the smallest (R150). -/
theorem decodeF_cases (f : Fmt) (x : Nat) : decodeF f x = .nan ∨ (∃ p, decodeF f x = .inf p) ∨
    ∃ p m e, decodeF f x = .fin p m e ∧ m < 2 ^ (f.mbits + 1) ∧ f.emin - f.mbits ≤ e := by
  have hm : x % 2 ^ f.mbits < 2 ^ f.mbits := Nat.mod_lt _ (Nat.two_pow_pos _)
  have hpow : 2 ^ (f.mbits + 1) = 2 * 2 ^ f.mbits := Nat.pow_succ'
  unfold decodeF
  dsimp only
  split
  · split
    · exact .inr (.inl ⟨_, rfl⟩)
    · exact .inl rfl
  · split
    · exact .inl rfl
    · split
      · exact .inr (.inr ⟨_, _, _, rfl, by omega, le_refl _⟩)
      · exact .inr (.inr ⟨_, _, _, rfl, by omega, by unfold Fmt.emin; omega⟩)

/-- The wide format rounds nothing off a product of two BF16 elements (R210). -/
theorem convertF_round40_product (f : Fmt) (sat ftz : Bool) (x y : Nat) :
    convertF f sat ftz (round40 (addF (.fin false 0 0) (mulF (decodeF fmtBF16 x) (decodeF fmtBF16 y)).1).1).1 =
      convertF f sat ftz (addF (.fin false 0 0) (mulF (decodeF fmtBF16 x) (decodeF fmtBF16 y)).1).1 := by
  rcases decodeF_cases fmtBF16 x with hx | ⟨p, hx⟩ | ⟨p, m, e, hx, hm, he⟩ <;>
    rcases decodeF_cases fmtBF16 y with hy | ⟨q, hy⟩ | ⟨q, m', e', hy, hm', he'⟩ <;> rw [hx, hy]
  case inr.inr.inr.inr =>
    rw [mulF, addF_zero_left]
    replace he : -133 ≤ e := he
    replace he' : -133 ≤ e' := he'
    have hprod : m * m' < 2 ^ 40 := (Nat.mul_lt_mul'' hm hm').trans (by decide)
    refine convertF_round40 f sat ftz _ hprod (show -4039 ≤ e + e' by omega) ?_
    push_cast
    rw [mul_assoc, ← zpow_natCast, Int.toNat_of_nonneg (by omega), ← zpow_add₀ two_ne_zero, Int.sub_add_cancel]
  all_goals
    simp only [mulF]
    repeat' split
    all_goals rfl

/-! ### An encoding fits its format -/

theorem rne_le {n d k : Nat} (hd : 0 < d) (h : n < k * d) : (rne n d).1 ≤ k := by
  have hlt : n / d < k := (Nat.div_lt_iff_lt_mul hd).mpr h
  unfold rne
  dsimp only
  split <;> omega

theorem roundMag_le (mb : Nat) (emin : Int) {n d : Nat} (hd : 0 < d) : (roundMag mb emin n d).1 ≤ 2 ^ (mb + 1) := by
  unfold roundMag
  by_cases hn : n = 0
  · rw [if_pos hn]
    exact Nat.zero_le _
  · rw [if_neg hn]
    dsimp only
    refine rne_le (Nat.mul_pos hd (Nat.two_pow_pos _)) ?_
    have hdq : (0 : ℚ) < d := by exact_mod_cast hd
    have hr : (0 : ℚ) < n / d := div_pos (by exact_mod_cast Nat.pos_of_ne_zero hn) hdq
    have hlog := floorLog2_eq_log (Nat.pos_of_ne_zero hn) hd
    have hle : Int.log 2 ((n : ℚ) / d) < max (floorLog2 n d) emin + 1 := by omega
    generalize hu : max (floorLog2 n d) emin - (mb : Int) = u
    have hlt : (n : ℚ) < 2 ^ (u + (mb + 1)) * d := by
      refine (div_lt_iff₀ hdq).mp ((Int.lt_zpow_iff_log_lt one_lt_two hr).mpr ?_)
      omega
    have hq : (n : ℚ) * 2 ^ (-u).toNat < 2 ^ (mb + 1) * (d * 2 ^ u.toNat) := by
      rw [← two_zpow_toNat u]
      calc (n : ℚ) * 2 ^ (-u).toNat < 2 ^ (u + (mb + 1)) * d * 2 ^ (-u).toNat := mul_lt_mul_of_pos_right hlt (by positivity)
        _ = _ := by
          rw [zpow_add₀ two_ne_zero, show (2 : ℚ) ^ ((mb : Int) + 1) = 2 ^ (mb + 1) by exact_mod_cast zpow_natCast (2 : ℚ) (mb + 1)]
          ring
    exact_mod_cast hq

/-- The unit of a rounded magnitude below 2^k. -/
theorem roundMag_unit_lt {mb : Nat} {emin k : Int} {n d : Nat} (hd : 0 < d) (hk : emin < k) (h : (n : ℚ) / d < 2 ^ k) :
    (roundMag mb emin n d).2.1 < k - mb := by
  unfold roundMag
  by_cases hn : n = 0
  · rw [if_pos hn]
    dsimp only
    omega
  · rw [if_neg hn]
    dsimp only
    have hr : (0 : ℚ) < n / d := div_pos (by exact_mod_cast Nat.pos_of_ne_zero hn) (by exact_mod_cast hd)
    have hlog : floorLog2 n d < k := by
      rw [floorLog2_eq_log (Nat.pos_of_ne_zero hn) hd]
      exact (Int.lt_zpow_iff_log_lt one_lt_two hr).mp h
    omega

theorem encodeF_fp32_lt_of_value {neg : Bool} {m : Nat} {e : Int} (h : (m : ℚ) * 2 ^ e < 2 ^ (128 : Int)) :
    encodeF fmtFP32 (.fin neg m e) < 2 ^ 32 := by
  have hs : b2n neg * 2 ^ 31 ≤ 2 ^ 31 := by cases neg <;> decide
  have hle := roundMag_le fmtFP32.mbits fmtFP32.emin (n := dyNum m e) (dyDen_pos e)
  have hunit := roundMag_unit_lt (mb := fmtFP32.mbits) (emin := fmtFP32.emin) (k := 128) (n := dyNum m e) (dyDen_pos e)
    (by decide) (by rw [dyNum_div_dyDen]; exact h)
  unfold encodeF
  dsimp only
  generalize roundMag fmtFP32.mbits fmtFP32.emin (dyNum m e) (dyDen e) = x at hle hunit
  obtain ⟨r, u, inx⟩ := x
  dsimp only at hle hunit ⊢
  have hmant : fmtFP32.mbits = 23 := rfl
  have hexp : fmtFP32.ebits = 8 := rfl
  have hbias : fmtFP32.bias = 127 := rfl
  rw [hmant] at hle hunit
  by_cases hm : m = 0
  · rw [if_pos hm, hmant, hexp]
    omega
  · rw [if_neg hm]
    by_cases hsub : r < 2 ^ fmtFP32.mbits
    · rw [if_pos hsub]
      rw [hmant] at hsub ⊢
      rw [hexp]
      omega
    · rw [if_neg hsub]
      by_cases hcarry : r = 2 ^ (fmtFP32.mbits + 1)
      · rw [if_pos hcarry, hmant, hexp, hbias]
        omega
      · rw [if_neg hcarry]
        rw [hmant] at hcarry ⊢
        rw [hexp, hbias]
        omega

/-- The largest FP32 number, and what rounding does not take beyond it, stay below 2^128. -/
theorem fp32_max_lt : ((fmtFP32.maxMant : Nat) : ℚ) * 2 ^ (fmtFP32.emax - (fmtFP32.mbits : Int)) < 2 ^ (128 : Int) := by
  have hmant : fmtFP32.maxMant = 2 ^ 24 - 1 := rfl
  have hexp : fmtFP32.emax - (fmtFP32.mbits : Int) = 104 := by norm_num [Fmt.emax, fmtFP32]
  rw [hmant, hexp]
  norm_num

theorem encodeF_convertF_fp32_lt (sat ftz : Bool) (v : FVal) : encodeF fmtFP32 (convertF fmtFP32 sat ftz v).1 < 2 ^ 32 := by
  have hmax (neg : Bool) : encodeF fmtFP32 (fmtFP32.maxVal neg) < 2 ^ 32 :=
    encodeF_fp32_lt_of_value (m := fmtFP32.maxMant) (e := fmtFP32.emax - (fmtFP32.mbits : Int)) fp32_max_lt
  have hinf (neg : Bool) : encodeF fmtFP32 (.inf neg) < 2 ^ 32 := by
    cases neg <;> simp [encodeF, fmtFP32, b2n]
  cases v with
  | nan => exact (by decide : canonNaN fmtFP32 < 2 ^ 32)
  | inf neg =>
    rw [convertF]
    split
    · exact hinf neg
    · exact hmax neg
  | fin neg m e =>
    rw [convertF, convertMag]
    dsimp only
    split
    · split
      · exact hinf neg
      · exact hmax neg
    · next hfit =>
      refine iteInduction (motive := fun w : FVal × FFlags => encodeF fmtFP32 w.1 < 2 ^ 32) (fun _ => ?_) fun _ => ?_
      · exact encodeF_fp32_lt_of_value (by simp)
      · exact encodeF_fp32_lt_of_value ((not_lt.mp (mt (dyLt_iff _ _ _ _).mpr hfit)).trans_lt fp32_max_lt)

end Sys2Proof.Machine
end

section
/-!
PROOFS. What a command stores (R208, R216): an FP32 row of four bytes a column, and the one product of two BF16 elements,
rounded once.
-/
namespace Sys2Proof.Machine
open Sys2Proof

/-! ### The reduction of one product -/

/-- +0, which stands for the elements beyond K (R203). -/
def plusZero : FVal := .fin false 0 0

theorem addF_plusZero_comm (v : FVal) : addF plusZero v = addF v plusZero := by
  cases v with
  | nan => rfl
  | inf p => rfl
  | fin p m e => exact (addF_comm_zero p m e).symm

/-- A sum to which +0 has been added takes no further notice of +0. -/
theorem addF_plusZero_settled (v : FVal) : addF (addF v plusZero).1 plusZero = addF v plusZero := by
  cases v with
  | nan => rfl
  | inf p => rfl
  | fin p m e =>
    rw [← addF_plusZero_comm (.fin p m e), plusZero, addF_zero_left, addF_comm_zero, addF_zero_left]
    simp

/-- Pairs of +0 change nothing of a block but its sum, to which they add +0. -/
theorem blockFold_zeros (b n : Nat) (a : BAcc) (j : Nat) :
    ∃ t, blockFold b a j (List.replicate n (plusZero, plusZero)) = { a with sum := t } ∧
      ∀ v, 0 < n → a.sum = some v → t = some (addF v plusZero).1 := by
  induction n generalizing a j with
  | zero => exact ⟨a.sum, rfl, fun _ h => absurd h (lt_irrefl 0)⟩
  | succ n ih =>
    obtain ⟨t, ht, hsum⟩ := ih (blockStep b a j plusZero plusZero) (j + 1)
    refine ⟨t, ht, fun v _ ha => ?_⟩
    have hstep : (blockStep b a j plusZero plusZero).sum = some (addF v plusZero).1 := by
      simp only [blockStep, plusZero, ha]
      rfl
    rcases Nat.eq_zero_or_pos n with rfl | hn
    · have hend : blockStep b a j plusZero plusZero = { blockStep b a j plusZero plusZero with sum := t } := ht
      exact (congrArg BAcc.sum hend).symm.trans hstep
    · rw [hsum _ hn hstep, addF_plusZero_settled]

/-- A block of one pair of elements. -/
def onePair (x y : FVal) : Block := ⟨(x, y) :: List.replicate 31 (plusZero, plusZero), 127, 127⟩

/-- The sum of a block of one pair is the product, when it is added to +0. -/
theorem blockSum_onePair (kb : Nat) (x y : FVal) :
    addF plusZero (blockSum false 0 kb (onePair x y) false).1 = ((addF plusZero (mulF x y).1).1, false) := by
  obtain ⟨t, ht, hsum⟩ := blockFold_zeros 0 31 (blockStep 0 ⟨false, false, false, none, none⟩ 0 x y) (0 + 1)
  have hfold : blockFold 0 ⟨false, false, false, none, none⟩ 0 (onePair x y).pairs =
      { blockStep 0 ⟨false, false, false, none, none⟩ 0 x y with sum := t } := by
    rw [onePair, blockFold]
    exact ht
  unfold blockSum
  dsimp only
  rw [Bool.false_and, if_neg Bool.false_ne_true, hfold]
  cases x with
  | nan => cases y <;> simp [blockStep, mulF, addF, plusZero]
  | inf p =>
    cases y with
    | nan => simp [blockStep, mulF, addF, plusZero]
    | inf q => cases p <;> cases q <;> simp [blockStep, mulF, addF, plusZero, signF]
    | fin q m e =>
      by_cases hm : m = 0
      · simp [blockStep, mulF, hm, addF, plusZero]
      · cases p <;> cases q <;> simp [blockStep, mulF, hm, addF, plusZero, signF]
  | fin p m e =>
    cases y with
    | nan => simp [blockStep, mulF, addF, plusZero]
    | inf q =>
      by_cases hm : m = 0
      · simp [blockStep, mulF, hm, addF, plusZero]
      · cases p <;> cases q <;> simp [blockStep, mulF, hm, addF, plusZero, signF]
    | fin q m' e' =>
      rw [hsum (.fin (xor p q) (m * m') (e + e')) (by decide) rfl]
      refine (addF_plusZero_comm _).trans ((addF_plusZero_settled _).trans ?_)
      rw [← addF_plusZero_comm, mulF, plusZero, addF_zero_left]

/-! ### The operands of one product -/

section
variable {mem : Mem} {k0 : Nat} {d : W512}

theorem leNat_lt (l : List Byte) : leNat l < 256 ^ l.length := by
  induction l with
  | nil => exact Nat.one_pos
  | cons b l ih =>
    have hb := b.isLt
    rw [leNat, List.length_cons, Nat.pow_succ]
    omega

theorem elemVal_bf16 (key : Nat) : elemVal 6 (elemAt mem 6 key 0) = decodeF fmtBF16 (leNat (memBytes mem key 2)) := by
  have hlt := leNat_lt (memBytes mem key 2)
  rw [memBytes_length] at hlt
  exact congrArg (decodeF fmtBF16) (Nat.mod_eq_of_lt hlt)

/-- The values of the first elements of A and of B, of BF16. -/
def firstA (mem : Mem) (k0 : Nat) (d : W512) : FVal := decodeF fmtBF16 (leNat (memBytes mem (k0 + dw d 2 0 20) 2))
def firstB (mem : Mem) (k0 : Nat) (d : W512) : FVal := decodeF fmtBF16 (leNat (memBytes mem (k0 + dw d 3 0 20) 2))

theorem operandBlock_one (hk : dK d = 1) (hf : dFmtA d = 6) :
    operandBlock mem k0 d 0 0 0 = onePair (firstA mem k0 d) (firstB mem k0 d) := by
  unfold operandBlock onePair firstA firstB
  dsimp only
  rw [hk, hf, List.range_succ_eq_map, List.map_cons, List.map_map, Nat.zero_mul, Nat.zero_mul, Nat.add_zero, Nat.add_zero,
    if_pos (by decide), elemVal_bf16, elemVal_bf16]
  rfl

/-- One product, up to the output conversion: what the wide format makes of it. -/
theorem outputOf_one (hk : dK d = 1) (hf : dFmtA d = 6) (hc : dFmtC d = 7) (hinit : dCinit d = false) (hdrain : dDsm d = 0) :
    (outputOf mem k0 d 0 0).acc = (round40 (addF plusZero (mulF (firstA mem k0 d) (firstB mem k0 d)).1).1).1 := by
  have hblocks : (List.range (blocks (dK d))).map (operandBlock mem k0 d 0 0) = [onePair (firstA mem k0 d) (firstB mem k0 d)] := by
    rw [hk, ← operandBlock_one hk hf]
    rfl
  have hsum := blockSum_onePair (min (32 * 0 + 31) (kFed d - 1)) (firstA mem k0 d) (firstB mem k0 d)
  unfold outputOf
  dsimp only
  rw [hblocks, hinit, hdrain, hf, hc]
  simp only [Bool.false_eq_true, if_false, show isMx 6 = false from rfl, show isMx 7 = false from rfl, drainScale, coarseStage,
    reduceBlocks, addWide]
  rw [show isNaN (.fin false 0 0) = false from rfl, show FVal.fin false 0 0 = plusZero from rfl, hsum]

end

/-! ### An FP32 row -/

section
variable {mem : Mem} {k0 : Nat} {d : W512} {m : Nat}

/-- The bytes of a row are those of its converted outputs. -/
theorem rowResult_fp32 (hc : dFmtC d = 7) : (rowResult mem k0 d m).1 =
      ((List.range (dN d)).flatMap fun n => leBytes 4 (encodeF fmtFP32 (convertF fmtFP32 (dSat d) (dFtz d)
        (outputOf mem k0 d m n).acc).1)) ∧ (rowResult mem k0 d m).2.1 = [] := by
  have hrow (vs : List FVal) : convertRow d vs = (vs.flatMap fun v => leBytes 4 (encodeF fmtFP32
      (convertF fmtFP32 (dSat d) (dFtz d) v).1), [], orAll (vs.map fun v => (convertF fmtFP32 (dSat d) (dFtz d) v).2)) := by
    unfold convertRow
    dsimp only
    rw [hc, if_neg (by decide), List.flatMap_map, List.map_map]
    rfl
  unfold rowResult
  dsimp only
  rw [hrow, List.map_map, List.flatMap_map]
  split <;> exact ⟨rfl, rfl⟩

theorem rowResult_fp32_length (hc : dFmtC d = 7) : (rowResult mem k0 d m).1.length = 4 * dN d := by
  rw [(rowResult_fp32 hc).1, List.length_flatMap]
  simp [leBytes_length, Nat.mul_comm]

/-- One BF16 product: the product, rounded once (R208, R168). -/
theorem rowResult_one (hn : dN d = 1) (hk : dK d = 1) (hf : dFmtA d = 6) (hc : dFmtC d = 7) (hinit : dCinit d = false)
    (hdrain : dDsm d = 0) : leNat (rowResult mem k0 d 0).1 = encodeF fmtFP32 (convertF fmtFP32 (dSat d) (dFtz d)
      (addF plusZero (mulF (firstA mem k0 d) (firstB mem k0 d)).1).1).1 := by
  rw [(rowResult_fp32 hc).1, hn, List.range_one, List.flatMap_singleton, outputOf_one hk hf hc hinit hdrain, leNat_leBytes,
    Nat.mod_eq_of_lt (encodeF_convertF_fp32_lt _ _ _)]
  exact congrArg (fun v => encodeF fmtFP32 v.1) (convertF_round40_product fmtFP32 _ _ _ _)

end

end Sys2Proof.Machine
end

section
/-!
PROOFS. What the outputs, flags and object add of a matrix command leave alone (R191, R217–R219, R355): the queues and counters
of the engines, the registers of the contexts, and the bytes of memory but for the outputs.
-/
namespace Sys2Proof.Machine
open Sys2Proof

section
variable {s t v : State} {u e : Nat}

/-! ### What stays -/

/-- The counters that a command's completion raises. -/
def engCounters (u e : Nat) : List Nat := [ENG_DONE u e, ENG_ACTIVE u e, ENG_STALL u e]

/-- The engines' queues, the registers of all contexts and the counters of engine `e` of `u` are as they were. -/
structure EngineKept (u e : Nat) (s t : State) : Prop where
  queues   : t.core.engines = s.core.engines
  regs     : ∀ w x, regsOf (ctx t w x) = regsOf (ctx s w x)
  counters : ∀ o ∈ engCounters u e, rget t o = rget s o

theorem EngineKept.refl (s : State) : EngineKept u e s s := ⟨rfl, fun _ _ => rfl, fun _ _ => rfl⟩

theorem EngineKept.trans (h : EngineKept u e s t) (h' : EngineKept u e t v) : EngineKept u e s v :=
  ⟨h'.queues.trans h.queues, fun w x => (h'.regs w x).trans (h.regs w x), fun o ho => (h'.counters o ho).trans (h.counters o ho)⟩

/-- A change beside the cores, and of register words that are no counters. -/
theorem EngineKept.of_words {l : List Nat} (hcore : t.core = s.core) (hw : WordsKept s t l) (hl : ∀ o ∈ engCounters u e, o ∉ l) :
    EngineKept u e s t :=
  ⟨by rw [hcore], fun w x => by unfold ctx; rw [hcore], fun o ho => hw o (hl o ho)⟩

theorem engineKept_foldl {γ : Type} {f : State → γ → State} (h : ∀ t x, EngineKept u e t (f t x)) (l : List γ) (s : State) :
    EngineKept u e s (l.foldl f s) := by
  induction l generalizing s with
  | nil => exact .refl s
  | cons x l ih => exact (h s x).trans (ih (f s x))

/-! ### Errors and stores in local memory (R253–R257) -/

theorem wordsKept_mem (m : MemSt) (s : State) (l : List Nat) : WordsKept s { s with mem := m } l := fun _ _ => rfl

theorem wordsKept_logErr (code src : Nat) (p : Option Nat) (i : Nat) (s : State) (l : List Nat) :
    WordsKept s (logErr code src p i s) l := wordsKept_of_csr (logErr_csr s code src p i) l

theorem wordsKept_touchWord (n w : Nat) (s : State) : WordsKept s (touchWord n s w) [MEM_ECC n, MEM_ECC_LOC n] := by
  have ecc (t : State) (f : Fld) (hf : f.word = 0) (x : Nat) : WordsKept t (satFld t (MEM_ECC n) f x) [MEM_ECC n, MEM_ECC_LOC n] := by
    unfold satFld
    exact (wordsKept_setFld t _ _ _).mono (by simp [hf])
  have loc (t : State) (f : Fld) (hf : f.word = 0) (x : Nat) : WordsKept t (setFld t (MEM_ECC_LOC n) f x) [MEM_ECC n, MEM_ECC_LOC n] :=
    (wordsKept_setFld t _ _ _).mono (by simp [hf])
  unfold touchWord
  split
  · exact fun _ _ => rfl
  · exact (ecc s MEM_ECC_CORR rfl 1).trans (wordsKept_mem _ _ _)
  · split
    · exact fun _ _ => rfl
    · extract_lets a s₁ s₂ s₃
      have h₁ : WordsKept s s₁ [MEM_ECC n, MEM_ECC_LOC n] := wordsKept_mem _ _ _
      have h₂ : WordsKept s₁ s₂ [MEM_ECC n, MEM_ECC_LOC n] := ecc s₁ MEM_ECC_POISONED rfl 1
      have h₃ : WordsKept s₂ s₃ [MEM_ECC n, MEM_ECC_LOC n] := by
        unfold s₃
        split
        · exact fun _ _ => rfl
        · exact (loc s₂ MEM_ECC_LOC_LOCAL rfl a).trans (loc _ MEM_ECC_LOC_VALID rfl 1)
      clear_value s₃ s₂ s₁
      exact ((h₁.trans h₂).trans h₃).trans (wordsKept_logErr _ _ _ _ _ _)

theorem wordsKept_locStore (n k : Nat) (d : List Byte) (s : State) : WordsKept s (locStore n k d s) [MEM_ECC n, MEM_ECC_LOC n] := by
  unfold locStore
  refine (wordsKept_foldl _ (fun t w _ => wordsKept_touchWord n w t) s).trans (.trans (wordsKept_of_csr rfl _)
    (wordsKept_foldl _ (fun t w _ => ?_) _))
  split
  · exact wordsKept_of_csr rfl _
  · split <;> exact wordsKept_of_csr rfl _

theorem engineKept_locStore (n k : Nat) (d : List Byte) (s : State) : EngineKept u e s (locStore n k d s) := by
  obtain ⟨hcore, -⟩ := parts_of_localKept (localKept_locStore n k d s)
  refine .of_words hcore (wordsKept_locStore n k d s) fun o ho => ?_
  simp only [engCounters, ENG_DONE, ENG_ACTIVE, ENG_STALL, MEM_ECC, MEM_ECC_LOC, List.mem_cons, List.not_mem_nil,
    or_false] at ho ⊢
  omega

theorem engineKept_writeRow (n k m : Nat) (d : W512) (r : List Byte × List Byte) (s : State) :
    EngineKept u e s (writeRow n k d m r s) := by
  have hrow := engineKept_locStore (u := u) (e := e) n (k + dw d 4 0 20 + m * dw d 4 20 20) r.1 s
  unfold writeRow
  dsimp only
  split
  · exact hrow
  · exact hrow.trans (engineKept_locStore _ _ _ _)

/-! ### Flags and the record of an invalid operation (R217–R219) -/

theorem engineKept_setPend (n c b : Nat) (s : State) : EngineKept u e s (setPend s n c b) := by
  refine ⟨rfl, fun w x => ?_, fun o _ => rget_of_csr (setPend_csr s n c b) o⟩
  by_cases h : ctxKey w x = ctxKey n c
  · have hsame (t : State) : ctx t w x = ctx t n c := by unfold ctx; rw [h]
    rw [hsame, hsame, setPend, ctx_updCtx_same, regsOf_eventWake]
    rfl
  · rw [setPend, ctx_updCtx_other _ _ _ _ _ _ h]

theorem mem_flagCtrs (base flags : Nat) (s : State) : (flagCtrs base flags s).mem = s.mem :=
  (fields_of_besideCore (besideCore_flagCtrs base flags s)).1

theorem engineKept_raiseEng (c flags : Nat) (s : State) :
    EngineKept u e s (raiseEng u e c flags s) ∧ (raiseEng u e c flags s).mem = s.mem := by
  unfold raiseEng
  split
  · exact ⟨.refl s, rfl⟩
  · extract_lets s₁ s₂
    have h₁ : EngineKept u e s s₁ := by
      refine (EngineKept.of_words (orFld_core s _ _ _) (wordsKept_setFld s _ _ _) fun o ho => ?_).trans
        (.of_words (core_flagCtrs _ _ _) (wordsKept_of_csr (csr_flagCtrs _ _ _) []) fun _ _ => List.not_mem_nil)
      simp only [engCounters, ENG_DONE, ENG_ACTIVE, ENG_STALL, ENG_FLAGS, List.mem_cons, List.not_mem_nil, or_false] at ho ⊢
      omega
    have h₂ : EngineKept u e s₁ s₂ := by
      refine .of_words (orFld_core s₁ _ _ _) (wordsKept_setFld s₁ _ _ _) fun o ho => ?_
      simp only [engCounters, ENG_DONE, ENG_ACTIVE, ENG_STALL, CORE_FAULT_SUM, CORE_FAULT_SUM_NUM_FLAGS, List.mem_cons,
        List.not_mem_nil, or_false] at ho ⊢
      omega
    have hmem : s₂.mem = s.mem := (orFld_mem s₁ _ _ _).trans ((mem_flagCtrs _ _ _).trans (orFld_mem s _ _ _))
    clear_value s₂ s₁
    split
    · exact ⟨(h₁.trans h₂).trans (engineKept_setPend u c 1 s₂), (setPend_mem s₂ u c 1).trans hmem⟩
    · exact ⟨h₁.trans h₂, hmem⟩

theorem engineKept_captureInv (cmd : ECmd) (m n beat : Nat) (i : InvOp) (s : State) :
    EngineKept u e s (captureInv u e cmd m n beat i s) ∧ (captureInv u e cmd m n beat i s).mem = s.mem := by
  unfold captureInv
  dsimp only
  split
  · exact ⟨.refl s, rfl⟩
  · have record (o : Nat) (w : W64) (t : State) (ho : o = ENG_INV_POS u e ∨ o = ENG_INV_POS u e + 8) :
        EngineKept u e t (rset t o w) := by
      refine .of_words (rset_core t o w) (wordsKept_rset t o w) fun q hq => ?_
      simp only [engCounters, ENG_DONE, ENG_ACTIVE, ENG_STALL, ENG_INV_POS, List.mem_cons, List.not_mem_nil, or_false] at hq ho ⊢
      omega
    exact ⟨(record _ _ s (.inl rfl)).trans (record _ _ _ (.inr rfl)), (rset_mem _ _ _).trans (rset_mem s _ _)⟩

/-! ### The outputs -/

/-- The rows that a command writes, with their bytes, scales, flags and invalid operations. -/
def outputRows (u : Nat) (d : W512) (s : State) : List (Nat × List Byte × List Byte × Nat × Option (Nat × InvOp)) :=
  (List.range (if dN d = 0 then 0 else dM d)).map fun m => (m, rowResult s.mem.loc (locKey (physUnit s u) 0) d m)

/-- The outputs stand in memory. -/
def withOutputs (u : Nat) (d : W512) (s : State) : State :=
  (outputRows u d s).foldl (fun t r => writeRow u (locKey (physUnit s u) 0) d r.1 (r.2.1, r.2.2.1) t) s

theorem engineKept_withOutputs (d : W512) (s : State) : EngineKept u e s (withOutputs u d s) :=
  engineKept_foldl (fun _ _ => engineKept_writeRow _ _ _ _ _ _) _ s

/-- Beside its outputs a command leaves the engines, the registers of contexts and the memories alone. -/
theorem engineKept_runCommand (cmd : ECmd) (early : Nat) (s : State) : EngineKept u e s (runCommand u e cmd early s) ∧
    (runCommand u e cmd early s).mem = (withOutputs u cmd.desc s).mem := by
  have hout : EngineKept u e s (withOutputs u cmd.desc s) := engineKept_withOutputs cmd.desc s
  unfold runCommand
  extract_lets d k0 rows s₁ s₂
  obtain ⟨hflags, hmem⟩ := engineKept_raiseEng (u := u) (e := e) cmd.c ((rows.map fun r => r.2.2.2.1).foldl (· ||| ·) 0)
    (withOutputs u cmd.desc s)
  have h₂ : EngineKept u e s s₂ := hout.trans hflags
  have hm₂ : s₂.mem = (withOutputs u cmd.desc s).mem := hmem
  clear_value s₂
  split
  · exact ⟨h₂, hm₂⟩
  · next m n i _ =>
    obtain ⟨hrec, hm⟩ := engineKept_captureInv (u := u) (e := e) cmd m n (invBeat d cmd m n i early) i s₂
    exact ⟨h₂.trans hrec, hm.trans hm₂⟩

/-! ### The object add (R191, R355–R358) -/

/-- The cores and the memories: what a synchronisation object leaves alone. -/
def coreAndMem (s : State) : CoreSt × MemSt := (s.core, s.mem)

theorem coreAndMem_setFld (s : State) (r : Nat) (f : Fld) (x : Nat) : coreAndMem (setFld s r f x) = coreAndMem s := by
  simp only [coreAndMem, setFld_core, setFld_mem]

theorem coreAndMem_wakeWhere (i : Nat) (f : Waiter → Bool) (st : W64) (s : State) :
    coreAndMem (wakeWhere i f st s) = coreAndMem s := by
  have one (w : Waiter) (t : State) : coreAndMem (wakeOne st t w) = coreAndMem t := by
    unfold wakeOne
    split <;> rfl
  unfold wakeWhere syncCount
  rw [coreAndMem_setFld]
  exact foldl_keeps coreAndMem _ (fun t w => one w t) _ _

/-- An object's value rises: the object's words and the wakes. -/
structure ObjectChanged (i : Nat) (s t : State) : Prop where
  kept  : coreAndMem t = coreAndMem s
  words : WordsKept s t [SYNC_VALUE i, SYNC_CTRL i]

theorem objectChanged_wakeMet (i : Nat) (w : W64) (s : State) : ObjectChanged i s (wakeMet i (rset s (SYNC_VALUE i) w)) := by
  refine ⟨(coreAndMem_wakeWhere _ _ _ _).trans ?_, ((wordsKept_rset s _ w).mono (by simp)).trans
    ((wordsKept_wakeWhere _ _ _ _).mono (by simp))⟩
  simp only [coreAndMem, rset_core, rset_mem]

theorem objectChanged_syncAdd (i n : Nat) (a : Asker) (s : State) : ObjectChanged i s (syncAdd i n a s).2 := by
  have same : ObjectChanged i s s := ⟨rfl, fun _ _ => rfl⟩
  unfold syncAdd
  split
  · exact same
  · split
    · exact same
    · dsimp only
      split
      · exact objectChanged_wakeMet _ _ _
      · exact objectChanged_wakeMet _ _ _

theorem objectChanged_unitAdd (u i : Nat) (s : State) : ObjectChanged i s (unitAdd u i s) := by
  have h := objectChanged_syncAdd i 1 (askerOf s u) s
  unfold unitAdd
  generalize syncAdd i 1 (askerOf s u) s = r at h
  obtain ⟨st, t⟩ := r
  split
  · next heq =>
    cases heq
    exact ⟨h.kept, fun o ho => (rget_of_csr (logErr_csr _ _ _ _ _) o).trans (h.words o ho)⟩
  · next heq =>
    cases heq
    exact h

end

end Sys2Proof.Machine
end

section
/-!
PROOFS. ENGINE_COMMAND_COMPLETE and ENGINE_POISON (R191, R195, R250): the counters, the queue and the memory after a command,
and the fault of a context whose operand is poisoned.
-/
namespace Sys2Proof.Machine
open Sys2Proof

/-! ### Operands without an error -/

section
variable {s : State} {u e : Nat} {c : ECmd} {rest : List ECmd} {d : W512}

theorem itemsOf_len {base stride cnt len : Nat} {kind : ItemKind} {x : Item} (h : x ∈ itemsOf base stride cnt len kind) :
    0 < x.len := by
  unfold itemsOf at h
  split at h
  · cases h
  · next hlen =>
    obtain ⟨i, -, rfl⟩ := List.mem_map.mp h
    exact Nat.pos_of_ne_zero hlen

/-- Every item that a command reads has bytes. -/
theorem readItems_len {x : Item} (h : x ∈ readItems d) : 0 < x.len := by
  have drain (k : Nat) : x ∈ (match k with
      | 1 => itemsOf (dw d 6 40 20) 4 (dM d) 4 .drain
      | 2 => itemsOf (dw d 6 40 20) 4 (dN d) 4 .drain
      | _ => []) → 0 < x.len := by
    split
    · exact itemsOf_len
    · exact itemsOf_len
    · exact fun h => nomatch h
  have cond {b : Bool} {l : List Item} (hl : x ∈ l → 0 < x.len) : x ∈ (if b then l else []) → 0 < x.len := by
    split
    · exact hl
    · exact fun h => nomatch h
  unfold readItems at h
  dsimp only at h
  split at h
  · cases h
  · simp only [List.mem_append] at h
    rcases h with ((((h | h) | h) | h) | h) | h
    · exact itemsOf_len h
    · exact itemsOf_len h
    · exact cond itemsOf_len h
    · exact cond itemsOf_len h
    · exact cond itemsOf_len h
    · exact drain _ h

/-- A word in which an item has bytes is one of its words. -/
theorem mem_wordsOf_of_inItem {k0 w : Nat} {x : Item} (h : inItem k0 w x = true) (hlen : 0 < x.len) :
    w ∈ wordsOf (k0 + x.base) x.len := by
  simp only [inItem, overlaps, Bool.and_eq_true, decide_eq_true_eq] at h
  rw [mem_wordsOf]
  omega

/-- The reads of a command whose operands have no error find none. -/
theorem touchOperands_of_clean (h : ∀ x ∈ readItems d, ∀ w ∈ wordsOf (locKey (physUnit s u) 0 + x.base) x.len, latentAt s w = 0) :
    touchOperands u d s = s := by
  refine touchWords_of_clean fun w hw => ?_
  obtain ⟨x, hx, hin⟩ := List.any_eq_true.mp (List.mem_filter.mp hw).2
  exact h x hx w (mem_wordsOf_of_inItem hin (readItems_len hx))

/-! ### The counters -/

/-- The counts of a command that completes. -/
def tallied (u e active stalls : Nat) (s : State) : State :=
  bumpFld (bumpFld (bumpFld s (ENG_DONE u e) ENG_DONE_DONE 1) (ENG_ACTIVE u e) ENG_ACTIVE_ACTIVE active)
    (ENG_STALL u e) ENG_STALL_STALL stalls

theorem tallied_core (active stalls : Nat) (s : State) : (tallied u e active stalls s).core = s.core := by simp [tallied]
theorem tallied_mem (active stalls : Nat) (s : State) : (tallied u e active stalls s).mem = s.mem := by simp [tallied]

theorem fld_tallied (active stalls : Nat) (s : State) :
    fld (tallied u e active stalls s) (ENG_DONE u e) ENG_DONE_DONE = (fld s (ENG_DONE u e) ENG_DONE_DONE + 1) % 2 ^ 64 ∧
    fld (tallied u e active stalls s) (ENG_ACTIVE u e) ENG_ACTIVE_ACTIVE =
      (fld s (ENG_ACTIVE u e) ENG_ACTIVE_ACTIVE + active) % 2 ^ 64 ∧
    fld (tallied u e active stalls s) (ENG_STALL u e) ENG_STALL_STALL =
      (fld s (ENG_STALL u e) ENG_STALL_STALL + stalls) % 2 ^ 64 := by
  have far (t : State) (r q : Nat) (f g : Fld) (n : Nat) (h : q + 8 * g.word ≠ r + 8 * f.word) :
      fld (bumpFld t r f n) q g = fld t q g := fld_setFld_far t r q f g _ h
  have hda : ENG_DONE u e ≠ ENG_ACTIVE u e := by unfold ENG_DONE ENG_ACTIVE; omega
  have hds : ENG_DONE u e ≠ ENG_STALL u e := by unfold ENG_DONE ENG_STALL; omega
  have has : ENG_ACTIVE u e ≠ ENG_STALL u e := by unfold ENG_ACTIVE ENG_STALL; omega
  unfold tallied
  refine ⟨?_, ?_, ?_⟩
  · exact (far _ _ _ _ _ _ hds).trans ((far _ _ _ _ _ _ hda).trans (fld_bumpFld _ _ _ _ (by decide)))
  · exact (far _ _ _ _ _ _ has).trans ((fld_bumpFld _ _ _ _ (by decide)).trans
      (congrArg (fun n => (n + active) % 2 ^ 64) (far _ _ _ _ _ _ hda.symm)))
  · exact (fld_bumpFld _ _ _ _ (by decide)).trans (congrArg (fun n => (n + stalls) % 2 ^ 64)
      ((far _ _ _ _ _ _ has.symm).trans (far _ _ _ _ _ _ hds.symm)))

/-! ### The completion -/

/-- What a completed command leaves. -/
structure Completed (u e active stalls : Nat) (c : ECmd) (rest : List ECmd) (s t : State) : Prop where
  queue  : mget [] t.core.engines (u * 2 + e) = rest
  done   : fld t (ENG_DONE u e) ENG_DONE_DONE = (fld s (ENG_DONE u e) ENG_DONE_DONE + 1) % 2 ^ 64
  active : fld t (ENG_ACTIVE u e) ENG_ACTIVE_ACTIVE = (fld s (ENG_ACTIVE u e) ENG_ACTIVE_ACTIVE + active) % 2 ^ 64
  stalls : fld t (ENG_STALL u e) ENG_STALL_STALL = (fld s (ENG_STALL u e) ENG_STALL_STALL + stalls) % 2 ^ 64
  regs   : ∀ v x, regsOf (ctx t v x) = regsOf (ctx s v x)
  mem    : t.mem = (withOutputs u c.desc s).mem

/-- The object add of a completed command, after its counts. -/
theorem Completed.added {active stalls : Nat} {t : State} (h : Completed u e active stalls c rest s t) (d : W512) :
    Completed u e active stalls c rest s (if dSyncEn d then unitAdd u (dSyncObj d) t else t) := by
  split
  · have hadd := objectChanged_unitAdd u (dSyncObj d) t
    generalize unitAdd u (dSyncObj d) t = v at hadd
    have hobj : dSyncObj d < 2 ^ 16 := dw_lt d 0 32 16
    have hcore : v.core = t.core := congrArg Prod.fst hadd.kept
    have hmem : v.mem = t.mem := congrArg Prod.snd hadd.kept
    have hfar (o : Nat) (ho : 0x1000000 ≤ o) : o + 8 * 0 ∉ [SYNC_VALUE (dSyncObj d), SYNC_CTRL (dSyncObj d)] := by
      simp only [SYNC_VALUE, SYNC_CTRL, List.mem_cons, List.not_mem_nil, or_false]
      omega
    refine ⟨by rw [hcore]; exact h.queue, ?_, ?_, ?_, fun w x => ?_, hmem.trans h.mem⟩
    · exact (hadd.words.fld (f := ENG_DONE_DONE) (hfar _ (by unfold ENG_DONE; omega))).trans h.done
    · exact (hadd.words.fld (f := ENG_ACTIVE_ACTIVE) (hfar _ (by unfold ENG_ACTIVE; omega))).trans h.active
    · exact (hadd.words.fld (f := ENG_STALL_STALL) (hfar _ (by unfold ENG_STALL; omega))).trans h.stalls
    · rw [← h.regs]
      unfold ctx
      rw [hcore]
  · exact h

theorem completed_completeCmd (active stalls early : Nat) (h : touchOperands u c.desc s = s) :
    Completed u e active stalls c rest s (completeCmd u e active stalls early c rest s) := by
  obtain ⟨hrun, hmem⟩ := engineKept_runCommand (u := u) (e := e) c early s
  unfold completeCmd
  rw [h]
  generalize runCommand u e c early s = r at hrun hmem
  refine Completed.added ?_ c.desc
  have hcount := fld_tallied (u := u) (e := e) active stalls (setQueue u e rest r)
  have hcore := tallied_core (u := u) (e := e) active stalls (setQueue u e rest r)
  have hkeep := tallied_mem (u := u) (e := e) active stalls (setQueue u e rest r)
  change Completed u e active stalls c rest s (bumpCtr (256 + blockOf (physOf (tallied u e active stalls (setQueue u e rest r)) u)) active
    (plotCtr u 6 1 (tallied u e active stalls (setQueue u e rest r))))
  generalize tallied u e active stalls (setQueue u e rest r) = t at hcount hcore hkeep
  obtain ⟨hdone, hactive, hstalls⟩ := hcount
  have hcsr (n : Nat) : (bumpCtr n active (plotCtr u 6 1 t)).csr = t.csr := (bumpCtr_csr _ _ _).trans (plotCtr_csr _ _ _ _)
  have hcore' (n : Nat) : (bumpCtr n active (plotCtr u 6 1 t)).core = (setQueue u e rest r).core :=
    (bumpCtr_core _ _ _).trans ((plotCtr_core _ _ _ _).trans hcore)
  have before (q : Nat) (f : Fld) (hf : f.word = 0) (hq : q ∈ engCounters u e) : fld (setQueue u e rest r) q f = fld s q f :=
    (fld_of_csr (csr_setQueue u e rest r) q f).trans (fld_of_rget (by rw [hf]; exact hrun.counters q hq))
  refine ⟨?_, ?_, ?_, ?_, fun w x => ?_, ?_⟩
  · rw [hcore', mget_setQueue, if_pos rfl]
  · rw [fld_of_csr (hcsr _), hdone, before _ _ rfl (by simp [engCounters])]
  · rw [fld_of_csr (hcsr _), hactive, before _ _ rfl (by simp [engCounters])]
  · rw [fld_of_csr (hcsr _), hstalls, before _ _ rfl (by simp [engCounters])]
  · rw [← hrun.regs]
    unfold ctx
    rw [hcore']
    rfl
  · rw [bumpCtr_mem, plotCtr_mem, hkeep, mem_setQueue, hmem]

theorem engineCommandComplete_row {active stalls early : Nat} (hu : u < 25600) (he : e < 2) (hearly : early ≤ stalls)
    (hq : mget [] s.core.engines (u * 2 + e) = c :: rest) (hclean : touchOperands u c.desc s = s) (hc : c.started = true)
    (hheld : engineHeld s u e c = false) (hp : operandPoison s u c = none) :
    Runs (.engineCommandComplete u e active stalls early) s (Completed u e active stalls c rest s) := by
  refine ⟨_, (runIf_of (by simp [wfEngineCommandComplete, hu, he, hearly, nCores]) _).trans
    (congrArg Host.Outcome.next ?_), completed_completeCmd active stalls early hclean⟩
  rw [show engQueue s u e = c :: rest from hq]
  dsimp only
  rw [hclean, hc, hheld, hp]
  rfl

/-! ### The row of a one-row FP32 output -/

theorem memBytes_getElem (m : Mem) (a n : Nat) {i : Nat} (h : i < (memBytes m a n).length) :
    (memBytes m a n)[i] = memByte m (a + i) := by
  induction n generalizing a i with
  | zero => cases h
  | succ n ih =>
    cases i with
    | zero => rfl
    | succ i =>
      simp only [memBytes, List.getElem_cons_succ]
      rw [ih, Nat.add_assoc, Nat.add_comm 1]

/-- Bytes stored are read again. -/
theorem memBytes_memStore (m : Mem) (k : Nat) (l : List Byte) : memBytes (memStore m k l) k l.length = l := by
  refine List.ext_getElem (memBytes_length _ _ _) fun i _ hi => ?_
  rw [memBytes_getElem, memByte_memStore, dif_pos ⟨Nat.le_add_right k i, by omega⟩]
  congr 1
  omega

/-- A one-row FP32 output to words without an error: its bytes stand in memory. -/
theorem loc_withOutputs_row (hm : dM d = 1) (hc : dFmtC d = 7)
    (hclean : ∀ w ∈ wordsOf (locKey (physUnit s u) 0 + dw d 4 0 20) (4 * dN d), latentAt s w = 0 ∧ locPoisoned s w = false) :
    (withOutputs u d s).mem.loc = memStore s.mem.loc (locKey (physUnit s u) 0 + dw d 4 0 20)
      (rowResult s.mem.loc (locKey (physUnit s u) 0) d 0).1 := by
  have hlen := rowResult_fp32_length (mem := s.mem.loc) (k0 := locKey (physUnit s u) 0) (m := 0) hc
  have hscales := (rowResult_fp32 (mem := s.mem.loc) (k0 := locKey (physUnit s u) 0) (m := 0) hc).2
  by_cases hn : dN d = 0
  · have hnil : (rowResult s.mem.loc (locKey (physUnit s u) 0) d 0).1 = [] :=
      List.eq_nil_of_length_eq_zero (by rw [hlen, hn])
    rw [hnil]
    unfold withOutputs outputRows
    rw [if_pos hn]
    rfl
  · have hrows : outputRows u d s = [(0, rowResult s.mem.loc (locKey (physUnit s u) 0) d 0)] := by
      unfold outputRows
      rw [if_neg hn, hm]
      rfl
    have hstore := locStore_of_clean (s := s) (n := u) (k := locKey (physUnit s u) 0 + dw d 4 0 20)
      (d := (rowResult s.mem.loc (locKey (physUnit s u) 0) d 0).1) (by rw [hlen]; exact hclean)
    obtain ⟨-, hloc, -⟩ := parts_of_bitsKept hstore.1
    unfold withOutputs
    rw [hrows, List.foldl_cons, List.foldl_nil]
    unfold writeRow
    dsimp only
    rw [hscales, List.isEmpty_nil, if_pos rfl, Nat.zero_mul, Nat.add_zero, hloc]
    rfl

/-! ### Poisoned operands (R195) -/

/-- A context that a fault takes: it runs or waits, or it is halted and the fault is deferred (R117, R118). -/
def takesFault (x : Ctx) (deferred : Bool) : Prop :=
  x.st = .ready ∨ x.st = .waiting ∨ (deferred = true ∧ x.st = .halted ∧ x.cause ≤ 3)

/-- The record of a fault that a context takes. -/
def faultRecord (x : Ctx) (code slot : Nat) (deferred : Bool) (pc info : Nat) : Ctx :=
  { faultedCtx x code slot pc info with fDef := deferred }

/-- A fault of a context that takes it leaves its record, and the memories as they were (R118, R325). -/
theorem faultCtx_takes {s : State} {u c : Nat} {deferred : Bool} (h : takesFault (ctx s u c) deferred) (code slot pc info : Nat) :
    ctx (faultCtx u c code slot deferred pc info s) u c = faultRecord (ctx s u c) code slot deferred pc info ∧
      (faultCtx u c code slot deferred pc info s).mem = s.mem := by
  unfold faultCtx
  extract_lets x s₁ r s₂
  have htakes : ¬ (x.st ≠ .ready ∧ x.st ≠ .waiting ∧ ¬ (deferred = true ∧ x.st = .halted ∧ x.cause ≤ 3)) :=
    fun hno => h.elim hno.1 fun h => h.elim hno.2.1 hno.2.2
  have h₁ : ctx s₁ u c = faultRecord (ctx s u c) code slot deferred pc info := ctx_setCtx_same s u c _
  have hm₁ : s₁.mem = s.mem := setCtx_mem s u c _
  have h₂ : streamKept s₂ = streamKept s₁ := streamKept_faultSum s₁ r code c
  clear_value s₂ s₁
  have hc₂ : s₂.core.ctxs = s₁.core.ctxs := congrArg Prod.fst h₂
  have hm₂ : s₂.mem = s₁.mem := congrArg (fun v => v.2.1) h₂
  have hrec : mget Ctx.unloaded s₂.core.ctxs (ctxKey u c) = faultRecord (ctx s u c) code slot deferred pc info := by
    rw [hc₂]
    exact h₁
  rw [if_neg htakes]
  split
  next p hp =>
    obtain ⟨m, hkept, hstays⟩ := streamKept_plotFault p code u c s₂
    have hctxs : (plotFault p code u c s₂).core.ctxs = m := congrArg Prod.fst hkept
    have hmem : (plotFault p code u c s₂).mem = s₂.mem := congrArg (fun v => v.2.1) hkept
    refine ⟨?_, hmem.trans (hm₂.trans hm₁)⟩
    unfold ctx
    rw [hctxs, hstays _ (by rw [hrec]; rfl)]
    exact hrec
  next => exact ⟨hrec, hm₂.trans hm₁⟩

theorem enginePoison_row {w : Nat} (hu : u < 25600) (he : e < 2) (hq : mget [] s.core.engines (u * 2 + e) = c :: rest)
    (hclean : touchOperands u c.desc s = s) (hc : c.started = true) (hheld : engineHeld s u e c = false)
    (hp : operandPoison s u c = some w) (hst : takesFault (ctx s u c.c) true) : Runs (.enginePoison u e) s fun t =>
      ctx t u c.c = faultRecord (ctx s u c.c) 0x0601 2 true c.pc (devOfLocal u (8 * w % 2 ^ 20)) ∧ t.mem = s.mem := by
  refine ⟨_, (runIf_of (by simp [wfEnginePoison, hu, he, nCores]) _).trans (congrArg Host.Outcome.next ?_),
    faultCtx_takes (s := setQueue u e rest s) hst 0x0601 2 c.pc (devOfLocal u (8 * w % 2 ^ 20))⟩
  rw [show engQueue s u e = c :: rest from hq]
  dsimp only
  rw [hclean, hc, hheld, hp]
  rfl

end

/-! ### The obligation -/

/-- Settles O17: MM by the command it queues, the start by what the command uses, the completion by its counts and the bytes of
its outputs, the product by a wide format that rounds nothing off it, the poison by the record of its fault. -/
theorem matrixCommands : Obligations.MatrixCommands := by
  refine ⟨fun s u c p e dd h hok hroom => h.row_mm hok hroom, ?_⟩
  rintro s u e active stalls early k0 c rest d hu he hearly hq rfl rfl hclean
  have htouch := touchOperands_of_clean hclean
  refine ⟨fun hc => engineCommandStart_row hu he hq hc, fun hc hheld hp =>
    (engineCommandComplete_row hu he hearly hq htouch hc hheld hp).mono fun t ht => ?_, fun w hc hheld hp hst =>
    (enginePoison_row hu he hq htouch hc hheld hp (hst.imp_right (.imp_right fun h => ⟨rfl, h⟩))).mono fun t ⟨hctx, hmem⟩ => ?_⟩
  · refine ⟨ht.queue, ht.done, ht.active, ht.stalls, fun v x r => ?_, fun hm hfmt hout => ?_⟩
    · have hregs := ht.regs v x
      simp only [regsOf, Prod.mk.injEq] at hregs
      obtain ⟨hs, -, hv, -⟩ := hregs
      exact ⟨by simp only [sr, hs], by simp only [vr, hv]⟩
    · have hlen := rowResult_fp32_length (mem := s.mem.loc) (k0 := locKey (physUnit s u) 0) (m := 0) hfmt
      have hbytes : memBytes t.mem.loc (locKey (physUnit s u) 0 + dw c.desc 4 0 20) (4 * dN c.desc) =
          (rowResult s.mem.loc (locKey (physUnit s u) 0) c.desc 0).1 := by
        rw [ht.mem, loc_withOutputs_row hm hfmt hout, ← hlen, memBytes_memStore]
      refine ⟨fun a ha => ?_, hbytes, fun hn hk hfa _ hinit hdrain => ?_⟩
      · rw [ht.mem, loc_withOutputs_row hm hfmt hout, memByte_memStore, dif_neg (by rw [hlen]; omega)]
      · rw [hn] at hbytes
        rw [hbytes]
        exact rowResult_one hn hk hfa hfmt hinit hdrain
  · rw [hctx]
    exact ⟨rfl, rfl, rfl, rfl, rfl, rfl, hmem⟩

end Sys2Proof.Machine
end

section
/-!
PROOFS. The sticky flags of a vector instruction (R234, R235): what raising them makes of `VEC_FLAGS`, what it leaves alone, and
the row of an instruction whose lanes may set flags.
-/
namespace Sys2Proof.Machine
open Sys2Proof

/-! ### The flags of the enabled lanes -/

theorem vecFlagBits_lt (f : FFlags) : vecFlagBits f < 2 ^ 5 := by
  obtain ⟨inv, ovf, unf, inx⟩ := f
  cases inv <;> cases ovf <;> cases unf <;> cases inx <;> decide

theorem foldl_or_lt {n : Nat} {l : List Nat} (h : ∀ x ∈ l, x < 2 ^ n) {x : Nat} (hx : x < 2 ^ n) :
    l.foldl (· ||| ·) x < 2 ^ n := by
  induction l generalizing x with
  | nil => exact hx
  | cons y l ih =>
    exact ih (fun z hz => h z (List.mem_cons_of_mem _ hz)) (Nat.or_lt_two_pow hx (h y List.mem_cons_self))

/-- The flags that the lanes of type `t` enabled by `m` set, where lane `k` sets those of `g k`. -/
def laneFlags (t : VTy) (m : W64) (g : Nat → Nat × FFlags) : Nat :=
  ((List.range (laneCount t)).map fun k => if m.getLsbD k then vecFlagBits (g k).2 else 0).foldl (· ||| ·) 0

theorem mapLanes_flags (t : VTy) (m : W64) (old : W512) (g : Nat → Nat × FFlags) :
    (mapLanes t m old g).flags = laneFlags t m g := by
  unfold mapLanes laneFlags
  dsimp only
  rw [List.map_map]
  congr 1
  refine List.map_congr_left fun k _ => ?_
  dsimp only [Function.comp]
  by_cases hm : m.getLsbD k = true
  · rw [if_pos hm, if_pos (show lanePred m k = true from hm)]
  · rw [if_neg hm, if_neg (show ¬ lanePred m k = true from hm)]
    rfl

theorem laneFlags_lt (t : VTy) (m : W64) (g : Nat → Nat × FFlags) : laneFlags t m g < 2 ^ 5 := by
  refine foldl_or_lt (fun x hx => ?_) (by decide)
  obtain ⟨k, -, rfl⟩ := List.mem_map.mp hx
  split
  · exact vecFlagBits_lt _
  · decide

/-! ### Raising flags -/

section
variable {u c pc num flags ln : Nat} {t : State}

/-- A view of the state that the record of the first flags, the counters and the event bits leave alone sees, of the flags
raised, the sticky bits only (R234–R236). -/
theorem raiseVec_of_orFld {β : Type} (π : State → β) {y : β} (hzero : flags = 0 → π t = y)
    (hor : π (orFld t (VEC_FLAGS u) ⟨0, 0, 5⟩ flags) = y) (hfirst : ∀ t w, π (rset t (VEC_FIRST u) w) = π t)
    (hctr : ∀ t base n, π (flagCtrs base n t) = π t) (hpend : ∀ t b, π (setPend t u c b) = π t)
    (hnum : ∀ (t : State) m, π { t with core := { t.core with vecFirst := m } } = π t) :
    π (raiseVec u c pc num flags ln t) = y := by
  have hite (q : Prop) [Decidable q] {a b : State} {z : β} (ha : π a = z) (hb : π b = z) : π (if q then a else b) = z := by
    split
    · exact ha
    · exact hb
  unfold raiseVec
  dsimp only
  split
  · next h => exact hzero h
  · refine hite _ ?_ ((hnum _ _).trans ((hfirst _ _).trans ?_))
    all_goals exact (hite _ (hpend _ _) rfl).trans (hite _ hor ((hctr _ _ _).trans hor))

theorem vecs_raiseVec : (raiseVec u c pc num flags ln t).core.vecs = t.core.vecs :=
  raiseVec_of_orFld (fun t => t.core.vecs) (fun _ => rfl) rfl (fun _ _ => rfl) (fun _ _ _ => by rw [core_flagCtrs])
    (fun _ _ => rfl) fun _ _ => rfl

theorem mem_raiseVec : (raiseVec u c pc num flags ln t).mem = t.mem :=
  raiseVec_of_orFld State.mem (fun _ => rfl) rfl (fun _ _ => rfl)
    (fun t base n => (fields_of_besideCore (besideCore_flagCtrs base n t)).1) (fun _ _ => rfl) fun _ _ => rfl

theorem regsOf_setPend (v d b : Nat) : regsOf (ctx (setPend t u c b) v d) = regsOf (ctx t v d) := by
  unfold setPend updCtx
  rw [ctx_setCtx]
  split
  · next hkey =>
    rw [regsOf_eventWake]
    unfold ctx
    rw [hkey]
    rfl
  · rfl

theorem regsOf_raiseVec (v d : Nat) : regsOf (ctx (raiseVec u c pc num flags ln t) v d) = regsOf (ctx t v d) :=
  raiseVec_of_orFld (fun t => regsOf (ctx t v d)) (fun _ => rfl) rfl (fun _ _ => rfl)
    (fun _ _ _ => by unfold ctx; rw [core_flagCtrs]) (fun _ _ => regsOf_setPend _ _ _) fun _ _ => rfl

/-- The flags are sticky (R234). -/
theorem vecFlags_raiseVec (h : flags < 2 ^ 5) :
    fld (raiseVec u c pc num flags ln t) (VEC_FLAGS u) ⟨0, 0, 5⟩ = fld t (VEC_FLAGS u) ⟨0, 0, 5⟩ ||| flags :=
  raiseVec_of_orFld (fun t => fld t (VEC_FLAGS u) ⟨0, 0, 5⟩) (fun hzero => by rw [hzero, Nat.or_zero])
    ((fld_setFld _ _ _ _ (by decide)).trans (Nat.mod_eq_of_lt (Nat.or_lt_two_pow (fld_lt _ _ _) h)))
    (fun _ _ => fld_of_rget (by rw [rget_rset, if_neg (by simp only [VEC_FLAGS, VEC_FIRST]; omega)]))
    (fun _ _ _ => fld_of_csr (csr_flagCtrs _ _ _) _ _) (fun _ _ => fld_of_csr (setPend_csr _ _ _ _) _ _)
    fun _ _ => fld_of_csr rfl _ _

end

/-! ### The row of an instruction whose lanes may set flags -/

section
variable {s : State} {u c p vd va vb : Nat} {ty : VTy} {a b d : Nat → Nat} {i : Instr}

/-- What O14 says of an instruction: lane `k` takes the value of `f k`, and `VEC_FLAGS` gains the flags of the enabled lanes. -/
def SetsFlaggedLanes (s : State) (u c p vd : Nat) (ty : VTy) (i : Instr) (f : Nat → Nat × FFlags) : Prop :=
  Lone s u c .V i → Runs i s fun t => VecResult s t u c p ty vd (fun k => (f k).1 % 2 ^ laneBits ty) ∧
    fld t (VEC_FLAGS u) ⟨0, 0, 5⟩ = fld s (VEC_FLAGS u) ⟨0, 0, 5⟩ ||| laneFlags ty (pr (ctx s u c) p) f

theorem vecFlags_vecCounted (e : State) : fld (vecCounted u e) (VEC_FLAGS u) ⟨0, 0, 5⟩ = fld e (VEC_FLAGS u) ⟨0, 0, 5⟩ :=
  fld_setFld_far _ _ _ _ _ _ (by simp only [VEC_ISSUED_ISSUED, VEC_FLAGS, VEC_ISSUED]; omega)

theorem vecFlags_counted : fld (counted u s) (VEC_FLAGS u) ⟨0, 0, 5⟩ = fld s (VEC_FLAGS u) ⟨0, 0, 5⟩ :=
  fld_of_rget (rget_counted s (by simp only [VEC_FLAGS, CORE_BEATS]; omega))

/-- An instruction whose lanes come of the lanes `d`, `a` and `b` of its registers. -/
theorem setsFlaggedLanes {g : Nat → Nat → Nat → Nat × FFlags} {f : Nat → Nat × FFlags}
    (ha : ∀ k, a k = lane (laneBits ty) (vr (ctx s u c) va) k) (hb : ∀ k, b k = lane (laneBits ty) (vr (ctx s u c) vb) k)
    (hd : ∀ k, d k = lane (laneBits ty) (vr (ctx s u c) vd) k) (hn : isNop i = false)
    (hp : privNeeded (privOf s u c) i = true) (hw : waitOf s u c i = none) (hown : ownFault s u c i = none)
    (he : effV (counted u s) u c i (counted u s) = effLanes (counted u s) u c p ty vd va vb g (counted u s))
    (hg : ∀ k, g (d k) (a k) (b k) = f k) : SetsFlaggedLanes s u c p vd ty i f := by
  intro h
  rw [effLanes_counted] at he
  simp only [← ha, ← hb, ← hd, hg] at he
  obtain ⟨t, hexec, hres, -⟩ := h.row_lanes (p := p) hn hp hw hown he fun _ _ => rfl
  refine ⟨t, hexec, hres, ?_⟩
  rw [h.landVec, mapLanes_flags] at he
  have hrow := h.rowV hn hp hw hown he ((h.flagged_setV vd _).raiseVec _ _ _ _).goesOn
  obtain rfl := Host.Outcome.next.inj (hexec.symm.trans hrow)
  rw [fld_landed, vecFlags_vecCounted, vecFlags_raiseVec (laneFlags_lt _ _ _), fld_of_csr (updCtx_csr _ _ _ _), vecFlags_counted]

end

end Sys2Proof.Machine
end

section
/-!
PROOFS. O14: lanes of FP32, BF16 and CF32 (R227–R229), and the bundle of each instruction.
-/
namespace Sys2Proof.Machine
open Sys2Proof

/-! ### Floating lanes -/

theorem ltF_asymm {x y : FVal} (h : ltF x y = true) : ltF y x = false := by
  cases x with
  | nan => cases h
  | inf m => cases y with
    | nan => cases h
    | inf n =>
      obtain ⟨rfl, rfl⟩ : m = true ∧ n = false := by simpa [ltF] using h
      rfl
    | fin n k e => simpa [ltF] using h
  | fin m k e => cases y with
    | nan => cases h
    | inf n => simpa [ltF] using h
    | fin n k' e' =>
      simp only [ltF, decide_eq_true_eq, decide_eq_false_iff_not, not_lt] at h ⊢
      rw [min_comm]
      exact h.le

section
variable {t : VTy} {a b d : Nat}

theorem intTy_of_real (h : t = .f32 ∨ t = .bf16) : intTy t = false := by rcases h with rfl | rfl <;> rfl

theorem laneAdd_real (h : t = .f32 ∨ t = .bf16) : laneAdd t a b = faddE (fmtOf t) a b := by rcases h with rfl | rfl <;> rfl
theorem laneSub_real (h : t = .f32 ∨ t = .bf16) : laneSub t a b = fsubE (fmtOf t) a b := by rcases h with rfl | rfl <;> rfl
theorem laneMul_real (h : t = .f32 ∨ t = .bf16) : laneMul t a b = fmulE (fmtOf t) a b := by rcases h with rfl | rfl <;> rfl
theorem laneFma_real (h : t = .f32 ∨ t = .bf16) : laneFma t d a b = ffmaE (fmtOf t) a b d := by rcases h with rfl | rfl <;> rfl

/-- The minimum of two lanes: the other operand for one NaN, −0 below +0 (R229). -/
theorem laneMin_real (h : intTy t = false) : laneMinMax t false a b =
    if isNaN (decodeF (fmtOf t) a) && isNaN (decodeF (fmtOf t) b) then canonNaN (fmtOf t)
    else if isNaN (decodeF (fmtOf t) a) then b else if isNaN (decodeF (fmtOf t) b) then a
    else if ltF (decodeF (fmtOf t) a) (decodeF (fmtOf t) b) ||
      (!ltF (decodeF (fmtOf t) b) (decodeF (fmtOf t) a) && signF (decodeF (fmtOf t) a)) then a else b := by
  rw [laneMinMax, if_neg (by simp [h])]
  dsimp only
  generalize decodeF (fmtOf t) a = x
  generalize decodeF (fmtOf t) b = y
  cases isNaN x with
  | true => cases isNaN y <;> rfl
  | false => cases isNaN y with
    | true => rfl
    | false => cases ltF x y <;> cases ltF y x <;> cases signF x <;> rfl

/-- The maximum, likewise. -/
theorem laneMax_real (h : intTy t = false) : laneMinMax t true a b =
    if isNaN (decodeF (fmtOf t) a) && isNaN (decodeF (fmtOf t) b) then canonNaN (fmtOf t)
    else if isNaN (decodeF (fmtOf t) a) then b else if isNaN (decodeF (fmtOf t) b) then a
    else if ltF (decodeF (fmtOf t) b) (decodeF (fmtOf t) a) ||
      (!ltF (decodeF (fmtOf t) a) (decodeF (fmtOf t) b) && !signF (decodeF (fmtOf t) a)) then a else b := by
  rw [laneMinMax, if_neg (by simp [h])]
  dsimp only
  generalize decodeF (fmtOf t) a = x
  generalize decodeF (fmtOf t) b = y
  cases isNaN x with
  | true => cases isNaN y <;> rfl
  | false => cases isNaN y with
    | true => rfl
    | false => cases hlt : ltF x y with
      | true => rw [ltF_asymm hlt]; rfl
      | false => cases ltF y x <;> cases signF x <;> rfl

end

/-! ### The instructions -/

section
variable {s : State} {u c p vd va vb : Nat} {ty : VTy} {a b d : Nat → Nat} {x y z : Nat → FVal}
  (ha : ∀ k, a k = lane (laneBits ty) (vr (ctx s u c) va) k) (hb : ∀ k, b k = lane (laneBits ty) (vr (ctx s u c) vb) k)
  (hd : ∀ k, d k = lane (laneBits ty) (vr (ctx s u c) vd) k)
include ha hb hd

/-- FP32 and BF16 lanes: each exact result rounded once (R227), minimum and maximum by value (R229). -/
theorem setsFlaggedLanes_real (hty : ty = .f32 ∨ ty = .bf16) (hx : ∀ k, x k = decodeF (fmtOf ty) (a k))
    (hy : ∀ k, y k = decodeF (fmtOf ty) (b k)) (hz : ∀ k, z k = decodeF (fmtOf ty) (d k)) :
    ∀ e ∈ ([(.vadd u p ty vd va vb, fun k => roundEnc (fmtOf ty) (addF (x k) (y k)).1 (addF (x k) (y k)).2),
      (.vsub u p ty vd va vb, fun k => roundEnc (fmtOf ty) (addF (x k) (negF (y k))).1 (addF (x k) (negF (y k))).2),
      (.vmul u p ty vd va vb, fun k => roundEnc (fmtOf ty) (mulF (x k) (y k)).1 (mulF (x k) (y k)).2),
      (.vfma u p ty vd va vb, fun k => roundEnc (fmtOf ty) (addF (mulF (x k) (y k)).1 (z k)).1
        ((mulF (x k) (y k)).2 || (addF (mulF (x k) (y k)).1 (z k)).2)),
      (.vmin u p ty vd va vb, fun k => (if isNaN (x k) && isNaN (y k) then canonNaN (fmtOf ty) else if isNaN (x k) then b k
        else if isNaN (y k) then a k else if ltF (x k) (y k) || (!ltF (y k) (x k) && signF (x k)) then a k else b k, noFlags)),
      (.vmax u p ty vd va vb, fun k => (if isNaN (x k) && isNaN (y k) then canonNaN (fmtOf ty) else if isNaN (x k) then b k
        else if isNaN (y k) then a k else if ltF (y k) (x k) || (!ltF (x k) (y k) && !signF (x k)) then a k else b k,
        noFlags))] : List (Instr × (Nat → Nat × FFlags))), SetsFlaggedLanes s u c p vd ty e.1 e.2 := by
  simp only [List.forall_mem_cons, hx, hy, hz]
  refine ⟨?_, ?_, ?_, ?_, ?_, ?_, fun _ h => absurd h List.not_mem_nil⟩
  · exact setsFlaggedLanes ha hb hd (g := fun _ x y => laneAdd ty x y) rfl rfl rfl rfl rfl fun k => laneAdd_real hty
  · exact setsFlaggedLanes ha hb hd (g := fun _ x y => laneSub ty x y) rfl rfl rfl rfl rfl fun k => laneSub_real hty
  · exact setsFlaggedLanes ha hb hd (g := fun _ x y => laneMul ty x y) rfl rfl rfl rfl rfl fun k => laneMul_real hty
  · exact setsFlaggedLanes ha hb hd (g := fun z x y => laneFma ty z x y) rfl rfl rfl rfl rfl fun k => laneFma_real hty
  · exact setsFlaggedLanes ha hb hd (g := fun _ x y => pureLane (laneMinMax ty false x y)) rfl rfl rfl rfl rfl
      fun k => congrArg pureLane (laneMin_real (intTy_of_real hty))
  · exact setsFlaggedLanes ha hb hd (g := fun _ x y => pureLane (laneMinMax ty true x y)) rfl rfl rfl rfl rfl
      fun k => congrArg pureLane (laneMax_real (intTy_of_real hty))

/-- CF32 lanes: sums by parts, and products summed exactly before each part is rounded once (R228). -/
theorem setsFlaggedLanes_complex (hty : ty = .cf32) :
    ∀ e ∈ ([(.vadd u p ty vd va vb, fun k =>
        cPack (faddE fmtFP32 (cRe (a k)) (cRe (b k))) (faddE fmtFP32 (cIm (a k)) (cIm (b k)))),
      (.vsub u p ty vd va vb, fun k => cPack (fsubE fmtFP32 (cRe (a k)) (cRe (b k))) (fsubE fmtFP32 (cIm (a k)) (cIm (b k)))),
      (.vmul u p ty vd va vb, fun k => cPack (sumProd0 true (cRe (a k)) (cRe (b k)) (cIm (a k)) (cIm (b k)))
        (sumProd0 false (cRe (a k)) (cIm (b k)) (cIm (a k)) (cRe (b k)))),
      (.vcmac u p vd va vb, fun k => cPack (sumProd true (cRe (a k)) (cRe (b k)) (cIm (a k)) (cIm (b k)) (cRe (d k)))
        (sumProd false (cRe (a k)) (cIm (b k)) (cIm (a k)) (cRe (b k)) (cIm (d k))))] :
      List (Instr × (Nat → Nat × FFlags))), SetsFlaggedLanes s u c p vd ty e.1 e.2 := by
  subst hty
  simp only [List.forall_mem_cons]
  refine ⟨?_, ?_, ?_, ?_, fun _ h => absurd h List.not_mem_nil⟩
  · exact setsFlaggedLanes ha hb hd (g := fun _ x y => laneAdd .cf32 x y) rfl rfl rfl rfl rfl fun _ => rfl
  · exact setsFlaggedLanes ha hb hd (g := fun _ x y => laneSub .cf32 x y) rfl rfl rfl rfl rfl fun _ => rfl
  · exact setsFlaggedLanes ha hb hd (g := fun _ x y => laneMul .cf32 x y) rfl rfl rfl rfl rfl fun _ => rfl
  · exact setsFlaggedLanes ha hb hd (g := fun z x y => cMac z x y) rfl rfl rfl rfl rfl fun _ => rfl

end

theorem fmt_of_real {t : VTy} (h : t = .f32 ∨ t = .bf16) : (if t = .bf16 then fmtBF16 else fmtFP32) = fmtOf t := by
  rcases h with rfl | rfl <;> rfl

/-- Settles O14: each instruction by its lane function, whose flags `VEC_FLAGS` gains. -/
theorem floatVectorLanes : Obligations.FloatVectorLanes := by
  intro s u c p vd va vb ty a b d F x y z ha hb hd hF hx hy hz e he
  by_cases hreal : ty = .f32 ∨ ty = .bf16
  · obtain rfl : F = fmtOf ty := hF.trans (fmt_of_real hreal)
    rw [if_pos hreal] at he
    exact setsFlaggedLanes_real ha hb hd hreal hx hy hz e he
  · rw [if_neg hreal] at he
    by_cases hcomplex : ty = .cf32
    · rw [if_pos hcomplex] at he
      exact setsFlaggedLanes_complex ha hb hd hcomplex e he
    · rw [if_neg hcomplex] at he
      cases he

end Sys2Proof.Machine
end

section
/-!
PROOFS. Vector results in flight (R226): an instruction that sends one, and VEC_RESULT_WRITE, which lands it or leaves it behind an
older write of its register.
-/
namespace Sys2Proof.Machine
open Sys2Proof

/-! ### An instruction that sends a result -/

section
variable {s : State} {u c vd fl : Nat} {val : W512} {i : Instr}

theorem vecs_landed (k : Ctl) (e : State) : (landed u c k e).core.vecs = e.core.vecs := by
  unfold landed
  rw [plotCtr_core]
  rfl

theorem ctx_sendPend (v : VecPend) (e : State) (w d : Nat) : ctx (sendPend v e) w d = ctx e w d := rfl

theorem vecs_sendPend (v : VecPend) (e : State) : (sendPend v e).core.vecs = e.core.vecs ++ [v] := rfl

theorem OwnEffect.sendPend {e : State} {l : List Nat} (h : OwnEffect s e u c l) (v : VecPend) :
    OwnEffect s (sendPend v e) u c l := ⟨h.beside, h.others, h.words⟩

/-- The result that an instruction without flags sends, by the state before its beat. -/
def sentResult (s : State) (u c vd : Nat) (val : W512) : VecPend :=
  ⟨s.core.nextTag, u, c, (ctx s u c).pc, vecNum (counted u s) u, .v vd, val, allBits, 0, 0, false⟩

theorem sendVec_counted : sendVec (counted u s) u c vd val 0 (counted u s) =
    sendPend (sentResult s u c vd val) (counted u s) := by
  simp only [sendVec, sentResult, ctx_counted, bumpFld_core]

/-- The beat of an instruction in slot V that sends a result without flags: the result stands last in flight, and nothing else
has changed but the beat. -/
structure SendsResult (s t : State) (u c vd : Nat) (val : W512) : Prop where
  vecs  : t.core.vecs = s.core.vecs ++ [sentResult s u c vd val]
  frame : CoreFrame s t u c [VEC_ISSUED u]

theorem Lone.row_sendVec (h : Lone s u c .V i) (hn : isNop i = false) (hp : privNeeded (privOf s u c) i = true)
    (hw : waitOf s u c i = none) (hown : ownFault s u c i = none)
    (he : effV (counted u s) u c i (counted u s) = sendVec (counted u s) u c vd val 0 (counted u s)) :
    Runs i s fun t => SendsResult s t u c vd val := by
  rw [sendVec_counted] at he
  refine ⟨_, h.rowV hn hp hw hown he (by rw [ctx_sendPend]; exact h.goesOn_counted), ?_,
    ((ownEffect_counted s u c).sendPend _).issued.coreFrame beats_ne_issued _⟩
  rw [vecs_landed, vecCounted, bumpFld_core, vecs_sendPend, bumpFld_core]

end

/-! ### A result that is due -/

section
variable {s : State} {r : VecPend}

theorem find_tag (hr : r ∈ s.core.vecs) (huniq : ∀ q ∈ s.core.vecs, q.tag = r.tag → q = r) :
    (s.core.vecs.find? fun q => decide (q.tag = r.tag)) = some r := by
  cases hfind : s.core.vecs.find? fun q => decide (q.tag = r.tag) with
  | none => exact absurd (List.find?_eq_none.mp hfind r hr) (by simp)
  | some q => rw [huniq q (List.mem_of_find?_eq_some hfind) (by simpa using List.find?_some hfind)]

theorem exec_vecResultWrite (hr : r ∈ s.core.vecs) (huniq : ∀ q ∈ s.core.vecs, q.tag = r.tag → q = r) :
    exec (.vecResultWrite r.tag) s = .next (pendDue r s) := by
  refine (runIf_of rfl _).trans ?_
  rw [find_tag hr huniq]

/-- Behind an older write of its register a result only waits for its turn. -/
theorem vecResultWrite_waits (hr : r ∈ s.core.vecs) (huniq : ∀ q ∈ s.core.vecs, q.tag = r.tag → q = r)
    (hold : olderWrite s r.u r.c r.dst r.tag = true) : Runs (.vecResultWrite r.tag) s fun t => RegsKept s t r.u r.c ∧
      t.core.vecs = s.core.vecs.map (fun q => if q.tag = r.tag then { r with soon := true } else q) ∧ t.mem = s.mem := by
  refine ⟨_, exec_vecResultWrite hr huniq, ?_⟩
  rw [pendDue, if_pos hold]
  refine ⟨regsKept_of_regsOf rfl, List.map_congr_left fun q hq => ?_, rfl⟩
  split
  · next htag => rw [huniq q hq htag]
  · rfl

/-- With no other result waiting for its turn, nothing lands behind the one that has landed. -/
theorem landSoon_of_none {t : State} (h : ∀ q ∈ t.core.vecs, q.soon = false) : landSoon t = t := by
  have hnone : t.core.vecs.filter (·.soon) = [] := List.filter_eq_nil_iff.mpr fun q hq => by simp [h q hq]
  rw [landSoon, hnone]
  rfl

theorem vecs_landPending : (landPending r s).core.vecs = s.core.vecs.filter fun q => decide (q.tag ≠ r.tag) := by
  rw [landPending, vecs_raiseVec]
  rfl

theorem mem_landPending : (landPending r s).mem = s.mem := by
  rw [landPending, mem_raiseVec]
  rfl

theorem regsOf_landPending : regsOf (ctx (landPending r s) r.u r.c) = regsOf (setReg (ctx s r.u r.c) r.dst r.val r.mask) := by
  rw [landPending, regsOf_raiseVec, ctx_updCtx_same]
  rfl

theorem vecFlags_landPending (h : r.flags = 0) :
    fld (landPending r s) (VEC_FLAGS r.u) ⟨0, 0, 5⟩ = fld s (VEC_FLAGS r.u) ⟨0, 0, 5⟩ := by
  rw [landPending, h, raiseVec_zero]
  exact fld_of_csr rfl _ _

theorem setReg_allBits (x : Ctx) (q : Nat) (v : W512) : setReg x (.v q) v allBits = setV x q v := by
  simp only [setReg, allBits, BitVec.not_allOnes, BitVec.and_zero, BitVec.zero_or, BitVec.and_allOnes]

/-- The oldest result of a vector register lands there. -/
theorem vecResultWrite_lands {vd : Nat} (hr : r ∈ s.core.vecs) (huniq : ∀ q ∈ s.core.vecs, q.tag = r.tag → q = r)
    (hdst : r.dst = .v vd) (hmask : r.mask = allBits) (hsoon : ∀ q ∈ s.core.vecs, q.soon = false)
    (hold : olderWrite s r.u r.c (.v vd) r.tag = false) :
    Runs (.vecResultWrite r.tag) s fun t => vr (ctx t r.u r.c) vd = r.val ∧
      (∀ k, k ≠ vd → vr (ctx t r.u r.c) k = vr (ctx s r.u r.c) k) ∧
      (∀ k, sr (ctx t r.u r.c) k = sr (ctx s r.u r.c) k ∧ pr (ctx t r.u r.c) k = pr (ctx s r.u r.c) k) ∧
      t.core.vecs = s.core.vecs.filter (fun q => decide (q.tag ≠ r.tag)) ∧ t.mem = s.mem ∧
      (r.flags = 0 → fld t (VEC_FLAGS r.u) ⟨0, 0, 5⟩ = fld s (VEC_FLAGS r.u) ⟨0, 0, 5⟩) := by
  have hdue : pendDue r s = landPending r s := by
    rw [pendDue, if_neg (by rw [hdst, hold]; decide)]
    refine landSoon_of_none fun q hq => hsoon q ?_
    rw [vecs_landPending] at hq
    exact List.mem_of_mem_filter hq
  have hregs := regsOf_landPending (r := r) (s := s)
  rw [hdst, hmask, setReg_allBits] at hregs
  simp only [regsOf, Prod.mk.injEq] at hregs
  obtain ⟨hs, hp, hv, -⟩ := hregs
  have hvr (k : Nat) : vr (ctx (landPending r s) r.u r.c) k = if k = vd then r.val else vr (ctx s r.u r.c) k := by
    rw [← vr_setV]
    simp only [vr, hv]
  refine ⟨_, exec_vecResultWrite hr huniq, ?_⟩
  rw [hdue]
  refine ⟨by rw [hvr, if_pos rfl], fun k hk => by rw [hvr, if_neg hk], fun k => ⟨?_, ?_⟩, vecs_landPending, mem_landPending,
    vecFlags_landPending⟩
  · simp only [sr, hs]
    rfl
  · simp only [pr, hp]
    rfl

end

end Sys2Proof.Machine
end

section
/-!
PROOFS. VRED and the search of VSPEC over I32 lanes (R135, R230): what a reduction and the search loop come to.
-/
namespace Sys2Proof.Machine
open Sys2Proof

/-! ### Reductions -/

/-- A reduction whose steps set no flag is a fold. -/
theorem vredAcc_of_pure {t : VTy} {op : Nat} {g : Nat → Nat → Nat} (h : ∀ x a, redStep t op x a = pureLane (g x a))
    (l : List Nat) (x fl : Nat) : vredAcc t op l (some (x, fl)) = some (l.foldl g x, fl) := by
  induction l generalizing x with
  | nil => rfl
  | cons a l ih =>
    rw [vredAcc, h, show vecFlagBits (pureLane (g x a)).2 = 0 from rfl, Nat.or_zero]
    exact ih _

theorem foldl_add_mod {n : Nat} (l : List Nat) (x : Nat) (hx : x < n) :
    l.foldl (fun y a => (y + a) % n) x = (x + l.sum) % n := by
  induction l generalizing x with
  | nil => simp [Nat.mod_eq_of_lt hx]
  | cons a l ih => rw [List.foldl_cons, ih _ (Nat.mod_lt _ (by omega)), List.sum_cons, Nat.mod_add_mod, Nat.add_assoc]

/-- A fold whose step keeps whichever of its two arguments ranks lower ends in a lowest element. -/
theorem foldl_lowest {g : Nat → Nat → Nat} {rank : Nat → Int} (hmem : ∀ x a, g x a = x ∨ g x a = a)
    (hrank : ∀ x a, rank (g x a) ≤ rank x ∧ rank (g x a) ≤ rank a) (l : List Nat) (x : Nat) :
    l.foldl g x ∈ x :: l ∧ ∀ y ∈ x :: l, rank (l.foldl g x) ≤ rank y := by
  induction l generalizing x with
  | nil => simp
  | cons a l ih =>
    obtain ⟨hin, hlow⟩ := ih (g x a)
    obtain ⟨hx, ha⟩ := hrank x a
    have hhead := hlow _ List.mem_cons_self
    rw [List.foldl_cons]
    refine ⟨?_, fun y hy => ?_⟩
    · rcases List.mem_cons.mp hin with heq | hl
      · rw [heq]
        rcases hmem x a with h | h <;> simp [h]
      · exact List.mem_cons_of_mem _ (List.mem_cons_of_mem _ hl)
    · rcases List.mem_cons.mp hy with rfl | hy
      · exact hhead.trans hx
      · rcases List.mem_cons.mp hy with rfl | hy
        · exact hhead.trans ha
        · exact hlow y (List.mem_cons_of_mem _ hy)

/-- The order of signed lanes, from the least up or from the greatest down. -/
def laneRank (least : Bool) (a : Nat) : Int := if least then sgn 32 a else -sgn 32 a

theorem laneMinMax_i32 (max : Bool) (x a : Nat) :
    (laneMinMax .i32 max x a = x ∨ laneMinMax .i32 max x a = a) ∧
    laneRank (!max) (laneMinMax .i32 max x a) ≤ laneRank (!max) x ∧ laneRank (!max) (laneMinMax .i32 max x a) ≤ laneRank (!max) a := by
  rw [laneMinMax, if_pos (show intTy .i32 = true from rfl)]
  dsimp only [laneBits]
  rcases lt_or_ge (sgn 32 x) (sgn 32 a) with hlt | hge
  · cases max <;> simp [laneRank, hlt, hlt.le]
  · cases max <;> simp [laneRank, hge, hge.not_gt]

/-- The enabled lanes of an I32 register, ascending. -/
def activeLanes (a : Nat → Nat) (on : Nat → Bool) : List Nat := ((List.range 16).filter on).map a

section
variable {a : Nat → Nat} {on : Nat → Bool}

theorem mem_activeLanes {y : Nat} : y ∈ activeLanes a on ↔ ∃ k, k < 16 ∧ on k = true ∧ a k = y := by
  simp [activeLanes, and_assoc]

theorem sum_activeLanes : (activeLanes a on).sum = ((List.range 16).map fun k => if on k then a k else 0).sum := by
  unfold activeLanes
  induction List.range 16 with
  | nil => rfl
  | cons k l ih => cases hk : on k <;> simp [hk, ih]

theorem enabledLanes_i32 (m : W64) (v : W512) : enabledLanes .i32 m v = activeLanes (lane 32 v) m.getLsbD := rfl

/-- What R230 says of a reduction: the sum, the least lane, the greatest lane. -/
structure Reduces (a : Nat → Nat) (on : Nat → Bool) (op x : Nat) : Prop where
  sum      : op = 0 → x = ((List.range 16).map fun k => if on k then a k else 0).sum % 2 ^ 32
  least    : op = 1 → ∃ k, k < 16 ∧ on k = true ∧ x = a k ∧ ∀ j, j < 16 → on j = true → sgn 32 (a k) ≤ sgn 32 (a j)
  greatest : op = 2 → ∃ k, k < 16 ∧ on k = true ∧ x = a k ∧ ∀ j, j < 16 → on j = true → sgn 32 (a j) ≤ sgn 32 (a k)

theorem Reduces.lt {op x : Nat} (h : Reduces a on op x) (ha : ∀ k, a k < 2 ^ 32) (hop : op < 3) : x < 2 ^ 32 := by
  obtain rfl | rfl | rfl : op = 0 ∨ op = 1 ∨ op = 2 := by omega
  · rw [h.sum rfl]
    exact Nat.mod_lt _ (by decide)
  · obtain ⟨k, -, -, rfl, -⟩ := h.least rfl
    exact ha k
  · obtain ⟨k, -, -, rfl, -⟩ := h.greatest rfl
    exact ha k

/-- The step of a reduction of I32 lanes. -/
def redI32 (op x y : Nat) : Nat :=
  match op with
  | 0 => (x + y) % 2 ^ 32
  | 1 => laneMinMax .i32 false x y
  | _ => laneMinMax .i32 true x y

theorem redStep_i32 (op x y : Nat) : redStep .i32 op x y = pureLane (redI32 op x y) := by
  match op with
  | 0 | 1 | _ + 2 => rfl

theorem reduced_rank {max : Bool} {y : Nat} {ys : List Nat} (hlanes : activeLanes a on = y :: ys) :
    ∃ k, k < 16 ∧ on k = true ∧ ys.foldl (laneMinMax .i32 max) y = a k ∧
      ∀ j, j < 16 → on j = true → laneRank (!max) (a k) ≤ laneRank (!max) (a j) := by
  obtain ⟨hin, hlow⟩ := foldl_lowest (fun x y => (laneMinMax_i32 max x y).1) (fun x y => (laneMinMax_i32 max x y).2) ys y
  rw [← hlanes] at hin hlow
  obtain ⟨k, hk, hon, hval⟩ := mem_activeLanes.mp hin
  refine ⟨k, hk, hon, hval.symm, fun j hj hj' => ?_⟩
  rw [hval]
  exact hlow _ (mem_activeLanes.mpr ⟨j, hj, hj', rfl⟩)

theorem reduces_foldl {y op : Nat} {ys : List Nat} (hlanes : activeLanes a on = y :: ys) (hlt : ∀ k, a k < 2 ^ 32) :
    Reduces a on op (ys.foldl (redI32 op) y) := by
  refine ⟨?_, ?_, ?_⟩
  · rintro rfl
    obtain ⟨k, -, -, hy⟩ := mem_activeLanes.mp (hlanes ▸ List.mem_cons_self : y ∈ activeLanes a on)
    rw [← sum_activeLanes, hlanes, List.sum_cons]
    exact foldl_add_mod ys y (hy ▸ hlt k)
  · rintro rfl
    exact reduced_rank (max := false) hlanes
  · rintro rfl
    obtain ⟨k, hk, hon, hval, hrank⟩ := reduced_rank (max := true) hlanes
    exact ⟨k, hk, hon, hval, fun j hj hj' => by simpa [laneRank] using hrank j hj hj'⟩

end

/-! ### The search -/

/-- One round of the search loop of R135. -/
def searchStep (t : VTy) (least : Bool) (m : W64) (v : W512) (base : Nat) (best : Option (Nat × Nat)) (i : Nat) :
    Option (Nat × Nat) := searchLoop t least m v base [i] best

theorem searchLoop_eq_foldl (t : VTy) (least : Bool) (m : W64) (v : W512) (base : Nat) (l : List Nat)
    (best : Option (Nat × Nat)) : searchLoop t least m v base l best = l.foldl (searchStep t least m v base) best := by
  induction l generalizing best with
  | nil => rfl
  | cons i l ih =>
    rw [List.foldl_cons, ← ih]
    simp only [searchStep, searchLoop]
    split <;> rfl

/-- The best of the first `n` lanes is the lowest enabled one that no enabled one precedes, or none is enabled. -/
def BestOf (least : Bool) (a : Nat → Nat) (on : Nat → Bool) (base n : Nat) : Option (Nat × Nat) → Prop
  | none => ∀ j, j < n → on j = false
  | some (x, ix) => ∃ k, k < n ∧ on k = true ∧ x = a k ∧ ix = (base + k) % 2 ^ 32 ∧
      (∀ j, j < n → on j = true → laneRank least (a k) ≤ laneRank least (a j)) ∧ ∀ j, j < k → on j = true → a j ≠ a k

section
variable {least : Bool} {m : W64} {v : W512} {base n : Nat}

theorem laneLt_i32 (x y : Nat) : (if least then laneLt .i32 x y else laneLt .i32 y x) =
    decide (laneRank least x < laneRank least y) := by
  cases least
  · exact decide_eq_decide.mpr neg_lt_neg_iff.symm
  · rfl

theorem searchStep_i32 (best : Option (Nat × Nat)) (i : Nat) : searchStep .i32 least m v base best i =
    if m.getLsbD i = true ∧ ∀ b ∈ best, laneRank least (lane 32 v i) < laneRank least b.1 then
      some (lane 32 v i, (base + i) % 2 ^ 32) else best := by
  simp only [searchStep, searchLoop, laneLt_i32]
  cases hon : m.getLsbD i with
  | false => simp [lanePred, bit1, hon]
  | true => cases best with
    | none => simp [lanePred, bit1, hon, laneNaN, intTy, laneBits]
    | some b =>
      by_cases hlt : laneRank least (lane 32 v i) < laneRank least b.1 <;>
        simp [lanePred, bit1, hon, laneNaN, intTy, laneBits, hlt]

theorem bestOf_step {best : Option (Nat × Nat)} (h : BestOf least (lane 32 v) m.getLsbD base n best) :
    BestOf least (lane 32 v) m.getLsbD base (n + 1) (searchStep .i32 least m v base best n) := by
  rw [searchStep_i32]
  split
  · next hbetter =>
    obtain ⟨hon, hlow⟩ := hbetter
    have hfirst : ∀ j, j < n → m.getLsbD j = true → laneRank least (lane 32 v n) < laneRank least (lane 32 v j) := by
      intro j hj hj'
      cases best with
      | none => exact absurd hj' (by rw [h j hj]; decide)
      | some b =>
        obtain ⟨k, -, -, hx, -, hbest, -⟩ := h
        exact lt_of_lt_of_le (hx ▸ hlow b rfl) (hbest j hj hj')
    refine ⟨n, n.lt_succ_self, hon, rfl, rfl, fun j hj hj' => ?_, fun j hj hj' heq => ?_⟩
    · rcases Nat.lt_succ_iff_lt_or_eq.mp hj with hj | rfl
      · exact (hfirst j hj hj').le
      · exact le_rfl
    · exact absurd (hfirst j hj hj') (by rw [heq]; exact lt_irrefl _)
  · next hworse =>
    cases best with
    | none =>
      intro j hj
      rcases Nat.lt_succ_iff_lt_or_eq.mp hj with hj | rfl
      · exact h j hj
      · simpa using hworse
    | some b =>
      obtain ⟨k, hk, hon, hx, hix, hbest, hlow⟩ := h
      refine ⟨k, Nat.lt_succ_of_lt hk, hon, hx, hix, fun j hj hj' => ?_, hlow⟩
      rcases Nat.lt_succ_iff_lt_or_eq.mp hj with hj | rfl
      · exact hbest j hj hj'
      · rw [← hx]
        simpa [hj'] using hworse

theorem bestOf_searchLoop (n : Nat) :
    BestOf least (lane 32 v) m.getLsbD base n (searchLoop .i32 least m v base (List.range n) none) := by
  rw [searchLoop_eq_foldl]
  induction n with
  | zero => exact fun j hj => absurd hj j.not_lt_zero
  | succ n ih =>
    rw [List.range_succ, List.foldl_append]
    exact bestOf_step ih

end

end Sys2Proof.Machine
end

section
/-!
PROOFS. O16: the rows of VRED, of the search and of the filter tap (R135, R136, R230), then the obligation.
-/
namespace Sys2Proof.Machine
open Sys2Proof

section
variable {s : State} {u c p vd va vb op : Nat} {a : Nat → Nat} {on : Nat → Bool}

set_option exponentiation.threshold 512 in
theorem toNat_ofNat_512 {n : Nat} (h : n < 2 ^ 64) : (BitVec.ofNat 512 n).toNat = n :=
  (BitVec.toNat_ofNat _ _).trans (Nat.mod_eq_of_lt (h.trans (Nat.pow_lt_pow_right (by decide) (by decide))))

/-- VRED over I32 lanes sends the reduction of the enabled ones (R230). -/
theorem Lone.row_vred (h : Lone s u c .V (.vred u p .i32 vd va op)) (ha : ∀ k, a k = lane 32 (vr (ctx s u c) va) k)
    (hon : ∀ k, on k = (pr (ctx s u c) p).getLsbD k) (hany : ∃ k, k < 16 ∧ on k = true) :
    Runs (.vred u p .i32 vd va op) s fun t => ∃ x, SendsResult s t u c vd (BitVec.ofNat 512 x) ∧ x < 2 ^ 32 ∧
      Reduces a on op x := by
  obtain rfl : a = lane 32 (vr (ctx s u c) va) := funext ha
  obtain rfl : on = (pr (ctx s u c) p).getLsbD := funext hon
  obtain ⟨k, hk, hk'⟩ := hany
  have hop : op < 3 := by
    have hwf : wfVred u p .i32 vd va op = true := h.wf
    simp only [wfVred, Bool.and_eq_true, decide_eq_true_eq] at hwf
    obtain ⟨-, hop⟩ := hwf
    exact hop
  cases hlanes : activeLanes (lane 32 (vr (ctx s u c) va)) (pr (ctx s u c) p).getLsbD with
  | nil => exact absurd (mem_activeLanes.mpr ⟨k, hk, hk', rfl⟩) (by rw [hlanes]; exact List.not_mem_nil)
  | cons y ys =>
    have he : effV (counted u s) u c (.vred u p .i32 vd va op) (counted u s) =
        sendVec (counted u s) u c vd (BitVec.ofNat 512 (ys.foldl (redI32 op) y)) 0 (counted u s) := by
      simp only [effV, effVred, rdP_counted, rdV_counted, enabledLanes_i32, hlanes, vredAcc, vredAcc_of_pure (redStep_i32 op)]
    have hlt (k : Nat) := lane_lt 32 (vr (ctx s u c) va) k
    have hred := reduces_foldl (op := op) hlanes hlt
    exact (h.row_sendVec rfl rfl rfl rfl he).mono fun t ht => ⟨_, ht, hred.lt hlt hop, hred⟩

/-- The search over I32 lanes sends the lowest of the best enabled lanes with its index (R135). -/
theorem Lone.row_vspecSearch {least : Bool} (h : Lone s u c .V (.vspecSearch u p .i32 vd va vb least false))
    (ha : ∀ k, a k = lane 32 (vr (ctx s u c) va) k) (hon : ∀ k, on k = (pr (ctx s u c) p).getLsbD k)
    (hany : ∃ k, k < 16 ∧ on k = true) : Runs (.vspecSearch u p .i32 vd va vb least false) s fun t => ∃ x ix,
      SendsResult s t u c vd (BitVec.ofNat 512 (x + ix * 2 ^ 32)) ∧
      BestOf least a on (lane 32 (vr (ctx s u c) vb) 0) 16 (some (x, ix)) := by
  obtain rfl : a = lane 32 (vr (ctx s u c) va) := funext ha
  obtain rfl : on = (pr (ctx s u c) p).getLsbD := funext hon
  obtain ⟨k, hk, hk'⟩ := hany
  have hbest := bestOf_searchLoop (least := least) (m := pr (ctx s u c) p) (v := vr (ctx s u c) va)
    (base := lane 32 (vr (ctx s u c) vb) 0) 16
  cases hloop : searchLoop .i32 least (pr (ctx s u c) p) (vr (ctx s u c) va) (lane 32 (vr (ctx s u c) vb) 0) (List.range 16)
      none with
  | none =>
    rw [hloop] at hbest
    exact absurd hk' (by rw [hbest k hk]; decide)
  | some b =>
    rw [hloop] at hbest
    have hsome : ((List.range (laneCount .i32)).any fun i => lanePred (pr (ctx s u c) p) i) = true :=
      List.any_eq_true.mpr ⟨k, List.mem_range.mpr hk, hk'⟩
    have he : effV (counted u s) u c (.vspecSearch u p .i32 vd va vb least false) (counted u s) =
        sendVec (counted u s) u c vd (BitVec.ofNat 512 (b.1 + b.2 * 2 ^ 32)) 0 (counted u s) := by
      simp only [effV, effVspecSearch, rdP_counted, rdV_counted, hsome, Bool.not_true, Bool.false_eq_true, if_false,
        Bool.false_and]
      rw [show bitsOf (vr (ctx s u c) vb) 0 32 = lane 32 (vr (ctx s u c) vb) 0 from rfl, show laneCount .i32 = 16 from rfl, hloop]
    exact (h.row_sendVec rfl rfl rfl rfl he).mono fun t ht => ⟨b.1, b.2, ht, hbest⟩

end

/-! ### The filter tap -/

section
variable {s : State} {u c p vd va vb k : Nat} {ty : VTy}

/-- Nothing is due to the registers of a bundle that stands alone, so its result is written at once (R226). -/
theorem Alone.writeV {sl : Slot} {i : Instr} (h : Alone s u c sl i) (r : Nat) (v : W512) :
    Machine.writeV u c r v (counted u s) = updCtx (counted u s) u c fun x => setV x r v := by
  unfold Machine.writeV writeNow
  rw [outstandingRegs_counted, h.nothingDue]
  rfl

theorem outstandingRegs_updCtx (t : State) (f : Ctx → Ctx) : outstandingRegs (updCtx t u c f) u c = outstandingRegs t u c := rfl

/-- A vector result to a register to which nothing is due is written at once, and its flags are raised (R226). -/
theorem landVec_of_none {t : State} (h : outstandingRegs t u c = []) (pre : State) (vd : Nat) (r : VRes) :
    landVec pre u c vd r t =
      raiseVec u c (ctx pre u c).pc (vecNum pre u) r.flags r.lane (updCtx t u c fun x => setV x vd r.val) := by
  unfold landVec
  rw [h]
  rfl

/-- The delay line moved down by one lane, the top lane from the next register (R136). -/
def tapLine (s : State) (u c va : Nat) (ty : VTy) : W512 :=
  ofLanes (laneBits ty) ((List.range (laneCount ty)).map fun i =>
    if i + 1 < laneCount ty then lane (laneBits ty) (vr (ctx s u c) va) (i + 1)
    else lane (laneBits ty) (vr (ctx s u c) ((va + 1) % 16)) 0)

/-- The accumulators after one integer multiply-add for each enabled lane. -/
def tapSums (s : State) (u c p vd va vb k : Nat) (ty : VTy) : W512 :=
  (mapLanes ty (pr (ctx s u c) p) (vr (ctx s u c) vd) fun i => pureLane ((lane (laneBits ty) (vr (ctx s u c) vd) i +
    lane (laneBits ty) (vr (ctx s u c) va) i * lane (laneBits ty) (vr (ctx s u c) vb) k) % 2 ^ laneBits ty)).val

theorem lane_tapLine {j : Nat} (hj : j < laneCount ty) : lane (laneBits ty) (tapLine s u c va ty) j =
    if j + 1 < laneCount ty then lane (laneBits ty) (vr (ctx s u c) va) (j + 1)
    else lane (laneBits ty) (vr (ctx s u c) ((va + 1) % 16)) 0 := by
  rw [tapLine, lane_ofLanes (by simpa using hj) (by simp [laneBits_mul_laneCount])]
  simp only [List.getElem_map, List.getElem_range]
  split <;> exact Nat.mod_eq_of_lt (lane_lt _ _ _)

theorem lane_tapSums {j : Nat} (hj : j < laneCount ty) : lane (laneBits ty) (tapSums s u c p vd va vb k ty) j =
    if (pr (ctx s u c) p).getLsbD j then (lane (laneBits ty) (vr (ctx s u c) vd) j +
      lane (laneBits ty) (vr (ctx s u c) va) j * lane (laneBits ty) (vr (ctx s u c) vb) k) % 2 ^ laneBits ty
    else lane (laneBits ty) (vr (ctx s u c) vd) j := by
  rw [tapSums, mapLanes_lane _ _ _ _ hj]
  simp only [pureLane, Nat.mod_mod]

theorem Lone.row_vspecTap (hint : intTy ty = true) (h : Lone s u c .V (.vspecTap u p ty vd va vb k)) :
    Runs (.vspecTap u p ty vd va vb k) s fun t => (∀ r, vr (ctx t u c) r = if r = vd then tapSums s u c p vd va vb k ty
      else if r = va then tapLine s u c va ty else vr (ctx s u c) r) ∧ CoreFrame s t u c [VEC_ISSUED u] := by
  have he : effV (counted u s) u c (.vspecTap u p ty vd va vb k) (counted u s) =
      updCtx (updCtx (counted u s) u c fun x => setV x va (tapLine s u c va ty)) u c
        fun x => setV x vd (tapSums s u c p vd va vb k ty) := by
    simp only [effV, effVspecTap, rdP_counted, rdV_counted, h.writeV, laneFma_int hint]
    rw [landVec_of_none (by rw [outstandingRegs_updCtx, outstandingRegs_counted, h.nothingDue]), mapLanes_pure_flags,
      raiseVec_zero, tapLine, tapSums]
  refine ⟨_, h.rowV rfl rfl rfl rfl he ?_, fun r => ?_,
    (((ownEffect_counted s u c).upd _).upd _).issued.coreFrame beats_ne_issued _⟩
  · rw [ctx_updCtx_same, ctx_upd_counted]
    exact ⟨h.goesOn.sound, h.goesOn.loaded, h.goesOn.noStep⟩
  · rw [ctx_landed_keeps (fun x => vr x r) fun _ _ => rfl, ctx_vecCounted, ctx_updCtx_same, ctx_upd_counted, vr_setV, vr_setV]

end

/-- Settles O16: VRED and the search by the result that they send, VEC_RESULT_WRITE by its two cases, the filter tap by the two
registers that it writes. -/
theorem vectorReductionsAndTaps : Obligations.VectorReductionsAndTaps := by
  refine ⟨fun s u c p vd va vb op a on ha hon hany => ⟨fun h => ?_, fun least h => ?_,
    fun r => vecResultWrite_waits, fun r => vecResultWrite_lands⟩, fun s u c p vd va vb k ty w hint hw h => ?_⟩
  · refine (h.row_vred ha hon hany).mono fun t ⟨x, ht, hx, hsum, hleast, hgreatest⟩ =>
      ⟨_, ht.vecs, rfl, rfl, rfl, rfl, ht.frame, ?_⟩
    rw [show (sentResult s u c vd (BitVec.ofNat 512 x)).val.toNat = x from toNat_ofNat_512 (hx.trans (by decide))]
    exact ⟨hsum, hleast, hgreatest⟩
  · refine (h.row_vspecSearch ha hon hany).mono fun t ⟨x, ix, ht, k, hk, hk', hx, hix, hbest, hfirst⟩ =>
      ⟨_, k, ht.vecs, rfl, rfl, rfl, rfl, hk, hk', ?_, fun j hj hj' => ?_, hfirst⟩
    · have hxlt : x < 2 ^ 32 := by
        rw [hx, ha]
        exact lane_lt _ _ _
      have hixlt : ix < 2 ^ 32 := hix ▸ Nat.mod_lt _ (by decide)
      rw [← hx, ← hix]
      exact toNat_ofNat_512 (by omega)
    · have hrank := hbest j hj hj'
      cases least <;> simpa [laneRank] using hrank
  · subst hw
    obtain ⟨hne, hpos⟩ : vd ≠ va ∧ 0 < laneCount ty := by
      have hwf : wfVspecTap u p ty vd va vb k = true := h.wf
      simp only [wfVspecTap, Bool.and_eq_true, decide_eq_true_eq] at hwf
      obtain ⟨⟨-, hk⟩, hne⟩ := hwf
      exact ⟨hne, Nat.zero_lt_of_lt hk⟩
    refine (h.row_vspecTap hint).mono fun t ⟨hvr, hframe⟩ => ⟨fun j hj => ?_, fun j hj => ?_, ?_, fun r hd ha => ?_, hframe⟩
    · rw [hvr, if_pos rfl, lane_tapSums hj]
    · rw [hvr, if_neg hne.symm, if_pos rfl, lane_tapLine (by omega), if_pos hj]
    · rw [hvr, if_neg hne.symm, if_pos rfl, lane_tapLine (by omega), if_neg (by omega)]
    · rw [hvr, if_neg hd, if_neg ha]

end Sys2Proof.Machine
end

section
/-!
PROOFS. Bank ownership (R102, R242, R244, R245): the word a handover writes, the rows by the master that writes, then the
obligation.
-/
namespace Sys2Proof.Machine
open Sys2Proof

section
variable {s : State} {m : Master} {u b c code : Nat}

/-! ### The words of BANK_OWNER -/

/-- A word with an owner alone. -/
theorem fget_ownerWord (hcode : code < 16) : fget (packW [(code, 0)]) BANK_OWNER_OWNER = code ∧
    fget (packW [(code, 0)]) BANK_OWNER_PENDING = 0 := by
  simp only [fget, bitsOf, packW, BANK_OWNER_OWNER, BANK_OWNER_PENDING, List.map, List.foldl, BitVec.toNat_ofNat,
    Nat.shiftRight_eq_div_pow]
  omega

/-- A word with an owner and a pending handover. -/
theorem fget_pendingWord {o : Nat} (ho : o < 16) (hcode : code < 16) :
    fget (packW [(o, 0), (code, 4), (1, 8)]) BANK_OWNER_OWNER = o ∧
    fget (packW [(o, 0), (code, 4), (1, 8)]) BANK_OWNER_TARGET = code ∧
    fget (packW [(o, 0), (code, 4), (1, 8)]) BANK_OWNER_PENDING = 1 := by
  simp only [fget, bitsOf, packW, BANK_OWNER_OWNER, BANK_OWNER_TARGET, BANK_OWNER_PENDING, List.map, List.foldl,
    BitVec.toNat_ofNat, Nat.shiftRight_eq_div_pow]
  omega

/-- A field in the first word of a register whose word has just been stored. -/
theorem fld_rset_same (s : State) (r : Nat) (v : W64) {f : Fld} (hf : f.word = 0) : fld (rset s r v) r f = fget v f := by
  unfold fld
  rw [hf, Nat.mul_zero, Nat.add_zero, rget_rset_same]

theorem bankNow_rset (s : State) (u b : Nat) (hcode : code < 16) :
    BankNow s (rset s (BANK_OWNER u b) (packW [(code, 0)])) u b code := by
  obtain ⟨howner, hpending⟩ := fget_ownerWord hcode
  exact ⟨(fld_rset_same _ _ _ rfl).trans howner, (fld_rset_same _ _ _ rfl).trans hpending, wordsKept_rset _ _ _, rfl⟩

theorem bankLater_rset (s : State) (u b : Nat) (hcode : code < 16) :
    BankLater s (rset s (BANK_OWNER u b) (packW [(bankOwner s u b, 0), (code, 4), (1, 8)])) u b code := by
  obtain ⟨howner, htarget, hpending⟩ := fget_pendingWord (fld_lt s (BANK_OWNER u b) BANK_OWNER_OWNER) hcode
  exact ⟨(fld_rset_same _ _ _ rfl).trans howner, (fld_rset_same _ _ _ rfl).trans htarget,
    (fld_rset_same _ _ _ rfl).trans hpending, wordsKept_rset _ _ _, rfl⟩

/-- A command that carries out a handover completes it at once, or records it while the owner uses the bank (R244, R245). -/
theorem runs_of_handover {i : Instr} (h : exec i s = .next (handover u b code s)) (hcode : code < 16) :
    (ownerBusy s u b = false → Runs i s fun t => BankNow s t u b code) ∧
    (ownerBusy s u b = true → Runs i s fun t => BankLater s t u b code) := by
  refine ⟨fun hfree => ⟨_, h, ?_⟩, fun hbusy => ⟨_, h, ?_⟩⟩
  · rw [handover, if_neg (by simp [hfree])]
    exact bankNow_rset s u b hcode
  · rw [handover, if_pos hbusy]
    exact bankLater_rset s u b hcode

/-! ### Which writes are permitted (R242) -/

theorem handoverOk_admin {o : Nat} (hcode : code ≤ 10) (hborder : code = 9 → borderCore u = true) :
    handoverOk u .admin o code = true := by
  by_cases h : code = 9
  · simp [handoverOk, hcode, hborder h]
  · simp [handoverOk, hcode, h]

theorem writerOf_controlProcessor (hcp : isCp u = true) : writerOf s u c = .admin := by simp [writerOf, privOf, hcp]

theorem writerOf_user (h : privOf s u c = .user) : writerOf s u c = .user := by rw [writerOf, h]

theorem writerOf_border (h : privOf s u c = .border) : writerOf s u c = .border := by rw [writerOf, h]

/-- What R242 permits a core's context on its own banks. -/
theorem handoverOk_context
    (h : (privOf s u c = .user ∧ (bankOwner s u b ≤ 4 ∨ bankOwner s u b = 10) ∧ (code ≤ 8 ∨ code = 10)) ∨
      (privOf s u c = .border ∧ (bankOwner s u b ≤ 4 ∨ bankOwner s u b = 9 ∨ bankOwner s u b = 10) ∧ code ≤ 10)) :
    handoverOk u (writerOf s u c) (bankOwner s u b) code = true := by
  rcases h with ⟨huser, howner, hcode⟩ | ⟨hborder, howner, hcode⟩
  · simp [writerOf_user huser, handoverOk, howner, hcode]
  · simp [writerOf_border hborder, handoverOk, or_assoc, howner, hcode]

/-- What R242 refuses a user context on its own banks. -/
theorem handoverOk_user_refused (huser : privOf s u c = .user)
    (h : 5 ≤ bankOwner s u b ∧ bankOwner s u b ≤ 9 ∨ code = 9 ∨ 10 < code) :
    handoverOk u (writerOf s u c) (bankOwner s u b) code = false := by
  simp only [writerOf_user huser, handoverOk, Bool.and_eq_false_iff, Bool.or_eq_false_iff, decide_eq_false_iff_not]
  omega

/-! ### The rows -/

theorem wf_bankOwnerWrite (hm : masterOk m = true) (hu : u < 25600) (hb : b < 16) (hcode : code < 16) :
    wfBankOwnerWrite m u b code = true := by simp [wfBankOwnerWrite, hm, nCores, hu, hb, hcode]

theorem masterOk_core (hu : u < 25600) (hc : c < 8) : masterOk (.unit u c) = true := by
  simp only [masterOk, unitOk, Bool.and_eq_true, decide_eq_true_eq]
  omega

/-- A supervisor or the owning host carries out any handover that R242 permits it. -/
theorem exec_bankOwnerWrite_admin (hm : masterOk m = true) (hu : u < 25600) (hb : b < 16) (hcode : code < 16)
    (h : Reaches s m (BANK_OWNER u b)) (hmay : isSupervisor m = true ∨ isOwner s m = true)
    (hok : handoverOk u .admin (bankOwner s u b) code = true) :
    exec (.bankOwnerWrite m u b code) s = .next (handover u b code s) := by
  refine (runIf_of (wf_bankOwnerWrite hm hu hb hcode) _).trans (congrArg Host.Outcome.next ?_)
  obtain ⟨-, -, hawake, hcp⟩ := id h
  have hwrite : bankWrite u b .admin code s = handover u b code s := if_pos hok
  cases m with
  | unit v d => simp [hcp v d rfl, writerOf_controlProcessor, hok, unlessAsleep, hawake, hwrite]
  | host p => exact (served_of_reaches h).trans ((if_pos (hmay.resolve_left (by simp [isSupervisor]))).trans hwrite)
  | _ => exact absurd hmay (by simp [isSupervisor, isOwner])

/-- The write of a master that is neither a supervisor nor the owning host is not carried out. -/
theorem exec_bankOwnerWrite_bystander (hm : masterOk m = true) (hu : u < 25600) (hb : b < 16) (hcode : code < 16)
    (h : Reaches s m (BANK_OWNER u b)) (hsup : isSupervisor m = false) (hown : isOwner s m = false) :
    exec (.bankOwnerWrite m u b code) s = .next s := by
  refine (runIf_of (wf_bankOwnerWrite hm hu hb hcode) _).trans (congrArg Host.Outcome.next ?_)
  cases m with
  | unit v d =>
    obtain ⟨-, -, -, hcp⟩ := h
    exact absurd (hcp v d rfl) (Bool.eq_false_iff.mp hsup)
  | _ => exact (served_of_reaches h).trans (if_neg (Bool.eq_false_iff.mp hown))

/-- A core's context hands over a bank of its own core, or faults with 0x0602. -/
theorem exec_bankOwnerWrite_own (hu : u < 25600) (hb : b < 16) (hc : c < 8) (hcode : code < 16) :
    exec (.bankOwnerWrite (.unit u c) u b code) s = .next
      (if handoverOk u (writerOf s u c) (bankOwner s u b) code then handover u b code s
       else faultCtx u c 0x0602 3 false (ctx s u c).pc (3 * 2 ^ 48 + BANK_OWNER u b) s) := by
  refine (runIf_of (wf_bankOwnerWrite (masterOk_core hu hc) hu hb hcode) _).trans (congrArg Host.Outcome.next ?_)
  simp [isCp_of_core hu]

/-- A core's context is denied the banks of another core (R102). -/
theorem exec_bankOwnerWrite_other {v : Nat} (hu : u < 25600) (hv : v < 25600) (hne : v ≠ u) (hb : b < 16) (hc : c < 8)
    (hcode : code < 16) : exec (.bankOwnerWrite (.unit v c) u b code) s = .next (csrDenied v c (BANK_OWNER u b) s) :=
  (runIf_of (wf_bankOwnerWrite (masterOk_core hv hc) hu hb hcode) _).trans
    (congrArg Host.Outcome.next (if_pos (by simp [isCp_of_core hv, hne])))

theorem exec_bankHandover (hu : u < 25600) (hb : b < 16) : exec (.bankHandover u b) s = .next (bankSettle u b s) :=
  runIf_of (by simp [wfBankHandover, nCores, hu, hb]) _

/-- A pending handover completes once the owner is done with the bank. -/
theorem bankHandover_completes (hu : u < 25600) (hb : b < 16) (hpending : fld s (BANK_OWNER u b) BANK_OWNER_PENDING = 1)
    (hfree : ownerBusy s u b = false) :
    Runs (.bankHandover u b) s fun t => BankNow s t u b (fld s (BANK_OWNER u b) BANK_OWNER_TARGET) := by
  refine ⟨_, exec_bankHandover hu hb, ?_⟩
  rw [bankSettle, if_pos (by simp [flag, hpending, hfree])]
  exact bankNow_rset s u b (fld_lt s (BANK_OWNER u b) BANK_OWNER_TARGET)

/-- Without a pending handover, or while the owner uses the bank, nothing changes. -/
theorem bankHandover_waits (hu : u < 25600) (hb : b < 16)
    (h : fld s (BANK_OWNER u b) BANK_OWNER_PENDING = 0 ∨ ownerBusy s u b = true) : exec (.bankHandover u b) s = .next s := by
  refine (exec_bankHandover hu hb).trans (congrArg Host.Outcome.next (if_neg ?_))
  rcases h with hnone | hbusy
  · simp [flag, hnone]
  · simp [hbusy]

end

/-- Settles O31: a permitted write by the handover that it carries out, a refused one by the fault of its context, and
BANK_HANDOVER by the word that it stores. -/
theorem banksChangeHands : Obligations.BanksChangeHands := by
  refine ⟨fun s m u b code hu hb hcode hm h hmay hborder => ?_, fun s u b c code hu hb hc hcode hok => ?_,
    fun s u b c code hu hb hc hcode huser hbad hready => ?_, fun s u v b c code hu hv hne hb hc hcode hready => ?_,
    fun s m u b code hu hb hcode hm h hsup hown => exec_bankOwnerWrite_bystander hm hu hb hcode h hsup hown,
    fun s u b hu hb => ⟨bankHandover_completes hu hb, bankHandover_waits hu hb⟩⟩
  · have hlt : code < 16 := by omega
    exact runs_of_handover (exec_bankOwnerWrite_admin hm hu hb hlt h hmay (handoverOk_admin hcode hborder)) hlt
  · have hrow := exec_bankOwnerWrite_own (s := s) hu hb hc hcode
    rw [if_pos (handoverOk_context hok)] at hrow
    exact runs_of_handover hrow hcode
  · have hrow := exec_bankOwnerWrite_own (s := s) hu hb hc hcode
    rw [if_neg (by simp [handoverOk_user_refused huser hbad])] at hrow
    obtain ⟨hfault, hmem⟩ := faulted_faultCtx (.inl hready) 0x0602 3 (3 * 2 ^ 48 + BANK_OWNER u b)
    obtain ⟨-, hatOnce, -⟩ := hfault.place
    exact ⟨_, hrow, hfault.state, hfault.code, hfault.slot, hatOnce, hfault.regs, hmem⟩
  · obtain ⟨hfault, hmem⟩ := faulted_faultCtx (.inl hready) 0x0102 3 (3 * 2 ^ 48 + BANK_OWNER u b)
    obtain ⟨-, hatOnce, -⟩ := hfault.place
    exact ⟨_, exec_bankOwnerWrite_other hu hv hne hb hc hcode, hfault.state, hfault.code, hatOnce, hfault.regs, hmem⟩

end Sys2Proof.Machine
end

section
/-!
PROOFS. Stream channels (R267–R301): the table of channels, what a closing channel leaves, and what opening one and its route
leave alone.
-/
namespace Sys2Proof.Machine
open Sys2Proof

/-! ### The table of channels -/

theorem chanKey_inj {u v ch k : Nat} (hch : ch < 4) (hk : k < 4) : chanKey v k = chanKey u ch ↔ v = u ∧ k = ch := by
  unfold chanKey
  omega

/-- A number of the table as the key of a channel. -/
theorem chanKey_split (k : Nat) : chanKey (k / 4) (k % 4) = k := by
  unfold chanKey
  omega

section
variable (s : State) (u ch : Nat) (x : Chan) (f : Chan → Chan)

@[simp] theorem chan_setChan (v k : Nat) :
    chan (setChan s u ch x) v k = if chanKey v k = chanKey u ch then x else chan s v k := mget_mset _ _ _ _ _
@[simp] theorem chan_updChan (v k : Nat) :
    chan (updChan s u ch f) v k = if chanKey v k = chanKey u ch then f (chan s u ch) else chan s v k := chan_setChan s u ch _ v k

theorem chan_updChan_same : chan (updChan s u ch f) u ch = f (chan s u ch) := (chan_updChan s u ch f u ch).trans (if_pos rfl)

theorem chans_setChan_ne {k : Nat} (h : k ≠ chanKey u ch) :
    mget Chan.closed (setChan s u ch x).strm.chans k = mget Chan.closed s.strm.chans k := mget_mset_other _ _ _ _ _ h

@[simp] theorem updChan_mem : (updChan s u ch f).mem = s.mem := rfl
@[simp] theorem updChan_csr : (updChan s u ch f).csr = s.csr := rfl
@[simp] theorem updChan_core : (updChan s u ch f).core = s.core := rfl
@[simp] theorem updChan_avl : (updChan s u ch f).avl = s.avl := rfl
@[simp] theorem updChan_host : (updChan s u ch f).host = s.host := rfl
@[simp] theorem updChan_out : (updChan s u ch f).out = s.out := rfl
@[simp] theorem updChan_log : (updChan s u ch f).log = s.log := rfl

end

/-! ### A channel closes (R247, R291) -/

section
variable {s : State} {u ch : Nat}

/-- What stays readable of a channel that has closed. -/
def closedChan (x : Chan) : Chan :=
  { Chan.closed with
    owner := x.owner, code := x.code, stalled := x.stalled, poisoned := x.poisoned, pageWaits := x.pageWaits
    stalls := x.stalls, stamp := x.stamp }

/-- The state but for the registers, the accesses in flight and the streams. -/
def besideChans (s : State) : State := { s with csr := [], core := { s.core with reqs := [] }, strm := StrmSt.reset }

/-- The registers of a core's sixteen banks. -/
def bankWords (u : Nat) : List Nat := (List.range 16).map (BANK_OWNER u)

theorem wordsKept_banksBack (u who : Nat) (s : State) : WordsKept s (banksBack u who s) (bankWords u) :=
  wordsKept_foldl _ (fun t b hb => by
    split
    · exact (wordsKept_rset t _ _).mono (List.cons_subset.mpr ⟨List.mem_map_of_mem hb, List.nil_subset _⟩)
    · exact fun _ _ => rfl) s

theorem besideChans_banksBack (u who : Nat) (s : State) : besideChans (banksBack u who s) = besideChans s :=
  foldl_keeps besideChans _ (fun t b => by split <;> rfl) _ _

theorem strm_banksBack (u who : Nat) (s : State) : (banksBack u who s).strm = s.strm :=
  foldl_keeps State.strm _ (fun t b => by split <;> rfl) _ _

theorem bankOwner_rset (s : State) (u c b : Nat) :
    bankOwner (rset s (BANK_OWNER u c) 0) u b = if b = c then 0 else bankOwner s u b := by
  unfold bankOwner
  by_cases h : b = c
  · rw [if_pos h, h, fld_rset_same _ _ _ rfl]
    rfl
  · rw [if_neg h]
    exact fld_of_rget ((rget_rset _ _ _ _).trans (if_neg (by unfold BANK_OWNER; simp [BANK_OWNER_OWNER]; omega)))

/-- Every bank of the code goes to owner 0, the others keep theirs. -/
theorem bankOwner_banksBack {who b : Nat} (hb : b < 16) :
    bankOwner (banksBack u who s) u b = if bankOwner s u b = who then 0 else bankOwner s u b := by
  have upTo : ∀ n, bankOwner ((List.range n).foldl (fun s b =>
      if bankOwner s u b = who then rset s (BANK_OWNER u b) 0 else s) s) u b =
        if b < n ∧ bankOwner s u b = who then 0 else bankOwner s u b := by
    intro n
    induction n with
    | zero => simp
    | succ n ih =>
      rw [List.range_succ, List.foldl_append, List.foldl_cons, List.foldl_nil]
      generalize (List.range n).foldl _ s = t at ih
      by_cases hbn : b = n
      · subst hbn
        rw [if_neg (by omega)] at ih
        rw [ih]
        by_cases hown : bankOwner s u b = who
        · rw [if_pos hown, bankOwner_rset, if_pos rfl, if_pos ⟨by omega, hown⟩]
        · rw [if_neg hown, ih, if_neg (by tauto)]
      · refine Eq.trans ?_ (ih.trans (if_congr (by omega) rfl rfl))
        split
        · rw [bankOwner_rset, if_neg hbn]
        · rfl
  exact (upTo 16).trans (if_congr (by simp [hb]) rfl rfl)

/-- A channel has closed. -/
structure ChannelClosed (s t : State) (u ch : Nat) : Prop where
  chan   : chan t u ch = closedChan (chan s u ch)
  others : ∀ k, k ≠ chanKey u ch → mget Chan.closed t.strm.chans k = mget Chan.closed s.strm.chans k
  banks  : ∀ b, b < 16 → bankOwner t u b = if bankOwner s u b = 5 + ch then 0 else bankOwner s u b
  words  : WordsKept s t (bankWords u)
  beside : besideChans t = besideChans s

/-- A channel's accesses in flight are given up, and its banks. -/
def banksGiven (u ch : Nat) (s : State) : State :=
  banksBack u (5 + ch) (orphanWhere (fun r => r.chan && decide (r.u = u) && decide (r.c = ch)) s)

/-- The same, with its spill pages. -/
def givenUp (u ch : Nat) (s : State) : State :=
  if (chan s u ch).pages = [] then banksGiven u ch s
  else poolReturn ((plotOf (banksGiven u ch s) u).getD 0) (chan s u ch).pages (banksGiven u ch s)

theorem closeChan_of_open (h : (chan s u ch).st ≠ 0) :
    closeChan u ch s = setChan (givenUp u ch s) u ch (closedChan (chan s u ch)) := by
  have hguard : (!chanOpen (chan s u ch)) ≠ true := by simp [chanOpen, h]
  unfold closeChan
  exact if_neg hguard

theorem closeChan_of_closed (h : (chan s u ch).st = 0) : closeChan u ch s = s := by
  have hguard : (!chanOpen (chan s u ch)) = true := by simp [chanOpen, h]
  unfold closeChan
  exact if_pos hguard

/-- Pages that return change the pool alone. -/
theorem givenUp_keeps {β : Type} (π : State → β) (h : ∀ p l t, π (poolReturn p l t) = π t) :
    π (givenUp u ch s) = π (banksGiven u ch s) := by
  unfold givenUp
  split
  · rfl
  · exact h _ _ _

theorem channelClosed_closeChan (hopen : (chan s u ch).st ≠ 0) : ChannelClosed s (closeChan u ch s) u ch := by
  have hcsr : (givenUp u ch s).csr = (banksGiven u ch s).csr := givenUp_keeps State.csr fun _ _ _ => rfl
  have hchans : (givenUp u ch s).strm.chans = s.strm.chans :=
    (givenUp_keeps (fun t => t.strm.chans) fun _ _ _ => rfl).trans (congrArg StrmSt.chans (strm_banksBack _ _ _))
  have hbeside : besideChans (givenUp u ch s) = besideChans s :=
    (givenUp_keeps besideChans fun _ _ _ => rfl).trans (besideChans_banksBack _ _ _)
  rw [closeChan_of_open hopen]
  refine ⟨by rw [chan_setChan, if_pos rfl], fun k hk => ?_, fun b hb => ?_, fun o ho => ?_, hbeside⟩
  · rw [chans_setChan_ne _ _ _ _ hk, hchans]
  · exact (fld_of_csr hcsr _ _).trans (bankOwner_banksBack hb)
  · exact (rget_of_csr hcsr o).trans (wordsKept_banksBack u (5 + ch) _ o ho)

theorem ChannelClosed.parts {t : State} (h : ChannelClosed s t u ch) : t.mem = s.mem ∧ t.host = s.host ∧ t.out = s.out ∧
    t.core.ctxs = s.core.ctxs ∧ t.pending = s.pending := by
  have hb := h.beside
  simp only [besideChans, State.mk.injEq, CoreSt.mk.injEq] at hb
  tauto

end

/-! ### Routes (R304–R312) -/

section
variable (s : State)

/-- The state but for the streams. -/
def besideStreams (s : State) : State := { s with strm := StrmSt.reset }

/-- A channel but for the credit that its sender has. -/
def creditless (x : Chan) : Chan := { x with grants := 0, arrived := 0, owed := 0, sent := 0 }

theorem besideStreams_dropBranches (f : Nat → Nat → Bool) : besideStreams (dropBranches f s) = besideStreams s := by
  unfold dropBranches
  exact (foldl_keeps besideStreams _ (fun _ _ => by rfl) _ _).trans rfl

theorem chans_dropBranches (f : Nat → Nat → Bool) : (dropBranches f s).strm.chans = s.strm.chans := by
  unfold dropBranches
  exact (foldl_keeps (fun t : State => t.strm.chans) _ (fun _ _ => by rfl) _ _).trans rfl

/-- A route of stream `link` from core `u` without what it carried before (R312). -/
def routeCleared (u link : Nat) (s : State) : State :=
  let cores := routeCores s u link
  let t := dropBranches (fun v l => decide (l = link) && cores.contains v) s
  { t with strm := { t.strm with
    tokens := t.strm.tokens.filter (fun q => !(decide (q.tok.link = link) && cores.contains q.u))
    fwd := mkeep (fun k => !(decide (k % 4096 = link) && cores.contains (k / 4096 / 8))) t.strm.fwd
    gwCredit := cores.foldl (gwLeft s link) s.strm.gwCredit } }

/-- A receiver's credit is the room it has (R312). -/
def grantRoom (s : State) (e : Nat × Nat) : State := updChan s e.1 e.2 fun y =>
  { y with grants := ringSize y.desc - chanFill s e.1 e.2 y + pagesFree y, arrived := 0, owed := 0
           sent := if toRing y.desc then returned s e.1 e.2 y else y.sent }

theorem newSender_eq (u link : Nat) : newSender u link s =
    (routeReceivers (routeCleared u link s) u link).foldl grantRoom (routeCleared u link s) := rfl

theorem creditless_grantRoom (e : Nat × Nat) (v k : Nat) : creditless (chan (grantRoom s e) v k) = creditless (chan s v k) := by
  rw [grantRoom, chan_updChan]
  split
  · next h =>
    have hsame : chan s v k = chan s e.1 e.2 := by unfold chan; rw [h]
    rw [hsame]
    rfl
  · rfl

/-- A new sender of a stream changes the streams alone, and of the channels their credit alone. -/
theorem newSender_keeps (u link : Nat) : besideStreams (newSender u link s) = besideStreams s ∧
    ∀ v k, creditless (chan (newSender u link s) v k) = creditless (chan s v k) := by
  have hbeside : besideStreams (routeCleared u link s) = besideStreams s := besideStreams_dropBranches s _
  have hchan (v k : Nat) : chan (routeCleared u link s) v k = chan s v k :=
    congrArg (mget Chan.closed · (chanKey v k)) (chans_dropBranches s fun v l => decide (l = link) && (routeCores s u link).contains v)
  rw [newSender_eq]
  refine ⟨(foldl_keeps besideStreams grantRoom (fun _ _ => rfl) _ _).trans hbeside, fun v k => ?_⟩
  rw [← hchan v k]
  exact foldl_keeps (fun t => creditless (chan t v k)) grantRoom (fun t e => creditless_grantRoom t e v k) _ _

end

/-! ### FILL (R271, R277) -/

section
variable {s t : State} {u ch : Nat}

theorem sFreeObj_lt (d : W512) : sFreeObj d < 2 ^ 16 := Nat.mod_lt _ (by decide)

/-- What FILL rests on: the registers of the core's banks and of the synchronisation objects. -/
theorem chanFill_of_words (hbank : ∀ b, rget t (BANK_OWNER u b) = rget s (BANK_OWNER u b))
    (hobj : ∀ i, i < 2 ^ 16 → rget t (SYNC_VALUE i) = rget s (SYNC_VALUE i)) (x : Chan) :
    chanFill t u ch x = chanFill s u ch x := by
  have hmine : segMine t u ch x.desc = segMine s u ch x.desc := by
    funext j
    have field (f : Fld) (hf : f.word = 0) (b : Nat) : fld t (BANK_OWNER u b) f = fld s (BANK_OWNER u b) f :=
      fld_of_rget (by rw [hf]; exact hbank b)
    unfold segMine bankOwner
    rw [field BANK_OWNER_OWNER rfl, flag_of_fld (field BANK_OWNER_PENDING rfl _)]
  have hfreed : freed t x = freed s x := by simp only [freed, syncVal, hobj _ (sFreeObj_lt _)]
  simp only [chanFill, hmine, hfreed]

theorem chanFill_of_csr (h : t.csr = s.csr) (x : Chan) : chanFill t u ch x = chanFill s u ch x :=
  chanFill_of_words (fun _ => rget_of_csr h _) (fun _ _ => rget_of_csr h _) x

theorem chanFill_counted (x : Chan) : chanFill (counted u s) u ch x = chanFill s u ch x :=
  chanFill_of_words (fun b => rget_counted s (by unfold BANK_OWNER CORE_BEATS; omega))
    (fun i hi => rget_counted s (by unfold SYNC_VALUE CORE_BEATS; omega)) x

end

end Sys2Proof.Machine
end

section
/-!
PROOFS. SM.OPEN, SM.SAVE and SM.CLOSE (R139, R270, R271, R291, R299): what each makes of its channel, and the rows.
-/
namespace Sys2Proof.Machine
open Sys2Proof

section
variable {s e : State} {u c p ch dd : Nat}

/-! ### A bundle that acts on streams -/

/-- The slots of a bundle have left the contexts, the memories and the waiting commands alone, and of the register words all but
those at `touched`. -/
structure StreamEffect (s e : State) (u : Nat) (touched : List Nat) : Prop where
  ctxs  : e.core.ctxs = s.core.ctxs
  words : WordsKept (counted u s) e touched
  mem   : e.mem = s.mem
  queue : e.pending = s.pending

theorem StreamEffect.ctx {l : List Nat} (h : StreamEffect s e u l) (v d : Nat) : ctx e v d = ctx s v d := by
  unfold Machine.ctx
  rw [h.ctxs]

theorem StreamEffect.updChan {l : List Nat} (h : StreamEffect s e u l) (v k : Nat) (f : Chan → Chan) :
    StreamEffect s (updChan e v k f) u l := ⟨h.ctxs, h.words, h.mem, h.queue⟩

theorem StreamEffect.regsKept {l : List Nat} (h : StreamEffect s e u l) (k : Ctl) : RegsKept s (landed u c k e) u c :=
  regsKept_of_regsOf (regsOf_landed k (by rw [h.ctx]))

theorem StreamEffect.issues {l : List Nat} (h : StreamEffect s e u l) (hb : CORE_BEATS u ∉ l)
    (hready : (Machine.ctx s u c).st = .ready) : Issues s (landed u c (straightOn (Machine.ctx s u c)) e) u c l := by
  refine ⟨fun v d hv => (ctx_landed_other _ e hv).trans (h.ctx v d), ?_, ?_, ?_, fun o ho => ?_,
    (pending_landed _ e).trans h.queue⟩
  · rw [ctx_landed_same]
    rfl
  · rw [ctx_landed_same, h.ctx]
    exact hready
  · rw [fld_landed, h.words.fld hb, fld_beats_counted]
  · rw [List.mem_cons, not_or] at ho
    rw [rget_landed, h.words o ho.2, rget_counted s ho.1]

/-- The beat that counts, and a change of streams after it. -/
theorem streamEffect_of_beside (h : besideStreams e = besideStreams (counted u s)) : StreamEffect s e u [] := by
  simp only [besideStreams, State.mk.injEq] at h
  obtain ⟨hcore, hcsr, hmem, hpending⟩ :
      e.core = (counted u s).core ∧ e.csr = (counted u s).csr ∧ e.mem = (counted u s).mem ∧
      e.pending = (counted u s).pending := by tauto
  exact ⟨by rw [hcore, bumpFld_core], wordsKept_of_csr hcsr [], by rw [hmem, bumpFld_mem], by rw [hpending, bumpFld_pending]⟩

theorem beats_not_bankWords (u : Nat) : CORE_BEATS u ∉ bankWords u := by
  simp only [bankWords, List.mem_map, List.mem_range, not_exists, not_and, BANK_OWNER, CORE_BEATS]
  omega

theorem streamEffect_of_closed (h : ChannelClosed (counted u s) e u ch) : StreamEffect s e u (bankWords u) := by
  obtain ⟨hmem, -, -, hctxs, hpending⟩ := h.parts
  exact ⟨by rw [hctxs, bumpFld_core], h.words, by rw [hmem, bumpFld_mem], by rw [hpending, bumpFld_pending]⟩

/-- The row of an instruction in slot M that acts on streams. -/
theorem Lone.row_stream {i : Instr} {l : List Nat} (h : Lone s u c .M i) (hp : privNeeded (privOf s u c) i = true)
    (hw : waitOf s u c i = none) (hown : ownFault s u c i = none) (he : effM (counted u s) u c i (counted u s) = e)
    (heff : StreamEffect s e u l) : exec i s = .next (landed u c (straightOn (Machine.ctx s u c)) e) :=
  h.rowM hp hw hown he (by rw [heff.ctx]; exact h.goesOn)

theorem chan_counted (v k : Nat) : chan (counted u s) v k = chan s v k := chan_of_strm (bumpFld_strm s _ _ _) v k

theorem chan_landed (k : Ctl) (v j : Nat) : chan (landed u c k e) v j = chan e v j := chan_of_strm (strm_landed k e) v j

/-! ### SM.OPEN -/

/-- What a newly opened channel holds, whatever credit its route gives it (R270, R299). -/
structure Opened (c pc : Nat) (d : W512) (x : Chan) : Prop where
  st     : x.st = 1
  owner  : x.owner = c
  openPc : x.openPc = pc
  desc   : x.desc = setBits d 448 64 0
  acc    : x.acc = sPos d - sFill d
  drained : x.drained = sPos d - sFill d
  issued : x.issued = sPos d - sFill d
  haltAt : x.haltAt = none

/-- The credit of a channel is no part of how it was opened. -/
theorem Opened.of_creditless {pc : Nat} {d : W512} {x y : Chan} (h : Opened c pc d x) (hxy : creditless y = creditless x) :
    Opened c pc d y := by
  simp only [creditless, Chan.mk.injEq] at hxy
  obtain ⟨hst, howner, hpc, hdesc, -, hacc, hdrained, hissued, hhalt, -⟩ := hxy
  exact ⟨hst.trans h.st, howner.trans h.owner, hpc.trans h.openPc, hdesc.trans h.desc, hacc.trans h.acc,
    hdrained.trans h.drained, hissued.trans h.issued, hhalt.trans h.haltAt⟩

/-- The channel that SM.OPEN makes of descriptor `d` (R270, R299). -/
def openedChan (s : State) (u c ch pc : Nat) (d : W512) : Chan :=
  { Chan.closed with
    st := 1, owner := c, openPc := pc, desc := setBits d 448 64 0, base := sPos d - sFill d, acc := sPos d - sFill d
    drained := sPos d - sFill d, issued := sPos d - sFill d
    r0 := syncVal s (sFreeObj d), ema := firstRate s d, stamp := (chan s u ch).stamp, stalled := (chan s u ch).stalled
    poisoned := (chan s u ch).poisoned, code := (chan s u ch).code, pageWaits := (chan s u ch).pageWaits
    stalls := (chan s u ch).stalls
    grants := if fromLink d then fwdOf s u 4 (sLink d) + ringSize d else 0
    arrived := if fromLink d then fwdOf s u 4 (sLink d) else 0
    lastDrain := paceTime s, spillOk := sSpill d }

theorem openChan_eq (pc : Nat) (d : W512) (s : State) : openChan u c ch pc d s =
    if toLink d then newSender u (sLink d) (setChan s u ch (openedChan s u c ch pc d))
    else setChan s u ch (openedChan s u c ch pc d) := rfl

theorem opened_openedChan (pc : Nat) (d : W512) (s : State) : Opened c pc d (openedChan s u c ch pc d) := by
  constructor <;> dsimp only [openedChan, Chan.closed]

theorem opened_openChan (pc : Nat) (d : W512) (s : State) : Opened c pc d (chan (openChan u c ch pc d s) u ch) ∧
    besideStreams (openChan u c ch pc d s) = besideStreams s ∧
    (toLink d = false → ∀ k, k ≠ chanKey u ch →
      mget Chan.closed (openChan u c ch pc d s).strm.chans k = mget Chan.closed s.strm.chans k) := by
  have hx : Opened c pc d (openedChan s u c ch pc d) := opened_openedChan pc d s
  rw [openChan_eq]
  generalize openedChan s u c ch pc d = x at hx
  have hchan : chan (setChan s u ch x) u ch = x := (chan_setChan s u ch x u ch).trans (if_pos rfl)
  by_cases hlink : toLink d = true
  · rw [if_pos hlink]
    obtain ⟨hbeside, hcredit⟩ := newSender_keeps (setChan s u ch x) u (sLink d)
    exact ⟨hx.of_creditless ((hcredit u ch).trans (by rw [hchan])), hbeside, fun h => absurd hlink (by simp [h])⟩
  · rw [if_neg hlink]
    exact ⟨hchan.symm ▸ hx, rfl, fun _ k hk => chans_setChan_ne s u ch x hk⟩

theorem Lone.row_smOpen (h : Lone s u c .M (.smOpen u p ch dd))
    (hok : openFault s u ch (chanOpen (chan s u ch)) (dr (Machine.ctx s u c) dd) = none) :
    Runs (.smOpen u p ch dd) s fun t => Opened c (Machine.ctx s u c).pc (dr (Machine.ctx s u c) dd) (chan t u ch) ∧
      (toLink (dr (Machine.ctx s u c) dd) = false → ∀ k, k ≠ chanKey u ch →
        mget Chan.closed t.strm.chans k = mget Chan.closed s.strm.chans k) ∧
      RegsKept s t u c ∧ Issues s t u c [] ∧ t.mem = s.mem := by
  have he : effM (counted u s) u c (.smOpen u p ch dd) (counted u s) =
      openChan u c ch (Machine.ctx s u c).pc (dr (Machine.ctx s u c) dd) (counted u s) := by simp only [effM, ctx_counted]
  obtain ⟨hopened, hbeside, hothers⟩ := opened_openChan (u := u) (c := c) (ch := ch) (Machine.ctx s u c).pc
    (dr (Machine.ctx s u c) dd) (counted u s)
  have heff := streamEffect_of_beside hbeside
  refine ⟨_, h.row_stream rfl rfl hok he heff, by rw [chan_landed]; exact hopened, fun hlink k hk => ?_, heff.regsKept _,
    heff.issues List.not_mem_nil h.ready, by rw [mem_landed, heff.mem]⟩
  rw [strm_landed, hothers hlink k hk, bumpFld_strm]

/-! ### SM.SAVE -/

/-- Nothing is due to the descriptors of a bundle that stands alone, so its result is written at once (R226). -/
theorem Alone.writeD {sl : Slot} {i : Instr} (h : Alone s u c sl i) (r : Nat) (v : W512) :
    Machine.writeD u c r v (counted u s) = updCtx (counted u s) u c fun x => setD x r v := by
  unfold Machine.writeD writeNow
  rw [outstandingRegs_counted, h.nothingDue]
  rfl

theorem GoesOn.setD {x : Ctx} (h : GoesOn x) (r : Nat) (v : W512) : GoesOn (Machine.setD x r v) :=
  ⟨h.sound, h.loaded, h.noStep⟩

theorem regs_setD (x : Ctx) (r : Nat) (v : W512) (q : Nat) :
    sr (setD x r v) q = sr x q ∧ vr (setD x r v) q = vr x q ∧ pr (setD x r v) q = pr x q := ⟨rfl, rfl, rfl⟩

theorem liveDesc_counted : liveDesc (counted u s) u ch = liveDesc s u ch := by
  simp only [liveDesc, chan_counted, chanFill_counted]

/-- The row of an instruction in slot M that writes descriptor register `r`. -/
theorem Lone.row_desc {i : Instr} (h : Lone s u c .M i) (hp : privNeeded (privOf s u c) i = true) (hw : waitOf s u c i = none)
    (hown : ownFault s u c i = none) {r : Nat} {v : W512}
    (he : effM (counted u s) u c i (counted u s) = Machine.writeD u c r v (counted u s)) : Runs i s fun t =>
    (∀ q, dr (Machine.ctx t u c) q = if q = r then v else dr (Machine.ctx s u c) q) ∧
    (∀ q, sr (Machine.ctx t u c) q = sr (Machine.ctx s u c) q ∧ vr (Machine.ctx t u c) q = vr (Machine.ctx s u c) q ∧
      pr (Machine.ctx t u c) q = pr (Machine.ctx s u c) q) ∧
    Issues s t u c [] ∧ t.mem = s.mem ∧ t.strm = s.strm := by
  rw [h.toAlone.writeD] at he
  have hact := (ownEffect_counted s u c).upd fun x => setD x r v
  have hframe := hact.coreFrame List.not_mem_nil (straightOn (Machine.ctx s u c))
  obtain ⟨-, -, hstrm, -⟩ := hframe.blocks
  have hctx := ctx_landed_upd s u c (straightOn (Machine.ctx s u c)) fun x => setD x r v
  refine ⟨_, h.rowM hp hw hown he (by rw [ctx_upd_counted]; exact h.goesOn.setD _ _), fun q => ?_, fun q => ?_,
    hact.issues List.not_mem_nil (by rw [ctx_upd_counted]; exact h.ready), hframe.mem, hstrm⟩
  · rw [hctx]
    exact dr_setD (Machine.ctx s u c) r q v
  · rw [hctx]
    exact regs_setD (Machine.ctx s u c) r v q

/-! ### SM.CLOSE -/

/-- A write channel that SM.CLOSE sets draining (R291). -/
def drains (x : Chan) : Bool := writeChan x.desc && (decide (x.st = 1) || decide (x.st = 2) || decide (x.st = 4))

theorem effClose_drains (h : drains (chan s u ch) = true) :
    effClose u ch s = updChan s u ch fun x => { x with st := 5 } := if_pos h

theorem effClose_closing (h : (chan s u ch).st = 5) : effClose u ch s = s := by
  have hno : drains (chan s u ch) = false := by simp [drains, h]
  exact (if_neg (ne_true_of_eq_false hno)).trans (if_pos h)

theorem effClose_closes (hno : drains (chan s u ch) = false) (h : (chan s u ch).st ≠ 5) :
    effClose u ch s = closeChan u ch s :=
  (if_neg (ne_true_of_eq_false hno)).trans (if_neg h)

/-- What SM.CLOSE makes of a channel `x` (R291). -/
structure CloseTaken (s e : State) (u ch : Nat) (x : Chan) : Prop where
  drains  : drains x = true → chan e u ch = { x with st := 5 }
  closing : x.st = 5 → chan e u ch = x
  closes  : x.st ≠ 0 → x.st ≠ 5 → Machine.drains x = false → (chan e u ch).st = 0 ∧
    ∀ b, b < 16 → bankOwner e u b = if bankOwner s u b = 5 + ch then 0 else bankOwner s u b
  others  : ∀ k, k ≠ chanKey u ch → mget Chan.closed e.strm.chans k = mget Chan.closed s.strm.chans k

theorem bankOwner_counted (b : Nat) : bankOwner (counted u s) u b = bankOwner s u b :=
  fld_of_rget (rget_counted s (by unfold BANK_OWNER CORE_BEATS; simp [BANK_OWNER_OWNER]; omega))

theorem closeTaken_effClose : CloseTaken s (effClose u ch (counted u s)) u ch (chan s u ch) ∧
    StreamEffect s (effClose u ch (counted u s)) u (bankWords u) := by
  have hx : chan (counted u s) u ch = chan s u ch := chan_counted u ch
  have hsame : StreamEffect s (counted u s) u (bankWords u) :=
    ⟨by rw [bumpFld_core], fun _ _ => rfl, bumpFld_mem s _ _ _, bumpFld_pending s _ _ _⟩
  by_cases hd : drains (chan s u ch) = true
  · have hne : (chan s u ch).st ≠ 5 := fun h => by simp [drains, h] at hd
    rw [effClose_drains (by rw [hx]; exact hd)]
    refine ⟨⟨fun _ => ?_, fun h => absurd h hne, fun _ _ h => absurd hd (by simp [h]), fun k hk => ?_⟩,
      hsame.updChan _ _ _⟩
    · rw [chan_updChan_same, hx]
    · rw [updChan, chans_setChan_ne _ _ _ _ hk, bumpFld_strm]
  · have hno : drains (chan s u ch) = false := by simpa using hd
    by_cases hfive : (chan s u ch).st = 5
    · rw [effClose_closing (by rw [hx]; exact hfive)]
      exact ⟨⟨fun h => absurd h hd, fun _ => hx, fun _ h => absurd hfive h, fun k _ => by rw [bumpFld_strm]⟩, hsame⟩
    · rw [effClose_closes (by rw [hx]; exact hno) (by rw [hx]; exact hfive)]
      by_cases hopen : (chan s u ch).st = 0
      · rw [closeChan_of_closed (by rw [hx]; exact hopen)]
        exact ⟨⟨fun h => absurd h hd, fun h => absurd h hfive, fun h => absurd hopen h, fun k _ => by rw [bumpFld_strm]⟩, hsame⟩
      · have hclosed := channelClosed_closeChan (s := counted u s) (u := u) (ch := ch) (by rw [hx]; exact hopen)
        refine ⟨⟨fun h => absurd h hd, fun h => absurd h hfive, fun _ _ _ => ⟨by rw [hclosed.chan]; rfl, fun b hb => ?_⟩,
          fun k hk => ?_⟩, streamEffect_of_closed hclosed⟩
        · rw [hclosed.banks b hb, bankOwner_counted]
        · rw [hclosed.others k hk, bumpFld_strm]

theorem Lone.row_smClose (h : Lone s u c .M (.smClose u p ch)) : Runs (.smClose u p ch) s fun t =>
    RegsKept s t u c ∧ Issues s t u c (bankWords u) ∧ t.mem = s.mem ∧ CloseTaken s t u ch (chan s u ch) := by
  obtain ⟨⟨hdrains, hclosing, hcloses, hothers⟩, heff⟩ := closeTaken_effClose (s := s) (u := u) (ch := ch)
  have hbank (k : Ctl) (e : State) (b : Nat) : bankOwner (landed u c k e) u b = bankOwner e u b := fld_landed u c k e _ _
  refine ⟨_, h.row_stream (e := effClose u ch (counted u s)) rfl rfl rfl rfl heff, heff.regsKept _,
    heff.issues (beats_not_bankWords u) h.ready,
    by rw [mem_landed, heff.mem], ?_⟩
  constructor <;> simp only [chan_landed, strm_landed, hbank]
  · exact hdrains
  · exact hclosing
  · exact hcloses
  · exact hothers

end

/-- Settles O18: SM.OPEN by the channel that `openChan` makes, SM.SAVE by the descriptor it writes, SM.CLOSE by its three
cases. -/
theorem channelsOpenSaveAndClose : Obligations.ChannelsOpenSaveAndClose := by
  rintro s u c p ch dd x d rfl rfl
  refine ⟨fun h hok => (h.row_smOpen hok).mono ?_,
    fun h => h.row_desc rfl rfl rfl (congrArg (writeD u c dd · (counted u s)) liveDesc_counted), fun h => h.row_smClose.mono ?_⟩
  · rintro t ⟨⟨hst, howner, hpc, hdesc, hacc, hdrained, hissued, hhalt⟩, hothers, hregs, hissues, hmem⟩
    exact ⟨hst, howner, hpc, hdesc, hacc, hdrained, hissued, hhalt, hothers, hregs, hissues, hmem⟩
  · rintro t ⟨hregs, hissues, hmem, hdrains, hclosing, hcloses, hothers⟩
    refine ⟨hregs, hissues, hmem, fun hw hst => hdrains ?_, hclosing, fun hopen hfive hread => hcloses hopen hfive ?_, hothers⟩
    · rcases hst with h | h | h <;> simp [drains, hw, h]
    · rcases hread with h | h <;> simp [drains, h]

end Sys2Proof.Machine
end

section
/-!
PROOFS. Registers below the core pages, and an object's add by a unit (R191, R279, R355–R357): what each leaves alone.
-/
namespace Sys2Proof.Machine
open Sys2Proof

section
variable {s t v : State} {u ch i : Nat}

/-! ### Registers below the core pages -/

/-- Every register word below the core pages keeps its value. -/
def LowKept (s t : State) : Prop := ∀ o, o < 0x1000000 → rget t o = rget s o

theorem LowKept.trans (h : LowKept s t) (h' : LowKept t v) : LowKept s v := fun o ho => (h' o ho).trans (h o ho)

theorem lowKept_of_csr (h : t.csr = s.csr) : LowKept s t := fun o _ => rget_of_csr h o

theorem WordsKept.low {l : List Nat} (h : WordsKept s t l) (hl : ∀ o ∈ l, 0x1000000 ≤ o) : LowKept s t :=
  fun o ho => h o fun hmem => absurd (hl o hmem) (by omega)

theorem LowKept.fld (h : LowKept s t) {r : Nat} {f : Fld} (hr : r + 8 * f.word < 0x1000000) :
    Machine.fld t r f = Machine.fld s r f := fld_of_rget (h _ hr)

theorem plotOf_lt {p : Nat} (h : plotOf s u = some p) : p < 64 := by
  unfold plotOf at h
  split at h
  · cases h
  · exact List.mem_range.mp (List.mem_of_find?_eq_some h)

/-- The registers of the plots' places and modes keep their values. -/
def PlotsKept (s t : State) : Prop := ∀ p, p < 64 → rget t (PLOT_CFG p) = rget s (PLOT_CFG p)

theorem LowKept.plots (h : LowKept s t) : PlotsKept s t := fun p hp => h _ (by unfold PLOT_CFG; omega)

theorem PlotsKept.plotOf (h : PlotsKept s t) (u : Nat) : plotOf t u = plotOf s u := by
  unfold Machine.plotOf
  split
  · rfl
  · refine List.find?_congr fun p hp => ?_
    have field (f : Fld) (hf : f.word = 0) : Machine.fld t (PLOT_CFG p) f = Machine.fld s (PLOT_CFG p) f :=
      fld_of_rget (by rw [hf]; exact h p (List.mem_range.mp hp))
    simp only [inPlot, plotValid, inRect, Machine.flag, field PLOT_CFG_VALID rfl, field PLOT_CFG_ROW0 rfl,
      field PLOT_CFG_HEIGHT rfl, field PLOT_CFG_COL0 rfl, field PLOT_CFG_WIDTH rfl]

/-- The mode of a channel is a matter of its descriptor and of `PLOT_CFG` (R298). -/
theorem PlotsKept.abortMode (h : PlotsKept s t) (u : Nat) (d : W512) : abortMode t u d = abortMode s u d := by
  unfold Machine.abortMode
  rw [h.plotOf]
  split
  · rfl
  · cases hp : Machine.plotOf s u with
    | none => rfl
    | some p => exact flag_of_fld (fld_of_rget (h p (plotOf_lt hp)))
  · rfl

/-! ### The add of a unit -/

/-- An add of 1 by unit `u` to object `i` takes effect where it is permitted and fits (R279, R356). -/
def Adds (u i : Nat) (s t : State) : Prop :=
  syncMay s i (askerOf s u) = true → syncAbandoned s i = false → syncVal s i + 1 < 2 ^ 64 → syncVal t i = syncVal s i + 1

theorem Adds.after (h : Adds u i t v) (hst : LowKept s t) (hi : i < 2 ^ 16) : Adds u i s v := by
  have hval : syncVal t i = syncVal s i := by unfold syncVal; rw [hst _ (by unfold SYNC_VALUE; omega)]
  have hctl (f : Fld) (hf : f.word = 0) : syncCtl t i f = syncCtl s i f := hst.fld (by unfold SYNC_CTRL; omega)
  have hmay : syncMay t i (askerOf t u) = syncMay s i (askerOf s u) := by
    simp only [syncMay, askerOf, hst.plots.plotOf, hctl SYNC_CTRL_OWNED rfl, hctl SYNC_CTRL_OPEN rfl, hctl SYNC_CTRL_PLOT rfl]
  have habandoned : syncAbandoned t i = syncAbandoned s i := by simp only [syncAbandoned, hctl SYNC_CTRL_ABANDONED rfl]
  unfold Adds at h
  rwa [hval, hmay, habandoned] at h

theorem Adds.before (h : Adds u i s t) (htv : LowKept t v) (hi : i < 2 ^ 16) : Adds u i s v := fun hmay hab hlt => by
  rw [← h hmay hab hlt]
  unfold syncVal
  rw [htv _ (by unfold SYNC_VALUE; omega)]

theorem syncAdd_of_may {a : Asker} (hmay : syncMay s i a = true) (hab : syncAbandoned s i = false)
    (hlt : syncVal s i + 1 < 2 ^ 64) :
    syncAdd i 1 a s = (0, wakeMet i (rset s (SYNC_VALUE i) (BitVec.ofNat 64 (syncVal s i + 1)))) := by
  unfold syncAdd
  rw [if_neg (by simp [hmay]), if_neg (by simp [hab])]
  exact if_pos hlt

theorem unitAdd_of_may (hmay : syncMay s i (askerOf s u) = true) (hab : syncAbandoned s i = false)
    (hlt : syncVal s i + 1 < 2 ^ 64) :
    unitAdd u i s = wakeMet i (rset s (SYNC_VALUE i) (BitVec.ofNat 64 (syncVal s i + 1))) := by
  unfold unitAdd
  rw [syncAdd_of_may hmay hab hlt]
  rfl

theorem adds_unitAdd (u i : Nat) (s : State) : Adds u i s (unitAdd u i s) := fun hmay hab hlt => by
  have hkept := wordsKept_wakeWhere i (fun w => decide (w.thr.toNat ≤
    syncVal (rset s (SYNC_VALUE i) (BitVec.ofNat 64 (syncVal s i + 1))) i)) 0
      (rset s (SYNC_VALUE i) (BitVec.ofNat 64 (syncVal s i + 1)))
  have hfar : SYNC_VALUE i ∉ [SYNC_CTRL i] := by simp [SYNC_VALUE, SYNC_CTRL]
  rw [unitAdd_of_may hmay hab hlt, syncVal, wakeMet, hkept _ hfar, rget_rset_same, BitVec.toNat_ofNat, Nat.mod_eq_of_lt hlt]

theorem strm_wakeWhere (i : Nat) (f : Waiter → Bool) (st : W64) (s : State) : (wakeWhere i f st s).strm = s.strm := by
  unfold wakeWhere syncCount
  rw [setFld_strm]
  exact foldl_keeps State.strm _ (fun t w => by unfold wakeOne; split <;> rfl) _ _

theorem strm_unitAdd (u i : Nat) (s : State) : (unitAdd u i s).strm = s.strm := by
  have hadd : (syncAdd i 1 (askerOf s u) s).2.strm = s.strm := by
    unfold syncAdd
    split
    · rfl
    · split
      · rfl
      · dsimp only
        split <;> exact strm_wakeWhere _ _ _ _
  unfold unitAdd
  generalize syncAdd i 1 (askerOf s u) s = r at hadd
  split <;> exact hadd

/-- An add leaves the channels, the cores, the memories and all registers but those of its object alone. -/
theorem unitAdd_keeps (u i : Nat) (s : State) : (unitAdd u i s).strm = s.strm ∧ (unitAdd u i s).mem = s.mem ∧
    WordsKept s (unitAdd u i s) [SYNC_VALUE i, SYNC_CTRL i] := by
  obtain ⟨hkept, hwords⟩ := objectChanged_unitAdd u i s
  exact ⟨strm_unitAdd u i s, (Prod.mk.inj hkept).2, hwords⟩

end

end Sys2Proof.Machine
end

section
/-!
PROOFS. Segments, completion and closing (R276, R277, R279, R291): what publishing a segment, completing a stream and delivering
the last byte of a closing channel leave.
-/
namespace Sys2Proof.Machine
open Sys2Proof

section
variable {s t : State} {u ch : Nat}

theorem sFillObj_lt (d : W512) : sFillObj d < 2 ^ 16 := Nat.mod_lt _ (by decide)

/-- A core's channel has its row. -/
theorem runs_of_channel {i : Instr} {f : State → State} (hu : u < 25600) (hch : ch < 4)
    (hexec : exec i s = runIf (decide (u < nCores) && decide (ch < 4)) (f s)) : exec i s = .next (f s) :=
  hexec.trans (runIf_of (by simp [nCores, hu, hch]) _)

/-- Where no byte waits in a channel's pages, the ring takes none from there. -/
theorem refill_of_unspilled (h : (chan s u ch).spIn = (chan s u ch).spOut) : refill u ch s = s := by
  have hnone : spilled (chan s u ch) = 0 := by rw [spilled, h, Nat.sub_self]
  have hzero : ((chan s u ch).haltAt.map fun _ => 0).getD 0 = 0 := by
    cases (chan s u ch).haltAt <;> rfl
  unfold refill
  simp only [hnone, Nat.zero_min, hzero]
  exact if_pos rfl

/-! ### SEGMENT_PUBLISH -/

/-- The oldest segment's bank goes to HANDOFF, where the ring lies in scratch (R276). -/
def handedOver (u : Nat) (d : W512) (j : Nat) (s : State) : State :=
  if ringInScratch d then rset s (BANK_OWNER u (segBank d j)) (BitVec.ofNat 64 (sHandoff d)) else s

/-- The segment is the last one of a finite stream (R279). -/
def lastSegment (x : Chan) : Bool := atEnd x.desc x.acc && decide (x.acc ≤ (seg0 x + x.pubs + 1) * segSize x.desc)

/-- The channel once its oldest segment is published. -/
def publishedChan (last : Bool) (x : Chan) : Chan :=
  { x with pubs := x.pubs + 1, stall := 0, raised := false, ended := x.ended || last
           st := if last = true ∧ x.st = 1 then 4 else x.st }

theorem publish_of_full (hst : (chan s u ch).st = 1) (hring : toRing (chan s u ch).desc = true)
    (hspill : (chan s u ch).spIn = (chan s u ch).spOut)
    (hfull : segFull (chan s u ch) (seg0 (chan s u ch) + (chan s u ch).pubs) = true)
    (hmine : ringInScratch (chan s u ch).desc = true →
      segMine s u ch (chan s u ch).desc (seg0 (chan s u ch) + (chan s u ch).pubs) = true) :
    publish u ch s = unitAdd u (sFillObj (chan s u ch).desc)
      (updChan (handedOver u (chan s u ch).desc (seg0 (chan s u ch) + (chan s u ch).pubs) s) u ch
        (publishedChan (lastSegment (chan s u ch)))) := by
  have hheld : (ringInScratch (chan s u ch).desc &&
      !segMine s u ch (chan s u ch).desc (seg0 (chan s u ch) + (chan s u ch).pubs)) = false := by
    cases hr : ringInScratch (chan s u ch).desc with
    | false => rfl
    | true => simp [hmine hr]
  unfold publish
  rw [refill_of_unspilled hspill]
  refine (if_neg (by simp [hst, hring, hfull])).trans ((if_neg (by rw [hheld]; exact Bool.false_ne_true)).trans ?_)
  rfl

theorem handedOver_keeps (d : W512) (j : Nat) (s : State) : (handedOver u d j s).strm = s.strm ∧
    (handedOver u d j s).mem = s.mem ∧ LowKept s (handedOver u d j s) := by
  unfold handedOver
  split
  · exact ⟨rfl, rfl, (wordsKept_rset s _ _).low fun o ho => by rw [List.mem_singleton.mp ho]; unfold BANK_OWNER; omega⟩
  · exact ⟨rfl, rfl, fun _ _ => rfl⟩

theorem sHandoff_lt (d : W512) : sHandoff d < 16 := Nat.mod_lt _ (by decide)

theorem bankOwner_handedOver {d : W512} (h : ringInScratch d = true) (j : Nat) (s : State) :
    bankOwner (handedOver u d j s) u (segBank d j) = sHandoff d := by
  have hlt := sHandoff_lt d
  rw [handedOver, if_pos h, bankOwner, fld_rset_same _ _ _ rfl]
  simp only [fget, bitsOf, BANK_OWNER_OWNER, BitVec.toNat_ofNat, Nat.shiftRight_zero]
  omega

/-- SEGMENT_PUBLISH of a segment that is there. -/
theorem published (hst : (chan s u ch).st = 1) (hring : toRing (chan s u ch).desc = true)
    (hspill : (chan s u ch).spIn = (chan s u ch).spOut)
    (hfull : segFull (chan s u ch) (seg0 (chan s u ch) + (chan s u ch).pubs) = true)
    (hmine : ringInScratch (chan s u ch).desc = true →
      segMine s u ch (chan s u ch).desc (seg0 (chan s u ch) + (chan s u ch).pubs) = true) :
    chan (publish u ch s) u ch = publishedChan (lastSegment (chan s u ch)) (chan s u ch) ∧
    Adds u (sFillObj (chan s u ch).desc) s (publish u ch s) ∧ (publish u ch s).mem = s.mem ∧
    (ringInScratch (chan s u ch).desc = true →
      bankOwner (publish u ch s) u (segBank (chan s u ch).desc (seg0 (chan s u ch) + (chan s u ch).pubs)) =
        sHandoff (chan s u ch).desc) := by
  rw [publish_of_full hst hring hspill hfull hmine]
  generalize seg0 (chan s u ch) + (chan s u ch).pubs = j
  obtain ⟨hstrm, hmem, hlow⟩ := handedOver_keeps (u := u) (chan s u ch).desc j s
  have hhere : chan (handedOver u (chan s u ch).desc j s) u ch = chan s u ch := chan_of_strm hstrm u ch
  have hobj := sFillObj_lt (chan s u ch).desc
  generalize hafter : updChan (handedOver u (chan s u ch).desc j s) u ch (publishedChan (lastSegment (chan s u ch))) = t
  obtain ⟨hstrm', hmem', hwords⟩ := unitAdd_keeps u (sFillObj (chan s u ch).desc) t
  refine ⟨?_, (adds_unitAdd u _ t).after (hlow.trans (lowKept_of_csr (by rw [← hafter]; rfl))) hobj, ?_, fun hscratch => ?_⟩
  · rw [chan_of_strm hstrm', ← hafter, chan_updChan_same, hhere]
  · rw [hmem', ← hafter, updChan_mem, hmem]
  · have hfar : BANK_OWNER u (segBank (chan s u ch).desc j) + 8 * BANK_OWNER_OWNER.word ∉
        [SYNC_VALUE (sFillObj (chan s u ch).desc), SYNC_CTRL (sFillObj (chan s u ch).desc)] := by
      simp only [BANK_OWNER, SYNC_VALUE, SYNC_CTRL, List.mem_cons, List.not_mem_nil, or_false]
      omega
    refine (hwords.fld hfar).trans ?_
    rw [← bankOwner_handedOver hscratch j s, ← hafter]
    exact fld_of_csr rfl _ _

/-! ### STREAM_COMPLETE and CHANNEL_CLOSE_DONE -/

/-- What the add of a stream that completes leaves (R279). -/
structure EndKept (u ch : Nat) (s t : State) : Prop where
  state : (chan t u ch).st = (chan s u ch).st
  mem   : t.mem = s.mem
  words : WordsKept s t [SYNC_VALUE (sFillObj (chan s u ch).desc), SYNC_CTRL (sFillObj (chan s u ch).desc)]

/-- The same, with the add where it is due. -/
structure EndAdded (u ch : Nat) (s t : State) : Prop extends EndKept u ch s t where
  adds  : sSyncEn (chan s u ch).desc = true → toRing (chan s u ch).desc = false → (chan s u ch).ended = false →
    Adds u (sFillObj (chan s u ch).desc) s t

theorem endAdd_of_done (h : (chan s u ch).ended = true ∨ toRing (chan s u ch).desc = true) : endAdd u ch s = s := by
  unfold endAdd
  exact if_pos (by simpa using h)

theorem endAdd_of_open (hended : (chan s u ch).ended = false) (hring : toRing (chan s u ch).desc = false) :
    endAdd u ch s = if sSyncEn (chan s u ch).desc then
      unitAdd u (sFillObj (chan s u ch).desc) (updChan s u ch fun x => { x with ended := true })
    else updChan s u ch fun x => { x with ended := true } := by
  unfold endAdd
  exact if_neg (by simp [hended, hring])

theorem endAdded_endAdd (u ch : Nat) (s : State) : EndAdded u ch s (endAdd u ch s) := by
  by_cases hdone : (chan s u ch).ended = true ∨ toRing (chan s u ch).desc = true
  · rw [endAdd_of_done hdone]
    exact ⟨⟨rfl, rfl, fun _ _ => rfl⟩, fun _ hring hended => absurd hdone (by simp [hring, hended])⟩
  · rw [not_or, Bool.not_eq_true, Bool.not_eq_true] at hdone
    rw [endAdd_of_open hdone.1 hdone.2]
    have hchan : (chan (updChan s u ch fun x => { x with ended := true }) u ch).st = (chan s u ch).st := by
      rw [chan_updChan_same]
    split
    · obtain ⟨hstrm, hmem, hwords⟩ := unitAdd_keeps u (sFillObj (chan s u ch).desc)
        (updChan s u ch fun x => { x with ended := true })
      exact ⟨⟨by rw [chan_of_strm hstrm, hchan], hmem, hwords⟩,
        fun _ _ _ => (adds_unitAdd u _ _).after (lowKept_of_csr rfl) (sFillObj_lt _)⟩
    · next hsync => exact ⟨⟨hchan, rfl, fun _ _ => rfl⟩, fun h => absurd h hsync⟩

theorem complete_of_end (hst : (chan s u ch).st = 1) (hring : toRing (chan s u ch).desc = false)
    (hend : atEnd (chan s u ch).desc (chan s u ch).drained = true) :
    complete u ch s = endAdd u ch (updChan s u ch fun x => { x with st := 4 }) := by
  have hfin : finished (chan s u ch) = true := by rw [finished, hring]; exact hend
  unfold complete
  exact if_neg (by simp [hst, hfin])

theorem completed (hst : (chan s u ch).st = 1) (hring : toRing (chan s u ch).desc = false)
    (hend : atEnd (chan s u ch).desc (chan s u ch).drained = true) : (chan (complete u ch s) u ch).st = 4 ∧
    (sSyncEn (chan s u ch).desc = true → (chan s u ch).ended = false → Adds u (sFillObj (chan s u ch).desc) s (complete u ch s)) ∧
    (complete u ch s).mem = s.mem := by
  rw [complete_of_end hst hring hend]
  obtain ⟨⟨hstate, hmem, -⟩, hadds⟩ := endAdded_endAdd u ch (updChan s u ch fun x => { x with st := 4 })
  rw [chan_updChan_same] at hstate hadds
  exact ⟨hstate, fun hsync hended => (hadds hsync hring hended).after (lowKept_of_csr rfl) (sFillObj_lt _), hmem⟩

theorem bankWords_high (u : Nat) : ∀ o ∈ bankWords u, 0x1000000 ≤ o := by
  simp only [bankWords, List.mem_map, List.mem_range]
  rintro o ⟨b, -, rfl⟩
  unfold BANK_OWNER
  omega

/-- A channel closes after the add that its stream may be due. -/
theorem EndKept.closed (h : EndKept u ch s t) (hst : (chan s u ch).st ≠ 0) : (chan (closeChan u ch t) u ch).st = 0 ∧
    (closeChan u ch t).mem = s.mem ∧ LowKept t (closeChan u ch t) ∧
    ∀ b, b < 16 → bankOwner s u b = 5 + ch → bankOwner (closeChan u ch t) u b = 0 := by
  have hclosed := channelClosed_closeChan (s := t) (u := u) (ch := ch) (by rw [h.state]; exact hst)
  obtain ⟨hmem, -⟩ := hclosed.parts
  refine ⟨by rw [hclosed.chan]; rfl, hmem.trans h.mem, hclosed.words.low (bankWords_high u), fun b hb hown => ?_⟩
  have hobj := sFillObj_lt (chan s u ch).desc
  have hfar : BANK_OWNER u b + 8 * BANK_OWNER_OWNER.word ∉
      [SYNC_VALUE (sFillObj (chan s u ch).desc), SYNC_CTRL (sFillObj (chan s u ch).desc)] := by
    simp only [BANK_OWNER, SYNC_VALUE, SYNC_CTRL, List.mem_cons, List.not_mem_nil, or_false]
    omega
  have hsame : bankOwner t u b = bankOwner s u b := h.words.fld hfar
  rw [hclosed.banks b hb, hsame, if_pos hown]

/-- A closing channel whose ring is empty: the stream completes where it has reached its length, and the channel closes. -/
theorem closedDone (hst : (chan s u ch).st = 5) (hempty : (chan s u ch).drained = (chan s u ch).acc) :
    (chan (closeDone u ch s) u ch).st = 0 ∧ (closeDone u ch s).mem = s.mem ∧
    (atEnd (chan s u ch).desc (chan s u ch).drained = true → sSyncEn (chan s u ch).desc = true →
      toRing (chan s u ch).desc = false → (chan s u ch).ended = false →
      Adds u (sFillObj (chan s u ch).desc) s (closeDone u ch s)) ∧
    ∀ b, b < 16 → bankOwner s u b = 5 + ch → bankOwner (closeDone u ch s) u b = 0 := by
  have hdone : closeDone u ch s = closeChan u ch
      (if atEnd (chan s u ch).desc (chan s u ch).drained then endAdd u ch s else s) := if_pos ⟨hst, hempty⟩
  have hopen : (chan s u ch).st ≠ 0 := by rw [hst]; decide
  rw [hdone]
  split
  · have hend := endAdded_endAdd u ch s
    obtain ⟨hstate, hmem, hlow, hbanks⟩ := hend.toEndKept.closed hopen
    exact ⟨hstate, hmem, fun _ hsync hring hended => (hend.adds hsync hring hended).before hlow (sFillObj_lt _), hbanks⟩
  · next hopenEnded =>
    have hsame : EndKept u ch s s := ⟨rfl, rfl, fun _ _ => rfl⟩
    obtain ⟨hstate, hmem, -, hbanks⟩ := hsame.closed hopen
    exact ⟨hstate, hmem, fun h => absurd h hopenEnded, hbanks⟩

end

end Sys2Proof.Machine
end

section
/-!
PROOFS. Rates and stalls (R281, R289, R321): the sample of every open channel, and the report of a stall, then the obligation.
-/
namespace Sys2Proof.Machine
open Sys2Proof

/-! ### RATE_SAMPLE -/

section
variable {s t : State} {u ch : Nat}

theorem counting_of_csr (h : t.csr = s.csr) (x : Chan) : counting t u ch x = counting s u ch x := by
  have hback : returned t u ch x = returned s u ch x := by
    unfold returned
    rw [chanFill_of_csr h]
  unfold counting
  rw [hback]

/-- What a sample makes of the channel at a key. -/
def sampled (s : State) (k : Nat) (x : Chan) : Chan := sampleRate (counting s (k / 4) (k % 4) x)

/-- The channel at one key is sampled. -/
def sampleAt (s : State) (k : Nat) : State := updChan s (k / 4) (k % 4) (sampled s k)

theorem sampleRates_eq (s : State) : sampleRates s = (mkeys s.strm.chans).foldl sampleAt s := rfl

/-- Everything but the channels. -/
def withoutChans (s : State) : State := { s with strm := { s.strm with chans := [] } }

theorem eq_of_withoutChans (h : withoutChans t = withoutChans s) :
    t = { s with strm := { s.strm with chans := t.strm.chans } } := by
  have hput (a : State) : a = { withoutChans a with strm := { (withoutChans a).strm with chans := a.strm.chans } } := rfl
  rw [hput t, h]
  rfl

theorem withoutChans_samples (l : List Nat) (s : State) : withoutChans (l.foldl sampleAt s) = withoutChans s :=
  foldl_keeps withoutChans sampleAt (fun _ _ => rfl) l s

theorem sampled_of_csr (h : t.csr = s.csr) (k : Nat) (x : Chan) : sampled t k x = sampled s k x := by
  unfold sampled
  rw [counting_of_csr h]

/-- Each listed channel is sampled once. -/
theorem chan_samples {l : List Nat} (hl : l.Nodup) (s : State) (k : Nat) : chan (l.foldl sampleAt s) (k / 4) (k % 4) =
    if k ∈ l then sampled s k (chan s (k / 4) (k % 4)) else chan s (k / 4) (k % 4) := by
  induction l generalizing s with
  | nil => rfl
  | cons j l ih =>
    obtain ⟨hj, hl⟩ := List.nodup_cons.mp hl
    have hstep : chan (sampleAt s j) (k / 4) (k % 4) =
        if k = j then sampled s j (chan s (j / 4) (j % 4)) else chan s (k / 4) (k % 4) := by
      rw [sampleAt, chan_updChan, chanKey_split, chanKey_split]
    rw [List.foldl_cons, ih hl, hstep, sampled_of_csr (show (sampleAt s j).csr = s.csr from rfl)]
    by_cases hkj : k = j
    · subst hkj
      simp [hj]
    · simp [hkj]

theorem mget_of_not_mem {α : Type} {d : α} {m : NMap α} {k : Nat} (h : k ∉ mkeys m) : mget d m k = d := by
  induction m with
  | nil => rfl
  | cons e m ih =>
    obtain ⟨j, v⟩ := e
    simp only [mkeys, List.map_cons, List.mem_cons, not_or] at h
    exact (if_neg (Ne.symm h.1)).trans (ih h.2)

theorem nodup_mkeys {α : Type} [DecidableEq α] {d : α} {m : NMap α} (h : mwf d m = true) : (mkeys m).Nodup := by
  obtain ⟨hrising, -⟩ := (mwf_iff d m).mp h
  exact List.pairwise_map.mpr (hrising.imp fun hlt => Nat.ne_of_lt hlt)

theorem counting_plain (x : Chan) (h : toRing x.desc = false) : counting s u ch x = x := by
  have hnone : returned s u ch x = 0 := by rw [returned, h]; rfl
  unfold counting
  rw [hnone, Nat.zero_sub]
  exact if_pos rfl

theorem toRing_closed : toRing Chan.closed.desc = false := by
  have hzero : Chan.closed.desc.toNat = 0 := by
    unfold Chan.closed
    exact BitVec.toNat_zero
  simp only [toRing, sDst, dw, bitsOf, hzero, Nat.zero_shiftRight, Nat.zero_mod]
  rfl

theorem sampled_closed (k : Nat) : sampled s k Chan.closed = Chan.closed := by
  rw [sampled, counting_plain _ toRing_closed]
  exact if_pos rfl

/-- RATE_SAMPLE samples every channel. -/
theorem chan_sampleRates (h : mwf Chan.closed s.strm.chans = true) {v k : Nat} (hk : k < 4) :
    chan (sampleRates s) v k = sampleRate (counting s v k (chan s v k)) := by
  have hkey : chanKey v k / 4 = v ∧ chanKey v k % 4 = k := by unfold chanKey; omega
  have hall := chan_samples (nodup_mkeys h) s (chanKey v k)
  rw [sampled, hkey.1, hkey.2] at hall
  rw [sampleRates_eq, hall]
  split
  · rfl
  · next hnot =>
    have hclosed : chan s v k = Chan.closed := mget_of_not_mem hnot
    have hstays := sampled_closed (s := s) (chanKey v k)
    rw [sampled, hkey.1, hkey.2] at hstays
    rw [hclosed, hstays]

theorem sampleRate_plain (x : Chan) (h : toRing x.desc = false) : sampleRate (counting s u ch x) =
    if x.st = 0 then x else { x with
      window := 0, ema := ((x.ema : Int) + (((x.window : Int) * 64 - (x.ema : Int)) / 8)).toNat } := by
  rw [counting_plain x h]
  unfold sampleRate
  rw [Nat.cast_mul]
  rfl

/-! ### STREAM_STALL -/

/-- A channel whose stall is reported. -/
def stalledChan (x : Chan) : Chan := { x with stalled := true, raised := true, stalls := satAdd 16 x.stalls 1 }

/-- The first word of `PLOT_STALL`. -/
def stallWord (u ch link : Nat) (ex : Bool) : W64 :=
  BitVec.ofNat 64 (u + ch * 2 ^ 15 + link * 2 ^ 17 + b2n ex * 2 ^ 29 + 2 ^ 30)

theorem fget_stallWord {link : Nat} (hu : u < 25600) (hch : ch < 4) (hlink : link < 4096) (ex : Bool) :
    fget (stallWord u ch link ex) PLOT_STALL_CORE = u ∧ fget (stallWord u ch link ex) PLOT_STALL_CH = ch ∧
    fget (stallWord u ch link ex) PLOT_STALL_LINK_ID = link ∧ fget (stallWord u ch link ex) PLOT_STALL_VALID = 1 := by
  have hex : b2n ex < 2 := by cases ex <;> decide
  simp only [fget, bitsOf, stallWord, PLOT_STALL_CORE, PLOT_STALL_CH, PLOT_STALL_LINK_ID, PLOT_STALL_VALID,
    BitVec.toNat_ofNat, Nat.shiftRight_eq_div_pow]
  omega

theorem sLink_lt (d : W512) : sLink d < 4096 := Nat.mod_lt _ (by decide)

/-- Four words of registers in a row. -/
def fourWords (r : Nat) (w0 w1 w2 w3 : W64) (s : State) : State :=
  rset (rset (rset (rset s r w0) (r + 8) w1) (r + 16) w2) (r + 24) w3

theorem rget_fourWords (r : Nat) (w0 w1 w2 w3 : W64) (s : State) : rget (fourWords r w0 w1 w2 w3 s) r = w0 := by
  unfold fourWords
  rw [rget_rset, if_neg (by omega), rget_rset, if_neg (by omega), rget_rset, if_neg (by omega), rget_rset_same]

theorem fourWords_keeps (r : Nat) (w0 w1 w2 w3 : W64) (s : State) :
    fourWords r w0 w1 w2 w3 s = { s with csr := (fourWords r w0 w1 w2 w3 s).csr } := rfl

theorem stallRecord_of_taken (h : flag s (PLOT_STALL ((plotOf s u).getD 0)) PLOT_STALL_VALID = true) :
    stallRecord u ch s = s := if_pos h

/-- Where no record stands, a stall leaves one. -/
theorem stallRecord_of_free (h : flag s (PLOT_STALL ((plotOf s u).getD 0)) PLOT_STALL_VALID = false) :
    ∃ ex w1 w2 w3, stallRecord u ch s =
      fourWords (PLOT_STALL ((plotOf s u).getD 0)) (stallWord u ch (sLink (chan s u ch).desc) ex) w1 w2 w3 s := by
  have hguard : flag s (PLOT_STALL ((plotOf s u).getD 0)) PLOT_STALL_VALID ≠ true := by simp [h]
  unfold stallRecord
  rw [if_neg hguard]
  generalize PLOT_STALL ((plotOf s u).getD 0) = r
  extract_lets far ring other ex s1 s2 s3
  exact ⟨ex, _, _, _, rfl⟩

theorem stallRecord_keeps (u ch : Nat) (s : State) : stallRecord u ch s = { s with csr := (stallRecord u ch s).csr } := by
  cases hflag : flag s (PLOT_STALL ((plotOf s u).getD 0)) PLOT_STALL_VALID with
  | true => rw [stallRecord_of_taken hflag]
  | false =>
    obtain ⟨ex, w1, w2, w3, hrec⟩ := stallRecord_of_free (ch := ch) hflag
    exact hrec ▸ fourWords_keeps _ _ _ _ _ _

/-- The record in `PLOT_STALL` after a stall: this channel's, unless one stood there. -/
structure Recorded (u ch link r : Nat) (s t : State) : Prop where
  valid : flag t r PLOT_STALL_VALID = true
  names : flag s r PLOT_STALL_VALID = false →
    fld t r PLOT_STALL_CORE = u ∧ fld t r PLOT_STALL_CH = ch ∧ fld t r PLOT_STALL_LINK_ID = link

theorem recorded_stallRecord (hu : u < 25600) (hch : ch < 4) (s : State) :
    Recorded u ch (sLink (chan s u ch).desc) (PLOT_STALL ((plotOf s u).getD 0)) s (stallRecord u ch s) := by
  cases hflag : flag s (PLOT_STALL ((plotOf s u).getD 0)) PLOT_STALL_VALID with
  | true =>
    rw [stallRecord_of_taken hflag]
    exact ⟨hflag, fun h => absurd (hflag.symm.trans h) (by decide)⟩
  | false =>
    obtain ⟨ex, w1, w2, w3, hrec⟩ := stallRecord_of_free (ch := ch) hflag
    rw [hrec]
    generalize PLOT_STALL ((plotOf s u).getD 0) = r
    have hfields := fget_stallWord hu hch (sLink_lt (chan s u ch).desc) ex
    rw [← rget_fourWords r (stallWord u ch (sLink (chan s u ch).desc) ex) w1 w2 w3 s] at hfields
    obtain ⟨hcore, hchan, hlink, hvalid⟩ := hfields
    exact ⟨decide_eq_true hvalid, fun _ => ⟨hcore, hchan, hlink⟩⟩

theorem eventWake_pend (x : Ctx) : (eventWake x).pend = x.pend := by
  unfold eventWake
  split <;> rfl

/-- The channel and its owning context once a stall is reported, before the record. -/
def stallSeen (u ch : Nat) (s : State) : State := setPend (updChan s u ch stalledChan) u (chan s u ch).owner 2

theorem stallOut_of_due (hst : (chan s u ch).st = 1) (hraised : (chan s u ch).raised = false)
    (hpos : 0 < sPatience (chan s u ch).desc) (hdue : sPatience (chan s u ch).desc ≤ (chan s u ch).stall) :
    stallOut u ch s = logErr 0x0303 (srcOf u) (plotOf (stallRecord u ch (stallSeen u ch s)) u) 0
      (plotCtr u 3 1 (stallRecord u ch (stallSeen u ch s))) := by
  have hguard : ((chan s u ch).raised || decide (sPatience (chan s u ch).desc = 0) ||
      decide ((chan s u ch).stall < sPatience (chan s u ch).desc) || decide ((chan s u ch).st ≠ 1)) ≠ true := by
    simp [hst, hraised, Nat.ne_of_gt hpos, hdue]
  unfold stallOut
  exact if_neg hguard

theorem chan_stallSeen (s : State) : chan (stallSeen u ch s) u ch = stalledChan (chan s u ch) :=
  (chan_of_strm (setPend_strm _ _ _ _) u ch).trans (chan_updChan_same _ _ _ _)

theorem pend_stallSeen (s : State) :
    (ctx (stallSeen u ch s) u (chan s u ch).owner).pend = (ctx s u (chan s u ch).owner).pend ||| 4 := by
  unfold stallSeen setPend
  rw [ctx_updCtx_same, eventWake_pend]
  rfl

/-- STREAM_STALL of a channel whose stall count has reached its PATIENCE. -/
theorem stallReported (hu : u < 25600) (hch : ch < 4) (hst : (chan s u ch).st = 1) (hraised : (chan s u ch).raised = false)
    (hpos : 0 < sPatience (chan s u ch).desc) (hdue : sPatience (chan s u ch).desc ≤ (chan s u ch).stall) :
    chan (stallOut u ch s) u ch = stalledChan (chan s u ch) ∧
    (ctx (stallOut u ch s) u (chan s u ch).owner).pend = (ctx s u (chan s u ch).owner).pend ||| 4 ∧
    Logs s (stallOut u ch s) 0x0303 ∧ (stallOut u ch s).mem = s.mem ∧
    Recorded u ch (sLink (chan s u ch).desc) (PLOT_STALL ((plotOf s u).getD 0)) s (stallOut u ch s) := by
  rw [stallOut_of_due hst hraised hpos hdue]
  have hseen : (stallSeen u ch s).csr = s.csr := rfl
  have hrecord := recorded_stallRecord hu hch (stallSeen u ch s)
  rw [chan_stallSeen, (lowKept_of_csr hseen).plots.plotOf] at hrecord
  have hkeeps := stallRecord_keeps u ch (stallSeen u ch s)
  generalize stallRecord u ch (stallSeen u ch s) = t at hrecord hkeeps
  have hmem : t.mem = s.mem := (congrArg State.mem hkeeps).trans rfl
  have hlog : t.log = s.log := (congrArg State.log hkeeps).trans rfl
  obtain ⟨e, hfly, -, -, hcode⟩ := inFlight_logAs (classOf 0x0303) 0x0303 (srcOf u) (plotOf t u) 0 (plotCtr u 3 1 t)
  rw [plotCtr_log, hlog] at hfly
  have field (f : Fld) (r : Nat) : fld (logErr 0x0303 (srcOf u) (plotOf t u) 0 (plotCtr u 3 1 t)) r f = fld t r f :=
    fld_of_csr (plotCtr_csr _ _ _ _) r f
  refine ⟨?_, ?_, ⟨e, hfly, hcode⟩, (plotCtr_mem _ _ _ _).trans hmem, ?_, ?_⟩
  · have hstrm : (logErr 0x0303 (srcOf u) (plotOf t u) 0 (plotCtr u 3 1 t)).strm = (stallSeen u ch s).strm :=
      (plotCtr_strm _ _ _ _).trans ((congrArg State.strm hkeeps).trans rfl)
    rw [chan_of_strm hstrm, chan_stallSeen]
  · have hcore : (logErr 0x0303 (srcOf u) (plotOf t u) 0 (plotCtr u 3 1 t)).core = (stallSeen u ch s).core :=
      (plotCtr_core _ _ _ _).trans ((congrArg State.core hkeeps).trans rfl)
    rw [ctx_of_core hcore, pend_stallSeen]
  · rw [flag_of_fld (field _ _)]
    exact hrecord.valid
  · rw [field, field, field]
    exact fun hfree => hrecord.names ((flag_of_csr hseen _ _).trans hfree)

end

theorem st_publishedChan_of_endless {x : Chan} (hst : x.st = 1) (h : sLength x.desc = 0) :
    (publishedChan (lastSegment x) x).st = 1 := by
  have hlast : lastSegment x = false := by simp [lastSegment, atEnd, h]
  exact (if_neg (by simp [hlast])).trans hst

theorem st_publishedChan_of_last {x : Chan} (hst : x.st = 1) (hend : atEnd x.desc x.acc = true)
    (hle : x.acc ≤ (seg0 x + x.pubs + 1) * segSize x.desc) : (publishedChan (lastSegment x) x).st = 4 :=
  if_pos ⟨by simp [lastSegment, hend, hle], hst⟩

/-- Settles O34: each row is its state function on the case the statement names. -/
theorem segmentsRatesAndStalls : Obligations.SegmentsRatesAndStalls := by
  unfold Obligations.SegmentsRatesAndStalls
  intro s u ch o x hu hch hx ho
  subst hx ho
  refine ⟨fun hst hring hspill hfull hmine => ?_, fun hst hring hend => ?_, fun hst hempty => ?_, fun hwf => ?_,
    fun hst hraised hpos hdue => ?_⟩
  · obtain ⟨hchan, hadds, hmem, hbank⟩ := published hst hring hspill hfull hmine
    refine ⟨_, runs_of_channel hu hch rfl, ?_⟩
    beta_reduce
    rw [hchan]
    exact ⟨rfl, hadds, hmem, hbank, st_publishedChan_of_endless hst, st_publishedChan_of_last hst⟩
  · exact ⟨_, runs_of_channel hu hch rfl, completed hst hring hend⟩
  · exact ⟨_, runs_of_channel hu hch rfl, closedDone hst hempty⟩
  · exact ⟨_, rfl, eq_of_withoutChans (withoutChans_samples _ _), fun v k hk _ => chan_sampleRates hwf hk,
      fun v k hk hplain => (chan_sampleRates hwf hk).trans (sampleRate_plain _ hplain)⟩
  · obtain ⟨hchan, hpend, hlogs, hmem, hrecord⟩ := stallReported hu hch hst hraised hpos hdue
    refine ⟨_, runs_of_channel hu hch rfl, ?_⟩
    beta_reduce
    rw [hchan]
    exact ⟨rfl, rfl, hpend, hlogs, hmem, hrecord.valid, hrecord.names⟩

end Sys2Proof.Machine
end

section
/-!
PROOFS. The bytes of a ring (R275, R282): where its positions lie in local memory, and what bytes that enter it leave.
-/
namespace Sys2Proof.Machine
open Sys2Proof

section
variable {s t : State} {u ch p : Nat} {d : W512}

/-- Bytes without a poison mark. -/
def sound (l : List Byte) : List PByte := l.map fun b => (b, false)

theorem ringRun_sound (l : List Byte) (h : l ≠ []) : ringRun u d p (sound l) s = locStore u (ringKey s u d p) l s := by
  have hbytes : (sound l).map (·.1) = l := (List.map_map ..).trans (List.map_id l)
  have hmarks : ((List.range (sound l).length).zip (sound l)).filterMap (fun e => if e.2.2 then some e.1 else none) = [] :=
    List.filterMap_eq_nil_iff.mpr fun e he => by
      obtain ⟨b, -, hb⟩ := List.mem_map.mp (List.of_mem_zip (a := e.1) (b := e.2) he).2
      rw [← hb]
      rfl
  unfold ringRun
  rw [if_neg (by simpa [sound] using h)]
  dsimp only
  rw [hbytes, hmarks]
  rfl

theorem memByte_memStore_in {m : Mem} {a k : Nat} {l : List Byte} (h : k < l.length) :
    memByte (memStore m a l) (a + k) = l.getD k 0 := by
  rw [memByte_memStore, dif_pos (by omega)]
  simp only [Nat.add_sub_cancel_left, List.getD_eq_getElem?_getD, List.getElem?_eq_getElem h, Option.getD_some]

theorem memByte_memStore_out {m : Mem} {a x : Nat} {l : List Byte} (h : x < a ∨ a + l.length ≤ x) :
    memByte (memStore m a l) x = memByte m x := by
  rw [memByte_memStore, dif_neg (by omega)]

/-- Bytes `l` stand in local memory from `a` on; the other bytes, and what is beside the memory, are as they were. -/
structure Landed (a : Nat) (l : List Byte) (s t : State) : Prop where
  bytes  : ∀ k, k < l.length → memByte t.mem.loc (a + k) = l.getD k 0
  others : ∀ x, x < a ∨ a + l.length ≤ x → memByte t.mem.loc x = memByte s.mem.loc x
  beside : { t with mem := MemSt.reset } = { s with mem := MemSt.reset }
  clean  : StaysClean s t

/-- Bytes that do not wrap land at their position, where no error stands there. -/
theorem landed_ringRun {l : List Byte}
    (h : ∀ k, k < l.length → latentAt s ((ringKey s u d p + k) / 8) = 0 ∧ locPoisoned s ((ringKey s u d p + k) / 8) = false) :
    Landed (ringKey s u d p) l s (ringRun u d p (sound l) s) := by
  by_cases hl : l = []
  · subst hl
    exact ⟨fun k hk => absurd hk (Nat.not_lt_zero k), fun _ _ => rfl, rfl, fun _ hw => hw⟩
  · rw [ringRun_sound l hl]
    obtain ⟨hbits, hstays⟩ := locStore_of_clean (n := u) (s := s) (k := ringKey s u d p) (d := l) fun w hw => by
      obtain ⟨hlen, hlo, hhi⟩ := mem_wordsOf.mp hw
      have hbyte : ∃ k, k < l.length ∧ (ringKey s u d p + k) / 8 = w := ⟨8 * w - ringKey s u d p, by omega, by omega⟩
      obtain ⟨k, hk, rfl⟩ := hbyte
      exact h k hk
    have hloc : (locStore u (ringKey s u d p) l s).mem.loc = memStore s.mem.loc (ringKey s u d p) l :=
      (Prod.mk.inj (Prod.mk.inj hbits).2).1
    exact ⟨fun k hk => by rw [hloc, memByte_memStore_in hk], fun x hx => by rw [hloc, memByte_memStore_out hx],
      (Prod.mk.inj hbits).1, hstays⟩

/-- Where a position lies is no matter of memory. -/
theorem ringKey_of_beside (h : { t with mem := MemSt.reset } = { s with mem := MemSt.reset }) (u : Nat) (d : W512) (p : Nat) :
    ringKey t u d p = ringKey s u d p :=
  show ringKey { t with mem := MemSt.reset } u d p = ringKey { s with mem := MemSt.reset } u d p from by rw [h]

/-- Up to the ring's end positions lie in a row. -/
theorem ringKey_add {k : Nat} (h : p % ringSize d + k < ringSize d) : ringKey s u d (p + k) = ringKey s u d p + k := by
  have hmod : (p + k) % ringSize d = p % ringSize d + k := by
    rw [← Nat.mod_add_mod, Nat.mod_eq_of_lt h]
  unfold ringKey locKey
  rw [hmod]
  omega

theorem ringKey_base (s : State) (u : Nat) (d : W512) (p : Nat) :
    ringKey s u d p = locKey (physUnit s u) (sRing d) + p % ringSize d := by
  unfold ringKey locKey
  omega

/-- Beyond the ring's end they go on at its start. -/
theorem wrap_mod {k : Nat} (hpos : 0 < ringSize d) (hk : k < ringSize d) :
    (p + (ringSize d - p % ringSize d) + k) % ringSize d = k := by
  have hsum : p + (ringSize d - p % ringSize d) = ringSize d * (p / ringSize d + 1) := by
    have hdiv := Nat.div_add_mod p (ringSize d)
    have hlt := Nat.mod_lt p hpos
    rw [Nat.mul_add, Nat.mul_one]
    omega
  rw [hsum, Nat.mul_add_mod, Nat.mod_eq_of_lt hk]

theorem sound_take (k : Nat) (l : List Byte) : (sound l).take k = sound (l.take k) := List.map_take.symm
theorem sound_drop (k : Nat) (l : List Byte) : (sound l).drop k = sound (l.drop k) := List.map_drop.symm

/-- Bytes that enter the ring land at their positions, and nothing beside the memory changes. -/
theorem ringPut_of_clean {l : List Byte} (hle : l.length ≤ ringSize d)
    (h : ∀ k, k < l.length → latentAt s (ringKey s u d (p + k) / 8) = 0 ∧ locPoisoned s (ringKey s u d (p + k) / 8) = false) :
    { ringPut u d p (sound l) s with mem := MemSt.reset } = { s with mem := MemSt.reset } ∧
    ∀ k, k < l.length → memByte (ringPut u d p (sound l) s).mem.loc (ringKey s u d (p + k)) = l.getD k 0 := by
  unfold ringPut
  dsimp only
  rw [sound_take, sound_drop]
  generalize hK : ringSize d - p % ringSize d = K
  have hlow : (l.take K).length = min K l.length := List.length_take
  have hhigh : (l.drop K).length = l.length - K := List.length_drop
  have hfirst : ∀ k, k < (l.take K).length → ringKey s u d (p + k) = ringKey s u d p + k := fun k hk =>
    ringKey_add (by omega)
  have hsecond : ∀ k, k < (l.drop K).length → ringKey s u d (p + (K + k)) = ringKey s u d (p + K) + k := fun k hk => by
    have hwrap := wrap_mod (p := p) (d := d) (k := 0) (by omega) (by omega)
    rw [hK, Nat.add_zero] at hwrap
    rw [← Nat.add_assoc]
    exact ringKey_add (by omega)
  have hrun := landed_ringRun (s := s) (u := u) (d := d) (p := p) (l := l.take K) fun k hk => by
    rw [← hfirst k hk]
    exact h k (by omega)
  generalize ringRun u d p (sound (l.take K)) s = t at hrun
  have hrest := landed_ringRun (s := t) (u := u) (d := d) (p := p + K) (l := l.drop K) fun k hk => by
    rw [ringKey_of_beside hrun.beside, ← hsecond k hk]
    exact hrun.clean _ (h (K + k) (by omega))
  rw [ringKey_of_beside hrun.beside] at hrest
  refine ⟨hrest.beside.trans hrun.beside, fun k hk => ?_⟩
  by_cases hkK : k < K
  · have hkeep : ringKey s u d (p + k) < ringKey s u d (p + K) ∨
        ringKey s u d (p + K) + (l.drop K).length ≤ ringKey s u d (p + k) := by
      have hmod := Nat.mod_lt p (show 0 < ringSize d by omega)
      have hwrap := wrap_mod (p := p) (d := d) (k := 0) (by omega) (by omega)
      rw [hK, Nat.add_zero] at hwrap
      rw [hfirst k (by omega), ringKey_base s u d (p + K), ringKey_base s u d p, hwrap]
      omega
    rw [hrest.others _ hkeep, hfirst k (by omega), hrun.bytes k (by omega)]
    simp only [List.getD_eq_getElem?_getD, List.getElem?_take_of_lt hkK]
  · have hkey := hsecond (k - K) (by omega)
    rw [show K + (k - K) = k by omega] at hkey
    rw [hkey, hrest.bytes (k - K) (by omega)]
    simp only [List.getD_eq_getElem?_getD, List.getElem?_drop, show K + (k - K) = k by omega]

end

end Sys2Proof.Machine
end

section
/-!
PROOFS. A channel's accesses (R273, R282, R284, R287, R291, R292): what halting one leaves, what asking for bytes does, and what
the answers to its reads and writes do, then the obligation.
-/
namespace Sys2Proof.Machine
open Sys2Proof

section
variable {s t : State} {u ch tag : Nat}

/-! ### A channel halts -/

/-- A channel that has halted for `code`, with its first failing byte at `pos`. -/
def haltedChan (code pos : Nat) (x : Chan) : Chan :=
  { x with st := 3, code := code, page := none, haltAt := some (match x.haltAt with | some q => min q pos | none => pos) }

theorem chanHalt_of_live (code pos addr : Nat) (h0 : (chan s u ch).st ≠ 0) (h4 : (chan s u ch).st ≠ 4) (h5 : (chan s u ch).st ≠ 5)
    (hmode : abortMode s u (chan s u ch).desc = false) : chanHalt u ch code pos addr s =
      updChan (logErr code (srcOf u) (plotOf s u) addr s) u ch (haltedChan code pos) := by
  have hguard : (!chanOpen (chan s u ch) || decide ((chan s u ch).st = 4)) ≠ true := by simp [chanOpen, h0, h4]
  unfold chanHalt
  exact (if_neg hguard).trans ((if_neg (by rw [hmode]; exact Bool.false_ne_true)).trans (if_neg h5))

/-- An open channel that has not halted before halts at `pos`. -/
theorem haltsAt (code pos addr : Nat) (hst : (chan s u ch).st = 1) (hmode : abortMode s u (chan s u ch).desc = false)
    (hat : (chan s u ch).haltAt = none) : (chan (chanHalt u ch code pos addr s) u ch).st = 3 ∧
    (chan (chanHalt u ch code pos addr s) u ch).code = code ∧ (chan (chanHalt u ch code pos addr s) u ch).haltAt = some pos ∧
    Logs s (chanHalt u ch code pos addr s) code ∧ (chanHalt u ch code pos addr s).mem = s.mem := by
  have hlive (n : Nat) (hn : 1 ≠ n) : (chan s u ch).st ≠ n := hst.trans_ne hn
  have hchan : chan (logErr code (srcOf u) (plotOf s u) addr s) u ch = chan s u ch := rfl
  rw [chanHalt_of_live code pos addr (hlive 0 (by decide)) (hlive 4 (by decide)) (hlive 5 (by decide)) hmode, chan_updChan_same,
    hchan]
  refine ⟨rfl, rfl, ?_, ⟨_, rfl, rfl⟩, rfl⟩
  unfold haltedChan
  rw [hat]

/-! ### CHANNEL_REQUEST_ISSUE -/

theorem issueNext_of_unpicked (h : picked s u ch = false) : issueNext u ch s = s := if_pos (by rw [h]; rfl)

theorem issueNext_of_read (hpick : picked s u ch = true) (hread : canRead s u ch = true) :
    issueNext u ch s = issueRead u ch s := by
  unfold issueNext
  rw [if_neg (by simp [hpick]), if_pos hread]

/-- The position lies outside the channel's space. -/
theorem issueRead_of_outside (h : inSpace s (chan s u ch).desc (chan s u ch).issued = false) : issueRead u ch s =
    chanHalt u ch 0x0603 (chan s u ch).issued (memAddr (chan s u ch).desc (chan s u ch).issued) s :=
  if_pos (by rw [h]; rfl)

/-- A read of another unit's memory sets out. -/
theorem issueRead_of_elsewhere {a l : Nat} (ha : a = memAddr (chan s u ch).desc (chan s u ch).issued) (hl : l = a / 64 * 64)
    (hin : inSpace s (chan s u ch).desc (chan s u ch).issued = true) (hx : needsXlat s a false = false)
    (hown : ownMem u a = false) : issueRead u ch s = addChanReq u ch (.load l 64 false) l 64 (chan s u ch).issued
      (memRun (chan s u ch).desc (chan s u ch).issued (ringRoom s u ch (chan s u ch))) (chanStamp s u ch (chan s u ch)) none s := by
  subst ha hl
  unfold issueRead
  exact (if_neg (by simp [hin])).trans ((if_neg (by simp [hx])).trans (if_neg (by simp [hown])))

/-! ### Answers -/

/-- The answer of access `tag` is here. -/
def untracked (tag : Nat) (s : State) : State :=
  { s with core := { s.core with reqs := s.core.reqs.map fun q => if q.tag = tag then { q with tracked := false } else q } }

theorem find?_of_unique {α : Type} {l : List α} {f : α → Bool} {a : α} (hmem : a ∈ l) (ha : f a = true)
    (h : ∀ b ∈ l, f b = true → b = a) : l.find? f = some a := by
  obtain ⟨b, hb⟩ := Option.isSome_iff_exists.mp (List.find?_isSome.mpr ⟨a, hmem, ha⟩)
  rw [hb, h b (List.mem_of_find?_eq_some hb) (List.find?_some hb)]

/-- The one access in flight with a tag, of a channel, whose answer can be taken. -/
structure Sole (s : State) (u ch tag : Nat) (r : Req) : Prop where
  mem    : r ∈ s.core.reqs
  tagged : r.tag = tag
  only   : ∀ q ∈ s.core.reqs, q.tag = tag → q = r
  here   : reaches s r = true
  ofChan : r.chan = true
  orphan : r.orphan = false
  track  : r.tracked = true
  unit   : r.u = u
  idx    : r.c = ch
  rest   : ∀ q ∈ chanReqs s u ch, q.tag ≠ tag → q.tracked = true

variable {r : Req}

theorem Sole.find (h : Sole s u ch tag r) {f : Req → Bool} (hr : f r = true) (hf : ∀ q, f q = true → q.tag = tag) :
    s.core.reqs.find? f = some r :=
  find?_of_unique h.mem hr fun q hq hfq => h.only q hq (hf q hfq)

theorem Sole.reach (h : Sole s u ch tag r) (f : State → State) : ifReaches tag f s = f s := by
  have hfind : findReq s tag = some r := h.find (by simp [h.tagged]) fun q hq => of_decide_eq_true hq
  exact if_pos (by rw [hfind]; exact h.here)

theorem Sole.runs_read (h : Sole s u ch tag r) : exec (.streamReadResponse tag) s = .next (readResponse tag s) :=
  (runIf_of rfl _).trans (congrArg _ (h.reach _))

theorem Sole.runs_ack (h : Sole s u ch tag r) : exec (.streamWriteAck tag) s = .next (writeAck tag s) :=
  (runIf_of rfl _).trans (congrArg _ (h.reach _))

/-- Of the channel's accesses only the answered one is taken up. -/
theorem Sole.next (h : Sole s u ch tag r) {f : Req → Bool} (hf : f { r with tracked := false } = true)
    (htrack : ∀ q, f q = true → q.tracked = false) : (chanReqs (untracked tag s) u ch).find? f = some { r with tracked := false } := by
  refine find?_of_unique ?_ hf fun q hq hfq => ?_
  · refine List.mem_filter.mpr ⟨List.mem_map.mpr ⟨r, h.mem, if_pos h.tagged⟩, ?_⟩
    simp [h.ofChan, h.unit, h.idx, h.orphan]
  · obtain ⟨hq, hmine⟩ := List.mem_filter.mp hq
    obtain ⟨q0, hq0, rfl⟩ := List.mem_map.mp hq
    by_cases htag : q0.tag = tag
    · rw [if_pos htag, h.only q0 hq0 htag]
    · rw [if_neg htag] at hfq hmine
      have hfree := htrack _ hfq
      rw [h.rest q0 (List.mem_filter.mpr ⟨hq0, hmine⟩) htag] at hfree
      cases hfree

theorem reqs_untracked (tag : Nat) (s : State) : (untracked tag s).core.reqs.filter (fun q => decide (q.tag ≠ tag)) =
    s.core.reqs.filter (fun q => decide (q.tag ≠ tag)) := by
  have hmap : ∀ l : List Req, (l.map fun q => if q.tag = tag then { q with tracked := false } else q).filter
      (fun q => decide (q.tag ≠ tag)) = l.filter (fun q => decide (q.tag ≠ tag)) := by
    intro l
    induction l with
    | nil => rfl
    | cons q l ih =>
      rw [List.map_cons]
      by_cases hq : q.tag = tag
      · rw [if_pos hq, List.filter_cons_of_neg (by simp [hq]), List.filter_cons_of_neg (by simp [hq]), ih]
      · rw [if_neg hq, List.filter_cons_of_pos (by simp [hq]), List.filter_cons_of_pos (by simp [hq]), ih]
  exact hmap _

/-- With the answered access dropped, none is left to take up. -/
theorem Sole.none_left (h : Sole s u ch tag r) {f : Req → Bool} (htrack : ∀ q, f q = true → q.tracked = false)
    (hreqs : t.core.reqs = s.core.reqs.filter (fun q => decide (q.tag ≠ tag))) : (chanReqs t u ch).find? f = none := by
  refine List.find?_eq_none.mpr fun q hq hfq => ?_
  obtain ⟨hq, hmine⟩ := List.mem_filter.mp hq
  rw [hreqs] at hq
  obtain ⟨hq, htag⟩ := List.mem_filter.mp hq
  have hfree := htrack _ hfq
  rw [h.rest q (List.mem_filter.mpr ⟨hq, hmine⟩) (of_decide_eq_true htag)] at hfree
  cases hfree

/-! ### STREAM_READ_RESPONSE -/

/-- The read answered next in the ring's order. -/
def nextRead (u ch : Nat) (s : State) : Option Req :=
  (chanReqs s u ch).find? fun r => isLoad r && !r.tracked && decide (r.pos = (chan s u ch).acc)

theorem acceptAll_of_none (h : nextRead u ch s = none) (fuel : Nat) : acceptAll fuel u ch s = s := by
  cases fuel with
  | zero => rfl
  | succ fuel =>
    unfold nextRead at h
    rw [acceptAll]
    simp only [h]

theorem acceptAll_of_some {l k : Nat} {data : List Byte} {bad : List Nat} (h : nextRead u ch s = some r)
    (hparts : r.parts = [⟨l, k, some (.bytes data bad)⟩])
    (hdenied : ringDenied s u ch (chan s u ch).desc (chan s u ch).acc r.cnt = none)
    (hheld : ringHeld s u (chan s u ch).desc (chan s u ch).acc r.cnt = false) (fuel : Nat) : acceptAll (fuel + 1) u ch s =
      acceptAll fuel u ch (dropReq r.tag (fillBytes u ch (lineBytes (chan s u ch).desc r.pos r.cnt l data bad) s)) := by
  unfold nextRead at h
  rw [acceptAll]
  simp only [h, hparts, hdenied, hheld, Bool.false_eq_true, if_false]

/-- The stream bytes of an answer without errors. -/
def streamBytes (d : W512) (p n l : Nat) (data : List Byte) : List Byte :=
  (List.range n).map fun i => data.getD (memAddr d (p + i) - l) 0

theorem lineBytes_sound (d : W512) (p n l : Nat) (data : List Byte) :
    lineBytes d p n l data [] = sound (streamBytes d p n l data) := by
  unfold lineBytes sound streamBytes
  rw [List.map_map]
  rfl

theorem length_streamBytes (d : W512) (p n l : Nat) (data : List Byte) : (streamBytes d p n l data).length = n := by
  simp [streamBytes]

theorem getD_streamBytes {d : W512} {p n l k : Nat} (data : List Byte) (h : k < n) :
    (streamBytes d p n l data).getD k 0 = data.getD (memAddr d (p + k) - l) 0 := by
  simp [streamBytes, h]

/-- Bytes that enter the ring count as accepted. -/
theorem filled {l : List Byte} (hle : l.length ≤ ringSize (chan s u ch).desc)
    (h : ∀ k, k < l.length → latentAt s (ringKey s u (chan s u ch).desc ((chan s u ch).acc + k) / 8) = 0 ∧
      locPoisoned s (ringKey s u (chan s u ch).desc ((chan s u ch).acc + k) / 8) = false) :
    (∀ k, k < l.length → memByte (fillBytes u ch (sound l) s).mem.loc
      (ringKey s u (chan s u ch).desc ((chan s u ch).acc + k)) = l.getD k 0) ∧
    (chan (fillBytes u ch (sound l) s) u ch).acc = (chan s u ch).acc + l.length ∧
    (chan (fillBytes u ch (sound l) s) u ch).drained = (chan s u ch).drained ∧
    (fillBytes u ch (sound l) s).core = s.core := by
  obtain ⟨hbeside, hbytes⟩ := ringPut_of_clean hle h
  have hchan : chan (ringPut u (chan s u ch).desc (chan s u ch).acc (sound l) s) u ch = chan s u ch :=
    chan_of_strm (congrArg State.strm hbeside) u ch
  have hcore : (ringPut u (chan s u ch).desc (chan s u ch).acc (sound l) s).core = s.core :=
    (congrArg State.core hbeside).trans rfl
  have hlen : (sound l).length = l.length := List.length_map _
  unfold fillBytes
  refine ⟨hbytes, ?_, ?_, hcore⟩
  · rw [chan_updChan_same, hchan, hlen]
    dsimp only
    split <;> rfl
  · rw [chan_updChan_same, hchan]
    dsimp only
    split <;> rfl

/-- The answer to the read at the ring's end: its bytes enter the ring, and the access is dropped. -/
theorem Sole.readResponse_eq (h : Sole s u ch tag r) {l n : Nat} {data : List Byte} (hat : (chan s u ch).haltAt = none)
    (hload : isLoad r = true) (hparts : r.parts = [⟨l, 64, some (.bytes data [])⟩]) (hpos : r.pos = (chan s u ch).acc)
    (hcnt : r.cnt = n) (hdenied : ringDenied s u ch (chan s u ch).desc (chan s u ch).acc n = none)
    (hheld : ringHeld s u (chan s u ch).desc (chan s u ch).acc n = false)
    (hcore : (fillBytes u ch (sound (streamBytes (chan s u ch).desc (chan s u ch).acc n l data)) (untracked tag s)).core =
      (untracked tag s).core) :
    readResponse tag s = dropReq tag (fillBytes u ch
      (sound (streamBytes (chan s u ch).desc (chan s u ch).acc n l data)) (untracked tag s)) := by
  have hfind : s.core.reqs.find? (fun r => decide (r.tag = tag) && r.chan && isLoad r) = some r :=
    h.find (by simp [h.tagged, h.ofChan, hload]) fun q hq => by
      simp only [Bool.and_eq_true, decide_eq_true_eq] at hq
      exact hq.1.1
  have hnext : nextRead u ch (untracked tag s) = some { r with tracked := false } :=
    h.next (by simp only [Bool.and_eq_true, decide_eq_true_eq]; exact ⟨⟨hload, rfl⟩, hpos⟩) fun q hq => by
      simp only [Bool.and_eq_true, Bool.not_eq_true'] at hq
      exact hq.1.2
  have hresponse : readResponse tag s = acceptAll ((untracked tag s).core.reqs.length + 1) u ch (untracked tag s) := by
    unfold readResponse
    simp only [hfind, hparts, h.orphan, h.unit, h.idx, hat, Option.any_none, Bool.or_false, Bool.false_eq_true, if_false]
    rfl
  have hline : lineBytes (chan (untracked tag s) u ch).desc r.pos r.cnt l data [] =
      sound (streamBytes (chan s u ch).desc (chan s u ch).acc n l data) := by
    rw [lineBytes_sound, hpos, hcnt]
    rfl
  subst hcnt
  rw [hresponse, acceptAll_of_some (l := l) (k := 64) (data := data) (bad := []) hnext hparts hdenied hheld]
  dsimp only
  rw [hline, h.tagged]
  refine acceptAll_of_none (h.none_left (fun q hq => ?_) ?_) _
  · simp only [Bool.and_eq_true, Bool.not_eq_true'] at hq
    exact hq.1.2
  · rw [← reqs_untracked, ← hcore]
    rfl

/-- A read at the ring's end that returns its bytes. -/
theorem Sole.accepted (h : Sole s u ch tag r) {l n : Nat} {data : List Byte} (hat : (chan s u ch).haltAt = none)
    (hload : isLoad r = true) (hparts : r.parts = [⟨l, 64, some (.bytes data [])⟩]) (hpos : r.pos = (chan s u ch).acc)
    (hcnt : r.cnt = n) (hdenied : ringDenied s u ch (chan s u ch).desc (chan s u ch).acc n = none)
    (hheld : ringHeld s u (chan s u ch).desc (chan s u ch).acc n = false) (hle : n ≤ ringSize (chan s u ch).desc)
    (hclean : ∀ k, k < n → latentAt s (ringKey s u (chan s u ch).desc ((chan s u ch).acc + k) / 8) = 0 ∧
      locPoisoned s (ringKey s u (chan s u ch).desc ((chan s u ch).acc + k) / 8) = false) :
    (∀ k, k < n → memByte (readResponse tag s).mem.loc (ringKey s u (chan s u ch).desc ((chan s u ch).acc + k)) =
      data.getD (memAddr (chan s u ch).desc ((chan s u ch).acc + k) - l) 0) ∧
    (chan (readResponse tag s) u ch).acc = (chan s u ch).acc + n ∧
    (chan (readResponse tag s) u ch).drained = (chan s u ch).drained ∧
    (readResponse tag s).core.reqs = s.core.reqs.filter (fun q => decide (q.tag ≠ tag)) := by
  have hlen := length_streamBytes (chan s u ch).desc (chan s u ch).acc n l data
  have hfill := filled (s := untracked tag s) (u := u) (ch := ch)
    (l := streamBytes (chan s u ch).desc (chan s u ch).acc n l data) (hlen.trans_le hle) fun k hk => hclean k (hlen ▸ hk)
  rw [hlen] at hfill
  obtain ⟨hbytes, hacc, hdrained, hcore⟩ := hfill
  rw [h.readResponse_eq hat hload hparts hpos hcnt hdenied hheld hcore]
  refine ⟨fun k hk => (hbytes k hk).trans (getD_streamBytes data hk), hacc, hdrained, ?_⟩
  rw [← reqs_untracked, ← hcore]
  rfl

/-- The state in which a read that failed with `c` halts its channel. -/
def readFailed (tag u ch c : Nat) (s : State) : State :=
  if c = 0x0401 then updChan (dropReq tag s) u ch fun x => { x with poisoned := true } else dropReq tag s

theorem readFailed_keeps (tag u ch c : Nat) (s : State) : (chan (readFailed tag u ch c s) u ch).st = (chan s u ch).st ∧
    (chan (readFailed tag u ch c s) u ch).desc = (chan s u ch).desc ∧
    (chan (readFailed tag u ch c s) u ch).haltAt = (chan s u ch).haltAt ∧
    (readFailed tag u ch c s).csr = s.csr ∧ (readFailed tag u ch c s).mem = s.mem := by
  unfold readFailed
  split
  · rw [chan_updChan_same]
    exact ⟨rfl, rfl, rfl, rfl, rfl⟩
  · exact ⟨rfl, rfl, rfl, rfl, rfl⟩

/-- A read that failed halts its channel at its position. -/
theorem Sole.failed (h : Sole s u ch tag r) {a n c : Nat} (hload : isLoad r = true)
    (hparts : r.parts = [⟨a, n, some (.failed c)⟩]) : ∃ addr,
    readResponse tag s = chanHalt u ch (haltCode c) r.pos addr (readFailed tag u ch c s) := by
  have hfind : s.core.reqs.find? (fun r => decide (r.tag = tag) && r.chan && isLoad r) = some r :=
    h.find (by simp [h.tagged, h.ofChan, hload]) fun q hq => by
      simp only [Bool.and_eq_true, decide_eq_true_eq] at hq
      exact hq.1.1
  unfold readResponse readFailed
  simp only [hfind, hparts, h.orphan, h.unit, h.idx, Bool.false_eq_true, if_false]
  exact ⟨_, rfl⟩

/-! ### STREAM_WRITE_ACK -/

/-- The write answered next in the ring's order. -/
def nextWrite (u ch : Nat) (s : State) : Option Req :=
  (chanReqs s u ch).find? fun r => !isLoad r && !r.tracked && decide (r.pos = (chan s u ch).drained)

theorem retireAll_of_none (h : nextWrite u ch s = none) (fuel : Nat) : retireAll fuel u ch s = s := by
  cases fuel with
  | zero => rfl
  | succ fuel =>
    unfold nextWrite at h
    rw [retireAll]
    simp only [h]

theorem retireAll_of_some (h : nextWrite u ch s = some r) (fuel : Nat) :
    retireAll (fuel + 1) u ch s = retireAll fuel u ch (dropReq r.tag (drainBytes u ch r.cnt s)) := by
  unfold nextWrite at h
  rw [retireAll]
  simp only [h]

/-- Bytes that leave the ring count as drained. -/
theorem drained_drainBytes (n : Nat) (hspill : (chan s u ch).spIn = (chan s u ch).spOut) :
    (chan (drainBytes u ch n s) u ch).drained = (chan s u ch).drained + n ∧
    (chan (drainBytes u ch n s) u ch).acc = (chan s u ch).acc ∧ (drainBytes u ch n s).mem = s.mem ∧
    (drainBytes u ch n s).core = s.core := by
  unfold drainBytes
  rw [refill_of_unspilled]
  · rw [chan_of_strm (plotCtr_strm _ _ _ _), chan_updChan_same, plotCtr_mem, plotCtr_core]
    dsimp only
    split <;> exact ⟨rfl, rfl, rfl, rfl⟩
  · rw [chan_updChan_same]
    dsimp only
    split <;> exact hspill

/-- The write at the ring's start is done. -/
theorem Sole.retired (h : Sole s u ch tag r) {a n : Nat} (hspill : (chan s u ch).spIn = (chan s u ch).spOut)
    (hstore : isLoad r = false) (hparts : r.parts = [⟨a, n, some (.status 0)⟩]) (hpos : r.pos = (chan s u ch).drained) :
    (chan (writeAck tag s) u ch).drained = (chan s u ch).drained + r.cnt ∧
    (chan (writeAck tag s) u ch).acc = (chan s u ch).acc ∧ (writeAck tag s).mem = s.mem ∧
    (writeAck tag s).core.reqs = s.core.reqs.filter (fun q => decide (q.tag ≠ tag)) := by
  have hfind : s.core.reqs.find? (fun r => decide (r.tag = tag) && r.chan && !isLoad r && r.tracked) = some r :=
    h.find (by simp [h.tagged, h.ofChan, hstore, h.track]) fun q hq => by
      simp only [Bool.and_eq_true, decide_eq_true_eq] at hq
      exact hq.1.1.1
  have hnext : nextWrite u ch (untracked tag s) = some { r with tracked := false } :=
    h.next (by simp only [Bool.and_eq_true, decide_eq_true_eq, Bool.not_eq_true']; exact ⟨⟨hstore, trivial⟩, hpos⟩) fun q hq => by
      simp only [Bool.and_eq_true, Bool.not_eq_true'] at hq
      exact hq.1.2
  have hack : writeAck tag s = retireAll ((untracked tag s).core.reqs.length + 1) u ch (untracked tag s) := by
    unfold writeAck
    simp only [hfind, hparts, h.orphan, h.unit, h.idx, Bool.false_eq_true, if_false]
    rfl
  obtain ⟨hdrained, hacc, hmem, hcore⟩ := drained_drainBytes (s := untracked tag s) (u := u) (ch := ch) r.cnt hspill
  have hreqs : (dropReq tag (drainBytes u ch r.cnt (untracked tag s))).core.reqs =
      s.core.reqs.filter (fun q => decide (q.tag ≠ tag)) := by
    rw [← reqs_untracked, ← hcore]
    rfl
  have hnone : nextWrite u ch (dropReq tag (drainBytes u ch r.cnt (untracked tag s))) = none :=
    h.none_left (fun q hq => by
      simp only [Bool.and_eq_true, Bool.not_eq_true'] at hq
      exact hq.1.2) hreqs
  rw [hack, retireAll_of_some hnext]
  dsimp only
  rw [h.tagged, retireAll_of_none hnone]
  exact ⟨hdrained, hacc, hmem, hreqs⟩

end

/-- Settles O33: the issue by its cases, the answers by the one access that is taken up. -/
theorem channelAccessesMoveBytes : Obligations.ChannelAccessesMoveBytes := by
  unfold Obligations.ChannelAccessesMoveBytes
  intro s u ch a l n tag x r data hu hch hx hst hmode hat hspill
  subst hx
  refine ⟨fun hpick hread ha hl hn => ⟨fun hin hxlat hown => ?_, fun hout => ?_⟩, fun hpick => ?_,
    fun hmem htag honly hhere hchan horphan htrack hunit hidx hrest => ?_⟩
  · refine ⟨_, runs_of_channel hu hch rfl, ?_⟩
    rw [issueNext_of_read hpick hread, issueRead_of_elsewhere ha hl hin hxlat hown, ← hn]
    exact ⟨_, rfl, rfl, rfl, rfl, rfl, rfl, rfl, rfl, rfl, congrArg Chan.issued (chan_updChan_same _ _ _ _), rfl, rfl⟩
  · refine ⟨_, runs_of_channel hu hch rfl, ?_⟩
    rw [issueNext_of_read hpick hread, issueRead_of_outside hout]
    exact haltsAt _ _ _ hst hmode hat
  · exact (runs_of_channel hu hch rfl).trans (congrArg _ (issueNext_of_unpicked hpick))
  have hsole : Sole s u ch tag r := ⟨hmem, htag, honly, hhere, hchan, horphan, htrack, hunit, hidx, hrest⟩
  refine ⟨fun hload hparts hpos hcnt hdenied hheld hle hclean => ?_, fun c hload hparts => ?_, fun hstore hparts hpos => ?_⟩
  · exact ⟨_, hsole.runs_read, hsole.accepted hat hload hparts hpos hcnt hdenied hheld hle hclean⟩
  · obtain ⟨addr, hhalt⟩ := hsole.failed hload hparts
    obtain ⟨hst', hdesc, hat', hcsr, hmem'⟩ := readFailed_keeps tag u ch c s
    obtain ⟨hstate, hcode, hpos, -, hkept⟩ := haltsAt (haltCode c) r.pos addr (hst'.trans hst)
      (by rw [hdesc, (lowKept_of_csr hcsr).plots.abortMode, hmode]) (hat'.trans hat)
    refine ⟨_, hsole.runs_read, ?_⟩
    rw [hhalt]
    exact ⟨hstate, hcode, hpos, hkept.trans hmem'⟩
  · exact ⟨_, hsole.runs_ack, hsole.retired hspill hstore hparts hpos⟩

end Sys2Proof.Machine
end

section
/-!
PROOFS. Waiting for a page (R291, R295): how channels enter PAGE_WAIT, how they resume, and how they halt where the page cannot
be made present; each is a fold over channels, of which one step touches its own channel only.
-/
namespace Sys2Proof.Machine
open Sys2Proof

/-- Over a list, a step for an element that is in it reaches what every step keeps. -/
theorem foldl_reaches {α β : Type} {F : β → α → β} {I Q : β → Prop} {l : List α} (hI : ∀ t, ∀ a ∈ l, I t → I (F t a))
    (hQ : ∀ t, ∀ a ∈ l, I t → Q t → Q (F t a)) {a : α} (ha : a ∈ l) (hget : ∀ t, I t → Q (F t a)) {s : β} (hs : I s) :
    Q (l.foldl F s) := by
  have hkeep : ∀ (m : List α), (∀ b ∈ m, b ∈ l) → ∀ t, I t → Q t → Q (m.foldl F t) := by
    intro m
    induction m with
    | nil => exact fun _ _ _ hq => hq
    | cons b m ih =>
      intro hm t hi hq
      have hb := hm b List.mem_cons_self
      exact ih (fun c hc => hm c (List.mem_cons_of_mem b hc)) _ (hI t b hb hi) (hQ t b hb hi hq)
  have hreach : ∀ (m : List α), (∀ b ∈ m, b ∈ l) → a ∈ m → ∀ t, I t → Q (m.foldl F t) := by
    intro m
    induction m with
    | nil => exact fun _ h => absurd h List.not_mem_nil
    | cons b m ih =>
      intro hm ham t hi
      have hm' : ∀ c ∈ m, c ∈ l := fun c hc => hm c (List.mem_cons_of_mem b hc)
      rcases List.mem_cons.mp ham with rfl | ham
      · exact hkeep m hm' _ (hI t a ha hi) (hget t hi)
      · exact ih hm' ham _ (hI t b (hm b List.mem_cons_self) hi)
  exact hreach l (fun _ h => h) ha s hs

/-- What every step over a list keeps holds after it. -/
theorem foldl_holds {α β : Type} {F : β → α → β} {I : β → Prop} {l : List α} (hI : ∀ t, ∀ a ∈ l, I t → I (F t a)) {s : β}
    (hs : I s) : I (l.foldl F s) := by
  induction l generalizing s with
  | nil => exact hs
  | cons a l ih => exact ih (fun t b hb => hI t b (List.mem_cons_of_mem a hb)) (hI s a List.mem_cons_self hs)

section
variable {s t : State} {u ch p page : Nat}

/-- The channel at a key of the table. -/
def chanAt (s : State) (k : Nat) : Chan := chan s (k / 4) (k % 4)

theorem chanAt_key (hch : ch < 4) (s : State) (u : Nat) : chanAt s (chanKey u ch) = chan s u ch := by
  have hkey : chanKey u ch / 4 = u ∧ chanKey u ch % 4 = ch := by unfold chanKey; omega
  rw [chanAt, hkey.1, hkey.2]

theorem chanAt_of_strm (h : t.strm = s.strm) (k : Nat) : chanAt t k = chanAt s k := chan_of_strm h _ _

theorem chanAt_of_unlisted {k : Nat} (h : k ∉ mkeys s.strm.chans) : chanAt s k = Chan.closed := by
  unfold chanAt chan
  rw [chanKey_split]
  exact mget_of_not_mem h

theorem listed_of_open {k : Nat} (h : (chanAt s k).st ≠ 0) : k ∈ mkeys s.strm.chans := by
  by_contra hnot
  exact h (by rw [chanAt_of_unlisted hnot]; rfl)

theorem listed_of_page {k : Nat} {g : Nat × Nat} (h : (chanAt s k).page = some g) : k ∈ mkeys s.strm.chans := by
  by_contra hnot
  rw [chanAt_of_unlisted hnot] at h
  cases h

/-! ### The channels that wait -/

/-- The channels that wait for one page. -/
def waitersAt (p page : Nat) (s : State) : List (Nat × Nat) := pageWaiters s fun q g => decide (q = p) && decide (g = page)

theorem mem_pageWaiters {f : Nat → Nat → Bool} {e : Nat × Nat} (h : e ∈ pageWaiters s f) :
    ∃ q g, (chan s e.1 e.2).page = some (q, g) ∧ f q g = true ∧ e.2 < 4 := by
  obtain ⟨k, -, hk⟩ := List.mem_filterMap.mp h
  split at hk
  · next q g hpage =>
    split at hk
    · next hf =>
      rw [← Option.some.inj hk]
      exact ⟨q, g, hpage, hf, Nat.mod_lt _ (by decide)⟩
    · cases hk
  · cases hk

theorem pageWaiters_of_page {f : Nat → Nat → Bool} {k q g : Nat} (h : (chanAt s k).page = some (q, g)) (hf : f q g = true) :
    (k / 4, k % 4) ∈ pageWaiters s f := by
  refine List.mem_filterMap.mpr ⟨k, listed_of_page h, ?_⟩
  have hpage : (chan s (k / 4) (k % 4)).page = some (q, g) := h
  simp only [hpage, hf, if_true]

theorem mem_waitersAt {e : Nat × Nat} (h : e ∈ waitersAt p page s) : (chan s e.1 e.2).page = some (p, page) ∧ e.2 < 4 := by
  obtain ⟨q, g, hpage, hf, hlt⟩ := mem_pageWaiters h
  simp only [Bool.and_eq_true, decide_eq_true_eq] at hf
  rw [hpage, hf.1, hf.2]
  exact ⟨rfl, hlt⟩

theorem waitersAt_of_page (hch : ch < 4) (h : (chan s u ch).page = some (p, page)) : (u, ch) ∈ waitersAt p page s := by
  have hkey : chanKey u ch / 4 = u ∧ chanKey u ch % 4 = ch := by unfold chanKey; omega
  have hmem := pageWaiters_of_page (f := fun q g => decide (q = p) && decide (g = page)) ((chanAt_key hch s u).symm ▸ h)
    (by simp)
  rwa [hkey.1, hkey.2] at hmem

/-! ### PAGE_WAIT -/

/-- A channel in PAGE_WAIT for a page. -/
def waitingChan (p page : Nat) (x : Chan) : Chan :=
  { x with st := if x.st = 5 then 5 else 2, code := 0x0301, pageWaits := satAdd 16 x.pageWaits 1, page := some (p, page)
           haltAt := some x.issued }

theorem enterPageWait_of_live {k : Nat} (h : abortMode s (k / 4) (chanAt s k).desc = false) :
    enterPageWait p page s k = logLimited 0x0301 p 0x23 none (memAddr (chanAt s k).desc (chanAt s k).issued)
      (plotCtr (k / 4) 5 1 (updChan s (k / 4) (k % 4) (waitingChan p page))) :=
  if_neg (by rw [chanAt] at h; rw [h]; exact Bool.false_ne_true)

/-- What a channel that enters PAGE_WAIT leaves. -/
structure WaitKept (s t : State) : Prop where
  csr  : t.csr = s.csr
  mem  : t.mem = s.mem
  core : t.core = s.core
  host : t.host = s.host
  out  : t.out = s.out
  desc : ∀ k, (chanAt t k).desc = (chanAt s k).desc

theorem WaitKept.refl (s : State) : WaitKept s s := ⟨rfl, rfl, rfl, rfl, rfl, fun _ => rfl⟩

theorem WaitKept.trans {v : State} (h : WaitKept s t) (h' : WaitKept t v) : WaitKept s v :=
  ⟨h'.csr.trans h.csr, h'.mem.trans h.mem, h'.core.trans h.core, h'.host.trans h.host, h'.out.trans h.out,
    fun k => (h'.desc k).trans (h.desc k)⟩

theorem chanAt_enterPageWait {k : Nat} (h : abortMode s (k / 4) (chanAt s k).desc = false) (j : Nat) :
    chanAt (enterPageWait p page s k) j = if j = k then waitingChan p page (chanAt s k) else chanAt s j := by
  rw [enterPageWait_of_live h, chanAt_of_strm ((logLimited_strm _ _ _ _ _ _).trans (plotCtr_strm _ _ _ _)), chanAt, chan_updChan,
    chanKey_split, chanKey_split]
  rfl

theorem waitKept_enterPageWait {k : Nat} (h : abortMode s (k / 4) (chanAt s k).desc = false) :
    WaitKept s (enterPageWait p page s k) := by
  refine ⟨?_, ?_, ?_, ?_, ?_, fun j => ?_⟩
  · rw [enterPageWait_of_live h, logLimited_csr, plotCtr_csr, updChan_csr]
  · rw [enterPageWait_of_live h, logLimited_mem, plotCtr_mem, updChan_mem]
  · rw [enterPageWait_of_live h, logLimited_core, plotCtr_core, updChan_core]
  · rw [enterPageWait_of_live h, logLimited_host, plotCtr_host, updChan_host]
  · rw [enterPageWait_of_live h, logLimited_out, plotCtr_out, updChan_out]
  · rw [chanAt_enterPageWait h]
    split
    · next hj => rw [hj]; rfl
    · rfl

theorem WaitKept.live (h : WaitKept s t) {k : Nat} (hk : abortMode s (k / 4) (chanAt s k).desc = false) :
    abortMode t (k / 4) (chanAt t k).desc = false := by
  rw [h.desc, (lowKept_of_csr h.csr).plots.abortMode, hk]

section
variable {l : List Nat} (hlive : ∀ k ∈ l, abortMode s (k / 4) (chanAt s k).desc = false)
include hlive

theorem waitKept_enterPageWaits : WaitKept s (l.foldl (enterPageWait p page) s) :=
  foldl_holds (I := WaitKept s) (fun _ k hk h => h.trans (waitKept_enterPageWait (h.live (hlive k hk))))
    (.refl s)

/-- A channel that is not named stays. -/
theorem chanAt_enterPageWaits_other {k : Nat} (hk : k ∉ l) : chanAt (l.foldl (enterPageWait p page) s) k = chanAt s k :=
  (foldl_holds (I := fun t => WaitKept s t ∧ chanAt t k = chanAt s k) (fun t j hj ⟨h, hsame⟩ =>
    ⟨h.trans (waitKept_enterPageWait (h.live (hlive j hj))), by
      rw [chanAt_enterPageWait (h.live (hlive j hj)), if_neg (fun hkj : k = j => hk (hkj ▸ hj)), hsame]⟩)
    ⟨(.refl s), rfl⟩).2

/-- A named channel waits for the page. -/
theorem page_enterPageWaits {k : Nat} (hk : k ∈ l) : (chanAt (l.foldl (enterPageWait p page) s) k).page = some (p, page) := by
  refine foldl_reaches (I := WaitKept s) (Q := fun t => (chanAt t k).page = some (p, page))
    (fun _ j hj h => h.trans (waitKept_enterPageWait (h.live (hlive j hj)))) (fun t j hj h hq => ?_) hk (fun t h => ?_)
    (.refl s)
  · rw [chanAt_enterPageWait (h.live (hlive j hj))]
    split
    · rfl
    · exact hq
  · rw [chanAt_enterPageWait (h.live (hlive k hk)), if_pos rfl]
    rfl

/-- A named channel that was open is in PAGE_WAIT. -/
theorem wait_enterPageWaits {k : Nat} (hk : k ∈ l) (hst : (chanAt s k).st = 1) :
    (chanAt (l.foldl (enterPageWait p page) s) k).st = 2 ∧ (chanAt (l.foldl (enterPageWait p page) s) k).code = 0x0301 := by
  have hkeep : ∀ t, ∀ j ∈ l, WaitKept s t ∧ (chanAt t k).st ≠ 5 →
      WaitKept s (enterPageWait p page t j) ∧ (chanAt (enterPageWait p page t j) k).st ≠ 5 := fun t j hj ⟨h, hne⟩ => by
    refine ⟨h.trans (waitKept_enterPageWait (h.live (hlive j hj))), ?_⟩
    rw [chanAt_enterPageWait (h.live (hlive j hj))]
    split
    · next hkj => exact (if_neg (hkj ▸ hne)).trans_ne (by decide)
    · exact hne
  refine foldl_reaches (I := fun t => WaitKept s t ∧ (chanAt t k).st ≠ 5)
    (Q := fun t => (chanAt t k).st = 2 ∧ (chanAt t k).code = 0x0301) hkeep (fun t j hj h hq => ?_) hk (fun t h => ?_)
    ⟨(.refl s), hst.trans_ne (by decide)⟩
  · rw [chanAt_enterPageWait (h.1.live (hlive j hj))]
    split
    · next hkj => exact ⟨if_neg (hkj ▸ h.2), rfl⟩
    · exact hq
  · rw [chanAt_enterPageWait (h.1.live (hlive k hk)), if_pos rfl]
    exact ⟨if_neg h.2, rfl⟩

end

/-! ### Channels resume -/

theorem chan_resumeChan_other {v k : Nat} (h : chanKey v k ≠ chanKey u ch) : chan (resumeChan u ch s) v k = chan s v k := by
  rw [resumeChan_eq, chan_setChan, if_neg h]
  rfl

/-- The state but for the channels and the accesses in flight. -/
def besideMoves (s : State) : State := { s with core := { s.core with reqs := [] }, strm := { s.strm with chans := [] } }

theorem besideMoves_resumeChans (l : List (Nat × Nat)) (s : State) :
    besideMoves (l.foldl (fun s e => resumeChan e.1 e.2 s) s) = besideMoves s :=
  foldl_keeps besideMoves _ (fun _ _ => by rfl) l s

/-- A named channel that waits goes on. -/
theorem open_resumeChans {l : List (Nat × Nat)} (hl : ∀ e ∈ l, e.2 < 4) (hch : ch < 4) (hmem : (u, ch) ∈ l)
    (hst : (chan s u ch).st = 2) : (chan (l.foldl (fun s e => resumeChan e.1 e.2 s) s) u ch).st = 1 ∧
      (chan (l.foldl (fun s e => resumeChan e.1 e.2 s) s) u ch).page = none ∧
      (chan (l.foldl (fun s e => resumeChan e.1 e.2 s) s) u ch).haltAt = none := by
  have hstep (t : State) (e : Nat × Nat) (he : e ∈ l) : chan (resumeChan e.1 e.2 t) u ch =
      if (u, ch) = e then resumedChan (chan t u ch) else chan t u ch := by
    split
    · next hue => subst hue; exact chan_resumeChan _ _ _
    · next hue =>
      refine chan_resumeChan_other fun hkey => hue ?_
      obtain ⟨h1, h2⟩ := (chanKey_inj (hl e he) hch).mp hkey
      exact Prod.ext h1 h2
  refine foldl_reaches (I := fun t => (chan t u ch).st ≠ 5)
    (Q := fun t => (chan t u ch).st = 1 ∧ (chan t u ch).page = none ∧ (chan t u ch).haltAt = none)
    (fun t e he hne => ?_) (fun t e he hne hq => ?_) hmem (fun t hne => ?_) (hst.trans_ne (by decide))
  · rw [hstep t e he]
    split
    · exact (if_neg hne).trans_ne (by decide)
    · exact hne
  · rw [hstep t e he]
    split
    · exact ⟨if_neg hne, rfl, rfl⟩
    · exact hq
  · rw [chan_resumeChan]
    exact ⟨if_neg hne, rfl, rfl⟩

end

end Sys2Proof.Machine
end

section
/-!
PROOFS. Pages that cannot be made present (R291, R296, R473): the channels that wait halt, the accesses of contexts fail, and the
record of the translation goes.
-/
namespace Sys2Proof.Machine
open Sys2Proof

section
variable {s t v : State} {u ch p page : Nat} {write : Bool}

/-! ### Channels that can go no further -/

/-- No open channel is in abort mode (R298). -/
def NoAborts (s : State) : Prop := ∀ k, (chanAt s k).st ≠ 0 → abortMode s (k / 4) (chanAt s k).desc = false

theorem NoAborts.mono (h : NoAborts s) (hplots : PlotsKept s t) (hstrm : t.strm = s.strm) : NoAborts t := fun k hk => by
  rw [chanAt_of_strm hstrm] at hk ⊢
  rw [hplots.abortMode, h k hk]

theorem noAborts_of_listed (h : ∀ k ∈ mkeys s.strm.chans, abortMode s (k / 4) (chanAt s k).desc = false) : NoAborts s :=
  fun k hk => h k (listed_of_open hk)

/-- What becomes of the channel of `pageFail`. -/
inductive Failed (code u ch : Nat) (s t : State) : Prop
  | stayed (hst : (chan s u ch).st = 0 ∨ (chan s u ch).st = 4) (h : t = s)
  | closed (hst : (chan s u ch).st = 5) (hlive : (chan t u ch).st = 0)
  | halted (hst : (chan t u ch).st = 3) (hcode : (chan t u ch).code = code)
      (hdesc : (chan t u ch).desc = (chan s u ch).desc) (hopen : (chan s u ch).st ≠ 0 ∧ (chan s u ch).st ≠ 5)

/-- What a failing page leaves alone: the memories, the host side, the registers below the core pages, the other channels. -/
structure FailKept (u ch : Nat) (s t : State) : Prop where
  mem    : t.mem = s.mem
  host   : t.host = s.host
  words  : LowKept s t
  others : ∀ k, k ≠ chanKey u ch → chanAt t k = chanAt s k

theorem FailKept.refl (u ch : Nat) (s : State) : FailKept u ch s s := ⟨rfl, rfl, fun _ _ => rfl, fun _ _ => rfl⟩

theorem FailKept.trans (h : FailKept u ch s t) (h' : FailKept u ch t v) : FailKept u ch s v :=
  ⟨h'.mem.trans h.mem, h'.host.trans h.host, h.words.trans h'.words, fun k hk => (h'.others k hk).trans (h.others k hk)⟩

theorem failKept_updChan (u ch : Nat) (f : Chan → Chan) (s : State) : FailKept u ch s (updChan s u ch f) :=
  ⟨rfl, rfl, fun _ _ => rfl, fun k hk => by rw [chanAt, chan_updChan, chanKey_split, if_neg hk]; rfl⟩

theorem failKept_logErr (code src : Nat) (plot : Option Nat) (info : Nat) (s : State) :
    FailKept u ch s (logErr code src plot info s) := ⟨rfl, rfl, fun _ _ => rfl, fun _ _ => rfl⟩

theorem failKept_closeChan (hopen : (chan s u ch).st ≠ 0) : FailKept u ch s (closeChan u ch s) := by
  have hclosed := channelClosed_closeChan hopen
  obtain ⟨hmem, hhost, -⟩ := hclosed.parts
  exact ⟨hmem, hhost, hclosed.words.low (bankWords_high u), fun k hk => by
    simp only [chanAt, chan, chanKey_split]
    exact hclosed.others k hk⟩

theorem chanHalt_of_gone (code pos addr : Nat) (h : (chan s u ch).st = 0 ∨ (chan s u ch).st = 4) :
    chanHalt u ch code pos addr s = s := by
  have hguard : (!chanOpen (chan s u ch) || decide ((chan s u ch).st = 4)) = true := by
    rcases h with h | h <;> simp [chanOpen, h]
  unfold chanHalt
  exact if_pos hguard

theorem chanHalt_of_closing (code pos addr : Nat) (h5 : (chan s u ch).st = 5)
    (hmode : abortMode s u (chan s u ch).desc = false) : chanHalt u ch code pos addr s =
      closeChan u ch (chanCode u ch code (logErr code (srcOf u) (plotOf s u) addr s)) := by
  have hguard : (!chanOpen (chan s u ch) || decide ((chan s u ch).st = 4)) ≠ true := by simp [chanOpen, h5]
  unfold chanHalt
  exact (if_neg hguard).trans ((if_neg (by rw [hmode]; exact Bool.false_ne_true)).trans (if_pos h5))

theorem failed_chanHalt (code pos addr : Nat) (hmode : (chan s u ch).st ≠ 0 → abortMode s u (chan s u ch).desc = false) :
    FailKept u ch s (chanHalt u ch code pos addr s) ∧ Failed code u ch s (chanHalt u ch code pos addr s) := by
  by_cases hgone : (chan s u ch).st = 0 ∨ (chan s u ch).st = 4
  · rw [chanHalt_of_gone code pos addr hgone]
    exact ⟨.refl u ch s, .stayed hgone rfl⟩
  obtain ⟨h0, h4⟩ := not_or.mp hgone
  have hlog := failKept_logErr (u := u) (ch := ch) code (srcOf u) (plotOf s u) addr s
  have hsame : chan (logErr code (srcOf u) (plotOf s u) addr s) u ch = chan s u ch := rfl
  by_cases h5 : (chan s u ch).st = 5
  · rw [chanHalt_of_closing code pos addr h5 (hmode h0), chanCode]
    generalize logErr code (srcOf u) (plotOf s u) addr s = t at hlog hsame
    have hopen : (chan (updChan t u ch fun x => { x with code := code }) u ch).st ≠ 0 := by
      rw [chan_updChan_same, hsame]
      exact h0
    refine ⟨(hlog.trans (failKept_updChan u ch _ t)).trans (failKept_closeChan hopen), .closed h5 ?_⟩
    rw [(channelClosed_closeChan hopen).chan]
    rfl
  · rw [chanHalt_of_live code pos addr h0 h4 h5 (hmode h0)]
    generalize logErr code (srcOf u) (plotOf s u) addr s = t at hlog hsame
    refine ⟨hlog.trans (failKept_updChan u ch _ t), .halted ?_ ?_ ?_ ⟨h0, h5⟩⟩
    all_goals rw [chan_updChan_same]
    · rfl
    · rfl
    · rw [hsame]
      rfl

/-- `pageFail` halts its channel. -/
theorem failed_pageFail (code : Nat) (e : Nat × Nat) (he : e.2 < 4) (h : NoAborts s) :
    FailKept e.1 e.2 s (pageFail code s e) ∧ Failed code e.1 e.2 s (pageFail code s e) :=
  failed_chanHalt code _ _ fun hst => by
    have hkey : chanKey e.1 e.2 / 4 = e.1 := by unfold chanKey; omega
    have hmode := h (chanKey e.1 e.2)
    rw [chanAt_key he, hkey] at hmode
    exact hmode hst

theorem noAborts_pageFail (code : Nat) (e : Nat × Nat) (he : e.2 < 4) (h : NoAborts s) : NoAborts (pageFail code s e) := by
  obtain ⟨hkept, hfailed⟩ := failed_pageFail code e he h
  intro k hk
  rw [hkept.words.plots.abortMode]
  by_cases hke : k = chanKey e.1 e.2
  · subst hke
    have hsame : chanAt s (chanKey e.1 e.2) = chan s e.1 e.2 := chanAt_key he _ _
    have hmode := h (chanKey e.1 e.2)
    rw [hsame] at hmode
    rw [chanAt_key he] at hk ⊢
    cases hfailed with
    | stayed _ hstays => rw [hstays] at hk ⊢; exact hmode hk
    | closed _ hst => exact absurd hst hk
    | halted _ _ hdesc hopen => rw [hdesc]; exact hmode hopen.1
  · rw [hkept.others k hke] at hk ⊢
    exact h k hk

/-- A channel is halted for `code`. -/
def HaltedFor (code u ch : Nat) (s : State) : Prop := (chan s u ch).st = 3 ∧ (chan s u ch).code = code

theorem haltedFor_pageFail {code : Nat} (hch : ch < 4) (h : NoAborts s)
    (hst : (chan s u ch).st = 2 ∨ (chan s u ch).st = 3) : HaltedFor code u ch (pageFail code s (u, ch)) := by
  obtain ⟨-, hfailed⟩ := failed_pageFail code (u, ch) hch h
  cases hfailed with
  | stayed hgone _ => exact absurd hst (by dsimp only at hgone; omega)
  | closed hclosing _ => exact absurd hst (by dsimp only at hclosing; omega)
  | halted hst hcode _ _ => exact ⟨hst, hcode⟩

theorem chan_pageFail_other {code : Nat} {e : Nat × Nat} (he : e.2 < 4) (hch : ch < 4) (h : NoAborts s) (hne : e ≠ (u, ch)) :
    chan (pageFail code s e) u ch = chan s u ch := by
  have hkey : chanKey u ch ≠ chanKey e.1 e.2 := fun hkey => by
    obtain ⟨h1, h2⟩ := (chanKey_inj he hch).mp hkey
    exact hne (Prod.ext h1.symm h2.symm)
  have hother := (failed_pageFail code e he h).1.others _ hkey
  rwa [chanAt_key hch, chanAt_key hch] at hother

section
variable {code : Nat} {l : List (Nat × Nat)} (hl : ∀ e ∈ l, e.2 < 4) (hs : NoAborts s)
include hl hs

theorem noAborts_pageFails : NoAborts (l.foldl (pageFail code) s) :=
  foldl_holds (I := NoAborts) (fun _ e he h => noAborts_pageFail code e (hl e he) h) hs

theorem kept_pageFails : (l.foldl (pageFail code) s).mem = s.mem ∧ (l.foldl (pageFail code) s).host = s.host ∧
    LowKept s (l.foldl (pageFail code) s) :=
  (foldl_holds (I := fun t => NoAborts t ∧ t.mem = s.mem ∧ t.host = s.host ∧ LowKept s t)
    (fun _ e he ⟨h, hmem, hhost, hwords⟩ => by
      obtain ⟨hkept, -⟩ := failed_pageFail code e (hl e he) h
      exact ⟨noAborts_pageFail code e (hl e he) h, hkept.mem.trans hmem, hkept.host.trans hhost, hwords.trans hkept.words⟩)
    ⟨hs, rfl, rfl, fun _ _ => rfl⟩).2

theorem chan_pageFails_other (hch : ch < 4) (hnot : (u, ch) ∉ l) : chan (l.foldl (pageFail code) s) u ch = chan s u ch :=
  (foldl_holds (I := fun t => NoAborts t ∧ chan t u ch = chan s u ch) (fun _ e he ⟨h, hsame⟩ =>
    ⟨noAborts_pageFail code e (hl e he) h,
      (chan_pageFail_other (hl e he) hch h fun (heq : e = (u, ch)) => hnot (heq ▸ he)).trans hsame⟩) ⟨hs, rfl⟩).2

/-- A channel that waits, and is named or halted already, is halted. -/
theorem haltedFor_pageFails (hch : ch < 4) (h : (u, ch) ∈ l ∧ (chan s u ch).st = 2 ∨ HaltedFor code u ch s) :
    HaltedFor code u ch (l.foldl (pageFail code) s) := by
  have halts (t : State) (e : Nat × Nat) (he : e ∈ l) (ht : NoAborts t) (hst : HaltedFor code u ch t) :
      HaltedFor code u ch (pageFail code t e) := by
    by_cases heq : e = (u, ch)
    · rw [heq]
      exact haltedFor_pageFail hch ht (.inr hst.1)
    · unfold HaltedFor
      rw [chan_pageFail_other (hl e he) hch ht heq]
      exact hst
  rcases h with ⟨hmem, hst⟩ | hhalted
  · refine foldl_reaches (I := fun t => NoAborts t ∧ ((chan t u ch).st = 2 ∨ (chan t u ch).st = 3))
      (Q := HaltedFor code u ch) (fun t e he ⟨ht, hst⟩ => ⟨noAborts_pageFail code e (hl e he) ht, ?_⟩)
      (fun t e he ⟨ht, _⟩ hq => halts t e he ht hq) hmem (fun t ⟨ht, hst⟩ => haltedFor_pageFail hch ht hst) ⟨hs, .inl hst⟩
    by_cases heq : e = (u, ch)
    · rw [heq]
      exact .inr (haltedFor_pageFail hch ht hst).1
    · rwa [chan_pageFail_other (hl e he) hch ht heq]
  · exact (foldl_holds (I := fun t => NoAborts t ∧ HaltedFor code u ch t) (fun t e he ⟨ht, hq⟩ =>
      ⟨noAborts_pageFail code e (hl e he) ht, halts t e he ht hq⟩) ⟨hs, hhalted⟩).2

end

/-! ### The accesses of contexts -/

/-- The state but for the registers, the accesses in flight, the host side's list of reads sent, and the logs. -/
def hostKept (s : State) : State :=
  { s with csr := [], log := LogSt.reset, core := { s.core with reqs := [] }, host := { s.host with sent := [] } }

/-- The count of a read that fails (R471). -/
def poisonCounted (p tag : Nat) (s : State) : State :=
  match findReq s tag with
  | some r => if isLoad r then satFld s (HOSTIF_PORT_CNT p) HOSTIF_PORT_CNT_POISONED 1 else s
  | none => s

/-- A part is answered with a failure, and no read of it stands as sent. -/
def partFailed (tag i code : Nat) (s : State) : State :=
  answerPart tag i (.failed code) { s with host := { s.host with sent := s.host.sent.filter fun e => decide (e ≠ (tag, i)) } }

/-- One access of a context to the page fails. -/
def ctxFailed (p : Nat) (s : State) (e : Nat × Nat) : State :=
  logErr 0x0803 0x23 none 0 (satFld (partFailed e.1 e.2 0x0803 (poisonCounted p e.1 s)) (HOSTIF_PORT_CNT p)
    HOSTIF_PORT_CNT_TRANS_FAILS 1)

theorem failCtxPage_eq (p page : Nat) (write : Bool) (s : State) :
    failCtxPage p page write s = (ctxAtPage s p page write).foldl (ctxFailed p) s := rfl

theorem hostKept_satFld (s : State) (r : Nat) (f : Fld) (n : Nat) : hostKept (satFld s r f n) = hostKept s := rfl
theorem hostKept_logErr (code src : Nat) (plot : Option Nat) (info : Nat) (s : State) :
    hostKept (logErr code src plot info s) = hostKept s := rfl
theorem hostKept_partFailed (tag i code : Nat) (s : State) : hostKept (partFailed tag i code s) = hostKept s := rfl

theorem hostKept_poisonCounted (p tag : Nat) (s : State) : hostKept (poisonCounted p tag s) = hostKept s := by
  unfold poisonCounted
  split
  · split
    · exact hostKept_satFld _ _ _ _
    · rfl
  · rfl

theorem hostKept_failCtxPage (p page : Nat) (write : Bool) (s : State) : hostKept (failCtxPage p page write s) = hostKept s := by
  rw [failCtxPage_eq]
  exact foldl_keeps hostKept (ctxFailed p) (fun t e => by
    rw [ctxFailed, hostKept_logErr, hostKept_satFld, hostKept_partFailed, hostKept_poisonCounted]) _ s

theorem wordsKept_satFld (s : State) (r : Nat) (f : Fld) (n : Nat) : WordsKept s (satFld s r f n) [r + 8 * f.word] :=
  wordsKept_setFld _ _ _ _

theorem wordsKept_poisonCounted (p tag : Nat) (s : State) : WordsKept s (poisonCounted p tag s) [HOSTIF_PORT_CNT p] := by
  unfold poisonCounted
  split
  · split
    · exact wordsKept_satFld _ _ _ _
    · exact fun _ _ => rfl
  · exact fun _ _ => rfl

theorem wordsKept_ctxFailed (p : Nat) (s : State) (e : Nat × Nat) : WordsKept s (ctxFailed p s e) [HOSTIF_PORT_CNT p] := by
  have hcounted := wordsKept_poisonCounted p e.1 s
  unfold ctxFailed
  generalize poisonCounted p e.1 s = t at hcounted
  have hsame : WordsKept t (partFailed e.1 e.2 0x0803 t) [HOSTIF_PORT_CNT p] := fun o _ => rget_of_csr rfl o
  generalize partFailed e.1 e.2 0x0803 t = v at hsame
  exact (hcounted.trans hsame).trans ((wordsKept_satFld v _ _ _).trans fun o _ => rget_of_csr (logErr_csr _ _ _ _ _) o)

theorem wordsKept_failCtxPage (p page : Nat) (write : Bool) (s : State) :
    WordsKept s (failCtxPage p page write s) [HOSTIF_PORT_CNT p] := by
  rw [failCtxPage_eq]
  exact wordsKept_foldl _ (fun t e _ => wordsKept_ctxFailed p t e) s

/-! ### A page is given up -/

/-- The registers below the core pages but the port's counts. -/
def PortKept (p : Nat) (s t : State) : Prop := ∀ o, o < 0x1000000 → o ≠ HOSTIF_PORT_CNT p → rget t o = rget s o

theorem PortKept.plots (h : PortKept p s t) : PlotsKept s t := fun q hq =>
  h _ (by unfold PLOT_CFG; omega) (by unfold PLOT_CFG HOSTIF_PORT_CNT; omega)

theorem PortKept.status (hp : p < 2) (h : PortKept p s t) (f : Fld) (hf : f.word = 0) :
    fld t (HOSTIF_PORT_STATUS p) f = fld s (HOSTIF_PORT_STATUS p) f :=
  fld_of_rget (h _ (by unfold HOSTIF_PORT_STATUS; omega) (by unfold HOSTIF_PORT_STATUS HOSTIF_PORT_CNT; omega))

/-- The translations on record but those for a page. -/
def otherPages (p page : Nat) (write : Bool) (s : State) : List XlatReq :=
  s.host.xreqs.filter fun r => !(decide (r.port = p) && decide (r.page = page) && decide (r.write = write))

/-- What giving up a page leaves. -/
structure PageGone (p page : Nat) (write : Bool) (s t : State) : Prop where
  mem    : t.mem = s.mem
  xreqs  : t.host.xreqs = otherPages p page write s
  stops  : t.host.prqStop = s.host.prqStop
  words  : PortKept p s t
  live   : NoAborts t
  halted : ∀ u ch, ch < 4 → (chan s u ch).st = 2 → (chan s u ch).page = some (p, page) → HaltedFor 0x0307 u ch t
  others : ∀ u ch, ch < 4 → (chan s u ch).page ≠ some (p, page) → chan t u ch = chan s u ch

theorem pageGone_pageGone (h : NoAborts s) (page : Nat) (write : Bool) :
    PageGone p page write s (pageGone p page write s) := by
  have hforgotten : ∃ v : State, v = { s with host := { s.host with xreqs := otherPages p page write s } } := ⟨_, rfl⟩
  obtain ⟨v, hv⟩ := hforgotten
  have hgone : pageGone p page write s = failCtxPage p page write ((waitersAt p page v).foldl (pageFail 0x0307) v) := by
    rw [hv]
    rfl
  have hstrm : v.strm = s.strm := by rw [hv]
  have hcsr : v.csr = s.csr := by rw [hv]
  have hlive : NoAborts v := h.mono (lowKept_of_csr hcsr).plots hstrm
  have hl : ∀ e ∈ waitersAt p page v, e.2 < 4 := fun e he => (mem_waitersAt he).2
  obtain ⟨hmem, hhost, hlow⟩ := kept_pageFails (code := 0x0307) hl hlive
  have hlive' := noAborts_pageFails (code := 0x0307) hl hlive
  have hhalted (u ch : Nat) := haltedFor_pageFails (u := u) (ch := ch) (code := 0x0307) hl hlive
  have hothers (u ch : Nat) := chan_pageFails_other (u := u) (ch := ch) (code := 0x0307) hl hlive
  rw [hgone]
  generalize (waitersAt p page v).foldl (pageFail 0x0307) v = t at hmem hhost hlow hlive' hhalted hothers
  have hkept := hostKept_failCtxPage p page write t
  have hwords := wordsKept_failCtxPage p page write t
  generalize failCtxPage p page write t = w at hkept hwords
  have hchans : w.strm = t.strm := (congrArg State.strm hkept).trans rfl
  have hport : PortKept p t w := fun o _ hne => hwords o (by simpa using hne)
  have hport' : PortKept p s w := fun o ho hne => (hport o ho hne).trans ((hlow o ho).trans (rget_of_csr hcsr o))
  refine ⟨?_, ?_, ?_, hport', hlive'.mono (hport.plots) hchans, fun u ch hch hst hpage => ?_, fun u ch hch hpage => ?_⟩
  · rw [show w.mem = t.mem from (congrArg State.mem hkept).trans rfl, hmem, hv]
  · rw [show w.host.xreqs = t.host.xreqs from (congrArg (fun a => a.host.xreqs) hkept).trans rfl, hhost, hv]
  · rw [show w.host.prqStop = t.host.prqStop from (congrArg (fun a => a.host.prqStop) hkept).trans rfl, hhost, hv]
  · unfold HaltedFor
    rw [chan_of_strm hchans]
    rw [← chan_of_strm hstrm] at hst hpage
    exact hhalted u ch hch (.inl ⟨waitersAt_of_page hch hpage, hst⟩)
  · rw [chan_of_strm hchans, ← chan_of_strm hstrm]
    rw [← chan_of_strm hstrm] at hpage
    exact hothers u ch hch fun hmem => hpage (mem_waitersAt hmem).1

end

end Sys2Proof.Machine
end

section
/-!
PROOFS. Translations (R295, R296, R472, R473): what a completion, a page response and an invalidation do to the one translation of
a port that is outstanding, then the obligation.
-/
namespace Sys2Proof.Machine
open Sys2Proof

section
variable {s t : State} {p page fails prq : Nat} {write : Bool}

/-- The translation of a page that is outstanding, asked for as a page or not. -/
def xlat (p page : Nat) (write asked : Bool) (fails : Nat) : XlatReq := ⟨p, page, write, asked, false, fails⟩

/-! ### The completion -/

/-- The channels whose next access is to the page. -/
def keysAt (p page : Nat) (write : Bool) (s : State) : List Nat := (mkeys s.strm.chans).filter (chanAtPage s p page write)

/-- The state once the channels at a page wait for it. -/
def pageMissed (p page : Nat) (write : Bool) (s : State) : State := (keysAt p page write s).foldl (enterPageWait p page) s

theorem exec_completion {base pages : Nat} {rd wr : Bool} (hp : p < 2) (hpage : page < 2 ^ 36)
    (hx : s.host.xreqs = [xlat p page write false fails]) : exec (.atsTranslationCompletion p page write base pages rd wr) s =
      .next (if base ≤ page ∧ page < base + pages ∧ (if write then wr else rd) = true then
        xlatArrived (xlat p page write false fails) base pages rd wr s else xlatFailed (xlat p page write false fails) s) := by
  have hfind : s.host.xreqs.find? (fun r => decide (r.port = p) && decide (r.page = page) && decide (r.write = write) &&
      xlatOut r) = some (xlat p page write false fails) := by
    rw [hx]
    simp [xlat, xlatOut]
  refine (runIf_of (by simp only [wfAtsTranslationCompletion, Bool.and_eq_true, decide_eq_true_eq]; exact ⟨hp, hpage⟩) _).trans ?_
  rw [hfind]

theorem exec_missed {base pages : Nat} {rd wr : Bool} (hp : p < 2) (hpage : page < 2 ^ 36)
    (hx : s.host.xreqs = [xlat p page write false fails])
    (hmiss : page < base ∨ base + pages ≤ page ∨ (if write then wr else rd) = false) :
    exec (.atsTranslationCompletion p page write base pages rd wr) s = .next (xlatFailed (xlat p page write false fails) s) := by
  have hnot : ¬ (base ≤ page ∧ page < base + pages ∧ (if write then wr else rd) = true) := by
    rintro ⟨hlo, hhi, hperm⟩
    rw [hperm] at hmiss
    rcases hmiss with h | h | h
    · omega
    · omega
    · cases h
  rw [exec_completion hp hpage hx, if_neg hnot]

theorem only_dropped {r : XlatReq} (hx : s.host.xreqs = [r]) : s.host.xreqs.filter (fun q => decide (q ≠ r)) = [] := by
  simp [hx]

theorem xlatArrived_of_only {r : XlatReq} (hx : s.host.xreqs = [r]) (base pages : Nat) (rd wr : Bool) :
    xlatArrived r base pages rd wr s =
      { s with host := { s.host with atc := (⟨r.port, base, pages, rd, wr⟩ :: s.host.atc).take 8192, xreqs := [] } } := by
  unfold xlatArrived
  rw [only_dropped hx]

theorem dropXlat_of_only {r : XlatReq} (hx : s.host.xreqs = [r]) :
    dropXlat r s = { s with host := { s.host with xreqs := [] } } := by
  unfold dropXlat
  rw [only_dropped hx]

theorem xlatFailed_eq (r : XlatReq) (s : State) : xlatFailed r s =
    if !pageWanted (pageMissed r.port r.page r.write s) r then dropXlat r (pageMissed r.port r.page r.write s)
    else if 4 ≤ r.fails || !priOn (pageMissed r.port r.page r.write s) r.port then
      pageGone r.port r.page r.write (pageMissed r.port r.page r.write s)
    else sendPages r.port (updXlat r { r with want := true, fails := r.fails + 1 } (pageMissed r.port r.page r.write s)) := rfl

/-- Where nothing waits for the page, its translation ends. -/
theorem xlatFailed_of_unwanted {r : XlatReq} (hx : s.host.xreqs = [r])
    (hkeys : ∀ k ∈ mkeys s.strm.chans, chanAtPage s r.port r.page r.write k = false)
    (hwait : waitersAt r.port r.page s = []) (hctx : ctxAtPage s r.port r.page r.write = []) :
    xlatFailed r s = { s with host := { s.host with xreqs := [] } } := by
  have hnone : keysAt r.port r.page r.write s = [] := List.filter_eq_nil_iff.mpr fun k hk => by simp [hkeys k hk]
  have hmissed : pageMissed r.port r.page r.write s = s := by rw [pageMissed, hnone]; rfl
  have hwanted : pageWanted s r = false := by
    unfold waitersAt at hwait
    rw [pageWanted, hwait, hctx]
    rfl
  rw [xlatFailed_eq, hmissed, if_pos (by simp [hwanted]), dropXlat_of_only hx]

/-- The channels at the page wait for it, so that it is wanted. -/
theorem xlatFailed_of_wanted {r : XlatReq}
    (hlive : ∀ k ∈ mkeys s.strm.chans, abortMode s (k / 4) (chanAt s k).desc = false)
    (hkeys : ∃ k ∈ mkeys s.strm.chans, chanAtPage s r.port r.page r.write k = true) : xlatFailed r s =
      if 4 ≤ r.fails || !priOn s r.port then pageGone r.port r.page r.write (pageMissed r.port r.page r.write s)
      else sendPages r.port (updXlat r { r with want := true, fails := r.fails + 1 } (pageMissed r.port r.page r.write s)) := by
  obtain ⟨k, hlisted, hat⟩ := hkeys
  have hlive' : ∀ k ∈ keysAt r.port r.page r.write s, abortMode s (k / 4) (chanAt s k).desc = false :=
    fun k hk => hlive k (List.mem_of_mem_filter hk)
  have hpage := page_enterPageWaits (p := r.port) (page := r.page) hlive' (List.mem_filter.mpr ⟨hlisted, hat⟩)
  have hkept : WaitKept s (pageMissed r.port r.page r.write s) := waitKept_enterPageWaits hlive'
  have hpri : priOn (pageMissed r.port r.page r.write s) r.port = priOn s r.port := by
    unfold priOn
    rw [flag_of_csr hkept.csr, hkept.host]
  have hwanted : pageWanted (pageMissed r.port r.page r.write s) r = true := by
    unfold pageWanted
    rw [Bool.or_eq_true]
    exact .inl (List.any_eq_true.mpr ⟨_, pageWaiters_of_page (f := fun q g => decide (q = r.port) && decide (g = r.page)) hpage
      (by simp), rfl⟩)
  rw [xlatFailed_eq, hpri, if_neg (by simp [hwanted])]

/-- The channels that are in PAGE_WAIT once a translation has failed. -/
theorem missed {k : Nat} (hlive : ∀ k ∈ mkeys s.strm.chans, abortMode s (k / 4) (chanAt s k).desc = false)
    (hk : k ∈ mkeys s.strm.chans) (hat : chanAtPage s p page write k = true) (hst : (chanAt s k).st = 1) :
    (chanAt (pageMissed p page write s) k).st = 2 ∧ (chanAt (pageMissed p page write s) k).code = 0x0301 ∧
      (chanAt (pageMissed p page write s) k).page = some (p, page) := by
  have hlive' : ∀ k ∈ keysAt p page write s, abortMode s (k / 4) (chanAt s k).desc = false :=
    fun k hk => hlive k (List.mem_of_mem_filter hk)
  have hmem : k ∈ keysAt p page write s := List.mem_filter.mpr ⟨hk, hat⟩
  obtain ⟨hwait, hcode⟩ := wait_enterPageWaits (p := p) (page := page) hlive' hmem hst
  exact ⟨hwait, hcode, page_enterPageWaits hlive' hmem⟩

theorem waitKept_pageMissed (p page : Nat) (write : Bool)
    (hlive : ∀ k ∈ mkeys s.strm.chans, abortMode s (k / 4) (chanAt s k).desc = false) :
    WaitKept s (pageMissed p page write s) :=
  waitKept_enterPageWaits fun k hk => hlive k (List.mem_of_mem_filter hk)

theorem noAborts_pageMissed (p page : Nat) (write : Bool)
    (hlive : ∀ k ∈ mkeys s.strm.chans, abortMode s (k / 4) (chanAt s k).desc = false) :
    NoAborts (pageMissed p page write s) := fun k hk => by
  have hlive' : ∀ k ∈ keysAt p page write s, abortMode s (k / 4) (chanAt s k).desc = false :=
    fun k hk => hlive k (List.mem_of_mem_filter hk)
  by_cases hlisted : k ∈ mkeys s.strm.chans
  · exact (waitKept_pageMissed p page write hlive).live (hlive k hlisted)
  · have hsame : chanAt (pageMissed p page write s) k = chanAt s k :=
      chanAt_enterPageWaits_other hlive' fun hk => hlisted (List.mem_of_mem_filter hk)
    exact absurd (by rw [hsame, chanAt_of_unlisted hlisted]; rfl) hk

/-! ### The page requests that are outstanding -/

/-- The port counts `n` page requests as outstanding. -/
def prqSet (p n : Nat) (s : State) : State := setFld s (HOSTIF_PORT_STATUS p) HOSTIF_PORT_STATUS_PRQ_OUT n

theorem prqSet_keeps (p n : Nat) (s : State) : (prqSet p n s).mem = s.mem ∧ (prqSet p n s).core = s.core ∧
    (prqSet p n s).strm = s.strm ∧ (prqSet p n s).out = s.out ∧ (prqSet p n s).host = s.host :=
  ⟨setFld_mem _ _ _ _, setFld_core _ _ _ _, setFld_strm _ _ _ _, setFld_out _ _ _ _, setFld_host _ _ _ _⟩

theorem fld_prqSet {n : Nat} (h : n < 1024) (p : Nat) (s : State) :
    fld (prqSet p n s) (HOSTIF_PORT_STATUS p) HOSTIF_PORT_STATUS_PRQ_OUT = n := by
  rw [prqSet, fld_setFld _ _ _ _ (by decide)]
  exact Nat.mod_eq_of_lt h

theorem plotsKept_prqSet (hp : p < 2) (n : Nat) (s : State) : PlotsKept s (prqSet p n s) := fun q _ =>
  wordsKept_setFld s _ _ _ _ (by simp only [List.mem_singleton, HOSTIF_PORT_STATUS, HOSTIF_PORT_STATUS_PRQ_OUT, PLOT_CFG]; omega)

/-! ### Page requests leave -/

/-- Page requests that wait to leave. -/
def pageWants (p : Nat) (s : State) : List XlatReq := s.host.xreqs.filter fun r => decide (r.port = p) && r.want

theorem sendPages_of_none (h : pageWants p s = []) : sendPages p s = s := by
  unfold pageWants at h
  unfold sendPages
  rw [h]
  rfl

/-- A page request leaves, once it is counted as outstanding. -/
def pageSent (p : Nat) (r : XlatReq) (s : State) : State :=
  emit (.pageRequest p r.page r.write true) (updXlat r { r with asked := true, want := false } (bumpCtr (149 + 8 * p) 1 s))

/-- One page request more is outstanding. -/
def pageCounted (p : Nat) (s : State) : State := prqSet p (fld s (HOSTIF_PORT_STATUS p) HOSTIF_PORT_STATUS_PRQ_OUT + 1) s

/-- The one request that waits leaves, where there is room. -/
theorem sendPages_of_one {r : XlatReq} (h : pageWants p s = [r])
    (hroom : fld s (HOSTIF_PORT_STATUS p) HOSTIF_PORT_STATUS_PRQ_OUT < min 512 (mget 0 s.host.prqAlloc p)) (hpri : priOn s p = true) :
    sendPages p s = pageSent p r (pageCounted p s) := by
  have hnext : nextPage s p = some r := by
    unfold pageWants at h
    unfold nextPage
    rw [h]
    rfl
  have hguard : (decide (min 512 (mget 0 s.host.prqAlloc p) ≤ fld s (HOSTIF_PORT_STATUS p) HOSTIF_PORT_STATUS_PRQ_OUT) ||
      !priOn s p) ≠ true := by
    simpa [hpri] using Nat.lt_min.mp hroom
  have hone : sendPages p s = sendPage p s := by
    unfold pageWants at h
    unfold sendPages
    rw [h]
    rfl
  rw [hone, sendPage, if_neg hguard, hnext, bumpFld, pageSent, pageCounted, prqSet]

theorem xreqs_updXlat {r : XlatReq} (hx : s.host.xreqs = [r]) (r' : XlatReq) : (updXlat r r' s).host.xreqs = [r'] := by
  simp [updXlat, hx]

theorem updXlat_keeps (r r' : XlatReq) (s : State) : (updXlat r r' s).csr = s.csr ∧ (updXlat r r' s).mem = s.mem ∧
    (updXlat r r' s).core = s.core ∧ (updXlat r r' s).strm = s.strm ∧ (updXlat r r' s).out = s.out ∧
    (updXlat r r' s).host.prqAlloc = s.host.prqAlloc ∧ (updXlat r r' s).host.prqStop = s.host.prqStop :=
  ⟨rfl, rfl, rfl, rfl, rfl, rfl, rfl⟩

theorem pageSent_keeps (p : Nat) (r : XlatReq) (s : State) : (pageSent p r s).mem = s.mem ∧ (pageSent p r s).core = s.core ∧
    (pageSent p r s).strm = s.strm ∧ (pageSent p r s).out = .pageRequest p r.page r.write true :: s.out ∧
    (pageSent p r s).csr = s.csr := ⟨rfl, rfl, rfl, rfl, rfl⟩

theorem xreqs_pageSent {r : XlatReq} (hx : s.host.xreqs = [r]) :
    (pageSent p r s).host.xreqs = [{ r with asked := true, want := false }] :=
  xreqs_updXlat (s := bumpCtr (149 + 8 * p) 1 s) hx _

/-- The one translation of a port, of which its page is wanted. -/
def wantedXlat (p page : Nat) (write : Bool) (fails : Nat) : XlatReq := ⟨p, page, write, false, true, fails + 1⟩

/-- What the request of a page leaves. -/
structure PageAsked (p page : Nat) (write : Bool) (fails prq : Nat) (s t : State) : Prop where
  xreqs : t.host.xreqs = [xlat p page write true (fails + 1)]
  mem   : t.mem = s.mem
  core  : t.core = s.core
  strm  : t.strm = s.strm
  out   : t.out = .pageRequest p page write true :: s.out
  prq   : fld t (HOSTIF_PORT_STATUS p) HOSTIF_PORT_STATUS_PRQ_OUT = prq + 1

/-- The one translation of a port is asked for as a page. -/
theorem pageAsked_sendPages (hx : s.host.xreqs = [xlat p page write false fails]) (hpri : priOn s p = true)
    (hprq : fld s (HOSTIF_PORT_STATUS p) HOSTIF_PORT_STATUS_PRQ_OUT = prq) (hroom : prq < min 512 (mget 0 s.host.prqAlloc p)) :
    PageAsked p page write fails prq s
      (sendPages p (updXlat (xlat p page write false fails) (wantedXlat p page write fails) s)) := by
  have hwant := xreqs_updXlat hx (wantedXlat p page write fails)
  obtain ⟨hcsr, hmem, hcore, hstrm, hout, halloc, hstop⟩ :=
    updXlat_keeps (xlat p page write false fails) (wantedXlat p page write fails) s
  generalize updXlat (xlat p page write false fails) (wantedXlat p page write fails) s = w at *
  have hone : pageWants p w = [wantedXlat p page write fails] := by
    unfold pageWants
    rw [hwant]
    simp [wantedXlat]
  have hprq' := (fld_of_csr hcsr (HOSTIF_PORT_STATUS p) HOSTIF_PORT_STATUS_PRQ_OUT).trans hprq
  have hpri' : priOn w p = true := by rw [← hpri, priOn, priOn, flag_of_csr hcsr, hstop]
  rw [sendPages_of_one hone (by rwa [hprq', halloc]) hpri']
  have hlt : prq < 512 := Nat.lt_of_lt_of_le hroom (Nat.min_le_left _ _)
  rw [pageCounted, hprq']
  have hcount := fld_prqSet (show prq + 1 < 1024 by omega) p w
  obtain ⟨hmem', hcore', hstrm', hout', hhost'⟩ := prqSet_keeps p (prq + 1) w
  generalize prqSet p (prq + 1) w = c at *
  obtain ⟨hmem'', hcore'', hstrm'', hout'', hcsr''⟩ := pageSent_keeps p (wantedXlat p page write fails) c
  refine ⟨(xreqs_pageSent (by rw [hhost', hwant])).trans rfl, ?_, ?_, ?_, ?_, (fld_of_csr hcsr'' _ _).trans hcount⟩
  · rw [hmem'', hmem', hmem]
  · rw [hcore'', hcore', hcore]
  · rw [hstrm'', hstrm', hstrm]
  · rw [hout'', hout', hout]
    rfl

/-- A translation that failed, where a channel's next access is to the page: the page is asked for. -/
theorem xlatFailed_asks (hlive : ∀ k ∈ mkeys s.strm.chans, abortMode s (k / 4) (chanAt s k).desc = false)
    (hkeys : ∃ k ∈ mkeys s.strm.chans, chanAtPage s p page write k = true)
    (hx : s.host.xreqs = [xlat p page write false fails]) (hfails : fails < 4) (hpri : priOn s p = true)
    (hprq : fld s (HOSTIF_PORT_STATUS p) HOSTIF_PORT_STATUS_PRQ_OUT = prq) (hroom : prq < min 512 (mget 0 s.host.prqAlloc p)) :
    PageAsked p page write fails prq (pageMissed p page write s) (xlatFailed (xlat p page write false fails) s) := by
  have hguard : (decide (4 ≤ fails) || !priOn s p) ≠ true := by simp [hpri, hfails]
  have hkept := waitKept_pageMissed p page write hlive
  rw [(xlatFailed_of_wanted (r := xlat p page write false fails) hlive hkeys).trans (if_neg hguard)]
  exact pageAsked_sendPages (by rw [hkept.host, hx]) (by rw [priOn, flag_of_csr hkept.csr, hkept.host]; exact hpri)
    ((fld_of_csr hkept.csr _ _).trans hprq) (by rw [hkept.host]; exact hroom)

/-- After the fifth failure, or without page requests, the page is given up. -/
theorem xlatFailed_givesUp (hlive : ∀ k ∈ mkeys s.strm.chans, abortMode s (k / 4) (chanAt s k).desc = false)
    (hkeys : ∃ k ∈ mkeys s.strm.chans, chanAtPage s p page write k = true) (hgiven : 4 ≤ fails ∨ priOn s p = false) :
    PageGone p page write (pageMissed p page write s) (xlatFailed (xlat p page write false fails) s) := by
  have hguard : (decide (4 ≤ fails) || !priOn s p) = true := by simpa using hgiven
  rw [(xlatFailed_of_wanted (r := xlat p page write false fails) hlive hkeys).trans (if_pos hguard)]
  exact pageGone_pageGone (noAborts_pageMissed p page write hlive) page write

/-! ### The page response -/

/-- One page request fewer is outstanding. -/
def pageAnswered (p : Nat) (s : State) : State := prqSet p (fld s (HOSTIF_PORT_STATUS p) HOSTIF_PORT_STATUS_PRQ_OUT - 1) s

/-- A page response is counted off, and nothing else is touched. -/
structure AnswerTaken (p : Nat) (s t : State) : Prop where
  mem  : t.mem = s.mem
  strm : t.strm = s.strm
  out  : t.out = s.out
  host : t.host = s.host
  live : NoAborts t
  prq  : fld t (HOSTIF_PORT_STATUS p) HOSTIF_PORT_STATUS_PRQ_OUT + 1 = fld s (HOSTIF_PORT_STATUS p) HOSTIF_PORT_STATUS_PRQ_OUT

theorem answerTaken_pageAnswered (hp : p < 2) (hlive : NoAborts s)
    (hpos : 0 < fld s (HOSTIF_PORT_STATUS p) HOSTIF_PORT_STATUS_PRQ_OUT) : AnswerTaken p s (pageAnswered p s) := by
  have hlt : fld s (HOSTIF_PORT_STATUS p) HOSTIF_PORT_STATUS_PRQ_OUT < 1024 := fld_lt s _ _
  unfold pageAnswered
  generalize hn : fld s (HOSTIF_PORT_STATUS p) HOSTIF_PORT_STATUS_PRQ_OUT = n at *
  obtain ⟨hmem, -, hstrm, hout, hhost⟩ := prqSet_keeps p (n - 1) s
  refine ⟨hmem, hstrm, hout, hhost, hlive.mono (plotsKept_prqSet hp _ s) hstrm, ?_⟩
  rw [fld_prqSet (by omega), hn]
  omega

/-- The translation is asked for once more. -/
def askedAgain (p page : Nat) (r : XlatReq) (s : State) : State :=
  emit (.translationRequest p page r.write) (bumpCtr (150 + 8 * p) 1 s)

/-- The port asks for no more pages. -/
def pagesStopped (p : Nat) (s : State) : State :=
  { s with host := { s.host with prqStop := mset false s.host.prqStop p true } }

/-- The translations of a port that wait for a page. -/
def pagesOut (p : Nat) (s : State) : List XlatReq := s.host.xreqs.filter fun q => decide (q.port = p) && !xlatOut q

/-- What a page response does for the translation it answers (R296). -/
def answerPage (p page : Nat) (r : XlatReq) (s : State) : PageResp → State
  | .success =>
    let t := updXlat r { r with asked := false } s
    sendPages p ((waitersAt p page t).foldl (fun s e => resumeChan e.1 e.2 s) (askedAgain p page r t))
  | .invalid => sendPages p (pageGone p page r.write s)
  | .failure =>
    let t := (pagesOut p (pagesStopped p s)).foldl (fun s q => pageGone p q.page q.write s) (prqSet p 0 (pagesStopped p s))
    (pageWaiters t fun q _ => decide (q = p)).foldl (pageFail 0x0307) t

theorem find_asked (hx : s.host.xreqs = [xlat p page write true fails]) :
    s.host.xreqs.find? (fun r => decide (r.port = p) && decide (r.page = page) && r.asked) = some (xlat p page write true fails) := by
  rw [hx]
  simp [xlat]

theorem exec_response (hp : p < 2) (hpage : page < 2 ^ 36) (hx : s.host.xreqs = [xlat p page write true fails])
    (resp : PageResp) : exec (.pageResponse p page resp) s =
      .next (answerPage p page (xlat p page write true fails) (pageAnswered p s) resp) := by
  have hwf : wfPageResponse p page resp = true := by
    simp only [wfPageResponse, Bool.and_eq_true, decide_eq_true_eq]
    exact ⟨hp, hpage⟩
  refine (runIf_of hwf _).trans ?_
  rw [find_asked hx]
  cases resp <;> rfl

theorem pageWants_of_only {r : XlatReq} (hx : s.host.xreqs = [r]) (hr : r.want = false) : pageWants p s = [] := by
  simp [pageWants, hx, hr]

theorem otherPages_of_only {asked : Bool} (hx : s.host.xreqs = [xlat p page write asked fails]) : otherPages p page write s = [] := by
  simp [otherPages, hx, xlat]

/-- A page that is there: its translation is asked for again, and the channels that wait for it go on. -/
theorem answered_success (hx : s.host.xreqs = [xlat p page write true fails]) : ∃ t,
    answerPage p page (xlat p page write true fails) s .success = t ∧ t.host.xreqs = [xlat p page write false fails] ∧
    t.mem = s.mem ∧ t.out = .translationRequest p page write :: s.out ∧ t.csr = s.csr ∧
    ∀ u ch, ch < 4 → (chan s u ch).st = 2 → (chan s u ch).page = some (p, page) →
      (chan t u ch).st = 1 ∧ (chan t u ch).page = none ∧ (chan t u ch).haltAt = none := by
  have hasked := xreqs_updXlat hx (xlat p page write false fails)
  obtain ⟨hcsr, hmem, -, hstrm, hout, -, -⟩ := updXlat_keeps (xlat p page write true fails) (xlat p page write false fails) s
  refine ⟨_, rfl, ?_⟩
  have hanswer : answerPage p page (xlat p page write true fails) s .success =
      sendPages p ((waitersAt p page (updXlat (xlat p page write true fails) (xlat p page write false fails) s)).foldl
        (fun s e => resumeChan e.1 e.2 s) (askedAgain p page (xlat p page write true fails)
          (updXlat (xlat p page write true fails) (xlat p page write false fails) s))) := rfl
  rw [hanswer]
  generalize updXlat (xlat p page write true fails) (xlat p page write false fails) s = w at *
  have hmoves := besideMoves_resumeChans (waitersAt p page w) (askedAgain p page (xlat p page write true fails) w)
  have hopen (u ch : Nat) := open_resumeChans (s := askedAgain p page (xlat p page write true fails) w) (u := u) (ch := ch)
    (fun e he => (mem_waitersAt (p := p) (page := page) (s := w) he).2)
  generalize (waitersAt p page w).foldl (fun s e => resumeChan e.1 e.2 s) (askedAgain p page (xlat p page write true fails) w) = z
    at hmoves hopen
  have hhost : z.host = w.host := (congrArg State.host hmoves).trans rfl
  rw [sendPages_of_none (pageWants_of_only (by rw [hhost, hasked]) rfl)]
  refine ⟨by rw [hhost, hasked], ?_, ?_, ?_, fun u ch hch hst hpage => hopen u ch hch ?_ ?_⟩
  · exact ((congrArg State.mem hmoves).trans rfl).trans hmem
  · rw [← hout]
    exact (congrArg State.out hmoves).trans rfl
  · exact ((congrArg State.csr hmoves).trans rfl).trans hcsr
  · rw [← chan_of_strm hstrm] at hpage
    exact waitersAt_of_page hch hpage
  · exact (congrArg Chan.st (chan_of_strm hstrm u ch)).trans hst

/-- A page that cannot be there: the channels that wait for it halt. -/
theorem answered_invalid (hp : p < 2) (hlive : NoAborts s) (hx : s.host.xreqs = [xlat p page write true fails]) : ∃ t,
    answerPage p page (xlat p page write true fails) s .invalid = t ∧ t.host.xreqs = [] ∧ t.mem = s.mem ∧
    fld t (HOSTIF_PORT_STATUS p) HOSTIF_PORT_STATUS_PRQ_OUT = fld s (HOSTIF_PORT_STATUS p) HOSTIF_PORT_STATUS_PRQ_OUT ∧
    ∀ u ch, ch < 4 → (chan s u ch).st = 2 → (chan s u ch).page = some (p, page) → HaltedFor 0x0307 u ch t := by
  have hgone := pageGone_pageGone hlive (p := p) page write
  have hnone : (pageGone p page write s).host.xreqs = [] := hgone.xreqs.trans (otherPages_of_only hx)
  have hsent : sendPages p (pageGone p page write s) = pageGone p page write s :=
    sendPages_of_none (by simp [pageWants, hnone])
  exact ⟨_, hsent, hnone, hgone.mem, hgone.words.status hp _ rfl, hgone.halted⟩

/-- The host fails: every channel that waits at the port halts, and the port asks for no more pages. -/
theorem answered_failure (hp : p < 2) (hlive : NoAborts s) (hx : s.host.xreqs = [xlat p page write true fails]) : ∃ t,
    answerPage p page (xlat p page write true fails) s .failure = t ∧ t.host.xreqs = [] ∧ t.mem = s.mem ∧
    fld t (HOSTIF_PORT_STATUS p) HOSTIF_PORT_STATUS_PRQ_OUT = 0 ∧ mget false t.host.prqStop p = true ∧
    ∀ u ch g, ch < 4 → (chan s u ch).st = 2 → (chan s u ch).page = some (p, g) → HaltedFor 0x0307 u ch t := by
  have hall : pagesOut p (pagesStopped p s) = [xlat p page write true fails] := by
    have hstopped : (pagesStopped p s).host.xreqs = s.host.xreqs := rfl
    rw [pagesOut, hstopped, hx]
    simp [xlat, xlatOut]
  have hstop : mget false (pagesStopped p s).host.prqStop p = true := mget_mset_same false s.host.prqStop p true
  have hkept : (pagesStopped p s).strm = s.strm ∧ (pagesStopped p s).mem = s.mem ∧ (pagesStopped p s).csr = s.csr ∧
      (pagesStopped p s).host.xreqs = s.host.xreqs := ⟨rfl, rfl, rfl, rfl⟩
  refine ⟨_, rfl, ?_⟩
  simp only [answerPage, hall, List.foldl_cons, List.foldl_nil]
  generalize pagesStopped p s = v at *
  obtain ⟨hstrm, hmem, hcsr, hxreqs⟩ := hkept
  obtain ⟨hmem', -, hstrm', -, hhost'⟩ := prqSet_keeps p 0 v
  have hprq := fld_prqSet (show 0 < 1024 by decide) p v
  have hlive' : NoAborts (prqSet p 0 v) :=
    (hlive.mono (lowKept_of_csr hcsr).plots hstrm).mono (plotsKept_prqSet hp 0 v) hstrm'
  have hgone := pageGone_pageGone hlive' (p := p) page write
  simp only [xlat]
  generalize prqSet p 0 v = c at *
  have hchan (u ch : Nat) : chan c u ch = chan s u ch := chan_of_strm (hstrm'.trans hstrm) u ch
  generalize pageGone p page write c = g at *
  have hl : ∀ e ∈ pageWaiters g (fun q _ => decide (q = p)), e.2 < 4 := fun e he => by
    obtain ⟨q, n, -, -, hlt⟩ := mem_pageWaiters he
    exact hlt
  obtain ⟨hmem'', hhost'', hlow⟩ := kept_pageFails (code := 0x0307) hl hgone.live
  have hnone : otherPages p page write c = [] := otherPages_of_only (by rw [hhost', hxreqs, hx])
  refine ⟨?_, ?_, ?_, ?_, fun u ch n hch hst hpage => haltedFor_pageFails hl hgone.live hch ?_⟩
  · rw [hhost'', hgone.xreqs, hnone]
  · rw [hmem'', hgone.mem, hmem', hmem]
  · rw [hlow.fld (by unfold HOSTIF_PORT_STATUS HOSTIF_PORT_STATUS_PRQ_OUT; dsimp only; omega), hgone.words.status hp _ rfl, hprq]
  · rw [hhost'', hgone.stops, hhost', hstop]
  · rw [← hchan] at hst hpage
    by_cases hn : n = page
    · exact .inr (hgone.halted u ch hch hst (hn ▸ hpage))
    · have hsame := hgone.others u ch hch (by simp [hpage, hn])
      rw [← hsame] at hst hpage
      have hkey : chanKey u ch / 4 = u ∧ chanKey u ch % 4 = ch := by unfold chanKey; omega
      have hmem := pageWaiters_of_page (f := fun q _ => decide (q = p)) ((chanAt_key hch g u).symm ▸ hpage) (by simp)
      rw [hkey.1, hkey.2] at hmem
      exact .inl ⟨hmem, hst⟩

/-! ### Invalidation -/

theorem exec_invalidate {pages : Nat} (hp : p < 2) (hsent : s.host.sent = []) (hinv : s.host.invals = []) :
    exec (.atsInvalidate p page pages) s = .next { s with
      host := { s.host with
        atc := s.host.atc.filter (fun x => !(decide (x.port = p) && overlaps x.page x.pages page pages)), invals := [] }
      out := .invalidated p page pages :: s.out } := by
  refine (runIf_of (by simpa [wfAtsInvalidate] using hp) _).trans ?_
  simp [answerInvals, rangeUsed, hsent, hinv, emit]

end

/-- Settles O38: each row by the cases the statement names, for the one translation on record. -/
theorem translationsAndPages : Obligations.TranslationsAndPages := by
  unfold Obligations.TranslationsAndPages
  intro s p page base pages fails prq write rd wr hp hpage hprq hlive
  refine ⟨fun hx => ⟨fun hlo hhi hperm => ?_, fun hmiss => ⟨fun hkeys hfails hpri hroom => ?_, fun hkeys hgiven => ?_,
    fun hkeys hwait hctx => ?_⟩⟩, fun hx hpos => ?_, fun hsent hinv => ?_⟩
  · refine ⟨_, exec_completion hp hpage hx, ?_⟩
    rw [if_pos ⟨hlo, hhi, hperm⟩]
    exact xlatArrived_of_only hx base pages rd wr
  · have hkept := waitKept_pageMissed p page write hlive
    have hasked := xlatFailed_asks hlive hkeys hx hfails hpri hprq.symm hroom
    refine ⟨_, exec_missed hp hpage hx hmiss, hasked.xreqs, hasked.mem.trans hkept.mem, hasked.core.trans hkept.core, ?_, hasked.prq, fun k hk hat hst => ?_⟩
    · rw [← hkept.out]
      exact hasked.out
    · have hmissed := missed hlive hk hat hst
      rwa [← chanAt_of_strm hasked.strm] at hmissed
  · have hkept := waitKept_pageMissed p page write hlive
    have hgone := xlatFailed_givesUp (fails := fails) hlive hkeys hgiven
    refine ⟨_, exec_missed hp hpage hx hmiss, ?_, hgone.mem.trans hkept.mem, fun k hk hat hst => ?_⟩
    · exact hgone.xreqs.trans (otherPages_of_only (asked := false) (fails := fails) (by rw [hkept.host, hx]; rfl))
    · obtain ⟨hwaits, -, hfor⟩ := missed hlive hk hat hst
      exact hgone.halted (k / 4) (k % 4) (Nat.mod_lt _ (by decide)) hwaits hfor
  · refine ⟨_, exec_missed hp hpage hx hmiss, xlatFailed_of_unwanted (r := xlat p page write false fails) hx hkeys ?_ hctx⟩
    change waitersAt p page s = []
    simpa only [waitersAt, Bool.decide_and] using hwait
  · have hbefore := answerTaken_pageAnswered hp (noAborts_of_listed hlive) (hprq ▸ hpos)
    have hx' : (pageAnswered p s).host.xreqs = [xlat p page write true fails] := (congrArg HostSt.xreqs hbefore.host).trans hx
    have hrun := exec_response hp hpage hx
    have hone := hbefore.prq.trans hprq.symm
    generalize pageAnswered p s = v at *
    obtain ⟨t1, h1, hxreqs1, hmem1, hout1, hcsr1, hchan1⟩ := answered_success hx'
    obtain ⟨t2, h2, hxreqs2, hmem2, hprq2, hchan2⟩ := answered_invalid hp hbefore.live hx'
    obtain ⟨t3, h3, hxreqs3, hmem3, hprq3, hstop3, hchan3⟩ := answered_failure hp hbefore.live hx'
    simp only [chan_of_strm hbefore.strm] at hchan1 hchan2 hchan3
    refine ⟨⟨t1, (hrun _).trans (congrArg _ h1), hxreqs1, hmem1.trans hbefore.mem, ?_, ?_, hchan1⟩,
      ⟨t2, (hrun _).trans (congrArg _ h2), hxreqs2, hmem2.trans hbefore.mem, ?_, hchan2⟩,
      ⟨t3, (hrun _).trans (congrArg _ h3), hxreqs3, hmem3.trans hbefore.mem, hprq3, hstop3, hchan3⟩⟩
    · rw [hout1, hbefore.out]
    · rw [fld_of_csr hcsr1, hone]
    · rw [hprq2, hone]
  · exact ⟨_, exec_invalidate hp hsent hinv, rfl, rfl, rfl, rfl⟩

end Sys2Proof.Machine
end
